-- ==== Sys2Proof/Word.lean ====
section
/-!
DEFINITION. Word.lean: the word types of the block and the shape of a register handle.
Registers are 32 bits wide (R20, spec/02); wire and memory data are bytes (R5, spec/00).
-/

namespace Sys2Proof

/-- A 32-bit register word (R20). -/
abbrev Word := BitVec 32

/-- A byte of host memory, DRAM, flash or of a wire format (R5). -/
abbrev Byte := BitVec 8

/-- A register: its BAR0 offset and the word it holds after reset (R19, R20). -/
structure Reg where
  ofs : Nat
  rst : Word
deriving DecidableEq, Repr

/-- A field of a register: bits hi down to lo (R5). -/
structure Fld where
  reg : Reg
  hi : Nat
  lo : Nat
deriving DecidableEq, Repr

/-- The access kinds of R8 (spec/00). A bit that no field names is RSV. -/
inductive Acc where
  | rw | ro | w1c | wo | rwc
deriving DecidableEq, Repr

/-- The range a written RWC field is checked against (R29, R30, spec/02). -/
inductive Rng where
  /-- every value of the field -/
  | all
  /-- lo to hi, taken as an unsigned number -/
  | span (lo hi : Nat)
  /-- lo to hi, taken as a two's complement number of the given width -/
  | spanS (width : Nat) (lo hi : Int)
  /-- a rising list of allowed values -/
  | among (vs : List Nat)
  /-- codes above last take the named safe code -/
  | named (last safe : Nat)
  /-- the range depends on another field or on the state (R30) -/
  | dep
deriving DecidableEq, Repr

/-- One field of a register table. -/
structure FieldRow where
  name : String
  hi : Nat
  lo : Nat
  acc : Acc
  rng : Rng
deriving DecidableEq, Repr

/-- One register of a register table: its window-relative offset, the counts and strides it repeats with, its reset
word, whether it is shadowed (R67) and its fields. -/
structure RegRow where
  name : String
  ofs : Nat
  reps : List (Nat × Nat)
  rst : Nat
  shadowed : Bool
  fields : List FieldRow
deriving DecidableEq, Repr

end Sys2Proof
end

