-- ==== Sys2Proof/Machine/Clock.lean ====
section
/-!
DEFINITION. Machine/Clock.lean: device time (R39, R40, spec/03) and stamps in its format (R44).
The bounds of the three fields are carried by their types: a count of nanoseconds of 1,000,000,000 cannot be built.
-/

namespace Sys2Proof.Machine

/-- Device time: 48-bit seconds, nanoseconds below 1,000,000,000, and the internal fraction in units of 2^-48 ns
(R39). -/
structure Clock where
  sec : BitVec 48
  ns : Fin 1000000000
  frac48 : BitVec 48
deriving DecidableEq, Repr

/-- Units of 2^-48 ns in one nanosecond. -/
def unitsPerNs : Nat := 0x1000000000000

/-- Nanoseconds in one second. -/
def nsPerSec : Nat := 1000000000

/-- Ticks of the 25 MHz reference in one second, one millisecond and one microsecond (R7). -/
def ticksPerSec : Nat := 25000000
def ticksPerMs : Nat := 25000
def ticksPerUs : Nat := 25

/-- Device time in nanoseconds. -/
def Clock.nsTotal (c : Clock) : Nat := c.sec.toNat * 1000000000 + c.ns.val

/-- Device time in units of 2^-48 ns. -/
def Clock.units (c : Clock) : Nat := c.nsTotal * 0x1000000000000 + c.frac48.toNat

/-- The visible fraction: the upper 16 of the 48 fraction bits (R39). -/
def Clock.frac16 (c : Clock) : Nat := c.frac48.toNat / 0x100000000

/-- Device time from a count of 2^-48 ns; the seconds wrap at 48 bits. -/
def Clock.ofUnits (n : Nat) : Clock :=
  { sec := BitVec.ofNat 48 (n / 0x1000000000000 / 1000000000)
    ns := ⟨n / 0x1000000000000 % 1000000000, Nat.mod_lt _ (by decide)⟩
    frac48 := BitVec.ofNat 48 n }

/-- One tick (R40): the fraction and the nanoseconds take the frequency word with carry, and 1,000,000,000 ns make a
second. -/
def Clock.tick (c : Clock) (word : Nat) : Clock :=
  let f := c.frac48.toNat + word % 0x1000000000000
  let n := c.ns.val + word / 0x1000000000000 % 64 + f / 0x1000000000000
  { sec := if n < 1000000000 then c.sec else c.sec + 1
    ns := ⟨n % 1000000000, Nat.mod_lt _ (by decide)⟩
    frac48 := BitVec.ofNat 48 f }

/-- Device time moved by a signed amount in units of 2^-48 ns (R59); it does not pass below 0. (log 19: DESIGN CHOICE, unsafe) -/
def Clock.move (c : Clock) (d : Int) : Clock := Clock.ofUnits (Int.toNat (c.units + d))

/-- A stamp: the format of device time with a 16-bit fraction, and the COARSE mark (R44, R45). -/
structure Stamp where
  sec : Nat
  ns : Nat
  frac16 : Nat
  coarse : Bool
deriving DecidableEq, Repr

/-- A stamp in units of 2^-16 ns. -/
def Stamp.units16 (t : Stamp) : Nat := (t.sec * 1000000000 + t.ns) * 65536 + t.frac16

def Stamp.ofUnits16 (n : Nat) (coarse : Bool) : Stamp :=
  { sec := n / 65536 / 1000000000, ns := n / 65536 % 1000000000, frac16 := n % 65536, coarse := coarse }

end Sys2Proof.Machine
end

