-- ==== Sys2Proof/Machine/Sparse.lean ====
section
/-!
DEFINITION. Machine/Sparse.lean: sparse tables keyed by a number, in one canonical form: keys strictly rising, and no
entry equal to what an unlisted key reads as. Register words, host memory, DRAM, flash and the other large tables of
the block are held so, and equal tables are equal lists.
-/

namespace Sys2Proof.Machine

/-- A table from numbers to values of α. -/
abbrev Sparse (α : Type) := List (Nat × α)

/-- The value at key k; d is what an unlisted key reads as. -/
def sget {α : Type} (d : α) : Sparse α → Nat → α
  | [], _ => d
  | (a, v) :: t, k => if a = k then v else sget d t k

/-- Remove every entry with key k. -/
def sdrop {α : Type} (k : Nat) : Sparse α → Sparse α
  | [] => []
  | (a, v) :: t => if a = k then sdrop k t else (a, v) :: sdrop k t

/-- Insert a value at key k before the first key that is not below k. -/
def sins {α : Type} (k : Nat) (v : α) : Sparse α → Sparse α
  | [] => [(k, v)]
  | (a, w) :: t => if a < k then (a, w) :: sins k v t else (k, v) :: (a, w) :: t

/-- Write v at key k; writing what an unlisted key reads as removes the entry. -/
def sput {α : Type} [DecidableEq α] (d : α) (m : Sparse α) (k : Nat) (v : α) : Sparse α :=
  if v = d then sdrop k m else sins k v (sdrop k m)

/-- Keys strictly rising from lower on. -/
def risingFrom {α : Type} : Nat → Sparse α → Bool
  | _, [] => true
  | n, (a, _) :: t => decide (n ≤ a) && risingFrom (a + 1) t

/-- The canonical form: keys strictly rising and no entry equal to d. -/
def swf {α : Type} [DecidableEq α] (d : α) (m : Sparse α) : Bool :=
  risingFrom 0 m && m.all (fun e => decide (e.2 ≠ d))

end Sys2Proof.Machine
end

