-- ==== Sys2Proof/Machine/Types.lean ====
section
/-!
DEFINITION. Machine/Types.lean: the small data types that the commands and the state share.
-/

namespace Sys2Proof.Machine

/-- A line port: L-A or L-B; x in the register names. -/
inductive Line where
  | a | b
deriving DecidableEq, Repr

/-- 0 for L-A, 1 for L-B. -/
def Line.ix : Line → Nat
  | .a => 0
  | .b => 1

def Line.other : Line → Line
  | .a => .b
  | .b => .a

def Line.ofIx (n : Nat) : Line := if n % 2 = 0 then .a else .b

/-- A value for each line port. -/
structure PerLine (α : Type) where
  a : α
  b : α
deriving DecidableEq, Repr

def PerLine.get {α : Type} (p : PerLine α) : Line → α
  | .a => p.a
  | .b => p.b

def PerLine.set {α : Type} (p : PerLine α) (x : Line) (v : α) : PerLine α :=
  match x with
  | .a => { p with a := v }
  | .b => { p with b := v }

/-- The two 25 MHz references (R62). -/
inductive RefClock where
  | ref25 | ref25b
deriving DecidableEq, Repr

/-- What a SECDED-protected read finds (R165, R269, R293). -/
inductive Ecc where
  | clean | corrected | uncorrectable
deriving DecidableEq, Repr

/-- A receive lane with a pattern checker: a line lane (R80) or a server lane (R210). -/
inductive RxLane where
  | line (x : Line) (r : Fin 8)
  | server (q : Fin 16) (l : Fin 4)
deriving DecidableEq, Repr

/-- A transmit lane with a pattern generator. -/
inductive TxLane where
  | line (x : Line) (t : Fin 4)
  | server (q : Fin 16) (l : Fin 4)
deriving DecidableEq, Repr

/-- A generator or a checker. -/
inductive PrbsLane where
  | gen (t : TxLane)
  | chk (r : RxLane)
deriving DecidableEq, Repr

/-- The head of a downstream management message and where it came from: the channel and the FRAME of the FSB that carries it,
its target terminal ID and its sequence number (R127, R128). -/
structure LmmHead where
  chan : Fin 8
  frame : BitVec 48
  term : BitVec 12
  seq : BitVec 16
deriving DecidableEq, Repr

/-- The payload of a TIME_ANCHOR (R295): frame N, the head-end time, EQRT, and the dataset bytes 28 to 43. -/
structure AnchorBody where
  frame : BitVec 48
  sec : BitVec 48
  ns : BitVec 30
  frac : BitVec 16
  eqrt : BitVec 32
  flags : BitVec 8
  gmClass : BitVec 8
  utc : BitVec 16
  accuracy : BitVec 8
  steps : BitVec 8
  variance : BitVec 16
  identity : BitVec 64
deriving DecidableEq, Repr

/-- Two cipher engines that disagree (R194): the two, and which of them the third computation faults: 0 the first, 1 the
second, 2 both. -/
structure EngineMiss where
  first : Fin 18
  second : Fin 18
  odd : Fin 3
deriving DecidableEq, Repr

/-- What a server lane's receive path decoded since the last frame (R219): corrected codewords, corrected symbols or bits,
uncorrectable codewords that touch no block of the frame, those that do, and the state of the bit-error monitor. -/
structure LaneDecode where
  corrected : Nat
  symbols : Nat
  uncorrectable : Nat
  marked : Nat
  hiBer : Bool
deriving DecidableEq, Repr

/-- What a server lane loses (R215, R219): its signal, clock recovery, alignment-marker lock, or block lock as the sync headers seen show. -/
inductive LockLoss where
  | signal | clock | markers
  | headers (seen : List Bool)
deriving DecidableEq, Repr

/-- What a write to an MSI-X table changes (R317): a word of a vector's entry (0 and 1 the address, 2 the data, 3 the control), or
the mask of the whole function. -/
inductive MsixTarget where
  | word (vec : Fin 64) (word : Fin 4)
  | function
deriving DecidableEq, Repr

/-- What the USB4 link does (R315): it trains at Gen 4 or Gen 3, or is lost. -/
inductive Usb4Link where
  | gen4 | gen3 | lost
deriving DecidableEq, Repr

/-- Why a request of a DMA engine fails (R349). -/
inductive BusFault where
  | unsupported | aborted | poisoned | timeout | ecc | unpowered
deriving DecidableEq, Repr

/-- A wake source from outside (R370): an address byte on the management bus, WAKE_N low for 10 µs, wake signalling of the USB4 host. -/
inductive WakePin where
  | i2c (addr : BitVec 7) | wakeN | usb4
deriving DecidableEq, Repr

/-- A JTAG instruction (R442): the mandatory ones of IEEE 1149.1, IDCODE, CLAMP, any other that takes control of the pins, and any
other. -/
inductive JtagInstr where
  | bypass | idcode | sample | preload | extest | clamp | pins | other
deriving DecidableEq, Repr

/-- A master ID of R33, or 0xFF for the I2C management target (R464). -/
abbrev Master := Nat

/-- The writer number of the I2C management target in the clamp log (R32). -/
def i2cMaster : Nat := 0xFF

end Sys2Proof.Machine
end

