-- ==== Sys2Proof/Machine/Units.lean ====
section
/-!
DEFINITION. Machine/Units.lean: the unit tree of silicon revision A1 (R19 to R28, R461, spec/02; domains R358, spec/20;
commit bits R68, spec/04; ELIGIBLE R379, spec/21) and the handles of the unit header (R23).
-/

namespace Sys2Proof.Machine

/-- One unit of the tree: its name, KIND, INSTANCE, BAR0 base, WIN_SIZE code, the position of its parent in the list,
the power domains that hold a part of it, its commit bit and its fixed ELIGIBLE bit. -/
structure UnitRow where
  name : String
  kind : Nat
  inst : Nat
  base : Nat
  winLog : Nat
  parent : Nat
  domains : List Nat
  commitBit : Option Nat
  eligible : Bool
deriving DecidableEq, Repr

/-- The root and the seven groups (R27). -/
def unitsTop : List UnitRow := [
  ⟨"ROOT", 0x1, 0, 0x0, 2, 0, [], none, false⟩,
  ⟨"GRP0", 0x2, 0, 0x4000, 0, 0, [], none, false⟩,
  ⟨"GRP1", 0x2, 1, 0x5000, 0, 0, [], none, false⟩,
  ⟨"GRP2", 0x2, 2, 0x6000, 0, 0, [], none, false⟩,
  ⟨"GRP3", 0x2, 3, 0x7000, 0, 0, [], none, false⟩,
  ⟨"GRP4", 0x2, 4, 0x8000, 0, 0, [], none, false⟩,
  ⟨"GRP5", 0x2, 5, 0x9000, 0, 0, [], none, false⟩,
  ⟨"GRP6", 0x2, 6, 0xa000, 0, 0, [], none, false⟩]

/-- The time and line units (R28). -/
def unitsLine : List UnitRow := [
  ⟨"KST", 0x20, 0, 0x200000, 6, 1, [0, 1], some 0, false⟩,
  ⟨"TCM", 0x21, 0, 0x240000, 4, 1, [0], none, false⟩,
  ⟨"TTD", 0x22, 0, 0x300000, 8, 1, [1], some 1, false⟩,
  ⟨"LLA", 0x30, 0, 0x400000, 6, 2, [18, 19, 20], none, false⟩,
  ⟨"DSF0", 0x32, 0, 0x440000, 6, 2, [21], none, true⟩,
  ⟨"UPB0", 0x33, 0, 0x480000, 6, 2, [21], none, true⟩,
  ⟨"LLB", 0x31, 0, 0x500000, 6, 3, [22, 23, 24], none, false⟩,
  ⟨"DSF1", 0x32, 1, 0x540000, 6, 3, [25], none, true⟩,
  ⟨"UPB1", 0x33, 1, 0x580000, 6, 3, [25], none, true⟩,
  ⟨"RNG", 0x40, 0, 0x600000, 6, 4, [0], none, false⟩,
  ⟨"SDL", 0x44, 0, 0x640000, 4, 4, [0], some 6, false⟩,
  ⟨"ENC", 0x42, 0, 0x680000, 6, 4, [26], some 5, false⟩,
  ⟨"NRW", 0x41, 0, 0x700000, 8, 4, [26], none, true⟩,
  ⟨"CIP", 0x43, 0, 0x800000, 8, 4, [43, 44], some 4, true⟩]

/-- The sixteen server-lane quads. -/
def unitsSln : List UnitRow := [
  ⟨"SLN0", 0x50, 0, 0x900000, 4, 5, [2], none, true⟩,
  ⟨"SLN1", 0x50, 1, 0x910000, 4, 5, [3], none, true⟩,
  ⟨"SLN2", 0x50, 2, 0x920000, 4, 5, [4], none, true⟩,
  ⟨"SLN3", 0x50, 3, 0x930000, 4, 5, [5], none, true⟩,
  ⟨"SLN4", 0x50, 4, 0x940000, 4, 5, [6], none, true⟩,
  ⟨"SLN5", 0x50, 5, 0x950000, 4, 5, [7], none, true⟩,
  ⟨"SLN6", 0x50, 6, 0x960000, 4, 5, [8], none, true⟩,
  ⟨"SLN7", 0x50, 7, 0x970000, 4, 5, [9], none, true⟩,
  ⟨"SLN8", 0x50, 8, 0x980000, 4, 5, [10], none, true⟩,
  ⟨"SLN9", 0x50, 9, 0x990000, 4, 5, [11], none, true⟩,
  ⟨"SLN10", 0x50, 10, 0x9a0000, 4, 5, [12], none, true⟩,
  ⟨"SLN11", 0x50, 11, 0x9b0000, 4, 5, [13], none, true⟩,
  ⟨"SLN12", 0x50, 12, 0x9c0000, 4, 5, [14], none, true⟩,
  ⟨"SLN13", 0x50, 13, 0x9d0000, 4, 5, [15], none, true⟩,
  ⟨"SLN14", 0x50, 14, 0x9e0000, 4, 5, [16], none, true⟩,
  ⟨"SLN15", 0x50, 15, 0x9f0000, 4, 5, [17], none, true⟩]

/-- The sixteen server MAC quads. -/
def unitsMac : List UnitRow := [
  ⟨"MAC0", 0x51, 0, 0xa00000, 4, 5, [2], none, true⟩,
  ⟨"MAC1", 0x51, 1, 0xa10000, 4, 5, [3], none, true⟩,
  ⟨"MAC2", 0x51, 2, 0xa20000, 4, 5, [4], none, true⟩,
  ⟨"MAC3", 0x51, 3, 0xa30000, 4, 5, [5], none, true⟩,
  ⟨"MAC4", 0x51, 4, 0xa40000, 4, 5, [6], none, true⟩,
  ⟨"MAC5", 0x51, 5, 0xa50000, 4, 5, [7], none, true⟩,
  ⟨"MAC6", 0x51, 6, 0xa60000, 4, 5, [8], none, true⟩,
  ⟨"MAC7", 0x51, 7, 0xa70000, 4, 5, [9], none, true⟩,
  ⟨"MAC8", 0x51, 8, 0xa80000, 4, 5, [10], none, true⟩,
  ⟨"MAC9", 0x51, 9, 0xa90000, 4, 5, [11], none, true⟩,
  ⟨"MAC10", 0x51, 10, 0xaa0000, 4, 5, [12], none, true⟩,
  ⟨"MAC11", 0x51, 11, 0xab0000, 4, 5, [13], none, true⟩,
  ⟨"MAC12", 0x51, 12, 0xac0000, 4, 5, [14], none, true⟩,
  ⟨"MAC13", 0x51, 13, 0xad0000, 4, 5, [15], none, true⟩,
  ⟨"MAC14", 0x51, 14, 0xae0000, 4, 5, [16], none, true⟩,
  ⟨"MAC15", 0x51, 15, 0xaf0000, 4, 5, [17], none, true⟩]

/-- The packet core and the control units. -/
def unitsCore : List UnitRow := [
  ⟨"PRS", 0x60, 0, 0xb00000, 6, 6, [28, 29], none, false⟩,
  ⟨"CLS", 0x61, 0, 0xc00000, 8, 6, [28, 29, 30], some 3, true⟩,
  ⟨"ASH", 0x62, 0, 0xd00000, 8, 6, [32], none, false⟩,
  ⟨"TMG", 0x63, 0, 0xe00000, 8, 6, [33, 34, 35, 36, 37, 38, 39, 40, 41, 42], some 2, false⟩,
  ⟨"AON", 0x10, 0, 0x100000, 4, 7, [0], none, false⟩,
  ⟨"RST", 0x11, 0, 0x110000, 4, 7, [0], none, false⟩,
  ⟨"PWR", 0x12, 0, 0x120000, 4, 7, [0], some 7, false⟩,
  ⟨"BST", 0x13, 0, 0x130000, 4, 7, [55], none, false⟩,
  ⟨"HIF", 0x70, 0, 0xf00000, 8, 7, [47], none, false⟩,
  ⟨"DMA", 0x71, 0, 0x1000000, 8, 7, [48], none, false⟩,
  ⟨"BDM", 0x72, 0, 0x1100000, 4, 7, [0], none, false⟩,
  ⟨"FWU", 0x73, 0, 0x1200000, 4, 7, [0], some 8, false⟩,
  ⟨"CRS", 0x74, 0, 0x1300000, 4, 7, [27], none, false⟩,
  ⟨"CNT", 0x75, 0, 0x1400000, 8, 7, [53], none, false⟩]

/-- Every unit of the tree: 68, the root first, then the groups, then the leaves. -/
def units : List UnitRow := unitsTop ++ unitsLine ++ unitsSln ++ unitsMac ++ unitsCore

/-- The number of units. -/
abbrev UnitIx := Fin 68

def unitAt (u : Nat) : UnitRow := units.getD u ⟨"ROOT", 1, 0, 0, 2, 0, [], none, false⟩

/-- The leaf units below unit u, u itself when it is a leaf (R26). -/
def leavesOf (u : Nat) : List Nat :=
  if u = 0 then (List.range 68).drop 8
  else if u < 8 then ((List.range 68).drop 8).filter (fun v => (unitAt v).parent == u)
  else [u]

/-- The children a child table names (R21): the groups for the root, the member units for a group. -/
def childrenOf (u : Nat) : List Nat :=
  if u = 0 then [1, 2, 3, 4, 5, 6, 7] else if u < 8 then leavesOf u else []

/-- The unit whose window holds a BAR0 offset (R19). -/
def unitOf (ofs : Nat) : Option Nat :=
  (List.range 68).find? (fun u => decide ((unitAt u).base ≤ ofs) && decide (ofs < (unitAt u).base + 4096 * 2 ^ (unitAt u).winLog))

/-- The unit that takes part in commits under bit b (R68). -/
def commitUnit (b : Nat) : Nat := ((List.range 68).find? (fun u => (unitAt u).commitBit == some b)).getD 0

/-! ### The unit header of the unit whose window starts at w (R23) -/
abbrev HDR_ID (w : Nat) : Reg := ⟨w + 0x00, 0⟩
abbrev HDR_GEOM (w : Nat) : Reg := ⟨w + 0x04, 0⟩
abbrev HDR_CHILD (w : Nat) : Reg := ⟨w + 0x08, 0⟩
abbrev HDR_PARENT (w : Nat) : Reg := ⟨w + 0x0C, 0⟩
abbrev HDR_STATUS (w : Nat) : Reg := ⟨w + 0x10, 0⟩
abbrev HDR_STATUS_FAULT (w : Nat) : Fld := ⟨HDR_STATUS w, 7, 7⟩
abbrev HDR_STATUS_RETIRED (w : Nat) : Fld := ⟨HDR_STATUS w, 6, 6⟩
abbrev HDR_STATUS_SPARE_IN_USE (w : Nat) : Fld := ⟨HDR_STATUS w, 5, 5⟩
abbrev HDR_STATUS_CLAMPED (w : Nat) : Fld := ⟨HDR_STATUS w, 4, 4⟩
abbrev HDR_STATUS_READY (w : Nat) : Fld := ⟨HDR_STATUS w, 3, 3⟩
abbrev HDR_STATUS_PWR_STATE (w : Nat) : Fld := ⟨HDR_STATUS w, 1, 0⟩
/-- The power request word; PWR_REQ is 10b after reset. DOMAIN is computed from the unit table where it is read. -/
abbrev HDR_PWR (w : Nat) : Reg := ⟨w + 0x14, 2⟩
abbrev HDR_PWR_DOMAIN (w : Nat) : Fld := ⟨HDR_PWR w, 13, 8⟩
abbrev HDR_PWR_PWR_REQ (w : Nat) : Fld := ⟨HDR_PWR w, 1, 0⟩
abbrev HDR_BST (w : Nat) : Reg := ⟨w + 0x18, 0⟩
abbrev HDR_BST_VERDICT (w : Nat) : Fld := ⟨HDR_BST w, 6, 4⟩
abbrev HDR_BST_ELIGIBLE (w : Nat) : Fld := ⟨HDR_BST w, 3, 3⟩
abbrev HDR_FREEZE (w : Nat) : Reg := ⟨w + 0x1C, 0xFF⟩
abbrev HDR_CLAMP (w : Nat) : Reg := ⟨w + 0x20, 0⟩
abbrev HDR_CLAMP_VALID (w : Nat) : Fld := ⟨HDR_CLAMP w, 31, 31⟩
abbrev HDR_CLAMP_COUNT (w : Nat) : Fld := ⟨HDR_CLAMP w, 23, 8⟩
abbrev HDR_CLAMP_LAST_INDEX (w : Nat) : Fld := ⟨HDR_CLAMP w, 7, 0⟩

end Sys2Proof.Machine
end

