-- ==== Sys2Proof/Syntax.lean ====
section
/-!
DEFINITION. Syntax.lean: the commands of the block, one constructor for each row of the spec's table, with the operands
its rule gives it. The table gives its rows no bits and no fields: the operands are the model's reading of the rule named
in each constructor's comment.
-/

namespace Sys2Proof

open Sys2Proof.Machine

/-- A command of the block. (log 1: DESIGN CHOICE, safe) -/
inductive Instr where
  /-- R20. Master m writes size bytes of value at a BAR0 offset. -/
  | registerWrite (m : Master) (ofs : BitVec 26) (size : Nat) (value : BitVec 64)
  /-- R20. Master m reads size bytes at a BAR0 offset; a LO register latches its HI partner. -/
  | loReadLatch (m : Master) (ofs : BitVec 26) (size : Nat)
  /-- R36. Master m writes ROOT_FRZ_RELEASE. -/
  | frzRelease (m : Master) (value : Word)
  /-- R362. Master m writes the HDR_PWR register of unit or group u. -/
  | pwrReqWrite (m : Master) (u : UnitIx) (value : Word)
  /-- R379. Master m writes START to the HDR_BST register of u. -/
  | hdrBstStart (m : Master) (u : UnitIx)
  /-- R379. Master m writes ABORT to the HDR_BST register of u. -/
  | hdrBstAbort (m : Master) (u : UnitIx)
  /-- R40. A rising edge of the selected 25 MHz reference. -/
  | tick
  /-- R42. Master m writes KST_CAPTURE. -/
  | timeCapture (m : Master) (value : Word)
  /-- R46. The second boundary at which the TDCs exchange delay lines; the counts of the 71 calibrations. -/
  | tdcExchange (counts : List Nat)
  /-- R49. Keystone takes the offset that TTD delivered for the domain of line x. -/
  | offsetEval (x : Line)
  /-- R48. 384 ms without an offset for the domain of line x. -/
  | domainTimeout (x : Line)
  /-- R51. 128 ms after the last accepted offset. -/
  | servoPropExpire
  /-- R55. The slewer's residual has reached 0. -/
  | slewDone
  /-- R57. KST_HOLD_SEC has passed HOLD_AGE_LIM. -/
  | holdAged
  /-- R62. REF25 is declared failed; the REF25B periods since its last good edge. -/
  | refFail (periods : Nat)
  /-- R63. REF25B fails while REF25 is selected. -/
  | ref25bFail
  /-- R63. Both references have failed. -/
  | refStop
  /-- R63. A reference returns after a stop. -/
  | refReturn (ref : RefClock)
  /-- R422. The first edge of a reference after PORST_N has risen. -/
  | refFirstEdge (ref : RefClock)
  /-- R70. Master m writes TCM_POST_CTL of post block p. -/
  | commitPost (m : Master) (p : Fin 36) (value : Word)
  /-- R76. Master m writes TCM_POST_CANCEL of post block p. -/
  | commitCancel (m : Master) (p : Fin 36) (value : Word)
  /-- R74. The commit that falls due first is checked and applied. -/
  | commitDue
  /-- R73. A frame-anchored commit has waited 1 s without a D0 FAW stamp, or its frame was passed over. -/
  | commitFrameTimeout
  /-- R91. MOD_PRES_N of line x goes low, or (held) has been low for 10 ms. -/
  | modPresent (x : Line) (held : Bool)
  /-- R91. MOD_PRES_N of line x goes high. -/
  | modAbsent (x : Line)
  /-- R91. RST_MS have passed. -/
  | modResetRelease (x : Line)
  /-- R91. INIT_MS have passed. -/
  | modInitDone (x : Line)
  /-- R88. The identity range has been read; its bytes. -/
  | modCheckDone (x : Line) (bytes : List Byte)
  /-- R89. The page write, or the read, of the check in progress has failed once more. -/
  | modBusTimeout (x : Line) (page : Bool)
  /-- R92. RECHECK_S seconds have passed since the last check. -/
  | modRecheck (x : Line)
  /-- R91. Master m writes LLx_MOD_ID_CFG with CHECK 1. -/
  | modCheck (m : Master) (x : Line) (value : Word)
  /-- R91. Master m writes LLx_MOD_ID_CFG with CHECK 0. -/
  | modDeclare (m : Master) (x : Line) (value : Word)
  /-- R93. Master m writes LLx_MOD_XFER. -/
  | modXfer (m : Master) (x : Line) (value : Word)
  /-- R93. The host transfer ends; the byte it read. -/
  | modXferDone (x : Line) (err : Bool) (data : Byte)
  /-- R85. SIGNAL of a line receive lane rises or falls. -/
  | signalChange (x : Line) (r : Fin 8) (high : Bool)
  /-- R84. Clock recovery of a line receive lane gains or loses lock. -/
  | cdrLockChange (x : Line) (r : Fin 8) (lock : Bool)
  /-- R97. Master m writes LLx_CTL. -/
  | llTestModeWrite (m : Master) (x : Line) (value : Word)
  /-- R98. A near-end loopback cycle of line x. -/
  | loopbackTestBurst (x : Line)
  /-- R101. A checker has seen 128 error-free bits. -/
  | prbsLock (r : RxLane)
  /-- R101. A checker has seen errs errors more in the present interval of 1,024 bits. -/
  | prbsLoss (r : RxLane) (errs : Nat)
  /-- R101. Master m writes a checker register with CLR 1. -/
  | checkerClr (m : Master) (r : RxLane) (value : Word)
  /-- R102. Master m writes a generator or checker register with INJ_SINGLE 1. -/
  | injSingle (m : Master) (p : PrbsLane) (value : Word)
  /-- R102. Master m writes a generator or checker register with INJ_BURST 1 and INJ_SINGLE 0. -/
  | injBurst (m : Master) (p : PrbsLane) (value : Word)
  /-- R110. Hunting channel c of line x sees a FAW pattern at bit position pos; fsb is the FSB that follows it. -/
  | candidateOpen (x : Line) (c : Fin 8) (pos : Nat) (fsb : List Byte)
  /-- R111. A candidate of channel c at pos is checked one frame on: the FSB found there, and the arrival relative to D0 in ns. -/
  | candidateCheck (x : Line) (c : Fin 8) (pos : Nat) (fsb : List Byte) (skew : Int)
  /-- R113. A frame of channel c of line x in SYNC: its FSB, the bins of its marker after the last tick, and the arrival relative to D0 in ns. -/
  | dsfFrame (x : Line) (c : Fin 8) (fsb : List Byte) (bins : Nat) (skew : Int)
  /-- R109. Codeword k of the present frame of channel c of line x is received: its 544 symbols. -/
  | codewordDecode (x : Line) (c : Fin 8) (k : Nat) (syms : List Nat)
  /-- R119. SIGNAL or CDR_LOCK of channel c of line x has been 0 for 10 µs. -/
  | losDeclare (x : Line) (c : Fin 8)
  /-- R119. Both indications of channel c of line x have been 1 for 250 µs. -/
  | losClear (x : Line) (c : Fin 8)
  /-- R114. A D0 frame boundary of line x with a changed DSF MODE. -/
  | dsfModeChange (x : Line)
  /-- R124. A second boundary: the accumulators of line x are latched. -/
  | dsfSecondLatch (x : Line)
  /-- R136. An ASSIGN_ID for line x arrives: serial number and new terminal ID. -/
  | assignId (x : Line) (h : LmmHead) (sn : BitVec 64) (id : BitVec 12)
  /-- R141. A RANGE_RESULT for line x arrives with its payload fields. -/
  | rangeResult (x : Line) (h : LmmHead) (u : Fin 4) (last heValid : Bool) (eqd : BitVec 24) (rtd : Word) (applyFrame : BitVec 48) (he : Word)
  /-- R134. A DEREGISTER for line x arrives. -/
  | deregister (x : Line) (h : LmmHead)
  /-- R138. An EMERGENCY_STOP arrives on line x. -/
  | emergencyStop (x : Line) (h : LmmHead) (sn : BitVec 64)
  /-- R138. A RESUME arrives on line x. -/
  | resume (x : Line) (h : LmmHead) (sn : BitVec 64)
  /-- R145. A SLEEP_ACK arrives on line x. -/
  | sleepAck (x : Line) (h : LmmHead) (status : BitVec 8) (lease : BitVec 16)
  /-- R296. A TIME_ANCHOR arrives on line x. -/
  | timeAnchor (x : Line) (h : LmmHead) (a : AnchorBody)
  /-- R191. A KEY_WRAP arrives on line x. -/
  | keyWrap (x : Line) (h : LmmHead) (page : BitVec 6) (slot : BitVec 2) (wrapped : List Byte)
  /-- R191. A KEY_SWITCH arrives on line x naming switch frame n. -/
  | keySwitch (x : Line) (h : LmmHead) (page : BitVec 6) (slot : BitVec 2) (n : BitVec 48)
  /-- R191. A KEY_CLEAR arrives on line x. -/
  | keyClear (x : Line) (h : LmmHead) (page : BitVec 6) (slot : BitVec 2)
  /-- R403. An OWNER_LOCK arrives on line x. -/
  | ownerLock (x : Line) (h : LmmHead) (flags : BitVec 8)
  /-- R130. A RELEASE arrives on line x naming a master. -/
  | release (x : Line) (h : LmmHead) (master : BitVec 8)
  /-- R130. Firmware queues the FREEZE_REPORT on every registered line. -/
  | freezeReport
  /-- R134. Master m writes RNG_Lx_CTL. -/
  | regEnWrite (m : Master) (x : Line) (value : Word)
  /-- R134. Line x is ready to register. -/
  | announceStart (x : Line)
  /-- R134. ANN_TO of line x is over. -/
  | annToExpire (x : Line)
  /-- R134. RNG_TO of line x is over. -/
  | rngToExpire (x : Line)
  /-- R134. Line x has received LAST and has a ranged channel. -/
  | rangingComplete (x : Line)
  /-- R141. The APPLY_FRAME of a waiting delay of line x has come. -/
  | eqdApply (x : Line)
  /-- R134. HOLD_TO of line x is over. -/
  | holdToExpire (x : Line)
  /-- R139. A ranging response of line x is due; mis lists the engine disagreements in its units. -/
  | responseBurst (x : Line) (mis : List EngineMiss)
  /-- R145. 32 frames have passed without a SLEEP_ACK on line x. -/
  | sleepAckTimeout (x : Line)
  /-- R145. The sleep lease of line x runs out. -/
  | leaseExpire (x : Line)
  /-- R146. Line x is bonded after a wake, or the time for it is over. -/
  | sleepResume (x : Line)
  /-- R161. The next grant of line x enters the horizon. -/
  | grantHorizon (x : Line)
  /-- R161. Granules have become free for the first waiting grant of line x. -/
  | floorReserve (x : Line)
  /-- R162. The refill engine forms the next unit; what its read of the frame's cells finds, and the engine disagreements in its units. -/
  | stagingStep (ecc : Ecc) (mis : List EngineMiss)
  /-- R166. Step 1 of the next burst on upstream channel u of line x. -/
  | burstBenRise (x : Line) (u : Fin 4)
  /-- R163. A unit's cutoff in the burst on channel u; what its read from the Narrows finds. -/
  | unitCutoff (x : Line) (u : Fin 4) (ecc : Ecc)
  /-- R166. The terminator of the burst on channel u has been sent. -/
  | burstEnd (x : Line) (u : Fin 4)
  /-- R86. BEN_TAIL blocks have passed since the end of the burst on channel u. -/
  | benFall (x : Line) (u : Fin 4)
  /-- R164. Carry-over has waited 32 frames. -/
  | carryExpire
  /-- R174. The next word at which line x looks for a header has come, with its unit; whether the two engines disagree on it. -/
  | lineUnitRx (x : Line) (mis : Option EngineMiss)
  /-- R177. REASM_WIN has elapsed since a context of line x opened. -/
  | reasmTimeout (x : Line)
  /-- R188. Master m writes LOAD to CIP_SLOT_CTL of slot k mod 4 of page k / 4. -/
  | slotLoad (m : Master) (k : Fin 256) (value : Word)
  /-- R188. Master m writes CLEAR to CIP_SLOT_CTL of slot k mod 4 of page k / 4. -/
  | slotClear (m : Master) (k : Fin 256) (value : Word)
  /-- R188. Master m writes the SALT of page p. -/
  | saltWrite (m : Master) (p : Fin 64) (value : Word)
  /-- R192. Master m writes word j of the bootstrap key of line x. -/
  | bootKeyWrite (m : Master) (x : Line) (j : Fin 8) (value : Word)
  /-- R186. Master m writes CIP_CTR_LIMIT_LO or CIP_CTR_LIMIT_HI. -/
  | ctrLimitWrite (m : Master) (hi : Bool) (value : Word)
  /-- R187. Master m writes HIF_KPp_OWN of key page p + 8. -/
  | keyOwnerChange (m : Master) (p : Fin 56) (value : Word)
  /-- R195. The next unit of line x has waited more than 16 µs for an engine. -/
  | cipOverrun (x : Line)
  /-- R200. A second boundary: the Saddle writes both health reports. -/
  | healthReport
  /-- R205. The first grid frame of the new line whose map was checked after the switch began. -/
  | switchEnd
  /-- R207. WTR_LEFT has reached 0. -/
  | wtrExpire
  /-- R199. Master m writes word k of the acceptance aperture. -/
  | bmapApertureWrite (m : Master) (k : Fin 32768) (value : Word)
  /-- R212. Reference input REFSn leaves its tolerance. -/
  | refsBad (n : Fin 4)
  /-- R212. Reference input REFSn has been within its tolerance for 100 ms. -/
  | refsOk (n : Fin 4)
  /-- R215. Master m writes SLN_Ll_CFG of lane l of quad q. -/
  | laneEnableWrite (m : Master) (q : Fin 16) (l : Fin 4) (value : Word)
  /-- R215. Master m writes the control register of lane l of quad q with RESTART. -/
  | laneRestart (m : Master) (q : Fin 16) (l : Fin 4) (value : Word)
  /-- R220. Master m writes TEST_MODE of lane l of quad q. -/
  | slnTestModeWrite (m : Master) (q : Fin 16) (l : Fin 4) (value : Word)
  /-- R216. Master m writes HOST_PRES of lane l of quad q. -/
  | hostPresWrite (m : Master) (q : Fin 16) (l : Fin 4) (value : Word)
  /-- R216. A probe of lane l of quad q; whether it finds a far-end receiver. -/
  | detectProbe (q : Fin 16) (l : Fin 4) (hit : Bool)
  /-- R217. Negotiation on lane l of quad q ends: the partner's technology bits (CR of 10G to 100G, then KR), FEC bits and PAUSE bits. -/
  | anComplete (q : Fin 16) (l : Fin 4) (tech : BitVec 8) (fec : BitVec 4) (pause : BitVec 2)
  /-- R215. AN_TO of lane l of quad q is over. -/
  | anToExpire (q : Fin 16) (l : Fin 4)
  /-- R215. Training of lane l of quad q has succeeded on both ends; the settings it found. -/
  | trainComplete (q : Fin 16) (l : Fin 4) (amp : BitVec 8) (pre : BitVec 4) (post : BitVec 5)
  /-- R215. Training of lane l of quad q fails, reported or by TRAIN_TO. -/
  | trainFail (q : Fin 16) (l : Fin 4) (reported : Bool)
  /-- R219. Lane l of quad q looks for block lock: whether the alignment markers are locked, and the sync headers seen, valid or not. -/
  | blockLock (q : Fin 16) (l : Fin 4) (markers : Bool) (headers : List Bool)
  /-- R215. LINK_TO of lane l of quad q is over. -/
  | linkToExpire (q : Fin 16) (l : Fin 4)
  /-- R218. CAP_MS of fault-free idles on lane l of quad q. -/
  | capDone (q : Fin 16) (l : Fin 4)
  /-- R215. Lane l of quad q loses its signal or a lock, or sees headers under lock. -/
  | lockLoss (q : Fin 16) (l : Fin 4) (what : LockLoss)
  /-- R218. A Local or a Remote Fault sequence is received on lane l of quad q. -/
  | faultReceived (q : Fin 16) (l : Fin 4) (remote : Bool)
  /-- R213. The elastic store of lane l of quad q has gained drift blocks, inside a frame or between frames. -/
  | rateMatch (q : Fin 16) (l : Fin 4) (drift : Int) (inFrame : Bool)
  /-- R226. A frame ends on lane l of quad q: its bytes, a coding error inside it, what the lane decoded, and the ps from the last tick to its stamp ball. -/
  | macRxFrame (q : Fin 16) (l : Fin 4) (frame : List Byte) (err : Bool) (dec : LaneDecode) (ps : Nat)
  /-- R229. A PAUSE frame on lane l of quad q: its quanta and the ps from the last tick to its last FCS byte. -/
  | pauseRx (q : Fin 16) (l : Fin 4) (quanta : BitVec 16) (ps : Nat)
  /-- R229. A PFC frame on lane l of quad q: its enable bits, its eight times and the ps from the last tick to its last FCS byte. -/
  | pfcRx (q : Fin 16) (l : Fin 4) (enable : BitVec 8) (quanta : List Nat) (ps : Nat)
  /-- R230. A timer of lane l of quad q reaches 0: that of priority key, or of the port for 8. -/
  | pauseExpire (q : Fin 16) (l : Fin 4) (key : Fin 9)
  /-- R232. A timer of lane l of quad q has been nonzero for 100 ms. -/
  | pauseWatchdog (q : Fin 16) (l : Fin 4) (key : Fin 9)
  /-- R232. The 10 ms in which a timer of lane l of quad q is ignored end. -/
  | wdIgnoreEnd (q : Fin 16) (l : Fin 4) (key : Fin 9)
  /-- R227. The MAC of lane l of quad q takes its next frame; the ps from the last tick to its stamp ball. -/
  | macTxFrame (q : Fin 16) (l : Fin 4) (ps : Nat)
  /-- R231. A frame boundary of lane l of quad q with a flow-control frame requested. -/
  | fcSend (q : Fin 16) (l : Fin 4)
  /-- R231. REFRESH quanta have passed since the asserted frame of key. -/
  | fcRefresh (q : Fin 16) (l : Fin 4) (key : Fin 9)
  /-- R237. The parser takes its next frame; whether its input buffer was full when the frame came. -/
  | frameParse (full : Bool)
  /-- R242, R256. The classifier takes the next parsed frame; what the ECC finds in the endpoint entry (ecc) and in the flow entry (flowErr)
  its lookup reads. -/
  | classifyLookup (ecc flowErr : Ecc)
  /-- R245, R256. The second lookup of the frame that waits in pipe, with what the ECC finds as in CLASSIFY_LOOKUP. -/
  | secondPass (pipe : Fin 9) (ecc flowErr : Ecc)
  /-- R245. The frame in pipe has waited 20 µs. -/
  | recircTimeout (pipe : Fin 9)
  /-- R246. Master m writes CLS_RULE_CTL with GO and OP write. -/
  | ruleWrite (m : Master) (value : Word)
  /-- R246. Master m writes CLS_RULE_CTL with GO and OP read. -/
  | ruleRead (m : Master) (value : Word)
  /-- R246. The rule write in progress finishes. -/
  | ruleWriteDone
  /-- R248. Master m writes CLS_PAT_CTL with GO and OP write. -/
  | patternWrite (m : Master) (value : Word)
  /-- R248. Master m writes CLS_PAT_CTL with GO and OP read. -/
  | patternRead (m : Master) (value : Word)
  /-- R262. The oldest miss is resolved; what its bucket reads find, and the slot of an error. -/
  | flowMissResolve (ecc : Ecc) (slot : Fin 8)
  /-- R262. The oldest miss has waited MISS_TO. -/
  | missTimeout
  /-- R253. Master m writes ASH_EP_CTL with GO and OP write. -/
  | epWrite (m : Master) (value : Word)
  /-- R253. Master m writes ASH_EP_CTL with GO and OP read. -/
  | epRead (m : Master) (value : Word)
  /-- R265. The command at the head of the Ashlar queue is an INSERT. -/
  | flowInsert
  /-- R264. The command at the head of the Ashlar queue is an UPDATE. -/
  | flowUpdate
  /-- R264. The command at the head of the Ashlar queue is a DELETE. -/
  | flowDelete
  /-- R264. The command at the head of the Ashlar queue is a LOOKUP. -/
  | flowLookup
  /-- R266. The command at the head of the Ashlar queue is a FLUSH_EP. -/
  | flushEp
  /-- R266. The command at the head of the Ashlar queue is a CLEAR_ALL. -/
  | clearAll
  /-- R264. The command at the head of the Ashlar queue has an unlisted opcode. -/
  | ashCmdBadOpcode
  /-- R266. The walk in progress ends. -/
  | walkDone
  /-- R263. The oldest queued learn is taken. -/
  | learn
  /-- R267. The ageing walk visits its next bucket. -/
  | ageVisit
  /-- R269. The scrubber reads endpoint entry e; what it finds. -/
  | epScrub (e : Fin 1048576) (ecc : Ecc)
  /-- R269. The scrubber reads bucket b; what it finds, and in which slot. -/
  | flowScrub (b : Fin 4194304) (ecc : Ecc) (slot : Fin 4)
  /-- R276. The traffic manager takes the next classified frame. -/
  | frameAdmit
  /-- R281. Server port p takes its next frame; what the read of its cells finds. -/
  | serverDequeue (p : Fin 64) (ecc : Ecc)
  /-- R290. The pending gate list of scheduler sched starts. -/
  | gateListStart (sched : Fin 576)
  /-- R288. A boundary of the gate list of scheduler sched. -/
  | gateChange (sched : Fin 576)
  /-- R287. Master m writes TMG_GL_CTL with GO and OP write. -/
  | glWrite (m : Master) (value : Word)
  /-- R287. Master m writes TMG_GL_CTL with GO and OP read. -/
  | glRead (m : Master) (value : Word)
  /-- R294. Master m writes TMG_Q_SEL. -/
  | qSelWrite (m : Master) (value : Word)
  /-- R291. Port p has been out of ACTIVE for FLUSH_MS. -/
  | portFlush (p : Fin 64)
  /-- R302. 20 µs before a launch instant of port p. -/
  | syncPlace (p : Fin 64)
  /-- R301. An Announce instant of port p. -/
  | announceSend (p : Fin 64)
  /-- R303. The PTP path takes its next frame. -/
  | ptpMsgRx
  /-- R307. A pulse-return window of input i opens. -/
  | prWindowOpen (i : Fin 64)
  /-- R307. An edge of pulse-return input i: its direction, how long the new level holds in ps, and its bins after the last tick. -/
  | prEdge (i : Fin 64) (falling : Bool) (hold bins : Nat)
  /-- R308. The window of input i closes. -/
  | prWindowClose (i : Fin 64)
  /-- R309. An edge of event input e: its direction, how long the new level holds in ps, and its bins after the last tick. -/
  | tevEdge (e : Fin 4) (falling : Bool) (hold bins : Nat)
  /-- R309. Master m reads TEV_SEC_HI of input e. -/
  | tevSecHiRead (m : Master) (e : Fin 4)
  /-- R310. A programmed instant of output o. -/
  | toutEdge (o : Fin 8)
  /-- R391. A second has passed since the last TIME_REQ on Course link k. -/
  | timeReqSend (k : Fin 2)
  /-- R391. A TIME_REQ arrives on link k: its sender, its SEQ and the ns until the answer leaves. -/
  | timeReq (k : Fin 2) (sender : BitVec 64) (seq : BitVec 16) (turn : Nat)
  /-- R312. A TIME_RESP arrives on link k: its sender, its SEQ and the peer's two stamps. -/
  | timeResp (k : Fin 2) (sender : BitVec 64) (seq : BitVec 16) (t2s : BitVec 48) (t2 : BitVec 32) (t3s : BitVec 48) (t3 : BitVec 32)
  /-- R312. The exchange on link k has been open for 1 s. -/
  | nbTimeout (k : Fin 2)
  /-- R324. Function f writes size bytes to BAR2. -/
  | doorbell (f : Fin 32) (size : Nat) (value : Word)
  /-- R326. Ring r takes its next frame: the descriptors read, and the data they name. -/
  | txFrameSubmit (r : Fin 1024) (descs : List (List Byte)) (data : List Byte)
  /-- R327. The next frame that waits for ring r is delivered into the buffers the descriptors lend. -/
  | rxDeliver (r : Fin 1024) (descs : List (List Byte))
  /-- R328. Ring r takes its next CMD descriptor: its bytes and the body it names. -/
  | cmdDescriptor (r : Fin 1024) (desc body : List Byte)
  /-- R332. COAL_US have passed since the first unsignalled entry of completion ring c. -/
  | cqSignal (c : Fin 1024)
  /-- R332. Completion ring c has been full for 1 ms. -/
  | cqStall (c : Fin 1024)
  /-- R323. Master m writes the configuration of ring r with ENABLE 1. -/
  | ringEnable (m : Master) (r : Fin 1024) (value : Word)
  /-- R323. Master m writes the configuration of ring r with ENABLE 0. -/
  | ringDisable (m : Master) (r : Fin 1024) (value : Word)
  /-- R334. A host read of ring r fails: of a descriptor (0), of data (1), or by time (2); the tag of the entry. -/
  | hostReadError (r : Fin 1024) (what : Fin 3) (tag : BitVec 64)
  /-- R320. A Function Level Reset of function f + 1. -/
  | flr (f : Fin 31)
  /-- R338. Channel c takes the next entry of a ring it serves; the descriptor read. -/
  | dmaEntryStart (c : Fin 64) (desc : List Byte)
  /-- R341. The hop in progress on channel c ends with data, the host bytes it read, and the next descriptor is fetched. -/
  | hopFetch (c : Fin 64) (data desc : List Byte)
  /-- R345. The hop in progress on channel c reaches its half or full point with the host bytes read so far. -/
  | dmaProgress (c : Fin 64) (data : List Byte)
  /-- R346. The last write of the chain of channel c leaves the engine; the host bytes the last hop read. -/
  | dmaComplete (c : Fin 64) (data : List Byte)
  /-- R346. The fence read-back of channel c returns. -/
  | fenceDone (c : Fin 64)
  /-- R349. A request of the main DMA fails: its cause, space and address. -/
  | busError (cause : BusFault) (space : Fin 3) (addr : BitVec 64)
  /-- R349. A target of the main DMA has not answered within 50 µs. -/
  | dmaBusTimeout (space : Fin 3) (addr : BitVec 64)
  /-- R350. Master m writes DMA_CTL. -/
  | dmaResume (m : Master) (value : Word)
  /-- R351. Master m writes HIF_DMACc_OWN. -/
  | dmaOwnerChange (m : Master) (c : Fin 64) (value : Word)
  /-- R353. Master m writes the control register of boot channel c with GO. -/
  | bdmGo (m : Master) (c : Fin 4) (value : Word)
  /-- R353. Master m writes the control register of boot channel c with ABORT. -/
  | bdmAbort (m : Master) (c : Fin 4) (value : Word)
  /-- R355. Boot channel c fetches, checks and moves its next hop. -/
  | bdmHop (c : Fin 4)
  /-- R355. A request of boot channel c fails: its cause, space and address. -/
  | bdmBusError (c : Fin 4) (cause : BusFault) (space : Fin 4) (addr : Word)
  /-- R363. The next unit asked answers; whether the bank group asked for holds no cell. -/
  | unitGrant (empty : Bool)
  /-- R363. The unit asked has not answered within GRANT_TO. -/
  | grantTimeout
  /-- R365. The next domain left off is switched off or retained. -/
  | domainSwitchOff
  /-- R368. An AVSBus request is acknowledged. -/
  | avsAck
  /-- R368. An AVSBus request has gone unacknowledged. -/
  | avsTimeout
  /-- R370. A wake source from outside. -/
  | wakeSource (p : WakePin)
  /-- R372. The PLLs of domain 54 lock. -/
  | pllLock
  /-- R374. A PLL attempt has not locked. -/
  | pllTimeout
  /-- R372. The next domain is switched on; at the last one of a boot the memory tests' results: tested words, faulty units, lost segments. -/
  | domainSwitchOn (tested : List Word) (faulty : List UnitIx) (segs : List (Fin 16))
  /-- R372. Every domain of the wake is on. -/
  | wakeComplete
  /-- R369. The debounced level of PWR_ALT changes. -/
  | pwrAltChange (asserted : Bool)
  /-- R460. A sensor has read 120 °C for 1 ms. -/
  | thermalStop
  /-- R384. SLICE_GAP is over and a target is eligible. -/
  | sliceStart
  /-- R382. The slice's patterns are through: the signature and whether it is the good one. -/
  | slicePatternsDone (sig : BitVec 64) (good : Bool)
  /-- R381. 480 µs have passed since the slice's start without a comparison. -/
  | sliceBudget
  /-- R383. Service is requested from slice target t. -/
  | serviceRequest (t : Fin 48)
  /-- R381. The slice's target is restored. -/
  | sliceRestoreDone
  /-- R384. A target has gone 24 hours without a complete round. -/
  | overdue
  /-- R387. A second boundary: the self-test delivers its summary. -/
  | bstSummary
  /-- R389. Course link k, 0 east or 1 west, comes up or goes down. -/
  | courseLinkChange (k : Fin 2) (up : Bool)
  /-- R390. A PDU arrives on Course link k with a bad version, type or length. -/
  | coursePduBad (k : Fin 2) (pdu : List Byte)
  /-- R393. A RELAY_START arrives on link k. -/
  | relayStart (k : Fin 2) (sender : BitVec 64) (image len : Word) (blocks : BitVec 16) (hops : BitVec 8) (store : Bool)
  /-- R394. A RELAY_BLOCK arrives on link k. -/
  | relayBlock (k : Fin 2) (sender : BitVec 64) (image : Word) (block : BitVec 16) (data : List Byte) (crc : Word)
  /-- R395. A RELAY_END arrives on link k. -/
  | relayEnd (k : Fin 2) (sender : BitVec 64) (image crc : Word)
  /-- R394. A RELAY_ACK arrives on link k. -/
  | relayAck (k : Fin 2) (sender : BitVec 64) (image : Word) (next : BitVec 16) (code : BitVec 8)
  /-- R394. 1 ms has passed since the last accepted block. -/
  | relayAckTimer
  /-- R394. NEXT has not advanced for 1 s. -/
  | relayResend
  /-- R394. The upstream hop has been silent for 5 s. -/
  | relayStall
  /-- R394. The next block is programmed and read back. -/
  | blockProgrammed (ok : Bool)
  /-- R408. A RESCUE_REQ arrives on link k with its fields. -/
  | rescueReq (k : Fin 2) (sender target : BitVec 64) (hops : BitVec 8) (write : Bool) (tag : BitVec 16) (ofs value : Word)
  /-- R408. A RESCUE_RESP arrives on link k with its fields. -/
  | rescueResp (k : Fin 2) (sender target : BitVec 64) (hops : BitVec 8) (status : BitVec 8) (tag : BitVec 16) (ofs value : Word)
  /-- R393. Master m writes FWU_CTL with ORIG_GO. -/
  | origGo (m : Master) (value : Word)
  /-- R400. Master m writes FWU_CTL with PRELOAD. -/
  | preload (m : Master) (value : Word)
  /-- R400. The preload copy finishes. -/
  | preloadDone
  /-- R405. Master m writes FWU_CTL with SAVE. -/
  | save (m : Master) (value : Word)
  /-- R402. Master m writes FWU_CTL with CONFIRM. -/
  | confirm (m : Master) (value : Word)
  /-- R401. Master m writes FWU_CTL with ALIVE. -/
  | alive (m : Master) (value : Word)
  /-- R403. Master m writes FWU_CFG. -/
  | hostLockWrite (m : Master) (value : Word)
  /-- R401. The header and body checks of an activation finish. -/
  | actCheckDone
  /-- R401. The core sections are loaded and the cores start at the cold entry. -/
  | actCoresLoaded
  /-- R401. ALIVE has not been written in time. -/
  | noAlive
  /-- R406. Fewer than 8 erased sectors remain. -/
  | recordCompact
  /-- R414. Master m writes CNT_SELc. -/
  | cntSelWrite (m : Master) (c : Fin 4096) (value : Word)
  /-- R414. Master m writes CNT_CTL with CLEAR for counter c. -/
  | cntClear (m : Master) (c : Fin 4096)
  /-- R414. Master m writes CNT_CTL with CLEAR and ALL. -/
  | cntClearAll (m : Master)
  /-- R415. Master m reads the word at rel in the counter window. -/
  | cntRead (m : Master) (rel : Fin 0x100000)
  /-- R416. A window end has been reached. -/
  | bwWindowEnd
  /-- R418. A second boundary: the telemetry record, with the power in mW, the temperature in 0.1 °C and whether the write fails. -/
  | telemetryRecord (mw : BitVec 32) (temp : BitVec 16) (failed : Bool)
  /-- R427. PORST_N rises. -/
  | porst
  /-- R423. VDD_AO is lost. -/
  | vddAoLoss
  /-- R423. RESET_N has been low for 1 µs. -/
  | resetN
  /-- R423. Master m writes RST_CTL with SYSTEM. -/
  | systemWrite (m : Master) (value : Word)
  /-- R426. Master m writes RST_CTL with CORE. -/
  | coreWrite (m : Master) (value : Word)
  /-- R425. A Function Level Reset of function 0. -/
  | functionReset
  /-- R426. The core watchdog expires. -/
  | wdtExpire
  /-- R426. Master m writes the watchdog register with KICK. -/
  | kick (m : Master) (value : Word)
  /-- R427. Master m writes the boot register with BOOT_DONE. -/
  | bootDone (m : Master) (value : Word)
  /-- R428. 1,000 ms have passed since the reset. -/
  | bootReleaseTimeout
  /-- R431. HOME_WAIT is over. -/
  | homeWaitExpire
  /-- R441. MGMT_SCL has been low for 35 ms. -/
  | i2cAbandon
  /-- R442. An instruction is loaded into the TAP; whether RESET_N is low. -/
  | jtagInstruction (i : JtagInstr) (low : Bool)
  /-- R467. A 1 ms comparison window ends: each reference's verdict, the ratio and the phase measured. -/
  | comparisonWindowEnd (ok25 ok25b : Bool) (ratio : Word) (phase : Nat)
  /-- R218. Fault sequences cease on lane l of quad q. -/
  | faultClear (q : Fin 16) (l : Fin 4)
  /-- R315. The USB4 link trains or is lost. -/
  | usb4LinkChange (l : Usb4Link)
  /-- R428. The host makes a configuration request of function f, which may enable vfs virtual functions. -/
  | configurationRequest (f : Fin 32) (vfs : Option (Fin 32))
  /-- R317. A write to the MSI-X table or mask of function f. -/
  | msixTableWrite (f : Fin 32) (t : MsixTarget) (value : Word)
  /-- R389. A frame that is no Course PDU is received on link k. -/
  | otherCourseFrame (k : Fin 2)
deriving DecidableEq, Repr

end Sys2Proof
end

