-- ==== Sys2Proof/Decode.lean ====
section
/-!
DEFINITION. Decode.lean: the command that a word spells. The spec's table gives no row any bits, so no word spells a
command; commands reach the block as members of its queue.
-/

namespace Sys2Proof

/-- The command spelled by a word of nbits bits: none, since the table of the spec gives bits to none of its rows. -/
def decodeTableWord (_nbits _w : Nat) : Option Instr := none

end Sys2Proof
end

