-- ==== Sys2Proof/Machine/Arith.lean ====
section
/-!
DEFINITION. Machine/Arith.lean: bit fields, signed fields, rounding and the checks shared by the families.
-/

namespace Sys2Proof.Machine

/-- Bits hi down to lo of a word, as a number (R5). -/
def getBits (w : Word) (hi lo : Nat) : Nat := (w.extractLsb' lo (hi - lo + 1)).toNat

/-- The bits hi down to lo set to 1, all others 0. -/
def maskBits (hi lo : Nat) : Word := ((BitVec.allOnes (hi - lo + 1)).setWidth 32) <<< lo

/-- The word with bits hi down to lo replaced by the low bits of v. -/
def putBits (w : Word) (hi lo v : Nat) : Word :=
  (w &&& ~~~ maskBits hi lo) ||| (((BitVec.ofNat (hi - lo + 1) v).setWidth 32) <<< lo)

/-- Bits hi down to lo of a number. -/
def bitsOf (n hi lo : Nat) : Nat := n / 2 ^ lo % 2 ^ (hi - lo + 1)

/-- Bit b of a number. -/
def bitOf (n b : Nat) : Bool := n / 2 ^ b % 2 == 1

def boolBit (b : Bool) : Nat := if b then 1 else 0

/-- A number read as two's complement of the given width. -/
def toSigned (width n : Nat) : Int :=
  if n % 2 ^ width < 2 ^ (width - 1) then ((n % 2 ^ width : Nat) : Int) else ((n % 2 ^ width : Nat) : Int) - (2 ^ width : Nat)

/-- A signed number as the bits of a field of the given width. -/
def ofSigned (width : Nat) (z : Int) : Nat := Int.toNat (z % ((2 ^ width : Nat) : Int))

/-- num / den to the nearest whole number, a tie going up; den is above 0. -/
def nearest (num : Int) (den : Nat) : Int := (2 * num + (den : Int)) / (2 * (den : Int))

/-- The least whole number that is not below num / den. -/
def ceilDiv (num den : Nat) : Nat := (num + den - 1) / den

def clampInt (lo hi z : Int) : Int := if z < lo then lo else if hi < z then hi else z

def clampNat (lo hi n : Nat) : Nat := if n < lo then lo else if hi < n then hi else n

/-- The allowed value nearest to v; midway the lower one (R29). The list rises and best is its least value. -/
def nearestAmong (v best : Nat) : List Nat → Nat
  | [] => best
  | a :: t => nearestAmong v (if (if v < a then a - v else v - a) < (if v < best then best - v else v - best) then a else best) t

/-- The value a written field takes under its own fixed range (R29). A range that depends on other fields is applied by
Machine/Operands.lean. -/
def clampRange (r : Rng) (width v : Nat) : Nat :=
  match r with
  | .all => v
  | .span lo hi => clampNat lo hi v
  | .spanS w lo hi => ofSigned w (clampInt lo hi (toSigned w v))
  | .among vs => nearestAmong v (vs.headD v) vs
  | .named last safe => if v ≤ last then v else safe
  | .dep => v % 2 ^ width

/-- Bytes read least significant first, as host memory and registers hold numbers (R5). -/
def leNat : List Byte → Nat
  | [] => 0
  | b :: t => b.toNat + 256 * leNat t

/-- n bytes of a number, least significant first (R5). -/
def leBytes : Nat → Nat → List Byte
  | 0, _ => []
  | n + 1, v => BitVec.ofNat 8 v :: leBytes n (v / 256)

/-- Bytes read most significant first, as the wire formats hold numbers (R5). -/
def beNat (bs : List Byte) : Nat := bs.foldl (fun a b => a * 256 + b.toNat) 0

/-- n bytes of a number, most significant first (R5). -/
def beBytes (n v : Nat) : List Byte := (leBytes n v).reverse

/-- Bytes k to k + n − 1 of a list; a missing byte reads 0. -/
def slice (bs : List Byte) (k n : Nat) : List Byte := (bs.drop k).take n

def byteAt (bs : List Byte) (k : Nat) : Nat := (bs.getD k 0).toNat

end Sys2Proof.Machine
end

