-- ==== Sys2Proof/Machine/RegDefs.lean ====
section
/-!
DEFINITION. Machine/RegDefs.lean: one handle per register and one per register field, at the BAR0 offset, the
reset word and the bit positions that the register tables of spec/02 to spec/24 give. A name carries the unit's
mnemonic and the field's name, as the tables do. An instance, a channel, a port or an index is an argument.
The unit windows are those of R28 (spec/02); each unit's rule of registers is named at its group.
-/

namespace Sys2Proof.Machine

/-! ### ROOT (spec/02 R38) -/
abbrev ROOT_FRZ_MAP (k : Nat) : Reg := ⟨0x40 + 0x4 * k, 0x0⟩
abbrev ROOT_FRZ_RELEASE : Reg := ⟨0x50, 0x0⟩
abbrev ROOT_FRZ_RELEASE_GO : Fld := ⟨ROOT_FRZ_RELEASE, 31, 31⟩
abbrev ROOT_FRZ_RELEASE_MASTER : Fld := ⟨ROOT_FRZ_RELEASE, 7, 0⟩
abbrev ROOT_FRZ_COUNT : Reg := ⟨0x54, 0x0⟩
abbrev ROOT_BAD_ACCESS : Reg := ⟨0x58, 0x0⟩
abbrev ROOT_CLAMP_SEQ : Reg := ⟨0x60, 0x0⟩
abbrev ROOT_FRZ_CAUSE (m : Nat) : Reg := ⟨0x100 + 0x4 * m, 0x0⟩
abbrev ROOT_FRZ_CAUSE_CAUSE (m : Nat) : Fld := ⟨ROOT_FRZ_CAUSE m, 31, 26⟩
abbrev ROOT_FRZ_CAUSE_OFFSET (m : Nat) : Fld := ⟨ROOT_FRZ_CAUSE m, 25, 0⟩
/-! ### RST (spec/24 R433) -/
abbrev RST_CTL : Reg := ⟨0x110040, 0x0⟩
abbrev RST_CTL_SYSTEM : Fld := ⟨RST_CTL, 31, 31⟩
abbrev RST_CTL_CORE : Fld := ⟨RST_CTL, 30, 30⟩
abbrev RST_CTL_CONFIRM : Fld := ⟨RST_CTL, 15, 0⟩
abbrev RST_CAUSE : Reg := ⟨0x110044, 0x0⟩
abbrev RST_CAUSE_KIND : Fld := ⟨RST_CAUSE, 31, 30⟩
abbrev RST_CAUSE_SOURCE : Fld := ⟨RST_CAUSE, 29, 26⟩
abbrev RST_CAUSE_INTERRUPTED : Fld := ⟨RST_CAUSE, 5, 0⟩
abbrev RST_STATUS : Reg := ⟨0x110048, 0x0⟩
abbrev RST_STATUS_RELEASED : Fld := ⟨RST_STATUS, 31, 31⟩
abbrev RST_STATUS_NO_FW : Fld := ⟨RST_STATUS, 30, 30⟩
abbrev RST_STATUS_HOME_RUN : Fld := ⟨RST_STATUS, 29, 29⟩
abbrev RST_STATUS_BOOT_SLOT : Fld := ⟨RST_STATUS, 28, 27⟩
abbrev RST_STATUS_PHASE : Fld := ⟨RST_STATUS, 2, 0⟩
abbrev RST_BOOT_MS : Reg := ⟨0x11004c, 0x0⟩
abbrev RST_WDT : Reg := ⟨0x110050, 0x3e8⟩
abbrev RST_WDT_EN : Fld := ⟨RST_WDT, 31, 31⟩
abbrev RST_WDT_KICK : Fld := ⟨RST_WDT, 30, 30⟩
abbrev RST_WDT_WDT_MS : Fld := ⟨RST_WDT, 13, 0⟩
abbrev RST_HOME_CFG : Reg := ⟨0x110054, 0x3c⟩
abbrev RST_HOME_CFG_HOME_WAIT : Fld := ⟨RST_HOME_CFG, 9, 0⟩
abbrev RST_FW_DONE : Reg := ⟨0x110058, 0x0⟩
abbrev RST_FW_DONE_BOOT_DONE : Fld := ⟨RST_FW_DONE, 31, 31⟩
abbrev RST_SYSTEM : Reg := ⟨0x110080, 0x0⟩
abbrev RST_FUNCTION : Reg := ⟨0x110084, 0x0⟩
abbrev RST_CORE : Reg := ⟨0x110088, 0x0⟩
abbrev RST_WDT_EXPIRE : Reg := ⟨0x11008c, 0x0⟩
abbrev RST_EVT : Reg := ⟨0x1100c0, 0x0⟩
abbrev RST_EVT_EVENT : Fld := ⟨RST_EVT, 2, 0⟩
abbrev RST_EVT_EN : Reg := ⟨0x1100c4, 0x7⟩
abbrev RST_EVT_EN_EVENT : Fld := ⟨RST_EVT_EN, 2, 0⟩
/-! ### PWR (spec/20 R375) -/
abbrev PWR_CTL : Reg := ⟨0x120040, 0x0⟩
abbrev PWR_CTL_TARGET : Fld := ⟨PWR_CTL, 1, 0⟩
abbrev PWR_TRIM_LO : Reg := ⟨0x120044, 0x0⟩
abbrev PWR_TRIM_HI : Reg := ⟨0x120048, 0x0⟩
abbrev PWR_TRIM_HI_OFF : Fld := ⟨PWR_TRIM_HI, 23, 0⟩
abbrev PWR_STATUS : Reg := ⟨0x12004c, 0x0⟩
abbrev PWR_STATUS_STATE : Fld := ⟨PWR_STATUS, 31, 30⟩
abbrev PWR_STATUS_TRANS : Fld := ⟨PWR_STATUS, 29, 29⟩
abbrev PWR_STATUS_STEP : Fld := ⟨PWR_STATUS, 28, 25⟩
abbrev PWR_STATUS_WAKE_FAIL : Fld := ⟨PWR_STATUS, 24, 24⟩
abbrev PWR_STATUS_SAFE : Fld := ⟨PWR_STATUS, 23, 23⟩
abbrev PWR_STATUS_PWR_ALT : Fld := ⟨PWR_STATUS, 22, 22⟩
abbrev PWR_STATUS_DYING_GASP : Fld := ⟨PWR_STATUS, 21, 21⟩
abbrev PWR_STATUS_WAKE_PEND : Fld := ⟨PWR_STATUS, 20, 20⟩
abbrev PWR_STATUS_LAST_OUTCOME : Fld := ⟨PWR_STATUS, 19, 17⟩
abbrev PWR_DOM_ON_LO : Reg := ⟨0x120050, 0xffffffff⟩
abbrev PWR_DOM_ON_HI : Reg := ⟨0x120054, 0xffffff⟩
abbrev PWR_DOM_RET_LO : Reg := ⟨0x120058, 0x0⟩
abbrev PWR_DOM_RET_HI : Reg := ⟨0x12005c, 0x0⟩
abbrev PWR_DOM_FAIL_LO : Reg := ⟨0x120060, 0x0⟩
abbrev PWR_DOM_FAIL_HI : Reg := ⟨0x120064, 0x0⟩
abbrev PWR_VOLT : Reg := ⟨0x120068, 0x320aa2ee⟩
abbrev PWR_VOLT_VOLT_SAFE : Fld := ⟨PWR_VOLT, 29, 20⟩
abbrev PWR_VOLT_VOLT_LOW : Fld := ⟨PWR_VOLT, 19, 10⟩
abbrev PWR_VOLT_VOLT_FULL : Fld := ⟨PWR_VOLT, 9, 0⟩
abbrev PWR_AVS_CFG : Reg := ⟨0x12006c, 0x0⟩
abbrev PWR_AVS_CFG_RAIL : Fld := ⟨PWR_AVS_CFG, 3, 0⟩
abbrev PWR_WAKE_EN : Reg := ⟨0x120070, 0xff⟩
abbrev PWR_WAKE_EN_SOURCE : Fld := ⟨PWR_WAKE_EN, 7, 0⟩
abbrev PWR_WAKE_SRC : Reg := ⟨0x120074, 0x0⟩
abbrev PWR_WAKE_SRC_SOURCE : Fld := ⟨PWR_WAKE_SRC, 7, 0⟩
abbrev PWR_WAKE_CFG : Reg := ⟨0x120078, 0x8000003a⟩
abbrev PWR_WAKE_CFG_GASP_EN : Fld := ⟨PWR_WAKE_CFG, 31, 31⟩
abbrev PWR_WAKE_CFG_MGMT_ADDR : Fld := ⟨PWR_WAKE_CFG, 6, 0⟩
abbrev PWR_GRANT_TO : Reg := ⟨0x12007c, 0x32⟩
abbrev PWR_GRANT_TO_GRANT_TO : Fld := ⟨PWR_GRANT_TO, 7, 0⟩
abbrev PWR_REFUSE : Reg := ⟨0x120080, 0x0⟩
abbrev PWR_REFUSE_KIND : Fld := ⟨PWR_REFUSE, 31, 16⟩
abbrev PWR_REFUSE_INSTANCE : Fld := ⟨PWR_REFUSE, 15, 8⟩
abbrev PWR_REFUSE_STEP : Fld := ⟨PWR_REFUSE, 7, 4⟩
abbrev PWR_REFUSE_TARGET : Fld := ⟨PWR_REFUSE, 3, 2⟩
abbrev PWR_REFUSE_TIMEOUT : Fld := ⟨PWR_REFUSE, 1, 1⟩
abbrev PWR_REFUSE_VALID : Fld := ⟨PWR_REFUSE, 0, 0⟩
abbrev PWR_REFUSE_SEC : Reg := ⟨0x120084, 0x0⟩
abbrev PWR_REFUSE_NS : Reg := ⟨0x120088, 0x0⟩
abbrev PWR_REFUSE_NS_VALUE : Fld := ⟨PWR_REFUSE_NS, 29, 0⟩
abbrev PWR_ENTRIES : Reg := ⟨0x1200a0, 0x0⟩
abbrev PWR_ABORTS : Reg := ⟨0x1200a4, 0x0⟩
abbrev PWR_REFUSALS : Reg := ⟨0x1200a8, 0x0⟩
abbrev PWR_WAKES : Reg := ⟨0x1200ac, 0x0⟩
abbrev PWR_WAKE_FAILS : Reg := ⟨0x1200b0, 0x0⟩
abbrev PWR_WAKE_REFUSED : Reg := ⟨0x1200b4, 0x0⟩
abbrev PWR_AVS_RETRY : Reg := ⟨0x1200b8, 0x0⟩
abbrev PWR_PLL_RETRY : Reg := ⟨0x1200bc, 0x0⟩
abbrev PWR_EVT : Reg := ⟨0x1200c0, 0x0⟩
abbrev PWR_EVT_EVENT : Fld := ⟨PWR_EVT, 7, 0⟩
abbrev PWR_EVT_EN : Reg := ⟨0x1200c4, 0xff⟩
abbrev PWR_EVT_EN_EVENT : Fld := ⟨PWR_EVT_EN, 7, 0⟩
/-! ### BST (spec/21 R388) -/
abbrev BST_CFG : Reg := ⟨0x130040, 0x8000000a⟩
abbrev BST_CFG_EN : Fld := ⟨BST_CFG, 31, 31⟩
abbrev BST_CFG_SLICE_GAP : Fld := ⟨BST_CFG, 9, 0⟩
abbrev BST_STATUS : Reg := ⟨0x130044, 0x0⟩
abbrev BST_STATUS_RUNNING : Fld := ⟨BST_STATUS, 31, 31⟩
abbrev BST_STATUS_PHASE : Fld := ⟨BST_STATUS, 30, 29⟩
abbrev BST_STATUS_MBIST_DONE : Fld := ⟨BST_STATUS, 28, 28⟩
abbrev BST_STATUS_MBIST_FAIL : Fld := ⟨BST_STATUS, 27, 27⟩
abbrev BST_STATUS_TARGET : Fld := ⟨BST_STATUS, 21, 16⟩
abbrev BST_STATUS_SEGMENT : Fld := ⟨BST_STATUS, 11, 8⟩
abbrev BST_LAST : Reg := ⟨0x130048, 0x0⟩
abbrev BST_LAST_VERDICT : Fld := ⟨BST_LAST, 31, 29⟩
abbrev BST_LAST_CAUSE : Fld := ⟨BST_LAST, 28, 26⟩
abbrev BST_LAST_CONFIRM : Fld := ⟨BST_LAST, 25, 25⟩
abbrev BST_LAST_TARGET : Fld := ⟨BST_LAST, 21, 16⟩
abbrev BST_LAST_SEGMENT : Fld := ⟨BST_LAST, 11, 8⟩
abbrev BST_LAST_SIG_LO : Reg := ⟨0x13004c, 0x0⟩
abbrev BST_LAST_SIG_HI : Reg := ⟨0x130050, 0x0⟩
abbrev BST_EVT : Reg := ⟨0x130060, 0x0⟩
abbrev BST_EVT_EVENT : Fld := ⟨BST_EVT, 4, 0⟩
abbrev BST_EVT_EN : Reg := ⟨0x130064, 0x1f⟩
abbrev BST_EVT_EN_EVENT : Fld := ⟨BST_EVT_EN, 4, 0⟩
abbrev BST_SLICES : Reg := ⟨0x130080, 0x0⟩
abbrev BST_PASS : Reg := ⟨0x130084, 0x0⟩
abbrev BST_FAIL : Reg := ⟨0x130088, 0x0⟩
abbrev BST_ABORTED : Reg := ⟨0x13008c, 0x0⟩
abbrev BST_SERVICE_ABORT : Reg := ⟨0x130090, 0x0⟩
abbrev BST_BUDGET : Reg := ⟨0x130094, 0x0⟩
abbrev BST_TRANSIENT : Reg := ⟨0x130098, 0x0⟩
abbrev BST_TGTt_STATUS (t : Nat) : Reg := ⟨0x131000 + 0x4 * t, 0xffff⟩
abbrev BST_TGTt_STATUS_STATE (t : Nat) : Fld := ⟨BST_TGTt_STATUS t, 31, 30⟩
abbrev BST_TGTt_STATUS_OVERDUE (t : Nat) : Fld := ⟨BST_TGTt_STATUS t, 29, 29⟩
abbrev BST_TGTt_STATUS_PENDING (t : Nat) : Fld := ⟨BST_TGTt_STATUS t, 28, 28⟩
abbrev BST_TGTt_STATUS_SUSPECT (t : Nat) : Fld := ⟨BST_TGTt_STATUS t, 27, 27⟩
abbrev BST_TGTt_STATUS_VERDICT (t : Nat) : Fld := ⟨BST_TGTt_STATUS t, 26, 24⟩
abbrev BST_TGTt_STATUS_NEXT_SEG (t : Nat) : Fld := ⟨BST_TGTt_STATUS t, 19, 16⟩
abbrev BST_TGTt_STATUS_HOURS (t : Nat) : Fld := ⟨BST_TGTt_STATUS t, 15, 0⟩
abbrev BST_MEMm_STATUS (m : Nat) : Reg := ⟨0x132000 + 0x4 * m, 0x0⟩
abbrev BST_MEMm_STATUS_STATE (m : Nat) : Fld := ⟨BST_MEMm_STATUS m, 31, 30⟩
abbrev BST_MEMm_STATUS_FUSE_USED (m : Nat) : Fld := ⟨BST_MEMm_STATUS m, 23, 16⟩
abbrev BST_MEMm_STATUS_SOFT_USED (m : Nat) : Fld := ⟨BST_MEMm_STATUS m, 15, 8⟩
abbrev BST_MEMm_STATUS_FREE (m : Nat) : Fld := ⟨BST_MEMm_STATUS m, 7, 0⟩
/-! ### KST (spec/03 R66) -/
abbrev KST_CTL : Reg := ⟨0x200040, 0x2⟩
abbrev KST_CTL_AUTO_STEP : Fld := ⟨KST_CTL, 2, 2⟩
abbrev KST_CTL_AUTO_SWITCH : Fld := ⟨KST_CTL, 1, 1⟩
abbrev KST_CTL_PREF_DOM : Fld := ⟨KST_CTL, 0, 0⟩
abbrev KST_STATUS : Reg := ⟨0x200044, 0x0⟩
abbrev KST_STATUS_HOLD_QUAL : Fld := ⟨KST_STATUS, 15, 14⟩
abbrev KST_STATUS_REF_SEL : Fld := ⟨KST_STATUS, 13, 13⟩
abbrev KST_STATUS_SWITCHING : Fld := ⟨KST_STATUS, 12, 12⟩
abbrev KST_STATUS_SLEWING : Fld := ⟨KST_STATUS, 11, 11⟩
abbrev KST_STATUS_SERVO_STATE : Fld := ⟨KST_STATUS, 10, 9⟩
abbrev KST_STATUS_SEL_DOM : Fld := ⟨KST_STATUS, 8, 8⟩
abbrev KST_CAPTURE : Reg := ⟨0x200048, 0x0⟩
abbrev KST_CAPTURE_GO : Fld := ⟨KST_CAPTURE, 0, 0⟩
abbrev KST_SNAP_SEC_HI : Reg := ⟨0x20004c, 0x0⟩
abbrev KST_SNAP_SEC_HI_VALUE : Fld := ⟨KST_SNAP_SEC_HI, 15, 0⟩
abbrev KST_SNAP_SEC_LO : Reg := ⟨0x200050, 0x0⟩
abbrev KST_SNAP_NS : Reg := ⟨0x200054, 0x0⟩
abbrev KST_SNAP_NS_VALUE : Fld := ⟨KST_SNAP_NS, 29, 0⟩
abbrev KST_SNAP_FRAC : Reg := ⟨0x200058, 0x0⟩
abbrev KST_SNAP_FRAC_VALUE : Fld := ⟨KST_SNAP_FRAC, 15, 0⟩
abbrev KST_FREQ_BASE_LO : Reg := ⟨0x200060, 0x0⟩
abbrev KST_FREQ_BASE_HI : Reg := ⟨0x200064, 0x280000⟩
abbrev KST_FREQ_BASE_HI_WORD : Fld := ⟨KST_FREQ_BASE_HI, 21, 0⟩
abbrev KST_FREQ_LO : Reg := ⟨0x200068, 0x0⟩
abbrev KST_FREQ_HI : Reg := ⟨0x20006c, 0x280000⟩
abbrev KST_FREQ_HI_WORD : Fld := ⟨KST_FREQ_HI, 21, 0⟩
abbrev KST_SERVO_CFG : Reg := ⟨0x200070, 0x6400b5⟩
abbrev KST_SERVO_CFG_BW_MHZ : Fld := ⟨KST_SERVO_CFG, 31, 16⟩
abbrev KST_SERVO_CFG_DAMP : Fld := ⟨KST_SERVO_CFG, 9, 0⟩
abbrev KST_FREQ_LIM : Reg := ⟨0x200074, 0x64⟩
abbrev KST_FREQ_LIM_LIM_PPM : Fld := ⟨KST_FREQ_LIM, 9, 0⟩
abbrev KST_JUMP_CFG : Reg := ⟨0x200078, 0x80032⟩
abbrev KST_JUMP_CFG_QUALIFY_N : Fld := ⟨KST_JUMP_CFG, 22, 16⟩
abbrev KST_JUMP_CFG_JUMP_THR : Fld := ⟨KST_JUMP_CFG, 13, 0⟩
abbrev KST_AGREE_CFG : Reg := ⟨0x20007c, 0x14⟩
abbrev KST_AGREE_CFG_AGREE_WIN : Fld := ⟨KST_AGREE_CFG, 9, 0⟩
abbrev KST_SLEW_CFG : Reg := ⟨0x200080, 0xa⟩
abbrev KST_SLEW_CFG_SLEW_LIM : Fld := ⟨KST_SLEW_CFG, 9, 0⟩
abbrev KST_HOLD_CFG : Reg := ⟨0x200084, 0x3e8⟩
abbrev KST_HOLD_CFG_HOLD_SLEW_LIM : Fld := ⟨KST_HOLD_CFG, 16, 0⟩
abbrev KST_HOLD_AGE : Reg := ⟨0x200088, 0x3840⟩
abbrev KST_HOLD_AGE_HOLD_AGE_LIM : Fld := ⟨KST_HOLD_AGE, 15, 0⟩
abbrev KST_SEL_CMD : Reg := ⟨0x20008c, 0x0⟩
abbrev KST_SEL_CMD_CMD : Fld := ⟨KST_SEL_CMD, 1, 0⟩
abbrev KST_STEP_CTL : Reg := ⟨0x200090, 0x0⟩
abbrev KST_STEP_CTL_ARM : Fld := ⟨KST_STEP_CTL, 31, 31⟩
abbrev KST_STEP_CTL_NEG : Fld := ⟨KST_STEP_CTL, 30, 30⟩
abbrev KST_STEP_CTL_STEP_NS : Fld := ⟨KST_STEP_CTL, 29, 0⟩
abbrev KST_STEP_SEC : Reg := ⟨0x200094, 0x0⟩
abbrev KST_REF_CTL : Reg := ⟨0x200098, 0x0⟩
abbrev KST_REF_CTL_REVERT : Fld := ⟨KST_REF_CTL, 0, 0⟩
abbrev KST_REF_STATUS : Reg := ⟨0x20009c, 0x0⟩
abbrev KST_REF_STATUS_REF25_OK : Fld := ⟨KST_REF_STATUS, 31, 31⟩
abbrev KST_REF_STATUS_REF25B_OK : Fld := ⟨KST_REF_STATUS, 30, 30⟩
abbrev KST_REF_STATUS_REF25_GOOD_SEC : Fld := ⟨KST_REF_STATUS, 15, 0⟩
abbrev KST_REF_RATIO : Reg := ⟨0x2000a0, 0x0⟩
abbrev KST_REF_PHASE : Reg := ⟨0x2000a4, 0x0⟩
abbrev KST_REF_PHASE_PHASE : Fld := ⟨KST_REF_PHASE, 15, 0⟩
abbrev KST_INTEG : Reg := ⟨0x2000b0, 0x0⟩
abbrev KST_HOLD_SEC : Reg := ⟨0x2000b4, 0x0⟩
abbrev KST_DOM_x_STATUS (x : Nat) : Reg := ⟨0x2000c0 + 0x10 * x, 0xffff0000⟩
abbrev KST_DOM_x_STATUS_AGE_MS (x : Nat) : Fld := ⟨KST_DOM_x_STATUS x, 31, 16⟩
abbrev KST_DOM_x_STATUS_QUAL_CNT (x : Nat) : Fld := ⟨KST_DOM_x_STATUS x, 14, 8⟩
abbrev KST_DOM_x_STATUS_REFUSE_RUN (x : Nat) : Fld := ⟨KST_DOM_x_STATUS x, 7, 6⟩
abbrev KST_DOM_x_STATUS_STATE (x : Nat) : Fld := ⟨KST_DOM_x_STATUS x, 2, 0⟩
abbrev KST_DOM_x_OFS (x : Nat) : Reg := ⟨0x2000c4 + 0x10 * x, 0x0⟩
abbrev KST_DOM_x_REFUSED (x : Nat) : Reg := ⟨0x2000c8 + 0x10 * x, 0x0⟩
abbrev KST_DOM_x_ACCEPTED (x : Nat) : Reg := ⟨0x2000cc + 0x10 * x, 0x0⟩
abbrev KST_LAST_STEP_SEC : Reg := ⟨0x2000e0, 0x0⟩
abbrev KST_LAST_STEP_INFO : Reg := ⟨0x2000e4, 0x0⟩
abbrev KST_LAST_STEP_INFO_NEG : Fld := ⟨KST_LAST_STEP_INFO, 31, 31⟩
abbrev KST_LAST_STEP_INFO_CAUSE : Fld := ⟨KST_LAST_STEP_INFO, 30, 29⟩
abbrev KST_LAST_STEP_NS : Reg := ⟨0x2000e8, 0x0⟩
abbrev KST_LAST_STEP_NS_STEP_NS : Fld := ⟨KST_LAST_STEP_NS, 29, 0⟩
abbrev KST_ALARM : Reg := ⟨0x200100, 0x0⟩
abbrev KST_ALARM_ALARM : Fld := ⟨KST_ALARM, 16, 0⟩
abbrev KST_ALARM_EN : Reg := ⟨0x200104, 0x1ffff⟩
abbrev KST_ALARM_EN_ALARM : Fld := ⟨KST_ALARM_EN, 16, 0⟩
abbrev KST_WAKE_EN : Reg := ⟨0x200108, 0x60bc⟩
abbrev KST_WAKE_EN_ALARM : Fld := ⟨KST_WAKE_EN, 16, 0⟩
abbrev KST_TDC_CAL (t : Nat) : Reg := ⟨0x201000 + 0x4 * t, 0x140⟩
abbrev KST_TDC_CAL_FAULT (t : Nat) : Fld := ⟨KST_TDC_CAL t, 31, 31⟩
abbrev KST_TDC_CAL_LIVE (t : Nat) : Fld := ⟨KST_TDC_CAL t, 30, 30⟩
abbrev KST_TDC_CAL_ARMED (t : Nat) : Fld := ⟨KST_TDC_CAL t, 29, 29⟩
abbrev KST_TDC_CAL_SPAN (t : Nat) : Fld := ⟨KST_TDC_CAL t, 8, 0⟩
/-! ### TCM (spec/04 R79) -/
abbrev TCM_PEND0 : Reg := ⟨0x240040, 0x0⟩
abbrev TCM_PEND1 : Reg := ⟨0x240044, 0x0⟩
abbrev TCM_LOG_SEQ : Reg := ⟨0x240050, 0x0⟩
abbrev TCM_CNT_APPLIED : Reg := ⟨0x240060, 0x0⟩
abbrev TCM_CNT_LATE : Reg := ⟨0x240064, 0x0⟩
abbrev TCM_CNT_REJECTED : Reg := ⟨0x240068, 0x0⟩
abbrev TCM_POST_TIME_HI (p : Nat) : Reg := ⟨0x241000 + 0x40 * p, 0x0⟩
abbrev TCM_POST_TIME_HI_VALUE (p : Nat) : Fld := ⟨TCM_POST_TIME_HI p, 15, 0⟩
abbrev TCM_POST_TIME_LO (p : Nat) : Reg := ⟨0x241004 + 0x40 * p, 0x0⟩
abbrev TCM_POST_NS (p : Nat) : Reg := ⟨0x241008 + 0x40 * p, 0x0⟩
abbrev TCM_POST_NS_NS (p : Nat) : Fld := ⟨TCM_POST_NS p, 29, 0⟩
abbrev TCM_POST_CTL (p : Nat) : Reg := ⟨0x24100c + 0x40 * p, 0x0⟩
abbrev TCM_POST_CTL_GO (p : Nat) : Fld := ⟨TCM_POST_CTL p, 31, 31⟩
abbrev TCM_POST_CTL_NOTIFY (p : Nat) : Fld := ⟨TCM_POST_CTL p, 30, 30⟩
abbrev TCM_POST_CTL_ANCHOR (p : Nat) : Fld := ⟨TCM_POST_CTL p, 17, 16⟩
abbrev TCM_POST_CTL_UNITS (p : Nat) : Fld := ⟨TCM_POST_CTL p, 8, 0⟩
abbrev TCM_POST_RESULT (p : Nat) : Reg := ⟨0x241010 + 0x40 * p, 0x0⟩
abbrev TCM_POST_RESULT_ID (p : Nat) : Fld := ⟨TCM_POST_RESULT p, 31, 16⟩
abbrev TCM_POST_RESULT_OUTCOME (p : Nat) : Fld := ⟨TCM_POST_RESULT p, 3, 0⟩
abbrev TCM_POST_CANCEL (p : Nat) : Reg := ⟨0x241014 + 0x40 * p, 0x0⟩
abbrev TCM_POST_CANCEL_GO (p : Nat) : Fld := ⟨TCM_POST_CANCEL p, 31, 31⟩
abbrev TCM_POST_CANCEL_ID (p : Nat) : Fld := ⟨TCM_POST_CANCEL p, 15, 0⟩

/-! ### TTD (spec/17 R314) -/
abbrev TTD_PTP_CFG : Reg := ⟨0x300040, 0x8080⟩
abbrev TTD_PTP_CFG_DOMAIN : Fld := ⟨TTD_PTP_CFG, 31, 24⟩
abbrev TTD_PTP_CFG_TRANSPORT : Fld := ⟨TTD_PTP_CFG, 23, 22⟩
abbrev TTD_PTP_CFG_L2_ADDR : Fld := ⟨TTD_PTP_CFG, 21, 21⟩
abbrev TTD_PTP_CFG_PRIO1 : Fld := ⟨TTD_PTP_CFG, 15, 8⟩
abbrev TTD_PTP_CFG_PRIO2 : Fld := ⟨TTD_PTP_CFG, 7, 0⟩
abbrev TTD_CLOCK_ID_LO : Reg := ⟨0x300044, 0x0⟩
abbrev TTD_CLOCK_ID_HI : Reg := ⟨0x300048, 0x0⟩
abbrev TTD_IP4_SRC : Reg := ⟨0x30004c, 0x0⟩
abbrev TTD_IP6_SRCj (j : Nat) : Reg := ⟨0x300050 + 0x4 * j, 0x0⟩
abbrev TTD_CLASS : Reg := ⟨0x300060, 0x6078cf8⟩
abbrev TTD_CLASS_CLASS_TRACK : Fld := ⟨TTD_CLASS, 31, 24⟩
abbrev TTD_CLASS_CLASS_HOLD : Fld := ⟨TTD_CLASS, 23, 16⟩
abbrev TTD_CLASS_CLASS_AGED : Fld := ⟨TTD_CLASS, 15, 8⟩
abbrev TTD_CLASS_CLASS_FREE : Fld := ⟨TTD_CLASS, 7, 0⟩
abbrev TTD_PR_CFG : Reg := ⟨0x300064, 0x3203e8⟩
abbrev TTD_PR_CFG_SERVER_LIM : Fld := ⟨TTD_PR_CFG, 31, 16⟩
abbrev TTD_PR_CFG_WIN_US : Fld := ⟨TTD_PR_CFG, 15, 0⟩
abbrev TTD_NB_CFG : Reg := ⟨0x300068, 0xc8⟩
abbrev TTD_NB_CFG_NB_LIM : Fld := ⟨TTD_NB_CFG, 15, 0⟩
abbrev TTD_EVT : Reg := ⟨0x300070, 0x0⟩
abbrev TTD_EVT_EVENT : Fld := ⟨TTD_EVT, 7, 0⟩
abbrev TTD_EVT_EN : Reg := ⟨0x300074, 0xff⟩
abbrev TTD_EVT_EN_EVENT : Fld := ⟨TTD_EVT_EN, 7, 0⟩
abbrev TTD_Lx_CFG (x : Nat) : Reg := ⟨0x300100 + 0x80 * x, 0x0⟩
abbrev TTD_Lx_CFG_REQ_CAL (x : Nat) : Fld := ⟨TTD_Lx_CFG x, 31, 31⟩
abbrev TTD_Lx_CFG_ASYM_CH (x : Nat) : Fld := ⟨TTD_Lx_CFG x, 25, 24⟩
abbrev TTD_Lx_CFG_RX_CAL (x : Nat) : Fld := ⟨TTD_Lx_CFG x, 15, 0⟩
abbrev TTD_Lx_DDS (x : Nat) : Reg := ⟨0x300104 + 0x80 * x, 0x0⟩
abbrev TTD_Lx_LAST_N_LO (x : Nat) : Reg := ⟨0x300108 + 0x80 * x, 0x0⟩
abbrev TTD_Lx_LAST_N_HI (x : Nat) : Reg := ⟨0x30010c + 0x80 * x, 0x0⟩
abbrev TTD_Lx_LAST_N_HI_VALUE (x : Nat) : Fld := ⟨TTD_Lx_LAST_N_HI x, 15, 0⟩
abbrev TTD_Lx_LAST_OFS (x : Nat) : Reg := ⟨0x300110 + 0x80 * x, 0x0⟩
abbrev TTD_Lx_DATASET (x : Nat) : Reg := ⟨0x300114 + 0x80 * x, 0x0⟩
abbrev TTD_Lx_DATASET_UTC_OFFSET (x : Nat) : Fld := ⟨TTD_Lx_DATASET x, 31, 16⟩
abbrev TTD_Lx_DATASET_GM_CLASS (x : Nat) : Fld := ⟨TTD_Lx_DATASET x, 15, 8⟩
abbrev TTD_Lx_DATASET_FLAGS (x : Nat) : Fld := ⟨TTD_Lx_DATASET x, 7, 0⟩
abbrev TTD_Lx_ANCHOR_OK (x : Nat) : Reg := ⟨0x300120 + 0x80 * x, 0x0⟩
abbrev TTD_Lx_NO_STAMP (x : Nat) : Reg := ⟨0x300124 + 0x80 * x, 0x0⟩
abbrev TTD_Lx_STEPPED (x : Nat) : Reg := ⟨0x300128 + 0x80 * x, 0x0⟩
abbrev TTD_Lx_LATE (x : Nat) : Reg := ⟨0x30012c + 0x80 * x, 0x0⟩
abbrev TTD_Lx_EARLY (x : Nat) : Reg := ⟨0x300130 + 0x80 * x, 0x0⟩
abbrev TTD_Lx_UNRANGED (x : Nat) : Reg := ⟨0x300134 + 0x80 * x, 0x0⟩
abbrev TTD_Lx_UNCAL (x : Nat) : Reg := ⟨0x300138 + 0x80 * x, 0x0⟩
abbrev TTD_Lx_TC_CORR (x : Nat) : Reg := ⟨0x30013c + 0x80 * x, 0x0⟩
abbrev TTD_Lx_TC_CARRY (x : Nat) : Reg := ⟨0x300140 + 0x80 * x, 0x0⟩
abbrev TTD_PORTp_CFG (p : Nat) : Reg := ⟨0x301000 + 0x40 * p, 0x4d100000⟩
abbrev TTD_PORTp_CFG_MODE (p : Nat) : Fld := ⟨TTD_PORTp_CFG p, 31, 30⟩
abbrev TTD_PORTp_CFG_LOG_SYNC (p : Nat) : Fld := ⟨TTD_PORTp_CFG p, 27, 24⟩
abbrev TTD_PORTp_CFG_LOG_ANN (p : Nat) : Fld := ⟨TTD_PORTp_CFG p, 23, 20⟩
abbrev TTD_PORTp_CFG_LOG_DREQ (p : Nat) : Fld := ⟨TTD_PORTp_CFG p, 19, 16⟩
abbrev TTD_PORTp_CFG_SYNC_CLASS (p : Nat) : Fld := ⟨TTD_PORTp_CFG p, 6, 0⟩
abbrev TTD_PORTp_CAL (p : Nat) : Reg := ⟨0x301004 + 0x40 * p, 0x0⟩
abbrev TTD_PORTp_CAL_TX_CAL (p : Nat) : Fld := ⟨TTD_PORTp_CAL p, 31, 16⟩
abbrev TTD_PORTp_CAL_RX_CAL (p : Nat) : Fld := ⟨TTD_PORTp_CAL p, 15, 0⟩
abbrev TTD_PORTp_SYNC_TX (p : Nat) : Reg := ⟨0x301010 + 0x40 * p, 0x0⟩
abbrev TTD_PORTp_SYNC_SKIP (p : Nat) : Reg := ⟨0x301014 + 0x40 * p, 0x0⟩
abbrev TTD_PORTp_ANN_TX (p : Nat) : Reg := ⟨0x301018 + 0x40 * p, 0x0⟩
abbrev TTD_PORTp_DREQ_RX (p : Nat) : Reg := ⟨0x30101c + 0x40 * p, 0x0⟩
abbrev TTD_PORTp_DRESP_TX (p : Nat) : Reg := ⟨0x301020 + 0x40 * p, 0x0⟩
abbrev TTD_PORTp_FOREIGN (p : Nat) : Reg := ⟨0x301024 + 0x40 * p, 0x0⟩
abbrev TTD_PORTp_PTP_BAD (p : Nat) : Reg := ⟨0x301028 + 0x40 * p, 0x0⟩
abbrev TTD_PORTp_TC_CORR (p : Nat) : Reg := ⟨0x30102c + 0x40 * p, 0x0⟩
abbrev TTD_PORTp_TC_TWO_STEP (p : Nat) : Reg := ⟨0x301030 + 0x40 * p, 0x0⟩
abbrev TTD_PORTp_TC_UNTAGGED (p : Nat) : Reg := ⟨0x301034 + 0x40 * p, 0x0⟩
abbrev TTD_PRn_CFG (i : Nat) : Reg := ⟨0x302000 + 0x10 * i, 0x0⟩
abbrev TTD_PRn_CFG_EN (i : Nat) : Fld := ⟨TTD_PRn_CFG i, 31, 31⟩
abbrev TTD_PRn_CFG_POL (i : Nat) : Fld := ⟨TTD_PRn_CFG i, 30, 30⟩
abbrev TTD_PRn_CFG_WAKE (i : Nat) : Fld := ⟨TTD_PRn_CFG i, 29, 29⟩
abbrev TTD_PRn_CFG_PR_CAL (i : Nat) : Fld := ⟨TTD_PRn_CFG i, 15, 0⟩
abbrev TTD_PRn_ERR (i : Nat) : Reg := ⟨0x302004 + 0x10 * i, 0x0⟩
abbrev TTD_PRn_SEC (i : Nat) : Reg := ⟨0x30200c + 0x10 * i, 0x0⟩
abbrev TTD_PRn_STATUS (i : Nat) : Reg := ⟨0x302008 + 0x10 * i, 0x0⟩
abbrev TTD_PRn_STATUS_RESULT (i : Nat) : Fld := ⟨TTD_PRn_STATUS i, 31, 30⟩
abbrev TTD_PRn_STATUS_STEPPED (i : Nat) : Fld := ⟨TTD_PRn_STATUS i, 29, 29⟩
abbrev TTD_PRn_STATUS_ALARM (i : Nat) : Fld := ⟨TTD_PRn_STATUS i, 28, 28⟩
abbrev TTD_PRn_STATUS_EXTRA (i : Nat) : Fld := ⟨TTD_PRn_STATUS i, 23, 16⟩
abbrev TTD_PRn_STATUS_OUTSIDE (i : Nat) : Fld := ⟨TTD_PRn_STATUS i, 15, 8⟩
abbrev TTD_PRn_STATUS_MISS_RUN (i : Nat) : Fld := ⟨TTD_PRn_STATUS i, 7, 0⟩
abbrev TTD_TEVe_CFG (e : Nat) : Reg := ⟨0x303000 + 0x20 * e, 0x0⟩
abbrev TTD_TEVe_CFG_EN (e : Nat) : Fld := ⟨TTD_TEVe_CFG e, 31, 31⟩
abbrev TTD_TEVe_CFG_POL (e : Nat) : Fld := ⟨TTD_TEVe_CFG e, 30, 30⟩
abbrev TTD_TEVe_CFG_WAKE (e : Nat) : Fld := ⟨TTD_TEVe_CFG e, 29, 29⟩
abbrev TTD_TEVe_STATUS (e : Nat) : Reg := ⟨0x303004 + 0x20 * e, 0x0⟩
abbrev TTD_TEVe_STATUS_FILL (e : Nat) : Fld := ⟨TTD_TEVe_STATUS e, 20, 16⟩
abbrev TTD_TEVe_STATUS_LOST (e : Nat) : Fld := ⟨TTD_TEVe_STATUS e, 15, 0⟩
abbrev TTD_TEVe_SEC_HI (e : Nat) : Reg := ⟨0x303008 + 0x20 * e, 0x0⟩
abbrev TTD_TEVe_SEC_HI_VALID (e : Nat) : Fld := ⟨TTD_TEVe_SEC_HI e, 31, 31⟩
abbrev TTD_TEVe_SEC_HI_COARSE (e : Nat) : Fld := ⟨TTD_TEVe_SEC_HI e, 30, 30⟩
abbrev TTD_TEVe_SEC_HI_SEC (e : Nat) : Fld := ⟨TTD_TEVe_SEC_HI e, 15, 0⟩
abbrev TTD_TEVe_SEC_LO (e : Nat) : Reg := ⟨0x30300c + 0x20 * e, 0x0⟩
abbrev TTD_TEVe_NS (e : Nat) : Reg := ⟨0x303010 + 0x20 * e, 0x0⟩
abbrev TTD_TEVe_NS_NS (e : Nat) : Fld := ⟨TTD_TEVe_NS e, 29, 0⟩
abbrev TTD_TEVe_FRAC (e : Nat) : Reg := ⟨0x303014 + 0x20 * e, 0x0⟩
abbrev TTD_TEVe_FRAC_FRAC (e : Nat) : Fld := ⟨TTD_TEVe_FRAC e, 15, 0⟩
abbrev TTD_TOUTo_CFG (o : Nat) : Reg := ⟨0x303100 + 0x40 * o, 0x0⟩
abbrev TTD_TOUTo_CFG_MODE (o : Nat) : Fld := ⟨TTD_TOUTo_CFG o, 31, 30⟩
abbrev TTD_TOUTo_CFG_POL (o : Nat) : Fld := ⟨TTD_TOUTo_CFG o, 29, 29⟩
abbrev TTD_TOUTo_CFG_CAL (o : Nat) : Fld := ⟨TTD_TOUTo_CFG o, 15, 0⟩
abbrev TTD_TOUTo_START_HI (o : Nat) : Reg := ⟨0x303104 + 0x40 * o, 0x0⟩
abbrev TTD_TOUTo_START_HI_VALUE (o : Nat) : Fld := ⟨TTD_TOUTo_START_HI o, 15, 0⟩
abbrev TTD_TOUTo_START_LO (o : Nat) : Reg := ⟨0x303108 + 0x40 * o, 0x0⟩
abbrev TTD_TOUTo_START_NS (o : Nat) : Reg := ⟨0x30310c + 0x40 * o, 0x0⟩
abbrev TTD_TOUTo_START_NS_NS (o : Nat) : Fld := ⟨TTD_TOUTo_START_NS o, 29, 0⟩
abbrev TTD_TOUTo_PERIOD_NS (o : Nat) : Reg := ⟨0x303110 + 0x40 * o, 0x3b9aca00⟩
abbrev TTD_TOUTo_PERIOD_NS_NS (o : Nat) : Fld := ⟨TTD_TOUTo_PERIOD_NS o, 29, 0⟩
abbrev TTD_TOUTo_PERIOD_FRAC (o : Nat) : Reg := ⟨0x303114 + 0x40 * o, 0x0⟩
abbrev TTD_TOUTo_PERIOD_FRAC_FRAC (o : Nat) : Fld := ⟨TTD_TOUTo_PERIOD_FRAC o, 15, 0⟩
abbrev TTD_TOUTo_WIDTH (o : Nat) : Reg := ⟨0x303118 + 0x40 * o, 0x5f5e100⟩
abbrev TTD_TOUTo_WIDTH_WIDTH (o : Nat) : Fld := ⟨TTD_TOUTo_WIDTH o, 29, 0⟩
abbrev TTD_TOUTo_STATUS (o : Nat) : Reg := ⟨0x30311c + 0x40 * o, 0x0⟩
abbrev TTD_TOUTo_STATUS_RUNNING (o : Nat) : Fld := ⟨TTD_TOUTo_STATUS o, 31, 31⟩
abbrev TTD_TOUTo_STATUS_MISSED (o : Nat) : Fld := ⟨TTD_TOUTo_STATUS o, 30, 30⟩
abbrev TTD_TOUTo_STATUS_LEVEL (o : Nat) : Fld := ⟨TTD_TOUTo_STATUS o, 29, 29⟩
abbrev TTD_NBk_CFG (k : Nat) : Reg := ⟨0x303400 + 0x10 * k, 0x0⟩
abbrev TTD_NBk_CFG_EN (k : Nat) : Fld := ⟨TTD_NBk_CFG k, 31, 31⟩
abbrev TTD_NBk_CFG_NB_CAL (k : Nat) : Fld := ⟨TTD_NBk_CFG k, 15, 0⟩
abbrev TTD_NBk_OFS (k : Nat) : Reg := ⟨0x303404 + 0x10 * k, 0x0⟩
abbrev TTD_NBk_STATUS (k : Nat) : Reg := ⟨0x303408 + 0x10 * k, 0x0⟩
abbrev TTD_NBk_STATUS_ALARM (k : Nat) : Fld := ⟨TTD_NBk_STATUS k, 31, 31⟩
abbrev TTD_NBk_STATUS_VALID (k : Nat) : Fld := ⟨TTD_NBk_STATUS k, 30, 30⟩
abbrev TTD_NBk_STATUS_COUNT (k : Nat) : Fld := ⟨TTD_NBk_STATUS k, 15, 0⟩

/-! ### LLx (spec/05 R103) -/
abbrev LLx_CTL (n : Nat) : Reg := ⟨0x400040 + 0x100000 * n, 0x0⟩
abbrev LLx_CTL_TX_EN (n : Nat) : Fld := ⟨LLx_CTL n, 11, 8⟩
abbrev LLx_CTL_LASER_OFF (n : Nat) : Fld := ⟨LLx_CTL n, 7, 7⟩
abbrev LLx_CTL_TEST_MODE (n : Nat) : Fld := ⟨LLx_CTL n, 2, 0⟩
abbrev LLx_STATUS (n : Nat) : Reg := ⟨0x400044 + 0x100000 * n, 0x1⟩
abbrev LLx_STATUS_LASER_OK (n : Nat) : Fld := ⟨LLx_STATUS n, 23, 20⟩
abbrev LLx_STATUS_BEN (n : Nat) : Fld := ⟨LLx_STATUS n, 19, 16⟩
abbrev LLx_STATUS_CAUSE (n : Nat) : Fld := ⟨LLx_STATUS n, 14, 8⟩
abbrev LLx_STATUS_PRES (n : Nat) : Fld := ⟨LLx_STATUS n, 4, 4⟩
abbrev LLx_STATUS_MOD_STATE (n : Nat) : Fld := ⟨LLx_STATUS n, 3, 0⟩
abbrev LLx_BEN_CFG (n : Nat) : Reg := ⟨0x400048 + 0x100000 * n, 0x80210⟩
abbrev LLx_BEN_CFG_BEN_MIN_OFF (n : Nat) : Fld := ⟨LLx_BEN_CFG n, 22, 16⟩
abbrev LLx_BEN_CFG_BEN_TAIL (n : Nat) : Fld := ⟨LLx_BEN_CFG n, 13, 8⟩
abbrev LLx_BEN_CFG_BEN_LEAD (n : Nat) : Fld := ⟨LLx_BEN_CFG n, 4, 0⟩
abbrev LLx_MOD_CFG (n : Nat) : Reg := ⟨0x40004c + 0x100000 * n, 0x501407d0⟩
abbrev LLx_MOD_CFG_BUS_FAST (n : Nat) : Fld := ⟨LLx_MOD_CFG n, 31, 31⟩
abbrev LLx_MOD_CFG_MOD_ADDR (n : Nat) : Fld := ⟨LLx_MOD_CFG n, 30, 24⟩
abbrev LLx_MOD_CFG_RST_MS (n : Nat) : Fld := ⟨LLx_MOD_CFG n, 23, 17⟩
abbrev LLx_MOD_CFG_INIT_MS (n : Nat) : Fld := ⟨LLx_MOD_CFG n, 13, 0⟩
abbrev LLx_MOD_ID_CFG (n : Nat) : Reg := ⟨0x400050 + 0x100000 * n, 0x1000000a⟩
abbrev LLx_MOD_ID_CFG_DECLARED (n : Nat) : Fld := ⟨LLx_MOD_ID_CFG n, 31, 31⟩
abbrev LLx_MOD_ID_CFG_CHECK (n : Nat) : Fld := ⟨LLx_MOD_ID_CFG n, 30, 30⟩
abbrev LLx_MOD_ID_CFG_ID_LEN (n : Nat) : Fld := ⟨LLx_MOD_ID_CFG n, 29, 24⟩
abbrev LLx_MOD_ID_CFG_ID_PAGE (n : Nat) : Fld := ⟨LLx_MOD_ID_CFG n, 23, 16⟩
abbrev LLx_MOD_ID_CFG_ID_OFS (n : Nat) : Fld := ⟨LLx_MOD_ID_CFG n, 15, 8⟩
abbrev LLx_MOD_ID_CFG_RECHECK_S (n : Nat) : Fld := ⟨LLx_MOD_ID_CFG n, 5, 0⟩
abbrev LLx_MOD_ID_EXP (n j : Nat) : Reg := ⟨0x400060 + 0x100000 * n + 0x4 * j, 0x0⟩
abbrev LLx_MOD_ID_MASK (n j : Nat) : Reg := ⟨0x400080 + 0x100000 * n + 0x4 * j, 0xffffffff⟩
abbrev LLx_MOD_ID_READ (n j : Nat) : Reg := ⟨0x4000a0 + 0x100000 * n + 0x4 * j, 0x0⟩
abbrev LLx_MOD_XFER (n : Nat) : Reg := ⟨0x4000c0 + 0x100000 * n, 0x0⟩
abbrev LLx_MOD_XFER_GO (n : Nat) : Fld := ⟨LLx_MOD_XFER n, 31, 31⟩
abbrev LLx_MOD_XFER_DIR (n : Nat) : Fld := ⟨LLx_MOD_XFER n, 30, 30⟩
abbrev LLx_MOD_XFER_DONE (n : Nat) : Fld := ⟨LLx_MOD_XFER n, 29, 29⟩
abbrev LLx_MOD_XFER_ERR (n : Nat) : Fld := ⟨LLx_MOD_XFER n, 28, 28⟩
abbrev LLx_MOD_XFER_PAGE (n : Nat) : Fld := ⟨LLx_MOD_XFER n, 23, 16⟩
abbrev LLx_MOD_XFER_OFS (n : Nat) : Fld := ⟨LLx_MOD_XFER n, 15, 8⟩
abbrev LLx_MOD_XFER_DATA (n : Nat) : Fld := ⟨LLx_MOD_XFER n, 7, 0⟩
abbrev LLx_BEN_SUPPRESSED (n : Nat) : Reg := ⟨0x4000d0 + 0x100000 * n, 0x0⟩
abbrev LLx_BEN_MERGED (n : Nat) : Reg := ⟨0x4000d4 + 0x100000 * n, 0x0⟩
abbrev LLx_MOD_BUS_ERR (n : Nat) : Reg := ⟨0x4000d8 + 0x100000 * n, 0x0⟩
abbrev LLx_MOD_MISMATCH (n : Nat) : Reg := ⟨0x4000dc + 0x100000 * n, 0x0⟩
abbrev LLx_EVT (n : Nat) : Reg := ⟨0x4000e0 + 0x100000 * n, 0x0⟩
abbrev LLx_EVT_EVENT (n : Nat) : Fld := ⟨LLx_EVT n, 5, 0⟩
abbrev LLx_EVT_EN (n : Nat) : Reg := ⟨0x4000e4 + 0x100000 * n, 0x3f⟩
abbrev LLx_EVT_EN_EVENT (n : Nat) : Fld := ⟨LLx_EVT_EN n, 5, 0⟩
/-- Log 29: DESIGN CHOICE, safe. -/
abbrev LLx_RXr_CFG (n r : Nat) : Reg := ⟨0x401000 + 0x100000 * n + 0x100 * r, 0x2⟩
abbrev LLx_RXr_CFG_ADAPT_FREEZE (n r : Nat) : Fld := ⟨LLx_RXr_CFG n r, 3, 3⟩
abbrev LLx_RXr_CFG_INV (n r : Nat) : Fld := ⟨LLx_RXr_CFG n r, 2, 2⟩
abbrev LLx_RXr_CFG_GRAY (n r : Nat) : Fld := ⟨LLx_RXr_CFG n r, 1, 1⟩
abbrev LLx_RXr_CFG_PRECODE (n r : Nat) : Fld := ⟨LLx_RXr_CFG n r, 0, 0⟩
abbrev LLx_TXt_CFG (n t : Nat) : Reg := ⟨0x401800 + 0x100000 * n + 0x100 * t, 0xc8020002⟩
abbrev LLx_TXt_CFG_AMP (n t : Nat) : Fld := ⟨LLx_TXt_CFG n t, 31, 24⟩
abbrev LLx_TXt_CFG_PRE (n t : Nat) : Fld := ⟨LLx_TXt_CFG n t, 23, 20⟩
abbrev LLx_TXt_CFG_POST (n t : Nat) : Fld := ⟨LLx_TXt_CFG n t, 19, 15⟩
abbrev LLx_TXt_CFG_INV (n t : Nat) : Fld := ⟨LLx_TXt_CFG n t, 2, 2⟩
abbrev LLx_TXt_CFG_GRAY (n t : Nat) : Fld := ⟨LLx_TXt_CFG n t, 1, 1⟩
abbrev LLx_TXt_CFG_PRECODE (n t : Nat) : Fld := ⟨LLx_TXt_CFG n t, 0, 0⟩
abbrev LLx_RXr_STATUS (n r : Nat) : Reg := ⟨0x401004 + 0x100000 * n + 0x100 * r, 0x0⟩
abbrev LLx_RXr_STATUS_PRBS_LOCK (n r : Nat) : Fld := ⟨LLx_RXr_STATUS n r, 3, 3⟩
abbrev LLx_RXr_STATUS_BURST_CDR (n r : Nat) : Fld := ⟨LLx_RXr_STATUS n r, 2, 2⟩
abbrev LLx_RXr_STATUS_CDR_LOCK (n r : Nat) : Fld := ⟨LLx_RXr_STATUS n r, 1, 1⟩
abbrev LLx_RXr_STATUS_SIGNAL (n r : Nat) : Fld := ⟨LLx_RXr_STATUS n r, 0, 0⟩
abbrev LLx_RXr_CHK (n r : Nat) : Reg := ⟨0x401008 + 0x100000 * n + 0x100 * r, 0x10000⟩
abbrev LLx_RXr_CHK_CLR (n r : Nat) : Fld := ⟨LLx_RXr_CHK n r, 31, 31⟩
abbrev LLx_RXr_CHK_INJ_SINGLE (n r : Nat) : Fld := ⟨LLx_RXr_CHK n r, 30, 30⟩
abbrev LLx_RXr_CHK_INJ_BURST (n r : Nat) : Fld := ⟨LLx_RXr_CHK n r, 29, 29⟩
abbrev LLx_RXr_CHK_BURST_LEN (n r : Nat) : Fld := ⟨LLx_RXr_CHK n r, 26, 16⟩
abbrev LLx_RXr_CHK_EN (n r : Nat) : Fld := ⟨LLx_RXr_CHK n r, 3, 3⟩
abbrev LLx_RXr_CHK_PATTERN (n r : Nat) : Fld := ⟨LLx_RXr_CHK n r, 2, 0⟩
abbrev LLx_TXt_GEN (n t : Nat) : Reg := ⟨0x401804 + 0x100000 * n + 0x100 * t, 0x10000⟩
abbrev LLx_TXt_GEN_INJ_SINGLE (n t : Nat) : Fld := ⟨LLx_TXt_GEN n t, 30, 30⟩
abbrev LLx_TXt_GEN_INJ_BURST (n t : Nat) : Fld := ⟨LLx_TXt_GEN n t, 29, 29⟩
abbrev LLx_TXt_GEN_BURST_LEN (n t : Nat) : Fld := ⟨LLx_TXt_GEN n t, 26, 16⟩
abbrev LLx_TXt_GEN_EN (n t : Nat) : Fld := ⟨LLx_TXt_GEN n t, 3, 3⟩
abbrev LLx_TXt_GEN_PATTERN (n t : Nat) : Fld := ⟨LLx_TXt_GEN n t, 2, 0⟩
abbrev LLx_RXr_PAT_LO (n r : Nat) : Reg := ⟨0x40100c + 0x100000 * n + 0x100 * r, 0x0⟩
abbrev LLx_RXr_PAT_HI (n r : Nat) : Reg := ⟨0x401010 + 0x100000 * n + 0x100 * r, 0x0⟩
abbrev LLx_TXt_PAT_LO (n t : Nat) : Reg := ⟨0x401808 + 0x100000 * n + 0x100 * t, 0x0⟩
abbrev LLx_TXt_PAT_HI (n t : Nat) : Reg := ⟨0x40180c + 0x100000 * n + 0x100 * t, 0x0⟩
abbrev LLx_RXr_ERR_LO (n r : Nat) : Reg := ⟨0x401014 + 0x100000 * n + 0x100 * r, 0x0⟩
abbrev LLx_RXr_ERR_HI (n r : Nat) : Reg := ⟨0x401018 + 0x100000 * n + 0x100 * r, 0x0⟩
abbrev LLx_RXr_BITS_LO (n r : Nat) : Reg := ⟨0x40101c + 0x100000 * n + 0x100 * r, 0x0⟩
abbrev LLx_RXr_BITS_HI (n r : Nat) : Reg := ⟨0x401020 + 0x100000 * n + 0x100 * r, 0x0⟩
abbrev LLx_TXt_BURSTS (n t : Nat) : Reg := ⟨0x401810 + 0x100000 * n + 0x100 * t, 0x0⟩
/-! ### DSF (spec/06 R125) -/
abbrev DSF_CFG (n : Nat) : Reg := ⟨0x440040 + 0x100000 * n, 0x80003503⟩
abbrev DSF_CFG_GROUP_WIDTH (n : Nat) : Fld := ⟨DSF_CFG n, 31, 31⟩
abbrev DSF_CFG_GROUP_CHECK (n : Nat) : Fld := ⟨DSF_CFG n, 30, 30⟩
abbrev DSF_CFG_GROUP_ID (n : Nat) : Fld := ⟨DSF_CFG n, 23, 16⟩
abbrev DSF_CFG_FAW_TOL (n : Nat) : Fld := ⟨DSF_CFG n, 14, 12⟩
abbrev DSF_CFG_LOSS_M (n : Nat) : Fld := ⟨DSF_CFG n, 11, 8⟩
abbrev DSF_CFG_CONF_N (n : Nat) : Fld := ⟨DSF_CFG n, 2, 0⟩
abbrev DSF_FILT_CFG (n : Nat) : Reg := ⟨0x440044 + 0x100000 * n, 0x30800⟩
abbrev DSF_FILT_CFG_SR_PERSIST (n : Nat) : Fld := ⟨DSF_FILT_CFG n, 18, 16⟩
abbrev DSF_FILT_CFG_SKEW_WIN (n : Nat) : Fld := ⟨DSF_FILT_CFG n, 11, 8⟩
abbrev DSF_SD_CFG (n : Nat) : Reg := ⟨0x440048 + 0x100000 * n, 0xa⟩
abbrev DSF_SD_CFG_SD_THR (n : Nat) : Fld := ⟨DSF_SD_CFG n, 15, 0⟩
abbrev DSF_STATUS (n : Nat) : Reg := ⟨0x440050 + 0x100000 * n, 0x22⟩
abbrev DSF_STATUS_MODE (n : Nat) : Fld := ⟨DSF_STATUS n, 10, 9⟩
abbrev DSF_STATUS_BONDED (n : Nat) : Fld := ⟨DSF_STATUS n, 8, 8⟩
abbrev DSF_STATUS_RDI (n : Nat) : Fld := ⟨DSF_STATUS n, 5, 5⟩
abbrev DSF_STATUS_SD (n : Nat) : Fld := ⟨DSF_STATUS n, 4, 4⟩
abbrev DSF_STATUS_LINE_AIS (n : Nat) : Fld := ⟨DSF_STATUS n, 3, 3⟩
abbrev DSF_STATUS_LINE_LOF (n : Nat) : Fld := ⟨DSF_STATUS n, 2, 2⟩
abbrev DSF_STATUS_LINE_LOS (n : Nat) : Fld := ⟨DSF_STATUS n, 1, 1⟩
abbrev DSF_CH_STATE (n : Nat) : Reg := ⟨0x440054 + 0x100000 * n, 0x0⟩
abbrev DSF_CH_STATE_STATE (n : Nat) : Fld := ⟨DSF_CH_STATE n, 15, 0⟩
abbrev DSF_CH_DEFECT (n : Nat) : Reg := ⟨0x440058 + 0x100000 * n, 0xffff⟩
abbrev DSF_CH_DEFECT_AIS (n : Nat) : Fld := ⟨DSF_CH_DEFECT n, 23, 16⟩
abbrev DSF_CH_DEFECT_LOF (n : Nat) : Fld := ⟨DSF_CH_DEFECT n, 15, 8⟩
abbrev DSF_CH_DEFECT_LOS (n : Nat) : Fld := ⟨DSF_CH_DEFECT n, 7, 0⟩
abbrev DSF_FRAME_LO (n : Nat) : Reg := ⟨0x440060 + 0x100000 * n, 0x0⟩
abbrev DSF_FRAME_HI (n : Nat) : Reg := ⟨0x440064 + 0x100000 * n, 0x0⟩
abbrev DSF_FRAME_HI_VALUE (n : Nat) : Fld := ⟨DSF_FRAME_HI n, 15, 0⟩
abbrev DSF_SR (n : Nat) : Reg := ⟨0x440068 + 0x100000 * n, 0x0⟩
abbrev DSF_SR_ACC_SR1 (n : Nat) : Fld := ⟨DSF_SR n, 31, 24⟩
abbrev DSF_SR_ACC_SR2 (n : Nat) : Fld := ⟨DSF_SR n, 23, 16⟩
abbrev DSF_SR_RAW_SR1 (n : Nat) : Fld := ⟨DSF_SR n, 15, 8⟩
abbrev DSF_SR_RAW_SR2 (n : Nat) : Fld := ⟨DSF_SR n, 7, 0⟩
abbrev DSF_EVT (n : Nat) : Reg := ⟨0x440070 + 0x100000 * n, 0x0⟩
abbrev DSF_EVT_EVENT (n : Nat) : Fld := ⟨DSF_EVT n, 7, 0⟩
abbrev DSF_EVT_EN (n : Nat) : Reg := ⟨0x440074 + 0x100000 * n, 0x7f⟩
abbrev DSF_EVT_EN_EVENT (n : Nat) : Fld := ⟨DSF_EVT_EN n, 7, 0⟩
abbrev DSF_COUNTER_JUMP (n : Nat) : Reg := ⟨0x440080 + 0x100000 * n, 0x0⟩
abbrev DSF_GRANT_COUNT_BAD (n : Nat) : Reg := ⟨0x440084 + 0x100000 * n, 0x0⟩
abbrev DSF_SR_DISAGREE (n : Nat) : Reg := ⟨0x440088 + 0x100000 * n, 0x0⟩
abbrev DSF_BOND_LOSS (n : Nat) : Reg := ⟨0x44008c + 0x100000 * n, 0x0⟩
abbrev DSF_HUNT_OVF (n : Nat) : Reg := ⟨0x440090 + 0x100000 * n, 0x0⟩
abbrev DSF_CH_MISMATCH (n : Nat) : Reg := ⟨0x440094 + 0x100000 * n, 0x0⟩
abbrev DSF_SEC_TIME_HI (n : Nat) : Reg := ⟨0x4400a0 + 0x100000 * n, 0x0⟩
abbrev DSF_SEC_TIME_HI_VALUE (n : Nat) : Fld := ⟨DSF_SEC_TIME_HI n, 15, 0⟩
abbrev DSF_SEC_TIME_LO (n : Nat) : Reg := ⟨0x4400a4 + 0x100000 * n, 0x0⟩
abbrev DSF_SEC_INFO (n : Nat) : Reg := ⟨0x4400a8 + 0x100000 * n, 0x0⟩
abbrev DSF_SEC_INFO_STEPPED (n : Nat) : Fld := ⟨DSF_SEC_INFO n, 31, 31⟩
abbrev DSF_SEC_INFO_MODE (n : Nat) : Fld := ⟨DSF_SEC_INFO n, 1, 0⟩
abbrev DSF_SEC_LU_HDR_ERR (n : Nat) : Reg := ⟨0x4400ac + 0x100000 * n, 0x0⟩
abbrev DSF_CHc_STATUS (n c : Nat) : Reg := ⟨0x441000 + 0x100000 * n + 0x100 * c, 0x0⟩
abbrev DSF_CHc_STATUS_SKEW_NS (n c : Nat) : Fld := ⟨DSF_CHc_STATUS n c, 31, 16⟩
abbrev DSF_CHc_STATUS_LOSS_RUN (n c : Nat) : Fld := ⟨DSF_CHc_STATUS n c, 11, 8⟩
abbrev DSF_CHc_STATUS_CAND (n c : Nat) : Fld := ⟨DSF_CHc_STATUS n c, 7, 4⟩
abbrev DSF_CHc_STATUS_CONF_CNT (n c : Nat) : Fld := ⟨DSF_CHc_STATUS n c, 3, 1⟩
abbrev DSF_CHc_SEC_FAW_ERR (n c : Nat) : Reg := ⟨0x441004 + 0x100000 * n + 0x100 * c, 0x0⟩
abbrev DSF_CHc_SEC_FSB_CRC (n c : Nat) : Reg := ⟨0x441008 + 0x100000 * n + 0x100 * c, 0x0⟩
abbrev DSF_CHc_SEC_FEC_CORR (n c : Nat) : Reg := ⟨0x44100c + 0x100000 * n + 0x100 * c, 0x0⟩
abbrev DSF_CHc_SEC_FEC_UNCORR (n c : Nat) : Reg := ⟨0x441010 + 0x100000 * n + 0x100 * c, 0x0⟩
abbrev DSF_CHc_SEC_GRANT_CRC (n c : Nat) : Reg := ⟨0x441014 + 0x100000 * n + 0x100 * c, 0x0⟩
/-! ### UPB (spec/08 R168, R169) -/
abbrev UPB_PROFILE0 (n : Nat) : Reg := ⟨0x480040 + 0x100000 * n, 0x0⟩
abbrev UPB_PROFILE0_LEN (n : Nat) : Fld := ⟨UPB_PROFILE0 n, 1, 0⟩
abbrev UPB_PROFILE1 (n : Nat) : Reg := ⟨0x480044 + 0x100000 * n, 0x1⟩
abbrev UPB_PROFILE1_LEN (n : Nat) : Fld := ⟨UPB_PROFILE1 n, 1, 0⟩
abbrev UPB_PROFILE2 (n : Nat) : Reg := ⟨0x480048 + 0x100000 * n, 0x2⟩
abbrev UPB_PROFILE2_LEN (n : Nat) : Fld := ⟨UPB_PROFILE2 n, 1, 0⟩
abbrev UPB_PRE_LO (n p : Nat) : Reg := ⟨0x480050 + 0x100000 * n + 0x8 * p, 0x33333333⟩
abbrev UPB_PRE_HI (n p : Nat) : Reg := ⟨0x480054 + 0x100000 * n + 0x8 * p, 0x33333333⟩
abbrev UPB_STATUS (n : Nat) : Reg := ⟨0x480070 + 0x100000 * n, 0x0⟩
abbrev UPB_STATUS_MAP_ACCEPTED (n : Nat) : Fld := ⟨UPB_STATUS n, 24, 16⟩
abbrev UPB_STATUS_IN_FLIGHT (n : Nat) : Fld := ⟨UPB_STATUS n, 9, 0⟩
abbrev UPB_GRANT_ACC (n : Nat) : Reg := ⟨0x480080 + 0x100000 * n, 0x0⟩
abbrev UPB_BAD_STATE (n : Nat) : Reg := ⟨0x480084 + 0x100000 * n, 0x0⟩
abbrev UPB_BAD_PROFILE (n : Nat) : Reg := ⟨0x480088 + 0x100000 * n, 0x0⟩
abbrev UPB_BAD_RANGE (n : Nat) : Reg := ⟨0x48008c + 0x100000 * n, 0x0⟩
abbrev UPB_BAD_OVERLAP (n : Nat) : Reg := ⟨0x480090 + 0x100000 * n, 0x0⟩
abbrev UPB_BURSTS (n : Nat) : Reg := ⟨0x480094 + 0x100000 * n, 0x0⟩
abbrev UPB_SUPPRESSED (n : Nat) : Reg := ⟨0x480098 + 0x100000 * n, 0x0⟩
abbrev UPB_REPORTS (n : Nat) : Reg := ⟨0x48009c + 0x100000 * n, 0x0⟩
abbrev UPB_FILLER_BLK (n : Nat) : Reg := ⟨0x4800a0 + 0x100000 * n, 0x0⟩
abbrev UPB_SHORT_BLK (n : Nat) : Reg := ⟨0x4800a4 + 0x100000 * n, 0x0⟩
abbrev UPB_FORCE_WAKE (n : Nat) : Reg := ⟨0x4800a8 + 0x100000 * n, 0x0⟩
abbrev UPB_EVT (n : Nat) : Reg := ⟨0x4800c0 + 0x100000 * n, 0x0⟩
abbrev UPB_EVT_EVENT (n : Nat) : Fld := ⟨UPB_EVT n, 2, 0⟩
abbrev UPB_EVT_EN (n : Nat) : Reg := ⟨0x4800c4 + 0x100000 * n, 0x7⟩
abbrev UPB_EVT_EN_EVENT (n : Nat) : Fld := ⟨UPB_EVT_EN n, 2, 0⟩

/-! ### RNG (spec/07 R147) -/
abbrev RNG_SN_LO : Reg := ⟨0x600040, 0x0⟩
abbrev RNG_SN_HI : Reg := ⟨0x600044, 0x0⟩
abbrev RNG_Lx_CTL (x : Nat) : Reg := ⟨0x601000 + 0x400 * x, 0x0⟩
abbrev RNG_Lx_CTL_REG_EN (x : Nat) : Fld := ⟨RNG_Lx_CTL x, 0, 0⟩
abbrev RNG_Lx_STATUS (x : Nat) : Reg := ⟨0x601004 + 0x400 * x, 0xfff000⟩
abbrev RNG_Lx_STATUS_SLEEP (x : Nat) : Fld := ⟨RNG_Lx_STATUS x, 30, 30⟩
abbrev RNG_Lx_STATUS_STOP_LATCH (x : Nat) : Fld := ⟨RNG_Lx_STATUS x, 29, 29⟩
abbrev RNG_Lx_STATUS_CAL_OK (x : Nat) : Fld := ⟨RNG_Lx_STATUS x, 28, 28⟩
abbrev RNG_Lx_STATUS_RANGED (x : Nat) : Fld := ⟨RNG_Lx_STATUS x, 27, 24⟩
abbrev RNG_Lx_STATUS_TERMINAL_ID (x : Nat) : Fld := ⟨RNG_Lx_STATUS x, 23, 12⟩
abbrev RNG_Lx_STATUS_PREV_STATE (x : Nat) : Fld := ⟨RNG_Lx_STATUS x, 6, 4⟩
abbrev RNG_Lx_STATUS_STATE (x : Nat) : Fld := ⟨RNG_Lx_STATUS x, 2, 0⟩
abbrev RNG_Lx_TIMERS (x : Nat) : Reg := ⟨0x601008 + 0x400 * x, 0xa0a0020⟩
abbrev RNG_Lx_TIMERS_ANN_TO (x : Nat) : Fld := ⟨RNG_Lx_TIMERS x, 29, 24⟩
abbrev RNG_Lx_TIMERS_RNG_TO (x : Nat) : Fld := ⟨RNG_Lx_TIMERS x, 21, 16⟩
abbrev RNG_Lx_TIMERS_HOLD_TO (x : Nat) : Fld := ⟨RNG_Lx_TIMERS x, 7, 0⟩
abbrev RNG_Lx_SLEEP (x : Nat) : Reg := ⟨0x60100c + 0x400 * x, 0x0⟩
abbrev RNG_Lx_SLEEP_LEASE (x : Nat) : Fld := ⟨RNG_Lx_SLEEP x, 31, 16⟩
abbrev RNG_Lx_SLEEP_LEFT (x : Nat) : Fld := ⟨RNG_Lx_SLEEP x, 15, 0⟩
abbrev RNG_Lx_WAVE_D (x : Nat) : Reg := ⟨0x601010 + 0x400 * x, 0x1ffb8⟩
abbrev RNG_Lx_WAVE_D_LAMBDA (x : Nat) : Fld := ⟨RNG_Lx_WAVE_D x, 17, 0⟩
abbrev RNG_Lx_WAVE_Uu (x u : Nat) : Reg := ⟨0x601014 + 0x400 * x + 0x4 * u, 0x1ffb8⟩
abbrev RNG_Lx_WAVE_Uu_LAMBDA (x u : Nat) : Fld := ⟨RNG_Lx_WAVE_Uu x u, 17, 0⟩
abbrev RNG_Lx_WAVE_REF (x : Nat) : Reg := ⟨0x601024 + 0x400 * x, 0x1ffb8⟩
abbrev RNG_Lx_WAVE_REF_LAMBDA (x : Nat) : Fld := ⟨RNG_Lx_WAVE_REF x, 17, 0⟩
abbrev RNG_Lx_DISP (x : Nat) : Reg := ⟨0x601028 + 0x400 * x, 0x3980000⟩
abbrev RNG_Lx_DISP_S (x : Nat) : Fld := ⟨RNG_Lx_DISP x, 31, 16⟩
abbrev RNG_Lx_DISP_D0 (x : Nat) : Fld := ⟨RNG_Lx_DISP x, 15, 0⟩
abbrev RNG_Lx_ASYM_TOL (x : Nat) : Reg := ⟨0x60102c + 0x400 * x, 0x1f4⟩
abbrev RNG_Lx_ASYM_TOL_ASYM_TOL (x : Nat) : Fld := ⟨RNG_Lx_ASYM_TOL x, 13, 0⟩
abbrev RNG_Lx_UCALu (x u : Nat) : Reg := ⟨0x601030 + 0x400 * x + 0x4 * u, 0x0⟩
abbrev RNG_Lx_UCALu_UCAL (x u : Nat) : Fld := ⟨RNG_Lx_UCALu x u, 15, 0⟩
abbrev RNG_Lx_EQDu (x u : Nat) : Reg := ⟨0x601040 + 0x400 * x + 0x4 * u, 0x0⟩
abbrev RNG_Lx_EQDu_VALID (x u : Nat) : Fld := ⟨RNG_Lx_EQDu x u, 31, 31⟩
abbrev RNG_Lx_EQDu_EQD (x u : Nat) : Fld := ⟨RNG_Lx_EQDu x u, 23, 0⟩
abbrev RNG_Lx_RTDu (x u : Nat) : Reg := ⟨0x601050 + 0x400 * x + 0x4 * u, 0x0⟩
abbrev RNG_Lx_LEN (x : Nat) : Reg := ⟨0x601060 + 0x400 * x, 0x0⟩
abbrev RNG_Lx_LEN_VALID (x : Nat) : Fld := ⟨RNG_Lx_LEN x, 31, 31⟩
abbrev RNG_Lx_LEN_HE_CH (x : Nat) : Fld := ⟨RNG_Lx_LEN x, 30, 29⟩
abbrev RNG_Lx_LEN_HE_ONLY (x : Nat) : Fld := ⟨RNG_Lx_LEN x, 28, 28⟩
abbrev RNG_Lx_LEN_LEN (x : Nat) : Fld := ⟨RNG_Lx_LEN x, 18, 0⟩
abbrev RNG_Lx_ASYMu (x u : Nat) : Reg := ⟨0x601070 + 0x400 * x + 0x4 * u, 0x0⟩
abbrev RNG_Lx_ASYM_HE (x : Nat) : Reg := ⟨0x601080 + 0x400 * x, 0x0⟩
abbrev RNG_Lx_SN_RESP (x : Nat) : Reg := ⟨0x601090 + 0x400 * x, 0x0⟩
abbrev RNG_Lx_RNG_RESP (x : Nat) : Reg := ⟨0x601094 + 0x400 * x, 0x0⟩
abbrev RNG_Lx_NO_MARKER (x : Nat) : Reg := ⟨0x601098 + 0x400 * x, 0x0⟩
abbrev RNG_Lx_GRANT_DROP (x : Nat) : Reg := ⟨0x60109c + 0x400 * x, 0x0⟩
abbrev RNG_Lx_OVERLAP (x : Nat) : Reg := ⟨0x6010a0 + 0x400 * x, 0x0⟩
abbrev RNG_Lx_LMM_BAD (x : Nat) : Reg := ⟨0x6010a4 + 0x400 * x, 0x0⟩
abbrev RNG_Lx_LMM_DROP (x : Nat) : Reg := ⟨0x6010a8 + 0x400 * x, 0x0⟩
abbrev RNG_Lx_ASYM_MISMATCH (x : Nat) : Reg := ⟨0x6010ac + 0x400 * x, 0x0⟩
abbrev RNG_Lx_TIMEOUT (x : Nat) : Reg := ⟨0x6010b0 + 0x400 * x, 0x0⟩
abbrev RNG_Lx_EVT (x : Nat) : Reg := ⟨0x6010c0 + 0x400 * x, 0x0⟩
abbrev RNG_Lx_EVT_EVENT (x : Nat) : Fld := ⟨RNG_Lx_EVT x, 5, 0⟩
abbrev RNG_Lx_EVT_EN (x : Nat) : Reg := ⟨0x6010c4 + 0x400 * x, 0x3f⟩
abbrev RNG_Lx_EVT_EN_EVENT (x : Nat) : Fld := ⟨RNG_Lx_EVT_EN x, 5, 0⟩
/-! ### SDL (spec/11 R209) -/
abbrev SDL_CFG : Reg := ⟨0x640040, 0xe000012c⟩
abbrev SDL_CFG_REVERTIVE : Fld := ⟨SDL_CFG, 31, 31⟩
abbrev SDL_CFG_KEY_MIRROR : Fld := ⟨SDL_CFG, 30, 30⟩
abbrev SDL_CFG_BMAP_MIRROR : Fld := ⟨SDL_CFG, 29, 29⟩
abbrev SDL_CFG_WTR_S : Fld := ⟨SDL_CFG, 11, 0⟩
abbrev SDL_KA_CFG : Reg := ⟨0x640044, 0x80⟩
abbrev SDL_KA_CFG_KA_TO : Fld := ⟨SDL_KA_CFG, 12, 0⟩
abbrev SDL_CMD : Reg := ⟨0x640048, 0x0⟩
abbrev SDL_CMD_TARGET : Fld := ⟨SDL_CMD, 4, 4⟩
abbrev SDL_CMD_CMD : Fld := ⟨SDL_CMD, 2, 0⟩
abbrev SDL_STATUS : Reg := ⟨0x64004c, 0x0⟩
abbrev SDL_STATUS_SWITCHING : Fld := ⟨SDL_STATUS, 31, 31⟩
abbrev SDL_STATUS_WTR_RUN : Fld := ⟨SDL_STATUS, 30, 30⟩
abbrev SDL_STATUS_HAS_ACTIVE : Fld := ⟨SDL_STATUS, 29, 29⟩
abbrev SDL_STATUS_ACTIVE : Fld := ⟨SDL_STATUS, 28, 28⟩
abbrev SDL_STATUS_LOCK_B : Fld := ⟨SDL_STATUS, 27, 27⟩
abbrev SDL_STATUS_LOCK_A : Fld := ⟨SDL_STATUS, 26, 26⟩
abbrev SDL_STATUS_HOST_REQ : Fld := ⟨SDL_STATUS, 25, 23⟩
abbrev SDL_STATUS_HOST_TARGET : Fld := ⟨SDL_STATUS, 22, 22⟩
abbrev SDL_STATUS_REQ : Fld := ⟨SDL_STATUS, 19, 16⟩
abbrev SDL_STATUS_REQ_LINE : Fld := ⟨SDL_STATUS, 15, 15⟩
abbrev SDL_STATUS_REQ_SRC : Fld := ⟨SDL_STATUS, 14, 12⟩
abbrev SDL_STATUS_WTR_LEFT : Fld := ⟨SDL_STATUS, 11, 0⟩
abbrev SDL_LAST_SW : Reg := ⟨0x640050, 0x0⟩
abbrev SDL_LAST_SW_REQ : Fld := ⟨SDL_LAST_SW, 31, 28⟩
abbrev SDL_LAST_SW_SRC : Fld := ⟨SDL_LAST_SW, 27, 25⟩
abbrev SDL_LAST_SW_TO_LINE : Fld := ⟨SDL_LAST_SW, 24, 24⟩
abbrev SDL_LAST_SW_SEC : Reg := ⟨0x640054, 0x0⟩
abbrev SDL_LAST_SW_NS : Reg := ⟨0x640058, 0x0⟩
abbrev SDL_LAST_SW_NS_VALUE : Fld := ⟨SDL_LAST_SW_NS, 29, 0⟩
abbrev SDL_LAST_GAP : Reg := ⟨0x64005c, 0x0⟩
abbrev SDL_LAST_GAP_UP_US : Fld := ⟨SDL_LAST_GAP, 31, 16⟩
abbrev SDL_LAST_GAP_DN_US : Fld := ⟨SDL_LAST_GAP, 15, 0⟩
abbrev SDL_SWITCHES : Reg := ⟨0x640080, 0x0⟩
abbrev SDL_REVERTS : Reg := ⟨0x640084, 0x0⟩
abbrev SDL_BLOCKED : Reg := ⟨0x640088, 0x0⟩
abbrev SDL_CMD_REFUSED : Reg := ⟨0x64008c, 0x0⟩
abbrev SDL_SR_BAD : Reg := ⟨0x640090, 0x0⟩
abbrev SDL_WITHDRAWN : Reg := ⟨0x640094, 0x0⟩
abbrev SDL_UNPAIRED : Reg := ⟨0x640098, 0x0⟩
abbrev SDL_EVT : Reg := ⟨0x6400c0, 0x0⟩
abbrev SDL_EVT_EVENT : Fld := ⟨SDL_EVT, 6, 0⟩
abbrev SDL_EVT_EN : Reg := ⟨0x6400c4, 0x7f⟩
abbrev SDL_EVT_EN_EVENT : Fld := ⟨SDL_EVT_EN, 6, 0⟩
abbrev SDL_Lx_HEALTH (x : Nat) : Reg := ⟨0x641000 + 0x100 * x, 0x80000000⟩
abbrev SDL_Lx_HEALTH_GRADE (x : Nat) : Fld := ⟨SDL_Lx_HEALTH x, 31, 30⟩
abbrev SDL_Lx_HEALTH_SF (x : Nat) : Fld := ⟨SDL_Lx_HEALTH x, 29, 29⟩
abbrev SDL_Lx_HEALTH_SD (x : Nat) : Fld := ⟨SDL_Lx_HEALTH x, 28, 28⟩
abbrev SDL_Lx_HEALTH_MIRROR_OK (x : Nat) : Fld := ⟨SDL_Lx_HEALTH x, 27, 27⟩
abbrev SDL_Lx_HEALTH_KA_LATE (x : Nat) : Fld := ⟨SDL_Lx_HEALTH x, 26, 26⟩
abbrev SDL_Lx_HEALTH_BST_FAIL (x : Nat) : Fld := ⟨SDL_Lx_HEALTH x, 25, 25⟩
abbrev SDL_Lx_HEALTH_SUPPR (x : Nat) : Fld := ⟨SDL_Lx_HEALTH x, 24, 24⟩
abbrev SDL_Lx_HEALTH_SF_CAUSE (x : Nat) : Fld := ⟨SDL_Lx_HEALTH x, 22, 16⟩
abbrev SDL_Lx_HEALTH_KA_GRANTS (x : Nat) : Fld := ⟨SDL_Lx_HEALTH x, 15, 8⟩
abbrev SDL_Lx_HEALTH_UNCORR (x : Nat) : Fld := ⟨SDL_Lx_HEALTH x, 7, 0⟩
abbrev SDL_Lx_HEALTH_SEC (x : Nat) : Reg := ⟨0x641004 + 0x100 * x, 0x0⟩
abbrev SDL_PAIRi (i : Nat) : Reg := ⟨0x642000 + 0x4 * i, 0x0⟩
abbrev SDL_PAIRi_VALID (i : Nat) : Fld := ⟨SDL_PAIRi i, 31, 31⟩
abbrev SDL_PAIRi_PARTNER (i : Nat) : Fld := ⟨SDL_PAIRi i, 8, 0⟩
/-! ### ENC (spec/09 R179) -/
abbrev ENC_CFG : Reg := ⟨0x680040, 0x3fef⟩
abbrev ENC_CFG_FRAG_SIZE : Fld := ⟨ENC_CFG, 13, 0⟩
abbrev ENC_REASM_CFG : Reg := ⟨0x680044, 0x1f4⟩
abbrev ENC_REASM_CFG_REASM_WIN : Fld := ⟨ENC_REASM_CFG, 10, 0⟩
abbrev ENC_BMAP_SEL : Reg := ⟨0x680048, 0x0⟩
abbrev ENC_BMAP_SEL_SEL_B : Fld := ⟨ENC_BMAP_SEL, 1, 1⟩
abbrev ENC_BMAP_SEL_SEL_A : Fld := ⟨ENC_BMAP_SEL, 0, 0⟩
abbrev ENC_BMAP_PORT : Reg := ⟨0x68004c, 0x0⟩
abbrev ENC_BMAP_PORT_LINE : Fld := ⟨ENC_BMAP_PORT, 0, 0⟩
abbrev ENC_BMAPk (k : Nat) : Reg := ⟨0x6a0000 + 0x4 * k, 0x0⟩
abbrev ENC_EVT : Reg := ⟨0x680060, 0x0⟩
abbrev ENC_EVT_EVENT : Fld := ⟨ENC_EVT, 2, 0⟩
abbrev ENC_EVT_EN : Reg := ⟨0x680064, 0x7⟩
abbrev ENC_EVT_EN_EVENT : Fld := ⟨ENC_EVT_EN, 2, 0⟩
abbrev ENC_Lx_STATUS (x : Nat) : Reg := ⟨0x681000 + 0x100 * x, 0x3⟩
abbrev ENC_Lx_STATUS_CONTEXTS (x : Nat) : Fld := ⟨ENC_Lx_STATUS x, 14, 8⟩
abbrev ENC_Lx_STATUS_DELIN (x : Nat) : Fld := ⟨ENC_Lx_STATUS x, 1, 0⟩
abbrev ENC_Lx_LU_ACCEPTED (x : Nat) : Reg := ⟨0x681010 + 0x100 * x, 0x0⟩
abbrev ENC_Lx_LU_FOREIGN (x : Nat) : Reg := ⟨0x681014 + 0x100 * x, 0x0⟩
abbrev ENC_Lx_LU_HDR_ERR (x : Nat) : Reg := ⟨0x681018 + 0x100 * x, 0x0⟩
abbrev ENC_Lx_LU_DELIN_LOSS (x : Nat) : Reg := ⟨0x68101c + 0x100 * x, 0x0⟩
abbrev ENC_Lx_LU_BAD_RULE (x : Nat) : Reg := ⟨0x681020 + 0x100 * x, 0x0⟩
abbrev ENC_Lx_LU_FEC_DISCARD (x : Nat) : Reg := ⟨0x681024 + 0x100 * x, 0x0⟩
abbrev ENC_Lx_LU_RUNT (x : Nat) : Reg := ⟨0x681028 + 0x100 * x, 0x0⟩
abbrev ENC_Lx_LU_LONG (x : Nat) : Reg := ⟨0x68102c + 0x100 * x, 0x0⟩
abbrev ENC_Lx_LU_FCS (x : Nat) : Reg := ⟨0x681030 + 0x100 * x, 0x0⟩
abbrev ENC_Lx_REASM_OVF (x : Nat) : Reg := ⟨0x681034 + 0x100 * x, 0x0⟩
abbrev ENC_Lx_REASM_TIMEOUT (x : Nat) : Reg := ⟨0x681038 + 0x100 * x, 0x0⟩
abbrev ENC_Lx_LU_TX (x : Nat) : Reg := ⟨0x68103c + 0x100 * x, 0x0⟩
abbrev ENC_Lx_LU_FRAG (x : Nat) : Reg := ⟨0x681040 + 0x100 * x, 0x0⟩
/-! ### NRW (spec/08 R168, R169) -/
abbrev NRW_CFG : Reg := ⟨0x700040, 0x2800f0⟩
abbrev NRW_CFG_HORIZON : Fld := ⟨NRW_CFG, 22, 16⟩
abbrev NRW_CFG_REFILL_MAX : Fld := ⟨NRW_CFG, 8, 0⟩
abbrev NRW_STATUS : Reg := ⟨0x700044, 0x2000⟩
abbrev NRW_STATUS_SPARE_IN_USE : Fld := ⟨NRW_STATUS, 31, 31⟩
abbrev NRW_STATUS_CAPACITY : Fld := ⟨NRW_STATUS, 13, 0⟩
abbrev NRW_OCC : Reg := ⟨0x700048, 0x0⟩
abbrev NRW_OCC_STAGED : Fld := ⟨NRW_OCC, 29, 16⟩
abbrev NRW_OCC_RESERVED : Fld := ⟨NRW_OCC, 13, 0⟩
abbrev NRW_FLOOR_WAIT : Reg := ⟨0x700050, 0x0⟩
abbrev NRW_CARRY_DISCARD : Reg := ⟨0x700054, 0x0⟩
abbrev NRW_ECC_CORR : Reg := ⟨0x700058, 0x0⟩
abbrev NRW_ECC_UNCORR : Reg := ⟨0x70005c, 0x0⟩
abbrev NRW_EVT : Reg := ⟨0x700060, 0x0⟩
abbrev NRW_EVT_EVENT : Fld := ⟨NRW_EVT, 2, 0⟩
abbrev NRW_EVT_EN : Reg := ⟨0x700064, 0x7⟩
abbrev NRW_EVT_EN_EVENT : Fld := ⟨NRW_EVT_EN, 2, 0⟩
abbrev NRW_ALLOCi_CFG (i : Nat) : Reg := ⟨0x701000 + 0x10 * i, 0x0⟩
abbrev NRW_ALLOCi_CFG_VALID (i : Nat) : Fld := ⟨NRW_ALLOCi_CFG i, 31, 31⟩
abbrev NRW_ALLOCi_CFG_LINE (i : Nat) : Fld := ⟨NRW_ALLOCi_CFG i, 30, 30⟩
abbrev NRW_ALLOCi_CFG_ALLOC_ID (i : Nat) : Fld := ⟨NRW_ALLOCi_CFG i, 11, 0⟩
abbrev NRW_ALLOCi_FLOOR (i : Nat) : Reg := ⟨0x701004 + 0x10 * i, 0x10⟩
abbrev NRW_ALLOCi_FLOOR_FLOOR (i : Nat) : Fld := ⟨NRW_ALLOCi_FLOOR i, 10, 0⟩
abbrev NRW_ALLOCi_OCC (i : Nat) : Reg := ⟨0x701008 + 0x10 * i, 0x0⟩
abbrev NRW_ALLOCi_OCC_CARRY (i : Nat) : Fld := ⟨NRW_ALLOCi_OCC i, 29, 16⟩
abbrev NRW_ALLOCi_OCC_STAGED (i : Nat) : Fld := ⟨NRW_ALLOCi_OCC i, 13, 0⟩
abbrev NRW_ALLOCi_SHORT (i : Nat) : Reg := ⟨0x70100c + 0x10 * i, 0x0⟩
/-! ### CIP (spec/10 R197) -/
abbrev CIP_CTL : Reg := ⟨0x800040, 0x4000100⟩
abbrev CIP_CTL_RETIRE_THR : Fld := ⟨CIP_CTL, 31, 24⟩
abbrev CIP_CTL_RX_WIN : Fld := ⟨CIP_CTL, 12, 0⟩
abbrev CIP_CTR_LIMIT_LO : Reg := ⟨0x800044, 0x0⟩
abbrev CIP_CTR_LIMIT_HI : Reg := ⟨0x800048, 0x100⟩
abbrev CIP_STATUS : Reg := ⟨0x80004c, 0x10⟩
abbrev CIP_STATUS_BOOT_SET_B : Fld := ⟨CIP_STATUS, 19, 19⟩
abbrev CIP_STATUS_BOOT_SET_A : Fld := ⟨CIP_STATUS, 18, 18⟩
abbrev CIP_STATUS_SPARE_B_USED : Fld := ⟨CIP_STATUS, 17, 17⟩
abbrev CIP_STATUS_SPARE_A_USED : Fld := ⟨CIP_STATUS, 16, 16⟩
abbrev CIP_STATUS_CAPACITY_LOW : Fld := ⟨CIP_STATUS, 5, 5⟩
abbrev CIP_STATUS_ENGINES_OK : Fld := ⟨CIP_STATUS, 4, 0⟩
abbrev CIP_LA_MGMT : Reg := ⟨0x800050, 0x0⟩
abbrev CIP_LA_MGMT_PAGE : Fld := ⟨CIP_LA_MGMT, 2, 0⟩
abbrev CIP_LB_MGMT : Reg := ⟨0x800054, 0x0⟩
abbrev CIP_LB_MGMT_PAGE : Fld := ⟨CIP_LB_MGMT, 2, 0⟩
abbrev CIP_LA_BOOTj (j : Nat) : Reg := ⟨0x800100 + 0x4 * j, 0x0⟩
abbrev CIP_LB_BOOTj (j : Nat) : Reg := ⟨0x800120 + 0x4 * j, 0x0⟩
abbrev CIP_EVT : Reg := ⟨0x800060, 0x0⟩
abbrev CIP_EVT_EVENT : Fld := ⟨CIP_EVT, 5, 0⟩
abbrev CIP_EVT_EN : Reg := ⟨0x800064, 0x3f⟩
abbrev CIP_EVT_EN_EVENT : Fld := ⟨CIP_EVT_EN, 5, 0⟩
abbrev CIP_AUTH_FAIL : Reg := ⟨0x800080, 0x0⟩
abbrev CIP_RX_SKIPPED : Reg := ⟨0x800084, 0x0⟩
abbrev CIP_EXH_DISCARD : Reg := ⟨0x800088, 0x0⟩
abbrev CIP_NO_KEY : Reg := ⟨0x80008c, 0x0⟩
abbrev CIP_PAGE_BAD : Reg := ⟨0x800090, 0x0⟩
abbrev CIP_SHORT : Reg := ⟨0x800094, 0x0⟩
abbrev CIP_MISMATCH : Reg := ⟨0x800098, 0x0⟩
abbrev CIP_OVERRUN : Reg := ⟨0x80009c, 0x0⟩
abbrev CIP_KEY_REFUSED : Reg := ⟨0x8000a0, 0x0⟩
abbrev CIP_UNITS_RX : Reg := ⟨0x8000a4, 0x0⟩
abbrev CIP_UNITS_TX : Reg := ⟨0x8000a8, 0x0⟩
abbrev CIP_ENGe_STATUS (e : Nat) : Reg := ⟨0x800200 + 0x4 * e, 0x0⟩
abbrev CIP_ENGe_STATUS_STATE (e : Nat) : Fld := ⟨CIP_ENGe_STATUS e, 31, 30⟩
abbrev CIP_ENGe_STATUS_VERDICT (e : Nat) : Fld := ⟨CIP_ENGe_STATUS e, 29, 27⟩
abbrev CIP_ENGe_STATUS_FAULTS (e : Nat) : Fld := ⟨CIP_ENGe_STATUS e, 7, 0⟩
abbrev CIP_ENGt_STATUS (t : Nat) : Reg := ⟨0x800240 + 0x4 * t, 0x40000000⟩
abbrev CIP_ENGt_STATUS_STATE (t : Nat) : Fld := ⟨CIP_ENGt_STATUS t, 31, 30⟩
abbrev CIP_ENGt_STATUS_VERDICT (t : Nat) : Fld := ⟨CIP_ENGt_STATUS t, 29, 27⟩
abbrev CIP_ENGt_STATUS_FAULTS (t : Nat) : Fld := ⟨CIP_ENGt_STATUS t, 7, 0⟩
abbrev CIP_PAGEp_TXSEL (p : Nat) : Reg := ⟨0x801000 + 0x20 * p, 0x0⟩
abbrev CIP_PAGEp_TXSEL_MODE (p : Nat) : Fld := ⟨CIP_PAGEp_TXSEL p, 2, 2⟩
abbrev CIP_PAGEp_TXSEL_TX_SLOT (p : Nat) : Fld := ⟨CIP_PAGEp_TXSEL p, 1, 0⟩
abbrev CIP_PAGEp_SALT (p : Nat) : Reg := ⟨0x801004 + 0x20 * p, 0x0⟩
abbrev CIP_PAGEp_STATUS (p : Nat) : Reg := ⟨0x801008 + 0x20 * p, 0x0⟩
abbrev CIP_PAGEp_STATUS_OWNER (p : Nat) : Fld := ⟨CIP_PAGEp_STATUS p, 31, 24⟩
abbrev CIP_PAGEp_STATUS_DESYNC (p : Nat) : Fld := ⟨CIP_PAGEp_STATUS p, 11, 8⟩
abbrev CIP_PAGEp_STATUS_EXHAUSTED (p : Nat) : Fld := ⟨CIP_PAGEp_STATUS p, 7, 4⟩
abbrev CIP_PAGEp_STATUS_LOADED (p : Nat) : Fld := ⟨CIP_PAGEp_STATUS p, 3, 0⟩
abbrev CIP_PAGEp_AUTH_FAIL (p : Nat) : Reg := ⟨0x80100c + 0x20 * p, 0x0⟩
abbrev CIP_KEYj (k j : Nat) : Reg := ⟨0x804000 + 0x40 * k + 0x4 * j, 0x0⟩
abbrev CIP_SLOT_CTL (k : Nat) : Reg := ⟨0x804020 + 0x40 * k, 0x0⟩
abbrev CIP_SLOT_CTL_CLEAR (k : Nat) : Fld := ⟨CIP_SLOT_CTL k, 1, 1⟩
abbrev CIP_SLOT_CTL_LOAD (k : Nat) : Fld := ⟨CIP_SLOT_CTL k, 0, 0⟩
abbrev CIP_TX_CTR_LO (k : Nat) : Reg := ⟨0x804024 + 0x40 * k, 0x0⟩
abbrev CIP_TX_CTR_HI (k : Nat) : Reg := ⟨0x804028 + 0x40 * k, 0x0⟩
abbrev CIP_RX_CTR_LO (k : Nat) : Reg := ⟨0x80402c + 0x40 * k, 0x0⟩
abbrev CIP_RX_CTR_HI (k : Nat) : Reg := ⟨0x804030 + 0x40 * k, 0x0⟩

/-! ### SLN (spec/12 R224) -/
abbrev SLN_REFS_STATUS (n : Nat) : Reg := ⟨0x900040 + 0x10000 * n, 0x0⟩
abbrev SLN_REFS_STATUS_REFS_OK (n : Nat) : Fld := ⟨SLN_REFS_STATUS n, 3, 0⟩
abbrev SLN_QUAD_STATE (n : Nat) : Reg := ⟨0x900044 + 0x10000 * n, 0x0⟩
abbrev SLN_QUAD_STATE_STATE (n : Nat) : Fld := ⟨SLN_QUAD_STATE n, 15, 0⟩
abbrev SLN_EVT (n : Nat) : Reg := ⟨0x900050 + 0x10000 * n, 0x0⟩
abbrev SLN_EVT_EVENT (n : Nat) : Fld := ⟨SLN_EVT n, 9, 0⟩
abbrev SLN_EVT_EN (n : Nat) : Reg := ⟨0x900054 + 0x10000 * n, 0x3ff⟩
abbrev SLN_EVT_EN_EVENT (n : Nat) : Fld := ⟨SLN_EVT_EN n, 9, 0⟩
abbrev SLN_LANEl_CFG (n l : Nat) : Reg := ⟨0x901000 + 0x10000 * n + 0x100 * l, 0x6f000000⟩
abbrev SLN_LANEl_CFG_ENABLE (n l : Nat) : Fld := ⟨SLN_LANEl_CFG n l, 31, 31⟩
abbrev SLN_LANEl_CFG_AN_EN (n l : Nat) : Fld := ⟨SLN_LANEl_CFG n l, 30, 30⟩
abbrev SLN_LANEl_CFG_TRAIN_EN (n l : Nat) : Fld := ⟨SLN_LANEl_CFG n l, 29, 29⟩
abbrev SLN_LANEl_CFG_MEDIA (n l : Nat) : Fld := ⟨SLN_LANEl_CFG n l, 28, 28⟩
abbrev SLN_LANEl_CFG_SPEED (n l : Nat) : Fld := ⟨SLN_LANEl_CFG n l, 27, 26⟩
abbrev SLN_LANEl_CFG_FEC (n l : Nat) : Fld := ⟨SLN_LANEl_CFG n l, 25, 24⟩
abbrev SLN_LANEl_CFG_REF_SEL (n l : Nat) : Fld := ⟨SLN_LANEl_CFG n l, 23, 22⟩
abbrev SLN_LANEl_CFG_PRES_SRC (n l : Nat) : Fld := ⟨SLN_LANEl_CFG n l, 21, 20⟩
abbrev SLN_LANEl_CFG_HOST_PRES (n l : Nat) : Fld := ⟨SLN_LANEl_CFG n l, 19, 19⟩
abbrev SLN_LANEl_ADV (n l : Nat) : Reg := ⟨0x901004 + 0x10000 * n + 0x100 * l, 0x15f⟩
abbrev SLN_LANEl_ADV_PAUSE (n l : Nat) : Fld := ⟨SLN_LANEl_ADV n l, 9, 8⟩
abbrev SLN_LANEl_ADV_FEC_BITS (n l : Nat) : Fld := ⟨SLN_LANEl_ADV n l, 7, 4⟩
abbrev SLN_LANEl_ADV_ABIL (n l : Nat) : Fld := ⟨SLN_LANEl_ADV n l, 3, 0⟩
abbrev SLN_LANEl_CTL (n l : Nat) : Reg := ⟨0x901008 + 0x10000 * n + 0x100 * l, 0x0⟩
abbrev SLN_LANEl_CTL_RESTART (n l : Nat) : Fld := ⟨SLN_LANEl_CTL n l, 31, 31⟩
abbrev SLN_LANEl_CTL_TEST_MODE (n l : Nat) : Fld := ⟨SLN_LANEl_CTL n l, 2, 0⟩
abbrev SLN_LANEl_TIMERS (n l : Nat) : Reg := ⟨0x90100c + 0x10000 * n + 0x100 * l, 0x1e32a1f4⟩
abbrev SLN_LANEl_TIMERS_AN_TO (n l : Nat) : Fld := ⟨SLN_LANEl_TIMERS n l, 31, 24⟩
abbrev SLN_LANEl_TIMERS_TRAIN_TO (n l : Nat) : Fld := ⟨SLN_LANEl_TIMERS n l, 23, 16⟩
abbrev SLN_LANEl_TIMERS_CAP_MS (n l : Nat) : Fld := ⟨SLN_LANEl_TIMERS n l, 15, 12⟩
abbrev SLN_LANEl_TIMERS_LINK_TO (n l : Nat) : Fld := ⟨SLN_LANEl_TIMERS n l, 11, 0⟩
abbrev SLN_LANEl_STATUS (n l : Nat) : Reg := ⟨0x901010 + 0x10000 * n + 0x100 * l, 0x0⟩
abbrev SLN_LANEl_STATUS_STATE (n l : Nat) : Fld := ⟨SLN_LANEl_STATUS n l, 31, 28⟩
abbrev SLN_LANEl_STATUS_PREV_STATE (n l : Nat) : Fld := ⟨SLN_LANEl_STATUS n l, 27, 24⟩
abbrev SLN_LANEl_STATUS_RES_SPEED (n l : Nat) : Fld := ⟨SLN_LANEl_STATUS n l, 23, 22⟩
abbrev SLN_LANEl_STATUS_RES_FEC (n l : Nat) : Fld := ⟨SLN_LANEl_STATUS n l, 21, 20⟩
abbrev SLN_LANEl_STATUS_PAUSE_RX (n l : Nat) : Fld := ⟨SLN_LANEl_STATUS n l, 19, 19⟩
abbrev SLN_LANEl_STATUS_PAUSE_TX (n l : Nat) : Fld := ⟨SLN_LANEl_STATUS n l, 18, 18⟩
abbrev SLN_LANEl_STATUS_PRESENT (n l : Nat) : Fld := ⟨SLN_LANEl_STATUS n l, 17, 17⟩
abbrev SLN_LANEl_STATUS_SIGNAL (n l : Nat) : Fld := ⟨SLN_LANEl_STATUS n l, 16, 16⟩
abbrev SLN_LANEl_STATUS_CDR_LOCK (n l : Nat) : Fld := ⟨SLN_LANEl_STATUS n l, 15, 15⟩
abbrev SLN_LANEl_STATUS_AM_LOCK (n l : Nat) : Fld := ⟨SLN_LANEl_STATUS n l, 14, 14⟩
abbrev SLN_LANEl_STATUS_BLOCK_LOCK (n l : Nat) : Fld := ⟨SLN_LANEl_STATUS n l, 13, 13⟩
abbrev SLN_LANEl_STATUS_HI_BER (n l : Nat) : Fld := ⟨SLN_LANEl_STATUS n l, 12, 12⟩
abbrev SLN_LANEl_STATUS_LF (n l : Nat) : Fld := ⟨SLN_LANEl_STATUS n l, 11, 11⟩
abbrev SLN_LANEl_STATUS_RF (n l : Nat) : Fld := ⟨SLN_LANEl_STATUS n l, 10, 10⟩
abbrev SLN_LANEl_STATUS_PRBS_LOCK (n l : Nat) : Fld := ⟨SLN_LANEl_STATUS n l, 9, 9⟩
abbrev SLN_LANEl_STATUS_REF_OK (n l : Nat) : Fld := ⟨SLN_LANEl_STATUS n l, 8, 8⟩
abbrev SLN_LANEl_STATUS_LAST_FAIL (n l : Nat) : Fld := ⟨SLN_LANEl_STATUS n l, 3, 0⟩
abbrev SLN_LANEl_TX (n l : Nat) : Reg := ⟨0x901014 + 0x10000 * n + 0x100 * l, 0xc8020002⟩
abbrev SLN_LANEl_TX_AMP (n l : Nat) : Fld := ⟨SLN_LANEl_TX n l, 31, 24⟩
abbrev SLN_LANEl_TX_PRE (n l : Nat) : Fld := ⟨SLN_LANEl_TX n l, 23, 20⟩
abbrev SLN_LANEl_TX_POST (n l : Nat) : Fld := ⟨SLN_LANEl_TX n l, 19, 15⟩
abbrev SLN_LANEl_TX_INV (n l : Nat) : Fld := ⟨SLN_LANEl_TX n l, 2, 2⟩
abbrev SLN_LANEl_TX_GRAY (n l : Nat) : Fld := ⟨SLN_LANEl_TX n l, 1, 1⟩
abbrev SLN_LANEl_TX_PRECODE (n l : Nat) : Fld := ⟨SLN_LANEl_TX n l, 0, 0⟩
abbrev SLN_LANEl_RX (n l : Nat) : Reg := ⟨0x901018 + 0x10000 * n + 0x100 * l, 0x2⟩
abbrev SLN_LANEl_RX_ADAPT_FREEZE (n l : Nat) : Fld := ⟨SLN_LANEl_RX n l, 3, 3⟩
abbrev SLN_LANEl_RX_INV (n l : Nat) : Fld := ⟨SLN_LANEl_RX n l, 2, 2⟩
abbrev SLN_LANEl_RX_GRAY (n l : Nat) : Fld := ⟨SLN_LANEl_RX n l, 1, 1⟩
abbrev SLN_LANEl_RX_PRECODE (n l : Nat) : Fld := ⟨SLN_LANEl_RX n l, 0, 0⟩
abbrev SLN_LANEl_TAPS (n l : Nat) : Reg := ⟨0x90101c + 0x10000 * n + 0x100 * l, 0xc80004⟩
abbrev SLN_LANEl_TAPS_AMP (n l : Nat) : Fld := ⟨SLN_LANEl_TAPS n l, 23, 16⟩
abbrev SLN_LANEl_TAPS_PRE (n l : Nat) : Fld := ⟨SLN_LANEl_TAPS n l, 11, 8⟩
abbrev SLN_LANEl_TAPS_POST (n l : Nat) : Fld := ⟨SLN_LANEl_TAPS n l, 4, 0⟩
abbrev SLN_LANEl_GEN (n l : Nat) : Reg := ⟨0x901020 + 0x10000 * n + 0x100 * l, 0x10000⟩
abbrev SLN_LANEl_GEN_INJ_SINGLE (n l : Nat) : Fld := ⟨SLN_LANEl_GEN n l, 30, 30⟩
abbrev SLN_LANEl_GEN_INJ_BURST (n l : Nat) : Fld := ⟨SLN_LANEl_GEN n l, 29, 29⟩
abbrev SLN_LANEl_GEN_BURST_LEN (n l : Nat) : Fld := ⟨SLN_LANEl_GEN n l, 26, 16⟩
abbrev SLN_LANEl_GEN_EN (n l : Nat) : Fld := ⟨SLN_LANEl_GEN n l, 3, 3⟩
abbrev SLN_LANEl_GEN_PATTERN (n l : Nat) : Fld := ⟨SLN_LANEl_GEN n l, 2, 0⟩
abbrev SLN_LANEl_CHK (n l : Nat) : Reg := ⟨0x901024 + 0x10000 * n + 0x100 * l, 0x10000⟩
abbrev SLN_LANEl_CHK_CLR (n l : Nat) : Fld := ⟨SLN_LANEl_CHK n l, 31, 31⟩
abbrev SLN_LANEl_CHK_INJ_SINGLE (n l : Nat) : Fld := ⟨SLN_LANEl_CHK n l, 30, 30⟩
abbrev SLN_LANEl_CHK_INJ_BURST (n l : Nat) : Fld := ⟨SLN_LANEl_CHK n l, 29, 29⟩
abbrev SLN_LANEl_CHK_BURST_LEN (n l : Nat) : Fld := ⟨SLN_LANEl_CHK n l, 26, 16⟩
abbrev SLN_LANEl_CHK_EN (n l : Nat) : Fld := ⟨SLN_LANEl_CHK n l, 3, 3⟩
abbrev SLN_LANEl_CHK_PATTERN (n l : Nat) : Fld := ⟨SLN_LANEl_CHK n l, 2, 0⟩
abbrev SLN_LANEl_PAT_LO (n l : Nat) : Reg := ⟨0x901028 + 0x10000 * n + 0x100 * l, 0x0⟩
abbrev SLN_LANEl_PAT_HI (n l : Nat) : Reg := ⟨0x90102c + 0x10000 * n + 0x100 * l, 0x0⟩
abbrev SLN_LANEl_ERR_LO (n l : Nat) : Reg := ⟨0x901030 + 0x10000 * n + 0x100 * l, 0x0⟩
abbrev SLN_LANEl_ERR_HI (n l : Nat) : Reg := ⟨0x901034 + 0x10000 * n + 0x100 * l, 0x0⟩
abbrev SLN_LANEl_BITS_LO (n l : Nat) : Reg := ⟨0x901038 + 0x10000 * n + 0x100 * l, 0x0⟩
abbrev SLN_LANEl_BITS_HI (n l : Nat) : Reg := ⟨0x90103c + 0x10000 * n + 0x100 * l, 0x0⟩
abbrev SLN_LANEl_LINK_DOWN (n l : Nat) : Reg := ⟨0x901040 + 0x10000 * n + 0x100 * l, 0x0⟩
abbrev SLN_LANEl_AN_FAIL (n l : Nat) : Reg := ⟨0x901044 + 0x10000 * n + 0x100 * l, 0x0⟩
abbrev SLN_LANEl_TRAIN_FAIL (n l : Nat) : Reg := ⟨0x901048 + 0x10000 * n + 0x100 * l, 0x0⟩
abbrev SLN_LANEl_LOCK_LOSS (n l : Nat) : Reg := ⟨0x90104c + 0x10000 * n + 0x100 * l, 0x0⟩
abbrev SLN_LANEl_RM_INS (n l : Nat) : Reg := ⟨0x901050 + 0x10000 * n + 0x100 * l, 0x0⟩
abbrev SLN_LANEl_RM_DEL (n l : Nat) : Reg := ⟨0x901054 + 0x10000 * n + 0x100 * l, 0x0⟩
abbrev SLN_LANEl_RM_OVF (n l : Nat) : Reg := ⟨0x901058 + 0x10000 * n + 0x100 * l, 0x0⟩
abbrev SLN_LANEl_FEC_CORR_CW (n l : Nat) : Reg := ⟨0x90105c + 0x10000 * n + 0x100 * l, 0x0⟩
abbrev SLN_LANEl_FEC_UNCORR_CW (n l : Nat) : Reg := ⟨0x901060 + 0x10000 * n + 0x100 * l, 0x0⟩
abbrev SLN_LANEl_FEC_SYM (n l : Nat) : Reg := ⟨0x901064 + 0x10000 * n + 0x100 * l, 0x0⟩
/-! ### MAC (spec/13 R234) -/
abbrev MAC_EVT (n : Nat) : Reg := ⟨0xa00050 + 0x10000 * n, 0x0⟩
abbrev MAC_EVT_EVENT (n : Nat) : Fld := ⟨MAC_EVT n, 3, 0⟩
abbrev MAC_EVT_EN (n : Nat) : Reg := ⟨0xa00054 + 0x10000 * n, 0xf⟩
abbrev MAC_EVT_EN_EVENT (n : Nat) : Fld := ⟨MAC_EVT_EN n, 3, 0⟩
abbrev MAC_WAKE_CFG (n : Nat) : Reg := ⟨0xa00100 + 0x10000 * n, 0x80000002⟩
abbrev MAC_WAKE_CFG_EN (n : Nat) : Fld := ⟨MAC_WAKE_CFG n, 31, 31⟩
abbrev MAC_WAKE_CFG_WAKE_N (n : Nat) : Fld := ⟨MAC_WAKE_CFG n, 2, 0⟩
abbrev MAC_WAKE_COUNT (n : Nat) : Reg := ⟨0xa00104 + 0x10000 * n, 0x0⟩
abbrev MAC_LANEl_CFG (n l : Nat) : Reg := ⟨0xa01000 + 0x10000 * n + 0x100 * l, 0x1105ee⟩
abbrev MAC_LANEl_CFG_WD_EN (n l : Nat) : Fld := ⟨MAC_LANEl_CFG n l, 20, 20⟩
abbrev MAC_LANEl_CFG_FC_MODE (n l : Nat) : Fld := ⟨MAC_LANEl_CFG n l, 17, 16⟩
abbrev MAC_LANEl_CFG_MAX_LEN (n l : Nat) : Fld := ⟨MAC_LANEl_CFG n l, 13, 0⟩
abbrev MAC_LANEl_ADDR_LO (n l : Nat) : Reg := ⟨0xa01004 + 0x10000 * n + 0x100 * l, 0x0⟩
abbrev MAC_LANEl_ADDR_HI (n l : Nat) : Reg := ⟨0xa01008 + 0x10000 * n + 0x100 * l, 0x0⟩
abbrev MAC_LANEl_ADDR_HI_ADDR (n l : Nat) : Fld := ⟨MAC_LANEl_ADDR_HI n l, 15, 0⟩
abbrev MAC_LANEl_FC_TX (n l : Nat) : Reg := ⟨0xa0100c + 0x10000 * n + 0x100 * l, 0xffff7fff⟩
abbrev MAC_LANEl_FC_TX_QUANTA (n l : Nat) : Fld := ⟨MAC_LANEl_FC_TX n l, 31, 16⟩
abbrev MAC_LANEl_FC_TX_REFRESH (n l : Nat) : Fld := ⟨MAC_LANEl_FC_TX n l, 15, 0⟩
abbrev MAC_LANEl_STATUS (n l : Nat) : Reg := ⟨0xa01010 + 0x10000 * n + 0x100 * l, 0x20000000⟩
abbrev MAC_LANEl_STATUS_WD_IGNORE (n l : Nat) : Fld := ⟨MAC_LANEl_STATUS n l, 31, 31⟩
abbrev MAC_LANEl_STATUS_PAUSED (n l : Nat) : Fld := ⟨MAC_LANEl_STATUS n l, 30, 30⟩
abbrev MAC_LANEl_STATUS_TX_HOLD (n l : Nat) : Fld := ⟨MAC_LANEl_STATUS n l, 29, 29⟩
abbrev MAC_LANEl_STATUS_PFC_PAUSED (n l : Nat) : Fld := ⟨MAC_LANEl_STATUS n l, 15, 8⟩
abbrev MAC_LANEl_STATUS_PFC_IGNORE (n l : Nat) : Fld := ⟨MAC_LANEl_STATUS n l, 7, 0⟩
abbrev MAC_LANEl_RX_FRAMES_LO (n l : Nat) : Reg := ⟨0xa01020 + 0x10000 * n + 0x100 * l, 0x0⟩
abbrev MAC_LANEl_RX_FRAMES_HI (n l : Nat) : Reg := ⟨0xa01024 + 0x10000 * n + 0x100 * l, 0x0⟩
abbrev MAC_LANEl_RX_BYTES_LO (n l : Nat) : Reg := ⟨0xa01028 + 0x10000 * n + 0x100 * l, 0x0⟩
abbrev MAC_LANEl_RX_BYTES_HI (n l : Nat) : Reg := ⟨0xa0102c + 0x10000 * n + 0x100 * l, 0x0⟩
abbrev MAC_LANEl_TX_FRAMES_LO (n l : Nat) : Reg := ⟨0xa01030 + 0x10000 * n + 0x100 * l, 0x0⟩
abbrev MAC_LANEl_TX_FRAMES_HI (n l : Nat) : Reg := ⟨0xa01034 + 0x10000 * n + 0x100 * l, 0x0⟩
abbrev MAC_LANEl_TX_BYTES_LO (n l : Nat) : Reg := ⟨0xa01038 + 0x10000 * n + 0x100 * l, 0x0⟩
abbrev MAC_LANEl_TX_BYTES_HI (n l : Nat) : Reg := ⟨0xa0103c + 0x10000 * n + 0x100 * l, 0x0⟩
abbrev MAC_LANEl_RX_RUNT (n l : Nat) : Reg := ⟨0xa01040 + 0x10000 * n + 0x100 * l, 0x0⟩
abbrev MAC_LANEl_RX_LONG (n l : Nat) : Reg := ⟨0xa01044 + 0x10000 * n + 0x100 * l, 0x0⟩
abbrev MAC_LANEl_RX_FCS (n l : Nat) : Reg := ⟨0xa01048 + 0x10000 * n + 0x100 * l, 0x0⟩
abbrev MAC_LANEl_RX_ERR (n l : Nat) : Reg := ⟨0xa0104c + 0x10000 * n + 0x100 * l, 0x0⟩
abbrev MAC_LANEl_RX_CTRL_BAD (n l : Nat) : Reg := ⟨0xa01050 + 0x10000 * n + 0x100 * l, 0x0⟩
abbrev MAC_LANEl_RX_PAUSE (n l : Nat) : Reg := ⟨0xa01054 + 0x10000 * n + 0x100 * l, 0x0⟩
abbrev MAC_LANEl_RX_PFC (n l : Nat) : Reg := ⟨0xa01058 + 0x10000 * n + 0x100 * l, 0x0⟩
abbrev MAC_LANEl_TX_LONG (n l : Nat) : Reg := ⟨0xa0105c + 0x10000 * n + 0x100 * l, 0x0⟩
abbrev MAC_LANEl_TX_PAD (n l : Nat) : Reg := ⟨0xa01060 + 0x10000 * n + 0x100 * l, 0x0⟩
abbrev MAC_LANEl_TX_ABORT (n l : Nat) : Reg := ⟨0xa01064 + 0x10000 * n + 0x100 * l, 0x0⟩
abbrev MAC_LANEl_TX_PAUSE (n l : Nat) : Reg := ⟨0xa01068 + 0x10000 * n + 0x100 * l, 0x0⟩
abbrev MAC_LANEl_TX_PFC (n l : Nat) : Reg := ⟨0xa0106c + 0x10000 * n + 0x100 * l, 0x0⟩
abbrev MAC_LANEl_PAUSE_IGNORED (n l : Nat) : Reg := ⟨0xa01070 + 0x10000 * n + 0x100 * l, 0x0⟩
/-! ### PRS (spec/14 R251, R252) -/
abbrev PRS_CFG : Reg := ⟨0xb00040, 0x3⟩
abbrev PRS_CFG_CHK_INNER_IPV4 : Fld := ⟨PRS_CFG, 1, 1⟩
abbrev PRS_CFG_CHK_IPV4 : Fld := ⟨PRS_CFG, 0, 0⟩
abbrev PRS_PORTS : Reg := ⟨0xb00044, 0x12b517c1⟩
abbrev PRS_PORTS_VXLAN_PORT : Fld := ⟨PRS_PORTS, 31, 16⟩
abbrev PRS_PORTS_GENEVE_PORT : Fld := ⟨PRS_PORTS, 15, 0⟩
abbrev PRS_MAL_ACT : Reg := ⟨0xb00048, 0x2⟩
abbrev PRS_MAL_ACT_MAL_RING : Fld := ⟨PRS_MAL_ACT, 31, 22⟩
abbrev PRS_MAL_ACT_OPTION : Fld := ⟨PRS_MAL_ACT, 9, 8⟩
abbrev PRS_MAL_ACT_CHECKSUM : Fld := ⟨PRS_MAL_ACT, 7, 6⟩
abbrev PRS_MAL_ACT_TRUNCATED : Fld := ⟨PRS_MAL_ACT, 5, 4⟩
abbrev PRS_MAL_ACT_LENGTH : Fld := ⟨PRS_MAL_ACT, 3, 2⟩
abbrev PRS_MAL_ACT_TOO_DEEP : Fld := ⟨PRS_MAL_ACT, 1, 0⟩
abbrev PRS_IPV6_OPT0 : Reg := ⟨0xb00050, 0x0⟩
abbrev PRS_IPV6_OPT1 : Reg := ⟨0xb00054, 0x0⟩
abbrev PRS_EVT : Reg := ⟨0xb00060, 0x0⟩
abbrev PRS_EVT_EVENT : Fld := ⟨PRS_EVT, 4, 0⟩
abbrev PRS_EVT_EN : Reg := ⟨0xb00064, 0x1f⟩
abbrev PRS_EVT_EN_EVENT : Fld := ⟨PRS_EVT_EN, 4, 0⟩
abbrev PRS_FRAMES : Reg := ⟨0xb00080, 0x0⟩
abbrev PRS_MAL_DEEP : Reg := ⟨0xb00084, 0x0⟩
abbrev PRS_MAL_LENGTH : Reg := ⟨0xb00088, 0x0⟩
abbrev PRS_MAL_TRUNC : Reg := ⟨0xb0008c, 0x0⟩
abbrev PRS_MAL_CSUM : Reg := ⟨0xb00090, 0x0⟩
abbrev PRS_MAL_OPTION : Reg := ⟨0xb00094, 0x0⟩
abbrev PRS_GENEVE_OPTk (k : Nat) : Reg := ⟨0xb00100 + 0x4 * k, 0x0⟩
abbrev PRS_GENEVE_OPTk_VALID (k : Nat) : Fld := ⟨PRS_GENEVE_OPTk k, 31, 31⟩
abbrev PRS_GENEVE_OPTk_CLASS (k : Nat) : Fld := ⟨PRS_GENEVE_OPTk k, 23, 8⟩
abbrev PRS_GENEVE_OPTk_TYPE (k : Nat) : Fld := ⟨PRS_GENEVE_OPTk k, 6, 0⟩
/-! ### CLS (spec/14 R251, R252) -/
abbrev CLS_BANK_SEL : Reg := ⟨0xc00040, 0x0⟩
abbrev CLS_BANK_SEL_BANK : Fld := ⟨CLS_BANK_SEL, 0, 0⟩
abbrev CLS_BANK_STATUS : Reg := ⟨0xc00044, 0x0⟩
abbrev CLS_BANK_STATUS_EPOCH : Fld := ⟨CLS_BANK_STATUS, 31, 16⟩
abbrev CLS_BANK_STATUS_ACTIVE : Fld := ⟨CLS_BANK_STATUS, 15, 15⟩
abbrev CLS_BANK_STATUS_DRAINING : Fld := ⟨CLS_BANK_STATUS, 14, 14⟩
abbrev CLS_BANK_STATUS_RULE_BUSY : Fld := ⟨CLS_BANK_STATUS, 13, 13⟩
abbrev CLS_BANK_STATUS_DRAIN_COUNT : Fld := ⟨CLS_BANK_STATUS, 12, 0⟩
abbrev CLS_SCAN_CFG : Reg := ⟨0xc00048, 0x320⟩
abbrev CLS_SCAN_CFG_SCAN_RATE : Fld := ⟨CLS_SCAN_CFG, 9, 0⟩
abbrev CLS_RULE_CTL : Reg := ⟨0xc00050, 0x0⟩
abbrev CLS_RULE_CTL_GO : Fld := ⟨CLS_RULE_CTL, 31, 31⟩
abbrev CLS_RULE_CTL_OP : Fld := ⟨CLS_RULE_CTL, 30, 30⟩
abbrev CLS_RULE_CTL_BANK : Fld := ⟨CLS_RULE_CTL, 29, 29⟩
abbrev CLS_RULE_CTL_BUSY : Fld := ⟨CLS_RULE_CTL, 28, 28⟩
abbrev CLS_RULE_CTL_REFUSED : Fld := ⟨CLS_RULE_CTL, 27, 27⟩
abbrev CLS_RULE_CTL_INDEX : Fld := ⟨CLS_RULE_CTL, 15, 0⟩
abbrev CLS_RULE_KEYj (j : Nat) : Reg := ⟨0xc00060 + 0x4 * j, 0x0⟩
abbrev CLS_RULE_MASKj (j : Nat) : Reg := ⟨0xc00090 + 0x4 * j, 0x0⟩
abbrev CLS_RULE_ACT_HI : Reg := ⟨0xc000c4, 0x20000000⟩
abbrev CLS_RULE_ACT_HI_VERDICT : Fld := ⟨CLS_RULE_ACT_HI, 31, 29⟩
abbrev CLS_RULE_ACT_HI_EP_SRC : Fld := ⟨CLS_RULE_ACT_HI, 28, 27⟩
abbrev CLS_RULE_ACT_HI_TIME_OP : Fld := ⟨CLS_RULE_ACT_HI, 26, 25⟩
abbrev CLS_RULE_ACT_HI_SCAN : Fld := ⟨CLS_RULE_ACT_HI, 24, 24⟩
abbrev CLS_RULE_ACT_HI_QOVR : Fld := ⟨CLS_RULE_ACT_HI, 23, 23⟩
abbrev CLS_RULE_ACT_HI_ENDPOINT : Fld := ⟨CLS_RULE_ACT_HI, 19, 0⟩
abbrev CLS_RULE_ACT_LO : Reg := ⟨0xc000c0, 0x0⟩
abbrev CLS_RULE_ACT_LO_RING : Fld := ⟨CLS_RULE_ACT_LO, 31, 22⟩
abbrev CLS_RULE_ACT_LO_QCLASS : Fld := ⟨CLS_RULE_ACT_LO, 21, 15⟩
abbrev CLS_RULE_ACT_LO_CNT_EN : Fld := ⟨CLS_RULE_ACT_LO, 14, 14⟩
abbrev CLS_RULE_ACT_LO_CNT_IDX : Fld := ⟨CLS_RULE_ACT_LO, 11, 0⟩
abbrev CLS_PAT_CTL : Reg := ⟨0xc00100, 0x0⟩
abbrev CLS_PAT_CTL_GO : Fld := ⟨CLS_PAT_CTL, 31, 31⟩
abbrev CLS_PAT_CTL_OP : Fld := ⟨CLS_PAT_CTL, 30, 30⟩
abbrev CLS_PAT_CTL_INDEX : Fld := ⟨CLS_PAT_CTL, 11, 0⟩
abbrev CLS_PAT_CFG : Reg := ⟨0xc00104, 0x10001ff⟩
abbrev CLS_PAT_CFG_VALID : Fld := ⟨CLS_PAT_CFG, 31, 31⟩
abbrev CLS_PAT_CFG_LEN : Fld := ⟨CLS_PAT_CFG, 30, 24⟩
abbrev CLS_PAT_CFG_OFS_MIN : Fld := ⟨CLS_PAT_CFG, 17, 9⟩
abbrev CLS_PAT_CFG_OFS_MAX : Fld := ⟨CLS_PAT_CFG, 8, 0⟩
abbrev CLS_PAT_DATAj (j : Nat) : Reg := ⟨0xc00110 + 0x4 * j, 0x0⟩
abbrev CLS_PAT_MASKj (j : Nat) : Reg := ⟨0xc00150 + 0x4 * j, 0x0⟩
abbrev CLS_PIPE_STATUS : Reg := ⟨0xc00190, 0x10000⟩
abbrev CLS_PIPE_STATUS_STATE : Fld := ⟨CLS_PIPE_STATUS, 17, 0⟩
abbrev CLS_EVT : Reg := ⟨0xc001c0, 0x0⟩
abbrev CLS_EVT_EVENT : Fld := ⟨CLS_EVT, 3, 0⟩
abbrev CLS_EVT_EN : Reg := ⟨0xc001c4, 0xf⟩
abbrev CLS_EVT_EN_EVENT : Fld := ⟨CLS_EVT_EN, 3, 0⟩
abbrev CLS_DEFAULT_HIT : Reg := ⟨0xc00200, 0x0⟩
abbrev CLS_NO_EP : Reg := ⟨0xc00204, 0x0⟩
abbrev CLS_RECIRC : Reg := ⟨0xc00208, 0x0⟩
abbrev CLS_RECIRC_EXCESS : Reg := ⟨0xc0020c, 0x0⟩
abbrev CLS_RECIRC_DROP : Reg := ⟨0xc00210, 0x0⟩
abbrev CLS_SCAN : Reg := ⟨0xc00214, 0x0⟩
abbrev CLS_SCAN_SKIP : Reg := ⟨0xc00218, 0x0⟩
abbrev CLS_PAT_HIT : Reg := ⟨0xc0021c, 0x0⟩
abbrev CLS_PIPE_DROP : Reg := ⟨0xc00220, 0x0⟩
abbrev CLS_WRITE_REFUSED : Reg := ⟨0xc00224, 0x0⟩
abbrev CLS_SWAPS : Reg := ⟨0xc00228, 0x0⟩
/-! ### ASH (spec/15 R271) -/
abbrev ASH_CFG : Reg := ⟨0xd00040, 0x404⟩
abbrev ASH_CFG_MISS_TO : Fld := ⟨ASH_CFG, 11, 8⟩
abbrev ASH_CFG_AGE_EN : Fld := ⟨ASH_CFG, 2, 2⟩
abbrev ASH_CFG_LEARN_EN : Fld := ⟨ASH_CFG, 1, 1⟩
abbrev ASH_CFG_FLOW_EN : Fld := ⟨ASH_CFG, 0, 0⟩
abbrev ASH_HASH_SEED1 : Reg := ⟨0xd00044, 0xffffffff⟩
abbrev ASH_HASH_SEED2 : Reg := ⟨0xd00048, 0x5a5aa5a5⟩
abbrev ASH_FLOW_BASE : Reg := ⟨0xd0004c, 0x0⟩
abbrev ASH_FLOW_BASE_REGION : Fld := ⟨ASH_FLOW_BASE, 1, 0⟩
abbrev ASH_AGE_CFG : Reg := ⟨0xd00050, 0x3c⟩
abbrev ASH_AGE_CFG_AGE_SCAN : Fld := ⟨ASH_AGE_CFG, 11, 0⟩
abbrev ASH_AGE_T0 : Reg := ⟨0xd00054, 0x12c⟩
abbrev ASH_AGE_T0_AGE_T : Fld := ⟨ASH_AGE_T0, 15, 0⟩
abbrev ASH_AGE_T1 : Reg := ⟨0xd00058, 0x1e⟩
abbrev ASH_AGE_T1_AGE_T : Fld := ⟨ASH_AGE_T1, 15, 0⟩
abbrev ASH_AGE_T2 : Reg := ⟨0xd0005c, 0xe10⟩
abbrev ASH_AGE_T2_AGE_T : Fld := ⟨ASH_AGE_T2, 15, 0⟩
abbrev ASH_AGE_T3 : Reg := ⟨0xd00060, 0x0⟩
abbrev ASH_AGE_T3_AGE_T : Fld := ⟨ASH_AGE_T3, 15, 0⟩
abbrev ASH_STATUS : Reg := ⟨0xd00070, 0x0⟩
abbrev ASH_STATUS_TABLES_LOST : Fld := ⟨ASH_STATUS, 31, 31⟩
abbrev ASH_STATUS_WALK : Fld := ⟨ASH_STATUS, 30, 30⟩
abbrev ASH_STATUS_CMD_QUEUE : Fld := ⟨ASH_STATUS, 6, 0⟩
abbrev ASH_FLOWS : Reg := ⟨0xd00074, 0x0⟩
abbrev ASH_FLOWS_COUNT : Fld := ⟨ASH_FLOWS, 24, 0⟩
abbrev ASH_EP_CTL : Reg := ⟨0xd00080, 0x0⟩
abbrev ASH_EP_CTL_GO : Fld := ⟨ASH_EP_CTL, 31, 31⟩
abbrev ASH_EP_CTL_OP : Fld := ⟨ASH_EP_CTL, 30, 30⟩
abbrev ASH_EP_CTL_REFUSED : Fld := ⟨ASH_EP_CTL, 29, 29⟩
abbrev ASH_EP_CTL_BUSY : Fld := ⟨ASH_EP_CTL, 28, 28⟩
abbrev ASH_EP_CTL_INDEX : Fld := ⟨ASH_EP_CTL, 19, 0⟩
abbrev ASH_EP_DATAj (j : Nat) : Reg := ⟨0xd00084 + 0x4 * j, 0x0⟩
abbrev ASH_CMD_DATAj (j : Nat) : Reg := ⟨0xd00100 + 0x4 * j, 0x0⟩
abbrev ASH_RES_DATAj (j : Nat) : Reg := ⟨0xd00180 + 0x4 * j, 0x0⟩
abbrev ASH_CMD_CTL : Reg := ⟨0xd00140, 0x0⟩
abbrev ASH_CMD_CTL_GO : Fld := ⟨ASH_CMD_CTL, 31, 31⟩
abbrev ASH_CMD_CTL_OPCODE : Fld := ⟨ASH_CMD_CTL, 19, 16⟩
abbrev ASH_CMD_CTL_TAG : Fld := ⟨ASH_CMD_CTL, 15, 0⟩
abbrev ASH_CMD_SEQ : Reg := ⟨0xd00144, 0x0⟩
abbrev ASH_AGED_SEQ : Reg := ⟨0xd00148, 0x0⟩
abbrev ASH_EP_ECC_IDX : Reg := ⟨0xd00150, 0x0⟩
abbrev ASH_EP_ECC_IDX_VALID : Fld := ⟨ASH_EP_ECC_IDX, 31, 31⟩
abbrev ASH_EP_ECC_IDX_INDEX : Fld := ⟨ASH_EP_ECC_IDX, 19, 0⟩
abbrev ASH_EVT : Reg := ⟨0xd001e0, 0x0⟩
abbrev ASH_EVT_EVENT : Fld := ⟨ASH_EVT, 6, 0⟩
abbrev ASH_EVT_EN : Reg := ⟨0xd001e4, 0x67⟩
abbrev ASH_EVT_EN_EVENT : Fld := ⟨ASH_EVT_EN, 6, 0⟩
abbrev ASH_EP_INVALID : Reg := ⟨0xd00200, 0x0⟩
abbrev ASH_EP_ECC : Reg := ⟨0xd00204, 0x0⟩
abbrev ASH_EP_ECC_CORR : Reg := ⟨0xd00208, 0x0⟩
abbrev ASH_HAIRPIN : Reg := ⟨0xd0020c, 0x0⟩
abbrev ASH_FLOW_HIT : Reg := ⟨0xd00210, 0x0⟩
abbrev ASH_FLOW_MISS : Reg := ⟨0xd00214, 0x0⟩
abbrev ASH_FLOW_BYPASS : Reg := ⟨0xd00218, 0x0⟩
abbrev ASH_LEARN : Reg := ⟨0xd0021c, 0x0⟩
abbrev ASH_LEARN_DUP : Reg := ⟨0xd00220, 0x0⟩
abbrev ASH_LEARN_DROP : Reg := ⟨0xd00224, 0x0⟩
abbrev ASH_INSERT_FULL : Reg := ⟨0xd00228, 0x0⟩
abbrev ASH_CMD_REFUSED : Reg := ⟨0xd0022c, 0x0⟩
abbrev ASH_CMD_FAIL : Reg := ⟨0xd00230, 0x0⟩
abbrev ASH_AGED : Reg := ⟨0xd00234, 0x0⟩
abbrev ASH_FLOW_ECC : Reg := ⟨0xd00238, 0x0⟩
abbrev ASH_FLOW_ECC_CORR : Reg := ⟨0xd0023c, 0x0⟩
abbrev ASH_CACHE_EVICT : Reg := ⟨0xd00240, 0x0⟩
/-! ### TMG (spec/16 R294) -/
abbrev TMG_CFG : Reg := ⟨0xe00040, 0xa0064⟩
abbrev TMG_CFG_DRAIN_MS : Fld := ⟨TMG_CFG, 22, 16⟩
abbrev TMG_CFG_FLUSH_MS : Fld := ⟨TMG_CFG, 9, 0⟩
abbrev TMG_POOL_STATUS : Reg := ⟨0xe00044, 0x60000⟩
abbrev TMG_POOL_STATUS_RESERVE_OVER : Fld := ⟨TMG_POOL_STATUS, 31, 31⟩
abbrev TMG_POOL_STATUS_CELLS : Fld := ⟨TMG_POOL_STATUS, 18, 0⟩
abbrev TMG_FREE_SHARED : Reg := ⟨0xe00048, 0x4f000⟩
abbrev TMG_FREE_SHARED_FREE : Fld := ⟨TMG_FREE_SHARED, 18, 0⟩
abbrev TMG_LINE_MIN : Reg := ⟨0xe0004c, 0x8000⟩
abbrev TMG_LINE_MIN_PORT_MIN : Fld := ⟨TMG_LINE_MIN, 18, 0⟩
abbrev TMG_HOST_MIN : Reg := ⟨0xe00050, 0x1000⟩
abbrev TMG_HOST_MIN_PORT_MIN : Fld := ⟨TMG_HOST_MIN, 18, 0⟩
abbrev TMG_PFC_TH : Reg := ⟨0xe00054, 0x2000400⟩
abbrev TMG_PFC_TH_XON_TH : Fld := ⟨TMG_PFC_TH, 31, 16⟩
abbrev TMG_PFC_TH_XOFF_TH : Fld := ⟨TMG_PFC_TH, 15, 0⟩
abbrev TMG_PFC_CFG : Reg := ⟨0xe00058, 0x0⟩
abbrev TMG_PFC_CFG_LOSSLESS : Fld := ⟨TMG_PFC_CFG, 31, 24⟩
abbrev TMG_PFC_CFG_HEADROOM : Fld := ⟨TMG_PFC_CFG, 15, 0⟩
abbrev TMG_EVT : Reg := ⟨0xe00060, 0x0⟩
abbrev TMG_EVT_EVENT : Fld := ⟨TMG_EVT, 7, 0⟩
abbrev TMG_EVT_EN : Reg := ⟨0xe00064, 0xfe⟩
abbrev TMG_EVT_EN_EVENT : Fld := ⟨TMG_EVT_EN, 7, 0⟩
abbrev TMG_Q_SEL : Reg := ⟨0xe00070, 0x0⟩
abbrev TMG_Q_SEL_QUEUE : Fld := ⟨TMG_Q_SEL, 13, 0⟩
abbrev TMG_Q_STATk (k : Nat) : Reg := ⟨0xe00074 + 0x4 * k, 0x0⟩
abbrev TMG_DROP_QLIMIT : Reg := ⟨0xe00100, 0x0⟩
abbrev TMG_DROP_DT : Reg := ⟨0xe00104, 0x0⟩
abbrev TMG_DROP_POOL : Reg := ⟨0xe00108, 0x0⟩
abbrev TMG_DROP_RED : Reg := ⟨0xe0010c, 0x0⟩
abbrev TMG_DROP_HEADROOM : Reg := ⟨0xe00110, 0x0⟩
abbrev TMG_YELLOW : Reg := ⟨0xe00114, 0x0⟩
abbrev TMG_FLUSH : Reg := ⟨0xe00118, 0x0⟩
abbrev TMG_DRAIN_DISCARD : Reg := ⟨0xe0011c, 0x0⟩
abbrev TMG_ECC_CORR : Reg := ⟨0xe00120, 0x0⟩
abbrev TMG_ECC_UNCORR : Reg := ⟨0xe00124, 0x0⟩
abbrev TMG_GATE_OVERSIZE : Reg := ⟨0xe00128, 0x0⟩
abbrev TMG_GATE_ADV : Reg := ⟨0xe0012c, 0x0⟩
abbrev TMG_GATE_REJECT : Reg := ⟨0xe00130, 0x0⟩
abbrev TMG_BIND_EXCESS : Reg := ⟨0xe00134, 0x0⟩
abbrev TMG_GL_REFUSED : Reg := ⟨0xe00138, 0x0⟩
abbrev TMG_GL_CTL : Reg := ⟨0xe00200, 0x0⟩
abbrev TMG_GL_CTL_GO : Fld := ⟨TMG_GL_CTL, 31, 31⟩
abbrev TMG_GL_CTL_OP : Fld := ⟨TMG_GL_CTL, 30, 30⟩
abbrev TMG_GL_CTL_REFUSED : Fld := ⟨TMG_GL_CTL, 29, 29⟩
abbrev TMG_GL_CTL_COPY : Fld := ⟨TMG_GL_CTL, 28, 28⟩
abbrev TMG_GL_CTL_SCHED : Fld := ⟨TMG_GL_CTL, 27, 18⟩
abbrev TMG_GL_CTL_INDEX : Fld := ⟨TMG_GL_CTL, 8, 0⟩
abbrev TMG_GL_BASE_HI : Reg := ⟨0xe00204, 0x0⟩
abbrev TMG_GL_BASE_HI_VALUE : Fld := ⟨TMG_GL_BASE_HI, 15, 0⟩
abbrev TMG_GL_BASE_LO : Reg := ⟨0xe00208, 0x0⟩
abbrev TMG_GL_BASE_NS : Reg := ⟨0xe0020c, 0x0⟩
abbrev TMG_GL_BASE_NS_NS : Fld := ⟨TMG_GL_BASE_NS, 29, 0⟩
abbrev TMG_GL_CYCLE : Reg := ⟨0xe00210, 0xf4240⟩
abbrev TMG_GL_CYCLE_CYCLE : Fld := ⟨TMG_GL_CYCLE, 29, 0⟩
abbrev TMG_GL_COUNT : Reg := ⟨0xe00214, 0x1⟩
abbrev TMG_GL_COUNT_COUNT : Fld := ⟨TMG_GL_COUNT, 8, 0⟩
abbrev TMG_GL_ENTRY_GATES : Reg := ⟨0xe00218, 0xff⟩
abbrev TMG_GL_ENTRY_GATES_GATES : Fld := ⟨TMG_GL_ENTRY_GATES, 7, 0⟩
abbrev TMG_GL_ENTRY_NS : Reg := ⟨0xe0021c, 0x3e8⟩
abbrev TMG_GL_ENTRY_NS_NS : Fld := ⟨TMG_GL_ENTRY_NS, 29, 0⟩
abbrev TMG_GL_LAST_ADV : Reg := ⟨0xe00220, 0x0⟩
abbrev TMG_GL_LAST_ADV_SCHED : Fld := ⟨TMG_GL_LAST_ADV, 31, 22⟩
abbrev TMG_GL_LAST_ADV_CYCLES : Fld := ⟨TMG_GL_LAST_ADV, 20, 0⟩
abbrev TMG_CLASSc (c : Nat) : Reg := ⟨0xe00400 + 0x4 * c, 0x0⟩
abbrev TMG_CLASSc_TIME (c : Nat) : Fld := ⟨TMG_CLASSc c, 7, 7⟩
abbrev TMG_CLASSc_GATE (c : Nat) : Fld := ⟨TMG_CLASSc c, 6, 4⟩
abbrev TMG_CLASSc_PRI (c : Nat) : Fld := ⟨TMG_CLASSc c, 2, 0⟩
abbrev TMG_PORTp_MIN (p : Nat) : Reg := ⟨0xe01000 + 0x40 * p, 0x200⟩
abbrev TMG_PORTp_MIN_PORT_MIN (p : Nat) : Fld := ⟨TMG_PORTp_MIN p, 18, 0⟩
abbrev TMG_PORTp_GATE_SEL (p : Nat) : Reg := ⟨0xe01004 + 0x40 * p, 0x0⟩
abbrev TMG_PORTp_GATE_SEL_EN (p : Nat) : Fld := ⟨TMG_PORTp_GATE_SEL p, 1, 1⟩
abbrev TMG_PORTp_GATE_SEL_COPY (p : Nat) : Fld := ⟨TMG_PORTp_GATE_SEL p, 0, 0⟩
abbrev TMG_LGg_GATE_SEL (g : Nat) : Reg := ⟨0xe02000 + 0x20 * g, 0x0⟩
abbrev TMG_LGg_GATE_SEL_EN (g : Nat) : Fld := ⟨TMG_LGg_GATE_SEL g, 1, 1⟩
abbrev TMG_LGg_GATE_SEL_COPY (g : Nat) : Fld := ⟨TMG_LGg_GATE_SEL g, 0, 0⟩
abbrev TMG_PORTp_STATUS (p : Nat) : Reg := ⟨0xe01008 + 0x40 * p, 0xff00⟩
abbrev TMG_PORTp_STATUS_PENDING (p : Nat) : Fld := ⟨TMG_PORTp_STATUS p, 31, 31⟩
abbrev TMG_PORTp_STATUS_APPLIED_COPY (p : Nat) : Fld := ⟨TMG_PORTp_STATUS p, 30, 30⟩
abbrev TMG_PORTp_STATUS_FC_ASSERT (p : Nat) : Fld := ⟨TMG_PORTp_STATUS p, 23, 16⟩
abbrev TMG_PORTp_STATUS_GATES (p : Nat) : Fld := ⟨TMG_PORTp_STATUS p, 15, 8⟩
abbrev TMG_LGg_STATUS (g : Nat) : Reg := ⟨0xe02004 + 0x20 * g, 0xff00⟩
abbrev TMG_LGg_STATUS_PENDING (g : Nat) : Fld := ⟨TMG_LGg_STATUS g, 31, 31⟩
abbrev TMG_LGg_STATUS_APPLIED_COPY (g : Nat) : Fld := ⟨TMG_LGg_STATUS g, 30, 30⟩
abbrev TMG_LGg_STATUS_GATES (g : Nat) : Fld := ⟨TMG_LGg_STATUS g, 15, 8⟩
abbrev TMG_LGg_BYTES (g : Nat) : Reg := ⟨0xe02008 + 0x20 * g, 0x0⟩
abbrev TMG_Qq_CFG0 (q : Nat) : Reg := ⟨0xe10000 + 0x8 * q, 0x7060000⟩
abbrev TMG_Qq_CFG0_ALPHA (q : Nat) : Fld := ⟨TMG_Qq_CFG0 q, 27, 24⟩
abbrev TMG_Qq_CFG0_Q_MAX (q : Nat) : Fld := ⟨TMG_Qq_CFG0 q, 18, 0⟩
abbrev TMG_Qq_CFG1 (q : Nat) : Reg := ⟨0xe10004 + 0x8 * q, 0x1⟩
abbrev TMG_Qq_CFG1_SH_EN (q : Nat) : Fld := ⟨TMG_Qq_CFG1 q, 31, 31⟩
abbrev TMG_Qq_CFG1_SHAPER (q : Nat) : Fld := ⟨TMG_Qq_CFG1 q, 27, 16⟩
abbrev TMG_Qq_CFG1_WEIGHT (q : Nat) : Fld := ⟨TMG_Qq_CFG1 q, 7, 0⟩
abbrev TMG_LMAPj (j : Nat) : Reg := ⟨0xe40000 + 0x4 * j, 0x4000000⟩
abbrev TMG_LMAPj_VALID (j : Nat) : Fld := ⟨TMG_LMAPj j, 31, 31⟩
abbrev TMG_LMAPj_TIME (j : Nat) : Fld := ⟨TMG_LMAPj j, 30, 30⟩
abbrev TMG_LMAPj_GATE (j : Nat) : Fld := ⟨TMG_LMAPj j, 29, 27⟩
abbrev TMG_LMAPj_LEVEL (j : Nat) : Fld := ⟨TMG_LMAPj j, 26, 24⟩
abbrev TMG_LMAPj_ENTRY (j : Nat) : Fld := ⟨TMG_LMAPj j, 8, 0⟩
abbrev TMG_POLn_CIR (i : Nat) : Reg := ⟨0xe60000 + 0x10 * i, 0x61a80⟩
abbrev TMG_POLn_CIR_CIR (i : Nat) : Fld := ⟨TMG_POLn_CIR i, 18, 0⟩
abbrev TMG_POLn_CBS (i : Nat) : Reg := ⟨0xe60004 + 0x10 * i, 0x100000⟩
abbrev TMG_POLn_CBS_CBS (i : Nat) : Fld := ⟨TMG_POLn_CBS i, 23, 0⟩
abbrev TMG_POLn_PIR (i : Nat) : Reg := ⟨0xe60008 + 0x10 * i, 0x61a80⟩
abbrev TMG_POLn_PIR_PIR (i : Nat) : Fld := ⟨TMG_POLn_PIR i, 18, 0⟩
abbrev TMG_POLn_PBS (i : Nat) : Reg := ⟨0xe6000c + 0x10 * i, 0x100000⟩
abbrev TMG_POLn_PBS_PBS (i : Nat) : Fld := ⟨TMG_POLn_PBS i, 23, 0⟩
abbrev TMG_SHs_CIR (s : Nat) : Reg := ⟨0xe80000 + 0x10 * s, 0x61a80⟩
abbrev TMG_SHs_CIR_CIR (s : Nat) : Fld := ⟨TMG_SHs_CIR s, 18, 0⟩
abbrev TMG_SHs_CBS (s : Nat) : Reg := ⟨0xe80004 + 0x10 * s, 0x100000⟩
abbrev TMG_SHs_CBS_CBS (s : Nat) : Fld := ⟨TMG_SHs_CBS s, 23, 0⟩
abbrev TMG_SHs_PIR (s : Nat) : Reg := ⟨0xe80008 + 0x10 * s, 0x61a80⟩
abbrev TMG_SHs_PIR_PIR (s : Nat) : Fld := ⟨TMG_SHs_PIR s, 18, 0⟩
abbrev TMG_SHs_PBS (s : Nat) : Reg := ⟨0xe8000c + 0x10 * s, 0x100000⟩
abbrev TMG_SHs_PBS_PBS (s : Nat) : Fld := ⟨TMG_SHs_PBS s, 23, 0⟩

/-! ### HIF (spec/18 R337) -/
abbrev HIF_LINK_STATUS : Reg := ⟨0xf00040, 0x0⟩
abbrev HIF_LINK_STATUS_TUNNEL_UP : Fld := ⟨HIF_LINK_STATUS, 31, 31⟩
abbrev HIF_LINK_STATUS_GEN : Fld := ⟨HIF_LINK_STATUS, 30, 28⟩
abbrev HIF_LINK_STATUS_NUM_VFS : Fld := ⟨HIF_LINK_STATUS, 4, 0⟩
abbrev HIF_CFG : Reg := ⟨0xf00044, 0x3e8⟩
abbrev HIF_CFG_CPL_TO : Fld := ⟨HIF_CFG, 13, 0⟩
abbrev HIF_EVT_UNIT : Reg := ⟨0xf00048, 0x0⟩
abbrev HIF_EVT_UNIT_UNIT : Fld := ⟨HIF_EVT_UNIT, 27, 0⟩
abbrev HIF_DB_BAD : Reg := ⟨0xf00080, 0x0⟩
abbrev HIF_DESC_BAD : Reg := ⟨0xf00084, 0x0⟩
abbrev HIF_RX_NO_RING : Reg := ⟨0xf00088, 0x0⟩
abbrev HIF_CQ_STALL : Reg := ⟨0xf0008c, 0x0⟩
abbrev HIF_RD_ERR : Reg := ⟨0xf00090, 0x0⟩
abbrev HIF_KPp_OWN (p : Nat) : Reg := ⟨0xf02020 + 0x4 * p, 0x0⟩
abbrev HIF_KPp_OWN_OWNER (p : Nat) : Fld := ⟨HIF_KPp_OWN p, 4, 0⟩
abbrev HIF_DMACc_OWN (c : Nat) : Reg := ⟨0xf02100 + 0x4 * c, 0x0⟩
abbrev HIF_DMACc_OWN_OWNER (c : Nat) : Fld := ⟨HIF_DMACc_OWN c, 4, 0⟩
abbrev HIF_FNf_RIGHTS (f : Nat) : Reg := ⟨0xf01000 + 0x20 * f, if f = 0 then 0x800001FF else 0⟩
abbrev HIF_FNf_RIGHTS_CNT_READ (f : Nat) : Fld := ⟨HIF_FNf_RIGHTS f, 31, 31⟩
abbrev HIF_FNf_RIGHTS_UNITS (f : Nat) : Fld := ⟨HIF_FNf_RIGHTS f, 8, 0⟩
abbrev HIF_FNf_EVT (f : Nat) : Reg := ⟨0xf01004 + 0x20 * f, 0x0⟩
abbrev HIF_FNf_EVT_EVENT (f : Nat) : Fld := ⟨HIF_FNf_EVT f, 7, 0⟩
abbrev HIF_FNf_EVT_UNIT (f : Nat) : Fld := ⟨HIF_FNf_EVT f, 8, 8⟩
abbrev HIF_FNf_EVT_EN (f : Nat) : Reg := ⟨0xf01008 + 0x20 * f, 0x1ff⟩
abbrev HIF_FNf_EVT_EN_EVENT (f : Nat) : Fld := ⟨HIF_FNf_EVT_EN f, 8, 0⟩
abbrev HIF_FNf_EVT_CFG (f : Nat) : Reg := ⟨0xf0100c + 0x20 * f, 0x0⟩
abbrev HIF_FNf_EVT_CFG_EVT_VEC (f : Nat) : Fld := ⟨HIF_FNf_EVT_CFG f, 5, 0⟩
abbrev HIF_Rr_OWN (r : Nat) : Reg := ⟨0xf04000 + 0x40 * r, 0x0⟩
abbrev HIF_Rr_OWN_KIND (r : Nat) : Fld := ⟨HIF_Rr_OWN r, 10, 8⟩
abbrev HIF_Rr_OWN_OWNER (r : Nat) : Fld := ⟨HIF_Rr_OWN r, 4, 0⟩
abbrev HIF_Rr_RANGE (r : Nat) : Reg := ⟨0xf04004 + 0x40 * r, 0x0⟩
abbrev HIF_Rr_RANGE_QCOUNT (r : Nat) : Fld := ⟨HIF_Rr_RANGE r, 28, 14⟩
abbrev HIF_Rr_RANGE_QBASE (r : Nat) : Fld := ⟨HIF_Rr_RANGE r, 13, 0⟩
abbrev HIF_Rr_EPRANGE (r : Nat) : Reg := ⟨0xf04008 + 0x40 * r, 0x0⟩
abbrev HIF_Rr_EPRANGE_EP_LOG (r : Nat) : Fld := ⟨HIF_Rr_EPRANGE r, 24, 20⟩
abbrev HIF_Rr_EPRANGE_EP_BASE (r : Nat) : Fld := ⟨HIF_Rr_EPRANGE r, 19, 0⟩
abbrev HIF_Rr_ADDR_LO (r : Nat) : Reg := ⟨0xf0400c + 0x40 * r, 0x0⟩
abbrev HIF_Rr_ADDR_LO_ADDR (r : Nat) : Fld := ⟨HIF_Rr_ADDR_LO r, 31, 12⟩
abbrev HIF_Rr_ADDR_HI (r : Nat) : Reg := ⟨0xf04010 + 0x40 * r, 0x0⟩
abbrev HIF_Rr_CFG (r : Nat) : Reg := ⟨0xf04014 + 0x40 * r, 0x60000⟩
abbrev HIF_Rr_CFG_ENABLE (r : Nat) : Fld := ⟨HIF_Rr_CFG r, 31, 31⟩
abbrev HIF_Rr_CFG_SIZE_LOG (r : Nat) : Fld := ⟨HIF_Rr_CFG r, 20, 16⟩
abbrev HIF_Rr_CFG_CQ (r : Nat) : Fld := ⟨HIF_Rr_CFG r, 9, 0⟩
abbrev HIF_Rr_COAL (r : Nat) : Reg := ⟨0xf04018 + 0x40 * r, 0x320001⟩
abbrev HIF_Rr_COAL_COAL_US (r : Nat) : Fld := ⟨HIF_Rr_COAL r, 31, 16⟩
abbrev HIF_Rr_COAL_COAL_CNT (r : Nat) : Fld := ⟨HIF_Rr_COAL r, 15, 0⟩
abbrev HIF_Rr_STATUS (r : Nat) : Reg := ⟨0xf0401c + 0x40 * r, 0x0⟩
abbrev HIF_Rr_STATUS_STATE (r : Nat) : Fld := ⟨HIF_Rr_STATUS r, 31, 30⟩
abbrev HIF_Rr_STATUS_ERR (r : Nat) : Fld := ⟨HIF_Rr_STATUS r, 29, 27⟩
abbrev HIF_Rr_STATUS_CQ_FULL (r : Nat) : Fld := ⟨HIF_Rr_STATUS r, 26, 26⟩
abbrev HIF_Rr_STATUS_INDEX (r : Nat) : Fld := ⟨HIF_Rr_STATUS r, 15, 0⟩
/-! ### DMA (spec/19 R356, R357) -/
abbrev DMA_CTL : Reg := ⟨0x1000040, 0x0⟩
abbrev DMA_CTL_RESUME : Fld := ⟨DMA_CTL, 0, 0⟩
abbrev DMA_STATUS : Reg := ⟨0x1000044, 0x0⟩
abbrev DMA_STATUS_HALTED : Fld := ⟨DMA_STATUS, 31, 31⟩
abbrev DMA_STATUS_BUSY : Fld := ⟨DMA_STATUS, 6, 0⟩
abbrev DMA_ERR : Reg := ⟨0x1000048, 0x0⟩
abbrev DMA_ERR_CAUSE : Fld := ⟨DMA_ERR, 31, 29⟩
abbrev DMA_ERR_SPACE : Fld := ⟨DMA_ERR, 28, 27⟩
abbrev DMA_ERR_ADDR_LO : Reg := ⟨0x100004c, 0x0⟩
abbrev DMA_ERR_ADDR_HI : Reg := ⟨0x1000050, 0x0⟩
abbrev DMA_EVT : Reg := ⟨0x1000060, 0x0⟩
abbrev DMA_EVT_EVENT : Fld := ⟨DMA_EVT, 2, 0⟩
abbrev DMA_EVT_EN : Reg := ⟨0x1000064, 0x7⟩
abbrev DMA_EVT_EN_EVENT : Fld := ⟨DMA_EVT_EN, 2, 0⟩
abbrev DMA_BUS_ERR : Reg := ⟨0x1000080, 0x0⟩
abbrev DMA_TIMEOUT : Reg := ⟨0x1000084, 0x0⟩
abbrev DMA_HALTS : Reg := ⟨0x1000088, 0x0⟩
abbrev DMA_BAD_DESC : Reg := ⟨0x100008c, 0x0⟩
abbrev DMA_OVERLAP : Reg := ⟨0x1000090, 0x0⟩
abbrev DMA_OWNER_ABANDON : Reg := ⟨0x1000094, 0x0⟩
abbrev DMA_FNf_DRAM_BASE (f : Nat) : Reg := ⟨0x1001000 + 0x8 * f, 0x0⟩
abbrev DMA_FNf_DRAM_BASE_BASE (f : Nat) : Fld := ⟨DMA_FNf_DRAM_BASE f, 31, 20⟩
abbrev DMA_FNf_DRAM_SIZE (f : Nat) : Reg := ⟨0x1001004 + 0x8 * f, if f = 0 then 0x1000 else 0⟩
abbrev DMA_FNf_DRAM_SIZE_SIZE (f : Nat) : Fld := ⟨DMA_FNf_DRAM_SIZE f, 12, 0⟩
abbrev DMA_CHc_STATUS (c : Nat) : Reg := ⟨0x1002000 + 0x10 * c, 0x0⟩
abbrev DMA_CHc_STATUS_STATE (c : Nat) : Fld := ⟨DMA_CHc_STATUS c, 31, 29⟩
abbrev DMA_CHc_STATUS_RELEASED (c : Nat) : Fld := ⟨DMA_CHc_STATUS c, 28, 28⟩
abbrev DMA_CHc_STATUS_RING (c : Nat) : Fld := ⟨DMA_CHc_STATUS c, 25, 16⟩
abbrev DMA_CHc_STATUS_HOPS (c : Nat) : Fld := ⟨DMA_CHc_STATUS c, 12, 0⟩
abbrev DMA_CHc_BYTES (c : Nat) : Reg := ⟨0x1002004 + 0x10 * c, 0x0⟩
/-! ### BDM (spec/19 R356, R357) -/
abbrev BDM_EVT : Reg := ⟨0x1100060, 0x0⟩
abbrev BDM_EVT_EVENT : Fld := ⟨BDM_EVT, 3, 0⟩
abbrev BDM_EVT_EN : Reg := ⟨0x1100064, 0xf⟩
abbrev BDM_EVT_EN_EVENT : Fld := ⟨BDM_EVT_EN, 3, 0⟩
abbrev BDM_CHc_CTL (c : Nat) : Reg := ⟨0x1101000 + 0x20 * c, 0x0⟩
abbrev BDM_CHc_CTL_GO (c : Nat) : Fld := ⟨BDM_CHc_CTL c, 31, 31⟩
abbrev BDM_CHc_CTL_ABORT (c : Nat) : Fld := ⟨BDM_CHc_CTL c, 30, 30⟩
abbrev BDM_CHc_DESC_LO (c : Nat) : Reg := ⟨0x1101004 + 0x20 * c, 0x0⟩
abbrev BDM_CHc_DESC_LO_ADDR (c : Nat) : Fld := ⟨BDM_CHc_DESC_LO c, 31, 5⟩
abbrev BDM_CHc_DESC_HI (c : Nat) : Reg := ⟨0x1101008 + 0x20 * c, 0x0⟩
abbrev BDM_CHc_DESC_HI_SPACE (c : Nat) : Fld := ⟨BDM_CHc_DESC_HI c, 1, 0⟩
abbrev BDM_CHc_STATUS (c : Nat) : Reg := ⟨0x110100c + 0x20 * c, 0x0⟩
abbrev BDM_CHc_STATUS_STATE (c : Nat) : Fld := ⟨BDM_CHc_STATUS c, 31, 30⟩
abbrev BDM_CHc_STATUS_RESULT (c : Nat) : Fld := ⟨BDM_CHc_STATUS c, 29, 26⟩
abbrev BDM_CHc_STATUS_HOPS (c : Nat) : Fld := ⟨BDM_CHc_STATUS c, 12, 0⟩
abbrev BDM_CHc_ERR_LO (c : Nat) : Reg := ⟨0x1101010 + 0x20 * c, 0x0⟩
abbrev BDM_CHc_ERR_HI (c : Nat) : Reg := ⟨0x1101014 + 0x20 * c, 0x0⟩
abbrev BDM_CHc_ERR_HI_CAUSE (c : Nat) : Fld := ⟨BDM_CHc_ERR_HI c, 31, 29⟩
abbrev BDM_CHc_ERR_HI_SPACE (c : Nat) : Fld := ⟨BDM_CHc_ERR_HI c, 28, 27⟩
abbrev BDM_CHc_BYTES (c : Nat) : Reg := ⟨0x1101018 + 0x20 * c, 0x0⟩
/-! ### FWU (spec/22 R409, R410) -/
abbrev FWU_CTL : Reg := ⟨0x1200040, 0x0⟩
abbrev FWU_CTL_CONFIRM : Fld := ⟨FWU_CTL, 31, 31⟩
abbrev FWU_CTL_PRELOAD : Fld := ⟨FWU_CTL, 30, 30⟩
abbrev FWU_CTL_SAVE : Fld := ⟨FWU_CTL, 29, 29⟩
abbrev FWU_CTL_ORIG_GO : Fld := ⟨FWU_CTL, 28, 28⟩
abbrev FWU_CTL_ALIVE : Fld := ⟨FWU_CTL, 27, 27⟩
abbrev FWU_CFG : Reg := ⟨0x1200044, 0x19⟩
abbrev FWU_CFG_HOST_LOCK : Fld := ⟨FWU_CFG, 31, 31⟩
abbrev FWU_CFG_ORIG_DIR : Fld := ⟨FWU_CFG, 30, 30⟩
abbrev FWU_CFG_ALIVE_MS : Fld := ⟨FWU_CFG, 4, 0⟩
abbrev FWU_STATUS : Reg := ⟨0x120004c, 0x0⟩
abbrev FWU_STATUS_RUNNING_SLOT : Fld := ⟨FWU_STATUS, 31, 31⟩
abbrev FWU_STATUS_RECOVERY : Fld := ⟨FWU_STATUS, 30, 30⟩
abbrev FWU_STATUS_STORING : Fld := ⟨FWU_STATUS, 29, 29⟩
abbrev FWU_STATUS_PRELOADED : Fld := ⟨FWU_STATUS, 28, 28⟩
abbrev FWU_STATUS_ACTIVATING : Fld := ⟨FWU_STATUS, 27, 27⟩
abbrev FWU_STATUS_LAST_ACT : Fld := ⟨FWU_STATUS, 26, 24⟩
abbrev FWU_STATUS_REFUSE : Fld := ⟨FWU_STATUS, 23, 20⟩
abbrev FWU_STATUS_CHECK : Fld := ⟨FWU_STATUS, 19, 16⟩
abbrev FWU_STATUS_HE_LOCK : Fld := ⟨FWU_STATUS, 9, 8⟩
abbrev FWU_STATUS_ROLLBACK : Fld := ⟨FWU_STATUS, 6, 0⟩
abbrev FWU_SLOTs_INFOk (s k : Nat) : Reg := ⟨0x1200050 + 0x10 * s + 0x4 * k, 0x0⟩
abbrev FWU_ACT : Reg := ⟨0x1200070, 0x0⟩
abbrev FWU_ACT_REQ : Fld := ⟨FWU_ACT, 31, 31⟩
abbrev FWU_ACT_SLOT : Fld := ⟨FWU_ACT, 0, 0⟩
abbrev FWU_DRAM_BASE : Reg := ⟨0x1200074, 0xfc000000⟩
abbrev FWU_DRAM_BASE_BASE : Fld := ⟨FWU_DRAM_BASE, 31, 26⟩
abbrev FWU_ORIG_ADDR : Reg := ⟨0x1200078, 0x0⟩
abbrev FWU_ORIG_ADDR_ADDR : Fld := ⟨FWU_ORIG_ADDR, 31, 12⟩
abbrev FWU_ORIG_LEN : Reg := ⟨0x120007c, 0x400⟩
abbrev FWU_MIG : Reg := ⟨0x1200080, 0x0⟩
abbrev FWU_MIG_RECORDS : Fld := ⟨FWU_MIG, 31, 16⟩
abbrev FWU_MIG_CLAMPED : Fld := ⟨FWU_MIG, 15, 0⟩
abbrev FWU_ACTIVATIONS : Reg := ⟨0x12000a0, 0x0⟩
abbrev FWU_ACT_REFUSED : Reg := ⟨0x12000a4, 0x0⟩
abbrev FWU_CHECK_FAIL : Reg := ⟨0x12000a8, 0x0⟩
abbrev FWU_STORE_FAIL : Reg := ⟨0x12000ac, 0x0⟩
abbrev FWU_REC_BAD : Reg := ⟨0x12000b0, 0x0⟩
abbrev FWU_REC_NEWER : Reg := ⟨0x12000b4, 0x0⟩
abbrev FWU_COMPACT : Reg := ⟨0x12000b8, 0x0⟩
abbrev FWU_EVT : Reg := ⟨0x12000c0, 0x0⟩
abbrev FWU_EVT_EVENT : Fld := ⟨FWU_EVT, 5, 0⟩
abbrev FWU_EVT_EN : Reg := ⟨0x12000c4, 0x3f⟩
abbrev FWU_EVT_EN_EVENT : Fld := ⟨FWU_EVT_EN, 5, 0⟩
/-! ### CRS (spec/22 R409, R410) -/
abbrev CRS_CFG : Reg := ⟨0x1300040, 0xf8000020⟩
abbrev CRS_CFG_EN_E : Fld := ⟨CRS_CFG, 31, 31⟩
abbrev CRS_CFG_EN_W : Fld := ⟨CRS_CFG, 30, 30⟩
abbrev CRS_CFG_RELAY_E : Fld := ⟨CRS_CFG, 29, 29⟩
abbrev CRS_CFG_RELAY_W : Fld := ⟨CRS_CFG, 28, 28⟩
abbrev CRS_CFG_STORE : Fld := ⟨CRS_CFG, 27, 27⟩
abbrev CRS_CFG_RESCUE_EN : Fld := ⟨CRS_CFG, 26, 26⟩
abbrev CRS_CFG_HOPS : Fld := ⟨CRS_CFG, 7, 0⟩
abbrev CRS_ADDR_LO : Reg := ⟨0x1300044, 0x0⟩
abbrev CRS_ADDR_HI : Reg := ⟨0x1300048, 0x0⟩
abbrev CRS_ADDR_HI_ADDR : Fld := ⟨CRS_ADDR_HI, 15, 0⟩
abbrev CRS_LINKk_STATUS (k : Nat) : Reg := ⟨0x1300050 + 0x10 * k, 0x0⟩
abbrev CRS_LINKk_STATUS_UP (k : Nat) : Fld := ⟨CRS_LINKk_STATUS k, 31, 31⟩
abbrev CRS_LINKk_STATUS_AN_DONE (k : Nat) : Fld := ⟨CRS_LINKk_STATUS k, 30, 30⟩
abbrev CRS_LINKk_STATUS_RELAY_IN (k : Nat) : Fld := ⟨CRS_LINKk_STATUS k, 29, 29⟩
abbrev CRS_LINKk_STATUS_RELAY_OUT (k : Nat) : Fld := ⟨CRS_LINKk_STATUS k, 28, 28⟩
abbrev CRS_LINKk_STATUS_NEXT (k : Nat) : Fld := ⟨CRS_LINKk_STATUS k, 15, 0⟩
abbrev CRS_LINKk_PEER_LO (k : Nat) : Reg := ⟨0x1300054 + 0x10 * k, 0x0⟩
abbrev CRS_LINKk_PEER_HI (k : Nat) : Reg := ⟨0x1300058 + 0x10 * k, 0x0⟩
abbrev CRS_RX_OTHER : Reg := ⟨0x1300080, 0x0⟩
abbrev CRS_PDU_BAD : Reg := ⟨0x1300084, 0x0⟩
abbrev CRS_BLK_BAD : Reg := ⟨0x1300088, 0x0⟩
abbrev CRS_RELAY_ABORT : Reg := ⟨0x130008c, 0x0⟩
abbrev CRS_RESCUE : Reg := ⟨0x1300090, 0x0⟩
abbrev CRS_EVT : Reg := ⟨0x13000c0, 0x0⟩
abbrev CRS_EVT_EVENT : Fld := ⟨CRS_EVT, 2, 0⟩
abbrev CRS_EVT_EN : Reg := ⟨0x13000c4, 0x7⟩
abbrev CRS_EVT_EN_EVENT : Fld := ⟨CRS_EVT_EN, 2, 0⟩
/-! ### CNT (spec/23 R420) -/
abbrev CNT_CFG : Reg := ⟨0x1400040, 0x3e8⟩
abbrev CNT_CFG_TLM_EN : Fld := ⟨CNT_CFG, 31, 31⟩
abbrev CNT_CFG_BW_WIN : Fld := ⟨CNT_CFG, 13, 0⟩
abbrev CNT_TLM_CFG : Reg := ⟨0x1400044, 0x10004⟩
abbrev CNT_TLM_CFG_EVERY : Fld := ⟨CNT_TLM_CFG, 23, 16⟩
abbrev CNT_TLM_CFG_VEC : Fld := ⟨CNT_TLM_CFG, 13, 8⟩
abbrev CNT_TLM_CFG_TLM_LOG : Fld := ⟨CNT_TLM_CFG, 3, 0⟩
abbrev CNT_TLM_BASE_LO : Reg := ⟨0x1400048, 0x0⟩
abbrev CNT_TLM_BASE_LO_ADDR : Fld := ⟨CNT_TLM_BASE_LO, 31, 12⟩
abbrev CNT_TLM_BASE_HI : Reg := ⟨0x140004c, 0x0⟩
abbrev CNT_TLM_SEQ : Reg := ⟨0x1400050, 0x0⟩
abbrev CNT_CTL : Reg := ⟨0x1400054, 0x0⟩
abbrev CNT_CTL_CLEAR : Fld := ⟨CNT_CTL, 31, 31⟩
abbrev CNT_CTL_ALL : Fld := ⟨CNT_CTL, 30, 30⟩
abbrev CNT_CTL_INDEX : Fld := ⟨CNT_CTL, 11, 0⟩
abbrev CNT_BW_END_SEC : Reg := ⟨0x1400058, 0x0⟩
abbrev CNT_BW_END_NS : Reg := ⟨0x140005c, 0x0⟩
abbrev CNT_BW_END_NS_NS : Fld := ⟨CNT_BW_END_NS, 29, 0⟩
abbrev CNT_BW_INFO : Reg := ⟨0x1400060, 0x0⟩
abbrev CNT_BW_INFO_STEPPED : Fld := ⟨CNT_BW_INFO, 31, 31⟩
abbrev CNT_BW_INFO_BW_WIN : Fld := ⟨CNT_BW_INFO, 13, 0⟩
abbrev CNT_EVT : Reg := ⟨0x1400070, 0x0⟩
abbrev CNT_EVT_EVENT : Fld := ⟨CNT_EVT, 2, 0⟩
abbrev CNT_EVT_EN : Reg := ⟨0x1400074, 0x3⟩
abbrev CNT_EVT_EN_EVENT : Fld := ⟨CNT_EVT_EN, 2, 0⟩
abbrev CNT_SAT_COUNT : Reg := ⟨0x1400080, 0x0⟩
abbrev CNT_READ_DENIED : Reg := ⟨0x1400084, 0x0⟩
abbrev CNT_TLM_ERR : Reg := ⟨0x1400088, 0x0⟩
abbrev CNT_SELc (c : Nat) : Reg := ⟨0x1410000 + 0x8 * c, 0x0⟩
abbrev CNT_SELc_MODE (c : Nat) : Fld := ⟨CNT_SELc c, 31, 30⟩
abbrev CNT_SELc_OWNER (c : Nat) : Fld := ⟨CNT_SELc c, 29, 25⟩
abbrev CNT_SELc_OCC_SRC (c : Nat) : Fld := ⟨CNT_SELc c, 24, 23⟩
abbrev CNT_SELc_SAT (c : Nat) : Fld := ⟨CNT_SELc c, 22, 22⟩
abbrev CNT_SELc_ARG (c : Nat) : Fld := ⟨CNT_SELc c, 13, 0⟩
abbrev CNT_THRc (c : Nat) : Reg := ⟨0x1410004 + 0x8 * c, 0x0⟩
abbrev CNT_THRc_N (c : Nat) : Fld := ⟨CNT_THRc c, 18, 0⟩
abbrev CNT_VALc_LO (c : Nat) : Reg := ⟨0x1420000 + 0x8 * c, 0x0⟩
abbrev CNT_VALc_HI (c : Nat) : Reg := ⟨0x1420004 + 0x8 * c, 0x0⟩
abbrev CNT_BWp_RX_LO (p : Nat) : Reg := ⟨0x1440000 + 0x10 * p, 0x0⟩
abbrev CNT_BWp_RX_HI (p : Nat) : Reg := ⟨0x1440004 + 0x10 * p, 0x0⟩
abbrev CNT_BWp_TX_LO (p : Nat) : Reg := ⟨0x1440008 + 0x10 * p, 0x0⟩
abbrev CNT_BWp_TX_HI (p : Nat) : Reg := ⟨0x144000c + 0x10 * p, 0x0⟩

end Sys2Proof.Machine
end

