-- ==== Sys2Proof/Machine/State.lean ====
section
/-!
DEFINITION. Machine/State.lean: everything the spec gives the block, as plain data: the register words, what lies behind
the registers, the memories, and the queue of commands that wait. Fault, Refusal and the state after reset stand here too.
-/

namespace Sys2Proof.Machine

/-! ### What the block sends out of itself -/

/-- One thing the block has sent: read data, an interrupt message, a burst, a frame, a pin edge. The list of them stands
for the wires of the block; nothing in the block reads it. -/
inductive Out where
  /-- the data of a BAR0 read: the reader, the offset, the word -/
  | readData (m ofs : Nat) (w : Word)
  /-- an MSI-X message: function, vector, address, data (R317) -/
  | msix (f vec addr data : Nat)
  /-- an event for firmware on a control core: the core's master ID and the bit of R335 (R78) -/
  | coreEvent (m bit : Nat)
  /-- a PDU on a Course link: 0 east, 1 west; its bytes from the VERSION byte on (R390) -/
  | course (k : Nat) (pdu : List Byte)
  /-- a burst on an upstream channel of a line: whether BEN was high from its step 1 to its end, its 64-bit blocks from the first
  preamble block to the terminator (R152), and the levels the lane sends for them (R82, R83) -/
  | burst (x : Line) (chan : Nat) (lit : Bool) (blocks levels : List Nat)
  /-- far-end loopback: what receive lane k gets, as the bits its own settings make of it, retimed onto transmit lane k without
  demapping (R97, R98) -/
  | retimed (x : Line) (k : Nat) (bits : List Bool)
  /-- a write-and-commit of Voltage, in mV, to a rail of the AVSBus (R368) -/
  | avs (rail mv : Nat)
  /-- the base page that a server lane sends (R217): its technology bits, CR of 10G to 100G in bits 3:0 and KR in bits 7:4, F3:F0, C1:C0 -/
  | basePage (k tech fec pause : Nat)
  /-- a frame on a server lane: its bytes from the destination address through the FCS (R227) -/
  | frame (k : Nat) (bytes : List Byte)
  /-- a write to host memory with a function's requester ID: address and bytes (R331, R346, R418) -/
  | hostWrite (f addr : Nat) (bytes : List Byte)
  /-- an edge of a time output: the level and the instant in ps of device time (R310) -/
  | tout (o : Nat) (level : Bool) (ps : Nat)
  /-- the answer to a PCIe configuration request: Configuration Request Retry Status or not (R428) -/
  | config (f : Nat) (retry : Bool)
  /-- wake signalling to the USB4 host on U4_SBTX (R372) -/
  | usbWake
deriving DecidableEq, Repr

/-! ### Timers (R7): elapsed time, counted in ticks of the selected reference -/

/-- What a running timer is for. -/
inductive TimerId where
  /-- 384 ms without an offset (R48) -/
  | domain (x : Line)
  /-- 128 ms after an accepted offset (R51) -/
  | prop
  /-- module reset, initialisation and recheck of a line's module (R91, R92) -/
  | modReset (x : Line) | modInit (x : Line) | modRecheck (x : Line)
  /-- ANN_TO, RNG_TO and HOLD_TO of a line (R134) and the wait for bonding after a wake (R146) -/
  | annTo (x : Line) | rngTo (x : Line) | holdTo (x : Line) | wakeBond (x : Line)
  /-- AN_TO, TRAIN_TO, LINK_TO and CAP_MS of server lane k, and LINK_TO under HI_BER (R215) -/
  | laneAn (k : Nat) | laneTrain (k : Nat) | laneLink (k : Nat) | laneCap (k : Nat) | laneBer (k : Nat)
  /-- FLUSH_MS of a server port out of ACTIVE (R291) -/
  | portFlush (k : Nat)
  /-- the core watchdog (R426), the home preference (R431) and the release of R427 -/
  | wdt | homeWait | bootRelease
deriving DecidableEq, Repr

/-! ### Keystone (spec/03) -/

/-- An offset delivered by TTD and not yet evaluated: x in units of 2^-48 ns and the phase that had been added to
device time up to the stamped FAW of its anchor (R47, R49). -/
structure Offset where
  x : Int
  phase : Int
deriving DecidableEq, Repr

/-- What Keystone holds for a domain beside its registers: the reference offset and the phase at its anchor (R49), the
last offset of the qualification run (R50), when the reference offset was accepted, and candidacy (R58). -/
structure Domain where
  xref : Int
  xrefPhase : Int
  lastX : Int
  lastPhase : Int
  acceptedAt : Option Nat
  lastAt : Option Nat
  candidate : Bool
  blocked : Bool
  waiting : Option Offset
deriving DecidableEq, Repr

/-- Keystone's internal state: the correction c and the integral i in units of 2^-64, the slewer's residual b in units
of 2^-48 ns, the phase added to device time by the proportional path, the slewer and the steps, the last 64 integral
values (R57), the exit and acquisition domains with the forced and suspended marks (R56), the two domains, the mark of
HOLD_AGED, the capture that waits for the next tick (R42), how long REF25 has been healthy, in units of 2^-40 of its period
(R467), whether a reference runs (R63, R422), how many steps were made and the tick of the last (R59, R75). -/
structure Keystone where
  c : Int
  i : Int
  b : Int
  phase : Int
  iHist : List Int
  exitDom : Option Line
  acqDom : Option Line
  forced : Bool
  suspended : Bool
  dom : PerLine Domain
  holdFrom : Option Nat
  holdAged : Bool
  capture : Bool
  refGood : Option Nat
  refsRunning : Bool
  steps : Nat
  stepTick : Option Nat
deriving DecidableEq, Repr

/-- A second boundary that has been reached (R124): the second that ended there plus one, and whether a step of device time passed
over it. -/
structure SecMark where
  ended : Nat
  stepped : Bool
deriving DecidableEq, Repr

/-- No boundary waits. -/
def SecMark.none : SecMark := { ended := 0, stepped := false }

/-! ### Timed commits (spec/04) -/

/-- When a commit is due (R70, R72): a device time in ns, or a frame counter of a line. -/
inductive Due where
  | time (ns : Nat)
  | frame (x : Line) (n : Nat)
deriving DecidableEq, Repr

/-- A pending commit: what its slots hold in every named unit (R69), its poster, when it was posted, whether it is
late (R71), whether a step has passed over it (R61), whether it fell due in a tick that a backward step then moved back (R75), and
for a frame anchor the stamp of frame N once taken, in units of 2^-16 ns, the tick from which it is due (R72), and whether its frame
has been passed over (R73). -/
structure Commit where
  id : Nat
  poster : Nat
  units : Nat
  due : Due
  notify : Bool
  words : List (Nat × Word)
  seq : Nat
  postedAt : Nat
  late : Bool
  stepped : Bool
  fallen : Bool
  frameAt : Option Nat
  dueTick : Nat
  passed : Bool
deriving DecidableEq, Repr

/-- An entry of the result log (R78). -/
structure CommitEntry where
  id : Nat
  poster : Nat
  outcome : Nat
  unitBit : Nat
  units : Nat
  sec : Nat
  ns : Nat
deriving DecidableEq, Repr

/-- An entry of the clamp log (R32). -/
structure ClampEntry where
  kind : Nat
  inst : Nat
  writer : Nat
  width : Nat
  lsb : Nat
  ofs : Nat
  written : Nat
  applied : Nat
  sec : Nat
  ns : Nat
  seq : Nat
deriving DecidableEq, Repr

def Domain.reset : Domain :=
  { xref := 0, xrefPhase := 0, lastX := 0, lastPhase := 0, acceptedAt := none, lastAt := none, candidate := false,
    blocked := false, waiting := none }

def Keystone.reset : Keystone :=
  { c := 0, i := 0, b := 0, phase := 0, iHist := [], exitDom := none, acqDom := none, forced := false,
    suspended := false, dom := ⟨Domain.reset, Domain.reset⟩, holdFrom := none, holdAged := false, capture := false,
    refGood := none, refsRunning := false, steps := 0, stepTick := none }

/-- A D0 FAW stamp of a line (R118): the FRAME it belongs to, the stamp, the phase Keystone had added to device time by
then (R49), the elapsed tick, the first tick at or after the stamp (R72), the ANCHOR bit, whether the FSB was good, and the steps of
device time made by then. -/
structure FawStamp where
  frame : Nat
  stamp : Stamp
  phase : Int
  tick : Nat
  dueTick : Nat
  anchor : Bool
  good : Bool
  steps : Nat
deriving DecidableEq, Repr

/-- A candidate of a channel that hunts (R110, R111): its symbol boundary in the 6,640,000-bit grid, the FRAME of its last match,
the frames it has survived, and the tick of its last match. -/
structure Candidate where
  pos : Nat
  frame : Nat
  cnt : Nat
  seen : Nat
deriving DecidableEq, Repr

/-- What DSF holds for a channel beside its registers: its candidates (R110), its frame counter and the GROUP_ID it last showed
(R111, R115), the runs of good FSBs with AIS set and clear (R119), and its accumulators of the present second (R124). -/
structure ChanHw where
  cands : List Candidate
  frame : Nat
  group : Nat
  aisSet : Nat
  aisClear : Nat
  fawErr : Nat
  fsbCrc : Nat
  fecCorr : Nat
  fecUncorr : Nat
  grantCrc : Nat
deriving DecidableEq, Repr

def ChanHw.reset : ChanHw :=
  { cands := [], frame := 0, group := 0, aisSet := 0, aisClear := 0, fawErr := 0, fsbCrc := 0, fecCorr := 0, fecUncorr := 0,
    grantCrc := 0 }

/-- A frame of a channel in SYNC, kept until every channel of the set has sent its own (R115, R117): its FRAME, whether its FSB
was good and used, whether the counter jumped, its arrival relative to D0 in ns, SR1 and SR2 where used, its grant entries and how many
more failed their CRC-8, and whether the D0 FAW was stamped. -/
structure FsbRx where
  chan : Nat
  frame : Nat
  good : Bool
  jump : Bool
  skew : Int
  sr : Option Nat
  entries : List Nat
  bad : Nat
  stamped : Bool
deriving DecidableEq, Repr

/-- A codeword in a channel's deskew store (R109, R116): its channel, frame and index, its 5,140 data bits, and its error mark. -/
structure Codeword where
  chan : Nat
  frame : Nat
  index : Nat
  data : Nat
  mark : Bool
deriving DecidableEq, Repr

/-- What DSF holds for a line beside its registers: its channels, the frames of the present round, the tick of the first of them and
whether their content has been taken, the run of frames that meet R115, the run and value of the switching-request filter (R123), the run
of the wake-pattern detector (R233), the line's frames so far (R7), and the deskew stores with what of them is still read (R116). -/
structure DsfHw where
  chans : Sparse ChanHw
  rx : List FsbRx
  rxTick : Nat
  rxTaken : Bool
  bondRun : Nat
  srRun : Nat
  srValue : Nat
  wakeRun : Nat
  frames : Nat
  words : List Codeword
deriving DecidableEq, Repr

def DsfHw.reset : DsfHw :=
  { chans := [], rx := [], rxTick := 0, rxTaken := false, bondRun := 0, srRun := 0, srValue := 0, wakeRun := 0, frames := 0,
    words := [] }

/-- A host transfer on the module bus that has not finished (R93). -/
structure ModXfer where
  write : Bool
  page : Nat
  ofs : Nat
  data : Nat
deriving DecidableEq, Repr

/-- What a line lane unit holds beside its registers: the identity check in progress with the failures of its page write
and of its read so far (R89), the host transfer (R93), the level of the module reset pin (R91), whether the module presence
pin is low and whether it has been for 10 ms (R91), where each transmit lane stands in its burst (R86), and since when each
receive lane has, or has not, had both indications (R119). -/
structure LineHw where
  checking : Bool
  tryPage : Nat
  tryRead : Nat
  xfer : Option ModXfer
  modReset : Bool
  pinLow : Bool
  heldLow : Bool
  benPhase : Sparse Nat
  laneSince : Sparse Nat
deriving DecidableEq, Repr

def LineHw.reset : LineHw :=
  { checking := false, tryPage := 0, tryRead := 0, xfer := none, modReset := true, pinLow := false, heldLow := false,
    benPhase := [], laneSince := [] }

/-- Where a checker stands (R101): its copy of the sequence's last bits, how many of them it has taken in, the error-free bits in a
row before lock, and since lock its place in the aligned interval of 1,024 bits and the errors in it. -/
structure ChkHw where
  reg : Nat
  fill : Nat
  run : Nat
  place : Nat
  errs : Nat
deriving DecidableEq, Repr

def ChkHw.reset : ChkHw := { reg := 0, fill := 0, run := 0, place := 0, errs := 0 }

/-- A line unit: its 64-bit header and its payload without padding (R170); whether a PTP correction was made in it (R305), and its
number in staging order (R164). -/
structure LineUnit where
  hdr : Nat
  payload : List Byte
  tc : Bool
  seq : Nat
deriving DecidableEq, Repr

/-- What UPB took from the Narrows, or put in its place, for a burst: the bytes sent. -/
structure SentUnit where
  bytes : List Byte
  filler : Bool
deriving DecidableEq, Repr

/-- An accepted grant (R150, R161): the frame of its map, its channel, start, length and profile, its flags, its ALLOC_ID and
the NRW entry it binds (none for the management allocation), its preamble length and word, the equalization delay of its map
(R151), its floor, whether it has entered the horizon, whether
its floor is reserved and whether it was counted as waiting, whether it is complete, the granules it has held in all, the
units staged for it and those sent, whether step 3 of R166 has passed, whether the burst is dark (R96), the occupancy and shortfall
sampled for its header (R155), and the header's blocks once it has gone out (R154). -/
structure Grant where
  frame : Nat
  chan : Nat
  start : Nat
  len : Nat
  profile : Nat
  report : Bool
  keepalive : Bool
  alloc : Nat
  entry : Option Nat
  pre : Nat
  preWord : Nat
  eqd : Nat
  floor : Nat
  horizon : Bool
  reserved : Bool
  waited : Bool
  complete : Bool
  granules : Nat
  staged : List LineUnit
  sent : List SentUnit
  risen : Bool
  dark : Bool
  occ : Nat
  short : Nat
  head : Option (List Nat)
deriving DecidableEq, Repr

/-- Line units that wait for a later grant of their allocation, with the count of the line's frames at which they have waited 32
(R164). -/
structure Carry where
  unit : LineUnit
  until' : Nat
deriving DecidableEq, Repr

/-- The place of an accepted grant on the block grid (R150 check 5). -/
structure GrantPlace where
  frame : Nat
  chan : Nat
  start : Nat
  pre : Nat
  len : Nat
  eqd : Nat
deriving DecidableEq, Repr

/-- UPB's state for a line beside its registers: the grants accepted and not yet finished in acceptance order, the places of all
grants accepted for the last maps (R150), the
shortfall blocks of each NRW entry since its last sent report (R155), where each lane's last burst ended, in symbols of the
line's frame grid, and whether the line has left Operate and Standby in this tick, so that what is staged for it waits for the
Saddle's evaluation (R164, R205). -/
structure UpHw where
  grants : List Grant
  accepted : List GrantPlace
  shortSince : Sparse Nat
  lastEnd : Sparse Nat
  leaving : Bool
deriving DecidableEq, Repr

def UpHw.reset : UpHw := { grants := [], accepted := [], shortSince := [], lastEnd := [], leaving := false }

/-- A burst to answer a response grant (R135, R139): its channel, profile and ALLOC_ID, the random delay in blocks of a serial
number announce (none for a ranging response), the frame that carried the grant. -/
structure Response where
  chan : Nat
  profile : Nat
  alloc : Nat
  delay : Option Nat
  frame : Nat
deriving DecidableEq, Repr

/-- An equalization delay that waits for its APPLY_FRAME (R141), with the RANGE_ACK to queue then and how often its RANGE_RESULT was
repeated meanwhile (R128). -/
structure EqdWait where
  chan : Nat
  eqd : Nat
  rtd : Nat
  frame : Nat
  ack : List Byte
  again : Nat
deriving DecidableEq, Repr

/-- A round-trip delay received for a channel, with its frame (R143). -/
structure RtdSeen where
  chan : Nat
  rtd : Nat
  frame : Nat
deriving DecidableEq, Repr

/-- What RNG holds for a line beside its registers: the state to return to from Hold (R134), the SEQ of the last addressed
message executed (R128), the upstream messages that wait (R131), the messages that wait for firmware (R126), whether LAST was
received (R134), delays that wait (R141), the round-trip delays seen, newest first (R143), the response to send and the frame
last answered (R137), the sleep exchange with the count of the line's frames at which it began (R145), the second in which the lease
began, and the last RANGE_ACK of each channel (R128). -/
structure RngHw where
  heldState : Nat
  lastSeq : Option Nat
  seqOut : Nat
  queue : List (List Byte)
  waiting : List Instr
  lastSeen : Bool
  eqdWait : List EqdWait
  rtds : List RtdSeen
  response : Option Response
  answered : Option Nat
  asked : Bool
  acked : Option Bool
  askedAt : Nat
  leaseFrom : Nat
  acks : Sparse (List Byte)
deriving DecidableEq, Repr

def RngHw.reset : RngHw :=
  { heldState := 0, lastSeq := none, seqOut := 0, queue := [], waiting := [], lastSeen := false, eqdWait := [], rtds := [],
    response := none, answered := none, asked := false, acked := none, askedAt := 0, leaseFrom := 0, acks := [] }

/-- What the Saddle keeps for a line's health report: the count of the line's frames at its last accepted grant, the grants accepted
in this second, whether a burst was suppressed in it (R200). -/
structure SdlLine where
  kaTick : Nat
  kaCount : Nat
  suppr : Bool
deriving DecidableEq, Repr

def SdlLine.reset : SdlLine := { kaTick := 0, kaCount := 0, suppr := false }

/-- What the Saddle keeps beside its registers: the tick t_s of the switch in progress, the first frame of the new line whose map has
been checked since (R205), the downstream gap in µs once known, whether the role moved away from L-A in a way that a
wait-to-restore undoes and whether L-A has lost it to Listen since (R207), whether the wait is over, whether the evaluation of the present tick has been made (R466), and the requests that have
been counted as blocked (R203). -/
structure Saddle where
  swTick : Nat
  swMap : Option Nat
  swDown : Option Nat
  away : Bool
  lost : Bool
  wtrOver : Bool
  evaluated : Bool
  blocked : List (Nat × Nat × Nat)
deriving DecidableEq, Repr

def Saddle.reset : Saddle :=
  { swTick := 0, swMap := none, swDown := none, away := false, lost := false, wtrOver := false, evaluated := false, blocked := [] }

/-- Where a frame came from (R273): a server lane, a line, a host transmit ring, or the port's own clock (R301). -/
inductive Source where
  | lane (p : Nat)
  | line (x : Line)
  | host (ring : Nat)
  | own (p : Nat)
deriving DecidableEq, Repr

/-- What travels with a frame for the time units (R239, R299, R305): the offset of its PTP header, the offsets of the UDP
headers that hold it with a mark for IPv6, its receive stamp in units of 2^-16 ns, TIME_TAGGED, and its time operation. -/
structure TimeInfo where
  ptp : Option Nat
  udps : List (Nat × Bool)
  stamp : Option Nat
  tagged : Bool
  op : Nat
deriving DecidableEq, Repr

def TimeInfo.none : TimeInfo := { ptp := .none, udps := [], stamp := .none, tagged := false, op := 0 }

/-- A frame in the buffer of the traffic manager (R272): its bytes through the FCS, its source and ingress priority, the pool
its cells came from (0 floor, 1 shared, 2 headroom), its upstream flow tag and key page, what the time units need, the launch
instant of a Sync in ns (R302), the host transmit entry it came from, the frame's endpoint and metadata for a host ring. -/
structure BufFrame where
  bytes : List Byte
  src : Source
  pri : Nat
  pool : Nat
  tag : Nat
  page : Nat
  time : TimeInfo
  launch : Option Nat
  tx : Option (Nat × Nat)
  flags : Nat
  endpoint : Nat
deriving DecidableEq, Repr

/-- A weighted queue's tags and the counts of a queue (R282, R294): start tag, finish tag, whether it was eligible when last
looked at, frames dropped and sent. -/
structure QState where
  s : Nat
  g : Nat
  ready : Bool
  drops : Nat
  sent : Nat
deriving DecidableEq, Repr

def QState.reset : QState := { s := 0, g := 0, ready := false, drops := 0, sent := 0 }

/-- A key slot beside its registers (R185, R188): the installed key, the words written since the last LOAD or CLEAR with the
mark of each, and the failures in a row. A line's bootstrap key (R192) is held in the same form. -/
structure KeySlot where
  key : BitVec 256
  words : BitVec 256
  written : BitVec 8
  fails : Nat
deriving DecidableEq, Repr

def KeySlot.empty : KeySlot := { key := 0, words := 0, written := 0, fails := 0 }

/-- A reassembly context (R177): its flow tag, the frame bytes so far, the tick in which it opened, TIME_TAGGED, and the instant of
its first unit in units of 2^-16 ns (R305). -/
structure Context where
  tag : Nat
  bytes : List Byte
  opened : Nat
  tagged : Bool
  stamp : Option Nat
deriving DecidableEq, Repr

/-- ENC's receive side of a line beside its registers (R173, R177): the frame and the word of its payload stream at which the next
header is looked for, the word of the candidate in PRESYNC, the
contexts, and the tags whose units are dropped up to the next LAST. -/
structure EncHw where
  frame : Nat
  next : Nat
  cand : Nat
  ctxs : List Context
  dropping : List Nat
deriving DecidableEq, Repr

def EncHw.reset : EncHw := { frame := 0, next := 0, cand := 0, ctxs := [], dropping := [] }

/-- A frame on its way to the parser (R236): its bytes, its source, whether it is an MLP OAM message (its bytes then carry an FCS that no one
checks, as every frame does), its flow tag where it
came from a line, TIME_TAGGED, and its receive stamp in units of 2^-16 ns (R299, R305). -/
structure RxFrame where
  bytes : List Byte
  src : Source
  oam : Bool
  tag : Nat
  tagged : Bool
  stamp : Option Nat
deriving DecidableEq, Repr

/-- What an accepted anchor says of the head end's grandmaster (R295, R296): FLAGS, GM_CLASS, UTC_OFFSET, GM_ACCURACY, STEPS,
GM_VARIANCE and GM_IDENTITY. -/
structure AnchorSet where
  flags : BitVec 8
  gmClass : BitVec 8
  utc : BitVec 16
  accuracy : BitVec 8
  steps : BitVec 8
  variance : BitVec 16
  identity : BitVec 64
deriving DecidableEq, Repr

def AnchorSet.reset : AnchorSet :=
  { flags := 0, gmClass := 0, utc := 0, accuracy := 0, steps := 0, variance := 0, identity := 0 }

/-- A relay in progress (R393 to R395): IMAGE_ID, IMAGE_LEN and BLOCKS; the link it comes in on (0 east, 1 west; none where the
device originates it from DRAM) and the link it goes out on; HOPS_LEFT sent on; whether the image is being stored; the next
block to accept and when it was accepted; accepted blocks since the last ACK; the CRC over the bytes accepted; blocks
programmed, and whether each was read back correctly; the next block to send, NEXT as acknowledged downstream and the tick in
which it advanced; resends without progress; the tick of the last NAK and of the last word from upstream; accepted blocks
that are still held; the CRC of RELAY_END. -/
structure Relay where
  image : Nat
  len : Nat
  blocks : Nat
  src : Option Nat
  dst : Option Nat
  hops : Nat
  store : Bool
  next : Nat
  acceptedAt : Nat
  sinceAck : Nat
  crc : Nat
  programmed : Nat
  good : Bool
  sent : Nat
  acked : Nat
  advancedAt : Nat
  resends : Nat
  nakAt : Option Nat
  heardAt : Nat
  held : List (Nat × List Byte)
  ended : Option Nat
deriving DecidableEq, Repr

/-- What FWU holds beside its registers (R396 to R407): the relay; the copy that a PRELOAD makes, and the slot it copies; the
slot of the activation in progress, whether its core sections are loaded, and the tick in which it began; the digest of the
manufacture key; whether a SAVE waits for the control cores, the source of a CORE reset that waits for the end of the activation, and whether the
image has started and has yet to apply the records. -/
structure FwuHw where
  relay : Option Relay
  preloading : Option Nat
  preSlot : Nat
  actSlot : Nat
  actLoaded : Bool
  actFrom : Nat
  keyDigest : List Byte
  saveWait : Bool
  coreHeld : Option Nat
  recordsDue : Bool
deriving DecidableEq, Repr

def FwuHw.reset : FwuHw :=
  { relay := none, preloading := none, preSlot := 0, actSlot := 0, actLoaded := false, actFrom := 0, keyDigest := [],
    saveWait := false, coreHeld := none, recordsDue := false }

/-- A server lane beside its registers: the CFG and ADV words in use past DETECT (R215), receiver detections in a row and the tick of
the next common-mode step (R216), the speed and FEC it works with and the pause it resolved, transmit and receive, as CAP
applies them (R217, R218), whether training has set its taps (R224), the fill of its elastic store and whether the frame in
progress is ended with an error (R213), the tick in which it left ACTIVE (R226), the sync headers seen last, newest first,
and the bit positions it has slipped (R219). -/
structure LaneHw where
  cfg : Word
  adv : Word
  hits : Nat
  probeAt : Nat
  speed : Nat
  fec : Nat
  pause : Bool × Bool
  trained : Bool
  fill : Nat
  cut : Bool
  left' : Option Nat
  headers : List Bool
  slip : Nat
deriving DecidableEq, Repr

def LaneHw.reset : LaneHw :=
  { cfg := 0x6F000000, adv := 0x15F, hits := 0, probeAt := 0, speed := 0, fec := 0, pause := (false, false), trained := false, fill := 16,
    cut := false, left' := none, headers := [], slip := 0 }

/-- A pause timer (R230, R232): the instant at which it reaches 0, in ps of elapsed time, and the tick since which it has been
nonzero without a break, and the instant in ps from which on frames that have not started are held. -/
structure PauseTimer where
  stop : Nat
  since : Nat
  held : Nat
deriving DecidableEq, Repr

/-- A server MAC beside its registers: the frame in its transmit buffer (R225) and its class, its pause timers and the ends of its ignore periods
(R230, R232), with key 0 for the port and 1 + p for priority p, and what flow control it is asked for and has asserted, with
the tick of the last frame for each (R231). -/
structure MacHw where
  tx : Option BufFrame
  cls : Nat
  timers : Sparse PauseTimer
  ignore : Sparse Nat
  asked : List Nat
  told : List Nat
  toldAt : Sparse Nat
deriving DecidableEq, Repr

def MacHw.reset : MacHw := { tx := none, cls := 0, timers := [], ignore := [], asked := [], told := [], toldAt := [] }

/-- Where a power sequence stands (R363 to R374, R427): idle; asking the unit of a step; switching the listed domains off; waiting
for the AVSBus of an entry; a trim change that asks units, each with the domain it is asked for, with those that have granted and
the domains to switch off and on; that switches off and then on; a wake that waits for the AVSBus, for the PLLs, that switches the
listed domains on, that waits for its end; a wake from Keep to Hush; a boot that waits for the AVSBus, for the PLLs, that switches
the listed domains on. -/
inductive PwrPhase where
  | idle
  | asking (k : Nat)
  | off (ds : List Nat)
  | entryAvs
  | trimAsk (todo done : List (Nat × Nat)) (off on : List Nat)
  | trimOff (off on : List Nat)
  | trimOn (on : List Nat)
  | wakeAvs
  | wakePll
  | wakeOn (ds : List Nat)
  | wakeEnd
  | keepAvs
  | keepOn (ds : List Nat)
  | bootAvs
  | bootPll
  | bootOn (ds : List Nat)
deriving DecidableEq, Repr

/-- What PWR holds beside its registers: its phase, the target of the sequence (0 RUN, 2 Hush, 3 Keep), the tick in which the
phase's unit was asked or its request made, attempts made, the sources latched during an entry and the target of a commit
that waits with them (R371), the domains the present wake has switched on, and thermal stop (R460). -/
structure PwrHw where
  phase : PwrPhase
  target : Nat
  since : Nat
  tries : Nat
  pend : Nat
  pendTarget : Nat
  wakeTarget : Nat
  switched : List Nat
  thermal : Bool
deriving DecidableEq, Repr

def PwrHw.reset : PwrHw :=
  { phase := .idle, target := 0, since := 0, tries := 0, pend := 0, pendTarget := 0, wakeTarget := 0, switched := [],
    thermal := false }

/-- What BST holds beside its registers (R380 to R387): the tick in which the last slice ended, that in which the running one began,
ticks spent in Full and Trim, what that count was at the end of each target's last round plus one, slices completed and aborted in
the present second, the last summary, units that an unrepairable memory makes not READY (R377, R462), and
segments of 65,536 endpoint entries that are lost (R377). -/
structure BstHw where
  endedAt : Option Nat
  beganAt : Nat
  awake : Nat
  rounds : Sparse Nat
  done : Nat
  cut : Nat
  summary : List Byte
  unready : List Nat
  lostSegs : List Nat
deriving DecidableEq, Repr

def BstHw.reset : BstHw :=
  { endedAt := none, beganAt := 0, awake := 0, rounds := [], done := 0, cut := 0, summary := [], unready := [],
    lostSegs := [] }

/-- The parse record of a frame (R239): the 320-bit keys of the two passes without PASS and scan results (R240, R241), the flow
keys of the two passes with ENDPOINT 0 (R258), the malformed cause, the offset of the first PTP header and whether it lies
inside a tunnel, the offsets of the UDP headers on the way, each with a mark for IPv6, and those of the IP headers, the outer first. -/
structure ParseRec where
  key1 : Nat
  key2 : Nat
  flow1 : List Byte
  flow2 : List Byte
  mal : Nat
  ptp : Option Nat
  inner : Bool
  udps : List (Nat × Bool)
  ips : List Nat
deriving DecidableEq, Repr

/-- A frame that the classifier holds (R239, R245): the frame, its record, its pipe, the first pass's epoch, scan result and
the tick since which it waits. -/
structure ClsFrame where
  frame : RxFrame
  parse : ParseRec
  pipe : Nat
  epoch : Nat
  since : Nat
  hit : Option Nat
  skipped : Bool
deriving DecidableEq, Repr

/-- A rule (R242): its KEY, MASK and action; a valid rule is listed in its bank. -/
structure Rule where
  key : Nat
  mask : Nat
  act : Nat
deriving DecidableEq, Repr

/-- A rule that no one has written: not valid. -/
def Rule.none : Rule := { key := 0, mask := 0, act := 0 }

/-- A payload pattern (R248): the CFG word, its data bytes and its mask bytes, byte 0 least significant. -/
structure Pattern where
  cfg : Word
  data : Nat
  mask : Nat
deriving DecidableEq, Repr

def Pattern.reset : Pattern := { cfg := 0x010001FF, data := 0, mask := 0 }

/-- A frame that Ashlar resolves (R256): the frame and record, the pass that named the endpoint, the endpoint, its entry as the one
read of it found it (R253), the rule's QCLASS where QOVR is set, and the rule's TIME_OP as it applies. -/
structure AshFrame where
  frame : RxFrame
  parse : ParseRec
  second : Bool
  endpoint : Nat
  entry : Nat
  qovr : Option Nat
  op : Nat
deriving DecidableEq, Repr

/-- A flow-cache miss (R262): the flow key, the tick in which it began, and the frames that wait, oldest first. -/
structure FlowMiss where
  key : List Byte
  since : Nat
  frames : List AshFrame
deriving DecidableEq, Repr

/-- A line of the flow cache (R261): the flow index it holds, the entry's 64 bytes, and whether it differs from DRAM. -/
structure CacheLine where
  index : Nat
  bytes : List Byte
  dirty : Bool
deriving DecidableEq, Repr

/-- A queued Ashlar command (R264, R328): opcode, tag, body, and the command ring and descriptor index it came from. -/
structure AshCmd where
  opcode : Nat
  tag : Nat
  body : List Byte
  entry : Option (Nat × Nat)
deriving DecidableEq, Repr

/-- A frame offered to admission (R276): the queue (16384 + r for host ring r), the frame, the policer that meters it, and the host
transmit entry whose completion reports the outcome. -/
structure TmOffer where
  queue : Nat
  frame : BufFrame
  policer : Option Nat
  entry : Option (Nat × Nat)
deriving DecidableEq, Repr

/-- A policer's or shaper's buckets as they stood at a tick (R283), in units of 1/6,553,600 byte. -/
structure Buckets where
  c : Int
  p : Int
  at' : Nat
deriving DecidableEq, Repr

/-- A copy of a gate list (R287): BASE in ns of device time, CYCLE in ns, COUNT, and the entries that differ from the staging
registers' reset values, each as gates and interval in ns. -/
structure GateList where
  base : Nat
  cycle : Nat
  cnt : Nat
  entries : Sparse (Nat × Nat)
deriving DecidableEq, Repr

def GateList.reset : GateList := { base := 0, cycle := 1000000, cnt := 1, entries := [] }

/-- The gate lists in use by a scheduler (R290): the copy that runs with its T_s, and the copy that is pending with its T_s. -/
structure GateRun where
  applied : Option (Nat × Nat)
  waiting : Option (Nat × Nat)
deriving DecidableEq, Repr

def GateRun.reset : GateRun := { applied := none, waiting := none }

/-- A walk of FLUSH_EP or CLEAR_ALL (R266): its command, the buckets it has reached, the tick in which it began, the entries it has
deleted. -/
structure FlowWalk where
  cmd : AshCmd
  reached : Nat
  began : Nat
  deleted : Nat
deriving DecidableEq, Repr

/-- What the packet core holds beside its registers: frames parsed and awaiting their first lookup; frames awaiting their second
pass in arrival order; the rule banks, rule i of bank b at b × 65536 + i; the pipe that takes the line's next
frame, and the retired pipe whose place the spare has taken; the patterns; the scan bucket in bytes and the tick to which it is
refilled; flow-cache misses, oldest first; the flow cache by set, most recently used first; the command queue; the
learn queue, oldest first; the next bucket of the ageing walk; a walk that runs; flow indices found aged whose deletion waits; entries of the command log
and the aged log; endpoint words with an uncorrectable error, rising; frames for admission; virtual times by scheduler; policer
and shaper buckets, shaper s at 8192 + s; gate lists at 2 × scheduler + copy; their use; PTP messages for the ports' own clocks,
each with the port and the rule's ring; flow lookups admitted in this µs. -/
structure PacketHw where
  cls : List ClsFrame
  second : List ClsFrame
  rules : Sparse Rule
  turn : Nat
  spareFor : Option Nat
  patterns : Sparse Pattern
  scan : Nat
  scanAt : Nat
  misses : List FlowMiss
  cache : Sparse (List CacheLine)
  cmds : List AshCmd
  learns : List (List Byte × Nat)
  agePos : Nat
  walk : Option FlowWalk
  aged : List Nat
  cmdLog : Sparse (Nat × Nat)
  agedLog : Sparse (Nat × Nat)
  epBad : List Nat
  offers : List TmOffer
  virt : Sparse Nat
  buckets : Sparse Buckets
  lists : Sparse GateList
  gates : Sparse GateRun
  ptpIn : List (Nat × Nat × ClsFrame)
  lookups : Nat × Nat
deriving DecidableEq, Repr

/-- Rule banks and tables empty (R424, R432), the scan bucket full (R249). -/
def PacketHw.reset : PacketHw :=
  { cls := [], second := [], rules := [], turn := 0, spareFor := none, patterns := [], scan := 65536, scanAt := 0, misses := [], cache := [], cmds := [],
    learns := [], agePos := 0, walk := none, aged := [], cmdLog := [], agedLog := [], epBad := [], offers := [], virt := [], buckets := [],
    lists := [], gates := [], ptpIn := [], lookups := (0, 0) }

/-- A pulse-return window (R307, R308): the second boundary S, the step count when it opened, the error e of its first edge in units
of 2^-16 ns. -/
structure PrWindow where
  sec : Nat
  steps : Nat
  err : Option Int
deriving DecidableEq, Repr

/-- An event input (R309): its FIFO, oldest first, and the instant of the last stamped edge in ps of elapsed time. -/
structure TevHw where
  fifo : List Stamp
  last : Option Nat
deriving DecidableEq, Repr

def TevHw.reset : TevHw := { fifo := [], last := none }

/-- A pulse in progress on a time output (R310): the instant at which it ends in units of 2^-16 ns of device time (none: until MODE
changes), the steps of device time made by its start, and the tick by which it ends where device time has stepped since. -/
structure ToutPulse where
  stop : Option Nat
  steps : Nat
  last : Nat
deriving DecidableEq, Repr

/-- A time output (R310): the pulse in progress, whether ONE_SHOT has fired, and the tick of the last pulse's start. -/
structure ToutHw where
  pulse : Option ToutPulse
  fired : Bool
  last : Option Nat
deriving DecidableEq, Repr

def ToutHw.reset : ToutHw := { pulse := none, fired := false, last := none }

/-- A neighbour comparison (R312): the sequence number of the request and its stamp t1 in ns while the exchange runs, the tick in
which the last request was sent, the next sequence number, θ beyond and within the limit in a row. -/
structure NbHw where
  open' : Option (Nat × Nat)
  sentAt : Option Nat
  seq : Nat
  overRun : Nat
  within : Nat
deriving DecidableEq, Repr

def NbHw.reset : NbHw := { open' := none, sentAt := none, seq := 0, overRun := 0, within := 0 }

/-- What TTD holds beside its registers: sequenceIds by port and message type (port × 16 + type); the last launch
instant in ns that was served at each port, with the count of steps of device time (R311), and the tick of each port's last
Announce; pulse-return windows; event inputs; time outputs;
neighbour comparisons; the UTC offset and flags last held (R301, R304); d_ds of each
line's last accepted anchor, in units of 1/320,000 ps (R297). -/
structure TtdHw where
  seqs : Sparse Nat
  syncs : List (Nat × Nat × Nat)
  anns : List (Nat × Nat)
  windows : List (Nat × PrWindow)
  tevs : Sparse TevHw
  touts : Sparse ToutHw
  nbs : Sparse NbHw
  utc : Nat
  flags : Nat
  dds : PerLine Int
deriving DecidableEq, Repr

def TtdHw.reset : TtdHw :=
  { seqs := [], syncs := [], anns := [], windows := [], tevs := [], touts := [], nbs := [], utc := 0, flags := 0,
    dds := ⟨0, 0⟩ }

/-- A submission entry that is not completed (R331): the index of its last descriptor, its TAG, whether a stamp is wanted, and its
completion once known. -/
structure RingEntry where
  index : Nat
  tag : Nat
  stamp : Bool
  done : Option (List Byte)
deriving DecidableEq, Repr

/-- A ring beside its registers (R322, R331, R332): the host's index, the device's index (for a CQ ring its 17-bit position), the
entries not yet completed in descriptor order, completions not yet signalled, and the ticks since which a first entry is
unsignalled and the ring is full, with the mark that the stall has been raised. -/
structure RingHw where
  host : Nat
  dev : Nat
  entries : List RingEntry
  unsignalled : Nat
  firstAt : Option Nat
  fullAt : Option Nat
  stalled : Bool
deriving DecidableEq, Repr

def RingHw.reset : RingHw :=
  { host := 0, dev := 0, entries := [], unsignalled := 0, firstAt := none, fullAt := none, stalled := false }

/-- A descriptor of a DMA engine (R340, R354). -/
structure Descriptor where
  src : Nat
  dst : Nat
  len : Nat
  ctl : Word
  next : Nat
deriving DecidableEq, Repr

/-- A main DMA channel with a ring entry in progress (R340 to R348): the ring and the entry's index, the hop in progress with the bytes
of it written so far, the source bytes read ahead of them, the half or full point last posted, bytes moved in the entry, and the status
of a fenced completion that waits for its read-back. -/
structure ChanRun where
  ring : Nat
  index : Nat
  hop : Descriptor
  moved : Nat
  store : List Byte
  point : Nat
  bytes : Nat
  fenced : Option Nat
deriving DecidableEq, Repr

/-- A boot DMA channel at work (R353): the space and address of the next descriptor. -/
structure BootRun where
  space : Nat
  addr : Nat
deriving DecidableEq, Repr

/-- Beside the registers of HIF, DMA, BDM and CNT: the rings; the channels with an entry in progress, the ring each served
last, and the channel whose turn is next (R348); the boot channels at work; byte accumulators of the bandwidth window, receive of port p at 2 × p and send at 2 × p + 1, the
window in force in ms, the next window end in ns of device time, the first window end that a forward step has passed over and
that is not yet latched, and the shortfall blocks and bursts of each line up to the last telemetry record. -/
structure HostHw where
  rings : Sparse RingHw
  chans : List (Nat × ChanRun)
  served : Sparse Nat
  turn : Nat
  boot : List (Nat × BootRun)
  bw : Sparse Nat
  bwWin : Nat
  bwEnd : Nat
  bwStep : Option Nat
  tlmPrev : Sparse Nat
deriving DecidableEq, Repr

def HostHw.reset : HostHw :=
  { rings := [], chans := [], served := [], turn := 0, boot := [], bw := [], bwWin := 1000, bwEnd := 1000000000, bwStep := none,
    tlmPrev := [] }

/-! ### The state -/

/-- The block but for its memories and its queue of commands. (log 186: DESIGN CHOICE, unsafe) -/
structure Dev where
  /-- every register word that differs from its reset word, by BAR0 offset; a shadowed register's word is its shadow (R20, R67) -/
  regs : Sparse Word
  /-- the applied words of the shadowed registers (R67) -/
  applied : Sparse Word
  /-- BAR0 offsets of the dirty shadow words, rising (R67) -/
  dirty : List Nat
  /-- HI words latched by a read of the LO register (R20) -/
  latched : Sparse Word
  /-- device time (R39) -/
  clock : Clock
  /-- elapsed time in ticks of the selected reference (R7) -/
  elapsed : Nat
  /-- running timers with the tick at which each expires (R7) -/
  timers : List (TimerId × Nat)
  /-- Keystone's internal state (R40 to R63) -/
  kst : Keystone
  /-- pending commits in posting order (R69) -/
  commits : List Commit
  /-- the next commit ID (R71) -/
  nextCommit : Nat
  /-- posts made, to order commits (R75) -/
  postSeq : Nat
  /-- the result log (R78) -/
  commitLog : Sparse CommitEntry
  /-- the clamp log (R32) -/
  clampLog : Sparse ClampEntry
  /-- what the block has sent out of itself, oldest first -/
  out : List Out
  /-- words of the MSI-X tables: function × 256 + 4 × vector + word (R317) -/
  msixTable : Sparse Word
  /-- pending bits: function × 64 + vector, rising (R317) -/
  msixPending : List Nat
  /-- functions whose MSI-X function mask is set, rising (R317) -/
  msixFnMask : List Nat
  /-- free values taken so far (the model's own field, no state of the spec) -/
  freeCount : Nat
  /-- function 0 has been frozen and the FREEZE_REPORT of R130 is not yet queued -/
  frzReport : Bool
  /-- the second boundaries that wait for what is done at them: 0 and 1 the latch of L-A and L-B (R124), 2 the telemetry record (R418),
  3 the health reports (R200), 4 the summary of BST (R387), 5 the TDC exchange (R46) -/
  secDue : Sparse SecMark
  /-- the D0 FAW stamps of each line, newest first, as far back as an anchor may name a frame (R71, R118) -/
  fawStamps : PerLine (List FawStamp)
  /-- what each line lane unit holds beside its registers (R86 to R93) -/
  lineHw : PerLine LineHw
  /-- where each transmit lane's generator stands: the last bits of its sequence, or the phase of the 64-bit pattern; 0 is its start (R98, R99) -/
  prbsGen : Sparse Nat
  /-- where each checker stands, by receive lane (R101) -/
  prbsChk : Sparse ChkHw
  /-- bits of an injection still to be generated, by transmit lane (R102) -/
  injTx : Sparse Nat
  /-- bits of an injection still to be checked, by receive lane (R102) -/
  injRx : Sparse Nat
  /-- checked bits not yet counted, in twentieths of a bit, by receive lane (R101) -/
  bitFrac : Sparse Nat
  /-- UPB's grants and reports of each line (R150 to R166) -/
  upHw : PerLine UpHw
  /-- carry-over of each NRW entry, oldest first; 512 and 513 stand for the management allocations of L-A and L-B (R164) -/
  carry : Sparse (List Carry)
  /-- units that ENC has formed of a frame begun and that are not yet staged, by allocation as in carry (R162, R176) -/
  formed : Sparse (List LineUnit)
  /-- units staged so far, to keep staging order (R164) -/
  stageSeq : Nat
  /-- what RNG holds for each line (R126 to R146) -/
  rngHw : PerLine RngHw
  /-- the control cores do not run: before the boot loads them, during an activation and during a CORE reset (R126, R401, R426) -/
  corePause : Bool
  /-- the frames of each queue, oldest first; queue 16384 + r holds what waits for host receive ring r (R273) -/
  queues : Sparse (List BufFrame)
  /-- tags and counts of the queues (R282, R294) -/
  qstate : Sparse QState
  /-- what the Saddle keeps for each line's health report (R200) -/
  sdlLine : PerLine SdlLine
  /-- what the Saddle keeps beside its registers (R203 to R207) -/
  saddle : Saddle
  /-- the line delivers units: false from a switch to it until its next stamped frame (R205 step 5) -/
  lineFresh : PerLine Bool
  /-- the frame from whose word 0 on each line delivers units, while the one before it may still come (R205 step 5) -/
  lineFirst : PerLine (Option Nat)
  /-- the key slots, slot s of page p at 4 × p + s (R188) -/
  keySlots : Sparse KeySlot
  /-- the bootstrap keys, in the always-on domain (R192) -/
  bootKeys : PerLine KeySlot
  /-- ENC's receive side of each line (R173, R177) -/
  encHw : PerLine EncHw
  /-- the acceptance bitmaps: line × 65536 + copy × 32768 + word (R175) -/
  bitmaps : Sparse Word
  /-- the endpoint table, 192-bit entries by index (R253) -/
  endpoints : Sparse Nat
  /-- frames that wait for the parser, oldest first (R235) -/
  prsIn : List RxFrame
  /-- the counter limit in force (R186, R465) -/
  ctrLimit : Nat
  /-- line-unit header failures of the present second (R124) -/
  luHdrErr : PerLine Nat
  /-- the anchor dataset of each line (R296) -/
  anchorSet : PerLine AnchorSet
  /-- an anchor has been accepted since the line left Listen (R296) -/
  anchored : PerLine Bool
  /-- EQRT of the last accepted anchor of each line, in ps (R297) -/
  eqrt : PerLine Nat
  /-- what FWU and the Course hold beside their registers (R393 to R407) -/
  fwu : FwuHw
  /-- what each framer holds beside its registers (R110 to R124) -/
  dsf : PerLine DsfHw
  /-- what PWR holds beside its registers (R363 to R374) -/
  pwr : PwrHw
  /-- what each server lane holds beside its registers (R215, R216) -/
  lanes : Sparse LaneHw
  /-- what each server MAC holds beside its registers (R225 to R232) -/
  macs : Sparse MacHw
  /-- what the packet core holds beside its registers (R239 to R290) -/
  pkt : PacketHw
  /-- what TTD holds beside its registers (R301 to R312) -/
  ttd : TtdHw
  /-- what HIF, the DMA engines and CNT hold beside their registers (R322 to R354, R416) -/
  host : HostHw
  /-- what BST holds beside its registers (R380 to R387) -/
  bst : BstHw
  /-- the tick of the reset that the device boots from (R427) -/
  bootFrom : Nat
  /-- the instruction of the TAP (R442) -/
  jtag : JtagInstr
deriving DecidableEq, Repr

/-- The memories the spec gives the block addresses for: the on-package DRAM (R339), the xSPI flash (R354, R398) and the
local memories of the control cores (R354). Each is a canonical list of cells. -/
structure Mem where
  dram : List Host.Cell
  flash : List Host.Cell
  core : List Host.Cell
deriving DecidableEq, Repr

/-- What a byte of DRAM or of a core memory that nothing has written reads as. (log 120: DESIGN CHOICE, unsafe) -/
def Mem.ramFill : Byte := 0

/-- What a byte of flash that nothing has written reads as: erased. -/
def Mem.flashFill : Byte := 0xFF

/-- The canonical form of the memories: addresses strictly rising, no cell equal to what an unlisted address reads as. -/
def Mem.wf (m : Mem) : Bool := swf Mem.ramFill m.dram && swf Mem.flashFill m.flash && swf Mem.ramFill m.core

/-- The state of the block: the block itself, its memories, and the commands that wait, first in, first out. -/
structure State where
  dev : Dev
  mem : Mem
  pending : List Instr
deriving DecidableEq, Repr

/-- Reasons a step stops with a fault. -/
inductive Fault where
  /-- Raised by no command: every command of the table has an effect the spec gives, so nothing faults. Safe. -/
  | none
deriving DecidableEq, Repr

/-- Reasons a step is refused. -/
inductive Refusal where
  /-- Raised by the dispatch for a command that has no meaning yet. Safe. -/
  | notModelled (mnemonic : String)
deriving DecidableEq, Repr

/-- The outcome of a command. -/
abbrev Res := Host.Outcome State Fault Refusal

def Dev.reset : Dev :=
  { 
    regs := []
    applied := []
    dirty := []
    latched := []
    clock := ⟨0, 0, 0⟩
    elapsed := 0
    timers := []
    kst := Keystone.reset
    commits := []
    nextCommit := 0
    postSeq := 0
    commitLog := []
    clampLog := []
    out := []
    msixTable := []
    msixPending := []
    msixFnMask := []
    freeCount := 0
    frzReport := false
    secDue := []
    fawStamps := ⟨[], []⟩
    lineHw := ⟨LineHw.reset, LineHw.reset⟩
    prbsGen := []
    prbsChk := []
    injTx := []
    injRx := []
    bitFrac := []
    upHw := ⟨UpHw.reset, UpHw.reset⟩
    carry := []
    formed := []
    stageSeq := 0
    rngHw := ⟨RngHw.reset, RngHw.reset⟩
    corePause := true
    queues := []
    qstate := []
    sdlLine := ⟨SdlLine.reset, SdlLine.reset⟩
    saddle := Saddle.reset
    lineFresh := ⟨true, true⟩
    lineFirst := ⟨none, none⟩
    keySlots := []
    bootKeys := ⟨KeySlot.empty, KeySlot.empty⟩
    encHw := ⟨EncHw.reset, EncHw.reset⟩
    bitmaps := []
    endpoints := []
    prsIn := []
    ctrLimit := 0x10000000000
    luHdrErr := ⟨0, 0⟩
    anchorSet := ⟨AnchorSet.reset, AnchorSet.reset⟩
    anchored := ⟨false, false⟩
    eqrt := ⟨0, 0⟩
    fwu := FwuHw.reset
    dsf := ⟨DsfHw.reset, DsfHw.reset⟩
    pwr := PwrHw.reset
    lanes := []
    macs := []
    pkt := PacketHw.reset
    ttd := TtdHw.reset
    host := HostHw.reset
    bst := BstHw.reset
    bootFrom := 0
    jtag := .idcode }

/-- The block right after reset: every register at its reset word, the memories with nothing listed, no command
waiting. (log 166: DESIGN CHOICE, unsafe; log 167: DESIGN CHOICE, safe; log 185: DESIGN CHOICE, unsafe) -/
def State.reset : State :=
  { dev := Dev.reset, mem := { dram := [], flash := [], core := [] }, pending := [] }

/-- A command whose effect lies in the block alone. -/
def onDev (f : Dev → Dev) (s : State) : Res := .next { s with dev := f s.dev }

/-- A command whose effect lies in the block and its memories. -/
def onAll (f : Dev → Mem → Dev × Mem) (s : State) : Res :=
  .next { s with dev := (f s.dev s.mem).1, mem := (f s.dev s.mem).2 }

end Sys2Proof.Machine
end

