-- ==== Sys2Proof/Machine/Ops.lean ====
section
/-!
DEFINITION. Machine/Ops.lean: the named operations over registers, timers and the outbox. Every read or write of a
register word in the model goes through these.
-/

namespace Sys2Proof.Machine

/-! ### Register words and fields -/

/-- The word of a register (R20); of a shadowed register its shadow (R67). -/
def rd (d : Dev) (r : Reg) : Word := sget r.rst d.regs r.ofs

def wr (d : Dev) (r : Reg) (w : Word) : Dev := { d with regs := sput r.rst d.regs r.ofs w }

/-- The applied word of a shadowed register (R67). -/
def rdA (d : Dev) (r : Reg) : Word := sget r.rst d.applied r.ofs

def wrA (d : Dev) (r : Reg) (w : Word) : Dev := { d with applied := sput r.rst d.applied r.ofs w }

def rdn (d : Dev) (r : Reg) : Nat := (rd d r).toNat

def wrn (d : Dev) (r : Reg) (n : Nat) : Dev := wr d r (BitVec.ofNat 32 n)

/-- A field of a register. -/
def fld (d : Dev) (f : Fld) : Nat := getBits (rd d f.reg) f.hi f.lo

def setFld (d : Dev) (f : Fld) (v : Nat) : Dev := wr d f.reg (putBits (rd d f.reg) f.hi f.lo v)

/-- A field of the applied word of a shadowed register. -/
def fldA (d : Dev) (f : Fld) : Nat := getBits (rdA d f.reg) f.hi f.lo

def setFldA (d : Dev) (f : Fld) (v : Nat) : Dev := wrA d f.reg (putBits (rdA d f.reg) f.hi f.lo v)

/-- A one-bit field that is 1. -/
def flag (d : Dev) (f : Fld) : Bool := fld d f == 1

def setFlag (d : Dev) (f : Fld) (b : Bool) : Dev := setFld d f (boolBit b)

/-- The largest value of a field. -/
def fldMax (f : Fld) : Nat := 2 ^ (f.hi - f.lo + 1) - 1

/-- A 32-bit count that stops at 0xFFFF_FFFF takes n more. -/
def countBy (d : Dev) (r : Reg) (n : Nat) : Dev := wrn d r (min (rdn d r + n) 0xFFFFFFFF)

def count (d : Dev) (r : Reg) : Dev := countBy d r 1

/-- A count held in a field, which stops at the field's largest value. -/
def countFldBy (d : Dev) (f : Fld) (n : Nat) : Dev := setFld d f (min (fld d f + n) (fldMax f))

def countFld (d : Dev) (f : Fld) : Dev := countFldBy d f 1

/-- A number held in a LO and a HI word. -/
def rdPair (d : Dev) (lo hi : Reg) : Nat := rdn d lo + 0x100000000 * rdn d hi

def wrPair (d : Dev) (lo hi : Reg) (n : Nat) : Dev := wrn (wrn d lo n) hi (n / 0x100000000)

/-- A count held in a LO and a HI word, which stops at top. -/
def countPairBy (d : Dev) (lo hi : Reg) (top n : Nat) : Dev := wrPair d lo hi (min (rdPair d lo hi + n) top)

/-- Bit b of a register word. -/
def regBit (d : Dev) (r : Reg) (b : Nat) : Bool := (rd d r).getLsbD b

def setRegBit (d : Dev) (r : Reg) (b : Nat) (v : Bool) : Dev :=
  wr d r (putBits (rd d r) b b (boolBit v))

/-! ### Device time and elapsed time -/

/-- Device time in ns, the fraction dropped: an instant of whole ns has been reached when it is not above this. -/
def now (d : Dev) : Nat := d.clock.nsTotal

/-- Device time in ns, a fraction counted as one: an instant of whole ns lies in the past when it is below this. -/
def nowUp (d : Dev) : Nat := (d.clock.units + 0xFFFFFFFFFFFF) / 0x1000000000000

/-! ### Timers -/

def dropTimer (d : Dev) (t : TimerId) : Dev := { d with timers := d.timers.filter (fun e => e.1 != t) }

/-- Start a timer that expires after n ticks, in place of a running one of the same name. -/
def startTimer (d : Dev) (t : TimerId) (n : Nat) : Dev :=
  { d with timers := (t, d.elapsed + n) :: d.timers.filter (fun e => e.1 != t) }

def timerRuns (d : Dev) (t : TimerId) : Bool := d.timers.any (fun e => e.1 == t)

/-- The timer runs and its time is over. (log 2: DESIGN CHOICE, safe) -/
def timerOver (d : Dev) (t : TimerId) : Bool := d.timers.any (fun e => e.1 == t && decide (e.2 ≤ d.elapsed))

/-! ### The outbox and the free values -/

def emit (d : Dev) (o : Out) : Dev := { d with out := d.out ++ [o] }

/-- The bytes of a bandwidth window accumulate (R416): receive of port p at 2 × p, send at 2 × p + 1. -/
def bwAdd (d : Dev) (key n : Nat) : Dev :=
  { d with host := { d.host with bw := sput 0 d.host.bw key (sget 0 d.host.bw key + n) } }

/-- The first end, after instant t in ns, of windows of the given length in ms (R416). -/
def windowEnd (ms t : Nat) : Nat := (t / (ms * 1000000) + 1) * (ms * 1000000)

/-- A sorted list of numbers with n in it. -/
def insSorted (n : Nat) : List Nat → List Nat
  | [] => [n]
  | a :: t => if a < n then a :: insSorted n t else if a = n then a :: t else n :: a :: t

/-- The list of numbers without n. -/
def delNat (n : Nat) (l : List Nat) : List Nat := l.filter (fun a => a != n)

/-- Replace or prepend the value of a key in a short unsorted association list. -/
def assocSet {κ α : Type} [BEq κ] (l : List (κ × α)) (k : κ) (v : α) : List (κ × α) :=
  (k, v) :: l.filter (fun e => !(e.1 == k))

def assocGet {κ α : Type} [BEq κ] (l : List (κ × α)) (k : κ) : Option α := (l.find? (fun e => e.1 == k)).map (·.2)

/-- Apply f when the condition holds. -/
def whenD (c : Bool) (f : Dev → Dev) (d : Dev) : Dev := if c then f d else d

/-- Apply f for every element of a list, first to last. -/
def forEach {α : Type} (l : List α) (f : Dev → α → Dev) (d : Dev) : Dev := l.foldl f d

end Sys2Proof.Machine
end

