-- ==== Sys2Proof/Machine/Flags.lean ====
section
/-!
DEFINITION. Machine/Flags.lean: events, alarms and messages (R35, R65, R78, R317, R335), the frozen marks of masters and
the power state of the domains: the flags that many families test or raise.
-/

namespace Sys2Proof.Machine

/-! ### Power of domains and units (R23, R358, R461) -/

/-- Domain n is on (PWR_DOM_ON, R375). -/
def domainOn (d : Dev) (n : Nat) : Bool :=
  if n < 32 then regBit d PWR_DOM_ON_LO n else regBit d PWR_DOM_ON_HI (n - 32)

def domainRetained (d : Dev) (n : Nat) : Bool :=
  if n < 32 then regBit d PWR_DOM_RET_LO n else regBit d PWR_DOM_RET_HI (n - 32)

/-- The domain that a sequence is switching at present: the next one of its list, since a domain takes 20 µs to change (R365, R367,
R372, R427). (log 139: DESIGN CHOICE, safe) -/
def switchingDomain (d : Dev) : Option Nat :=
  match d.pwr.phase with
  | .off ds => ds.head?
  | .trimOff off on => off.head?.or on.head?
  | .trimOn on => on.head?
  | .wakeOn ds => ds.head?
  | .keepOn ds => ds.head?
  | .bootOn ds => ds.head?
  | _ => none

/-- Domain n is in transition (R23). -/
def inTransition (d : Dev) (n : Nat) : Bool := switchingDomain d == some n

/-! ### MSI-X messages (R317) -/

/-- Master m is frozen (R38). -/
def isFrozen (d : Dev) (m : Master) : Bool := regBit d (ROOT_FRZ_MAP (m / 32)) (m % 32)

/-- Firmware does not run: the control cores are paused, or core 0, under which the others start, is halted by a freeze (R34, R372).
(log 191: DESIGN CHOICE, unsafe) -/
def coresHalted (d : Dev) : Bool := d.corePause || isFrozen d 0x64

/-- The words of a vector's table entry; a vector is masked after reset. (log 109: PRESUMED, unsafe) -/
def msixWord (d : Dev) (f v w : Nat) : Word := sget (if w = 3 then 1 else 0) d.msixTable (f * 256 + v * 4 + w)

/-- A message of vector v of function f goes out, or waits with its pending bit set while the vector or the function is
masked, while f is frozen (R34), while the host interface has no power (R375), or before
release (R429). -/
def signalVector (d : Dev) (f v : Nat) : Dev :=
  if (msixWord d f v 3).getLsbD 0 || d.msixFnMask.contains f || isFrozen d f || !domainOn d 47
      || !flag d RST_STATUS_RELEASED then
    { d with msixPending := insSorted (f * 64 + v) d.msixPending }
  else
    emit { d with msixPending := delNat (f * 64 + v) d.msixPending }
      (.msix f v ((msixWord d f v 0).toNat + 0x100000000 * (msixWord d f v 1).toNat) (msixWord d f v 2).toNat)

/-- Send every waiting message that nothing holds any longer. -/
def flushVectors (d : Dev) : Dev := forEach d.msixPending (fun d k => signalVector d (k / 64) (k % 64)) d

/-! ### Function events (R335): bits of HIF_FNf_EVT -/

def evCommitDone : Nat := 0
def evCommitFail : Nat := 1
def evRingErr : Nat := 2
def evDbBad : Nat := 3
def evDescBad : Nat := 4
def evCqStall : Nat := 5
def evFreeze : Nat := 6
def evClamp : Nat := 7
def evUnit : Nat := 8

/-- Set bit b of function f's pending events; an enabled bit that rises is signalled (R335). -/
def raiseFn (d : Dev) (f b : Nat) : Dev :=
  let rises := !regBit d (HIF_FNf_EVT f) b && regBit d (HIF_FNf_EVT_EN f) b
  whenD rises (fun d => signalVector d f (fld d (HIF_FNf_EVT_CFG_EVT_VEC f))) (setRegBit d (HIF_FNf_EVT f) b true)

/-! ### Unit events: EVT and EVT_EN of a unit, and its bit in HIF_EVT_UNIT -/

structure EvtUnit where
  evt : Reg
  en : Reg
  bit : Nat
deriving DecidableEq, Repr

def evKST : EvtUnit := ⟨KST_ALARM, KST_ALARM_EN, 0⟩
def evLL (n : Nat) : EvtUnit := ⟨LLx_EVT n, LLx_EVT_EN n, 1 + n⟩
def evDSF (n : Nat) : EvtUnit := ⟨DSF_EVT n, DSF_EVT_EN n, 3 + n⟩
def evRNG (n : Nat) : EvtUnit := ⟨RNG_Lx_EVT n, RNG_Lx_EVT_EN n, 5⟩
def evUPB (n : Nat) : EvtUnit := ⟨UPB_EVT n, UPB_EVT_EN n, 6 + n⟩
def evNRW : EvtUnit := ⟨NRW_EVT, NRW_EVT_EN, 8⟩
def evENC : EvtUnit := ⟨ENC_EVT, ENC_EVT_EN, 9⟩
def evCIP : EvtUnit := ⟨CIP_EVT, CIP_EVT_EN, 10⟩
def evSDL : EvtUnit := ⟨SDL_EVT, SDL_EVT_EN, 11⟩
def evSLN (q : Nat) : EvtUnit := ⟨SLN_EVT q, SLN_EVT_EN q, 12⟩
def evMAC (q : Nat) : EvtUnit := ⟨MAC_EVT q, MAC_EVT_EN q, 13⟩
def evPRS : EvtUnit := ⟨PRS_EVT, PRS_EVT_EN, 14⟩
def evCLS : EvtUnit := ⟨CLS_EVT, CLS_EVT_EN, 15⟩
def evASH : EvtUnit := ⟨ASH_EVT, ASH_EVT_EN, 16⟩
def evTMG : EvtUnit := ⟨TMG_EVT, TMG_EVT_EN, 17⟩
def evTTD : EvtUnit := ⟨TTD_EVT, TTD_EVT_EN, 18⟩
def evDMA : EvtUnit := ⟨DMA_EVT, DMA_EVT_EN, 19⟩
def evBDM : EvtUnit := ⟨BDM_EVT, BDM_EVT_EN, 20⟩
def evPWR : EvtUnit := ⟨PWR_EVT, PWR_EVT_EN, 21⟩
def evBST : EvtUnit := ⟨BST_EVT, BST_EVT_EN, 22⟩
def evFWU : EvtUnit := ⟨FWU_EVT, FWU_EVT_EN, 23⟩
def evCRS : EvtUnit := ⟨CRS_EVT, CRS_EVT_EN, 24⟩
def evCNT : EvtUnit := ⟨CNT_EVT, CNT_EVT_EN, 25⟩
def evRST : EvtUnit := ⟨RST_EVT, RST_EVT_EN, 26⟩

/-- Every event word, for the summary of R335. -/
def evtUnits : List EvtUnit :=
  [evKST, evLL 0, evLL 1, evDSF 0, evDSF 1, evRNG 0, evRNG 1, evUPB 0, evUPB 1, evNRW, evENC, evCIP, evSDL]
    ++ (List.range 16).map evSLN ++ (List.range 16).map evMAC
    ++ [evPRS, evCLS, evASH, evTMG, evTTD, evDMA, evBDM, evPWR, evBST, evFWU, evCRS, evCNT, evRST]

/-- Raise event or alarm bit b of a unit: the bit is set, and an enabled bit shows in HIF_EVT_UNIT and raises UNIT to
function 0 (R335). -/
def raiseEvt (d : Dev) (u : EvtUnit) (b : Nat) : Dev :=
  let d := setRegBit d u.evt b true
  whenD (regBit d u.en b) (fun d => raiseFn (setRegBit d HIF_EVT_UNIT u.bit true) 0 evUnit) d

/-- HIF_EVT_UNIT and UNIT after event or enable bits were written: each bit of HIF_EVT_UNIT is 1 while its unit has an
enabled event bit set, and UNIT while any of them is (R335). -/
def syncEvents (d : Dev) : Dev :=
  let w := evtUnits.foldl (fun n u => if rd d u.evt &&& rd d u.en = 0 then n else n ||| 2 ^ u.bit) 0
  let d := wrn d HIF_EVT_UNIT w
  if w = 0 then setRegBit d (HIF_FNf_EVT 0) evUnit false else raiseFn d 0 evUnit

/-! ### Freezing masters (R33 to R37) -/

def causeKeyPage : Nat := 1
def causeRing : Nat := 2
def causeWindow : Nat := 3
def causeHops : Nat := 4
def causeDma : Nat := 5
def causeLmm : Nat := 6
def causeCourse : Nat := 7

/-- Master m violates a protection: the cause is recorded, and a master that is not yet frozen is frozen, counted, and
reported to function 0, or to the head end where it is function 0 itself (R35); a further violation overwrites the cause, and one of
function 0 is reported again (R35, R130). The I2C management target is never
frozen: its access is counted in ROOT_BAD_ACCESS (R464). -/
def freeze (d : Dev) (m : Master) (cause ofs : Nat) : Dev :=
  if m = i2cMaster then count d ROOT_BAD_ACCESS
  else
    let d' := wrn d (ROOT_FRZ_CAUSE m) (cause * 0x4000000 + ofs % 0x4000000)
    if isFrozen d m then (if m = 0 then { d' with frzReport := true } else d')
    else
      let d' := count (setRegBit d' (ROOT_FRZ_MAP (m / 32)) (m % 32) true) ROOT_FRZ_COUNT
      if m = 0 then { d' with frzReport := true } else raiseFn d' 0 evFreeze

end Sys2Proof.Machine
end

