-- ==== Sys2Proof/Machine/RegMap.lean ====
section
/-!
DEFINITION. Machine/RegMap.lean: the register tables of spec/02 to spec/24 as data: for every register its
window-relative offset, how often it repeats and at which stride, its reset word, whether it is shadowed (R67), and
for every field its bits, its access kind (R8) and the range of R29 to R30 that a written value is clamped to.
A bit that no field names is RSV (R9).
-/

namespace Sys2Proof.Machine

def regRowsROOT0 : List RegRow := [
  ⟨"ROOT_FRZ_MAP", 0x40, [(4, 0x4)], 0x0, false, [⟨"FROZEN", 31, 0, .ro, .all⟩]⟩,
  ⟨"ROOT_FRZ_RELEASE", 0x50, [], 0x0, false, [⟨"GO", 31, 31, .wo, .all⟩, ⟨"MASTER", 7, 0, .wo, .all⟩]⟩,
  ⟨"ROOT_FRZ_COUNT", 0x54, [], 0x0, false, [⟨"COUNT", 31, 0, .ro, .all⟩]⟩,
  ⟨"ROOT_BAD_ACCESS", 0x58, [], 0x0, false, [⟨"COUNT", 31, 0, .ro, .all⟩]⟩,
  ⟨"ROOT_CLAMP_SEQ", 0x60, [], 0x0, false, [⟨"SEQ", 31, 0, .ro, .all⟩]⟩,
  ⟨"ROOT_FRZ_CAUSE", 0x100, [(108, 0x4)], 0x0, false, [⟨"CAUSE", 31, 26, .ro, .all⟩, ⟨"OFFSET", 25, 0, .ro, .all⟩]⟩]

/-- Every register of unit ROOT beyond its header (spec/02 R38). -/
def regRowsROOT : List RegRow := regRowsROOT0

def regRowsKST0 : List RegRow := [
  ⟨"KST_CTL", 0x40, [], 0x2, false, [⟨"AUTO_STEP", 2, 2, .rw, .all⟩, ⟨"AUTO_SWITCH", 1, 1, .rw, .all⟩, ⟨"PREF_DOM", 0, 0, .rw, .all⟩]⟩,
  ⟨"KST_STATUS", 0x44, [], 0x0, false, [⟨"HOLD_QUAL", 15, 14, .ro, .all⟩, ⟨"REF_SEL", 13, 13, .ro, .all⟩, ⟨"SWITCHING", 12, 12, .ro, .all⟩, ⟨"SLEWING", 11, 11, .ro, .all⟩, ⟨"SERVO_STATE", 10, 9, .ro, .all⟩, ⟨"SEL_DOM", 8, 8, .ro, .all⟩]⟩,
  ⟨"KST_CAPTURE", 0x48, [], 0x0, false, [⟨"GO", 0, 0, .wo, .all⟩]⟩,
  ⟨"KST_SNAP_SEC_HI", 0x4c, [], 0x0, false, [⟨"VALUE", 15, 0, .ro, .all⟩]⟩,
  ⟨"KST_SNAP_SEC_LO", 0x50, [], 0x0, false, [⟨"VALUE", 31, 0, .ro, .all⟩]⟩,
  ⟨"KST_SNAP_NS", 0x54, [], 0x0, false, [⟨"VALUE", 29, 0, .ro, .all⟩]⟩,
  ⟨"KST_SNAP_FRAC", 0x58, [], 0x0, false, [⟨"VALUE", 15, 0, .ro, .all⟩]⟩,
  ⟨"KST_FREQ_BASE_LO", 0x60, [], 0x0, true, [⟨"WORD", 31, 0, .rw, .all⟩]⟩,
  ⟨"KST_FREQ_BASE_HI", 0x64, [], 0x280000, true, [⟨"WORD", 21, 0, .rw, .all⟩]⟩,
  ⟨"KST_FREQ_LO", 0x68, [], 0x0, false, [⟨"WORD", 31, 0, .ro, .all⟩]⟩,
  ⟨"KST_FREQ_HI", 0x6c, [], 0x280000, false, [⟨"WORD", 21, 0, .ro, .all⟩]⟩,
  ⟨"KST_SERVO_CFG", 0x70, [], 0x6400b5, true, [⟨"BW_MHZ", 31, 16, .rwc, (.span 10 1000)⟩, ⟨"DAMP", 9, 0, .rwc, (.span 128 512)⟩]⟩]

def regRowsKST1 : List RegRow := [
  ⟨"KST_FREQ_LIM", 0x74, [], 0x64, true, [⟨"LIM_PPM", 9, 0, .rwc, (.span 1 500)⟩]⟩,
  ⟨"KST_JUMP_CFG", 0x78, [], 0x80032, true, [⟨"QUALIFY_N", 22, 16, .rwc, (.span 3 64)⟩, ⟨"JUMP_THR", 13, 0, .rwc, (.span 5 10000)⟩]⟩,
  ⟨"KST_AGREE_CFG", 0x7c, [], 0x14, true, [⟨"AGREE_WIN", 9, 0, .rwc, (.span 1 1000)⟩]⟩,
  ⟨"KST_SLEW_CFG", 0x80, [], 0xa, true, [⟨"SLEW_LIM", 9, 0, .rwc, (.span 1 1000)⟩]⟩,
  ⟨"KST_HOLD_CFG", 0x84, [], 0x3e8, true, [⟨"HOLD_SLEW_LIM", 16, 0, .rwc, (.span 10 100000)⟩]⟩,
  ⟨"KST_HOLD_AGE", 0x88, [], 0x3840, true, [⟨"HOLD_AGE_LIM", 15, 0, .rwc, (.span 1 65535)⟩]⟩,
  ⟨"KST_SEL_CMD", 0x8c, [], 0x0, true, [⟨"CMD", 1, 0, .rw, .all⟩]⟩,
  ⟨"KST_STEP_CTL", 0x90, [], 0x0, true, [⟨"ARM", 31, 31, .rw, .all⟩, ⟨"NEG", 30, 30, .rw, .all⟩, ⟨"STEP_NS", 29, 0, .rwc, (.span 0 999999999)⟩]⟩,
  ⟨"KST_STEP_SEC", 0x94, [], 0x0, true, [⟨"STEP_SEC", 31, 0, .rw, .all⟩]⟩,
  ⟨"KST_REF_CTL", 0x98, [], 0x0, true, [⟨"REVERT", 0, 0, .rw, .all⟩]⟩,
  ⟨"KST_REF_STATUS", 0x9c, [], 0x0, false, [⟨"REF25_OK", 31, 31, .ro, .all⟩, ⟨"REF25B_OK", 30, 30, .ro, .all⟩, ⟨"REF25_GOOD_SEC", 15, 0, .ro, .all⟩]⟩,
  ⟨"KST_REF_RATIO", 0xa0, [], 0x0, false, [⟨"VALUE", 31, 0, .ro, .all⟩]⟩]

def regRowsKST2 : List RegRow := [
  ⟨"KST_REF_PHASE", 0xa4, [], 0x0, false, [⟨"PHASE", 15, 0, .ro, .all⟩]⟩,
  ⟨"KST_INTEG", 0xb0, [], 0x0, false, [⟨"VALUE", 31, 0, .ro, .all⟩]⟩,
  ⟨"KST_HOLD_SEC", 0xb4, [], 0x0, false, [⟨"SECONDS", 31, 0, .ro, .all⟩]⟩,
  ⟨"KST_DOM_x_STATUS", 0xc0, [(2, 0x10)], 0xffff0000, false, [⟨"AGE_MS", 31, 16, .ro, .all⟩, ⟨"QUAL_CNT", 14, 8, .ro, .all⟩, ⟨"REFUSE_RUN", 7, 6, .ro, .all⟩, ⟨"STATE", 2, 0, .ro, .all⟩]⟩,
  ⟨"KST_DOM_x_OFS", 0xc4, [(2, 0x10)], 0x0, false, [⟨"VALUE", 31, 0, .ro, .all⟩]⟩,
  ⟨"KST_DOM_x_REFUSED", 0xc8, [(2, 0x10)], 0x0, false, [⟨"VALUE", 31, 0, .ro, .all⟩]⟩,
  ⟨"KST_DOM_x_ACCEPTED", 0xcc, [(2, 0x10)], 0x0, false, [⟨"VALUE", 31, 0, .ro, .all⟩]⟩,
  ⟨"KST_LAST_STEP_SEC", 0xe0, [], 0x0, false, [⟨"VALUE", 31, 0, .ro, .all⟩]⟩,
  ⟨"KST_LAST_STEP_INFO", 0xe4, [], 0x0, false, [⟨"NEG", 31, 31, .ro, .all⟩, ⟨"CAUSE", 30, 29, .ro, .all⟩]⟩,
  ⟨"KST_LAST_STEP_NS", 0xe8, [], 0x0, false, [⟨"STEP_NS", 29, 0, .ro, .all⟩]⟩,
  ⟨"KST_ALARM", 0x100, [], 0x0, false, [⟨"ALARM", 16, 0, .w1c, .all⟩]⟩,
  ⟨"KST_ALARM_EN", 0x104, [], 0x1ffff, false, [⟨"ALARM", 16, 0, .rw, .all⟩]⟩]

def regRowsKST3 : List RegRow := [
  ⟨"KST_WAKE_EN", 0x108, [], 0x60bc, false, [⟨"ALARM", 16, 0, .rw, .all⟩]⟩,
  ⟨"KST_TDC_CAL", 0x1000, [(71, 0x4)], 0x140, false, [⟨"FAULT", 31, 31, .ro, .all⟩, ⟨"LIVE", 30, 30, .ro, .all⟩, ⟨"ARMED", 29, 29, .ro, .all⟩, ⟨"SPAN", 8, 0, .ro, .all⟩]⟩]

/-- Every register of unit KST beyond its header (spec/03 R66). -/
def regRowsKST : List RegRow := regRowsKST0 ++ regRowsKST1 ++ regRowsKST2 ++ regRowsKST3

def regRowsTCM0 : List RegRow := [
  ⟨"TCM_PEND0", 0x40, [], 0x0, false, [⟨"COUNT", 31, 0, .ro, .all⟩]⟩,
  ⟨"TCM_PEND1", 0x44, [], 0x0, false, [⟨"COUNT", 31, 0, .ro, .all⟩]⟩,
  ⟨"TCM_LOG_SEQ", 0x50, [], 0x0, false, [⟨"SEQ", 31, 0, .ro, .all⟩]⟩,
  ⟨"TCM_CNT_APPLIED", 0x60, [], 0x0, false, [⟨"COUNT", 31, 0, .ro, .all⟩]⟩,
  ⟨"TCM_CNT_LATE", 0x64, [], 0x0, false, [⟨"COUNT", 31, 0, .ro, .all⟩]⟩,
  ⟨"TCM_CNT_REJECTED", 0x68, [], 0x0, false, [⟨"COUNT", 31, 0, .ro, .all⟩]⟩,
  ⟨"TCM_POST_TIME_HI", 0x1000, [(36, 0x40)], 0x0, false, [⟨"VALUE", 15, 0, .rw, .all⟩]⟩,
  ⟨"TCM_POST_TIME_LO", 0x1004, [(36, 0x40)], 0x0, false, [⟨"VALUE", 31, 0, .rw, .all⟩]⟩,
  ⟨"TCM_POST_NS", 0x1008, [(36, 0x40)], 0x0, false, [⟨"NS", 29, 0, .rwc, (.span 0 999999999)⟩]⟩,
  ⟨"TCM_POST_CTL", 0x100c, [(36, 0x40)], 0x0, false, [⟨"GO", 31, 31, .wo, .all⟩, ⟨"NOTIFY", 30, 30, .rw, .all⟩, ⟨"ANCHOR", 17, 16, .rwc, (.span 0 2)⟩, ⟨"UNITS", 8, 0, .rw, .all⟩]⟩,
  ⟨"TCM_POST_RESULT", 0x1010, [(36, 0x40)], 0x0, false, [⟨"ID", 31, 16, .ro, .all⟩, ⟨"OUTCOME", 3, 0, .ro, .all⟩]⟩,
  ⟨"TCM_POST_CANCEL", 0x1014, [(36, 0x40)], 0x0, false, [⟨"GO", 31, 31, .wo, .all⟩, ⟨"ID", 15, 0, .wo, .all⟩]⟩]

/-- Every register of unit TCM beyond its header (spec/04 R79). -/
def regRowsTCM : List RegRow := regRowsTCM0

def regRowsLLx0 : List RegRow := [
  ⟨"LLx_CTL", 0x40, [], 0x0, false, [⟨"TX_EN", 11, 8, .rw, .all⟩, ⟨"LASER_OFF", 7, 7, .rw, .all⟩, ⟨"TEST_MODE", 2, 0, .rwc, .dep⟩]⟩,
  ⟨"LLx_STATUS", 0x44, [], 0x1, false, [⟨"LASER_OK", 23, 20, .ro, .all⟩, ⟨"BEN", 19, 16, .ro, .all⟩, ⟨"CAUSE", 14, 8, .ro, .all⟩, ⟨"PRES", 4, 4, .ro, .all⟩, ⟨"MOD_STATE", 3, 0, .ro, .all⟩]⟩,
  ⟨"LLx_BEN_CFG", 0x48, [], 0x80210, false, [⟨"BEN_MIN_OFF", 22, 16, .rwc, (.span 0 64)⟩, ⟨"BEN_TAIL", 13, 8, .rwc, .dep⟩, ⟨"BEN_LEAD", 4, 0, .rwc, (.span 0 24)⟩]⟩,
  ⟨"LLx_MOD_CFG", 0x4c, [], 0x501407d0, false, [⟨"BUS_FAST", 31, 31, .rw, .all⟩, ⟨"MOD_ADDR", 30, 24, .rwc, (.span 8 119)⟩, ⟨"RST_MS", 23, 17, .rwc, (.span 1 100)⟩, ⟨"INIT_MS", 13, 0, .rwc, (.span 100 10000)⟩]⟩,
  ⟨"LLx_MOD_ID_CFG", 0x50, [], 0x1000000a, false, [⟨"DECLARED", 31, 31, .rw, .all⟩, ⟨"CHECK", 30, 30, .wo, .all⟩, ⟨"ID_LEN", 29, 24, .rwc, .dep⟩, ⟨"ID_PAGE", 23, 16, .rw, .all⟩, ⟨"ID_OFS", 15, 8, .rw, .all⟩, ⟨"RECHECK_S", 5, 0, .rwc, (.span 1 60)⟩]⟩,
  ⟨"LLx_MOD_ID_EXP", 0x60, [(8, 0x4)], 0x0, false, [⟨"BYTES", 31, 0, .rw, .all⟩]⟩,
  ⟨"LLx_MOD_ID_MASK", 0x80, [(8, 0x4)], 0xffffffff, false, [⟨"BYTES", 31, 0, .rw, .all⟩]⟩,
  ⟨"LLx_MOD_ID_READ", 0xa0, [(8, 0x4)], 0x0, false, [⟨"BYTES", 31, 0, .ro, .all⟩]⟩,
  ⟨"LLx_MOD_XFER", 0xc0, [], 0x0, false, [⟨"GO", 31, 31, .wo, .all⟩, ⟨"DIR", 30, 30, .rw, .all⟩, ⟨"DONE", 29, 29, .ro, .all⟩, ⟨"ERR", 28, 28, .ro, .all⟩, ⟨"PAGE", 23, 16, .rw, .all⟩, ⟨"OFS", 15, 8, .rw, .all⟩, ⟨"DATA", 7, 0, .rw, .all⟩]⟩,
  ⟨"LLx_BEN_SUPPRESSED", 0xd0, [], 0x0, false, [⟨"COUNT", 31, 0, .ro, .all⟩]⟩,
  ⟨"LLx_BEN_MERGED", 0xd4, [], 0x0, false, [⟨"COUNT", 31, 0, .ro, .all⟩]⟩,
  ⟨"LLx_MOD_BUS_ERR", 0xd8, [], 0x0, false, [⟨"COUNT", 31, 0, .ro, .all⟩]⟩]

def regRowsLLx1 : List RegRow := [
  ⟨"LLx_MOD_MISMATCH", 0xdc, [], 0x0, false, [⟨"COUNT", 31, 0, .ro, .all⟩]⟩,
  ⟨"LLx_EVT", 0xe0, [], 0x0, false, [⟨"EVENT", 5, 0, .w1c, .all⟩]⟩,
  ⟨"LLx_EVT_EN", 0xe4, [], 0x3f, false, [⟨"EVENT", 5, 0, .rw, .all⟩]⟩,
  ⟨"LLx_RXr_CFG", 0x1000, [(8, 0x100)], 0x2, false, [⟨"ADAPT_FREEZE", 3, 3, .rw, .all⟩, ⟨"INV", 2, 2, .rw, .all⟩, ⟨"GRAY", 1, 1, .rw, .all⟩, ⟨"PRECODE", 0, 0, .rw, .all⟩]⟩,
  ⟨"LLx_TXt_CFG", 0x1800, [(4, 0x100)], 0xc8020002, false, [⟨"AMP", 31, 24, .rwc, (.span 100 255)⟩, ⟨"PRE", 23, 20, .rwc, (.span 0 15)⟩, ⟨"POST", 19, 15, .rwc, (.span 0 31)⟩, ⟨"INV", 2, 2, .rw, .all⟩, ⟨"GRAY", 1, 1, .rw, .all⟩, ⟨"PRECODE", 0, 0, .rw, .all⟩]⟩,
  ⟨"LLx_RXr_STATUS", 0x1004, [(8, 0x100)], 0x0, false, [⟨"PRBS_LOCK", 3, 3, .ro, .all⟩, ⟨"BURST_CDR", 2, 2, .ro, .all⟩, ⟨"CDR_LOCK", 1, 1, .ro, .all⟩, ⟨"SIGNAL", 0, 0, .ro, .all⟩]⟩,
  ⟨"LLx_RXr_CHK", 0x1008, [(8, 0x100)], 0x10000, false, [⟨"CLR", 31, 31, .wo, .all⟩, ⟨"INJ_SINGLE", 30, 30, .wo, .all⟩, ⟨"INJ_BURST", 29, 29, .wo, .all⟩, ⟨"BURST_LEN", 26, 16, .rwc, (.span 1 1024)⟩, ⟨"EN", 3, 3, .rw, .all⟩, ⟨"PATTERN", 2, 0, .rwc, (.span 0 3)⟩]⟩,
  ⟨"LLx_TXt_GEN", 0x1804, [(4, 0x100)], 0x10000, false, [⟨"INJ_SINGLE", 30, 30, .wo, .all⟩, ⟨"INJ_BURST", 29, 29, .wo, .all⟩, ⟨"BURST_LEN", 26, 16, .rwc, (.span 1 1024)⟩, ⟨"EN", 3, 3, .rwc, .dep⟩, ⟨"PATTERN", 2, 0, .rwc, (.span 0 3)⟩]⟩,
  ⟨"LLx_RXr_PAT_LO", 0x100c, [(8, 0x100)], 0x0, false, [⟨"PATTERN", 31, 0, .rw, .all⟩]⟩,
  ⟨"LLx_RXr_PAT_HI", 0x1010, [(8, 0x100)], 0x0, false, [⟨"PATTERN", 31, 0, .rw, .all⟩]⟩,
  ⟨"LLx_TXt_PAT_LO", 0x1808, [(4, 0x100)], 0x0, false, [⟨"PATTERN", 31, 0, .rw, .all⟩]⟩,
  ⟨"LLx_TXt_PAT_HI", 0x180c, [(4, 0x100)], 0x0, false, [⟨"PATTERN", 31, 0, .rw, .all⟩]⟩]

def regRowsLLx2 : List RegRow := [
  ⟨"LLx_RXr_ERR_LO", 0x1014, [(8, 0x100)], 0x0, false, [⟨"COUNT", 31, 0, .ro, .all⟩]⟩,
  ⟨"LLx_RXr_ERR_HI", 0x1018, [(8, 0x100)], 0x0, false, [⟨"COUNT", 31, 0, .ro, .all⟩]⟩,
  ⟨"LLx_RXr_BITS_LO", 0x101c, [(8, 0x100)], 0x0, false, [⟨"COUNT", 31, 0, .ro, .all⟩]⟩,
  ⟨"LLx_RXr_BITS_HI", 0x1020, [(8, 0x100)], 0x0, false, [⟨"COUNT", 31, 0, .ro, .all⟩]⟩,
  ⟨"LLx_TXt_BURSTS", 0x1810, [(4, 0x100)], 0x0, false, [⟨"COUNT", 31, 0, .ro, .all⟩]⟩]

/-- Every register of unit LLx beyond its header (spec/05 R103). -/
def regRowsLLx : List RegRow := regRowsLLx0 ++ regRowsLLx1 ++ regRowsLLx2

def regRowsDSF0 : List RegRow := [
  ⟨"DSF_CFG", 0x40, [], 0x80003503, false, [⟨"GROUP_WIDTH", 31, 31, .rw, .all⟩, ⟨"GROUP_CHECK", 30, 30, .rw, .all⟩, ⟨"GROUP_ID", 23, 16, .rw, .all⟩, ⟨"FAW_TOL", 14, 12, .rwc, (.span 0 7)⟩, ⟨"LOSS_M", 11, 8, .rwc, (.span 3 15)⟩, ⟨"CONF_N", 2, 0, .rwc, (.span 2 7)⟩]⟩,
  ⟨"DSF_FILT_CFG", 0x44, [], 0x30800, false, [⟨"SR_PERSIST", 18, 16, .rwc, (.span 2 7)⟩, ⟨"SKEW_WIN", 11, 8, .rwc, (.span 1 8)⟩]⟩,
  ⟨"DSF_SD_CFG", 0x48, [], 0xa, false, [⟨"SD_THR", 15, 0, .rwc, (.span 1 65535)⟩]⟩,
  ⟨"DSF_STATUS", 0x50, [], 0x22, false, [⟨"MODE", 10, 9, .ro, .all⟩, ⟨"BONDED", 8, 8, .ro, .all⟩, ⟨"RDI", 5, 5, .ro, .all⟩, ⟨"SD", 4, 4, .ro, .all⟩, ⟨"LINE_AIS", 3, 3, .ro, .all⟩, ⟨"LINE_LOF", 2, 2, .ro, .all⟩, ⟨"LINE_LOS", 1, 1, .ro, .all⟩]⟩,
  ⟨"DSF_CH_STATE", 0x54, [], 0x0, false, [⟨"STATE", 15, 0, .ro, .all⟩]⟩,
  ⟨"DSF_CH_DEFECT", 0x58, [], 0xffff, false, [⟨"AIS", 23, 16, .ro, .all⟩, ⟨"LOF", 15, 8, .ro, .all⟩, ⟨"LOS", 7, 0, .ro, .all⟩]⟩,
  ⟨"DSF_FRAME_LO", 0x60, [], 0x0, false, [⟨"VALUE", 31, 0, .ro, .all⟩]⟩,
  ⟨"DSF_FRAME_HI", 0x64, [], 0x0, false, [⟨"VALUE", 15, 0, .ro, .all⟩]⟩,
  ⟨"DSF_SR", 0x68, [], 0x0, false, [⟨"ACC_SR1", 31, 24, .ro, .all⟩, ⟨"ACC_SR2", 23, 16, .ro, .all⟩, ⟨"RAW_SR1", 15, 8, .ro, .all⟩, ⟨"RAW_SR2", 7, 0, .ro, .all⟩]⟩,
  ⟨"DSF_EVT", 0x70, [], 0x0, false, [⟨"EVENT", 7, 0, .w1c, .all⟩]⟩,
  ⟨"DSF_EVT_EN", 0x74, [], 0x7f, false, [⟨"EVENT", 7, 0, .rw, .all⟩]⟩,
  ⟨"DSF_COUNTER_JUMP", 0x80, [], 0x0, false, [⟨"COUNT", 31, 0, .ro, .all⟩]⟩]

def regRowsDSF1 : List RegRow := [
  ⟨"DSF_GRANT_COUNT_BAD", 0x84, [], 0x0, false, [⟨"COUNT", 31, 0, .ro, .all⟩]⟩,
  ⟨"DSF_SR_DISAGREE", 0x88, [], 0x0, false, [⟨"COUNT", 31, 0, .ro, .all⟩]⟩,
  ⟨"DSF_BOND_LOSS", 0x8c, [], 0x0, false, [⟨"COUNT", 31, 0, .ro, .all⟩]⟩,
  ⟨"DSF_HUNT_OVF", 0x90, [], 0x0, false, [⟨"COUNT", 31, 0, .ro, .all⟩]⟩,
  ⟨"DSF_CH_MISMATCH", 0x94, [], 0x0, false, [⟨"COUNT", 31, 0, .ro, .all⟩]⟩,
  ⟨"DSF_SEC_TIME_HI", 0xa0, [], 0x0, false, [⟨"VALUE", 15, 0, .ro, .all⟩]⟩,
  ⟨"DSF_SEC_TIME_LO", 0xa4, [], 0x0, false, [⟨"VALUE", 31, 0, .ro, .all⟩]⟩,
  ⟨"DSF_SEC_INFO", 0xa8, [], 0x0, false, [⟨"STEPPED", 31, 31, .ro, .all⟩, ⟨"MODE", 1, 0, .ro, .all⟩]⟩,
  ⟨"DSF_SEC_LU_HDR_ERR", 0xac, [], 0x0, false, [⟨"COUNT", 31, 0, .ro, .all⟩]⟩,
  ⟨"DSF_CHc_STATUS", 0x1000, [(8, 0x100)], 0x0, false, [⟨"SKEW_NS", 31, 16, .ro, .all⟩, ⟨"LOSS_RUN", 11, 8, .ro, .all⟩, ⟨"CAND", 7, 4, .ro, .all⟩, ⟨"CONF_CNT", 3, 1, .ro, .all⟩]⟩,
  ⟨"DSF_CHc_SEC_FAW_ERR", 0x1004, [(8, 0x100)], 0x0, false, [⟨"COUNT", 31, 0, .ro, .all⟩]⟩,
  ⟨"DSF_CHc_SEC_FSB_CRC", 0x1008, [(8, 0x100)], 0x0, false, [⟨"COUNT", 31, 0, .ro, .all⟩]⟩]

def regRowsDSF2 : List RegRow := [
  ⟨"DSF_CHc_SEC_FEC_CORR", 0x100c, [(8, 0x100)], 0x0, false, [⟨"COUNT", 31, 0, .ro, .all⟩]⟩,
  ⟨"DSF_CHc_SEC_FEC_UNCORR", 0x1010, [(8, 0x100)], 0x0, false, [⟨"COUNT", 31, 0, .ro, .all⟩]⟩,
  ⟨"DSF_CHc_SEC_GRANT_CRC", 0x1014, [(8, 0x100)], 0x0, false, [⟨"COUNT", 31, 0, .ro, .all⟩]⟩]

/-- Every register of unit DSF beyond its header (spec/06 R125). -/
def regRowsDSF : List RegRow := regRowsDSF0 ++ regRowsDSF1 ++ regRowsDSF2

def regRowsRNG0 : List RegRow := [
  ⟨"RNG_SN_LO", 0x40, [], 0x0, false, [⟨"SN", 31, 0, .ro, .all⟩]⟩,
  ⟨"RNG_SN_HI", 0x44, [], 0x0, false, [⟨"SN", 31, 0, .ro, .all⟩]⟩,
  ⟨"RNG_Lx_CTL", 0x1000, [(2, 0x400)], 0x0, false, [⟨"REG_EN", 0, 0, .rw, .all⟩]⟩,
  ⟨"RNG_Lx_STATUS", 0x1004, [(2, 0x400)], 0xfff000, false, [⟨"SLEEP", 30, 30, .ro, .all⟩, ⟨"STOP_LATCH", 29, 29, .ro, .all⟩, ⟨"CAL_OK", 28, 28, .ro, .all⟩, ⟨"RANGED", 27, 24, .ro, .all⟩, ⟨"TERMINAL_ID", 23, 12, .ro, .all⟩, ⟨"PREV_STATE", 6, 4, .ro, .all⟩, ⟨"STATE", 2, 0, .ro, .all⟩]⟩,
  ⟨"RNG_Lx_TIMERS", 0x1008, [(2, 0x400)], 0xa0a0020, false, [⟨"ANN_TO", 29, 24, .rwc, (.span 1 60)⟩, ⟨"RNG_TO", 21, 16, .rwc, (.span 1 60)⟩, ⟨"HOLD_TO", 7, 0, .rwc, (.span 1 255)⟩]⟩,
  ⟨"RNG_Lx_SLEEP", 0x100c, [(2, 0x400)], 0x0, false, [⟨"LEASE", 31, 16, .ro, .all⟩, ⟨"LEFT", 15, 0, .ro, .all⟩]⟩,
  ⟨"RNG_Lx_WAVE_D", 0x1010, [(2, 0x400)], 0x1ffb8, false, [⟨"LAMBDA", 17, 0, .rwc, (.span 120000 170000)⟩]⟩,
  ⟨"RNG_Lx_WAVE_Uu", 0x1014, [(2, 0x400), (4, 0x4)], 0x1ffb8, false, [⟨"LAMBDA", 17, 0, .rwc, (.span 120000 170000)⟩]⟩,
  ⟨"RNG_Lx_WAVE_REF", 0x1024, [(2, 0x400)], 0x1ffb8, false, [⟨"LAMBDA", 17, 0, .rwc, (.span 120000 170000)⟩]⟩,
  ⟨"RNG_Lx_DISP", 0x1028, [(2, 0x400)], 0x3980000, false, [⟨"S", 31, 16, .rwc, (.span 0 2000)⟩, ⟨"D0", 15, 0, .rwc, (.spanS 16 (-30000) 30000)⟩]⟩,
  ⟨"RNG_Lx_ASYM_TOL", 0x102c, [(2, 0x400)], 0x1f4, false, [⟨"ASYM_TOL", 13, 0, .rwc, (.span 50 10000)⟩]⟩,
  ⟨"RNG_Lx_UCALu", 0x1030, [(2, 0x400), (4, 0x4)], 0x0, false, [⟨"UCAL", 15, 0, .rwc, (.spanS 16 (-20000) 20000)⟩]⟩]

def regRowsRNG1 : List RegRow := [
  ⟨"RNG_Lx_EQDu", 0x1040, [(2, 0x400), (4, 0x4)], 0x0, false, [⟨"VALID", 31, 31, .ro, .all⟩, ⟨"EQD", 23, 0, .ro, .all⟩]⟩,
  ⟨"RNG_Lx_RTDu", 0x1050, [(2, 0x400), (4, 0x4)], 0x0, false, [⟨"VALUE", 31, 0, .ro, .all⟩]⟩,
  ⟨"RNG_Lx_LEN", 0x1060, [(2, 0x400)], 0x0, false, [⟨"VALID", 31, 31, .ro, .all⟩, ⟨"HE_CH", 30, 29, .ro, .all⟩, ⟨"HE_ONLY", 28, 28, .ro, .all⟩, ⟨"LEN", 18, 0, .ro, .all⟩]⟩,
  ⟨"RNG_Lx_ASYMu", 0x1070, [(2, 0x400), (4, 0x4)], 0x0, false, [⟨"VALUE", 31, 0, .ro, .all⟩]⟩,
  ⟨"RNG_Lx_ASYM_HE", 0x1080, [(2, 0x400)], 0x0, false, [⟨"VALUE", 31, 0, .ro, .all⟩]⟩,
  ⟨"RNG_Lx_SN_RESP", 0x1090, [(2, 0x400)], 0x0, false, [⟨"COUNT", 31, 0, .ro, .all⟩]⟩,
  ⟨"RNG_Lx_RNG_RESP", 0x1094, [(2, 0x400)], 0x0, false, [⟨"COUNT", 31, 0, .ro, .all⟩]⟩,
  ⟨"RNG_Lx_NO_MARKER", 0x1098, [(2, 0x400)], 0x0, false, [⟨"COUNT", 31, 0, .ro, .all⟩]⟩,
  ⟨"RNG_Lx_GRANT_DROP", 0x109c, [(2, 0x400)], 0x0, false, [⟨"COUNT", 31, 0, .ro, .all⟩]⟩,
  ⟨"RNG_Lx_OVERLAP", 0x10a0, [(2, 0x400)], 0x0, false, [⟨"COUNT", 31, 0, .ro, .all⟩]⟩,
  ⟨"RNG_Lx_LMM_BAD", 0x10a4, [(2, 0x400)], 0x0, false, [⟨"COUNT", 31, 0, .ro, .all⟩]⟩,
  ⟨"RNG_Lx_LMM_DROP", 0x10a8, [(2, 0x400)], 0x0, false, [⟨"COUNT", 31, 0, .ro, .all⟩]⟩]

def regRowsRNG2 : List RegRow := [
  ⟨"RNG_Lx_ASYM_MISMATCH", 0x10ac, [(2, 0x400)], 0x0, false, [⟨"COUNT", 31, 0, .ro, .all⟩]⟩,
  ⟨"RNG_Lx_TIMEOUT", 0x10b0, [(2, 0x400)], 0x0, false, [⟨"COUNT", 31, 0, .ro, .all⟩]⟩,
  ⟨"RNG_Lx_EVT", 0x10c0, [(2, 0x400)], 0x0, false, [⟨"EVENT", 5, 0, .w1c, .all⟩]⟩,
  ⟨"RNG_Lx_EVT_EN", 0x10c4, [(2, 0x400)], 0x3f, false, [⟨"EVENT", 5, 0, .rw, .all⟩]⟩]

/-- Every register of unit RNG beyond its header (spec/07 R147). -/
def regRowsRNG : List RegRow := regRowsRNG0 ++ regRowsRNG1 ++ regRowsRNG2

def regRowsUPB0 : List RegRow := [
  ⟨"UPB_PROFILE0", 0x40, [], 0x0, false, [⟨"LEN", 1, 0, .rwc, (.span 0 2)⟩]⟩,
  ⟨"UPB_PROFILE1", 0x44, [], 0x1, false, [⟨"LEN", 1, 0, .rwc, (.span 0 2)⟩]⟩,
  ⟨"UPB_PROFILE2", 0x48, [], 0x2, false, [⟨"LEN", 1, 0, .rwc, (.span 0 2)⟩]⟩,
  ⟨"UPB_PRE_LO", 0x50, [(3, 0x8)], 0x33333333, false, [⟨"WORD", 31, 0, .rw, .all⟩]⟩,
  ⟨"UPB_PRE_HI", 0x54, [(3, 0x8)], 0x33333333, false, [⟨"WORD", 31, 0, .rw, .all⟩]⟩,
  ⟨"UPB_STATUS", 0x70, [], 0x0, false, [⟨"MAP_ACCEPTED", 24, 16, .ro, .all⟩, ⟨"IN_FLIGHT", 9, 0, .ro, .all⟩]⟩,
  ⟨"UPB_GRANT_ACC", 0x80, [], 0x0, false, [⟨"COUNT", 31, 0, .ro, .all⟩]⟩,
  ⟨"UPB_BAD_STATE", 0x84, [], 0x0, false, [⟨"COUNT", 31, 0, .ro, .all⟩]⟩,
  ⟨"UPB_BAD_PROFILE", 0x88, [], 0x0, false, [⟨"COUNT", 31, 0, .ro, .all⟩]⟩,
  ⟨"UPB_BAD_RANGE", 0x8c, [], 0x0, false, [⟨"COUNT", 31, 0, .ro, .all⟩]⟩,
  ⟨"UPB_BAD_OVERLAP", 0x90, [], 0x0, false, [⟨"COUNT", 31, 0, .ro, .all⟩]⟩,
  ⟨"UPB_BURSTS", 0x94, [], 0x0, false, [⟨"COUNT", 31, 0, .ro, .all⟩]⟩]

def regRowsUPB1 : List RegRow := [
  ⟨"UPB_SUPPRESSED", 0x98, [], 0x0, false, [⟨"COUNT", 31, 0, .ro, .all⟩]⟩,
  ⟨"UPB_REPORTS", 0x9c, [], 0x0, false, [⟨"COUNT", 31, 0, .ro, .all⟩]⟩,
  ⟨"UPB_FILLER_BLK", 0xa0, [], 0x0, false, [⟨"COUNT", 31, 0, .ro, .all⟩]⟩,
  ⟨"UPB_SHORT_BLK", 0xa4, [], 0x0, false, [⟨"COUNT", 31, 0, .ro, .all⟩]⟩,
  ⟨"UPB_FORCE_WAKE", 0xa8, [], 0x0, false, [⟨"COUNT", 31, 0, .ro, .all⟩]⟩,
  ⟨"UPB_EVT", 0xc0, [], 0x0, false, [⟨"EVENT", 2, 0, .w1c, .all⟩]⟩,
  ⟨"UPB_EVT_EN", 0xc4, [], 0x7, false, [⟨"EVENT", 2, 0, .rw, .all⟩]⟩]

/-- Every register of unit UPB beyond its header (spec/08 R168, R169). -/
def regRowsUPB : List RegRow := regRowsUPB0 ++ regRowsUPB1

def regRowsNRW0 : List RegRow := [
  ⟨"NRW_CFG", 0x40, [], 0x2800f0, false, [⟨"HORIZON", 22, 16, .rwc, (.span 10 120)⟩, ⟨"REFILL_MAX", 8, 0, .rwc, (.span 100 300)⟩]⟩,
  ⟨"NRW_STATUS", 0x44, [], 0x2000, false, [⟨"SPARE_IN_USE", 31, 31, .ro, .all⟩, ⟨"CAPACITY", 13, 0, .ro, .all⟩]⟩,
  ⟨"NRW_OCC", 0x48, [], 0x0, false, [⟨"STAGED", 29, 16, .ro, .all⟩, ⟨"RESERVED", 13, 0, .ro, .all⟩]⟩,
  ⟨"NRW_FLOOR_WAIT", 0x50, [], 0x0, false, [⟨"COUNT", 31, 0, .ro, .all⟩]⟩,
  ⟨"NRW_CARRY_DISCARD", 0x54, [], 0x0, false, [⟨"COUNT", 31, 0, .ro, .all⟩]⟩,
  ⟨"NRW_ECC_CORR", 0x58, [], 0x0, false, [⟨"COUNT", 31, 0, .ro, .all⟩]⟩,
  ⟨"NRW_ECC_UNCORR", 0x5c, [], 0x0, false, [⟨"COUNT", 31, 0, .ro, .all⟩]⟩,
  ⟨"NRW_EVT", 0x60, [], 0x0, false, [⟨"EVENT", 2, 0, .w1c, .all⟩]⟩,
  ⟨"NRW_EVT_EN", 0x64, [], 0x7, false, [⟨"EVENT", 2, 0, .rw, .all⟩]⟩,
  ⟨"NRW_ALLOCi_CFG", 0x1000, [(512, 0x10)], 0x0, false, [⟨"VALID", 31, 31, .rw, .all⟩, ⟨"LINE", 30, 30, .rw, .all⟩, ⟨"ALLOC_ID", 11, 0, .rw, .all⟩]⟩,
  ⟨"NRW_ALLOCi_FLOOR", 0x1004, [(512, 0x10)], 0x10, false, [⟨"FLOOR", 10, 0, .rwc, (.span 0 1024)⟩]⟩,
  ⟨"NRW_ALLOCi_OCC", 0x1008, [(512, 0x10)], 0x0, false, [⟨"CARRY", 29, 16, .ro, .all⟩, ⟨"STAGED", 13, 0, .ro, .all⟩]⟩]

def regRowsNRW1 : List RegRow := [
  ⟨"NRW_ALLOCi_SHORT", 0x100c, [(512, 0x10)], 0x0, false, [⟨"COUNT", 31, 0, .ro, .all⟩]⟩]

/-- Every register of unit NRW beyond its header (spec/08 R168, R169). -/
def regRowsNRW : List RegRow := regRowsNRW0 ++ regRowsNRW1

def regRowsENC0 : List RegRow := [
  ⟨"ENC_CFG", 0x40, [], 0x3fef, true, [⟨"FRAG_SIZE", 13, 0, .rwc, (.span 256 16367)⟩]⟩,
  ⟨"ENC_REASM_CFG", 0x44, [], 0x1f4, false, [⟨"REASM_WIN", 10, 0, .rwc, (.span 125 2000)⟩]⟩,
  ⟨"ENC_BMAP_SEL", 0x48, [], 0x0, true, [⟨"SEL_B", 1, 1, .rw, .all⟩, ⟨"SEL_A", 0, 0, .rw, .all⟩]⟩,
  ⟨"ENC_BMAP_PORT", 0x4c, [], 0x0, false, [⟨"LINE", 0, 0, .rw, .all⟩]⟩,
  ⟨"ENC_BMAPk", 0x20000, [(32768, 0x4)], 0x0, false, [⟨"ACCEPT", 31, 0, .rw, .all⟩]⟩,
  ⟨"ENC_EVT", 0x60, [], 0x0, false, [⟨"EVENT", 2, 0, .w1c, .all⟩]⟩,
  ⟨"ENC_EVT_EN", 0x64, [], 0x7, false, [⟨"EVENT", 2, 0, .rw, .all⟩]⟩,
  ⟨"ENC_Lx_STATUS", 0x1000, [(2, 0x100)], 0x3, false, [⟨"CONTEXTS", 14, 8, .ro, .all⟩, ⟨"DELIN", 1, 0, .ro, .all⟩]⟩,
  ⟨"ENC_Lx_LU_ACCEPTED", 0x1010, [(2, 0x100)], 0x0, false, [⟨"COUNT", 31, 0, .ro, .all⟩]⟩,
  ⟨"ENC_Lx_LU_FOREIGN", 0x1014, [(2, 0x100)], 0x0, false, [⟨"COUNT", 31, 0, .ro, .all⟩]⟩,
  ⟨"ENC_Lx_LU_HDR_ERR", 0x1018, [(2, 0x100)], 0x0, false, [⟨"COUNT", 31, 0, .ro, .all⟩]⟩,
  ⟨"ENC_Lx_LU_DELIN_LOSS", 0x101c, [(2, 0x100)], 0x0, false, [⟨"COUNT", 31, 0, .ro, .all⟩]⟩]

def regRowsENC1 : List RegRow := [
  ⟨"ENC_Lx_LU_BAD_RULE", 0x1020, [(2, 0x100)], 0x0, false, [⟨"COUNT", 31, 0, .ro, .all⟩]⟩,
  ⟨"ENC_Lx_LU_FEC_DISCARD", 0x1024, [(2, 0x100)], 0x0, false, [⟨"COUNT", 31, 0, .ro, .all⟩]⟩,
  ⟨"ENC_Lx_LU_RUNT", 0x1028, [(2, 0x100)], 0x0, false, [⟨"COUNT", 31, 0, .ro, .all⟩]⟩,
  ⟨"ENC_Lx_LU_LONG", 0x102c, [(2, 0x100)], 0x0, false, [⟨"COUNT", 31, 0, .ro, .all⟩]⟩,
  ⟨"ENC_Lx_LU_FCS", 0x1030, [(2, 0x100)], 0x0, false, [⟨"COUNT", 31, 0, .ro, .all⟩]⟩,
  ⟨"ENC_Lx_REASM_OVF", 0x1034, [(2, 0x100)], 0x0, false, [⟨"COUNT", 31, 0, .ro, .all⟩]⟩,
  ⟨"ENC_Lx_REASM_TIMEOUT", 0x1038, [(2, 0x100)], 0x0, false, [⟨"COUNT", 31, 0, .ro, .all⟩]⟩,
  ⟨"ENC_Lx_LU_TX", 0x103c, [(2, 0x100)], 0x0, false, [⟨"COUNT", 31, 0, .ro, .all⟩]⟩,
  ⟨"ENC_Lx_LU_FRAG", 0x1040, [(2, 0x100)], 0x0, false, [⟨"COUNT", 31, 0, .ro, .all⟩]⟩]

/-- Every register of unit ENC beyond its header (spec/09 R179). -/
def regRowsENC : List RegRow := regRowsENC0 ++ regRowsENC1

def regRowsCIP0 : List RegRow := [
  ⟨"CIP_CTL", 0x40, [], 0x4000100, false, [⟨"RETIRE_THR", 31, 24, .rwc, (.span 1 255)⟩, ⟨"RX_WIN", 12, 0, .rwc, (.span 1 4096)⟩]⟩,
  ⟨"CIP_CTR_LIMIT_LO", 0x44, [], 0x0, false, [⟨"LIMIT", 31, 0, .rw, .all⟩]⟩,
  ⟨"CIP_CTR_LIMIT_HI", 0x48, [], 0x100, false, [⟨"LIMIT", 31, 0, .rw, .all⟩]⟩,
  ⟨"CIP_STATUS", 0x4c, [], 0x10, false, [⟨"BOOT_SET_B", 19, 19, .ro, .all⟩, ⟨"BOOT_SET_A", 18, 18, .ro, .all⟩, ⟨"SPARE_B_USED", 17, 17, .ro, .all⟩, ⟨"SPARE_A_USED", 16, 16, .ro, .all⟩, ⟨"CAPACITY_LOW", 5, 5, .ro, .all⟩, ⟨"ENGINES_OK", 4, 0, .ro, .all⟩]⟩,
  ⟨"CIP_LA_MGMT", 0x50, [], 0x0, false, [⟨"PAGE", 2, 0, .rw, .all⟩]⟩,
  ⟨"CIP_LB_MGMT", 0x54, [], 0x0, false, [⟨"PAGE", 2, 0, .rw, .all⟩]⟩,
  ⟨"CIP_LA_BOOTj", 0x100, [(8, 0x4)], 0x0, false, [⟨"KEY", 31, 0, .wo, .all⟩]⟩,
  ⟨"CIP_LB_BOOTj", 0x120, [(8, 0x4)], 0x0, false, [⟨"KEY", 31, 0, .wo, .all⟩]⟩,
  ⟨"CIP_EVT", 0x60, [], 0x0, false, [⟨"EVENT", 5, 0, .w1c, .all⟩]⟩,
  ⟨"CIP_EVT_EN", 0x64, [], 0x3f, false, [⟨"EVENT", 5, 0, .rw, .all⟩]⟩,
  ⟨"CIP_AUTH_FAIL", 0x80, [], 0x0, false, [⟨"COUNT", 31, 0, .ro, .all⟩]⟩,
  ⟨"CIP_RX_SKIPPED", 0x84, [], 0x0, false, [⟨"COUNT", 31, 0, .ro, .all⟩]⟩]

def regRowsCIP1 : List RegRow := [
  ⟨"CIP_EXH_DISCARD", 0x88, [], 0x0, false, [⟨"COUNT", 31, 0, .ro, .all⟩]⟩,
  ⟨"CIP_NO_KEY", 0x8c, [], 0x0, false, [⟨"COUNT", 31, 0, .ro, .all⟩]⟩,
  ⟨"CIP_PAGE_BAD", 0x90, [], 0x0, false, [⟨"COUNT", 31, 0, .ro, .all⟩]⟩,
  ⟨"CIP_SHORT", 0x94, [], 0x0, false, [⟨"COUNT", 31, 0, .ro, .all⟩]⟩,
  ⟨"CIP_MISMATCH", 0x98, [], 0x0, false, [⟨"COUNT", 31, 0, .ro, .all⟩]⟩,
  ⟨"CIP_OVERRUN", 0x9c, [], 0x0, false, [⟨"COUNT", 31, 0, .ro, .all⟩]⟩,
  ⟨"CIP_KEY_REFUSED", 0xa0, [], 0x0, false, [⟨"COUNT", 31, 0, .ro, .all⟩]⟩,
  ⟨"CIP_UNITS_RX", 0xa4, [], 0x0, false, [⟨"COUNT", 31, 0, .ro, .all⟩]⟩,
  ⟨"CIP_UNITS_TX", 0xa8, [], 0x0, false, [⟨"COUNT", 31, 0, .ro, .all⟩]⟩,
  ⟨"CIP_ENGe_STATUS", 0x200, [(16, 0x4)], 0x0, false, [⟨"STATE", 31, 30, .ro, .all⟩, ⟨"VERDICT", 29, 27, .ro, .all⟩, ⟨"FAULTS", 7, 0, .ro, .all⟩]⟩,
  ⟨"CIP_ENGt_STATUS", 0x240, [(2, 0x4)], 0x40000000, false, [⟨"STATE", 31, 30, .ro, .all⟩, ⟨"VERDICT", 29, 27, .ro, .all⟩, ⟨"FAULTS", 7, 0, .ro, .all⟩]⟩,
  ⟨"CIP_PAGEp_TXSEL", 0x1000, [(64, 0x20)], 0x0, true, [⟨"MODE", 2, 2, .rw, .all⟩, ⟨"TX_SLOT", 1, 0, .rw, .all⟩]⟩]

def regRowsCIP2 : List RegRow := [
  ⟨"CIP_PAGEp_SALT", 0x1004, [(64, 0x20)], 0x0, false, [⟨"SALT", 31, 0, .rw, .all⟩]⟩,
  ⟨"CIP_PAGEp_STATUS", 0x1008, [(64, 0x20)], 0x0, false, [⟨"OWNER", 31, 24, .ro, .all⟩, ⟨"DESYNC", 11, 8, .ro, .all⟩, ⟨"EXHAUSTED", 7, 4, .ro, .all⟩, ⟨"LOADED", 3, 0, .ro, .all⟩]⟩,
  ⟨"CIP_PAGEp_AUTH_FAIL", 0x100c, [(64, 0x20)], 0x0, false, [⟨"COUNT", 31, 0, .ro, .all⟩]⟩,
  ⟨"CIP_KEYj", 0x4000, [(256, 0x40), (8, 0x4)], 0x0, false, [⟨"KEY", 31, 0, .wo, .all⟩]⟩,
  ⟨"CIP_SLOT_CTL", 0x4020, [(256, 0x40)], 0x0, false, [⟨"CLEAR", 1, 1, .wo, .all⟩, ⟨"LOAD", 0, 0, .wo, .all⟩]⟩,
  ⟨"CIP_TX_CTR_LO", 0x4024, [(256, 0x40)], 0x0, false, [⟨"VALUE", 31, 0, .ro, .all⟩]⟩,
  ⟨"CIP_TX_CTR_HI", 0x4028, [(256, 0x40)], 0x0, false, [⟨"VALUE", 31, 0, .ro, .all⟩]⟩,
  ⟨"CIP_RX_CTR_LO", 0x402c, [(256, 0x40)], 0x0, false, [⟨"VALUE", 31, 0, .ro, .all⟩]⟩,
  ⟨"CIP_RX_CTR_HI", 0x4030, [(256, 0x40)], 0x0, false, [⟨"VALUE", 31, 0, .ro, .all⟩]⟩]

/-- Every register of unit CIP beyond its header (spec/10 R197). -/
def regRowsCIP : List RegRow := regRowsCIP0 ++ regRowsCIP1 ++ regRowsCIP2

def regRowsSDL0 : List RegRow := [
  ⟨"SDL_CFG", 0x40, [], 0xe000012c, false, [⟨"REVERTIVE", 31, 31, .rw, .all⟩, ⟨"KEY_MIRROR", 30, 30, .rw, .all⟩, ⟨"BMAP_MIRROR", 29, 29, .rw, .all⟩, ⟨"WTR_S", 11, 0, .rwc, (.span 10 3600)⟩]⟩,
  ⟨"SDL_KA_CFG", 0x44, [], 0x80, false, [⟨"KA_TO", 12, 0, .rwc, (.span 16 8000)⟩]⟩,
  ⟨"SDL_CMD", 0x48, [], 0x0, true, [⟨"TARGET", 4, 4, .rw, .all⟩, ⟨"CMD", 2, 0, .rwc, (.span 0 5)⟩]⟩,
  ⟨"SDL_STATUS", 0x4c, [], 0x0, false, [⟨"SWITCHING", 31, 31, .ro, .all⟩, ⟨"WTR_RUN", 30, 30, .ro, .all⟩, ⟨"HAS_ACTIVE", 29, 29, .ro, .all⟩, ⟨"ACTIVE", 28, 28, .ro, .all⟩, ⟨"LOCK_B", 27, 27, .ro, .all⟩, ⟨"LOCK_A", 26, 26, .ro, .all⟩, ⟨"HOST_REQ", 25, 23, .ro, .all⟩, ⟨"HOST_TARGET", 22, 22, .ro, .all⟩, ⟨"REQ", 19, 16, .ro, .all⟩, ⟨"REQ_LINE", 15, 15, .ro, .all⟩, ⟨"REQ_SRC", 14, 12, .ro, .all⟩, ⟨"WTR_LEFT", 11, 0, .ro, .all⟩]⟩,
  ⟨"SDL_LAST_SW", 0x50, [], 0x0, false, [⟨"REQ", 31, 28, .ro, .all⟩, ⟨"SRC", 27, 25, .ro, .all⟩, ⟨"TO_LINE", 24, 24, .ro, .all⟩]⟩,
  ⟨"SDL_LAST_SW_SEC", 0x54, [], 0x0, false, [⟨"VALUE", 31, 0, .ro, .all⟩]⟩,
  ⟨"SDL_LAST_SW_NS", 0x58, [], 0x0, false, [⟨"VALUE", 29, 0, .ro, .all⟩]⟩,
  ⟨"SDL_LAST_GAP", 0x5c, [], 0x0, false, [⟨"UP_US", 31, 16, .ro, .all⟩, ⟨"DN_US", 15, 0, .ro, .all⟩]⟩,
  ⟨"SDL_SWITCHES", 0x80, [], 0x0, false, [⟨"COUNT", 31, 0, .ro, .all⟩]⟩,
  ⟨"SDL_REVERTS", 0x84, [], 0x0, false, [⟨"COUNT", 31, 0, .ro, .all⟩]⟩,
  ⟨"SDL_BLOCKED", 0x88, [], 0x0, false, [⟨"COUNT", 31, 0, .ro, .all⟩]⟩,
  ⟨"SDL_CMD_REFUSED", 0x8c, [], 0x0, false, [⟨"COUNT", 31, 0, .ro, .all⟩]⟩]

def regRowsSDL1 : List RegRow := [
  ⟨"SDL_SR_BAD", 0x90, [], 0x0, false, [⟨"COUNT", 31, 0, .ro, .all⟩]⟩,
  ⟨"SDL_WITHDRAWN", 0x94, [], 0x0, false, [⟨"COUNT", 31, 0, .ro, .all⟩]⟩,
  ⟨"SDL_UNPAIRED", 0x98, [], 0x0, false, [⟨"COUNT", 31, 0, .ro, .all⟩]⟩,
  ⟨"SDL_EVT", 0xc0, [], 0x0, false, [⟨"EVENT", 6, 0, .w1c, .all⟩]⟩,
  ⟨"SDL_EVT_EN", 0xc4, [], 0x7f, false, [⟨"EVENT", 6, 0, .rw, .all⟩]⟩,
  ⟨"SDL_Lx_HEALTH", 0x1000, [(2, 0x100)], 0x80000000, false, [⟨"GRADE", 31, 30, .ro, .all⟩, ⟨"SF", 29, 29, .ro, .all⟩, ⟨"SD", 28, 28, .ro, .all⟩, ⟨"MIRROR_OK", 27, 27, .ro, .all⟩, ⟨"KA_LATE", 26, 26, .ro, .all⟩, ⟨"BST_FAIL", 25, 25, .ro, .all⟩, ⟨"SUPPR", 24, 24, .ro, .all⟩, ⟨"SF_CAUSE", 22, 16, .ro, .all⟩, ⟨"KA_GRANTS", 15, 8, .ro, .all⟩, ⟨"UNCORR", 7, 0, .ro, .all⟩]⟩,
  ⟨"SDL_Lx_HEALTH_SEC", 0x1004, [(2, 0x100)], 0x0, false, [⟨"SEC", 31, 0, .ro, .all⟩]⟩,
  ⟨"SDL_PAIRi", 0x2000, [(512, 0x4)], 0x0, false, [⟨"VALID", 31, 31, .rw, .all⟩, ⟨"PARTNER", 8, 0, .rw, .all⟩]⟩]

/-- Every register of unit SDL beyond its header (spec/11 R209). -/
def regRowsSDL : List RegRow := regRowsSDL0 ++ regRowsSDL1

def regRowsSLN0 : List RegRow := [
  ⟨"SLN_REFS_STATUS", 0x40, [], 0x0, false, [⟨"REFS_OK", 3, 0, .ro, .all⟩]⟩,
  ⟨"SLN_QUAD_STATE", 0x44, [], 0x0, false, [⟨"STATE", 15, 0, .ro, .all⟩]⟩,
  ⟨"SLN_EVT", 0x50, [], 0x0, false, [⟨"EVENT", 9, 0, .w1c, .all⟩]⟩,
  ⟨"SLN_EVT_EN", 0x54, [], 0x3ff, false, [⟨"EVENT", 9, 0, .rw, .all⟩]⟩,
  ⟨"SLN_LANEl_CFG", 0x1000, [(4, 0x100)], 0x6f000000, false, [⟨"ENABLE", 31, 31, .rw, .all⟩, ⟨"AN_EN", 30, 30, .rw, .all⟩, ⟨"TRAIN_EN", 29, 29, .rw, .all⟩, ⟨"MEDIA", 28, 28, .rw, .all⟩, ⟨"SPEED", 27, 26, .rw, .all⟩, ⟨"FEC", 25, 24, .rwc, .dep⟩, ⟨"REF_SEL", 23, 22, .rw, .all⟩, ⟨"PRES_SRC", 21, 20, .rwc, (.span 0 2)⟩, ⟨"HOST_PRES", 19, 19, .rw, .all⟩]⟩,
  ⟨"SLN_LANEl_ADV", 0x1004, [(4, 0x100)], 0x15f, false, [⟨"PAUSE", 9, 8, .rw, .all⟩, ⟨"FEC_BITS", 7, 4, .rw, .all⟩, ⟨"ABIL", 3, 0, .rwc, (.span 1 15)⟩]⟩,
  ⟨"SLN_LANEl_CTL", 0x1008, [(4, 0x100)], 0x0, false, [⟨"RESTART", 31, 31, .wo, .all⟩, ⟨"TEST_MODE", 2, 0, .rwc, (.span 0 3)⟩]⟩,
  ⟨"SLN_LANEl_TIMERS", 0x100c, [(4, 0x100)], 0x1e32a1f4, false, [⟨"AN_TO", 31, 24, .rwc, (.span 5 100)⟩, ⟨"TRAIN_TO", 23, 16, .rwc, (.span 5 150)⟩, ⟨"CAP_MS", 15, 12, .rwc, (.span 1 15)⟩, ⟨"LINK_TO", 11, 0, .rwc, (.span 50 4000)⟩]⟩,
  ⟨"SLN_LANEl_STATUS", 0x1010, [(4, 0x100)], 0x0, false, [⟨"STATE", 31, 28, .ro, .all⟩, ⟨"PREV_STATE", 27, 24, .ro, .all⟩, ⟨"RES_SPEED", 23, 22, .ro, .all⟩, ⟨"RES_FEC", 21, 20, .ro, .all⟩, ⟨"PAUSE_RX", 19, 19, .ro, .all⟩, ⟨"PAUSE_TX", 18, 18, .ro, .all⟩, ⟨"PRESENT", 17, 17, .ro, .all⟩, ⟨"SIGNAL", 16, 16, .ro, .all⟩, ⟨"CDR_LOCK", 15, 15, .ro, .all⟩, ⟨"AM_LOCK", 14, 14, .ro, .all⟩, ⟨"BLOCK_LOCK", 13, 13, .ro, .all⟩, ⟨"HI_BER", 12, 12, .ro, .all⟩, ⟨"LF", 11, 11, .ro, .all⟩, ⟨"RF", 10, 10, .ro, .all⟩, ⟨"PRBS_LOCK", 9, 9, .ro, .all⟩, ⟨"REF_OK", 8, 8, .ro, .all⟩, ⟨"LAST_FAIL", 3, 0, .ro, .all⟩]⟩,
  ⟨"SLN_LANEl_TX", 0x1014, [(4, 0x100)], 0xc8020002, false, [⟨"AMP", 31, 24, .rwc, (.span 100 255)⟩, ⟨"PRE", 23, 20, .rwc, (.span 0 15)⟩, ⟨"POST", 19, 15, .rwc, (.span 0 31)⟩, ⟨"INV", 2, 2, .rw, .all⟩, ⟨"GRAY", 1, 1, .rw, .all⟩, ⟨"PRECODE", 0, 0, .rw, .all⟩]⟩,
  ⟨"SLN_LANEl_RX", 0x1018, [(4, 0x100)], 0x2, false, [⟨"ADAPT_FREEZE", 3, 3, .rw, .all⟩, ⟨"INV", 2, 2, .rw, .all⟩, ⟨"GRAY", 1, 1, .rw, .all⟩, ⟨"PRECODE", 0, 0, .rw, .all⟩]⟩,
  ⟨"SLN_LANEl_TAPS", 0x101c, [(4, 0x100)], 0xc80004, false, [⟨"AMP", 23, 16, .ro, .all⟩, ⟨"PRE", 11, 8, .ro, .all⟩, ⟨"POST", 4, 0, .ro, .all⟩]⟩]

def regRowsSLN1 : List RegRow := [
  ⟨"SLN_LANEl_GEN", 0x1020, [(4, 0x100)], 0x10000, false, [⟨"INJ_SINGLE", 30, 30, .wo, .all⟩, ⟨"INJ_BURST", 29, 29, .wo, .all⟩, ⟨"BURST_LEN", 26, 16, .rwc, (.span 1 1024)⟩, ⟨"EN", 3, 3, .rwc, .dep⟩, ⟨"PATTERN", 2, 0, .rwc, (.span 0 3)⟩]⟩,
  ⟨"SLN_LANEl_CHK", 0x1024, [(4, 0x100)], 0x10000, false, [⟨"CLR", 31, 31, .wo, .all⟩, ⟨"INJ_SINGLE", 30, 30, .wo, .all⟩, ⟨"INJ_BURST", 29, 29, .wo, .all⟩, ⟨"BURST_LEN", 26, 16, .rwc, (.span 1 1024)⟩, ⟨"EN", 3, 3, .rw, .all⟩, ⟨"PATTERN", 2, 0, .rwc, (.span 0 3)⟩]⟩,
  ⟨"SLN_LANEl_PAT_LO", 0x1028, [(4, 0x100)], 0x0, false, [⟨"PATTERN", 31, 0, .rw, .all⟩]⟩,
  ⟨"SLN_LANEl_PAT_HI", 0x102c, [(4, 0x100)], 0x0, false, [⟨"PATTERN", 31, 0, .rw, .all⟩]⟩,
  ⟨"SLN_LANEl_ERR_LO", 0x1030, [(4, 0x100)], 0x0, false, [⟨"COUNT", 31, 0, .ro, .all⟩]⟩,
  ⟨"SLN_LANEl_ERR_HI", 0x1034, [(4, 0x100)], 0x0, false, [⟨"COUNT", 31, 0, .ro, .all⟩]⟩,
  ⟨"SLN_LANEl_BITS_LO", 0x1038, [(4, 0x100)], 0x0, false, [⟨"COUNT", 31, 0, .ro, .all⟩]⟩,
  ⟨"SLN_LANEl_BITS_HI", 0x103c, [(4, 0x100)], 0x0, false, [⟨"COUNT", 31, 0, .ro, .all⟩]⟩,
  ⟨"SLN_LANEl_LINK_DOWN", 0x1040, [(4, 0x100)], 0x0, false, [⟨"COUNT", 31, 0, .ro, .all⟩]⟩,
  ⟨"SLN_LANEl_AN_FAIL", 0x1044, [(4, 0x100)], 0x0, false, [⟨"COUNT", 31, 0, .ro, .all⟩]⟩,
  ⟨"SLN_LANEl_TRAIN_FAIL", 0x1048, [(4, 0x100)], 0x0, false, [⟨"COUNT", 31, 0, .ro, .all⟩]⟩,
  ⟨"SLN_LANEl_LOCK_LOSS", 0x104c, [(4, 0x100)], 0x0, false, [⟨"COUNT", 31, 0, .ro, .all⟩]⟩]

def regRowsSLN2 : List RegRow := [
  ⟨"SLN_LANEl_RM_INS", 0x1050, [(4, 0x100)], 0x0, false, [⟨"COUNT", 31, 0, .ro, .all⟩]⟩,
  ⟨"SLN_LANEl_RM_DEL", 0x1054, [(4, 0x100)], 0x0, false, [⟨"COUNT", 31, 0, .ro, .all⟩]⟩,
  ⟨"SLN_LANEl_RM_OVF", 0x1058, [(4, 0x100)], 0x0, false, [⟨"COUNT", 31, 0, .ro, .all⟩]⟩,
  ⟨"SLN_LANEl_FEC_CORR_CW", 0x105c, [(4, 0x100)], 0x0, false, [⟨"COUNT", 31, 0, .ro, .all⟩]⟩,
  ⟨"SLN_LANEl_FEC_UNCORR_CW", 0x1060, [(4, 0x100)], 0x0, false, [⟨"COUNT", 31, 0, .ro, .all⟩]⟩,
  ⟨"SLN_LANEl_FEC_SYM", 0x1064, [(4, 0x100)], 0x0, false, [⟨"COUNT", 31, 0, .ro, .all⟩]⟩]

/-- Every register of unit SLN beyond its header (spec/12 R224). -/
def regRowsSLN : List RegRow := regRowsSLN0 ++ regRowsSLN1 ++ regRowsSLN2

def regRowsMAC0 : List RegRow := [
  ⟨"MAC_EVT", 0x50, [], 0x0, false, [⟨"EVENT", 3, 0, .w1c, .all⟩]⟩,
  ⟨"MAC_EVT_EN", 0x54, [], 0xf, false, [⟨"EVENT", 3, 0, .rw, .all⟩]⟩,
  ⟨"MAC_WAKE_CFG", 0x100, [], 0x80000002, false, [⟨"EN", 31, 31, .rw, .all⟩, ⟨"WAKE_N", 2, 0, .rwc, (.span 1 4)⟩]⟩,
  ⟨"MAC_WAKE_COUNT", 0x104, [], 0x0, false, [⟨"COUNT", 31, 0, .ro, .all⟩]⟩,
  ⟨"MAC_LANEl_CFG", 0x1000, [(4, 0x100)], 0x1105ee, false, [⟨"WD_EN", 20, 20, .rw, .all⟩, ⟨"FC_MODE", 17, 16, .rwc, (.span 0 2)⟩, ⟨"MAX_LEN", 13, 0, .rwc, (.span 1518 9216)⟩]⟩,
  ⟨"MAC_LANEl_ADDR_LO", 0x1004, [(4, 0x100)], 0x0, false, [⟨"ADDR", 31, 0, .rw, .all⟩]⟩,
  ⟨"MAC_LANEl_ADDR_HI", 0x1008, [(4, 0x100)], 0x0, false, [⟨"ADDR", 15, 0, .rw, .all⟩]⟩,
  ⟨"MAC_LANEl_FC_TX", 0x100c, [(4, 0x100)], 0xffff7fff, false, [⟨"QUANTA", 31, 16, .rwc, (.span 1 65535)⟩, ⟨"REFRESH", 15, 0, .rwc, .dep⟩]⟩,
  ⟨"MAC_LANEl_STATUS", 0x1010, [(4, 0x100)], 0x20000000, false, [⟨"WD_IGNORE", 31, 31, .ro, .all⟩, ⟨"PAUSED", 30, 30, .ro, .all⟩, ⟨"TX_HOLD", 29, 29, .ro, .all⟩, ⟨"PFC_PAUSED", 15, 8, .ro, .all⟩, ⟨"PFC_IGNORE", 7, 0, .ro, .all⟩]⟩,
  ⟨"MAC_LANEl_RX_FRAMES_LO", 0x1020, [(4, 0x100)], 0x0, false, [⟨"COUNT", 31, 0, .ro, .all⟩]⟩,
  ⟨"MAC_LANEl_RX_FRAMES_HI", 0x1024, [(4, 0x100)], 0x0, false, [⟨"COUNT", 31, 0, .ro, .all⟩]⟩,
  ⟨"MAC_LANEl_RX_BYTES_LO", 0x1028, [(4, 0x100)], 0x0, false, [⟨"COUNT", 31, 0, .ro, .all⟩]⟩]

def regRowsMAC1 : List RegRow := [
  ⟨"MAC_LANEl_RX_BYTES_HI", 0x102c, [(4, 0x100)], 0x0, false, [⟨"COUNT", 31, 0, .ro, .all⟩]⟩,
  ⟨"MAC_LANEl_TX_FRAMES_LO", 0x1030, [(4, 0x100)], 0x0, false, [⟨"COUNT", 31, 0, .ro, .all⟩]⟩,
  ⟨"MAC_LANEl_TX_FRAMES_HI", 0x1034, [(4, 0x100)], 0x0, false, [⟨"COUNT", 31, 0, .ro, .all⟩]⟩,
  ⟨"MAC_LANEl_TX_BYTES_LO", 0x1038, [(4, 0x100)], 0x0, false, [⟨"COUNT", 31, 0, .ro, .all⟩]⟩,
  ⟨"MAC_LANEl_TX_BYTES_HI", 0x103c, [(4, 0x100)], 0x0, false, [⟨"COUNT", 31, 0, .ro, .all⟩]⟩,
  ⟨"MAC_LANEl_RX_RUNT", 0x1040, [(4, 0x100)], 0x0, false, [⟨"COUNT", 31, 0, .ro, .all⟩]⟩,
  ⟨"MAC_LANEl_RX_LONG", 0x1044, [(4, 0x100)], 0x0, false, [⟨"COUNT", 31, 0, .ro, .all⟩]⟩,
  ⟨"MAC_LANEl_RX_FCS", 0x1048, [(4, 0x100)], 0x0, false, [⟨"COUNT", 31, 0, .ro, .all⟩]⟩,
  ⟨"MAC_LANEl_RX_ERR", 0x104c, [(4, 0x100)], 0x0, false, [⟨"COUNT", 31, 0, .ro, .all⟩]⟩,
  ⟨"MAC_LANEl_RX_CTRL_BAD", 0x1050, [(4, 0x100)], 0x0, false, [⟨"COUNT", 31, 0, .ro, .all⟩]⟩,
  ⟨"MAC_LANEl_RX_PAUSE", 0x1054, [(4, 0x100)], 0x0, false, [⟨"COUNT", 31, 0, .ro, .all⟩]⟩,
  ⟨"MAC_LANEl_RX_PFC", 0x1058, [(4, 0x100)], 0x0, false, [⟨"COUNT", 31, 0, .ro, .all⟩]⟩]

def regRowsMAC2 : List RegRow := [
  ⟨"MAC_LANEl_TX_LONG", 0x105c, [(4, 0x100)], 0x0, false, [⟨"COUNT", 31, 0, .ro, .all⟩]⟩,
  ⟨"MAC_LANEl_TX_PAD", 0x1060, [(4, 0x100)], 0x0, false, [⟨"COUNT", 31, 0, .ro, .all⟩]⟩,
  ⟨"MAC_LANEl_TX_ABORT", 0x1064, [(4, 0x100)], 0x0, false, [⟨"COUNT", 31, 0, .ro, .all⟩]⟩,
  ⟨"MAC_LANEl_TX_PAUSE", 0x1068, [(4, 0x100)], 0x0, false, [⟨"COUNT", 31, 0, .ro, .all⟩]⟩,
  ⟨"MAC_LANEl_TX_PFC", 0x106c, [(4, 0x100)], 0x0, false, [⟨"COUNT", 31, 0, .ro, .all⟩]⟩,
  ⟨"MAC_LANEl_PAUSE_IGNORED", 0x1070, [(4, 0x100)], 0x0, false, [⟨"COUNT", 31, 0, .ro, .all⟩]⟩]

/-- Every register of unit MAC beyond its header (spec/13 R234). -/
def regRowsMAC : List RegRow := regRowsMAC0 ++ regRowsMAC1 ++ regRowsMAC2

def regRowsPRS0 : List RegRow := [
  ⟨"PRS_CFG", 0x40, [], 0x3, false, [⟨"CHK_INNER_IPV4", 1, 1, .rw, .all⟩, ⟨"CHK_IPV4", 0, 0, .rw, .all⟩]⟩,
  ⟨"PRS_PORTS", 0x44, [], 0x12b517c1, false, [⟨"VXLAN_PORT", 31, 16, .rw, .all⟩, ⟨"GENEVE_PORT", 15, 0, .rw, .all⟩]⟩,
  ⟨"PRS_MAL_ACT", 0x48, [], 0x2, false, [⟨"MAL_RING", 31, 22, .rw, .all⟩, ⟨"OPTION", 9, 8, .rwc, (.named 2 0)⟩, ⟨"CHECKSUM", 7, 6, .rwc, (.named 2 0)⟩, ⟨"TRUNCATED", 5, 4, .rwc, (.named 2 0)⟩, ⟨"LENGTH", 3, 2, .rwc, (.named 2 0)⟩, ⟨"TOO_DEEP", 1, 0, .rwc, (.named 2 0)⟩]⟩,
  ⟨"PRS_IPV6_OPT0", 0x50, [], 0x0, false, [⟨"TYPES", 31, 0, .rw, .all⟩]⟩,
  ⟨"PRS_IPV6_OPT1", 0x54, [], 0x0, false, [⟨"TYPES", 31, 0, .rw, .all⟩]⟩,
  ⟨"PRS_EVT", 0x60, [], 0x0, false, [⟨"EVENT", 4, 0, .w1c, .all⟩]⟩,
  ⟨"PRS_EVT_EN", 0x64, [], 0x1f, false, [⟨"EVENT", 4, 0, .rw, .all⟩]⟩,
  ⟨"PRS_FRAMES", 0x80, [], 0x0, false, [⟨"COUNT", 31, 0, .ro, .all⟩]⟩,
  ⟨"PRS_MAL_DEEP", 0x84, [], 0x0, false, [⟨"COUNT", 31, 0, .ro, .all⟩]⟩,
  ⟨"PRS_MAL_LENGTH", 0x88, [], 0x0, false, [⟨"COUNT", 31, 0, .ro, .all⟩]⟩,
  ⟨"PRS_MAL_TRUNC", 0x8c, [], 0x0, false, [⟨"COUNT", 31, 0, .ro, .all⟩]⟩,
  ⟨"PRS_MAL_CSUM", 0x90, [], 0x0, false, [⟨"COUNT", 31, 0, .ro, .all⟩]⟩]

def regRowsPRS1 : List RegRow := [
  ⟨"PRS_MAL_OPTION", 0x94, [], 0x0, false, [⟨"COUNT", 31, 0, .ro, .all⟩]⟩,
  ⟨"PRS_GENEVE_OPTk", 0x100, [(16, 0x4)], 0x0, false, [⟨"VALID", 31, 31, .rw, .all⟩, ⟨"CLASS", 23, 8, .rw, .all⟩, ⟨"TYPE", 6, 0, .rw, .all⟩]⟩]

/-- Every register of unit PRS beyond its header (spec/14 R251, R252). -/
def regRowsPRS : List RegRow := regRowsPRS0 ++ regRowsPRS1

def regRowsCLS0 : List RegRow := [
  ⟨"CLS_BANK_SEL", 0x40, [], 0x0, true, [⟨"BANK", 0, 0, .rw, .all⟩]⟩,
  ⟨"CLS_BANK_STATUS", 0x44, [], 0x0, false, [⟨"EPOCH", 31, 16, .ro, .all⟩, ⟨"ACTIVE", 15, 15, .ro, .all⟩, ⟨"DRAINING", 14, 14, .ro, .all⟩, ⟨"RULE_BUSY", 13, 13, .ro, .all⟩, ⟨"DRAIN_COUNT", 12, 0, .ro, .all⟩]⟩,
  ⟨"CLS_SCAN_CFG", 0x48, [], 0x320, false, [⟨"SCAN_RATE", 9, 0, .rwc, (.span 100 800)⟩]⟩,
  ⟨"CLS_RULE_CTL", 0x50, [], 0x0, false, [⟨"GO", 31, 31, .wo, .all⟩, ⟨"OP", 30, 30, .rw, .all⟩, ⟨"BANK", 29, 29, .rw, .all⟩, ⟨"BUSY", 28, 28, .ro, .all⟩, ⟨"REFUSED", 27, 27, .ro, .all⟩, ⟨"INDEX", 15, 0, .rw, .all⟩]⟩,
  ⟨"CLS_RULE_KEYj", 0x60, [(10, 0x4)], 0x0, false, [⟨"BITS", 31, 0, .rw, .all⟩]⟩,
  ⟨"CLS_RULE_MASKj", 0x90, [(10, 0x4)], 0x0, false, [⟨"BITS", 31, 0, .rw, .all⟩]⟩,
  ⟨"CLS_RULE_ACT_HI", 0xc4, [], 0x20000000, false, [⟨"VERDICT", 31, 29, .rwc, (.named 4 1)⟩, ⟨"EP_SRC", 28, 27, .rw, .all⟩, ⟨"TIME_OP", 26, 25, .rw, .all⟩, ⟨"SCAN", 24, 24, .rw, .all⟩, ⟨"QOVR", 23, 23, .rw, .all⟩, ⟨"ENDPOINT", 19, 0, .rw, .all⟩]⟩,
  ⟨"CLS_RULE_ACT_LO", 0xc0, [], 0x0, false, [⟨"RING", 31, 22, .rw, .all⟩, ⟨"QCLASS", 21, 15, .rw, .all⟩, ⟨"CNT_EN", 14, 14, .rw, .all⟩, ⟨"CNT_IDX", 11, 0, .rw, .all⟩]⟩,
  ⟨"CLS_PAT_CTL", 0x100, [], 0x0, false, [⟨"GO", 31, 31, .wo, .all⟩, ⟨"OP", 30, 30, .rw, .all⟩, ⟨"INDEX", 11, 0, .rw, .all⟩]⟩,
  ⟨"CLS_PAT_CFG", 0x104, [], 0x10001ff, false, [⟨"VALID", 31, 31, .rw, .all⟩, ⟨"LEN", 30, 24, .rwc, (.span 1 64)⟩, ⟨"OFS_MIN", 17, 9, .rw, .all⟩, ⟨"OFS_MAX", 8, 0, .rwc, .dep⟩]⟩,
  ⟨"CLS_PAT_DATAj", 0x110, [(16, 0x4)], 0x0, false, [⟨"BYTES", 31, 0, .rw, .all⟩]⟩,
  ⟨"CLS_PAT_MASKj", 0x150, [(16, 0x4)], 0x0, false, [⟨"BYTES", 31, 0, .rw, .all⟩]⟩]

def regRowsCLS1 : List RegRow := [
  ⟨"CLS_PIPE_STATUS", 0x190, [], 0x10000, false, [⟨"STATE", 17, 0, .ro, .all⟩]⟩,
  ⟨"CLS_EVT", 0x1c0, [], 0x0, false, [⟨"EVENT", 3, 0, .w1c, .all⟩]⟩,
  ⟨"CLS_EVT_EN", 0x1c4, [], 0xf, false, [⟨"EVENT", 3, 0, .rw, .all⟩]⟩,
  ⟨"CLS_DEFAULT_HIT", 0x200, [], 0x0, false, [⟨"COUNT", 31, 0, .ro, .all⟩]⟩,
  ⟨"CLS_NO_EP", 0x204, [], 0x0, false, [⟨"COUNT", 31, 0, .ro, .all⟩]⟩,
  ⟨"CLS_RECIRC", 0x208, [], 0x0, false, [⟨"COUNT", 31, 0, .ro, .all⟩]⟩,
  ⟨"CLS_RECIRC_EXCESS", 0x20c, [], 0x0, false, [⟨"COUNT", 31, 0, .ro, .all⟩]⟩,
  ⟨"CLS_RECIRC_DROP", 0x210, [], 0x0, false, [⟨"COUNT", 31, 0, .ro, .all⟩]⟩,
  ⟨"CLS_SCAN", 0x214, [], 0x0, false, [⟨"COUNT", 31, 0, .ro, .all⟩]⟩,
  ⟨"CLS_SCAN_SKIP", 0x218, [], 0x0, false, [⟨"COUNT", 31, 0, .ro, .all⟩]⟩,
  ⟨"CLS_PAT_HIT", 0x21c, [], 0x0, false, [⟨"COUNT", 31, 0, .ro, .all⟩]⟩,
  ⟨"CLS_PIPE_DROP", 0x220, [], 0x0, false, [⟨"COUNT", 31, 0, .ro, .all⟩]⟩]

def regRowsCLS2 : List RegRow := [
  ⟨"CLS_WRITE_REFUSED", 0x224, [], 0x0, false, [⟨"COUNT", 31, 0, .ro, .all⟩]⟩,
  ⟨"CLS_SWAPS", 0x228, [], 0x0, false, [⟨"COUNT", 31, 0, .ro, .all⟩]⟩]

/-- Every register of unit CLS beyond its header (spec/14 R251, R252). -/
def regRowsCLS : List RegRow := regRowsCLS0 ++ regRowsCLS1 ++ regRowsCLS2

def regRowsASH0 : List RegRow := [
  ⟨"ASH_CFG", 0x40, [], 0x404, false, [⟨"MISS_TO", 11, 8, .rwc, (.span 1 8)⟩, ⟨"AGE_EN", 2, 2, .rw, .all⟩, ⟨"LEARN_EN", 1, 1, .rw, .all⟩, ⟨"FLOW_EN", 0, 0, .rw, .all⟩]⟩,
  ⟨"ASH_HASH_SEED1", 0x44, [], 0xffffffff, false, [⟨"SEED", 31, 0, .rw, .all⟩]⟩,
  ⟨"ASH_HASH_SEED2", 0x48, [], 0x5a5aa5a5, false, [⟨"SEED", 31, 0, .rw, .all⟩]⟩,
  ⟨"ASH_FLOW_BASE", 0x4c, [], 0x0, false, [⟨"REGION", 1, 0, .rw, .all⟩]⟩,
  ⟨"ASH_AGE_CFG", 0x50, [], 0x3c, false, [⟨"AGE_SCAN", 11, 0, .rwc, (.span 10 3600)⟩]⟩,
  ⟨"ASH_AGE_T0", 0x54, [], 0x12c, false, [⟨"AGE_T", 15, 0, .rw, .all⟩]⟩,
  ⟨"ASH_AGE_T1", 0x58, [], 0x1e, false, [⟨"AGE_T", 15, 0, .rw, .all⟩]⟩,
  ⟨"ASH_AGE_T2", 0x5c, [], 0xe10, false, [⟨"AGE_T", 15, 0, .rw, .all⟩]⟩,
  ⟨"ASH_AGE_T3", 0x60, [], 0x0, false, [⟨"AGE_T", 15, 0, .rw, .all⟩]⟩,
  ⟨"ASH_STATUS", 0x70, [], 0x0, false, [⟨"TABLES_LOST", 31, 31, .w1c, .all⟩, ⟨"WALK", 30, 30, .ro, .all⟩, ⟨"CMD_QUEUE", 6, 0, .ro, .all⟩]⟩,
  ⟨"ASH_FLOWS", 0x74, [], 0x0, false, [⟨"COUNT", 24, 0, .ro, .all⟩]⟩,
  ⟨"ASH_EP_CTL", 0x80, [], 0x0, false, [⟨"GO", 31, 31, .wo, .all⟩, ⟨"OP", 30, 30, .rw, .all⟩, ⟨"REFUSED", 29, 29, .ro, .all⟩, ⟨"BUSY", 28, 28, .ro, .all⟩, ⟨"INDEX", 19, 0, .rw, .all⟩]⟩]

def regRowsASH1 : List RegRow := [
  ⟨"ASH_EP_DATAj", 0x84, [(6, 0x4)], 0x0, false, [⟨"BITS", 31, 0, .rw, .all⟩]⟩,
  ⟨"ASH_CMD_DATAj", 0x100, [(16, 0x4)], 0x0, false, [⟨"BYTES", 31, 0, .rw, .all⟩]⟩,
  ⟨"ASH_RES_DATAj", 0x180, [(16, 0x4)], 0x0, false, [⟨"BYTES", 31, 0, .ro, .all⟩]⟩,
  ⟨"ASH_CMD_CTL", 0x140, [], 0x0, false, [⟨"GO", 31, 31, .wo, .all⟩, ⟨"OPCODE", 19, 16, .rw, .all⟩, ⟨"TAG", 15, 0, .rw, .all⟩]⟩,
  ⟨"ASH_CMD_SEQ", 0x144, [], 0x0, false, [⟨"SEQ", 31, 0, .ro, .all⟩]⟩,
  ⟨"ASH_AGED_SEQ", 0x148, [], 0x0, false, [⟨"SEQ", 31, 0, .ro, .all⟩]⟩,
  ⟨"ASH_EP_ECC_IDX", 0x150, [], 0x0, false, [⟨"VALID", 31, 31, .ro, .all⟩, ⟨"INDEX", 19, 0, .ro, .all⟩]⟩,
  ⟨"ASH_EVT", 0x1e0, [], 0x0, false, [⟨"EVENT", 6, 0, .w1c, .all⟩]⟩,
  ⟨"ASH_EVT_EN", 0x1e4, [], 0x67, false, [⟨"EVENT", 6, 0, .rw, .all⟩]⟩,
  ⟨"ASH_EP_INVALID", 0x200, [], 0x0, false, [⟨"COUNT", 31, 0, .ro, .all⟩]⟩,
  ⟨"ASH_EP_ECC", 0x204, [], 0x0, false, [⟨"COUNT", 31, 0, .ro, .all⟩]⟩,
  ⟨"ASH_EP_ECC_CORR", 0x208, [], 0x0, false, [⟨"COUNT", 31, 0, .ro, .all⟩]⟩]

def regRowsASH2 : List RegRow := [
  ⟨"ASH_HAIRPIN", 0x20c, [], 0x0, false, [⟨"COUNT", 31, 0, .ro, .all⟩]⟩,
  ⟨"ASH_FLOW_HIT", 0x210, [], 0x0, false, [⟨"COUNT", 31, 0, .ro, .all⟩]⟩,
  ⟨"ASH_FLOW_MISS", 0x214, [], 0x0, false, [⟨"COUNT", 31, 0, .ro, .all⟩]⟩,
  ⟨"ASH_FLOW_BYPASS", 0x218, [], 0x0, false, [⟨"COUNT", 31, 0, .ro, .all⟩]⟩,
  ⟨"ASH_LEARN", 0x21c, [], 0x0, false, [⟨"COUNT", 31, 0, .ro, .all⟩]⟩,
  ⟨"ASH_LEARN_DUP", 0x220, [], 0x0, false, [⟨"COUNT", 31, 0, .ro, .all⟩]⟩,
  ⟨"ASH_LEARN_DROP", 0x224, [], 0x0, false, [⟨"COUNT", 31, 0, .ro, .all⟩]⟩,
  ⟨"ASH_INSERT_FULL", 0x228, [], 0x0, false, [⟨"COUNT", 31, 0, .ro, .all⟩]⟩,
  ⟨"ASH_CMD_REFUSED", 0x22c, [], 0x0, false, [⟨"COUNT", 31, 0, .ro, .all⟩]⟩,
  ⟨"ASH_CMD_FAIL", 0x230, [], 0x0, false, [⟨"COUNT", 31, 0, .ro, .all⟩]⟩,
  ⟨"ASH_AGED", 0x234, [], 0x0, false, [⟨"COUNT", 31, 0, .ro, .all⟩]⟩,
  ⟨"ASH_FLOW_ECC", 0x238, [], 0x0, false, [⟨"COUNT", 31, 0, .ro, .all⟩]⟩]

def regRowsASH3 : List RegRow := [
  ⟨"ASH_FLOW_ECC_CORR", 0x23c, [], 0x0, false, [⟨"COUNT", 31, 0, .ro, .all⟩]⟩,
  ⟨"ASH_CACHE_EVICT", 0x240, [], 0x0, false, [⟨"COUNT", 31, 0, .ro, .all⟩]⟩]

/-- Every register of unit ASH beyond its header (spec/15 R271). -/
def regRowsASH : List RegRow := regRowsASH0 ++ regRowsASH1 ++ regRowsASH2 ++ regRowsASH3

def regRowsTMG0 : List RegRow := [
  ⟨"TMG_CFG", 0x40, [], 0xa0064, false, [⟨"DRAIN_MS", 22, 16, .rwc, (.span 1 100)⟩, ⟨"FLUSH_MS", 9, 0, .rwc, (.span 1 1000)⟩]⟩,
  ⟨"TMG_POOL_STATUS", 0x44, [], 0x60000, false, [⟨"RESERVE_OVER", 31, 31, .ro, .all⟩, ⟨"CELLS", 18, 0, .ro, .all⟩]⟩,
  ⟨"TMG_FREE_SHARED", 0x48, [], 0x4f000, false, [⟨"FREE", 18, 0, .ro, .all⟩]⟩,
  ⟨"TMG_LINE_MIN", 0x4c, [], 0x8000, false, [⟨"PORT_MIN", 18, 0, .rwc, (.span 0 393216)⟩]⟩,
  ⟨"TMG_HOST_MIN", 0x50, [], 0x1000, false, [⟨"PORT_MIN", 18, 0, .rwc, (.span 0 393216)⟩]⟩,
  ⟨"TMG_PFC_TH", 0x54, [], 0x2000400, false, [⟨"XON_TH", 31, 16, .rwc, .dep⟩, ⟨"XOFF_TH", 15, 0, .rwc, (.span 1 65535)⟩]⟩,
  ⟨"TMG_PFC_CFG", 0x58, [], 0x0, false, [⟨"LOSSLESS", 31, 24, .rw, .all⟩, ⟨"HEADROOM", 15, 0, .rwc, (.span 0 4096)⟩]⟩,
  ⟨"TMG_EVT", 0x60, [], 0x0, false, [⟨"EVENT", 7, 0, .w1c, .all⟩]⟩,
  ⟨"TMG_EVT_EN", 0x64, [], 0xfe, false, [⟨"EVENT", 7, 0, .rw, .all⟩]⟩,
  ⟨"TMG_Q_SEL", 0x70, [], 0x0, false, [⟨"QUEUE", 13, 0, .rw, .all⟩]⟩,
  ⟨"TMG_Q_STATk", 0x74, [(4, 0x4)], 0x0, false, [⟨"VALUE", 31, 0, .ro, .all⟩]⟩,
  ⟨"TMG_DROP_QLIMIT", 0x100, [], 0x0, false, [⟨"COUNT", 31, 0, .ro, .all⟩]⟩]

def regRowsTMG1 : List RegRow := [
  ⟨"TMG_DROP_DT", 0x104, [], 0x0, false, [⟨"COUNT", 31, 0, .ro, .all⟩]⟩,
  ⟨"TMG_DROP_POOL", 0x108, [], 0x0, false, [⟨"COUNT", 31, 0, .ro, .all⟩]⟩,
  ⟨"TMG_DROP_RED", 0x10c, [], 0x0, false, [⟨"COUNT", 31, 0, .ro, .all⟩]⟩,
  ⟨"TMG_DROP_HEADROOM", 0x110, [], 0x0, false, [⟨"COUNT", 31, 0, .ro, .all⟩]⟩,
  ⟨"TMG_YELLOW", 0x114, [], 0x0, false, [⟨"COUNT", 31, 0, .ro, .all⟩]⟩,
  ⟨"TMG_FLUSH", 0x118, [], 0x0, false, [⟨"COUNT", 31, 0, .ro, .all⟩]⟩,
  ⟨"TMG_DRAIN_DISCARD", 0x11c, [], 0x0, false, [⟨"COUNT", 31, 0, .ro, .all⟩]⟩,
  ⟨"TMG_ECC_CORR", 0x120, [], 0x0, false, [⟨"COUNT", 31, 0, .ro, .all⟩]⟩,
  ⟨"TMG_ECC_UNCORR", 0x124, [], 0x0, false, [⟨"COUNT", 31, 0, .ro, .all⟩]⟩,
  ⟨"TMG_GATE_OVERSIZE", 0x128, [], 0x0, false, [⟨"COUNT", 31, 0, .ro, .all⟩]⟩,
  ⟨"TMG_GATE_ADV", 0x12c, [], 0x0, false, [⟨"COUNT", 31, 0, .ro, .all⟩]⟩,
  ⟨"TMG_GATE_REJECT", 0x130, [], 0x0, false, [⟨"COUNT", 31, 0, .ro, .all⟩]⟩]

def regRowsTMG2 : List RegRow := [
  ⟨"TMG_BIND_EXCESS", 0x134, [], 0x0, false, [⟨"COUNT", 31, 0, .ro, .all⟩]⟩,
  ⟨"TMG_GL_REFUSED", 0x138, [], 0x0, false, [⟨"COUNT", 31, 0, .ro, .all⟩]⟩,
  ⟨"TMG_GL_CTL", 0x200, [], 0x0, false, [⟨"GO", 31, 31, .wo, .all⟩, ⟨"OP", 30, 30, .rw, .all⟩, ⟨"REFUSED", 29, 29, .ro, .all⟩, ⟨"COPY", 28, 28, .rw, .all⟩, ⟨"SCHED", 27, 18, .rwc, (.span 0 575)⟩, ⟨"INDEX", 8, 0, .rwc, (.span 0 256)⟩]⟩,
  ⟨"TMG_GL_BASE_HI", 0x204, [], 0x0, false, [⟨"VALUE", 15, 0, .rw, .all⟩]⟩,
  ⟨"TMG_GL_BASE_LO", 0x208, [], 0x0, false, [⟨"VALUE", 31, 0, .rw, .all⟩]⟩,
  ⟨"TMG_GL_BASE_NS", 0x20c, [], 0x0, false, [⟨"NS", 29, 0, .rwc, (.span 0 999999999)⟩]⟩,
  ⟨"TMG_GL_CYCLE", 0x210, [], 0xf4240, false, [⟨"CYCLE", 29, 0, .rwc, (.span 1000 1000000000)⟩]⟩,
  ⟨"TMG_GL_COUNT", 0x214, [], 0x1, false, [⟨"COUNT", 8, 0, .rwc, (.span 1 256)⟩]⟩,
  ⟨"TMG_GL_ENTRY_GATES", 0x218, [], 0xff, false, [⟨"GATES", 7, 0, .rw, .all⟩]⟩,
  ⟨"TMG_GL_ENTRY_NS", 0x21c, [], 0x3e8, false, [⟨"NS", 29, 0, .rwc, (.span 40 1000000000)⟩]⟩,
  ⟨"TMG_GL_LAST_ADV", 0x220, [], 0x0, false, [⟨"SCHED", 31, 22, .ro, .all⟩, ⟨"CYCLES", 20, 0, .ro, .all⟩]⟩,
  ⟨"TMG_CLASSc", 0x400, [(128, 0x4)], 0x0, false, [⟨"TIME", 7, 7, .rw, .all⟩, ⟨"GATE", 6, 4, .rw, .all⟩, ⟨"PRI", 2, 0, .rw, .all⟩]⟩]

def regRowsTMG3 : List RegRow := [
  ⟨"TMG_PORTp_MIN", 0x1000, [(64, 0x40)], 0x200, false, [⟨"PORT_MIN", 18, 0, .rwc, (.span 0 393216)⟩]⟩,
  ⟨"TMG_PORTp_GATE_SEL", 0x1004, [(64, 0x40)], 0x0, true, [⟨"EN", 1, 1, .rw, .all⟩, ⟨"COPY", 0, 0, .rw, .all⟩]⟩,
  ⟨"TMG_LGg_GATE_SEL", 0x2000, [(512, 0x20)], 0x0, true, [⟨"EN", 1, 1, .rw, .all⟩, ⟨"COPY", 0, 0, .rw, .all⟩]⟩,
  ⟨"TMG_PORTp_STATUS", 0x1008, [(64, 0x40)], 0xff00, false, [⟨"PENDING", 31, 31, .ro, .all⟩, ⟨"APPLIED_COPY", 30, 30, .ro, .all⟩, ⟨"FC_ASSERT", 23, 16, .ro, .all⟩, ⟨"GATES", 15, 8, .ro, .all⟩]⟩,
  ⟨"TMG_LGg_STATUS", 0x2004, [(512, 0x20)], 0xff00, false, [⟨"PENDING", 31, 31, .ro, .all⟩, ⟨"APPLIED_COPY", 30, 30, .ro, .all⟩, ⟨"GATES", 15, 8, .ro, .all⟩]⟩,
  ⟨"TMG_LGg_BYTES", 0x2008, [(512, 0x20)], 0x0, false, [⟨"BYTES", 31, 0, .ro, .all⟩]⟩,
  ⟨"TMG_Qq_CFG0", 0x10000, [(16384, 0x8)], 0x7060000, false, [⟨"ALPHA", 27, 24, .rwc, (.span 0 15)⟩, ⟨"Q_MAX", 18, 0, .rwc, (.span 0 393216)⟩]⟩,
  ⟨"TMG_Qq_CFG1", 0x10004, [(16384, 0x8)], 0x1, false, [⟨"SH_EN", 31, 31, .rw, .all⟩, ⟨"SHAPER", 27, 16, .rw, .all⟩, ⟨"WEIGHT", 7, 0, .rwc, (.span 1 255)⟩]⟩,
  ⟨"TMG_LMAPj", 0x40000, [(8192, 0x4)], 0x4000000, true, [⟨"VALID", 31, 31, .rw, .all⟩, ⟨"TIME", 30, 30, .rw, .all⟩, ⟨"GATE", 29, 27, .rw, .all⟩, ⟨"LEVEL", 26, 24, .rwc, (.span 0 4)⟩, ⟨"ENTRY", 8, 0, .rw, .all⟩]⟩,
  ⟨"TMG_POLn_CIR", 0x60000, [(8192, 0x10)], 0x61a80, true, [⟨"CIR", 18, 0, .rwc, (.span 0 400000)⟩]⟩,
  ⟨"TMG_POLn_CBS", 0x60004, [(8192, 0x10)], 0x100000, true, [⟨"CBS", 23, 0, .rwc, (.span 0 16777215)⟩]⟩,
  ⟨"TMG_POLn_PIR", 0x60008, [(8192, 0x10)], 0x61a80, true, [⟨"PIR", 18, 0, .rwc, (.span 0 400000)⟩]⟩]

def regRowsTMG4 : List RegRow := [
  ⟨"TMG_POLn_PBS", 0x6000c, [(8192, 0x10)], 0x100000, true, [⟨"PBS", 23, 0, .rwc, (.span 0 16777215)⟩]⟩,
  ⟨"TMG_SHs_CIR", 0x80000, [(4096, 0x10)], 0x61a80, true, [⟨"CIR", 18, 0, .rwc, (.span 0 400000)⟩]⟩,
  ⟨"TMG_SHs_CBS", 0x80004, [(4096, 0x10)], 0x100000, true, [⟨"CBS", 23, 0, .rwc, (.span 0 16777215)⟩]⟩,
  ⟨"TMG_SHs_PIR", 0x80008, [(4096, 0x10)], 0x61a80, true, [⟨"PIR", 18, 0, .rwc, (.span 0 400000)⟩]⟩,
  ⟨"TMG_SHs_PBS", 0x8000c, [(4096, 0x10)], 0x100000, true, [⟨"PBS", 23, 0, .rwc, (.span 0 16777215)⟩]⟩]

/-- Every register of unit TMG beyond its header (spec/16 R294). -/
def regRowsTMG : List RegRow := regRowsTMG0 ++ regRowsTMG1 ++ regRowsTMG2 ++ regRowsTMG3 ++ regRowsTMG4

def regRowsTTD0 : List RegRow := [
  ⟨"TTD_PTP_CFG", 0x40, [], 0x8080, false, [⟨"DOMAIN", 31, 24, .rwc, (.span 0 127)⟩, ⟨"TRANSPORT", 23, 22, .rwc, (.span 0 2)⟩, ⟨"L2_ADDR", 21, 21, .rw, .all⟩, ⟨"PRIO1", 15, 8, .rw, .all⟩, ⟨"PRIO2", 7, 0, .rw, .all⟩]⟩,
  ⟨"TTD_CLOCK_ID_LO", 0x44, [], 0x0, false, [⟨"VALUE", 31, 0, .rw, .all⟩]⟩,
  ⟨"TTD_CLOCK_ID_HI", 0x48, [], 0x0, false, [⟨"VALUE", 31, 0, .rw, .all⟩]⟩,
  ⟨"TTD_IP4_SRC", 0x4c, [], 0x0, false, [⟨"VALUE", 31, 0, .rw, .all⟩]⟩,
  ⟨"TTD_IP6_SRCj", 0x50, [(4, 0x4)], 0x0, false, [⟨"VALUE", 31, 0, .rw, .all⟩]⟩,
  ⟨"TTD_CLASS", 0x60, [], 0x6078cf8, false, [⟨"CLASS_TRACK", 31, 24, .rw, .all⟩, ⟨"CLASS_HOLD", 23, 16, .rw, .all⟩, ⟨"CLASS_AGED", 15, 8, .rw, .all⟩, ⟨"CLASS_FREE", 7, 0, .rw, .all⟩]⟩,
  ⟨"TTD_PR_CFG", 0x64, [], 0x3203e8, false, [⟨"SERVER_LIM", 31, 16, .rwc, (.span 1 10000)⟩, ⟨"WIN_US", 15, 0, .rwc, (.span 10 50000)⟩]⟩,
  ⟨"TTD_NB_CFG", 0x68, [], 0xc8, false, [⟨"NB_LIM", 15, 0, .rwc, (.span 10 10000)⟩]⟩,
  ⟨"TTD_EVT", 0x70, [], 0x0, false, [⟨"EVENT", 7, 0, .w1c, .all⟩]⟩,
  ⟨"TTD_EVT_EN", 0x74, [], 0xff, false, [⟨"EVENT", 7, 0, .rw, .all⟩]⟩,
  ⟨"TTD_Lx_CFG", 0x100, [(2, 0x80)], 0x0, false, [⟨"REQ_CAL", 31, 31, .rw, .all⟩, ⟨"ASYM_CH", 25, 24, .rw, .all⟩, ⟨"RX_CAL", 15, 0, .rwc, (.spanS 16 (-20000) 20000)⟩]⟩,
  ⟨"TTD_Lx_DDS", 0x104, [(2, 0x80)], 0x0, false, [⟨"VALUE", 31, 0, .ro, .all⟩]⟩]

def regRowsTTD1 : List RegRow := [
  ⟨"TTD_Lx_LAST_N_LO", 0x108, [(2, 0x80)], 0x0, false, [⟨"VALUE", 31, 0, .ro, .all⟩]⟩,
  ⟨"TTD_Lx_LAST_N_HI", 0x10c, [(2, 0x80)], 0x0, false, [⟨"VALUE", 15, 0, .ro, .all⟩]⟩,
  ⟨"TTD_Lx_LAST_OFS", 0x110, [(2, 0x80)], 0x0, false, [⟨"VALUE", 31, 0, .ro, .all⟩]⟩,
  ⟨"TTD_Lx_DATASET", 0x114, [(2, 0x80)], 0x0, false, [⟨"UTC_OFFSET", 31, 16, .ro, .all⟩, ⟨"GM_CLASS", 15, 8, .ro, .all⟩, ⟨"FLAGS", 7, 0, .ro, .all⟩]⟩,
  ⟨"TTD_Lx_ANCHOR_OK", 0x120, [(2, 0x80)], 0x0, false, [⟨"COUNT", 31, 0, .ro, .all⟩]⟩,
  ⟨"TTD_Lx_NO_STAMP", 0x124, [(2, 0x80)], 0x0, false, [⟨"COUNT", 31, 0, .ro, .all⟩]⟩,
  ⟨"TTD_Lx_STEPPED", 0x128, [(2, 0x80)], 0x0, false, [⟨"COUNT", 31, 0, .ro, .all⟩]⟩,
  ⟨"TTD_Lx_LATE", 0x12c, [(2, 0x80)], 0x0, false, [⟨"COUNT", 31, 0, .ro, .all⟩]⟩,
  ⟨"TTD_Lx_EARLY", 0x130, [(2, 0x80)], 0x0, false, [⟨"COUNT", 31, 0, .ro, .all⟩]⟩,
  ⟨"TTD_Lx_UNRANGED", 0x134, [(2, 0x80)], 0x0, false, [⟨"COUNT", 31, 0, .ro, .all⟩]⟩,
  ⟨"TTD_Lx_UNCAL", 0x138, [(2, 0x80)], 0x0, false, [⟨"COUNT", 31, 0, .ro, .all⟩]⟩,
  ⟨"TTD_Lx_TC_CORR", 0x13c, [(2, 0x80)], 0x0, false, [⟨"COUNT", 31, 0, .ro, .all⟩]⟩]

def regRowsTTD2 : List RegRow := [
  ⟨"TTD_Lx_TC_CARRY", 0x140, [(2, 0x80)], 0x0, false, [⟨"COUNT", 31, 0, .ro, .all⟩]⟩,
  ⟨"TTD_PORTp_CFG", 0x1000, [(64, 0x40)], 0x4d100000, true, [⟨"MODE", 31, 30, .rwc, (.span 0 2)⟩, ⟨"LOG_SYNC", 27, 24, .rwc, (.spanS 4 (-7) 1)⟩, ⟨"LOG_ANN", 23, 20, .rwc, (.spanS 4 (-3) 3)⟩, ⟨"LOG_DREQ", 19, 16, .rwc, (.spanS 4 (-7) 6)⟩, ⟨"SYNC_CLASS", 6, 0, .rw, .all⟩]⟩,
  ⟨"TTD_PORTp_CAL", 0x1004, [(64, 0x40)], 0x0, false, [⟨"TX_CAL", 31, 16, .rwc, (.spanS 16 (-5000) 5000)⟩, ⟨"RX_CAL", 15, 0, .rwc, (.spanS 16 (-5000) 5000)⟩]⟩,
  ⟨"TTD_PORTp_SYNC_TX", 0x1010, [(64, 0x40)], 0x0, false, [⟨"COUNT", 31, 0, .ro, .all⟩]⟩,
  ⟨"TTD_PORTp_SYNC_SKIP", 0x1014, [(64, 0x40)], 0x0, false, [⟨"COUNT", 31, 0, .ro, .all⟩]⟩,
  ⟨"TTD_PORTp_ANN_TX", 0x1018, [(64, 0x40)], 0x0, false, [⟨"COUNT", 31, 0, .ro, .all⟩]⟩,
  ⟨"TTD_PORTp_DREQ_RX", 0x101c, [(64, 0x40)], 0x0, false, [⟨"COUNT", 31, 0, .ro, .all⟩]⟩,
  ⟨"TTD_PORTp_DRESP_TX", 0x1020, [(64, 0x40)], 0x0, false, [⟨"COUNT", 31, 0, .ro, .all⟩]⟩,
  ⟨"TTD_PORTp_FOREIGN", 0x1024, [(64, 0x40)], 0x0, false, [⟨"COUNT", 31, 0, .ro, .all⟩]⟩,
  ⟨"TTD_PORTp_PTP_BAD", 0x1028, [(64, 0x40)], 0x0, false, [⟨"COUNT", 31, 0, .ro, .all⟩]⟩,
  ⟨"TTD_PORTp_TC_CORR", 0x102c, [(64, 0x40)], 0x0, false, [⟨"COUNT", 31, 0, .ro, .all⟩]⟩,
  ⟨"TTD_PORTp_TC_TWO_STEP", 0x1030, [(64, 0x40)], 0x0, false, [⟨"COUNT", 31, 0, .ro, .all⟩]⟩]

def regRowsTTD3 : List RegRow := [
  ⟨"TTD_PORTp_TC_UNTAGGED", 0x1034, [(64, 0x40)], 0x0, false, [⟨"COUNT", 31, 0, .ro, .all⟩]⟩,
  ⟨"TTD_PRn_CFG", 0x2000, [(64, 0x10)], 0x0, false, [⟨"EN", 31, 31, .rw, .all⟩, ⟨"POL", 30, 30, .rw, .all⟩, ⟨"WAKE", 29, 29, .rw, .all⟩, ⟨"PR_CAL", 15, 0, .rwc, (.spanS 16 (-20000) 20000)⟩]⟩,
  ⟨"TTD_PRn_ERR", 0x2004, [(64, 0x10)], 0x0, false, [⟨"VALUE", 31, 0, .ro, .all⟩]⟩,
  ⟨"TTD_PRn_SEC", 0x200c, [(64, 0x10)], 0x0, false, [⟨"VALUE", 31, 0, .ro, .all⟩]⟩,
  ⟨"TTD_PRn_STATUS", 0x2008, [(64, 0x10)], 0x0, false, [⟨"RESULT", 31, 30, .ro, .all⟩, ⟨"STEPPED", 29, 29, .ro, .all⟩, ⟨"ALARM", 28, 28, .ro, .all⟩, ⟨"EXTRA", 23, 16, .ro, .all⟩, ⟨"OUTSIDE", 15, 8, .ro, .all⟩, ⟨"MISS_RUN", 7, 0, .ro, .all⟩]⟩,
  ⟨"TTD_TEVe_CFG", 0x3000, [(4, 0x20)], 0x0, false, [⟨"EN", 31, 31, .rw, .all⟩, ⟨"POL", 30, 30, .rw, .all⟩, ⟨"WAKE", 29, 29, .rw, .all⟩]⟩,
  ⟨"TTD_TEVe_STATUS", 0x3004, [(4, 0x20)], 0x0, false, [⟨"FILL", 20, 16, .ro, .all⟩, ⟨"LOST", 15, 0, .ro, .all⟩]⟩,
  ⟨"TTD_TEVe_SEC_HI", 0x3008, [(4, 0x20)], 0x0, false, [⟨"VALID", 31, 31, .ro, .all⟩, ⟨"COARSE", 30, 30, .ro, .all⟩, ⟨"SEC", 15, 0, .ro, .all⟩]⟩,
  ⟨"TTD_TEVe_SEC_LO", 0x300c, [(4, 0x20)], 0x0, false, [⟨"VALUE", 31, 0, .ro, .all⟩]⟩,
  ⟨"TTD_TEVe_NS", 0x3010, [(4, 0x20)], 0x0, false, [⟨"NS", 29, 0, .ro, .all⟩]⟩,
  ⟨"TTD_TEVe_FRAC", 0x3014, [(4, 0x20)], 0x0, false, [⟨"FRAC", 15, 0, .ro, .all⟩]⟩,
  ⟨"TTD_TOUTo_CFG", 0x3100, [(8, 0x40)], 0x0, true, [⟨"MODE", 31, 30, .rw, .all⟩, ⟨"POL", 29, 29, .rw, .all⟩, ⟨"CAL", 15, 0, .rwc, (.spanS 16 (-20000) 20000)⟩]⟩]

def regRowsTTD4 : List RegRow := [
  ⟨"TTD_TOUTo_START_HI", 0x3104, [(8, 0x40)], 0x0, true, [⟨"VALUE", 15, 0, .rw, .all⟩]⟩,
  ⟨"TTD_TOUTo_START_LO", 0x3108, [(8, 0x40)], 0x0, true, [⟨"VALUE", 31, 0, .rw, .all⟩]⟩,
  ⟨"TTD_TOUTo_START_NS", 0x310c, [(8, 0x40)], 0x0, true, [⟨"NS", 29, 0, .rwc, (.span 0 999999999)⟩]⟩,
  ⟨"TTD_TOUTo_PERIOD_NS", 0x3110, [(8, 0x40)], 0x3b9aca00, true, [⟨"NS", 29, 0, .rwc, (.span 100 1000000000)⟩]⟩,
  ⟨"TTD_TOUTo_PERIOD_FRAC", 0x3114, [(8, 0x40)], 0x0, true, [⟨"FRAC", 15, 0, .rw, .all⟩]⟩,
  ⟨"TTD_TOUTo_WIDTH", 0x3118, [(8, 0x40)], 0x5f5e100, true, [⟨"WIDTH", 29, 0, .rwc, .dep⟩]⟩,
  ⟨"TTD_TOUTo_STATUS", 0x311c, [(8, 0x40)], 0x0, false, [⟨"RUNNING", 31, 31, .ro, .all⟩, ⟨"MISSED", 30, 30, .ro, .all⟩, ⟨"LEVEL", 29, 29, .ro, .all⟩]⟩,
  ⟨"TTD_NBk_CFG", 0x3400, [(2, 0x10)], 0x0, false, [⟨"EN", 31, 31, .rw, .all⟩, ⟨"NB_CAL", 15, 0, .rwc, (.spanS 16 (-10000) 10000)⟩]⟩,
  ⟨"TTD_NBk_OFS", 0x3404, [(2, 0x10)], 0x0, false, [⟨"OFS", 31, 0, .ro, .all⟩]⟩,
  ⟨"TTD_NBk_STATUS", 0x3408, [(2, 0x10)], 0x0, false, [⟨"ALARM", 31, 31, .ro, .all⟩, ⟨"VALID", 30, 30, .ro, .all⟩, ⟨"COUNT", 15, 0, .ro, .all⟩]⟩]

/-- Every register of unit TTD beyond its header (spec/17 R314). -/
def regRowsTTD : List RegRow := regRowsTTD0 ++ regRowsTTD1 ++ regRowsTTD2 ++ regRowsTTD3 ++ regRowsTTD4

def regRowsHIF0 : List RegRow := [
  ⟨"HIF_LINK_STATUS", 0x40, [], 0x0, false, [⟨"TUNNEL_UP", 31, 31, .ro, .all⟩, ⟨"GEN", 30, 28, .ro, .all⟩, ⟨"NUM_VFS", 4, 0, .ro, .all⟩]⟩,
  ⟨"HIF_CFG", 0x44, [], 0x3e8, false, [⟨"CPL_TO", 13, 0, .rwc, (.span 50 10000)⟩]⟩,
  ⟨"HIF_EVT_UNIT", 0x48, [], 0x0, false, [⟨"UNIT", 27, 0, .ro, .all⟩]⟩,
  ⟨"HIF_DB_BAD", 0x80, [], 0x0, false, [⟨"COUNT", 31, 0, .ro, .all⟩]⟩,
  ⟨"HIF_DESC_BAD", 0x84, [], 0x0, false, [⟨"COUNT", 31, 0, .ro, .all⟩]⟩,
  ⟨"HIF_RX_NO_RING", 0x88, [], 0x0, false, [⟨"COUNT", 31, 0, .ro, .all⟩]⟩,
  ⟨"HIF_CQ_STALL", 0x8c, [], 0x0, false, [⟨"COUNT", 31, 0, .ro, .all⟩]⟩,
  ⟨"HIF_RD_ERR", 0x90, [], 0x0, false, [⟨"COUNT", 31, 0, .ro, .all⟩]⟩,
  ⟨"HIF_KPp_OWN", 0x2020, [(56, 0x4)], 0x0, false, [⟨"OWNER", 4, 0, .rw, .all⟩]⟩,
  ⟨"HIF_DMACc_OWN", 0x2100, [(64, 0x4)], 0x0, false, [⟨"OWNER", 4, 0, .rw, .all⟩]⟩,
  ⟨"HIF_FNf_RIGHTS", 0x1000, [(32, 0x20)], 0x0, false, [⟨"CNT_READ", 31, 31, .rw, .all⟩, ⟨"UNITS", 8, 0, .rw, .all⟩]⟩,
  ⟨"HIF_FNf_EVT", 0x1004, [(32, 0x20)], 0x0, false, [⟨"EVENT", 7, 0, .w1c, .all⟩, ⟨"UNIT", 8, 8, .ro, .all⟩]⟩]

def regRowsHIF1 : List RegRow := [
  ⟨"HIF_FNf_EVT_EN", 0x1008, [(32, 0x20)], 0x1ff, false, [⟨"EVENT", 8, 0, .rw, .all⟩]⟩,
  ⟨"HIF_FNf_EVT_CFG", 0x100c, [(32, 0x20)], 0x0, false, [⟨"EVT_VEC", 5, 0, .rw, .all⟩]⟩,
  ⟨"HIF_Rr_OWN", 0x4000, [(1024, 0x40)], 0x0, false, [⟨"KIND", 10, 8, .rwc, (.named 5 0)⟩, ⟨"OWNER", 4, 0, .rw, .all⟩]⟩,
  ⟨"HIF_Rr_RANGE", 0x4004, [(1024, 0x40)], 0x0, false, [⟨"QCOUNT", 28, 14, .rwc, .dep⟩, ⟨"QBASE", 13, 0, .rwc, .all⟩]⟩,
  ⟨"HIF_Rr_EPRANGE", 0x4008, [(1024, 0x40)], 0x0, false, [⟨"EP_LOG", 24, 20, .rwc, (.span 0 20)⟩, ⟨"EP_BASE", 19, 0, .rw, .all⟩]⟩,
  ⟨"HIF_Rr_ADDR_LO", 0x400c, [(1024, 0x40)], 0x0, false, [⟨"ADDR", 31, 12, .rw, .all⟩]⟩,
  ⟨"HIF_Rr_ADDR_HI", 0x4010, [(1024, 0x40)], 0x0, false, [⟨"ADDR", 31, 0, .rw, .all⟩]⟩,
  ⟨"HIF_Rr_CFG", 0x4014, [(1024, 0x40)], 0x60000, false, [⟨"ENABLE", 31, 31, .rw, .all⟩, ⟨"SIZE_LOG", 20, 16, .rwc, (.span 6 16)⟩, ⟨"CQ", 9, 0, .rw, .all⟩]⟩,
  ⟨"HIF_Rr_COAL", 0x4018, [(1024, 0x40)], 0x320001, false, [⟨"COAL_US", 31, 16, .rwc, (.span 0 1000)⟩, ⟨"COAL_CNT", 15, 0, .rwc, .dep⟩]⟩,
  ⟨"HIF_Rr_STATUS", 0x401c, [(1024, 0x40)], 0x0, false, [⟨"STATE", 31, 30, .ro, .all⟩, ⟨"ERR", 29, 27, .ro, .all⟩, ⟨"CQ_FULL", 26, 26, .ro, .all⟩, ⟨"INDEX", 15, 0, .ro, .all⟩]⟩]

/-- Every register of unit HIF beyond its header (spec/18 R337). -/
def regRowsHIF : List RegRow := regRowsHIF0 ++ regRowsHIF1

def regRowsDMA0 : List RegRow := [
  ⟨"DMA_CTL", 0x40, [], 0x0, false, [⟨"RESUME", 0, 0, .wo, .all⟩]⟩,
  ⟨"DMA_STATUS", 0x44, [], 0x0, false, [⟨"HALTED", 31, 31, .ro, .all⟩, ⟨"BUSY", 6, 0, .ro, .all⟩]⟩,
  ⟨"DMA_ERR", 0x48, [], 0x0, false, [⟨"CAUSE", 31, 29, .ro, .all⟩, ⟨"SPACE", 28, 27, .ro, .all⟩]⟩,
  ⟨"DMA_ERR_ADDR_LO", 0x4c, [], 0x0, false, [⟨"ADDR", 31, 0, .ro, .all⟩]⟩,
  ⟨"DMA_ERR_ADDR_HI", 0x50, [], 0x0, false, [⟨"ADDR", 31, 0, .ro, .all⟩]⟩,
  ⟨"DMA_EVT", 0x60, [], 0x0, false, [⟨"EVENT", 2, 0, .w1c, .all⟩]⟩,
  ⟨"DMA_EVT_EN", 0x64, [], 0x7, false, [⟨"EVENT", 2, 0, .rw, .all⟩]⟩,
  ⟨"DMA_BUS_ERR", 0x80, [], 0x0, false, [⟨"COUNT", 31, 0, .ro, .all⟩]⟩,
  ⟨"DMA_TIMEOUT", 0x84, [], 0x0, false, [⟨"COUNT", 31, 0, .ro, .all⟩]⟩,
  ⟨"DMA_HALTS", 0x88, [], 0x0, false, [⟨"COUNT", 31, 0, .ro, .all⟩]⟩,
  ⟨"DMA_BAD_DESC", 0x8c, [], 0x0, false, [⟨"COUNT", 31, 0, .ro, .all⟩]⟩,
  ⟨"DMA_OVERLAP", 0x90, [], 0x0, false, [⟨"COUNT", 31, 0, .ro, .all⟩]⟩]

def regRowsDMA1 : List RegRow := [
  ⟨"DMA_OWNER_ABANDON", 0x94, [], 0x0, false, [⟨"COUNT", 31, 0, .ro, .all⟩]⟩,
  ⟨"DMA_FNf_DRAM_BASE", 0x1000, [(32, 0x8)], 0x0, false, [⟨"BASE", 31, 20, .rw, .all⟩]⟩,
  ⟨"DMA_FNf_DRAM_SIZE", 0x1004, [(32, 0x8)], 0x0, false, [⟨"SIZE", 12, 0, .rwc, .dep⟩]⟩,
  ⟨"DMA_CHc_STATUS", 0x2000, [(64, 0x10)], 0x0, false, [⟨"STATE", 31, 29, .ro, .all⟩, ⟨"RELEASED", 28, 28, .ro, .all⟩, ⟨"RING", 25, 16, .ro, .all⟩, ⟨"HOPS", 12, 0, .ro, .all⟩]⟩,
  ⟨"DMA_CHc_BYTES", 0x2004, [(64, 0x10)], 0x0, false, [⟨"COUNT", 31, 0, .ro, .all⟩]⟩]

/-- Every register of unit DMA beyond its header (spec/19 R356, R357). -/
def regRowsDMA : List RegRow := regRowsDMA0 ++ regRowsDMA1

def regRowsBDM0 : List RegRow := [
  ⟨"BDM_EVT", 0x60, [], 0x0, false, [⟨"EVENT", 3, 0, .w1c, .all⟩]⟩,
  ⟨"BDM_EVT_EN", 0x64, [], 0xf, false, [⟨"EVENT", 3, 0, .rw, .all⟩]⟩,
  ⟨"BDM_CHc_CTL", 0x1000, [(4, 0x20)], 0x0, false, [⟨"GO", 31, 31, .wo, .all⟩, ⟨"ABORT", 30, 30, .wo, .all⟩]⟩,
  ⟨"BDM_CHc_DESC_LO", 0x1004, [(4, 0x20)], 0x0, false, [⟨"ADDR", 31, 5, .rw, .all⟩]⟩,
  ⟨"BDM_CHc_DESC_HI", 0x1008, [(4, 0x20)], 0x0, false, [⟨"SPACE", 1, 0, .rw, .all⟩]⟩,
  ⟨"BDM_CHc_STATUS", 0x100c, [(4, 0x20)], 0x0, false, [⟨"STATE", 31, 30, .ro, .all⟩, ⟨"RESULT", 29, 26, .ro, .all⟩, ⟨"HOPS", 12, 0, .ro, .all⟩]⟩,
  ⟨"BDM_CHc_ERR_LO", 0x1010, [(4, 0x20)], 0x0, false, [⟨"VALUE", 31, 0, .ro, .all⟩]⟩,
  ⟨"BDM_CHc_ERR_HI", 0x1014, [(4, 0x20)], 0x0, false, [⟨"CAUSE", 31, 29, .ro, .all⟩, ⟨"SPACE", 28, 27, .ro, .all⟩]⟩,
  ⟨"BDM_CHc_BYTES", 0x1018, [(4, 0x20)], 0x0, false, [⟨"COUNT", 31, 0, .ro, .all⟩]⟩]

/-- Every register of unit BDM beyond its header (spec/19 R356, R357). -/
def regRowsBDM : List RegRow := regRowsBDM0

def regRowsPWR0 : List RegRow := [
  ⟨"PWR_CTL", 0x40, [], 0x0, true, [⟨"TARGET", 1, 0, .rwc, (.among [0, 2, 3])⟩]⟩,
  ⟨"PWR_TRIM_LO", 0x44, [], 0x0, true, [⟨"OFF", 31, 0, .rwc, .dep⟩]⟩,
  ⟨"PWR_TRIM_HI", 0x48, [], 0x0, true, [⟨"OFF", 23, 0, .rwc, .dep⟩]⟩,
  ⟨"PWR_STATUS", 0x4c, [], 0x0, false, [⟨"STATE", 31, 30, .ro, .all⟩, ⟨"TRANS", 29, 29, .ro, .all⟩, ⟨"STEP", 28, 25, .ro, .all⟩, ⟨"WAKE_FAIL", 24, 24, .ro, .all⟩, ⟨"SAFE", 23, 23, .ro, .all⟩, ⟨"PWR_ALT", 22, 22, .ro, .all⟩, ⟨"DYING_GASP", 21, 21, .ro, .all⟩, ⟨"WAKE_PEND", 20, 20, .ro, .all⟩, ⟨"LAST_OUTCOME", 19, 17, .ro, .all⟩]⟩,
  ⟨"PWR_DOM_ON_LO", 0x50, [], 0xffffffff, false, [⟨"VALUE", 31, 0, .ro, .all⟩]⟩,
  ⟨"PWR_DOM_ON_HI", 0x54, [], 0xffffff, false, [⟨"VALUE", 31, 0, .ro, .all⟩]⟩,
  ⟨"PWR_DOM_RET_LO", 0x58, [], 0x0, false, [⟨"VALUE", 31, 0, .ro, .all⟩]⟩,
  ⟨"PWR_DOM_RET_HI", 0x5c, [], 0x0, false, [⟨"VALUE", 31, 0, .ro, .all⟩]⟩,
  ⟨"PWR_DOM_FAIL_LO", 0x60, [], 0x0, false, [⟨"VALUE", 31, 0, .ro, .all⟩]⟩,
  ⟨"PWR_DOM_FAIL_HI", 0x64, [], 0x0, false, [⟨"VALUE", 31, 0, .ro, .all⟩]⟩,
  ⟨"PWR_VOLT", 0x68, [], 0x320aa2ee, false, [⟨"VOLT_SAFE", 29, 20, .rwc, (.span 680 820)⟩, ⟨"VOLT_LOW", 19, 10, .rwc, .dep⟩, ⟨"VOLT_FULL", 9, 0, .rwc, (.span 680 820)⟩]⟩,
  ⟨"PWR_AVS_CFG", 0x6c, [], 0x0, false, [⟨"RAIL", 3, 0, .rw, .all⟩]⟩]

def regRowsPWR1 : List RegRow := [
  ⟨"PWR_WAKE_EN", 0x70, [], 0xff, false, [⟨"SOURCE", 7, 0, .rw, .all⟩]⟩,
  ⟨"PWR_WAKE_SRC", 0x74, [], 0x0, false, [⟨"SOURCE", 7, 0, .w1c, .all⟩]⟩,
  ⟨"PWR_WAKE_CFG", 0x78, [], 0x8000003a, false, [⟨"GASP_EN", 31, 31, .rw, .all⟩, ⟨"MGMT_ADDR", 6, 0, .rw, .all⟩]⟩,
  ⟨"PWR_GRANT_TO", 0x7c, [], 0x32, false, [⟨"GRANT_TO", 7, 0, .rwc, (.span 5 200)⟩]⟩,
  ⟨"PWR_REFUSE", 0x80, [], 0x0, false, [⟨"KIND", 31, 16, .ro, .all⟩, ⟨"INSTANCE", 15, 8, .ro, .all⟩, ⟨"STEP", 7, 4, .ro, .all⟩, ⟨"TARGET", 3, 2, .ro, .all⟩, ⟨"TIMEOUT", 1, 1, .ro, .all⟩, ⟨"VALID", 0, 0, .ro, .all⟩]⟩,
  ⟨"PWR_REFUSE_SEC", 0x84, [], 0x0, false, [⟨"VALUE", 31, 0, .ro, .all⟩]⟩,
  ⟨"PWR_REFUSE_NS", 0x88, [], 0x0, false, [⟨"VALUE", 29, 0, .ro, .all⟩]⟩,
  ⟨"PWR_ENTRIES", 0xa0, [], 0x0, false, [⟨"COUNT", 31, 0, .ro, .all⟩]⟩,
  ⟨"PWR_ABORTS", 0xa4, [], 0x0, false, [⟨"COUNT", 31, 0, .ro, .all⟩]⟩,
  ⟨"PWR_REFUSALS", 0xa8, [], 0x0, false, [⟨"COUNT", 31, 0, .ro, .all⟩]⟩,
  ⟨"PWR_WAKES", 0xac, [], 0x0, false, [⟨"COUNT", 31, 0, .ro, .all⟩]⟩,
  ⟨"PWR_WAKE_FAILS", 0xb0, [], 0x0, false, [⟨"COUNT", 31, 0, .ro, .all⟩]⟩]

def regRowsPWR2 : List RegRow := [
  ⟨"PWR_WAKE_REFUSED", 0xb4, [], 0x0, false, [⟨"COUNT", 31, 0, .ro, .all⟩]⟩,
  ⟨"PWR_AVS_RETRY", 0xb8, [], 0x0, false, [⟨"COUNT", 31, 0, .ro, .all⟩]⟩,
  ⟨"PWR_PLL_RETRY", 0xbc, [], 0x0, false, [⟨"COUNT", 31, 0, .ro, .all⟩]⟩,
  ⟨"PWR_EVT", 0xc0, [], 0x0, false, [⟨"EVENT", 7, 0, .w1c, .all⟩]⟩,
  ⟨"PWR_EVT_EN", 0xc4, [], 0xff, false, [⟨"EVENT", 7, 0, .rw, .all⟩]⟩]

/-- Every register of unit PWR beyond its header (spec/20 R375). -/
def regRowsPWR : List RegRow := regRowsPWR0 ++ regRowsPWR1 ++ regRowsPWR2

def regRowsBST0 : List RegRow := [
  ⟨"BST_CFG", 0x40, [], 0x8000000a, false, [⟨"EN", 31, 31, .rw, .all⟩, ⟨"SLICE_GAP", 9, 0, .rwc, (.span 1 1000)⟩]⟩,
  ⟨"BST_STATUS", 0x44, [], 0x0, false, [⟨"RUNNING", 31, 31, .ro, .all⟩, ⟨"PHASE", 30, 29, .ro, .all⟩, ⟨"MBIST_DONE", 28, 28, .ro, .all⟩, ⟨"MBIST_FAIL", 27, 27, .ro, .all⟩, ⟨"TARGET", 21, 16, .ro, .all⟩, ⟨"SEGMENT", 11, 8, .ro, .all⟩]⟩,
  ⟨"BST_LAST", 0x48, [], 0x0, false, [⟨"VERDICT", 31, 29, .ro, .all⟩, ⟨"CAUSE", 28, 26, .ro, .all⟩, ⟨"CONFIRM", 25, 25, .ro, .all⟩, ⟨"TARGET", 21, 16, .ro, .all⟩, ⟨"SEGMENT", 11, 8, .ro, .all⟩]⟩,
  ⟨"BST_LAST_SIG_LO", 0x4c, [], 0x0, false, [⟨"SIG", 31, 0, .ro, .all⟩]⟩,
  ⟨"BST_LAST_SIG_HI", 0x50, [], 0x0, false, [⟨"SIG", 31, 0, .ro, .all⟩]⟩,
  ⟨"BST_EVT", 0x60, [], 0x0, false, [⟨"EVENT", 4, 0, .w1c, .all⟩]⟩,
  ⟨"BST_EVT_EN", 0x64, [], 0x1f, false, [⟨"EVENT", 4, 0, .rw, .all⟩]⟩,
  ⟨"BST_SLICES", 0x80, [], 0x0, false, [⟨"COUNT", 31, 0, .ro, .all⟩]⟩,
  ⟨"BST_PASS", 0x84, [], 0x0, false, [⟨"COUNT", 31, 0, .ro, .all⟩]⟩,
  ⟨"BST_FAIL", 0x88, [], 0x0, false, [⟨"COUNT", 31, 0, .ro, .all⟩]⟩,
  ⟨"BST_ABORTED", 0x8c, [], 0x0, false, [⟨"COUNT", 31, 0, .ro, .all⟩]⟩,
  ⟨"BST_SERVICE_ABORT", 0x90, [], 0x0, false, [⟨"COUNT", 31, 0, .ro, .all⟩]⟩]

def regRowsBST1 : List RegRow := [
  ⟨"BST_BUDGET", 0x94, [], 0x0, false, [⟨"COUNT", 31, 0, .ro, .all⟩]⟩,
  ⟨"BST_TRANSIENT", 0x98, [], 0x0, false, [⟨"COUNT", 31, 0, .ro, .all⟩]⟩,
  ⟨"BST_TGTt_STATUS", 0x1000, [(48, 0x4)], 0xffff, false, [⟨"STATE", 31, 30, .ro, .all⟩, ⟨"OVERDUE", 29, 29, .ro, .all⟩, ⟨"PENDING", 28, 28, .w1c, .all⟩, ⟨"SUSPECT", 27, 27, .ro, .all⟩, ⟨"VERDICT", 26, 24, .ro, .all⟩, ⟨"NEXT_SEG", 19, 16, .ro, .all⟩, ⟨"HOURS", 15, 0, .ro, .all⟩]⟩,
  ⟨"BST_MEMm_STATUS", 0x2000, [(21, 0x4)], 0x0, false, [⟨"STATE", 31, 30, .ro, .all⟩, ⟨"FUSE_USED", 23, 16, .ro, .all⟩, ⟨"SOFT_USED", 15, 8, .ro, .all⟩, ⟨"FREE", 7, 0, .ro, .all⟩]⟩]

/-- Every register of unit BST beyond its header (spec/21 R388). -/
def regRowsBST : List RegRow := regRowsBST0 ++ regRowsBST1

def regRowsFWU0 : List RegRow := [
  ⟨"FWU_CTL", 0x40, [], 0x0, false, [⟨"CONFIRM", 31, 31, .wo, .all⟩, ⟨"PRELOAD", 30, 30, .wo, .all⟩, ⟨"SAVE", 29, 29, .wo, .all⟩, ⟨"ORIG_GO", 28, 28, .wo, .all⟩, ⟨"ALIVE", 27, 27, .wo, .all⟩]⟩,
  ⟨"FWU_CFG", 0x44, [], 0x19, false, [⟨"HOST_LOCK", 31, 31, .rw, .all⟩, ⟨"ORIG_DIR", 30, 30, .rw, .all⟩, ⟨"ALIVE_MS", 4, 0, .rwc, (.span 5 30)⟩]⟩,
  ⟨"FWU_STATUS", 0x4c, [], 0x0, false, [⟨"RUNNING_SLOT", 31, 31, .ro, .all⟩, ⟨"RECOVERY", 30, 30, .ro, .all⟩, ⟨"STORING", 29, 29, .ro, .all⟩, ⟨"PRELOADED", 28, 28, .ro, .all⟩, ⟨"ACTIVATING", 27, 27, .ro, .all⟩, ⟨"LAST_ACT", 26, 24, .ro, .all⟩, ⟨"REFUSE", 23, 20, .ro, .all⟩, ⟨"CHECK", 19, 16, .ro, .all⟩, ⟨"HE_LOCK", 9, 8, .ro, .all⟩, ⟨"ROLLBACK", 6, 0, .ro, .all⟩]⟩,
  ⟨"FWU_SLOTs_INFOk", 0x50, [(2, 0x10), (4, 0x4)], 0x0, false, [⟨"VALUE", 31, 0, .ro, .all⟩]⟩,
  ⟨"FWU_ACT", 0x70, [], 0x0, true, [⟨"REQ", 31, 31, .rw, .all⟩, ⟨"SLOT", 0, 0, .rw, .all⟩]⟩,
  ⟨"FWU_DRAM_BASE", 0x74, [], 0xfc000000, false, [⟨"BASE", 31, 26, .rw, .all⟩]⟩,
  ⟨"FWU_ORIG_ADDR", 0x78, [], 0x0, false, [⟨"ADDR", 31, 12, .rw, .all⟩]⟩,
  ⟨"FWU_ORIG_LEN", 0x7c, [], 0x400, false, [⟨"LEN", 31, 0, .rwc, (.span 1024 50327552)⟩]⟩,
  ⟨"FWU_MIG", 0x80, [], 0x0, false, [⟨"RECORDS", 31, 16, .ro, .all⟩, ⟨"CLAMPED", 15, 0, .ro, .all⟩]⟩,
  ⟨"FWU_ACTIVATIONS", 0xa0, [], 0x0, false, [⟨"COUNT", 31, 0, .ro, .all⟩]⟩,
  ⟨"FWU_ACT_REFUSED", 0xa4, [], 0x0, false, [⟨"COUNT", 31, 0, .ro, .all⟩]⟩,
  ⟨"FWU_CHECK_FAIL", 0xa8, [], 0x0, false, [⟨"COUNT", 31, 0, .ro, .all⟩]⟩]

def regRowsFWU1 : List RegRow := [
  ⟨"FWU_STORE_FAIL", 0xac, [], 0x0, false, [⟨"COUNT", 31, 0, .ro, .all⟩]⟩,
  ⟨"FWU_REC_BAD", 0xb0, [], 0x0, false, [⟨"COUNT", 31, 0, .ro, .all⟩]⟩,
  ⟨"FWU_REC_NEWER", 0xb4, [], 0x0, false, [⟨"COUNT", 31, 0, .ro, .all⟩]⟩,
  ⟨"FWU_COMPACT", 0xb8, [], 0x0, false, [⟨"COUNT", 31, 0, .ro, .all⟩]⟩,
  ⟨"FWU_EVT", 0xc0, [], 0x0, false, [⟨"EVENT", 5, 0, .w1c, .all⟩]⟩,
  ⟨"FWU_EVT_EN", 0xc4, [], 0x3f, false, [⟨"EVENT", 5, 0, .rw, .all⟩]⟩]

/-- Every register of unit FWU beyond its header (spec/22 R409, R410). -/
def regRowsFWU : List RegRow := regRowsFWU0 ++ regRowsFWU1

def regRowsCRS0 : List RegRow := [
  ⟨"CRS_CFG", 0x40, [], 0xf8000020, false, [⟨"EN_E", 31, 31, .rw, .all⟩, ⟨"EN_W", 30, 30, .rw, .all⟩, ⟨"RELAY_E", 29, 29, .rw, .all⟩, ⟨"RELAY_W", 28, 28, .rw, .all⟩, ⟨"STORE", 27, 27, .rw, .all⟩, ⟨"RESCUE_EN", 26, 26, .rw, .all⟩, ⟨"HOPS", 7, 0, .rwc, (.span 1 255)⟩]⟩,
  ⟨"CRS_ADDR_LO", 0x44, [], 0x0, false, [⟨"ADDR", 31, 0, .rw, .all⟩]⟩,
  ⟨"CRS_ADDR_HI", 0x48, [], 0x0, false, [⟨"ADDR", 15, 0, .rw, .all⟩]⟩,
  ⟨"CRS_LINKk_STATUS", 0x50, [(2, 0x10)], 0x0, false, [⟨"UP", 31, 31, .ro, .all⟩, ⟨"AN_DONE", 30, 30, .ro, .all⟩, ⟨"RELAY_IN", 29, 29, .ro, .all⟩, ⟨"RELAY_OUT", 28, 28, .ro, .all⟩, ⟨"NEXT", 15, 0, .ro, .all⟩]⟩,
  ⟨"CRS_LINKk_PEER_LO", 0x54, [(2, 0x10)], 0x0, false, [⟨"VALUE", 31, 0, .ro, .all⟩]⟩,
  ⟨"CRS_LINKk_PEER_HI", 0x58, [(2, 0x10)], 0x0, false, [⟨"VALUE", 31, 0, .ro, .all⟩]⟩,
  ⟨"CRS_RX_OTHER", 0x80, [], 0x0, false, [⟨"COUNT", 31, 0, .ro, .all⟩]⟩,
  ⟨"CRS_PDU_BAD", 0x84, [], 0x0, false, [⟨"COUNT", 31, 0, .ro, .all⟩]⟩,
  ⟨"CRS_BLK_BAD", 0x88, [], 0x0, false, [⟨"COUNT", 31, 0, .ro, .all⟩]⟩,
  ⟨"CRS_RELAY_ABORT", 0x8c, [], 0x0, false, [⟨"COUNT", 31, 0, .ro, .all⟩]⟩,
  ⟨"CRS_RESCUE", 0x90, [], 0x0, false, [⟨"COUNT", 31, 0, .ro, .all⟩]⟩,
  ⟨"CRS_EVT", 0xc0, [], 0x0, false, [⟨"EVENT", 2, 0, .w1c, .all⟩]⟩]

def regRowsCRS1 : List RegRow := [
  ⟨"CRS_EVT_EN", 0xc4, [], 0x7, false, [⟨"EVENT", 2, 0, .rw, .all⟩]⟩]

/-- Every register of unit CRS beyond its header (spec/22 R409, R410). -/
def regRowsCRS : List RegRow := regRowsCRS0 ++ regRowsCRS1

def regRowsCNT0 : List RegRow := [
  ⟨"CNT_CFG", 0x40, [], 0x3e8, false, [⟨"TLM_EN", 31, 31, .rw, .all⟩, ⟨"BW_WIN", 13, 0, .rwc, (.among [1, 2, 4, 5, 8, 10, 20, 25, 40, 50, 100, 125, 200, 250, 500, 1000, 2000, 5000, 10000])⟩]⟩,
  ⟨"CNT_TLM_CFG", 0x44, [], 0x10004, false, [⟨"EVERY", 23, 16, .rwc, (.span 1 255)⟩, ⟨"VEC", 13, 8, .rw, .all⟩, ⟨"TLM_LOG", 3, 0, .rwc, (.span 2 12)⟩]⟩,
  ⟨"CNT_TLM_BASE_LO", 0x48, [], 0x0, false, [⟨"ADDR", 31, 12, .rw, .all⟩]⟩,
  ⟨"CNT_TLM_BASE_HI", 0x4c, [], 0x0, false, [⟨"ADDR", 31, 0, .rw, .all⟩]⟩,
  ⟨"CNT_TLM_SEQ", 0x50, [], 0x0, false, [⟨"SEQ", 31, 0, .ro, .all⟩]⟩,
  ⟨"CNT_CTL", 0x54, [], 0x0, false, [⟨"CLEAR", 31, 31, .wo, .all⟩, ⟨"ALL", 30, 30, .wo, .all⟩, ⟨"INDEX", 11, 0, .wo, .all⟩]⟩,
  ⟨"CNT_BW_END_SEC", 0x58, [], 0x0, false, [⟨"VALUE", 31, 0, .ro, .all⟩]⟩,
  ⟨"CNT_BW_END_NS", 0x5c, [], 0x0, false, [⟨"NS", 29, 0, .ro, .all⟩]⟩,
  ⟨"CNT_BW_INFO", 0x60, [], 0x0, false, [⟨"STEPPED", 31, 31, .ro, .all⟩, ⟨"BW_WIN", 13, 0, .ro, .all⟩]⟩,
  ⟨"CNT_EVT", 0x70, [], 0x0, false, [⟨"EVENT", 2, 0, .w1c, .all⟩]⟩,
  ⟨"CNT_EVT_EN", 0x74, [], 0x3, false, [⟨"EVENT", 2, 0, .rw, .all⟩]⟩,
  ⟨"CNT_SAT_COUNT", 0x80, [], 0x0, false, [⟨"COUNT", 31, 0, .ro, .all⟩]⟩]

def regRowsCNT1 : List RegRow := [
  ⟨"CNT_READ_DENIED", 0x84, [], 0x0, false, [⟨"COUNT", 31, 0, .ro, .all⟩]⟩,
  ⟨"CNT_TLM_ERR", 0x88, [], 0x0, false, [⟨"COUNT", 31, 0, .ro, .all⟩]⟩,
  ⟨"CNT_SELc", 0x10000, [(4096, 0x8)], 0x0, false, [⟨"MODE", 31, 30, .rw, .all⟩, ⟨"OWNER", 29, 25, .rw, .all⟩, ⟨"OCC_SRC", 24, 23, .rw, .all⟩, ⟨"SAT", 22, 22, .ro, .all⟩, ⟨"ARG", 13, 0, .rw, .all⟩]⟩,
  ⟨"CNT_THRc", 0x10004, [(4096, 0x8)], 0x0, false, [⟨"N", 18, 0, .rwc, (.span 0 393216)⟩]⟩,
  ⟨"CNT_VALc_LO", 0x20000, [(4096, 0x8)], 0x0, false, [⟨"VALUE", 31, 0, .ro, .all⟩]⟩,
  ⟨"CNT_VALc_HI", 0x20004, [(4096, 0x8)], 0x0, false, [⟨"VALUE", 31, 0, .ro, .all⟩]⟩,
  ⟨"CNT_BWp_RX_LO", 0x40000, [(66, 0x10)], 0x0, false, [⟨"VALUE", 31, 0, .ro, .all⟩]⟩,
  ⟨"CNT_BWp_RX_HI", 0x40004, [(66, 0x10)], 0x0, false, [⟨"VALUE", 31, 0, .ro, .all⟩]⟩,
  ⟨"CNT_BWp_TX_LO", 0x40008, [(66, 0x10)], 0x0, false, [⟨"VALUE", 31, 0, .ro, .all⟩]⟩,
  ⟨"CNT_BWp_TX_HI", 0x4000c, [(66, 0x10)], 0x0, false, [⟨"VALUE", 31, 0, .ro, .all⟩]⟩]

/-- Every register of unit CNT beyond its header (spec/23 R420). -/
def regRowsCNT : List RegRow := regRowsCNT0 ++ regRowsCNT1

def regRowsRST0 : List RegRow := [
  ⟨"RST_CTL", 0x40, [], 0x0, false, [⟨"SYSTEM", 31, 31, .wo, .all⟩, ⟨"CORE", 30, 30, .wo, .all⟩, ⟨"CONFIRM", 15, 0, .wo, .all⟩]⟩,
  ⟨"RST_CAUSE", 0x44, [], 0x0, false, [⟨"KIND", 31, 30, .ro, .all⟩, ⟨"SOURCE", 29, 26, .ro, .all⟩, ⟨"INTERRUPTED", 5, 0, .ro, .all⟩]⟩,
  ⟨"RST_STATUS", 0x48, [], 0x0, false, [⟨"RELEASED", 31, 31, .ro, .all⟩, ⟨"NO_FW", 30, 30, .ro, .all⟩, ⟨"HOME_RUN", 29, 29, .ro, .all⟩, ⟨"BOOT_SLOT", 28, 27, .ro, .all⟩, ⟨"PHASE", 2, 0, .ro, .all⟩]⟩,
  ⟨"RST_BOOT_MS", 0x4c, [], 0x0, false, [⟨"MS", 31, 0, .ro, .all⟩]⟩,
  ⟨"RST_WDT", 0x50, [], 0x3e8, false, [⟨"EN", 31, 31, .rw, .all⟩, ⟨"KICK", 30, 30, .wo, .all⟩, ⟨"WDT_MS", 13, 0, .rwc, (.span 100 10000)⟩]⟩,
  ⟨"RST_HOME_CFG", 0x54, [], 0x3c, false, [⟨"HOME_WAIT", 9, 0, .rwc, (.span 0 600)⟩]⟩,
  ⟨"RST_FW_DONE", 0x58, [], 0x0, false, [⟨"BOOT_DONE", 31, 31, .wo, .all⟩]⟩,
  ⟨"RST_SYSTEM", 0x80, [], 0x0, false, [⟨"COUNT", 31, 0, .ro, .all⟩]⟩,
  ⟨"RST_FUNCTION", 0x84, [], 0x0, false, [⟨"COUNT", 31, 0, .ro, .all⟩]⟩,
  ⟨"RST_CORE", 0x88, [], 0x0, false, [⟨"COUNT", 31, 0, .ro, .all⟩]⟩,
  ⟨"RST_WDT_EXPIRE", 0x8c, [], 0x0, false, [⟨"COUNT", 31, 0, .ro, .all⟩]⟩,
  ⟨"RST_EVT", 0xc0, [], 0x0, false, [⟨"EVENT", 2, 0, .w1c, .all⟩]⟩]

def regRowsRST1 : List RegRow := [
  ⟨"RST_EVT_EN", 0xc4, [], 0x7, false, [⟨"EVENT", 2, 0, .rw, .all⟩]⟩]

/-- Every register of unit RST beyond its header (spec/24 R433). -/
def regRowsRST : List RegRow := regRowsRST0 ++ regRowsRST1

end Sys2Proof.Machine
end

