-- ==== Sys2Proof/Machine/Operands.lean ====
section
/-!
DEFINITION. Machine/Operands.lean: how a register write is checked and stored: the row a BAR0 offset names, the writer's
rights (R33, R318, R464), the range of each field (R29, R30), and the clamp log (R31, R32).
-/

namespace Sys2Proof.Machine

/-! ### The register a BAR0 offset names -/

/-- The registers of a unit kind beyond its header (R28). -/
def rowsOfKind (kind : Nat) : List RegRow :=
  if kind = 0x01 then regRowsROOT else if kind = 0x11 then regRowsRST else if kind = 0x12 then regRowsPWR
  else if kind = 0x13 then regRowsBST else if kind = 0x20 then regRowsKST else if kind = 0x21 then regRowsTCM
  else if kind = 0x22 then regRowsTTD else if kind = 0x30 || kind = 0x31 then regRowsLLx
  else if kind = 0x32 then regRowsDSF else if kind = 0x33 then regRowsUPB else if kind = 0x40 then regRowsRNG
  else if kind = 0x41 then regRowsNRW else if kind = 0x42 then regRowsENC else if kind = 0x43 then regRowsCIP
  else if kind = 0x44 then regRowsSDL else if kind = 0x50 then regRowsSLN else if kind = 0x51 then regRowsMAC
  else if kind = 0x60 then regRowsPRS else if kind = 0x61 then regRowsCLS else if kind = 0x62 then regRowsASH
  else if kind = 0x63 then regRowsTMG else if kind = 0x70 then regRowsHIF else if kind = 0x71 then regRowsDMA
  else if kind = 0x72 then regRowsBDM else if kind = 0x73 then regRowsFWU else if kind = 0x74 then regRowsCRS
  else if kind = 0x75 then regRowsCNT else []

/-- A distance from a row's first register is one of its repetitions. -/
def repeats : Nat → List (Nat × Nat) → Bool
  | k, [] => k == 0
  | k, (n, s) :: t => decide (k / s < n) && repeats (k % s) t

def rowMatches (rel : Nat) (r : RegRow) : Bool := decide (r.ofs ≤ rel) && repeats (rel - r.ofs) r.reps

/-- MAC_WAKE registers exist in instance 0 only, and are RSV in the others (R234). -/
def rowExists (u : UnitRow) (r : RegRow) : Bool := !(u.kind == 0x51 && (r.ofs == 0x100 || r.ofs == 0x104) && u.inst != 0)

/-- The register row at a window-relative offset of a unit, if its chapter defines one; a register that is RSV there has no field and
reads as zero (R8, R9). -/
def rowAt (u : UnitRow) (rel : Nat) : Option RegRow :=
  ((rowsOfKind u.kind).find? (rowMatches rel)).map (fun r => if rowExists u r then r else { r with rst := 0, fields := [] })

/-- The reset word of the register at that offset; two registers of function 0 differ from their row (R337, R356). -/
def resetAt (u : UnitRow) (r : RegRow) (rel : Nat) : Word :=
  BitVec.ofNat 32 (if u.kind = 0x70 ∧ rel = 0x1000 then 0x800001FF
    else if u.kind = 0x71 ∧ rel = 0x1004 then 0x1000 else r.rst)

/-- The handle of the register at that offset. -/
def regAt (u : UnitRow) (r : RegRow) (rel : Nat) : Reg := ⟨u.base + rel, resetAt u r rel⟩

/-! ### The clamp log (R31, R32) -/

/-- One clamped field: a log entry, CLAMPED and the CLAMP summary of the unit, LAST_INDEX of its group and of the root (R26), and the
CLAMP event to function 0. -/
def logClamp (d : Dev) (writer : Nat) (u : UnitRow) (rel width lsb written applied : Nat) : Dev :=
  let seq := rdn d ROOT_CLAMP_SEQ
  let e : ClampEntry :=
    { kind := u.kind, inst := u.inst, writer := writer, width := width, lsb := lsb, ofs := rel, written := written,
      applied := applied, sec := d.clock.sec.toNat, ns := d.clock.ns.val, seq := seq }
  let d := { d with clampLog := sput ⟨0, 0, 0, 0, 0, 0, 0, 0, 0, 0, 0⟩ d.clampLog (seq % 256) e }
  let d := setFlag (wrn d ROOT_CLAMP_SEQ (seq + 1)) (HDR_STATUS_CLAMPED u.base) true
  let d := countFld (setFlag d (HDR_CLAMP_VALID u.base) true) (HDR_CLAMP_COUNT u.base)
  let d := forEach [u.base, (unitAt u.parent).base, 0] (fun d w => setFld d (HDR_CLAMP_LAST_INDEX w) (seq % 256)) d
  raiseFn d 0 evClamp

/-! ### Ranges that depend on other fields (R30) -/

/-- A domain that host software may remove in Trim (R358). -/
def trimmable (n : Nat) : Bool :=
  (decide (2 ≤ n) && decide (n ≤ 25)) || n == 27 || (decide (28 ≤ n) && decide (n ≤ 31))
    || (decide (35 ≤ n) && decide (n ≤ 42)) || n == 44 || n == 45 || n == 46 || n == 48

/-- The trim bits of domains base to base + 31 that may stay set (R361). -/
def clampTrim (base v : Nat) : Nat :=
  let m := (List.range 32).foldl (fun n b => if bitOf v b && trimmable (base + b) then n + 2 ^ b else n) 0
  if base = 0 then (if bitsOf m 29 28 = 3 then m - 2 ^ 28 else m)
  else (if bitsOf m 10 3 = 0xFF then m - 2 ^ 3 else m)

/-- What a written field value becomes where its range depends on other fields or on the state: the unit, the window
offset, the row's first offset, the word with its other fields already checked, the value. -/
def clampDep (d : Dev) (u : UnitRow) (rel row : Nat) (w : Word) (v : Nat) : Nat :=
  if u.kind = 0x30 ∨ u.kind = 0x31 then
    let x := u.kind - 0x30
    if row = 0x40 then clampNat 0 (if fld d (RNG_Lx_STATUS_STATE x) = 0 then 3 else 0) v
    else if row = 0x48 then clampNat 0 (32 - getBits w 4 0) v
    else if row = 0x50 then clampNat 1 (min 32 (256 - getBits w 15 8)) v
    else if fld d (LLx_CTL_TEST_MODE x) = 1 ∨ fld d (LLx_CTL_TEST_MODE x) = 3 then v else 0
  else if u.kind = 0x50 then
    if row = 0x1000 then
      let speed := getBits w 27 26
      if speed = 0 then clampNat 0 1 v else if speed = 1 then clampNat 0 2 v else 3
    else
      let tm := fld d (SLN_LANEl_CTL_TEST_MODE u.inst ((rel - 0x1000) / 0x100))
      if tm = 1 ∨ tm = 3 then v else 0
  else if u.kind = 0x51 then clampNat 1 (max 1 (getBits w 31 16 - 1)) v
  else if u.kind = 0x61 then
    let top := 512 - getBits w 30 24
    clampNat (min (getBits w 17 9) top) top v
  else if u.kind = 0x63 then clampNat 0 (getBits w 15 0) v
  else if u.kind = 0x70 then
    if row = 0x4018 then clampNat 1 (2 ^ fld d (HIF_Rr_CFG_SIZE_LOG ((rel - 0x4000) / 0x40)) - 1) v
    else clampNat 0 (16384 - getBits w 13 0) v
  else if u.kind = 0x71 then clampNat 0 (4096 - fld d (DMA_FNf_DRAM_BASE_BASE ((rel - 0x1000) / 8))) v
  else if u.kind = 0x12 then
    if row = 0x44 then clampTrim 0 v else if row = 0x48 then clampTrim 32 v else clampNat 680 (getBits w 9 0) v
  else if u.kind = 0x22 then
    let o := (rel - 0x3100) / 0x40
    let mode := fld d (TTD_TOUTo_CFG_MODE o)
    if mode = 2 then clampNat 0 (fld d (TTD_TOUTo_PERIOD_NS_NS o) - 20) v
    else if mode = 1 then clampNat 20 999999980 v else clampNat 0 1000000000 v
  else v

/-! ### Storing a write -/

/-- The range-checked value of a field. -/
def checkField (d : Dev) (u : UnitRow) (rel : Nat) (row : RegRow) (w : Word) (f : FieldRow) (v : Nat) : Nat :=
  match f.rng with
  | .dep => clampDep d u rel row.ofs w v
  | r => clampRange r (f.hi - f.lo + 1) v

/-- Store one RWC field, with its clamp-log entry where it was clamped. -/
def storeRwc (writer : Nat) (u : UnitRow) (rel : Nat) (row : RegRow) (value : Word) (acc : Dev × Word) (f : FieldRow) :
    Dev × Word :=
  let v := getBits value f.hi f.lo
  let a := checkField acc.1 u rel row acc.2 f v
  (if a = v then acc.1 else logClamp acc.1 writer u rel (f.hi - f.lo) f.lo v a, putBits acc.2 f.hi f.lo a)

/-- The word with every RW field as written and every W1C bit written 1 cleared (R8). -/
def storePlain (old value : Word) (fs : List FieldRow) : Word :=
  fs.foldl (fun w f => match f.acc with
    | .rw => putBits w f.hi f.lo (getBits value f.hi f.lo)
    | .w1c => w &&& ~~~ (value &&& maskBits f.hi f.lo)
    | _ => w) old

/-- Store a 32-bit write to a register of the map: RW and W1C fields, then the RWC fields with fixed ranges, then those
whose range depends on them (R29, R30). A shadowed register's word becomes dirty (R67). -/
def storeWord (d : Dev) (writer : Nat) (u : UnitRow) (rel : Nat) (row : RegRow) (value : Word) : Dev :=
  let r := regAt u row rel
  let w := storePlain (rd d r) value row.fields
  let fixed := row.fields.filter (fun f => f.acc == .rwc && f.rng != .dep)
  let dep := row.fields.filter (fun f => f.acc == .rwc && f.rng == .dep)
  let (d, w) := fixed.foldl (storeRwc writer u rel row value) (d, w)
  let (d, w) := dep.foldl (storeRwc writer u rel row value) (d, w)
  let d := wr d r w
  if row.shadowed then { d with dirty := insSorted r.ofs d.dirty } else d

/-- Check a held field again after a field it depends on was written (R30): it is clamped and logged as though written. -/
def recheckField (d : Dev) (writer : Nat) (u : UnitRow) (rel row : Nat) (f : Fld) : Dev :=
  let v := fld d f
  let a := clampDep d u rel row (rd d f.reg) v
  if a = v then d else setFld (logClamp d writer u rel (f.hi - f.lo) f.lo v a) f a

/-- A value held in a LO and HI pair is checked as one value when HI is written; each word that the clamp changes is
logged, with the width of its value bits (R465). -/
def checkPair (d : Dev) (writer : Nat) (u : UnitRow) (lo hi : Reg) (hiWidth low high : Nat) : Dev :=
  let v := rdn d lo + 0x100000000 * (rdn d hi % 2 ^ hiWidth)
  let a := clampNat low high v
  let d := if a % 0x100000000 = v % 0x100000000 then d
    else logClamp d writer u (lo.ofs - u.base) 31 0 (v % 0x100000000) (a % 0x100000000)
  let d := if a / 0x100000000 = v / 0x100000000 then d
    else logClamp d writer u (hi.ofs - u.base) (hiWidth - 1) 0 (v / 0x100000000) (a / 0x100000000)
  wrn (wrn d lo a) hi (a / 0x100000000)

/-! ### Rights (R33, R318, R464) -/

/-- The key page whose page block or slot block a CIP window offset lies in (R197). -/
def keyPageOf (rel : Nat) : Option Nat :=
  if 0x1000 ≤ rel ∧ rel < 0x1800 then some ((rel - 0x1000) / 0x20)
  else if 0x4000 ≤ rel ∧ rel < 0x8000 then some ((rel - 0x4000) / 0x100)
  else none

/-- The cause a write of function f (1–31) freezes it with, if it has no right to the target (R318); the assignments in its own blocks
are not its to write (R319). -/
def functionCause (d : Dev) (f : Nat) (u : UnitRow) (rel : Nat) : Option Nat :=
  if u.kind = 0x70 then
    if 0x1004 + 0x20 * f ≤ rel ∧ rel < 0x1020 + 0x20 * f then none
    else if 0x4000 ≤ rel ∧ rel < 0x14000 then
      if fld d (HIF_Rr_OWN_OWNER ((rel - 0x4000) / 0x40)) = f ∧ 0xC ≤ rel % 0x40 then none else some causeRing
    else some causeWindow
  else if u.kind = 0x21 ∧ 0x1000 + 0x40 * f ≤ rel ∧ rel < 0x1040 + 0x40 * f then none
  else
    let byWindow := match u.commitBit with
      | some b => if bitOf (fld d (HIF_FNf_RIGHTS_UNITS f)) b then none else some causeWindow
      | none => some causeWindow
    if u.kind = 0x43 then
      match keyPageOf rel with
      | some p => if 8 ≤ p ∧ fld d (HIF_KPp_OWN_OWNER (p - 8)) = f then none else some causeKeyPage
      | none => byWindow
    else byWindow

/-- The cause that a write of master m to a BAR0 offset freezes it with, if it violates m's rights. A main DMA channel
writes with the rights of the function that owns it, and a violation has the cause of an access outside its assignment
(R339). -/
def writeCause (d : Dev) (m : Master) (ofs : Nat) : Option Nat :=
  let u := unitAt ((unitOf ofs).getD 0)
  let rel := ofs - u.base
  let page := if u.kind = 0x43 then keyPageOf rel else none
  let function (f : Nat) : Option Nat :=
    if f = 0 then (match page with
      | some p => if p < 8 then some causeKeyPage else none
      | none => none)
    else functionCause d f u rel
  if m < 0x20 then function m
  else if m < 0x60 then (function (fld d (HIF_DMACc_OWN_OWNER (m - 0x20)))).map (fun _ => causeDma)
  else if m < 0x64 then (match page with
    | some _ => some causeKeyPage
    | none => none)
  else if m < 0x68 then (match page with
    | some p => if 8 ≤ p then some causeKeyPage else none
    | none => none)
  else if m = i2cMaster then function 0
  else (match page with
    | some _ => some causeCourse
    | none => none)

/-- The host's functions reach the block only after release and while the host interface has power (R336, R428). (log 9: DEDUCED, unsafe) -/
def hostReaches (d : Dev) : Bool := flag d RST_STATUS_RELEASED && domainOn d 47

/-- A write of master m to a BAR0 offset (R20, R34, R318, R428): discarded before release, turned into a freeze where m
has no right, discarded while m is frozen, else f is done. OFFSET of a violation is the BAR0 offset, in a key page too.
(log 192: DESIGN CHOICE, unsafe) -/
def guarded (d : Dev) (m : Master) (ofs : Nat) (f : Dev → Dev) : Dev :=
  if m < 0x20 && !hostReaches d then d
  else match writeCause d m ofs with
    | some c => freeze d m c ofs
    | none => if m != i2cMaster && isFrozen d m then d else f d

/-- A write of master m to a BAR0 offset is carried out. -/
def admits (d : Dev) (m : Master) (ofs : Nat) : Bool :=
  !(decide (m < 0x20) && !hostReaches d) && (writeCause d m ofs).isNone && !(m != i2cMaster && isFrozen d m)

/-- Store a 32-bit write at a BAR0 offset into the register there, as `storeWord` does; an offset with no register is
counted (R20). -/
def storeAt (d : Dev) (writer : Nat) (ofs : Nat) (value : Word) : Dev :=
  match unitOf ofs with
  | none => count d ROOT_BAD_ACCESS
  | some i =>
    let u := unitAt i
    match rowAt u (ofs - u.base) with
    | none => count d ROOT_BAD_ACCESS
    | some row => storeWord d writer u (ofs - u.base) row value

end Sys2Proof.Machine
end

