-- ==== Sys2Proof/Config.lean ====
section
/-!
DEFINITION. Config.lean: the free values. What the spec leaves open is a constant without a body: nothing can be proved about its
value.
-/

namespace Sys2Proof

/-- A value that the spec leaves open, one for each use: the n-th free value taken. (log 3: DESIGN CHOICE, safe) -/
opaque Config.freeValue : Nat → Nat

end Sys2Proof
end

