-- ==== Sys2Proof/Machine/Slices.lean ====
section
/-!
DEFINITION. Machine/Slices.lean: the verdicts of self-test targets and the end of a slice (R25, R26, R378 to R383, spec/21). The
schedule is in Machine/SelfTest.lean.
-/

namespace Sys2Proof.Machine

def raiseBst (d : Dev) (b : Nat) : Dev := raiseEvt d evBST b
def bsFail : Nat := 0
def bsOverdue : Nat := 1
def bsBudget : Nat := 2
def bsMbistFail : Nat := 3
def bsTransient : Nat := 4

def vdNone : Nat := 0
def vdRunning : Nat := 1
def vdPass : Nat := 2
def vdFail : Nat := 3
def vdAborted : Nat := 4

def cutService : Nat := 1
def cutHost : Nat := 2
def cutPower : Nat := 3
def cutBudget : Nat := 4

/-- The units whose logic a target holds (R378), as positions in the unit tree. -/
def targetUnits (t : Nat) : List Nat :=
  if t < 18 then [21] else if t < 27 then [55] else if t = 27 then [20]
  else if t < 44 then [22 + (t - 28), 38 + (t - 28)]
  else if t = 44 then [13] else if t = 45 then [16] else if t = 46 then [12] else [15]

/-- The targets of a unit. -/
def targetsOf (u : Nat) : List Nat := (List.range 48).filter (fun t => (targetUnits t).contains u)

/-- How bad a verdict is (R26). -/
def rankOfVerdict (v : Nat) : Nat := if v = 3 then 4 else if v = 4 then 3 else if v = 1 then 2 else if v = 2 then 1 else 0

/-- The worst of some verdicts, in the order FAIL, ABORTED, RUNNING, PASS, NONE (R26). -/
def worstVerdict (vs : List Nat) : Nat := vs.foldl (fun a v => if rankOfVerdict a < rankOfVerdict v then v else a) 0

def engineReg (e : Nat) : Reg := if e < 16 then CIP_ENGe_STATUS e else CIP_ENGt_STATUS (e - 16)

/-- A target takes a verdict, a cipher engine shows it (R197), and its units show the worst of theirs (R379). -/
def setVerdict (d : Dev) (t v : Nat) : Dev :=
  let d := setFld d (BST_TGTt_STATUS_VERDICT t) v
  let d := if t < 18 then setFld d ⟨engineReg t, 29, 27⟩ v else d
  forEach (targetUnits t) (fun d u =>
    setFld d (HDR_BST_VERDICT (unitAt u).base) (worstVerdict ((targetsOf u).map (fun q => fld d (BST_TGTt_STATUS_VERDICT q))))) d

/-- The target is retired (R386). -/
def targetRetired (d : Dev) (t : Nat) : Bool := fld d (BST_TGTt_STATUS_STATE t) == 3

/-- The target of the slice that is saving or running its patterns. -/
def slicing (d : Dev) : Option Nat :=
  if flag d BST_STATUS_RUNNING && (fld d BST_STATUS_PHASE == 1 || fld d BST_STATUS_PHASE == 2) then some (fld d BST_STATUS_TARGET)
  else none

/-- The target of the slice in progress, its restore included. -/
def sliceTarget (d : Dev) : Option Nat := if flag d BST_STATUS_RUNNING then some (fld d BST_STATUS_TARGET) else none

/-- The last slice's record (R388). (log 143: DEDUCED, safe) -/
def recordSlice (d : Dev) (verdict cause : Nat) : Dev :=
  let t := fld d BST_STATUS_TARGET
  let d := setFld (setFld d BST_LAST_VERDICT verdict) BST_LAST_CAUSE cause
  let d := setFlag d BST_LAST_CONFIRM (flag d (BST_TGTt_STATUS_SUSPECT t))
  setFld (setFld d BST_LAST_TARGET t) BST_LAST_SEGMENT (fld d BST_STATUS_SEGMENT)

/-- The slice is cut short (R382, R383): its signature register, whose value is not stated, is copied and not compared, and the
target's restore begins. -/
def abortSlice (d : Dev) (cause : Nat) : Dev :=
  match slicing d with
  | none => d
  | some t =>
    let k := d.freeCount
    let d := wrn (wrn { d with freeCount := k + 2 } BST_LAST_SIG_LO (Config.freeValue k)) BST_LAST_SIG_HI (Config.freeValue (k + 1))
    let d := setVerdict (recordSlice (count d BST_ABORTED) vdAborted cause) t vdAborted
    let d := { d with bst := { d.bst with cut := d.bst.cut + 1 } }
    let d := if cause = cutService then count d BST_SERVICE_ABORT else d
    let d := if cause = cutBudget then raiseBst (count d BST_BUDGET) bsBudget else d
    setFld d BST_STATUS_PHASE 3

/-- Service is wanted of a target (R378, R383): a slice of it ends, and the request is served. -/
def sliceService (d : Dev) (t : Nat) : Dev := if slicing d = some t then abortSlice d cutService else d

end Sys2Proof.Machine
end

