-- ==== Sys2Proof/Machine/LineLanes.lean ====
section
/-!
DEFINITION. Machine/LineLanes.lean: the line lanes and the line modules (spec/05): the laser interlock, the burst enables,
module bring-up and identity checks, and the indications of the receive lanes.
-/

namespace Sys2Proof.Machine

def setHw (d : Dev) (x : Line) (f : LineHw → LineHw) : Dev := { d with lineHw := d.lineHw.set x (f (d.lineHw.get x)) }

/-! ### The laser interlock (R95, R96) -/

/-- Power domains of a line: receive group D0–D3, receive group D4–D7, transmit lanes (R81, R358). -/
def rxLowDomain (x : Line) : Nat := 18 + 4 * x.ix
def rxHighDomain (x : Line) : Nat := 19 + 4 * x.ix
def txDomain (x : Line) : Nat := 20 + 4 * x.ix

/-- The domain of receive lane r (R81). -/
def rxDomain (x : Line) (r : Nat) : Nat := if r < 4 then rxLowDomain x else rxHighDomain x

def modUndeclared : Nat := 0
def modAbsentSt : Nat := 1
def modResetting : Nat := 2
def modInitWait : Nat := 3
def modChecking : Nat := 4
def modReady : Nat := 5
def modMismatch : Nat := 6
def modBusFail : Nat := 7
def modUnpowered : Nat := 8

def modState (d : Dev) (x : Line) : Nat := fld d (LLx_STATUS_MOD_STATE x.ix)

/-- The terminal state of a line (R132). -/
def termState (d : Dev) (x : Line) : Nat := fld d (RNG_Lx_STATUS_STATE x.ix)

def stListen : Nat := 0
def stAnnounce : Nat := 1
def stRanging : Nat := 2
def stOperate : Nat := 3
def stStandby : Nat := 4
def stHold : Nat := 5
def stStopped : Nat := 6

/-- The device is in Full or Trim (R360). -/
def fullOrTrim (d : Dev) : Bool := decide (fld d PWR_STATUS_STATE < 2)

/-- The conditions of R95 that fail for every lane of the line, at the cause bits they set; TX_DISABLED is set while any
lane's TX_EN is 0. -/
def laserCauses (d : Dev) (x : Line) : Nat :=
  boolBit (modState d x != modReady) + 2 * boolBit (!domainOn d (txDomain x)) + 4 * boolBit (termState d x == stStopped || flag d (RNG_Lx_STATUS_STOP_LATCH x.ix))
    + 8 * fld d (LLx_CTL_LASER_OFF x.ix) + 16 * boolBit (fld d (LLx_CTL_TX_EN x.ix) != 15)
    + 32 * boolBit (!fullOrTrim d) + 64 * boolBit (fld d (LLx_CTL_TEST_MODE x.ix) == 1)

/-- LASER_OK of transmit lane t (R95). -/
def laserOkNow (d : Dev) (x : Line) (t : Nat) : Bool :=
  laserCauses d x &&& 0x6F == 0 && bitOf (fld d (LLx_CTL_TX_EN x.ix)) t

/-- A cause of R95 that takes effect at once holds. -/
def laserAtOnce (d : Dev) (x : Line) : Bool :=
  modState d x == modAbsentSt || !domainOn d (txDomain x) || termState d x == stStopped
    || fld d (LLx_CTL_TEST_MODE x.ix) == 1

/-- The level of BEN t. -/
def benHigh (d : Dev) (x : Line) (t : Nat) : Bool := regBit d (LLx_STATUS x.ix) (16 + t)

def setBen (d : Dev) (x : Line) (t : Nat) (b : Bool) : Dev := setRegBit d (LLx_STATUS x.ix) (16 + t) b

/-- Where a transmit lane stands (R86): outside a burst, from step 1 to the terminator, in the tail, in a gap through which
BEN is held. -/
def benIdle : Nat := 0
def benBurst : Nat := 1
def benTail : Nat := 2
def benGap : Nat := 3

def benPhase (d : Dev) (x : Line) (t : Nat) : Nat := sget 0 (d.lineHw.get x).benPhase t

def setBenPhase (d : Dev) (x : Line) (t p : Nat) : Dev := setHw d x (fun h => { h with benPhase := sput 0 h.benPhase t p })

/-- BEN rises for a burst or a test mode; each assertion is counted (R103). -/
def raiseBen (d : Dev) (x : Line) (t : Nat) : Dev :=
  if benHigh d x t then d else count (setBen d x t true) (LLx_TXt_BURSTS x.ix t)

/-- Far-end loopback and bench transmit hold BEN high (R97). -/
def testTransmit (d : Dev) (x : Line) : Bool :=
  fld d (LLx_CTL_TEST_MODE x.ix) == 2 || fld d (LLx_CTL_TEST_MODE x.ix) == 3

/-- Lane t after the interlock changed (R87, R95): a lost LASER_OK drops BEN at once, or leaves it to the end of the burst in
progress; a held gap and a test mode drop at once. -/
def syncLane (d : Dev) (x : Line) (t : Nat) : Dev :=
  let ok := laserOkNow d x t
  let d := setRegBit d (LLx_STATUS x.ix) (20 + t) ok
  if testTransmit d x then (if ok then raiseBen d x t else setBen d x t false)
  else if ok then d
  else if laserAtOnce d x then setBen d x t false
  else if benPhase d x t = benGap then setBenPhase (setBen d x t false) x t benIdle
  else if benPhase d x t = benIdle then setBen d x t false
  else d

/-- CAUSE, LASER_OK and BEN of a line after anything the interlock depends on has changed (R95). -/
def syncLaser (d : Dev) (x : Line) : Dev :=
  forEach (List.range 4) (fun d t => syncLane d x t) (setFld d (LLx_STATUS_CAUSE x.ix) (laserCauses d x))

/-- Every BEN of the line goes low at once (R81, R95, R138). -/
def dropAllBen (d : Dev) (x : Line) : Dev := forEach (List.range 4) (fun d t => setBen d x t false) d

/-! ### Line lane events (R94) -/

def llAbsent : Nat := 0
def llReady : Nat := 1
def llMismatch : Nat := 2
def llBusFail : Nat := 3
def llSuppressed : Nat := 4
def llPrbsLoss : Nat := 5

def raiseLL (d : Dev) (x : Line) (b : Nat) : Dev := raiseEvt d (evLL x.ix) b

/-! ### Modules (R88 to R93) -/

def declared (d : Dev) (x : Line) : Bool := flag d (LLx_MOD_ID_CFG_DECLARED x.ix)

/-- The module takes a state: entering ABSENT, READY, MISMATCH or BUS_FAIL raises its event, entering MISMATCH is counted,
and the interlock follows (R90, R94, R95). -/
def setModState (d : Dev) (x : Line) (st : Nat) : Dev :=
  let was := modState d x
  let d := setFld d (LLx_STATUS_MOD_STATE x.ix) st
  let d := if was = st then d
    else if st = modAbsentSt then raiseLL d x llAbsent
    else if st = modReady then raiseLL d x llReady
    else if st = modMismatch then raiseLL (count d (LLx_MOD_MISMATCH x.ix)) x llMismatch
    else if st = modBusFail then raiseLL d x llBusFail
    else d
  syncLaser d x

/-- A check ends or is given up. -/
def stopCheck (d : Dev) (x : Line) : Dev :=
  dropTimer (setHw d x (fun h => { h with checking := false, tryPage := 0, tryRead := 0 })) (.modRecheck x)

/-- A check of the module's identity starts (R89). -/
def startCheck (d : Dev) (x : Line) : Dev := setHw (stopCheck d x) x (fun h => { h with checking := true })

/-- The device enters CHECKING (R91). -/
def enterChecking (d : Dev) (x : Line) : Dev := startCheck (setModState d x modChecking) x

/-- The next identity read is due RECHECK_S seconds on (R89, R92). -/
def armRecheck (d : Dev) (x : Line) : Dev :=
  startTimer d (.modRecheck x) (fld d (LLx_MOD_ID_CFG_RECHECK_S x.ix) * ticksPerSec)

/-- Bring-up starts at step 1 of R91 with the module reset driven. -/
def startBringUp (d : Dev) (x : Line) : Dev :=
  let d := stopCheck d x
  let d := dropTimer (setHw d x (fun h => { h with modReset := true })) (.modInit x)
  let d := startTimer d (.modReset x) (fld d (LLx_MOD_CFG_RST_MS x.ix) * ticksPerMs)
  setModState d x modResetting

/-- MOD_PRESENT (R81, R91, R103): MOD_PRES_N falls, or has been low for 10 ms. With the transmit-lane domain off the module is not
brought up. (log 26: DEDUCED, unsafe) -/
def modPresent (x : Line) (held : Bool) (d : Dev) : Dev :=
  let d := setFlag (setHw d x (fun h => { h with pinLow := true, heldLow := h.heldLow || held })) (LLx_STATUS_PRES x.ix) true
  if modState d x != modAbsentSt then d
  else if !domainOn d (txDomain x) then setModState d x modUnpowered
  else if held then startBringUp d x
  else d

/-- A host transfer ends at once with ERR (R93). -/
def endXferErr (d : Dev) (x : Line) : Dev :=
  setHw (setFlag (setFlag d (LLx_MOD_XFER_DONE x.ix) true) (LLx_MOD_XFER_ERR x.ix) true) x (fun h => { h with xfer := none })

/-- MOD_ABSENT (R91): ABSENT at once, whatever the state. -/
def modAbsent (x : Line) (d : Dev) : Dev :=
  let d := setHw d x (fun h => { h with pinLow := false, heldLow := false })
  let d := stopCheck (setFlag d (LLx_STATUS_PRES x.ix) false) x
  let d := dropTimer (dropTimer d (.modReset x)) (.modInit x)
  let d := if (d.lineHw.get x).xfer.isSome then endXferErr d x else d
  setModState d x modAbsentSt

/-- MOD_RESET_RELEASE (R91): step 2. -/
def modResetRelease (x : Line) (d : Dev) : Dev :=
  if modState d x == modResetting && timerOver d (.modReset x) then
    let d := dropTimer (setHw d x (fun h => { h with modReset := false })) (.modReset x)
    let d := startTimer d (.modInit x) (fld d (LLx_MOD_CFG_INIT_MS x.ix) * ticksPerMs)
    setModState d x modInitWait
  else d

/-- MOD_INIT_DONE (R91): step 3, the identity read or UNDECLARED. -/
def modInitDone (x : Line) (d : Dev) : Dev :=
  if modState d x == modInitWait && timerOver d (.modInit x) then
    let d := dropTimer d (.modInit x)
    if declared d x then enterChecking d x else setModState d x modUndeclared
  else d

/-- The identity range is read through the page register where ID_OFS is 0x80 or above (R88). -/
def needsPage (d : Dev) (x : Line) : Bool := decide (0x80 ≤ fld d (LLx_MOD_ID_CFG_ID_OFS x.ix))

/-- Identity byte i of a row of eight words (R103). -/
def idByte (d : Dev) (r : Nat → Reg) (i : Nat) : Nat := rdn d (r (i / 4)) / 2 ^ (8 * (i % 4)) % 256

/-- The module matches: read AND mask = expected AND mask in every byte (R88). -/
def idMatches (d : Dev) (x : Line) (bytes : List Byte) : Bool :=
  (List.range (fld d (LLx_MOD_ID_CFG_ID_LEN x.ix))).all (fun i =>
    let mask := idByte d (LLx_MOD_ID_MASK x.ix) i
    byteAt bytes i &&& mask == idByte d (LLx_MOD_ID_EXP x.ix) i &&& mask)

/-- The bytes read are kept in LLx_MOD_ID_READ (R103). -/
def keepId (d : Dev) (x : Line) (bytes : List Byte) : Dev :=
  forEach (List.range (fld d (LLx_MOD_ID_CFG_ID_LEN x.ix))) (fun d i =>
    setFld d ⟨LLx_MOD_ID_READ x.ix (i / 4), 8 * (i % 4) + 7, 8 * (i % 4)⟩ (byteAt bytes i)) d

/-- MOD_CHECK_DONE (R88, R92). (log 24: DESIGN CHOICE, safe) -/
def modCheckDone (x : Line) (bytes : List Byte) (d : Dev) : Dev :=
  if (d.lineHw.get x).checking then
    let ok := idMatches d x bytes
    let d := stopCheck (keepId d x bytes) x
    armRecheck (setModState d x (if ok then modReady else modMismatch)) x
  else d

/-- MOD_BUS_TIMEOUT (R89): each of the two transactions is retried on its own up to 3 times. -/
def modBusTimeout (x : Line) (page : Bool) (d : Dev) : Dev :=
  let h := d.lineHw.get x
  if h.checking && (!page || (needsPage d x && h.tryRead == 0)) then
    let n := (if page then h.tryPage else h.tryRead) + 1
    if n ≤ 3 then setHw d x (fun h => if page then { h with tryPage := n } else { h with tryRead := n })
    else armRecheck (setModState (count (stopCheck d x) (LLx_MOD_BUS_ERR x.ix)) x modBusFail) x
  else d

/-- MOD_RECHECK (R89, R92): the state stays as it is while the identity is read again. -/
def modRecheck (x : Line) (d : Dev) : Dev :=
  let st := modState d x
  if timerOver d (.modRecheck x) && (st == modReady || st == modMismatch || st == modBusFail) then startCheck d x else d

/-- What a write of LLx_MOD_ID_CFG does beyond its fields (R91): was is DECLARED before the write. -/
def modIdWritten (d : Dev) (x : Line) (was check : Bool) : Dev :=
  let st := modState d x
  if st = modAbsentSt ∨ st = modResetting ∨ st = modInitWait ∨ st = modUnpowered then d
  else if declared d x then (if check || !was then enterChecking d x else d)
  else if was then setModState (stopCheck d x) x modUndeclared
  else d

/-- A write of LLx_MOD_ID_CFG. -/
def modIdCfg (m : Master) (x : Line) (value : Word) (d : Dev) : Dev :=
  guarded d m (LLx_MOD_ID_CFG x.ix).ofs (fun d =>
    modIdWritten (storeAt d m (LLx_MOD_ID_CFG x.ix).ofs value) x (declared d x) (value.getLsbD 30))

/-- MOD_CHECK (R91). -/
def modCheck (m : Master) (x : Line) (value : Word) (d : Dev) : Dev := modIdCfg m x (value ||| 0x40000000) d

/-- MOD_DECLARE (R91). -/
def modDeclare (m : Master) (x : Line) (value : Word) (d : Dev) : Dev := modIdCfg m x (value &&& 0xBFFFFFFF) d

/-- The host transfer that LLx_MOD_XFER asks for (R93). -/
def xferAsked (d : Dev) (x : Line) : ModXfer :=
  { write := flag d (LLx_MOD_XFER_DIR x.ix), page := fld d (LLx_MOD_XFER_PAGE x.ix),
    ofs := fld d (LLx_MOD_XFER_OFS x.ix), data := fld d (LLx_MOD_XFER_DATA x.ix) }

/-- MOD_XFER (R93): a GO while a transfer is pending is ignored; in ABSENT or UNPOWERED the transfer ends with ERR. -/
def modXfer (m : Master) (x : Line) (value : Word) (d : Dev) : Dev :=
  guarded d m (LLx_MOD_XFER x.ix).ofs (fun d =>
    let d := storeAt d m (LLx_MOD_XFER x.ix).ofs value
    if value.getLsbD 31 && (d.lineHw.get x).xfer.isNone then
      let d := setFlag (setFlag d (LLx_MOD_XFER_DONE x.ix) false) (LLx_MOD_XFER_ERR x.ix) false
      if modState d x = modAbsentSt ∨ modState d x = modUnpowered then endXferErr d x
      else setHw d x (fun h => { h with xfer := some (xferAsked d x) })
    else d)

/-- A module byte lies in the declared identity range, or is the page byte (R93). -/
def inIdentity (d : Dev) (x : Line) (q : ModXfer) : Bool :=
  let lo := fld d (LLx_MOD_ID_CFG_ID_OFS x.ix)
  q.ofs == 0x7F || (decide (lo ≤ q.ofs) && decide (q.ofs < lo + fld d (LLx_MOD_ID_CFG_ID_LEN x.ix))
    && (decide (q.ofs < 0x80) || q.page == fld d (LLx_MOD_ID_CFG_ID_PAGE x.ix)))

/-- MOD_XFER_DONE (R93): identity transactions come first, so a transfer does not end while a check runs. (log 25: DEDUCED, unsafe) -/
def modXferDone (x : Line) (err : Bool) (data : Byte) (d : Dev) : Dev :=
  let h := d.lineHw.get x
  match h.xfer with
  | none => d
  | some q =>
    if h.checking then d
    else if err then endXferErr d x
    else
      let d := setHw (setFlag d (LLx_MOD_XFER_DONE x.ix) true) x (fun h => { h with xfer := none })
      if q.write then
        let st := modState d x
        if inIdentity d x q && declared d x && st != modResetting && st != modInitWait then enterChecking d x else d
      else setFld d (LLx_MOD_XFER_DATA x.ix) data.toNat

/-- The transmit-lane domain has lost power (R81): a module reset in progress is let go, since the module is not reset when power
comes back (R91). An absent module stays ABSENT. (log 206: DEDUCED, unsafe) -/
def txUnpowered (d : Dev) (x : Line) : Dev :=
  let d := setHw d x (fun h => { h with modReset := h.modReset && modState d x != modResetting })
  let d := dropTimer (dropTimer (stopCheck d x) (.modReset x)) (.modInit x)
  let d := if (d.lineHw.get x).xfer.isSome then endXferErr d x else d
  let d := setHw d x (fun h => { h with benPhase := [] })
  dropAllBen (setModState d x (if (d.lineHw.get x).pinLow then modUnpowered else modAbsentSt)) x

/-- The transmit-lane domain has power again (R91): a present module is checked at once, or brought up where its reset has been
driven since a COLD or SYSTEM reset. -/
def txPowered (d : Dev) (x : Line) : Dev :=
  if modState d x = modUnpowered then
    if !(d.lineHw.get x).heldLow then setModState d x modAbsentSt
    else if (d.lineHw.get x).modReset then startBringUp d x
    else if declared d x then enterChecking d x
    else setModState d x modUndeclared
  else syncLaser d x

/-- The module pins as a COLD or SYSTEM reset finds them: a present module is without its transmit-lane domain (R81, R103). -/
def keepPins (old d : Dev) (x : Line) : Dev :=
  let h := old.lineHw.get x
  let d := setHw d x (fun r => { r with pinLow := h.pinLow, heldLow := h.heldLow })
  if h.pinLow then setFld (setFlag d (LLx_STATUS_PRES x.ix) true) (LLx_STATUS_MOD_STATE x.ix) modUnpowered else d

/-! ### Receive lanes (R84, R85, R119) -/

/-- Both indications of a receive lane are 1. -/
def laneUp (d : Dev) (x : Line) (r : Nat) : Bool :=
  flag d (LLx_RXr_STATUS_SIGNAL x.ix r) && flag d (LLx_RXr_STATUS_CDR_LOCK x.ix r)

/-- Note the tick in which a lane's pair of indications changes (R119). -/
def noteLane (was : Bool) (x : Line) (r : Nat) (d : Dev) : Dev :=
  if laneUp d x r = was then d else setHw d x (fun h => { h with laneSince := sput 0 h.laneSince r d.elapsed })

def setLaneBit (d : Dev) (x : Line) (r : Nat) (f : Fld) (b : Bool) : Dev := noteLane (laneUp d x r) x r (setFlag d f b)

/-- The lane receives its line's own transmit lane in place of its pins (R98). -/
def looped (d : Dev) (x : Line) (r : Nat) : Bool := decide (r < 4) && fld d (LLx_CTL_TEST_MODE x.ix) == 1

/-- SIGNAL_CHANGE (R85): an unpowered lane reports 0 (R81), and a looped lane does not see its pins (R98). -/
def signalChange (x : Line) (r : Fin 8) (high : Bool) (d : Dev) : Dev :=
  if looped d x r then d else setLaneBit d x r (LLx_RXr_STATUS_SIGNAL x.ix r) (high && domainOn d (rxDomain x r))

/-- CDR_LOCK_CHANGE (R84). -/
def cdrLockChange (x : Line) (r : Fin 8) (lock : Bool) (d : Dev) : Dev :=
  if looped d x r then d else setLaneBit d x r (LLx_RXr_STATUS_CDR_LOCK x.ix r) (lock && domainOn d (rxDomain x r))

/-- A receive lane has lost power (R81). -/
def laneUnpowered (d : Dev) (x : Line) (r : Nat) : Dev :=
  setLaneBit (setLaneBit d x r (LLx_RXr_STATUS_SIGNAL x.ix r) false) x r (LLx_RXr_STATUS_CDR_LOCK x.ix r) false

/-! ### Test modes (R97, R98, R100) -/

/-- What follows a write of LLx_CTL: burst-mode clock recovery of lanes 0–3 in near-end loopback (R84), generator enables
that no longer hold (R100), BEN of a test mode that ended (R97), and the interlock (R95). The line's own transition is
made by its terminal state (R134). -/
def llCtlWritten (d : Dev) (m : Master) (x : Line) (wasTest : Bool) : Dev :=
  let u := unitAt (if x = .a then 11 else 14)
  let near := fld d (LLx_CTL_TEST_MODE x.ix) == 1
  let d := forEach (List.range 4) (fun d r => setFlag d (LLx_RXr_STATUS_BURST_CDR x.ix r) near) d
  let d := forEach (List.range 4) (fun d t =>
    recheckField d m u ((LLx_TXt_GEN x.ix t).ofs - u.base) 0x1804 (LLx_TXt_GEN_EN x.ix t)) d
  let d := if wasTest && !testTransmit d x then dropAllBen d x else d
  syncLaser d x

end Sys2Proof.Machine
end

