-- ==== Sys2Proof/Machine/Coding.lean ====
section
/-!
DEFINITION. Machine/Coding.lean: the codes of the line: symbols (R82, R83), the cyclic redundancy checks (R106, R117, R154, R171), the Ethernet
frame check, CRC-32C (R260), the scrambler (R108, R153) and the RS(544,514) code (R107).
-/

namespace Sys2Proof.Machine

/-! ### Bits -/

/-- The low n bits of a number, most significant first. -/
def msbBits : Nat → Nat → List Bool
  | 0, _ => []
  | n + 1, v => bitOf v n :: msbBits n v

/-- Bytes as bits, most significant bit of each byte first (R5). -/
def bytesBits (bs : List Byte) : List Bool := (bs.map (fun b => msbBits 8 b.toNat)).flatten

/-- Bits, most significant first, as a number. -/
def bitsNat (l : List Bool) : Nat := l.foldl (fun a b => 2 * a + boolBit b) 0

/-- Bits cut into numbers of w bits; a last short group is filled with zeros. The fuel is the number of groups. -/
def groupBits (w : Nat) : Nat → List Bool → List Nat
  | 0, _ => []
  | n + 1, l => bitsNat ((l.take w) ++ List.replicate (w - l.length) false) :: groupBits w n (l.drop w)

/-! ### Symbols (R82, R83) -/

/-- The level of a pair of bits; with GRAY the upper two change places. The same map takes a level back to its pair. -/
def grayLevel (gray : Bool) (pair : Nat) : Nat := if gray && decide (2 ≤ pair) then 5 - pair else pair

/-- Bits as pairs, the first bit of each the more significant. -/
def bitPairs : List Bool → List Nat
  | a :: b :: t => (2 * boolBit a + boolBit b) :: bitPairs t
  | _ => []

/-- Precoding after a symbol y: y(n) = (x(n) − y(n−1)) mod 4. -/
def precode : Nat → List Nat → List Nat
  | _, [] => []
  | y, x :: t => ((x + 4 - y % 4) % 4) :: precode ((x + 4 - y % 4) % 4) t

/-- What a receive lane recovers after a symbol y: x(n) = (y(n) + y(n−1)) mod 4. -/
def unprecode : Nat → List Nat → List Nat
  | _, [] => []
  | y, z :: t => ((z + y) % 4) :: unprecode z t

/-- The levels that a lane sends for bits, y(−1) being 0. -/
def sendLevels (gray pre : Bool) (bits : List Bool) : List Nat :=
  let xs := (bitPairs bits).map (grayLevel gray)
  if pre then precode 0 xs else xs

/-- The bits that a lane makes of levels it receives after level y. -/
def receiveBits (gray pre : Bool) (y : Nat) (levels : List Nat) : List Bool :=
  ((if pre then unprecode y levels else levels).map (fun z => msbBits 2 (grayLevel gray z))).flatten

/-- The levels of a lane of inverted polarity (R103). -/
def turnLevels (inv : Bool) (l : List Nat) : List Nat := if inv then l.map (3 - ·) else l

/-- Idle: levels 1 and 2 in turn, for a number of 64-bit blocks (R86). -/
def idleLevels (blocks : Nat) : List Nat := (List.replicate (16 * blocks) [1, 2]).flatten

/-! ### Cyclic redundancy checks, most significant bit first -/

/-- One bit into a remainder of w bits. -/
def crcStep (w poly : Nat) (acc : Nat) (b : Bool) : Nat :=
  let top := acc / 2 ^ (w - 1) % 2
  let s := acc * 2 % 2 ^ w
  if top != boolBit b then s ^^^ poly else s

def crcOver (w poly init : Nat) (bits : List Bool) : Nat := bits.foldl (crcStep w poly) init

/-- The FSB's CRC-32 (R106). -/
def crc32Fsb (bs : List Byte) : Nat := crcOver 32 0x04C11DB7 0xFFFFFFFF (bytesBits bs) ^^^ 0xFFFFFFFF

/-- The grant entry's CRC-8 over its bits 63:8 (R117). -/
def crc8Grant (entry : Nat) : Nat := crcOver 8 0x07 0xFF (msbBits 56 (entry / 256))

/-- The line-unit header's CRC-24 over its bits 63:24 (R171). -/
def crc24Header (top : Nat) : Nat := crcOver 24 0x864CFB 0xFFFFFF (msbBits 40 top)

/-- The burst header's CRC-16 over its bits 127:16 (R154). -/
def crc16Burst (top : Nat) : Nat := crcOver 16 0x1021 0xFFFF (msbBits 112 top)

/-! ### Reflected checks -/

/-- One byte into a reflected remainder of 32 bits. -/
def crcReflStep (poly : Nat) (acc : Nat) (b : Byte) : Nat :=
  (List.range 8).foldl (fun a _ => if a % 2 = 1 then a / 2 ^^^ poly else a / 2) (acc ^^^ b.toNat)

/-- The Ethernet frame check sequence, as the number whose least significant byte is sent first. (log 40: PRESUMED, unsafe) -/
def fcs32 (bs : List Byte) : Nat := bs.foldl (crcReflStep 0xEDB88320) 0xFFFFFFFF ^^^ 0xFFFFFFFF

/-- CRC-32C (R260). -/
def crc32c (bs : List Byte) : Nat := bs.foldl (crcReflStep 0x82F63B78) 0xFFFFFFFF ^^^ 0xFFFFFFFF

/-- A frame from destination address through FCS has a good FCS. -/
def fcsGood (frame : List Byte) : Bool :=
  leNat (frame.drop (frame.length - 4)) == fcs32 (frame.take (frame.length - 4))

/-- A frame with its FCS put behind it. -/
def withFcs (body : List Byte) : List Byte := body ++ leBytes 4 (fcs32 body)

/-! ### The scrambler x^58 + x^39 + 1 (R108) -/

/-- The next bit of the sequence and the state after it: bit 57 of the state is its oldest bit. -/
def scrambleStep (st : Nat) : Bool × Nat :=
  let b := bitOf st 57 != bitOf st 38
  (b, (2 * st + boolBit b) % 2 ^ 58)

/-- Every bit exclusive-ORed with the sequence. -/
def scramble : Nat → List Bool → List Bool
  | _, [] => []
  | st, b :: t => (b != (scrambleStep st).1) :: scramble (scrambleStep st).2 t

/-- The state of the downstream scrambler at the first bit after the FSB (R108). -/
def seedDown (frame channel : Nat) : Nat := frame % 2 ^ 48 * 1024 + channel % 8 * 128 + 0x55

/-- The state of the upstream scrambler at the first payload bit of a burst (R153). -/
def seedUp (frame channel : Nat) : Nat := frame % 2 ^ 48 * 1024 + channel % 4 * 256 + 0x5A

/-! ### RS(544,514) over GF(2^10) (R107) -/

/-- Multiplication in GF(2^10) with the field polynomial x^10 + x^3 + 1. -/
def gfMul (a b : Nat) : Nat :=
  ((List.range 10).foldl (fun (acc : Nat × Nat) i =>
    (if bitOf b i then acc.1 ^^^ acc.2 else acc.1,
     if acc.2 / 512 % 2 = 1 then (acc.2 * 2 % 1024) ^^^ 0x009 else acc.2 * 2)) (0, a % 1024)).1

/-- A polynomial, highest coefficient first, times (x + r). -/
def polyTimesRoot (p : List Nat) (r : Nat) : List Nat :=
  List.zipWith (· ^^^ ·) (p ++ [0]) (0 :: p.map (gfMul r))

/-- The generator polynomial, the product of (x + α^j) for j = 0 to 29, highest coefficient first. -/
def rsGenerator : List Nat :=
  ((List.range 30).foldl (fun (acc : List Nat × Nat) _ => (polyTimesRoot acc.1 acc.2, gfMul acc.2 2)) ([1], 1)).1

/-- The 30 parity symbols of a codeword's data symbols; a shortened codeword has fewer. -/
def rsParity (data : List Nat) : List Nat :=
  let g := rsGenerator.drop 1
  data.foldl (fun reg s =>
    let f := s ^^^ reg.headD 0
    List.zipWith (· ^^^ ·) (reg.drop 1 ++ [0]) (g.map (gfMul f))) (List.replicate 30 0)

/-- The data bits and the parity bits of one codeword, its data bits being a whole number of symbols. -/
def rsCodeword (bits : List Bool) : List Bool :=
  bits ++ ((rsParity (groupBits 10 (bits.length / 10) bits)).map (msbBits 10)).flatten

/-! ### Decoding RS(544,514) (R107, R109) -/

/-- a to the power n in GF(2^10). -/
def gfPow (a : Nat) : Nat → Nat
  | 0 => 1
  | n + 1 => gfMul (gfPow a n) a

/-- The inverse of a nonzero element: a to the power 2 + 4 + … + 512. -/
def gfInv (a : Nat) : Nat :=
  ((List.range 9).foldl (fun (acc : Nat × Nat) _ =>
    (gfMul acc.1 (gfMul acc.2 acc.2), gfMul acc.2 acc.2)) (1, a)).1

/-- A polynomial, lowest coefficient first, at a point. -/
def gfEval (p : List Nat) (v : Nat) : Nat := p.reverse.foldl (fun a c => gfMul a v ^^^ c) 0

/-- The sum of two polynomials, lowest coefficient first. -/
def gfAdd : List Nat → List Nat → List Nat
  | [], q => q
  | p, [] => p
  | a :: p, b :: q => (a ^^^ b) :: gfAdd p q

/-- The 30 syndromes of received symbols: their polynomial at α^0 to α^29. -/
def rsSyndromes (r : List Nat) : List Nat :=
  ((List.range 30).foldl (fun (acc : List Nat × Nat) _ =>
    (acc.1 ++ [r.foldl (fun a s => gfMul a acc.2 ^^^ s) 0], gfMul acc.2 2)) ([], 1)).1

/-- What the search for the error locator holds (Berlekamp and Massey): the locator and the one before its last change of length,
lowest coefficient first, its length, the steps since that change, and the discrepancy at it. -/
structure Locator where
  now : List Nat
  old : List Nat
  len : Nat
  gap : Nat
  disc : Nat
deriving DecidableEq, Repr

/-- One step of the search, for syndrome n. -/
def locatorStep (syn : List Nat) (s : Locator) (n : Nat) : Locator :=
  let delta := (List.range (s.len + 1)).foldl (fun a i => a ^^^ gfMul (s.now.getD i 0) (syn.getD (n - i) 0)) 0
  if delta = 0 then { s with gap := s.gap + 1 }
  else
    let f := gfMul delta (gfInv s.disc)
    let next := gfAdd s.now (List.replicate s.gap 0 ++ s.old.map (gfMul f))
    if 2 * s.len ≤ n then { now := next, old := s.now, len := n + 1 - s.len, gap := 1, disc := delta }
    else { s with now := next, gap := s.gap + 1 }

/-- The error locator of the syndromes. -/
def rsLocator (syn : List Nat) : Locator :=
  (List.range 30).foldl (locatorStep syn) { now := [1], old := [1], len := 0, gap := 1, disc := 1 }

/-- The error evaluator: syndromes times locator, its 30 lowest coefficients. -/
def rsEvaluator (syn loc : List Nat) : List Nat :=
  (List.range 30).map (fun n => (List.range (n + 1)).foldl (fun a i => a ^^^ gfMul (loc.getD i 0) (syn.getD (n - i) 0)) 0)

/-- The derivative of a polynomial, lowest coefficient first. -/
def gfDeriv (p : List Nat) : List Nat := (List.range (p.length - 1)).map (fun i => if i % 2 = 0 then p.getD (i + 1) 0 else 0)

/-- The error in the symbol of weight v = α^i (Forney), 0 where the locator has no root there. -/
def rsErrorAt (loc ev : List Nat) (v : Nat) : Nat :=
  let w := gfInv v
  if gfEval loc w = 0 then gfMul v (gfMul (gfEval ev w) (gfInv (gfEval (gfDeriv loc) w))) else 0

/-- The weights α^(n−1) to α^0 of n symbols. -/
def rsWeights (n : Nat) : List Nat := ((List.range n).foldl (fun (acc : List Nat × Nat) _ => (acc.2 :: acc.1, gfMul acc.2 2)) ([], 1)).1

/-- The symbols corrected, with how many were in error: none above 15 errors, or where the errors cannot be placed (R109). -/
def rsDecode (r : List Nat) : Option (List Nat × Nat) :=
  let syn := rsSyndromes r
  if syn.all (· == 0) then some (r, 0)
  else
    let loc := rsLocator syn
    let ev := rsEvaluator syn loc.now
    let errs := (rsWeights r.length).map (rsErrorAt loc.now ev)
    let n := (errs.filter (· != 0)).length
    if loc.len ≤ 15 ∧ n = loc.len then some (List.zipWith (· ^^^ ·) r errs, n) else none

/-- Symbols of 10 bits as one number, the first most significant. -/
def symbolsNat (l : List Nat) : Nat := l.foldl (fun a s => a * 1024 + s % 1024) 0

/-- The scrambler's state n bits on. -/
def scrambleSkip : Nat → Nat → Nat
  | 0, st => st
  | n + 1, st => scrambleSkip n (scrambleStep st).2

/-- Received symbols of codeword k of a frame of a channel, descrambled (R108). -/
def descramble (frame channel k : Nat) (syms : List Nat) : List Nat :=
  groupBits 10 syms.length (scramble (scrambleSkip (5440 * k) (seedDown frame channel)) ((syms.map (msbBits 10)).flatten))

/-! ### The payload area of a burst (R153) -/

/-- The data capacity in bits of a payload area of a blocks. -/
def dataCapacity (a : Nat) : Nat :=
  let bits := 64 * a
  let k := bits / 5440
  let rem := bits - 5440 * k
  if 370 ≤ rem then 5140 * k + 10 * ((rem - 300) / 10) else 5140 * k

/-- The payload area's block that holds data bit i. -/
def dataBlock (i : Nat) : Nat := (5440 * (i / 5140) + i % 5140) / 64

/-- Data bits, a whole number of symbols, as codewords back to back. The fuel is the number of codewords. -/
def rsCodewords : Nat → List Bool → List Bool
  | 0, _ => []
  | n + 1, l => if l.isEmpty then [] else rsCodeword (l.take 5140) ++ rsCodewords n (l.drop 5140)

/-- The scrambled payload area of a blocks that carries the data bits: codewords, then zeros (R153). -/
def payloadArea (a frame channel : Nat) (data : List Bool) : List Nat :=
  let c := dataCapacity a
  let filled := data.take c ++ List.replicate (c - data.length) false
  let coded := rsCodewords (c / 5140 + 1) filled
  groupBits 64 a (scramble (seedUp frame channel) (coded ++ List.replicate (64 * a - coded.length) false))

end Sys2Proof.Machine
end

