-- ==== Sys2Proof/Machine/Stream.lean ====
section
/-!
DEFINITION. Machine/Stream.lean: the codewords of a line's channels and the payload stream formed of them (R107 to R109, R114, R116,
spec/06).
-/

namespace Sys2Proof.Machine

def setDsf (d : Dev) (x : Line) (f : DsfHw → DsfHw) : Dev := { d with dsf := d.dsf.set x (f (d.dsf.get x)) }

def chanHw (d : Dev) (x : Line) (c : Nat) : ChanHw := sget ChanHw.reset (d.dsf.get x).chans c

def dsfMode (d : Dev) (x : Line) : Nat := fld d (DSF_STATUS_MODE x.ix)

/-- The channel set (R114). (log 32: DEDUCED, safe) -/
def chanSet (d : Dev) (x : Line) : List Nat :=
  if dsfMode d x = 0 then List.range 8 else if dsfMode d x = 1 then List.range 4 else [0]

/-- The frame counter of the next frame, and of the one before. -/
def nextFrame (n : Nat) : Nat := (n + 1) % 0x1000000000000
def prevFrame (n : Nat) : Nat := (n + 0xFFFFFFFFFFFF) % 0x1000000000000

/-- The group's last FRAME on a line, as DSF_FRAME shows it (R118). -/
def lineFrame (d : Dev) (x : Line) : Nat := rdn d (DSF_FRAME_LO x.ix) + 0x100000000 * fld d (DSF_FRAME_HI_VALUE x.ix)

/-! ### Codewords (R107 to R109) -/

/-- What becomes of received codeword k of a frame of a channel: descrambled, and decoded or passed on with an error mark. -/
def decodedWord (chan frame k : Nat) (syms : List Nat) : Codeword :=
  let r := descramble frame chan k syms
  match rsDecode r with
  | some (s, _) => { chan := chan, frame := frame, index := k, data := symbolsNat (s.take 514), mark := false }
  | none => { chan := chan, frame := frame, index := k, data := symbolsNat (r.take 514), mark := true }

/-- The symbols corrected in it, none where it is uncorrectable. -/
def correctedIn (chan frame k : Nat) (syms : List Nat) : Option Nat := (rsDecode (descramble frame chan k syms)).map (·.2)

def sameWord (w v : Codeword) : Bool := w.chan == v.chan && w.frame == v.frame && w.index == v.index

/-- The deskew store takes a codeword (R116). -/
def keepWord (d : Dev) (x : Line) (w : Codeword) : Dev :=
  setDsf d x (fun h => { h with words := h.words.filter (fun v => !sameWord w v) ++ [w] })

/-- Only the codewords of frame n and of the one before it are kept. -/
def agedWords (d : Dev) (x : Line) (n : Nat) : Dev :=
  setDsf d x (fun h => { h with words := h.words.filter (fun v => v.frame == n || v.frame == prevFrame n) })

/-! ### The payload stream (R116) -/

/-- Words of a frame's payload stream: with eight channels, or with four. -/
def streamWords (d : Dev) (x : Line) : Nat := if dsfMode d x = 1 then 391925 else 783850

/-- Codeword k of channel c in frame n. -/
def heldWord (d : Dev) (x : Line) (n c k : Nat) : Option Codeword :=
  (d.dsf.get x).words.find? (fun v => v.frame == n && v.chan == c && v.index == k)

/-- Index k of frame n is present on every channel of the set. -/
def released (d : Dev) (x : Line) (n k : Nat) : Bool := (chanSet d x).all (fun c => (heldWord d x n c k).isSome)

/-- The codeword that stands j codewords into the stream of frame n, once it is released. -/
def streamCodeword (d : Dev) (x : Line) (n j : Nat) : Option Codeword :=
  let set := chanSet d x
  if released d x n (j / set.length) then heldWord d x n (set.getD (j % set.length) 0) (j / set.length) else none

/-- len bits of the stream of frame n from bit i on, most significant first, with the mark of what they touch, added to what has been
read; the fuel is the number of codewords they touch. -/
def readBits (d : Dev) (x : Line) (n : Nat) : Nat → Nat → Nat → Nat × Bool → Option (Nat × Bool)
  | 0, _, len, acc => if len = 0 then some acc else none
  | f + 1, i, len, acc =>
    if len = 0 then some acc
    else match streamCodeword d x n (i / 5140) with
      | none => none
      | some w =>
        let have' := 5140 - i % 5140
        let m := min len have'
        readBits d x n f (i + m) (len - m) (acc.1 * 2 ^ m + w.data / 2 ^ (have' - m) % 2 ^ m, acc.2 || w.mark)

/-- len bytes of the stream of frame n from its word w on, as a number, and whether they touch an error mark. -/
def readStream (d : Dev) (x : Line) (n w len : Nat) : Option (Nat × Bool) := readBits d x n (8 * len / 5140 + 2) (64 * w) (8 * len) (0, false)

end Sys2Proof.Machine
end

