-- ==== Sys2Proof/Machine/Bursts.lean ====
section
/-!
DEFINITION. Machine/Bursts.lean: upstream messages, grants, bursts and the Narrows (R127, R131, spec/07; R148 to R166,
spec/08). How a line unit is formed and staged is in Machine/LineStage.lean.
-/

namespace Sys2Proof.Machine

def setUp (d : Dev) (x : Line) (f : UpHw → UpHw) : Dev := { d with upHw := d.upHw.set x (f (d.upHw.get x)) }

def setRng (d : Dev) (x : Line) (f : RngHw → RngHw) : Dev := { d with rngHw := d.rngHw.set x (f (d.rngHw.get x)) }

def setSdl (d : Dev) (x : Line) (f : SdlLine → SdlLine) : Dev := { d with sdlLine := d.sdlLine.set x (f (d.sdlLine.get x)) }

/-! ### Upstream messages (R127, R129, R131) -/

def terminalId (d : Dev) (x : Line) : Nat := fld d (RNG_Lx_STATUS_TERMINAL_ID x.ix)

/-- The 48 bytes of an upstream message (R127). -/
def lmmBytes (type term seq : Nat) (payload : List Byte) : List Byte :=
  beBytes 1 type ++ beBytes 1 0x10 ++ beBytes 2 (term % 4096) ++ beBytes 2 seq
    ++ (payload ++ List.replicate (42 - payload.length) 0).take 42

/-- The next sequence number of the line's upstream messages; the device numbers them in order. (log 42: DESIGN CHOICE, unsafe) -/
def nextSeq (d : Dev) (x : Line) : Nat := (d.rngHw.get x).seqOut

/-- A message of the line with its terminal ID and the next sequence number. -/
def makeLmm (d : Dev) (x : Line) (type : Nat) (payload : List Byte) : Dev × List Byte :=
  (setRng d x (fun h => { h with seqOut := (h.seqOut + 1) % 65536 }),
   lmmBytes type (terminalId d x) (nextSeq d x) payload)

/-- A finished message takes its place in the queue of 8, or is dropped and counted (R131). -/
def pushLmm (d : Dev) (x : Line) (msg : List Byte) : Dev :=
  if 8 ≤ (d.rngHw.get x).queue.length then count d (RNG_Lx_LMM_DROP x.ix)
  else setRng d x (fun h => { h with queue := h.queue ++ [msg] })

def queueLmm (d : Dev) (x : Line) (type : Nat) (payload : List Byte) : Dev :=
  pushLmm (makeLmm d x type payload).1 x (makeLmm d x type payload).2

/-! ### Events -/

def raiseRng (d : Dev) (x : Line) (b : Nat) : Dev := raiseEvt d (evRNG x.ix) b
def rgStateChange : Nat := 0
def rgStopped : Nat := 1
def rgRanged : Nat := 2
def rgAsymMismatch : Nat := 3
def rgTimeout : Nat := 4
def rgSleepNak : Nat := 5

def raiseUpb (d : Dev) (x : Line) (b : Nat) : Dev := raiseEvt d (evUPB x.ix) b
def upShortfall : Nat := 0
def upSuppressed : Nat := 1
def upGrantBad : Nat := 2

/-! ### Grant entries (R148) -/

def geAlloc (e : Nat) : Nat := bitsOf e 63 52
def geChan (e : Nat) : Nat := bitsOf e 51 50
def geStart (e : Nat) : Nat := bitsOf e 49 33
def geLen (e : Nat) : Nat := bitsOf e 32 16
def geRanging (e : Nat) : Bool := bitOf e 15
def geProfile (e : Nat) : Nat := bitsOf e 14 13
def geReport (e : Nat) : Bool := bitOf e 12
def geKeepalive (e : Nat) : Bool := bitOf e 11
def geForceWake (e : Nat) : Bool := bitOf e 10

/-! ### Places on the block grid (R151) -/

/-- The preamble length of a profile in blocks (R152). -/
def preLen (d : Dev) (x : Line) (p : Nat) : Nat :=
  64 * 2 ^ fld d (if p = 0 then UPB_PROFILE0_LEN x.ix else if p = 1 then UPB_PROFILE1_LEN x.ix else UPB_PROFILE2_LEN x.ix)

/-- The preamble word of a profile. -/
def preWord (d : Dev) (x : Line) (p : Nat) : Nat := rdPair d (UPB_PRE_LO x.ix p) (UPB_PRE_HI x.ix p)

/-- Blocks of a frame's grid and symbols of a block. -/
def blocksPerFrame : Nat := 103750

/-- The place of a block of a frame's grid under an equalization delay, in symbols from the grid of frame 0 with none. -/
def gridPlace (eqd frame : Nat) (block : Int) : Int := frame * 3320000 + eqd + 32 * block

/-- The equalization delay of channel u for the bursts of the map of frame n (R141): that of the latest APPLY_FRAME up to n, which may
still wait, else the one in force. -/
def eqdFor (d : Dev) (x : Line) (u n : Nat) : Nat :=
  let best := ((d.rngHw.get x).eqdWait.filter (fun w => w.chan == u && decide (w.frame ≤ n))).foldl (fun (b : Option EqdWait) w =>
    match b with
    | none => some w
    | some v => if v.frame ≤ w.frame then some w else some v) none
  match best with
  | some w => w.eqd
  | none => fld d ⟨RNG_Lx_EQDu x.ix u, 23, 0⟩

def benLead (d : Dev) (x : Line) : Nat := fld d (LLx_BEN_CFG_BEN_LEAD x.ix)
def benTailLen (d : Dev) (x : Line) : Nat := fld d (LLx_BEN_CFG_BEN_TAIL x.ix)

/-- The BEN span of a grant's burst, in symbols: from step 1 of R86 to step 5. -/
def benSpan (d : Dev) (x : Line) (g : Grant) : Int × Int :=
  (gridPlace g.eqd g.frame ((g.start : Int) - g.pre - benLead d x), gridPlace g.eqd g.frame ((g.start : Int) + g.len + benTailLen d x))

/-- The BEN span of a response burst (R139): on the carrying frame's grid with no equalization delay. -/
def responseSpan (d : Dev) (x : Line) (r : Response) : Int × Int :=
  let b : Int := r.delay.getD 0
  (r.frame * 3320000 + 32 * (b - preLen d x r.profile - benLead d x), r.frame * 3320000 + 32 * (b + 19 + benTailLen d x))

def overlap (p q : Int × Int) : Bool := decide (p.1 < q.2) && decide (q.1 < p.2)

/-- The instant of a block of frame n's grid under an equalization delay, in units of 2^-16 ns (R151), from the line's last stamp. -/
def blockInstant (d : Dev) (x : Line) (frame eqd : Nat) (block : Int) : Int :=
  let t0 : Int := match (d.fawStamps.get x).find? (fun s => decide (s.frame ≤ frame)) with
    | some s => s.stamp.units16 + ((frame - s.frame) * 125000 * 65536 : Nat)
    | none => 0
  t0 + 35000 * 65536 + nearest ((eqd : Int) * 376506 * 65536) 10000000 + nearest (block * 1204819 * 65536) 1000000

/-- The instant of a block counted from the delimiter of a grant. -/
def grantInstant (d : Dev) (x : Line) (g : Grant) (block : Int) : Int := blockInstant d x g.frame g.eqd ((g.start : Int) + block)

/-! ### The Narrows (R159, R161) -/

/-- Bytes and granules of a line unit (R159, R170). -/
def unitBytes (u : LineUnit) : Nat := 8 + 8 * ceilDiv u.payload.length 8
def unitGranules (u : LineUnit) : Nat := ceilDiv (unitBytes u) 64

def sumOf {α : Type} (f : α → Nat) (l : List α) : Nat := l.foldl (fun n a => n + f a) 0

def stagedGranules (g : Grant) : Nat := sumOf unitGranules g.staged

/-- The capacity cap(g) of a grant in bytes (R161): 0 for a keepalive, and for a management grant shorter than 19 blocks, whose
burst carries header and filler only (R157). (log 44: DEDUCED, unsafe) -/
def capOf (g : Grant) : Nat :=
  if g.keepalive || (g.entry.isNone && decide (g.len < 19)) then 0 else dataCapacity (g.len - 5) / 8

/-- The floor f(g) in granules that a grant takes as it is checked (R161, R166, R169). -/
def floorOf (d : Dev) (g : Grant) : Nat :=
  match g.entry with
  | some i => min (fld d (NRW_ALLOCi_FLOOR_FLOOR i)) (ceilDiv (capOf g) 64)
  | none => 0

/-- The earlier of two grants by the place of their delimiters, then by channel. -/
def earlier (g h : Grant) : Bool :=
  let (p, q) := (gridPlace g.eqd g.frame g.start, gridPlace h.eqd h.frame h.start)
  decide (p < q) || (decide (p = q) && decide (g.chan < h.chan))

/-- The first of a line's grants in the order of their delimiters. -/
def firstGrant (l : List Grant) : Option Grant :=
  l.foldl (fun acc g => match acc with
    | none => some g
    | some h => if earlier g h then some g else acc) none

def allGrants (d : Dev) : List Grant := d.upHw.a.grants ++ d.upHw.b.grants

def carryGranules (c : List Carry) : Nat := sumOf (fun e => unitGranules e.unit) c

/-- The key of an allocation's carry-over. -/
def carryKey (x : Line) (entry : Option Nat) : Nat := entry.getD (512 + x.ix)

def carryOf (d : Dev) (k : Nat) : List Carry := sget [] d.carry k

/-- Carry-over that is assigned to a grant and counts toward its floor: its allocation's, where it is the first grant of it that is not
complete (R162, R164). -/
def carryFor (d : Dev) (x : Line) (g : Grant) : Nat :=
  if firstGrant ((d.upHw.get x).grants.filter (fun h => h.entry == g.entry && !h.complete)) = some g then
    carryGranules (carryOf d (carryKey x g.entry))
  else 0

/-- Granules of a grant's floor that it lacks. -/
def floorLack (d : Dev) (x : Line) (g : Grant) : Nat := g.floor - g.granules - carryFor d x g

/-- Granules still held back for a grant's floor. -/
def heldBack (d : Dev) (x : Line) (g : Grant) : Nat := if g.reserved && !g.complete then floorLack d x g else 0

def totalStaged (d : Dev) : Nat :=
  sumOf stagedGranules (allGrants d) + sumOf (fun e => carryGranules e.2) d.carry

def totalReserved (d : Dev) : Nat := sumOf (heldBack d .a) d.upHw.a.grants + sumOf (heldBack d .b) d.upHw.b.grants

/-- Granules neither staged nor reserved. -/
def freeGranules (d : Dev) : Nat := fld d NRW_STATUS_CAPACITY - totalStaged d - totalReserved d

def setCarry (d : Dev) (k : Nat) (c : List Carry) : Dev := { d with carry := sput [] d.carry k c }

/-- The granules staged for an allocation entry, carry-over apart. -/
def entryStaged (d : Dev) (i : Nat) : Nat := sumOf (fun g => if g.entry = some i then stagedGranules g else 0) (allGrants d)

/-- NRW_OCC and the staging words of the entries named, after staging changed (R169). -/
def syncNrw (d : Dev) (entries : List Nat) : Dev :=
  let d := setFld (setFld d NRW_OCC_STAGED (totalStaged d)) NRW_OCC_RESERVED (totalReserved d)
  forEach entries (fun d i => if i < 512 then
      let c := carryGranules (carryOf d i)
      setFld (setFld d (NRW_ALLOCi_OCC_CARRY i) c) (NRW_ALLOCi_OCC_STAGED i) (entryStaged d i + c)
    else d) d

/-- Line units are discarded (R164). -/
def countDiscard (d : Dev) (n : Nat) : Dev :=
  if n = 0 then d else raiseEvt (countBy d NRW_CARRY_DISCARD n) evNRW 2

/-- A unit takes its place among carry-over in staging order. -/
def insCarry (c : Carry) : List Carry → List Carry
  | [] => [c]
  | a :: t => if c.unit.seq < a.unit.seq then c :: a :: t else a :: insCarry c t

/-- The line of an allocation. -/
def allocLine (d : Dev) (k : Nat) : Nat := if k < 512 then fld d (NRW_ALLOCi_CFG_LINE k) else k - 512

/-- Frames of a line so far (R7). -/
def framesOf (d : Dev) (x : Line) : Nat := (d.dsf.get x).frames

/-- Carry-over joins that of an allocation in staging order. -/
def addCarry (d : Dev) (k : Nat) (cs : List Carry) : Dev := syncNrw (setCarry d k (cs.foldl (fun l c => insCarry c l) (carryOf d k))) [k]

/-- Units become carry-over of an allocation for up to 32 frames of its line (R164); corrections made in them are short by the wait
(R305). -/
def toCarry (d : Dev) (k : Nat) (us : List LineUnit) : Dev :=
  if us.isEmpty then d
  else
    let t := framesOf d (Line.ofIx (allocLine d k)) + 32
    countBy (addCarry d k (us.map (fun u => { unit := u, until' := t }))) (TTD_Lx_TC_CARRY (allocLine d k)) (us.filter (·.tc)).length

/-- Units of a frame begun that are not yet staged (R176). -/
def formedOf (d : Dev) (k : Nat) : List LineUnit := sget [] d.formed k
def setFormed (d : Dev) (k : Nat) (us : List LineUnit) : Dev := { d with formed := sput [] d.formed k us }

def discardCarry (d : Dev) (k : Nat) : Dev :=
  let n := (carryOf d k).length + (formedOf d k).length
  if n = 0 then d else countDiscard (syncNrw (setCarry (setFormed d k []) k []) [k]) n

/-- CARRY_EXPIRE (R164): carry-over that has waited 32 frames of its line is discarded (R7). -/
def carryExpire (d : Dev) : Dev :=
  forEach (d.carry.map (·.1)) (fun d k =>
    let n := framesOf d (Line.ofIx (allocLine d k))
    let old := (carryOf d k).filter (fun c => decide (c.until' ≤ n))
    if old.isEmpty then d
    else countDiscard (syncNrw (setCarry d k ((carryOf d k).filter (fun c => decide (n < c.until')))) [k]) old.length) d

/-! ### Grants (R149, R150) -/

/-- The NRW entry that a grant of the line with this allocation ID matches: the lowest valid one; 0xFFF and the line's terminal
ID match none (R149). -/
def matchEntry (d : Dev) (x : Line) (alloc : Nat) : Option Nat :=
  if alloc = 0xFFF ∨ alloc = terminalId d x then none
  else (List.range 512).find? (fun i =>
    flag d (NRW_ALLOCi_CFG_VALID i) && fld d (NRW_ALLOCi_CFG_LINE i) == x.ix && fld d (NRW_ALLOCi_CFG_ALLOC_ID i) == alloc)

def setGrants (d : Dev) (x : Line) (f : List Grant → List Grant) : Dev := setUp d x (fun h => { h with grants := f h.grants })

def syncInFlight (d : Dev) (x : Line) : Dev := setFld d (UPB_STATUS_IN_FLIGHT x.ix) (d.upHw.get x).grants.length

def placeOf (g : Grant) : GrantPlace :=
  { frame := g.frame, chan := g.chan, start := g.start, pre := g.pre, len := g.len, eqd := g.eqd }

/-- The span of blocks a grant occupies, preamble included, in symbols. -/
def grantSpan (g : GrantPlace) : Int × Int :=
  (gridPlace g.eqd g.frame ((g.start : Int) - g.pre), gridPlace g.eqd g.frame ((g.start : Int) + g.len))

/-- The grant that an entry of the map of frame n asks for, with what it keeps of the present settings (R152, R166, R169); one without
capacity is complete at once (R162).
(log 44: DEDUCED, unsafe) -/
def grantOf (d : Dev) (x : Line) (n e : Nat) (entry : Option Nat) : Grant :=
  let g : Grant :=
    { frame := n, chan := geChan e, start := geStart e, len := geLen e, profile := geProfile e, report := geReport e,
      keepalive := geKeepalive e, alloc := geAlloc e, entry := entry, pre := preLen d x (geProfile e),
      preWord := preWord d x (geProfile e), eqd := eqdFor d x (geChan e) n, floor := 0, horizon := false,
      reserved := false, waited := false, complete := false, granules := 0, staged := [], sent := [], risen := false,
      dark := false, occ := 0, short := 0, head := none }
  { g with complete := decide (capOf g = 0), floor := floorOf d g }

/-- A rejected grant is counted in the register named and raises GRANT_BAD (R150). -/
def rejectGrant (d : Dev) (x : Line) (r : Reg) : Dev := raiseUpb (count d r) x upGrantBad

/-- UPB accounts for a suppressed burst (R96, R140, R164, R200). -/
def noteSuppressed (d : Dev) (x : Line) : Dev :=
  setSdl (raiseUpb (count d (UPB_SUPPRESSED x.ix)) x upSuppressed) x (fun h => { h with suppr := true })

/-! ### Gaps between bursts (R87) -/

/-- Where the lane's next burst raises BEN, in symbols: that of its next grant or of the response to send. -/
def nextRise (d : Dev) (x : Line) (u : Nat) : Option Int :=
  let g := (firstGrant ((d.upHw.get x).grants.filter (fun g => !g.risen && g.chan == u))).map (fun g => (benSpan d x g).1)
  match (d.rngHw.get x).response with
  | some r => if r.chan = u then
      (match g with
        | some p => some (min p (responseSpan d x r).1)
        | none => some (responseSpan d x r).1)
      else g
  | none => g

/-- Blocks from step 5 of the lane's last burst to step 1 of its next. -/
def gapBlocks (d : Dev) (x : Line) (u : Nat) : Option Int :=
  let last : Int := sget 0 (d.upHw.get x).lastEnd u + 32 * benTailLen d x
  (nextRise d x u).map (fun p => (p - last) / 32)

/-- The lane's next burst comes too soon for BEN to fall before it. -/
def shortGap (d : Dev) (x : Line) (u : Nat) : Bool :=
  match gapBlocks d x u with
  | some n => decide (n < fld d (LLx_BEN_CFG_BEN_MIN_OFF x.ix))
  | none => false

/-- A gap through which BEN is held ends where the burst that it leads to is withdrawn. (log 201: DESIGN CHOICE, unsafe) -/
def endGaps (d : Dev) (x : Line) : Dev :=
  forEach (List.range 4) (fun d u =>
    if benPhase d x u = benGap ∧ shortGap d x u = false then setBenPhase (setBen d x u false) x u benIdle else d) d

/-- A response burst in the way of a grant on its channel: the grant's burst is not sent (R140). -/
def withheld (d : Dev) (x : Line) (g : Grant) : Bool :=
  match (d.rngHw.get x).response with
  | some r => r.chan == g.chan && !g.risen && overlap (responseSpan d x r) (benSpan d x g)
  | none => false

/-- A withheld burst is not sent at all: its units become carry-over (R140, R164), and a gap that led to it ends. -/
def withholdGrant (d : Dev) (x : Line) (g : Grant) : Dev :=
  let d := setGrants (count d (RNG_Lx_OVERLAP x.ix)) x (fun l => l.filter (fun e => e ≠ g))
  let d := toCarry d (carryKey x g.entry) g.staged
  noteSuppressed (endGaps (syncInFlight (syncNrw d (g.entry.toList)) x) x) x

/-- Step 1 of the grant's burst falls within 600 µs (R378). -/
def sliceSoon (d : Dev) (x : Line) (g : Grant) : Bool :=
  let rise := grantInstant d x g (-(g.pre : Int) - benLead d x)
  decide (rise ≤ ((now d + 600000) * 65536 : Nat))

/-- An accepted grant joins the line's grants (R150), and counts as a sign of life of the line (R200). A grant whose burst is near
asks service of UPB (R378). -/
def acceptGrant (d : Dev) (x : Line) (g : Grant) : Dev :=
  let d := setUp d x (fun h => { h with grants := h.grants ++ [g],
                                        accepted := placeOf g :: h.accepted.filter (fun p => decide (g.frame ≤ p.frame + 1)) })
  let d := count d (UPB_GRANT_ACC x.ix)
  let d := setSdl (countFld d (UPB_STATUS_MAP_ACCEPTED x.ix)) x (fun h => { h with kaTick := framesOf d x, kaCount := h.kaCount + 1 })
  let d := syncInFlight d x
  let d := if sliceSoon d x g then sliceService d (44 + x.ix) else d
  if withheld d x g then withholdGrant d x g else d

/-- A management or data grant of the map of frame n is checked in the order of R150. (log 41: DEDUCED, unsafe) -/
def checkGrant (d : Dev) (x : Line) (n e : Nat) (entry : Option Nat) : Dev :=
  let g := grantOf d x n e entry
  let st := termState d x
  if !(st == stOperate || (st == stStandby && entry.isNone)) then rejectGrant d x (UPB_BAD_STATE x.ix)
  else if !bitOf (fld d (RNG_Lx_STATUS_RANGED x.ix)) (geChan e) then rejectGrant d x (RNG_Lx_LMM_BAD x.ix)
  else if geProfile e = 3 then rejectGrant d x (UPB_BAD_PROFILE x.ix)
  else if geLen e < 5 ∨ blocksPerFrame < geStart e + geLen e then rejectGrant d x (UPB_BAD_RANGE x.ix)
  else if (d.upHw.get x).accepted.any (fun h =>
      h.chan == g.chan && decide (n ≤ h.frame + 1) && overlap (grantSpan h) (grantSpan (placeOf g))) then
    rejectGrant d x (UPB_BAD_OVERLAP x.ix)
  else acceptGrant d x g

/-- An entry of the map of frame n that is no response grant is classified (R149). -/
def mapEntry (d : Dev) (x : Line) (n e : Nat) : Dev :=
  if geForceWake e then count d (UPB_FORCE_WAKE x.ix)
  else if geAlloc e = terminalId d x ∧ geAlloc e ≠ 0xFFF then checkGrant d x n e none
  else match matchEntry d x (geAlloc e) with
    | some i => checkGrant d x n e (some i)
    | none => d

/-! ### The horizon (R161) -/

def replaceGrant (d : Dev) (x : Line) (g g' : Grant) : Dev :=
  setGrants d x (fun l => l.map (fun e => if e = g then g' else e))

/-- A grant's floor is reserved from free space if that suffices; carry-over assigned to it counts toward it (R161, R162). -/
def reserveFloor (d : Dev) (x : Line) (g : Grant) : Dev :=
  if floorLack d x g ≤ freeGranules d then syncNrw (replaceGrant d x g { g with reserved := true }) []
  else if g.waited then d
  else raiseEvt (count (replaceGrant d x g { g with waited := true }) NRW_FLOOR_WAIT) evNRW 0

/-- The first preamble block of a grant falls within HORIZON µs of the present. -/
def nearHorizon (d : Dev) (x : Line) (g : Grant) : Bool :=
  decide (grantInstant d x g (-(g.pre : Int)) ≤ ((now d + 1000 * fld d NRW_CFG_HORIZON) * 65536 : Nat))

/-- GRANT_HORIZON (R161): the line's next grant enters the horizon. -/
def grantHorizon (x : Line) (d : Dev) : Dev :=
  match firstGrant ((d.upHw.get x).grants.filter (fun g => !g.horizon && nearHorizon d x g)) with
  | some g =>
    let g' := { g with horizon := true }
    reserveFloor (replaceGrant d x g g') x g'
  | none => d

/-- FLOOR_RESERVE (R161): the line's first waiting grant is reserved if granules have become free. -/
def floorReserve (x : Line) (d : Dev) : Dev :=
  match firstGrant ((d.upHw.get x).grants.filter (fun g => g.horizon && !g.reserved)) with
  | some g => reserveFloor d x g
  | none => d

/-! ### Occupancy (R155, R279) -/

/-- The line-egress queues bound to an NRW entry, by the applied map (R279). -/
def boundTo (d : Dev) (q i : Nat) : Bool :=
  decide (8192 ≤ q) && decide (q < 16384) && fldA d (TMG_LMAPj_VALID (q - 8192)) == 1
    && fldA d (TMG_LMAPj_ENTRY (q - 8192)) == i

def queueBytes (fs : List BufFrame) : Nat := sumOf (fun f => f.bytes.length) fs

/-- Bytes held in the queues bound to an entry. -/
def groupBytes (d : Dev) (i : Nat) : Nat := sumOf (fun e => if boundTo d e.1 i then queueBytes e.2 else 0) d.queues

/-- The management page of a line, and whether it is ciphered (R180). -/
def mgmtPage (d : Dev) (x : Line) : Nat := fld d (if x = .a then CIP_LA_MGMT_PAGE else CIP_LB_MGMT_PAGE)
def pageGcm (d : Dev) (p : Nat) : Bool := fldA d (CIP_PAGEp_TXSEL_MODE p) == 1

/-- Bytes of the line unit of an upstream message (R157). -/
def lmmUnitBytes (d : Dev) (x : Line) : Nat := if pageGcm d (mgmtPage d x) then 72 else 56

/-- The occupancy a report gives, in units of 64 bytes (R155). -/
def occupancy (d : Dev) (x : Line) (g : Grant) : Nat :=
  let staged := sumOf (fun h => if h.entry = g.entry then sumOf unitBytes h.staged else 0) (d.upHw.get x).grants
    + sumOf (fun c => unitBytes c.unit) (carryOf d (carryKey x g.entry)) + sumOf unitBytes (formedOf d (carryKey x g.entry))
  let queued := match g.entry with
    | some i => groupBytes d i + staged
    | none => (d.rngHw.get x).queue.length * lmmUnitBytes d x + staged
  min (ceilDiv queued 64) 0xFFFFFF

/-- The allocation has data that is not staged (R162): carry-over, queued frames, or queued messages. -/
def hasUnstaged (d : Dev) (x : Line) (entry : Option Nat) : Bool :=
  !(carryOf d (carryKey x entry)).isEmpty || !(formedOf d (carryKey x entry)).isEmpty
    || (match entry with
        | some i => decide (0 < groupBytes d i)
        | none => !(d.rngHw.get x).queue.isEmpty)

/-! ### The burst (R152 to R158, R163, R166) -/

/-- A line-unit header with its CRC (R170, R171); top is bits 63:24. -/
def headerWord (top : Nat) : Nat := top * 0x1000000 + crc24Header top

/-- Header bits 63:24 from the fields (R170). -/
def headerTop (length tag slot last oam time : Nat) : Nat :=
  length * 2 ^ 26 + tag * 2 ^ 6 + slot * 16 + last * 8 + oam * 4 + time * 2

/-- The bytes of a line unit with its padding (R170). -/
def unitWire (u : LineUnit) : List Byte :=
  beBytes 8 u.hdr ++ u.payload ++ List.replicate (8 * ceilDiv u.payload.length 8 - u.payload.length) 0

/-- Filler units over a number of 64-bit words (R156, R172); the fuel bounds their number. -/
def fillerWire : Nat → Nat → List Byte
  | 0, _ => []
  | k + 1, words =>
    if words = 0 then []
    else
      let n := min (words - 1) 2047
      unitWire { hdr := headerWord (headerTop (8 * n) 0xFFFFF 0 0 0 0), payload := List.replicate (8 * n) 0, tc := false, seq := 0 }
        ++ fillerWire k (words - 1 - n)

def sentBytes (g : Grant) : Nat := sumOf (fun s => s.bytes.length) g.sent

/-- Whole 64-bit words of payload data a grant carries. -/
def payloadWords (g : Grant) : Nat := dataCapacity (g.len - 5) / 64

/-- The payload of the burst has been decided to its end. -/
def payloadDone (g : Grant) : Bool := g.sent.any (·.filler) || decide (payloadWords g * 8 ≤ sentBytes g)

/-- Blocks from the one that holds data bit 8 × bytes to the last payload block (R163). -/
def restBlocks (g : Grant) : Nat :=
  let a := g.len - 5
  if dataCapacity a ≤ 8 * sentBytes g then 0 else a - dataBlock (8 * sentBytes g)

/-- The rest of the payload is filled (R163): a shortfall where the grant was not complete and its data allocation has
unstaged data, filler otherwise. -/
def fillRest (d : Dev) (x : Line) (g : Grant) : Dev :=
  let n := restBlocks g
  let short := !g.complete && g.entry.isSome && hasUnstaged d x g.entry
  let g' := { g with complete := true, sent := g.sent ++ [{ bytes := fillerWire 64 (payloadWords g - sentBytes g / 8), filler := true }] }
  let d := replaceGrant d x g g'
  let d := if short then
      let d := countBy d (UPB_SHORT_BLK x.ix) n
      let i := g.entry.getD 0
      let d := countBy d (NRW_ALLOCi_SHORT i) n
      raiseUpb (setUp d x (fun h => { h with shortSince := sput 0 h.shortSince i (min (sget 0 h.shortSince i + n) 0xFFFF) }))
        x upShortfall
    else countBy d (UPB_FILLER_BLK x.ix) n
  syncNrw d g.entry.toList

/-- The burst in progress on a channel: the first, where the BEN of the next has risen in its tail. -/
def burstOn (d : Dev) (x : Line) (u : Nat) : Option Grant := firstGrant ((d.upHw.get x).grants.filter (fun g => g.risen && g.chan == u))

/-- The burst on a channel whose payload is being decided. -/
def fillingOn (d : Dev) (x : Line) (u : Nat) : Option Grant :=
  firstGrant ((d.upHw.get x).grants.filter (fun g => g.risen && g.chan == u && !payloadDone g))

/-- UNIT_CUTOFF (R163): UPB takes the next staged unit, or the payload is filled to its end. A unit that the Narrows cannot
correct is replaced by filler of its length, and a corrected error is counted (R165). -/
def unitCutoff (x : Line) (u : Fin 4) (ecc : Ecc) (d : Dev) : Dev :=
  let bad := ecc == .uncorrectable
  let d := if ecc == .corrected then count d NRW_ECC_CORR else d
  match fillingOn d x u with
  | none => d
  | some g =>
    match g.staged with
    | unit :: rest =>
      let s : SentUnit := { bytes := if bad then fillerWire 4 (unitBytes unit / 8) else unitWire unit, filler := false }
      let d := replaceGrant d x g { g with staged := rest, sent := g.sent ++ [s] }
      let d := if bad then raiseEvt (count d NRW_ECC_UNCORR) evNRW 1 else bwAdd d (129 + 2 * x.ix) (unitBytes unit)
      syncNrw d g.entry.toList
    | [] => fillRest d x g

/-- The line's bursts may be sent (R95, R386): LASER_OK is 1 and UPB is not retired. -/
def burstOk (d : Dev) (x : Line) (u : Nat) : Bool := laserOkNow d x u && !targetRetired d (44 + x.ix)

/-- The grant as its step 1 passes, with what is sampled there (R155). -/
def risenGrant (d : Dev) (x : Line) (g : Grant) : Grant :=
  { g with risen := true, horizon := true, occ := if g.report then occupancy d x g else 0,
           short := if g.report then sget 0 (d.upHw.get x).shortSince (g.entry.getD 512) else 0 }

/-- BEN at step 1 of a burst that may be sent: it rises, or stays high from a burst that it still serves, which is then merged with
this one (R86, R87). -/
def startBen (d : Dev) (x : Line) (u : Nat) : Dev :=
  let p := benPhase d x u
  let merged := benHigh d x u && (p == benBurst || p == benTail)
  raiseBen (if merged then count d (LLx_BEN_MERGED x.ix) else d) x u

/-- Step 1 of a burst that may be sent. -/
def litBurst (d : Dev) (x : Line) (g : Grant) : Dev :=
  setBenPhase (startBen (replaceGrant d x g (risenGrant d x g)) x g.chan) x g.chan benBurst

/-- Step 1 of a suppressed burst: it is sent with BEN low, its payload filled, and its units become carry-over (R96, R164).
(log 202: DESIGN CHOICE, unsafe) -/
def darkBurst (d : Dev) (x : Line) (g : Grant) : Dev :=
  let fill : SentUnit := { bytes := fillerWire 64 (payloadWords g), filler := true }
  let d := replaceGrant d x g { risenGrant d x g with dark := true, complete := true, staged := [], sent := [fill] }
  let d := syncNrw (toCarry d (carryKey x g.entry) g.staged) g.entry.toList
  raiseLL (count (noteSuppressed d x) (LLx_BEN_SUPPRESSED x.ix)) x llSuppressed

/-- The channel's next burst. -/
def nextBurst (d : Dev) (x : Line) (u : Nat) : Option Grant := firstGrant ((d.upHw.get x).grants.filter (fun g => !g.risen && g.chan == u))

/-- BURST_BEN_RISE (R86, R96, R155): step 1 of the channel's next burst; on a line that has left Operate and Standby none begins.
(log 49: DESIGN CHOICE, safe) -/
def burstBenRise (x : Line) (u : Fin 4) (d : Dev) : Dev :=
  match nextBurst d x u with
  | none => d
  | some g =>
    if (d.upHw.get x).leaving then d
    else if withheld d x g then withholdGrant d x g
    else if burstOk d x u then litBurst d x g
    else darkBurst d x g

/-- The two blocks of a burst header (R154). -/
def burstHeader (term : Nat) (rdi gasp report : Bool) (alloc occ short : Nat) : List Nat :=
  let top := term % 4096 * 2 ^ 100 + boolBit rdi * 2 ^ 99 + boolBit gasp * 2 ^ 98 + boolBit report * 2 ^ 97
    + alloc % 4096 * 2 ^ 84 + occ % 2 ^ 24 * 2 ^ 60 + short % 65536 * 2 ^ 44
  let w := top * 65536 + crc16Burst top
  [w / 2 ^ 64, w % 2 ^ 64]

def delimiterWord : Nat := 0x6F35A0C91E87D24B
def delimiterInverse : Nat := 0x90CA5F36E1782DB4
def terminatorWord : Nat := 0xC4B17E2A903D5F68

/-- The header of a burst that goes out now. -/
def headerNow (d : Dev) (x : Line) (report : Bool) (alloc occ short : Nat) : List Nat :=
  burstHeader (terminalId d x) (flag d (DSF_STATUS_RDI x.ix)) (flag d PWR_STATUS_DYING_GASP) report alloc occ short

/-- The header of a burst has been sent: it keeps what it said, and a report that was not dark restarts the count of shortfall blocks
(R154, R155). -/
def sendHeader (d : Dev) (x : Line) (g : Grant) : Dev :=
  let d := replaceGrant d x g { g with head := some (headerNow d x g.report g.alloc g.occ g.short) }
  if g.report && !g.dark then
    count (setUp d x (fun h => { h with shortSince := sput 0 h.shortSince (g.entry.getD 512) 0 })) (UPB_REPORTS x.ix)
  else d

/-- Headers whose block S + 2 has come by the present tick (R166 step 6). (log 203: DEDUCED, unsafe) -/
def headersDue (d : Dev) : Dev :=
  forEach [Line.a, .b] (fun d x =>
    forEach ((d.upHw.get x).grants.filter (fun g => g.risen && g.head.isNone)) (fun d g =>
      if grantInstant d x g 2 ≤ ((now d * 65536 : Nat) : Int) then sendHeader d x g else d) d) d

/-- The blocks of a burst, from its first preamble block to its terminator (R152). -/
def burstBlocks (pre word : Nat) (head : List Nat) (frame chan a : Nat) (data : List Byte) : List Nat :=
  List.replicate pre word ++ [delimiterWord, delimiterInverse] ++ head ++ payloadArea a frame chan (bytesBits data) ++ [terminatorWord]

/-- A burst leaves on transmit lane u as the lane's settings map it (R82, R83). -/
def sendBurst (d : Dev) (x : Line) (u : Nat) (lit : Bool) (blocks : List Nat) : Dev :=
  let bits := (blocks.map (msbBits 64)).flatten
  emit d (.burst x u lit blocks (turnLevels (flag d (LLx_TXt_CFG_INV x.ix u))
    (sendLevels (flag d (LLx_TXt_CFG_GRAY x.ix u)) (flag d (LLx_TXt_CFG_PRECODE x.ix u)) bits)))

/-- What BURST_END leaves once the payload is decided: the burst is sent and counted, and units not sent become carry-over
(R158, R164). The tail follows, unless the next burst has BEN already. -/
def endGrant (d : Dev) (x : Line) (g : Grant) : Dev :=
  let data := (g.sent.map (·.bytes)).flatten
  let blocks := burstBlocks g.pre g.preWord (g.head.getD []) g.frame g.chan (g.len - 5) data
  let d := sendBurst d x g.chan (!g.dark && benHigh d x g.chan) blocks
  let d := count (setGrants d x (fun l => l.filter (fun e => e ≠ g))) (UPB_BURSTS x.ix)
  let d := toCarry d (carryKey x g.entry) g.staged
  let place := (gridPlace g.eqd g.frame ((g.start : Int) + g.len)).toNat
  let d := setUp d x (fun h => { h with lastEnd := sput 0 h.lastEnd g.chan place })
  let d := syncInFlight (syncNrw d g.entry.toList) x
  if g.dark || (d.upHw.get x).grants.any (fun h => h.risen && !h.dark && h.chan == g.chan) then d else setBenPhase d x g.chan benTail

/-- BURST_END (R166): the terminator has been sent. -/
def burstEnd (x : Line) (u : Fin 4) (d : Dev) : Dev :=
  match burstOn d x u with
  | none => d
  | some g =>
    let g' := { g with complete := g.complete || !g.staged.isEmpty }
    let d := if payloadDone g then d else fillRest (replaceGrant d x g g') x g'
    let d := match burstOn d x u with
      | some g => if g.head.isNone then sendHeader d x g else d
      | none => d
    match burstOn d x u with
    | some g => endGrant d x g
    | none => d

/-- BEN_FALL (R86, R87): step 5; BEN stays high through a gap shorter than BEN_MIN_OFF, unless the interlock ends it. -/
def benFall (x : Line) (u : Fin 4) (d : Dev) : Dev :=
  if benPhase d x u = benTail then
    if shortGap d x u && laserOkNow d x u && benHigh d x u then setBenPhase (count d (LLx_BEN_MERGED x.ix)) x u benGap
    else setBenPhase (setBen d x u false) x u benIdle
  else d

/-! ### What leaves with a line (R138, R164) -/

/-- The NRW entries of a line that hold carry-over. -/
def lineCarry (d : Dev) (x : Line) : List Nat :=
  ((d.carry.map (·.1)) ++ (d.formed.map (·.1))).eraseDups.filter (fun k => if k < 512 then fld d (NRW_ALLOCi_CFG_LINE k) == x.ix else k == 512 + x.ix)

/-- The line leaves Operate and Standby other than by a switch: its staged units and carry-over are discarded, and no burst
begins any more; a burst that has begun is completed with filler (R158, R164). -/
def dropStaging (d : Dev) (x : Line) : Dev :=
  let gs := (d.upHw.get x).grants
  let n := sumOf (fun g => g.staged.length) gs
  let d := setGrants d x (fun l => (l.filter (·.risen)).map (fun g => { g with staged := [], complete := true }))
  let d := forEach (lineCarry d x) discardCarry (countDiscard d n)
  endGaps (syncInFlight (syncNrw d (gs.filterMap (·.entry))) x) x

/-- The line has left Operate and Standby: what is staged for it waits for the evaluation of the tick, which may hand it over to the
other line (R164, R205). -/
def leaves (d : Dev) (x : Line) : Dev := setUp d x (fun h => { h with leaving := true })

/-- What no switch has taken over is dropped. -/
def settleLeaving (d : Dev) (x : Line) : Dev :=
  if (d.upHw.get x).leaving then setUp (dropStaging d x) x (fun h => { h with leaving := false }) else d

/-- Every burst of the line ends within the block and every BEN falls (R95, R158). -/
def endBursts (d : Dev) (x : Line) : Dev :=
  let d := setRng d x (fun h => { h with response := none })
  dropAllBen (setHw d x (fun h => { h with benPhase := [] })) x

/-- The line enters Stopped: bursts that have risen end, and the units staged for them become carry-over (R95, R164). -/
def stopBursts (d : Dev) (x : Line) : Dev :=
  let gs := (d.upHw.get x).grants.filter (·.risen)
  let d := setGrants d x (fun l => l.filter (fun g => !g.risen))
  let d := forEach gs (fun d g => toCarry d (carryKey x g.entry) g.staged) d
  leaves (endBursts (syncInFlight (syncNrw d (gs.filterMap (·.entry))) x) x) x

/-- The line's burst former loses its work: every burst ends, and nothing is staged any more. -/
def cutBursts (d : Dev) (x : Line) : Dev :=
  let d := setGrants (dropStaging d x) x (fun _ => [])
  endBursts (syncInFlight (setUp d x (fun h => { h with leaving := false })) x) x

/-- The NRW entry is no longer valid: its carry-over is discarded (R164). -/
def entryInvalid (d : Dev) (i : Nat) : Dev := discardCarry d i

end Sys2Proof.Machine
end

