-- ==== Sys2Proof/Machine/Counting.lean ====
section
/-!
DEFINITION. Machine/Counting.lean: the programmable event counters (R411, R412, R414, spec/23).
-/

namespace Sys2Proof.Machine

def raiseCnt (d : Dev) (b : Nat) : Dev := raiseEvt d evCNT b
def ctSat : Nat := 0
def ctTlmErr : Nat := 1
def ctBw : Nat := 2

/-- Event counter c takes n more; at 2^64 − 1 it stops, and that is marked and raised once (R414). -/
def cntAdd (d : Dev) (c n : Nat) : Dev :=
  let top := 0xFFFFFFFFFFFFFFFF
  let v := min (rdPair d (CNT_VALc_LO c) (CNT_VALc_HI c) + n) top
  let d := wrPair d (CNT_VALc_LO c) (CNT_VALc_HI c) v
  if v = top ∧ !flag d (CNT_SELc_SAT c) then raiseCnt (count (setFlag d (CNT_SELc_SAT c) true) CNT_SAT_COUNT) ctSat else d

/-- A lookup whose winning rule counts: counter c takes 1 or the frame's length by its MODE (R243, R412). -/
def cntRule (d : Dev) (c len : Nat) : Dev :=
  if domainOn d 53 then
    let m := fld d (CNT_SELc_MODE c)
    if m = 1 then cntAdd d c 1 else if m = 2 then cntAdd d c len else d
  else d

/-- A counter and its SAT bit are cleared (R414). -/
def cntClear (d : Dev) (c : Nat) : Dev := setFlag (wrPair d (CNT_VALc_LO c) (CNT_VALc_HI c) 0) (CNT_SELc_SAT c) false

end Sys2Proof.Machine
end

