-- ==== Sys2Proof/Machine/Crypto.lean ====
section
/-!
DEFINITION. Machine/Crypto.lean: the transforms that the spec names by their standards: AES-256 (FIPS 197), GCM (NIST SP 800-38D, R183),
the key wrap of RFC 3394 (R191), SHA-384 (FIPS 180-4) and ECDSA on P-384 (FIPS 186-4), the last two for images (R398, R401). (log 52: PRESUMED, unsafe)
-/

namespace Sys2Proof.Machine

/-! ### AES-256 -/

/-- Multiplication by x in GF(2^8) with the polynomial x^8 + x^4 + x^3 + x + 1. -/
def aesTwice (a : Nat) : Nat := if 128 ≤ a then (2 * a % 256) ^^^ 0x1B else 2 * a

def aesMul (a b : Nat) : Nat :=
  ((List.range 8).foldl (fun (acc : Nat × Nat) i => (if b / 2 ^ i % 2 = 1 then acc.1 ^^^ acc.2 else acc.1, aesTwice acc.2)) (0, a)).1

/-- The inverse in GF(2^8), 0 for 0: a to the power 2 + 4 + … + 128. -/
def aesInv (a : Nat) : Nat :=
  ((List.range 7).foldl (fun (acc : Nat × Nat) _ => (aesMul acc.1 (aesMul acc.2 acc.2), aesMul acc.2 acc.2)) (1, a)).1

/-- The S-box: the inverse, then the affine map. -/
def aesSub (a : Nat) : Nat :=
  let v := if a = 0 then 0 else aesInv a
  let r (k : Nat) : Nat := v * 2 ^ k % 256 + v * 2 ^ k / 256
  v ^^^ r 1 ^^^ r 2 ^^^ r 3 ^^^ r 4 ^^^ 0x63

def aesBox : List Nat := (List.range 256).map aesSub

/-- Where the S-box takes a value. -/
def aesUnbox : List Nat := (List.range 256).map (fun v => aesBox.findIdx (· == v))

/-- A number as n bytes, most significant first. -/
def natBytes (n v : Nat) : List Nat := (List.range n).map (fun i => v / 256 ^ (n - 1 - i) % 256)

def bytesNat (l : List Nat) : Nat := l.foldl (fun a b => a * 256 + b) 0

def zipXor (a b : List Nat) : List Nat := List.zipWith (· ^^^ ·) a b

/-- The round constants 1, 2, … of the key expansion. -/
def aesRcon (i : Nat) : Nat := (List.range (i - 1)).foldl (fun a _ => aesTwice a) 1

/-- One more word of the expanded key; the words so far, newest first. -/
def aesNextWord (ws : List (List Nat)) (i : Nat) : List (List Nat) :=
  let last := ws.headD []
  let t := if i % 8 = 0 then zipXor ((last.drop 1 ++ last.take 1).map (fun b => aesBox.getD b 0)) [aesRcon (i / 8), 0, 0, 0]
    else if i % 8 = 4 then last.map (fun b => aesBox.getD b 0) else last
  zipXor (ws.getD 7 []) t :: ws

/-- The 15 round keys of a 256-bit key, key byte 0 its most significant. -/
def aesKeys (key : BitVec 256) : List (List Nat) :=
  let bs := natBytes 32 key.toNat
  let first := ((List.range 8).map (fun i => (bs.drop (4 * i)).take 4)).reverse
  let ws := ((List.range 52).foldl (fun ws i => aesNextWord ws (i + 8)) first).reverse
  (List.range 15).map (fun r => ((ws.drop (4 * r)).take 4).flatten)

/-- Rows of the state, which lies column by column, turned by step columns for row 1, twice that for row 2 and so on. -/
def aesTurn (step : Nat) (s : List Nat) : List Nat :=
  (List.range 16).map (fun i => s.getD ((i % 4) + 4 * ((i / 4 + step * (i % 4)) % 4)) 0)

/-- Each column times a circulant matrix with the given first row. -/
def aesMix (row s : List Nat) : List Nat :=
  (List.range 16).map (fun i => (List.range 4).foldl (fun a j =>
    a ^^^ aesMul (s.getD (4 * (i / 4) + j) 0) (row.getD ((j + 4 - i % 4) % 4) 0)) 0)

/-- One block of 16 bytes enciphered. -/
def aesEncrypt (keys : List (List Nat)) (block : List Nat) : List Nat :=
  let s := (List.range 13).foldl (fun s r =>
    zipXor (aesMix [2, 3, 1, 1] (aesTurn 1 (s.map (fun b => aesBox.getD b 0)))) (keys.getD (r + 1) [])) (zipXor block (keys.getD 0 []))
  zipXor (aesTurn 1 (s.map (fun b => aesBox.getD b 0))) (keys.getD 14 [])

/-- One block deciphered. -/
def aesDecrypt (keys : List (List Nat)) (block : List Nat) : List Nat :=
  let s := (List.range 13).foldl (fun s r =>
    aesMix [14, 11, 13, 9] (zipXor ((aesTurn 3 s).map (fun b => aesUnbox.getD b 0)) (keys.getD (13 - r) []))) (zipXor block (keys.getD 14 []))
  zipXor ((aesTurn 3 s).map (fun b => aesUnbox.getD b 0)) (keys.getD 0 [])

/-! ### GCM (R183, R185) -/

/-- Multiplication in GF(2^128), the first bit of a block its most significant. -/
def ghashMul (a b : Nat) : Nat :=
  ((List.range 128).foldl (fun (acc : Nat × Nat) i =>
    (if a / 2 ^ (127 - i) % 2 = 1 then acc.1 ^^^ acc.2 else acc.1,
     if acc.2 % 2 = 1 then acc.2 / 2 ^^^ (0xE1 * 2 ^ 120) else acc.2 / 2)) (0, b)).1

/-- Bytes as blocks of 128 bits, the last one filled with zeros. The fuel is the number of blocks. -/
def blocksOf : Nat → List Byte → List Nat
  | 0, _ => []
  | n + 1, l => bytesNat ((l.take 16).map (·.toNat)) * 256 ^ (16 - min 16 l.length) :: blocksOf n (l.drop 16)

/-- GHASH of the additional data and the ciphertext. -/
def ghash (h : Nat) (aad ct : List Byte) : Nat :=
  let bs := blocksOf ((aad.length + 15) / 16) aad ++ blocksOf ((ct.length + 15) / 16) ct ++ [8 * aad.length * 2 ^ 64 + 8 * ct.length]
  bs.foldl (fun y x => ghashMul (y ^^^ x) h) 0

/-- The counter block of a 12-byte nonce; 1 is J0. -/
def gcmBlock (iv : List Byte) (n : Nat) : List Nat := iv.map (·.toNat) ++ natBytes 4 (n % 2 ^ 32)

/-- Bytes with the keystream put on them, block by block from counter n. The fuel is the number of blocks. -/
def gcmStream (keys : List (List Nat)) (iv : List Byte) : Nat → Nat → List Byte → List Byte
  | 0, _, _ => []
  | f + 1, n, l =>
    List.zipWith (fun b k => b ^^^ BitVec.ofNat 8 k) (l.take 16) (aesEncrypt keys (gcmBlock iv n)) ++ gcmStream keys iv f (n + 1) (l.drop 16)

/-- A plaintext enciphered, or a ciphertext deciphered (R183). -/
def gcmXor (key : BitVec 256) (iv data : List Byte) : List Byte := gcmStream (aesKeys key) iv ((data.length + 15) / 16) 2 data

/-- The tag: GHASH XOR E_K(J0), in the order sent (R183, R185). -/
def gcmTagBytes (key : BitVec 256) (iv aad ct : List Byte) : List Byte :=
  let keys := aesKeys key
  let h := bytesNat (aesEncrypt keys (List.replicate 16 0))
  (natBytes 16 (ghash h aad ct ^^^ bytesNat (aesEncrypt keys (gcmBlock iv 1)))).map (BitVec.ofNat 8)

/-! ### Key wrap (RFC 3394, R191) -/

/-- One step of the unwrapping, for step t, on register r of the four. -/
def unwrapStep (keys : List (List Nat)) (s : List Nat × List (List Nat)) (t : Nat) : List Nat × List (List Nat) :=
  let r := (t - 1) % 4
  let b := aesDecrypt keys (zipXor s.1 (natBytes 8 t) ++ s.2.getD r [])
  (b.take 8, s.2.set r (b.drop 8))

/-- The 256-bit key that 40 wrapped bytes hold under a key; none where the integrity check fails. -/
def keyUnwrap (key : BitVec 256) (wrapped : List Byte) : Option (BitVec 256) :=
  let c := wrapped.map (·.toNat)
  let s := (List.range 24).foldl (fun s i => unwrapStep (aesKeys key) s (24 - i))
    (c.take 8, (List.range 4).map (fun i => (c.drop (8 + 8 * i)).take 8))
  if wrapped.length = 40 ∧ s.1 = List.replicate 8 0xA6 then some (BitVec.ofNat 256 (bytesNat s.2.flatten)) else none

/-! ### SHA-384 -/

def shaKeys0 : List (BitVec 64) :=
  [0x428a2f98d728ae22, 0x7137449123ef65cd, 0xb5c0fbcfec4d3b2f, 0xe9b5dba58189dbbc,
   0x3956c25bf348b538, 0x59f111f1b605d019, 0x923f82a4af194f9b, 0xab1c5ed5da6d8118,
   0xd807aa98a3030242, 0x12835b0145706fbe, 0x243185be4ee4b28c, 0x550c7dc3d5ffb4e2,
   0x72be5d74f27b896f, 0x80deb1fe3b1696b1, 0x9bdc06a725c71235, 0xc19bf174cf692694]

def shaKeys1 : List (BitVec 64) :=
  [0xe49b69c19ef14ad2, 0xefbe4786384f25e3, 0x0fc19dc68b8cd5b5, 0x240ca1cc77ac9c65,
   0x2de92c6f592b0275, 0x4a7484aa6ea6e483, 0x5cb0a9dcbd41fbd4, 0x76f988da831153b5,
   0x983e5152ee66dfab, 0xa831c66d2db43210, 0xb00327c898fb213f, 0xbf597fc7beef0ee4,
   0xc6e00bf33da88fc2, 0xd5a79147930aa725, 0x06ca6351e003826f, 0x142929670a0e6e70]

def shaKeys2 : List (BitVec 64) :=
  [0x27b70a8546d22ffc, 0x2e1b21385c26c926, 0x4d2c6dfc5ac42aed, 0x53380d139d95b3df,
   0x650a73548baf63de, 0x766a0abb3c77b2a8, 0x81c2c92e47edaee6, 0x92722c851482353b,
   0xa2bfe8a14cf10364, 0xa81a664bbc423001, 0xc24b8b70d0f89791, 0xc76c51a30654be30,
   0xd192e819d6ef5218, 0xd69906245565a910, 0xf40e35855771202a, 0x106aa07032bbd1b8]

def shaKeys3 : List (BitVec 64) :=
  [0x19a4c116b8d2d0c8, 0x1e376c085141ab53, 0x2748774cdf8eeb99, 0x34b0bcb5e19b48a8,
   0x391c0cb3c5c95a63, 0x4ed8aa4ae3418acb, 0x5b9cca4f7763e373, 0x682e6ff3d6b2b8a3,
   0x748f82ee5defb2fc, 0x78a5636f43172f60, 0x84c87814a1f0ab72, 0x8cc702081a6439ec,
   0x90befffa23631e28, 0xa4506cebde82bde9, 0xbef9a3f7b2c67915, 0xc67178f2e372532b]

def shaKeys4 : List (BitVec 64) :=
  [0xca273eceea26619c, 0xd186b8c721c0c207, 0xeada7dd6cde0eb1e, 0xf57d4f7fee6ed178,
   0x06f067aa72176fba, 0x0a637dc5a2c898a6, 0x113f9804bef90dae, 0x1b710b35131c471b,
   0x28db77f523047d84, 0x32caab7b40c72493, 0x3c9ebe0a15c9bebc, 0x431d67c49c100d4c,
   0x4cc5d4becb3e42b6, 0x597f299cfc657e2a, 0x5fcb6fab3ad6faec, 0x6c44198c4a475817]

/-- The 80 round constants. -/
def shaKeys : List (BitVec 64) := shaKeys0 ++ shaKeys1 ++ shaKeys2 ++ shaKeys3 ++ shaKeys4

/-- The first hash value of SHA-384. -/
def shaInit : List (BitVec 64) :=
  [0xcbbb9d5dc1059ed8, 0x629a292a367cd507, 0x9159015a3070dd17, 0x152fecd8f70e5939,
   0x67332667ffc00b31, 0x8eb44a8768581511, 0xdb0c2e0d64f98fa7, 0x47b5481dbefa4fa4]

/-- One more word of the message schedule; the words so far, newest first. -/
def shaNextWord (ws : List (BitVec 64)) : List (BitVec 64) :=
  let a := ws.getD 1 0
  let b := ws.getD 14 0
  ((a.rotateRight 19 ^^^ a.rotateRight 61 ^^^ (a >>> 6)) + ws.getD 6 0 + (b.rotateRight 1 ^^^ b.rotateRight 8 ^^^ (b >>> 7)) + ws.getD 15 0) :: ws

/-- One round, with its constant and its word. -/
def shaRound (s : List (BitVec 64)) (kw : BitVec 64 × BitVec 64) : List (BitVec 64) :=
  match s with
  | [a, b, c, d, e, f, g, h] =>
    let t1 := h + (e.rotateRight 14 ^^^ e.rotateRight 18 ^^^ e.rotateRight 41) + ((e &&& f) ^^^ (~~~e &&& g)) + kw.1 + kw.2
    let t2 := (a.rotateRight 28 ^^^ a.rotateRight 34 ^^^ a.rotateRight 39) + ((a &&& b) ^^^ (a &&& c) ^^^ (b &&& c))
    [t1 + t2, a, b, c, d + t1, e, f, g]
  | _ => s

/-- A block of 128 bytes. -/
def shaBlock (s : List (BitVec 64)) (block : List Byte) : List (BitVec 64) :=
  let first := (List.range 16).map (fun i => BitVec.ofNat 64 (bytesNat (((block.drop (8 * i)).take 8).map (·.toNat))))
  let ws := ((List.range 64).foldl (fun ws _ => shaNextWord ws) first.reverse).reverse
  List.zipWith (· + ·) s ((shaKeys.zip ws).foldl shaRound s)

/-- Whole blocks, one after the other. The fuel is their number. -/
def shaBlocks : Nat → List (BitVec 64) → List Byte → List (BitVec 64)
  | 0, s, _ => s
  | n + 1, s, l => shaBlocks n (shaBlock s (l.take 128)) (l.drop 128)

/-- SHA-384 of some bytes. -/
def sha384 (bs : List Byte) : List Byte :=
  let n := (bs.length + 17 + 127) / 128
  let padded := bs ++ [0x80] ++ List.replicate (128 * n - bs.length - 17) 0 ++ (natBytes 16 (8 * bs.length)).map (BitVec.ofNat 8)
  (((shaBlocks n shaInit padded).take 6).map (fun w => (natBytes 8 w.toNat).map (BitVec.ofNat 8))).flatten

/-! ### ECDSA on P-384 -/

def p384 : Nat := 2 ^ 384 - 2 ^ 128 - 2 ^ 96 + 2 ^ 32 - 1
def p384Order : Nat := 0xffffffffffffffffffffffffffffffffffffffffffffffffc7634d81f4372ddf581a0db248b0a77aecec196accc52973
def p384B : Nat := 0xb3312fa7e23ee7e4988e056be3f82d19181d9c6efe8141120314088f5013875ac656398d8a2ed19d2a85c8edd3ec2aef
def p384X : Nat := 0xaa87ca22be8b05378eb1c71ef320ad746e1d3b628ba79b9859f741e082542a385502f25dbf55296c3a545e3872760ab7
def p384Y : Nat := 0x3617de4a96262c6f5d9e98bf9292dc29f8f41dbd289a147ce9da3113b5f0b8c00a60b1ce1d7e819d7a431d7c90ea0e5f

/-- The inverse modulo a prime of 384 bits: a to the power p − 2. -/
def modInv (p a : Nat) : Nat :=
  ((List.range 384).foldl (fun (acc : Nat × Nat) i =>
    (if (p - 2) / 2 ^ i % 2 = 1 then acc.1 * acc.2 % p else acc.1, acc.2 * acc.2 % p)) (1, a % p)).1

/-- The sum of two points; none is the point at infinity. -/
def curveAdd : Option (Nat × Nat) → Option (Nat × Nat) → Option (Nat × Nat)
  | none, q => q
  | p, none => p
  | some (x, y), some (u, v) =>
    if x = u ∧ (y + v) % p384 = 0 then none
    else
      let m := if x = u then (3 * x * x + p384 - 3) * modInv p384 (2 * y) % p384
        else (v + p384 - y) * modInv p384 (u + p384 - x) % p384
      let w := (m * m + 2 * p384 - x - u) % p384
      some (w, (m * (x + p384 - w) + p384 - y) % p384)

/-- A point taken k times. -/
def curveMul (k : Nat) (q : Option (Nat × Nat)) : Option (Nat × Nat) :=
  ((List.range 384).foldl (fun (acc : Option (Nat × Nat) × Option (Nat × Nat)) i =>
    (if k / 2 ^ i % 2 = 1 then curveAdd acc.1 acc.2 else acc.1, curveAdd acc.2 acc.2)) (none, q)).1

/-- The signature r‖s of a message verifies under an uncompressed SEC1 public key (R398). -/
def signatureOk (key message sig : List Byte) : Bool :=
  let num (l : List Byte) : Nat := bytesNat (l.map (·.toNat))
  let x := num ((key.drop 1).take 48)
  let y := num ((key.drop 49).take 48)
  let r := num (sig.take 48)
  let s := num ((sig.drop 48).take 48)
  let w := modInv p384Order s
  let e := num (sha384 message)
  if key.head? ≠ some 4 ∨ p384 ≤ x ∨ p384 ≤ y ∨ (y * y) % p384 ≠ (x * x * x + p384 * x - 3 * x + p384B) % p384 then false
  else if r = 0 ∨ s = 0 ∨ p384Order ≤ r ∨ p384Order ≤ s then false
  else match curveAdd (curveMul (e * w % p384Order) (some (p384X, p384Y))) (curveMul (r * w % p384Order) (some (x, y))) with
    | none => false
    | some (u, _) => u % p384Order == r

end Sys2Proof.Machine
end

