-- ==== Sys2Proof/Machine/CommitLog.lean ====
section
/-!
DEFINITION. Machine/CommitLog.lean: the end of a commit: its entry in the result log, its counts, its poster's RESULT and
event (R77, R78, spec/04).
-/

namespace Sys2Proof.Machine

def outPending : Nat := 0
def outApplied : Nat := 1
def outLate : Nat := 2
def outStepped : Nat := 3
def outStale : Nat := 4
def outStaleStep : Nat := 5
def outFrame : Nat := 6
def outRefused : Nat := 7
def outUnpowered : Nat := 8
def outCancelled : Nat := 9
def outFull : Nat := 10
def outCapture : Nat := 11
def outFar : Nat := 12
def outRights : Nat := 13
def outEmpty : Nat := 14

/-- The outcomes under which every captured word has applied (R77). -/
def outApplies (o : Nat) : Bool := o == outApplied || o == outLate || o == outStepped

/-- The master ID of post block p: functions 0–31, then control cores 0–3 (R79). -/
def posterMaster (p : Nat) : Master := if p < 32 then p else 0x64 + (p - 32)

/-- Slots in use in the unit of commit bit b (R69). -/
def slotsUsed (d : Dev) (b : Nat) : Nat := (d.commits.filter (fun c => bitOf c.units b)).length

/-- TCM_PEND0 and TCM_PEND1 after the pending commits changed (R79). -/
def syncPend (d : Dev) : Dev :=
  wrn (wrn d TCM_PEND0 ((List.range 8).foldl (fun n b => n + slotsUsed d b * 16 ^ b) 0)) TCM_PEND1 (slotsUsed d 8)

/-- Raise a commit event to the poster: to its function, or to firmware on its core (R78). -/
def raisePoster (d : Dev) (p b : Nat) : Dev :=
  if p < 32 then raiseFn d p b else emit d (.coreEvent (posterMaster p) b)

/-- Record a final outcome: log entry, counts, RESULT and the event to the poster. unitBit is 15 where no unit is named
(R78). -/
def recordOutcome (d : Dev) (id poster units outcome unitBit : Nat) (notify : Bool) : Dev :=
  let seq := rdn d TCM_LOG_SEQ
  let entry : CommitEntry :=
    { id := id, poster := posterMaster poster, outcome := outcome, unitBit := unitBit, units := units,
      sec := d.clock.sec.toNat % 0x100000000, ns := d.clock.ns.val }
  let d := { d with commitLog := sput ⟨0, 0, 0, 0, 0, 0, 0⟩ d.commitLog (seq % 64) entry }
  let d := wrn d TCM_LOG_SEQ (seq + 1)
  let d := whenD (outApplies outcome) (fun d => count d TCM_CNT_APPLIED) d
  let d := whenD (outcome == outLate) (fun d => count d TCM_CNT_LATE) d
  let d := whenD (!outApplies outcome && outcome != outCancelled) (fun d => count d TCM_CNT_REJECTED) d
  let d := whenD (fld d (TCM_POST_RESULT_ID poster) == id) (fun d => setFld d (TCM_POST_RESULT_OUTCOME poster) outcome) d
  if outApplies outcome then whenD notify (fun d => raisePoster d poster evCommitDone) d
  else raisePoster d poster evCommitFail

/-- A pending commit ends: its slots are freed in every named unit and its outcome is recorded. -/
def finishCommit (d : Dev) (c : Commit) (outcome unitBit : Nat) : Dev :=
  let d := syncPend { d with commits := d.commits.filter (fun e => e.id != c.id) }
  recordOutcome d c.id c.poster c.units outcome unitBit c.notify

end Sys2Proof.Machine
end

