-- ==== Sys2Proof/Machine/Wake.lean ====
section
/-!
DEFINITION. Machine/Wake.lean: wake sources and the AVSBus requests they start (R368, R370 to R373, spec/20). The sequences
themselves are in Machine/Power.lean.
-/

namespace Sys2Proof.Machine

def wakeI2c : Nat := 0
def wakeLineSrc : Nat := 1
def wakeTse : Nat := 2
def wakeTev : Nat := 3
def wakeKst : Nat := 4
def wakePin : Nat := 5
def wakeUsb : Nat := 6
def wakeTimed : Nat := 7

def pwrFull : Nat := 0
def pwrTrim : Nat := 1
def pwrHush : Nat := 2
def pwrKeep : Nat := 3

/-- Log 122: DEDUCED, unsafe. -/
def pwrState (d : Dev) : Nat := fld d PWR_STATUS_STATE

/-- The device is in Hush or Keep. -/
def sleeping (d : Dev) : Bool := decide (2 ≤ pwrState d)

def setPwr (d : Dev) (f : PwrHw → PwrHw) : Dev := { d with pwr := f d.pwr }

def setPhase (d : Dev) (p : PwrPhase) : Dev := setPwr d (fun h => { h with phase := p, since := d.elapsed })

/-- A voltage is requested of the core regulator (R368); it is not VOLT_SAFE (R375). -/
def avsRequest (d : Dev) (mv : Nat) : Dev := setFlag (emit d (.avs (fld d PWR_AVS_CFG_RAIL) mv)) PWR_STATUS_SAFE false

/-- VOLT_SAFE is written once, without waiting (R374). -/
def avsSafe (d : Dev) : Dev :=
  setFlag (emit d (.avs (fld d PWR_AVS_CFG_RAIL) (fld d PWR_VOLT_VOLT_SAFE))) PWR_STATUS_SAFE true

/-- An entry to Hush or Keep is in progress. -/
def entering (d : Dev) : Bool :=
  match d.pwr.phase with
  | .asking _ => true
  | .off _ => true
  | .entryAvs => true
  | _ => false

/-- The unit of a step of R363 has granted, and the entry goes on or has ended asleep. -/
def pwrStopped (d : Dev) (step : Nat) : Bool :=
  match d.pwr.phase with
  | .asking k => decide (step < k)
  | .off _ => true
  | .entryAvs => true
  | _ => sleeping d

/-- A wake begins (R370, R372, R373): its sources are latched and the regulator is asked. A wake to RUN from Hush is refused while
domain 54 has failed (R374). -/
def beginWake (d : Dev) (sources target : Nat) : Dev :=
  let hush := pwrState d == pwrHush
  if hush && target == 0 && regBit d PWR_DOM_FAIL_HI 22 then count d PWR_WAKE_REFUSED
  else
    let d := setFlag (wrn d PWR_WAKE_SRC sources) PWR_STATUS_TRANS true
    let d := setPwr d (fun h => { h with tries := 0, wakeTarget := target, switched := [] })
    if hush then avsRequest (setPhase d .wakeAvs) (fld d PWR_VOLT_VOLT_FULL)
    else avsRequest (setPhase d .keepAvs) (fld d PWR_VOLT_VOLT_LOW)

/-- A wake source with bit b and, for a commit, its target arrives (R370, R371): it counts while the device enters sleep, sleeps or
wakes. (log 133: DEDUCED, unsafe) -/
def wakeArrives (d : Dev) (b target : Nat) : Dev :=
  if d.pwr.thermal || !regBit d PWR_WAKE_EN b then d
  else if entering d then
    setFlag (setPwr d (fun h => { h with pend := h.pend ||| 2 ^ b, pendTarget := if b = wakeTimed then target else h.pendTarget }))
      PWR_STATUS_WAKE_PEND true
  else if sleeping d then
    if d.pwr.phase = .idle then beginWake d (2 ^ b) (if b = wakeTimed then target else 0)
    else setRegBit d PWR_WAKE_SRC b true
  else d

end Sys2Proof.Machine
end

