-- ==== Sys2Proof/Machine/Keystone.lean ====
section
/-!
DEFINITION. Machine/Keystone.lean: the time engine (spec/03): the tick, the domains, the servo, holdover, steps and the
references. Phases are whole numbers of 2^-48 ns; c and i are whole numbers of 2^-64; pi is the fraction below.
-/

namespace Sys2Proof.Machine

/-! ### Frequency word (R41) and slewer (R55) -/

/-- The applied base word, 54 bits. -/
def baseWord (d : Dev) : Nat := (rdA d KST_FREQ_BASE_LO).toNat + 0x100000000 * (fldA d KST_FREQ_BASE_HI_WORD)

/-- FREQ_BASE × (1 + c), to the nearest unit. -/
def correctedWord (d : Dev) (c : Int) : Int := nearest ((baseWord d : Int) * (0x10000000000000000 + c)) 0x10000000000000000

/-- FREQ_BASE × (1 + c) + s × 40 ns, the result to the nearest unit (R41); s × 40 ns is given in billionths of a unit. -/
def servoWord (d : Dev) (c s : Int) : Int :=
  nearest ((baseWord d : Int) * (0x10000000000000000 + c) * 1000000000 + s * 0x10000000000000000) (0x10000000000000000 * 1000000000)

/-- SLEW_LIM × 10^-9 × 40 ns, in billionths of a unit (R55). -/
def slewLimit (d : Dev) : Nat := fldA d KST_SLEW_CFG_SLEW_LIM * 40 * unitsPerNs

/-- s × 40 ns of this tick: the limit toward the domain, and in the last tick the remainder (R55). -/
def slewRate (d : Dev) : Int := clampInt (-(slewLimit d : Int)) (slewLimit d) (d.kst.b * 1000000000)

/-- What the slewer adds to this tick's word. -/
def slewStep (d : Dev) : Int := servoWord d d.kst.c (slewRate d) - correctedWord d d.kst.c

/-- The frequency word that applies in this tick (R41). -/
def appliedWord (d : Dev) : Nat := Int.toNat (servoWord d d.kst.c (slewRate d))

/-! ### Domains (R48 to R50) -/

def domIdle : Nat := 0
def domQualify : Nat := 1
def domGood : Nat := 2
def domSuspect : Nat := 3
def domLost : Nat := 4

def servoFree : Nat := 0
def servoTrack : Nat := 1
def servoHoldover : Nat := 2

def domState (d : Dev) (x : Line) : Nat := fld d (KST_DOM_x_STATUS_STATE x.ix)
def servo (d : Dev) : Nat := fld d KST_STATUS_SERVO_STATE
def selDom (d : Dev) : Line := Line.ofIx (fld d KST_STATUS_SEL_DOM)

def setDomain (d : Dev) (x : Line) (f : Domain → Domain) : Dev :=
  { d with kst := { d.kst with dom := d.kst.dom.set x (f (d.kst.dom.get x)) } }

/-- Nanoseconds as units of 2^-48 ns. -/
def nsUnits (n : Nat) : Int := (n : Int) * 0x1000000000000

/-- The phase the servo's proportional path, the slewer and the steps have added to device time so far (R49). -/
def phaseNow (d : Dev) : Int := d.kst.phase

/-- x_pred of a domain for an anchor taken when the added phase was p (R49). -/
def predicted (d : Dev) (x : Line) (p : Int) : Int :=
  (d.kst.dom.get x).xref - (p - (d.kst.dom.get x).xrefPhase)

/-- 256 ms, 384 ms and 128 ms in ticks (R48, R51, R54). -/
def ticks256ms : Nat := 6400000
def ticks384ms : Nat := 9600000
def ticks128ms : Nat := 3200000

/-- The test of agreement (R54): the domain is GOOD, its reference offset no older than 256 ms, and within AGREE_WIN of
the selected domain's prediction. -/
def agrees (d : Dev) (x : Line) (xPred : Int) : Bool :=
  domState d x == domGood
    && (match (d.kst.dom.get x).acceptedAt with
        | some t => decide (d.elapsed - t ≤ ticks256ms)
        | none => false)
    && decide ((((d.kst.dom.get x).xref - xPred).natAbs : Int) ≤ nsUnits (fldA d KST_AGREE_CFG_AGREE_WIN))

/-! ### Alarms (R65) -/

def alJump (x : Line) : Nat := x.ix
def alSuspect (x : Line) : Nat := 2 + x.ix
def alLost (x : Line) : Nat := 4 + x.ix
def alDomSwitch : Nat := 6
def alHoldEnter : Nat := 7
def alHoldExit : Nat := 8
def alHoldExitBlocked : Nat := 9
def alHoldAged : Nat := 10
def alStep : Nat := 11
def alFreqClamp : Nat := 12
def alRefFail : Nat := 13
def alRefStop : Nat := 14
def alTdcCalFail : Nat := 15
def alCmdRejected : Nat := 16

/-- An alarm is raised, and wakes the device where KST_WAKE_EN lets it (R65, R370). -/
def raiseKst (d : Dev) (b : Nat) : Dev :=
  let d := raiseEvt d evKST b
  if regBit d KST_WAKE_EN b then wakeArrives d wakeKst 0 else d

/-! ### Steps of device time (R59, R61) -/

def causeAcquisition : Nat := 0
def causeHoldExit : Nat := 1
def causeHostStep : Nat := 2

/-- A device-time commit whose time lies after t0 and not after t1. -/
def passesOver (t0 t1 : Nat) (c : Commit) : Bool :=
  match c.due with
  | .time t => decide (t0 < t) && decide (t ≤ t1) && !c.late
  | .frame _ _ => false

/-- A device-time commit that is due at t0, and that a step back to t1 does not take out of its tick (R75). -/
def fallsBack (t0 t1 : Nat) (c : Commit) : Bool :=
  match c.due with
  | .time t => decide (t1 < t) && decide (t ≤ t0) && !c.late
  | .frame _ _ => false

/-- What a step of x units does to the pending commits (R61): a forward step of at most 1 s makes those it passes over due in
its tick; a longer one rejects them as stale. A backward step leaves those that are due in its tick due. -/
def stepCommits (d : Dev) (x : Int) (t0 t1 : Nat) : Dev :=
  if x ≤ 0 then { d with commits := d.commits.map (fun c => if fallsBack t0 t1 c then { c with fallen := true } else c) }
  else if x ≤ nsUnits nsPerSec then
    { d with commits := d.commits.map (fun c => if passesOver t0 t1 c then { c with stepped := true } else c) }
  else forEach (d.commits.filter (passesOver t0 t1)) (fun d c => finishCommit d c outStaleStep 15) d

/-- A one-shot instant that a forward step passes over is not driven (R311). -/
def toutsPassed (d : Dev) (t0 t1 : Nat) : Dev :=
  forEach (List.range 8) (fun d o =>
    let start := (fldA d (TTD_TOUTo_START_HI_VALUE o) * 0x100000000 + (rdA d (TTD_TOUTo_START_LO o)).toNat) * nsPerSec
      + fldA d (TTD_TOUTo_START_NS_NS o)
    if fldA d (TTD_TOUTo_CFG_MODE o) = 3 ∧ flag d (TTD_TOUTo_STATUS_RUNNING o) ∧ !(sget ToutHw.reset d.ttd.touts o).fired
        ∧ t0 < start ∧ start ≤ t1 then
      raiseEvt (setFlag (setFlag d (TTD_TOUTo_STATUS_RUNNING o) false) (TTD_TOUTo_STATUS_MISSED o) true) evTTD 5
    else d) d

/-! ### Second boundaries (R7) -/

def secDsf (x : Line) : Nat := x.ix
def secTelemetry : Nat := 2
def secHealth : Nat := 3
def secSummary : Nat := 4
def secExchange : Nat := 5

/-- What is done at the boundary that device time has just reached: the TDCs exchange at every tenth (R46). (log 197: DESIGN CHOICE, unsafe) -/
def secUnits (d : Dev) (s0 : Nat) : List Nat :=
  [0, 1, secTelemetry, secHealth, secSummary] ++ (if s0 / 10 = d.clock.sec.toNat / 10 then [] else [secExchange])

/-- Device time has left second s0 forward: the boundary waits for what is done at it. What a step passed over keeps the second in
which the step began (R124). -/
def markSecond (d : Dev) (s0 : Nat) (stepped : Bool) : Dev :=
  let mark (m : SecMark) : SecMark :=
    if m.stepped || (stepped && m != SecMark.none) then { m with stepped := true } else { ended := s0 + 1, stepped := stepped }
  { d with secDue := (secUnits d s0).foldl (fun l k => sput SecMark.none l k (mark (sget SecMark.none l k))) d.secDue }

/-- The boundary that waits for unit k, with the second that ended at it. -/
def secMark (d : Dev) (k : Nat) : Option (Nat × Bool) :=
  match (sget SecMark.none d.secDue k).ended with
  | 0 => none
  | s + 1 => some (s, (sget SecMark.none d.secDue k).stepped)

/-- What is done at the boundary has been done in unit k. -/
def clearMark (d : Dev) (k : Nat) : Dev := { d with secDue := sput SecMark.none d.secDue k SecMark.none }

/-- Device time steps by x units of 2^-48 ns within one tick: the step is recorded with its magnitude, sign and cause,
STEP is raised, the pending commits are handled (R59, R61), and a forward step across a second boundary is marked for the
units that latch there (R124, R417). -/
def stepTime (d : Dev) (x : Int) (cause : Nat) : Dev :=
  let t0 := now d
  let s0 := d.clock.sec.toNat
  let d := { d with
    clock := d.clock.move x
    kst := { d.kst with phase := d.kst.phase + x, steps := d.kst.steps + 1, stepTick := some d.elapsed } }
  let mag := (nearest (x.natAbs : Int) unitsPerNs).toNat
  let d := wrn d KST_LAST_STEP_SEC (mag / nsPerSec)
  let d := wrn d KST_LAST_STEP_INFO (boolBit (decide (x < 0)) * 0x80000000 + cause * 0x20000000)
  let d := wrn d KST_LAST_STEP_NS (mag % nsPerSec)
  let d := raiseKst d alStep
  let d := if s0 < d.clock.sec.toNat then markSecond d s0 true else d
  let host := d.host
  let d := { d with host := { host with
    bwStep := if host.bwStep.isNone && decide (host.bwEnd ≤ now d) then some host.bwEnd else host.bwStep
    bwEnd := windowEnd host.bwWin (now d) } }
  stepCommits (toutsPassed d t0 (now d)) x t0 (now d)

/-! ### Slewing and switching (R55) -/

/-- Load the slewer; SLEWING shows while its residual is not 0. -/
def loadSlewer (d : Dev) (b : Int) : Dev :=
  setFlag { d with kst := { d.kst with b := b } } KST_STATUS_SLEWING (decide (b ≠ 0))

/-- A seamless switch to x (R55): the slewer takes x_ref(new) − x_pred(old), so the servo's residual does not change. -/
def seamlessSwitch (d : Dev) (x : Line) (xPred : Int) : Dev :=
  let b := (d.kst.dom.get x).xref - xPred
  let d := setFld (loadSlewer d b) KST_STATUS_SEL_DOM x.ix
  raiseKst (setFlag d KST_STATUS_SWITCHING (decide (b ≠ 0))) alDomSwitch

/-! ### Holdover (R57, R58) -/

def intSum (l : List Int) : Int := l.foldl (· + ·) 0

/-- The UTC offset and the flags last held, kept when TRACK is left (R301, R304). -/
def holdUtc (d : Dev) : Dev :=
  if servo d == servoTrack then
    let a := d.anchorSet.get (selDom d)
    { d with ttd := { d.ttd with utc := a.utc.toNat, flags := a.flags.toNat } }
  else d

/-- LIM_PPM in units of 2^-64, rounded toward the inside of the range. -/
def ppmLimit (d : Dev) : Int := (((fldA d KST_FREQ_LIM_LIM_PPM) * 0x10000000000000000 / 1000000 : Nat) : Int)

/-- i as KST_INTEG shows it: units of 2^-8 ppb. -/
def integWord (i : Int) : Nat := ofSigned 32 (nearest (i * 256000000000) 0x10000000000000000)

/-- The correction and the integral take values, clamped to ±LIM_PPM; a clamp that takes effect raises FREQ_CLAMP (R41, R51). -/
def setServo (d : Dev) (c i : Int) : Dev :=
  let lim := ppmLimit d
  let i' := clampInt (-lim) lim i
  let c' := clampInt (-lim) lim c
  let d := wrn { d with kst := { d.kst with c := c', i := i' } } KST_INTEG (integWord i')
  whenD (decide (i' ≠ i) || decide (c' ≠ c)) (fun d => raiseKst d alFreqClamp) d

/-- Enter HOLDOVER (R57). -/
def enterHoldover (d : Dev) : Dev :=
  let d := holdUtc d
  let d := setServo d (if d.kst.iHist.isEmpty then d.kst.c else nearest (intSum d.kst.iHist) d.kst.iHist.length) d.kst.i
  let d := { d with kst := { d.kst with
    holdFrom := some d.elapsed, holdAged := false
    dom := ⟨{ d.kst.dom.a with candidate := false, blocked := false },
            { d.kst.dom.b with candidate := false, blocked := false }⟩ } }
  let d := dropTimer d .prop
  let d := setFld (wrn d KST_HOLD_SEC 0) KST_STATUS_SERVO_STATE servoHoldover
  raiseKst d alHoldEnter

/-- Leave HOLDOVER to x with residual b (R58). -/
def leaveHoldover (d : Dev) (x : Line) (b : Int) : Dev :=
  let d := { d with kst := { d.kst with
    exitDom := none, forced := false, holdFrom := none
    dom := ⟨{ d.kst.dom.a with candidate := false, blocked := false },
            { d.kst.dom.b with candidate := false, blocked := false }⟩ } }
  let d := setFld (setFld d KST_STATUS_SERVO_STATE servoTrack) KST_STATUS_SEL_DOM x.ix
  raiseKst (loadSlewer d b) alHoldExit

/-- x is a candidate for the exit from holdover (R58). -/
def isCandidate (d : Dev) (x : Line) : Bool :=
  (d.kst.dom.get x).candidate
    && (match d.kst.exitDom with
        | some e => decide (e = x)
        | none => !d.kst.forced)

/-- Test a candidate (R58): slew, step, or stay and raise HOLD_EXIT_BLOCKED once for the candidacy. (log 15: DEDUCED, unsafe) -/
def testCandidate (d : Dev) (x : Line) : Dev :=
  if servo d == servoHoldover && isCandidate d x && domState d x == domGood then
    let r := (d.kst.dom.get x).xref
    if (r.natAbs : Int) ≤ nsUnits (fldA d KST_HOLD_CFG_HOLD_SLEW_LIM) then leaveHoldover d x r
    else if flag d KST_CTL_AUTO_STEP then leaveHoldover (stepTime d r causeHoldExit) x 0
    else if (d.kst.dom.get x).blocked then d
    else raiseKst (setDomain d x (fun m => { m with blocked := true })) alHoldExitBlocked
  else d

/-- x becomes a candidate anew and is tested at once (R58); so does a domain that a command names while it is a blocked candidate.
(log 195: DESIGN CHOICE, safe) -/
def nominate (d : Dev) (x : Line) : Dev :=
  testCandidate (setDomain d x (fun m => { m with candidate := true, blocked := false })) x

/-! ### Initial acquisition (R60) -/

/-- In FREE, take x if it is GOOD and acquisition may take it: device time steps by its reference offset and the servo
enters TRACK with i and b at 0 (R60). -/
def acquire (d : Dev) (x : Line) : Dev :=
  if servo d == servoFree && domState d x == domGood && !d.kst.suspended
      && (match d.kst.acqDom with
          | some a => decide (a = x)
          | none => true) then
    let d := setFld d KST_STATUS_SEL_DOM x.ix
    let d := stepTime d (d.kst.dom.get x).xref causeAcquisition
    let d := { d with kst := { d.kst with i := 0, iHist := [], acqDom := none } }
    loadSlewer (setFld (wrn d KST_INTEG 0) KST_STATUS_SERVO_STATE servoTrack) 0
  else d

/-! ### Changes of domain state -/

/-- A domain leaves GOOD (R53, R54): it ceases to be a candidate, and where it was the selected domain of a tracking servo
Keystone switches seamlessly to the other one if it agrees, else enters HOLDOVER. p is the added phase for which the
prediction is formed. -/
def domainLeftGood (d : Dev) (x : Line) (p : Int) : Dev :=
  let xPred := predicted d x p
  let d := setDomain d x (fun m => { m with candidate := false, blocked := false })
  if servo d == servoTrack && selDom d == x then
    if flag d KST_CTL_AUTO_SWITCH && agrees d x.other xPred then seamlessSwitch d x.other xPred else enterHoldover d
  else d

/-- A domain takes a new state; leaving GOOD has its consequences. -/
def changeDomain (d : Dev) (x : Line) (st : Nat) (p : Int) : Dev :=
  let was := domState d x
  let d := setFld d (KST_DOM_x_STATUS_STATE x.ix) st
  if was == domGood && st != domGood then domainLeftGood d x p else d

/-- The domain of x becomes IDLE (R48): its line leaves both Operate and Standby, or its receive group D0–D3 loses
power. -/
def domainIdle (d : Dev) (x : Line) : Dev :=
  let d := setFld (setFld d (KST_DOM_x_STATUS_QUAL_CNT x.ix) 0) (KST_DOM_x_STATUS_REFUSE_RUN x.ix) 0
  let d := dropTimer (setDomain d x (fun m => { m with waiting := none })) (.domain x)
  if domState d x == domIdle then d else changeDomain d x domIdle (phaseNow d)

/-- The domain of x becomes LOST from GOOD, SUSPECT or QUALIFY (R48). -/
def domainLost (d : Dev) (x : Line) : Dev :=
  let st := domState d x
  if st == domQualify || st == domGood || st == domSuspect then
    let d := setFld (setFld d (KST_DOM_x_STATUS_QUAL_CNT x.ix) 0) (KST_DOM_x_STATUS_REFUSE_RUN x.ix) 0
    let d := dropTimer (raiseKst d (alLost x)) (.domain x)
    changeDomain d x domLost (phaseNow d)
  else d

/-- A domain becomes GOOD with its last offset as reference (R50), and serves acquisition (R60) or becomes a candidate for
the exit from holdover (R58). The offset that makes it GOOD is no offset accepted in GOOD, and KST_DOM_x_ACCEPTED does not count it.
(log 194: DESIGN CHOICE, unsafe) -/
def domainGood (d : Dev) (x : Line) (o : Offset) : Dev :=
  let d := setDomain d x (fun m => { m with xref := o.x, xrefPhase := o.phase, acceptedAt := some d.elapsed })
  let d := wrn d (KST_DOM_x_OFS x.ix) (ofSigned 32 (nearest o.x 0x10000000000))
  let d := setFld (setFld d (KST_DOM_x_STATUS_AGE_MS x.ix) 0) (KST_DOM_x_STATUS_REFUSE_RUN x.ix) 0
  let d := setFld d (KST_DOM_x_STATUS_STATE x.ix) domGood
  if servo d == servoHoldover then nominate d x else acquire d x

/-! ### The servo (R51) -/

/-- pi as a whole number of 10^-30. -/
def piScaled : Int := 3141592653589793238462643383280

/-- ki × r in units of 2^-64 for a residual r in units of 2^-48 ns. (log 13: DESIGN CHOICE, unsafe) -/
def integralGain (d : Dev) (r : Int) : Int :=
  nearest (piScaled * piScaled * ((fldA d KST_SERVO_CFG_BW_MHZ : Nat) : Int) ^ 2 * 512 * r * 65536) (10 ^ 60 * 10 ^ 9 * 10 ^ 9)

/-- kp × r in units of 2^-64. -/
def proportionalGain (d : Dev) (r : Int) : Int :=
  nearest (piScaled * ((fldA d KST_SERVO_CFG_DAMP * fldA d KST_SERVO_CFG_BW_MHZ : Nat) : Int) * r * 65536)
    (10 ^ 30 * 64000 * 10 ^ 9)

/-- One accepted offset of the selected domain updates the integral and the correction; a clamp raises FREQ_CLAMP, and
the proportional term holds for 128 ms (R51). (log 14: DEDUCED, unsafe) -/
def servoUpdate (d : Dev) (x : Int) : Dev :=
  let r := x - d.kst.b
  let i := d.kst.i + integralGain d r
  let d := setServo d (proportionalGain d r + clampInt (-ppmLimit d) (ppmLimit d) i) i
  startTimer { d with kst := { d.kst with iHist := (d.kst.i :: d.kst.iHist).take 64 } } .prop ticks128ms

/-- An offset accepted in GOOD becomes the reference offset (R49), and feeds the servo where its domain is selected, or
tests a candidate (R51, R58). -/
def acceptOffset (d : Dev) (x : Line) (o : Offset) : Dev :=
  let d := setDomain d x (fun m => { m with xref := o.x, xrefPhase := o.phase, acceptedAt := some d.elapsed })
  let d := wrn d (KST_DOM_x_OFS x.ix) (ofSigned 32 (nearest o.x 0x10000000000))
  let d := setFld (setFld d (KST_DOM_x_STATUS_AGE_MS x.ix) 0) (KST_DOM_x_STATUS_REFUSE_RUN x.ix) 0
  let d := count d (KST_DOM_x_ACCEPTED x.ix)
  if servo d == servoTrack && selDom d == x then servoUpdate d o.x else testCandidate d x

/-- An offset refused in GOOD (R49): counted, JUMP raised, and the third in a row makes the domain SUSPECT. -/
def refuseOffset (d : Dev) (x : Line) (o : Offset) : Dev :=
  let d := raiseKst (count d (KST_DOM_x_REFUSED x.ix)) (alJump x)
  let d := countFld d (KST_DOM_x_STATUS_REFUSE_RUN x.ix)
  if fld d (KST_DOM_x_STATUS_REFUSE_RUN x.ix) == 3 then
    let d := raiseKst (setFld d (KST_DOM_x_STATUS_QUAL_CNT x.ix) 0) (alSuspect x)
    let d := setDomain d x (fun m => { m with lastX := o.x, lastPhase := o.phase })
    changeDomain d x domSuspect o.phase
  else d

/-- An offset in QUALIFY or SUSPECT (R50): consistent with the previous offset of its run, or the first of a new run. -/
def qualifyOffset (d : Dev) (x : Line) (o : Offset) : Dev :=
  let m := d.kst.dom.get x
  let cnt := fld d (KST_DOM_x_STATUS_QUAL_CNT x.ix)
  let pred := m.lastX - (o.phase - m.lastPhase)
  let ok := cnt != 0 && decide (((o.x - pred).natAbs : Int) ≤ nsUnits (fldA d KST_JUMP_CFG_JUMP_THR))
  let cnt' := if ok then cnt + 1 else 1
  let d := setFld d (KST_DOM_x_STATUS_QUAL_CNT x.ix) cnt'
  let d := setDomain d x (fun m => { m with lastX := o.x, lastPhase := o.phase })
  if fldA d KST_JUMP_CFG_QUALIFY_N ≤ cnt' then domainGood d x o else d

/-- Keystone takes the offset that TTD delivered for the domain of x (R49, R50). -/
def evalOffset (x : Line) (d : Dev) : Dev :=
  match (d.kst.dom.get x).waiting with
  | none => d
  | some o =>
    let d := setDomain d x (fun m => { m with waiting := none, lastAt := some d.elapsed })
    let d := startTimer d (.domain x) ticks384ms
    let st := domState d x
    if st == domGood then
      if ((o.x - predicted d x o.phase).natAbs : Int) ≤ nsUnits (fldA d KST_JUMP_CFG_JUMP_THR) then acceptOffset d x o
      else refuseOffset d x o
    else if st == domQualify || st == domSuspect then qualifyOffset d x o
    else
      let d := setFld (setFld d (KST_DOM_x_STATUS_STATE x.ix) domQualify) (KST_DOM_x_STATUS_QUAL_CNT x.ix) 0
      qualifyOffset d x o

/-- OFFSET_EVAL: where an offset of the other domain waits too, both are of one tick, and PREF_DOM is taken first (R58, R60).
(log 188: DEDUCED, unsafe) -/
def offsetEval (x : Line) (d : Dev) : Dev :=
  if (d.kst.dom.get x).waiting = none then d
  else if (d.kst.dom.get x.other).waiting = none ∨ fld d KST_CTL_PREF_DOM = x.ix then evalOffset x d
  else evalOffset x (evalOffset x.other d)

/-- TTD delivers an offset for the domain of x (R47). -/
def deliverOffset (d : Dev) (x : Line) (o : Offset) : Dev := setDomain d x (fun m => { m with waiting := some o })

/-! ### Stamps (R44, R45) -/

/-- TDC t is armed (R45). -/
def tdcArmed (d : Dev) (t : Nat) : Bool :=
  if t < 64 then flag d (KST_TDC_CAL_ARMED t)
  else if t < 68 then flag d (TTD_TEVe_CFG_EN (t - 64))
  else if t < 70 then domainOn d (18 + 4 * (t - 68))
  else true

/-- A stamp by TDC t of an edge that lies n bins after the last tick; an idle TDC gives the coarse stamp of that tick. -/
def stampOf (d : Dev) (t n : Nat) : Stamp :=
  if tdcArmed d t then
    let word := rdPair d KST_FREQ_LO KST_FREQ_HI
    let span := fld d (KST_TDC_CAL_SPAN t)
    Stamp.ofUnits16 (nearest ((d.clock.units * span + n * word : Nat) : Int) (span * 0x100000000)).toNat false
  else Stamp.ofUnits16 (nearest (d.clock.units : Int) 0x100000000).toNat true

/-! ### The commands -/

/-- The ratio f(REF25B)/f(REF25) as a whole number of 2^-8 ppb: 2^8 × 10^9 at equal frequencies (R62). -/
def refRatio (d : Dev) : Nat := Int.toNat (256000000000 + toSigned 32 (rdn d KST_REF_RATIO))

/-- One period of REF25, in the units in which its healthy time is held. -/
def refPeriod : Nat := 0x10000000000

/-- How long a tick is, in those units: the tick is a period of the selected reference (R467). -/
def tickPeriod (d : Dev) : Nat :=
  if flag d KST_STATUS_REF_SEL then (nearest ((refPeriod * 256000000000 : Nat) : Int) (refRatio d)).toNat else refPeriod

/-- Ages and seconds that Keystone shows, brought up to this tick (R48, R57, R467). -/
def keystoneAges (d : Dev) : Dev :=
  let age (d : Dev) (x : Line) : Dev :=
    match (d.kst.dom.get x).acceptedAt with
    | some t => setFld d (KST_DOM_x_STATUS_AGE_MS x.ix) (min ((d.elapsed - t) / ticksPerMs) 0xFFFF)
    | none => d
  let d := age (age d .a) .b
  let d := match d.kst.holdFrom with
    | some t => wrn d KST_HOLD_SEC (min ((d.elapsed - t) / ticksPerSec) 0xFFFFFFFF)
    | none => d
  match d.kst.refGood with
  | some t => setFld d KST_REF_STATUS_REF25_GOOD_SEC (min (t / (ticksPerSec * refPeriod)) 0xFFFF)
  | none => d

/-- The snapshot registers take device time (R42). -/
def takeCapture (d : Dev) : Dev :=
  let d := wrn d KST_SNAP_SEC_HI (d.clock.sec.toNat / 0x100000000)
  let d := wrn (wrn d KST_SNAP_SEC_LO d.clock.sec.toNat) KST_SNAP_NS d.clock.ns.val
  { wrn d KST_SNAP_FRAC d.clock.frac16 with kst := { d.kst with capture := false } }

/-- One period of the selected reference (R40, R49, R55): device time takes the applied word; the slewer's residual and the added
phase follow. The proportional path adds phase only in TRACK (R57). -/
def advance (d : Dev) : Dev :=
  let s := slewStep d
  let prop := if servo d == servoTrack then correctedWord d d.kst.c - correctedWord d d.kst.i else 0
  { d with
    clock := d.clock.tick (appliedWord d)
    elapsed := d.elapsed + 1
    kst := { d.kst with phase := d.kst.phase + prop + s, b := d.kst.b - s, refGood := d.kst.refGood.map (· + tickPeriod d) } }

/-- n periods. -/
def advanceBy : Nat → Dev → Dev
  | 0, d => d
  | n + 1, d => advanceBy n (advance d)

/-- Device time has left second s0, if it has. -/
def reachSecond (d : Dev) (s0 : Nat) : Dev := if s0 = d.clock.sec.toNat then d else markSecond d s0 false

/-- Keystone's part of a tick (R40 to R42): a period of the reference, and what it makes visible. -/
def keystoneTick (d : Dev) : Dev :=
  let w := appliedWord d
  let s0 := d.clock.sec.toNat
  let d := keystoneAges (wrPair (reachSecond (advance d) s0) KST_FREQ_LO KST_FREQ_HI w)
  if d.kst.capture then takeCapture d else d

/-- SLEW_DONE (R55): with the residual at 0, SWITCHING and SLEWING clear. -/
def slewDone (d : Dev) : Dev :=
  if d.kst.b = 0 then setFlag (setFlag d KST_STATUS_SWITCHING false) KST_STATUS_SLEWING false else d

/-- DOMAIN_TIMEOUT (R48): 384 ms have passed without an offset. -/
def domainTimeout (x : Line) (d : Dev) : Dev := if timerOver d (.domain x) then domainLost d x else d

/-- SERVO_PROP_EXPIRE (R51): after 128 ms the correction falls back to the integral term. -/
def servoPropExpire (d : Dev) : Dev :=
  if timerOver d .prop && servo d == servoTrack then
    dropTimer { d with kst := { d.kst with c := d.kst.i } } .prop
  else d

/-- HOLD_AGED (R57): raised once for a holdover whose seconds exceed HOLD_AGE_LIM. -/
def holdAged (d : Dev) : Dev :=
  if servo d == servoHoldover && !d.kst.holdAged && decide (fldA d KST_HOLD_AGE_HOLD_AGE_LIM < rdn d KST_HOLD_SEC) then
    raiseKst { d with kst := { d.kst with holdAged := true } } alHoldAged
  else d

/-- TDC_EXCHANGE (R46): at the second boundary every TDC judges the calibration count of its spare line; a count from 256
to 400 becomes the span and the spare goes live, any other keeps span and role, sets FAULT and raises TDC_CAL_FAIL.
(log 18: DESIGN CHOICE, safe) -/
def tdcExchange (counts : List Nat) (d : Dev) : Dev :=
  if secMark d secExchange = none then d
  else forEach (List.range 71) (fun d t =>
    let n := counts.getD t 0
    if 256 ≤ n ∧ n ≤ 400 then
      let d := setFld (setFlag d (KST_TDC_CAL_FAULT t) false) (KST_TDC_CAL_SPAN t) n
      setFlag d (KST_TDC_CAL_LIVE t) (!flag d (KST_TDC_CAL_LIVE t))
    else raiseKst (setFlag d (KST_TDC_CAL_FAULT t) true) alTdcCalFail) (clearMark d secExchange)

/-- FREQ_BASE, c and i scaled by the measured ratio, num / den (R62). (log 16: DEDUCED, unsafe) -/
def scaleBy (d : Dev) (num den : Nat) : Dev :=
  let b := (nearest ((baseWord d * num : Nat) : Int) den).toNat
  let d := wrA (wrA d KST_FREQ_BASE_LO (BitVec.ofNat 32 b)) KST_FREQ_BASE_HI (BitVec.ofNat 32 (b / 0x100000000))
  setServo d (nearest (d.kst.c * num) den) (nearest (d.kst.i * num) den)

/-- The phase of the REF25B edge after the REF25 edge, in units of 2^-48 ns at the applied word (R62). -/
def refPhaseUnits (d : Dev) : Int := nearest ((fld d KST_REF_PHASE_PHASE * appliedWord d : Nat) : Int) 40000

/-- REF_FAIL (R62): the always-on domain changes to REF25B; device time receives one word for every REF25B period that
elapsed since the last good REF25 edge, and the measured phase. -/
def refFail (periods : Nat) (d : Dev) : Dev :=
  if d.kst.refsRunning && !flag d KST_STATUS_REF_SEL then
    let gain := refPhaseUnits d
    let s0 := d.clock.sec.toNat
    let d := advanceBy periods (scaleBy d 256000000000 (refRatio d))
    let d := reachSecond { d with clock := d.clock.move gain, kst := { d.kst with refGood := none } } s0
    let d := setFld (setFlag d KST_STATUS_REF_SEL true) KST_STATUS_HOLD_QUAL 1
    let d := setFld (setFlag d KST_REF_STATUS_REF25_OK false) KST_REF_STATUS_REF25_GOOD_SEC 0
    raiseKst d alRefFail
  else d

/-- REF25B_FAIL (R63): REF25B fails while REF25 is selected. -/
def ref25bFail (d : Dev) : Dev :=
  if d.kst.refsRunning && !flag d KST_STATUS_REF_SEL then raiseKst (setFlag d KST_REF_STATUS_REF25B_OK false) alRefFail
  else d

/-- While device time is stopped every output is held idle (R310). -/
def toutsIdle (d : Dev) : Dev :=
  forEach (List.range 8) (fun d o =>
    match (sget ToutHw.reset d.ttd.touts o).pulse with
    | none => d
    | some _ =>
      let idle := fldA d (TTD_TOUTo_CFG_POL o) == 1
      let d := { d with ttd := { d.ttd with touts := sput ToutHw.reset d.ttd.touts o { sget ToutHw.reset d.ttd.touts o with pulse := none } } }
      emit (setFlag d (TTD_TOUTo_STATUS_LEVEL o) idle) (.tout o idle (now d * 1000))) d

/-- REF_STOP (R63): both references have failed; device time stops and the servo enters FREE. The acquisition domain and
the suspension are cleared (R60); the correction, the integral and the slewer's residual stand. (log 196: DESIGN CHOICE, unsafe) -/
def refStop (d : Dev) : Dev :=
  let d := toutsIdle d
  let d := { d with kst := { d.kst with
    refsRunning := false, acqDom := none, suspended := false, exitDom := none, forced := false
    iHist := [], refGood := none, holdFrom := none } }
  let d := setFld (setFld d KST_STATUS_SERVO_STATE servoFree) KST_STATUS_HOLD_QUAL 2
  let d := setFlag (setFlag d KST_REF_STATUS_REF25_OK false) KST_REF_STATUS_REF25B_OK false
  raiseKst (dropTimer (setFld d KST_REF_STATUS_REF25_GOOD_SEC 0) .prop) alRefStop

/-- A reference returns after a stop and is selected; acquisition restarts under R60 (R63) with the first domain that becomes GOOD.
HOLD_QUAL is NORMAL on REF25 and DEGRADED on REF25B, as after a failover. (log 17: DEDUCED, unsafe) -/
def refReturn (ref : RefClock) (d : Dev) : Dev :=
  if d.kst.refsRunning then d
  else
    let d := { d with kst := { d.kst with refsRunning := true } }
    let d := setFlag d KST_STATUS_REF_SEL (decide (ref = .ref25b))
    setFld d KST_STATUS_HOLD_QUAL (if ref = .ref25b then 1 else 0)

/-- COMPARISON_WINDOW_END (R467): the 1 ms window shows whether each reference is within its limits; the measured ratio
and phase take their registers (R62). -/
def comparisonWindowEnd (ok25 ok25b : Bool) (ratio : Word) (phase : Nat) (d : Dev) : Dev :=
  let d := wrn (wr d KST_REF_RATIO ratio) KST_REF_PHASE (phase % 40000)
  let was := flag d KST_REF_STATUS_REF25_OK
  let d := setFlag (setFlag d KST_REF_STATUS_REF25_OK ok25) KST_REF_STATUS_REF25B_OK ok25b
  if ok25 then
    if was then d else { d with kst := { d.kst with refGood := some 0 } }
  else setFld { d with kst := { d.kst with refGood := none } } KST_REF_STATUS_REF25_GOOD_SEC 0

/-! ### Keystone's part of a commit (R52, R56, R59, R63) -/

/-- The captured word of a register, if the commit carries it. -/
def carried (ws : List (Nat × Word)) (r : Reg) : Option Word := (ws.find? (fun e => e.1 == r.ofs)).map (·.2)

/-- The captured field, or 0 where the commit does not carry the register. -/
def carriedFld (ws : List (Nat × Word)) (f : Fld) : Nat :=
  match carried ws f.reg with
  | some w => getBits w f.hi f.lo
  | none => 0

/-- The domain command of a commit: 01b and 10b name a domain. -/
def selTarget (cmd : Nat) : Option Line := if cmd = 1 then some .a else if cmd = 2 then some .b else none

/-- Keystone refuses the commit (R56, R63): a select of a domain that is neither selected nor agreeing while the servo
tracks, or a revert while REF25 has not been healthy for 10 s. -/
def kstRefuses (d : Dev) (ws : List (Nat × Word)) : Bool :=
  (match selTarget (carriedFld ws KST_SEL_CMD_CMD) with
    | some x => servo d == servoTrack && selDom d != x && !agrees d x (predicted d (selDom d) (phaseNow d))
    | none => false)
  || (carriedFld ws KST_REF_CTL_REVERT == 1 && flag d KST_STATUS_REF_SEL
      && !(flag d KST_REF_STATUS_REF25_OK && decide (10 ≤ fld d KST_REF_STATUS_REF25_GOOD_SEC)))

/-- A domain command takes effect (R56). -/
def applySelect (d : Dev) (cmd : Nat) : Dev :=
  if cmd = 3 then
    if servo d == servoFree then { d with kst := { d.kst with acqDom := none, suspended := true } }
    else
      let d := if servo d == servoTrack then enterHoldover d else d
      { d with kst := { d.kst with exitDom := none, forced := true } }
  else match selTarget cmd with
    | none => d
    | some x =>
      if servo d == servoFree then
        acquire { d with kst := { d.kst with acqDom := some x, suspended := false } } x
      else if servo d == servoHoldover then
        let d := { d with kst := { d.kst with exitDom := some x } }
        if domState d x == domGood then nominate d x else d
      else if selDom d == x then d
      else seamlessSwitch d x (predicted d (selDom d) (phaseNow d))

/-- A revert to REF25 takes effect by the continuity rules of R62 (R63). -/
def applyRevert (d : Dev) : Dev :=
  if flag d KST_STATUS_REF_SEL then
    let d := scaleBy d (refRatio d) 256000000000
    let d := { d with clock := d.clock.move (- refPhaseUnits d) }
    setFld (setFlag d KST_STATUS_REF_SEL false) KST_STATUS_HOLD_QUAL 0
  else d

/-- A host step takes effect and ARM clears (R59). -/
def applyHostStep (d : Dev) (ws : List (Nat × Word)) : Dev :=
  if carriedFld ws KST_STEP_CTL_ARM == 1 then
    let mag := nsUnits ((rdA d KST_STEP_SEC).toNat * nsPerSec + fldA d KST_STEP_CTL_STEP_NS)
    let d := stepTime d (if fldA d KST_STEP_CTL_NEG == 1 then - mag else mag) causeHostStep
    setFldA d KST_STEP_CTL_ARM 0
  else d

/-- New servo settings keep i, clamped to the new limit, and FREQ_BASE keeps c and i (R52). -/
def applyServoCfg (d : Dev) (ws : List (Nat × Word)) : Dev :=
  if (carried ws KST_SERVO_CFG).isSome || (carried ws KST_FREQ_LIM).isSome then
    setServo d d.kst.c d.kst.i
  else d

/-- Keystone's captured words have become its applied words; their effects follow: the servo settings, the domain command, the revert,
the host step. (log 193: DESIGN CHOICE, unsafe) -/
def kstApply (d : Dev) (ws : List (Nat × Word)) : Dev :=
  let d := applyServoCfg d ws
  let d := applySelect d (carriedFld ws KST_SEL_CMD_CMD)
  let d := if carriedFld ws KST_REF_CTL_REVERT == 1 then applyRevert d else d
  applyHostStep d ws

end Sys2Proof.Machine
end

