-- ==== Sys2Proof/Machine/Commits.lean ====
section
/-!
DEFINITION. Machine/Commits.lean: posting, cancelling and timing out commits (R67 to R73, R76, spec/04). What a commit does
when it falls due is in Machine/CommitDue.lean.
-/

namespace Sys2Proof.Machine

/-- One second in ticks of elapsed time: how old a D0 FAW stamp may be (R70), how long a frame anchor waits (R73). -/
def frameWait : Nat := 25000000

/-- The line a frame anchor names (R79). -/
def anchorLine (anchor : Nat) : Line := if anchor = 1 then .a else .b

/-- Offsets of the dirty shadow words of the unit of commit bit b (R67). -/
def dirtyOf (d : Dev) (b : Nat) : List Nat :=
  let u := unitAt (commitUnit b)
  d.dirty.filter (fun o => decide (u.base ≤ o) && decide (o < u.base + 4096 * 2 ^ u.winLog))

/-- The commit bits set in a UNITS mask, lowest first (R68). -/
def unitBits (units : Nat) : List Nat := (List.range 9).filter (fun b => bitOf units b)

/-- The time the post block of p names, in ns (R79). -/
def postTime (d : Dev) (p : Nat) : Nat :=
  (rdn d (TCM_POST_TIME_LO p) + 0x100000000 * fld d (TCM_POST_TIME_HI_VALUE p)) * nsPerSec + fld d (TCM_POST_NS_NS p)

/-- The frame number the post block of p names (R79). -/
def postFrame (d : Dev) (p : Nat) : Nat := rdn d (TCM_POST_TIME_LO p) + 0x100000000 * fld d (TCM_POST_TIME_HI_VALUE p)

/-- The first ID from n on that no pending commit holds (R71). -/
def freeId (d : Dev) : Nat → Nat → Nat
  | 0, n => n % 65536
  | k + 1, n => if d.commits.any (fun c => c.id == n % 65536) then freeId d k (n + 1) else n % 65536

/-- The stamp of frame n that the line holds (R118). -/
def heldStamp (d : Dev) (x : Line) (n : Nat) : Option FawStamp := (d.fawStamps.get x).find? (fun s => s.frame == n)

/-- The first tick at or after a stamp made in tick k (R72): the tick itself where the edge fell together with it. -/
def tickAfter (t : Clock) (k : Nat) (s : Stamp) : Nat := if s.units16 * 0x100000000 ≤ t.units then k else k + 1

/-- Checks 3 to 5 of R70: the outcome on failure, or what the commit waits for and whether it is late. -/
def postDue (d : Dev) (p : Nat) : Except Nat (Due × Bool) :=
  let anchor := fld d (TCM_POST_CTL_ANCHOR p)
  if anchor = 0 then
    let t := postTime d p
    if t + nsPerSec < nowUp d then .error outStale
    else if now d + 1048576 * nsPerSec < t then .error outFar
    else .ok (.time t, decide (t < nowUp d))
  else
    let x := anchorLine anchor
    let n := postFrame d p
    match (d.fawStamps.get x).head? with
    | none => .error outFrame
    | some st =>
      let l := lineFrame d x
      if frameWait < d.elapsed - st.tick then .error outFrame
      else if n + 8000 ≤ l then .error outStale
      else if l + 8388608000 < n then .error outFar
      else .ok (.frame x n, decide (n ≤ l))

/-- The checks of R70 in order. -/
def postCheck (d : Dev) (p units : Nat) : Except Nat (Due × Bool) :=
  if units = 0 then .error outEmpty
  else if 1 ≤ p ∧ p < 32 ∧ (unitBits units).any (fun b => !bitOf (fld d (HIF_FNf_RIGHTS_UNITS p)) b) then .error outRights
  else match postDue d p with
    | .error o => .error o
    | .ok r =>
      if (unitBits units).any (fun b => decide (8 ≤ slotsUsed d b)) then .error outFull
      else if (unitBits units).any (fun b => decide (32 < (dirtyOf d b).length)) then .error outCapture
      else .ok r

/-- The base word's pair is checked as one value; a word that the clamp changes is dirty (R40, R465). -/
def checkBase (d : Dev) (writer : Nat) : Dev :=
  let e := checkPair d writer (unitAt 8) KST_FREQ_BASE_LO KST_FREQ_BASE_HI 22 0x27FAE147AE147B 0x28051EB851EB85
  let mark (e : Dev) (r : Reg) : Dev := if rd e r = rd d r then e else { e with dirty := insSorted r.ofs e.dirty }
  mark (mark e KST_FREQ_BASE_LO) KST_FREQ_BASE_HI

/-- The pair is checked when a post captures one of its words (R465). (log 23: DEDUCED, unsafe) -/
def checkBasePair (d : Dev) (writer units : Nat) : Dev :=
  if bitOf units 0 && (d.dirty.contains KST_FREQ_BASE_LO.ofs || d.dirty.contains KST_FREQ_BASE_HI.ofs) then checkBase d writer
  else d

/-- A shadow word as it stands after a post has captured it: a command shadow returns to 0 (R67). -/
def clearCommand (d : Dev) (ofs : Nat) : Dev :=
  if ofs = KST_SEL_CMD.ofs then setFld d KST_SEL_CMD_CMD 0
  else if ofs = KST_STEP_CTL.ofs then setFld d KST_STEP_CTL_ARM 0
  else if ofs = KST_REF_CTL.ofs then setFld d KST_REF_CTL_REVERT 0
  else if ofs = SDL_CMD.ofs then setFld d SDL_CMD_CMD 0
  else if ofs = FWU_ACT.ofs then setFld d FWU_ACT_REQ 0
  else d

/-- The shadow word at a BAR0 offset. -/
def shadowAt (d : Dev) (ofs : Nat) : Word :=
  match unitOf ofs with
  | none => 0
  | some i => match rowAt (unitAt i) (ofs - (unitAt i).base) with
    | none => 0
    | some row => rd d (regAt (unitAt i) row (ofs - (unitAt i).base))

/-- A post whose checks all pass: the dirty words of every named unit are copied into a slot, their marks clear, and the
command shadows return to 0 (R67, R71). Where the frame of its anchor has its stamp already, the commit takes it. -/
def capture (d : Dev) (writer p units id : Nat) (due : Due) (late : Bool) : Dev :=
  let d := checkBasePair d writer units
  let ofss := ((unitBits units).map (dirtyOf d)).flatten
  let st := match due with
    | .time _ => none
    | .frame x n => heldStamp d x n
  let c : Commit :=
    { id := id, poster := p, units := units, due := due, notify := flag d (TCM_POST_CTL_NOTIFY p)
      words := ofss.map (fun o => (o, shadowAt d o)), seq := d.postSeq, postedAt := d.elapsed, late := late
      stepped := false, fallen := false, frameAt := st.map (fun s => s.stamp.units16)
      dueTick := (st.map (fun s => s.dueTick)).getD 0, passed := false }
  let d := { d with commits := d.commits ++ [c], postSeq := d.postSeq + 1
                    dirty := d.dirty.filter (fun o => !ofss.contains o) }
  syncPend (forEach ofss clearCommand d)

/-- GO in TCM_POST_CTL of post block p (R70, R71). -/
def post (d : Dev) (writer p : Nat) : Dev :=
  let units := fld d (TCM_POST_CTL_UNITS p)
  let id := freeId d 72 d.nextCommit
  let d := { d with nextCommit := (id + 1) % 65536 }
  match postCheck d p units with
  | .error o =>
    let d := wrn d (TCM_POST_RESULT p) (id * 65536)
    recordOutcome d id p units o 15 (flag d (TCM_POST_CTL_NOTIFY p))
  | .ok (due, late) => wrn (capture d writer p units id due late) (TCM_POST_RESULT p) (id * 65536)

/-- COMMIT_POST: master m writes TCM_POST_CTL of block p; GO posts (R70). -/
def commitPost (m : Master) (p : Fin 36) (value : Word) (d : Dev) : Dev :=
  guarded d m (TCM_POST_CTL p).ofs (fun d =>
    let d := storeAt d m (TCM_POST_CTL p).ofs value
    if value.getLsbD 31 then post d m p else d)

/-- What a late commit waits for (R72): it is due in the second tick after posting. -/
def lateTicks : Nat := 2

/-- A pending commit is due in the current tick (R61, R72). -/
def isDue (d : Dev) (c : Commit) : Bool :=
  if c.late then decide (c.postedAt + lateTicks ≤ d.elapsed)
  else match c.due with
    | .time t => c.stepped || c.fallen || decide (t ≤ now d)
    | .frame _ _ => c.frameAt.isSome && decide (c.dueTick ≤ d.elapsed)

/-- COMMIT_CANCEL: master m writes TCM_POST_CANCEL of block p (R76). A commit's poster is the owner of the block it was posted in; the
I2C target, which has no master ID, cancels none. (log 198: DESIGN CHOICE, unsafe) -/
def commitCancel (m : Master) (p : Fin 36) (value : Word) (d : Dev) : Dev :=
  guarded d m (TCM_POST_CANCEL p).ofs (fun d =>
    if value.getLsbD 31 then
      match d.commits.find? (fun c => c.id == getBits value 15 0) with
      | some c => if (m = 0 ∨ posterMaster c.poster = m) ∧ !isDue d c then finishCommit d c outCancelled 15 else d
      | none => d
    else d)

/-- The tick from which a frame-anchored commit has waited: the later of the post and its line's last D0 FAW stamp
(R73). -/
def waitsFrom (d : Dev) (x : Line) (c : Commit) : Nat :=
  match (d.fawStamps.get x).head? with
  | some st => max c.postedAt st.tick
  | none => c.postedAt

/-- A frame-anchored commit that ends with FRAME: its frame was passed over, or 1 s went by without a D0 FAW stamp
(R73). -/
def frameOver (d : Dev) (c : Commit) : Bool :=
  match c.due with
  | .time _ => false
  | .frame x _ => !c.late && c.frameAt.isNone && (c.passed || decide (waitsFrom d x c + frameWait ≤ d.elapsed))

/-- COMMIT_FRAME_TIMEOUT: the first such commit ends (R73). -/
def commitFrameTimeout (d : Dev) : Dev :=
  match d.commits.find? (frameOver d) with
  | some c => finishCommit d c outFrame 15
  | none => d

/-- What a commit becomes where frame n of line x is delivered: one anchored to an earlier frame that was not stamped is passed over
(R73). -/
def passFrame (x : Line) (n : Nat) (c : Commit) : Commit :=
  match c.due with
  | .frame y k => if y = x ∧ c.frameAt.isNone ∧ !c.late ∧ k < n then { c with passed := true } else c
  | .time _ => c

/-- What a commit anchored to frame n of line x becomes with the stamp of that frame (R72). -/
def stampFrame (x : Line) (n stamp tick : Nat) (c : Commit) : Commit :=
  match c.due with
  | .frame y k => if y = x ∧ c.frameAt.isNone ∧ !c.late ∧ k = n then { c with frameAt := some stamp, dueTick := tick } else c
  | .time _ => c

/-- The commits whose frame has been passed over end with FRAME (R73). -/
def endPassed (d : Dev) : Dev := forEach (d.commits.filter (·.passed)) (fun d c => finishCommit d c outFrame 15) d

/-- The line delivers frame counter n (R73). -/
def framePassed (d : Dev) (x : Line) (n : Nat) : Dev := endPassed { d with commits := d.commits.map (passFrame x n) }

/-- A D0 FAW of frame n of line x has been stamped (R72, R73, R118): a commit anchored to frame n falls due in the first tick at or
after the stamp, and one anchored to an earlier frame has been passed over and ends with FRAME. -/
def frameStamped (d : Dev) (x : Line) (n stamp tick : Nat) : Dev :=
  framePassed { d with commits := d.commits.map (stampFrame x n stamp tick) } x n

end Sys2Proof.Machine
end

