-- ==== Sys2Proof/Machine/Locks.lean ====
section
/-!
DEFINITION. Machine/Locks.lean: the owner lock and what it ends (R396, R403, R404, spec/22).
-/

namespace Sys2Proof.Machine

def raiseFwu (d : Dev) (b : Nat) : Dev := raiseEvt d evFWU b
def fwActDone : Nat := 0
def fwActFail : Nat := 1
def fwStored : Nat := 2
def fwStoreFail : Nat := 3
def fwRecNewer : Nat := 4
def fwLock : Nat := 5

def setFwu (d : Dev) (f : FwuHw → FwuHw) : Dev := { d with fwu := f d.fwu }

def setRelay (d : Dev) (r : Option Relay) : Dev := setFwu d (fun h => { h with relay := r })

def runningSlot (d : Dev) : Nat := fld d FWU_STATUS_RUNNING_SLOT
/-- The slot that is not running (R393). -/
def inactiveSlot (d : Dev) : Nat := 1 - runningSlot d

def slUnmarked : Nat := 0
def slWriting : Nat := 1
def slSealed : Nat := 2
def slActivated : Nat := 3
def slRejected : Nat := 4

def hostLock (d : Dev) : Bool := flag d FWU_CFG_HOST_LOCK
def heLock (d : Dev) (x : Line) : Bool := regBit d FWU_STATUS (8 + x.ix)
def ownerLocked (d : Dev) : Bool := heLock d .a || heLock d .b || hostLock d

/-- A store ends unsealed (R394, R396): the slot reads unmarked. -/
def endStore (d : Dev) : Dev :=
  match d.fwu.relay with
  | some r =>
    if r.store then
      let d := setFlag (setRelay d (some { r with store := false })) FWU_STATUS_STORING false
      setFld d ⟨FWU_SLOTs_INFOk (inactiveSlot d) 0, 31, 29⟩ slUnmarked
    else d
  | none => d

/-- A store is refused, and one that runs is ended, while any of these holds (R396). -/
def storeBarred (d : Dev) : Bool := flag d PWR_STATUS_PWR_ALT || ownerLocked d || flag d FWU_STATUS_ACTIVATING

def lockChanged (d : Dev) : Dev :=
  let d := raiseFwu d fwLock
  if ownerLocked d then endStore d else d

/-- A line's HE lock takes a value (R403). -/
def setHeLock (d : Dev) (x : Line) (b : Bool) : Dev :=
  if heLock d x = b then d else lockChanged (setRegBit d FWU_STATUS (8 + x.ix) b)

end Sys2Proof.Machine
end

