-- ==== Sys2Proof/Machine/Saddle.lean ====
section
/-!
DEFINITION. Machine/Saddle.lean: the terminal state of a line (R132, spec/07) and line protection (R198 to R208, spec/11):
health, requests, the switch, wait-to-restore, and the home preference of R431 (spec/24).
-/

namespace Sys2Proof.Machine

/-! ### Terminal state (R132) -/

def reportMessage : Nat := 0
def reportTimer : Nat := 1
def reportDefect : Nat := 2
def reportHost : Nat := 3
def reportProtection : Nat := 4
def reportWake : Nat := 5

/-- A state whose entry is reported where no message caused it (R132). -/
def isReported (st : Nat) : Bool := st == stOperate || st == stStandby || st == stHold || st == stListen

/-- The line takes a terminal state: PREV_STATE, STATE_CHANGE, the laser interlock, and a STATE_REPORT unless a message
caused the transition (R95, R132). A framer of a line that leaves Standby is wanted for service (R378). -/
def moveState (d : Dev) (x : Line) (st cause : Nat) : Dev :=
  let was := termState d x
  if was = st then d
  else
    let d := setFld (setFld d (RNG_Lx_STATUS_PREV_STATE x.ix) was) (RNG_Lx_STATUS_STATE x.ix) st
    let d := syncLaser (raiseRng d x rgStateChange) x
    let d := if was = stStandby then sliceService d (44 + x.ix) else d
    if cause ≠ reportMessage ∧ isReported st then queueLmm d x 0x84 [BitVec.ofNat 8 st, BitVec.ofNat 8 was, BitVec.ofNat 8 cause]
    else d

/-! ### Events and codes (R202, R209) -/

def raiseSdl (d : Dev) (b : Nat) : Dev := raiseEvt d evSDL b
def sdSwitch : Nat := 0
def sdRevert : Nat := 1
def sdBlocked : Nat := 2
def sdWtrStart : Nat := 3
def sdHealth : Nat := 4
def sdSrBad : Nat := 5
def sdUnpaired : Nat := 6

def raiseRst (d : Dev) (b : Nat) : Dev := raiseEvt d evRST b
def rsReset : Nat := 0
def rsWdt : Nat := 1
def rsHomeEnd : Nat := 2

def clsForced : Nat := 5
def clsSF : Nat := 4
def clsSD : Nat := 3
def clsManual : Nat := 2
def clsWtr : Nat := 1

def gradeHealthy : Nat := 0
def gradeDegraded : Nat := 1
def gradeFailed : Nat := 2

/-! ### Roles (R198) -/

def switching (d : Dev) : Bool := flag d SDL_STATUS_SWITCHING
def hasActive (d : Dev) : Bool := flag d SDL_STATUS_HAS_ACTIVE

/-- The line x holds the active role. -/
def isActive (d : Dev) (x : Line) : Bool := hasActive d && fld d SDL_STATUS_ACTIVE == x.ix

def homeRun (d : Dev) : Bool := flag d RST_STATUS_HOME_RUN

/-- HOME_RUN clears and HOME_END is raised (R431). -/
def clearHome (d : Dev) : Dev :=
  if homeRun d then raiseRst (setFlag d RST_STATUS_HOME_RUN false) rsHomeEnd else d

def setSaddle (d : Dev) (f : Saddle → Saddle) : Dev := { d with saddle := f d.saddle }

/-- The line takes the role (R198), by ranging unless a switch says more; L-A taking it ends the home preference (R431). -/
def takeRole (d : Dev) (x : Line) : Dev :=
  let d := setFld (setFlag d SDL_STATUS_HAS_ACTIVE true) SDL_STATUS_ACTIVE x.ix
  let d := setSaddle d (fun s => { s with away := false, lost := false })
  if x = .a then clearHome d else d

/-- The home preference ends (R431): with no active line, L-B in Standby moves to Operate and takes the role. -/
def endHome (d : Dev) : Dev :=
  if homeRun d then
    let d := clearHome d
    if !hasActive d && termState d .b == stStandby then takeRole (moveState d .b stOperate reportProtection) .b else d
  else d

/-! ### Health (R200) -/

/-- The causes of SF, at the bits of SF_CAUSE. -/
def sfCause (d : Dev) (x : Line) : Nat :=
  let st := termState d x
  fld d (DSF_STATUS_LINE_LOS x.ix) + 2 * fld d (DSF_STATUS_LINE_LOF x.ix) + 4 * fld d (DSF_STATUS_LINE_AIS x.ix)
    + 8 * boolBit (!(st == stOperate || st == stStandby)) + 16 * boolBit (modState d x != modReady)
    + 32 * fld d (RNG_Lx_STATUS_STOP_LATCH x.ix) + 64 * boolBit (fld d (RNG_Lx_STATUS_RANGED x.ix) == 0)

def isSF (d : Dev) (x : Line) : Bool := sfCause d x != 0
def isSD (d : Dev) (x : Line) : Bool := flag d (DSF_STATUS_SD x.ix)
def gradeOf (d : Dev) (x : Line) : Nat := fld d (SDL_Lx_HEALTH_GRADE x.ix)

/-- SF and SD follow their causes from tick to tick. -/
def syncDefects (d : Dev) (x : Line) : Dev :=
  setFlag (setFlag d (SDL_Lx_HEALTH_SF x.ix) (isSF d x)) (SDL_Lx_HEALTH_SD x.ix) (isSD d x)

/-! ### Requests (R201, R202) -/

/-- A request in force: its class, where it comes from as REQ_SRC codes it, and the line it favours; a wait-to-restore
request favours L-A once its wait is over. -/
structure Request where
  cls : Nat
  src : Nat
  fav : Option Line
deriving DecidableEq, Repr

/-- The request that the accepted SR value of a line carries, 0 where it takes no part (R201). -/
def srRequest (d : Dev) (x : Line) : Nat :=
  let sr1 := fld d (DSF_SR_ACC_SR1 x.ix)
  let term := sr1 % 16 * 256 + fld d (DSF_SR_ACC_SR2 x.ix)
  let st := termState d x
  if (term = terminalId d x ∨ term = 0xFFF) ∧ (st = stOperate ∨ st = stStandby ∨ st = stHold) ∧ sr1 / 16 < 5 then sr1 / 16 else 0

def hostRequests (d : Dev) : List Request :=
  let t := Line.ofIx (fld d SDL_STATUS_HOST_TARGET)
  if fld d SDL_STATUS_HOST_REQ = 3 then [⟨clsForced, 1, some t⟩]
  else if fld d SDL_STATUS_HOST_REQ = 4 then [⟨clsManual, 1, some t⟩] else []

def srRequests (d : Dev) (x : Line) : List Request :=
  let q := srRequest d x
  if q = 1 then [⟨clsManual, 2 + x.ix, some x.other⟩]
  else if q = 2 then [⟨clsManual, 2 + x.ix, some x⟩]
  else if q = 3 then [⟨clsForced, 2 + x.ix, some x.other⟩] else []

def defectRequests (d : Dev) (x : Line) : List Request :=
  (if isSF d x then [⟨clsSF, 4 + x.ix, some x.other⟩] else [])
    ++ (if isSD d x then [⟨clsSD, 4 + x.ix, some x.other⟩] else [])

def wtrRequests (d : Dev) : List Request :=
  if flag d SDL_STATUS_WTR_RUN then [⟨clsWtr, 6, if d.saddle.wtrOver then some .a else none⟩] else []

/-- Every request in force, in the order of REQ_SRC. -/
def requests (d : Dev) : List Request :=
  hostRequests d ++ srRequests d .a ++ srRequests d .b ++ defectRequests d .a ++ defectRequests d .b ++ wtrRequests d

/-- A line is barred from becoming active (R202). -/
def barred (d : Dev) (x : Line) : Bool :=
  (fld d SDL_STATUS_HOST_REQ == 2 && fld d SDL_STATUS_HOST_TARGET == x.ix) || srRequest d x == 4

/-- The highest class in force. -/
def topClass (d : Dev) : Nat := (requests d).foldl (fun n r => max n r.cls) 0

/-- The requests of the highest class. -/
def topRequests (d : Dev) : List Request := (requests d).filter (fun r => r.cls == topClass d)

/-- The condition of its class that the favoured line must meet (R203). -/
def meetsClass (d : Dev) (cls : Nat) (f : Line) : Bool :=
  if cls = clsForced then !isSF d f && gradeOf d f != gradeFailed
  else if cls = clsSF then gradeOf d f != gradeFailed
  else gradeOf d f == gradeHealthy && !isSF d f && !isSD d f

/-- REQ, REQ_LINE, REQ_SRC and the bars as SDL_STATUS shows them. -/
def syncRequests (d : Dev) : Dev :=
  let d := setFlag (setFlag d SDL_STATUS_LOCK_A (barred d .a)) SDL_STATUS_LOCK_B (barred d .b)
  let r := (topRequests d).headD ⟨0, 0, none⟩
  let line : Nat := match r.fav with
    | some x => x.ix
    | none => 0
  setFld (setFld (setFld d SDL_STATUS_REQ r.cls) SDL_STATUS_REQ_LINE line) SDL_STATUS_REQ_SRC r.src

/-! ### The switch (R199, R205) -/

/-- The valid partner entry of NRW entry i, an entry of the other line (R199). -/
def partnerOf (d : Dev) (i : Nat) : Option Nat :=
  let p := fld d (SDL_PAIRi_PARTNER i)
  if flag d (SDL_PAIRi_VALID i) && flag d (NRW_ALLOCi_CFG_VALID p) && fld d (NRW_ALLOCi_CFG_LINE p) != fld d (NRW_ALLOCi_CFG_LINE i) then
    some p
  else none

/-- Line-egress queues bound to an entry by the applied map, lowest first: queues named by a word of the map that differs from
its reset word. -/
def boundQueues (d : Dev) : List Nat :=
  (d.applied.map (·.1)).filter (fun o => decide (0xe40000 ≤ o) && decide (o < 0xe40000 + 0x8000))
    |>.map (fun o => (o - 0xe40000) / 4) |>.filter (fun j => fldA d (TMG_LMAPj_VALID j) == 1)

/-- Queue j at its level would break the limits of group i: one queue a strict level, 124 weighted (R279). -/
def groupFull (d : Dev) (j i : Nat) : Bool :=
  let lvl := fldA d (TMG_LMAPj_LEVEL j)
  let n := ((boundQueues d).filter (fun k => k != j && fldA d (TMG_LMAPj_ENTRY k) == i
    && (if lvl < 4 then fldA d (TMG_LMAPj_LEVEL k) == lvl else decide (4 ≤ fldA d (TMG_LMAPj_LEVEL k))))).length
  if lvl < 4 then decide (1 ≤ n) else decide (124 ≤ n)

def tmBindExcess : Nat := 5

/-- The binding of queue j is removed, or moved to entry i; applied and shadow values change alike (R279). -/
def unbind (d : Dev) (j : Nat) : Dev := setFld (setFldA d (TMG_LMAPj_VALID j) 0) (TMG_LMAPj_VALID j) 0
def rebind (d : Dev) (j i : Nat) : Dev := setFld (setFldA d (TMG_LMAPj_ENTRY j) i) (TMG_LMAPj_ENTRY j) i

/-- One queue bound to an old-line entry at a switch: unpaired, in excess of the new group's limits, or moved. -/
def moveQueue (d : Dev) (je : Nat × Nat) : Dev :=
  let (j, e) := je
  match partnerOf d e with
  | none => raiseSdl (count (unbind d j) SDL_UNPAIRED) sdUnpaired
  | some p =>
    if groupFull (unbind d j) j p then raiseEvt (count (unbind d j) TMG_BIND_EXCESS) evTMG tmBindExcess
    else rebind (setFldA d (TMG_LMAPj_VALID j) 1) j p

/-- Every binding to an entry of the old line moves to the entry's partner (R199). -/
def moveBindings (d : Dev) (old : Line) : Dev :=
  let js := ((boundQueues d).map (fun j => (j, fldA d (TMG_LMAPj_ENTRY j)))).filter
    (fun je => fld d (NRW_ALLOCi_CFG_LINE je.2) == old.ix && (flag d (NRW_ALLOCi_CFG_VALID je.2) || flag d (SDL_PAIRi_VALID je.2)))
  forEach js moveQueue d

/-- Carry-over of the old line on the new one: it has waited as many frames there. -/
def movedCarry (d : Dev) (old : Line) (c : Carry) : Carry := { c with until' := framesOf d old.other + (c.until' - framesOf d old) }

/-- Data grants of the old line whose BEN has not risen are withdrawn, and its staged units and carry-over become carry-over
of the partner allocations (R205 steps 2 and 3). -/
def handOver (d : Dev) (old : Line) : Dev :=
  let gs := (d.upHw.get old).grants
  let staged := gs.filterMap (fun g => g.entry.map (fun i => (i, g.staged)))
  let n := (gs.filter (fun g => g.entry.isSome && !g.risen)).length
  let d := countBy d SDL_WITHDRAWN n
  let d := setGrants d old (fun l => (l.filter (fun g => g.entry.isNone || g.risen)).map (fun g =>
    if g.entry.isSome then { g with staged := [], complete := true } else g))
  let d := syncInFlight d old
  let keys := (lineCarry d old).filter (· < 512)
  let d := forEach keys (fun d i =>
    let cs := carryOf d i
    let fs := formedOf d i
    let d := syncNrw (setCarry (setFormed d i []) i []) [i]
    match partnerOf d i with
    | some p => setFormed (addCarry d p (cs.map (movedCarry d old))) p (formedOf d p ++ fs)
    | none => countDiscard d (cs.length + fs.length)) d
  let d := forEach staged (fun d e => match partnerOf d e.1 with
    | some p => toCarry d p e.2
    | none => countDiscard d e.2.length) d
  endGaps (syncNrw d (staged.map (·.1))) old

/-- A switch to F starts in this tick (R205). (log 54: DEDUCED, unsafe) -/
def startSwitch (d : Dev) (f : Line) (cls src : Nat) : Dev :=
  let had := isActive d f.other
  let old := f.other
  let d := setFlag d SDL_STATUS_SWITCHING true
  let wtr := cls == clsWtr
  let away := f == .b && (cls == clsSF || cls == clsSD || wtr || d.saddle.lost)
  let d := setSaddle d (fun s => { s with swTick := d.elapsed, swMap := none, swDown := none, wtrOver := false })
  let d := count d SDL_SWITCHES
  let d := setFld (setFld (setFld d SDL_LAST_SW_REQ cls) SDL_LAST_SW_SRC src) SDL_LAST_SW_TO_LINE f.ix
  let d := setFld (wrn d SDL_LAST_SW_SEC d.clock.sec.toNat) SDL_LAST_SW_NS_VALUE d.clock.ns.val
  let d := raiseSdl d sdSwitch
  let d := if wtr then raiseSdl (count d SDL_REVERTS) sdRevert else d
  let d := setFld (setFlag d SDL_STATUS_WTR_RUN false) SDL_STATUS_WTR_LEFT 0
  let d := if !had then d
    else if termState d old = stHold then setRng d old (fun h => { h with heldState := stStandby })
    else moveState d old stStandby reportProtection
  let d := handOver (moveBindings d old) old
  let d := setSaddle (takeRole (moveState d f stOperate reportProtection) f) (fun s => { s with away := away })
  { d with lineFresh := d.lineFresh.set f false }

/-! ### Wait-to-restore (R207) -/

def clearWtr (d : Dev) : Dev :=
  setSaddle (setFld (setFlag d SDL_STATUS_WTR_RUN false) SDL_STATUS_WTR_LEFT 0) (fun s => { s with wtrOver := false })

/-- The wait-to-restore period is given up, or starts, as its conditions demand. -/
def checkWtr (d : Dev) : Dev :=
  let above := decide (clsWtr < topClass d)
  if flag d SDL_STATUS_WTR_RUN then
    (if above || !isActive d .b then clearWtr d else d)
  else if flag d SDL_CFG_REVERTIVE && isActive d .b && d.saddle.away && !above && gradeOf d .a == gradeHealthy then
    raiseSdl (setFld (setFlag d SDL_STATUS_WTR_RUN true) SDL_STATUS_WTR_LEFT (fld d SDL_CFG_WTR_S)) sdWtrStart
  else d

/-! ### Evaluation (R203) -/

/-- The favoured line may take the role now. -/
def mayTake (d : Dev) (cls : Nat) (f : Line) : Bool :=
  !isActive d f && !barred d f && termState d f == stStandby && meetsClass d cls f

/-- A request as it is counted where it fails. -/
def Request.key (r : Request) : Nat × Nat × Nat := (r.cls, r.src, (r.fav.map (·.ix)).getD 2)

/-- A request that fails is counted once while it is in force (R203 step 3). -/
def countBlocked (d : Dev) (r : Request) : Dev :=
  if d.saddle.blocked.contains r.key then d
  else raiseSdl (count (setSaddle d (fun s => { s with blocked := r.key :: s.blocked })) SDL_BLOCKED) sdBlocked

/-- Requests that are no longer in force are forgotten. -/
def pruneBlocked (d : Dev) : Dev := setSaddle d (fun s => { s with blocked := s.blocked.filter (((requests d).map (·.key)).contains ·) })

/-- The highest class in force acts (R203). While the home preference runs and no line holds the role, L-B takes it only as
R431 says. -/
def actOn (d : Dev) : Dev :=
  let rs := topRequests d
  let favs := rs.filterMap (·.fav)
  match rs, favs with
  | r :: _, f :: _ =>
    if favs.contains f.other || isActive d f || (homeRun d && !hasActive d) then d
    else if mayTake d r.cls f then syncRequests (startSwitch d f r.cls r.src)
    else forEach rs countBlocked d
  | _, _ => d

/-- The Saddle evaluates (R203): changes that arrive during a switch wait for its end, and once it has granted an entry to Hush or Keep
roles stay until the device is awake (R208). -/
def evaluate (d : Dev) : Dev :=
  let d := pruneBlocked (syncDefects (syncDefects d .a) .b)
  if switching d || pwrStopped d 3 then syncRequests d else actOn (syncRequests (checkWtr d))

/-- The one evaluation of a tick, before its commits (R203, R466); what a line that left Operate and Standby has staged then goes. -/
def evaluateTick (d : Dev) : Dev :=
  if d.saddle.evaluated then d
  else settleLeaving (settleLeaving (setSaddle (evaluate d) (fun s => { s with evaluated := true })) .a) .b

/-- The line enters Listen or Stopped and loses the role (R198): HAS_ACTIVE clears, unless the evaluation of the tick switches the other
line in. (log 56: DEDUCED, unsafe) -/
def loseRole (d : Dev) (x : Line) : Dev :=
  if isActive d x then
    setSaddle (setFlag d SDL_STATUS_HAS_ACTIVE false) (fun s => { s with lost := x == .a && termState d x == stListen })
  else d

/-! ### Health reports (R200) -/

/-- Uncorrectable codewords of the second that ended on the channels of a line: the framer's copies, or its accumulators where it has
not copied them yet (R124). -/
def uncorrOf (d : Dev) (x : Line) : Nat :=
  sumOf (fun c => if secMark d (secDsf x) = none then rdn d (DSF_CHc_SEC_FEC_UNCORR x.ix c) else (chanHw d x c).fecUncorr) (List.range 8)

/-- A leaf unit of the line's group has the verdict FAIL (R200, R388). -/
def groupFailed (d : Dev) (x : Line) : Bool :=
  (leavesOf (2 + x.ix)).any (fun u => fld d (HDR_BST_VERDICT (unitAt u).base) == 3)

/-- MIRROR_OK (R200). (log 55: DEDUCED, unsafe) -/
def mirrorOk (d : Dev) (x : Line) : Bool :=
  if isActive d x then true
  else
    let lacking := isActive d x.other && (List.range 512).any (fun i =>
      flag d (NRW_ALLOCi_CFG_VALID i) && fld d (NRW_ALLOCi_CFG_LINE i) == x.other.ix
        && (partnerOf d i).isNone)
    !(lacking || (flag d SDL_CFG_KEY_MIRROR && fld d CIP_LA_MGMT_PAGE == fld d CIP_LB_MGMT_PAGE)
      || (flag d SDL_CFG_BMAP_MIRROR && fldA d ENC_BMAP_SEL_SEL_A != fldA d ENC_BMAP_SEL_SEL_B))

/-- The health report of a line for a second (R200). (log 57: DEDUCED, unsafe) -/
def healthReport (d : Dev) (x : Line) (sec : Nat) : Dev :=
  let h := d.sdlLine.get x
  let sf := sfCause d x
  let late := decide (fld d SDL_KA_CFG_KA_TO ≤ framesOf d x - h.kaTick)
  let un := min (uncorrOf d x) 255
  let ok := mirrorOk d x
  let bst := groupFailed d x
  let grade := if sf ≠ 0 ∨ bst then gradeFailed
    else if isSD d x ∨ late ∨ h.suppr ∨ un ≠ 0 ∨ !ok then gradeDegraded else gradeHealthy
  let d := setFlag (setFld (syncDefects d x) (SDL_Lx_HEALTH_GRADE x.ix) grade) (SDL_Lx_HEALTH_MIRROR_OK x.ix) ok
  let d := setFlag (setFlag d (SDL_Lx_HEALTH_KA_LATE x.ix) late) (SDL_Lx_HEALTH_BST_FAIL x.ix) bst
  let d := setFld (setFlag d (SDL_Lx_HEALTH_SUPPR x.ix) h.suppr) (SDL_Lx_HEALTH_SF_CAUSE x.ix) sf
  let d := setFld (setFld d (SDL_Lx_HEALTH_KA_GRANTS x.ix) (min h.kaCount 255)) (SDL_Lx_HEALTH_UNCORR x.ix) un
  setSdl (wrn d (SDL_Lx_HEALTH_SEC x.ix) sec) x (fun h => { h with kaCount := 0, suppr := false })

/-- L-A's report shows one of the defects that end the home preference (R431): LOS, LOF, AIS, MODULE, STOP. -/
def homeDefective (d : Dev) : Bool := !flag d (RNG_Lx_CTL_REG_EN 0) || sfCause d .a &&& 0x37 != 0

/-- Both reports for a second, and the wait-to-restore countdown (R200, R207). -/
def reportSecond (d : Dev) (sec : Nat) : Dev :=
  let ga := gradeOf d .a
  let gb := gradeOf d .b
  let d := healthReport (healthReport d .a sec) .b sec
  let d := if gradeOf d .a = ga ∧ gradeOf d .b = gb then d else raiseSdl d sdHealth
  let d := if homeDefective d then endHome d else d
  if !flag d SDL_STATUS_WTR_RUN then d
  else if gradeOf d .a = gradeHealthy then setFld d SDL_STATUS_WTR_LEFT (fld d SDL_STATUS_WTR_LEFT - 1)
  else clearWtr d

/-- HEALTH_REPORT: once for each second boundary reached. -/
def healthReports (d : Dev) : Dev :=
  match secMark d secHealth with
  | some (sec, _) => reportSecond (clearMark d secHealth) sec
  | none => d

/-- WTR_EXPIRE (R207): WTR_LEFT has reached 0 and the request favours L-A. -/
def wtrExpire (d : Dev) : Dev :=
  if flag d SDL_STATUS_WTR_RUN && fld d SDL_STATUS_WTR_LEFT == 0 then setSaddle d (fun s => { s with wtrOver := true }) else d

/-- 375 µs in ticks: the longest upstream gap (R206). -/
def gapTicks : Nat := 9375

/-- The grid frame of the new line whose map was the first to be checked after t_s has begun; channel 0 has the grid that is looked at.
(log 204: DESIGN CHOICE, unsafe) -/
def newGridBegun (d : Dev) : Bool :=
  let x := Line.ofIx (fld d SDL_STATUS_ACTIVE)
  match d.saddle.swMap with
  | some n => decide (blockInstant d x n (eqdFor d x 0 n) 0 ≤ ((now d * 65536 : Nat) : Int))
  | none => false

/-- SWITCH_END (R205 step 7, R206): at that frame, and at the latest at the bound of R206, SWITCHING clears, both gaps are recorded, and
what waited is evaluated in this tick. -/
def switchEnd (d : Dev) : Dev :=
  if switching d && (newGridBegun d || decide (d.saddle.swTick + gapTicks ≤ d.elapsed)) then
    let up := min ((d.elapsed - d.saddle.swTick) / ticksPerUs) 0xFFFF
    let d := setFld (setFld d SDL_LAST_GAP_UP_US up) SDL_LAST_GAP_DN_US (min (d.saddle.swDown.getD 0) 0xFFFF)
    setSaddle (setFlag d SDL_STATUS_SWITCHING false) (fun s => { s with evaluated := false })
  else d

/-! ### Host commands (R204) -/

/-- The Saddle refuses the command of a commit. -/
def sdlRefuses (d : Dev) (cmd target : Nat) : Bool :=
  let f := Line.ofIx target
  if cmd = 3 ∨ cmd = 4 then
    let cls := if cmd = 3 then clsForced else clsManual
    switching d || barred d f || !meetsClass d cls f
      || (requests d).any (fun r => decide (cls < r.cls) && r.fav == some f.other)
  else cmd == 5 && !flag d SDL_STATUS_WTR_RUN

/-- The device holds a host request; one that was counted as blocked before is another (R202, R203). -/
def holdRequest (d : Dev) (cmd target : Nat) : Dev :=
  setSaddle (setFld (setFld d SDL_STATUS_HOST_REQ cmd) SDL_STATUS_HOST_TARGET target)
    (fun s => { s with blocked := s.blocked.filter (fun k => k.2.1 != 1) })

/-- An accepted host command takes its effect in the evaluation of the tick. -/
def sdlCommand (d : Dev) (cmd target : Nat) : Dev :=
  if cmd = 0 then d
  else if cmd = 1 then evaluate (holdRequest d 0 0)
  else if cmd = 5 then evaluate (setSaddle (setFld d SDL_STATUS_WTR_LEFT 0) (fun s => { s with wtrOver := true }))
  else evaluate (holdRequest d cmd target)

end Sys2Proof.Machine
end

