-- ==== Sys2Proof/Machine/Ranging.lean ====
section
/-!
DEFINITION. Machine/Ranging.lean: registration and ranging (R126 to R146, spec/07): the terminal states, the messages that act
on them, ranging results, response grants, and the sleep exchange.
-/

namespace Sys2Proof.Machine

/-- 100 ms in ticks: the unit of HOLD_TO (R147). -/
def ticks100ms : Nat := 2500000

/-- The device's serial number (R129). -/
def serialNumber (d : Dev) : Nat := rdPair d RNG_SN_LO RNG_SN_HI

def bonded (d : Dev) (x : Line) : Bool := flag d (DSF_STATUS_BONDED x.ix)

/-- The line sleeps (R145). -/
def asleep (d : Dev) (x : Line) : Bool := flag d (RNG_Lx_STATUS_SLEEP x.ix)

/-! ### Entering the states (R134) -/

/-- A registration ends: its timers stop and no delay or response waits any more. -/
def dropRegistration (d : Dev) (x : Line) : Dev :=
  let d := forEach [TimerId.annTo x, .rngTo x, .holdTo x, .wakeBond x] dropTimer d
  setRng d x (fun h => { h with lastSeen := false, eqdWait := [], acks := [], response := none, asked := false, acked := none })

/-- ID, EqD and RANGED are cleared (R134). -/
def clearId (d : Dev) (x : Line) : Dev :=
  let d := setFld (setFld d (RNG_Lx_STATUS_TERMINAL_ID x.ix) 0xFFF) (RNG_Lx_STATUS_RANGED x.ix) 0
  setFlag (forEach (List.range 4) (fun d u => wrn d (RNG_Lx_EQDu x.ix u) 0) d) (RNG_Lx_STATUS_SLEEP x.ix) false

/-- The line enters Listen from any other state (R134): it stages no more, its domain becomes IDLE, its
HE lock clears (R403), and it loses the role. A
return of L-A from Announce or Ranging ends the home preference (R431). -/
def enterListen (d : Dev) (x : Line) (cause : Nat) : Dev :=
  let was := termState d x
  if was = stListen then d
  else
    let d := { leaves (clearId (dropRegistration d x) x) x with anchored := d.anchored.set x false }
    let d := setHeLock (domainIdle (moveState d x stListen cause) x) x false
    let d := if x = .a ∧ (was = stAnnounce ∨ was = stRanging) then endHome d else d
    loseRole d x

/-- A test mode ends because its line leaves Listen: it and the generators are off (R97, R100). (log 205: DEDUCED, unsafe) -/
def endTestMode (d : Dev) (x : Line) : Dev :=
  if fld d (LLx_CTL_TEST_MODE x.ix) = 0 then d
  else
    let d := setFld d (LLx_CTL_TEST_MODE x.ix) 0
    let d := forEach (List.range 4) (fun d r => setFlag (setFlag d (LLx_RXr_STATUS_BURST_CDR x.ix r) false) (LLx_TXt_GEN_EN x.ix r) false) d
    dropAllBen d x

/-- The line enters Stopped (R138): the latch is set, every burst ends and every BEN falls; it no longer sleeps. -/
def enterStopped (d : Dev) (x : Line) : Dev :=
  let d := setFlag d (RNG_Lx_STATUS_STOP_LATCH x.ix) true
  if termState d x = stStopped then d
  else
    let d := setFlag (endTestMode d x) (RNG_Lx_STATUS_SLEEP x.ix) false
    let d := stopBursts (dropRegistration d x) x
    let d := domainIdle (moveState d x stStopped reportMessage) x
    loseRole (raiseRng d x rgStopped) x

/-- The line enters Hold from Operate or Standby (R134). (log 33: DEDUCED, unsafe) -/
def enterHold (d : Dev) (x : Line) : Dev :=
  let d := setRng d x (fun h => { h with heldState := termState d x, response := none })
  let d := startTimer d (.holdTo x) (fld d (RNG_Lx_TIMERS_HOLD_TO x.ix) * ticks100ms)
  moveState (leaves d x) x stHold reportDefect

/-- LINE_LOS or LINE_LOF is declared (R48, R134): the domain is lost; a sleeping line, or one that waits to be bonded after a
wake, keeps its state (R145, R146). -/
def lineLost (d : Dev) (x : Line) : Dev :=
  let d := domainLost d x
  let st := termState d x
  if asleep d x || timerRuns d (.wakeBond x) then d
  else if st = stAnnounce ∨ st = stRanging then enterListen d x reportDefect
  else if st = stOperate ∨ st = stStandby then enterHold d x
  else d

/-- The line is bonded again in Hold: it returns to the state it held (R134). -/
def holdReturn (d : Dev) (x : Line) : Dev :=
  if termState d x = stHold && bonded d x then
    moveState (dropTimer d (.holdTo x)) x (d.rngHw.get x).heldState reportDefect
  else d

/-- The line is ready to register (R133). -/
def lineReady (d : Dev) (x : Line) : Bool :=
  flag d (RNG_Lx_CTL_REG_EN x.ix) && !flag d (RNG_Lx_STATUS_STOP_LATCH x.ix) && fld d (LLx_CTL_TEST_MODE x.ix) == 0 && modState d x == modReady && bonded d x
    && !flag d (DSF_STATUS_LINE_AIS x.ix)

/-! ### Conditions, timers and register writes (R134) -/

/-- ANNOUNCE_START. -/
def announceStart (x : Line) (d : Dev) : Dev :=
  if termState d x = stListen && lineReady d x then
    moveState (startTimer d (.annTo x) (fld d (RNG_Lx_TIMERS_ANN_TO x.ix) * ticksPerSec)) x stAnnounce reportDefect
  else d

def timedOut (d : Dev) (x : Line) : Dev :=
  enterListen (raiseRng (count d (RNG_Lx_TIMEOUT x.ix)) x rgTimeout) x reportTimer

/-- ANN_TO_EXPIRE. -/
def annToExpire (x : Line) (d : Dev) : Dev :=
  if timerOver d (.annTo x) && termState d x == stAnnounce then timedOut d x else d

/-- RNG_TO_EXPIRE. -/
def rngToExpire (x : Line) (d : Dev) : Dev :=
  if timerOver d (.rngTo x) && termState d x == stRanging then timedOut d x else d

/-- HOLD_TO_EXPIRE. -/
def holdToExpire (x : Line) (d : Dev) : Dev :=
  if timerOver d (.holdTo x) && termState d x == stHold then enterListen d x reportTimer else d

/-- RANGING_COMPLETE (R134, R198, R431): firmware's, so it waits while the cores do not run (R126). -/
def rangingComplete (x : Line) (d : Dev) : Dev :=
  if termState d x = stRanging && (d.rngHw.get x).lastSeen && !coresHalted d && fld d (RNG_Lx_STATUS_RANGED x.ix) != 0 then
    let d := dropTimer (setRng d x (fun h => { h with lastSeen := false })) (.rngTo x)
    let d := if hasActive d || (homeRun d && x == .b) then moveState d x stStandby reportMessage
      else takeRole (moveState d x stOperate reportMessage) x
    raiseRng d x rgRanged
  else d

/-- What follows a write of RNG_Lx_CTL: REG_EN 0 returns the line to Listen and, for L-A, ends the home preference. -/
def regEnWritten (d : Dev) (x : Line) : Dev :=
  if flag d (RNG_Lx_CTL_REG_EN x.ix) then d
  else
    let d := if x = .a then endHome d else d
    if termState d x = stStopped then d else enterListen d x reportHost

/-- REG_EN_WRITE: master m writes RNG_Lx_CTL. -/
def regEnWrite (m : Master) (x : Line) (value : Word) (d : Dev) : Dev :=
  guarded d m (RNG_Lx_CTL x.ix).ofs (fun d => regEnWritten (storeAt d m (RNG_Lx_CTL x.ix).ofs value) x)

/-- LL_TEST_MODE_WRITE (R97): master m writes LLx_CTL. -/
def llTestModeWrite (m : Master) (x : Line) (value : Word) (d : Dev) : Dev :=
  guarded d m (LLx_CTL x.ix).ofs (fun d =>
    let was := testTransmit d x
    let d := llCtlWritten (storeAt d m (LLx_CTL x.ix).ofs value) m x was
    if fld d (LLx_CTL_TEST_MODE x.ix) ≠ 0 ∧ termState d x ≠ stStopped then enterListen d x reportHost else d)

/-! ### Messages (R126 to R131) -/

/-- The management channel of a line, as a master. -/
def mgmtMaster (x : Line) : Master := 0x68 + x.ix

/-- The message is addressed to the line (R128). -/
def addressed (d : Dev) (x : Line) (h : LmmHead) : Bool :=
  h.term.toNat == terminalId d x && terminalId d x != 0xFFF

/-- The message is for the line (R128). -/
def forLine (d : Dev) (x : Line) (h : LmmHead) : Bool := h.term.toNat == terminalId d x || h.term == 0xFFF

/-- The message repeats the last addressed one that the line executed (R128). -/
def repeated (d : Dev) (x : Line) (h : LmmHead) : Bool :=
  addressed d x h && (d.rngHw.get x).lastSeq == some h.seq.toNat

/-- An addressed message has been executed (R128). -/
def executed (d : Dev) (x : Line) (h : LmmHead) : Dev :=
  if addressed d x h then setRng d x (fun r => { r with lastSeq := some h.seq.toNat }) else d

def badLmm (d : Dev) (x : Line) : Dev := count d (RNG_Lx_LMM_BAD x.ix)

/-- A message that arrives while the control cores do not run waits for firmware, up to 16 on a line (R126). (log 37: DEDUCED, unsafe) -/
def waitLmm (d : Dev) (x : Line) (i : Instr) : Dev :=
  if 16 ≤ (d.rngHw.get x).waiting.length then count d (RNG_Lx_LMM_DROP x.ix)
  else setRng d x (fun h => { h with waiting := h.waiting ++ [i] })

/-- How a message is taken (R126, R128): not for the line, against its rules, on a frozen channel, waiting for firmware, handled by f,
which answers nothing where the line's state does not let the type act, or a repetition of one so handled.
(log 35: DEDUCED, unsafe; log 38: DEDUCED, unsafe) -/
def takeLmm (d : Dev) (x : Line) (h : LmmHead) (type : Nat) (bad : Bool) (wait : Option Instr) (again : Dev → Dev)
    (f : Dev → Option Dev) : Dev :=
  if !forLine d x h then d
  else if bad then badLmm d x
  else if decide (9 ≤ type) && isFrozen d (mgmtMaster x) then count d (RNG_Lx_LMM_DROP x.ix)
  else match wait, coresHalted d with
    | some i, true => waitLmm d x i
    | _, _ =>
      match f d with
      | some d' => if repeated d x h then again d else executed d' x h
      | none => d

/-- A message whose type is addressed to one terminal was broadcast: its TERM breaks its rule (R129). -/
def notAddressed (h : LmmHead) : Bool := h.term == 0xFFF

/-- ASSIGN_ID (R134, R136). -/
def assignId (x : Line) (h : LmmHead) (sn : BitVec 64) (id : BitVec 12) (d : Dev) : Dev :=
  takeLmm d x h 1 (id == 0xFFF) (some (.assignId x h sn id)) (fun d => d) (fun d =>
    if termState d x = stAnnounce ∧ sn.toNat = serialNumber d then
      let d := executed d x h
      let d := dropTimer (setFld d (RNG_Lx_STATUS_TERMINAL_ID x.ix) id.toNat) (.annTo x)
      let d := startTimer d (.rngTo x) (fld d (RNG_Lx_TIMERS_RNG_TO x.ix) * ticksPerSec)
      some (moveState d x stRanging reportMessage)
    else none)

/-- DEREGISTER (R134). -/
def deregister (x : Line) (h : LmmHead) (d : Dev) : Dev :=
  takeLmm d x h 3 false (some (.deregister x h)) (fun d => d) (fun d =>
    if termState d x = stListen ∨ termState d x = stStopped then none
    else some (enterListen (executed d x h) x reportMessage))

/-- The message names the device: it is addressed, or its serial number is the device's (R138). -/
def namesDevice (d : Dev) (x : Line) (h : LmmHead) (sn : BitVec 64) : Bool :=
  addressed d x h || sn.toNat == serialNumber d

/-- EMERGENCY_STOP (R138). -/
def emergencyStop (x : Line) (h : LmmHead) (sn : BitVec 64) (d : Dev) : Dev :=
  takeLmm d x h 4 false none (fun d => d) (fun d =>
    if namesDevice d x h sn then some (enterStopped d x) else none)

/-- RESUME (R138): handled in Stopped. -/
def resume (x : Line) (h : LmmHead) (sn : BitVec 64) (d : Dev) : Dev :=
  takeLmm d x h 5 false none (fun d => d) (fun d =>
    if termState d x = stStopped ∧ namesDevice d x h sn then
      let d := setFlag (executed d x h) (RNG_Lx_STATUS_STOP_LATCH x.ix) false
      some (enterListen d x reportMessage)
    else none)

/-! ### Ranging results (R141, R143, R144) -/

/-- dt(l) in units of 0.5 × 10^-8 ps/km for a wavelength in 0.01 nm (R143). -/
def dispersion (d : Dev) (x : Line) (l : Nat) : Int :=
  let δ : Int := (l : Int) - fld d (RNG_Lx_WAVE_REF_LAMBDA x.ix)
  fld d (RNG_Lx_DISP_S x.ix) * (δ * δ) + 2000 * toSigned 16 (fld d (RNG_Lx_DISP_D0 x.ix)) * δ

def waveU (d : Dev) (x : Line) (u : Nat) : Nat := fld d (RNG_Lx_WAVE_Uu_LAMBDA x.ix u)
def ucal (d : Dev) (x : Line) (u : Nat) : Int := toSigned 16 (fld d (RNG_Lx_UCALu_UCAL x.ix u))

/-- A valid dual-colour result: the RTD difference in ps over the dispersion difference, sign put into the first (R143). -/
structure DualColour where
  num : Int
  den : Nat
deriving DecidableEq, Repr

/-- The evaluation of R143 for an RTD of channel u in a frame, up to its validity. -/
def dualColour (d : Dev) (x : Line) (u rtd frame : Nat) : Option DualColour :=
  match (d.rngHw.get x).rtds.find? (fun r => r.chan != u && decide (frame ≤ r.frame + 8192)) with
  | none => none
  | some r =>
    let den := dispersion d x (waveU d x u) - dispersion d x (waveU d x r.chan)
    let num := ((rtd : Int) - ucal d x u) - ((r.rtd : Int) - ucal d x r.chan)
    let num := if den < 0 then -num else num
    if den.natAbs < 200000000 then none
    else if num < 0 ∨ 40 * (den.natAbs : Int) < num * 200000000 then none
    else some { num := num, den := den.natAbs }

/-- The fibre length in 0.1 m. -/
def DualColour.len (r : DualColour) : Nat := (nearest (r.num * 2000000000000) r.den).toNat

/-- len × (dt(ld) − dt(lu)), the numerator over den, in ps. -/
def asymNum (d : Dev) (x : Line) (r : DualColour) (u : Nat) : Int :=
  r.num * (dispersion d x (fld d (RNG_Lx_WAVE_D_LAMBDA x.ix)) - dispersion d x (waveU d x u))

/-- The outcome of the evaluation is handled (R144); the payload bytes FLAGS, length and asymmetry of RANGE_ACK. -/
def evaluateRange (d : Dev) (x : Line) (u rtd frame : Nat) (he : Int) : Dev × Nat × Nat × Int :=
  let d := wrn d (RNG_Lx_ASYM_HE x.ix) (ofSigned 32 (16 * he))
  let d := setFld d (RNG_Lx_LEN_HE_CH x.ix) u
  match dualColour d x u rtd frame with
  | none => (setFlag d (RNG_Lx_STATUS_CAL_OK x.ix) false, 0, 0, 0)
  | some r =>
    let agree := decide (((asymNum d x r u - he * r.den).natAbs) ≤ fld d (RNG_Lx_ASYM_TOL_ASYM_TOL x.ix) * r.den)
    let report := nearest (asymNum d x r u) r.den
    if agree then
      let d := setFlag (setFlag d (RNG_Lx_LEN_VALID x.ix) true) (RNG_Lx_LEN_HE_ONLY x.ix) false
      let d := setFld d (RNG_Lx_LEN_LEN x.ix) r.len
      let d := forEach (List.range 4) (fun d v =>
        wrn d (RNG_Lx_ASYMu x.ix v) (ofSigned 32 (nearest (16 * asymNum d x r v) r.den))) d
      (setFlag d (RNG_Lx_STATUS_CAL_OK x.ix) true, 3, r.len, report)
    else
      let d := if flag d (RNG_Lx_LEN_VALID x.ix) && !flag d (RNG_Lx_LEN_HE_ONLY x.ix) then d
        else
          let d := setFlag (setFlag d (RNG_Lx_LEN_VALID x.ix) true) (RNG_Lx_LEN_HE_ONLY x.ix) true
          forEach (List.range 4) (fun d v => wrn d (RNG_Lx_ASYMu x.ix v) (if v = u then ofSigned 32 (16 * he) else 0))
            (setFld d (RNG_Lx_LEN_LEN x.ix) 0)
      let d := setFlag (count d (RNG_Lx_ASYM_MISMATCH x.ix)) (RNG_Lx_STATUS_CAL_OK x.ix) false
      (raiseRng d x rgAsymMismatch, 2, r.len, report)

/-- Payload bytes of a RANGE_ACK (R129). -/
def rangeAck (u flags eqd len : Nat) (asym : Int) : List Byte :=
  [BitVec.ofNat 8 u, BitVec.ofNat 8 flags] ++ beBytes 4 eqd ++ beBytes 4 len ++ beBytes 4 (ofSigned 32 asym)

/-- Bursts of channel u accepted for the map of frame n or a later one, and not begun, move to an equalization delay received since
(R141, R151). -/
def shiftGrants (d : Dev) (x : Line) (u n eqd : Nat) : Dev :=
  setUp d x (fun h => { h with
    grants := h.grants.map (fun g => if g.chan = u ∧ n ≤ g.frame ∧ !g.risen then { g with eqd := eqd } else g)
    accepted := h.accepted.map (fun p => if p.chan = u ∧ n ≤ p.frame then { p with eqd := eqd } else p) })

/-- A RANGE_RESULT is recorded (R141, R143): its delay waits for APPLY_FRAME with its acknowledgement. -/
def rangeRecord (d : Dev) (x : Line) (h : LmmHead) (u : Nat) (heValid : Bool) (eqd rtd applyFrame : Nat) (he : Int) : Dev :=
  let (d, flags, len, asym) := if heValid then evaluateRange d x u rtd h.frame.toNat he else (d, 0, 0, 0)
  let w : EqdWait := { chan := u, eqd := eqd, rtd := rtd, frame := max applyFrame (h.frame.toNat + 1),
                       ack := rangeAck u flags eqd len asym, again := 0 }
  let d := shiftGrants d x u w.frame eqd
  setRng d x (fun r => { r with
    eqdWait := r.eqdWait ++ [w]
    rtds := ({ chan := u, rtd := rtd, frame := h.frame.toNat } :: r.rtds.filter (fun e => e.chan != u)).take 4 })

/-- A RANGE_RESULT with LAST has been received in Ranging: RNG_TO stops (R134). -/
def rangeLast (d : Dev) (x : Line) (last : Bool) : Dev :=
  if last && termState d x == stRanging then dropTimer (setRng d x (fun r => { r with lastSeen := true })) (.rngTo x) else d

/-- A repeated RANGE_RESULT of channel u is acknowledged again (R128): with the result that still waits for its frame, or at once as the
channel's last one was. -/
def rangeAgain (d : Dev) (x : Line) (u : Nat) : Dev :=
  if (d.rngHw.get x).eqdWait.any (fun w => w.chan == u) then
    setRng d x (fun r => { r with eqdWait := r.eqdWait.map (fun w => if w.chan = u then { w with again := w.again + 1 } else w) })
  else match sget [] (d.rngHw.get x).acks u with
    | [] => d
    | ack => queueLmm d x 0x83 ack

/-- RANGE_RESULT (R141): the hardware records the result and stops RNG_TO at the last; the end of ranging is firmware's and waits where
the cores do not run. -/
def rangeResult (x : Line) (h : LmmHead) (u : Fin 4) (last heValid : Bool) (eqd : BitVec 24) (rtd : Word)
    (applyFrame : BitVec 48) (he : Word) (d : Dev) : Dev :=
  takeLmm d x h 2 (notAddressed h || decide (h.frame.toNat + 8000 < applyFrame.toNat)) none (fun d => rangeAgain d x u)
    (fun d =>
      let st := termState d x
      if st = stRanging ∨ st = stOperate ∨ st = stStandby then
        some (rangeLast (rangeRecord d x h u heValid eqd.toNat rtd.toNat applyFrame.toNat he.toInt) x last)
      else none)

/-- The delay with the earliest APPLY_FRAME among those whose frame has come. -/
def eqdDue (d : Dev) (x : Line) : Option EqdWait :=
  ((d.rngHw.get x).eqdWait.filter (fun w => decide (w.frame ≤ lineFrame d x))).foldl (fun b w => match b with
    | none => some w
    | some v => if w.frame < v.frame then some w else some v) none

/-- EQD_APPLY (R141): the delay with the earliest APPLY_FRAME that has come applies, and its RANGE_ACK is queued for it and for each
repetition received meanwhile. (log 34: DEDUCED, unsafe) -/
def eqdApply (x : Line) (d : Dev) : Dev :=
  match eqdDue d x with
  | none => d
  | some w =>
    let d := setRng d x (fun r => { r with eqdWait := r.eqdWait.erase w })
    let d := setFlag (setFld d (RNG_Lx_EQDu_EQD x.ix w.chan) w.eqd) (RNG_Lx_EQDu_VALID x.ix w.chan) true
    let d := wrn d (RNG_Lx_RTDu x.ix w.chan) w.rtd
    let d := setRegBit d (RNG_Lx_STATUS x.ix) (24 + w.chan) true
    let d := setRng d x (fun r => { r with acks := sput [] r.acks w.chan w.ack })
    forEach (List.range (w.again + 1)) (fun d _ => queueLmm d x 0x83 w.ack) d

/-! ### Response grants (R135, R137, R140) -/

/-- The grants of the line that the response to send overlaps are not sent (R140). -/
def withholdAll (d : Dev) (x : Line) : Dev :=
  forEach (d.upHw.get x).grants (fun d g => if withheld d x g then withholdGrant d x g else d) d

/-- A response grant of frame n (R137): stamped says that the frame has its D0 FAW stamp. -/
def responseGrant (d : Dev) (x : Line) (n e : Nat) (stamped : Bool) : Dev :=
  let st := termState d x
  let sn := geAlloc e == 0xFFF
  let mine := if sn then st == stAnnounce
    else geAlloc e == terminalId d x && (st == stRanging || st == stOperate || st == stStandby)
  if !mine then d
  else if geProfile e = 3 ∨ geLen e < 19 then badLmm d x
  else if (d.rngHw.get x).answered = some n then count d (RNG_Lx_GRANT_DROP x.ix)
  else if !stamped then count d (RNG_Lx_NO_MARKER x.ix)
  else
    let k := d.freeCount
    let delay := if sn then some (Config.freeValue k % 39840) else none
    let d := if sn then { d with freeCount := k + 1 } else d
    let d := if sn then d else setSdl d x (fun h => { h with kaTick := framesOf d x, kaCount := h.kaCount + 1 })
    let r : Response := { chan := geChan e, profile := geProfile e, alloc := geAlloc e, delay := delay, frame := n }
    withholdAll (setRng d x (fun h => { h with response := some r, answered := some n })) x

/-! ### Sleep (R145, R146) -/

/-- The line takes part in the announcement. -/
def announces (d : Dev) (x : Line) : Bool := termState d x == stOperate || termState d x == stStandby

/-- RNG is asked for entry to Hush or Keep: every line in Operate or Standby announces it (R145). -/
def sleepAsk (d : Dev) (keep : Bool) : Dev :=
  forEach [Line.a, .b] (fun d x =>
    if announces d x then
      let d := queueLmm d x 0x85 [BitVec.ofNat 8 (boolBit keep)]
      setRng d x (fun h => { h with asked := true, acked := none, askedAt := framesOf d x })
    else setRng d x (fun h => { h with asked := false, acked := none })) d

/-- RNG's answer: none while an acknowledgement is outstanding. -/
def sleepAnswer (d : Dev) : Option Bool :=
  let hs := [d.rngHw.a, d.rngHw.b].filter (·.asked)
  if hs.any (fun h => h.acked == some false) then some false
  else if hs.all (fun h => h.acked == some true) then some true else none

def sleepNak (d : Dev) (x : Line) : Dev :=
  raiseRng (setRng d x (fun h => { h with acked := some false })) x rgSleepNak

/-- SLEEP_ACK (R145). -/
def sleepAck (x : Line) (h : LmmHead) (status : BitVec 8) (lease : BitVec 16) (d : Dev) : Dev :=
  takeLmm d x h 6 (notAddressed h || decide (1 < status.toNat) || (status == 0 && lease == 0)) (some (.sleepAck x h status lease))
    (fun d => d) (fun d =>
      if (d.rngHw.get x).asked && (d.rngHw.get x).acked.isNone then
        if status = 0 then
          some (setRng (setFld d (RNG_Lx_SLEEP_LEASE x.ix) lease.toNat) x (fun h => { h with acked := some true }))
        else some (sleepNak d x)
      else none)

/-- SLEEP_ACK_TIMEOUT (R145): 32 frames of the line without an acknowledgement (R7). -/
def sleepAckTimeout (x : Line) (d : Dev) : Dev :=
  let h := d.rngHw.get x
  if h.asked && h.acked.isNone && decide (h.askedAt + 32 ≤ framesOf d x) then sleepNak d x else d

/-- The entry is granted: each announced line sets SLEEP and starts its lease; a line in Announce or Ranging is noted to return
to Listen at the wake (R145). -/
def sleepEnter (d : Dev) : Dev :=
  forEach [Line.a, .b] (fun d x =>
    if (d.rngHw.get x).asked then
      let d := setRng d x (fun h => { h with asked := false, acked := none, leaseFrom := d.clock.sec.toNat })
      setFld (setFlag (dropTimer d (.holdTo x)) (RNG_Lx_STATUS_SLEEP x.ix) true) (RNG_Lx_SLEEP_LEFT x.ix)
        (fld d (RNG_Lx_SLEEP_LEASE x.ix))
    else d) d

/-- The entry is given up: no line waits for an acknowledgement any more. -/
def sleepCancel (d : Dev) : Dev :=
  forEach [Line.a, .b] (fun d x => setRng d x (fun h => { h with asked := false, acked := none })) d

/-- Seconds of a line's lease that remain. -/
def leaseLeft (d : Dev) (x : Line) : Nat :=
  fld d (RNG_Lx_SLEEP_LEASE x.ix) - (d.clock.sec.toNat - (d.rngHw.get x).leaseFrom)

/-- A lease counts in device seconds while its line sleeps or waits to be bonded. -/
def leaseRuns (d : Dev) (x : Line) : Bool := asleep d x || timerRuns d (.wakeBond x)

def leaseTick (d : Dev) : Dev :=
  forEach [Line.a, .b] (fun d x => if leaseRuns d x then setFld d (RNG_Lx_SLEEP_LEFT x.ix) (leaseLeft d x) else d) d

/-- LEASE_EXPIRE (R145, R146): a line that is awake by then enters Listen; one that sleeps does so at the wake. -/
def leaseExpire (x : Line) (d : Dev) : Dev :=
  if leaseRuns d x && leaseLeft d x == 0 then
    let d := setFld d (RNG_Lx_SLEEP_LEFT x.ix) 0
    if asleep d x then d else enterListen d x reportWake
  else d

/-- The lines after a wake, once powered (R145, R146). -/
def wakeLine (d : Dev) (x : Line) : Dev :=
  if asleep d x then
    let d := setFlag d (RNG_Lx_STATUS_SLEEP x.ix) false
    if leaseLeft d x = 0 then enterListen d x reportWake
    else startTimer d (.wakeBond x) (fld d (RNG_Lx_TIMERS_HOLD_TO x.ix) * ticks100ms)
  else if termState d x = stAnnounce ∨ termState d x = stRanging then enterListen d x reportWake
  else d

/-- SLEEP_RESUME (R146). -/
def sleepResume (x : Line) (d : Dev) : Dev :=
  if timerRuns d (.wakeBond x) then
    if bonded d x && decide (0 < leaseLeft d x) && !timerOver d (.wakeBond x) then
      let d := dropTimer d (.wakeBond x)
      let st := BitVec.ofNat 8 (termState d x)
      queueLmm d x 0x84 [st, st, BitVec.ofNat 8 reportWake]
    else if timerOver d (.wakeBond x) || leaseLeft d x == 0 then enterListen (dropTimer d (.wakeBond x)) x reportWake
    else d
  else d

/-! ### RELEASE and FREEZE_REPORT (R36, R130) -/

/-- The RUNNING rings of function f, STOPPED while it is frozen, become DISABLED (R36, R323). -/
def stopRings (d : Dev) (f : Nat) : Dev :=
  forEach (List.range 1024) (fun d r =>
    if fld d (HIF_Rr_OWN_OWNER r) = f ∧ fld d (HIF_Rr_STATUS_STATE r) = 1 then setFld d (HIF_Rr_STATUS_STATE r) 0 else d) d

/-- Master m is released (R36): where it was frozen, its mark clears, its cause word stays, and messages that were held go out. A
function's rings stay disabled; a DMA channel is idle and shows the release (R356, R357). -/
def releaseMaster (d : Dev) (m : Master) : Dev :=
  if isFrozen d m then
    let d := if m < 0x20 then stopRings d m
      else if m < 0x60 then
        setFlag { d with host := { d.host with chans := d.host.chans.filter (fun e => e.1 != m - 0x20) } } (DMA_CHc_STATUS_RELEASED (m - 0x20)) true
      else if m < 0x64 then
        setFld { d with host := { d.host with boot := d.host.boot.filter (fun e => e.1 != m - 0x60) } } (BDM_CHc_STATUS_RESULT (m - 0x60)) 8
      else d
    flushVectors (setRegBit d (ROOT_FRZ_MAP (m / 32)) (m % 32) false)
  else d

/-- RELEASE (R130). -/
def release (x : Line) (h : LmmHead) (master : BitVec 8) (d : Dev) : Dev :=
  takeLmm d x h 0x0D (notAddressed h || master != 0) (some (.release x h master)) (fun d => d) (fun d => some (releaseMaster d 0))

/-- FREEZE_REPORT (R130): firmware queues the report on every line in Operate or Standby. -/
def freezeReport (d : Dev) : Dev :=
  if d.frzReport && !coresHalted d then
    let w := rdn d (ROOT_FRZ_CAUSE 0)
    let p : List Byte := [0, BitVec.ofNat 8 (w / 0x4000000)] ++ beBytes 4 (w % 0x4000000)
    forEach [Line.a, .b] (fun d x => if announces d x then queueLmm d x 0x86 p else d) { d with frzReport := false }
  else d

end Sys2Proof.Machine
end

