-- ==== Sys2Proof/Machine/Cipher.lean ====
section
/-!
DEFINITION. Machine/Cipher.lean: the line cipher (R180 to R197, spec/10): key slots and pages, counters, the engines, and the
handling of units and frames up to their encapsulation.
-/

namespace Sys2Proof.Machine

/-! ### Slots and pages (R187, R188) -/

def raiseCip (d : Dev) (b : Nat) : Dev := raiseEvt d evCIP b
def cpAuthFail : Nat := 0
def cpExhausted : Nat := 1
def cpMismatch : Nat := 2
def cpRetired : Nat := 3
def cpCapacity : Nat := 4
def cpRefused : Nat := 5

def keySlot (d : Dev) (k : Nat) : KeySlot := sget KeySlot.empty d.keySlots k
def setSlot (d : Dev) (k : Nat) (s : KeySlot) : Dev := { d with keySlots := sput KeySlot.empty d.keySlots k s }

def slotLoaded (d : Dev) (k : Nat) : Bool := regBit d (CIP_PAGEp_STATUS (k / 4)) (k % 4)
def slotExhausted (d : Dev) (k : Nat) : Bool := regBit d (CIP_PAGEp_STATUS (k / 4)) (4 + k % 4)

def txCtr (d : Dev) (k : Nat) : Nat := rdPair d (CIP_TX_CTR_LO k) (CIP_TX_CTR_HI k)
def rxCtr (d : Dev) (k : Nat) : Nat := rdPair d (CIP_RX_CTR_LO k) (CIP_RX_CTR_HI k)
def setTxCtr (d : Dev) (k n : Nat) : Dev := wrPair d (CIP_TX_CTR_LO k) (CIP_TX_CTR_HI k) n
def setRxCtr (d : Dev) (k n : Nat) : Dev := wrPair d (CIP_RX_CTR_LO k) (CIP_RX_CTR_HI k) n

/-- The counter limit in force: LO as checked with HI (R186, R465). -/
def ctrLimit (d : Dev) : Nat := d.ctrLimit

/-- EXHAUSTED is set and raised once (R186). -/
def exhaust (d : Dev) (k : Nat) : Dev :=
  if slotExhausted d k then d else raiseCip (setRegBit d (CIP_PAGEp_STATUS (k / 4)) (4 + k % 4) true) cpExhausted

/-- A counter of a loaded slot has reached the limit. -/
def checkExhausted (d : Dev) (k : Nat) : Dev :=
  if slotLoaded d k && (decide (ctrLimit d ≤ txCtr d k) || decide (ctrLimit d ≤ rxCtr d k)) then exhaust d k else d

def refuseKey (d : Dev) : Dev := raiseCip (count d CIP_KEY_REFUSED) cpRefused

/-- The slot is the TX slot of its page, by the applied selection. -/
def isTxSlot (d : Dev) (k : Nat) : Bool := fldA d (CIP_PAGEp_TXSEL_TX_SLOT (k / 4)) == k % 4

/-- The slot is the TX slot of a page whose applied MODE is GCM (R188). -/
def txOfGcm (d : Dev) (k : Nat) : Bool := pageGcm d (k / 4) && isTxSlot d k

/-- A key is installed: LOADED, counters and E at 0, EXHAUSTED and DESYNC clear, and no word written since (R188). -/
def installKey (d : Dev) (k : Nat) (key : BitVec 256) : Dev :=
  let d := setSlot d k { KeySlot.empty with key := key }
  let d := setRxCtr (setTxCtr d k 0) k 0
  let st := CIP_PAGEp_STATUS (k / 4)
  setRegBit (setRegBit (setRegBit d st (k % 4) true) st (4 + k % 4) false) st (8 + k % 4) false

/-- The slot becomes EMPTY (R188, R189). -/
def emptySlot (d : Dev) (k : Nat) : Dev :=
  let d := setRxCtr (setTxCtr (setSlot d k KeySlot.empty) k 0) k 0
  let st := CIP_PAGEp_STATUS (k / 4)
  setRegBit (setRegBit (setRegBit d st (k % 4) false) st (4 + k % 4) false) st (8 + k % 4) false

/-- LOAD (R188). -/
def loadSlot (d : Dev) (k : Nat) : Dev :=
  let s := keySlot d k
  if s.written ≠ 0xFF ∨ txOfGcm d k then refuseKey d
  else installKey d k s.words

/-- CLEAR (R188). -/
def clearSlot (d : Dev) (k : Nat) : Dev := if txOfGcm d k then refuseKey d else emptySlot d k

/-- A write of CIP_SLOT_CTL. -/
def slotCtl (m : Master) (k : Fin 256) (value : Word) (d : Dev) : Dev :=
  guarded d m (CIP_SLOT_CTL k).ofs (fun d =>
    let d := if value.getLsbD 0 then loadSlot d k else d
    if value.getLsbD 1 then clearSlot d k else d)

/-- SLOT_LOAD and SLOT_CLEAR. -/
def slotLoad (m : Master) (k : Fin 256) (value : Word) (d : Dev) : Dev := slotCtl m k (value ||| 1) d
def slotClear (m : Master) (k : Fin 256) (value : Word) (d : Dev) : Dev := slotCtl m k (value ||| 2) d

/-- Word j of a 256-bit key is replaced (R188). -/
def putWord (key : BitVec 256) (j : Nat) (w : Word) : BitVec 256 :=
  (key &&& ~~~ (((BitVec.allOnes 32).setWidth 256) <<< (32 * j))) ||| ((w.setWidth 256) <<< (32 * j))

/-- A key word of a slot is written. (log 53: DESIGN CHOICE, safe) -/
def writeKeyWord (d : Dev) (k j : Nat) (value : Word) : Dev :=
  let s := keySlot d k
  setSlot d k { s with words := putWord s.words j value, written := s.written ||| (1 <<< j) }

def pageLoaded (d : Dev) (p : Nat) : Bool := fld d (CIP_PAGEp_STATUS_LOADED p) != 0

/-- SALT_WRITE (R188). (log 51: DEDUCED, unsafe) -/
def saltWrite (m : Master) (p : Fin 64) (value : Word) (d : Dev) : Dev :=
  guarded d m (CIP_PAGEp_SALT p).ofs (fun d => if pageLoaded d p then refuseKey d else wr d (CIP_PAGEp_SALT p) value)

/-- The register of word j of a line's bootstrap key. -/
def bootReg (x : Line) (j : Nat) : Reg := if x = .a then CIP_LA_BOOTj j else CIP_LB_BOOTj j

/-- BOOT_KEY_WRITE (R192). -/
def bootKeyWrite (m : Master) (x : Line) (j : Fin 8) (value : Word) (d : Dev) : Dev :=
  guarded d m (bootReg x j).ofs (fun d =>
    let s := d.bootKeys.get x
    let s := { s with words := putWord s.words j value, written := s.written ||| (1 <<< j.val) }
    let d := { d with bootKeys := d.bootKeys.set x s }
    if s.written = 0xFF then setFlag d (if x = .a then CIP_STATUS_BOOT_SET_A else CIP_STATUS_BOOT_SET_B) true else d)

def bootSet (d : Dev) (x : Line) : Bool := flag d (if x = .a then CIP_STATUS_BOOT_SET_A else CIP_STATUS_BOOT_SET_B)

/-- The limit takes the checked value of its pair (R465), and every slot whose counter it has reached is exhausted (R186). -/
def limitWritten (d : Dev) (m : Master) : Dev :=
  let d := checkPair d m (unitAt 21) CIP_CTR_LIMIT_LO CIP_CTR_LIMIT_HI 32 0x100000 0xFFFFFFFFFFFFFFFF
  let d := { d with ctrLimit := rdPair d CIP_CTR_LIMIT_LO CIP_CTR_LIMIT_HI }
  forEach (List.range 256) checkExhausted d

/-- CTR_LIMIT_WRITE (R186): a LO write takes effect with the next HI write (R465). -/
def ctrLimitWrite (m : Master) (hi : Bool) (value : Word) (d : Dev) : Dev :=
  guarded d m (if hi then CIP_CTR_LIMIT_HI else CIP_CTR_LIMIT_LO).ofs (fun d =>
    if hi then limitWritten (wr d CIP_CTR_LIMIT_HI value) m else wr d CIP_CTR_LIMIT_LO value)

/-- A page changes owner (R187): its slots are cleared and its SALT is 0. -/
def clearPage (d : Dev) (p : Nat) : Dev :=
  wrn (forEach (List.range 4) (fun d s => emptySlot d (4 * p + s)) d) (CIP_PAGEp_SALT p) 0

/-- KEY_OWNER_CHANGE (R187). -/
def keyOwnerChange (m : Master) (p : Fin 56) (value : Word) (d : Dev) : Dev :=
  guarded d m (HIF_KPp_OWN p).ofs (fun d =>
    let was := fld d (HIF_KPp_OWN_OWNER p)
    let d := storeAt d m (HIF_KPp_OWN p).ofs value
    if fld d (HIF_KPp_OWN_OWNER p) = was then d
    else setFld (clearPage d (p + 8)) (CIP_PAGEp_STATUS_OWNER (p + 8)) (fld d (HIF_KPp_OWN_OWNER p)))

/-! ### The engines (R194, R195) -/

def engineState (d : Dev) (e : Nat) : Nat := fld d ⟨engineReg e, 31, 30⟩
def enginesOk (d : Dev) : Nat := fld d CIP_STATUS_ENGINES_OK

/-- An engine of group B: 8 to 15, and spare 17 (R193). -/
def inGroupB (e : Nat) : Bool := decide (8 ≤ e) && decide (e < 16) || e == 17

/-- A working engine: in service, in a group that has power (R193). -/
def engineWorks (d : Dev) (e : Nat) : Bool := engineState d e == 0 && domainOn d (if inGroupB e then 44 else 43)

def workingEngines (d : Dev) : List Nat := (List.range 18).filter (engineWorks d)

/-- Two engines that a unit may have gone to (R193): different, working, and one of each group while both groups have a working one. -/
def enginePair (d : Dev) (a b : Nat) : Bool :=
  let ws := workingEngines d
  a != b && engineWorks d a && engineWorks d b && (inGroupB a != inGroupB b || !(ws.any inGroupB && ws.any (fun e => !inGroupB e)))

/-- The number of working engines, and CAPACITY_LOW (R195). -/
def syncEngines (d : Dev) : Dev :=
  let n := (workingEngines d).length
  let low := decide (n < 8)
  let was := flag d CIP_STATUS_CAPACITY_LOW
  let d := setFlag (setFld d CIP_STATUS_ENGINES_OK n) CIP_STATUS_CAPACITY_LOW low
  if low && !was then raiseCip d cpCapacity else d

/-- The engine leaves service: its group's spare takes its place where it stands by, else the group runs with one engine
fewer (R194, R195). A retired spare in service is not replaced. -/
def retireEngine (d : Dev) (e : Nat) : Dev :=
  if engineState d e = 2 then d
  else
    let inService := engineState d e == 0
    let d := raiseCip (setFld d ⟨engineReg e, 31, 30⟩ 2) cpRetired
    let d := if (List.range 18).all (fun e => engineState d e == 2) then setFlag d (HDR_STATUS_RETIRED (unitAt 21).base) true else d
    if !inService then d
    else
      let b := inGroupB e
      let spare := if b then 17 else 16
      let used := if b then CIP_STATUS_SPARE_B_USED else CIP_STATUS_SPARE_A_USED
      let d := if e = spare then setFlag d used false else d
      let d := sliceService d spare
      if engineState d spare = 1 ∨ engineState d spare = 3 then
        setFlag (setFlag (setFld d ⟨engineReg spare, 31, 30⟩ 0) used true) (HDR_STATUS_SPARE_IN_USE (unitAt 21).base) true
      else
        syncEngines d

/-- An engine has a mismatch attributed to it (R194). -/
def faultEngine (d : Dev) (e : Nat) : Dev :=
  let d := countFld d ⟨engineReg e, 7, 0⟩
  if fld d CIP_CTL_RETIRE_THR ≤ fld d ⟨engineReg e, 7, 0⟩ then retireEngine d e else d

/-- A mismatch (R194): counted, raised, and attributed by a third working engine. Without one nothing is attributed. (log 215: DEDUCED, unsafe) -/
def engineMismatch (d : Dev) (e : EngineMiss) : Dev :=
  let third := (workingEngines d).any (fun w => w != e.first.val && w != e.second.val)
  let d := raiseCip (count d CIP_MISMATCH) cpMismatch
  if !third then d
  else
    let d := if e.odd = 1 then d else faultEngine d e.first
    if e.odd = 0 then d else faultEngine d e.second

/-- A mismatch of two engines that the unit cannot have gone to is none. -/
def realMiss (d : Dev) (e : EngineMiss) : Bool := enginePair d e.first e.second

/-! ### The transform (R183 to R185) -/

/-- The nonce for a page, direction and counter (R184). -/
def nonce (d : Dev) (p : Nat) (up : Bool) (c : Nat) : List Byte :=
  beBytes 4 (putBits (rd d (CIP_PAGEp_SALT p)) 31 31 (boolBit up)).toNat ++ beBytes 8 c

/-- The additional authenticated data: header bits 63:24 (R183). -/
def aadOf (hdr : Nat) : List Byte := beBytes 5 (hdr / 0x1000000)

/-- The first candidate counter that authenticates, of n from c on, each below the limit (R185). -/
def findCounter (d : Dev) (key : BitVec 256) (p hdr : Nat) (ct tag : List Byte) : Nat → Nat → Option Nat
  | 0, _ => none
  | n + 1, c =>
    if ctrLimit d ≤ c then none
    else if gcmTagBytes key (nonce d p false c) (aadOf hdr) ct = tag then some c
    else findCounter d key p hdr ct tag n (c + 1)

/-- No candidate authenticates (R181 rule 6, R185). -/
def authFail (d : Dev) (k : Nat) : Dev :=
  let d := raiseCip (count (count d CIP_AUTH_FAIL) (CIP_PAGEp_AUTH_FAIL (k / 4))) cpAuthFail
  let s := keySlot d k
  let d := setSlot d k { s with fails := s.fails + 1 }
  if s.fails + 1 = 16 then raiseCip (setRegBit d (CIP_PAGEp_STATUS (k / 4)) (8 + k % 4) true) cpRefused else d

/-- A ciphered downstream unit of page p (R181 rules 3 to 8, R195): its plaintext, or none where it is dropped. -/
def decipher (d : Dev) (p slot hdr : Nat) (payload : List Byte) (mis : Option EngineMiss) (overrun : Bool) :
    Dev × Option (List Byte) :=
  let k := 4 * p + slot
  if payload.length < 17 then (count d CIP_SHORT, none)
  else if !slotLoaded d k then (count d CIP_NO_KEY, none)
  else if slotExhausted d k then (count d CIP_EXH_DISCARD, none)
  else if overrun || decide (enginesOk d < 2) then (count d CIP_OVERRUN, none)
  else
    let ct := payload.take (payload.length - 16)
    let tag := payload.drop (payload.length - 16)
    let key := (keySlot d k).key
    let e := rxCtr d k
    match findCounter d key p hdr ct tag (fld d CIP_CTL_RX_WIN) e with
    | none => (authFail d k, none)
    | some c =>
      match mis.filter (realMiss d) with
      | some q => (engineMismatch d q, none)
      | none =>
        let d := countBy (setRxCtr d k (c + 1)) CIP_RX_SKIPPED (c - e)
        let s := keySlot d k
        let d := checkExhausted (count (setSlot d k { s with fails := 0 }) CIP_UNITS_RX) k
        (d, some (gcmXor key (nonce d p false c) ct))

/-- A downstream unit that ENC passes to CIP (R181): the bytes that go on, or none. page is the page of an OAM 0 unit's
endpoint. -/
def cipDown (d : Dev) (x : Line) (hdr : Nat) (oam : Bool) (page : Nat) (payload : List Byte) (mis : Option EngineMiss)
    (overrun : Bool) : Dev × Option (List Byte) :=
  let p := if oam then mgmtPage d x else page
  if !oam && decide (page < 8) then (count d CIP_PAGE_BAD, none)
  else if pageGcm d p then decipher d p (bitsOf hdr 29 28) hdr payload mis overrun
  else (d, some payload)

/-- Frame bytes cut into units of n bytes (R176). The fuel bounds their number. -/
def fragments : Nat → Nat → List Byte → List (List Byte)
  | 0, _, _ => []
  | k + 1, n, bs => if bs.length ≤ n then [bs] else bs.take n :: fragments k n (bs.drop n)

/-- The line units of the pieces of a frame: from transmit counter c under a key slot, or in clear (R172, R183). -/
def formUnits (d : Dev) (key : Option (BitVec 256 × Nat × Nat)) (tag : Nat) (oam time : Bool) : Nat → List (List Byte) → List LineUnit
  | _, [] => []
  | c, b :: t =>
    let last := t.isEmpty
    (match key with
      | none => { hdr := headerWord (headerTop b.length tag 0 (boolBit last) (boolBit oam) (boolBit time)), payload := b, tc := false, seq := 0 }
      | some (ky, p, slot) =>
        let hdr := headerWord (headerTop (b.length + 16) tag slot (boolBit last) (boolBit oam) (boolBit time))
        let ct := gcmXor ky (nonce d p true c) b
        { hdr := hdr, payload := ct ++ gcmTagBytes ky (nonce d p true c) (aadOf hdr) ct, tc := false, seq := 0 })
    :: formUnits d key tag oam time (c + 1) t

/-- An upstream frame is presented to CIP (R182, R186): its line units, or none where it is discarded. Counter values that a
discarded frame consumed are not used again. -/
def cipUp (d : Dev) (page tag : Nat) (oam time : Bool) (pieces : List (List Byte)) (mis : List EngineMiss) : Dev × Option (List LineUnit) :=
  let slot := fldA d (CIP_PAGEp_TXSEL_TX_SLOT page)
  let k := 4 * page + slot
  let n := pieces.length
  if !oam && decide (page < 8) then (count d CIP_PAGE_BAD, none)
  else if !pageGcm d page then (d, some (formUnits d none tag oam time 0 pieces))
  else if !slotLoaded d k then (count d CIP_NO_KEY, none)
  else if slotExhausted d k then (count d CIP_EXH_DISCARD, none)
  else if ctrLimit d < txCtr d k + n then (count (exhaust d k) CIP_EXH_DISCARD, none)
  else if enginesOk d < 2 then (countBy d CIP_OVERRUN n, none)
  else
    let c := txCtr d k
    let d' := checkExhausted (setTxCtr d k (c + n)) k
    let mis := (mis.take n).filter (realMiss d)
    if mis.isEmpty then (countBy d' CIP_UNITS_TX n, some (formUnits d (some ((keySlot d k).key, page, slot)) tag oam time c pieces))
    else (forEach mis engineMismatch d', none)

/-! ### Key messages (R191, R192) -/

/-- The line carries the role of standby while the management keys are mirrored: its key messages are rejected (R199).
(log 39: DEDUCED, unsafe) -/
def mirrorRejects (d : Dev) (x : Line) : Bool := flag d SDL_CFG_KEY_MIRROR && isActive d x.other

/-- The pages a key message acts on: the one it names, and with KEY_MIRROR the standby line's management page beside the
active line's (R199). -/
def keyPages (d : Dev) (x : Line) (page : Nat) : List Nat :=
  if flag d SDL_CFG_KEY_MIRROR && isActive d x && page == mgmtPage d x && page != mgmtPage d x.other then
    [page, mgmtPage d x.other] else [page]

/-- The key under which a KEY_WRAP for a page is unwrapped (R191, R192). -/
def wrapKey (d : Dev) (x : Line) (page : Nat) : Option (BitVec 256) :=
  let k := 4 * page + fldA d (CIP_PAGEp_TXSEL_TX_SLOT page)
  if slotLoaded d k then some (keySlot d k).key
  else if page = mgmtPage d x ∧ bootSet d x then some (d.bootKeys.get x).words else none

/-- The unwrapped key of a KEY_WRAP, if its rules hold. -/
def unwrapped (d : Dev) (x : Line) (page : Nat) (wrapped : List Byte) : Option (BitVec 256) :=
  (wrapKey d x page).bind (fun k => keyUnwrap k wrapped)

/-- The standby page's SALT, written by firmware while no slot of it is loaded (R199). -/
def mirrorSalt (d : Dev) (page q : Nat) : Dev :=
  if q = page ∨ pageLoaded d q then d else wr d (CIP_PAGEp_SALT q) (rd d (CIP_PAGEp_SALT page) ^^^ 0x40000000)

/-- A key message that names a page outside the head end's rights freezes the management channel (R191). -/
def foreignPage (d : Dev) (x : Line) (page : Nat) : Dev := freeze d (mgmtMaster x) causeLmm page

/-- A key message on a frozen channel that names a page outside the head end's rights is a further violation: it overwrites the cause
(R35), and is then discarded like every other (R34). -/
def foreignAgain (d : Dev) (x : Line) (h : LmmHead) (page : Nat) (bad : Bool) : Dev :=
  if forLine d x h && !bad && decide (8 ≤ page) && isFrozen d (mgmtMaster x) then foreignPage d x page else d

/-- KEY_WRAP (R191, R192). -/
def keyWrap (x : Line) (h : LmmHead) (page : BitVec 6) (slot : BitVec 2) (wrapped : List Byte) (d : Dev) : Dev :=
  let p := page.toNat
  let k := 4 * p + slot.toNat
  let bad := notAddressed h || mirrorRejects d x
    || (decide (p < 8) && !coresHalted d && !repeated d x h && (isTxSlot d k || (unwrapped d x p wrapped).isNone))
  takeLmm (foreignAgain d x h p bad) x h 9 bad (some (.keyWrap x h page slot wrapped)) (fun d => d) (fun d =>
    if 8 ≤ p then some (foreignPage d x p)
    else match unwrapped d x p wrapped with
      | none => none
      | some key => some (forEach (keyPages d x p) (fun d q =>
          let d := mirrorSalt d p q
          if txOfGcm d (4 * q + slot.toNat) then refuseKey d else installKey d (4 * q + slot.toNat) key) d))

/-- Firmware stages MODE GCM with the slot on the pages, and posts the commit anchored to frame n of the line from the post
block of core 0 (R191). -/
def postSwitch (d : Dev) (x : Line) (pages : List Nat) (slot n : Nat) : Dev :=
  let d := forEach pages (fun d q =>
    let r := CIP_PAGEp_TXSEL q
    let d := wrn d r (4 + slot)
    { d with dirty := insSorted r.ofs d.dirty }) d
  let d := setFld (wrn d (TCM_POST_TIME_LO 32) n) (TCM_POST_TIME_HI_VALUE 32) (n / 0x100000000)
  let d := setFld (setFld d (TCM_POST_CTL_ANCHOR 32) (1 + x.ix)) (TCM_POST_CTL_UNITS 32) 0x10
  post d 0x64 32

/-- KEY_SWITCH (R191). -/
def keySwitch (x : Line) (h : LmmHead) (page : BitVec 6) (slot : BitVec 2) (n : BitVec 48) (d : Dev) : Dev :=
  let p := page.toNat
  let bad := notAddressed h || mirrorRejects d x
    || (decide (p < 8) && !coresHalted d && !repeated d x h && !slotLoaded d (4 * p + slot.toNat))
  takeLmm (foreignAgain d x h p bad) x h 10 bad (some (.keySwitch x h page slot n)) (fun d => d) (fun d =>
    if 8 ≤ p then some (foreignPage d x p) else some (postSwitch d x (keyPages d x p) slot.toNat n.toNat))

/-- KEY_CLEAR (R191). -/
def keyClear (x : Line) (h : LmmHead) (page : BitVec 6) (slot : BitVec 2) (d : Dev) : Dev :=
  let p := page.toNat
  let k := 4 * p + slot.toNat
  let bad := notAddressed h || mirrorRejects d x || (decide (p < 8) && !coresHalted d && !repeated d x h && isTxSlot d k)
  takeLmm (foreignAgain d x h p bad) x h 11 bad (some (.keyClear x h page slot)) (fun d => d) (fun d =>
    if 8 ≤ p then some (foreignPage d x p)
    else some (forEach (keyPages d x p) (fun d q => clearSlot d (4 * q + slot.toNat)) d))

/-! ### Commits and power (R189, R190) -/

/-- CIP refuses the commit: a page it changes would have MODE GCM with a TX slot that is EMPTY or EXHAUSTED (R190). -/
def cipRefuses (d : Dev) (ws : List (Nat × Word)) : Bool :=
  (List.range 64).any (fun p => match carried ws (CIP_PAGEp_TXSEL p) with
    | none => false
    | some w =>
      let k := 4 * p + getBits w 1 0
      w.getLsbD 2 && (!slotLoaded d k || slotExhausted d k))

/-- Every slot of the pages becomes EMPTY (R189). -/
def emptyPages (d : Dev) (pages : List Nat) : Dev :=
  forEach pages (fun d p => forEach (List.range 4) (fun d s => emptySlot d (4 * p + s)) d) d

end Sys2Proof.Machine
end

