-- ==== Sys2Proof/Machine/Encap.lean ====
section
/-!
DEFINITION. Machine/Encap.lean: line encapsulation downstream (R170 to R178, spec/09): delineation, acceptance, reassembly and
the checks of a complete frame.
-/

namespace Sys2Proof.Machine

def setEnc (d : Dev) (x : Line) (f : EncHw → EncHw) : Dev := { d with encHw := d.encHw.set x (f (d.encHw.get x)) }

def raiseEnc (d : Dev) (b : Nat) : Dev := raiseEvt d evENC b
def enDelinLoss : Nat := 0
def enReasmOvf : Nat := 1
def enReasmTimeout : Nat := 2

/-! ### Header fields (R170) -/

def huLength (hdr : Nat) : Nat := bitsOf hdr 63 50
def huTag (hdr : Nat) : Nat := bitsOf hdr 49 30
def huLast (hdr : Nat) : Bool := bitOf hdr 27
def huOam (hdr : Nat) : Bool := bitOf hdr 26
def huTime (hdr : Nat) : Bool := bitOf hdr 25

/-- A header that passes its CRC (R171). -/
def hdrGood (hdr : Nat) : Bool := crc24Header (hdr / 0x1000000) == hdr % 0x1000000

/-- 64-bit words of a unit, header included. -/
def unitWords (hdr : Nat) : Nat := 1 + ceilDiv (huLength hdr) 8

/-! ### Delineation (R173) -/

def delinHunt : Nat := 0
def delinPresync : Nat := 1
def delinSync : Nat := 2
def delinOff : Nat := 3

def delin (d : Dev) (x : Line) : Nat := fld d (ENC_Lx_STATUS_DELIN x.ix)
def setDelin (d : Dev) (x : Line) (st : Nat) : Dev := setFld d (ENC_Lx_STATUS_DELIN x.ix) st

/-- The next header of the line is looked for at a word of frame n, or at word 0 of the next frame where n has no such word. -/
def lookAt (d : Dev) (x : Line) (n word : Nat) : Dev :=
  setEnc d x (fun h => if word < streamWords d x then { h with frame := n, next := word } else { h with frame := nextFrame n, next := 0 })

/-- A good header: the next one is expected after its unit. -/
def expectNext (d : Dev) (x : Line) (st word hdr : Nat) : Dev := lookAt (setDelin d x st) x (d.encHw.get x).frame (word + unitWords hdr)

/-- The line hunts from the word after this one. -/
def huntAfter (d : Dev) (x : Line) (word : Nat) : Dev := lookAt (setDelin d x delinHunt) x (d.encHw.get x).frame (word + 1)

/-- A failing header in SYNC (R173): DSF's count of the second takes it as well (R124). -/
def delinLost (d : Dev) (x : Line) (word : Nat) : Dev :=
  let d := count (count d (ENC_Lx_LU_HDR_ERR x.ix)) (ENC_Lx_LU_DELIN_LOSS x.ix)
  let d := { d with luHdrErr := d.luHdrErr.set x (d.luHdrErr.get x + 1) }
  huntAfter (raiseEnc d enDelinLoss) x word

/-- The word at which a header is looked for (R173): where the header at it leads, and whether its unit is delivered. good says that
it passes its CRC and touches no error mark (R171). In SYNC a failing header at word 0 is a loss like any other.
(log 50: DEDUCED, unsafe) -/
def delineate (d : Dev) (x : Line) (hdr : Nat) (good : Bool) : Dev × Bool :=
  let word := (d.encHw.get x).next
  let st := delin d x
  let pass := good && decide (word + unitWords hdr ≤ streamWords d x)
  if st = delinOff then (d, false)
  else if pass then
    if word = 0 ∨ st ≠ delinHunt then (expectNext d x delinSync word hdr, true)
    else (expectNext (setEnc d x (fun h => { h with cand := word })) x delinPresync word hdr, false)
  else if st = delinSync then (delinLost d x word, false)
  else if st = delinPresync ∧ word ≠ 0 then (huntAfter d x (d.encHw.get x).cand, false)
  else (huntAfter d x word, false)

/-! ### Acceptance bitmaps (R175) -/

/-- The copy of the line's bitmap in use. -/
def bmapInUse (d : Dev) (x : Line) : Nat := fldA d (if x = .a then ENC_BMAP_SEL_SEL_A else ENC_BMAP_SEL_SEL_B)

def bmapKey (x : Line) (copy k : Nat) : Nat := x.ix * 65536 + copy * 32768 + k

/-- The tag's bit in the copy in use. -/
def accepts (d : Dev) (x : Line) (tag : Nat) : Bool :=
  decide (tag < 0xFFFFE) && (sget 0 d.bitmaps (bmapKey x (bmapInUse d x) (tag / 32))).getLsbD (tag % 32)

/-- Word k of a line's idle copy is written; the bits of tags 0xFFFFE and 0xFFFFF stay 0. -/
def writeIdle (d : Dev) (x : Line) (k : Nat) (value : Word) : Dev :=
  let v := if k = 32767 then value &&& 0x3FFFFFFF else value
  { d with bitmaps := sput 0 d.bitmaps (bmapKey x (1 - bmapInUse d x) k) v }

/-- The line whose idle copy the aperture shows. -/
def apertureLine (d : Dev) : Line := Line.ofIx (fld d ENC_BMAP_PORT_LINE)

/-- A word of the aperture is written (R175, R199). -/
def writeAperture (d : Dev) (k : Nat) (value : Word) : Dev :=
  if flag d SDL_CFG_BMAP_MIRROR then writeIdle (writeIdle d .a k value) .b k value else writeIdle d (apertureLine d) k value

/-- BMAP_APERTURE_WRITE. -/
def bmapApertureWrite (m : Master) (k : Fin 32768) (value : Word) (d : Dev) : Dev :=
  guarded d m (ENC_BMAPk k).ofs (fun d => writeAperture d k value)

/-- A commit that changes one of SEL_A and SEL_B sets the other to the same value while the bitmaps are mirrored (R199); SEL_A
stands where both change. (log 58: DEDUCED, unsafe) -/
def mirrorSel (d : Dev) (oldA oldB : Nat) : Dev :=
  let a := fldA d ENC_BMAP_SEL_SEL_A
  let b := fldA d ENC_BMAP_SEL_SEL_B
  if flag d SDL_CFG_BMAP_MIRROR then
    let v := if a ≠ oldA then a else if b ≠ oldB then b else a
    if a = oldA ∧ b = oldB then d
    else
      let d := setFldA (setFldA d ENC_BMAP_SEL_SEL_A v) ENC_BMAP_SEL_SEL_B v
      setFld (setFld d ENC_BMAP_SEL_SEL_A v) ENC_BMAP_SEL_SEL_B v
  else d

/-! ### Reassembly (R177, R178) -/

def syncContexts (d : Dev) (x : Line) : Dev := setFld d (ENC_Lx_STATUS_CONTEXTS x.ix) (d.encHw.get x).ctxs.length

def dropContext (d : Dev) (x : Line) (tag : Nat) : Dev :=
  syncContexts (setEnc d x (fun h => { h with ctxs := h.ctxs.filter (fun c => c.tag != tag) })) x

/-- A complete frame goes to the parser after its checks (R178). -/
def frameComplete (d : Dev) (x : Line) (tag : Nat) (bytes : List Byte) (tagged : Bool) (stamp : Option Nat) : Dev :=
  if bytes.length ≤ 63 then count d (ENC_Lx_LU_RUNT x.ix)
  else if 9217 ≤ bytes.length then count d (ENC_Lx_LU_LONG x.ix)
  else if fcsGood bytes then
    { d with prsIn := d.prsIn ++ [{ bytes := bytes, src := .line x, oam := false, tag := tag, tagged := tagged, stamp := stamp }] }
  else count d (ENC_Lx_LU_FCS x.ix)

/-- A frame's last unit, however it fares, ends the dropping of its tag's units (R177). -/
def endDropping (d : Dev) (x : Line) (tag : Nat) (last : Bool) : Dev :=
  if last then setEnc d x (fun h => { h with dropping := delNat tag h.dropping }) else d

/-- The unit is the last of a frame. -/
def endsFrame (hdr : Nat) : Bool := huLast hdr && !huOam hdr

/-- The frame bytes of one unit join their tag's frame (R177). -/
def reassemble (d : Dev) (x : Line) (tag : Nat) (last tagged : Bool) (stamp : Option Nat) (bytes : List Byte) : Dev :=
  let h := d.encHw.get x
  if h.dropping.contains tag then endDropping d x tag last
  else match h.ctxs.find? (fun c => c.tag == tag) with
    | some c =>
      let bs := c.bytes ++ bytes
      if 9216 < bs.length then
        let d := count (dropContext d x tag) (ENC_Lx_LU_LONG x.ix)
        if last then d else setEnc d x (fun h => { h with dropping := insSorted tag h.dropping })
      else if last then frameComplete (dropContext d x tag) x tag bs (c.tagged || tagged) c.stamp
      else setEnc d x (fun h => { h with ctxs := h.ctxs.map (fun e => if e.tag = tag then { e with bytes := bs, tagged := e.tagged || tagged } else e) })
    | none =>
      if last then frameComplete d x tag bytes tagged stamp
      else if 64 ≤ h.ctxs.length then
        raiseEnc (count (setEnc d x (fun h => { h with dropping := insSorted tag h.dropping })) (ENC_Lx_REASM_OVF x.ix)) enReasmOvf
      else if 9216 < bytes.length then
        setEnc (count d (ENC_Lx_LU_LONG x.ix)) x (fun h => { h with dropping := insSorted tag h.dropping })
      else syncContexts (setEnc d x (fun h => { h with ctxs := h.ctxs ++ [{ tag := tag, bytes := bytes, opened := d.elapsed, tagged := tagged, stamp := stamp }] })) x

/-- Contexts are discarded and counted as timed out (R177). -/
def timeOutContexts (d : Dev) (x : Line) (p : Context → Bool) : Dev :=
  let n := ((d.encHw.get x).ctxs.filter p).length
  if n = 0 then d
  else
    let d := syncContexts (setEnc d x (fun h => { h with ctxs := h.ctxs.filter (fun c => !p c) })) x
    raiseEnc (countBy d (ENC_Lx_REASM_TIMEOUT x.ix) n) enReasmTimeout

/-- REASM_TIMEOUT (R177). -/
def reasmTimeout (x : Line) (d : Dev) : Dev :=
  timeOutContexts d x (fun c => decide (c.opened + fld d ENC_REASM_CFG_REASM_WIN * ticksPerUs ≤ d.elapsed))

/-- Payload delivery stops or bonding restarts (R177): every context is discarded. -/
def dropAllContexts (d : Dev) (x : Line) : Dev := setEnc (timeOutContexts d x (fun _ => true)) x (fun h => { h with dropping := [] })

/-- Payload is delivered or not (R121, R173). -/
def setDelivery (d : Dev) (x : Line) (on : Bool) : Dev :=
  if on then (if delin d x = delinOff then lookAt (setDelin d x delinHunt) x (lineFrame d x) 0 else d)
  else if delin d x = delinOff then d else dropAllContexts (setDelin d x delinOff) x

/-! ### A unit (R174, R181) -/

/-- The key page that an endpoint entry names (R254). -/
def epKeyPage (d : Dev) (ep : Nat) : Nat := bitsOf (sget 0 d.endpoints ep) 159 154

/-- A unit that ENC passes to CIP and then to reassembly, or to the parser as an OAM message. -/
def passUnit (d : Dev) (x : Line) (hdr : Nat) (payload : List Byte) (mis : Option EngineMiss) (overrun : Bool) (stamp : Option Nat) : Dev :=
  let tag := huTag hdr
  let (d, r) := cipDown d x hdr (huOam hdr) (epKeyPage d tag) payload mis overrun
  match r with
  | none => endDropping (dropContext d x tag) x tag (endsFrame hdr)
  | some bytes =>
    if huOam hdr then
      { d with prsIn := d.prsIn ++ [{ bytes := withFcs bytes, src := .line x, oam := true, tag := tag, tagged := huTime hdr, stamp := stamp }] }
    else reassemble d x tag (huLast hdr) (huTime hdr) stamp bytes

/-- A delineated unit (R174): on the standby line, and on a line whose delivery has not begun after a switch, it is dropped
after counting (R205 steps 4 and 5). n is the frame it came in. -/
def handleUnit (d : Dev) (x : Line) (n hdr : Nat) (payload : List Byte) (marked : Bool) (mis : Option EngineMiss) (overrun : Bool)
    (stamp : Option Nat) : Dev :=
  let tag := huTag hdr
  if tag = 0xFFFFF then d
  else if !accepts d x tag then count d (ENC_Lx_LU_FOREIGN x.ix)
  else if huLength hdr = 0 ∨ (huOam hdr ∧ !huLast hdr) then endDropping (count d (ENC_Lx_LU_BAD_RULE x.ix)) x tag (endsFrame hdr)
  else if marked then endDropping (dropContext (count d (ENC_Lx_LU_FEC_DISCARD x.ix)) x tag) x tag (endsFrame hdr)
  else
    let d := bwAdd (count d (ENC_Lx_LU_ACCEPTED x.ix)) (128 + 2 * x.ix) (8 + 8 * ceilDiv payload.length 8)
    if termState d x = stStandby ∨ !(d.lineFresh.get x) ∨ d.lineFirst.get x = some (nextFrame n) then endDropping d x tag (endsFrame hdr)
    else passUnit d x hdr payload mis overrun stamp

/-- The instant at which the first bit of a word of frame n's payload stream passed the lane boundary, in units of
2^-16 ns (R116, R305), if the frame has its stamp. -/
def unitStamp (d : Dev) (x : Line) (n word : Nat) : Option Nat :=
  ((d.fawStamps.get x).find? (fun s => s.frame == n)).map (fun s =>
    let m := (chanSet d x).length
    let i := 64 * word
    let k := i / (5140 * m)
    let c := i / 5140 % m
    let bits := 3200 + 5440 * k + i % 5140
    let skew := toSigned 16 (fld d (DSF_CHc_STATUS_SKEW_NS x.ix c))
    ((s.stamp.units16 : Int) + skew * 65536 + nearest (bits * 188253 * 65536 : Nat) 10000000).toNat)

/-- The word at which the next header is looked for, read from the payload stream (R116): the header with whether it is good, and its
payload with whether it touches an error mark; nothing while the stream has not come so far. -/
def nextUnit (d : Dev) (x : Line) : Option (Nat × Bool × List Byte × Bool) :=
  let h := d.encHw.get x
  match readStream d x h.frame h.next 8 with
  | none => none
  | some (hdr, marked) =>
    let good := hdrGood hdr && !marked
    if good && decide (h.next + unitWords hdr ≤ streamWords d x) then
      (readStream d x h.frame (h.next + 1) (huLength hdr)).map (fun r => (hdr, true, beBytes (huLength hdr) r.1, r.2))
    else some (hdr, good, [], false)

/-- The unit at the word where the next header is looked for; the encapsulation unit works in its domain 26. -/
def takeUnit (d : Dev) (x : Line) (mis : Option EngineMiss) (overrun : Bool) : Dev :=
  if domainOn d 26 && delin d x != delinOff then
    match nextUnit d x with
    | none => d
    | some (hdr, good, payload, marked) =>
      let h := d.encHw.get x
      let (d, deliver) := delineate d x hdr good
      if deliver then handleUnit d x h.frame hdr payload marked mis overrun (unitStamp d x h.frame h.next) else d
  else d

/-- LINE_UNIT_RX (R174). -/
def lineUnitRx (x : Line) (mis : Option EngineMiss) (d : Dev) : Dev := takeUnit d x mis false

/-- CIP_OVERRUN (R195). -/
def cipOverrun (x : Line) (d : Dev) : Dev := takeUnit d x none true

/-- The line's stream of frame n begins: codewords and a delivery mark older than the frame before it are done with, and a header not
yet found in an older frame is looked for in this one. -/
def streamBegins (d : Dev) (x : Line) (n : Nat) : Dev :=
  let h := d.encHw.get x
  let d := if d.lineFirst.get x = some n then d else { d with lineFirst := d.lineFirst.set x none }
  if h.frame = n ∨ h.frame = prevFrame n then agedWords d x n
  else
    let d := agedWords d x n
    lookAt (if delin d x = delinPresync then setDelin d x delinHunt else d) x n 0

end Sys2Proof.Machine
end

