-- ==== Sys2Proof/Machine/Anchors.lean ====
section
/-!
DEFINITION. Machine/Anchors.lean: time anchors (R295 to R297, spec/17).
-/

namespace Sys2Proof.Machine

def raiseTtd (d : Dev) (b : Nat) : Dev := raiseEvt d evTTD b
def tdAnchorRej : Nat := 0
def tdUncal : Nat := 1
def tdPrAlarm : Nat := 2
def tdPrMissing : Nat := 3
def tdTevOvf : Nat := 4
def tdToutMissed : Nat := 5
def tdNbAlarm : Nat := 6
def tdSyncSkip : Nat := 7

/-- The stamp of frame n, among those of the line's last 16 frames (R296). -/
def stampOfFrame (d : Dev) (x : Line) (n : Nat) : Option FawStamp := ((d.fawStamps.get x).take 16).find? (fun s => s.frame == n)

def rejectAnchor (d : Dev) (r : Reg) : Dev := raiseTtd (count d r) tdAnchorRej

def asymCh (d : Dev) (x : Line) : Nat := fld d (TTD_Lx_CFG_ASYM_CH x.ix)

/-- r(u) in units of 1/160,000 ps (R297). -/
def roundTrip (d : Dev) (x : Line) (u eqrt : Nat) : Int :=
  (eqrt : Int) * 160000 - (fld d (RNG_Lx_EQDu_EQD x.ix u) : Nat) * 6024096 - ucal d x u * 160000

/-- asym(u) of the result in use, in units of 1/160,000 ps: none in use counts 0 (R297). -/
def asymInUse (d : Dev) (x : Line) (u : Nat) : Int :=
  if flag d (RNG_Lx_LEN_VALID x.ix) then toSigned 32 (rdn d (RNG_Lx_ASYMu x.ix u)) * 10000 else 0

/-- d_ds in units of 1/320,000 ps (R297). -/
def downDelay (d : Dev) (x : Line) (eqrt : Nat) : Int :=
  let u := asymCh d x
  roundTrip d x u eqrt + asymInUse d x u + toSigned 16 (fld d (TTD_Lx_CFG_RX_CAL x.ix)) * 320000

/-- Units of 1/320,000 ps as units of 2^-16 ns. -/
def to16 (z : Int) : Int := nearest (z * 65536) 320000000

/-- An anchor that passes every check (R296, R297): its dataset, its delays, and its offset for the line's domain. -/
def acceptAnchor (d : Dev) (x : Line) (a : AnchorBody) (s : FawStamp) : Dev :=
  let dds := downDelay d x a.eqrt.toNat
  let t16 : Int := ((a.sec.toNat * nsPerSec + a.ns.toNat) * 65536 + a.frac.toNat : Nat)
  let x16 := t16 + to16 dds - s.stamp.units16
  let set : AnchorSet := { flags := a.flags, gmClass := a.gmClass, utc := a.utc, accuracy := a.accuracy, steps := a.steps,
                           variance := a.variance, identity := a.identity }
  let d := { d with anchorSet := d.anchorSet.set x set, anchored := d.anchored.set x true, eqrt := d.eqrt.set x a.eqrt.toNat,
                    ttd := { d.ttd with dds := d.ttd.dds.set x dds } }
  let d := wrn (count d (TTD_Lx_ANCHOR_OK x.ix)) (TTD_Lx_DDS x.ix) (ofSigned 32 (nearest dds 320000))
  let d := setFld (wrn d (TTD_Lx_LAST_N_LO x.ix) a.frame.toNat) (TTD_Lx_LAST_N_HI_VALUE x.ix) (a.frame.toNat / 0x100000000)
  let d := wrn d (TTD_Lx_LAST_OFS x.ix) (ofSigned 32 (nearest x16 256))
  let d := setFld (setFld (setFld d (TTD_Lx_DATASET_UTC_OFFSET x.ix) a.utc.toNat) (TTD_Lx_DATASET_GM_CLASS x.ix) a.gmClass.toNat)
    (TTD_Lx_DATASET_FLAGS x.ix) a.flags.toNat
  deliverOffset d x { x := x16 * 0x100000000, phase := s.phase }

def lastAnchor (d : Dev) (x : Line) : Nat := rdn d (TTD_Lx_LAST_N_LO x.ix) + 0x100000000 * fld d (TTD_Lx_LAST_N_HI_VALUE x.ix)

/-- Checks 2 to 6 of R296 for an anchor whose frame has its stamp. -/
def checkAnchor (d : Dev) (x : Line) (h : LmmHead) (a : AnchorBody) (s : FawStamp) : Dev :=
  let n := a.frame.toNat
  if (match d.kst.stepTick with
      | some t => decide (s.tick ≤ t)
      | none => false) then rejectAnchor d (TTD_Lx_STEPPED x.ix)
  else if h.frame.toNat < n + 1 ∨ n + 16 < h.frame.toNat then rejectAnchor d (TTD_Lx_LATE x.ix)
  else if d.anchored.get x ∧ n < lastAnchor d x + 1024 then rejectAnchor d (TTD_Lx_EARLY x.ix)
  else if !bitOf (fld d (RNG_Lx_STATUS_RANGED x.ix)) (asymCh d x) then rejectAnchor d (TTD_Lx_UNRANGED x.ix)
  else if flag d (RNG_Lx_STATUS_CAL_OK x.ix) then acceptAnchor d x a s
  else
    let d := raiseTtd (count d (TTD_Lx_UNCAL x.ix)) tdUncal
    if flag d (TTD_Lx_CFG_REQ_CAL x.ix) then raiseTtd d tdAnchorRej else acceptAnchor d x a s

/-- TIME_ANCHOR (R295, R296). -/
def timeAnchor (x : Line) (h : LmmHead) (a : AnchorBody) (d : Dev) : Dev :=
  takeLmm d x h 8 (decide (nsPerSec ≤ a.ns.toNat)) none (fun d => d) (fun d => some (
    match stampOfFrame d x a.frame.toNat with
    | none => rejectAnchor d (TTD_Lx_NO_STAMP x.ix)
    | some s =>
      if s.good && s.anchor && !s.stamp.coarse then checkAnchor d x h a s else rejectAnchor d (TTD_Lx_NO_STAMP x.ix)))

end Sys2Proof.Machine
end

