-- ==== Sys2Proof/Machine/Prbs.lean ====
section
/-!
DEFINITION. Machine/Prbs.lean: pattern generators and checkers of the line lanes and the server lanes (R98 to R102, spec/05;
R221, spec/12).
-/

namespace Sys2Proof.Machine

/-! ### The registers of a checker and of a generator -/

def chkReg : RxLane → Reg
  | .line x r => LLx_RXr_CHK x.ix r
  | .server q l => SLN_LANEl_CHK q l

def genReg : TxLane → Reg
  | .line x t => LLx_TXt_GEN x.ix t
  | .server q l => SLN_LANEl_GEN q l

def lockFld : RxLane → Fld
  | .line x r => LLx_RXr_STATUS_PRBS_LOCK x.ix r
  | .server q l => SLN_LANEl_STATUS_PRBS_LOCK q l

def errRegs : RxLane → Reg × Reg
  | .line x r => (LLx_RXr_ERR_LO x.ix r, LLx_RXr_ERR_HI x.ix r)
  | .server q l => (SLN_LANEl_ERR_LO q l, SLN_LANEl_ERR_HI q l)

def bitRegs : RxLane → Reg × Reg
  | .line x r => (LLx_RXr_BITS_LO x.ix r, LLx_RXr_BITS_HI x.ix r)
  | .server q l => (SLN_LANEl_BITS_LO q l, SLN_LANEl_BITS_HI q l)

/-- A number for each receive lane and for each transmit lane. -/
def rxKey : RxLane → Nat
  | .line x r => 8 * x.ix + r
  | .server q l => 16 + 4 * q + l

def txKey : TxLane → Nat
  | .line x t => 4 * x.ix + t
  | .server q l => 8 + 4 * q + l

def chkOn (d : Dev) (r : RxLane) : Bool := regBit d (chkReg r) 3
def chkLocked (d : Dev) (r : RxLane) : Bool := chkOn d r && flag d (lockFld r)
def genOn (d : Dev) (t : TxLane) : Bool := regBit d (genReg t) 3

/-- The counters of R101 stop at 2^48 − 1. -/
def countTop : Nat := 0xFFFFFFFFFFFF

def countErrs (d : Dev) (r : RxLane) (n : Nat) : Dev := countPairBy d (errRegs r).1 (errRegs r).2 countTop n

def countBits (d : Dev) (r : RxLane) (n : Nat) : Dev := countPairBy d (bitRegs r).1 (bitRegs r).2 countTop n

def raisePrbsLoss (d : Dev) : RxLane → Dev
  | .line x _ => raiseLL d x llPrbsLoss
  | .server q _ => raiseEvt d (evSLN q) 9

/-- The lane receives: it has power, and a server lane is not squelched in OFF or REF_WAIT (R81, R214, R221). -/
def laneReceives (d : Dev) : RxLane → Bool
  | .line x r => domainOn d (rxDomain x r)
  | .server q l => decide (2 ≤ fld d (SLN_LANEl_STATUS_STATE q l))

/-- The lane takes its bits in test bursts only (R98). -/
def inTestBursts (d : Dev) : RxLane → Bool
  | .line x r => looped d x r
  | .server _ _ => false

/-! ### Sequences (R99) -/

/-- Bits of a pattern that its next bit follows from: the degree of its polynomial, or the length of the 64-bit pattern. -/
def prbsWidth (pat : Nat) : Nat := if pat = 0 then 7 else if pat = 1 then 13 else if pat = 2 then 31 else 64

/-- How far back the bits lie whose sum is the next bit, less one: x^7 + x^6 + 1, x^13 + x^12 + x^2 + x + 1, x^31 + x^28 + 1; the
64-bit pattern repeats. -/
def prbsTaps (pat : Nat) : List Nat :=
  if pat = 0 then [6, 5] else if pat = 1 then [12, 11, 1, 0] else if pat = 2 then [30, 27] else [63]

/-- The bit that follows the last bits of a sequence, the newest in bit 0. -/
def prbsNext (pat reg : Nat) : Bool := (prbsTaps pat).foldl (fun b i => b != bitOf reg i) false

/-- A sequence's last bits with one more. -/
def prbsShift (pat reg : Nat) (b : Bool) : Nat := (2 * reg + boolBit b) % 2 ^ prbsWidth pat

/-- A generator's next bit and where it stands after it. A sequence starts with all ones behind it, the pattern with its bit 63.
(log 207: DESIGN CHOICE, unsafe) -/
def genStep (pat word st : Nat) : Bool × Nat :=
  if pat = 3 then (bitOf word (63 - st % 64), (st + 1) % 64)
  else
    let reg := if st = 0 then 2 ^ prbsWidth pat - 1 else st
    (prbsNext pat reg, prbsShift pat reg (prbsNext pat reg))

/-- The next n bits of a generator, and where it stands after them. -/
def genBits (pat word : Nat) : Nat → Nat → List Bool × Nat
  | 0, st => ([], st)
  | n + 1, st =>
    let (b, s) := genStep pat word st
    let (bs, e) := genBits pat word n s
    (b :: bs, e)

/-- The first n bits inverted (R102). -/
def invertFirst : Nat → List Bool → List Bool
  | n + 1, b :: t => (!b) :: invertFirst n t
  | _, l => l

/-! ### Lock, counts and loss (R101) -/

/-- A checker as it goes through received bits: where it stands, whether it is locked, the bits and errors to count, and how often
it has lost lock. -/
structure ChkSeen where
  hw : ChkHw
  locked : Bool
  bits : Nat
  errs : Nat
  losses : Nat
deriving DecidableEq, Repr

/-- A locked checker has checked n bits of the present interval, e of them in error; at the end of the interval it is judged. Intervals
are aligned to the bit after lock. (log 208: DESIGN CHOICE, unsafe) -/
def checked (s : ChkSeen) (n e : Nat) : ChkSeen :=
  let h := { s.hw with place := s.hw.place + n, errs := s.hw.errs + e }
  let s := { s with bits := s.bits + n, errs := s.errs + e }
  if h.place < 1024 then { s with hw := h }
  else if 64 ≤ h.errs then { s with hw := ChkHw.reset, locked := false, losses := s.losses + 1 }
  else { s with hw := { h with place := 0, errs := 0 } }

/-- The 64-bit pattern turned by some bits (R99). -/
def isTurned (word reg : Nat) : Bool :=
  (List.range 64).any (fun i => word * 2 ^ i % 2 ^ 64 + word / 2 ^ (64 - i) == reg)

/-- One received bit (R101): an unlocked checker takes in the bits of its pattern's length and then counts those that follow from the ones
before; 128 in a row lock it, for the 64-bit pattern once its bits are that pattern. A sequence of zeros seeds nothing. -/
def checkBit (pat word : Nat) (s : ChkSeen) (b : Bool) : ChkSeen :=
  let h := s.hw
  if s.locked then
    let e := prbsNext pat h.reg
    checked { s with hw := { h with reg := prbsShift pat h.reg e } } 1 (boolBit (e != b))
  else
    let next := { h with reg := prbsShift pat h.reg b }
    if h.fill < prbsWidth pat then { s with hw := { next with fill := h.fill + 1 } }
    else
      let run := if prbsNext pat h.reg == b && (pat == 3 || h.reg != 0) then h.run + 1 else 0
      if 128 ≤ run ∧ (pat ≠ 3 ∨ isTurned word next.reg) then
        { s with hw := { next with run := 0, place := 0, errs := 0 }, locked := true }
      else { s with hw := { next with run := run } }

/-- n bits of a locked lane from position at on, of which those of [lo, hi) are in error. The fuel is the number of intervals they touch. -/
def checkSpan : Nat → ChkSeen → Nat → Nat → Nat → Nat → ChkSeen
  | 0, s, _, _, _, _ => s
  | f + 1, s, n, at', lo, hi =>
    let k := min (1024 - s.hw.place) n
    if k = 0 then s
    else
      let s := checked s k (min hi (at' + k) - max lo at')
      if s.locked then checkSpan f s (n - k) (at' + k) lo hi else s

def chkHw (d : Dev) (r : RxLane) : ChkHw := sget ChkHw.reset d.prbsChk (rxKey r)

/-- A checker with nothing counted yet. -/
def seenBy (d : Dev) (r : RxLane) : ChkSeen := { hw := chkHw d r, locked := chkLocked d r, bits := 0, errs := 0, losses := 0 }

/-- What a checker has seen is counted and shown, and lost lock is raised. -/
def showSeen (d : Dev) (r : RxLane) (s : ChkSeen) : Dev :=
  let d := countErrs (countBits d r s.bits) r s.errs
  let d := setFlag { d with prbsChk := sput ChkHw.reset d.prbsChk (rxKey r) s.hw } (lockFld r) s.locked
  if s.losses = 0 then d else raisePrbsLoss d r

/-- A checker starts anew. -/
def resetChk (d : Dev) (r : RxLane) : Dev :=
  setFlag { d with prbsChk := sput ChkHw.reset d.prbsChk (rxKey r) ChkHw.reset } (lockFld r) false

/-- The lane of a checker stops receiving: an enabled checker loses its lock. (log 209: DESIGN CHOICE, unsafe) -/
def dropCheckLock (d : Dev) (r : RxLane) : Dev := if chkLocked d r then raisePrbsLoss (resetChk d r) r else resetChk d r

/-- PRBS_LOCK (R101): 128 consecutive error-free bits; for the 64-bit pattern the pattern phase as well. The bits it has taken in are
not stated to the block. (log 210: DEDUCED, unsafe) -/
def prbsLock (r : RxLane) (d : Dev) : Dev :=
  if chkOn d r && laneReceives d r && !inTestBursts d r && !flag d (lockFld r) then
    let w := prbsWidth (min (getBits (rd d (chkReg r)) 2 0) 3)
    let h := { ChkHw.reset with reg := Config.freeValue d.freeCount % 2 ^ w, fill := w }
    setFlag { d with freeCount := d.freeCount + 1, prbsChk := sput ChkHw.reset d.prbsChk (rxKey r) h } (lockFld r) true
  else d

/-- PRBS_LOSS (R101): received bits of the present interval of 1,024 are in error; they are counted, and with 64 or more in the interval
lock is lost. -/
def prbsLoss (r : RxLane) (errs : Nat) (d : Dev) : Dev :=
  if chkLocked d r && laneReceives d r && !inTestBursts d r && decide (errs ≤ 1024) then
    let h := chkHw d r
    let d := countErrs d r errs
    if 64 ≤ h.errs + errs then raisePrbsLoss (resetChk d r) r
    else { d with prbsChk := sput ChkHw.reset d.prbsChk (rxKey r) { h with errs := h.errs + errs } }
  else d

/-! ### Writes of the generator and checker registers (R100 to R102) -/

/-- The bits an injection command inverts: INJ_SINGLE one, INJ_BURST BURST_LEN; the single one stands where both are
written. -/
def injLength (value word : Word) : Nat :=
  if value.getLsbD 30 then 1 else if value.getLsbD 29 then getBits word 26 16 else 0

/-- A write of a checker register: its fields, CLR, and an injection unless one is in progress (R101, R102). A checker that is
disabled starts anew. -/
def chkWrite (m : Master) (r : RxLane) (value : Word) (d : Dev) : Dev :=
  guarded d m (chkReg r).ofs (fun d =>
    let d := storeAt d m (chkReg r).ofs value
    let d := if value.getLsbD 31 then
        wrPair (wrPair d (errRegs r).1 (errRegs r).2 0) (bitRegs r).1 (bitRegs r).2 0
      else d
    let d := if chkOn d r then d else resetChk d r
    let n := injLength value (rd d (chkReg r))
    if n ≠ 0 ∧ sget 0 d.injRx (rxKey r) = 0 then { d with injRx := sput 0 d.injRx (rxKey r) n } else d)

/-- A write of a generator register: its fields, and an injection unless one is in progress (R102). A generator that is enabled, or
given another pattern, starts its sequence. -/
def genWrite (m : Master) (t : TxLane) (value : Word) (d : Dev) : Dev :=
  guarded d m (genReg t).ofs (fun d =>
    let was := getBits (rd d (genReg t)) 3 0
    let d := storeAt d m (genReg t).ofs value
    let d := if genOn d t && getBits (rd d (genReg t)) 3 0 == was then d else { d with prbsGen := sput 0 d.prbsGen (txKey t) 0 }
    let n := injLength value (rd d (genReg t))
    if n ≠ 0 ∧ sget 0 d.injTx (txKey t) = 0 then { d with injTx := sput 0 d.injTx (txKey t) n } else d)

/-- CHECKER_CLR (R101). -/
def checkerClr (m : Master) (r : RxLane) (value : Word) (d : Dev) : Dev := chkWrite m r (value ||| 0x80000000) d

def prbsWrite (m : Master) (p : PrbsLane) (value : Word) (d : Dev) : Dev :=
  match p with
  | .gen t => genWrite m t value d
  | .chk r => chkWrite m r value d

/-- INJ_SINGLE (R102). -/
def injSingle (m : Master) (p : PrbsLane) (value : Word) (d : Dev) : Dev := prbsWrite m p (value ||| 0x40000000) d

/-- INJ_BURST (R102). -/
def injBurst (m : Master) (p : PrbsLane) (value : Word) (d : Dev) : Dev :=
  prbsWrite m p ((value ||| 0x20000000) &&& 0xBFFFFFFF) d

/-! ### Bits of a tick (R101, R102, R210) -/

/-- Bits of a lane in one tick of 40 ns, in twentieths of a bit (R80, R210). (log 27: DEDUCED, unsafe) -/
def laneRate (d : Dev) : RxLane → Nat
  | .line _ _ => 42496
  | .server q l =>
    let s := (sget LaneHw.reset d.lanes (4 * q + l)).speed
    if s = 0 then 8250 else if s = 1 then 20625 else if s = 2 then 42500 else 85000

/-- The bits of a lane in the tick, and what is left of the next one. -/
def laneBits (d : Dev) (r : RxLane) : Dev × Nat :=
  let t := sget 0 d.bitFrac (rxKey r) + laneRate d r
  ({ d with bitFrac := sput 0 d.bitFrac (rxKey r) (t % 20) }, t / 20)

/-- One tick of a receive lane with the transmit lane that ends in it, if one does: a locked checker counts the lane's bits, in error
where one of the two injections inverts them, and the injections advance. Both start with the tick's first bit.
(log 28: DEDUCED, unsafe) -/
def laneTick (d : Dev) (r : RxLane) (own : Option TxLane) : Dev :=
  if laneReceives d r && (chkOn d r || own.isSome) then
    let (d, n) := laneBits d r
    let nt := match own with
      | some t => sget 0 d.injTx (txKey t)
      | none => 0
    let nr := if chkOn d r then sget 0 d.injRx (rxKey r) else 0
    let d := if chkLocked d r then showSeen d r (checkSpan 8 (seenBy d r) n 0 (min nt nr) (max nt nr)) else d
    let d := if chkOn d r then { d with injRx := sput 0 d.injRx (rxKey r) (nr - n) } else d
    match own with
    | some t => { d with injTx := sput 0 d.injTx (txKey t) (nt - n) }
    | none => d
  else d

/-- The generator of a server lane whose output ends in the lane's own receiver (R220). -/
def ownGenerator (d : Dev) (q : Fin 16) (l : Fin 4) : Option TxLane :=
  if fld d (SLN_LANEl_CTL_TEST_MODE q l) = 1 ∧ genOn d (.server q l) then some (.server q l) else none

/-- A server lane in bench transmit spends its generator's injection on the pins (R220). -/
def benchTick (d : Dev) (q : Fin 16) (l : Fin 4) : Dev :=
  if fld d (SLN_LANEl_CTL_TEST_MODE q l) = 3 ∧ genOn d (.server q l) ∧ laneReceives d (.server q l) then
    { d with injTx := sput 0 d.injTx (txKey (.server q l)) (sget 0 d.injTx (txKey (.server q l)) - laneRate d (.server q l) / 20) }
  else d

/-- Generators and checkers in a tick. A line lane sends more than 1,024 bits in a tick, so bench transmit spends an injection whole. -/
def prbsTick (d : Dev) : Dev :=
  let d := forEach [Line.a, .b] (fun d x =>
    let d := forEach (List.finRange 8) (fun d r => if looped d x r then d else laneTick d (.line x r) none) d
    forEach (List.finRange 4) (fun d t =>
      if fld d (LLx_CTL_TEST_MODE x.ix) = 3 ∧ genOn d (.line x t) ∧ domainOn d (txDomain x) then
        { d with injTx := sput 0 d.injTx (txKey (.line x t)) 0 }
      else d) d) d
  forEach (List.finRange 16) (fun d q => forEach (List.finRange 4) (fun d l =>
    benchTick (laneTick d (.server q l) (ownGenerator d q l)) q l) d) d

/-! ### Near-end loopback of a line (R84, R98, R101, R102) -/

/-- Generator bits of one test burst: blocks 128 to 1,279 of 64 bits (R98). -/
def testBurstBits : Nat := 1152 * 64

/-- The levels of a test burst from its first preamble symbol on, and the device after it: 64 blocks of profile 0's preamble word, then
the generator's next bits with the injection that is due, or idle (R82, R83, R86, R98). -/
def testBurst (d : Dev) (x : Line) (k : Fin 4) : Dev × List Nat :=
  let t : TxLane := .line x k
  let c := rd d (LLx_TXt_CFG x.ix k)
  let pre := (List.replicate 64 (msbBits 64 (rdPair d (UPB_PRE_LO x.ix 0) (UPB_PRE_HI x.ix 0)))).flatten
  if genOn d t then
    let (bits, st) := genBits (min (getBits (rd d (genReg t)) 2 0) 3) (rdPair d (LLx_TXt_PAT_LO x.ix k) (LLx_TXt_PAT_HI x.ix k)) testBurstBits
      (sget 0 d.prbsGen (txKey t))
    let sent := pre ++ invertFirst (sget 0 d.injTx (txKey t)) bits
    ({ d with prbsGen := sput 0 d.prbsGen (txKey t) st, injTx := sput 0 d.injTx (txKey t) 0 },
      turnLevels (c.getLsbD 2) (sendLevels (c.getLsbD 1) (c.getLsbD 0) sent))
  else (d, turnLevels (c.getLsbD 2) (sendLevels (c.getLsbD 1) (c.getLsbD 0) pre ++ idleLevels 1152))

/-- The bits that a receive lane makes of a test burst within the generator's span, by its own settings. -/
def testBits (d : Dev) (x : Line) (r : Fin 8) (levels : List Nat) : List Bool :=
  let c := rd d (LLx_RXr_CFG x.ix r)
  (receiveBits (c.getLsbD 1) (c.getLsbD 0) 0 (turnLevels (c.getLsbD 2) levels)).drop (64 * 64)

/-- The checker of a looped lane examines the generator's span of a burst. -/
def checkBurst (d : Dev) (x : Line) (r : Fin 8) (levels : List Nat) : Dev :=
  let c : RxLane := .line x r
  if chkOn d c then
    let bits := invertFirst (sget 0 d.injRx (rxKey c)) (testBits d x r levels)
    let pat := min (getBits (rd d (chkReg c)) 2 0) 3
    let word := rdPair d (LLx_RXr_PAT_LO x.ix r) (LLx_RXr_PAT_HI x.ix r)
    showSeen { d with injRx := sput 0 d.injRx (rxKey c) 0 } c (bits.foldl (checkBit pat word) (seenBy d c))
  else d

/-- One looped lane of a test burst: SIGNAL is 1, clock recovery locks in the preamble and lets go after the burst (R84). -/
def loopLane (x : Line) (d : Dev) (k : Fin 4) : Dev :=
  let r : Fin 8 := ⟨k.val, by omega⟩
  let on := domainOn d (txDomain x)
  let (d, levels) := if on then testBurst d x k else (d, [])
  if domainOn d (rxDomain x r) then
    let d := setLaneBit d x r (LLx_RXr_STATUS_SIGNAL x.ix r) on
    let d := setLaneBit d x r (LLx_RXr_STATUS_CDR_LOCK x.ix r) on
    let d := if on then checkBurst d x r levels else d
    setLaneBit d x r (LLx_RXr_STATUS_CDR_LOCK x.ix r) false
  else d

/-- LOOPBACK_TEST_BURST (R98): one cycle of 1,344 blocks on the four looped lanes. -/
def loopbackTestBurst (x : Line) (d : Dev) : Dev :=
  if fld d (LLx_CTL_TEST_MODE x.ix) == 1 then forEach (List.finRange 4) (loopLane x) d else d

/-- A receive lane of a line loses power, and its checker with it (R81, R101). -/
def rxLaneOff (d : Dev) (x : Line) (r : Fin 8) : Dev := dropCheckLock (laneUnpowered d x r) (.line x r)

end Sys2Proof.Machine
end

