-- ==== Sys2Proof/Machine/Rings.lean ====
section
/-!
DEFINITION. Machine/Rings.lean: rings and completions (R321 to R324, R329 to R335, spec/18): states, indices, doorbells, posting
and signalling. What the entries of each kind do is in Machine/HostPort.lean and Machine/MainDma.lean.
-/

namespace Sys2Proof.Machine

def setHost (d : Dev) (f : HostHw → HostHw) : Dev := { d with host := f d.host }

def ringHw (d : Dev) (r : Nat) : RingHw := sget RingHw.reset d.host.rings r
def setRing (d : Dev) (r : Nat) (f : RingHw → RingHw) : Dev :=
  setHost d (fun h => { h with rings := sput RingHw.reset h.rings r (f (ringHw d r)) })

/-! ### Kinds and states (R321, R323) -/

def kindTx : Nat := 1
def kindRx : Nat := 2
def kindCq : Nat := 3
def kindCmd : Nat := 4
def kindDma : Nat := 5

def ringDisabled : Nat := 0
def ringRunning : Nat := 1
def ringStopped : Nat := 2
def ringError : Nat := 3

def ringKind (d : Dev) (r : Nat) : Nat := fld d (HIF_Rr_OWN_KIND r)
def ringOwner (d : Dev) (r : Nat) : Nat := fld d (HIF_Rr_OWN_OWNER r)

/-- The state of a ring (R323): a RUNNING ring whose owner is frozen is STOPPED. -/
def ringState (d : Dev) (r : Nat) : Nat :=
  let st := fld d (HIF_Rr_STATUS_STATE r)
  if st = ringRunning ∧ isFrozen d (ringOwner d r) then ringStopped else st

def ringSize (d : Dev) (r : Nat) : Nat := 2 ^ fld d (HIF_Rr_CFG_SIZE_LOG r)
def ringCq (d : Dev) (r : Nat) : Nat := fld d (HIF_Rr_CFG_CQ r)
def isSubmission (k : Nat) : Bool := k == kindTx || k == kindRx || k == kindCmd || k == kindDma

def ringRuns (d : Dev) (r : Nat) : Bool := ringState d r == ringRunning

/-- HIF works: its domain is on and it has not granted an entry to Hush or Keep (R336). -/
def hifWorks (d : Dev) : Bool := domainOn d 47 && !pwrStopped d 6

/-- Address of slot i of a ring. -/
def ringBase (d : Dev) (r : Nat) : Nat := fld d (HIF_Rr_ADDR_LO_ADDR r) * 4096 + 0x100000000 * rdn d (HIF_Rr_ADDR_HI r)
def slotAddr (d : Dev) (r i : Nat) : Nat := ringBase d r + 32 * (i % ringSize d r)

/-- The device's index as STATUS shows it, after it moved (R322). -/
def showIndex (d : Dev) (r : Nat) : Dev := setFld d (HIF_Rr_STATUS_INDEX r) (ringHw d r).dev

/-- A function event for the owner of a ring. -/
def raiseOwner (d : Dev) (r b : Nat) : Dev := raiseFn d (ringOwner d r) b

/-! ### Completion rings (R322, R332) -/

/-- Entries of a CQ ring that the host has not consumed. -/
def cqHeld (d : Dev) (c : Nat) : Nat := ((ringHw d c).dev + 0x10000 - (ringHw d c).host) % 0x10000

def cqFull (d : Dev) (c : Nat) : Bool := decide (ringSize d c - 1 ≤ cqHeld d c)

/-- A CQ ring can take n entries. (log 105: DEDUCED, unsafe) -/
def cqTakes (d : Dev) (c n : Nat) : Bool := ringRuns d c && decide (cqHeld d c + n ≤ ringSize d c - 1)

/-- CQ_FULL and the tick since which a CQ ring is full. -/
def syncFull (d : Dev) (c : Nat) : Dev :=
  let full := cqFull d c
  let d := setFlag d (HIF_Rr_STATUS_CQ_FULL c) full
  setRing d c (fun h => if full then { h with fullAt := some (h.fullAt.getD d.elapsed) } else { h with fullAt := none, stalled := false })

/-- The vector of a CQ ring is signalled: nothing is left unsignalled (R332). -/
def signalCq (d : Dev) (c : Nat) : Dev :=
  signalVector (setRing d c (fun h => { h with unsignalled := 0, firstAt := none })) (ringOwner d c) (fld d (HIF_Rr_CFG_CQ c) % 64)

/-- The 32 bytes of a completion with PHASE (R322, R329). -/
def withPhase (e : List Byte) (phase : Bool) : List Byte :=
  e.take 3 ++ [BitVec.ofNat 8 (byteAt e 3 % 128 + 128 * boolBit phase)] ++ e.drop 4

/-- A completion is written into a CQ ring that can take it, and COAL_CNT is counted (R322, R332). -/
def postCq (d : Dev) (c : Nat) (e : List Byte) : Dev :=
  let p := (ringHw d c).dev
  let d := emit d (.hostWrite (ringOwner d c) (slotAddr d c p) (withPhase e (p / ringSize d c % 2 == 0)))
  let d := setRing d c (fun h => { h with dev := (p + 1) % 0x20000, unsignalled := h.unsignalled + 1,
                                          firstAt := some (h.firstAt.getD d.elapsed) })
  let d := syncFull (showIndex d c) c
  if fld d (HIF_Rr_COAL_COAL_CNT c) ≤ (ringHw d c).unsignalled then signalCq d c else d

/-- A completion entry (R329): status, submission ring, index, the flags of bytes 4 to 7, bytes 8 to 11, the stamp in units of 2^-16
ns, TAG. -/
def completion (status r index word1 word2 : Nat) (stamp : Option Nat) (tag : Nat) : List Byte :=
  let t := stamp.getD 0
  let w1 := word1 + (if stamp.isSome then 2 ^ 29 else 0)
  leBytes 4 (status * 2 ^ 26 + r * 65536 + index % 65536) ++ leBytes 4 w1 ++ leBytes 4 word2
    ++ leBytes 4 (t / 65536 % nsPerSec) ++ leBytes 6 (t / 65536 / nsPerSec) ++ leBytes 2 (t % 65536) ++ leBytes 8 tag

/-- The status codes of R330. -/
def csOk : Nat := 0
def csQlimit : Nat := 1
def csDt : Nat := 2
def csPool : Nat := 3
def csBadLen : Nat := 4
def csBadQueue : Nat := 5
def csBadEp : Nat := 6
def csChain : Nat := 7
def csBadField : Nat := 8
def csFlushed : Nat := 9
def csEcc : Nat := 10
def csRights : Nat := 11
def csReadErr : Nat := 12

/-! ### Completions of submission rings, in descriptor order (R331) -/

/-- The completions at the head of a submission ring that are known and that its CQ ring can take are posted. -/
def settleFrom : Nat → Dev → Nat → Dev
  | 0, d, _ => d
  | n + 1, d, r =>
    match (ringHw d r).entries with
    | e :: rest =>
      match e.done with
      | some c =>
        if cqTakes d (ringCq d r) 1 then settleFrom n (postCq (setRing d r (fun h => { h with entries := rest })) (ringCq d r) c) r
        else d
      | none => d
    | [] => d

def settle (d : Dev) (r : Nat) : Dev := if domainOn d 47 then settleFrom (ringHw d r).entries.length d r else d

/-- The submission rings that feed a CQ ring (R321). -/
def feeders (d : Dev) (c : Nat) : List Nat :=
  (d.host.rings.map (·.1)).filter (fun r => isSubmission (ringKind d r) && ringCq d r == c)

/-- An entry begins: it waits for its completion. -/
def openEntry (d : Dev) (r index tag : Nat) (stamp : Bool) : Dev :=
  setRing d r (fun h => { h with entries := h.entries ++ [{ index := index, tag := tag, stamp := stamp, done := none }] })

/-- The entry of a submission ring at an index completes. -/
def closeEntry (d : Dev) (r index : Nat) (e : List Byte) : Dev :=
  settle (setRing d r (fun h => { h with entries := h.entries.map (fun x => if x.index = index then { x with done := some e } else x) })) r

/-- A host transmit entry completes with a status and, where one was taken, its stamp (R331). -/
def txResult (d : Dev) (r index status : Nat) (stamp : Option Nat) : Dev :=
  match (ringHw d r).entries.find? (fun x => x.index == index && x.done.isNone) with
  | some x => closeEntry d r index (completion status r index (127 * 65536) 0 stamp x.tag)
  | none => d

/-- A host transmit entry is admitted or dropped: without STAMP that completes it, with STAMP only a drop does (R331). -/
def txAdmitted (d : Dev) (r index status : Nat) : Dev :=
  match (ringHw d r).entries.find? (fun x => x.index == index && x.done.isNone) with
  | some x => if x.stamp && status == csOk then d else txResult d r index status none
  | none => d

/-- The device has consumed n descriptors of a submission ring (R322). -/
def consume (d : Dev) (r n : Nat) : Dev :=
  showIndex (setRing d r (fun h => { h with dev := (h.dev + n) % 0x10000 })) r

/-- Entries that the host has placed and the device has not consumed. -/
def ringFill (d : Dev) (r : Nat) : Nat := ((ringHw d r).host + 0x10000 - (ringHw d r).dev % 0x10000) % 0x10000

/-- A submission ring of a kind may begin an entry of n descriptors: it runs, HIF works, the descriptors are there, and its CQ ring
is not full (R332). -/
def mayBegin (d : Dev) (r kind n : Nat) : Bool :=
  ringRuns d r && ringKind d r == kind && hifWorks d && decide (0 < n) && decide (n ≤ ringFill d r)
    && cqTakes d (ringCq d r) 1

/-! ### Doorbells (R324) -/

def doorbellBad (d : Dev) (f : Nat) : Dev := raiseFn (count d HIF_DB_BAD) f evDbBad

/-- Checks 2 and 3 of R324 and the new index. -/
def doorbellIndex (d : Dev) (f r index : Nat) : Dev :=
  if !ringRuns d r then doorbellBad d f
  else if ringKind d r = kindCq then
    if (index + 0x10000 - (ringHw d r).host) % 0x10000 ≤ cqHeld d r then
      let d := syncFull (setRing d r (fun h => { h with host := index })) r
      forEach (feeders d r) settle d
    else doorbellBad d f
  else if (index + 0x10000 - (ringHw d r).dev % 0x10000) % 0x10000 ≤ ringSize d r - 1 then
    setRing d r (fun h => { h with host := index })
  else doorbellBad d f

/-- DOORBELL: function f writes size bytes of value to its BAR2 (R324). A frozen function's doorbell is discarded, but one for a ring
that it does not own is a further violation and overwrites the cause (R34, R35). A BAR2 access has none of the offsets that OFFSET may
name, and 0 is recorded. (log 106: DEDUCED, unsafe; log 192: DESIGN CHOICE, unsafe) -/
def doorbell (f : Fin 32) (size : Nat) (value : Word) (d : Dev) : Dev :=
  if !hostReaches d then d
  else if size ≠ 4 then (if isFrozen d f then d else count d HIF_DB_BAD)
  else
    let r := getBits value 25 16
    if ringOwner d r ≠ f.val then freeze d f causeRing 0
    else if isFrozen d f then d
    else doorbellIndex d f r (getBits value 15 0)

/-! ### Signalling and stalls (R332) -/

/-- CQ_SIGNAL: COAL_US have passed since the first unsignalled entry. -/
def cqSignal (c : Fin 1024) (d : Dev) : Dev :=
  match (ringHw d c).firstAt with
  | some t => if t + fld d (HIF_Rr_COAL_COAL_US c) * ticksPerUs ≤ d.elapsed then signalCq d c else d
  | none => d

/-- CQ_STALL: a CQ ring has been full for 1 ms. -/
def cqStall (c : Fin 1024) (d : Dev) : Dev :=
  match (ringHw d c).fullAt with
  | some t =>
    if ringKind d c = kindCq ∧ !(ringHw d c).stalled ∧ t + ticksPerMs ≤ d.elapsed then
      raiseOwner (count (setRing d c (fun h => { h with stalled := true })) HIF_CQ_STALL) c evCqStall
    else d
  | none => d

/-! ### Enabling and disabling (R323) -/

/-- The enable checks of R323. -/
def enableChecks (d : Dev) (r : Nat) : Bool :=
  let k := ringKind d r
  k != 0 && (!isSubmission k || (ringKind d (ringCq d r) == kindCq && ringOwner d (ringCq d r) == ringOwner d r))
    && (k != kindDma || fld d (HIF_DMACc_OWN_OWNER (fld d (HIF_Rr_RANGE_QBASE r) % 64)) == ringOwner d r)

/-- A ring becomes DISABLED; ENABLE and the indices clear where the rule says so. -/
def disableRing (d : Dev) (r : Nat) : Dev := setFld d (HIF_Rr_STATUS_STATE r) ringDisabled

/-- Every index of a ring is zeroed and nothing waits in it. -/
def zeroRing (d : Dev) (r : Nat) : Dev :=
  let d := { d with host := { d.host with rings := sdrop r d.host.rings } }
  setFlag (setFld d (HIF_Rr_STATUS_INDEX r) 0) (HIF_Rr_STATUS_CQ_FULL r) false

/-- ENABLE of a ring after a write of its CFG word (R323). -/
def enableWritten (d : Dev) (r : Nat) (now : Bool) : Dev :=
  if now && ringState d r == ringDisabled then
    if enableChecks d r then setFld (setFld (zeroRing d r) (HIF_Rr_STATUS_STATE r) ringRunning) (HIF_Rr_STATUS_ERR r) 0
    else raiseOwner (setFld d (HIF_Rr_STATUS_ERR r) 4) r evRingErr
  else if !now then disableRing d r
  else d

/-- A write of HIF_Rr_CFG (R323, R337): SIZE_LOG is kept while the ring is not DISABLED. -/
def ringCfgWrite (m : Master) (r : Nat) (value : Word) (d : Dev) : Dev :=
  guarded d m (HIF_Rr_CFG r).ofs (fun d =>
    let log := fld d (HIF_Rr_CFG_SIZE_LOG r)
    let value := if ringState d r = ringDisabled then value else putBits value 20 16 log
    let d := storeAt d m (HIF_Rr_CFG r).ofs value
    let d := recheckField d m (unitAt 62) ((HIF_Rr_COAL r).ofs - 0xF00000) 0x4018 (HIF_Rr_COAL_COAL_CNT r)
    enableWritten d r (flag d (HIF_Rr_CFG_ENABLE r)))

/-- RING_ENABLE: the word is written with ENABLE 1. -/
def ringEnable (m : Master) (r : Fin 1024) (value : Word) (d : Dev) : Dev := ringCfgWrite m r (value ||| 0x80000000) d

/-- RING_DISABLE: the word is written with ENABLE 0. -/
def ringDisable (m : Master) (r : Fin 1024) (value : Word) (d : Dev) : Dev := ringCfgWrite m r (value &&& 0x7FFFFFFF) d

/-! ### Failed reads of host memory (R334) -/

/-- HOST_READ_ERROR: a read for ring r fails: 0 of a descriptor, 1 of a body or data, 2 not completed within CPL_TO. The entry in
progress posts READ_ERR with its TAG, which no one has read where the descriptor's own read failed. (log 107: DEDUCED, safe) -/
def hostReadError (r : Fin 1024) (what : Fin 3) (tag : BitVec 64) (d : Dev) : Dev :=
  if ringRuns d r ∧ isSubmission (ringKind d r) ∧ hifWorks d then
    let d := setFld (setFld d (HIF_Rr_STATUS_STATE r) ringError) (HIF_Rr_STATUS_ERR r) (what.val + 1)
    let d := raiseOwner (count d HIF_RD_ERR) r evRingErr
    let i := (ringHw d r).dev % 0x10000
    let t := if what = 0 then Config.freeValue d.freeCount else tag.toNat
    let d := { d with freeCount := d.freeCount + boolBit (what == 0) }
    let d := consume (openEntry d r i t false) r 1
    closeEntry d r i (completion csReadErr r i 0 0 none t)
  else d

end Sys2Proof.Machine
end

