-- ==== Sys2Proof/Machine/ServerLanes.lean ====
section
/-!
DEFINITION. Machine/ServerLanes.lean: the server lanes (R210 to R224, spec/12): references, bring-up, resolution, test modes.
Lane k is lane k mod 4 of quad k / 4.
-/

namespace Sys2Proof.Machine

def laneHw (d : Dev) (k : Nat) : LaneHw := sget LaneHw.reset d.lanes k
def setLane (d : Dev) (k : Nat) (f : LaneHw → LaneHw) : Dev := { d with lanes := sput LaneHw.reset d.lanes k (f (laneHw d k)) }

def macHw (d : Dev) (k : Nat) : MacHw := sget MacHw.reset d.macs k
def setMac (d : Dev) (k : Nat) (f : MacHw → MacHw) : Dev := { d with macs := sput MacHw.reset d.macs k (f (macHw d k)) }

def lnOff : Nat := 0
def lnRefWait : Nat := 1
def lnDetect : Nat := 2
def lnAn : Nat := 3
def lnTrain : Nat := 4
def lnLock : Nat := 5
def lnCap : Nat := 6
def lnActive : Nat := 7
def lnTest : Nat := 8

def laneState (d : Dev) (k : Nat) : Nat := fld d (SLN_LANEl_STATUS_STATE (k / 4) (k % 4))

/-- The CFG and ADV words that act (R215): as written up to DETECT, as they stood on leaving it after that. -/
def laneCfg (d : Dev) (k : Nat) : Word := if laneState d k ≤ lnDetect then rd d (SLN_LANEl_CFG (k / 4) (k % 4)) else (laneHw d k).cfg
def laneAdv (d : Dev) (k : Nat) : Word := if laneState d k ≤ lnDetect then rd d (SLN_LANEl_ADV (k / 4) (k % 4)) else (laneHw d k).adv

def cfgAnEn (w : Word) : Bool := w.getLsbD 30
def cfgTrainEn (w : Word) : Bool := w.getLsbD 29
def cfgSpeed (w : Word) : Nat := getBits w 27 26
def cfgFec (w : Word) : Nat := getBits w 25 24
def cfgRefSel (w : Word) : Nat := getBits w 23 22
def cfgPresSrc (w : Word) : Nat := getBits w 21 20
def cfgMedia (w : Word) : Bool := w.getLsbD 28

def laneEnabled (d : Dev) (k : Nat) : Bool := flag d (SLN_LANEl_CFG_ENABLE (k / 4) (k % 4))
def hostPresent (d : Dev) (k : Nat) : Bool := flag d (SLN_LANEl_CFG_HOST_PRES (k / 4) (k % 4))
def laneTest (d : Dev) (k : Nat) : Nat := fld d (SLN_LANEl_CTL_TEST_MODE (k / 4) (k % 4))
def lanePowered (d : Dev) (k : Nat) : Bool := domainOn d (2 + k / 4)

/-- The quad has been retired (R386). -/
def quadRetired (d : Dev) (q : Nat) : Bool := fld d (BST_TGTt_STATUS_STATE (28 + q)) == 3

/-- REFSn is OK (R212). -/
def refsOk (d : Dev) (n : Nat) : Bool := regBit d (SLN_REFS_STATUS 0) n

def raiseSln (d : Dev) (k b : Nat) : Dev := raiseEvt d (evSLN (k / 4)) b

/-! ### Leaving ACTIVE (R214, R228) -/

/-- TX_HOLD of a lane (R228). -/
def txHold (d : Dev) (k : Nat) : Bool :=
  laneState d k != lnActive || flag d (SLN_LANEl_STATUS_LF (k / 4) (k % 4)) || flag d (SLN_LANEl_STATUS_RF (k / 4) (k % 4))

/-- The queue of port p that holds its own messages (R301, R302). -/
def syncQueue (d : Dev) (p : Nat) : Nat := p * 128 + fldA d (TTD_PORTp_CFG_SYNC_CLASS p)

/-- A Sync that waits for its launch instant is not sent (R302). -/
def skipSync (d : Dev) (p : Nat) : Dev :=
  let q := syncQueue d p
  let held := sget [] d.queues q
  let isSync (f : BufFrame) : Bool := f.launch.isSome
  let inMac := match (macHw d p).tx with
    | some f => isSync f
    | none => false
  let n := (held.filter isSync).length + boolBit inMac
  if n = 0 then d
  else
    let d := { d with queues := sput [] d.queues q (held.filter (fun f => !isSync f)) }
    let d := if inMac then setMac d p (fun m => { m with tx := none }) else d
    raiseEvt (countBy d (TTD_PORTp_SYNC_SKIP p) n) evTTD 7

/-- The frame that a MAC is sending is cut and counted (R228); a host's wish for its stamp ends with FLUSHED (R331).
(log 70: DEDUCED, unsafe) -/
def cutFrame (d : Dev) (k : Nat) : Dev :=
  match (macHw d k).tx with
  | some f =>
    let d := setMac (count d (MAC_LANEl_TX_ABORT (k / 4) (k % 4))) k (fun m => { m with tx := none })
    (match f.tx with
     | some (r, i) => txResult d r i csFlushed none
     | none => d)
  | none => d

/-- TX_HOLD is shown; where it rises, a Sync that waits for its launch is skipped (R302) and a frame that the MAC is sending is
cut (R228). -/
def syncHold (d : Dev) (k : Nat) : Dev :=
  let h := txHold d k
  let d := setFlag d (MAC_LANEl_STATUS_TX_HOLD (k / 4) (k % 4)) h
  if h then cutFrame (skipSync d k) k else d

/-- The timers of a lane's bring-up stop. -/
def dropLaneTimers (d : Dev) (k : Nat) : Dev :=
  forEach [TimerId.laneAn k, .laneTrain k, .laneLink k, .laneCap k, .laneBer k] dropTimer d

/-- The checker of lane k. -/
def laneChecker (k : Nat) : RxLane := .server (Fin.ofNat 16 (k / 4)) (Fin.ofNat 4 (k % 4))

/-- The lane takes a state (R214): a change out of ACTIVE is counted and raised and starts FLUSH_MS of its port (R291), and a squelched
lane's checker has nothing to lock to. -/
def setLaneState (d : Dev) (k st : Nat) : Dev :=
  let was := laneState d k
  if was = st then d
  else
    let (q, l) := (k / 4, k % 4)
    let d := if st ≤ lnRefWait then dropCheckLock d (laneChecker k) else d
    let d := if was = lnActive then setLane d k (fun h => { h with left' := some d.elapsed }) else d
    let d := setFld (setFld d (SLN_LANEl_STATUS_PREV_STATE q l) was) (SLN_LANEl_STATUS_STATE q l) st
    let d := setFld d ⟨SLN_QUAD_STATE q, 4 * l + 3, 4 * l⟩ st
    let d := if st = lnActive then dropTimer (raiseSln d k l) (.portFlush k)
      else if was = lnActive then
        startTimer (raiseSln (count d (SLN_LANEl_LINK_DOWN q l)) k (4 + l)) (.portFlush k) (fld d TMG_CFG_FLUSH_MS * ticksPerMs)
      else d
    syncHold d k

def setLastFail (d : Dev) (k cause : Nat) : Dev :=
  if cause = 0 then d else setFld d (SLN_LANEl_STATUS_LAST_FAIL (k / 4) (k % 4)) cause

/-- The lock indications of a lane clear, and what block lock has seen of headers. -/
def clearLocks (d : Dev) (k : Nat) : Dev :=
  let (q, l) := (k / 4, k % 4)
  let d := setLane d k (fun h => { h with headers := [] })
  forEach [SLN_LANEl_STATUS_SIGNAL q l, SLN_LANEl_STATUS_CDR_LOCK q l, SLN_LANEl_STATUS_AM_LOCK q l, SLN_LANEl_STATUS_BLOCK_LOCK q l,
    SLN_LANEl_STATUS_HI_BER q l, SLN_LANEl_STATUS_LF q l, SLN_LANEl_STATUS_RF q l] (fun d f => setFlag d f false) d

/-! ### Bring-up (R215) -/

/-- The speed, FEC and pause that a lane has resolved; they come into use in CAP (R218). -/
def resolveTo (d : Dev) (k speed fec : Nat) (pause : Bool × Bool) : Dev :=
  setLane d k (fun h => { h with speed := speed, fec := fec, pause := pause })

/-- What the lane has resolved goes to the MAC: RES_SPEED, RES_FEC, PAUSE_TX and PAUSE_RX (R218). (log 211: DEDUCED, unsafe) -/
def applyResolved (d : Dev) (k : Nat) : Dev :=
  let (q, l) := (k / 4, k % 4)
  let h := laneHw d k
  let d := setFld (setFld d (SLN_LANEl_STATUS_RES_SPEED q l) h.speed) (SLN_LANEl_STATUS_RES_FEC q l) h.fec
  setFlag (setFlag d (SLN_LANEl_STATUS_PAUSE_TX q l) h.pause.1) (SLN_LANEl_STATUS_PAUSE_RX q l) h.pause.2

/-- SIGNAL and CDR_LOCK of a lane that receives. (log 212: DEDUCED, unsafe) -/
def heardOn (d : Dev) (k : Nat) : Dev :=
  setFlag (setFlag d (SLN_LANEl_STATUS_SIGNAL (k / 4) (k % 4)) true) (SLN_LANEl_STATUS_CDR_LOCK (k / 4) (k % 4)) true

/-- The lane leaves DETECT: the words it works with are kept. -/
def keepCfg (d : Dev) (k : Nat) : Dev :=
  let c := rd d (SLN_LANEl_CFG (k / 4) (k % 4))
  let a := rd d (SLN_LANEl_ADV (k / 4) (k % 4))
  setLane d k (fun h => { h with cfg := c, adv := a, hits := 0 })

/-- The lane enters LOCK: LINK_TO starts (R215). -/
def enterLock (d : Dev) (k : Nat) : Dev :=
  startTimer (setLaneState (dropLaneTimers d k) k lnLock) (.laneLink k) (fld d (SLN_LANEl_TIMERS_LINK_TO (k / 4) (k % 4)) * ticksPerMs)

/-- Taps as written, where no training runs (R224). -/
def tapsWritten (d : Dev) (k : Nat) : Dev :=
  let (q, l) := (k / 4, k % 4)
  let d := setFld (setLane d k (fun h => { h with trained := false })) (SLN_LANEl_TAPS_AMP q l) (fld d (SLN_LANEl_TX_AMP q l))
  setFld (setFld d (SLN_LANEl_TAPS_PRE q l) (fld d (SLN_LANEl_TX_PRE q l))) (SLN_LANEl_TAPS_POST q l) (fld d (SLN_LANEl_TX_POST q l))

/-- TRAIN if TRAIN_EN, else LOCK; every test mode skips training (R220). The TX settings are what training starts from.
(log 65: DEDUCED, unsafe) -/
def enterTrain (d : Dev) (k : Nat) : Dev :=
  if cfgTrainEn (laneCfg d k) && laneTest d k == 0 then
    let d := setLane (tapsWritten d k) k (fun h => { h with trained := true })
    startTimer (setLaneState (dropLaneTimers d k) k lnTrain) (.laneTrain k)
      (fld d (SLN_LANEl_TIMERS_TRAIN_TO (k / 4) (k % 4)) * ticksPerMs * 100)
  else enterLock (tapsWritten d k) k

/-- The base page that a lane advertises (R217): ABIL among the technology bits that MEDIA selects, CR in bits 3:0 and KR in bits
7:4, with F3:F0 and C1:C0. -/
def ownTech (d : Dev) (k : Nat) : Nat :=
  let a := getBits (laneAdv d k) 3 0
  if cfgMedia (laneCfg d k) then 16 * a else a

def sendPage (d : Dev) (k : Nat) : Dev :=
  emit d (.basePage k (ownTech d k) (getBits (laneAdv d k) 7 4) (getBits (laneAdv d k) 9 8))

/-- A receiver has been found in DETECT (R215, R216, R223); every test mode skips negotiation (R220). -/
def receiverFound (d : Dev) (k : Nat) : Dev :=
  let d := sliceService d (28 + k / 4)
  let d := keepCfg (setFlag d (SLN_LANEl_STATUS_PRESENT (k / 4) (k % 4)) true) k
  let w := (laneHw d k).cfg
  if cfgAnEn w && laneTest d k == 0 then
    startTimer (sendPage (setLaneState d k lnAn) k) (.laneAn k) (fld d (SLN_LANEl_TIMERS_AN_TO (k / 4) (k % 4)) * ticksPerMs * 100)
  else enterTrain (resolveTo d k (cfgSpeed w) (cfgFec w) (false, false)) k

/-- The ticks between two common-mode steps (R216). -/
def probeTicks : Nat := 10 * ticksPerMs

/-- REF_OK of the reference that a lane works with, and whether it is OK. -/
def showRef (d : Dev) (k : Nat) : Dev × Bool :=
  let ok := refsOk d (cfgRefSel (laneCfg d k))
  (setFlag d (SLN_LANEl_STATUS_REF_OK (k / 4) (k % 4)) ok, ok)

/-- The lane enters REF_WAIT (R212, R215). -/
def enterRefWait (d : Dev) (k : Nat) : Dev :=
  setLaneState (clearLocks (dropLaneTimers (setLastFail d k 8) k) k) k lnRefWait

/-- A receiver that the host reports, or one that is always there, is found at once (R216). -/
def foundAtOnce (d : Dev) (k : Nat) : Bool :=
  cfgPresSrc (laneCfg d k) == 2 || (cfgPresSrc (laneCfg d k) == 1 && hostPresent d k)

/-- The lane enters DETECT with a cause (R215, R216): the values written to CFG and ADV apply from here on, a reference among them
that is not OK included, and PRES_SRC may find the receiver at once. (log 60: DEDUCED, unsafe) -/
def enterDetect (d : Dev) (k cause : Nat) : Dev :=
  let d := setLastFail d k cause
  let d := tapsWritten (setLaneState (clearLocks (dropLaneTimers d k) k) k lnDetect) k
  let d := setFlag (setLane d k (fun h => { h with hits := 0, probeAt := d.elapsed + probeTicks })) (SLN_LANEl_STATUS_PRESENT (k / 4) (k % 4)) false
  let (d, ok) := showRef d k
  if !ok then enterRefWait d k
  else if foundAtOnce d k then receiverFound d k else d

/-- The lane starts in DETECT, or in the start state of its test mode (R220): with the words written, and a reference that they name.
In near-end loopback without a generator the bring-up rows of R215 hold from LOCK on. (log 61: DEDUCED, unsafe) -/
def startLane (d : Dev) (k : Nat) : Dev :=
  let m := laneTest d k
  if m = 0 then enterDetect d k 0
  else
    let d := keepCfg (clearLocks (dropLaneTimers d k) k) k
    let w := (laneHw d k).cfg
    let d := tapsWritten (resolveTo d k (cfgSpeed w) (cfgFec w) (false, false)) k
    let ok := refsOk d (cfgRefSel w)
    let d := setFlag d (SLN_LANEl_STATUS_REF_OK (k / 4) (k % 4)) ok
    if !ok then enterRefWait d k
    else if m = 1 ∧ !flag d (SLN_LANEl_GEN_EN (k / 4) (k % 4)) then
      if cfgPresSrc w = 1 ∧ !hostPresent d k then enterDetect d k 7 else heardOn (enterLock d k) k
    else
      let d := setLaneState (applyResolved d k) k lnTest
      if m = 1 then heardOn d k else d

/-- PRESENT follows HOST_PRES wherever the host reports the receiver (R216). -/
def showHostPres (d : Dev) (k : Nat) : Dev :=
  if cfgPresSrc (laneCfg d k) = 1 then setFlag d (SLN_LANEl_STATUS_PRESENT (k / 4) (k % 4)) (hostPresent d k) else d

/-- REF_OK, and the rows of R215 that hold whatever the lane does: OFF, REF_WAIT, a start, a receiver that the host reports
gone. -/
def syncLaneState (d : Dev) (k : Nat) : Dev :=
  let (d, ok) := showRef (showHostPres d k) k
  let st := laneState d k
  if !lanePowered d k || !laneEnabled d k || quadRetired d (k / 4) then
    if st = lnOff then d else setLaneState (clearLocks (dropLaneTimers (setLastFail d k 9) k) k) k lnOff
  else if st != lnOff && !ok then
    if st = lnRefWait then d else enterRefWait d k
  else if (st = lnOff ∨ st = lnRefWait) ∧ ok then startLane d k
  else if st = lnDetect then (if foundAtOnce d k then receiverFound d k else d)
  else if lnDetect < st ∧ st ≤ lnActive ∧ cfgPresSrc (laneCfg d k) = 1 ∧ !hostPresent d k then enterDetect d k 7
  else d

/-! ### References (R212) -/

/-- REFS_BAD. -/
def refsBad (n : Fin 4) (d : Dev) : Dev :=
  if refsOk d n then
    let d := forEach (List.range 16) (fun d q => raiseEvt (setRegBit d (SLN_REFS_STATUS q) n false) (evSLN q) 8) d
    forEach (List.range 64) syncLaneState d
  else d

/-- REFS_OK: 100 ms within tolerance. -/
def refsGood (n : Fin 4) (d : Dev) : Dev :=
  let d := forEach (List.range 16) (fun d q => setRegBit d (SLN_REFS_STATUS q) n true) d
  forEach (List.range 64) syncLaneState d

/-! ### Register writes (R215, R216, R220, R223) -/

/-- A write of SLN_LANEl_CFG. ENABLE written to 1 asks service of a quad under a slice. -/
def laneCfgWrite (m : Master) (k : Nat) (value : Word) (d : Dev) : Dev :=
  guarded d m (SLN_LANEl_CFG (k / 4) (k % 4)).ofs (fun d =>
    let d := storeAt d m (SLN_LANEl_CFG (k / 4) (k % 4)).ofs value
    let d := if value.getLsbD 31 then sliceService d (28 + k / 4) else d
    syncLaneState d k)

def laneEnableWrite (m : Master) (q : Fin 16) (l : Fin 4) (value : Word) (d : Dev) : Dev := laneCfgWrite m (4 * q + l) value d
def hostPresWrite (m : Master) (q : Fin 16) (l : Fin 4) (value : Word) (d : Dev) : Dev := laneCfgWrite m (4 * q + l) value d

/-- A write of SLN_LANEl_CTL stores TEST_MODE, checks the generator's EN against it (R221), and restarts the lane: every such write
writes TEST_MODE (R215, R220). RESTART asks service of a quad under a slice (R223). -/
def laneCtlWrite (m : Master) (k : Nat) (value : Word) (d : Dev) : Dev :=
  guarded d m (SLN_LANEl_CTL (k / 4) (k % 4)).ofs (fun d =>
    let (q, l) := (k / 4, k % 4)
    let d := storeAt d m (SLN_LANEl_CTL q l).ofs value
    let u := unitAt (22 + q)
    let d := recheckField d m u ((SLN_LANEl_GEN q l).ofs - u.base) 0x1020 (SLN_LANEl_GEN_EN q l)
    let d := if value.getLsbD 31 then sliceService d (28 + q) else d
    if laneState d k ≤ lnRefWait then d else startLane d k)

/-- LANE_RESTART. -/
def laneRestart (m : Master) (q : Fin 16) (l : Fin 4) (value : Word) (d : Dev) : Dev :=
  laneCtlWrite m (4 * q + l) (value ||| 0x80000000) d

/-- SLN_TEST_MODE_WRITE. -/
def slnTestModeWrite (m : Master) (q : Fin 16) (l : Fin 4) (value : Word) (d : Dev) : Dev := laneCtlWrite m (4 * q + l) value d

/-- A write of SLN_LANEl_TX: the taps in use follow it where training has not set them (R224). -/
def laneTxWrite (m : Master) (k ofs : Nat) (value : Word) (d : Dev) : Dev :=
  let d := storeAt d m ofs value
  if (laneHw d k).trained then d else tapsWritten d k

/-! ### Detection and negotiation (R216, R217) -/

/-- DETECT_PROBE: a common-mode step, 10 ms after the one before; two detections in a row find the receiver. The steps wait for a quad
under a slice (R223). -/
def detectProbe (q : Fin 16) (l : Fin 4) (hit : Bool) (d : Dev) : Dev :=
  let k := 4 * q.val + l.val
  if laneState d k = lnDetect ∧ cfgPresSrc (laneCfg d k) = 0 ∧ (laneHw d k).probeAt ≤ d.elapsed ∧ sliceTarget d ≠ some (28 + q.val) then
    let n := if hit then (laneHw d k).hits + 1 else 0
    let d := setLane d k (fun h => { h with hits := n, probeAt := d.elapsed + probeTicks })
    if 2 ≤ n then receiverFound d k else d
  else d

/-- The DETECT timing of a quad resumes once the quad is restored (R223). -/
def resumeProbes (d : Dev) (q : Nat) : Dev :=
  forEach (List.range 4) (fun d l => setLane d (4 * q + l) (fun h => { h with probeAt := h.probeAt + (d.elapsed - d.bst.beganAt) })) d

/-- The highest of the common speeds, as SPEED codes it (R217). -/
def commonSpeed (a b : Nat) : Option Nat := [3, 2, 1, 0].find? (fun s => bitOf a s && bitOf b s)

/-- The FEC of a speed from both ends' F3:F0 (R217). -/
def commonFec (speed a b : Nat) : Nat :=
  if 2 ≤ speed then 3
  else if speed = 1 then (if bitOf a 2 || bitOf b 2 then 2 else if bitOf a 3 || bitOf b 3 then 1 else 0)
  else if bitOf a 0 && bitOf b 0 && (bitOf a 1 || bitOf b 1) then 1 else 0

/-- PAUSE resolution of Annex 28B from both ends' C1:C0: transmit, receive. (log 63: PRESUMED, unsafe) -/
def commonPause (a b : Nat) : Bool × Bool :=
  if bitOf a 0 && bitOf b 0 then (true, true)
  else if !bitOf a 0 && bitOf a 1 && b % 4 == 3 then (true, false)
  else if a % 4 == 3 && b % 4 == 2 then (false, true)
  else (false, false)

/-- AN_COMPLETE (R217): the page of the far end, its technology bits as the lane's own. (log 213: DEDUCED, unsafe) -/
def anComplete (q : Fin 16) (l : Fin 4) (tech : BitVec 8) (fec : BitVec 4) (pause : BitVec 2) (d : Dev) : Dev :=
  let k := 4 * q.val + l.val
  if laneState d k = lnAn then
    let a := laneAdv d k
    let common := ownTech d k &&& tech.toNat
    match commonSpeed (common / 16 ||| common % 16) 15 with
    | none => enterDetect (count d (SLN_LANEl_AN_FAIL q l)) k 2
    | some s => enterTrain (resolveTo (heardOn d k) k s (commonFec s (getBits a 7 4) fec.toNat) (commonPause (getBits a 9 8) pause.toNat)) k
  else d

/-- AN_TO_EXPIRE. -/
def anToExpire (q : Fin 16) (l : Fin 4) (d : Dev) : Dev :=
  let k := 4 * q.val + l.val
  if laneState d k = lnAn ∧ timerOver d (.laneAn k) then enterDetect (count d (SLN_LANEl_AN_FAIL q l)) k 1 else d

/-- TRAIN_COMPLETE: the taps that training left. -/
def trainComplete (q : Fin 16) (l : Fin 4) (amp : BitVec 8) (pre : BitVec 4) (post : BitVec 5) (d : Dev) : Dev :=
  let k := 4 * q.val + l.val
  if laneState d k = lnTrain then
    let d := setFld (setFld d (SLN_LANEl_TAPS_AMP q l) amp.toNat) (SLN_LANEl_TAPS_PRE q l) pre.toNat
    heardOn (enterLock (setFld d (SLN_LANEl_TAPS_POST q l) post.toNat) k) k
  else d

/-- TRAIN_FAIL: TRAIN_TO is over, or the training clause reports failure. -/
def trainFail (q : Fin 16) (l : Fin 4) (reported : Bool) (d : Dev) : Dev :=
  let k := 4 * q.val + l.val
  if laneState d k = lnTrain ∧ (reported ∨ timerOver d (.laneTrain k)) then enterDetect (count d (SLN_LANEl_TRAIN_FAIL q l)) k 3 else d

/-! ### Lock, capability exchange and service (R218, R219) -/

/-- The CAP_MS count starts anew. -/
def startCap (d : Dev) (k : Nat) : Dev :=
  startTimer d (.laneCap k) (fld d (SLN_LANEl_TIMERS_CAP_MS (k / 4) (k % 4)) * ticksPerMs)

/-- No fault is being received. -/
def noFault (d : Dev) (k : Nat) : Bool :=
  !flag d (SLN_LANEl_STATUS_LF (k / 4) (k % 4)) && !flag d (SLN_LANEl_STATUS_RF (k / 4) (k % 4))

/-- The lane works in an RS mode, so alignment-marker lock comes before block lock (R219). -/
def rsMode (d : Dev) (k : Nat) : Bool := decide (2 ≤ (laneHw d k).fec)

/-- Headers that a lane without block lock sees (R219): an invalid one slips a bit position. -/
def huntHeaders : LaneHw → List Bool → LaneHw
  | h, [] => h
  | h, b :: t => huntHeaders (if b then { h with headers := (true :: h.headers).take 64 } else { h with headers := [], slip := (h.slip + 1) % 66 }) t

/-- Headers that a lane with block lock sees, until 16 of 64 in a row are invalid (R219): whether lock holds. -/
def watchHeaders : LaneHw → List Bool → LaneHw × Bool
  | h, [] => (h, true)
  | h, b :: t =>
    let h := { h with headers := (b :: h.headers).take 64 }
    if 16 ≤ (h.headers.filter (fun v => !v)).length then (h, false) else watchHeaders h t

/-- BLOCK_LOCK (R219): whether the markers are locked, and the sync headers seen; 64 valid ones in a row lock. In LOCK the lane goes on
to CAP, applies what it has resolved and centres its elastic store. (log 62: DEDUCED, unsafe) -/
def blockLock (q : Fin 16) (l : Fin 4) (markers : Bool) (headers : List Bool) (d : Dev) : Dev :=
  let k := 4 * q.val + l.val
  if (laneState d k = lnLock ∨ laneState d k = lnCap) ∧ !flag d (SLN_LANEl_STATUS_BLOCK_LOCK q l) then
    let d := heardOn d k
    let d := if rsMode d k ∧ markers then setFlag d (SLN_LANEl_STATUS_AM_LOCK q l) true else d
    if rsMode d k ∧ !flag d (SLN_LANEl_STATUS_AM_LOCK q l) then d
    else
      let d := setLane d k (fun h => huntHeaders h headers)
      if (laneHw d k).headers.length < 64 then d
      else
        let d := setFlag (setLane d k (fun h => { h with fill := 16 })) (SLN_LANEl_STATUS_BLOCK_LOCK q l) true
        let d := if laneState d k = lnLock then setLaneState (applyResolved d k) k lnCap else d
        if noFault d k then startCap d k else d
  else d

/-- CAP_DONE; where LINK_TO has expired as well, its row comes first (R215). -/
def capDone (q : Fin 16) (l : Fin 4) (d : Dev) : Dev :=
  let k := 4 * q.val + l.val
  if laneState d k = lnCap ∧ timerOver d (.laneCap k) then
    if timerOver d (.laneLink k) then enterDetect d k 4
    else setLaneState (dropTimer (dropTimer d (.laneLink k)) (.laneCap k)) k lnActive
  else d

/-- LINK_TO_EXPIRE: in LOCK or CAP, or in ACTIVE under HI_BER. -/
def linkToExpire (q : Fin 16) (l : Fin 4) (d : Dev) : Dev :=
  let k := 4 * q.val + l.val
  let st := laneState d k
  if (st = lnLock ∨ st = lnCap) ∧ timerOver d (.laneLink k) then enterDetect d k 4
  else if st = lnActive ∧ timerOver d (.laneBer k) then enterDetect d k 6
  else d

/-- What a loss clears: the signal and all behind it, clock recovery, the markers, or the headers alone. -/
def lossClears (q l : Nat) : LockLoss → List Fld
  | .signal => [SLN_LANEl_STATUS_SIGNAL q l, SLN_LANEl_STATUS_CDR_LOCK q l, SLN_LANEl_STATUS_AM_LOCK q l, SLN_LANEl_STATUS_BLOCK_LOCK q l]
  | .clock => [SLN_LANEl_STATUS_CDR_LOCK q l, SLN_LANEl_STATUS_AM_LOCK q l, SLN_LANEl_STATUS_BLOCK_LOCK q l]
  | .markers => [SLN_LANEl_STATUS_AM_LOCK q l, SLN_LANEl_STATUS_BLOCK_LOCK q l]
  | .headers _ => [SLN_LANEl_STATUS_BLOCK_LOCK q l]

/-- LOCK_LOSS (R215, R219): the signal is lost, a lock, or headers show that block lock is. An ACTIVE lane returns to DETECT; before
that the indications clear, and the CAP_MS count breaks off. -/
def lockLoss (q : Fin 16) (l : Fin 4) (what : LockLoss) (d : Dev) : Dev :=
  let k := 4 * q.val + l.val
  let (d, lost) := match what with
    | .headers hs =>
      if flag d (SLN_LANEl_STATUS_BLOCK_LOCK q l) then
        let r := watchHeaders (laneHw d k) hs
        (setLane d k (fun _ => r.1), !r.2)
      else (d, false)
    | _ => (d, true)
  if !lost then d
  else if laneState d k = lnActive then
    enterDetect (count d (SLN_LANEl_LOCK_LOSS q l)) k (match what with
      | .signal => 7
      | _ => 5)
  else if lnDetect < laneState d k then
    let d := forEach (lossClears q l what) (fun d f => setFlag d f false) d
    dropTimer (setLane d k (fun h => { h with headers := [] })) (.laneCap k)
  else d

/-- FAULT_RECEIVED (R218): the CAP_MS count breaks off. One kind of fault is received at a time. -/
def faultReceived (q : Fin 16) (l : Fin 4) (remote : Bool) (d : Dev) : Dev :=
  let k := 4 * q.val + l.val
  if lnCap ≤ laneState d k ∧ laneState d k ≤ lnActive then
    let d := setFlag (setFlag d (SLN_LANEl_STATUS_RF q l) remote) (SLN_LANEl_STATUS_LF q l) (!remote)
    syncHold (dropTimer d (.laneCap k)) k
  else d

/-- FAULT_CLEAR (R218). -/
def faultClear (q : Fin 16) (l : Fin 4) (d : Dev) : Dev :=
  let k := 4 * q.val + l.val
  if noFault d k then d
  else
    let d := setFlag (setFlag d (SLN_LANEl_STATUS_RF q l) false) (SLN_LANEl_STATUS_LF q l) false
    syncHold (if laneState d k = lnCap ∧ flag d (SLN_LANEl_STATUS_BLOCK_LOCK q l) then startCap d k else d) k

/-- RATE_MATCH (R213): the elastic store has taken drift blocks more than it gave, and stands inside a frame or between frames. Between
frames it deletes one idle block above its centre and inserts one below; inside a frame it holds, and at 0 or 32 blocks it
restores its centre and the frame in progress ends in error. -/
def rateMatch (q : Fin 16) (l : Fin 4) (drift : Int) (inFrame : Bool) (d : Dev) : Dev :=
  let k := 4 * q.val + l.val
  if laneState d k = lnActive ∨ laneState d k = lnCap then
    let n := (((laneHw d k).fill : Int) + drift).toNat
    if inFrame then
      if n = 0 ∨ 32 ≤ n then count (setLane d k (fun h => { h with fill := 16, cut := true })) (SLN_LANEl_RM_OVF q l)
      else setLane d k (fun h => { h with fill := n })
    else if 16 < n then count (setLane d k (fun h => { h with fill := min n 32 - 1 })) (SLN_LANEl_RM_DEL q l)
    else if n < 16 then count (setLane d k (fun h => { h with fill := n + 1 })) (SLN_LANEl_RM_INS q l)
    else setLane d k (fun h => { h with fill := n })
  else d

/-- What the receive path of a lane has decoded (R219): in a mode with FEC, codewords and symbols, or bits, corrected and uncorrectable
codewords; and HI_BER as the PCS clause's monitor declares it. (log 64: DESIGN CHOICE, safe) -/
def decoded (d : Dev) (k : Nat) (w : LaneDecode) : Dev :=
  let (q, l) := (k / 4, k % 4)
  let d := if (laneHw d k).fec = 0 then d
    else
      let d := countBy (countBy d (SLN_LANEl_FEC_CORR_CW q l) w.corrected) (SLN_LANEl_FEC_SYM q l) w.symbols
      countBy d (SLN_LANEl_FEC_UNCORR_CW q l) (w.uncorrectable + w.marked)
  let was := flag d (SLN_LANEl_STATUS_HI_BER q l)
  let d := setFlag d (SLN_LANEl_STATUS_HI_BER q l) w.hiBer
  if w.hiBer then (if was then d else startTimer d (.laneBer k) (fld d (SLN_LANEl_TIMERS_LINK_TO q l) * ticksPerMs))
  else dropTimer d (.laneBer k)

end Sys2Proof.Machine
end

