-- ==== Sys2Proof/Machine/Correction.lean ====
section
/-!
DEFINITION. Machine/Correction.lean: stamps on the server lanes, the patching of PTP headers with their UDP checksums, and
transparent correction (R299, R305, R306, spec/17).
-/

namespace Sys2Proof.Machine

def setTtd (d : Dev) (f : TtdHw → TtdHw) : Dev := { d with ttd := f d.ttd }

/-! ### Stamps (R299) -/

/-- Picoseconds as units of 2^-16 ns. -/
def psTo16 (z : Int) : Int := nearest (z * 65536) 1000

/-- Device time ps after the present tick, in units of 2^-16 ns: device time runs at the applied frequency word (R40). -/
def instant16 (d : Dev) (ps : Nat) : Nat :=
  (nearest ((d.clock.units : Int) + nearest ((ps * rdPair d KST_FREQ_LO KST_FREQ_HI : Nat) : Int) 40000) 0x100000000).toNat

/-- MODE of a server port (R300), as applied. -/
def portMode (d : Dev) (p : Nat) : Nat := fldA d (TTD_PORTp_CFG_MODE p)
def modeOff : Nat := 0
def modeLocal : Nat := 1
def modeTransparent : Nat := 2

/-- A transmit stamp: the bit passes the reference plane TX_CAL after the balls; none with MODE OFF (R299, R300). -/
def transmitStamp (d : Dev) (p ps : Nat) : Option Nat :=
  if portMode d p = modeOff then none
  else some ((instant16 d ps : Int) + psTo16 (toSigned 16 (fld d (TTD_PORTp_CAL_TX_CAL p)))).toNat

/-- A receive stamp: the bit passed the reference plane RX_CAL before the balls. (log 93: DEDUCED, unsafe) -/
def receiveStamp (d : Dev) (p ps : Nat) : Option Nat :=
  if portMode d p = modeOff then none
  else some ((instant16 d ps : Int) - psTo16 (toSigned 16 (fld d (TTD_PORTp_CAL_RX_CAL p)))).toNat

/-! ### Patching (R306) -/

def setBytes (bs : List Byte) (o : Nat) (new : List Byte) : List Byte := bs.take o ++ new ++ bs.drop (o + new.length)

/-- A one's-complement sum of 16-bit words, folded. -/
def fold16 (n : Nat) : Nat := let a := n % 0x10000 + n / 0x10000; a % 0x10000 + a / 0x10000

def words16 : List Byte → List Nat
  | a :: b :: t => (a.toNat * 256 + b.toNat) :: words16 t
  | [a] => [a.toNat * 256]
  | [] => []

def sum16 (bs : List Byte) : Nat := (words16 bs).foldl (fun s w => fold16 (s + w)) 0

/-- The checksum after some words change, per RFC 1624: HC' = ~(~HC + ~m + m'); a UDP checksum of 0 is sent as 0xFFFF. -/
def updateChecksum (hc : Nat) (old new : List Byte) : Nat :=
  let s := (words16 old).foldl (fun s w => fold16 (s + (0xFFFF - w))) (0xFFFF - hc)
  let c := 0xFFFF - (words16 new).foldl (fun s w => fold16 (s + w)) s
  if c = 0 then 0xFFFF else c

/-- Bytes of a PTP message are replaced, and the UDP checksums that cover them follow (R306). -/
def patchPtp (t : TimeInfo) (bs : List Byte) (o : Nat) (new : List Byte) : List Byte :=
  let old := slice bs o new.length
  t.udps.foldl (fun bs (u, v6) =>
    let hc := beNat (slice bs (u + 6) 2)
    if hc = 0 ∧ !v6 then bs else setBytes bs (u + 6) (beBytes 2 (updateChecksum hc old new))) (setBytes bs o new)

/-- The FCS of a frame is generated anew (R225, R306). -/
def refreshFcs (bs : List Byte) : List Byte := withFcs (bs.take (bs.length - 4))

/-! ### Correction (R305) -/

def ptpType (bs : List Byte) (o : Nat) : Nat := byteAt bs o % 16
def ptpTwoStep (bs : List Byte) (o : Nat) : Bool := bitOf (byteAt bs (o + 6)) 1

/-- A frame with TIME_OP 10b whose PTP header holds an event message. (log 79: DEDUCED, unsafe) -/
def correctable (f : BufFrame) : Option Nat :=
  match f.time.ptp with
  | some o => if f.time.op = 2 ∧ ptpType f.bytes o ≤ 3 then some o else none
  | none => none

/-- The two-step exception: a Sync or Pdelay_Resp with twoStepFlag passes unchanged. -/
def twoStepHeld (bs : List Byte) (o : Nat) : Bool := (ptpType bs o == 0 || ptpType bs o == 3) && ptpTwoStep bs o

/-- correctionField increased, at most to 2^63 − 1. -/
def addCorrection (f : BufFrame) (o : Nat) (add : Int) : BufFrame :=
  let c := toSigned 64 (beNat (slice f.bytes (o + 8) 8)) + add
  let c := if (0x7FFFFFFFFFFFFFFF : Int) < c then 0x7FFFFFFFFFFFFFFF else c
  { f with bytes := patchPtp f.time f.bytes (o + 8) (beBytes 8 (ofSigned 64 c)) }

/-- Correction on the way out of server port p with transmit stamp tout (R305). -/
def correctOut (d : Dev) (p : Nat) (f : BufFrame) (tout : Option Nat) : Dev × BufFrame :=
  match correctable f, tout, f.time.stamp with
  | some o, some out, some tin =>
    if twoStepHeld f.bytes o then (count d (TTD_PORTp_TC_TWO_STEP p), f)
    else match f.src with
      | .lane _ => (count d (TTD_PORTp_TC_CORR p), addCorrection f o ((out : Int) - tin))
      | .line x =>
        if f.time.tagged then
          (count d (TTD_PORTp_TC_CORR p), addCorrection f o ((out : Int) - tin + to16 (d.ttd.dds.get x)))
        else (count (count d (TTD_PORTp_TC_CORR p)) (TTD_PORTp_TC_UNTAGGED p), addCorrection f o ((out : Int) - tin))
      | .host _ => (d, f)
      | .own _ => (d, f)
  | _, _, _ => (d, f)

/-- d_us(u) of a line in units of 2^-16 ns (R297). -/
def upstreamDelay16 (d : Dev) (x : Line) (u : Nat) : Int := to16 (2 * roundTrip d x u (d.eqrt.get x) - d.ttd.dds.get x)

/-- Correction on the way into the line: the unit's first bit passes the boundary at tout, on channel u (R305). Only server ports have a
TC_TWO_STEP, so a held message counts at the port it entered by. (log 94: DEDUCED, unsafe) -/
def correctUp (d : Dev) (x : Line) (u : Nat) (f : BufFrame) (tout : Nat) : Dev × BufFrame :=
  match correctable f, f.time.stamp, f.src with
  | some o, some tin, .lane k =>
    if twoStepHeld f.bytes o then (count d (TTD_PORTp_TC_TWO_STEP k), f)
    else
      let g := addCorrection f o ((tout : Int) - tin + upstreamDelay16 d x u)
      (count d (TTD_Lx_TC_CORR x.ix), { g with bytes := refreshFcs g.bytes })
  | _, _, _ => (d, f)

end Sys2Proof.Machine
end

