-- ==== Sys2Proof/Machine/Macs.lean ====
section
/-!
DEFINITION. Machine/Macs.lean: the server MACs (R225 to R234, spec/13; Sync launch R302, spec/17). MAC k serves lane k.
-/

namespace Sys2Proof.Machine

def macCfg (d : Dev) (k : Nat) : Word := rd d (MAC_LANEl_CFG (k / 4) (k % 4))
def maxLen (d : Dev) (k : Nat) : Nat := getBits (macCfg d k) 13 0
def fcMode (d : Dev) (k : Nat) : Nat := getBits (macCfg d k) 17 16
def wdEn (d : Dev) (k : Nat) : Bool := (macCfg d k).getLsbD 20

/-- PAUSE_RX and PAUSE_TX as they act: with AN_EN 0 both are 1 (R229). -/
def pauseRxOn (d : Dev) (k : Nat) : Bool := !cfgAnEn (laneCfg d k) || flag d (SLN_LANEl_STATUS_PAUSE_RX (k / 4) (k % 4))
def pauseTxOn (d : Dev) (k : Nat) : Bool := !cfgAnEn (laneCfg d k) || flag d (SLN_LANEl_STATUS_PAUSE_TX (k / 4) (k % 4))

/-- One byte at the lane's resolved speed, in ps (R210). (log 66: DEDUCED, unsafe) -/
def bytePs (d : Dev) (k : Nat) : Nat :=
  let s := fld d (SLN_LANEl_STATUS_RES_SPEED (k / 4) (k % 4))
  if s = 0 then 800 else if s = 1 then 320 else if s = 2 then 160 else 80

/-- One pause quantum, 512 bit times, in ps (R230). -/
def quantumPs (d : Dev) (k : Nat) : Nat := 64 * bytePs d k

/-- Elapsed time in ps. -/
def elapsedPs (d : Dev) : Nat := d.elapsed * 40000

/-! ### Pause timers (R230, R232); key 0 is the port, key 1 + p priority p -/

def pauseBit (k key : Nat) : Fld :=
  if key = 0 then MAC_LANEl_STATUS_PAUSED (k / 4) (k % 4) else ⟨MAC_LANEl_STATUS (k / 4) (k % 4), 7 + key, 7 + key⟩

def ignoreBit (k key : Nat) : Fld :=
  if key = 0 then MAC_LANEl_STATUS_WD_IGNORE (k / 4) (k % 4) else ⟨MAC_LANEl_STATUS (k / 4) (k % 4), key - 1, key - 1⟩

def pauseTimer (d : Dev) (k key : Nat) : Option PauseTimer := ((macHw d k).timers.find? (fun e => e.1 == key)).map (·.2)

/-- The timer of the port or of a priority is nonzero (R230). -/
def paused (d : Dev) (k key : Nat) : Bool :=
  match pauseTimer d k key with
  | some t => decide (elapsedPs d < t.stop)
  | none => false

/-- A frame whose transmission would begin at an instant, in ps of elapsed time, is held (R230). -/
def pauseHolds (d : Dev) (k key at' : Nat) : Bool :=
  match pauseTimer d k key with
  | some t => decide (t.held ≤ at') && decide (at' < t.stop)
  | none => false

def ignoring (d : Dev) (k key : Nat) : Bool := (macHw d k).ignore.any (fun e => e.1 == key)

def stopPause (d : Dev) (k key : Nat) : Dev :=
  setFlag (setMac d k (fun m => { m with timers := sdrop key m.timers })) (pauseBit k key) false

/-- A nonzero timer has stayed nonzero for 100 ms (R232). -/
def watchdogDue (d : Dev) (k key : Nat) : Bool :=
  wdEn d k && paused d k key && (match pauseTimer d k key with
    | some t => decide (t.since + 100 * ticksPerMs ≤ d.elapsed)
    | none => false)

/-- The watchdog trips: the timer is cleared, and for 10 ms control frames do not load it (R232). -/
def tripWatchdog (d : Dev) (k key : Nat) : Dev :=
  let d := stopPause d k key
  let d := setMac d k (fun m => { m with ignore := sins key (d.elapsed + 10 * ticksPerMs) (sdrop key m.ignore) })
  raiseEvt (setFlag (count d (MAC_LANEl_PAUSE_IGNORED (k / 4) (k % 4))) (ignoreBit k key) true) (evMAC (k / 4)) (k % 4)

/-- A control frame whose last FCS byte came ps after the present tick loads a timer (R230): frames that have not started 200 ns on
are held, at once where they already were. Quanta 0 releases it. A trip that is due in this tick
prevails (R232). A Sync that the port or its class holds is not sent (R302). -/
def loadPause (d : Dev) (k key quanta ps : Nat) : Dev :=
  let d := if watchdogDue d k key then tripWatchdog d k key else d
  if ignoring d k key then d
  else if quanta = 0 then stopPause d k key
  else
    let t0 := elapsedPs d + ps
    let fresh : PauseTimer := { stop := t0 + quanta * quantumPs d k, since := d.elapsed, held := t0 + 200000 }
    let t := match pauseTimer d k key with
      | some t => if paused d k key then { fresh with since := t.since, held := min t.held fresh.held } else fresh
      | none => fresh
    let d := setFlag (setMac d k (fun m => { m with timers := sins key t (sdrop key m.timers) })) (pauseBit k key) true
    let cls := fldA d (TTD_PORTp_CFG_SYNC_CLASS k)
    if key = 0 ∨ key = 1 + fld d (TMG_CLASSc_PRI cls) then skipSync d k else d

/-- PAUSE_RX: a PAUSE frame with its quanta (R229). (log 67: DEDUCED, unsafe; log 68: DEDUCED, unsafe) -/
def pauseRx (q : Fin 16) (l : Fin 4) (quanta : BitVec 16) (ps : Nat) (d : Dev) : Dev :=
  let k := 4 * q.val + l
  if laneState d k ≠ lnActive then d
  else
    let d := count d (MAC_LANEl_RX_PAUSE q l)
    if fcMode d k = 1 ∧ pauseRxOn d k then loadPause d k 0 quanta.toNat ps else d

/-- PFC_RX: a PFC frame with its class-enable vector and quanta (R229). -/
def pfcRx (q : Fin 16) (l : Fin 4) (enable : BitVec 8) (quanta : List Nat) (ps : Nat) (d : Dev) : Dev :=
  let k := 4 * q.val + l
  if laneState d k ≠ lnActive then d
  else
    let d := count d (MAC_LANEl_RX_PFC q l)
    if fcMode d k = 2 then
      forEach (List.range 8) (fun d p => if enable.getLsbD p then loadPause d k (1 + p) (quanta.getD p 0 % 0x10000) ps else d) d
    else d

/-- PAUSE_EXPIRE: a timer has reached 0 (R230). -/
def pauseExpire (q : Fin 16) (l : Fin 4) (key : Fin 9) (d : Dev) : Dev :=
  let k := 4 * q.val + l
  match pauseTimer d k key with
  | some t => if t.stop ≤ elapsedPs d then stopPause d k key else d
  | none => d

/-- PAUSE_WATCHDOG: a timer has stayed nonzero for 100 ms (R232). -/
def pauseWatchdog (q : Fin 16) (l : Fin 4) (key : Fin 9) (d : Dev) : Dev :=
  if watchdogDue d (4 * q + l) key then tripWatchdog d (4 * q + l) key else d

/-- WD_IGNORE_END: the 10 ms are over (R232). -/
def wdIgnoreEnd (q : Fin 16) (l : Fin 4) (key : Fin 9) (d : Dev) : Dev :=
  let k := 4 * q.val + l
  match (macHw d k).ignore.find? (fun e => e.1 == key.val) with
  | some (_, t) =>
    if t ≤ d.elapsed then setFlag (setMac d k (fun m => { m with ignore := sdrop key m.ignore })) (ignoreBit k key) false else d
  | none => d

/-! ### Receive (R226) -/

def pauseDest : Nat := 0x0180C2000001

/-- A MAC control frame (R229). -/
def controlFrame (d : Dev) (q : Fin 16) (l : Fin 4) (frame : List Byte) (ps : Nat) : Dev :=
  let op := beNat (slice frame 14 2)
  if beNat (frame.take 6) ≠ pauseDest ∨ frame.length ≠ 64 then count d (MAC_LANEl_RX_CTRL_BAD q l)
  else if op = 1 then pauseRx q l (BitVec.ofNat 16 (beNat (slice frame 16 2))) ps d
  else if op = 0x0101 then
    pfcRx q l (BitVec.ofNat 8 (byteAt frame 17)) ((List.range 8).map (fun p => beNat (slice frame (18 + 2 * p) 2))) ps d
  else count d (MAC_LANEl_RX_CTRL_BAD q l)

/-- Where a frame goes after the MAC (R226). -/
def toParser (d : Dev) (f : RxFrame) : Dev := { d with prsIn := d.prsIn ++ [f] }

/-- A whole received frame without a mark, while the lane is ACTIVE (R226): its start passed the balls ps after the present tick, its last
byte n byte times later. -/
def receiveFrame (q : Fin 16) (l : Fin 4) (frame : List Byte) (ps : Nat) (d : Dev) : Dev :=
  let k := 4 * q.val + l
  let n := frame.length
  if laneState d k ≠ lnActive then d
  else if n ≤ 63 then count d (MAC_LANEl_RX_RUNT q l)
  else if maxLen d k + 1 ≤ n then count d (MAC_LANEl_RX_LONG q l)
  else if !fcsGood frame then count d (MAC_LANEl_RX_FCS q l)
  else if beNat (slice frame 12 2) = 0x8808 then controlFrame d q l frame (ps + n * bytePs d k)
  else
    let d := countPairBy d (MAC_LANEl_RX_FRAMES_LO q l) (MAC_LANEl_RX_FRAMES_HI q l) countTop 1
    let d := countPairBy d (MAC_LANEl_RX_BYTES_LO q l) (MAC_LANEl_RX_BYTES_HI q l) countTop n
    toParser (bwAdd d (2 * k) n)
      { bytes := frame, src := .lane k, oam := false, tag := 0, tagged := false, stamp := receiveStamp d k ps }

/-- A frame that ends in error (R226): counted while the lane is ACTIVE, and where the lane left ACTIVE in this tick and cut it. -/
def errorFrame (d : Dev) (k : Nat) : Dev :=
  if laneState d k = lnActive ∨ (laneHw d k).left' = some d.elapsed then
    setLane (count d (MAC_LANEl_RX_ERR (k / 4) (k % 4))) k (fun h => { h with left' := none })
  else d

/-- MAC_RX_FRAME: the bytes of a received frame from the destination address through the FCS, whether it ended with an error
control block or was cut by the lane leaving ACTIVE, what the receive path decoded, and the ps after the present tick at which
its start passed the balls (R226, R299). A frame that an uncorrectable codeword touches, or that the elastic store has ended, ends
in error too (R213, R219). -/
def macRxFrame (q : Fin 16) (l : Fin 4) (frame : List Byte) (err : Bool) (dec : LaneDecode) (ps : Nat) (d : Dev) : Dev :=
  let k := 4 * q.val + l
  let d := if laneState d k = lnActive ∨ laneState d k = lnCap ∨ laneState d k = lnLock then decoded d k dec else d
  let marked := err || (laneHw d k).cut || ((laneHw d k).fec != 0 && dec.marked != 0)
  let d := setLane d k (fun h => { h with cut := false })
  if marked then errorFrame d k else receiveFrame q l frame ps d

/-! ### Transmit (R227) -/

/-- A Sync of port p waits for its launch instant, in ns of device time (R302). -/
def syncWaits (d : Dev) (p : Nat) : Option Nat :=
  match (macHw d p).tx.bind (·.launch) with
  | some t => some t
  | none => (sget [] d.queues (syncQueue d p)).findSome? (·.launch)

/-- A transmission of n bytes that starts now ends before the preamble of a waiting Sync begins (R289, R302 step 2). -/
def beforeSync (d : Dev) (p n : Nat) : Bool :=
  match syncWaits d p with
  | some t => decide (now d * 1000 + (n + 20) * bytePs d p + 8 * bytePs d p ≤ t * 1000)
  | none => true

/-- The sequenceId of a message type of a port is consumed (R301). -/
def takeSeq (d : Dev) (p type : Nat) : Dev × Nat :=
  let s := sget 0 d.ttd.seqs (p * 16 + type)
  (setTtd d (fun t => { t with seqs := sput 0 t.seqs (p * 16 + type) ((s + 1) % 0x10000) }), s)

/-- A Sync as it is launched: its sequenceId, and the launch residual in its correctionField (R301, R302). -/
def launchSync (d : Dev) (p : Nat) (f : BufFrame) (t out : Nat) : Dev × BufFrame :=
  match f.time.ptp with
  | some o =>
    let (d, s) := takeSeq d p 0
    let bs := patchPtp f.time f.bytes (o + 30) (beBytes 2 s)
    let bs := patchPtp f.time bs (o + 8) (beBytes 8 (ofSigned 64 ((out : Int) - t * 65536)))
    (count d (TTD_PORTp_SYNC_TX p), { f with bytes := bs })
  | none => (d, f)

/-- Padded with zeros before the FCS to 64 bytes (R227). -/
def padFrame (bs : List Byte) : List Byte :=
  let body := bs.take (bs.length - 4)
  body ++ List.replicate (60 - body.length) 0 ++ bs.drop (bs.length - 4)

/-- A Sync whose launch instant lies beyond the present tick waits for it (R302). -/
def notYet (d : Dev) (f : BufFrame) : Bool :=
  match f.launch with
  | some t => decide (now d + 40 < t)
  | none => false

/-- A Sync whose launch instant a forward step passed over is not sent (R311). -/
def passedOver (d : Dev) (f : BufFrame) : Bool :=
  match f.launch with
  | some t => decide (t + 40 < now d)
  | none => false

/-! ### Flow control that the device sends (R231) -/

/-- A request of the traffic manager to assert or release flow control for the port (key 0) or a priority (key 1 + p).
(log 69: DEDUCED, unsafe) -/
def askFlow (d : Dev) (k key : Nat) (on : Bool) : Dev :=
  setMac d k (fun m => { m with asked := if on then insSorted key m.asked else delNat key m.asked })

/-- Requests of the present FC_MODE whose frame has not been sent. -/
def flowDue (d : Dev) (k : Nat) : Option Nat :=
  let m := macHw d k
  let keys := if fcMode d k = 1 then (if pauseTxOn d k then [0] else []) else if fcMode d k = 2 then [1, 2, 3, 4, 5, 6, 7, 8] else []
  keys.find? (fun key => m.asked.contains key != m.told.contains key)

/-- A PAUSE or PFC frame of a port with quanta for the port or for one priority (R229, R231). -/
def flowFrame (d : Dev) (k key quanta : Nat) : List Byte :=
  let (q, l) := (k / 4, k % 4)
  let src := rdn d (MAC_LANEl_ADDR_LO q l) + 0x100000000 * fld d (MAC_LANEl_ADDR_HI_ADDR q l)
  let body := if key = 0 then beBytes 2 1 ++ beBytes 2 quanta
    else beBytes 2 0x0101 ++ beBytes 2 (2 ^ (key - 1))
      ++ ((List.range 8).map (fun p => beBytes 2 (if p + 1 = key then quanta else 0))).flatten
  let head := beBytes 6 pauseDest ++ beBytes 6 src ++ beBytes 2 0x8808 ++ body
  withFcs (head ++ List.replicate (60 - head.length) 0)

/-- The MAC may start a control frame now (R228, R302). -/
def flowMaySend (d : Dev) (k : Nat) : Bool := !txHold d k && beforeSync d k 64

/-- A control frame that the MAC may send goes ahead of data frames (R231). -/
def flowFirst (d : Dev) (k : Nat) : Bool := (flowDue d k).isSome && flowMaySend d k

/-! ### Frames out (R227, R230, R302) -/

/-- A frame leaves the MAC: through the pins, or in near-end loopback back into the lane's own receiver (R220). (log 214: DEDUCED, unsafe) -/
def putOnLane (q : Fin 16) (l : Fin 4) (ps : Nat) (bs : List Byte) (d : Dev) : Dev :=
  let k := 4 * q.val + l
  if laneTest d k = 1 then receiveFrame q l bs ps d else emit d (.frame k bs)

/-- The MAC may not start the frame it holds: a received pause has taken effect, or a control frame goes first (R230, R231). A Sync waits
for neither; one that is paused has been given up (R302). -/
def startHeld (d : Dev) (k ps : Nat) (f : BufFrame) : Bool :=
  f.launch.isNone
    && (flowFirst d k || pauseHolds d k 0 (elapsedPs d + ps)
      || pauseHolds d k (1 + fld d (TMG_CLASSc_PRI (macHw d k).cls)) (elapsedPs d + ps))

/-- MAC_TX_FRAME: the MAC sends the frame that it holds whole; its timestamp point passes the balls ps after the present tick
(R227, R299, R302, R305). -/
def macTxFrame (q : Fin 16) (l : Fin 4) (ps : Nat) (d : Dev) : Dev :=
  let k := 4 * q.val + l
  match (macHw d k).tx with
  | none => d
  | some f =>
    if notYet d f || startHeld d k ps f then d
    else
    let d := setMac d k (fun m => { m with tx := none })
    if passedOver d f then d
    else if maxLen d k + 1 ≤ f.bytes.length then
      let d := count d (MAC_LANEl_TX_LONG q l)
      (match f.tx with
       | some (r, i) => txResult d r i csFlushed none
       | none => d)
    else
      let d := if f.bytes.length ≤ 63 then count d (MAC_LANEl_TX_PAD q l) else d
      let f := if f.bytes.length ≤ 63 then { f with bytes := padFrame f.bytes } else f
      let out := transmitStamp d k ps
      let (d, f) := match f.launch with
        | some t => launchSync d k f t (out.getD (instant16 d ps))
        | none => correctOut d k f out
      let bs := refreshFcs f.bytes
      let d := countPairBy d (MAC_LANEl_TX_FRAMES_LO q l) (MAC_LANEl_TX_FRAMES_HI q l) countTop 1
      let d := countPairBy d (MAC_LANEl_TX_BYTES_LO q l) (MAC_LANEl_TX_BYTES_HI q l) countTop bs.length
      let d := putOnLane q l ps bs (bwAdd d (2 * k + 1) bs.length)
      (match f.tx with
       | some (r, i) => txResult d r i csOk out
       | none => d)

/-! ### Control frames out (R231) -/

def sendFlow (q : Fin 16) (l : Fin 4) (d : Dev) (key quanta : Nat) : Dev :=
  let d := count d (if key = 0 then MAC_LANEl_TX_PAUSE q l else MAC_LANEl_TX_PFC q l)
  putOnLane q l 0 (flowFrame d (4 * q.val + l) key quanta) d

/-- FC_SEND: the next requested control frame goes out (R231). -/
def fcSend (q : Fin 16) (l : Fin 4) (d : Dev) : Dev :=
  let k := 4 * q.val + l
  if !flowMaySend d k then d
  else match flowDue d k with
    | none => d
    | some key =>
      let on := (macHw d k).asked.contains key
      let d := sendFlow q l d key (if on then fld d (MAC_LANEl_FC_TX_QUANTA q l) else 0)
      setMac d k (fun m => if on then { m with told := insSorted key m.told, toldAt := sins key d.elapsed (sdrop key m.toldAt) }
                           else { m with told := delNat key m.told, toldAt := sdrop key m.toldAt })

/-- FC_REFRESH: an assertion that still lasts is repeated, REFRESH quanta after its last frame (R231). -/
def fcRefresh (q : Fin 16) (l : Fin 4) (key : Fin 9) (d : Dev) : Dev :=
  let k := 4 * q.val + l
  let m := macHw d k
  let due := (sget d.elapsed m.toldAt key) * 40000 + fld d (MAC_LANEl_FC_TX_REFRESH q l) * quantumPs d k
  let acts := if key.val = 0 then fcMode d k == 1 && pauseTxOn d k else fcMode d k == 2
  if acts && m.told.contains key && m.asked.contains key && decide (due ≤ elapsedPs d) && flowMaySend d k then
    setMac (sendFlow q l d key (fld d (MAC_LANEl_FC_TX_QUANTA q l))) k
      (fun m => { m with toldAt := sins key.val d.elapsed (sdrop key m.toldAt) })
  else d

end Sys2Proof.Machine
end

