-- ==== Sys2Proof/Machine/Parser.lean ====
section
/-!
DEFINITION. Machine/Parser.lean: the header walk of PRS, its malformed causes, the parse record and the two lookup keys
(R235 to R241, spec/14).
-/

namespace Sys2Proof.Machine

def malDeep : Nat := 1
def malLength : Nat := 2
def malTrunc : Nat := 3
def malCsum : Nat := 4
def malOption : Nat := 5

/-- What a header stack gives the key (R240) and the flow key (R258). -/
structure Stack where
  tags : Nat
  vid1 : Nat
  vid2 : Nat
  etype : Nat
  dmac : Nat
  proto : Nat
  tclass : Nat
  src : Nat
  dst : Nat
  sport : Nat
  dport : Nat
  frag : Bool
deriving DecidableEq, Repr

def Stack.empty : Stack :=
  { tags := 0, vid1 := 0, vid2 := 0, etype := 0, dmac := 0, proto := 0, tclass := 0, src := 0, dst := 0, sport := 0, dport := 0,
    frag := false }

/-- The header to be parsed next (R236). -/
inductive Hdr where
  | eth | vlan | ipv4 | ipv6 | ext (n : Nat) | udp | tcp | vxlan | geneve | ptp | stop
deriving DecidableEq, Repr

/-- A walk in progress: the offset of the next header, headers counted, the stack being filled and the finished ones, the end of
the present IP payload and UDP payload, the UDP and IP headers on the way, the VNI of the first tunnel, the first PTP header. -/
structure Walk where
  off : Nat
  depth : Nat
  cur : Stack
  past : List Stack
  ipEnd : Nat
  udpEnd : Nat
  v6 : Bool
  udps : List (Nat × Bool)
  ips : List Nat
  vni : Nat
  ptp : Option Nat
  ptpInner : Bool
  mal : Nat
deriving DecidableEq, Repr

def Walk.start : Walk :=
  { off := 0, depth := 0, cur := Stack.empty, past := [], ipEnd := 0, udpEnd := 0, v6 := false, udps := [], ips := [], vni := 0, ptp := none,
    ptpInner := false, mal := 0 }

def Walk.inner (w : Walk) : Bool := !w.past.isEmpty

/-- The fixed part of a header, in bytes. -/
def Hdr.fixed : Hdr → Nat
  | .eth => 14
  | .vlan => 4
  | .ipv4 => 20
  | .ipv6 => 40
  | .ext n => if n = 51 then 12 else 8
  | .udp => 8
  | .tcp => 20
  | .vxlan => 8
  | .geneve => 8
  | .ptp => 34
  | .stop => 0

/-- The whole header, its own length field included (R236). -/
def hdrLen (h : Hdr) (bs : List Byte) (o : Nat) : Nat :=
  match h with
  | .ipv4 => byteAt bs o % 16 * 4
  | .ext n => if n = 51 then (byteAt bs (o + 1) + 2) * 4 else if n = 44 then 8 else (byteAt bs (o + 1) + 1) * 8
  | .tcp => byteAt bs (o + 12) / 16 * 4
  | .geneve => 8 + byteAt bs o % 64 * 4
  | h => h.fixed

/-- The LENGTH faults of R237. -/
def lengthFault (h : Hdr) (bs : List Byte) (o fe : Nat) (w : Walk) : Bool :=
  let n := hdrLen h bs o
  match h with
  | .ipv4 =>
    let total := beNat (slice bs (o + 2) 2)
    decide (n < 20) || decide (total < n) || decide (fe < o + total)
  | .ipv6 =>
    let plen := beNat (slice bs (o + 4) 2)
    plen == 0 || decide (fe < o + 40 + plen)
  | .ext _ => decide (w.ipEnd < o + n)
  | .udp =>
    let len := beNat (slice bs (o + 4) 2)
    decide (len < 8) || decide (w.ipEnd < o + len)
  | .tcp => decide (n < 20) || decide (w.ipEnd < o + n)
  | .geneve => decide (w.udpEnd < o + n)
  | _ => false

/-- The header checksum of an IPv4 header is wrong. -/
def ipv4Bad (bs : List Byte) (o : Nat) : Bool := sum16 (slice bs o (hdrLen .ipv4 bs o)) != 0xFFFF

/-- An IPv6 option type is known: Pad1, PadN, bits 7:6 00b, or listed in PRS_IPV6_OPT0–1 (R237, R251). -/
def ipv6OptKnown (d : Dev) (t : Nat) : Bool :=
  decide (t < 64) || (t != 0 && ((leBytes 4 (rdn d PRS_IPV6_OPT0)) ++ leBytes 4 (rdn d PRS_IPV6_OPT1)).any (fun b => b.toNat == t))

/-- The options of a Hop-by-Hop or Destination header, from one on. -/
def ipv6OptBad (d : Dev) : Nat → List Byte → Bool
  | 0, _ => false
  | _, [] => false
  | n + 1, t :: r =>
    if t = 0 then ipv6OptBad d n r
    else !ipv6OptKnown d t.toNat || ipv6OptBad d n (r.drop (1 + byteAt r 0))

/-- A critical Geneve option that matches no valid entry (R237, R251). -/
def geneveOptBad (d : Dev) : Nat → List Byte → Bool
  | 0, _ => false
  | _, [] => false
  | n + 1, r =>
    let t := byteAt r 2
    let known := (List.range 16).any (fun k => flag d (PRS_GENEVE_OPTk_VALID k)
      && fld d (PRS_GENEVE_OPTk_CLASS k) == beNat (r.take 2) && fld d (PRS_GENEVE_OPTk_TYPE k) == t % 128)
    (bitOf t 7 && !known) || geneveOptBad d n (r.drop (4 + byteAt r 3 % 32 * 4))

def optionFault (d : Dev) (h : Hdr) (bs : List Byte) (o : Nat) : Bool :=
  let n := hdrLen h bs o
  match h with
  | .ext e => (e == 0 || e == 60) && ipv6OptBad d 2048 (slice bs (o + 2) (n - 2))
  | .geneve => geneveOptBad d 64 (slice bs (o + 8) (n - 8))
  | _ => false

/-- The first malformed cause of a header, or 0 (R237). A frame shorter than its headers is TRUNCATED, never TOO_DEEP.
(log 72: DEDUCED, unsafe) -/
def malCause (d : Dev) (h : Hdr) (bs : List Byte) (fe : Nat) (w : Walk) : Nat :=
  let o := w.off
  if fe < o + h.fixed then malTrunc
  else if w.depth = 16 then malDeep
  else if 512 < o + hdrLen h bs o ∧ o + hdrLen h bs o ≤ fe then malDeep
  else if lengthFault h bs o fe w then malLength
  else if h = .ipv4 ∧ flag d (if w.inner then PRS_CFG_CHK_INNER_IPV4 else PRS_CFG_CHK_IPV4) ∧ ipv4Bad bs o then malCsum
  else if optionFault d h bs o then malOption
  else 0

/-- What follows an EtherType (R236). -/
def afterEtype (t : Nat) : Hdr :=
  if t = 0x8100 ∨ t = 0x88A8 then .vlan else if t = 0x0800 then .ipv4 else if t = 0x86DD then .ipv6
  else if t = 0x88F7 then .ptp else .stop

/-- What follows an IP protocol or next-header number. -/
def afterProto (v6 : Bool) (p : Nat) : Hdr :=
  if p = 17 then .udp else if p = 6 then .tcp
  else if v6 ∧ (p = 0 ∨ p = 43 ∨ p = 44 ∨ p = 51 ∨ p = 60) then .ext p else .stop

/-- A tunnel's inner stack begins. -/
def Walk.tunnel (w : Walk) (vni : Nat) : Walk :=
  { w with past := w.past ++ [w.cur], cur := Stack.empty, vni := if w.inner then w.vni else vni }

def setEtype (s : Stack) (t : Nat) : Stack := if t = 0x8100 ∨ t = 0x88A8 then s else { s with etype := t }

/-- A sound header is taken: the walk after it and the header that follows (R236). -/
def takeHdr (d : Dev) (h : Hdr) (bs : List Byte) (w : Walk) : Walk × Hdr :=
  let o := w.off
  let n := hdrLen h bs o
  let w := { w with off := o + n, depth := w.depth + 1 }
  match h with
  | .eth =>
    let t := beNat (slice bs (o + 12) 2)
    ({ w with cur := setEtype { w.cur with dmac := beNat (slice bs o 6) } t }, afterEtype t)
  | .vlan =>
    let v := beNat (slice bs o 2) % 4096
    let t := beNat (slice bs (o + 2) 2)
    let s := if w.cur.tags = 0 then { w.cur with vid1 := v } else if w.cur.tags = 1 then { w.cur with vid2 := v } else w.cur
    ({ w with cur := setEtype { s with tags := s.tags + 1 } t }, afterEtype t)
  | .ipv4 =>
    let p := byteAt bs (o + 9)
    let frag := decide (beNat (slice bs (o + 6) 2) % 0x2000 ≠ 0)
    let mapped := 0xFFFF00000000
    let s := { w.cur with proto := p, tclass := byteAt bs (o + 1), src := mapped + beNat (slice bs (o + 12) 4),
                          dst := mapped + beNat (slice bs (o + 16) 4), frag := frag }
    ({ w with cur := s, ipEnd := o + beNat (slice bs (o + 2) 2), v6 := false, ips := w.ips ++ [o] }, if frag then .stop else afterProto false p)
  | .ipv6 =>
    let p := byteAt bs (o + 6)
    let s := { w.cur with proto := p, tclass := beNat (slice bs o 2) / 16 % 256, src := beNat (slice bs (o + 8) 16),
                          dst := beNat (slice bs (o + 24) 16) }
    ({ w with cur := s, ipEnd := o + 40 + beNat (slice bs (o + 4) 2), v6 := true, ips := w.ips ++ [o] }, afterProto true p)
  | .ext e =>
    let p := byteAt bs o
    let frag := e == 44 && decide (beNat (slice bs (o + 2) 2) / 8 ≠ 0)
    ({ w with cur := { w.cur with proto := p, frag := w.cur.frag || frag } }, if frag then .stop else afterProto true p)
  | .udp =>
    let dp := beNat (slice bs (o + 2) 2)
    let s := { w.cur with sport := beNat (slice bs o 2), dport := dp }
    let w := { w with cur := s, udpEnd := o + beNat (slice bs (o + 4) 2), udps := w.udps ++ [(o, w.v6)] }
    (w, if dp = fld d PRS_PORTS_VXLAN_PORT then .vxlan else if dp = fld d PRS_PORTS_GENEVE_PORT then .geneve
        else if dp = 319 ∨ dp = 320 then .ptp else .stop)
  | .tcp => ({ w with cur := { w.cur with sport := beNat (slice bs o 2), dport := beNat (slice bs (o + 2) 2) } }, .stop)
  | .vxlan => (w.tunnel (beNat (slice bs (o + 4) 3)), .eth)
  | .geneve =>
    let t := beNat (slice bs (o + 2) 2)
    let w := w.tunnel (beNat (slice bs (o + 4) 3))
    (w, if t = 0x6558 then .eth else if t = 0x0800 then .ipv4 else if t = 0x86DD then .ipv6 else .stop)
  | .ptp => ({ w with ptp := some o, ptpInner := w.inner }, .stop)
  | .stop => (w, .stop)

/-- The walk over a frame's headers; at most 16 are counted, so 17 rounds end it. (log 71: DEDUCED, unsafe) -/
def walkFrom (d : Dev) (bs : List Byte) (fe : Nat) : Nat → Hdr → Walk → Walk
  | 0, _, w => w
  | _, .stop, w => w
  | n + 1, h, w =>
    let c := malCause d h bs fe w
    if c = 0 then
      let (w, next) := takeHdr d h bs w
      walkFrom d bs fe n next w
    else { w with mal := c }

/-- PORT of R240. -/
def srcPort : Source → Nat
  | .lane p => p
  | .line x => 64 + x.ix
  | .host _ => 127
  | .own p => p

/-- The key of a pass from its stack (R240, R241), PASS and the scan result left 0. -/
def passKey (src : Source) (s : Stack) (tunnel ptp oam : Bool) (vni mal : Nat) : Nat :=
  let flags := boolBit (decide (0 < s.tags)) * 128 + boolBit (decide (1 < s.tags)) * 64 + boolBit tunnel * 32 + boolBit ptp * 16
    + boolBit oam * 8 + boolBit s.frag * 4
  srcPort src * 2 ^ 313 + flags * 2 ^ 304 + s.etype * 2 ^ 288 + s.vid1 * 2 ^ 276 + s.vid2 * 2 ^ 264 + s.dmac * 2 ^ 216
    + s.proto * 2 ^ 208 + s.tclass * 2 ^ 200 + s.dst * 2 ^ 72 + s.sport * 2 ^ 56 + s.dport * 2 ^ 40 + vni * 2 ^ 16 + mal

/-- The flow key of a stack with ENDPOINT 0 (R258, R259). -/
def stackFlow (s : Stack) : List Byte :=
  beBytes 16 s.src ++ beBytes 16 s.dst ++ leBytes 4 (s.proto * 16) ++ leBytes 4 (s.sport * 65536 + s.dport)

/-- The parse record of a frame (R239). -/
def parseFrame (d : Dev) (f : RxFrame) : ParseRec :=
  if f.oam then
    let k := passKey f.src Stack.empty false false true 0 0
    { key1 := k, key2 := k, flow1 := stackFlow Stack.empty, flow2 := stackFlow Stack.empty, mal := 0, ptp := none, inner := false,
      udps := [], ips := [] }
  else
    let w := walkFrom d f.bytes (f.bytes.length - 4) 17 .eth Walk.start
    let layers := w.past ++ [w.cur]
    let outer := layers.getD 0 Stack.empty
    let second := layers.getD 1 outer
    let key (s : Stack) := passKey f.src s w.inner w.ptp.isSome false w.vni w.mal
    { key1 := key outer, key2 := key second, flow1 := stackFlow outer, flow2 := stackFlow second, mal := w.mal, ptp := w.ptp,
      inner := w.ptpInner, udps := w.udps, ips := w.ips }

/-! ### Pipes (R235, R250) -/

/-- A pipe's group domain is on: pipes 0–3 in domain 28, pipes 4–7 and the spare in domain 29. -/
def pipePowered (d : Dev) (p : Nat) : Bool := domainOn d (if p < 4 then 28 else 29)

def pipeState (d : Dev) (p : Nat) : Nat := bitsOf (rdn d CLS_PIPE_STATUS) (2 * p + 1) (2 * p)

def raiseCls (d : Dev) (b : Nat) : Dev := raiseEvt d evCLS b
def clSwap : Nat := 0
def clWriteRefused : Nat := 1
def clRecircDrop : Nat := 2
def clPipeDrop : Nat := 3

/-- The pipe that serves a source: that of the lane or the spare in its place; for a line the next in turn of the powered pipes
in service. None where a retired pipe has no spare (R386). -/
def pipeFor (d : Dev) (src : Source) : Option Nat :=
  match src with
  | .lane k =>
    let p := k / 8
    if pipeState d p = 2 then (if d.pkt.spareFor = some p then some 8 else none) else some p
  | _ =>
    let ps := (List.range 9).filter (fun p => pipePowered d p && pipeState d p == 0)
    match ps.find? (fun p => decide (d.pkt.turn ≤ p)) with
    | some p => some p
    | none => ps.head?

def setPkt (d : Dev) (f : PacketHw → PacketHw) : Dev := { d with pkt := f d.pkt }

/-! ### Frames for a host ring (R238, R243, R327) -/

/-- A frame for the buffer with its metadata; reason is that of R329. -/
def hostFrame (f : RxFrame) (p : ParseRec) (reason endpoint : Nat) (stamped : Bool) : BufFrame :=
  { bytes := f.bytes, src := f.src, pri := 0, pool := 0, tag := 0, page := 0,
    time := { ptp := p.ptp, udps := p.udps, stamp := f.stamp, tagged := f.tagged, op := if stamped then 3 else 0 },
    launch := none, tx := none, flags := reason * 16 + p.mal, endpoint := endpoint }

def offer (d : Dev) (o : TmOffer) : Dev := setPkt d (fun k => { k with offers := k.offers ++ [o] })

/-- A frame is offered to host receive ring r. -/
def offerHost (d : Dev) (r : Nat) (f : BufFrame) : Dev := offer d { queue := 16384 + r, frame := f, policer := none, entry := none }

/-! ### FRAME_PARSE -/

def malCounter (c : Nat) : Reg :=
  if c = 1 then PRS_MAL_DEEP else if c = 2 then PRS_MAL_LENGTH else if c = 3 then PRS_MAL_TRUNC
  else if c = 4 then PRS_MAL_CSUM else PRS_MAL_OPTION

def malAction (d : Dev) (c : Nat) : Nat := bitsOf (rdn d PRS_MAL_ACT) (2 * c - 1) (2 * c - 2)

/-- A parsed frame waits for its first lookup. -/
def toClassifier (d : Dev) (f : RxFrame) (p : ParseRec) (pipe : Nat) : Dev :=
  setPkt d (fun k => { k with cls := k.cls ++ [{ frame := f, parse := p, pipe := pipe, epoch := 0, since := 0, hit := none, skipped := false }] })

/-- FRAME_PARSE: the oldest frame that waits is parsed; whether its pipe's input buffer is full (R235, R237, R238). A frame for a
pipe under self-test is a service request (R250). (log 73: DESIGN CHOICE, safe) -/
def frameParse (full : Bool) (d : Dev) : Dev :=
  match d.prsIn with
  | [] => d
  | f :: rest =>
    let d := { d with prsIn := rest }
    match pipeFor d f.src with
    | none => raiseCls (count d CLS_PIPE_DROP) clPipeDrop
    | some pipe =>
      let d := match f.src with
        | .line _ => setPkt d (fun k => { k with turn := (pipe + 1) % 9 })
        | _ => d
      let d := sliceService d (18 + pipe)
      if full then raiseCls (count d CLS_PIPE_DROP) clPipeDrop
      else
        let p := parseFrame d f
        let d := count d PRS_FRAMES
        if p.mal = 0 then toClassifier d f p pipe
        else
          let d := raiseEvt (count d (malCounter p.mal)) evPRS (p.mal - 1)
          let a := malAction d p.mal
          if a = 0 then d
          else if a = 1 then offerHost d (fld d PRS_MAL_ACT_MAL_RING) (hostFrame f p 2 0xFFFFF false)
          else toClassifier d f p pipe

end Sys2Proof.Machine
end

