-- ==== Sys2Proof/Machine/Classifier.lean ====
section
/-!
DEFINITION. Machine/Classifier.lean: rules, verdicts, recirculation, banks and patterns (R242 to R249, spec/14). A frame with an
endpoint goes on to Machine/Ashlar.lean through the list of frames to be resolved.
-/

namespace Sys2Proof.Machine

/-! ### Rules (R242, R243) -/

def defaultRule : Nat := 65535

/-- The action of a rule: ACT_HI in bits 63:32, ACT_LO in bits 31:0 (R252). -/
def actVerdict (a : Nat) : Nat := bitsOf a 63 61
def actEpSrc (a : Nat) : Nat := bitsOf a 60 59
def actTimeOp (a : Nat) : Nat := bitsOf a 58 57
def actScan (a : Nat) : Bool := bitOf a 56
def actQovr (a : Nat) : Bool := bitOf a 55
def actEndpoint (a : Nat) : Nat := bitsOf a 51 32
def actRing (a : Nat) : Nat := bitsOf a 31 22
def actQclass (a : Nat) : Nat := bitsOf a 21 15
def actCnt (a : Nat) : Option Nat := if bitOf a 14 then some (bitsOf a 11 0) else none

/-- VERDICT DROP and nothing else: what rule 65,535 of an empty bank holds (R432). -/
def emptyAction : Nat := 0x2000000000000000

/-- A rule matches a key (R242); rule 65,535 matches every key. (log 74: DEDUCED, unsafe) -/
def ruleMatches (key i : Nat) (r : Rule) : Bool := i == defaultRule || (key &&& r.mask) == (r.key &&& r.mask)

/-- The winning rule of a bank: its index and action. -/
def winner (d : Dev) (bank key : Nat) : Nat × Nat :=
  match d.pkt.rules.find? (fun e => e.1 / 65536 == bank && ruleMatches key (e.1 % 65536) e.2) with
  | some (i, r) => (i % 65536, r.act)
  | none => (defaultRule, emptyAction)

def activeBank (d : Dev) : Nat := fld d CLS_BANK_STATUS_ACTIVE
def epoch (d : Dev) : Nat := fld d CLS_BANK_STATUS_EPOCH

/-- A lookup ends: the default rule and the rule's counter are counted (R242, R243). -/
def lookup (d : Dev) (bank key len : Nat) : Dev × Nat :=
  let (i, act) := winner d bank key
  let d := if i = defaultRule then count d CLS_DEFAULT_HIT else d
  (match actCnt act with
   | some c => cntRule d c len
   | none => d, act)

/-! ### Pattern matcher (R248, R249) -/

/-- Pattern i matches the frame at offset o. -/
def patternAt (p : Pattern) (bs : List Byte) (o : Nat) : Bool :=
  (List.range (getBits p.cfg 30 24)).all (fun j =>
    let m := bitsOf p.mask (8 * j + 7) (8 * j)
    (byteAt bs (o + j) &&& m) == (bitsOf p.data (8 * j + 7) (8 * j) &&& m))

def patternHits (p : Pattern) (bs : List Byte) : Bool :=
  let len := getBits p.cfg 30 24
  let lo := getBits p.cfg 17 9
  let stop := min 512 (bs.length - 4)
  p.cfg.getLsbD 31 && (List.range (getBits p.cfg 8 0 + 1 - lo)).any (fun k => decide (lo + k + len ≤ stop) && patternAt p bs (lo + k))

/-- The lowest valid pattern that matches (R248). -/
def findPattern (d : Dev) (bs : List Byte) : Option Nat := (d.pkt.patterns.find? (fun e => patternHits e.2 bs)).map (·.1)

/-- The scan bucket refilled to this tick: SCAN_RATE Gbit/s is 5 × SCAN_RATE bytes in a tick (R249). (log 86: DEDUCED, unsafe) -/
def refillScan (d : Dev) : Dev :=
  setPkt d (fun k => { k with scan := min 65536 (k.scan + 5 * fld d CLS_SCAN_CFG_SCAN_RATE * (d.elapsed - k.scanAt)), scanAt := d.elapsed })

/-- A frame is presented for scanning (R248, R249): the pattern found, and whether it was skipped. -/
def scanFrame (d : Dev) (bs : List Byte) : Dev × Option Nat × Bool :=
  let d := refillScan d
  let need := min 512 (bs.length - 4)
  if !domainOn d 30 || decide (d.pkt.scan < need) then (count d CLS_SCAN_SKIP, none, true)
  else
    let d := count (setPkt d (fun k => { k with scan := k.scan - need })) CLS_SCAN
    match findPattern d bs with
    | some i => (count d CLS_PAT_HIT, some i, false)
    | none => (d, none, false)

/-! ### Verdicts (R243, R244) -/

/-- The endpoint of a FORWARD or FORWARD_COPY (R244). -/
def actionEndpoint (a key : Nat) (f : RxFrame) : Option Nat :=
  let vni := bitsOf key 39 16
  match actEpSrc a with
  | 0 => some (actEndpoint a)
  | 1 => match f.src with
    | .line _ => some f.tag
    | _ => none
  | 2 => if vni = 0 ∧ !bitOf key 309 then none else some ((vni + actEndpoint a) % 2 ^ 20)
  | _ => none

/-- What TIME_OP means for a frame: 01b becomes 10b on a TRANSPARENT port and nothing on a port in OFF or away from the server
ports (R300). The second part says that the port's own clock takes the frame. -/
def timeOpOf (d : Dev) (a : Nat) (src : Source) : Nat × Bool :=
  if actTimeOp a = 1 then
    match src with
    | .lane p => if portMode d p = modeLocal then (0, true) else if portMode d p = modeTransparent then (2, false) else (0, false)
    | _ => (0, false)
  else (actTimeOp a, false)

/-- The queue of frames that Ashlar is to resolve is served at once, in order; resolve is Ashlar's part. -/
def applyVerdict (resolve : Dev → AshFrame → Dev) (d : Dev) (c : ClsFrame) (second : Bool) (act key : Nat) : Dev :=
  let v := actVerdict act
  let ep := actionEndpoint act key c.frame
  let (op, own) := timeOpOf d act c.frame.src
  let reason := if v = 3 then 1 else 0
  let copy (d : Dev) : Dev := offerHost d (actRing act) (hostFrame c.frame c.parse reason (if v = 3 then ep.getD 0xFFFFF else 0xFFFFF) (op == 3))
  if v = 1 then d
  else if own then
    let d := if v = 3 then copy d else d
    (match c.frame.src with
     | .lane p => setPkt d (fun k => { k with ptpIn := k.ptpIn ++ [(p, actRing act, c)] })
     | _ => d)
  else if v = 2 then copy d
  else
    let d := if v = 3 then copy d else d
    match ep with
    | some e => resolve d { frame := c.frame, parse := c.parse, second := second, endpoint := e, entry := 0,
                            qovr := if actQovr act then some (actQclass act) else none, op := op }
    | none => if v = 0 then count d CLS_NO_EP else d

/-! ### The two passes (R241, R245, R247) -/

/-- Records that wait for their second pass in a pipe's queue. -/
def secondOf (d : Dev) (pipe : Nat) : List ClsFrame := d.pkt.second.filter (fun c => c.pipe == pipe)

/-- DRAIN_COUNT follows the frames of an earlier epoch that still wait; at 0 the drain ends (R247). -/
def syncDrain (d : Dev) : Dev :=
  if flag d CLS_BANK_STATUS_DRAINING then
    let n := (d.pkt.second.filter (fun c => c.epoch != epoch d)).length
    setFlag (setFld d CLS_BANK_STATUS_DRAIN_COUNT n) CLS_BANK_STATUS_DRAINING (decide (0 < n))
  else d

/-- The first pass of a frame (R242 to R245). -/
def firstPass (resolve : Dev → AshFrame → Dev) (d : Dev) (c : ClsFrame) : Dev :=
  let key := c.parse.key1
  let (d, act) := lookup d (activeBank d) key c.frame.bytes.length
  let (d, hit, skipped) := if actScan act then scanFrame d c.frame.bytes else (d, none, false)
  if actVerdict act = 4 then
    if 32 ≤ (secondOf d c.pipe).length then raiseCls (count d CLS_RECIRC_DROP) clRecircDrop
    else
      count (setPkt d (fun k => { k with second := k.second ++ [{ c with epoch := epoch d, since := d.elapsed, hit := hit, skipped := skipped }] }))
        CLS_RECIRC
  else applyVerdict resolve d c false act key

/-- CLASSIFY_LOOKUP: the oldest parsed frame takes its first pass; a pipe under self-test is asked for service (R250). -/
def classifyWith (resolve : Dev → AshFrame → Dev) (d : Dev) : Dev :=
  match d.pkt.cls with
  | [] => d
  | c :: rest => firstPass resolve (sliceService (setPkt d (fun k => { k with cls := rest })) (18 + c.pipe)) c

/-- The second-pass key: PASS, and the result of the scan (R240, R241). -/
def secondKey (c : ClsFrame) : Nat :=
  c.parse.key2 + 2 ^ 312 + (match c.hit with
    | some i => 2 ^ 305 + i * 16
    | none => 0) + boolBit c.skipped * 2 ^ 304

/-- A record leaves the second-pass queues. -/
def dropSecond (d : Dev) (c : ClsFrame) : Dev := syncDrain (setPkt d (fun k => { k with second := k.second.erase c }))

/-- SECOND_PASS: the oldest record of a pipe takes its second pass in the bank of its epoch (R245, R247); a pipe under self-test is
asked for service (R250). -/
def secondPassWith (resolve : Dev → AshFrame → Dev) (pipe : Nat) (d : Dev) : Dev :=
  match (secondOf d pipe).head? with
  | none => d
  | some c =>
    let key := secondKey c
    let (d, act) := lookup (dropSecond (sliceService d (18 + pipe)) c) (c.epoch % 2) key c.frame.bytes.length
    if actVerdict act = 4 then count d CLS_RECIRC_EXCESS else applyVerdict resolve d c true act key

/-- RECIRC_TIMEOUT: the oldest record of a pipe has waited 20 µs (R245). -/
def recircTimeout (pipe : Fin 9) (d : Dev) : Dev :=
  match (secondOf d pipe).head? with
  | some c => if c.since + 500 ≤ d.elapsed then raiseCls (count (dropSecond d c) CLS_RECIRC_DROP) clRecircDrop else d
  | none => d

/-! ### Rule access (R246) -/

/-- Words of staging registers as one number, word 0 least significant. -/
def readWords (d : Dev) (r : Nat → Reg) : Nat → Nat
  | 0 => 0
  | n + 1 => readWords d r n + rdn d (r n) * 2 ^ (32 * n)

def writeWords (d : Dev) (r : Nat → Reg) : Nat → Nat → Dev
  | 0, _ => d
  | n + 1, v => wrn (writeWords d r n v) (r n) (v / 2 ^ (32 * n) % 0x100000000)

def ruleBusy (d : Dev) : Bool := flag d CLS_BANK_STATUS_RULE_BUSY

/-- A write GO (R246). -/
def ruleWriteGo (d : Dev) : Dev :=
  if ruleBusy d then d
  else if flag d CLS_BANK_STATUS_DRAINING then
    raiseCls (count (setFlag d CLS_RULE_CTL_REFUSED true) CLS_WRITE_REFUSED) clWriteRefused
  else
    let r : Rule := { key := readWords d CLS_RULE_KEYj 10, mask := readWords d CLS_RULE_MASKj 10,
                      act := rdn d CLS_RULE_ACT_HI * 0x100000000 + rdn d CLS_RULE_ACT_LO }
    let i := (1 - activeBank d) * 65536 + fld d CLS_RULE_CTL_INDEX
    let d := setPkt d (fun k => { k with rules := sins i r (sdrop i k.rules) })
    setFlag (setFlag (setFlag d CLS_RULE_CTL_REFUSED false) CLS_RULE_CTL_BUSY true) CLS_BANK_STATUS_RULE_BUSY true

/-- A read GO (R246); a rule that no one wrote reads as an empty one, rule 65,535 of an empty bank as its default. -/
def ruleReadGo (d : Dev) : Dev :=
  if ruleBusy d then d
  else
    let i := fld d CLS_RULE_CTL_BANK * 65536 + fld d CLS_RULE_CTL_INDEX
    let r := sget { Rule.none with act := if fld d CLS_RULE_CTL_INDEX = defaultRule then emptyAction else 0 } d.pkt.rules i
    let d := writeWords (writeWords d CLS_RULE_KEYj 10 r.key) CLS_RULE_MASKj 10 r.mask
    wrn (wrn d CLS_RULE_ACT_HI (r.act / 0x100000000)) CLS_RULE_ACT_LO r.act

/-- A write of CLS_RULE_CTL by master m. -/
def ruleCtlWrite (m : Master) (value : Word) (d : Dev) : Dev :=
  guarded d m CLS_RULE_CTL.ofs (fun d =>
    let d := storeAt d m CLS_RULE_CTL.ofs value
    if value.getLsbD 31 then (if value.getLsbD 30 then ruleReadGo d else ruleWriteGo d) else d)

/-- RULE_WRITE: CLS_RULE_CTL is written with GO 1 and OP 0. -/
def ruleWrite (m : Master) (value : Word) (d : Dev) : Dev := ruleCtlWrite m ((value ||| 0x80000000) &&& 0xBFFFFFFF) d

/-- RULE_READ: CLS_RULE_CTL is written with GO 1 and OP 1. -/
def ruleRead (m : Master) (value : Word) (d : Dev) : Dev := ruleCtlWrite m (value ||| 0xC0000000) d

/-- RULE_WRITE_DONE (R246). -/
def ruleWriteDone (d : Dev) : Dev := setFlag (setFlag d CLS_RULE_CTL_BUSY false) CLS_BANK_STATUS_RULE_BUSY false

/-! ### Pattern access (R248) -/

def patCtlWrite (m : Master) (value : Word) (d : Dev) : Dev :=
  guarded d m CLS_PAT_CTL.ofs (fun d =>
    let d := storeAt d m CLS_PAT_CTL.ofs value
    let i := fld d CLS_PAT_CTL_INDEX
    if !value.getLsbD 31 then d
    else if value.getLsbD 30 then
      let p := sget Pattern.reset d.pkt.patterns i
      writeWords (writeWords (wr d CLS_PAT_CFG p.cfg) CLS_PAT_DATAj 16 p.data) CLS_PAT_MASKj 16 p.mask
    else
      let p : Pattern := { cfg := rd d CLS_PAT_CFG, data := readWords d CLS_PAT_DATAj 16, mask := readWords d CLS_PAT_MASKj 16 }
      setPkt d (fun k => { k with patterns := sput Pattern.reset k.patterns i p }))

/-- PATTERN_WRITE and PATTERN_READ: CLS_PAT_CTL is written with GO 1 and OP 0 or 1. -/
def patternWrite (m : Master) (value : Word) (d : Dev) : Dev := patCtlWrite m ((value ||| 0x80000000) &&& 0xBFFFFFFF) d
def patternRead (m : Master) (value : Word) (d : Dev) : Dev := patCtlWrite m (value ||| 0xC0000000) d

/-! ### Bank swap (R247) -/

/-- CLS refuses a commit that carries CLS_BANK_SEL while a drain or a rule write is in progress (R247). -/
def clsRefuses (d : Dev) (ws : List (Nat × Word)) : Bool :=
  ws.any (fun e => e.1 == CLS_BANK_SEL.ofs) && (flag d CLS_BANK_STATUS_DRAINING || ruleBusy d)

/-- CLS applies a bank selection (R247). -/
def clsApply (d : Dev) (ws : List (Nat × Word)) : Dev :=
  match ws.find? (fun e => e.1 == CLS_BANK_SEL.ofs) with
  | none => d
  | some (_, w) =>
    let b := boolBit (w.getLsbD 0)
    if b = activeBank d then d
    else
      let d := setFld (setFld d CLS_BANK_STATUS_ACTIVE b) CLS_BANK_STATUS_EPOCH (epoch d + 1)
      syncDrain (raiseCls (count (setFlag d CLS_BANK_STATUS_DRAINING true) CLS_SWAPS) clSwap)

end Sys2Proof.Machine
end

