-- ==== Sys2Proof/Machine/Memory.lean ====
section
/-!
DEFINITION. Machine/Memory.lean: reads and writes of the memories behind the block: the on-package DRAM (R339), the xSPI flash
(R397) and the local memories of the control cores (R354, R398).
-/

namespace Sys2Proof.Machine

/-- Bytes a to a + n − 1 of a memory; fill is what an unlisted address reads as. -/
def readMem (fill : Byte) (m : List Host.Cell) (a n : Nat) : List Byte := (List.range n).map (fun i => sget fill m (a + i))

/-- Bytes written from address a on. -/
def writeMem (fill : Byte) (m : List Host.Cell) : Nat → List Byte → List Host.Cell
  | _, [] => m
  | a, b :: t => writeMem fill (sput fill m a b) (a + 1) t

/-- The address range a to b − 1 erased: it reads as unlisted. -/
def eraseMem (m : List Host.Cell) (a b : Nat) : List Host.Cell := m.filter (fun e => decide (e.1 < a) || decide (b ≤ e.1))

def readDram (s : Mem) (a n : Nat) : List Byte := readMem Mem.ramFill s.dram a n
def readFlash (s : Mem) (a n : Nat) : List Byte := readMem Mem.flashFill s.flash a n
def readCore (s : Mem) (a n : Nat) : List Byte := readMem Mem.ramFill s.core a n

def writeDram (s : Mem) (a : Nat) (bs : List Byte) : Mem := { s with dram := writeMem Mem.ramFill s.dram a bs }
def writeFlash (s : Mem) (a : Nat) (bs : List Byte) : Mem := { s with flash := writeMem Mem.flashFill s.flash a bs }
def writeCore (s : Mem) (a : Nat) (bs : List Byte) : Mem := { s with core := writeMem Mem.ramFill s.core a bs }

def eraseFlash (s : Mem) (a b : Nat) : Mem := { s with flash := eraseMem s.flash a b }

end Sys2Proof.Machine
end

