-- ==== Sys2Proof/Machine/Ashlar.lean ====
section
/-!
DEFINITION. Machine/Ashlar.lean: the endpoint table, the flow table in DRAM with its cache, and how a frame is resolved (R253 to R263,
R267 to R270, spec/15). The command engine is in Machine/FlowEngine.lean.
-/

namespace Sys2Proof.Machine

def raiseAsh (d : Dev) (b : Nat) : Dev := raiseEvt d evASH b
def ahEpEcc : Nat := 0
def ahFlowEcc : Nat := 1
def ahInsertFull : Nat := 2
def ahAged : Nat := 3
def ahCmdDone : Nat := 4
def ahTablesLost : Nat := 5
def ahLearnDrop : Nat := 6

/-! ### Endpoint entries (R254) -/

def epEntry (d : Dev) (e : Nat) : Nat := if d.bst.lostSegs.contains (e / 65536) then 0 else sget 0 d.endpoints e
def epValid (w : Nat) : Bool := bitOf w 191
def epFt (w : Nat) : Bool := bitOf w 190
def epDest (w : Nat) : Nat := bitsOf w 189 188
def epPort (w : Nat) : Nat := bitsOf w 187 181
def epQclass (w : Nat) : Nat := bitsOf w 180 174
def epPolicer (w : Nat) : Option Nat := if bitOf w 173 then some (bitsOf w 172 160) else none
def epPage (w : Nat) : Nat := bitsOf w 159 154
def epTimeClass (w : Nat) : Nat := bitsOf w 153 151
def epMissAct (w : Nat) : Nat := bitsOf w 150 149
def epAgeSel (w : Nat) : Nat := bitsOf w 148 147
def epLineQ (w : Nat) : Nat := bitsOf w 146 134
def epUpTag (w : Nat) : Nat := bitsOf w 127 108
def epRing (w : Nat) : Nat := bitsOf w 107 98
def epReflect (w : Nat) : Bool := bitOf w 97

/-! ### Flow entries (R259): 64 bytes -/

/-- Bits hi to lo of the little-endian word at byte k. -/
def feBits (e : List Byte) (k hi lo : Nat) : Nat := bitsOf (leNat (slice e k 4)) hi lo
def feEndpoint (e : List Byte) : Nat := feBits e 32 31 12
def feValid (e : List Byte) : Bool := bitOf (byteAt e 32) 3
def feStatic (e : List Byte) : Bool := bitOf (byteAt e 32) 2
def feAct (e : List Byte) : Nat := feBits e 40 31 30
def feDest (e : List Byte) : Nat := feBits e 40 29 28
def fePort (e : List Byte) : Nat := feBits e 40 27 21
def feQclass (e : List Byte) : Nat := feBits e 40 20 14
def feLineQ (e : List Byte) : Nat := feBits e 40 13 1
def fePolicer (e : List Byte) : Option Nat := if bitOf (feBits e 44 31 0) 31 then some (feBits e 44 30 18) else none
def feRing (e : List Byte) : Nat := feBits e 44 17 8
def feSeen (e : List Byte) : Nat := leNat (slice e 59 4)

/-- The flow key of an entry: bytes 0 to 39 with bits 3:0 of byte 32 taken as zero (R258). -/
def feKey (e : List Byte) : List Byte := e.take 32 ++ [(e.getD 32 0) &&& 0xF0] ++ slice e 33 7

/-- A flow key with its ENDPOINT. -/
def withEndpoint (k : List Byte) (ep : Nat) : List Byte :=
  k.take 32 ++ leBytes 4 (ep * 4096 + byteAt k 32 / 16 % 16 * 16 + byteAt k 33 % 16 * 256) ++ slice k 36 4

def nowSec32 (d : Dev) : Nat := d.clock.sec.toNat % 0x100000000

/-- A frame of n bytes is resolved by an entry (R259). -/
def feTouch (d : Dev) (e : List Byte) (n : Nat) : List Byte :=
  e.take 48 ++ leBytes 5 (min (leNat (slice e 48 5) + 1) 0xFFFFFFFFFF) ++ leBytes 6 (min (leNat (slice e 53 6) + n) 0xFFFFFFFFFFFF)
    ++ leBytes 4 (nowSec32 d) ++ e.drop 63

/-! ### Hashes (R260) -/

def crc32cFrom (seed : Nat) (bs : List Byte) : Nat := bs.foldl (crcReflStep 0x82F63B78) seed ^^^ 0xFFFFFFFF
def flowHash1 (d : Dev) (k : List Byte) : Nat := crc32cFrom (rdn d ASH_HASH_SEED1) k % 2 ^ 22
def flowHash2 (d : Dev) (k : List Byte) : Nat :=
  let h2 := crc32cFrom (rdn d ASH_HASH_SEED2) k % 2 ^ 22
  if h2 = flowHash1 d k then h2 ^^^ 1 else h2

/-! ### The cache (R261): 16,384 sets of 16 ways, most recently used first -/

def cacheSet (d : Dev) (k : List Byte) : Nat := flowHash1 d k % 16384
def setLines (d : Dev) (i : Nat) (ls : List CacheLine) : Dev := setPkt d (fun p => { p with cache := sput [] p.cache i ls })

def cachedKey (d : Dev) (k : List Byte) : Option CacheLine := (sget [] d.pkt.cache (cacheSet d k)).find? (fun l => feKey l.bytes == k)

/-- No line holds a flow index any more. -/
def dropLine (d : Dev) (i : Nat) : Dev :=
  setPkt d (fun p => { p with cache := (p.cache.map (fun e => (e.1, e.2.filter (fun l => l.index != i)))).filter (fun e => !e.2.isEmpty) })

/-! ### Entries in DRAM, read and written through the cache (R260, R261) -/

def flowAddr (d : Dev) (i : Nat) : Nat := 0x40000000 * fld d ASH_FLOW_BASE_REGION + 64 * i

/-- Entry i as the cache and DRAM together hold it. -/
def flowEntry (d : Dev) (s : Mem) (i : Nat) : List Byte :=
  let e := readDram s (flowAddr d i) 64
  match (sget [] d.pkt.cache (cacheSet d (feKey e))).find? (fun l => l.index == i) with
  | some l => l.bytes
  | none => e

/-- Entry i is written; a cached line of it follows. -/
def putFlow (d : Dev) (s : Mem) (i : Nat) (e : List Byte) : Dev × Mem :=
  let s := writeDram s (flowAddr d i) e
  if feValid e then
    (setPkt d (fun p => { p with cache := p.cache.map (fun x => (x.1, x.2.map (fun l => if l.index = i then { l with bytes := e, dirty := false } else l))) }), s)
  else (dropLine d i, s)

/-- Entry i is deleted. -/
def deleteFlow (d : Dev) (s : Mem) (i : Nat) : Dev × Mem :=
  let (d, s) := putFlow d s i (List.replicate 64 0)
  (wrn d ASH_FLOWS (rdn d ASH_FLOWS - 1), s)

/-- The slot that holds a key: its flow index (R260). -/
def findFlow (d : Dev) (s : Mem) (k : List Byte) : Option Nat :=
  let slots (b : Nat) : List Nat := (List.range 4).map (fun t => 4 * b + t)
  (slots (flowHash1 d k) ++ slots (flowHash2 d k)).find? (fun i =>
    let e := flowEntry d s i
    feValid e && feKey e == k)

/-- The least recently used line of a full set leaves it; what it held is written back (R261). -/
def makeRoom (d : Dev) (s : Mem) (i : Nat) : Dev × Mem :=
  let ls := sget [] d.pkt.cache i
  if ls.length < 16 then (d, s)
  else match ls.getLast? with
    | none => (d, s)
    | some l =>
      let d := setLines (count d ASH_CACHE_EVICT) i ls.dropLast
      (d, if l.dirty then writeDram s (flowAddr d l.index) l.bytes else s)

/-- An entry that a miss has found is cached (R261). -/
def cacheFlow (d : Dev) (s : Mem) (i : Nat) (e : List Byte) : Dev × Mem :=
  let c := cacheSet d (feKey e)
  let (d, s) := makeRoom d s c
  (setLines d c ({ index := i, bytes := e, dirty := false } :: sget [] d.pkt.cache c), s)

/-- Every dirty line is written back: ASH does so before Hush (R261, R270). -/
def writeBackAll (d : Dev) (s : Mem) : Dev × Mem :=
  let ls := (d.pkt.cache.map (·.2)).flatten
  (setPkt d (fun p => { p with cache := p.cache.map (fun x => (x.1, x.2.map (fun l => { l with dirty := false }))) }),
   ls.foldl (fun s l => if l.dirty then writeDram s (flowAddr d l.index) l.bytes else s) s)

/-! ### Resolving (R256, R257) -/

/-- A destination: DEST, PORT, QCLASS, LINE_Q, RING and the policer, with the REASON of a delivery to a ring. -/
structure Destination where
  dest : Nat
  port : Nat
  qclass : Nat
  lineQ : Nat
  ring : Nat
  policer : Option Nat
  reason : Nat
deriving DecidableEq, Repr

def epDestination (w : Nat) : Destination :=
  { dest := epDest w, port := epPort w, qclass := epQclass w, lineQ := epLineQ w, ring := epRing w, policer := epPolicer w, reason := 3 }

def feDestination (e : List Byte) : Destination :=
  { dest := feDest e, port := fePort e, qclass := feQclass e, lineQ := feLineQ e, ring := feRing e, policer := fePolicer e, reason := 3 }

def toRing (x : Destination) (ring reason : Nat) : Destination := { x with dest := 2, ring := ring, reason := reason }

/-- The frame goes to a destination (R257, R300): KEY_PAGE, TIME_CLASS and UP_TAG come from the endpoint w. -/
def sendTo (d : Dev) (f : AshFrame) (w : Nat) (x : Destination) : Dev :=
  let cls := f.qovr.getD x.qclass
  let stamped := f.op == 3 || epTimeClass w != 0
  let b : BufFrame :=
    { bytes := f.frame.bytes, src := f.frame.src, pri := fld d (TMG_CLASSc_PRI cls), pool := 0, tag := epUpTag w, page := epPage w,
      time := { ptp := f.parse.ptp, udps := f.parse.udps, stamp := f.frame.stamp, tagged := f.frame.tagged, op := f.op },
      launch := none, tx := none, flags := x.reason * 16 + f.parse.mal, endpoint := f.endpoint }
  if x.dest = 0 then
    if f.frame.src = .lane x.port ∧ !epReflect w then count d ASH_HAIRPIN
    else offer d { queue := x.port % 64 * 128 + cls, frame := b, policer := x.policer, entry := none }
  else if x.dest = 1 then
    match f.frame.src with
    | .line _ => count d ASH_HAIRPIN
    | _ =>
      let q := match f.qovr with
        | some c => x.lineQ / 128 * 128 + c
        | none => x.lineQ
      offer d { queue := 8192 + q, frame := b, policer := x.policer, entry := none }
  else if x.dest = 2 then
    offer d { queue := 16384 + x.ring, frame := { b with time := { b.time with op := if stamped then 3 else 0 } }, policer := x.policer, entry := none }
  else d

/-- Rules 3 and 4 of R256: by the endpoint alone, as its one read found it (R253). -/
def byEndpoint (d : Dev) (f : AshFrame) : Dev := sendTo d f f.entry (epDestination f.entry)

/-- Rule 5 of R256: by the ACT of the flow entry e (R259). -/
def byFlow (d : Dev) (f : AshFrame) (e : List Byte) : Dev :=
  let d := count d ASH_FLOW_HIT
  let w := f.entry
  let a := feAct e
  if a = 0 then byEndpoint d f
  else if a = 1 then sendTo d f w (feDestination e)
  else if a = 2 then d
  else sendTo d f w (toRing (epDestination w) (epRing w) 4)

/-- A key is learned (R263): it is queued unless the queue is full or holds it. -/
def learnKey (d : Dev) (k : List Byte) (len : Nat) : Dev :=
  if !flag d ASH_CFG_LEARN_EN then d
  else if 1024 ≤ d.pkt.learns.length ∨ d.pkt.learns.any (fun l => l.1 == k) then raiseAsh (count d ASH_LEARN_DROP) ahLearnDrop
  else setPkt d (fun p => { p with learns := p.learns ++ [(k, len)] })

/-- The flow key of a frame (R258). -/
def frameKey (f : AshFrame) : List Byte := withEndpoint (if f.second then f.parse.flow2 else f.parse.flow1) f.endpoint

/-- Rule 6 of R256: by MISS_ACT (R263). -/
def byMiss (d : Dev) (f : AshFrame) : Dev :=
  let d := count d ASH_FLOW_MISS
  let w := f.entry
  let a := epMissAct w
  if a = 0 then byEndpoint d f
  else if a = 1 then learnKey (byEndpoint d f) (frameKey f) f.frame.bytes.length
  else if a = 2 then sendTo d f w (toRing (epDestination w) (epRing w) 5)
  else d

def byBypass (d : Dev) (f : AshFrame) : Dev := byEndpoint (count d ASH_FLOW_BYPASS) f

/-- The flow cache and both DRAM interfaces are on. -/
def flowPowered (d : Dev) : Bool := domainOn d 31 && domainOn d 45 && domainOn d 46

/-- The flow-lookup rate: 1,000 in a µs (R262). -/
def admitLookup (d : Dev) : Dev × Bool :=
  let us := d.elapsed / ticksPerUs
  let n := if d.pkt.lookups.1 = us then d.pkt.lookups.2 else 0
  if 1000 ≤ n then (d, false) else (setPkt d (fun p => { p with lookups := (us, n + 1) }), true)

/-- The flow cache cannot be repaired: every lookup is bypassed (R377). -/
def flowCacheBroken (d : Dev) : Bool := fld d (BST_MEMm_STATUS_STATE 18) == 2

/-- What a read of the cached line of a key finds of errors (R269): an uncorrectable one invalidates the line, and the entry is read
again from DRAM. -/
def cacheEcc (d : Dev) (k : List Byte) (ecc : Ecc) : Dev :=
  match cachedKey d k, ecc with
  | some _, .corrected => count d ASH_FLOW_ECC_CORR
  | some l, .uncorrectable => dropLine d l.index
  | _, _ => d

/-- A flow lookup in the cache, with what its read finds of errors; a miss waits for DRAM (R261, R262, R269). -/
def flowLookup (ecc : Ecc) (d : Dev) (f : AshFrame) : Dev :=
  let k := frameKey f
  let (d, ok) := admitLookup d
  if !ok || flowCacheBroken d then byBypass d f
  else
    let d := cacheEcc d k ecc
    match cachedKey d k with
    | some l =>
      let c := cacheSet d k
      let l' : CacheLine := { l with bytes := feTouch d l.bytes f.frame.bytes.length, dirty := true }
      byFlow (setLines d c (l' :: (sget [] d.pkt.cache c).erase l)) f l.bytes
    | none =>
      if d.pkt.misses.any (fun m => m.key == k) then
        setPkt d (fun p => { p with misses := p.misses.map (fun m => if m.key = k then { m with frames := m.frames ++ [f] } else m) })
      else if 4096 ≤ d.pkt.misses.length then byBypass d f
      else setPkt d (fun p => { p with misses := p.misses ++ [{ key := k, since := d.elapsed, frames := [f] }] })

/-- An uncorrectable endpoint word is met (R269). -/
def epEccFound (d : Dev) (e : Nat) : Dev :=
  raiseAsh (setFld (setFlag (count d ASH_EP_ECC) ASH_EP_ECC_IDX_VALID true) ASH_EP_ECC_IDX_INDEX e) ahEpEcc

/-- What the read of an endpoint entry finds of errors (R269). -/
def epRead1 (d : Dev) (e : Nat) (ecc : Ecc) : Dev :=
  match ecc with
  | .clean => d
  | .corrected => count d ASH_EP_ECC_CORR
  | .uncorrectable => setPkt d (fun p => { p with epBad := insSorted e p.epBad })

/-- A frame with an endpoint is resolved (R256): what the reads of the endpoint and of the flow cache find of errors. -/
def resolve (ecc flowErr : Ecc) (d : Dev) (f : AshFrame) : Dev :=
  let d := epRead1 d f.endpoint ecc
  let f := { f with entry := epEntry d f.endpoint }
  if d.pkt.epBad.contains f.endpoint then epEccFound d f.endpoint
  else if !epValid f.entry then count d ASH_EP_INVALID
  else if !epFt f.entry || !flag d ASH_CFG_FLOW_EN || !flowPowered d then byEndpoint d f
  else flowLookup flowErr d f

/-- CLASSIFY_LOOKUP and SECOND_PASS with Ashlar's resolution behind them. -/
def classifyLookup (ecc flowErr : Ecc) (d : Dev) : Dev := classifyWith (resolve ecc flowErr) d
def secondPass (pipe : Fin 9) (ecc flowErr : Ecc) (d : Dev) : Dev := secondPassWith (resolve ecc flowErr) pipe d

/-! ### Misses (R262) -/

/-- One entry of the aged log (R268). -/
def agedEntry (d : Dev) (reason ep i : Nat) : Dev :=
  let n := rdn d ASH_AGED_SEQ
  wrn (setPkt d (fun p => { p with agedLog := sput (0, 0) p.agedLog (n % 256) (reason * 2 ^ 28 + ep, i) })) ASH_AGED_SEQ (n + 1)

/-- What a read of a flow-table bucket finds of errors: a corrected word, or an uncorrectable word in slot i, which deletes the
entry (R269). -/
def flowEcc (d : Dev) (s : Mem) (ecc : Ecc) (i : Nat) : Dev × Mem :=
  match ecc with
  | .clean => (d, s)
  | .corrected => (count d ASH_FLOW_ECC_CORR, s)
  | .uncorrectable =>
    let d := raiseAsh (count d ASH_FLOW_ECC) ahFlowEcc
    let e := flowEntry d s i
    if feValid e then deleteFlow (agedEntry d 2 (feEndpoint e) i) s i else (d, s)

/-- FLOW_MISS_RESOLVE: the oldest miss has read its buckets; what the reads found of errors, and the slot of the error, 0 to 3 in the
first bucket and 4 to 7 in the second (R262, R269). -/
def flowMissResolve (ecc : Ecc) (slot : Fin 8) (d : Dev) (s : Mem) : Dev × Mem :=
  match d.pkt.misses with
  | [] => (d, s)
  | m :: rest =>
    let d := setPkt d (fun p => { p with misses := rest })
    let b := if slot.val < 4 then flowHash1 d m.key else flowHash2 d m.key
    let (d, s) := flowEcc d s ecc (4 * b + slot % 4)
    if ecc = .uncorrectable then (forEach m.frames byBypass d, s)
    else match findFlow d s m.key with
      | none => (forEach m.frames byMiss d, s)
      | some i =>
        let e := flowEntry d s i
        let e' := m.frames.foldl (fun e f => feTouch d e f.frame.bytes.length) e
        let (d, s) := cacheFlow d s i e
        let c := cacheSet d m.key
        let d := setLines d c ((sget [] d.pkt.cache c).map (fun l => if l.index = i then { l with bytes := e', dirty := true } else l))
        (forEach m.frames (fun d f => byFlow d f e) d, s)

/-- MISS_TIMEOUT: the oldest miss has waited MISS_TO µs (R262). -/
def missTimeout (d : Dev) : Dev :=
  match d.pkt.misses with
  | [] => d
  | m :: rest =>
    if m.since + fld d ASH_CFG_MISS_TO * ticksPerUs ≤ d.elapsed then
      forEach m.frames byBypass (setPkt d (fun p => { p with misses := rest }))
    else d

/-! ### Endpoint access (R253, R255) -/

/-- A write GO (R255): it is in progress until the next tick. (log 78: DESIGN CHOICE, unsafe) -/
def epWriteGo (d : Dev) : Dev :=
  let w := readWords d ASH_EP_DATAj 6
  let i := fld d ASH_EP_CTL_INDEX
  if flag d ASH_EP_CTL_BUSY ∨ epDest w = 0 ∧ 63 < epPort w then count (setFlag d ASH_EP_CTL_REFUSED true) ASH_CMD_REFUSED
  else
    let d := setFlag (setFlag { d with endpoints := sput 0 d.endpoints i w } ASH_EP_CTL_REFUSED false) ASH_EP_CTL_BUSY true
    setPkt d (fun p => { p with epBad := delNat i p.epBad })

/-- A read GO. -/
def epReadGo (d : Dev) : Dev := writeWords d ASH_EP_DATAj 6 (epEntry d (fld d ASH_EP_CTL_INDEX))

def epCtlWrite (m : Master) (value : Word) (d : Dev) : Dev :=
  guarded d m ASH_EP_CTL.ofs (fun d =>
    let d := storeAt d m ASH_EP_CTL.ofs value
    if value.getLsbD 31 then (if value.getLsbD 30 then epReadGo d else epWriteGo d) else d)

/-- A write of the tick before is done. -/
def epWriteDone (d : Dev) : Dev := if flag d ASH_EP_CTL_BUSY then setFlag d ASH_EP_CTL_BUSY false else d

/-- EP_WRITE and EP_READ: ASH_EP_CTL is written with GO 1 and OP 0 or 1. -/
def epWrite (m : Master) (value : Word) (d : Dev) : Dev := epCtlWrite m ((value ||| 0x80000000) &&& 0xBFFFFFFF) d
def epRead (m : Master) (value : Word) (d : Dev) : Dev := epCtlWrite m (value ||| 0xC0000000) d

/-! ### Scrubbing and ageing (R267, R269) -/

/-- EP_SCRUB: the scrubber reads a word of endpoint entry e. -/
def epScrub (e : Fin 1048576) (ecc : Ecc) (d : Dev) : Dev :=
  if !domainOn d 32 then d
  else match ecc with
    | .clean => d
    | .corrected => count d ASH_EP_ECC_CORR
    | .uncorrectable => epEccFound (setPkt d (fun p => { p with epBad := insSorted e p.epBad })) e

/-- FLOW_SCRUB: the scrubber reads bucket b; the slot of an error. -/
def flowScrub (b : Fin 4194304) (ecc : Ecc) (slot : Fin 4) (d : Dev) (s : Mem) : Dev × Mem :=
  if flowPowered d then flowEcc d s ecc (4 * b + slot) else (d, s)

/-- AGE_T of an AGE_SEL code. -/
def ageTime (d : Dev) (n : Nat) : Nat :=
  fld d (if n = 0 then ASH_AGE_T0_AGE_T else if n = 1 then ASH_AGE_T1_AGE_T else if n = 2 then ASH_AGE_T2_AGE_T else ASH_AGE_T3_AGE_T)

/-- An entry is aged (R267). -/
def isAged (d : Dev) (e : List Byte) : Bool :=
  let t := ageTime d (epAgeSel (epEntry d (feEndpoint e)))
  feValid e && !feStatic e && t != 0 && decide (t ≤ nowSec32 d - feSeen e)

end Sys2Proof.Machine
end

