-- ==== Sys2Proof/Machine/FlowEngine.lean ====
section
/-!
DEFINITION. Machine/FlowEngine.lean: Ashlar's command engine: commands, learns, move chains and walks (R263 to R266, spec/15).
-/

namespace Sys2Proof.Machine

/-! ### The queue (R264) -/

def syncCmdQueue (d : Dev) : Dev := setFld d ASH_STATUS_CMD_QUEUE d.pkt.cmds.length

/-- A command is queued; a full queue refuses it. -/
def postCmd (d : Dev) (c : AshCmd) : Dev :=
  if 64 ≤ d.pkt.cmds.length then count d ASH_CMD_REFUSED
  else syncCmdQueue (setPkt d (fun p => { p with cmds := p.cmds ++ [c] }))

/-- The 64 bytes staged in ASH_CMD_DATA0–15. -/
def stagedBody (d : Dev) : List Byte := ((List.range 16).map (fun j => leBytes 4 (rdn d (ASH_CMD_DATAj j)))).flatten

/-- A write of ASH_CMD_CTL with GO 1 posts the staged command. -/
def ashCmdGo (d : Dev) : Dev :=
  postCmd d { opcode := fld d ASH_CMD_CTL_OPCODE, tag := fld d ASH_CMD_CTL_TAG, body := stagedBody d, entry := none }

def isWalk (c : AshCmd) : Bool := c.opcode == 5 || c.opcode == 6

/-- An aged entry is deleted, unless a frame or an UPDATE has refreshed it (R267). -/
def deleteAged (d : Dev) (s : Mem) (i : Nat) : Dev × Mem :=
  let e := flowEntry d s i
  if isAged d e then deleteFlow (raiseAsh (count (agedEntry d 1 (feEndpoint e) i) ASH_AGED) ahAged) s i else (d, s)

/-- The command the engine serves next: a walk waits while another runs (R266). -/
def nextCmd (d : Dev) : Option AshCmd := d.pkt.cmds.find? (fun c => d.pkt.walk.isNone || !isWalk c)

/-- Deletions by the ageing walk are served once no host command and no learn waits (R264). -/
def serveAged (d : Dev) (s : Mem) : Dev × Mem :=
  if (nextCmd d).isSome || !d.pkt.learns.isEmpty || !flowPowered d then (d, s)
  else
    let is := d.pkt.aged
    is.foldl (fun (d, s) i => deleteAged d s i) (setPkt d (fun p => { p with aged := [] }), s)

/-- AGE_VISIT: the ageing walk visits its next bucket (R267); what it finds aged waits for the engine. -/
def ageVisit (d : Dev) (s : Mem) : Dev × Mem :=
  if flag d ASH_CFG_AGE_EN ∧ flowPowered d then
    let b := d.pkt.agePos
    let found := ((List.range 4).map (fun t => 4 * b + t)).filter (fun i => isAged d (flowEntry d s i))
    serveAged (setPkt d (fun p => { p with agePos := (b + 1) % 4194304, aged := p.aged ++ found })) s
  else (d, s)

def popCmd (d : Dev) (c : AshCmd) : Dev := syncCmdQueue (setPkt d (fun p => { p with cmds := p.cmds.erase c }))

/-- Outcome codes of R264. -/
def aoOk : Nat := 0
def aoExists : Nat := 1
def aoNotFound : Nat := 2
def aoFull : Nat := 3
def aoBad : Nat := 4
def aoUnpowered : Nat := 5

/-- A command's log entry, its failure count, and the completion of a command descriptor (R264, R330, R331). -/
def logCmd (d : Dev) (c : AshCmd) (outcome moves i : Nat) : Dev :=
  let n := rdn d ASH_CMD_SEQ
  let w := c.tag % 65536 * 65536 + c.opcode % 16 * 4096 + outcome * 256 + moves * 16
  let i := min i 0xFFFFFF
  let d := wrn (setPkt d (fun p => { p with cmdLog := sput (0, 0) p.cmdLog (n % 64) (w, i) })) ASH_CMD_SEQ (n + 1)
  let d := raiseAsh (if outcome = aoOk then d else count d ASH_CMD_FAIL) ahCmdDone
  match c.entry with
  | some (r, j) =>
    (match (ringHw d r).entries.find? (fun x => x.index == j) with
     | some x => closeEntry d r j (completion (16 + outcome) r j 0 (moves * 2 ^ 24 + i) none x.tag)
     | none => d)
  | none => d

/-! ### Inserting (R264, R265) -/

/-- The entry breaks the rules of its body (R264). -/
def bodyBad (e : List Byte) : Bool := !feValid e || (feAct e == 1 && feDest e == 0 && decide (63 < fePort e))

/-- The first free slot of a bucket. (log 76: DEDUCED, unsafe) -/
def freeSlot (d : Dev) (s : Mem) (b : Nat) : Option Nat :=
  ((List.range 4).map (fun t => 4 * b + t)).find? (fun i => !feValid (flowEntry d s i))

/-- The other candidate bucket of the entry at flow index i. -/
def otherBucket (d : Dev) (s : Mem) (i : Nat) : Nat :=
  let k := feKey (flowEntry d s i)
  let h := flowHash1 d k
  if h = i / 4 then flowHash2 d k else h

/-- A search for a move chain: buckets read so far, entries still to be tried on this level with the chain that leads to each,
those of the next level, and the chain found with its free slot. -/
structure ChainSearch where
  seen : List Nat
  next : List (List Nat)
  found : Option (List Nat × Nat)
deriving DecidableEq, Repr

/-- One entry of a level is tried: its other bucket is read (R265). The chain is a list of flow indices, last entry first. -/
def tryEntry (d : Dev) (s : Mem) (a : ChainSearch) (chain : List Nat) : ChainSearch :=
  match a.found, chain.head? with
  | none, some i =>
    let b := otherBucket d s i
    if 4096 ≤ a.seen.length ∨ a.seen.contains b then a
    else match freeSlot d s b with
      | some j => { a with seen := b :: a.seen, found := some (chain, j) }
      | none => { a with seen := b :: a.seen, next := a.next ++ (List.range 4).map (fun t => (4 * b + t) :: chain) }
  | _, _ => a

/-- Levels 1 to depth, breadth first (R265). -/
def searchChain (d : Dev) (s : Mem) : Nat → List Nat → List (List Nat) → Option (List Nat × Nat)
  | 0, _, _ => none
  | n + 1, seen, level =>
    let a := level.foldl (tryEntry d s) { seen := seen, next := [], found := none }
    match a.found with
    | some r => some r
    | none => searchChain d s n a.seen a.next

/-- The moves of a chain, from the free slot backward: each entry is written to its new slot, then cleared in its old one. What
is left is the slot that the chain frees. -/
def makeMoves (d : Dev) (s : Mem) : List Nat → Nat → Dev × Mem × Nat
  | [], j => (d, s, j)
  | i :: rest, j =>
    let e := flowEntry d s i
    let (d, s) := putFlow d s j e
    let (d, s) := putFlow d s i (List.replicate 64 0)
    makeMoves d s rest i

/-- An entry is inserted: the outcome, the moves made, the flow index found or written. -/
def insertFlow (d : Dev) (s : Mem) (e : List Byte) : Dev × Mem × Nat × Nat × Nat :=
  let k := feKey e
  match findFlow d s k with
  | some i => (d, s, aoExists, 0, i)
  | none =>
    let place (d : Dev) (s : Mem) (i moves : Nat) : Dev × Mem × Nat × Nat × Nat :=
      let (d, s) := putFlow d s i e
      (wrn d ASH_FLOWS (rdn d ASH_FLOWS + 1), s, aoOk, moves, i)
    let (b1, b2) := (flowHash1 d k, flowHash2 d k)
    match freeSlot d s b1, freeSlot d s b2 with
    | some i, _ => place d s i 0
    | none, some i => place d s i 0
    | none, none =>
      let level := ((List.range 4).map (fun t => [4 * b1 + t])) ++ (List.range 4).map (fun t => [4 * b2 + t])
      match searchChain d s 8 [b1, b2] level with
      | some (chain, j) =>
        let (d, s, i) := makeMoves d s chain j
        place d s i chain.length
      | none => (raiseAsh (count d ASH_INSERT_FULL) ahInsertFull, s, aoFull, 0, 0)

/-- LAST_SEEN of an entry set to now. -/
def seenNow (d : Dev) (e : List Byte) : List Byte := e.take 59 ++ leBytes 4 (nowSec32 d) ++ e.drop 63

/-! ### The commands (R264) -/

/-- The engine serves its next command if it has this opcode: f answers outcome, moves and index. Every command completes
UNPOWERED while the flow cache or a DRAM interface is off. -/
def serve (opcode : Nat) (f : Dev → Mem → AshCmd → Dev × Mem × Nat × Nat × Nat) (d : Dev) (s : Mem) : Dev × Mem :=
  match nextCmd d with
  | none => (d, s)
  | some c =>
    if c.opcode ≠ opcode then (d, s)
    else if !flowPowered d then (logCmd (popCmd d c) c aoUnpowered 0 0, s)
    else
      let (d, s, o, m, i) := f (popCmd d c) s c
      serveAged (logCmd d c o m i) s

/-- INSERT. -/
def flowInsert (d : Dev) (s : Mem) : Dev × Mem :=
  serve 1 (fun d s c => if bodyBad c.body then (d, s, aoBad, 0, 0) else insertFlow d s (seenNow d c.body)) d s

/-- UPDATE: bytes 40 to 47 and STATIC are replaced, LAST_SEEN is now. -/
def flowUpdate (d : Dev) (s : Mem) : Dev × Mem :=
  serve 2 (fun d s c =>
    if bodyBad c.body then (d, s, aoBad, 0, 0)
    else match findFlow d s (feKey c.body) with
      | none => (d, s, aoNotFound, 0, 0)
      | some i =>
        let e := flowEntry d s i
        let flags := BitVec.ofNat 8 (byteAt e 32 / 8 * 8 + boolBit (feStatic c.body) * 4 + byteAt e 32 % 4)
        let e := e.take 32 ++ [flags] ++ slice e 33 7 ++ slice c.body 40 8 ++ e.drop 48
        let (d, s) := putFlow d s i (seenNow d e)
        (d, s, aoOk, 0, i)) d s

/-- DELETE. -/
def flowDelete (d : Dev) (s : Mem) : Dev × Mem :=
  serve 3 (fun d s c => match findFlow d s (feKey c.body) with
    | none => (d, s, aoNotFound, 0, 0)
    | some i =>
      let (d, s) := deleteFlow d s i
      (d, s, aoOk, 0, i)) d s

/-- LOOKUP: the entry found is copied to ASH_RES_DATA0–15. -/
def flowFind (d : Dev) (s : Mem) : Dev × Mem :=
  serve 4 (fun d s c => match findFlow d s (feKey c.body) with
    | none => (d, s, aoNotFound, 0, 0)
    | some i => (writeWords d ASH_RES_DATAj 16 (leNat (flowEntry d s i)), s, aoOk, 0, i)) d s

/-- A walk starts (R266); its log entry comes when it ends. -/
def startWalk (opcode : Nat) (d : Dev) : Dev :=
  match nextCmd d with
  | none => d
  | some c =>
    if c.opcode ≠ opcode then d
    else if !flowPowered d then logCmd (popCmd d c) c aoUnpowered 0 0
    else setFlag (setPkt (popCmd d c) (fun p => { p with walk := some { cmd := c, reached := 0, began := d.elapsed, deleted := 0 } })) ASH_STATUS_WALK true

/-- FLUSH_EP and CLEAR_ALL. -/
def flushEp (d : Dev) : Dev := startWalk 5 d
def clearAll (d : Dev) : Dev := startWalk 6 d

/-- ASH_CMD_BAD_OPCODE: a command with an opcode that R264 does not list. -/
def ashCmdBadOpcode (d : Dev) : Dev :=
  match nextCmd d with
  | none => d
  | some c => if 1 ≤ c.opcode ∧ c.opcode ≤ 6 then d else logCmd (popCmd d c) c (if flowPowered d then aoBad else aoUnpowered) 0 0

/-- Flow indices of the valid entries of buckets lo to hi − 1, by their cells in DRAM: VALID is bit 3 of an entry's byte 32. -/
def validFlows (d : Dev) (s : Mem) (lo hi : Nat) : List Nat :=
  let base := flowAddr d 0
  (s.dram.filter (fun e => decide (base + 256 * lo ≤ e.1) && decide (e.1 < base + 256 * hi) && (e.1 - base) % 64 == 32 && e.2.getLsbD 3)).map
    (fun e => (e.1 - base) / 64)

/-- The buckets of the flow table (R260). -/
def flowBuckets : Nat := 4194304

/-- Buckets that a walk has reached after some ticks: it goes at an even rate and takes 2 s. (log 77: DESIGN CHOICE, unsafe) -/
def walkReach (ticks : Nat) : Nat := min flowBuckets (ticks * flowBuckets / (2 * ticksPerSec))

/-- The walk in progress reaches the buckets below n: it deletes the entries that it finds there (R266). -/
def walkTo (n : Nat) (d : Dev) (s : Mem) : Dev × Mem :=
  match d.pkt.walk with
  | none => (d, s)
  | some w =>
    if n ≤ w.reached ∨ !flowPowered d then (d, s)
    else
      let ep := feEndpoint w.cmd.body
      let is := (validFlows d s w.reached n).filter (fun i => w.cmd.opcode == 6 || feEndpoint (flowEntry d s i) == ep)
      let (d, s) := is.foldl (fun (d, s) i => deleteFlow d s i) (d, s)
      (setPkt d (fun p => { p with walk := some { w with reached := n, deleted := w.deleted + is.length } }), s)

/-- The buckets that the walk reaches in a tick. -/
def walkTick (d : Dev) (s : Mem) : Dev × Mem :=
  match d.pkt.walk with
  | none => (d, s)
  | some w => walkTo (walkReach (d.elapsed - w.began)) d s

/-- WALK_DONE: the walk reaches the buckets that are left, and its log entry is written (R266). -/
def walkDone (d : Dev) (s : Mem) : Dev × Mem :=
  let (d, s) := walkTo flowBuckets d s
  match d.pkt.walk with
  | none => (d, s)
  | some w =>
    let d := setFlag (setPkt d (fun p => { p with walk := none })) ASH_STATUS_WALK false
    serveAged (logCmd d w.cmd aoOk 0 w.deleted) s

/-- LEARN: the oldest learned key is inserted with ACT 00b and STATIC 0, counting the frame that caused it (R263); host commands go
first (R264). -/
def learn (d : Dev) (s : Mem) : Dev × Mem :=
  match d.pkt.learns with
  | [] => (d, s)
  | (k, n) :: rest =>
    if (nextCmd d).isSome || !flowPowered d then (d, s)
    else
      let d := setPkt d (fun p => { p with learns := rest })
      let flags := (k.getD 32 0) ||| 8
      let e := k.take 32 ++ [flags] ++ slice k 33 7 ++ List.replicate 24 0
      let (d, s, o, _, _) := insertFlow d s (feTouch d e n)
      serveAged (if o = aoOk then count d ASH_LEARN else if o = aoExists then count d ASH_LEARN_DUP else d) s

end Sys2Proof.Machine
end

