-- ==== Sys2Proof/Machine/Traffic.lean ====
section
/-!
DEFINITION. Machine/Traffic.lean: the packet buffer, admission, flow control, buckets, gate lists and the choice of the next frame
(R272 to R294, spec/16).
-/

namespace Sys2Proof.Machine

def raiseTmg (d : Dev) (b : Nat) : Dev := raiseEvt d evTMG b
def tmDrop : Nat := 0
def tmGateAdv : Nat := 1
def tmOversize : Nat := 2
def tmEccUncorr : Nat := 3
def tmFlush : Nat := 4
def tmReserveOver : Nat := 6
def tmGateReject : Nat := 7

/-! ### Cells and pools (R272, R275) -/

def frameCells (f : BufFrame) : Nat := ceilDiv f.bytes.length 256
def cellsOf (fs : List BufFrame) : Nat := fs.foldl (fun n f => n + frameCells f) 0

def queueOf (d : Dev) (q : Nat) : List BufFrame := sget [] d.queues q
def putQueue (d : Dev) (q : Nat) (fs : List BufFrame) : Dev := { d with queues := sput [] d.queues q fs }

/-- The admission port of a queue (R273). -/
def admissionPort (q : Nat) : Nat := if q < 8192 then q / 128 else if q < 16384 then 64 else 65

/-- Cells held by frames that meet a condition. -/
def heldCells (d : Dev) (p : Nat → BufFrame → Bool) : Nat :=
  d.queues.foldl (fun n e => n + cellsOf (e.2.filter (p e.1))) 0

def portMin (d : Dev) (p : Nat) : Nat :=
  fld d (if p < 64 then TMG_PORTp_MIN_PORT_MIN p else if p = 64 then TMG_LINE_MIN_PORT_MIN else TMG_HOST_MIN_PORT_MIN)

def headroomCells (d : Dev) : Nat := fld d TMG_PFC_CFG_HEADROOM

/-- Cells in service: those of powered bank groups that memory self-test has not taken out (R272, R377). -/
def cellsInService (d : Dev) : Nat :=
  49152 * ((List.range 8).filter (fun m => domainOn d (35 + m) && fld d (BST_MEMm_STATUS_STATE m) != 2)).length

def floorsBefore (d : Dev) (p : Nat) : Nat := (List.range p).foldl (fun n i => n + portMin d i) 0

/-- The floor of port p: floors are served in port order until the cells run out (R275). (log 84: DEDUCED, unsafe) -/
def floorCells (d : Dev) (p : Nat) : Nat := min (portMin d p) (cellsInService d - floorsBefore d p)

def reserved (d : Dev) : Nat := floorsBefore d 66 + 64 * headroomCells d

/-- POOL_STATUS and FREE_SHARED follow the pools (R275, R294). -/
def syncPools (d : Dev) : Dev :=
  let cells := cellsInService d
  let short := decide (cells < reserved d)
  let was := flag d TMG_POOL_STATUS_RESERVE_OVER
  let d := setFlag (setFld d TMG_POOL_STATUS_CELLS cells) TMG_POOL_STATUS_RESERVE_OVER short
  let used := heldCells d (fun _ f => f.pool == 1)
  let d := setFld d TMG_FREE_SHARED_FREE (cells - reserved d - used)
  if short && !was then raiseTmg d tmReserveOver else d

/-! ### Flow control toward the MACs (R276, R277) -/

/-- Priority k is lossless on lane s (R276). -/
def lossless (d : Dev) (s k : Nat) : Bool :=
  fcMode d s == 1 || (fcMode d s == 2 && bitOf (fld d TMG_PFC_CFG_LOSSLESS) k)

/-- Cells that arrived from lane s with a priority that meets a condition (R277). -/
def inCells (d : Dev) (s : Nat) (p : Nat → Bool) : Nat := heldCells d (fun _ f => f.src == .lane s && p f.pri)

/-- One flow-control state: asserted when the count has risen to XOFF_TH, released when it has fallen to XON_TH (R277). -/
def flowState (d : Dev) (was : Bool) (n : Nat) : Bool :=
  if was then decide (fld d TMG_PFC_TH_XON_TH < n) else decide (fld d TMG_PFC_TH_XOFF_TH ≤ n)

/-- Flow control of lane s follows what it holds (R277). -/
def syncFlow (d : Dev) (s : Nat) : Dev :=
  let was := fld d (TMG_PORTp_STATUS_FC_ASSERT s)
  if fcMode d s = 1 then
    let on := flowState d (was != 0) (inCells d s (fun _ => true))
    askFlow (setFld d (TMG_PORTp_STATUS_FC_ASSERT s) (if on then 255 else 0)) s 0 on
  else
    forEach (List.range 8) (fun d k =>
      let on := lossless d s k && flowState d (bitOf was k) (inCells d s (fun p => p == k))
      askFlow (setRegBit d (TMG_PORTp_STATUS s) (16 + k) on) s (1 + k) on) d

/-- After a frame has come or gone. -/
def afterChange (d : Dev) (f : BufFrame) : Dev :=
  let d := syncPools d
  match f.src with
  | .lane s => syncFlow d s
  | _ => d

/-! ### Buckets (R283 to R286): policer n at key n, shaper s at 8,192 + s, in units of 1/6,553,600 byte -/

def bucketRegs (k : Nat) : Fld × Fld × Fld × Fld :=
  if k < 8192 then (TMG_POLn_CIR_CIR k, TMG_POLn_CBS_CBS k, TMG_POLn_PIR_PIR k, TMG_POLn_PBS_PBS k)
  else (TMG_SHs_CIR_CIR (k - 8192), TMG_SHs_CBS_CBS (k - 8192), TMG_SHs_PIR_PIR (k - 8192), TMG_SHs_PBS_PBS (k - 8192))

/-- Log 80: DESIGN CHOICE, unsafe. -/
def byteUnits : Nat := 6553600

/-- A bucket after n ticks at a rate in Mbit/s, clipped at its size in bytes: 40 ns at 1 Mbit/s are 32,768 units. -/
def refill (v : Int) (rate size n : Nat) : Int := min (v + (rate * 32768 * n : Nat)) (size * byteUnits : Nat)

/-- The buckets of a policer or shaper at this tick; one that was never charged is full. -/
def bucketsNow (d : Dev) (k : Nat) : Buckets :=
  let (cir, cbs, pir, pbs) := bucketRegs k
  match d.pkt.buckets.find? (fun e => e.1 == k) with
  | some (_, b) =>
    let n := d.elapsed - b.at'
    { c := refill b.c (fldA d cir) (fldA d cbs) n, p := refill b.p (fldA d pir) (fldA d pbs) n, at' := d.elapsed }
  | none => { c := (fldA d cbs * byteUnits : Nat), p := (fldA d pbs * byteUnits : Nat), at' := d.elapsed }

def putBuckets (d : Dev) (k : Nat) (b : Buckets) : Dev := setPkt d (fun p => { p with buckets := sins k b (sdrop k p.buckets) })

/-- The colour a policer gives a frame of n bytes: 0 green, 1 yellow, 2 red (R284). (log 75: DEDUCED, unsafe) -/
def police (d : Dev) (k n : Nat) : Dev × Nat :=
  let b := bucketsNow d k
  let c : Int := (n * byteUnits : Nat)
  if b.p < 0 then (putBuckets d k b, 2)
  else if b.c < 0 then (count (putBuckets d k { b with p := b.p - c }) TMG_YELLOW, 1)
  else (putBuckets d k { b with p := b.p - c, c := b.c - c }, 0)

def queueShaper (d : Dev) (q : Nat) : Option Nat :=
  if q < 16384 ∧ flag d (TMG_Qq_CFG1_SH_EN q) then some (8192 + fld d (TMG_Qq_CFG1_SHAPER q)) else none

/-- A frame of n bytes of a queue is chosen: its shaper is charged in both buckets (R285). -/
def chargeShaper (d : Dev) (q n : Nat) : Dev :=
  match queueShaper d q with
  | some k =>
    let b := bucketsNow d k
    let c : Int := (n * byteUnits : Nat)
    putBuckets d k { b with c := b.c - c, p := b.p - c }
  | none => d

def peakOpen (d : Dev) (q : Nat) : Bool :=
  match queueShaper d q with
  | some k => decide (0 ≤ (bucketsNow d k).p)
  | none => true

def committedOpen (d : Dev) (q : Nat) : Bool :=
  match queueShaper d q with
  | some k => decide (0 ≤ (bucketsNow d k).c)
  | none => true

/-! ### Tags (R282) -/

def qState (d : Dev) (q : Nat) : QState := sget QState.reset d.qstate q
def setQState (d : Dev) (q : Nat) (f : QState → QState) : Dev := { d with qstate := sput QState.reset d.qstate q (f (qState d q)) }

def tagTop : Nat := 0x1000000000000

/-- Tag a lies before tag b by the sign of their 48-bit difference. -/
def tagBefore (a b : Nat) : Bool := a % tagTop != b % tagTop && decide ((b + tagTop - a % tagTop) % tagTop < tagTop / 2)
def tagMax (a b : Nat) : Nat := if tagBefore a b then b else a

def virtualTime (d : Dev) (sched : Nat) : Nat := sget 0 d.pkt.virt sched

/-- A queue becomes backlogged or eligible again (R282). -/
def joinTags (d : Dev) (sched q : Nat) : Dev :=
  setQState d q (fun s => { s with s := tagMax (tagMax s.s (virtualTime d sched)) s.g, ready := true })

/-- A frame of n bytes is chosen from a weighted queue (R282). -/
def chooseTags (d : Dev) (sched q n : Nat) : Dev :=
  let s := (qState d q).s
  let g := (s + ceilDiv (n * 256) (fld d (TMG_Qq_CFG1_WEIGHT q))) % tagTop
  setQState (setPkt d (fun p => { p with virt := sput 0 p.virt sched s })) q (fun t => { t with s := g, g := g })

/-- The scheduler of a queue: a server port, or 64 + the line group its applied binding names (R273, R279). -/
def schedulerOf (d : Dev) (q : Nat) : Option Nat :=
  if q < 8192 then some (q / 128)
  else if q < 16384 then
    (if fldA d (TMG_LMAPj_VALID (q - 8192)) = 1 then some (64 + fldA d (TMG_LMAPj_ENTRY (q - 8192))) else none)
  else none

/-! ### Admission (R274, R276) -/

/-- RX_MAX of a host receive ring: bits 18:0 of its RANGE word (R337). -/
def rxMax (d : Dev) (r : Nat) : Nat := getBits (rd d (HIF_Rr_RANGE r)) 18 0

def queueMax (d : Dev) (q : Nat) : Nat := if q < 16384 then fld d (TMG_Qq_CFG0_Q_MAX q) else rxMax d (q - 16384)
def queueAlpha (d : Dev) (q : Nat) : Nat := if q < 16384 then fld d (TMG_Qq_CFG0_ALPHA q) else 7

/-- The alpha test (R276): alpha is 2^(ALPHA − 7), and code 15 removes the test. -/
def alphaPass (d : Dev) (q need free : Nat) : Bool := queueAlpha d q == 15 || decide (need * 128 ≤ free * 2 ^ queueAlpha d q)

/-- Where a frame is admitted, or why it is dropped. -/
inductive Admission where
  | pool (n : Nat)
  | dropped (status : Nat) (headroom : Bool)
deriving DecidableEq, Repr

/-- The admission decision of R276 for a frame of colour c. -/
def admission (d : Dev) (q : Nat) (f : BufFrame) (c : Nat) : Admission :=
  let n := frameCells f
  let used := cellsOf (queueOf d q)
  let port := admissionPort q
  let free := fld d TMG_FREE_SHARED_FREE
  let fl := heldCells d (fun q f => admissionPort q == port && f.pool == 0)
  if queueMax d q < used + n then .dropped csQlimit false
  else if c ≠ 1 ∧ fl + n ≤ floorCells d port then .pool 0
  else if n ≤ free ∧ alphaPass d q (used + n) free then .pool 1
  else
    let why := if n ≤ free then csDt else csPool
    match f.src with
    | .lane s =>
      if lossless d s f.pri then
        if heldCells d (fun _ g => g.src == .lane s && g.pool == 2) + n ≤ headroomCells d then .pool 2 else .dropped why true
      else .dropped why false
    | _ => .dropped why false

def statusCounter (st : Nat) : Reg := if st = csQlimit then TMG_DROP_QLIMIT else if st = csDt then TMG_DROP_DT else TMG_DROP_POOL

/-- The host transmit entry of an offer learns the outcome (R331). -/
def reportEntry (d : Dev) (o : TmOffer) (status : Nat) : Dev :=
  match o.entry with
  | some (r, i) => txAdmitted d r i status
  | none => d

/-- The frame takes its place in its queue (R276, R282). -/
def enqueue (d : Dev) (q : Nat) (f : BufFrame) : Dev :=
  let was := queueOf d q
  let d := putQueue d q (was ++ [f])
  match schedulerOf d q with
  | some sc => if was.isEmpty then joinTags d sc q else d
  | none => d

def admitOffer (d : Dev) (o : TmOffer) (colour : Nat) : Dev :=
  match admission d o.queue o.frame colour with
  | .pool n => reportEntry (afterChange (enqueue d o.queue { o.frame with pool := n }) o.frame) o csOk
  | .dropped st hr =>
    let d := setQState (count d (statusCounter st)) o.queue (fun s => { s with drops := min (s.drops + 1) 0xFFFFFFFF })
    let d := if hr then count d TMG_DROP_HEADROOM else d
    reportEntry (raiseTmg d tmDrop) o st

/-- A frame for a host ring is dropped where the ring is no RX ring or does not run (R327). -/
def ringTakes (d : Dev) (q : Nat) : Bool := decide (q < 16384) || (ringKind d (q - 16384) == kindRx && ringRuns d (q - 16384))

/-- FRAME_ADMIT: the oldest offered frame is policed and admitted, or dropped (R274, R276). In an entry to Hush or Keep that TMG has
been asked for, no frame is admitted (R292). -/
def frameAdmit (d : Dev) : Dev :=
  match d.pkt.offers with
  | [] => d
  | o :: rest =>
    let d := setPkt d (fun p => { p with offers := rest })
    if pwrStopped d 7 then reportEntry d o csFlushed
    else if !ringTakes d o.queue then count d HIF_RX_NO_RING
    else match o.policer, o.frame.src with
      | _, .host _ => admitOffer d o 0
      | _, .own _ => admitOffer d o 0
      | none, _ => admitOffer d o 0
      | some k, _ =>
        let (d, c) := police d k o.frame.bytes.length
        if c = 2 then count d TMG_DROP_RED else admitOffer d o c

/-! ### Gate lists (R287 to R290): schedulers 0–63 are server ports, 64 + g line groups -/

def gateList (d : Dev) (sched copy : Nat) : GateList := sget GateList.reset d.pkt.lists (2 * sched + copy)
def gateRun (d : Dev) (sched : Nat) : GateRun := sget GateRun.reset d.pkt.gates sched
def setGateRun (d : Dev) (sched : Nat) (r : GateRun) : Dev := setPkt d (fun p => { p with gates := sput GateRun.reset p.gates sched r })

/-- Log 81: DEDUCED, unsafe. -/
def gateEntry (l : GateList) (i : Nat) : Nat × Nat := sget (255, 1000) l.entries i

/-- The spans of one cycle: length in ns and gate bits; the last entry holds to the cycle end, and an entry is cut there (R288). -/
def cycleSpans (l : GateList) : Nat → Nat → Nat → List (Nat × Nat)
  | 0, _, _ => []
  | n + 1, i, at' =>
    let (g, ns) := gateEntry l i
    if l.cycle ≤ at' then []
    else if n = 0 then [(l.cycle - at', g)]
    else (min ns (l.cycle - at'), g) :: cycleSpans l n (i + 1) (at' + ns)

def spans (l : GateList) : List (Nat × Nat) := cycleSpans l l.cnt 0 0

/-- The cycle phase of a list that started at ts (R288). -/
def gatePhase (l : GateList) (ts t : Nat) : Nat := (((t : Int) - ts) % (l.cycle : Int)).toNat

/-- What is left of a cycle from a phase on. -/
def spansFrom : List (Nat × Nat) → Nat → List (Nat × Nat)
  | [], _ => []
  | (n, g) :: t, ph => if n ≤ ph then spansFrom t (ph - n) else (n - ph, g) :: t

/-- The present gate states of a scheduler (R288). -/
def gatesNow (d : Dev) (sched : Nat) : Nat :=
  match (gateRun d sched).applied with
  | none => 255
  | some (c, ts) =>
    let l := gateList d sched c
    ((spansFrom (spans l) (gatePhase l ts (now d))).head?.map (·.2)).getD 255

/-- ns for which gate g stays open over some spans; none where they end before it closes. -/
def openFor (g : Nat) : List (Nat × Nat) → Option Nat
  | [] => none
  | (n, bits) :: t => if bitOf bits g then (openFor g t).map (· + n) else some 0

/-- ns until gate g of a running list closes from a phase on, looking through later entries and cycles; none if never (R289). -/
def closesIn (l : GateList) (ph g : Nat) : Option Nat := openFor g (spansFrom (spans l) ph ++ spans l ++ spans l)

/-- ns until gate g of a scheduler closes, a pending list taken into account (R289, R290). (log 83: DEDUCED, unsafe) -/
def gateClosesIn (d : Dev) (sched g : Nat) : Option Nat :=
  let r := gateRun d sched
  let old := match r.applied with
    | none => none
    | some (c, ts) => closesIn (gateList d sched c) (gatePhase (gateList d sched c) ts (now d)) g
  match r.waiting with
  | none => old
  | some (c, ts) =>
    let wait := ts - now d
    (match old with
     | some n => if n ≤ wait then some n else (closesIn (gateList d sched c) 0 g).map (· + wait)
     | none => (closesIn (gateList d sched c) 0 g).map (· + wait))

/-- The longest open span of gate g in a whole cycle, spans joined across the cycle end (R289); none where it never closes. -/
def longestOpen (l : GateList) (g : Nat) : Option Nat :=
  let ss := spans l
  if ss.all (fun x => bitOf x.2 g) then none
  else
    let r := (ss ++ ss).foldl (fun (a : Nat × Nat) x => if bitOf x.2 g then (a.1 + x.1, max a.2 (a.1 + x.1)) else (0, a.2)) (0, 0)
    some r.2

/-- The frame is longer than the longest open span of its gate; a gate that never opens keeps its frames (R289, R436). -/
def oversize (d : Dev) (p g n : Nat) : Bool :=
  match (gateRun d p).applied with
  | none => false
  | some (c, _) => match longestOpen (gateList d p c) g with
    | none => false
    | some s => s != 0 && decide (s * 1000 < (n + 20) * bytePs d p)

def statusReg (sched : Nat) : Reg := if sched < 64 then TMG_PORTp_STATUS sched else TMG_LGg_STATUS (sched - 64)

/-- STATUS of a scheduler follows its lists. -/
def syncGates (d : Dev) (sched : Nat) : Dev :=
  let r := gateRun d sched
  let w := putBits (rd d (statusReg sched)) 31 31 (boolBit r.waiting.isSome)
  let w := putBits w 30 30 ((r.applied.map (·.1)).getD 0)
  wr d (statusReg sched) (putBits w 15 8 (gatesNow d sched))

/-- GATE_LIST_START: device time has reached T_s of the pending list (R290). -/
def gateListStart (sched : Fin 576) (d : Dev) : Dev :=
  match (gateRun d sched).waiting with
  | some (c, ts) => if ts ≤ now d then syncGates (setGateRun d sched { applied := some (c, ts), waiting := none }) sched else d
  | none => d

/-- GATE_CHANGE: an entry or cycle boundary has passed (R288). -/
def gateChange (sched : Fin 576) (d : Dev) : Dev := syncGates d sched

/-! ### Gate-list access (R287) -/

def glRefused (d : Dev) (sched copy : Nat) : Bool :=
  let r := gateRun d sched
  (r.applied.map (·.1)) == some copy || (r.waiting.map (·.1)) == some copy

def stagedHeader (d : Dev) (l : GateList) : GateList :=
  { l with base := (rdn d TMG_GL_BASE_LO + 0x100000000 * fld d TMG_GL_BASE_HI_VALUE) * nsPerSec + fld d TMG_GL_BASE_NS_NS
           cycle := fld d TMG_GL_CYCLE_CYCLE, cnt := fld d TMG_GL_COUNT_COUNT }

def showHeader (d : Dev) (l : GateList) : Dev :=
  let s := l.base / nsPerSec
  let d := wrn (wrn (wrn d TMG_GL_BASE_HI (s / 0x100000000)) TMG_GL_BASE_LO s) TMG_GL_BASE_NS (l.base % nsPerSec)
  wrn (wrn d TMG_GL_CYCLE l.cycle) TMG_GL_COUNT l.cnt

def glCtlWrite (m : Master) (value : Word) (d : Dev) : Dev :=
  guarded d m TMG_GL_CTL.ofs (fun d =>
    let d := storeAt d m TMG_GL_CTL.ofs value
    let sched := fld d TMG_GL_CTL_SCHED
    let copy := fld d TMG_GL_CTL_COPY
    let i := fld d TMG_GL_CTL_INDEX
    let l := gateList d sched copy
    if !value.getLsbD 31 then d
    else if value.getLsbD 30 then
      if i = 256 then showHeader d l
      else wrn (wrn d TMG_GL_ENTRY_GATES (gateEntry l i).1) TMG_GL_ENTRY_NS (gateEntry l i).2
    else if glRefused d sched copy then count (setFlag d TMG_GL_CTL_REFUSED true) TMG_GL_REFUSED
    else
      let l := if i = 256 then stagedHeader d l
        else { l with entries := sput (255, 1000) l.entries i (fld d TMG_GL_ENTRY_GATES_GATES, fld d TMG_GL_ENTRY_NS_NS) }
      setFlag (setPkt d (fun p => { p with lists := sput GateList.reset p.lists (2 * sched + copy) l })) TMG_GL_CTL_REFUSED false)

/-- GL_WRITE and GL_READ: TMG_GL_CTL is written with GO 1 and OP 0 or 1. -/
def glWrite (m : Master) (value : Word) (d : Dev) : Dev := glCtlWrite m ((value ||| 0x80000000) &&& 0xBFFFFFFF) d
def glRead (m : Master) (value : Word) (d : Dev) : Dev := glCtlWrite m (value ||| 0xC0000000) d

/-! ### The choice of the next frame (R280, R281) -/

/-- The frame that a queue would send next: a Sync that waits for its instant is not it. -/
def headFrame (d : Dev) (q : Nat) : Option BufFrame := (queueOf d q).find? (fun f => f.launch.isNone)

/-- Weighted queues: those that became eligible take their tags, those no longer eligible lose the mark (R282). -/
def refreshTags (d : Dev) (sched : Nat) (all eligible : List Nat) : Dev :=
  forEach all (fun d q =>
    if eligible.contains q then (if (qState d q).ready then d else joinTags d sched q)
    else setQState d q (fun s => { s with ready := false })) d

/-- The queue with the least start tag, ties to the lower number. -/
def leastTag (d : Dev) (qs : List Nat) : Option Nat :=
  qs.foldl (fun a q => match a with
    | none => some q
    | some b => if tagBefore (qState d q).s (qState d b).s then some q else some b) none

/-- R281 over the eligible strict queues, highest priority first, and the eligible weighted queues in number order. -/
def selectQueue (d : Dev) (strict weighted : List Nat) : Option Nat :=
  match strict.head? with
  | some q => some q
  | none => match leastTag d (weighted.filter (committedOpen d)) with
    | some q => some q
    | none => leastTag d weighted

/-- A frame leaves a queue for good; its cells return to their pool (R276). -/
def takeFrom (d : Dev) (q : Nat) (f : BufFrame) : Dev := afterChange (putQueue d q ((queueOf d q).erase f)) f

/-- A frame is discarded: a host's wish for its stamp ends with a status (R331). -/
def discardFrame (d : Dev) (q : Nat) (f : BufFrame) (status : Nat) : Dev :=
  let d := takeFrom d q f
  match f.tx with
  | some (r, i) => txResult d r i status none
  | none => d

/-- What a read of a frame's cells finds (R293): none where the frame is discarded. (log 87: DESIGN CHOICE, unsafe) -/
def readCells (d : Dev) (f : BufFrame) (ecc : Ecc) : Dev × Bool :=
  match ecc with
  | .clean => (d, true)
  | .corrected => (count d TMG_ECC_CORR, true)
  | .uncorrectable =>
    let d := raiseTmg (count d TMG_ECC_UNCORR) tmEccUncorr
    (match f.tx with
     | some (r, i) => txResult d r i csEcc none
     | none => d, false)

/-- The MAC of server port p holds the port or the priority of a class (R228, R230). -/
def macHolds (d : Dev) (p cls : Nat) : Bool := paused d p 0 || paused d p (1 + fld d (TMG_CLASSc_PRI cls))

def classGate (d : Dev) (cls : Nat) : Nat := fld d (TMG_CLASSc_GATE cls)

/-- Head frames of a port that no span of their gate can ever take are discarded (R289); the fuel bounds their number. -/
def dropOversize : Nat → Dev → Nat → Dev
  | 0, d, _ => d
  | n + 1, d, p =>
    match (d.queues.map (·.1)).find? (fun q => q / 128 == p && (match headFrame d q with
        | some f => oversize d p (classGate d (q % 128)) f.bytes.length
        | none => false)) with
    | none => d
    | some q => match headFrame d q with
      | some f => dropOversize n (raiseTmg (count (discardFrame d q f csFlushed) TMG_GATE_OVERSIZE) tmOversize) p
      | none => d

/-- A server queue is eligible (R280, R289), and no Sync stands in its frame's way (R302). -/
def serverEligible (d : Dev) (p q : Nat) : Bool :=
  match headFrame d q with
  | none => false
  | some f =>
    let g := classGate d (q % 128)
    let fits := match gateClosesIn d p g with
      | none => true
      | some ns => decide ((f.bytes.length + 20) * bytePs d p ≤ ns * 1000)
    bitOf (gatesNow d p) g && fits && !macHolds d p (q % 128) && peakOpen d q && beforeSync d p f.bytes.length

/-- The port's chosen queue, with the tags brought up to date. -/
def serverChoice (d : Dev) (p : Nat) : Dev × Option Nat :=
  let qs := (d.queues.map (·.1)).filter (fun q => q / 128 == p && decide (q < 8192))
  let el := qs.filter (serverEligible d p)
  let d := refreshTags d p (qs.filter (fun q => decide (4 ≤ q % 128))) el
  (d, selectQueue d (el.filter (fun q => decide (q % 128 < 4))) (el.filter (fun q => decide (4 ≤ q % 128))))

/-- A waiting Sync of the port moves into the MAC: it is subject to no gate or shaper (R302). -/
def dequeueSync (d : Dev) (p : Nat) : Dev :=
  let q := syncQueue d p
  match (queueOf d q).find? (fun f => f.launch.isSome) with
  | some f => setMac (takeFrom d q f) p (fun m => { m with tx := some f, cls := q % 128 })
  | none => d

/-- SERVER_DEQUEUE: a server port takes its next frame into its MAC; what the read of its cells finds (R281, R293). A control frame
that the MAC is asked for goes ahead of data frames (R231). -/
def serverDequeue (p : Fin 64) (ecc : Ecc) (d : Dev) : Dev :=
  if (macHw d p).tx.isSome || txHold d p || flowFirst d p || !domainOn d 33 then d
  else
    let d := dropOversize (((d.queues.filter (fun e => e.1 / 128 == p.val)).map (fun e => e.2.length)).foldl (· + ·) 0) d p
    let (d, c) := serverChoice d p
    match c with
    | none => dequeueSync d p
    | some q => match headFrame d q with
      | none => d
      | some f =>
        let n := f.bytes.length
        let d := chargeShaper (takeFrom d q f) q n
        let d := if 4 ≤ q % 128 then chooseTags d p q n else d
        let d := setQState d q (fun s => { s with sent := min (s.sent + 1) 0xFFFFFFFF })
        let (d, good) := readCells d f ecc
        if good then setMac d p (fun m => { m with tx := some f, cls := q % 128 }) else d

/-! ### Line groups (R279, R280, R281) -/

/-- The line-egress queues with frames that the applied map binds to group g. -/
def groupQueues (d : Dev) (g : Nat) : List Nat := (d.queues.map (·.1)).filter (fun q => boundTo d q g)

def lineLevel (d : Dev) (q : Nat) : Nat := min (fldA d (TMG_LMAPj_LEVEL (q - 8192))) 4

/-- A line queue is eligible (R280); no fit test applies to it (R289). -/
def lineEligible (d : Dev) (g q : Nat) : Bool :=
  (headFrame d q).isSome && bitOf (gatesNow d (64 + g)) (fldA d (TMG_LMAPj_GATE (q - 8192))) && peakOpen d q

/-- The next queue of a line group, with the tags brought up to date. -/
def lineChoice (d : Dev) (g : Nat) : Dev × Option Nat :=
  let qs := groupQueues d g
  let el := qs.filter (lineEligible d g)
  let d := refreshTags d (64 + g) (qs.filter (fun q => lineLevel d q == 4)) el
  let strict := ([0, 1, 2, 3].map (fun l => el.filter (fun q => lineLevel d q == l))).flatten
  (d, selectQueue d strict (el.filter (fun q => lineLevel d q == 4)))

/-- The chosen frame of a line queue leaves it whole (R281, R285, R293); none where its cells cannot be read. -/
def lineTake (d : Dev) (g q : Nat) (f : BufFrame) (ecc : Ecc) : Dev × Bool :=
  let n := f.bytes.length
  let d := chargeShaper (takeFrom d q f) q n
  let d := if lineLevel d q = 4 then chooseTags d (64 + g) q n else d
  let d := setQState d q (fun s => { s with sent := min (s.sent + 1) 0xFFFFFFFF })
  readCells d f ecc

/-! ### Statistics, flushes, drains (R291, R292, R294) -/

/-- Q_SEL_WRITE: TMG_Q_SEL is written; the queue's figures are latched (R294). -/
def qSelWrite (m : Master) (value : Word) (d : Dev) : Dev :=
  guarded d m TMG_Q_SEL.ofs (fun d =>
    let d := storeAt d m TMG_Q_SEL.ofs value
    let q := fld d TMG_Q_SEL_QUEUE
    let fs := queueOf d q
    let d := wrn (wrn d (TMG_Q_STATk 0) (cellsOf fs)) (TMG_Q_STATk 1) fs.length
    wrn (wrn d (TMG_Q_STATk 2) (qState d q).drops) (TMG_Q_STATk 3) (qState d q).sent)

/-- Every frame of some queues is discarded; how many they were. -/
def emptyQueues (d : Dev) (p : Nat → Bool) : Dev × Nat :=
  let es := d.queues.filter (fun e => p e.1)
  let fs := (es.map (fun e => e.2.map (fun f => (e.1, f)))).flatten
  (forEach fs (fun d e => discardFrame d e.1 e.2 csFlushed) d, fs.length)

/-- PORT_FLUSH: the port's lane has been out of ACTIVE for FLUSH_MS (R291). -/
def portFlush (p : Fin 64) (d : Dev) : Dev :=
  if timerOver d (.portFlush p) ∧ laneState d p ≠ lnActive then
    let (d, n) := emptyQueues d (fun q => decide (q < 8192) && q / 128 == p.val)
    if n = 0 then d else raiseTmg (countBy d TMG_FLUSH n) tmFlush
  else d

/-- Frames still held when the drain of an entry is over are discarded (R292). (log 85: DEDUCED, unsafe) -/
def drainDiscard (d : Dev) : Dev :=
  let (d, n) := emptyQueues d (fun _ => true)
  countBy d TMG_DRAIN_DISCARD n

/-! ### Commits naming TMG (R279, R286, R290) -/

/-- The scheduler whose selector a word is, if it is one. -/
def selectorOf (ofs : Nat) : Option Nat :=
  if 0xE01000 ≤ ofs ∧ ofs < 0xE02000 ∧ (ofs - 0xE01000) % 0x40 = 4 then some ((ofs - 0xE01000) / 0x40)
  else if 0xE02000 ≤ ofs ∧ ofs < 0xE06000 ∧ (ofs - 0xE02000) % 0x20 = 0 then some (64 + (ofs - 0xE02000) / 0x20)
  else none

/-- The bucket pair a word belongs to. -/
def bucketOf (ofs : Nat) : Option Nat :=
  if 0xE60000 ≤ ofs ∧ ofs < 0xE80000 then some ((ofs - 0xE60000) / 0x10)
  else if 0xE80000 ≤ ofs ∧ ofs < 0xE90000 then some (8192 + (ofs - 0xE80000) / 0x10)
  else none

def isLmap (ofs : Nat) : Bool := decide (0xE40000 ≤ ofs) && decide (ofs < 0xE48000)

/-- A selection that R290 refuses because its base lies too far back. -/
def gateTooOld (d : Dev) (sched : Nat) (w : Word) : Bool :=
  let l := gateList d sched (boolBit (w.getLsbD 0))
  w.getLsbD 1 && decide (l.base + 1048576 * l.cycle < now d)

/-- The bindings as they would stand with some words: (queue, word) of every VALID one. -/
def bindingsWith (d : Dev) (ws : List (Nat × Word)) : List Word :=
  let d' := ws.foldl (fun d e => if isLmap e.1 then wrA d (TMG_LMAPj ((e.1 - 0xE40000) / 4)) e.2 else d) d
  (d'.applied.filter (fun e => isLmap e.1 && e.2.getLsbD 31)).map (·.2)

/-- The group of some binding word breaks its limits (R279). -/
def groupBroken (bs : List Word) (g : Nat) : Bool :=
  let inG := bs.filter (fun w => getBits w 8 0 == g)
  [0, 1, 2, 3].any (fun l => decide (1 < (inG.filter (fun w => getBits w 26 24 == l)).length))
    || decide (124 < (inG.filter (fun w => decide (4 ≤ getBits w 26 24))).length)

/-- TMG refuses a commit (R279, R290). -/
def tmgRefuses (d : Dev) (ws : List (Nat × Word)) : Bool :=
  let bs := bindingsWith d ws
  (ws.any (fun e => isLmap e.1) && bs.any (fun w => groupBroken bs (getBits w 8 0)))
    || ws.any (fun e => match selectorOf e.1 with
        | some sc => (gateRun d sc).waiting.isSome || gateTooOld d sc e.2
        | none => false)

/-- A refusal for an old base is counted and raised (R290). -/
def tmgRefused (d : Dev) (ws : List (Nat × Word)) : Dev :=
  if ws.any (fun e => match selectorOf e.1 with
      | some sc => (gateRun d sc).waiting.isNone && gateTooOld d sc e.2
      | none => false) then raiseTmg (count d TMG_GATE_REJECT) tmGateReject
  else d

/-- A gate list is brought into use, or the scheduler's gates are all opened (R288, R290). (log 82: DEDUCED, unsafe) -/
def selectGates (d : Dev) (sched : Nat) (w : Word) : Dev :=
  if !w.getLsbD 1 then syncGates (setGateRun d sched GateRun.reset) sched
  else
    let copy := boolBit (w.getLsbD 0)
    let l := gateList d sched copy
    if now d ≤ l.base then syncGates (setGateRun d sched { gateRun d sched with waiting := some (copy, l.base) }) sched
    else
      let k := ceilDiv (now d + 10000 - l.base) l.cycle
      let d := setGateRun d sched { gateRun d sched with waiting := some (copy, l.base + k * l.cycle) }
      let d := setFld (setFld (count d TMG_GATE_ADV) TMG_GL_LAST_ADV_SCHED sched) TMG_GL_LAST_ADV_CYCLES k
      syncGates (raiseTmg d tmGateAdv) sched

/-- The bucket pairs that some words touch, brought up to date at the old rates (R286). -/
def settleBuckets (d : Dev) (ws : List (Nat × Word)) : Dev :=
  forEach ((ws.filterMap (fun e => bucketOf e.1)).eraseDups) (fun d k => putBuckets d k (bucketsNow d k)) d

/-- Credit above a new, smaller size is clipped (R286). -/
def clipBuckets (d : Dev) (ws : List (Nat × Word)) : Dev :=
  forEach ((ws.filterMap (fun e => bucketOf e.1)).eraseDups) (fun d k => putBuckets d k (bucketsNow d k)) d

/-- The words of a commit that name selectors act after every word has applied. -/
def tmgSelect (d : Dev) (ws : List (Nat × Word)) : Dev :=
  forEach ws (fun d e => match selectorOf e.1 with
    | some sc => selectGates d sc e.2
    | none => d) d

end Sys2Proof.Machine
end

