-- ==== Sys2Proof/Machine/LineStage.lean ====
section
/-!
DEFINITION. Machine/LineStage.lean: the refill engine, which forms, ciphers and stages line units (R160 to R162, R164, spec/08; R176,
spec/09; R182, spec/10; R305, spec/17), and response bursts (R135, R139, spec/07; R157, spec/08).
-/

namespace Sys2Proof.Machine

/-! ### The choice of a grant (R161, R162) -/

/-- The instant of a grant's delimiter in units of 2^-16 ns. -/
def delimiterAt (d : Dev) (x : Line) (g : Grant) : Int := grantInstant d x g 0

/-- One grant comes before another: by the time of the delimiter, then by line, then by channel. -/
def grantBefore (d : Dev) (a b : Line × Grant) : Bool :=
  let (p, q) := (delimiterAt d a.1 a.2, delimiterAt d b.1 b.2)
  decide (p < q) || (decide (p = q) && (decide (a.1.ix < b.1.ix) || (a.1 == b.1 && decide (a.2.chan < b.2.chan))))

def insGrant (d : Dev) (g : Line × Grant) : List (Line × Grant) → List (Line × Grant)
  | [] => [g]
  | a :: t => if grantBefore d g a then g :: a :: t else a :: insGrant d g t

/-- Accepted grants of both lines in the order of their delimiters. -/
def grantsInOrder (d : Dev) : List (Line × Grant) :=
  ((d.upHw.a.grants.map (fun g => (Line.a, g))) ++ (d.upHw.b.grants.map (fun g => (Line.b, g)))).foldl (fun l g => insGrant d g l) []

/-- Every earlier grant of the allocation is complete. -/
def grantEligible : List (Line × Grant) → Line × Grant → Bool
  | [], _ => true
  | a :: t, g => if a = g then true else (a.1 != g.1 || a.2.entry != g.2.entry || a.2.complete) && grantEligible t g

/-- Bytes staged for a grant, sent ones included. -/
def grantBytes (g : Grant) : Nat := sentBytes g + sumOf unitBytes g.staged

/-- A grant that may take units now. -/
def mayStage (d : Dev) (l : List (Line × Grant)) (g : Line × Grant) : Bool :=
  g.2.horizon && !g.2.complete && grantEligible l g && hasUnstaged d g.1 g.2.entry

/-- The grant that the staging step serves, with true where it lies below its floor. -/
def stagingGrant (d : Dev) : Option (Line × Grant × Bool) :=
  let l := grantsInOrder d
  match l.find? (fun g => mayStage d l g && decide (g.2.granules < g.2.floor)) with
  | some (x, g) => some (x, g, true)
  | none =>
    if l.all (fun g => !g.2.horizon || g.2.reserved) then
      (l.find? (fun g => mayStage d l g && decide (grantBytes g.2 < capOf g.2))).map (fun g => (g.1, g.2, false))
    else none

/-! ### Staging a unit (R159, R162) -/

def markComplete (d : Dev) (x : Line) (g : Grant) : Dev := syncNrw (replaceGrant d x g { g with complete := true }) g.entry.toList

/-- A unit of n bytes fits what is left of the grant's capacity. -/
def fitsGrant (g : Grant) (n : Nat) : Bool := decide (grantBytes g + n ≤ capOf g)

/-- The Narrows has room for n granules for the grant: what its own reservation holds back, then free space. (log 43: DEDUCED, unsafe) -/
def hasRoom (d : Dev) (x : Line) (g : Grant) (n : Nat) (floor : Bool) : Bool :=
  decide (n ≤ freeGranules d + (if floor then heldBack d x g else 0))

/-- A unit is bound to a grant. -/
def stageUnit (d : Dev) (x : Line) (g : Grant) (u : LineUnit) : Dev :=
  let g' := { g with staged := g.staged ++ [u], granules := g.granules + unitGranules u }
  syncNrw (replaceGrant d x g { g' with complete := decide (capOf g' ≤ grantBytes g') }) g.entry.toList

/-- A new unit of the allocation is staged, or marks the grant complete; it waits where the Narrows has no room. -/
def stageNew (d : Dev) (x : Line) (g : Grant) (floor : Bool) (u : LineUnit) (taken : Dev → Dev) : Dev :=
  if !fitsGrant g (unitBytes u) then markComplete d x g
  else if !hasRoom d x g (unitGranules u) floor then d
  else stageUnit { taken d with stageSeq := d.stageSeq + 1 } x g { u with seq := d.stageSeq }

/-! ### Forming units (R176, R182, R305) -/

/-- Tag bytes of a page's units. -/
def tagBytes (d : Dev) (page : Nat) : Nat := if pageGcm d page then 16 else 0

def fragSize (d : Dev) : Nat := fldA d ENC_CFG_FRAG_SIZE

/-- Bytes of the first unit of a frame of n bytes. -/
def firstUnitBytes (d : Dev) (page n : Nat) : Nat := 8 + 8 * ceilDiv (min n (fragSize d) + tagBytes d page) 8

/-- The instant at which data bit i of a grant's payload passes the lane boundary, in units of 2^-16 ns (R151, R153).
(log 46: DEDUCED, unsafe) -/
def dataBitInstant (d : Dev) (x : Line) (g : Grant) (i : Nat) : Nat :=
  (grantInstant d x g 4
    + nearest (((5440 * (i / 5140) + i % 5140) * 1204819 * 65536 : Nat) : Int) 64000000).toNat

/-- The units of a frame, counted as they are formed (R177): the first is staged, the others wait for the next steps.
(log 45: DEDUCED, unsafe) -/
def stageFirst (d : Dev) (x : Line) (g : Grant) (us : List LineUnit) : Dev :=
  match us with
  | [] => d
  | u :: rest =>
    let d := countBy d (ENC_Lx_LU_TX x.ix) us.length
    let d := if rest.isEmpty then d else count d (ENC_Lx_LU_FRAG x.ix)
    let d := setFormed { d with stageSeq := d.stageSeq + 1 } (carryKey x g.entry) rest
    stageUnit d x g { u with seq := d.stageSeq - 1 }

/-- A host frame that asked for its stamp learns the lane-boundary instant of its first unit, or that it was discarded (R329, R331). -/
def reportSent (d : Dev) (f : BufFrame) (status : Nat) (stamp : Option Nat) : Dev :=
  match f.tx with
  | some (r, j) => txResult d r j status stamp
  | none => d

/-- The next frame of a data allocation's queues is read, corrected, ciphered and cut (R162, R182). (log 48: DEDUCED, unsafe) -/
def stageFrame (d : Dev) (x : Line) (g : Grant) (i : Nat) (floor : Bool) (ecc : Ecc) (mis : List EngineMiss) : Dev :=
  let (d, c) := lineChoice d i
  match c with
  | none => d
  | some q => match headFrame d q with
    | none => d
    | some f =>
      let n := firstUnitBytes d f.page f.bytes.length
      if !fitsGrant g n then markComplete d x g
      else if !hasRoom d x g (ceilDiv n 64) floor then d
      else
        let (d, good) := lineTake d i q f ecc
        if !good then d
        else
          let before := f.bytes
          let (d, f) := correctUp d x g.chan f (dataBitInstant d x g (8 * grantBytes g))
          let time := fldA d (TMG_LMAPj_TIME (q - 8192)) == 1
          let (d, us) := cipUp d f.page f.tag false time (fragments 40 (fragSize d) f.bytes) mis
          match us with
          | none => reportSent d f csFlushed none
          | some us =>
            let at16 := dataBitInstant d x g (8 * grantBytes g)
            stageFirst (reportSent d f csOk (some at16)) x g (us.map (fun u => { u with tc := f.bytes != before }))

/-- The oldest queued message of a line (R131, R172). -/
def stageMessage (d : Dev) (x : Line) (g : Grant) (mis : List EngineMiss) : Dev :=
  match (d.rngHw.get x).queue with
  | [] => d
  | m :: rest =>
    if !fitsGrant g (lmmUnitBytes d x) then markComplete d x g
    else if !hasRoom d x g (ceilDiv (lmmUnitBytes d x) 64) false then d
    else
      let (d, us) := cipUp (setRng d x (fun h => { h with queue := rest })) (mgmtPage d x) 0xFFFFE true false [m] mis
      match us with
      | none => d
      | some us => stageFirst d x g us

/-- STAGING_STEP: one line unit for the chosen grant (R162): carry-over first, then the rest of a frame begun, then a new frame or
message. What the read of a frame's cells finds, and the engine disagreements in its units (R194, R293). -/
def stagingStep (ecc : Ecc) (mis : List EngineMiss) (d : Dev) : Dev :=
  if !domainOn d 26 then d
  else match stagingGrant d with
  | none => d
  | some (x, g, floor) =>
    let k := carryKey x g.entry
    match carryOf d k with
    | c :: rest =>
      if fitsGrant g (unitBytes c.unit) then syncNrw (stageUnit (setCarry d k rest) x g c.unit) [k] else markComplete d x g
    | [] => match formedOf d k with
      | u :: rest => stageNew d x g floor u (fun d => setFormed d k rest)
      | [] => match g.entry with
        | some i => stageFrame d x g i floor ecc mis
        | none => stageMessage d x g mis

/-! ### Response bursts (R135, R139, R140, R157) -/

/-- The message that a response carries: SN_ANNOUNCE or RANGING_RESP (R129). -/
def responseMessage (d : Dev) (x : Line) (r : Response) : Dev × List Byte :=
  let sn := beBytes 8 (serialNumber d)
  match r.delay with
  | some n => makeLmm d x 0x81 (sn ++ beBytes 2 n ++ beBytes 1 x.ix)
  | none => makeLmm d x 0x82 (sn ++ beBytes 1 r.chan)

/-- RESPONSE_BURST: the response of a line is sent with its delimiter at 35.000 µs, and the delay it drew, after the FAW (R139).
(log 47: DEDUCED, unsafe) -/
def responseBurst (x : Line) (mis : List EngineMiss) (d : Dev) : Dev :=
  match (d.rngHw.get x).response with
  | none => d
  | some r =>
    let d := setRng d x (fun h => { h with response := none })
    let d := count d (if r.delay.isSome then RNG_Lx_SN_RESP x.ix else RNG_Lx_RNG_RESP x.ix)
    let lit := burstOk d x r.chan
    let (d, m) := responseMessage d x r
    let (d, us) := cipUp d (mgmtPage d x) 0xFFFFE true false [m] mis
    let d := countBy d (ENC_Lx_LU_TX x.ix) (us.getD []).length
    let data := ((us.getD []).map unitWire).flatten
    let data := data ++ fillerWire 4 (dataCapacity 14 / 64 - data.length / 8)
    let blocks := burstBlocks (preLen d x r.profile) (preWord d x r.profile) (headerNow d x false r.alloc 0 0) r.frame r.chan 14 data
    let d := sendBurst (if lit then startBen d x r.chan else d) x r.chan lit blocks
    let place := (r.frame * 3320000 + 32 * (r.delay.getD 0 + 19))
    let d := setUp (count d (UPB_BURSTS x.ix)) x (fun h => { h with lastEnd := sput 0 h.lastEnd r.chan place })
    if lit then setBenPhase d x r.chan benTail
    else raiseLL (count (noteSuppressed d x) (LLx_BEN_SUPPRESSED x.ix)) x llSuppressed

end Sys2Proof.Machine
end

