-- ==== Sys2Proof/Machine/BurstCommands.lean ====
section
/-!
DEFINITION. Machine/BurstCommands.lean: the commands of the upstream bursts and the Narrows (spec/08), one meaning for each row of the table.
-/

namespace Sys2Proof.Machine

/-- RESPONSE_BURST (R139). -/
def execResponseBurst (x : Line) (mis : List EngineMiss) (s : State) : Res := onDev (responseBurst x mis) s

/-- GRANT_HORIZON (R161). -/
def execGrantHorizon (x : Line) (s : State) : Res := onDev (grantHorizon x) s

/-- FLOOR_RESERVE (R161). -/
def execFloorReserve (x : Line) (s : State) : Res := onDev (floorReserve x) s

/-- STAGING_STEP (R162). -/
def execStagingStep (ecc : Ecc) (mis : List EngineMiss) (s : State) : Res := onDev (stagingStep ecc mis) s

/-- BURST_BEN_RISE (R166). -/
def execBurstBenRise (x : Line) (u : Fin 4) (s : State) : Res := onDev (burstBenRise x u) s

/-- UNIT_CUTOFF (R163). -/
def execUnitCutoff (x : Line) (u : Fin 4) (ecc : Ecc) (s : State) : Res := onDev (unitCutoff x u ecc) s

/-- BURST_END (R166). -/
def execBurstEnd (x : Line) (u : Fin 4) (s : State) : Res := onDev (burstEnd x u) s

/-- BEN_FALL (R86). -/
def execBenFall (x : Line) (u : Fin 4) (s : State) : Res := onDev (benFall x u) s

/-- CARRY_EXPIRE (R164). -/
def execCarryExpire (s : State) : Res := onDev carryExpire s

end Sys2Proof.Machine
end

