-- ==== Sys2Proof/Machine/CipherCommands.lean ====
section
/-!
DEFINITION. Machine/CipherCommands.lean: the commands of the line encapsulation and the line cipher (spec/09, spec/10), one meaning for each row of the table.
-/

namespace Sys2Proof.Machine

/-- KEY_WRAP (R191). -/
def execKeyWrap (x : Line) (h : LmmHead) (page : BitVec 6) (slot : BitVec 2) (wrapped : List Byte) (s : State) : Res :=
  onDev (keyWrap x h page slot wrapped) s

/-- KEY_SWITCH (R191). -/
def execKeySwitch (x : Line) (h : LmmHead) (page : BitVec 6) (slot : BitVec 2) (n : BitVec 48) (s : State) : Res :=
  onDev (keySwitch x h page slot n) s

/-- KEY_CLEAR (R191). -/
def execKeyClear (x : Line) (h : LmmHead) (page : BitVec 6) (slot : BitVec 2) (s : State) : Res := onDev (keyClear x h page slot) s

/-- LINE_UNIT_RX (R174). -/
def execLineUnitRx (x : Line) (mis : Option EngineMiss) (s : State) : Res := onDev (lineUnitRx x mis) s

/-- REASM_TIMEOUT (R177). -/
def execReasmTimeout (x : Line) (s : State) : Res := onDev (reasmTimeout x) s

/-- SLOT_LOAD (R188). -/
def execSlotLoad (m : Master) (k : Fin 256) (value : Word) (s : State) : Res := onDev (slotLoad m k value) s

/-- SLOT_CLEAR (R188). -/
def execSlotClear (m : Master) (k : Fin 256) (value : Word) (s : State) : Res := onDev (slotClear m k value) s

/-- SALT_WRITE (R188). -/
def execSaltWrite (m : Master) (p : Fin 64) (value : Word) (s : State) : Res := onDev (saltWrite m p value) s

/-- BOOT_KEY_WRITE (R192). -/
def execBootKeyWrite (m : Master) (x : Line) (j : Fin 8) (value : Word) (s : State) : Res := onDev (bootKeyWrite m x j value) s

/-- CTR_LIMIT_WRITE (R186). -/
def execCtrLimitWrite (m : Master) (hi : Bool) (value : Word) (s : State) : Res := onDev (ctrLimitWrite m hi value) s

/-- KEY_OWNER_CHANGE (R187). -/
def execKeyOwnerChange (m : Master) (p : Fin 56) (value : Word) (s : State) : Res := onDev (keyOwnerChange m p value) s

/-- CIP_OVERRUN (R195). -/
def execCipOverrun (x : Line) (s : State) : Res := onDev (cipOverrun x) s

/-- BMAP_APERTURE_WRITE (R199). -/
def execBmapApertureWrite (m : Master) (k : Fin 32768) (value : Word) (s : State) : Res := onDev (bmapApertureWrite m k value) s

end Sys2Proof.Machine
end

