-- ==== Sys2Proof/Machine/HostPort.lean ====
section
/-!
DEFINITION. Machine/HostPort.lean: what the entries of TX, RX and CMD rings do, Function Level Reset, the MSI-X tables, the USB4 link
and configuration requests (R315, R317, R320, R325 to R331, spec/18; R428, spec/24).
-/

namespace Sys2Proof.Machine

/-! ### Submission descriptors (R325): 32 bytes -/

def sdAddr (b : List Byte) : Nat := leNat (slice b 0 8)
def sdLen (b : List Byte) : Nat := leNat (slice b 8 2)
def sdFlags (b : List Byte) : Nat := leNat (slice b 10 2)
def sdLast (b : List Byte) : Bool := bitOf (sdFlags b) 0
def sdStamp (b : List Byte) : Bool := bitOf (sdFlags b) 1
def sdArgWord (b : List Byte) : Nat := leNat (slice b 12 4)
def sdEpWord (b : List Byte) : Nat := leNat (slice b 16 4)
def sdTag (b : List Byte) : Nat := leNat (slice b 24 8)

/-- Reserved bits of a TX descriptor are zero. -/
def txClean (b : List Byte) : Bool :=
  decide (sdFlags b < 4) && decide (sdArgWord b < 16384) && decide (sdEpWord b < 0x100000) && leNat (slice b 20 4) == 0

/-- Reserved bits of an RX descriptor are zero. -/
def rxClean (b : List Byte) : Bool := leNat (slice b 10 14) == 0

/-- Reserved bits of a CMD descriptor are zero. -/
def cmdClean (b : List Byte) : Bool := sdFlags b == 0 && decide (sdArgWord b < 16) && leNat (slice b 16 8) == 0

/-- An entry of n descriptors that ends with the one given begins and completes at once. (log 103: DEDUCED, unsafe) -/
def finishEntry (d : Dev) (r n : Nat) (tag status word1 word2 : Nat) (stamp : Option Nat) : Dev :=
  let i := ((ringHw d r).dev + n - 1) % 0x10000
  closeEntry (consume (openEntry d r i tag false) r n) r i (completion status r i word1 word2 stamp tag)

/-! ### TX (R326) -/

def epBase (d : Dev) (r : Nat) : Nat := fld d (HIF_Rr_EPRANGE_EP_BASE r)
def epSpan (d : Dev) (r : Nat) : Nat := 2 ^ fld d (HIF_Rr_EPRANGE_EP_LOG r)

/-- The queue a TX frame names. -/
def txQueue (d : Dev) (r : Nat) (first : List Byte) : Nat := fld d (HIF_Rr_RANGE_QBASE r) + sdArgWord first % 16384

/-- The endpoint a TX frame for the line names. -/
def txEndpoint (d : Dev) (r : Nat) (first : List Byte) : Nat := epBase d r + sdEpWord first % 0x100000

/-- The check that a TX frame fails first, after CHAIN. -/
def txCheck (d : Dev) (r : Nat) (ds : List (List Byte)) : Option Nat :=
  let first := ds.headD []
  let s := ds.foldl (fun n b => n + sdLen b) 0
  if !ds.all txClean then some csBadField
  else if ds.any (fun b => decide (sdLen b < 1) || decide (9212 < sdLen b)) || decide (s < 14) || decide (9212 < s) then some csBadLen
  else if fld d (HIF_Rr_RANGE_QCOUNT r) ≤ sdArgWord first then some csBadQueue
  else if 8192 ≤ txQueue d r first then
    (if epSpan d r ≤ sdEpWord first || decide (0xFFFFF < txEndpoint d r first) || !epValid (epEntry d (txEndpoint d r first)) then some csBadEp
     else none)
  else none

/-- A TX frame that passes is offered to admission with its FCS. (log 102: DEDUCED, unsafe) -/
def txSubmit (d : Dev) (r : Nat) (ds : List (List Byte)) (data : List Byte) : Dev :=
  let first := ds.headD []
  let last := ds.getLastD []
  let s := ds.foldl (fun n b => n + sdLen b) 0
  let i := ((ringHw d r).dev + ds.length - 1) % 0x10000
  let q := txQueue d r first
  let ep := epEntry d (txEndpoint d r first)
  let f : BufFrame :=
    { bytes := withFcs ((data ++ List.replicate (s - data.length) 0).take s), src := .host r, pri := 0, pool := 0,
      tag := if 8192 ≤ q then epUpTag ep else 0, page := if 8192 ≤ q then epPage ep else 0, time := TimeInfo.none, launch := none,
      tx := some (r, i), flags := 0, endpoint := 0xFFFFF }
  let d := consume (openEntry d r i (sdTag last) (sdStamp last)) r ds.length
  offer d { queue := q, frame := f, policer := none, entry := some (r, i) }

/-- TX_FRAME_SUBMIT: the next descriptors of TX ring r and the bytes they point to (R326). The frame ends with the first LAST; without
one in 16 descriptors it is rejected; with fewer it is not complete. -/
def txFrameSubmit (r : Fin 1024) (descs : List (List Byte)) (data : List Byte) (d : Dev) : Dev :=
  let head := descs.take 16
  let ds := head.takeWhile (fun b => !sdLast b) ++ (head.dropWhile (fun b => !sdLast b)).take 1
  let ends := ds.any sdLast
  if !(ends || ds.length == 16) || !mayBegin d r kindTx ds.length then d
  else
    let bad := if ends then txCheck d r ds else some csChain
    match bad with
    | some st => raiseOwner (count (finishEntry d r ds.length (sdTag (ds.getLastD [])) st (127 * 65536) 0 none) HIF_DESC_BAD) r evDescBad
    | none => txSubmit d r ds data

/-! ### RX (R327) -/

/-- The status of an RX descriptor that lends nothing. -/
def rxBad (b : List Byte) : Option Nat :=
  if !rxClean b then some csBadField else if sdLen b < 256 ∨ 16384 < sdLen b then some csBadLen else none

/-- How many descriptors a frame of n bytes needs; none where they do not hold it. -/
def rxNeeds : Nat → List (List Byte) → Option Nat
  | _, [] => none
  | n, b :: t =>
    if (rxBad b).isSome then (rxNeeds n t).map (· + 1)
    else if n ≤ sdLen b then some 1
    else (rxNeeds (n - sdLen b) t).map (· + 1)

/-- The source field of a completion (R329). -/
def sourceCode (s : Source) : Nat :=
  match s with
  | .lane p => p
  | .line x => 64 + x.ix
  | .host _ => 127
  | .own p => p

/-- The frame's bytes are written into the buffers, one completion each. -/
def rxWrite (r : Nat) (f : BufFrame) : Dev → List Byte → List (List Byte) → Dev
  | d, _, [] => d
  | d, body, b :: t =>
    match rxBad b with
    | some st => rxWrite r f (finishEntry d r 1 (sdTag b) st 0 0 none) body t
    | none =>
      let part := body.take (sdLen b)
      let more := decide (sdLen b < body.length)
      let d := emit d (.hostWrite (ringOwner d r) (sdAddr b) part)
      let word1 := boolBit more * 2 ^ 30 + f.flags % 16 * 2 ^ 24 + sourceCode f.src * 65536 + part.length
      let word2 := f.flags / 16 % 8 * 2 ^ 29 + f.endpoint
      let stamp := if f.time.op = 3 then f.time.stamp else none
      rxWrite r f (finishEntry d r 1 (sdTag b) csOk word1 word2 stamp) (body.drop (sdLen b)) t

/-- RX_DELIVER: the oldest frame that waits for RX ring r, and the buffers the ring lends (R327). A frame for a ring that no longer
runs is dropped. (log 104: DEDUCED, unsafe) -/
def rxDeliver (r : Fin 1024) (descs : List (List Byte)) (d : Dev) : Dev :=
  match queueOf d (16384 + r) with
  | [] => d
  | f :: _ =>
    if !ringTakes d (16384 + r) then takeFrom (count d HIF_RX_NO_RING) (16384 + r) f
    else
      let body := f.bytes.take (f.bytes.length - 4)
      match rxNeeds body.length descs with
      | none => d
      | some n =>
        if mayBegin d r kindRx n && cqTakes d (ringCq d r) n then rxWrite r f (takeFrom d (16384 + r) f) body (descs.take n) else d

/-! ### CMD (R328) -/

/-- A command of a function other than 0 that lies outside its rights. -/
def cmdForbidden (d : Dev) (r opcode : Nat) (body : List Byte) : Bool :=
  ringOwner d r != 0 && (opcode == 6
    || !(decide (epBase d r ≤ feEndpoint body) && decide (feEndpoint body < epBase d r + epSpan d r)))

/-- CMD_DESCRIPTOR: the next descriptor of CMD ring r and the 64-byte body it points to (R328). -/
def cmdDescriptor (r : Fin 1024) (desc body : List Byte) (d : Dev) : Dev :=
  if !mayBegin d r kindCmd 1 then d
  else
    let opcode := sdArgWord desc % 16
    if !cmdClean desc || sdAddr desc % 64 != 0 then finishEntry d r 1 (sdTag desc) csBadField 0 0 none
    else if cmdForbidden d r opcode body then finishEntry d r 1 (sdTag desc) csRights 0 0 none
    else if 64 ≤ d.pkt.cmds.length then d
    else
      let i := (ringHw d r).dev % 0x10000
      postCmd (consume (openEntry d r i (sdTag desc) false) r 1)
        { opcode := opcode, tag := sdTag desc % 65536, body := (body ++ List.replicate (64 - body.length) 0).take 64, entry := some (r.val, i) }

/-! ### Function Level Reset (R320) -/

/-- The MSI-X table of a function returns to its reset state. -/
def resetMsix (d : Dev) (f : Nat) : Dev :=
  { d with msixTable := d.msixTable.filter (fun e => e.1 / 256 != f)
           msixPending := d.msixPending.filter (fun k => k / 64 != f)
           msixFnMask := delNat f d.msixFnMask }

/-- What R320 does to function f. (log 108: DEDUCED, unsafe) -/
def resetFunction (d : Dev) (f : Nat) : Dev :=
  let d := forEach ((List.range 1024).filter (fun r => ringOwner d r == f)) (fun d r => disableRing (zeroRing d r) r) d
  let d := forEach (d.commits.filter (fun c => posterMaster c.poster == f)) (fun d c => finishCommit d c outCancelled 15) d
  let d := forEach ((List.range 56).filter (fun p => fld d (HIF_KPp_OWN_OWNER p) == f)) (fun d p => clearPage d (p + 8)) d
  resetMsix (releaseMaster d f) f

/-- FLR: a Function Level Reset of a function 1 to 31. -/
def flr (f : Fin 31) (d : Dev) : Dev := if hostReaches d then resetFunction d (f + 1) else d

/-! ### MSI-X tables (R317) -/

/-- A stored word of an MSI-X entry: address bits 1:0 read 0, and the control word holds its mask bit alone. -/
def msixStored (w : Nat) (v : Word) : Word := if w = 0 then v &&& 0xFFFFFFFC else if w = 3 then v &&& 1 else v

/-- MSIX_TABLE_WRITE: a write to the table of function f, or to its function mask; a message that waits and is no longer masked goes
out. (log 110: DEDUCED, unsafe) -/
def msixTableWrite (f : Fin 32) (t : MsixTarget) (value : Word) (d : Dev) : Dev :=
  if !hostReaches d then d
  else
    let d := match t with
      | .word v w => { d with msixTable := sput (if w = 3 then 1 else 0) d.msixTable (f * 256 + v * 4 + w) (msixStored w value) }
      | .function => { d with msixFnMask := if value.getLsbD 0 then insSorted f d.msixFnMask else delNat f d.msixFnMask }
    flushVectors d

/-! ### The link and configuration requests (R315, R428) -/

/-- USB4_LINK_CHANGE: the link trains, and the PCIe tunnel comes up, or it is lost; losing it resets nothing (R425, R428). -/
def usb4LinkChange (l : Usb4Link) (d : Dev) : Dev :=
  if !domainOn d 47 then d
  else match l with
    | .gen4 => setFlag (setFld d HIF_LINK_STATUS_GEN 4) HIF_LINK_STATUS_TUNNEL_UP true
    | .gen3 => setFlag (setFld d HIF_LINK_STATUS_GEN 3) HIF_LINK_STATUS_TUNNEL_UP true
    | .lost => setFlag (setFld d HIF_LINK_STATUS_GEN 0) HIF_LINK_STATUS_TUNNEL_UP false

/-- CONFIGURATION_REQUEST: a configuration request for function f; before release it is answered with Configuration Request Retry
Status, after it a request to function 0 may enable virtual functions (R316, R337, R428). -/
def configurationRequest (f : Fin 32) (vfs : Option (Fin 32)) (d : Dev) : Dev :=
  if !domainOn d 47 then d
  else if !flag d RST_STATUS_RELEASED then emit d (.config f true)
  else
    let d := match vfs with
      | some n => if f = 0 then setFld d HIF_LINK_STATUS_NUM_VFS n else d
      | none => d
    emit d (.config f false)

end Sys2Proof.Machine
end

