-- ==== Sys2Proof/Machine/DmaState.lean ====
section
/-!
DEFINITION. Machine/DmaState.lean: the states of the DMA channels, the end of a halt, a change of owner, and the start and stop of boot
channels (R338, R349 to R353, R356, R357, spec/19). Hops and moves are in Machine/MainDma.lean and Machine/BootDma.lean.
-/

namespace Sys2Proof.Machine

/-! ### Main channels -/

def chanOwner (d : Dev) (c : Nat) : Nat := fld d (HIF_DMACc_OWN_OWNER c)
def chanMaster (c : Nat) : Master := 0x20 + c
def chanRun (d : Dev) (c : Nat) : Option ChanRun := assocGet d.host.chans c

def putRun (d : Dev) (c : Nat) (r : ChanRun) : Dev :=
  { d with host := { d.host with chans := assocSet d.host.chans c r } }

def endRun (d : Dev) (c : Nat) : Dev :=
  { d with host := { d.host with chans := d.host.chans.filter (fun e => e.1 != c) } }

def dmaHalted (d : Dev) : Bool := flag d DMA_STATUS_HALTED

/-- STATE of a main channel (R350, R356): 0 IDLE, 1 BUSY, 2 HALTED, 3 FROZEN. -/
def chanState (d : Dev) (c : Nat) : Nat :=
  if isFrozen d (chanMaster c) then 3 else if dmaHalted d then 2 else if (chanRun d c).isSome then 1 else 0

/-- Channels that are BUSY. -/
def busyChannels (d : Dev) : Nat := ((List.range 64).filter (fun c => chanState d c == 1)).length

/-- The entry in progress of a channel is given up without a completion (R34, R351). -/
def abandonRun (d : Dev) (c : Nat) : Dev :=
  match chanRun d c with
  | none => d
  | some r => endRun (settle (setRing d r.ring (fun h => { h with entries := h.entries.filter (fun e => e.index != r.index) })) r.ring) c

def raiseDma (d : Dev) (b : Nat) : Dev := raiseEvt d evDMA b
def dmHalt : Nat := 0
def dmBadDesc : Nat := 1
def dmOverlap : Nat := 2

/-- DMA_RESUME: a write of DMA_CTL; RESUME by function 0 ends a halt (R350). -/
def dmaResume (m : Master) (value : Word) (d : Dev) : Dev :=
  guarded d m DMA_CTL.ofs (fun d =>
    if value.getLsbD 0 && m == 0 then setFlag d DMA_STATUS_HALTED false else d)

/-- DMA_OWNER_CHANGE: a write of HIF_DMACc_OWN stops the channel, whose freeze is released (R351). -/
def dmaOwnerChange (m : Master) (c : Fin 64) (value : Word) (d : Dev) : Dev :=
  guarded d m (HIF_DMACc_OWN c).ofs (fun d =>
    let was := chanOwner d c
    let d := releaseMaster (abandonRun d c) (chanMaster c)
    let d := storeAt d m (HIF_DMACc_OWN c).ofs value
    if chanOwner d c = was then d else count d DMA_OWNER_ABANDON)

/-! ### Boot channels -/

def bootMaster (c : Nat) : Master := 0x60 + c
def bootRun (d : Dev) (c : Nat) : Option BootRun := assocGet d.host.boot c

def putBoot (d : Dev) (c : Nat) (r : BootRun) : Dev :=
  { d with host := { d.host with boot := assocSet d.host.boot c r } }

def dropBoot (d : Dev) (c : Nat) : Dev :=
  { d with host := { d.host with boot := d.host.boot.filter (fun e => e.1 != c) } }

/-- STATE of a boot channel (R357): 0 IDLE, 1 BUSY, 2 FROZEN. -/
def bootState (d : Dev) (c : Nat) : Nat :=
  if isFrozen d (bootMaster c) then 2 else if (bootRun d c).isSome then 1 else 0

def brOk : Nat := 1
def brMisaligned : Nat := 2
def brBadField : Nat := 3
def brBadLen : Nat := 4
def brOverlap : Nat := 5
def brBusErr : Nat := 6
def brAborted : Nat := 7

/-- A chain ends with a RESULT and raises DONE (R355). -/
def endBoot (d : Dev) (c result : Nat) : Dev :=
  raiseEvt (setFld (dropBoot d c) (BDM_CHc_STATUS_RESULT c) result) evBDM c

/-- The first descriptor's space and address as BDM_CHc_DESC holds them. -/
def bootStart (d : Dev) (c : Nat) : BootRun :=
  { space := fld d (BDM_CHc_DESC_HI_SPACE c), addr := fld d (BDM_CHc_DESC_LO_ADDR c) * 32 }

/-- A write of BDM_CHc_CTL (R353): GO starts an idle channel, and ABORT stops a busy one. -/
def bdmCtlWrite (m : Master) (c : Nat) (value : Word) (d : Dev) : Dev :=
  guarded d m (BDM_CHc_CTL c).ofs (fun d =>
    let d := if value.getLsbD 31 && bootState d c == 0 then
        putBoot (setFld (setFld d (BDM_CHc_STATUS_RESULT c) 0) (BDM_CHc_STATUS_HOPS c) 0) c (bootStart d c)
      else d
    if value.getLsbD 30 && bootState d c == 1 then endBoot d c brAborted else d)

/-- BDM_GO: the word is written with GO. -/
def bdmGo (m : Master) (c : Fin 4) (value : Word) (d : Dev) : Dev := bdmCtlWrite m c (value ||| 0x80000000) d

/-- BDM_ABORT: the word is written with ABORT. -/
def bdmAbort (m : Master) (c : Fin 4) (value : Word) (d : Dev) : Dev := bdmCtlWrite m c (value ||| 0x40000000) d

end Sys2Proof.Machine
end

