-- ==== Sys2Proof/Machine/Course.lean ====
section
/-!
DEFINITION. Machine/Course.lean: the Course links, the relay of an image and its store in flash, and the owner lock (R389 to
R399, R403, R404, spec/22). The rescue channel is in Machine/Bus.lean, for it writes registers.
-/

namespace Sys2Proof.Machine

def raiseCrs (d : Dev) (b : Nat) : Dev := raiseEvt d evCRS b
def crLinkChange : Nat := 0
def crRelayAbort : Nat := 1
def crRescue : Nat := 2

/-! ### Slots (R397, R398) -/

def slotBytes : Nat := 0x3000000
def slotBase (s : Nat) : Nat := s * slotBytes
def sealBase (s : Nat) : Nat := slotBase s + slotBytes - 4096
def sealMagic : Nat := 0x5345414C

/-- What a slot's seal says. -/
structure Seal where
  image : Nat
  len : Nat
  crc : Nat
  gen : Nat
  activated : Bool
  rejected : Bool
deriving DecidableEq, Repr

/-- The seal of a slot, none where it is unmarked. -/
def sealOf (s : Mem) (slot : Nat) : Option Seal :=
  let b := readFlash s (sealBase slot) 22
  if beNat (slice b 0 4) = sealMagic then
    some { image := beNat (slice b 4 4), len := beNat (slice b 8 4), crc := beNat (slice b 12 4), gen := beNat (slice b 16 4),
           activated := byteAt b 20 == 0, rejected := byteAt b 21 != 0xFF }
  else none

def slotState (d : Dev) (slot : Nat) : Nat := fld d ⟨FWU_SLOTs_INFOk slot 0, 31, 29⟩

/-- The registers of a slot as its seal and header stand (R409). -/
def showSlot (d : Dev) (s : Mem) (slot : Nat) : Dev :=
  match sealOf s slot with
  | none => setFld d ⟨FWU_SLOTs_INFOk slot 0, 31, 29⟩ slUnmarked
  | some q =>
    let hdr := readFlash s (slotBase slot) 20
    let st := if q.rejected then slRejected else if q.activated then slActivated else slSealed
    let d := wrn d (FWU_SLOTs_INFOk slot 0) (st * 0x20000000 + byteAt hdr 16 % 128)
    let d := wrn (wrn d (FWU_SLOTs_INFOk slot 1) q.gen) (FWU_SLOTs_INFOk slot 2) q.image
    wrn d (FWU_SLOTs_INFOk slot 3) (beNat (slice hdr 12 4))

/-- The next seal's GEN (R398). -/
def nextGen (s : Mem) (slot : Nat) : Nat := match sealOf s (1 - slot) with
  | some q => q.gen + 1
  | none => 1

/-- The seal is written: bytes 4 to 21 first and the magic last (R398, R432). -/
def writeSeal (s : Mem) (slot image len crc : Nat) : Mem :=
  writeFlash s (sealBase slot)
    (beBytes 4 sealMagic ++ beBytes 4 image ++ beBytes 4 len ++ beBytes 4 crc ++ beBytes 4 (nextGen s slot) ++ [0xFF, 0xFF])

/-! ### Links and PDUs (R389 to R391) -/

def linkUp (d : Dev) (k : Nat) : Bool := flag d (CRS_LINKk_STATUS_UP k)

/-- A PDU from its type and body is sent on link k, if it is up. -/
def sendPdu (d : Dev) (k type : Nat) (body : List Byte) : Dev :=
  if linkUp d k then emit d (.course k ([0x10, BitVec.ofNat 8 type] ++ beBytes 2 body.length ++ beBytes 8 (serialNumber d) ++ body))
  else d

def courseMaster (k : Nat) : Master := 0x6A + k

/-- A PDU has been received on link k: the peer's serial number is shown (R410). -/
def heard (d : Dev) (k : Nat) (sender : BitVec 64) : Dev :=
  wrn (wrn d (CRS_LINKk_PEER_LO k) sender.toNat) (CRS_LINKk_PEER_HI k) (sender.toNat / 0x100000000)

/-- Body bytes that a type requires, none for a type that is not listed (R391). -/
def bodyLen (type : Nat) : Option Nat :=
  if type = 0x01 then some 12 else if type = 0x02 then some 1034 else if type = 0x03 then some 8
  else if type = 0x04 then some 7 else if type = 0x10 then some 2 else if type = 0x11 then some 22
  else if type = 0x20 ∨ type = 0x21 then some 20 else none

/-- The PDU breaks R390. -/
def pduBad (pdu : List Byte) : Bool :=
  byteAt pdu 0 / 16 != 1 || bodyLen (byteAt pdu 1) != some (beNat (slice pdu 2 2))

/-- COURSE_PDU_BAD (R390). -/
def coursePduBad (k : Fin 2) (pdu : List Byte) (d : Dev) : Dev :=
  if isFrozen d (courseMaster k) then d
  else if pduBad pdu then count (heard d k (BitVec.ofNat 64 (beNat (slice pdu 4 8)))) CRS_PDU_BAD else d

/-- OTHER_COURSE_FRAME (R389). -/
def otherCourseFrame (_k : Fin 2) (d : Dev) : Dev := count d CRS_RX_OTHER

/-- Whether the link is enabled, and may carry a relay out (R410). -/
def linkEnabled (d : Dev) (k : Nat) : Bool := flag d (if k = 0 then CRS_CFG_EN_E else CRS_CFG_EN_W)
def relayOut (d : Dev) (k : Nat) : Bool := flag d (if k = 0 then CRS_CFG_RELAY_E else CRS_CFG_RELAY_W)

/-- COURSE_LINK_CHANGE (R389): a link comes up only while it is enabled and the Course domain is on. (log 163: DEDUCED, unsafe) -/
def courseLinkChange (k : Fin 2) (up : Bool) (d : Dev) : Dev :=
  let v := up && linkEnabled d k && domainOn d 27
  if linkUp d k = v then d
  else raiseCrs (setFlag (setFlag d (CRS_LINKk_STATUS_UP k) v) (CRS_LINKk_STATUS_AN_DONE k) v) crLinkChange

def tyStart : Nat := 1
def tyBlock : Nat := 2
def tyEnd : Nat := 3
def tyAck : Nat := 4

def ackAck : Nat := 0
def ackNak : Nat := 1
def ackBusy : Nat := 2
def ackAbort : Nat := 3

def sendAck (d : Dev) (k image next code : Nat) : Dev := sendPdu d k tyAck (beBytes 4 image ++ beBytes 2 next ++ beBytes 1 code)

/-! ### The owner lock (R403, R404) -/

/-- The relay's bits and NEXT as the links show them (R410). -/
def showRelay (d : Dev) : Dev :=
  forEach [0, 1] (fun d k =>
    let (i, o, n) := match d.fwu.relay with
      | some r => (decide (r.src = some k), decide (r.dst = some k), if r.src = some k then r.next else if r.dst = some k then r.acked else 0)
      | none => (false, false, 0)
    setFld (setFlag (setFlag d (CRS_LINKk_STATUS_RELAY_IN k) i) (CRS_LINKk_STATUS_RELAY_OUT k) o) (CRS_LINKk_STATUS_NEXT k) n) d

/-- OWNER_LOCK (R403). -/
def ownerLock (x : Line) (h : LmmHead) (flags : BitVec 8) (d : Dev) : Dev :=
  takeLmm d x h 12 (notAddressed h || flags &&& 0xFE != 0) (some (.ownerLock x h flags)) (fun d => d)
    (fun d => some (setHeLock d x (flags.getLsbD 0)))

/-- A write of FWU_CFG: HOST_LOCK by function 0 alone (R403). -/
def hostLockWrite (m : Master) (value : Word) (d : Dev) : Dev :=
  guarded d m FWU_CFG.ofs (fun d =>
    let was := hostLock d
    let v := if m = 0 then value else putBits value 31 31 (boolBit was)
    let d := storeAt d m FWU_CFG.ofs v
    if hostLock d = was then d else lockChanged d)

/-! ### The relay (R392 to R395) -/

def blockSize : Nat := 1024
def maxImage : Nat := 50327552

/-- An image length and a count of blocks that keep R392. -/
def lenGood (len blocks : Nat) : Bool :=
  decide (1024 ≤ len) && decide (len ≤ maxImage) && blocks == ceilDiv len blockSize

/-- Block i of the image as the sender sends it: held from upstream, or read from DRAM and filled with zeros. -/
def blockData (d : Dev) (s : Mem) (r : Relay) (i : Nat) : List Byte :=
  match r.src with
  | some _ => (assocGet r.held i).getD []
  | none =>
    let n := min blockSize (r.len - i * blockSize)
    readDram s (fld d FWU_ORIG_ADDR_ADDR * 4096 + i * blockSize) n ++ List.replicate (blockSize - n) 0

/-- Blocks that can be sent: those accepted, or the whole image where it lies in DRAM. -/
def available (r : Relay) : Nat := if r.src.isNone then r.blocks else r.next

def relayCrc (image block : Nat) (data : List Byte) : List Byte :=
  let body := beBytes 2 block ++ data
  beBytes 4 image ++ body ++ beBytes 4 (crc32Fsb body)

/-- The sender sends what its window of 256 blocks admits (R394). The fuel is the number of blocks. -/
def pump (s : Mem) : Nat → Dev → Relay → Dev × Relay
  | 0, d, r => (d, r)
  | n + 1, d, r =>
    match r.dst with
    | none => (d, r)
    | some k =>
      if r.sent < available r ∧ r.sent < r.acked + 256 then
        pump s n (sendPdu d k tyBlock (relayCrc r.image r.sent (blockData d s r r.sent))) { r with sent := r.sent + 1 }
      else (d, r)

/-- Blocks no longer needed: programmed where the image is stored, acknowledged where it is forwarded (R394). -/
def freedTo (r : Relay) : Nat :=
  min (if r.store then r.programmed else r.next) (if r.dst.isSome then r.acked else r.next)

/-- The CRC over the image bytes of a relay: those accepted, or those in DRAM. -/
def imageCrc (d : Dev) (s : Mem) (r : Relay) : Nat :=
  match r.src with
  | some _ => r.crc ^^^ 0xFFFFFFFF
  | none => crc32Fsb (readDram s (fld d FWU_ORIG_ADDR_ADDR * 4096) r.len)

/-- The store ends with its judgement (R395). -/
def judgeStore (d : Dev) (s : Mem) (r : Relay) : Dev × Mem :=
  let crc := imageCrc d s r
  let slot := inactiveSlot d
  let d := setFlag d FWU_STATUS_STORING false
  if r.good ∧ r.ended.getD crc = crc then
    let s := writeSeal s slot r.image r.len crc
    (raiseFwu (showSlot d s slot) fwStored, s)
  else
    let d := setFld d ⟨FWU_SLOTs_INFOk slot 0, 31, 29⟩ slUnmarked
    (raiseFwu (count d FWU_STORE_FAIL) fwStoreFail, s)

/-- The relay goes on (R394, R395): blocks are sent, freed and, once RELAY_END is known, the store is judged and RELAY_END
forwarded; a relay with nothing left to do ends. -/
def relayGo (d : Dev) (s : Mem) : Dev × Mem :=
  match d.fwu.relay with
  | none => (showRelay d, s)
  | some r0 =>
    let (d, r) := pump s 256 d r0
    let r := { r with held := r.held.filter (fun e => decide (freedTo r ≤ e.1)) }
    let ended := r.ended.isSome || r.src.isNone
    let (d, s, r) := if r.store && ended && r.programmed == r.blocks then
        let (d, s) := judgeStore d s r
        (d, s, { r with store := false })
      else (d, s, r)
    if !r.store && ended then
      match r.dst with
      | none => (showRelay (setRelay d none), s)
      | some k =>
        if r.acked = r.blocks then
          let crc := r.ended.getD (imageCrc d s r)
          (showRelay (setRelay (sendPdu d k tyEnd (beBytes 4 r.image ++ beBytes 4 crc)) none), s)
        else (showRelay (setRelay d (some r)), s)
    else (showRelay (setRelay d (some r)), s)

/-- A relay begins: a store erases the inactive slot (R393, R432), and RELAY_START is sent on with its STORE bit.
(log 157: DEDUCED, unsafe) -/
def beginRelay (d : Dev) (s : Mem) (image len blocks : Nat) (src dst : Option Nat) (hops : Nat) (storeBit store : Bool) : Dev × Mem :=
  let slot := inactiveSlot d
  let r : Relay := {
    image := image, len := len, blocks := blocks, src := src, dst := dst, hops := hops, store := store,
    next := if src.isNone then blocks else 0, acceptedAt := d.elapsed, sinceAck := 0, crc := 0xFFFFFFFF, programmed := 0,
    good := true, sent := 0, acked := 0, advancedAt := d.elapsed, resends := 0, nakAt := none, heardAt := d.elapsed, held := [],
    ended := none }
  let d := if store then
      let d := setFlag (setFlag d FWU_STATUS_STORING true) FWU_STATUS_PRELOADED false
      setFld d ⟨FWU_SLOTs_INFOk slot 0, 31, 29⟩ slWriting
    else d
  let s := if store then eraseFlash s (slotBase slot) (slotBase slot + slotBytes) else s
  let d := match dst with
    | some k => sendPdu d k tyStart (beBytes 4 image ++ beBytes 4 len ++ beBytes 2 blocks ++ beBytes 1 hops ++ beBytes 1 (boolBit storeBit))
    | none => d
  relayGo (setRelay d (some r)) s

/-- The link a RELAY_START goes out on, if R393 lets it. -/
def forwardLink (d : Dev) (k hops : Nat) : Option Nat := if 0 < hops ∧ linkUp d k ∧ relayOut d k then some k else none

/-- RELAY_START (R392, R393, R396). -/
def relayStart (k : Fin 2) (sender : BitVec 64) (image len : Word) (blocks : BitVec 16) (hops : BitVec 8) (store : Bool)
    (d : Dev) (s : Mem) : Dev × Mem :=
  if isFrozen d (courseMaster k) || !linkUp d k then (d, s)
  else
    let d := heard d k sender
    if !lenGood len.toNat blocks.toNat then (sendAck (count d CRS_PDU_BAD) k image.toNat 0 ackAbort, s)
    else if d.fwu.relay.isSome then (sendAck d k image.toNat 0 ackBusy, s)
    else
      let h := hops.toNat - 1
      let st := store && flag d CRS_CFG_STORE && !storeBarred d
      beginRelay d s image.toNat len.toNat blocks.toNat (some k) (forwardLink d (1 - k) h) h store st

/-- The relay takes NEXT from upstream. -/
def acceptBlock (d : Dev) (s : Mem) (r : Relay) (k : Nat) (data : List Byte) : Dev × Mem :=
  let n := min blockSize (r.len - r.next * blockSize)
  let r := { r with
    held := r.held ++ [(r.next, data)], crc := crcOver 32 0x04C11DB7 r.crc (bytesBits (data.take n)), next := r.next + 1,
    acceptedAt := d.elapsed, heardAt := d.elapsed, sinceAck := r.sinceAck + 1 }
  let (d, r) := if r.sinceAck = 32 then (sendAck d k r.image r.next ackAck, { r with sinceAck := 0 }) else (d, r)
  relayGo (setRelay d (some r)) s

/-- A block that is not taken: NAK NEXT at most once per ms (R394). -/
def nakBlock (d : Dev) (r : Relay) (k : Nat) : Dev :=
  let due := match r.nakAt with
    | some t => decide (t + ticksPerMs ≤ d.elapsed)
    | none => true
  let r := { r with heardAt := d.elapsed }
  if due then sendAck (setRelay d (some { r with nakAt := some d.elapsed })) k r.image r.next ackNak else setRelay d (some r)

/-- RELAY_BLOCK (R394); of a frozen peer, only blocks of the relay in progress are taken (R390). (log 162: DEDUCED, unsafe) -/
def relayBlock (k : Fin 2) (sender : BitVec 64) (image : Word) (block : BitVec 16) (data : List Byte) (crc : Word) (d : Dev) (s : Mem) :
    Dev × Mem :=
  match d.fwu.relay with
  | none => if isFrozen d (courseMaster k) then (d, s) else (heard d k sender, s)
  | some r =>
    if r.src ≠ some k.val then (if isFrozen d (courseMaster k) then d else heard d k sender, s)
    else
      let d := heard d k sender
      let good := crc32Fsb (beBytes 2 block.toNat ++ data) == crc.toNat
      let d := if good then d else count d CRS_BLK_BAD
      if good && image.toNat == r.image && block.toNat == r.next && decide (r.next < r.blocks) && decide (r.next < freedTo r + 256) then
        acceptBlock d s r k data
      else (nakBlock d r k, s)

/-- RELAY_END (R395). -/
def relayEnd (k : Fin 2) (sender : BitVec 64) (image crc : Word) (d : Dev) (s : Mem) : Dev × Mem :=
  if isFrozen d (courseMaster k) then (d, s)
  else
    let d := heard d k sender
    match d.fwu.relay with
    | none => (d, s)
    | some r =>
      if r.src = some k.val ∧ r.image = image.toNat ∧ r.next = r.blocks then
        relayGo (setRelay d (some { r with ended := some crc.toNat, heardAt := d.elapsed })) s
      else (d, s)

/-- The relay ends on the downstream hop; the device goes on as the end of the chain (R394). -/
def dropDownstream (d : Dev) (s : Mem) (r : Relay) : Dev × Mem :=
  let d := raiseCrs (count d CRS_RELAY_ABORT) crRelayAbort
  relayGo (setRelay d (some { r with dst := none })) s

/-- The upstream hop aborts or falls silent: the store ends unsealed, and ABORT goes downstream (R394). (log 155: DEDUCED, unsafe) -/
def dropUpstream (d : Dev) (r : Relay) : Dev :=
  let d := raiseCrs (count (endStore d) CRS_RELAY_ABORT) crRelayAbort
  let d := match r.dst with
    | some k => sendAck d k r.image r.acked ackAbort
    | none => d
  showRelay (setRelay d none)

/-- RELAY_ACK (R394). (log 156: DEDUCED, unsafe) -/
def relayAck (k : Fin 2) (sender : BitVec 64) (image : Word) (next : BitVec 16) (code : BitVec 8) (d : Dev) (s : Mem) : Dev × Mem :=
  if isFrozen d (courseMaster k) then (d, s)
  else
    let d := heard d k sender
    match d.fwu.relay with
    | none => (d, s)
    | some r =>
      if r.image ≠ image.toNat then (d, s)
      else if r.src = some k.val then (if code.toNat = ackAbort then dropUpstream d r else d, s)
      else if r.dst ≠ some k.val then (d, s)
      else
        let n := min next.toNat r.sent
        let r := if r.acked < n then { r with acked := n, advancedAt := d.elapsed, resends := 0 } else r
        if code.toNat = ackAbort then dropDownstream d s r
        else if code.toNat = ackNak then relayGo (setRelay d (some { r with sent := r.acked })) s
        else relayGo (setRelay d (some r)) s

/-- RELAY_ACK_TIMER (R394). -/
def relayAckTimer (d : Dev) : Dev :=
  match d.fwu.relay with
  | some r =>
    match r.src with
    | some k =>
      if r.sinceAck ≠ 0 ∧ r.acceptedAt + ticksPerMs ≤ d.elapsed then
        setRelay (sendAck d k r.image r.next ackAck) (some { r with sinceAck := 0 })
      else d
    | none => d
  | none => d

/-- RELAY_RESEND (R394): after five resends without progress the sender sends ABORT. -/
def relayResend (d : Dev) (s : Mem) : Dev × Mem :=
  match d.fwu.relay with
  | some r =>
    match r.dst with
    | some k =>
      if r.advancedAt + ticksPerSec ≤ d.elapsed ∧ r.acked < r.blocks then
        if 5 ≤ r.resends then dropDownstream (sendAck d k r.image r.acked ackAbort) s r
        else relayGo (setRelay d (some { r with sent := r.acked, resends := r.resends + 1, advancedAt := d.elapsed })) s
      else (d, s)
    | none => (d, s)
  | none => (d, s)

/-- RELAY_STALL (R394). -/
def relayStall (d : Dev) : Dev :=
  match d.fwu.relay with
  | some r => if r.src.isSome && r.ended.isNone && decide (r.heardAt + 5 * ticksPerSec ≤ d.elapsed) then dropUpstream d r else d
  | none => d

/-- n free bytes. -/
def freeBytes (d : Dev) (n : Nat) : List Byte := (List.range n).map (fun i => BitVec.ofNat 8 (Config.freeValue (d.freeCount + i)))

/-- BLOCK_PROGRAMMED (R394): the next block of the store is programmed; one that does not read back correctly leaves bytes that
the spec does not state. (log 159: DEDUCED, safe) -/
def blockProgrammed (ok : Bool) (d : Dev) (s : Mem) : Dev × Mem :=
  match d.fwu.relay with
  | some r =>
    if r.store ∧ r.programmed < r.next then
      let i := r.programmed
      let n := min blockSize (r.len - i * blockSize)
      let data := if ok then (blockData d s r i).take n else freeBytes d n
      let d := if ok then d else { d with freeCount := d.freeCount + n }
      let s := writeFlash s (slotBase (inactiveSlot d) + i * blockSize) data
      relayGo (setRelay d (some { r with programmed := i + 1, good := r.good && ok })) s
    else (d, s)
  | none => (d, s)

/-- ORIG_GO (R393): function 0 originates a relay; its IMAGE_ID is a value the spec does not state. (log 158: DEDUCED, safe) -/
def startOrigin (d : Dev) (s : Mem) : Dev × Mem :=
  let len := rdn d FWU_ORIG_LEN
  let k := fld d FWU_CFG_ORIG_DIR
  if d.fwu.relay.isSome then (d, s)
  else
    let image := Config.freeValue d.freeCount % 0x100000000
    let d := { d with freeCount := d.freeCount + 1 }
    let hops := fld d CRS_CFG_HOPS
    beginRelay d s image len (ceilDiv len blockSize) none (forwardLink d k hops) hops true (flag d CRS_CFG_STORE && !storeBarred d)

end Sys2Proof.Machine
end

