-- ==== Sys2Proof/Machine/Firmware.lean ====
section
/-!
DEFINITION. Machine/Firmware.lean: images, activation, the rollback counter and the configuration records (R397 to R407,
spec/22). Applying the records writes registers and is in Machine/Boot.lean.
-/

namespace Sys2Proof.Machine

/-! ### Images (R398, R399) -/

/-- An image in the memory it lies in: n bytes from its byte k. -/
abbrev Image := Nat → Nat → List Byte

def recoveryBase : Nat := 0x7000000
def flashImage (s : Mem) (base : Nat) : Image := fun k n => readFlash s (base + k) n
def dramImage (s : Mem) (base : Nat) : Image := fun k n => readDram s (base + k) n

/-- The image that runs, in flash. -/
def runningImage (d : Dev) (s : Mem) : Image :=
  flashImage s (if flag d FWU_STATUS_RECOVERY then recoveryBase else slotBase (runningSlot d))

def imgRollback (i : Image) : Nat := min (beNat (i 16 1)) 64
def imgRecVersion (i : Image) : Nat := beNat (i 6 2)
def imgCoreLen (i : Image) : Nat := min (beNat (i 20 4)) 0x800000
def imgLen (i : Image) : Nat := min (beNat (i 24 4)) maxImage

/-- The checks of R401 in the order of its steps 2 and 3: the cause of the first that fails. -/
def imageFault (d : Dev) (i : Image) (rollback : Bool) : Option Nat :=
  if beNat (i 0 4) ≠ 0x4D4F524C ∨ beNat (i 4 2) ≠ 1 then some 5
  else if sha384 (i 76 97) ≠ d.fwu.keyDigest then some 1
  else if !signatureOk (i 76 97) (i 0 176) (i 176 96) then some 2
  else if rollback ∧ imgRollback i < fld d FWU_STATUS_ROLLBACK then some 3
  else if sha384 (i 1024 (imgLen i - 1024)) ≠ i 28 48 then some 4
  else none

/-- The core section is loaded into the local memories of the control cores (R398). -/
def loadCores (i : Image) (s : Mem) : Mem := writeCore s 0 (i 1024 (imgCoreLen i))

/-- Byte b of a slot's seal is written by clearing bits (R398). -/
def clearSealByte (s : Mem) (slot b v : Nat) : Mem :=
  writeFlash s (sealBase slot + b) [BitVec.ofNat 8 (byteAt (readFlash s (sealBase slot + b) 1) 0 &&& v)]

/-- The slot is marked REJECTED with a cause. -/
def rejectSlot (d : Dev) (s : Mem) (slot cause : Nat) : Dev × Mem :=
  let s := clearSealByte s slot 21 cause
  (showSlot d s slot, s)

/-! ### Preload (R400) -/

/-- The FWU area, and the copy of the running core section in it. -/
def fwuArea (d : Dev) : Nat := fld d FWU_DRAM_BASE_BASE * 0x4000000
/-- Log 153: PRESUMED, unsafe. -/
def fwuCoreCopy (d : Dev) : Nat := fwuArea d + 0x3000000

/-- PRELOAD: a write of FWU_CTL with PRELOAD starts the copy. (log 152: DEDUCED, unsafe) -/
def startPreload (d : Dev) : Dev :=
  if d.fwu.preloading.isSome || flag d FWU_STATUS_ACTIVATING then d
  else setFlag (setFwu d (fun h => { h with preloading := some (inactiveSlot d) })) FWU_STATUS_PRELOADED false

/-- PRELOAD_DONE (R400): the copy and its seal CRC, and the running image's core section. -/
def preloadDone (d : Dev) (s : Mem) : Dev × Mem :=
  match d.fwu.preloading with
  | none => (d, s)
  | some slot =>
    let d := setFwu d (fun h => { h with preloading := none })
    match sealOf s slot with
    | none => (d, s)
    | some q =>
      let img := readFlash s (slotBase slot) (min q.len maxImage)
      let run := runningImage d s
      let s := writeDram s (fwuArea d) img
      let s := writeDram s (fwuCoreCopy d) (run 1024 (imgCoreLen run))
      if crc32Fsb img = q.crc then (setFlag (setFwu d (fun h => { h with preSlot := slot })) FWU_STATUS_PRELOADED true, s) else (d, s)

/-! ### Activation (R401) -/

/-- The cause with which FWU refuses an activation of a slot; 0 where it does not. -/
def actRefusal (d : Dev) (slot : Nat) : Nat :=
  if flag d PWR_STATUS_PWR_ALT then 1
  else if ownerLocked d then 2
  else if flag d SDL_STATUS_SWITCHING || flag d KST_STATUS_SWITCHING then 3
  else if flag d FWU_STATUS_STORING || d.fwu.preloading.isSome || flag d FWU_STATUS_ACTIVATING then 4
  else if 2 ≤ fld d PWR_STATUS_STATE ∨ flag d PWR_STATUS_TRANS then 5
  else if !(flag d FWU_STATUS_PRELOADED && d.fwu.preSlot == slot) then 6
  else if slot = runningSlot d then 7 else 0

/-- A refused activation is recorded. (log 151: DEDUCED, unsafe) -/
def actRefused (d : Dev) (cause : Nat) : Dev :=
  raiseFwu (count (setFld (setFld d FWU_STATUS_REFUSE cause) FWU_STATUS_LAST_ACT 2) FWU_ACT_REFUSED) fwActFail

/-- Step 1: the cores halt. -/
def actStart (d : Dev) (slot : Nat) : Dev :=
  let d := setFlag { d with corePause := true } FWU_STATUS_ACTIVATING true
  setFwu d (fun h => { h with actSlot := slot, actLoaded := false, actFrom := d.elapsed })

/-- ACT_CORES_LOADED: the core sections of the copy are loaded and the cores start at its cold entry. -/
def actCoresLoaded (d : Dev) (s : Mem) : Dev × Mem :=
  if flag d FWU_STATUS_ACTIVATING && !d.fwu.actLoaded && (imageFault d (dramImage s (fwuArea d)) true).isNone then
    (setFwu d (fun h => { h with actLoaded := true }), loadCores (dramImage s (fwuArea d)) s)
  else (d, s)

/-! ### Messages that waited (R126) -/

/-- Firmware acts on a message that waited for it. -/
def runWaiting (i : Instr) (d : Dev) : Dev :=
  match i with
  | .assignId x h sn id => assignId x h sn id d
  | .deregister x h => deregister x h d
  | .sleepAck x h st le => sleepAck x h st le d
  | .keyWrap x h p k w => keyWrap x h p k w d
  | .keySwitch x h p k n => keySwitch x h p k n d
  | .keyClear x h p k => keyClear x h p k d
  | .ownerLock x h f => ownerLock x h f d
  | .release x h m => release x h m d
  | _ => d

/-! ### The rollback counter (R402) -/

/-- CONFIRM in FWU_CTL, by function 0. -/
def confirmImage (d : Dev) (s : Mem) (m : Master) : Dev :=
  if m = 0 ∧ !flag d PWR_STATUS_PWR_ALT ∧ !flag d FWU_STATUS_RECOVERY then
    let r := imgRollback (runningImage d s)
    if fld d FWU_STATUS_ROLLBACK < r then setFld d FWU_STATUS_ROLLBACK r else d
  else d

/-! ### Configuration records (R405 to R407) -/

def recBase : Nat := 0x6000000
def recSectors : Nat := 256
def sectorBytes : Nat := 0x10000

/-- A record of the region: where it lies, what it is of, its version and number, its bytes, and whether its CRC passes. -/
structure Record where
  pos : Nat
  kind : Nat
  inst : Nat
  version : Nat
  seq : Nat
  bytes : List Byte
  ok : Bool
deriving DecidableEq, Repr

/-- The record at a flash address, if one begins there. -/
def recordAt (s : Mem) (a : Nat) : Option Record :=
  let h := readFlash s a 16
  let n := beNat (slice h 6 2)
  if byteAt h 0 = 0xC5 ∧ 8 ≤ n ∧ n ≤ 4064 ∧ n % 8 = 0 then
    let body := readFlash s (a + 16) n
    some { pos := a, kind := beNat (slice h 2 2), inst := byteAt h 1, version := beNat (slice h 4 2), seq := beNat (slice h 8 4),
           bytes := h ++ body, ok := crc32Fsb (h.take 12 ++ body) == beNat (slice h 12 4) }
  else none

/-- The records of a sector from address a on; the fuel bounds their number. -/
def recordsFrom (s : Mem) (stop : Nat) : Nat → Nat → List Record
  | 0, _ => []
  | n + 1, a =>
    if stop < a + 24 then []
    else match recordAt s a with
      | some r => r :: recordsFrom s stop n (a + r.bytes.length)
      | none => []

def sectorAt (k : Nat) : Nat := recBase + k * sectorBytes

def sectorRecords (s : Mem) (k : Nat) : List Record := recordsFrom s (sectorAt (k + 1)) 2730 (sectorAt k)

def allRecords (s : Mem) : List Record := ((List.range recSectors).map (sectorRecords s)).flatten

/-- The newest of some records whose CRC passes. -/
def newest (rs : List Record) : Option Record :=
  rs.foldl (fun acc r => if r.ok then (match acc with
    | some a => if a.seq ≤ r.seq then some r else acc
    | none => some r) else acc) none

/-- The record in force for a unit. -/
def inForce (rs : List Record) (kind inst : Nat) : Option Record := newest (rs.filter (fun r => r.kind == kind && r.inst == inst))

/-- A sector with no byte programmed. -/
def sectorErased (s : Mem) (k : Nat) : Bool := !s.flash.any (fun e => decide (sectorAt k ≤ e.1) && decide (e.1 < sectorAt (k + 1)))

/-- The sector the newest record lies in; sector 0 of an empty region. -/
def headSector (s : Mem) : Nat := match newest (allRecords s) with
  | some r => (r.pos - recBase) / sectorBytes
  | none => 0

/-- The first free address of a sector, behind its records. -/
def sectorEnd (s : Mem) (k : Nat) : Nat := match (sectorRecords s k).getLast? with
  | some r => r.pos + r.bytes.length
  | none => sectorAt k

/-- Where a record of n bytes goes: behind the newest, or at the start of the next sector. -/
def recordPlace (s : Mem) (n : Nat) : Nat :=
  let k := headSector s
  if sectorEnd s k + n ≤ sectorAt (k + 1) then sectorEnd s k else sectorAt ((k + 1) % recSectors)

def nextRecordSeq (s : Mem) : Nat := match newest (allRecords s) with
  | some r => r.seq + 1
  | none => 0

/-- A record with its number and CRC (R405). -/
def recordBytes (kind inst version seq : Nat) (body : List Byte) : List Byte :=
  let h := [0xC5, BitVec.ofNat 8 inst] ++ beBytes 2 kind ++ beBytes 2 version ++ beBytes 2 body.length ++ beBytes 4 seq
  h ++ beBytes 4 (crc32Fsb (h ++ body)) ++ body

/-- A record is appended. -/
def putRecord (s : Mem) (kind inst version : Nat) (body : List Byte) : Mem :=
  let bs := recordBytes kind inst version (nextRecordSeq s) body
  writeFlash s (recordPlace s bs.length) bs

/-- Fewer than 8 erased sectors remain. -/
def needsCompact (s : Mem) : Bool := decide (((List.range recSectors).filter (sectorErased s)).length < 8)

/-- The oldest sector: the first after the head, in ring order, that is not erased. -/
def oldestSector (s : Mem) : Option Nat :=
  ((List.range recSectors).map (fun k => (headSector s + 1 + k) % recSectors)).find? (fun k => !sectorErased s k)

/-- Compaction of one sector (R406): its records in force are copied to the head, and it is erased. (log 164: DEDUCED, unsafe) -/
def compactOnce (d : Dev) (s : Mem) : Dev × Mem :=
  match oldestSector s with
  | none => (d, s)
  | some k =>
    let all := allRecords s
    let keep := (sectorRecords s k).filter (fun r => inForce all r.kind r.inst == some r)
    let s := keep.foldl (fun s r => putRecord s r.kind r.inst r.version (r.bytes.drop 16)) s
    (count d FWU_COMPACT, eraseFlash s (sectorAt k) (sectorAt (k + 1)))

/-- RECORD_COMPACT (R406): firmware's work, which waits while the cores do not run. -/
def recordCompact (d : Dev) (s : Mem) : Dev × Mem := if needsCompact s && !coresHalted d then compactOnce d s else (d, s)

/-- A record is appended behind a compaction that is due. -/
def appendRecord (kind inst version : Nat) (body : List Byte) (d : Dev) (s : Mem) : Dev × Mem :=
  let (d, s) := if needsCompact s then compactOnce d s else (d, s)
  (d, putRecord s kind inst version body)

/-- The RW and RWC bits of a register row. -/
def keptBits (r : RegRow) : Word :=
  r.fields.foldl (fun m f => if f.acc == .rw || f.acc == .rwc then m ||| maskBits f.hi f.lo else m) 0

/-- The pairs of a unit's record (R405): its power request, and every register with RW or RWC fields that differs from its reset
word, as far as a body holds them. (log 149: DESIGN CHOICE, unsafe) -/
def recordPairs (d : Dev) (u : UnitRow) : List (Nat × Word) :=
  let own := d.regs.filterMap (fun e =>
    if u.base + 0x24 ≤ e.1 ∧ e.1 < u.base + 4096 * 2 ^ u.winLog then
      (rowAt u (e.1 - u.base)).bind (fun r => if keptBits r = 0 then none else some (e.1 - u.base, e.2 &&& keptBits r))
    else none)
  ((0x14, rd d (HDR_PWR u.base) &&& 3) :: own).take 508

def recordBody (d : Dev) (u : UnitRow) : List Byte :=
  ((recordPairs d u).map (fun p => beBytes 4 p.1 ++ beBytes 4 p.2.toNat)).flatten

/-- The unit's record is appended with the running image's version. -/
def saveUnit (u : UnitRow) (d : Dev) (s : Mem) : Dev × Mem :=
  appendRecord u.kind u.inst (imgRecVersion (runningImage d s)) (recordBody d u) d s

/-- Firmware saves every unit (R405). -/
def saveAll (d : Dev) (s : Mem) : Dev × Mem := (leavesOf 0).foldl (fun a u => saveUnit (unitAt u) a.1 a.2) (d, s)

/-- SAVE in FWU_CTL: firmware's work, which waits while the cores do not run. -/
def startSave (d : Dev) (s : Mem) : Dev × Mem := if coresHalted d then (setFwu d (fun h => { h with saveWait := true }), s) else saveAll d s

/-! ### The end of a pause of the cores (R126, R130, R401, R426) -/

/-- The control cores run again, unless core 0 is still halted: what waited for firmware is done (R126, R130). -/
def coresResume (d : Dev) (s : Mem) : Dev × Mem :=
  if coresHalted d then (d, s)
  else
    let is := d.rngHw.a.waiting ++ d.rngHw.b.waiting
    let d := setRng (setRng d .a (fun h => { h with waiting := [] })) .b (fun h => { h with waiting := [] })
    let d := freezeReport (forEach is (fun d i => runWaiting i d) d)
    if d.fwu.saveWait then saveAll (setFwu d (fun h => { h with saveWait := false })) s else (d, s)

/-- A pause of the cores ends. -/
def endPause (d : Dev) (s : Mem) : Dev × Mem := if !d.corePause then (d, s) else coresResume { d with corePause := false } s

/-- A release of core 0 lets it start again at the warm entry of its firmware (R36): d is the state before, d' the state after the
release. (log 191: DESIGN CHOICE, unsafe) -/
def coreRestart (d d' : Dev) (s : Mem) : Dev × Mem := if coresHalted d then coresResume d' s else (d', s)

end Sys2Proof.Machine
end

