-- ==== Sys2Proof/Machine/Framing.lean ====
section
/-!
DEFINITION. Machine/Framing.lean: the downstream framer (R104 to R125, spec/06): alignment, frames, bonding, control content,
defects and the per-second counts; and the wake-pattern detector (R233, spec/13).
-/

namespace Sys2Proof.Machine

def setChan (d : Dev) (x : Line) (c : Nat) (f : ChanHw → ChanHw) : Dev :=
  setDsf d x (fun h => { h with chans := sput ChanHw.reset h.chans c (f (sget ChanHw.reset h.chans c)) })

/-! ### Events, states and defects -/

def raiseDsf (d : Dev) (x : Line) (b : Nat) : Dev := raiseEvt d (evDSF x.ix) b
def dsLineLos : Nat := 0
def dsLineLof : Nat := 1
def dsLineAis : Nat := 2
def dsSd : Nat := 3
def dsBondLoss : Nat := 4
def dsSrChange : Nat := 5
def dsCounterJump : Nat := 6
def dsSecond : Nat := 7

def chHunt : Nat := 0
def chConfirm : Nat := 1
def chSync : Nat := 2
def chOff : Nat := 3

def chState (d : Dev) (x : Line) (c : Nat) : Nat := fld d ⟨DSF_CH_STATE x.ix, 2 * c + 1, 2 * c⟩
def setChState (d : Dev) (x : Line) (c st : Nat) : Dev := setFld d ⟨DSF_CH_STATE x.ix, 2 * c + 1, 2 * c⟩ st

def chLos (d : Dev) (x : Line) (c : Nat) : Bool := regBit d (DSF_CH_DEFECT x.ix) c
def chLof (d : Dev) (x : Line) (c : Nat) : Bool := regBit d (DSF_CH_DEFECT x.ix) (8 + c)
def chAis (d : Dev) (x : Line) (c : Nat) : Bool := regBit d (DSF_CH_DEFECT x.ix) (16 + c)

/-- The framer's domain is on. -/
def dsfOn (d : Dev) (x : Line) : Bool := domainOn d (21 + 4 * x.ix)

/-- LINE_LOS, LINE_LOF, LINE_AIS and RDI as the channels and the bonding stand (R119). -/
def lineLosNow (d : Dev) (x : Line) : Bool := (chanSet d x).all (chLos d x)
def notBonded (d : Dev) (x : Line) : Bool := dsfMode d x != 2 && !bonded d x
def lineLofNow (d : Dev) (x : Line) : Bool := !lineLosNow d x && ((chanSet d x).any (chLof d x) || notBonded d x)
def lineAisNow (d : Dev) (x : Line) : Bool := (chanSet d x).any (chAis d x)
def rdiNow (d : Dev) (x : Line) : Bool :=
  (chanSet d x).any (fun c => chLos d x c || chLof d x c || chAis d x c) || isSD d x || notBonded d x

/-- A line defect takes its value; its event is raised where it rises. -/
def setDefect (d : Dev) (x : Line) (f : Fld) (now : Bool) (b : Nat) : Dev :=
  let was := flag d f
  let d := setFlag d f now
  if now && !was then raiseDsf d x b else d

/-- The line's defects after a channel or the bonding changed, and their effects (R119 to R121, R134); LINE_LOS that clears asks service
of DSF (R378). -/
def lineDefects (d : Dev) (x : Line) : Dev :=
  let was := flag d (DSF_STATUS_LINE_LOS x.ix) || flag d (DSF_STATUS_LINE_LOF x.ix)
  let d := setDefect d x (DSF_STATUS_LINE_LOS x.ix) (lineLosNow d x) dsLineLos
  let d := if lineLosNow d x then d else sliceService d (46 + x.ix)
  let d := setDefect d x (DSF_STATUS_LINE_LOF x.ix) (lineLofNow d x) dsLineLof
  let d := setDefect d x (DSF_STATUS_LINE_AIS x.ix) (lineAisNow d x) dsLineAis
  let d := setFlag d (DSF_STATUS_RDI x.ix) (rdiNow d x)
  let lost := flag d (DSF_STATUS_LINE_LOS x.ix) || flag d (DSF_STATUS_LINE_LOF x.ix)
  let d := setDelivery d x (bonded d x && dsfMode d x != 2 && !flag d (DSF_STATUS_LINE_AIS x.ix))
  holdReturn (if lost && !was then lineLost d x else d) x

/-! ### Bonding (R115) -/

/-- Bonding restarts, counted as a loss where it is one. -/
def unbond (d : Dev) (x : Line) (loss : Bool) : Dev :=
  let was := bonded d x
  let d := setFlag (setDsf d x (fun h => { h with bondRun := 0 })) (DSF_STATUS_BONDED x.ix) false
  if was && loss then raiseDsf (count d (DSF_BOND_LOSS x.ix)) x dsBondLoss else d

/-! ### Alignment (R110 to R113) -/

/-- The Frame Alignment Word (R105). -/
def fawWord : Nat := 0xB5E27C194DA603F8

/-- Ones in the low n bits of a number. -/
def ones : Nat → Nat → Nat
  | 0, _ => 0
  | n + 1, v => v % 2 + ones n (v / 2)

/-- Bit errors in an FSB's alignment word. -/
def fawErrors (fsb : List Byte) : Nat := ones 64 (beNat (fsb.take 8) ^^^ fawWord)

/-- The FSB is good (R106). -/
def fsbGood (fsb : List Byte) : Bool :=
  let crc := crc32Fsb (slice fsb 8 64)
  beNat (slice fsb 72 4) == crc && beNat (slice fsb 76 4) == crc ^^^ 0xFFFFFFFF

def fsbFrame (fsb : List Byte) : Nat := beNat (slice fsb 8 6)
def fsbGroup (fsb : List Byte) : Nat := byteAt fsb 15
def fsbAis (fsb : List Byte) : Bool := bitOf (byteAt fsb 14) 4
def fsbAnchor (fsb : List Byte) : Bool := bitOf (byteAt fsb 14) 3
def fsbSr (fsb : List Byte) : Nat := beNat (slice fsb 16 2)
def fsbGrantCount (fsb : List Byte) : Nat := beNat (slice fsb 18 2)
def fsbGrant (fsb : List Byte) (e : Nat) : Nat := beNat (slice fsb (80 + 8 * e) 8)

/-- CHANNEL and GROUP_ID pass the test of R110. -/
def fsbMatches (d : Dev) (x : Line) (c : Nat) (fsb : List Byte) : Bool :=
  byteAt fsb 14 / 32 == c && (!flag d (DSF_CFG_GROUP_CHECK x.ix) || fsbGroup fsb == fld d (DSF_CFG_GROUP_ID x.ix))

/-- CAND and CONF_CNT of a channel (R125). -/
def syncCands (d : Dev) (x : Line) (c : Nat) : Dev :=
  let cs := (chanHw d x c).cands
  setFld (setFld d (DSF_CHc_STATUS_CAND x.ix c) cs.length) (DSF_CHc_STATUS_CONF_CNT x.ix c) (cs.foldl (fun n k => max n k.cnt) 0)

def setCands (d : Dev) (x : Line) (c : Nat) (cs : List Candidate) : Dev :=
  syncCands (setChan d x c (fun h => { h with cands := cs })) x c

/-- HUNT or CONFIRM, as candidates are pending. -/
def huntState (d : Dev) (x : Line) (c : Nat) : Dev :=
  setChState d x c (if (chanHw d x c).cands.isEmpty then chHunt else chConfirm)

/-- A boundary at which the conditions of R110 hold opens a candidate. -/
def openCandidate (d : Dev) (x : Line) (c pos : Nat) (fsb : List Byte) : Dev :=
  let cs := (chanHw d x c).cands
  if fawErrors fsb == 0 && fsbGood fsb && fsbMatches d x c fsb && !cs.any (fun k => k.pos == pos) then
    if 8 ≤ cs.length then count d (DSF_HUNT_OVF x.ix)
    else huntState (setCands d x c (cs ++ [{ pos := pos, frame := fsbFrame fsb, cnt := 1, seen := d.elapsed }])) x c
  else d

/-- The channel hunts. -/
def hunts (d : Dev) (x : Line) (c : Nat) : Bool :=
  dsfOn d x && (chState d x c == chHunt || chState d x c == chConfirm) && !chLos d x c

/-- Far-end loopback (R97, R98): what receive lane c gets goes out on transmit lane c, for lanes 0 to 3, while its BEN is high. -/
def passOn (x : Line) (c : Fin 8) (bits : List Bool) (d : Dev) : Dev :=
  if c.val < 4 ∧ fld d (LLx_CTL_TEST_MODE x.ix) = 2 ∧ benHigh d x c ∧ domainOn d (rxDomain x c) then emit d (.retimed x c bits) else d

/-- CANDIDATE_OPEN (R110). (log 30: DESIGN CHOICE, safe) -/
def candidateOpen (x : Line) (c : Fin 8) (pos : Nat) (fsb : List Byte) (d : Dev) : Dev :=
  let d := passOn x c (bytesBits fsb) d
  if hunts d x c then openCandidate d x c pos fsb else d

/-- A channel leaves SYNC, or CONFIRM, for the state given (R113, R114, R119): it has LOF, and bonding is lost. -/
def leaveSync (d : Dev) (x : Line) (c st : Nat) (loss : Bool) : Dev :=
  let was := chState d x c
  let d := setChState (setCands d x c []) x c st
  let d := setFld (setRegBit d (DSF_CH_DEFECT x.ix) (8 + c) true) (DSF_CHc_STATUS_LOSS_RUN x.ix c) 0
  if was = chSync then unbond d x loss else d

/-! ### Control content (R117) -/

/-- Entries of a good FSB that is used, within GRANT_COUNT, and how many more fail their CRC-8. -/
def grantsCounted (d : Dev) (x : Line) (fsb : List Byte) : Dev × List Nat × Nat :=
  let n := fsbGrantCount fsb
  if 40 < n then (count d (DSF_GRANT_COUNT_BAD x.ix), [], 0)
  else
    let ok := ((List.range n).map (fsbGrant fsb)).filter (fun e => crc8Grant e == e % 256)
    (d, ok, n - ok.length)

/-- Entries of an FSB that is not good: all 40 are checked, none counted. -/
def grantsUncounted (fsb : List Byte) : List Nat :=
  ((List.range 40).map (fsbGrant fsb)).filter (fun e => crc8Grant e == e % 256)

/-- The payload of a TIME_ANCHOR (R295). -/
def anchorBody (p : List Byte) : AnchorBody :=
  let n (k len : Nat) : Nat := beNat (slice p (k - 6) len)
  { frame := BitVec.ofNat 48 (n 6 6), sec := BitVec.ofNat 48 (n 12 6), ns := BitVec.ofNat 30 (n 18 4), frac := BitVec.ofNat 16 (n 22 2)
    eqrt := BitVec.ofNat 32 (n 24 4), flags := BitVec.ofNat 8 (n 28 1), gmClass := BitVec.ofNat 8 (n 29 1), utc := BitVec.ofNat 16 (n 30 2)
    accuracy := BitVec.ofNat 8 (n 32 1), steps := BitVec.ofNat 8 (n 33 1), variance := BitVec.ofNat 16 (n 34 2)
    identity := BitVec.ofNat 64 (n 36 8) }

/-- A message of the LMM slot of a used FSB reaches its unit (R117, R127 to R129): those whose TYPE or VERSION breaks R128 are
rejected where they are for the line. (log 36: DESIGN CHOICE, safe) -/
def lmmSlot (d : Dev) (x : Line) (c : Fin 8) (frame : Nat) (m : List Byte) : Dev :=
  let n (k len : Nat) : Nat := beNat (slice m k len)
  let h : LmmHead := { chan := c, frame := BitVec.ofNat 48 frame, term := BitVec.ofNat 12 (n 2 2), seq := BitVec.ofNat 16 (n 4 2) }
  let page := BitVec.ofNat 6 (n 6 1 / 4)
  let slot := BitVec.ofNat 2 (n 6 1)
  if byteAt m 1 / 16 ≠ 1 then takeLmm d x h 0 true none (fun d => d) (fun _ => none)
  else match byteAt m 0 with
    | 0x01 => assignId x h (BitVec.ofNat 64 (n 6 8)) (BitVec.ofNat 12 (n 14 2)) d
    | 0x02 => rangeResult x h ⟨n 6 1 % 4, Nat.mod_lt _ (by decide)⟩ (bitOf (n 7 1) 0) (bitOf (n 7 1) 1) (BitVec.ofNat 24 (n 8 4))
        (BitVec.ofNat 32 (n 12 4)) (BitVec.ofNat 48 (n 16 6)) (BitVec.ofNat 32 (n 22 4)) d
    | 0x03 => deregister x h d
    | 0x04 => emergencyStop x h (BitVec.ofNat 64 (n 6 8)) d
    | 0x05 => resume x h (BitVec.ofNat 64 (n 6 8)) d
    | 0x06 => sleepAck x h (BitVec.ofNat 8 (n 6 1)) (BitVec.ofNat 16 (n 8 2)) d
    | 0x08 => timeAnchor x h (anchorBody (m.drop 6)) d
    | 0x09 => keyWrap x h page slot (slice m 8 40) d
    | 0x0A => keySwitch x h page slot (BitVec.ofNat 48 (n 8 6)) d
    | 0x0B => keyClear x h page slot d
    | 0x0C => takeLmm d x h 12 (notAddressed h || decide (1 < n 6 1)) (some (.ownerLock x h (BitVec.ofNat 8 (n 6 1)))) (fun d => d)
        (fun d => some (setHeLock d x (bitOf (n 6 1) 0)))
    | 0x0D => release x h (BitVec.ofNat 8 (n 6 1)) d
    | _ => takeLmm d x h 0 true none (fun d => d) (fun _ => none)

/-! ### Channel AIS (R119) -/

/-- A good FSB moves the runs of its AIS bit. -/
def aisRun (d : Dev) (x : Line) (c : Nat) (ais : Bool) : Dev :=
  let h := chanHw d x c
  let set := if ais then h.aisSet + 1 else 0
  let clear := if ais then 0 else h.aisClear + 1
  let d := setChan d x c (fun h => { h with aisSet := min set 3, aisClear := min clear 3 })
  if 3 ≤ set then setRegBit d (DSF_CH_DEFECT x.ix) (16 + c) true
  else if 3 ≤ clear then setRegBit d (DSF_CH_DEFECT x.ix) (16 + c) false else d

/-! ### The D0 stamp (R118) -/

/-- TTD receives the stamp of the FAW of frame n (R118, R296); a commit anchored to the frame falls due (R72), and a line switched
to delivers its units from this frame (R205 step 5). -/
def stampFaw (d : Dev) (x : Line) (n bins : Nat) (anchor good : Bool) : Dev :=
  let s := stampOf d (68 + x.ix) bins
  let due := tickAfter d.clock d.elapsed s
  let e : FawStamp := { frame := n, stamp := s, phase := phaseNow d, tick := d.elapsed, dueTick := due, anchor := anchor, good := good,
                        steps := d.kst.steps }
  let d := { d with fawStamps := d.fawStamps.set x ((e :: d.fawStamps.get x).take 8000) }
  let d := frameStamped d x n s.units16 due
  if d.lineFresh.get x then d
  else
    { d with lineFresh := d.lineFresh.set x true, lineFirst := d.lineFirst.set x (some n)
             saddle := { d.saddle with swDown := some ((d.elapsed - d.saddle.swTick) / ticksPerUs) } }

/-! ### The wake pattern (R233) -/

/-- A grant entry whose CRC-8 passes is L-A's wake pattern. -/
def isWakePattern (d : Dev) (e : Nat) : Bool :=
  !geRanging e && geForceWake e && (geAlloc e == terminalId d .a || geAlloc e == 0xFFF)

/-- The detector sees a good FSB of D0 of L-A; it is armed in Hush while EN is set, and a run ends where it is not. -/
def wakeDetect (d : Dev) (x : Line) (es : List Nat) : Dev :=
  if x = .a ∧ pwrState d = pwrHush ∧ flag d (MAC_WAKE_CFG_EN 0) then
    let n := if es.any (isWakePattern d) then (d.dsf.get x).wakeRun + 1 else 0
    if n ≠ 0 ∧ fld d (MAC_WAKE_CFG_WAKE_N 0) ≤ n then
      wakeArrives (count (setDsf d x (fun h => { h with wakeRun := 0 })) (MAC_WAKE_COUNT 0)) wakeLineSrc 0
    else setDsf d x (fun h => { h with wakeRun := n })
  else setDsf d x (fun h => { h with wakeRun := 0 })

/-! ### A frame of the set (R115, R117, R122) -/

/-- The line takes part in switching requests (R201). -/
def takesPart (d : Dev) (x : Line) : Bool :=
  termState d x == stOperate || termState d x == stStandby || termState d x == stHold

/-- The used SR value is filtered (R123); a new accepted value that is no request code of R201 is counted on a line that takes part. -/
def filterSr (d : Dev) (x : Line) (v : Nat) : Dev :=
  let h := d.dsf.get x
  let run := if h.srRun ≠ 0 ∧ h.srValue = v then h.srRun + 1 else 1
  let d := setDsf d x (fun h => { h with srRun := min run 7, srValue := v })
  let d := setFld (setFld d (DSF_SR_RAW_SR1 x.ix) (v / 256)) (DSF_SR_RAW_SR2 x.ix) v
  if fld d (DSF_FILT_CFG_SR_PERSIST x.ix) ≤ run then
    let acc := fld d (DSF_SR_ACC_SR1 x.ix) * 256 + fld d (DSF_SR_ACC_SR2 x.ix)
    if acc = v then d
    else
      let d := setFld (setFld d (DSF_SR_ACC_SR1 x.ix) (v / 256)) (DSF_SR_ACC_SR2 x.ix) v
      let d := raiseDsf d x dsSrChange
      if 5 ≤ v / 4096 ∧ takesPart d x then raiseSdl (count d SDL_SR_BAD) sdSrBad else d
  else d

/-- The frames of the round meet R115; one with a counter jump does not, and so is not the first of three. (log 200: DEDUCED, safe) -/
def roundBonds (d : Dev) (x : Line) (rx : List FsbRx) : Bool :=
  let win : Int := fld d (DSF_FILT_CFG_SKEW_WIN x.ix) * 1000
  match rx with
  | [] => false
  | r :: _ =>
    (chanSet d x).all (fun c => chState d x c == chSync
        && rx.any (fun e => e.chan == c && e.frame == r.frame && !e.jump)
        && (chanHw d x c).group == (chanHw d x r.chan).group)
      && rx.all (fun e => rx.all (fun f => decide (e.skew - f.skew ≤ win)))

/-- Bonding after a round (R115). -/
def bondRound (d : Dev) (x : Line) (rx : List FsbRx) : Dev :=
  if roundBonds d x rx then
    let n := min ((d.dsf.get x).bondRun + 1) 3
    let d := setDsf d x (fun h => { h with bondRun := n })
    if n = 3 then setFlag d (DSF_STATUS_BONDED x.ix) true else d
  else unbond d x true

/-- An entry of the FSBs of frame n: a response grant of that frame, or one of the map of frame n + 1 (R117, R137, R149). -/
def takeEntry (d : Dev) (x : Line) (n : Nat) (stamped : Bool) (e : Nat) : Dev :=
  if geRanging e then responseGrant d x n e stamped else mapEntry d x ((n + 1) % 0x1000000000000) e

/-- The failed grant entries of a frame count on its channel (R117, R124). -/
def countBadGrants (d : Dev) (x : Line) (r : FsbRx) : Dev :=
  if r.bad = 0 then d else setChan d x r.chan (fun h => { h with grantCrc := h.grantCrc + r.bad })

/-- The frame's entries belong to the map that D0's frame n forms (R117). -/
def ofMap (n : Nat) (r : FsbRx) : Bool := !r.good || r.frame == n

/-- The map of frame n + 1, from the entries of the channels of D0's frame n (R117). -/
def formMap (d : Dev) (x : Line) (n : Nat) (stamped : Bool) (rx : List FsbRx) : Dev :=
  let es := ((List.range 8).map (fun c => ((rx.filter (fun r => r.chan == c && ofMap n r)).map (·.entries)).flatten)).flatten
  let d := forEach (rx.filter (ofMap n)) (fun d r => countBadGrants d x r) d
  let d := setFld d (UPB_STATUS_MAP_ACCEPTED x.ix) 0
  let d := forEach es (fun d e => takeEntry d x n stamped e) d
  if switching d && isActive d x && d.saddle.swMap.isNone then setSaddle d (fun s => { s with swMap := some (nextFrame n) }) else d

/-- The group's counter and the arrivals relative to D0 follow the frames of a round (R116, R124); a frame-anchored commit whose frame
is over ends (R73), and the payload stream of the frame begins. -/
def showRound (d : Dev) (x : Line) (rx : List FsbRx) : Dev :=
  let d := match (List.range 8).findSome? (fun c => rx.find? (fun r => r.chan == c)) with
    | some r =>
      let d := setFld (wrn d (DSF_FRAME_LO x.ix) r.frame) (DSF_FRAME_HI_VALUE x.ix) (r.frame / 0x100000000)
      streamBegins (framePassed d x r.frame) x r.frame
    | none => d
  forEach rx (fun d r => setFld d (DSF_CHc_STATUS_SKEW_NS x.ix r.chan) (ofSigned 16 r.skew)) d

/-- The SR values of a round's good FSBs, by channel. -/
def srUsed (rx : List FsbRx) : List Nat := (List.range 8).filterMap (fun c => (rx.find? (fun r => r.chan == c && r.sr.isSome)).bind (·.sr))

/-- They disagree (R122). -/
def srDiffer (rx : List FsbRx) : Bool := (srUsed rx).any (fun w => w != (srUsed rx).headD 0)

/-- Every channel in SYNC has sent its frame: the switching requests, the map, the counter and the bonding. -/
def closeRound (d : Dev) (x : Line) : Dev :=
  let rx := (d.dsf.get x).rx
  let d := setDsf d x (fun h => { h with rxTaken := true, frames := h.frames + 1 })
  let d := match srUsed rx with
    | [] => d
    | v :: _ => filterSr (if srDiffer rx then count d (DSF_SR_DISAGREE x.ix) else d) x v
  let d := match rx.find? (fun r => r.chan == 0) with
    | some r => formMap d x r.frame r.stamped rx
    | none => forEach rx (fun d r => countBadGrants d x r) d
  lineDefects (bondRound (showRound d x rx) x rx) x

/-- A frame comes after its round has been taken: its entries join the map, or form it where the channel is D0; its SR value can
only disagree with the one used, or be the one used where the round had none; and the round is looked at again for bonding. -/
def extendRound (d : Dev) (x : Line) (before : List FsbRx) (r : FsbRx) : Dev :=
  let rx := (d.dsf.get x).rx
  let d := match r.sr with
    | some v => if (srUsed before).isEmpty then filterSr d x v
        else if srDiffer rx && !srDiffer before then count d (DSF_SR_DISAGREE x.ix) else d
    | none => d
  let d := match rx.find? (fun e => e.chan == 0) with
    | some e =>
      if r.chan = 0 then formMap d x r.frame r.stamped rx
      else if ofMap e.frame r then forEach r.entries (fun d g => takeEntry d x e.frame e.stamped g) (countBadGrants d x r)
      else d
    | none => countBadGrants d x r
  let d := showRound d x rx
  lineDefects (if roundBonds d x rx then bondRound d x rx else d) x

/-- Half a frame, in ticks: frames of one round arrive closer together than that (R115). -/
def halfFrame : Nat := 1562

/-- A candidate of channel c whose check in the present round would put the channel into SYNC (R111). -/
def confirming (d : Dev) (x : Line) (c : Nat) : Bool :=
  (chanHw d x c).cands.any (fun k => decide (fld d (DSF_CFG_CONF_N x.ix) ≤ k.cnt + 1)
    && decide ((d.dsf.get x).rxTick ≤ k.seen + 2 * halfFrame + halfFrame) && decide (k.seen + halfFrame ≤ (d.dsf.get x).rxTick))

/-- Every channel of the set that is in SYNC, or may enter it in this round, has sent its frame (R117). -/
def roundComplete (d : Dev) (x : Line) : Bool :=
  (chanSet d x).all (fun c => (d.dsf.get x).rx.any (fun e => e.chan == c) || (chState d x c != chSync && !confirming d x c))

/-- The round is taken once it is complete. -/
def settleRound (d : Dev) (x : Line) : Dev :=
  if !(d.dsf.get x).rxTaken && !(d.dsf.get x).rx.isEmpty && roundComplete d x then closeRound d x else d

/-- A frame joins the round of its frame time; the first frame of the next one ends a round that has not been taken.
(log 190: DEDUCED, unsafe) -/
def joinRound (d : Dev) (x : Line) (r : FsbRx) : Dev :=
  let h := d.dsf.get x
  let next := h.rx.any (fun e => e.chan == r.chan) || decide (h.rxTick + halfFrame ≤ d.elapsed)
  let d := if next && !h.rx.isEmpty && !h.rxTaken then closeRound d x else d
  let d := setDsf d x (fun h =>
    if next || h.rx.isEmpty then { h with rx := [r], rxTick := d.elapsed, rxTaken := false } else { h with rx := h.rx ++ [r] })
  if (d.dsf.get x).rxTaken then extendRound d x h.rx r else settleRound d x

/-- A frame of channel c with its FSB: n is its FRAME, used says that its FSB is good and passes R110 (R113, R117). -/
def takeFrame (d : Dev) (x : Line) (c : Fin 8) (n : Nat) (good used jump stamped : Bool) (skew : Int) (fsb : List Byte) : Dev :=
  let d := setChan d x c (fun h => { h with frame := n, group := if used then fsbGroup fsb else h.group })
  let d := if used then aisRun d x c (fsbAis fsb) else d
  let (d, es, bad) := if used then grantsCounted d x fsb else (d, if good then [] else grantsUncounted fsb, 0)
  let d := if used && c.val == 0 then wakeDetect d x es else d
  let d := if used then lmmSlot d x c n (slice fsb 24 48) else d
  joinRound d x { chan := c, frame := n, good := good, jump := jump, skew := if c.val = 0 then 0 else skew,
                  sr := if used then some (fsbSr fsb) else none, entries := es, bad := bad, stamped := stamped }

/-- CANDIDATE_CHECK (R111): the candidate survives, confirms SYNC at this frame, or is closed; the boundary may open a new one.
skew is the arrival relative to D0 in ns. (log 31: DEDUCED, unsafe) -/
def candidateCheck (x : Line) (c : Fin 8) (pos : Nat) (fsb : List Byte) (skew : Int) (d : Dev) : Dev :=
  let d := passOn x c (bytesBits fsb) d
  let cs := (chanHw d x c).cands
  match cs.find? (fun k => k.pos == pos) with
  | none => d
  | some k =>
    if !hunts d x c then d
    else if decide (fawErrors fsb ≤ fld d (DSF_CFG_FAW_TOL x.ix)) && fsbGood fsb && fsbMatches d x c fsb
        && fsbFrame fsb == nextFrame k.frame then
      if fld d (DSF_CFG_CONF_N x.ix) ≤ k.cnt + 1 then
        let d := setChState (setCands d x c []) x c chSync
        let d := setFld (setRegBit d (DSF_CH_DEFECT x.ix) (8 + c) false) (DSF_CHc_STATUS_LOSS_RUN x.ix c) 0
        lineDefects (takeFrame d x c (fsbFrame fsb) true true false false skew fsb) x
      else setCands d x c (cs.map (fun e => if e.pos = pos then { e with frame := fsbFrame fsb, cnt := e.cnt + 1, seen := d.elapsed } else e))
    else settleRound (openCandidate (huntState (setCands d x c (cs.filter (fun e => e.pos != pos))) x c) x c pos fsb) x

/-- DSF_FRAME (R113): a frame of channel c in SYNC; bins is the place of its marker after the last tick (R44), skew its arrival
relative to D0 in ns. -/
def dsfFrame (x : Line) (c : Fin 8) (fsb : List Byte) (bins : Nat) (skew : Int) (d : Dev) : Dev :=
  let d := passOn x c (bytesBits fsb) d
  if dsfOn d x && chState d x c == chSync then
    let errs := fawErrors fsb
    let good := fsbGood fsb
    let same := fsbMatches d x c fsb
    let used := good && same
    let bad := decide (fld d (DSF_CFG_FAW_TOL x.ix) < errs)
    let pred := nextFrame (chanHw d x c).frame
    let n := if used then fsbFrame fsb else pred
    let jump := n != pred
    let d := setChan d x c (fun h => { h with fawErr := h.fawErr + boolBit (errs != 0), fsbCrc := h.fsbCrc + boolBit (!good) })
    let d := if good && !same then count d (DSF_CH_MISMATCH x.ix) else d
    let run := if bad || (good && !same) then fld d (DSF_CHc_STATUS_LOSS_RUN x.ix c) + 1 else 0
    let d := setFld d (DSF_CHc_STATUS_LOSS_RUN x.ix c) (min run 15)
    let d := if jump then unbond (raiseDsf (count d (DSF_COUNTER_JUMP x.ix)) x dsCounterJump) x true else d
    let stamped := c.val == 0 && !bad
    let d := if stamped then stampFaw d x n bins (fsbAnchor fsb && used) good else d
    let d := takeFrame d x c n good used jump stamped skew fsb
    let d := if fld d (DSF_CFG_LOSS_M x.ix) ≤ run ∧ chState d x c = chSync then leaveSync d x c chHunt true else d
    lineDefects d x
  else d

/-- CODEWORD_DECODE (R107 to R109): codeword k of the channel's present frame is descrambled and decoded; its corrected symbols count,
or it counts as uncorrectable; and outside TIME_ONLY its data bits wait for the payload stream (R116). -/
def codewordDecode (x : Line) (c : Fin 8) (k : Nat) (syms : List Nat) (d : Dev) : Dev :=
  let d := passOn x c ((syms.map (msbBits 10)).flatten) d
  if dsfOn d x && chState d x c == chSync then
    let n := (chanHw d x c).frame
    let d := setChan d x c (fun h => match correctedIn c n k syms with
      | some errs => { h with fecCorr := h.fecCorr + errs }
      | none => { h with fecUncorr := h.fecUncorr + 1 })
    if dsfMode d x = 2 then d else keepWord d x (decodedWord c n k syms)
  else d

/-- 10 µs and 250 µs in ticks (R119). -/
def losTicks : Nat := 250
def losClearTicks : Nat := 6250

def laneChangedAt (d : Dev) (x : Line) (c : Nat) : Nat := sget 0 (d.lineHw.get x).laneSince c

/-- LOS_DECLARE (R119). -/
def losDeclare (x : Line) (c : Fin 8) (d : Dev) : Dev :=
  if dsfOn d x && !laneUp d x c && decide (laneChangedAt d x c + losTicks ≤ d.elapsed) && !chLos d x c then
    let d := setRegBit d (DSF_CH_DEFECT x.ix) c true
    lineDefects (if chState d x c = chOff then d else leaveSync d x c chHunt true) x
  else d

/-- LOS_CLEAR (R119): not on a retired framer, whose channels report LOS (R386). -/
def losClear (x : Line) (c : Fin 8) (d : Dev) : Dev :=
  if dsfOn d x && !targetRetired d (46 + x.ix) && laneUp d x c && decide (laneChangedAt d x c + losClearTicks ≤ d.elapsed) then
    lineDefects (setRegBit d (DSF_CH_DEFECT x.ix) c false) x
  else d

/-! ### MODE (R114) -/

/-- The MODE that the configuration and the power state call for. -/
def modeWanted (d : Dev) (x : Line) : Nat :=
  if pwrStopped d 10 then 2 else if flag d (DSF_CFG_GROUP_WIDTH x.ix) then 0 else 1

/-- A channel enters or leaves the set, or its lane gains or loses power: OFF, or HUNT with LOF (R119). -/
def syncChannel (d : Dev) (x : Line) (c : Nat) : Dev :=
  let use := (chanSet d x).contains c && domainOn d (rxDomain x c)
  if use then
    if chState d x c = chOff then setRegBit (setChState d x c chHunt) (DSF_CH_DEFECT x.ix) (8 + c) true else d
  else if chState d x c = chOff then d
  else
    let d := setChan (leaveSync d x c chOff true) x c (fun h => { h with aisSet := 0, aisClear := 0 })
    setRegBit d (DSF_CH_DEFECT x.ix) (16 + c) false

/-- The channels follow MODE and the power of their lanes; an unpowered lane shows LOS. -/
def syncChannels (d : Dev) (x : Line) : Dev :=
  forEach (List.range 8) (fun d c =>
    let d := syncChannel d x c
    if domainOn d (rxDomain x c) then d else setRegBit d (DSF_CH_DEFECT x.ix) c true) d

/-- MODE takes a value and bonding restarts, which is no loss of it (R114, R115). -/
def takeMode (d : Dev) (x : Line) (m : Nat) : Dev :=
  if dsfMode d x = m then lineDefects (syncChannels d x) x
  else
    let d := unbond (setFld d (DSF_STATUS_MODE x.ix) m) x false
    lineDefects (syncChannels (setDsf d x (fun h => { h with rx := [], words := [] })) x) x

/-- DSF_MODE_CHANGE (R114). -/
def dsfModeChange (x : Line) (d : Dev) : Dev := if dsfOn d x then takeMode d x (modeWanted d x) else d

/-! ### The second (R124) -/

/-- What a second boundary does: the accumulators are copied with the second that ended, SD is evaluated outside TIME_ONLY, and SECOND
is raised. -/
def latchSecond (d : Dev) (x : Line) (sec : Nat) (stepped : Bool) : Dev :=
    let d := forEach (List.range 8) (fun d c =>
      let h := chanHw d x c
      let d := wrn (wrn d (DSF_CHc_SEC_FAW_ERR x.ix c) h.fawErr) (DSF_CHc_SEC_FSB_CRC x.ix c) h.fsbCrc
      let d := wrn (wrn d (DSF_CHc_SEC_FEC_CORR x.ix c) h.fecCorr) (DSF_CHc_SEC_FEC_UNCORR x.ix c) h.fecUncorr
      let d := wrn d (DSF_CHc_SEC_GRANT_CRC x.ix c) h.grantCrc
      setChan d x c (fun h => { h with fawErr := 0, fsbCrc := 0, fecCorr := 0, fecUncorr := 0, grantCrc := 0 })) d
    let d := wrn d (DSF_SEC_LU_HDR_ERR x.ix) (d.luHdrErr.get x)
    let d := { d with luHdrErr := d.luHdrErr.set x 0 }
    let d := setFld (wrn d (DSF_SEC_TIME_LO x.ix) sec) (DSF_SEC_TIME_HI_VALUE x.ix) (sec / 0x100000000)
    let d := setFld (setFlag d (DSF_SEC_INFO_STEPPED x.ix) stepped) (DSF_SEC_INFO_MODE x.ix) (dsfMode d x)
    let un := sumOf (fun c => rdn d (DSF_CHc_SEC_FEC_UNCORR x.ix c)) (chanSet d x)
    let d := if dsfMode d x = 2 then d
      else setDefect d x (DSF_STATUS_SD x.ix) (decide (fld d (DSF_SD_CFG_SD_THR x.ix) < un)) dsSd
    lineDefects (raiseDsf d x dsSecond) x

/-- DSF_SECOND_LATCH: once for each boundary reached. -/
def dsfSecondLatch (x : Line) (d : Dev) : Dev :=
  match secMark d (secDsf x) with
  | some (sec, stepped) => if dsfOn d x then latchSecond (clearMark d (secDsf x)) x sec stepped else clearMark d (secDsf x)
  | none => d

end Sys2Proof.Machine
end

