-- ==== Sys2Proof/Machine/SelfTest.lean ====
section
/-!
DEFINITION. Machine/SelfTest.lean: the schedule of logic self-test, its slices, rounds and retirements (R378 to R388, spec/21).
-/

namespace Sys2Proof.Machine

def setBst (d : Dev) (f : BstHw → BstHw) : Dev := { d with bst := f d.bst }

/-- Segments of a target (R378). -/
def segmentsOf (t : Nat) : Nat :=
  if t < 18 then 4 else if t < 27 then 12 else if t = 27 then 2 else if t < 44 then 8 else if t < 46 then 6 else 10

/-! ### Eligibility (R223, R250, R378) -/

/-- The eight lanes that pipe p serves: its own, or those of the retired pipe whose place the spare has taken. -/
def pipeLanes (d : Dev) (p : Nat) : List Nat :=
  let o := if p < 8 then some p else d.pkt.spareFor
  match o with
  | some q => (List.range 8).map (fun l => 8 * q + l)
  | none => []

/-- The lane is OFF, or in DETECT without a receiver found. -/
def laneIdle (d : Dev) (k : Nat) : Bool := laneState d k == lnOff || laneState d k == lnDetect

/-- The pipes in service but for p take the active line's frames: each of four takes a quarter of its rate (R235).
(log 144: DEDUCED, unsafe) -/
def pipesSuffice (d : Dev) (p : Nat) : Bool :=
  !hasActive d || decide (4 ≤ ((List.range 9).filter (fun q => q != p && pipePowered d q && pipeState d q == 0)).length)

/-- The condition of R378 on a target's logic. -/
def targetIdle (d : Dev) (t : Nat) : Bool :=
  if t < 18 then
    domainOn d (if 8 ≤ t ∧ t < 16 ∨ t = 17 then 44 else 43) && engineState d t == 1
  else if t < 27 then
    let p := t - 18
    pipePowered d p && (pipeState d p == 1 || pipeState d p == 0 && (pipeLanes d p).all (laneIdle d) && pipesSuffice d p)
  else if t = 27 then domainOn d 26 && !flag d NRW_STATUS_SPARE_IN_USE
  else if t < 44 then domainOn d (t - 26) && (List.range 4).all (fun l => laneIdle d (4 * (t - 28) + l))
  else if t < 46 then
    let x := Line.ofIx t
    dsfOn d x && termState d x == stStandby && !(d.upHw.get x).grants.any (sliceSoon d x)
  else
    let x := Line.ofIx t
    dsfOn d x && termState d x == stListen && flag d (DSF_STATUS_LINE_LOS x.ix)

/-- Target t is eligible (R378). -/
def eligible (d : Dev) (t : Nat) : Bool := fullOrTrim d && !targetRetired d t && targetIdle d t

/-- STATE of a target (R388). -/
def targetState (d : Dev) (t : Nat) : Nat :=
  if targetRetired d t then 3
  else if flag d BST_STATUS_RUNNING && fld d BST_STATUS_TARGET == t then 2
  else boolBit (eligible d t)

/-! ### Hours and rounds (R384) -/

def ticksPerHour : Nat := 90000000000

/-- Full and Trim time since a target's last complete round, or since reset. -/
def roundAge (d : Dev) (t : Nat) : Nat := d.bst.awake - (sget 0 d.bst.rounds t - 1)

/-- HOURS of a target: 0xFFFF where it has completed no round. -/
def targetHours (d : Dev) (t : Nat) : Nat :=
  if sget 0 d.bst.rounds t = 0 then 0xFFFF else min (roundAge d t / ticksPerHour) 0xFFFF

/-- A target's round is complete. -/
def endRound (d : Dev) (t : Nat) : Dev :=
  let d := setBst d (fun b => { b with rounds := sput 0 b.rounds t (b.awake + 1) })
  setFlag (setFlag (setFld d (BST_TGTt_STATUS_NEXT_SEG t) 0) (BST_TGTt_STATUS_PENDING t) false) (BST_TGTt_STATUS_OVERDUE t) false

/-- OVERDUE (R384): targets without a complete round for 24 hours of Full and Trim time. (log 145: DEDUCED, unsafe) -/
def overdue (d : Dev) : Dev :=
  forEach (List.range 48) (fun d t =>
    if 24 * ticksPerHour ≤ roundAge d t ∧ !flag d (BST_TGTt_STATUS_OVERDUE t) then
      raiseBst (setFlag d (BST_TGTt_STATUS_OVERDUE t) true) bsOverdue
    else d) d

/-! ### Slices (R380 to R384) -/

/-- The target that BST picks of those eligible (R384). -/
def pickTarget (d : Dev) : Option Nat :=
  let ts := (List.range 48).filter (eligible d)
  match ts.find? (fun t => flag d (BST_TGTt_STATUS_SUSPECT t)) with
  | some t => some t
  | none =>
    match ts.find? (fun t => flag d (BST_TGTt_STATUS_PENDING t)) with
    | some t => some t
    | none => ts.foldl (fun acc t => match acc with
        | some a => if sget 0 d.bst.rounds t < sget 0 d.bst.rounds a then some t else acc
        | none => some t) none

/-- SLICE_GAP has passed since the last slice, or the slice is a confirmation, which runs at once. -/
def gapOver (d : Dev) (t : Nat) : Bool :=
  flag d (BST_TGTt_STATUS_SUSPECT t) || (match d.bst.endedAt with
    | some e => decide (e + fld d BST_CFG_SLICE_GAP * ticksPerMs ≤ d.elapsed)
    | none => true)

/-- What a sub-unit's own STATE shows: 3 under a slice. -/
def setSubState (d : Dev) (t s : Nat) : Dev :=
  if t < 18 then setFld d ⟨engineReg t, 31, 30⟩ s
  else if t < 27 then setFld d ⟨CLS_PIPE_STATUS, 2 * (t - 18) + 1, 2 * (t - 18)⟩ s
  else d

/-- SLICE_START (R381, R384): steps 1 and 2 of a slice. (log 140: DEDUCED, unsafe) -/
def sliceStart (d : Dev) : Dev :=
  if flag d BST_CFG_EN && domainOn d 55 && !flag d BST_STATUS_RUNNING && !pwrStopped d 1 then
    match pickTarget d with
    | none => d
    | some t =>
      if gapOver d t then
        let d := setFlag (setFld (count d BST_SLICES) BST_STATUS_PHASE 2) BST_STATUS_RUNNING true
        let d := setFld (setFld d BST_STATUS_TARGET t) BST_STATUS_SEGMENT (fld d (BST_TGTt_STATUS_NEXT_SEG t))
        setVerdict (setSubState (setBst d (fun b => { b with beganAt := d.elapsed })) t 3) t vdRunning
      else d
  else d

/-- A pipe has failed (R386): the spare takes its lanes where it stands by; lanes without a pipe are dropped and CLS shows FAULT. -/
def retirePipe (d : Dev) (p : Nat) : Dev :=
  let cls := (unitAt 55).base
  let d := setSubState d (18 + p) 2
  if p < 8 then
    if pipeState d 8 = 1 then
      setFlag (setSubState (setPkt d (fun k => { k with spareFor := some p })) 26 0) (HDR_STATUS_SPARE_IN_USE cls) true
    else setFlag d (HDR_STATUS_FAULT cls) true
  else if d.pkt.spareFor.isSome then
    setFlag (setFlag (setPkt d (fun k => { k with spareFor := none })) (HDR_STATUS_SPARE_IN_USE cls) false) (HDR_STATUS_FAULT cls) true
  else d

/-- A FAIL verdict retires its target (R386). (log 147: DEDUCED, unsafe) -/
def retireTarget (d : Dev) (t : Nat) : Dev :=
  let d := raiseBst (count (setFld d (BST_TGTt_STATUS_STATE t) 3) BST_FAIL) bsFail
  if t < 18 then setSubState d t 2
  else if t < 27 then retirePipe d (t - 18)
  else if t = 27 then d
  else
    let d := forEach (targetUnits t) (fun d u => setFlag d (HDR_STATUS_RETIRED (unitAt u).base) true) d
    if t < 44 then
      let d := forEach (targetUnits t) (fun d u => setFlag d (HDR_STATUS_FAULT (unitAt u).base) true) d
      forEach (List.range 4) (fun d l => syncLaneState d (4 * (t - 28) + l)) d
    else if t < 46 then d
    else
      let x := Line.ofIx t
      lineDefects (forEach (List.range 8) (fun d c =>
        let d := setRegBit d (DSF_CH_DEFECT x.ix) c true
        if chState d x c = chOff then d else leaveSync d x c chHunt true) d) x

/-- A segment has passed (R380). -/
def segmentPassed (d : Dev) (t : Nat) : Dev :=
  let n := fld d BST_STATUS_SEGMENT + 1
  let d := setBst (count d BST_PASS) (fun b => { b with done := b.done + 1 })
  if n = segmentsOf t then endRound d t else setFld d (BST_TGTt_STATUS_NEXT_SEG t) n

/-- SLICE_PATTERNS_DONE (R382): the pattern count is complete; the signature, and whether it is the expected one. A first mismatch
leaves the verdict open until its confirmation. (log 141: DEDUCED, unsafe) -/
def slicePatternsDone (sig : BitVec 64) (good : Bool) (d : Dev) : Dev :=
  match slicing d with
  | none => d
  | some t =>
    let suspect := flag d (BST_TGTt_STATUS_SUSPECT t)
    let v := if good then vdPass else if suspect then vdFail else vdRunning
    let d := wrPair d BST_LAST_SIG_LO BST_LAST_SIG_HI sig.toNat
    let d := setFld (setVerdict (recordSlice d v 0) t v) BST_STATUS_PHASE 3
    if good then
      let d := if suspect then raiseBst (count (setFlag d (BST_TGTt_STATUS_SUSPECT t) false) BST_TRANSIENT) bsTransient else d
      segmentPassed d t
    else
      let d := setBst d (fun b => { b with done := b.done + 1 })
      if suspect then retireTarget d t else setFlag d (BST_TGTt_STATUS_SUSPECT t) true

/-- SLICE_BUDGET (R381): the patterns are not complete 480 µs after the slice began. -/
def sliceBudget (d : Dev) : Dev := if d.bst.beganAt + 12000 ≤ d.elapsed then abortSlice d cutBudget else d

/-- SERVICE_REQUEST (R383): service is wanted of a target. (log 142: DEDUCED, unsafe) -/
def serviceRequest (t : Fin 48) (d : Dev) : Dev := sliceService d t

/-- SLICE_RESTORE_DONE (R381, R383): the target is restored and rejoins service. -/
def sliceRestoreDone (d : Dev) : Dev :=
  if flag d BST_STATUS_RUNNING && fld d BST_STATUS_PHASE == 3 then
    let t := fld d BST_STATUS_TARGET
    let d := setFlag (setFld (setBst d (fun b => { b with endedAt := some d.elapsed })) BST_STATUS_PHASE 0) BST_STATUS_RUNNING false
    if t < 18 then (if engineState d t = 3 then setSubState d t 1 else d)
    else if t < 27 then
      (if pipeState d (t - 18) = 3 then setSubState d t (if t = 26 ∧ d.pkt.spareFor.isNone then 1 else 0) else d)
    else if 28 ≤ t ∧ t < 44 then resumeProbes d (t - 28)
    else d
  else d

/-! ### The unit header (R26, R379) -/

/-- HDR_BST_START: START is written to a unit or group. (log 148: DEDUCED, unsafe) -/
def hdrBstStart (m : Master) (u : UnitIx) (d : Dev) : Dev :=
  guarded d m (HDR_BST (unitAt u).base).ofs (fun d =>
    forEach ((leavesOf u).filter (fun v => (unitAt v).eligible)) (fun d v =>
      forEach (targetsOf v) (fun d t => setFlag d (BST_TGTt_STATUS_PENDING t) true) d) d)

/-- HDR_BST_ABORT: ABORT is written to a unit or group. -/
def hdrBstAbort (m : Master) (u : UnitIx) (d : Dev) : Dev :=
  guarded d m (HDR_BST (unitAt u).base).ofs (fun d =>
    match slicing d with
    | some t => if (leavesOf u).any (fun v => (targetsOf v).contains t) then abortSlice d cutHost else d
    | none => d)

/-! ### The summary (R387) -/

/-- Targets with a property, one bit each in six bytes. -/
def targetBits (p : Nat → Bool) : List Byte := leBytes 6 ((List.range 48).foldl (fun n t => n + boolBit (p t) * 2 ^ t) 0)

/-- BST_SUMMARY, once for each second boundary reached: the targets eligible, overdue, retired and suspect, the slices completed and
aborted in the second, and the memories repaired at start-up. (log 146: DESIGN CHOICE, unsafe) -/
def bstSummary (d : Dev) : Dev :=
  if secMark d secSummary = none then d
  else
    let d := clearMark d secSummary
    if !domainOn d 55 then d
    else
      let s := targetBits (fun t => targetState d t == 1) ++ targetBits (fun t => flag d (BST_TGTt_STATUS_OVERDUE t))
        ++ targetBits (targetRetired d) ++ targetBits (fun t => flag d (BST_TGTt_STATUS_SUSPECT t))
        ++ leBytes 4 d.bst.done ++ leBytes 4 d.bst.cut
        ++ leBytes 4 ((List.range 21).foldl (fun n m => n + boolBit (fld d (BST_MEMm_STATUS_STATE m) == 1) * 2 ^ m) 0)
      setBst d (fun b => { b with done := 0, cut := 0, summary := s })

end Sys2Proof.Machine
end

