-- ==== Sys2Proof/Machine/Power.lean ====
section
/-!
DEFINITION. Machine/Power.lean: the power domains, trim changes, entry to Hush and Keep, wakes and thermal stop (R358 to R375, spec/20;
R460, spec/26). Wake sources are in Machine/Wake.lean; what switches the domains on after a reset is in Machine/Boot.lean.
-/

namespace Sys2Proof.Machine

def raisePwr (d : Dev) (b : Nat) : Dev := raiseEvt d evPWR b
def pwEvState : Nat := 0
def pwEvAbort : Nat := 1
def pwEvWake : Nat := 2
def pwEvWakeFail : Nat := 3
def pwEvAvsFail : Nat := 4
def pwEvPllFail : Nat := 5
def pwEvAlt : Nat := 6
def pwEvGasp : Nat := 7

def outDone : Nat := 1
def outAborted : Nat := 2
def outAvsSafe : Nat := 3
def outWakeFailed : Nat := 4

/-! ### Domains (R358 to R361) -/

/-- Domain n takes its state. -/
def putDomain (d : Dev) (n : Nat) (on ret : Bool) : Dev :=
  if n < 32 then setRegBit (setRegBit d PWR_DOM_ON_LO n on) PWR_DOM_RET_LO n ret
  else setRegBit (setRegBit d PWR_DOM_ON_HI (n - 32) on) PWR_DOM_RET_HI (n - 32) ret

/-- Domain 54 is declared failed (R374). -/
def clockFailed (d : Dev) : Bool := regBit d PWR_DOM_FAIL_HI 22

/-- The domains that can be switched, 2 to 55. -/
def switched : List Nat := (List.range 56).drop 2

/-- The domains that Hush keeps on, those it retains, and the order in which Keep gives them up (R358). -/
def hushOn : List Nat := [18, 21]
def hushRetained : List Nat := [32, 45, 46, 49]
/-- Log 135: DEDUCED, unsafe. -/
def keepGivesUp : List Nat := [49, 46, 45, 32, 21, 18]

/-- A sleep target leaves domain n on, or retains it. -/
def staysOn (target n : Nat) : Bool := target == pwrHush && hushOn.contains n
def staysRetained (target n : Nat) : Bool := target == pwrHush && hushRetained.contains n

/-- The mask bit of domain n as applied. -/
def maskedOff (d : Dev) (n : Nat) : Bool := if n < 32 then (rdA d PWR_TRIM_LO).getLsbD n else (rdA d PWR_TRIM_HI).getLsbD (n - 32)

/-- The leaf units bound to domain n (R461). (log 123: DEDUCED, unsafe) -/
def boundUnits (n : Nat) : List Nat := (leavesOf 0).filter (fun u => (unitAt u).domains.contains n)

/-- Domain n is requested off (R361); one to which no unit is bound only by the mask. -/
def requestedOff (d : Dev) (n : Nat) : Bool :=
  maskedOff d n || trimmable n && !(boundUnits n).isEmpty
    && (boundUnits n).all (fun u => decide (fld d (HDR_PWR_PWR_REQ (unitAt u).base) < 2))

/-- STATE while awake: Trim while a domain is requested off, else Full (R361). (log 131: DEDUCED, unsafe) -/
def syncPwrState (d : Dev) : Dev :=
  let st := boolBit (switched.any (requestedOff d))
  if !fullOrTrim d || pwrState d == st then d else raisePwr (setFld d PWR_STATUS_STATE st) pwEvState

/-! ### A domain is switched off or retained -/

/-- The flow cache loses its contents, written back before; frames that waited for a miss are bypassed (R262, R270). -/
def loseCache (d : Dev) : Dev :=
  let ms := d.pkt.misses
  let d := setPkt d (fun p => { p with misses := [], cache := [] })
  forEach ms (fun d m => forEach m.frames byBypass d) d

/-- The receive lanes of a group lose power, and where D0 to D3 do, so does the domain of the line (R48, R81). -/
def loseRxGroup (d : Dev) (x : Line) (high : Bool) : Dev :=
  let d := forEach (List.finRange 4) (fun d (r : Fin 4) => rxLaneOff d x (Fin.ofNat 8 (if high then r.val + 4 else r.val))) d
  let d := if high then d else domainIdle d x
  if dsfOn d x then lineDefects (syncChannels d x) x else d

/-- A line's framer and burst former lose power: every channel is OFF and nothing is bonded. -/
def loseFramer (d : Dev) (x : Line) : Dev :=
  let d := unbond (cutBursts d x) x false
  setDsf (forEach (List.range 8) (fun d c => setChState d x c chOff) d) x (fun h => { DsfHw.reset with frames := h.frames })

/-- The cells of a DRAM interface lose their contents: address bit 8 selects it (R446). -/
def loseDram (s : Mem) (i : Nat) : Mem := { s with dram := s.dram.filter (fun e => e.1 / 256 % 2 != i) }

/-- Control core n stops, and without retention its local memory is lost (R359). (log 134: DEDUCED, unsafe) -/
def loseCore (s : Mem) (n : Nat) : Mem := { s with core := eraseMem s.core (n * 0x200000) ((n + 1) * 0x200000) }

/-- The pools follow a bank group of a trim (R275). The bank groups of an entry, a wake or a boot change one by one with the traffic
manager idle, and the pools follow at its end. (log 189: DEDUCED, unsafe) -/
def poolsFollow (d : Dev) : Dev :=
  match d.pwr.phase with
  | .off _ => d
  | .wakeOn _ => d
  | .keepOn _ => d
  | .bootOn _ => d
  | _ => syncPools d

/-- What follows the loss of domain n's power. (log 126: DEDUCED, unsafe; log 183: DEDUCED, unsafe) -/
def domainLoses (d : Dev) (n : Nat) : Dev :=
  if n < 18 then forEach (List.range 4) (fun d l => syncLaneState d (4 * (n - 2) + l)) d
  else if n < 26 then
    let x := Line.ofIx ((n - 18) / 4)
    if n % 4 = 2 then loseRxGroup d x false else if n % 4 = 3 then loseRxGroup d x true
    else if n % 4 = 0 then txUnpowered d x else loseFramer d x
  else if n = 27 then courseLinkChange 1 false (courseLinkChange 0 false d)
  else if n = 31 then loseCache d
  else if n = 32 then d
  else if 35 ≤ n ∧ n ≤ 42 then poolsFollow d
  else if n = 43 then emptyPages d (List.range 64)
  else if n = 47 then setFlag (setFld d HIF_LINK_STATUS_GEN 0) HIF_LINK_STATUS_TUNNEL_UP false
  else if n = 49 then { d with corePause := true }
  else if n = 53 then { d with host := { d.host with bw := [] } }
  else d

/-- Domain n is switched off, or retained (R359, R365). The flow cache writes back while it and the DRAM still have power (R261). -/
def domainOff (d : Dev) (s : Mem) (n : Nat) (ret : Bool) : Dev × Mem :=
  let (d, s) := if (n = 31 ∨ n = 45 ∨ n = 46) ∧ flowPowered d then writeBackAll d s else (d, s)
  let d := domainLoses (putDomain d n false ret) n
  let d := if n = 32 ∧ !ret then { d with endpoints := [] } else d
  let s := if ret then s
    else if n = 45 ∨ n = 46 then loseDram s (n - 45)
    else if 49 ≤ n ∧ n ≤ 52 then loseCore s (n - 49)
    else s
  (d, s)

/-! ### A domain is switched on -/

/-- What follows power for domain n (R81, R91, R119, R222, R292). -/
def domainGains (d : Dev) (n : Nat) : Dev :=
  if n < 18 then forEach (List.range 4) (fun d l => syncLaneState d (4 * (n - 2) + l)) d
  else if n < 26 then
    let x := Line.ofIx ((n - 18) / 4)
    if n % 4 = 0 then txPowered d x
    else if n % 4 = 1 then (if dsfOn d x then takeMode d x (modeWanted d x) else d)
    else if dsfOn d x then lineDefects (syncChannels d x) x else d
  else if n = 33 then setPkt d (fun p => { p with buckets := [] })
  else if 35 ≤ n ∧ n ≤ 42 then poolsFollow d
  else if n = 47 then flushVectors d
  else d

/-- Domain n is switched on: its units are restored from the configuration SRAM. -/
def switchOn (d : Dev) (n : Nat) : Dev := domainGains (putDomain d n true false) n

/-! ### Trim changes (R361, R367) -/

/-- The units asked before domain n leaves service. -/
def trimUnits (n : Nat) : List Nat :=
  if n < 18 then [20 + n, 36 + n]
  else if n = 19 then [12] else if n = 23 then [15]
  else if n < 26 then [17]
  else if n = 27 then [66] else if n ≤ 30 then [55] else if n = 31 then [56]
  else if n = 45 ∨ n = 46 then [56, 63] else if n ≤ 42 then [57] else if n = 44 then [21] else [63]

/-- The domains that a trim change switches off, ascending, and those it switches on. -/
def trimLeaving (d : Dev) : List Nat := switched.filter (fun n => domainOn d n && requestedOff d n)
def trimArriving (d : Dev) : List Nat := switched.filter (fun n => !domainOn d n && !requestedOff d n)

def setTrans (d : Dev) (b : Bool) : Dev := setFlag d PWR_STATUS_TRANS b

/-- A trim change starts where the domains differ from what is requested, awake and with nothing else in progress. -/
def startTrim (d : Dev) : Dev :=
  let d := syncPwrState d
  if !fullOrTrim d || d.pwr.phase != .idle || d.pwr.thermal then d
  else
    let off := trimLeaving d
    let on := trimArriving d
    if off.isEmpty && on.isEmpty then d
    else setPhase (setTrans (setPwr d (fun h => { h with target := 0 })) true)
      (.trimAsk ((off.map (fun n => (trimUnits n).map (fun u => (u, n)))).flatten) [] off.reverse on)

/-- A trim change is complete; one that has been requested meanwhile follows. -/
def endTrim (d : Dev) : Dev :=
  let d := setFld (setTrans (setPhase d .idle) false) PWR_STATUS_LAST_OUTCOME outDone
  startTrim (syncEngines d)

/-- The next step of a trim change that switches domains: done where none is left. (log 124: DEDUCED, unsafe) -/
def trimNext (d : Dev) (off on : List Nat) : Dev :=
  match off, on with
  | [], [] => endTrim d
  | [], on => setPhase d (.trimOn on)
  | off, on => setPhase d (.trimOff off on)

/-- No channel of the main DMA is BUSY; after DRAIN_MS that is a refusal (R352). -/
def drainOver (d : Dev) : Bool := decide (d.pwr.since + fld d TMG_CFG_DRAIN_MS * ticksPerMs ≤ d.elapsed)

def dmaAnswer (d : Dev) : Option Bool := if busyChannels d = 0 then some true else if drainOver d then some false else none

/-- ASH refuses while commands are queued or a walk runs (R270). -/
def ashAnswer (d : Dev) : Option Bool := some (d.pkt.cmds.isEmpty && d.pkt.walk.isNone)

/-- The lanes of a pipe group are OFF (R250). -/
def groupLanesOff (d : Dev) (g : Nat) : Bool := (List.range 32).all (fun k => laneState d (32 * g + k) == lnOff)

def listenOrStopped (d : Dev) (x : Line) : Bool := termState d x == stListen || termState d x == stStopped

/-- The answer of unit u, asked for domain n (R367). Which cells a bank group holds is not stated: empty says that it holds none.
(log 125: DESIGN CHOICE, safe) -/
def trimAnswer (d : Dev) (u n : Nat) (empty : Bool) : Option Bool :=
  if n < 18 then some true
  else if n < 26 then
    let x := Line.ofIx ((n - 18) / 4)
    if n % 4 = 3 then some (!(flag d (DSF_CFG_GROUP_WIDTH x.ix) && !listenOrStopped d x)) else some (listenOrStopped d x)
  else if n = 27 then some d.fwu.relay.isNone
  else if n = 28 then some (groupLanesOff d 0)
  else if n = 29 then some (groupLanesOff d 1)
  else if n = 31 then ashAnswer d
  else if n = 45 ∨ n = 46 then (if u = 56 then ashAnswer d else some (busyChannels d == 0))
  else if 35 ≤ n ∧ n ≤ 42 then
    (if empty || d.queues.isEmpty then some true else if drainOver d then some false else none)
  else if n = 48 then dmaAnswer d
  else some true

/-! ### Entry to Hush and Keep (R363 to R366) -/

/-- The unit of step k. -/
def stepUnit (k : Nat) : Nat := [61, 65, 18, 8, 17, 62, 63, 57, 56, 21].getD (k - 1) 61

/-- An entry of a RUNNING ring is in progress: one that does not only wait for its stamp (R336). (log 127: DEDUCED, unsafe) -/
def ringsBusy (d : Dev) : Bool :=
  d.host.rings.any (fun e => ringRuns d e.1 && e.2.entries.any (fun x => x.done.isSome || !x.stamp))

/-- The selected domain, where it is not D-A, agrees with D-A (R64). (log 128: DEDUCED, unsafe) -/
def keystoneMoves (d : Dev) : Bool :=
  servo d == servoTrack && selDom d != .a && agrees d .a (predicted d (selDom d) (phaseNow d))

/-- The answer of the unit of step k (R363). -/
def entryAnswer (d : Dev) (k : Nat) : Option Bool :=
  if k = 2 then some (!flag d FWU_STATUS_ACTIVATING)
  else if k = 3 then some (!switching d)
  else if k = 4 then some (d.pwr.target == pwrKeep || servo d != servoTrack || selDom d == .a || keystoneMoves d)
  else if k = 5 then sleepAnswer d
  else if k = 6 then (if !ringsBusy d then some true else if drainOver d then some false else none)
  else if k = 7 then dmaAnswer d
  else if k = 8 then (if d.queues.isEmpty || drainOver d then some true else none)
  else if k = 9 then ashAnswer d
  else some true

/-- What a unit does as it grants. -/
def entryGranted (d : Dev) (s : Mem) (k : Nat) : Dev × Mem :=
  if k = 1 then (abortSlice d cutPower, s)
  else if k = 4 then
    (if d.pwr.target = pwrHush ∧ keystoneMoves d then seamlessSwitch d .a (predicted d (selDom d) (phaseNow d)) else d, s)
  else if k = 8 then (drainDiscard d, s)
  else if k = 9 then writeBackAll d s
  else if k = 10 then (emptyPages d (List.range 64), s)
  else (d, s)

/-- The unit of step k is asked. -/
def askStep (d : Dev) (k : Nat) : Dev :=
  let d := setFld (setPhase d (.asking k)) PWR_STATUS_STEP k
  if k = 5 then sleepAsk d (d.pwr.target == pwrKeep) else d

/-- A commit to Hush or Keep starts an entry. -/
def beginEntry (d : Dev) (target : Nat) : Dev :=
  askStep (setTrans (setPwr d (fun h => { h with target := target, tries := 0, pend := 0 })) true) 1

/-- Keystone as the device enters Keep: a tracking servo holds over, in FREE device time goes on at FREQ_BASE alone, and both domains are
IDLE (R64). -/
def keystoneKeep (d : Dev) : Dev :=
  let d := if servo d = servoTrack then enterHoldover d
    else if servo d = servoFree then loadSlewer (setServo d 0 d.kst.i) 0 else d
  domainIdle (domainIdle d .a) .b

/-- Step 1 of R365, and what a granted entry brings in the units that it stops. -/
def entryBegins (d : Dev) : Dev :=
  let t := d.pwr.target
  let d := clearWtr (sleepEnter (cutBursts (cutBursts d .a) .b))
  let d := if t = pwrKeep then keystoneKeep d else domainIdle d .b
  let ds := (switched.filter (fun n => domainOn d n != staysOn t n || domainRetained d n != staysRetained t n)).reverse
  setFld (setPhase d (.off ds)) PWR_STATUS_STEP 0

/-- A refusal is recorded with its instant (R364). -/
def recordRefusal (d : Dev) (u step : Nat) (timeout : Bool) : Dev :=
  let r := unitAt u
  let w := r.kind * 65536 + r.inst * 256 + step * 16 + d.pwr.target * 4 + boolBit timeout * 2 + 1
  let d := wrn (wrn (wrn d PWR_REFUSE w) PWR_REFUSE_SEC d.clock.sec.toNat) PWR_REFUSE_NS d.clock.ns.val
  setFld (setTrans (setPhase (count d PWR_REFUSALS) .idle) false) PWR_STATUS_LAST_OUTCOME outAborted

/-- Each line whose announcement was granted reports that it goes on (R364). -/
def reportAwake (d : Dev) : Dev :=
  sleepCancel (forEach [Line.a, .b] (fun d x =>
    if (d.rngHw.get x).asked ∧ (d.rngHw.get x).acked = some true then
      let st := BitVec.ofNat 8 (termState d x)
      queueLmm d x 0x84 [st, st, BitVec.ofNat 8 reportWake]
    else d) d)

/-- Step k is refused: the entry is aborted and the units that had stopped go on (R364, R371). -/
def abortEntry (d : Dev) (k : Nat) (timeout : Bool) : Dev :=
  let d := recordRefusal (reportAwake d) (stepUnit k) k timeout
  let d := setFlag (setPwr (setFld d PWR_STATUS_STEP 0) (fun h => { h with pend := 0 })) PWR_STATUS_WAKE_PEND false
  raisePwr (count d PWR_ABORTS) pwEvAbort

/-- UNIT_GRANT: the asked unit answers, where it can. -/
def unitGrant (empty : Bool) (d : Dev) (s : Mem) : Dev × Mem :=
  match d.pwr.phase with
  | .asking k =>
    match entryAnswer d k with
    | some true =>
      let (d, s) := entryGranted d s k
      (if k = 10 then entryBegins d else askStep d (k + 1), s)
    | some false => (abortEntry d k false, s)
    | none => (d, s)
  | .trimAsk [] _ off on => (trimNext d off on, s)
  | .trimAsk ((u, n) :: rest) done off on =>
    match trimAnswer d u n empty with
    | some true =>
      let (d, s) := if u = 56 then writeBackAll d s else (d, s)
      (setPhase d (.trimAsk rest (done ++ [(u, n)]) off on), s)
    | some false => (recordRefusal d u 0 false, s)
    | none => (d, s)
  | _ => (d, s)

/-- GRANT_TIMEOUT: the asked unit has not answered within GRANT_TO. -/
def grantTimeout (d : Dev) : Dev :=
  if d.pwr.since + fld d PWR_GRANT_TO_GRANT_TO * ticksPerMs ≤ d.elapsed then
    match d.pwr.phase with
    | .asking k => if (entryAnswer d k).isNone then abortEntry d k true else d
    | .trimAsk ((u, n) :: _) _ _ _ => if (trimAnswer d u n false).isNone then recordRefusal d u 0 true else d
    | _ => d
  else d

/-- The target of an entry is reached; a wake that was latched begins (R365, R371). -/
def finishEntryTo (d : Dev) (outcome : Nat) : Dev :=
  let d := setFld (setFld (setTrans (setPhase d .idle) false) PWR_STATUS_STATE d.pwr.target) PWR_STATUS_LAST_OUTCOME outcome
  let d := raisePwr (syncLaser (syncLaser (count d PWR_ENTRIES) .a) .b) pwEvState
  let p := d.pwr.pend
  if p = 0 then d
  else
    let d := setFlag (setPwr d (fun h => { h with pend := 0 })) PWR_STATUS_WAKE_PEND false
    beginWake d p (if p = 2 ^ wakeTimed then d.pwr.pendTarget else 0)

/-- DOMAIN_SWITCH_OFF: the next domain that leaves service is switched off or retained (R365 to R367); one that Hush keeps on and a
trim has switched off is switched on again (R358, R360). (log 129: DEDUCED, unsafe) -/
def domainSwitchOff (d : Dev) (s : Mem) : Dev × Mem :=
  match d.pwr.phase with
  | .off (n :: ds) =>
    let (d, s) := if staysOn d.pwr.target n then (switchOn d n, s) else domainOff d s n (staysRetained d.pwr.target n)
    (if !ds.isEmpty then setPhase d (.off ds)
     else if pwrState d = pwrHush then finishEntryTo d outDone
     else avsRequest (setPhase (setPwr d (fun h => { h with tries := 0 })) .entryAvs) (fld d PWR_VOLT_VOLT_LOW), s)
  | .trimOff (n :: off) on =>
    let (d, s) := domainOff d s n (n == 45 || n == 46)
    (trimNext d off on, s)
  | _ => (d, s)

/-! ### The core regulator and the PLLs (R368, R372 to R374) -/

/-- A wake has failed at the regulator. -/
def wakeFails (d : Dev) : Dev :=
  let d := setFlag (setFld (setTrans (setPhase (avsSafe d) .idle) false) PWR_STATUS_LAST_OUTCOME outWakeFailed) PWR_STATUS_WAKE_FAIL true
  raisePwr (raisePwr (count d PWR_WAKE_FAILS) pwEvAvsFail) pwEvWakeFail

/-- Domain 54 is switched on and its PLLs are waited for. -/
def startPlls (d : Dev) (p : PwrPhase) : Dev := setPhase (switchOn (setPwr d (fun h => { h with tries := 0, switched := [54] })) 54) p

/-- AVS_ACK: a request is acknowledged. -/
def avsAck (d : Dev) : Dev :=
  match d.pwr.phase with
  | .entryAvs => finishEntryTo d outDone
  | .wakeAvs => startPlls d .wakePll
  | .keepAvs => setPhase d (.keepOn keepGivesUp.reverse)
  | .bootAvs => startPlls (setFld d RST_STATUS_PHASE 2) .bootPll
  | _ => d

/-- A request is waited for. -/
def avsPending (p : PwrPhase) : Bool :=
  match p with
  | .entryAvs => true
  | .wakeAvs => true
  | .keepAvs => true
  | .bootAvs => true
  | _ => false

/-- The voltage that the phase asks for. -/
def avsVoltage (d : Dev) : Nat :=
  match d.pwr.phase with
  | .entryAvs => fld d PWR_VOLT_VOLT_LOW
  | .keepAvs => fld d PWR_VOLT_VOLT_LOW
  | _ => fld d PWR_VOLT_VOLT_FULL

/-- AVS_TIMEOUT: a request is not acknowledged within 200 µs; it is repeated up to 3 times (R368, R374, R427). (log 130: DEDUCED, unsafe) -/
def avsTimeout (d : Dev) : Dev :=
  if avsPending d.pwr.phase && decide (d.pwr.since + 5000 ≤ d.elapsed) then
    if d.pwr.tries < 3 then
      avsRequest (setPwr (count d PWR_AVS_RETRY) (fun h => { h with tries := h.tries + 1, since := d.elapsed })) (avsVoltage d)
    else match d.pwr.phase with
      | .entryAvs => finishEntryTo (raisePwr (avsSafe d) pwEvAvsFail) outAvsSafe
      | .bootAvs => startPlls (setFld (raisePwr (avsSafe d) pwEvAvsFail) RST_STATUS_PHASE 2) .bootPll
      | _ => wakeFails d
  else d

/-- PLL_LOCK: the PLLs of domain 54 have locked. -/
def pllLock (d : Dev) : Dev :=
  match d.pwr.phase with
  | .wakePll => setPhase d (.wakeOn (switched.filter (fun n => !domainOn d n && !requestedOff d n)))
  | .bootPll => setPhase (setFld d RST_STATUS_PHASE 3) (.bootOn (switched.filter (fun n => !domainOn d n)))
  | _ => d

/-- PLL_TIMEOUT: an attempt has not locked in 200 µs; after three, domain 54 has failed (R374, R427). -/
def pllTimeout (d : Dev) (s : Mem) : Dev × Mem :=
  let waits := match d.pwr.phase with
    | .wakePll => true
    | .bootPll => true
    | _ => false
  if waits && decide (d.pwr.since + 5000 ≤ d.elapsed) then
    let boot := d.pwr.phase == .bootPll
    let d := setPwr (count d PWR_PLL_RETRY) (fun h => { h with tries := h.tries + 1, since := d.elapsed })
    if d.pwr.tries < 3 then (d, s)
    else
      let (d, s) := domainOff d s 54 false
      let d := setFlag (setRegBit d PWR_DOM_FAIL_HI 22 true) (HDR_STATUS_FAULT (unitAt 0).base) true
      let d := setFlag (setTrans (setPhase d .idle) false) PWR_STATUS_WAKE_FAIL true
      let d := raisePwr (raisePwr d pwEvPllFail) pwEvWakeFail
      (avsRequest (if boot then d else setFld d PWR_STATUS_LAST_OUTCOME outWakeFailed) (fld d PWR_VOLT_VOLT_LOW), s)
  else (d, s)

/-! ### Wakes (R370 to R373) -/

/-- A wake from Keep has reached Hush; one to RUN goes on at once, unless domain 54 has failed (R373, R374). -/
def hushReached (d : Dev) : Dev :=
  let d := raisePwr (setFld d PWR_STATUS_STATE pwrHush) pwEvState
  if d.pwr.wakeTarget = 0 then
    if clockFailed d then count (setTrans (setPhase d .idle) false) PWR_WAKE_REFUSED
    else avsRequest (setPhase (setPwr d (fun h => { h with tries := 0 })) .wakeAvs) (fld d PWR_VOLT_VOLT_FULL)
  else setFld (setTrans (setPhase d .idle) false) PWR_STATUS_LAST_OUTCOME outDone

/-- The endpoint SRAM is on again after Keep: the tables are lost (R270, R373). -/
def tablesLost (d : Dev) : Dev := raiseAsh (setFlag (wrn d ASH_FLOWS 0) ASH_STATUS_TABLES_LOST true) ahTablesLost

/-- The core section beyond core 0's memory is loaded: cores 1 to 3 start under core 0, whose memory was retained (R372). -/
def loadOtherCores (i : Image) (s : Mem) : Mem := writeCore s 0x200000 ((i 1024 (imgCoreLen i)).drop 0x200000)

/-- The next domain of a wake is switched on (R372, R373): core 0 is loaded again where its memory was lost, and the cores start after
domain 52. -/
def wakeSwitchOn (d : Dev) (s : Mem) : Dev × Mem :=
  match d.pwr.phase with
  | .trimOn (n :: on) => (trimNext (switchOn d n) [] on, s)
  | .wakeOn (n :: ds) =>
    let d := switchOn (setPwr d (fun h => { h with switched := n :: h.switched })) n
    let d := if ds.isEmpty then syncPools (setPhase d .wakeEnd) else setPhase d (.wakeOn ds)
    if n = 52 then endPause d (loadOtherCores (runningImage d s) s) else (d, s)
  | .keepOn (n :: ds) =>
    let d := putDomain d n (staysOn pwrHush n) (staysRetained pwrHush n)
    let d := if n = 32 then tablesLost d else if staysOn pwrHush n then domainGains d n else d
    let s := if n = 49 then loadCores (runningImage d s) s else s
    (if ds.isEmpty then hushReached d else setPhase d (.keepOn ds), s)
  | _ => (d, s)

/-- WAKE_COMPLETE: step 6 of R372. -/
def wakeComplete (d : Dev) : Dev :=
  match d.pwr.phase with
  | .wakeEnd =>
    let d := setFld (setTrans (setPhase d .idle) false) PWR_STATUS_STATE (boolBit (switched.any (requestedOff d)))
    let d := forEach [Line.a, .b]
      (fun d x => wakeLine (syncLaser d x) x) d
    let d := setFldA (setFlag (setFld d PWR_STATUS_LAST_OUTCOME outDone) PWR_STATUS_WAKE_FAIL false) PWR_CTL_TARGET 0
    startTrim (syncEngines (raisePwr (raisePwr (count (emit d .usbWake) PWR_WAKES) pwEvState) pwEvWake))
  | _ => d

/-- WAKE_SOURCE: a source from outside (R370): an address byte of the management bus that is MGMT_ADDR, WAKE_N, or the USB4 host.
(log 187: DESIGN CHOICE, unsafe) -/
def wakeSource (p : WakePin) (d : Dev) : Dev :=
  match p with
  | .i2c a => if a.toNat = fld d PWR_WAKE_CFG_MGMT_ADDR then wakeArrives d wakeI2c 0 else d
  | .wakeN => wakeArrives d wakePin 0
  | .usb4 => wakeArrives d wakeUsb 0

/-! ### PWR_ALT (R369) -/

/-- DYING_GASP while PWR_ALT is asserted and GASP_EN set. -/
def syncGasp (d : Dev) : Dev :=
  let g := flag d PWR_STATUS_PWR_ALT && flag d PWR_WAKE_CFG_GASP_EN
  let was := flag d PWR_STATUS_DYING_GASP
  let d := setFlag d PWR_STATUS_DYING_GASP g
  if g && !was then raisePwr d pwEvGasp else d

/-- PWR_ALT_CHANGE: the debounced input takes a level; asserted, it ends a store (R369, R396). -/
def pwrAltChange (asserted : Bool) (d : Dev) : Dev :=
  if flag d PWR_STATUS_PWR_ALT = asserted then d
  else
    let d := syncGasp (raisePwr (setFlag d PWR_STATUS_PWR_ALT asserted) pwEvAlt)
    if asserted then endStore d else d

/-! ### Thermal stop (R460) -/

/-- THERMAL_STOP: every burst enable falls, every output goes idle, and domains 2 to 55 are switched off. (log 136: DEDUCED, unsafe) -/
def thermalStop (d : Dev) (s : Mem) : Dev × Mem :=
  let d := toutsIdle (cutBursts (cutBursts d .a) .b)
  let d := setTrans (setPhase (setPwr d (fun h => { h with thermal := true, pend := 0 })) .idle) false
  let (d, s) := (switched.reverse.filter (fun n => domainOn d n || domainRetained d n)).foldl (fun a n => domainOff a.1 a.2 n false) (d, s)
  (setFlag d PWR_STATUS_WAKE_FAIL true, s)

/-! ### PWR_REQ (R24, R26, R362) -/

/-- PWR_REQ of one unit takes a value, range-checked (R24). -/
def putPwrReq (writer : Nat) (d : Dev) (u : Nat) (v : Nat) : Dev :=
  let r := unitAt u
  let a := if u = 0 ∨ 8 ≤ u ∧ r.domains.headD 0 < 2 then 2 else if v = 3 then 2 else v
  let d := if a = v then d else logClamp d writer r 0x14 1 0 v a
  setFld d (HDR_PWR_PWR_REQ r.base) a

/-- PWR_REQ_WRITE: a write of the power word of a unit, a group or the root; in Full and Trim the domains follow at once.
(log 137: DEDUCED, unsafe) -/
def pwrReqWrite (m : Master) (u : UnitIx) (value : Word) (d : Dev) : Dev :=
  guarded d m (HDR_PWR (unitAt u).base).ofs (fun d =>
    let d := putPwrReq m d u (getBits value 1 0)
    let v := fld d (HDR_PWR_PWR_REQ (unitAt u).base)
    let d := if u.val < 8 then forEach (leavesOf u) (fun d w => putPwrReq m d w v) d else d
    startTrim d)

/-! ### Commits naming PWR (R362, R366, R370) -/

/-- The target of a commit: where it does not carry PWR_CTL, the present one. -/
def commitTarget (d : Dev) (ws : List (Nat × Word)) : Nat :=
  match carried ws PWR_CTL with
  | some w => getBits w 1 0
  | none => if fullOrTrim d then 0 else pwrState d

/-- PWR refuses a commit: with a sequence in progress, for RUN with its clock failed, in thermal stop, and asleep where a commit is no
wake source. (log 132: DEDUCED, unsafe) -/
def pwrRefuses (d : Dev) (ws : List (Nat × Word)) : Bool :=
  let t := commitTarget d ws
  let wakes := !fullOrTrim d && (t == 0 || t == pwrHush && pwrState d == pwrKeep)
  flag d PWR_STATUS_TRANS || d.pwr.phase != .idle || d.pwr.thermal || t == 0 && clockFailed d
    || wakes && !regBit d PWR_WAKE_EN wakeTimed

/-- The commit's words have applied: its sequence starts. -/
def pwrApply (d : Dev) (target : Nat) : Dev :=
  if fullOrTrim d then (if target = 0 then startTrim d else beginEntry d target)
  else if target = pwrState d then d
  else if pwrState d = pwrHush ∧ target = pwrKeep then
    let d := keystoneKeep (setTrans (setPwr d (fun h => { h with target := pwrKeep, pend := 0 })) true)
    setPhase d (.off keepGivesUp)
  else wakeArrives d wakeTimed target

end Sys2Proof.Machine
end

