-- ==== Sys2Proof/Machine/Reset.lean ====
section
/-!
DEFINITION. Machine/Reset.lean: the reset kinds, the core watchdog, the release and the home preference (R421 to R433, spec/24), the
TAP and the I2C management target (R441, R442, spec/25). The steps of the boot that follow the PLLs are in Machine/Boot.lean.
-/

namespace Sys2Proof.Machine

def rkCold : Nat := 0
def rkSystem : Nat := 1
def rkFunction : Nat := 2
def rkCore : Nat := 3

def rsrcPorst : Nat := 0
def rsrcVddAo : Nat := 1
def rsrcResetN : Nat := 2
def rsrcFunction0 : Nat := 3
def rsrcI2c : Nat := 4
def rsrcCore : Nat := 5
def rsrcWatchdog : Nat := 6
def rsrcFlr : Nat := 7

def bootPhase (d : Dev) : Nat := fld d RST_STATUS_PHASE
def setBootPhase (d : Dev) (n : Nat) : Dev := setFld d RST_STATUS_PHASE n

/-- RST_CAUSE records a reset (R423). -/
def recordCause (d : Dev) (kind source interrupted : Nat) : Dev :=
  setFld (setFld (setFld d RST_CAUSE_KIND kind) RST_CAUSE_SOURCE source) RST_CAUSE_INTERRUPTED interrupted

/-! ### What a reset interrupts (R432) -/

def storeRuns (d : Dev) : Bool := flag d FWU_STATUS_STORING
def swapRuns (d : Dev) : Bool := flag d CLS_BANK_STATUS_DRAINING || d.commits.any (fun c => c.words.any (fun e => e.1 == CLS_BANK_SEL.ofs))

/-- The operations that a COLD or SYSTEM reset cuts short. (log 172: DEDUCED, unsafe) -/
def interrupts (d : Dev) : Nat :=
  boolBit (storeRuns d) + 2 * boolBit (flag d FWU_STATUS_ACTIVATING) + 4 * boolBit (switching d) + 8 * boolBit (swapRuns d)
    + 16 * boolBit d.fwu.saveWait + 32 * boolBit (flag d BST_STATUS_RUNNING)

/-! ### The start of the boot (R427) -/

/-- The boot takes one second at most; it counts from here. (log 168: DEDUCED, unsafe) -/
def countBoot (d : Dev) : Dev := startTimer { d with bootFrom := d.elapsed } .bootRelease ticksPerSec

/-- Step 2: domains 0 and 1 alone are on, and VOLT_FULL is requested. -/
def bootVoltage (d : Dev) : Dev :=
  let d := wrn (wrn d PWR_DOM_ON_LO 3) PWR_DOM_ON_HI 0
  avsRequest (setPhase (setBootPhase d 1) .bootAvs) (fld d PWR_VOLT_VOLT_FULL)

/-! ### COLD (R423, R424) -/

/-- What a COLD reset leaves: the reset values, the fuses, and what the block has sent. (log 165: DEDUCED, unsafe) -/
def coldDev (d : Dev) (source : Nat) : Dev :=
  let r := { Dev.reset with out := d.out, freeCount := d.freeCount, fwu := { FwuHw.reset with keyDigest := d.fwu.keyDigest } }
  let r := wrn (wrn r RNG_SN_LO (rdn d RNG_SN_LO)) RNG_SN_HI (rdn d RNG_SN_HI)
  let r := setFld r FWU_STATUS_ROLLBACK (fld d FWU_STATUS_ROLLBACK)
  let r := keepPins d (keepPins d r .a) .b
  countBoot (recordCause r rkCold source (interrupts d))

/-- Flash keeps its contents; the DRAM and the memories of the cores lose theirs. -/
def coldMem (s : Mem) : Mem := { s with dram := [], core := [] }

/-- PORST: PORST_N rises. -/
def porst (d : Dev) (s : Mem) : Dev × Mem := (coldDev d rsrcPorst, coldMem s)

/-- VDD_AO_LOSS. -/
def vddAoLoss (d : Dev) (s : Mem) : Dev × Mem := (coldDev d rsrcVddAo, coldMem s)

/-- REF_FIRST_EDGE (R422): the device takes the reference that shows an edge, and the boot runs. -/
def refFirstEdge (ref : RefClock) (d : Dev) : Dev :=
  if bootPhase d = 0 ∧ !d.kst.refsRunning then bootVoltage (refReturn ref d) else d

/-! ### SYSTEM (R423, R424) -/

/-- A register word that a SYSTEM reset keeps: those of KST and TTD, and the counts of RST. -/
def systemKeeps (ofs : Nat) : Bool :=
  (decide (0x200000 ≤ ofs) && decide (ofs < 0x240000)) || (decide (0x300000 ≤ ofs) && decide (ofs < 0x400000))
    || (decide (0x110080 ≤ ofs) && decide (ofs < 0x110090))

/-- The stop latch of a line and the state it holds the line in. -/
def keepStop (old d : Dev) (x : Line) : Dev :=
  if flag old (RNG_Lx_STATUS_STOP_LATCH x.ix) then
    let d := setFlag d (RNG_Lx_STATUS_STOP_LATCH x.ix) true
    if termState old x = stStopped then setFld d (RNG_Lx_STATUS_STATE x.ix) stStopped else d
  else d

/-- What a SYSTEM reset leaves before the boot runs. Both domains become IDLE at once, so a tracking servo finds no other domain GOOD
and enters HOLDOVER (R54). (log 170: DEDUCED, unsafe; log 171: DEDUCED, unsafe) -/
def systemDev (d : Dev) (source : Nat) : Dev :=
  let r := { Dev.reset with
    regs := d.regs.filter (fun e => systemKeeps e.1)
    applied := d.applied.filter (fun e => systemKeeps e.1)
    dirty := d.dirty.filter systemKeeps
    clock := d.clock
    elapsed := d.elapsed
    timers := d.timers.filter (fun e => e.1 == .prop)
    kst := d.kst
    ttd := d.ttd
    bootKeys := d.bootKeys
    freeCount := d.freeCount
    out := d.out
    jtag := d.jtag
    fwu := { FwuHw.reset with keyDigest := d.fwu.keyDigest }
    host := { HostHw.reset with bwEnd := windowEnd 1000 (now d) } }
  let r := wrn (wrn r RNG_SN_LO (rdn d RNG_SN_LO)) RNG_SN_HI (rdn d RNG_SN_HI)
  let r := setFld r FWU_STATUS_ROLLBACK (fld d FWU_STATUS_ROLLBACK)
  let r := setFlag (setFlag r CIP_STATUS_BOOT_SET_A (bootSet d .a)) CIP_STATUS_BOOT_SET_B (bootSet d .b)
  let r := setFlag r PWR_STATUS_PWR_ALT (flag d PWR_STATUS_PWR_ALT)
  let r := keepPins d (keepPins d (keepStop d (keepStop d r .a) .b) .a) .b
  let r := recordCause (count r RST_SYSTEM) rkSystem source (interrupts d)
  syncEvents (domainIdle (domainIdle r (selDom r).other) (selDom r))

/-- A SYSTEM reset: domains 2 to 55 are off, and the boot runs from its step 2. In thermal stop, and before the first edge of a
reference, it changes nothing. (log 169: DEDUCED, unsafe) -/
def systemReset (source : Nat) (d : Dev) (s : Mem) : Dev × Mem :=
  if d.pwr.thermal || bootPhase d == 0 then (d, s) else (bootVoltage (countBoot (systemDev d source)), coldMem s)

/-- RESET_N: low for 1 µs, and high again. -/
def resetN (d : Dev) (s : Mem) : Dev × Mem := systemReset rsrcResetN d s

/-! ### CORE (R426) -/

/-- The cores are loaded again from the running slot and start at the warm entry; a store ends unsealed. (log 174: DEDUCED, unsafe) -/
def coreReset (source : Nat) (d : Dev) (s : Mem) : Dev × Mem :=
  if flag d FWU_STATUS_ACTIVATING then (setFwu d (fun h => { h with coreHeld := some source }), s)
  else if d.corePause || !domainOn d 49 then (d, s)
  else
    let d := recordCause (count d RST_CORE) rkCore source (boolBit (storeRuns d))
    let d := if flag d RST_STATUS_RELEASED then raiseRst d rsReset else d
    (endStore d, loadCores (runningImage d s) s)

/-- A CORE reset that waited for the end of an activation is carried out. -/
def heldReset (d : Dev) (s : Mem) : Dev × Mem :=
  match d.fwu.coreHeld with
  | some source => coreReset source (setFwu d (fun h => { h with coreHeld := none })) s
  | none => (d, s)

/-- The source that a master's write of RST_CTL names; none where the master may not ask for that reset. (log 175: DEDUCED, unsafe) -/
def resetSource (m : Master) (system : Bool) : Option Nat :=
  if m = 0 then some rsrcFunction0 else if m = i2cMaster then some rsrcI2c
  else if !system && 0x64 ≤ m && m < 0x68 then some rsrcCore else none

/-- A write of RST_CTL. -/
def rstCtlWrite (m : Master) (value : Word) (d : Dev) (s : Mem) : Dev × Mem :=
  if getBits value 15 0 ≠ 0xA5C3 ∨ !admits d m RST_CTL.ofs then (guarded d m RST_CTL.ofs (fun d => d), s)
  else if value.getLsbD 31 then
    match resetSource m true with
    | some source => systemReset source d s
    | none => (d, s)
  else if value.getLsbD 30 then
    match resetSource m false with
    | some source => coreReset source d s
    | none => (d, s)
  else (d, s)

/-- SYSTEM: a write with SYSTEM. -/
def systemWrite (m : Master) (value : Word) (d : Dev) (s : Mem) : Dev × Mem := rstCtlWrite m (value ||| 0x80000000) d s

/-- CORE: a write with CORE and without SYSTEM. -/
def coreWrite (m : Master) (value : Word) (d : Dev) (s : Mem) : Dev × Mem :=
  rstCtlWrite m ((value ||| 0x40000000) &&& 0x7FFFFFFF) d s

/-! ### The core watchdog (R426) -/

/-- The watchdog starts again; during an activation it stands still. (log 176: DEDUCED, unsafe) -/
def armWdt (d : Dev) : Dev :=
  let from' := if flag d FWU_STATUS_ACTIVATING then d.fwu.actFrom else d.elapsed
  { d with timers := (.wdt, from' + fld d RST_WDT_WDT_MS * ticksPerMs) :: d.timers.filter (fun e => e.1 != .wdt) }

/-- The time that an activation took is added to what the watchdog has left. -/
def resumeWdt (d : Dev) : Dev :=
  { d with timers := d.timers.map (fun e => if e.1 == .wdt then (e.1, e.2 + (d.elapsed - d.fwu.actFrom)) else e) }

/-- A write of RST_WDT. -/
def wdtWrite (m : Master) (value : Word) (d : Dev) : Dev :=
  guarded d m RST_WDT.ofs (fun d =>
    let was := flag d RST_WDT_EN
    let d := storeAt d m RST_WDT.ofs value
    if !flag d RST_WDT_EN then dropTimer d .wdt
    else if !was || value.getLsbD 30 then armWdt d else d)

/-- KICK: a write with KICK. -/
def kick (m : Master) (value : Word) (d : Dev) : Dev := wdtWrite m (value ||| 0x40000000) d

/-- WDT_EXPIRE: WDT_MS have passed without a KICK. -/
def wdtExpire (d : Dev) (s : Mem) : Dev × Mem :=
  if timerOver d .wdt && flag d RST_WDT_EN && !flag d FWU_STATUS_ACTIVATING then
    coreReset rsrcWatchdog (armWdt (raiseRst (count d RST_WDT_EXPIRE) rsWdt)) s
  else (d, s)

/-! ### FUNCTION (R425) -/

/-- Every register word of a range of BAR0 takes its reset value. -/
def clearRange (d : Dev) (a b : Nat) : Dev := { d with regs := d.regs.filter (fun e => decide (e.1 < a) || decide (b ≤ e.1)) }

/-- The registers of the host attachment take their reset values (R424), the assignments of R319 and the rights among them; the state
of the link stays, since the link is not reset. The key pages 8 to 63 are function 0's again (R187). -/
def resetHost (d : Dev) : Dev :=
  let d := forEach (List.range 56) (fun d p => setFld d (CIP_PAGEp_STATUS_OWNER (p + 8)) 0) d
  forEach (List.range 32) (fun d f => wr d (HIF_FNf_RIGHTS f) (HIF_FNf_RIGHTS f).rst)
  (clearRange d HIF_CFG.ofs 0x1000000)

/-- FUNCTION_RESET: an FLR of function 0. (log 173: DEDUCED, unsafe) -/
def functionReset (d : Dev) : Dev :=
  if !hostReaches d then d
  else
    let cut := 8 * boolBit (d.commits.any (fun c => decide (c.poster < 32) && c.words.any (fun e => e.1 == CLS_BANK_SEL.ofs)))
    let d := forEach (List.range 32) resetFunction d
    let d := setFlag { d with host := { d.host with chans := [], turn := 0 } } DMA_STATUS_HALTED false
    let d := forEach (List.range 0x60) releaseMaster d
    raiseRst (syncEvents (recordCause (count (resetHost d) RST_FUNCTION) rkFunction rsrcFlr cut)) rsReset

/-! ### Release and home preference (R427 to R431) -/

/-- The device is released: HOME_RUN starts, unless REG_EN of L-A is 0 (R431), and what was held is signalled. (log 59: DEDUCED, unsafe) -/
def releaseDevice (d : Dev) : Dev :=
  let d := dropTimer (wrn d RST_BOOT_MS ((d.elapsed - d.bootFrom) / ticksPerMs)) .bootRelease
  let d := setFlag (setBootPhase d 7) RST_STATUS_RELEASED true
  let d := if fld d RST_HOME_CFG_HOME_WAIT = 0 then d
    else setFlag (startTimer d .homeWait (fld d RST_HOME_CFG_HOME_WAIT * ticksPerSec)) RST_STATUS_HOME_RUN true
  let d := if flag d (RNG_Lx_CTL_REG_EN 0) then d else endHome d
  let d := if fld d RST_CAUSE_KIND = rkCold then d else raiseRst d rsReset
  flushVectors d

/-- BOOT_DONE: firmware writes RST_FW_DONE at step 7. -/
def bootDone (m : Master) (value : Word) (d : Dev) : Dev :=
  guarded d m RST_FW_DONE.ofs (fun d =>
    if value.getLsbD 31 && 0x64 ≤ m && m < 0x68 && bootPhase d == 6 then releaseDevice d else d)

/-- BOOT_RELEASE_TIMEOUT: 1,000 ms have passed; without an image NO_FW is set. -/
def bootReleaseTimeout (d : Dev) : Dev :=
  if timerOver d .bootRelease && (bootPhase d == 5 || bootPhase d == 6) then
    releaseDevice (setFlag d RST_STATUS_NO_FW (fld d RST_STATUS_BOOT_SLOT == 3))
  else d

/-- HOME_WAIT_EXPIRE. -/
def homeWaitExpire (d : Dev) : Dev := if timerOver d .homeWait then endHome (dropTimer d .homeWait) else d

/-! ### The management bus and the TAP (R441, R442) -/

/-- I2C_ABANDON: a transaction that is not complete changes nothing. (log 179: DESIGN CHOICE, safe) -/
def i2cAbandon (d : Dev) : Dev := d

/-- An instruction that takes control of the pins. -/
def takesPins (i : JtagInstr) : Bool := i == .extest || i == .clamp || i == .pins

/-- JTAG_INSTRUCTION: the TAP loads an instruction; low says that RESET_N is held low. (log 180: PRESUMED, unsafe) -/
def jtagInstruction (i : JtagInstr) (low : Bool) (d : Dev) : Dev :=
  { d with jtag := if i == .other || takesPins i && !low then .bypass else i }

end Sys2Proof.Machine
end

