-- ==== Sys2Proof/Machine/Activation.lean ====
section
/-!
DEFINITION. Machine/Activation.lean: the end of an activation (R401, spec/22) and the commands of FWU_CTL (R409).
-/

namespace Sys2Proof.Machine

/-! ### The end of an activation (R401) -/

/-- The activation is over with an outcome, which the slot's seal shows, so that PRELOADED clears (R400): the watchdog goes on, the
cores run, and a CORE reset that waited is carried out. -/
def endActivation (outcome : Nat) (d : Dev) (s : Mem) : Dev × Mem :=
  let d := setFlag (setFlag d FWU_STATUS_ACTIVATING false) FWU_STATUS_PRELOADED false
  let d := resumeWdt (setFld d FWU_STATUS_LAST_ACT outcome)
  let (d, s) := endPause d s
  heldReset d s

/-- ACT_CHECK_DONE: steps 2 and 3 on the copy. Where a check fails, the slot is rejected and the old image goes on. -/
def actCheckDone (d : Dev) (s : Mem) : Dev × Mem :=
  if flag d FWU_STATUS_ACTIVATING && !d.fwu.actLoaded then
    match imageFault d (dramImage s (fwuArea d)) true with
    | none => (d, s)
    | some c =>
      let (d, s) := rejectSlot (setFld d FWU_STATUS_CHECK c) s d.fwu.actSlot c
      endActivation 3 (raiseFwu (count d FWU_CHECK_FAIL) fwActFail) s
  else (d, s)

/-- Firmware writes ALIVE: the slot is activated and runs, and its records are to be applied (R407). (log 154: DEDUCED, unsafe) -/
def actAlive (d : Dev) (s : Mem) : Dev × Mem :=
  let slot := d.fwu.actSlot
  let s := clearSealByte s slot 20 0
  let d := setFlag (setFld d FWU_STATUS_RUNNING_SLOT slot) FWU_STATUS_RECOVERY false
  let d := raiseFwu (count (showSlot d s slot) FWU_ACTIVATIONS) fwActDone
  endActivation 1 (setFwu d (fun h => { h with recordsDue := true })) s

/-- NO_ALIVE: ALIVE_MS past 25 ms the old core section is loaded again from the FWU area, and the slot is rejected. -/
def noAlive (d : Dev) (s : Mem) : Dev × Mem :=
  if flag d FWU_STATUS_ACTIVATING && decide (d.fwu.actFrom + (25 + fld d FWU_CFG_ALIVE_MS) * ticksPerMs ≤ d.elapsed) then
    let s := if d.fwu.actLoaded then writeCore s 0 (readDram s (fwuCoreCopy d) (imgCoreLen (runningImage d s))) else s
    let (d, s) := rejectSlot (setFld d FWU_STATUS_CHECK 6) s d.fwu.actSlot 6
    endActivation 4 (raiseFwu d fwActFail) s
  else (d, s)

/-! ### FWU_CTL (R393, R400 to R402, R405, R409) -/

/-- A write of FWU_CTL: each command bit has its effect. -/
def fwuCtl (m : Master) (value : Word) (d : Dev) (s : Mem) : Dev × Mem :=
  if admits d m FWU_CTL.ofs then
    let d := if value.getLsbD 31 then confirmImage d s m else d
    let d := if value.getLsbD 30 then startPreload d else d
    let (d, s) := if value.getLsbD 29 then startSave d s else (d, s)
    let (d, s) := if value.getLsbD 28 && m == 0 then startOrigin d s else (d, s)
    if value.getLsbD 27 && 0x64 ≤ m && m < 0x68 && flag d FWU_STATUS_ACTIVATING && d.fwu.actLoaded then actAlive d s else (d, s)
  else (guarded d m FWU_CTL.ofs id, s)

/-- CONFIRM, PRELOAD, SAVE and ORIG_GO: the word is written with that bit. -/
def confirm (m : Master) (value : Word) (d : Dev) (s : Mem) : Dev × Mem := fwuCtl m (value ||| 0x80000000) d s
def preload (m : Master) (value : Word) (d : Dev) (s : Mem) : Dev × Mem := fwuCtl m (value ||| 0x40000000) d s
def save (m : Master) (value : Word) (d : Dev) (s : Mem) : Dev × Mem := fwuCtl m (value ||| 0x20000000) d s
def origGo (m : Master) (value : Word) (d : Dev) (s : Mem) : Dev × Mem := fwuCtl m (value ||| 0x10000000) d s

end Sys2Proof.Machine
end

