-- ==== Sys2Proof/Machine/Counters.lean ====
section
/-!
DEFINITION. Machine/Counters.lean: the writes that clear event counters, occupancy counting, bandwidth windows and the telemetry ring
(R411 to R420, spec/23). What adds to a counter is in Machine/Counting.lean; reads of the window are in Machine/Bus.lean.
-/

namespace Sys2Proof.Machine

/-! ### Clearing (R414) -/

/-- CNT_SEL_WRITE: a write of CNT_SELc zeroes the counter and its SAT bit. -/
def cntSelWrite (m : Master) (c : Fin 4096) (value : Word) (d : Dev) : Dev :=
  guarded d m (CNT_SELc c).ofs (fun d => cntClear (storeAt d m (CNT_SELc c).ofs value) c)

/-- A write of CNT_CTL: CLEAR for one counter, or for all. -/
def cntCtlWrite (m : Master) (value : Word) (d : Dev) : Dev :=
  guarded d m CNT_CTL.ofs (fun d =>
    if !bitOf value.toNat 31 then d
    else if bitOf value.toNat 30 then forEach (List.range 4096) cntClear d
    else cntClear d (getBits value 11 0))

/-- CNT_CLEAR: CLEAR without ALL. -/
def cntClearOne (m : Master) (c : Fin 4096) (d : Dev) : Dev := cntCtlWrite m (BitVec.ofNat 32 (0x80000000 + c)) d

/-- CNT_CLEAR_ALL: CLEAR with ALL. -/
def cntClearAll (m : Master) (d : Dev) : Dev := cntCtlWrite m 0xC0000000 d

/-! ### Occupancy (R413) -/

/-- The occupancy that counter c compares; 0 while the source's domain is off. (log 181: DEDUCED, unsafe) -/
def watched (d : Dev) (c : Nat) : Nat :=
  let src := fld d (CNT_SELc_OCC_SRC c)
  let arg := fld d (CNT_SELc_ARG c)
  if src = 0 then (if domainOn d 33 then cellsOf (queueOf d arg) else 0)
  else if src = 1 then (if domainOn d 26 then fld d NRW_OCC_STAGED else 0)
  else if src = 2 then (if domainOn d 33 then heldCells d (fun _ f => f.pool == 1) else 0)
  else if domainOn d 47 ∧ ringKind d (arg % 1024) = kindCq then cqHeld d (arg % 1024) else 0

/-- The selectors that have been written: those of the counters that may count. -/
def liveCounters (d : Dev) : List Nat :=
  (d.regs.filter (fun e => decide (0x1410000 ≤ e.1) && decide (e.1 < 0x1418000) && e.1 % 8 == 0)).map (fun e => (e.1 - 0x1410000) / 8)

/-- The THRESH counters count one tick (R412). -/
def threshTick (d : Dev) : Dev :=
  if domainOn d 53 then
    forEach (liveCounters d) (fun d c =>
      if fld d (CNT_SELc_MODE c) = 3 ∧ fld d (CNT_THRc_N c) < watched d c then cntAdd d c 1 else d) d
  else d

/-! ### Bandwidth windows (R416, R417) -/

/-- A change of BW_WIN comes into force at a second boundary; the running accumulators go on. -/
def windowSecond (d : Dev) : Dev :=
  let w := fld d CNT_CFG_BW_WIN
  if w = d.host.bwWin then d
  else setFld { d with host := { d.host with
    bwWin := w
    bwEnd := if d.host.bwEnd ≤ now d then d.host.bwEnd else windowEnd w (now d) } } CNT_BW_INFO_BW_WIN w

/-- The accumulators are latched and restart, with the end instant and the mark of a step. -/
def latchWindow (d : Dev) (e : Nat) (stepped : Bool) : Dev :=
  let d := forEach (List.range 66) (fun d p =>
    wrPair (wrPair d (CNT_BWp_RX_LO p) (CNT_BWp_RX_HI p) (sget 0 d.host.bw (2 * p))) (CNT_BWp_TX_LO p) (CNT_BWp_TX_HI p)
      (sget 0 d.host.bw (2 * p + 1))) d
  let d := wrn (wrn d CNT_BW_END_SEC (e / nsPerSec)) CNT_BW_END_NS (e % nsPerSec)
  let d := setFld (setFlag d CNT_BW_INFO_STEPPED stepped) CNT_BW_INFO_BW_WIN d.host.bwWin
  let d := { d with host := { d.host with bw := [], bwStep := none, bwEnd := windowEnd d.host.bwWin (now d) } }
  raiseCnt d ctBw

/-- BW_WINDOW_END: a window end that device time has reached, or that a forward step has passed over. -/
def bwWindowEnd (d : Dev) : Dev :=
  if !domainOn d 53 then
    { d with host := { d.host with bwStep := none, bwEnd := windowEnd d.host.bwWin (now d) } }
  else match d.host.bwStep with
    | some e => latchWindow d e true
    | none => if d.host.bwEnd ≤ now d then latchWindow d d.host.bwEnd false else d

/-! ### The telemetry ring (R418, R419) -/

/-- The sums over channels of a line's second, its header failures, its health, its shortfall blocks and bursts in the second, and
its state. -/
def lineBlock (d : Dev) (x : Line) : List Byte :=
  let n := x.ix
  let sumCh (f : Nat → Reg) := sumOf (fun c => rdn d (f c)) (List.range 8)
  let words := [sumCh (DSF_CHc_SEC_FAW_ERR n), sumCh (DSF_CHc_SEC_FSB_CRC n), sumCh (DSF_CHc_SEC_FEC_CORR n),
    sumCh (DSF_CHc_SEC_FEC_UNCORR n), sumCh (DSF_CHc_SEC_GRANT_CRC n), rdn d (DSF_SEC_LU_HDR_ERR n), rdn d (SDL_Lx_HEALTH n),
    rdn d (UPB_SHORT_BLK n) - sget 0 d.host.tlmPrev (2 * n), rdn d (UPB_BURSTS n) - sget 0 d.host.tlmPrev (2 * n + 1),
    termState d x % 8]
  (words.map (leBytes 4)).flatten ++ List.replicate 24 0

/-- A pulse-return entry. -/
def pulseEntry (d : Dev) (p : Nat) : List Byte :=
  leBytes 4 (rdn d (TTD_PRn_ERR p)) ++ leBytes 4 (fld d (TTD_PRn_STATUS_RESULT p) * 64 + fld d (TTD_PRn_STATUS_STEPPED p) * 32
    + fld d (TTD_PRn_STATUS_ALARM p) * 16)

/-- The 2,048 bytes of a record (R419). -/
def telemetryBytes (d : Dev) (sec : Nat) (stepped : Bool) (mw : Nat) (temp : Int) : List Byte :=
  let flags := boolBit stepped + 4 * fld d PWR_STATUS_STATE + 16 * servo d + 64 * (selDom d).ix
    + 128 * boolBit (fld d KST_STATUS_HOLD_QUAL != 0)
  let summary := (d.bst.summary ++ List.replicate 40 0).take 40
  leBytes 4 (rdn d CNT_TLM_SEQ) ++ leBytes 6 sec ++ leBytes 1 flags ++ [0] ++ leBytes 4 mw ++ leBytes 2 (ofSigned 16 temp) ++ [0, 0]
    ++ leBytes 4 (rdn d ROOT_CLAMP_SEQ) ++ summary ++ lineBlock d .a ++ lineBlock d .b
    ++ ((List.range 64).map (pulseEntry d)).flatten ++ List.replicate 1344 0

/-- The shortfall blocks and bursts that the next record counts from, the boundary being done with. -/
def telemetryMarks (d : Dev) : Dev :=
  { clearMark d secTelemetry with
    host := { d.host with tlmPrev := [0, 1].foldl (fun m n =>
      sput 0 (sput 0 m (2 * n) (rdn d (UPB_SHORT_BLK n))) (2 * n + 1) (rdn d (UPB_BURSTS n))) d.host.tlmPrev } }

/-- What the other units leave at a second boundary for the record: the framers' copies, the summary of BST and the health reports
(R124, R200, R387). -/
def secondCopies (d : Dev) : Dev := healthReports (bstSummary (dsfSecondLatch .b (dsfSecondLatch .a d)))

/-- The record of second sec. -/
def recordSecond (sec : Nat) (stepped : Bool) (mw : BitVec 32) (temp : BitVec 16) (failed : Bool) (d : Dev) : Dev :=
  if !(flag d CNT_CFG_TLM_EN && domainOn d 53 && domainOn d 47) then telemetryMarks d
  else if failed then telemetryMarks (raiseCnt (count (setFlag d CNT_CFG_TLM_EN false) CNT_TLM_ERR) ctTlmErr)
  else
    let s := rdn d CNT_TLM_SEQ
    let base := fld d CNT_TLM_BASE_LO_ADDR * 4096 + 0x100000000 * rdn d CNT_TLM_BASE_HI
    let addr := base + 2048 * (s % 2 ^ fld d CNT_TLM_CFG_TLM_LOG)
    let d := emit d (.hostWrite 0 addr (telemetryBytes d sec stepped mw.toNat temp.toInt))
    let d := wrn (telemetryMarks d) CNT_TLM_SEQ (s + 1)
    if rdn d CNT_TLM_SEQ % fld d CNT_TLM_CFG_EVERY = 0 then signalVector d 0 (fld d CNT_TLM_CFG_VEC) else d

/-- TELEMETRY_RECORD: once for each second boundary reached, the record of the second that ended, with the device power in mW and the hottest temperature in 0.1 °C that
the monitors read; failed says that the write ends as in R334. (log 182: DEDUCED, unsafe) -/
def telemetryRecord (mw : BitVec 32) (temp : BitVec 16) (failed : Bool) (d : Dev) : Dev :=
  match secMark d secTelemetry with
  | some (sec, stepped) => recordSecond sec stepped mw temp failed (secondCopies d)
  | none => d

end Sys2Proof.Machine
end

