-- ==== Sys2Proof/Machine/Headers.lean ====
section
/-!
DEFINITION. Machine/Headers.lean: the unit header as it reads (R21, R23 to R26, R461 to R463, spec/02).
-/

namespace Sys2Proof.Machine

/-! ### STATUS -/

/-- PWR_STATE of a leaf unit (R461): in transition while any of its domains is, else on if any is on, else retained if any is. -/
def leafPower (d : Dev) (u : Nat) : Nat :=
  let ds := (unitAt u).domains
  if ds.any (inTransition d) then 3 else if ds.any (domainOn d) then 2 else if ds.any (domainRetained d) then 1 else 0

/-- PWR_STATE of any unit (R26). -/
def unitPower (d : Dev) (u : Nat) : Nat :=
  let ps := (leavesOf u).map (leafPower d)
  if ps.contains 3 then 3 else if ps.contains 2 then 2 else if ps.contains 1 then 1 else 0

/-- A unit with everything below it: the root with the groups and leaves, a group with its leaves (R26). -/
def subtree (u : Nat) : List Nat :=
  if u = 0 then List.range 8 ++ leavesOf u else if u < 8 then u :: leavesOf u else [u]

/-- The unit has left reset and its memories are tested (R427, R462). -/
def unitTested (d : Dev) (u : Nat) : Bool :=
  if (unitAt u).domains.any (fun n => decide (n < 2)) then decide (1 ≤ fld d RST_STATUS_PHASE)
  else decide (4 ≤ fld d RST_STATUS_PHASE)

/-- A slice holds the unit isolated (R381): a target that is a whole quad or line pipe stands for its unit. -/
def isolated (d : Dev) (u : Nat) : Bool :=
  let t := fld d BST_STATUS_TARGET
  flag d BST_STATUS_RUNNING && decide (28 ≤ t) && (targetUnits t).contains u

/-- READY of a leaf unit (R462). -/
def leafReady (d : Dev) (u : Nat) : Bool :=
  (unitAt u).domains.any (domainOn d) && unitTested d u && !isolated d u && !d.bst.unready.contains u

def unitBase (u : Nat) : Nat := (unitAt u).base

/-- STATUS as it reads: the leaf's own bits, or those of the subtree (R26), which takes in a group's own CLAMPED and the root's own
FAULT. (log 11: DEDUCED, unsafe) -/
def statusWord (d : Dev) (u : Nat) : Word :=
  let us := subtree u
  let ls := leavesOf u
  let any (f : Nat → Fld) : Nat := boolBit (us.any (fun v => flag d (f (unitBase v))))
  BitVec.ofNat 32 (128 * any HDR_STATUS_FAULT
    + 64 * boolBit (ls.all (fun v => flag d (HDR_STATUS_RETIRED (unitBase v))))
    + 32 * any HDR_STATUS_SPARE_IN_USE + 16 * any HDR_STATUS_CLAMPED
    + 8 * boolBit (ls.all (leafReady d)) + unitPower d u)

/-! ### The other words -/

/-- The masters that lie in a unit (R463): a first ID and how many. -/
def mastersOf (u : Nat) : List Nat :=
  if u = 62 then List.range 32
  else if u = 63 then (List.range 64).map (· + 0x20)
  else if u = 64 then (List.range 4).map (· + 0x60)
  else if u = 59 then (List.range 4).map (· + 0x64)
  else if u = 17 then [0x68, 0x69]
  else if u = 66 then [0x6A, 0x6B]
  else []

/-- The freeze summary (R26, R463). -/
def freezeWord (d : Dev) (u : Nat) : Word :=
  let ms := (((leavesOf u).map mastersOf).flatten).filter (isFrozen d)
  BitVec.ofNat 32 (ms.length * 0x10000 + ms.foldl min 0xFF)

/-- The clamp summary (R26): the counts are summed with saturation. -/
def clampWord (d : Dev) (u : Nat) : Word :=
  if u < 8 then
    let n := (subtree u).foldl (fun a v => a + fld d (HDR_CLAMP_COUNT (unitBase v))) 0
    BitVec.ofNat 32 (boolBit (n != 0) * 0x80000000 + min n 0xFFFF * 256 + fld d (HDR_CLAMP_LAST_INDEX (unitBase u)))
  else rd d (HDR_CLAMP (unitBase u))

/-- The window-relative offset of the child table: 0x1000 in the root (R38). (log 6: DESIGN CHOICE, unsafe) -/
def childTable (u : Nat) : Nat := if u = 0 then 0x1000 else if u < 8 then 0x40 else 0

/-- VERDICT (R26) and ELIGIBLE. -/
def bstWord (d : Dev) (u : Nat) : Word :=
  let v := worstVerdict ((leavesOf u).map (fun w => fld d (HDR_BST_VERDICT (unitBase w))))
  BitVec.ofNat 32 (v * 16 + 8 * boolBit (unitAt u).eligible)

/-- A header word as it reads; 0 at the reserved offsets. (log 5: DESIGN CHOICE, unsafe) -/
def unitHeader (d : Dev) (u rel : Nat) : Word :=
  let r := unitAt u
  if rel = 0x00 then BitVec.ofNat 32 (r.kind * 0x10000 + r.inst * 0x100 + 0xA1)
  else if rel = 0x04 then
    BitVec.ofNat 32 (r.winLog * 0x1000000 + (if u = 0 then 0 else if u < 8 then 1 else 2) * 0x10000 + (childrenOf u).length)
  else if rel = 0x08 then BitVec.ofNat 32 (childTable u)
  else if rel = 0x0C then (if u = 0 then 0x3FFFFFF else BitVec.ofNat 32 (unitBase r.parent))
  else if rel = 0x10 then statusWord d u
  else if rel = 0x14 then rd d (HDR_PWR r.base) ||| BitVec.ofNat 32 (r.domains.headD 0 * 256)
  else if rel = 0x18 then bstWord d u
  else if rel = 0x1C then freezeWord d u
  else if rel = 0x20 then clampWord d u
  else 0

/-- A word of the child table (R21), k words into it. -/
def childWord (u k : Nat) : Word :=
  match (childrenOf u)[k / 2]? with
  | none => 0
  | some c => if k % 2 = 0 then BitVec.ofNat 32 (unitBase c) else BitVec.ofNat 32 ((unitAt c).kind * 0x10000 + (unitAt c).inst * 0x100)

/-! ### Writes -/

/-- A write of STATUS: CLAMPED clears, in every unit of the subtree (R26). -/
def clearClamped (d : Dev) (u : Nat) (value : Word) : Dev :=
  if value.getLsbD 4 then
    forEach (subtree u) (fun d v => setFlag d (HDR_STATUS_CLAMPED (unitBase v)) false) d
  else d

end Sys2Proof.Machine
end

