-- ==== Sys2Proof/Machine/TimePorts.lean ====
section
/-!
DEFINITION. Machine/TimePorts.lean: the clock of each server port, pulse return, event inputs, time outputs and neighbour
comparison (R300 to R312, spec/17; TIME_REQ and TIME_RESP R391, spec/22).
-/

namespace Sys2Proof.Machine

/-! ### The messages of a port's own clock (R301, R304) -/

def clockId (d : Dev) : Nat := rdPair d TTD_CLOCK_ID_LO TTD_CLOCK_ID_HI

/-- The port sends messages of its own: LOCAL, with a clock identity, and not in FREE (R301). -/
def portSpeaks (d : Dev) (p : Nat) : Bool := portMode d p == modeLocal && clockId d != 0 && servo d != servoFree

/-- The second byte of flagField: in TRACK the flags of the selected line's anchors, else UTC_VALID and the leap flags as last
held (R301). -/
def ptpFlags (d : Dev) : Nat :=
  let f := if servo d = servoTrack then (d.anchorSet.get (selDom d)).flags.toNat else d.ttd.flags
  let track (b : Nat) : Bool := servo d == servoTrack && bitOf f b
  8 + boolBit (bitOf f 1) + 2 * boolBit (bitOf f 2) + 4 * boolBit (bitOf f 0) + 16 * boolBit (track 3) + 32 * boolBit (track 4)

/-- A signed field as the byte of logMessageInterval. -/
def logByte (v : Nat) : List Byte := [BitVec.ofInt 8 (toSigned 4 v)]

/-- A message: type, correctionField, sequenceId, controlField, logMessageInterval and body (IEEE 1588-2019). (log 90: PRESUMED, unsafe) -/
def ptpMessage (d : Dev) (p type : Nat) (corr : Int) (seq control : Nat) (log : List Byte) (body : List Byte) : List Byte :=
  [BitVec.ofNat 8 type, 0x12] ++ beBytes 2 (34 + body.length) ++ beBytes 1 (fld d TTD_PTP_CFG_DOMAIN) ++ [0, 0]
    ++ beBytes 1 (ptpFlags d) ++ beBytes 8 (ofSigned 64 corr) ++ [0, 0, 0, 0] ++ beBytes 8 (clockId d) ++ beBytes 2 (p + 1)
    ++ beBytes 2 seq ++ beBytes 1 control ++ log ++ body

/-- A PTP timestamp: 48-bit seconds and whole ns. -/
def ptpTime (ns : Nat) : List Byte := beBytes 6 (ns / nsPerSec) ++ beBytes 4 (ns % nsPerSec)

def ip6Source (d : Dev) : List Byte :=
  beBytes 4 (rdn d (TTD_IP6_SRCj 3)) ++ beBytes 4 (rdn d (TTD_IP6_SRCj 2)) ++ beBytes 4 (rdn d (TTD_IP6_SRCj 1))
    ++ beBytes 4 (rdn d (TTD_IP6_SRCj 0))

/-- FF02::181. -/
def ip6Dest : List Byte := beBytes 16 0xFF020000000000000000000000000181

/-- The one's-complement checksum of some bytes. -/
def checksum16 (bs : List Byte) : Nat := 0xFFFF - sum16 bs

/-- The frame of a message in a transport, and where its PTP and UDP headers lie (R301). -/
def ptpFrame (d : Dev) (p transport : Nat) (event : Bool) (m : List Byte) : List Byte × Nat × List (Nat × Bool) :=
  let src := beBytes 6 (rdn d (MAC_LANEl_ADDR_LO (p / 4) (p % 4)) + 0x100000000 * fld d (MAC_LANEl_ADDR_HI_ADDR (p / 4) (p % 4)))
  let port := beBytes 2 (if event then 319 else 320)
  let udpLen := beBytes 2 (8 + m.length)
  if transport = 0 then
    let da := beBytes 6 (if flag d TTD_PTP_CFG_L2_ADDR then 0x0180C200000E else 0x011B19000000)
    (withFcs (da ++ src ++ beBytes 2 0x88F7 ++ m), 14, [])
  else if transport = 1 then
    let head (c : Nat) := [0x45, 0] ++ beBytes 2 (28 + m.length) ++ [0, 0, 0, 0, 1, 17] ++ beBytes 2 c ++ beBytes 4 (rdn d TTD_IP4_SRC)
      ++ [224, 0, 1, 129]
    (withFcs (beBytes 6 0x01005E000181 ++ src ++ beBytes 2 0x0800 ++ head (checksum16 (head 0)) ++ port ++ port ++ udpLen ++ [0, 0] ++ m),
     42, [(34, false)])
  else
    let sum := checksum16 (ip6Source d ++ ip6Dest ++ [0, 0] ++ udpLen ++ [0, 0, 0, 17] ++ port ++ port ++ udpLen ++ [0, 0] ++ m)
    let head := [0x60, 0, 0, 0] ++ udpLen ++ [17, 1] ++ ip6Source d ++ ip6Dest
    (withFcs (beBytes 6 0x333300000181 ++ src ++ beBytes 2 0x86DD ++ head ++ port ++ port ++ udpLen
      ++ beBytes 2 (if sum = 0 then 0xFFFF else sum) ++ m), 62, [(54, true)])

/-- A frame of the port's own clock. -/
def ownFrame (d : Dev) (p transport : Nat) (event : Bool) (m : List Byte) (launch : Option Nat) : BufFrame :=
  let (bs, o, udps) := ptpFrame d p transport event m
  { bytes := bs, src := .own p, pri := 0, pool := 1, tag := 0, page := 0,
    time := { ptp := some o, udps := udps, stamp := none, tagged := false, op := 0 }, launch := launch, tx := none, flags := 0,
    endpoint := 0xFFFFF }

/-- A message that is no Sync joins the Sync class queue through admission (R301, R303). -/
def sendOwn (d : Dev) (p : Nat) (f : BufFrame) : Dev := offer d { queue := syncQueue d p, frame := f, policer := none, entry := none }

/-! ### Sync and Announce (R301, R302, R311) -/

/-- The interval 2^v s in ns for a signed code of 4 bits. (log 92: DEDUCED, unsafe) -/
def logInterval (v : Nat) : Nat :=
  let z := toSigned 4 v
  if z < 0 then nsPerSec / 2 ^ z.natAbs else nsPerSec * 2 ^ z.natAbs

/-- The first instant of a schedule (every second boundary, and every interval after it within the second) after t, in ns. -/
def nextInstant (interval t : Nat) : Nat :=
  let s := t / nsPerSec * nsPerSec
  if interval < nsPerSec then s + ((t - s) / interval + 1) * interval else s + nsPerSec

/-- SYNC_PLACE: a launch instant of port p lies at most 20 µs ahead; its Sync goes into the Sync class queue, or is skipped while
the MAC holds (R302). (log 88: DEDUCED, unsafe; log 89: DEDUCED, unsafe) -/
def syncPlace (p : Fin 64) (d : Dev) : Dev :=
  let t := nextInstant (logInterval (fldA d (TTD_PORTp_CFG_LOG_SYNC p))) (now d)
  let held := match d.ttd.syncs.find? (fun e => e.1 == p.val) with
    | some (_, s, u) => s == d.kst.steps && u == t
    | none => false
  if !portSpeaks d p || !domainOn d (2 + p / 4) || now d + 20000 < t || held || syncWaits d p == some t then d
  else
    let d := setTtd d (fun h => { h with syncs := (p.val, d.kst.steps, t) :: h.syncs.filter (fun e => e.1 != p.val) })
    let cls := fldA d (TTD_PORTp_CFG_SYNC_CLASS p)
    if txHold d p || macHolds d p cls then raiseTtd (count d (TTD_PORTp_SYNC_SKIP p)) tdSyncSkip
    else
      let m := ptpMessage d p 0 0 0 0 (logByte (fldA d (TTD_PORTp_CFG_LOG_SYNC p))) (ptpTime t)
      let f := ownFrame d p (fld d TTD_PTP_CFG_TRANSPORT) true m (some t)
      let q := syncQueue d p
      afterChange (putQueue d q (queueOf d q ++ [f])) f

/-- An instant in ns lies in the present tick, and device time has not stepped onto it (R311). -/
def inThisTick (d : Dev) (t : Nat) : Bool :=
  decide (t * unitsPerNs ≤ d.clock.units) && decide (d.clock.units < t * unitsPerNs + rdPair d KST_FREQ_LO KST_FREQ_HI)
    && d.kst.stepTick != some d.elapsed

/-- The Announce dataset (R304). -/
def announceBody (d : Dev) : List Byte :=
  let a := d.anchorSet.get (selDom d)
  let prio1 := beBytes 1 (fld d TTD_PTP_CFG_PRIO1)
  let prio2 := beBytes 1 (fld d TTD_PTP_CFG_PRIO2)
  let head (utc : Nat) := List.replicate 10 0 ++ beBytes 2 utc ++ [0] ++ prio1
  if servo d = servoTrack then
    head a.utc.toNat ++ beBytes 1 (fld d TTD_CLASS_CLASS_TRACK) ++ beBytes 1 a.accuracy.toNat ++ beBytes 2 a.variance.toNat ++ prio2
      ++ beBytes 8 a.identity.toNat ++ beBytes 2 (a.steps.toNat + 1) ++ [0x40]
  else
    head d.ttd.utc ++ beBytes 1 (fld d (if d.kst.holdAged then TTD_CLASS_CLASS_AGED else TTD_CLASS_CLASS_HOLD)) ++ [0xFE, 0xFF, 0xFF]
      ++ prio2 ++ beBytes 8 (clockId d) ++ [0, 0, 0xA0]

/-- ANNOUNCE_SEND: an Announce instant of port p lies in this tick (R301). -/
def announceSend (p : Fin 64) (d : Dev) : Dev :=
  let log := fldA d (TTD_PORTp_CFG_LOG_ANN p)
  let t := nextInstant (logInterval log) (now d)
  let last := if logInterval log < nsPerSec then t - logInterval log else t - nsPerSec
  if !portSpeaks d p || !inThisTick d last || d.ttd.anns.contains (p.val, d.elapsed) then d
  else
    let d := setTtd d (fun h => { h with anns := (p.val, d.elapsed) :: h.anns.filter (fun e => e.1 != p.val) })
    let (d, s) := takeSeq d p 0xB
    let m := ptpMessage d p 0xB 0 s 5 (logByte log) (announceBody d)
    sendOwn (count d (TTD_PORTp_ANN_TX p)) p (ownFrame d p (fld d TTD_PTP_CFG_TRANSPORT) false m none)

/-! ### Messages to the port's own clock (R303) -/

/-- The length a message type requires (IEEE 1588-2019). -/
def ptpLength (type : Nat) : Nat :=
  if type = 0x9 ∨ type = 0x2 ∨ type = 0x3 ∨ type = 0xA then 54 else if type = 0xB then 64 else if type = 0xD then 48 else 44

/-- A Delay_Req is answered in its own transport (R301, R303). -/
def delayResp (d : Dev) (p : Nat) (c : ClsFrame) (o : Nat) : Dev :=
  let bs := c.frame.bytes
  let t := c.frame.stamp.getD 0
  let corr := toSigned 64 (beNat (slice bs (o + 8) 8)) - ((t % 65536 : Nat) : Int)
  let (d, s) := takeSeq d p 0x9
  let m := ptpMessage d p 0x9 corr s 3 (logByte (fldA d (TTD_PORTp_CFG_LOG_DREQ p))) (ptpTime (t / 65536) ++ slice bs (o + 20) 10)
  let transport := match c.parse.udps.getLast? with
    | none => 0
    | some (_, v6) => if v6 then 2 else 1
  sendOwn (count d (TTD_PORTp_DRESP_TX p)) p (ownFrame d p transport false m none)

/-- PTP_MSG_RX: the oldest message for a port's own clock (R303). (log 91: DEDUCED, unsafe) -/
def ptpMsgRx (d : Dev) : Dev :=
  match d.pkt.ptpIn with
  | [] => d
  | (p, ring, c) :: rest =>
    let d := setPkt d (fun k => { k with ptpIn := rest })
    let bad := count d (TTD_PORTp_PTP_BAD p)
    match c.parse.ptp with
    | none => bad
    | some o =>
      let bs := c.frame.bytes
      let type := ptpType bs o
      if byteAt bs (o + 1) % 16 ≠ 2 ∨ byteAt bs (o + 4) ≠ fld d TTD_PTP_CFG_DOMAIN ∨ beNat (slice bs (o + 2) 2) < ptpLength type then bad
      else if type = 1 then
        let d := count d (TTD_PORTp_DREQ_RX p)
        if portSpeaks d p then delayResp d p c o else d
      else if type = 0 ∨ type = 8 ∨ type = 9 ∨ type = 0xB then count d (TTD_PORTp_FOREIGN p)
      else if type = 0xC ∨ type = 0xD then offerHost d ring (hostFrame c.frame c.parse 0 0xFFFFF false)
      else bad

/-! ### Pulse return (R307, R308) -/

def prWindow (d : Dev) (i : Nat) : Option PrWindow := assocGet d.ttd.windows i
def setWindows (d : Dev) (f : List (Nat × PrWindow) → List (Nat × PrWindow)) : Dev := setTtd d (fun h => { h with windows := f h.windows })

/-- WIN_US in ns. -/
def prWin (d : Dev) : Nat := fld d TTD_PR_CFG_WIN_US * 1000

/-- PR_WINDOW_OPEN: the TDC of input i is armed from 1 µs before the window of the next second boundary (R307). -/
def prWindowOpen (i : Fin 64) (d : Dev) : Dev :=
  let s := (now d + prWin d + 1000) / nsPerSec
  if !flag d (TTD_PRn_CFG_EN i) || (prWindow d i).isSome || decide (s * nsPerSec + prWin d ≤ now d) then d
  else setWindows (setFlag d (KST_TDC_CAL_ARMED i) true) (fun w => assocSet w i.val { sec := s, steps := d.kst.steps, err := none })

/-- An edge of the polarity POL whose new level holds for 2 ns counts (R307, R309). -/
def edgeCounts (pol falling : Bool) (hold : Nat) : Bool := falling == pol && decide (2000 ≤ hold)

/-- e of an edge stamped t in units of 2^-16 ns (R307). -/
def prError (d : Dev) (i s : Nat) (t : Stamp) : Int :=
  (t.units16 : Int) - psTo16 (toSigned 16 (fld d (TTD_PRn_CFG_PR_CAL i))) - ((s * nsPerSec * 65536 : Nat) : Int)

/-- The edge's stamp lies in the window. -/
def inWindow (d : Dev) (w : PrWindow) (t : Stamp) : Bool :=
  !t.coarse && decide ((((t.units16 : Int) - ((w.sec * nsPerSec * 65536 : Nat) : Int)).natAbs) ≤ prWin d * 65536)

/-- PR_EDGE: an edge on input i, its direction, how long the new level holds in ps, and the bins after the present tick.
(log 95: DESIGN CHOICE, safe) -/
def prEdge (i : Fin 64) (falling : Bool) (hold bins : Nat) (d : Dev) : Dev :=
  if !flag d (TTD_PRn_CFG_EN i) || !edgeCounts (flag d (TTD_PRn_CFG_POL i)) falling hold then d
  else
    let d := if flag d (TTD_PRn_CFG_WAKE i) then wakeArrives d wakeTse 0 else d
    let t := stampOf d i bins
    match prWindow d i with
    | none => countFld d (TTD_PRn_STATUS_OUTSIDE i)
    | some w =>
      if inWindow d w t then
        if w.err.isSome then countFld d (TTD_PRn_STATUS_EXTRA i)
        else setWindows d (fun l => assocSet l i.val { w with err := some (prError d i w.sec t) })
      else countFld d (TTD_PRn_STATUS_OUTSIDE i)

/-- The result code of a window: NONE, OK, OVER or MISSING. -/
def prResult (d : Dev) (i : Nat) (w : PrWindow) : Nat :=
  if !flag d (TTD_PRn_CFG_EN i) then 0
  else match w.err with
    | none => 3
    | some e => if (e.natAbs : Int) ≤ ((fld d TTD_PR_CFG_SERVER_LIM * 65536 : Nat) : Int) then 1 else 2

/-- ERR of a report; where no edge came the value is open. (log 96: DEDUCED, safe) -/
def prErrWord (d : Dev) (w : PrWindow) : Dev × Nat :=
  match w.err with
  | some e => (d, ofSigned 32 (nearest e 256))
  | none => ({ d with freeCount := d.freeCount + 1 }, Config.freeValue d.freeCount)

/-- The effect of a result on MISS_RUN and the alarm; a window with a step neither raises nor clears an alarm (R308).
(log 97: DEDUCED, unsafe) -/
def prAlarms (d : Dev) (i res : Nat) (stepped : Bool) : Dev :=
  if res = 1 then
    let d := setFld d (TTD_PRn_STATUS_MISS_RUN i) 0
    if stepped then d else setFlag d (TTD_PRn_STATUS_ALARM i) false
  else if res = 2 then
    if stepped then d else raiseTtd (setFlag d (TTD_PRn_STATUS_ALARM i) true) tdPrAlarm
  else if res = 3 then
    let d := countFld d (TTD_PRn_STATUS_MISS_RUN i)
    let n := fld d (TTD_PRn_STATUS_MISS_RUN i)
    if stepped then d
    else
      let d := if n = 1 then raiseTtd d tdPrMissing else d
      if 3 ≤ n then setFlag d (TTD_PRn_STATUS_ALARM i) true else d
  else d

/-- PR_WINDOW_CLOSE: the window of input i is over (R308). -/
def prWindowClose (i : Fin 64) (d : Dev) : Dev :=
  match prWindow d i with
  | none => d
  | some w =>
    let stepped := w.steps != d.kst.steps
    let past := decide (w.sec * nsPerSec + prWin d ≤ now d)
    let left := stepped && decide (now d + prWin d + 1000 < w.sec * nsPerSec)
    if !past && !left then d
    else
      let d := setWindows (setFlag d (KST_TDC_CAL_ARMED i) false) (fun l => l.filter (fun e => e.1 != i.val))
      let res := prResult d i w
      let (d, e) := prErrWord d w
      let d := wrn (wrn d (TTD_PRn_ERR i) e) (TTD_PRn_SEC i) w.sec
      let d := setFlag (setFld d (TTD_PRn_STATUS_RESULT i) res) (TTD_PRn_STATUS_STEPPED i) stepped
      prAlarms d i res stepped

/-! ### Event inputs (R309) -/

def tevHw (d : Dev) (e : Nat) : TevHw := sget TevHw.reset d.ttd.tevs e
def setTev (d : Dev) (e : Nat) (h : TevHw) : Dev :=
  setFld (setTtd d (fun t => { t with tevs := sput TevHw.reset t.tevs e h })) (TTD_TEVe_STATUS_FILL e) h.fifo.length

/-- The instant of an edge that falls a number of bins of TDC t after the present tick, in ps of elapsed time (R7). -/
def edgeElapsed (d : Dev) (t bins : Nat) : Nat := 40000 * d.elapsed + bins * 40000 / fld d (KST_TDC_CAL_SPAN t)

/-- TEV_EDGE: an edge on input e, its direction, how long the new level holds in ps, and the bins after the present tick. -/
def tevEdge (e : Fin 4) (falling : Bool) (hold bins : Nat) (d : Dev) : Dev :=
  if !flag d (TTD_TEVe_CFG_EN e) || !edgeCounts (flag d (TTD_TEVe_CFG_POL e)) falling hold then d
  else
    let d := if flag d (TTD_TEVe_CFG_WAKE e) then wakeArrives d wakeTev 0 else d
    let t := stampOf d (64 + e) bins
    let h := tevHw d e
    let near := match h.last with
      | some l => decide (edgeElapsed d (64 + e) bins < l + 100000)
      | none => false
    if near then countFld d (TTD_TEVe_STATUS_LOST e)
    else if 16 ≤ h.fifo.length then raiseTtd (countFld d (TTD_TEVe_STATUS_LOST e)) tdTevOvf
    else setTev d e { fifo := h.fifo ++ [t], last := some (edgeElapsed d (64 + e) bins) }

/-- The oldest entry is taken into the four stamp registers; an empty FIFO leaves VALID 0 (R309). (log 98: DEDUCED, unsafe) -/
def tevTake (d : Dev) (e : Nat) : Dev :=
  match (tevHw d e).fifo with
  | [] => setFlag d (TTD_TEVe_SEC_HI_VALID e) false
  | t :: rest =>
    let d := setTev d e { tevHw d e with fifo := rest }
    let d := wrn d (TTD_TEVe_SEC_HI e) (0x80000000 + boolBit t.coarse * 0x40000000 + t.sec / 0x100000000 % 65536)
    wrn (wrn (wrn d (TTD_TEVe_SEC_LO e) t.sec) (TTD_TEVe_NS e) t.ns) (TTD_TEVe_FRAC e) t.frac16

/-! ### Time outputs (R310, R311) -/

def toutHw (d : Dev) (o : Nat) : ToutHw := sget ToutHw.reset d.ttd.touts o
def setTout (d : Dev) (o : Nat) (h : ToutHw) : Dev := setTtd d (fun t => { t with touts := sput ToutHw.reset t.touts o h })

/-- Log 100: DEDUCED, unsafe. -/
def toutMode (d : Dev) (o : Nat) : Nat := fldA d (TTD_TOUTo_CFG_MODE o)
def toutPol (d : Dev) (o : Nat) : Bool := fldA d (TTD_TOUTo_CFG_POL o) == 1
def toutWidth (d : Dev) (o : Nat) : Nat := fldA d (TTD_TOUTo_WIDTH_WIDTH o)

/-- Device time in units of 2^-16 ns. -/
def now16 (d : Dev) : Nat := d.clock.units / 0x100000000

/-- START in units of 2^-16 ns. -/
def toutStart (d : Dev) (o : Nat) : Nat :=
  ((fldA d (TTD_TOUTo_START_HI_VALUE o) * 0x100000000 + (rdA d (TTD_TOUTo_START_LO o)).toNat) * nsPerSec
    + fldA d (TTD_TOUTo_START_NS_NS o)) * 65536

/-- The programmed start instant at or before the present instant, in units of 2^-16 ns, if there is one. -/
def toutInstant (d : Dev) (o : Nat) : Option Nat :=
  let n := now16 d
  let start := toutStart d o
  if toutMode d o = 1 then
    let ofs := fldA d (TTD_TOUTo_START_NS_NS o) * 65536
    if ofs ≤ n then some ((n - ofs) / (nsPerSec * 65536) * (nsPerSec * 65536) + ofs) else none
  else if toutMode d o = 2 then
    let period := fldA d (TTD_TOUTo_PERIOD_NS_NS o) * 65536 + fldA d (TTD_TOUTo_PERIOD_FRAC_FRAC o)
    if start ≤ n ∧ 0 < period then some (start + (n - start) / period * period) else none
  else if toutMode d o = 3 then (if start ≤ n ∧ !(toutHw d o).fired then some start else none)
  else none

/-- An edge is placed at its instant plus CAL, in steps of 125 ps: the place in ps. -/
def toutPlace (d : Dev) (o at16 : Nat) : Nat :=
  (nearest ((at16 * 1000 : Nat) + toSigned 16 (fldA d (TTD_TOUTo_CFG_CAL o)) * 65536) (65536 * 125)).toNat * 125

def driveTout (d : Dev) (o : Nat) (level : Bool) (at16 : Nat) : Dev :=
  emit (setFlag d (TTD_TOUTo_STATUS_LEVEL o) level) (.tout o level (toutPlace d o at16))

/-- The pulse is over: at its end in device time, or WIDTH after its start where device time has stepped. -/
def pulseOver (d : Dev) (p : ToutPulse) : Bool :=
  match p.stop with
  | none => false
  | some t => if p.steps = d.kst.steps then decide (t ≤ now16 d) else decide (p.last ≤ d.elapsed)

/-- A pulse ends; ONE_SHOT has then run its programme. -/
def endPulse (d : Dev) (o at16 : Nat) : Dev :=
  let h := toutHw d o
  let d := driveTout (setTout d o { h with pulse := none }) o (toutPol d o) at16
  if toutMode d o = 3 ∧ h.fired then setFlag d (TTD_TOUTo_STATUS_RUNNING o) false else d

/-- A pulse starts at an instant. -/
def startPulse (d : Dev) (o at16 : Nat) : Dev :=
  let w := toutWidth d o
  let oneShot := toutMode d o = 3
  let p : ToutPulse := { stop := if w = 0 then none else some (at16 + w * 65536), steps := d.kst.steps, last := d.elapsed + ceilDiv w 40 }
  driveTout (setTout d o { pulse := some p, fired := oneShot, last := some d.elapsed }) o (!toutPol d o) at16

/-- TOUT_EDGE: the edge of output o that falls in the present tick is driven (R310). Nothing is driven while device time is stopped,
nor at an instant that a step passed over. (log 99: DEDUCED, unsafe) -/
def toutEdge (o : Fin 8) (d : Dev) : Dev :=
  if !d.kst.refsRunning then d
  else
    let h := toutHw d o
    match h.pulse with
    | some p =>
      if pulseOver d p then endPulse d o (if p.steps = d.kst.steps then p.stop.getD (now16 d) else now16 d) else d
    | none =>
      match toutInstant d o with
      | none => d
      | some t =>
        let here := decide (d.clock.units < t * 0x100000000 + rdPair d KST_FREQ_LO KST_FREQ_HI) && d.kst.stepTick != some d.elapsed
        if here && h.last != some d.elapsed && (toutWidth d o != 0 || toutMode d o == 3) then startPulse d o t else d

/-- A commit has changed the settings of output o: a pulse in progress completes under the old ones, one of unlimited width ends when
MODE changes (R310). -/
def toutProgram (oldMode : Nat) (d : Dev) (o : Nat) : Dev :=
  let h := toutHw d o
  let d := setFlag (setFlag d (TTD_TOUTo_STATUS_MISSED o) false) (TTD_TOUTo_STATUS_RUNNING o) (toutMode d o != 0)
  match h.pulse with
  | none => driveTout (setTout d o { h with fired := false }) o (toutPol d o) (now16 d)
  | some p =>
    if p.stop.isNone then
      if oldMode = toutMode d o then d
      else driveTout (setTout d o { h with pulse := none, fired := false }) o (toutPol d o) (now16 d)
    else setTout d o { h with fired := false }

/-- The output a TTD word belongs to. -/
def toutOf (ofs : Nat) : Option Nat := if 0x303100 ≤ ofs ∧ ofs < 0x303300 then some ((ofs - 0x303100) / 0x40) else none

/-- The words of a commit that names TTD have been applied; old gives the modes before (R310). -/
def ttdApply (old : Nat → Nat) (d : Dev) (ws : List (Nat × Word)) : Dev :=
  forEach ((ws.filterMap (fun e => toutOf e.1)).eraseDups) (fun d o => toutProgram (old o) d o) d

/-! ### Neighbour comparison (R312, R391) -/

def nbHw (d : Dev) (k : Nat) : NbHw := sget NbHw.reset d.ttd.nbs k
def setNb (d : Dev) (k : Nat) (h : NbHw) : Dev := setTtd d (fun t => { t with nbs := sput NbHw.reset t.nbs k h })

/-- A stamp at the Course lane boundary: 8 ns resolution (R312). (log 101: DEDUCED, unsafe) -/
def courseStamp (ns : Nat) : Nat := ns / 8 * 8

def nbOn (d : Dev) (k : Nat) : Bool := flag d (TTD_NBk_CFG_EN k) && linkUp d k

/-- TIME_REQ_SEND: one second after the last, a TIME_REQ goes to Course peer k (R391). -/
def timeReqSend (k : Fin 2) (d : Dev) : Dev :=
  let h := nbHw d k
  let due := match h.sentAt with
    | some t => decide (t + ticksPerSec ≤ d.elapsed)
    | none => true
  if nbOn d k && due then
    sendPdu (setNb d k { h with open' := some (h.seq, courseStamp (now d)), sentAt := some d.elapsed, seq := (h.seq + 1) % 0x10000 })
      k 0x10 (beBytes 2 h.seq)
  else d

/-- TIME_REQ: a request with its SEQ has arrived on link k; the answer leaves turn ns later (R391). -/
def timeReq (k : Fin 2) (sender : BitVec 64) (seq : BitVec 16) (turn : Nat) (d : Dev) : Dev :=
  if isFrozen d (courseMaster k) then d
  else sendPdu (heard d k sender) k 0x11 (beBytes 2 seq.toNat ++ ptpTime (courseStamp (now d)) ++ ptpTime (courseStamp (now d + turn)))

/-- θ of a completed exchange takes its register and counts for the alarm (R312). -/
def takeTheta (d : Dev) (k : Nat) (theta : Int) : Dev :=
  let h := nbHw d k
  let far := decide (fld d TTD_NB_CFG_NB_LIM < theta.natAbs)
  let h := { h with open' := none, overRun := if far then h.overRun + 1 else 0, within := if far then 0 else h.within + 1 }
  let d := wrn (setNb d k h) (TTD_NBk_OFS k) (ofSigned 32 theta)
  let d := countFld (setFlag d (TTD_NBk_STATUS_VALID k) true) (TTD_NBk_STATUS_COUNT k)
  if h.overRun = 3 then raiseTtd (setFlag d (TTD_NBk_STATUS_ALARM k) true) tdNbAlarm
  else if 3 ≤ h.within then setFlag d (TTD_NBk_STATUS_ALARM k) false
  else d

/-- TIME_RESP: the answer on link k, with its SEQ and the peer's stamps t2 and t3 (R312). -/
def timeResp (k : Fin 2) (sender : BitVec 64) (seq : BitVec 16) (t2s : BitVec 48) (t2 : BitVec 32) (t3s : BitVec 48) (t3 : BitVec 32)
    (d : Dev) : Dev :=
  if isFrozen d (courseMaster k) then d
  else
    let d := heard d k sender
    let h := nbHw d k
    match h.open' with
    | none => d
    | some (s, t1) =>
      if s ≠ seq.toNat ∨ !nbOn d k ∨ (h.sentAt.getD 0) + ticksPerSec < d.elapsed then d
      else
        let a : Int := ((t2s.toNat * nsPerSec + t2.toNat : Nat) : Int) - t1
        let b : Int := (courseStamp (now d) : Int) - ((t3s.toNat * nsPerSec + t3.toNat : Nat) : Int)
        takeTheta d k (nearest (a - b) 2 - toSigned 16 (fld d (TTD_NBk_CFG_NB_CAL k)))

/-- NB_TIMEOUT: an exchange is not complete within 1 s (R312). -/
def nbTimeout (k : Fin 2) (d : Dev) : Dev :=
  let h := nbHw d k
  if h.open'.isSome ∧ (h.sentAt.getD 0) + ticksPerSec ≤ d.elapsed then
    setFlag (setNb d k { h with open' := none }) (TTD_NBk_STATUS_VALID k) false
  else d

end Sys2Proof.Machine
end

