-- ==== Sys2Proof/Machine/Bus.lean ====
section
/-!
DEFINITION. Machine/Bus.lean: a read and a write of BAR0 (R19, R20, R31, R32, R36, R38, spec/02; R415, spec/23), with what the
registers of each unit do when they are read or written.
-/

namespace Sys2Proof.Machine

/-! ### The logs as they read -/

/-- Word k of an entry of the clamp log (R32). -/
def clampLogWord (d : Dev) (i k : Nat) : Word :=
  let e := sget ⟨0, 0, 0, 0, 0, 0, 0, 0, 0, 0, 0⟩ d.clampLog i
  BitVec.ofNat 32 (match k with
    | 0 => e.kind * 0x10000 + e.inst * 256 + e.writer
    | 1 => e.width * 0x2000000 + e.lsb * 0x100000 + e.ofs % 0x100000
    | 2 => e.written
    | 3 => e.applied
    | 4 => e.sec
    | 5 => e.sec / 0x100000000
    | 6 => e.ns
    | _ => e.seq)

/-- Word k of an entry of the result log (R78). -/
def commitLogWord (d : Dev) (i k : Nat) : Word :=
  let e := sget ⟨0, 0, 0, 0, 0, 0, 0⟩ d.commitLog i
  BitVec.ofNat 32 (match k with
    | 0 => e.id * 0x10000 + e.poster * 256 + e.outcome
    | 1 => e.unitBit * 0x10000000 + e.units
    | 2 => e.sec
    | _ => e.ns)

/-- A two-word log (R264, R268). -/
def pairLogWord (l : Sparse (Nat × Nat)) (i k : Nat) : Word :=
  let e := sget (0, 0) l i
  BitVec.ofNat 32 (if k = 0 then e.1 else e.2)

/-! ### A word as it reads -/

/-- A window offset that the chapters give to a table or a log and not to a register. (log 8: DEDUCED, unsafe) -/
def inTable (u rel : Nat) : Bool :=
  if u = 0 then decide (0x1000 ≤ rel ∧ rel < 0x1038) || decide (0x2000 ≤ rel ∧ rel < 0x4000)
  else if u < 8 then decide (0x40 ≤ rel ∧ rel < 0x40 + 8 * (childrenOf u).length)
  else if u = 9 then decide (0x2000 ≤ rel ∧ rel < 0x2400)
  else if u = 56 then decide (0x1000 ≤ rel ∧ rel < 0x1200) || decide (0x2000 ≤ rel ∧ rel < 0x2800)
  else false

def tableWord (d : Dev) (u rel : Nat) : Word :=
  if u = 0 ∧ 0x2000 ≤ rel then clampLogWord d ((rel - 0x2000) / 32) (rel % 32 / 4)
  else if u < 8 then childWord u ((rel - childTable u) / 4)
  else if u = 9 then commitLogWord d ((rel - 0x2000) / 16) (rel % 16 / 4)
  else if rel < 0x2000 then pairLogWord d.pkt.cmdLog ((rel - 0x1000) / 8) (rel % 8 / 4)
  else pairLogWord d.pkt.agedLog ((rel - 0x2000) / 8) (rel % 8 / 4)

/-- A register as it reads: its word, with the fields that show a state of the block held elsewhere; bits 8:6 of HIF_FNf_EVT_EN
are RSV for f other than 0 (R8, R335). -/
def regWord (d : Dev) (u : UnitRow) (rel : Nat) (row : RegRow) : Word :=
  let w := rd d (regAt u row rel)
  if u.kind = 0x20 ∧ row.ofs = 0x1000 then putBits w 29 29 (boolBit (tdcArmed d ((rel - 0x1000) / 4)))
  else if u.kind = 0x43 ∧ row.ofs = 0x1008 ∧ rel < 0x1100 then putBits w 31 24 0x64
  else if u.kind = 0x70 ∧ row.ofs = 0x1008 ∧ 0x1020 ≤ rel then putBits w 8 6 0
  else if u.kind = 0x70 ∧ row.ofs = 0x401c then putBits w 31 30 (ringState d ((rel - 0x4000) / 0x40))
  else if u.kind = 0x71 ∧ row.ofs = 0x44 then putBits w 6 0 (busyChannels d)
  else if u.kind = 0x71 ∧ row.ofs = 0x2000 then putBits w 31 29 (chanState d ((rel - 0x2000) / 16))
  else if u.kind = 0x72 ∧ row.ofs = 0x100c then putBits w 31 30 (bootState d ((rel - 0x1000) / 0x20))
  else if u.kind = 0x63 ∧ row.ofs = 0x2008 then BitVec.ofNat 32 (groupBytes d ((rel - 0x2000) / 0x20))
  else if u.kind = 0x42 ∧ row.ofs = 0x20000 then
    let x := apertureLine d
    sget 0 d.bitmaps (bmapKey x (1 - bmapInUse d x) ((rel - 0x20000) / 4))
  else if u.kind = 0x13 ∧ row.ofs = 0x1000 then
    let t := (rel - 0x1000) / 4
    putBits (putBits w 31 30 (targetState d t)) 15 0 (targetHours d t)
  else w

/-- The word at a BAR0 offset; 0 where no window or no register lies (R20). -/
def wordAt (d : Dev) (ofs : Nat) : Word :=
  match unitOf ofs with
  | none => 0
  | some i =>
    let u := unitAt i
    let rel := ofs - u.base
    if rel < 0x40 then unitHeader d i rel
    else if inTable i rel then tableWord d i rel
    else match rowAt u rel with
      | none => 0
      | some row => regWord d u rel row

/-! ### Reads (R20) -/

/-- The registers whose read latches the HI word behind them. -/
def latchesHi (kind row : Nat) : Bool :=
  if kind = 0x20 then row == 0x68
  else if kind = 0x30 ∨ kind = 0x31 then row == 0x1014 || row == 0x101c
  else if kind = 0x32 then row == 0x60
  else if kind = 0x43 then row == 0x4024 || row == 0x402c
  else if kind = 0x50 then row == 0x1030 || row == 0x1038
  else if kind = 0x51 then row == 0x1020 || row == 0x1028 || row == 0x1030 || row == 0x1038
  else if kind = 0x22 then row == 0x108
  else if kind = 0x13 then row == 0x4c
  else if kind = 0x75 then row == 0x20000 || row == 0x40000 || row == 0x40008
  else false

/-- The HI word at an offset is latched with the value it has now. (log 7: DEDUCED, unsafe) -/
def latchHi (d : Dev) (hi : Nat) : Dev := { d with latched := sins hi (wordAt d hi) (sdrop hi d.latched) }

/-- A read of the CNT window that a function may not make (R415). -/
def readDenied (d : Dev) (m : Master) (ofs : Nat) : Bool :=
  if m = 0 ∨ 0x20 ≤ m ∨ ofs < 0x1400000 ∨ 0x1500000 ≤ ofs then false
  else
    let rel := ofs - 0x1400000
    if fld d (HIF_FNf_RIGHTS_CNT_READ m) = 0 then true
    else if 0x10000 ≤ rel ∧ rel < 0x18000 then rel % 8 != 0 || fld d (CNT_SELc_OWNER ((rel - 0x10000) / 8)) != m
    else if 0x20000 ≤ rel ∧ rel < 0x28000 then fld d (CNT_SELc_OWNER ((rel - 0x20000) / 8)) != m
    else !(decide (0x40000 ≤ rel) && decide (rel < 0x40420))

/-- What a read of any byte of a word does beside its answer, and the word. -/
def readEffect (d : Dev) (ofs : Nat) : Dev × Word :=
  match unitOf ofs with
  | none => (d, 0)
  | some i =>
    let u := unitAt i
    let rel := ofs - u.base
    let row := ((rowAt u rel).map (·.ofs)).getD 0
    if u.kind = 0x22 ∧ row = 0x3008 then
      let d := tevTake d ((rel - 0x3000) / 0x20)
      (d, wordAt d ofs)
    else if latchesHi u.kind row then (latchHi d (ofs + 4), wordAt d ofs)
    else match d.latched.find? (fun e => e.1 == ofs) with
      | some e => (d, e.2)
      | none => (d, wordAt d ofs)

/-- The bytes of a word that a read from ofs on of size bytes addresses. -/
def laneMask (word ofs size : Nat) : Word :=
  (List.range 4).foldl (fun w b => if ofs ≤ word + b ∧ word + b < ofs + size then w ||| maskBits (8 * b + 7) (8 * b) else w) 0

/-- One read of a word by master m. (log 138: DEDUCED, unsafe) -/
def readWord (m : Master) (d : Dev) (word : Nat) (mask : Word) : Dev :=
  if readDenied d m word then emit (count d CNT_READ_DENIED) (.readData m word 0)
  else
    let (d, w) := readEffect d word
    emit d (.readData m word (w &&& mask))

/-- A read of size bytes from a BAR0 offset: each word it touches, lowest first. The host's reads reach the block only after release
and while its interface has power (R428). -/
def busRead (m : Master) (ofs size : Nat) (d : Dev) : Dev :=
  if m < 0x20 && !hostReaches d then d
  else
    let first := ofs / 4
    let n := (ofs + size + 3) / 4 - first
    forEach ((List.range n).map (fun k => 4 * (first + k))) (fun d w => readWord m d w (laneMask w ofs size)) d

/-- LO_READ_LATCH. -/
def loReadLatch (m : Master) (ofs : BitVec 26) (size : Nat) (d : Dev) : Dev := busRead m ofs.toNat size d

/-- TEV_SEC_HI_READ (R309). -/
def tevSecHiRead (m : Master) (e : Fin 4) (d : Dev) : Dev := busRead m (TTD_TEVe_SEC_HI e).ofs 4 d

/-- CNT_READ (R415): a read in the CNT window. -/
def cntRead (m : Master) (rel : Fin 0x100000) (d : Dev) : Dev := busRead m (0x1400000 + rel) 4 d

/-! ### Writes with an effect of their own -/

/-- Master m writes with the rights of function 0: function 0 itself, a main DMA channel that it owns (R339) and the rescue channel (R408). -/
def asFunction0 (d : Dev) (m : Master) : Bool :=
  m == 0 || m == 0x6A || m == 0x6B || (decide (0x20 ≤ m) && decide (m < 0x60) && fld d (HIF_DMACc_OWN_OWNER (m - 0x20)) == 0)

/-- FRZ_RELEASE (R36): one with function 0's rights releases the other masters, the management target function 0. (log 10: DEDUCED, unsafe) -/
def frzRelease (m : Master) (value : Word) (d : Dev) : Dev :=
  guarded d m ROOT_FRZ_RELEASE.ofs (fun d =>
    let k := getBits value 7 0
    if !value.getLsbD 31 then d
    else if asFunction0 d m then (if k ≠ 0 ∧ k ≤ 0x6B then releaseMaster d k else d)
    else if m = i2cMaster then (if k = 0 then releaseMaster d 0 else d)
    else d)

/-- TIME_CAPTURE (R42): the copy is made at the next tick. -/
def timeCapture (m : Master) (value : Word) (d : Dev) : Dev :=
  guarded d m KST_CAPTURE.ofs (fun d => if value.getLsbD 0 then { d with kst := { d.kst with capture := true } } else d)

/-- The range of a ring after its KIND or the word itself was written (R326, R327): RX_MAX is one field, a DMA ring names its
channel, and QCOUNT follows QBASE. (log 184: DEDUCED, unsafe) -/
def checkRange (d : Dev) (m : Master) (r : Nat) : Dev :=
  let reg := HIF_Rr_RANGE r
  let rel := reg.ofs - 0xF00000
  if ringKind d r = kindRx then
    let v := rdn d reg % 0x80000
    let a := min v 393216
    wrn (if a = v then d else logClamp d m (unitAt 62) rel 18 0 v a) reg a
  else if ringKind d r = kindDma then wrn d reg (rdn d reg % 64)
  else recheckField d m (unitAt 62) rel 0x4004 (HIF_Rr_RANGE_QCOUNT r)

/-- A write to the block of a ring (R319, R322 to R329). -/
def ringWrite (m : Master) (row r ofs : Nat) (value : Word) (d : Dev) : Dev :=
  if row = 0x4014 then ringCfgWrite m r value d
  else if row < 0x4014 ∧ ringState d r ≠ ringDisabled then d
  else if row = 0x4000 then checkRange (storeAt d m ofs value) m r
  else if row = 0x4004 ∧ (ringKind d r = kindRx ∨ ringKind d r = kindDma) then checkRange (wr d (HIF_Rr_RANGE r) value) m r
  else storeAt d m ofs value

/-- The width of a time output is checked again (R30, R310). -/
def recheckWidth (d : Dev) (m : Master) (o : Nat) : Dev :=
  let reg := TTD_TOUTo_WIDTH o
  let e := recheckField d m (unitAt 10) (reg.ofs - 0x300000) 0x3118 (TTD_TOUTo_WIDTH_WIDTH o)
  if rd e reg = rd d reg then e else { e with dirty := insSorted reg.ofs e.dirty }

/-- A write to LLA or LLB. -/
def lineWrite (m : Master) (x : Line) (row rel ofs : Nat) (value : Word) (d : Dev) : Dev :=
  if row = 0x40 then llTestModeWrite m x value d
  else if row = 0x50 then modIdCfg m x value d
  else if row = 0xc0 then modXfer m x value d
  else if row = 0x1008 then prbsWrite m (.chk (.line x (Fin.ofNat 8 ((rel - 0x1000) / 0x100)))) value d
  else if row = 0x1804 then prbsWrite m (.gen (.line x (Fin.ofNat 4 ((rel - 0x1800) / 0x100)))) value d
  else storeAt d m ofs value

/-- A write to CIP. -/
def cipWrite (m : Master) (row rel ofs : Nat) (value : Word) (d : Dev) : Dev :=
  if row = 0x44 then ctrLimitWrite m false value d
  else if row = 0x48 then ctrLimitWrite m true value d
  else if row = 0x100 then bootKeyWrite m .a (Fin.ofNat 8 ((rel - 0x100) / 4)) value d
  else if row = 0x120 then bootKeyWrite m .b (Fin.ofNat 8 ((rel - 0x120) / 4)) value d
  else if row = 0x1004 then saltWrite m (Fin.ofNat 64 ((rel - 0x1000) / 0x20)) value d
  else if row = 0x4000 then writeKeyWord d ((rel - 0x4000) / 0x40) (rel % 0x40 / 4) value
  else if row = 0x4020 then slotCtl m (Fin.ofNat 256 ((rel - 0x4000) / 0x40)) value d
  else storeAt d m ofs value

/-- A write to a server quad or its MAC. -/
def serverWrite (m : Master) (mac : Bool) (q row rel ofs : Nat) (value : Word) (d : Dev) : Dev :=
  let l := (rel - 0x1000) / 0x100
  if mac then
    (if row = 0x1000 then syncFlow (storeAt d m ofs value) (4 * q + l) else storeAt d m ofs value)
  else if row = 0x1000 then laneCfgWrite m (4 * q + l) value d
  else if row = 0x1008 then laneCtlWrite m (4 * q + l) value d
  else if row = 0x1014 then laneTxWrite m (4 * q + l) ofs value d
  else if row = 0x1020 then prbsWrite m (.gen (.server (Fin.ofNat 16 q) (Fin.ofNat 4 l))) value d
  else if row = 0x1024 then prbsWrite m (.chk (.server (Fin.ofNat 16 q) (Fin.ofNat 4 l))) value d
  else storeAt d m ofs value

/-- A write to the packet core. -/
def coreWriteReg (m : Master) (kind row ofs : Nat) (value : Word) (d : Dev) : Dev :=
  if kind = 0x61 then
    if row = 0x48 then storeAt (refillScan d) m ofs value
    else if row = 0x50 then ruleCtlWrite m value d
    else if row = 0x100 then patCtlWrite m value d
    else storeAt d m ofs value
  else if kind = 0x62 then
    if row = 0x44 ∨ row = 0x48 ∨ row = 0x4c then
      (if flag d ASH_CFG_FLOW_EN ∨ rdn d ASH_FLOWS ≠ 0 then d else storeAt d m ofs value)
    else if row = 0x80 then epCtlWrite m value d
    else if row = 0x140 then
      let d := storeAt d m ofs value
      if value.getLsbD 31 then ashCmdGo d else d
    else storeAt d m ofs value
  else if row = 0x4c ∨ row = 0x50 ∨ row = 0x54 ∨ row = 0x58 ∨ row = 0x1000 then
    forEach (List.range 64) syncFlow (syncPools (storeAt d m ofs value))
  else if row = 0x70 then qSelWrite m value d
  else if row = 0x200 then glCtlWrite m value d
  else storeAt d m ofs value

/-- A write to HIF, DMA or BDM. -/
def hostWriteReg (m : Master) (kind row rel ofs : Nat) (value : Word) (d : Dev) : Dev :=
  if kind = 0x70 then
    if row = 0x1000 ∧ rel = 0x1000 then d
    else if row = 0x2020 then keyOwnerChange m (Fin.ofNat 56 ((rel - 0x2020) / 4)) value d
    else if row = 0x2100 then dmaOwnerChange m (Fin.ofNat 64 ((rel - 0x2100) / 4)) value d
    else if 0x4000 ≤ row then ringWrite m row ((rel - 0x4000) / 0x40) ofs value d
    else storeAt d m ofs value
  else if kind = 0x71 then
    if row = 0x40 then dmaResume m value d
    else if row = 0x1000 then
      let f := (rel - 0x1000) / 8
      recheckField (storeAt d m ofs value) m (unitAt 63) (rel + 4) 0x1004 (DMA_FNf_DRAM_SIZE_SIZE f)
    else storeAt d m ofs value
  else if row = 0x1000 then bdmCtlWrite m ((rel - 0x1000) / 0x20) value d
  else storeAt d m ofs value

/-- A write to the units that keep time, lines and the terminal state. -/
def timeWriteReg (m : Master) (u : UnitRow) (row rel ofs : Nat) (value : Word) (d : Dev) : Dev :=
  if u.kind = 0x20 then
    if row = 0x48 then timeCapture m value d
    else if row = 0x64 then checkBase (storeAt d m ofs value) m
    else storeAt d m ofs value
  else if u.kind = 0x21 then
    if row = 0x100c then commitPost m (Fin.ofNat 36 ((rel - 0x1000) / 0x40)) value d
    else if row = 0x1014 then commitCancel m (Fin.ofNat 36 ((rel - 0x1000) / 0x40)) value d
    else storeAt d m ofs value
  else if u.kind = 0x22 then
    let d := storeAt d m ofs value
    if row = 0x3100 ∨ row = 0x3110 then recheckWidth d m ((rel - 0x3100) / 0x40) else d
  else if u.kind = 0x40 then
    if row = 0x1000 then regEnWrite m (Line.ofIx ((rel - 0x1000) / 0x400)) value d else storeAt d m ofs value
  else if u.kind = 0x41 then
    let d := storeAt d m ofs value
    let i := (rel - 0x1000) / 0x10
    if row = 0x1000 ∧ !flag d (NRW_ALLOCi_CFG_VALID i) then entryInvalid d i else d
  else if u.kind = 0x42 then
    if row = 0x20000 then bmapApertureWrite m (Fin.ofNat 32768 ((rel - 0x20000) / 4)) value d else storeAt d m ofs value
  else storeAt d m ofs value

/-- A write to the control units but for RST_CTL, FWU_CTL and ROOT_FRZ_RELEASE. -/
def controlWriteReg (m : Master) (kind row rel ofs : Nat) (value : Word) (d : Dev) : Dev :=
  if kind = 0x11 ∧ row = 0x50 then wdtWrite m value d
  else if kind = 0x11 ∧ row = 0x58 then bootDone m value d
  else if kind = 0x12 ∧ row = 0x78 then syncGasp (storeAt d m ofs value)
  else if kind = 0x73 ∧ row = 0x44 then hostLockWrite m value d
  else if kind = 0x73 ∧ row = 0x74 then
    let was := rd d FWU_DRAM_BASE
    let d := storeAt d m ofs value
    if rd d FWU_DRAM_BASE = was then d else setFlag d FWU_STATUS_PRELOADED false
  else if kind = 0x75 ∧ row = 0x10000 then cntSelWrite m (Fin.ofNat 4096 ((rel - 0x10000) / 8)) value d
  else if kind = 0x75 ∧ row = 0x54 then cntCtlWrite m value d
  else storeAt d m ofs value

/-- A write to a register of a unit, by the unit's kind. -/
def unitWrite (m : Master) (u : UnitRow) (row rel ofs : Nat) (value : Word) (d : Dev) : Dev :=
  let k := u.kind
  if k = 0x30 then lineWrite m .a row rel ofs value d
  else if k = 0x31 then lineWrite m .b row rel ofs value d
  else if k = 0x43 then cipWrite m row rel ofs value d
  else if k = 0x50 then serverWrite m false u.inst row rel ofs value d
  else if k = 0x51 then serverWrite m true u.inst row rel ofs value d
  else if 0x61 ≤ k ∧ k ≤ 0x63 then coreWriteReg m k row ofs value d
  else if 0x70 ≤ k ∧ k ≤ 0x72 then hostWriteReg m k row rel ofs value d
  else if 0x20 ≤ k ∧ k ≤ 0x44 then timeWriteReg m u row rel ofs value d
  else controlWriteReg m k row rel ofs value d

/-- A write to a unit header: CLAMPED, PWR_REQ, and START and ABORT. -/
def headerWrite (m : Master) (i : UnitIx) (rel : Nat) (value : Word) (d : Dev) : Dev :=
  if rel = 0x10 then clearClamped d i value
  else if rel = 0x14 then pwrReqWrite m i value d
  else if rel = 0x18 then
    let d := if value.getLsbD 0 then hdrBstStart m i d else d
    if value.getLsbD 1 then hdrBstAbort m i d else d
  else d

/-! ### Writes (R20) -/

/-- An aligned 32-bit write by master m. (log 12: DEDUCED, safe) -/
def bar0Write (m : Master) (ofs : Nat) (value : Word) (d : Dev) (s : Mem) : Dev × Mem :=
  if !admits d m ofs then (guarded d m ofs id, s)
  else match unitOf ofs with
    | none => (count d ROOT_BAD_ACCESS, s)
    | some i =>
      let u := unitAt i
      let rel := ofs - u.base
      if rel < 0x40 then (headerWrite m (Fin.ofNat 68 i) rel value d, s)
      else if inTable i rel then (d, s)
      else match rowAt u rel with
        | none => (count d ROOT_BAD_ACCESS, s)
        | some row =>
          if u.kind = 0x11 ∧ row.ofs = 0x40 then rstCtlWrite m value d s
          else if u.kind = 0x01 ∧ row.ofs = 0x50 then coreRestart d (frzRelease m value d) s
          else if u.kind = 0x73 ∧ row.ofs = 0x40 then fwuCtl m value d s
          else
            let d := unitWrite m u row.ofs rel ofs value d
            (if evtUnits.any (fun e => e.evt.ofs == ofs || e.en.ofs == ofs) then syncEvents d else d, s)

/-- A write of size bytes (R20): one aligned word, or two for 64 bits, lower address first; any other is discarded and counted where
the writer has the right. -/
def busWrite (m : Master) (ofs size : Nat) (value : BitVec 64) (d : Dev) (s : Mem) : Dev × Mem :=
  if ofs % 4 = 0 ∧ size = 4 then bar0Write m ofs (value.setWidth 32) d s
  else if ofs % 4 = 0 ∧ size = 8 then
    let (d, s) := bar0Write m ofs (value.setWidth 32) d s
    bar0Write m (ofs + 4) ((value >>> 32).setWidth 32) d s
  else (guarded d m ofs (fun d => count d ROOT_BAD_ACCESS), s)

end Sys2Proof.Machine
end

