-- ==== Sys2Proof/Machine/Rescue.lean ====
section
/-!
DEFINITION. Machine/Rescue.lean: the rescue channel of the Course (R33, R391, R408, spec/22).
-/

namespace Sys2Proof.Machine

def tyRescueReq : Nat := 0x20
def tyRescueResp : Nat := 0x21

/-- The body of a rescue message. -/
def rescueBody (target : BitVec 64) (hops code : Nat) (tag : BitVec 16) (ofs value : Word) : List Byte :=
  beBytes 8 target.toNat ++ beBytes 1 hops ++ beBytes 1 code ++ beBytes 2 tag.toNat ++ beBytes 4 ofs.toNat ++ beBytes 4 value.toNat

/-- A message that is not for this device goes on as it came, with HOPS_LEFT reduced (R393, R408). (log 160: DEDUCED, unsafe) -/
def forwardRescue (d : Dev) (k type : Nat) (sender : BitVec 64) (hops : Nat) (body : Nat → List Byte) : Dev :=
  match forwardLink d (1 - k) (hops - 1) with
  | some j =>
    let b := body (hops - 1)
    emit d (.course j ([0x10, BitVec.ofNat 8 type] ++ beBytes 2 b.length ++ beBytes 8 sender.toNat ++ b))
  | none => d

def forThis (d : Dev) (target : BitVec 64) : Bool := target.toNat == serialNumber d

/-- The answer to a request. -/
def answerRescue (d : Dev) (k : Nat) (requester : BitVec 64) (status : Nat) (tag : BitVec 16) (ofs value : Word) : Dev :=
  sendPdu d k tyRescueResp (rescueBody requester (fld d CRS_CFG_HOPS) status tag ofs value)

/-- A request that is carried out: a write of the word, or a read of the word at its offset, which acts as any read does (R20).
(log 161: DEDUCED, unsafe) -/
def carryOut (m : Master) (write : Bool) (ofs value : Word) (d : Dev) (s : Mem) : Dev × Mem × Word :=
  if write then
    let (d, s) := busWrite m ofs.toNat 4 (value.setWidth 64) d s
    (d, s, value)
  else
    let (d, w) := readEffect d (ofs.toNat / 4 * 4)
    (d, s, w)

/-- A request to this device violates the peer's rights (R33): a line is in Operate or Standby, or a key page would be written. -/
def rescueBreach (d : Dev) (m : Master) (target : BitVec 64) (write : Bool) (ofs : Word) : Bool :=
  forThis d target && flag d CRS_CFG_RESCUE_EN && (announces d .a || announces d .b || write && (writeCause d m ofs.toNat).isSome)

/-- RESCUE_REQ (R408): at its target it is carried out, refused, or freezes the peer; a violation of a peer that is frozen overwrites
its cause (R35). -/
def rescueReq (k : Fin 2) (sender target : BitVec 64) (hops : BitVec 8) (write : Bool) (tag : BitVec 16) (ofs value : Word)
    (d : Dev) (s : Mem) : Dev × Mem :=
  let m := courseMaster k
  if !linkUp d k then (d, s)
  else if isFrozen d m then (if rescueBreach d m target write ofs then freeze d m causeCourse ofs.toNat else d, s)
  else
    let d := heard d k sender
    if !forThis d target then
      (forwardRescue d k tyRescueReq sender hops.toNat (fun h => rescueBody target h (boolBit write) tag ofs value), s)
    else if !flag d CRS_CFG_RESCUE_EN then (answerRescue d k sender 1 tag ofs value, s)
    else if rescueBreach d m target write ofs then (freeze d m causeCourse ofs.toNat, s)
    else
      let (d, s, w) := carryOut m write ofs value (raiseCrs (count d CRS_RESCUE) crRescue) s
      (answerRescue d k sender 0 tag ofs w, s)

/-- RESCUE_RESP (R408): it travels on toward its requester; what the requester does with it is software's. -/
def rescueResp (k : Fin 2) (sender target : BitVec 64) (hops : BitVec 8) (status : BitVec 8) (tag : BitVec 16) (ofs value : Word)
    (d : Dev) : Dev :=
  if isFrozen d (courseMaster k) || !linkUp d k then d
  else
    let d := heard d k sender
    if forThis d target then d
    else forwardRescue d k tyRescueResp sender hops.toNat (fun h => rescueBody target h status.toNat tag ofs value)

end Sys2Proof.Machine
end

