-- ==== Sys2Proof/Machine/Boot.lean ====
section
/-!
DEFINITION. Machine/Boot.lean: the steps of the boot from the last domain on (R427, spec/24), memory self-test (R376, R377, spec/21),
the full boot (R399) and the configuration records (R407, spec/22).
-/

namespace Sys2Proof.Machine

/-! ### Configuration records (R407) -/

/-- A record's pairs of a window offset and a value. -/
def pairsOf : Nat → List Byte → List (Nat × Word)
  | 0, _ => []
  | n + 1, bs => if bs.isEmpty then [] else
      (beNat (bs.take 4) % 0x100000, BitVec.ofNat 32 (beNat ((bs.drop 4).take 4))) :: pairsOf n (bs.drop 8)

/-- The pairs are written through their registers by core 0. A register that a control core may not write is left out. -/
def writePairs (u : UnitRow) (ps : List (Nat × Word)) (d : Dev) (s : Mem) : Dev × Mem :=
  ps.foldl (fun a p =>
    if (writeCause a.1 0x64 (u.base + p.1)).isSome then a else bar0Write 0x64 (u.base + p.1) p.2 a.1 a.2) (d, s)

/-- The record in force for a unit is applied, migrated or left. -/
def applyRecord (version : Nat) (u : UnitRow) (d : Dev) (s : Mem) : Dev × Mem :=
  match inForce (allRecords s) u.kind u.inst with
  | none => (d, s)
  | some r =>
    if version < r.version then (raiseFwu (count d FWU_REC_NEWER) fwRecNewer, s)
    else
      let before := rdn d ROOT_CLAMP_SEQ
      let (d, s) := writePairs u (pairsOf 508 (r.bytes.drop 16)) d s
      if r.version = version then (d, s)
      else
        let clamped := (rdn d ROOT_CLAMP_SEQ + 0x100000000 - before) % 0x100000000
        saveUnit u (countFldBy (countFld d FWU_MIG_RECORDS) FWU_MIG_CLAMPED clamped) s

/-- The image applies the records at its first start. (log 150: DEDUCED, unsafe) -/
def applyRecords (d : Dev) (s : Mem) : Dev × Mem :=
  let bad := ((allRecords s).filter (fun r => !r.ok)).length
  let d := wrn (countBy (setFwu d (fun h => { h with recordsDue := false })) FWU_REC_BAD bad) FWU_MIG 0
  (leavesOf 0).foldl (fun a u => applyRecord (imgRecVersion (runningImage d s)) (unitAt u) a.1 a.2) (d, s)

/-- Records that are due are applied once the cores run. -/
def applyDue (r : Dev × Mem) : Dev × Mem := if r.1.fwu.recordsDue && !coresHalted r.1 then applyRecords r.1 r.2 else r

/-- FRZ_RELEASE (R36). -/
def frzReleased (m : Master) (value : Word) (d : Dev) (s : Mem) : Dev × Mem := applyDue (coreRestart d (frzRelease m value d) s)

/-- REGISTER_WRITE (R20). -/
def registerWrite (m : Master) (ofs : BitVec 26) (size : Nat) (value : BitVec 64) (d : Dev) (s : Mem) : Dev × Mem :=
  applyDue (busWrite m ofs.toNat size value d s)

/-- ALIVE: the word is written with ALIVE; the activated image applies its records (R401, R407). -/
def alive (m : Master) (value : Word) (d : Dev) (s : Mem) : Dev × Mem := applyDue (fwuCtl m (value ||| 0x8000000) d s)

/-! ### Memory self-test (R376, R377) -/

/-- The consequence of unrepairable Narrows banks: the spare takes the place of one, and the others' granules leave service.
(log 178: DEDUCED, unsafe) -/
def loseBanks (d : Dev) (bad : Nat → Bool) : Dev :=
  let n := ((List.range 8).filter (fun b => bad (8 + b))).length
  let spare := n != 0 && !bad 16
  let d := setFlag d NRW_STATUS_SPARE_IN_USE spare
  let d := if spare then setFlag d (HDR_STATUS_SPARE_IN_USE (unitAt 20).base) true else d
  let d := setFld d NRW_STATUS_CAPACITY (8192 - 1024 * (n - boolBit spare))
  if bad 16 then setFld d (BST_TGTt_STATUS_STATE 27) 3 else d

/-- Memory self-test is done: the status word of each memory, the units whose other memories are unrepairable, and the segments of the
endpoint SRAM that are lost. -/
def mbistDone (tested : List Word) (faulty : List UnitIx) (segs : List (Fin 16)) (d : Dev) : Dev :=
  let d := forEach (List.range 21) (fun d m => wr d (BST_MEMm_STATUS m) (tested.getD m 0 &&& 0xC0FFFFFF)) d
  let bad (m : Nat) : Bool := fld d (BST_MEMm_STATUS_STATE m) == 2
  let d := setFlag (setFlag d BST_STATUS_MBIST_DONE true) BST_STATUS_MBIST_FAIL ((List.range 21).any bad)
  let d := if (List.range 21).any bad then raiseBst d bsMbistFail else d
  let faults := (if bad 17 || bad 18 then [56] else []) ++ (if bad 19 then [55] else []) ++ (if bad 20 then faulty.map (·.val) else [])
  let d := forEach faults (fun d u => setFlag d (HDR_STATUS_FAULT (unitAt u).base) true) d
  let d := setBst d (fun b => { b with
    unready := (if bad 19 then [55] else []) ++ (if bad 20 then faulty.map (·.val) else [])
    lostSegs := if bad 17 then segs.map (·.val) else [] })
  syncPools (loseBanks d bad)

/-! ### The full boot (R399) -/

/-- A slot that a boot may take, with its GEN. -/
def bootGen (s : Mem) (slot : Nat) : Option Nat := match sealOf s slot with
  | some q => if q.activated ∧ !q.rejected then some q.gen else none
  | none => none

/-- The slots to try, the highest GEN first. -/
def bootOrder (s : Mem) : List Nat :=
  match bootGen s 0, bootGen s 1 with
  | some a, some b => if a < b then [1, 0] else [0, 1]
  | some _, none => [0]
  | none, some _ => [1]
  | none, none => []

/-- The slots are tried in order: one that fails is rejected. -/
def trySlots : List Nat → Dev → Mem → Dev × Mem × Option Nat
  | [], d, s => (d, s, none)
  | slot :: rest, d, s =>
    match imageFault d (flashImage s (slotBase slot)) true with
    | none => (d, s, some slot)
    | some c =>
      let (d, s) := rejectSlot d s slot c
      trySlots rest d s

/-- The image that boots: 0 or 1 a slot, 2 the recovery image, 3 none. -/
def bootImage (d : Dev) (s : Mem) : Dev × Mem × Nat :=
  match trySlots (bootOrder s) d s with
  | (d, s, some slot) => (setFld d FWU_STATUS_RUNNING_SLOT slot, s, slot)
  | (d, s, none) =>
    if (imageFault d (flashImage s recoveryBase) false).isNone then (setFlag d FWU_STATUS_RECOVERY true, s, 2) else (d, s, 3)

/-- Steps 6 and 7 of R427: the full boot, the start of the cores and the records; without an image the cores stay halted. -/
def fullBoot (d : Dev) (s : Mem) : Dev × Mem :=
  let (d, s, image) := bootImage (showSlot (showSlot d s 0) s 1) s
  let d := setBootPhase (setFld d RST_STATUS_BOOT_SLOT image) 5
  if image = 3 then (d, s)
  else
    let s := loadCores (runningImage d s) s
    let (d, s) := endPause (setFwu (setBootPhase d 6) (fun h => { h with recordsDue := true })) s
    applyDue (d, s)

/-- DOMAIN_SWITCH_ON: the next domain is switched on (R372, R427); after the last of a boot its steps 5 to 7 follow, with what memory
self-test finds. (log 177: DEDUCED, unsafe) -/
def domainSwitchOn (tested : List Word) (faulty : List UnitIx) (segs : List (Fin 16)) (d : Dev) (s : Mem) : Dev × Mem :=
  match d.pwr.phase with
  | .bootOn (n :: ds) =>
    let d := switchOn d n
    if ds.isEmpty then fullBoot (setBootPhase (mbistDone tested faulty segs (setPhase d .idle)) 4) s
    else (setPhase d (.bootOn ds), s)
  | _ => wakeSwitchOn d s

end Sys2Proof.Machine
end

