-- ==== Sys2Proof/Machine/Transfers.lean ====
section
/-!
DEFINITION. Machine/Transfers.lean: what the two DMA engines share: the address spaces, the sides of a hop, and the accesses to the
unit tree, the DRAM, the flash and the core memories (R339 to R344, R354, R355, spec/19).
-/

namespace Sys2Proof.Machine

/-- An address space of a DMA engine (R339, R354). -/
inductive Space where
  | host | dram | unit | flash | core
deriving DecidableEq, Repr

def Space.size : Space → Nat
  | .host => 2 ^ 64
  | .dram => 2 ^ 32
  | .unit => 2 ^ 26
  | .flash => 0x8000000
  | .core => 0x800000

/-- How a side's address moves (R340): on, not at all, or around a buffer of 2^wrap bytes. -/
inductive Mode where
  | inc
  | fixed
  | circ (wrap : Nat)
deriving DecidableEq, Repr

/-- A side of a hop: its space, its address, its mode, the width of an access of a fixed side. -/
structure Side where
  space : Space
  addr : Nat
  mode : Mode
  width : Nat
deriving DecidableEq, Repr

/-- The base of a circular side's buffer. -/
def Side.base (x : Side) : Nat := match x.mode with
  | .circ w => x.addr / 2 ^ w * 2 ^ w
  | _ => x.addr

/-- The address of byte i of a transfer. -/
def Side.at' (x : Side) (i : Nat) : Nat := match x.mode with
  | .inc => x.addr + i
  | .fixed => x.addr + i % x.width
  | .circ w => x.base + (x.addr % 2 ^ w + i) % 2 ^ w

/-- The range a side covers for R342: first address and length. -/
def Side.covers (x : Side) (len : Nat) : Nat × Nat := match x.mode with
  | .inc => (x.addr, len)
  | .fixed => (x.addr, x.width)
  | .circ w => (x.base, 2 ^ w)

/-- The ranges that a side reads or writes. -/
def Side.touches (x : Side) (len : Nat) : List (Nat × Nat) := match x.mode with
  | .circ w =>
    let o := x.addr % 2 ^ w
    if 2 ^ w ≤ len then [(x.base, 2 ^ w)]
    else if o + len ≤ 2 ^ w then [(x.addr, len)]
    else [(x.addr, 2 ^ w - o), (x.base, o + len - 2 ^ w)]
  | _ => [x.covers len]

def Side.inside (x : Side) (len : Nat) : Bool := decide ((x.covers len).1 + (x.covers len).2 ≤ x.space.size)

/-- The two sides of a hop overlap (R342). -/
def overlaps (a b : Side) (len : Nat) : Bool :=
  a.space == b.space && decide ((a.covers len).1 < (b.covers len).1 + (b.covers len).2)
    && decide ((b.covers len).1 < (a.covers len).1 + (a.covers len).2)

/-- The words of BAR0 that a range touches. -/
def wordsOf (r : Nat × Nat) : List Nat := (List.range ((r.2 + 3) / 4)).map (fun k => r.1 / 4 * 4 + 4 * k)

/-- The cause a master's write to the ranges of a unit side would freeze it with, and where. -/
def rangeCause (d : Dev) (m : Master) (rs : List (Nat × Nat)) : Option (Nat × Nat) :=
  ((rs.map wordsOf).flatten.filterMap (fun a => (writeCause d m a).map (fun c => (c, a)))).head?

/-- The target at an address has power (R349). (log 121: DEDUCED, safe) -/
def targetPowered (d : Dev) (sp : Space) (a : Nat) : Bool := match sp with
  | .host => domainOn d 47
  | .dram => domainOn d (45 + a / 256 % 2)
  | .unit => match unitOf a with
    | some u => decide (u < 8) || leafPower d u == 2
    | none => true
  | .flash => true
  | .core => domainOn d (49 + a / 0x200000)

/-- n bytes at an address that are not in the unit tree. -/
def readSpace (s : Mem) (sp : Space) (a n : Nat) : List Byte := match sp with
  | .dram => readDram s a n
  | .flash => readFlash s a n
  | .core => readCore s a n
  | _ => []

/-- A word of the unit tree as master m reads it for the reader's rights r (R20, R317, R339). -/
def readUnit (d : Dev) (r : Master) (a : Nat) : Dev × Word :=
  if readDenied d r a then (count d CNT_READ_DENIED, 0) else readEffect d a

/-- The bytes from byte i of a side to the next boundary of 64 bytes, which is also where a circular buffer can end (R344). -/
def Side.room (x : Side) (i : Nat) : Nat := 64 - x.at' i % 64

/-- The length of a boot channel's access at byte i of n left: a word where a side is in the unit tree or fixed, else up to the next
boundary of either side (R353). (log 119: DEDUCED, unsafe) -/
def accessLen (x y : Side) (i n : Nat) : Nat :=
  let small (z : Side) : Bool := z.space == .unit || z.mode == .fixed
  if small x || small y then min 4 n else min n (min (x.room i) (y.room i))

/-- Bytes of a side's natural burst (R344): a word of the unit tree and of a fixed side, Max_Payload_Size for a write to host memory,
else 64; a circular buffer's end breaks it. (log 114: PRESUMED, unsafe) -/
def Side.burst (x : Side) (write : Bool) : Nat :=
  if x.space = .unit ∨ x.mode = .fixed then 4
  else if x.space = .host ∧ write then (match x.mode with
    | .circ w => min 128 (2 ^ w)
    | _ => 128)
  else 64

/-- The length of the access at byte i of n left: up to the side's next burst boundary (R344). -/
def Side.access (x : Side) (write : Bool) (i n : Nat) : Nat := min n (x.burst write - x.at' i % x.burst write)

/-- The pieces, as first byte and length, in which n bytes from byte i on lie in a side: two where they pass a boundary. -/
def Side.pieces (x : Side) (i n : Nat) : List (Nat × Nat) :=
  if n ≤ x.room i then [(i, n)] else [(i, x.room i), (i + x.room i, n - x.room i)]

/-- The first address of some bytes of a side whose target has no power (R349). (log 116: DEDUCED, unsafe) -/
def unpoweredAt (d : Dev) (x : Side) (i n : Nat) : Option Nat :=
  ((x.pieces i n).find? (fun p => !targetPowered d x.space (x.at' p.1))).map (fun p => x.at' p.1)

/-- Bytes written at byte i of a side: to host memory under function f's requester ID, in one request, or by master m. -/
def writeSide (m : Master) (f : Nat) (y : Side) (i : Nat) (bs : List Byte) (d : Dev) (s : Mem) : Dev × Mem :=
  let ps := (y.pieces i bs.length).map (fun p => (y.at' p.1, slice bs (p.1 - i) p.2))
  match y.space with
  | .host => (emit d (.hostWrite f (y.at' i) bs), s)
  | .dram => (d, ps.foldl (fun s p => writeDram s p.1 p.2) s)
  | .core => (d, ps.foldl (fun s p => writeCore s p.1 p.2) s)
  | .unit => bar0Write m (y.at' i) (BitVec.ofNat 32 (leNat bs)) d s
  | .flash => (d, s)

/-- Bytes read at byte i of a side: for host memory those that the host answers. -/
def readSide (reader : Master) (x : Side) (i n : Nat) (host : List Byte) (d : Dev) (s : Mem) : Dev × List Byte := match x.space with
  | .host => (d, (List.range n).map (fun k => host.getD k 0))
  | .unit =>
    let (d, w) := readUnit d reader (x.at' i)
    (d, leBytes n w.toNat)
  | sp => (d, ((x.pieces i n).map (fun p => readSpace s sp (x.at' p.1) p.2)).flatten)

/-- How a run of accesses ends: all bytes moved, the channel frozen, or a target without power. -/
inductive Moved where
  | all
  | frozen
  | unpowered (sp : Space) (addr : Nat)
deriving DecidableEq, Repr

/-- Move bytes i to stop of a hop, access by access; n bounds their number. Answers the bytes reached too. -/
def moveBytes (m reader : Master) (f : Nat) (x y : Side) (stop : Nat) :
    Nat → Nat → List Byte → Dev → Mem → Dev × Mem × Nat × Moved
  | 0, i, _, d, s => (d, s, i, .all)
  | n + 1, i, host, d, s =>
    if stop ≤ i then (d, s, i, .all)
    else if isFrozen d m then (d, s, i, .frozen)
    else
      let k := accessLen x y i (stop - i)
      match unpoweredAt d x i k, unpoweredAt d y i k with
      | some a, _ => (d, s, i, .unpowered x.space a)
      | none, some a => (d, s, i, .unpowered y.space a)
      | none, none =>
        let (d, bs) := readSide reader x i k host d s
        let (d, s) := writeSide m f y i bs d s
        moveBytes m reader f x y stop n (i + k) (host.drop k) d s

/-- The number of a bus fault in DMA_ERR (R356). -/
def BusFault.code : BusFault → Nat
  | .unsupported => 1
  | .aborted => 2
  | .poisoned => 3
  | .timeout => 4
  | .ecc => 5
  | .unpowered => 6

end Sys2Proof.Machine
end

