-- ==== Sys2Proof/Machine/Tick.lean ====
section
/-!
DEFINITION. Machine/Tick.lean: what one tick of the selected reference does whatever is commanded (R40, R466).
-/

namespace Sys2Proof.Machine

/-- The latches and counts of a tick after device time has moved: the leases, the generators and checkers, the THRESH counters, the
window length at a second boundary, the burst headers that go out (R166), and the time spent awake. -/
def tickCounts (sec : Nat) (d : Dev) : Dev :=
  let d := epWriteDone (headersDue (threshTick (prbsTick (leaseTick d))))
  let d := if sec < d.clock.sec.toNat then windowSecond d else d
  if fullOrTrim d then { d with bst := { d.bst with awake := d.bst.awake + 1 } } else d

/-- A new tick, in which the Saddle has not evaluated. -/
def nextTick (d : Dev) : Dev := { keystoneTick d with saddle := { d.saddle with evaluated := false } }

/-- TICK (R40, R466): the Saddle's evaluation, unless a commit of the tick that ends has called for it, follows the writes and inputs of
that tick; then device time takes the applied word, the latches and counts of the new tick come, and a walk of the flow table reaches
its buckets. While device time is stopped there is no tick (R63). (log 4: DESIGN CHOICE, unsafe; log 20: DEDUCED, unsafe) -/
def tick (d : Dev) (s : Mem) : Dev × Mem :=
  if d.kst.refsRunning then
    let d := evaluateTick d
    walkTick (tickCounts d.clock.sec.toNat (nextTick d)) s
  else (d, s)

end Sys2Proof.Machine
end

