-- ==== Sys2Proof/Machine/CommitDue.lean ====
section
/-!
DEFINITION. Machine/CommitDue.lean: a commit in its due tick (R72, R74, R75).
-/

namespace Sys2Proof.Machine

/-- The captured words of a commit that belong to the unit of bit b. -/
def commitWords (c : Commit) (b : Nat) : List (Nat × Word) :=
  let u := unitAt (commitUnit b)
  c.words.filter (fun e => decide (u.base ≤ e.1) && decide (e.1 < u.base + 4096 * 2 ^ u.winLog))

/-! ### Which commit is next (R75) -/

/-- The due instant of a commit in units of 2^-16 ns: T, or the stamp of its frame's FAW; a late anchor to a frame without a stamp
comes first. (log 199: DESIGN CHOICE, unsafe) -/
def dueInstant (c : Commit) : Nat :=
  match c.due with
  | .time t => t * 65536
  | .frame _ _ => c.frameAt.getD 0

/-- The commit of a list with the least key; the first of equals. -/
def firstBy (key : Commit → Nat) : List Commit → Option Commit
  | [] => none
  | c :: l => match firstBy key l with
    | some e => if key e < key c then some e else some c
    | none => some c

/-! ### The apply-time checks (R74) -/

/-- The slot that the commit's FWU_ACT activates, where it requests an activation (R401). -/
def actSlotOf (c : Commit) : Option Nat :=
  if carriedFld c.words FWU_ACT_REQ = 1 then some (carriedFld c.words FWU_ACT_SLOT) else none

/-- The unit of bit b refuses the commit. -/
def unitRefuses (d : Dev) (c : Commit) (b : Nat) : Bool :=
  let ws := commitWords c b
  match b with
  | 0 => kstRefuses d ws
  | 2 => tmgRefuses d ws
  | 3 => clsRefuses d ws
  | 4 => cipRefuses d ws
  | 6 => sdlRefuses d (carriedFld ws SDL_CMD_CMD) (carriedFld ws SDL_CMD_TARGET)
  | 7 => pwrRefuses d ws
  | 8 => match actSlotOf c with
    | some slot => actRefusal d slot != 0
    | none => false
  | _ => false

/-- A refusing unit counts and raises its own refusal. -/
def reportRefusal (c : Commit) (d : Dev) (b : Nat) : Dev :=
  match b with
  | 0 => raiseKst d alCmdRejected
  | 2 => tmgRefused d (commitWords c b)
  | 6 => count d SDL_CMD_REFUSED
  | 8 => match actSlotOf c with
    | some slot => actRefused d (actRefusal d slot)
    | none => d
  | _ => d

/-- A unit named by the commit has no power, lowest first (R74). -/
def unpoweredUnit (d : Dev) (c : Commit) : Option Nat := (unitBits c.units).find? (fun b => leafPower d (commitUnit b) != 2)

/-- The units that refuse the commit, lowest first (R74). -/
def refusingUnits (d : Dev) (c : Commit) : List Nat := (unitBits c.units).filter (unitRefuses d c)

/-- The commit would step device time (R59). -/
def makesStep (d : Dev) (c : Commit) : Bool :=
  carriedFld (commitWords c 0) KST_STEP_CTL_ARM == 1 && (unpoweredUnit d c).isNone && (refusingUnits d c).isEmpty

/-- Posting order; and in the tick of a step, which a commit due in it may make itself, the order of the due instants with equals in
posting order. (log 22: DEDUCED, safe) -/
def nextDue (d : Dev) : Option Commit :=
  let due := d.commits.filter (isDue d)
  if d.kst.stepTick = some d.elapsed ∨ due.any (makesStep d) then firstBy dueInstant due else due.head?

/-! ### Applying (R74) -/

/-- The register at a BAR0 offset, with its reset word. -/
def regOfOfs (ofs : Nat) : Option Reg :=
  match unitOf ofs with
  | none => none
  | some i => (rowAt (unitAt i) (ofs - (unitAt i).base)).map (fun row => regAt (unitAt i) row (ofs - (unitAt i).base))

/-- The words become the applied words. -/
def applyWords (d : Dev) (ws : List (Nat × Word)) : Dev :=
  forEach ws (fun d e => match regOfOfs e.1 with
    | some r => wrA d r e.2
    | none => d) d

/-- The unit of bit b applies its part. -/
def applyUnit (c : Commit) (d : Dev) (b : Nat) : Dev :=
  let ws := commitWords c b
  match b with
  | 0 => kstApply (applyWords d ws) ws
  | 1 => ttdApply (fun o => fldA d (TTD_TOUTo_CFG_MODE o)) (applyWords d ws) ws
  | 2 => tmgSelect (clipBuckets (applyWords (settleBuckets d ws) ws) ws) ws
  | 3 => clsApply (applyWords d ws) ws
  | 5 => mirrorSel (applyWords d ws) (fldA d ENC_BMAP_SEL_SEL_A) (fldA d ENC_BMAP_SEL_SEL_B)
  | 6 => sdlCommand (applyWords d ws) (carriedFld ws SDL_CMD_CMD) (carriedFld ws SDL_CMD_TARGET)
  | 7 => pwrApply (applyWords d ws) (commitTarget d ws)
  | 8 => match actSlotOf c with
    | some slot => actStart (applyWords d ws) slot
    | none => applyWords d ws
  | _ => applyWords d ws

/-- How an applied commit ends: late, stepped over, or in its own time. -/
def appliedOutcome (c : Commit) : Nat := if c.late then outLate else if c.stepped then outStepped else outApplied

/-- The outcome of a due commit: an unpowered unit ends it before any check; a refusal ends it with every refusing unit's report; else
every unit applies. (log 21: DEDUCED, unsafe) -/
def settleCommit (d : Dev) (c : Commit) : Dev :=
  match unpoweredUnit d c with
  | some b => finishCommit d c outUnpowered b
  | none =>
    match refusingUnits d c with
    | b :: bs => finishCommit (forEach (b :: bs) (reportRefusal c) d) c outRefused b
    | [] => forEach (unitBits c.units) (applyUnit c) (finishCommit d c (appliedOutcome c) 15)

/-- COMMIT_DUE: the next commit that is due in this tick, after the Saddle's evaluation of the tick (R466). -/
def commitDue (d : Dev) : Dev :=
  if d.commits.any (isDue d) then
    let d := evaluateTick d
    match nextDue d with
    | some c => settleCommit d c
    | none => d
  else d

end Sys2Proof.Machine
end

