-- ==== Sys2Proof/Machine/CommitCommands.lean ====
section
/-!
DEFINITION. Machine/CommitCommands.lean: the commands of the timed commits (spec/04), one meaning for each row of the table.
-/

namespace Sys2Proof.Machine

/-- COMMIT_POST (R70). -/
def execCommitPost (m : Master) (p : Fin 36) (value : Word) (s : State) : Res := onDev (commitPost m p value) s

/-- COMMIT_CANCEL (R76). -/
def execCommitCancel (m : Master) (p : Fin 36) (value : Word) (s : State) : Res := onDev (commitCancel m p value) s

/-- COMMIT_DUE (R74). -/
def execCommitDue (s : State) : Res := onDev commitDue s

/-- COMMIT_FRAME_TIMEOUT (R73). -/
def execCommitFrameTimeout (s : State) : Res := onDev commitFrameTimeout s

end Sys2Proof.Machine
end

