-- ==== Sys2Proof/Machine/CounterCommands.lean ====
section
/-!
DEFINITION. Machine/CounterCommands.lean: the commands of the counters and the telemetry (spec/23), one meaning for each row of the table.
-/

namespace Sys2Proof.Machine

/-- CNT_SEL_WRITE (R414). -/
def execCntSelWrite (m : Master) (c : Fin 4096) (value : Word) (s : State) : Res := onDev (cntSelWrite m c value) s

/-- CNT_CLEAR (R414). -/
def execCntClear (m : Master) (c : Fin 4096) (s : State) : Res := onDev (cntClearOne m c) s

/-- CNT_CLEAR_ALL (R414). -/
def execCntClearAll (m : Master) (s : State) : Res := onDev (cntClearAll m) s

/-- CNT_READ (R415). -/
def execCntRead (m : Master) (rel : Fin 0x100000) (s : State) : Res := onDev (cntRead m rel) s

/-- BW_WINDOW_END (R416). -/
def execBwWindowEnd (s : State) : Res := onDev bwWindowEnd s

/-- TELEMETRY_RECORD (R418). -/
def execTelemetryRecord (mw : BitVec 32) (temp : BitVec 16) (failed : Bool) (s : State) : Res :=
  onDev (telemetryRecord mw temp failed) s

end Sys2Proof.Machine
end

