-- ==== Sys2Proof/Machine/DeliveryCommands.lean ====
section
/-!
DEFINITION. Machine/DeliveryCommands.lean: the commands of the time transfer and delivery (spec/17), one meaning for each row of the table.
-/

namespace Sys2Proof.Machine

/-- SYNC_PLACE (R302). -/
def execSyncPlace (p : Fin 64) (s : State) : Res := onDev (syncPlace p) s

/-- ANNOUNCE_SEND (R301). -/
def execAnnounceSend (p : Fin 64) (s : State) : Res := onDev (announceSend p) s

/-- PTP_MSG_RX (R303). -/
def execPtpMsgRx (s : State) : Res := onDev ptpMsgRx s

/-- PR_WINDOW_OPEN (R307). -/
def execPrWindowOpen (i : Fin 64) (s : State) : Res := onDev (prWindowOpen i) s

/-- PR_EDGE (R307). -/
def execPrEdge (i : Fin 64) (falling : Bool) (hold bins : Nat) (s : State) : Res := onDev (prEdge i falling hold bins) s

/-- PR_WINDOW_CLOSE (R308). -/
def execPrWindowClose (i : Fin 64) (s : State) : Res := onDev (prWindowClose i) s

/-- TEV_EDGE (R309). -/
def execTevEdge (e : Fin 4) (falling : Bool) (hold bins : Nat) (s : State) : Res := onDev (tevEdge e falling hold bins) s

/-- TEV_SEC_HI_READ (R309). -/
def execTevSecHiRead (m : Master) (e : Fin 4) (s : State) : Res := onDev (tevSecHiRead m e) s

/-- TOUT_EDGE (R310). -/
def execToutEdge (o : Fin 8) (s : State) : Res := onDev (toutEdge o) s

/-- TIME_REQ_SEND (R391). -/
def execTimeReqSend (k : Fin 2) (s : State) : Res := onDev (timeReqSend k) s

/-- TIME_REQ (R391). -/
def execTimeReq (k : Fin 2) (sender : BitVec 64) (seq : BitVec 16) (turn : Nat) (s : State) : Res := onDev (timeReq k sender seq turn) s

/-- TIME_RESP (R312). -/
def execTimeResp (k : Fin 2) (sender : BitVec 64) (seq : BitVec 16) (t2s : BitVec 48) (t2 : BitVec 32) (t3s : BitVec 48)
    (t3 : BitVec 32) (s : State) : Res :=
  onDev (timeResp k sender seq t2s t2 t3s t3) s

/-- NB_TIMEOUT (R312). -/
def execNbTimeout (k : Fin 2) (s : State) : Res := onDev (nbTimeout k) s

end Sys2Proof.Machine
end

