-- ==== Sys2Proof/Machine/MainDma.lean ====
section
/-!
DEFINITION. Machine/MainDma.lean: the main DMA's entries, hops, completions and bus errors (R338 to R350, spec/19).
-/

namespace Sys2Proof.Machine

/-! ### Descriptors (R340) -/

/-- A descriptor from its 32 bytes. -/
def descriptorOf (b : List Byte) : Descriptor :=
  { src := leNat (slice b 0 8), dst := leNat (slice b 8 8), len := leNat (slice b 16 4), ctl := BitVec.ofNat 32 (leNat (slice b 20 4)),
    next := leNat (slice b 24 8) }

def Descriptor.link (h : Descriptor) : Bool := h.ctl.getLsbD 17
def Descriptor.fence (h : Descriptor) : Bool := h.ctl.getLsbD 21

def mainSpace (n : Nat) : Space := if n = 0 then .host else if n = 1 then .dram else .unit
def spaceCode : Space → Nat
  | .host => 0
  | .dram => 1
  | _ => 2

def sideMode (mode wrap : Nat) : Mode := if mode = 1 then .fixed else if mode = 2 then .circ wrap else .inc

def mainSrc (h : Descriptor) : Side :=
  { space := mainSpace (getBits h.ctl 1 0), addr := h.src, mode := sideMode (getBits h.ctl 7 6) (getBits h.ctl 26 22), width := 4 }
def mainDst (h : Descriptor) : Side :=
  { space := mainSpace (getBits h.ctl 3 2), addr := h.dst, mode := sideMode (getBits h.ctl 9 8) (getBits h.ctl 31 27), width := 4 }

/-! ### The checks of a hop (R341) -/

/-- A WRAP field is as the mode requires. -/
def wrapGood (mode wrap : Nat) : Bool := if mode = 2 then decide (6 ≤ wrap) else wrap == 0

/-- A fixed side, and a side in the unit tree, keeps to words. -/
def wordGood (x : Side) (len : Nat) : Bool := if x.mode = .fixed ∨ x.space = .unit then x.addr % 4 == 0 && len % 4 == 0 else true

/-- Check 1. -/
def fieldsGood (h : Descriptor) : Bool :=
  let c := h.ctl
  let sm := getBits c 7 6
  let dm := getBits c 9 8
  getBits c 16 12 == 0 && getBits c 5 4 == 0 && getBits c 1 0 != 3 && getBits c 3 2 != 3 && sm != 3 && dm != 3
    && wrapGood sm (getBits c 26 22) && wrapGood dm (getBits c 31 27)
    && (getBits c 20 19 == 0 || (if c.getLsbD 18 then sm == 2 else dm == 2))
    && (!h.link || (decide (getBits c 11 10 ≤ 1) && h.next % 32 == 0
        && decide (h.next + 32 ≤ (mainSpace (getBits c 11 10)).size)))
    && wordGood (mainSrc h) h.len && wordGood (mainDst h) h.len

/-- Check 2. -/
def lengthGood (h : Descriptor) : Bool :=
  decide (1 ≤ h.len) && (mainSrc h).inside h.len && (mainDst h).inside h.len

/-- A range lies in function f's DRAM window (R339). -/
def inDramWindow (d : Dev) (f : Nat) (r : Nat × Nat) : Bool :=
  let base := fld d (DMA_FNf_DRAM_BASE_BASE f) * 0x100000
  decide (base ≤ r.1) && decide (r.1 + r.2 ≤ base + fld d (DMA_FNf_DRAM_SIZE_SIZE f) * 0x100000)

/-- The first address of a side's DRAM bytes outside the owner's window. -/
def outsideWindow (d : Dev) (f : Nat) (x : Side) (len : Nat) : Option Nat :=
  if x.space = .dram then ((x.touches len).find? (fun r => !inDramWindow d f r)).map (·.1) else none

/-- Check 3: the first address that the channel's owner has no right to. -/
def rightsBroken (d : Dev) (c : Nat) (h : Descriptor) : Option Nat :=
  let f := chanOwner d c
  match outsideWindow d f (mainSrc h) h.len with
  | some a => some a
  | none => match outsideWindow d f (mainDst h) h.len with
    | some a => some a
    | none => if (mainDst h).space = .unit then (rangeCause d (chanMaster c) ((mainDst h).touches h.len)).map (·.2) else none

/-! ### Completions (R346, R347) -/

def csHalf : Nat := 24
def csFull : Nat := 25
def csOverlap : Nat := 26
def csBusErr : Nat := 27

/-- Hops carried out in the entry that a channel has in progress (R356). -/
def hopsOf (d : Dev) (c : Nat) : Nat := fld d (DMA_CHc_STATUS_HOPS c)

def dmaCompletion (d : Dev) (c : Nat) (r : ChanRun) (status tag : Nat) : List Byte :=
  completion status r.ring r.index 0 (hopsOf d c) none 0 |>.take 12 |> (· ++ leBytes 4 (min r.bytes 0xFFFFFFFF) ++ leBytes 8 0 ++ leBytes 8 tag)

/-- TAG of the hop in progress, where it is the last of its chain. (log 113: DEDUCED, unsafe) -/
def hopTag (r : ChanRun) : Nat := if r.hop.link then 0 else r.hop.next

/-- The entry in progress completes with a status, and the channel is idle. -/
def endEntry (d : Dev) (c : Nat) (r : ChanRun) (status : Nat) : Dev :=
  closeEntry (endRun d c) r.ring r.index (dmaCompletion d c r status (hopTag r))

/-- A violation freezes the channel: the entry ends without a completion (R34). -/
def freezeChan (d : Dev) (c cause addr : Nat) : Dev := abandonRun (freeze d (chanMaster c) cause addr) c

/-- A fetched hop is checked (R341): it becomes the hop in progress, is rejected, or freezes the channel. -/
def takeHop (d : Dev) (c : Nat) (r : ChanRun) (h : Descriptor) : Dev :=
  let r := { r with hop := h, moved := 0, store := [], point := 0 }
  let d := putRun d c r
  if !fieldsGood h then endEntry (raiseDma (count d DMA_BAD_DESC) dmBadDesc) c r csBadField
  else if !lengthGood h then endEntry (raiseDma (count d DMA_BAD_DESC) dmBadDesc) c r csBadLen
  else match rightsBroken d c h with
    | some a => freezeChan d c causeDma a
    | none => if overlaps (mainSrc h) (mainDst h) h.len then endEntry (raiseDma (count d DMA_OVERLAP) dmOverlap) c r csOverlap else d

/-! ### Entries (R338) -/

/-- The channel serves the ring. -/
def serves (d : Dev) (c r : Nat) : Bool :=
  mayBegin d r kindDma 1 && fld d (HIF_Rr_RANGE_QBASE r) % 64 == c && ringOwner d r == chanOwner d c

/-- The ring whose turn it is: the next in ring-number order after the one served last. -/
def turnRing (d : Dev) (c : Nat) : Option Nat :=
  let last := sget 0 d.host.served c
  ((List.range 1024).map (fun k => (last + 1 + k) % 1024)).find? (serves d c)

def dmaRuns (d : Dev) : Bool := domainOn d 48 && !pwrStopped d 7

/-- DMA_ENTRY_START: an idle channel takes the next entry, whose 32 bytes HIF has fetched; the ring descriptor is the first hop.
(log 111: DEDUCED, unsafe) -/
def dmaEntryStart (c : Fin 64) (desc : List Byte) (d : Dev) : Dev :=
  if chanState d c = 0 ∧ dmaRuns d then
    match turnRing d c with
    | none => d
    | some r =>
      let h := descriptorOf desc
      let i := (ringHw d r).dev % 0x10000
      let d := consume (openEntry d r i (if h.link then 0 else h.next) false) r 1
      let d := setHost d (fun x => { x with served := sput 0 x.served c r })
      let d := setFld (setFld (setFlag d (DMA_CHc_STATUS_RELEASED c) false) (DMA_CHc_STATUS_RING c) r) (DMA_CHc_STATUS_HOPS c) 0
      takeHop d c { ring := r, index := i, hop := h, moved := 0, store := [], point := 0, bytes := 0, fenced := none } h
  else d

/-! ### Bus errors (R349) -/

/-- A bus error halts the engine: every entry in progress of a channel that is not frozen posts BUS_ERR. -/
def busError (d : Dev) (cause : BusFault) (space addr : Nat) : Dev :=
  if dmaHalted d then d
  else
    let d := forEach (d.host.chans.filter (fun e => !isFrozen d (chanMaster e.1))) (fun d e => endEntry d e.1 e.2 csBusErr) d
    let d := setFld (setFld (setFlag d DMA_STATUS_HALTED true) DMA_ERR_CAUSE cause.code) DMA_ERR_SPACE space
    let d := wrPair d DMA_ERR_ADDR_LO DMA_ERR_ADDR_HI addr
    let d := if cause = .timeout then count d DMA_TIMEOUT else d
    raiseDma (count (count d DMA_BUS_ERR) DMA_HALTS) dmHalt

/-- BUS_ERROR: a request of a channel in progress fails. (log 118: DEDUCED, unsafe) -/
def busErrorMain (cause : BusFault) (space : Fin 3) (addr : BitVec 64) (d : Dev) : Dev :=
  if busyChannels d = 0 then d else busError d cause space addr.toNat

/-- DMA_BUS_TIMEOUT: a target has not answered within 50 µs. -/
def dmaBusTimeout (space : Fin 3) (addr : BitVec 64) (d : Dev) : Dev := busErrorMain .timeout space addr d

/-! ### Moving bytes (R344, R345, R348) -/

/-- The side that EVT_SIDE names and its WRAP. -/
def eventSide (h : Descriptor) : Nat × Nat :=
  if h.ctl.getLsbD 18 then (h.src, getBits h.ctl 26 22) else (h.dst, getBits h.ctl 31 27)

/-- The first full or half point with its bit set beyond `moved` bytes, and the status it posts. -/
def nextPoint (h : Descriptor) (moved : Nat) : Option (Nat × Nat) :=
  let (a, w) := eventSide h
  let size := 2 ^ w
  let upTo (place : Nat) : Nat := moved + (place + size - (a + moved) % size - 1) % size + 1
  let half := upTo (size / 2)
  let full := upTo 0
  let halfOk := h.ctl.getLsbD 20 && decide (half ≤ h.len)
  let fullOk := h.ctl.getLsbD 19 && decide (full ≤ h.len)
  if halfOk && (!fullOk || decide (half < full)) then some (half, csHalf)
  else if fullOk then some (full, csFull) else none

/-- Events of the hop follow its source (R340). -/
def sourceEvents (h : Descriptor) : Bool := h.ctl.getLsbD 18

/-- Source bytes of the hop that the channel may have read, and bytes it may have written, before its next point is posted (R345). -/
def readLimit (r : ChanRun) : Nat := match nextPoint r.hop r.point with
  | some (stop, _) => if sourceEvents r.hop then stop else r.hop.len
  | none => r.hop.len
def writeLimit (r : ChanRun) : Nat := match nextPoint r.hop r.point with
  | some (stop, _) => if sourceEvents r.hop then r.hop.len else stop
  | none => r.hop.len

/-- The transfer has reached byte `stop` of the side that events follow. -/
def reached (stop : Nat) (r : ChanRun) : Bool :=
  decide (stop ≤ if sourceEvents r.hop then r.moved + r.store.length else r.moved)

/-- Source bytes of the hop read so far. -/
def readSoFar (r : ChanRun) : Nat := r.moved + r.store.length

/-- Length of the channel's next read, 0 where it makes none: the store has no room ahead of the writes (R348), or the host has not
answered it; `data` are the bytes of host memory that have come. -/
def nextRead (r : ChanRun) (data : List Byte) : Nat :=
  let k := (mainSrc r.hop).access false (readSoFar r) (readLimit r - readSoFar r)
  if 4096 < r.store.length + k then 0 else if (mainSrc r.hop).space = .host ∧ data.length < k then 0 else k

/-- Length of the channel's next write, 0 where its bytes are not all in the store. -/
def nextWrite (r : ChanRun) : Nat :=
  let k := (mainDst r.hop).access true r.moved (writeLimit r - r.moved)
  if k ≤ r.store.length then k else 0

/-- How a channel's reads end: its run with the bytes read, the bytes of host memory left, and the space and address without power that
stopped them. -/
structure Fetched where
  run : ChanRun
  data : List Byte
  fault : Option (Nat × Nat)
deriving DecidableEq, Repr

/-- The channel reads its source as far ahead as it may (R348); n bounds the reads. -/
def prefetch (f : Nat) : Nat → ChanRun → List Byte → Dev → Mem → Dev × Fetched
  | 0, r, data, d, _ => (d, { run := r, data := data, fault := none })
  | n + 1, r, data, d, s =>
    let x := mainSrc r.hop
    let i := readSoFar r
    let k := nextRead r data
    if k = 0 then (d, { run := r, data := data, fault := none })
    else if !targetPowered d x.space (x.at' i) then (d, { run := r, data := data, fault := some (spaceCode x.space, x.at' i) })
    else
      let (d, bs) := readSide f x i k data d s
      prefetch f n { r with store := r.store ++ bs } (if x.space = .host then data.drop k else data) d s

/-- The channel makes its next write, and the bytes count; a channel that the write froze gives its entry up (R34). -/
def writeOn (c : Nat) (r : ChanRun) (d : Dev) (s : Mem) : Dev × Mem :=
  let y := mainDst r.hop
  let k := nextWrite r
  if k = 0 then (putRun d c r, s)
  else if !targetPowered d y.space (y.at' r.moved) then (busError (putRun d c r) .unpowered (spaceCode y.space) (y.at' r.moved), s)
  else
    let d := putRun d c { r with moved := r.moved + k, store := r.store.drop k, bytes := r.bytes + k }
    let (d, s) := writeSide (chanMaster c) (chanOwner d c) y r.moved (r.store.take k) d s
    if isFrozen d (chanMaster c) then (abandonRun d c, s) else (countBy d (DMA_CHc_BYTES c) k, s)

/-- Channel c is busy with a hop and waits for no read-back. -/
def moving (d : Dev) (c : Nat) : Option ChanRun :=
  if chanState d c = 1 ∧ dmaRuns d then
    match chanRun d c with
    | some r => if r.fenced.isNone then some r else none
    | none => none
  else none

/-- Channel c has an access to make in its turn. -/
def hasTurn (d : Dev) (data : List Byte) (c : Nat) : Bool := match moving d c with
  | some r => nextRead r data != 0 || nextWrite r != 0
  | none => false

/-- A turn of channel c (R348): its reads go ahead, and it makes one write. (log 216: DESIGN CHOICE, unsafe) -/
def takeTurn (c : Nat) (data : List Byte) (d : Dev) (s : Mem) : Dev × Mem × List Byte :=
  match moving d c with
  | none => (d, s, data)
  | some r =>
    let d := setHost d (fun h => { h with turn := (c + 1) % 64 })
    let (d, x) := prefetch (chanOwner d c) 4096 r data d s
    match x.fault with
    | some (sp, a) => (busError (putRun d c x.run) .unpowered sp a, s, x.data)
    | none =>
      let (d, s) := writeOn c x.run d s
      (d, s, x.data)

/-- The channel whose turn it is (R348): the next in channel order with an access to make. The host has answered channel c alone. -/
def nextChannel (d : Dev) (c : Nat) (data : List Byte) : Option Nat :=
  ((List.range 64).map (fun k => (d.host.turn + k) % 64)).find? (fun k => hasTurn d (if k = c then data else []) k)

/-- Turns go round the channels until channel c has done what is asked of it, or no channel has an access to make; n bounds the turns.
(log 216: DESIGN CHOICE, unsafe) -/
def serveUntil (c : Nat) (done : ChanRun → Bool) : Nat → List Byte → Dev → Mem → Dev × Mem
  | 0, _, d, s => (d, s)
  | n + 1, data, d, s =>
    match moving d c with
    | none => (d, s)
    | some r =>
      if done r then (d, s)
      else match nextChannel d c data with
        | none => (d, s)
        | some k =>
          let (d, s, rest) := takeTurn k (if k = c then data else []) d s
          serveUntil c done n (if k = c then rest else data) d s

/-- Turns enough for a channel to read and write len bytes while all channels take theirs. -/
def turnsFor (len : Nat) : Nat := 128 * (len + 1)

/-- The ring still holds the entry in progress: it was not enabled again or reset since (R320, R322). -/
def entryKnown (d : Dev) (r : ChanRun) : Bool := (ringHw d r.ring).entries.any (fun e => e.index == r.index)

/-- A completion of the entry can be posted now: the entries before it have posted theirs, and the CQ ring takes it (R331, R332); an
entry that its ring no longer holds posts nothing and waits for nothing. (log 115: DEDUCED, unsafe) -/
def mayPost (d : Dev) (r : ChanRun) : Bool :=
  !entryKnown d r
    || (hifWorks d && cqTakes d (ringCq d r.ring) 1 && ((ringHw d r.ring).entries.head?.map (·.index)) == some r.index)

/-- A progress completion, posted beside the entry's final one. -/
def postProgress (d : Dev) (c : Nat) (r : ChanRun) (status : Nat) : Dev :=
  if entryKnown d r then postCq d (ringCq d r.ring) (dmaCompletion d c r status (hopTag r)) else d

/-- The point at `stop` is posted, or waits for its read-back, if the channel has reached it and the completion can be posted. -/
def postPoint (c stop status : Nat) (d : Dev) : Dev := match moving d c with
  | none => d
  | some r =>
    if reached stop r && mayPost d r then
      let r := { r with point := stop }
      if r.hop.fence then putRun d c { r with fenced := some status } else postProgress (putRun d c r) c r status
    else d

/-- DMA_PROGRESS: the hop reaches its next half or full point; data are the bytes that the host answers to the channel's reads, from the
first it has not read yet. With FENCE the completion waits for its read-back. -/
def dmaProgress (c : Fin 64) (data : List Byte) (d : Dev) (s : Mem) : Dev × Mem :=
  match moving d c with
  | none => (d, s)
  | some r =>
    match nextPoint r.hop r.point with
    | none => (d, s)
    | some (stop, status) =>
      let (d, s) := serveUntil c (reached stop) (turnsFor r.hop.len) data d s
      (postPoint c stop status d, s)

/-- The channel has written its hop. -/
def hopDone (r : ChanRun) : Bool := decide (r.hop.len ≤ r.moved)

/-- What is left of the hop in progress is moved, where no point is left to post; answers the run where the hop is done. -/
def finishHop (c : Nat) (data : List Byte) (d : Dev) (s : Mem) : Dev × Mem × Option ChanRun :=
  match moving d c with
  | none => (d, s, none)
  | some r =>
    if (nextPoint r.hop r.point).isSome then (d, s, none)
    else
      let (d, s) := serveUntil c hopDone (turnsFor r.hop.len) data d s
      match moving d c with
      | none => (d, s, none)
      | some r => if hopDone r then (countFld d (DMA_CHc_STATUS_HOPS c), s, some r) else (d, s, none)

/-- Channel c has a hop in progress whose LINK is as given. -/
def hopLinks (d : Dev) (c : Nat) (link : Bool) : Bool := match chanRun d c with
  | some r => r.hop.link == link
  | none => false

/-- HOP_FETCH: the hop in progress ends, and the hop it links to is fetched and checked. Its bytes are desc where NEXT lies in host
memory; a NEXT in DRAM outside the owner's window freezes the channel, as does the 4,096th hop (R343). (log 112: DEDUCED, unsafe) -/
def hopFetch (c : Fin 64) (data desc : List Byte) (d : Dev) (s : Mem) : Dev × Mem :=
  if !hopLinks d c true then (d, s)
  else match finishHop c data d s with
    | (d, s, none) => (d, s)
    | (d, s, some r) =>
      let next := r.hop.next
      let dram := getBits r.hop.ctl 11 10 == 1
      if 4096 ≤ hopsOf d c then (freezeChan d c causeHops next, s)
      else if dram && !inDramWindow d (chanOwner d c) (next, 32) then (freezeChan d c causeDma next, s)
      else if dram && !targetPowered d .dram next then (busError d .unpowered 1 next, s)
      else (takeHop d c r (descriptorOf (if dram then readDram s next 32 else desc)), s)

/-- DMA_COMPLETE: the last write of the chain leaves the engine; with FENCE the completion waits for its read-back (R346). -/
def dmaComplete (c : Fin 64) (data : List Byte) (d : Dev) (s : Mem) : Dev × Mem :=
  if !hopLinks d c false then (d, s)
  else match finishHop c data d s with
    | (d, s, none) => (d, s)
    | (d, s, some r) => (if r.hop.fence then putRun d c { r with fenced := some csOk } else endEntry d c r csOk, s)

/-- The read-back of the word that holds the last byte written acts as any read of the unit tree does; a hop of which no byte is written
yet has none. (log 117: DEDUCED, unsafe) -/
def readBack (d : Dev) (c : Nat) (r : ChanRun) : Dev :=
  if (mainDst r.hop).space = .unit ∧ r.moved ≠ 0 then (readUnit d (chanOwner d c) ((mainDst r.hop).at' (r.moved - 1) / 4 * 4)).1 else d

/-- FENCE_DONE: a read-back returns, and the completion is posted. -/
def fenceDone (c : Fin 64) (d : Dev) : Dev :=
  if chanState d c = 1 then
    match chanRun d c with
    | some r =>
      (match r.fenced with
       | some status =>
         let d := readBack d c r
         if status = csOk then endEntry d c r csOk
         else if mayPost d r then postProgress (putRun d c { r with fenced := none }) c r status else d
       | none => d)
    | none => d
  else d

end Sys2Proof.Machine
end

