-- ==== Sys2Proof/Machine/BootDma.lean ====
section
/-!
DEFINITION. Machine/BootDma.lean: the hops of the boot DMA (R353 to R355, R357, spec/19).
-/

namespace Sys2Proof.Machine

def bootSpace (n : Nat) : Space := if n = 0 then .unit else if n = 1 then .dram else if n = 2 then .flash else .core
def bootSpaceCode : Space → Nat
  | .dram => 1
  | .flash => 2
  | .core => 3
  | _ => 0

/-- The width of an access (R354). -/
def bootWidth (h : Descriptor) : Nat := if h.ctl.getLsbD 16 then 8 else 4

def bootSrc (h : Descriptor) : Side :=
  { space := bootSpace (getBits h.ctl 1 0), addr := h.src, mode := if h.ctl.getLsbD 6 then .fixed else .inc, width := bootWidth h }
def bootDst (h : Descriptor) : Side :=
  { space := bootSpace (getBits h.ctl 3 2), addr := h.dst, mode := if h.ctl.getLsbD 7 then .fixed else .inc, width := bootWidth h }

/-- The outcome of the checks of R355 that is a RESULT, before its check 4; 0 where they pass. -/
def bootResult (h : Descriptor) : Nat :=
  let c := h.ctl
  let w := bootWidth h
  if getBits c 31 18 ≠ 0 ∨ getBits c 15 10 ≠ 0 ∨ getBits c 5 4 ≠ 0 ∨ getBits c 3 2 = 2 then brBadField
  else if h.src % w ≠ 0 ∨ h.dst % w ≠ 0 ∨ h.len % w ≠ 0 ∨ (h.link ∧ h.next % 32 ≠ 0) then brMisaligned
  else if h.len = 0 ∨ !(bootSrc h).inside h.len ∨ !(bootDst h).inside h.len then brBadLen
  else 0

/-- A bus error ends the chain of channel c alone. -/
def bootBusError (d : Dev) (c : Nat) (cause : BusFault) (space addr : Nat) : Dev :=
  let d := wrn (wrn d (BDM_CHc_ERR_LO c) addr) (BDM_CHc_ERR_HI c) (cause.code * 0x20000000 + space * 0x8000000)
  endBoot d c brBusErr

/-- BDM_BUS_ERROR. -/
def bdmBusError (c : Fin 4) (cause : BusFault) (space : Fin 4) (addr : Word) (d : Dev) : Dev :=
  if bootState d c = 1 then bootBusError d c cause space addr.toNat else d

/-- The 32 bytes of the descriptor at a channel's next address; in the unit tree its words are read one by one. -/
def readDescriptor (m : Master) (b : BootRun) (d : Dev) (s : Mem) : Dev × List Byte :=
  let sp := bootSpace b.space
  if sp = .unit then
    (List.range 8).foldl (fun a k =>
      let (d, w) := readUnit a.1 m (b.addr + 4 * k)
      (d, a.2 ++ leBytes 4 w.toNat)) (d, [])
  else (d, readSpace s sp b.addr 32)

/-- A violation freezes the channel: its chain ends with no RESULT of its own (R34). -/
def freezeBoot (d : Dev) (c cause addr : Nat) : Dev := dropBoot (freeze d (bootMaster c) cause addr) c

/-- A checked hop is moved, and the chain goes on, ends, or freezes at its 4,096th hop (R343). -/
def bootMove (c : Nat) (h : Descriptor) (d : Dev) (s : Mem) : Dev × Mem :=
  let m := bootMaster c
  let (d, s, i, how) := moveBytes m m 0 (bootSrc h) (bootDst h) h.len h.len 0 [] d s
  let d := countBy d (BDM_CHc_BYTES c) i
  if isFrozen d m then (dropBoot d c, s)
  else match how with
    | .unpowered sp a => (bootBusError d c .unpowered (bootSpaceCode sp) a, s)
    | _ =>
      let d := countFld d (BDM_CHc_STATUS_HOPS c)
      if !h.link then (endBoot d c brOk, s)
      else if 4096 ≤ fld d (BDM_CHc_STATUS_HOPS c) then (freezeBoot d c causeHops h.next, s)
      else (if (bootRun d c).isSome then putBoot d c { space := getBits h.ctl 9 8, addr := h.next } else d, s)

/-- BDM_HOP: the next descriptor of a busy channel is fetched and checked in the order of R355, and its bytes are moved.
(log 119: DEDUCED, unsafe) -/
def bdmHop (c : Fin 4) (d : Dev) (s : Mem) : Dev × Mem :=
  match (if bootState d c = 1 then bootRun d c else none) with
  | none => (d, s)
  | some b =>
    let m := bootMaster c
    if !targetPowered d (bootSpace b.space) b.addr then (bootBusError d c .unpowered b.space b.addr, s)
    else
      let (d, bytes) := readDescriptor m b d s
      let h := descriptorOf bytes
      if bootResult h ≠ 0 then (endBoot d c (bootResult h), s)
      else match (if (bootDst h).space = .unit then rangeCause d m ((bootDst h).touches h.len) else none) with
        | some (cause, a) => (freezeBoot d c cause a, s)
        | none => if overlaps (bootSrc h) (bootDst h) h.len then (endBoot d c brOverlap, s) else bootMove c h d s

end Sys2Proof.Machine
end

