-- ==== Sys2Proof/Machine/DmaCommands.lean ====
section
/-!
DEFINITION. Machine/DmaCommands.lean: the commands of the DMA engines (spec/19), one meaning for each row of the table.
-/

namespace Sys2Proof.Machine

/-- DMA_ENTRY_START (R338). -/
def execDmaEntryStart (c : Fin 64) (desc : List Byte) (s : State) : Res := onDev (dmaEntryStart c desc) s

/-- HOP_FETCH (R341). -/
def execHopFetch (c : Fin 64) (data desc : List Byte) (s : State) : Res := onAll (hopFetch c data desc) s

/-- DMA_PROGRESS (R345). -/
def execDmaProgress (c : Fin 64) (data : List Byte) (s : State) : Res := onAll (dmaProgress c data) s

/-- DMA_COMPLETE (R346). -/
def execDmaComplete (c : Fin 64) (data : List Byte) (s : State) : Res := onAll (dmaComplete c data) s

/-- FENCE_DONE (R346). -/
def execFenceDone (c : Fin 64) (s : State) : Res := onDev (fenceDone c) s

/-- BUS_ERROR (R349). -/
def execBusError (cause : BusFault) (space : Fin 3) (addr : BitVec 64) (s : State) : Res := onDev (busErrorMain cause space addr) s

/-- DMA_BUS_TIMEOUT (R349). -/
def execDmaBusTimeout (space : Fin 3) (addr : BitVec 64) (s : State) : Res := onDev (dmaBusTimeout space addr) s

/-- DMA_RESUME (R350). -/
def execDmaResume (m : Master) (value : Word) (s : State) : Res := onDev (dmaResume m value) s

/-- DMA_OWNER_CHANGE (R351). -/
def execDmaOwnerChange (m : Master) (c : Fin 64) (value : Word) (s : State) : Res := onDev (dmaOwnerChange m c value) s

/-- BDM_GO (R353). -/
def execBdmGo (m : Master) (c : Fin 4) (value : Word) (s : State) : Res := onDev (bdmGo m c value) s

/-- BDM_ABORT (R353). -/
def execBdmAbort (m : Master) (c : Fin 4) (value : Word) (s : State) : Res := onDev (bdmAbort m c value) s

/-- BDM_HOP (R355). -/
def execBdmHop (c : Fin 4) (s : State) : Res := onAll (bdmHop c) s

/-- BDM_BUS_ERROR (R355). -/
def execBdmBusError (c : Fin 4) (cause : BusFault) (space : Fin 4) (addr : Word) (s : State) : Res :=
  onDev (bdmBusError c cause space addr) s

end Sys2Proof.Machine
end

