-- ==== Sys2Proof/Machine/FirmwareCommands.lean ====
section
/-!
DEFINITION. Machine/FirmwareCommands.lean: the commands of the firmware update and the Course (spec/22), one meaning for each row of the table.
-/

namespace Sys2Proof.Machine

/-- OWNER_LOCK (R403). -/
def execOwnerLock (x : Line) (h : LmmHead) (flags : BitVec 8) (s : State) : Res := onDev (ownerLock x h flags) s

/-- COURSE_LINK_CHANGE (R389). -/
def execCourseLinkChange (k : Fin 2) (up : Bool) (s : State) : Res := onDev (courseLinkChange k up) s

/-- COURSE_PDU_BAD (R390). -/
def execCoursePduBad (k : Fin 2) (pdu : List Byte) (s : State) : Res := onDev (coursePduBad k pdu) s

/-- RELAY_START (R393). -/
def execRelayStart (k : Fin 2) (sender : BitVec 64) (image len : Word) (blocks : BitVec 16) (hops : BitVec 8) (store : Bool)
    (s : State) : Res :=
  onAll (relayStart k sender image len blocks hops store) s

/-- RELAY_BLOCK (R394). -/
def execRelayBlock (k : Fin 2) (sender : BitVec 64) (image : Word) (block : BitVec 16) (data : List Byte) (crc : Word)
    (s : State) : Res :=
  onAll (relayBlock k sender image block data crc) s

/-- RELAY_END (R395). -/
def execRelayEnd (k : Fin 2) (sender : BitVec 64) (image crc : Word) (s : State) : Res := onAll (relayEnd k sender image crc) s

/-- RELAY_ACK (R394). -/
def execRelayAck (k : Fin 2) (sender : BitVec 64) (image : Word) (next : BitVec 16) (code : BitVec 8) (s : State) : Res :=
  onAll (relayAck k sender image next code) s

/-- RELAY_ACK_TIMER (R394). -/
def execRelayAckTimer (s : State) : Res := onDev relayAckTimer s

/-- RELAY_RESEND (R394). -/
def execRelayResend (s : State) : Res := onAll relayResend s

/-- RELAY_STALL (R394). -/
def execRelayStall (s : State) : Res := onDev relayStall s

/-- BLOCK_PROGRAMMED (R394). -/
def execBlockProgrammed (ok : Bool) (s : State) : Res := onAll (blockProgrammed ok) s

/-- RESCUE_REQ (R408). -/
def execRescueReq (k : Fin 2) (sender target : BitVec 64) (hops : BitVec 8) (write : Bool) (tag : BitVec 16) (ofs value : Word)
    (s : State) : Res :=
  onAll (rescueReq k sender target hops write tag ofs value) s

/-- RESCUE_RESP (R408). -/
def execRescueResp (k : Fin 2) (sender target : BitVec 64) (hops : BitVec 8) (status : BitVec 8) (tag : BitVec 16)
    (ofs value : Word) (s : State) : Res :=
  onDev (rescueResp k sender target hops status tag ofs value) s

/-- ORIG_GO (R393). -/
def execOrigGo (m : Master) (value : Word) (s : State) : Res := onAll (origGo m value) s

/-- PRELOAD (R400). -/
def execPreload (m : Master) (value : Word) (s : State) : Res := onAll (preload m value) s

/-- PRELOAD_DONE (R400). -/
def execPreloadDone (s : State) : Res := onAll preloadDone s

/-- SAVE (R405). -/
def execSave (m : Master) (value : Word) (s : State) : Res := onAll (save m value) s

/-- CONFIRM (R402). -/
def execConfirm (m : Master) (value : Word) (s : State) : Res := onAll (confirm m value) s

/-- ALIVE (R401). -/
def execAlive (m : Master) (value : Word) (s : State) : Res := onAll (alive m value) s

/-- HOST_LOCK_WRITE (R403). -/
def execHostLockWrite (m : Master) (value : Word) (s : State) : Res := onDev (hostLockWrite m value) s

/-- ACT_CHECK_DONE (R401). -/
def execActCheckDone (s : State) : Res := onAll actCheckDone s

/-- ACT_CORES_LOADED (R401). -/
def execActCoresLoaded (s : State) : Res := onAll actCoresLoaded s

/-- NO_ALIVE (R401). -/
def execNoAlive (s : State) : Res := onAll noAlive s

/-- RECORD_COMPACT (R406). -/
def execRecordCompact (s : State) : Res := onAll recordCompact s

/-- OTHER_COURSE_FRAME (R389). -/
def execOtherCourseFrame (k : Fin 2) (s : State) : Res := onDev (otherCourseFrame k) s

end Sys2Proof.Machine
end

