-- ==== Sys2Proof/Machine/FrameCommands.lean ====
section
/-!
DEFINITION. Machine/FrameCommands.lean: the commands of the downstream framing (spec/06), one meaning for each row of the table.
-/

namespace Sys2Proof.Machine

/-- CANDIDATE_OPEN (R110). -/
def execCandidateOpen (x : Line) (c : Fin 8) (pos : Nat) (fsb : List Byte) (s : State) : Res :=
  onDev (candidateOpen x c pos fsb) s

/-- CANDIDATE_CHECK (R111). -/
def execCandidateCheck (x : Line) (c : Fin 8) (pos : Nat) (fsb : List Byte) (skew : Int) (s : State) : Res :=
  onDev (candidateCheck x c pos fsb skew) s

/-- DSF_FRAME (R113). -/
def execDsfFrame (x : Line) (c : Fin 8) (fsb : List Byte) (bins : Nat) (skew : Int) (s : State) : Res :=
  onDev (dsfFrame x c fsb bins skew) s

/-- CODEWORD_DECODE (R109). -/
def execCodewordDecode (x : Line) (c : Fin 8) (k : Nat) (syms : List Nat) (s : State) : Res := onDev (codewordDecode x c k syms) s

/-- LOS_DECLARE (R119). -/
def execLosDeclare (x : Line) (c : Fin 8) (s : State) : Res := onDev (losDeclare x c) s

/-- LOS_CLEAR (R119). -/
def execLosClear (x : Line) (c : Fin 8) (s : State) : Res := onDev (losClear x c) s

/-- DSF_MODE_CHANGE (R114). -/
def execDsfModeChange (x : Line) (s : State) : Res := onDev (dsfModeChange x) s

/-- DSF_SECOND_LATCH (R124). -/
def execDsfSecondLatch (x : Line) (s : State) : Res := onDev (dsfSecondLatch x) s

end Sys2Proof.Machine
end

