-- ==== Sys2Proof/Machine/HostCommands.lean ====
section
/-!
DEFINITION. Machine/HostCommands.lean: the commands of the host attachment and its rings (spec/18), one meaning for each row of the table.
-/

namespace Sys2Proof.Machine

/-- DOORBELL (R324). -/
def execDoorbell (f : Fin 32) (size : Nat) (value : Word) (s : State) : Res := onDev (doorbell f size value) s

/-- TX_FRAME_SUBMIT (R326). -/
def execTxFrameSubmit (r : Fin 1024) (descs : List (List Byte)) (data : List Byte) (s : State) : Res :=
  onDev (txFrameSubmit r descs data) s

/-- RX_DELIVER (R327). -/
def execRxDeliver (r : Fin 1024) (descs : List (List Byte)) (s : State) : Res := onDev (rxDeliver r descs) s

/-- CMD_DESCRIPTOR (R328). -/
def execCmdDescriptor (r : Fin 1024) (desc body : List Byte) (s : State) : Res := onDev (cmdDescriptor r desc body) s

/-- CQ_SIGNAL (R332). -/
def execCqSignal (c : Fin 1024) (s : State) : Res := onDev (cqSignal c) s

/-- CQ_STALL (R332). -/
def execCqStall (c : Fin 1024) (s : State) : Res := onDev (cqStall c) s

/-- RING_ENABLE (R323). -/
def execRingEnable (m : Master) (r : Fin 1024) (value : Word) (s : State) : Res := onDev (ringEnable m r value) s

/-- RING_DISABLE (R323). -/
def execRingDisable (m : Master) (r : Fin 1024) (value : Word) (s : State) : Res := onDev (ringDisable m r value) s

/-- HOST_READ_ERROR (R334). -/
def execHostReadError (r : Fin 1024) (what : Fin 3) (tag : BitVec 64) (s : State) : Res := onDev (hostReadError r what tag) s

/-- FLR (R320). -/
def execFlr (f : Fin 31) (s : State) : Res := onDev (flr f) s

/-- USB4_LINK_CHANGE (R315). -/
def execUsb4LinkChange (l : Usb4Link) (s : State) : Res := onDev (usb4LinkChange l) s

/-- CONFIGURATION_REQUEST (R428). -/
def execConfigurationRequest (f : Fin 32) (vfs : Option (Fin 32)) (s : State) : Res := onDev (configurationRequest f vfs) s

/-- MSIX_TABLE_WRITE (R317). -/
def execMsixTableWrite (f : Fin 32) (t : MsixTarget) (value : Word) (s : State) : Res := onDev (msixTableWrite f t value) s

end Sys2Proof.Machine
end

