-- ==== Sys2Proof/Machine/LaneCommands.lean ====
section
/-!
DEFINITION. Machine/LaneCommands.lean: the commands of the server lanes (spec/12), one meaning for each row of the table.
-/

namespace Sys2Proof.Machine

/-- REFS_BAD (R212). -/
def execRefsBad (n : Fin 4) (s : State) : Res := onDev (refsBad n) s

/-- REFS_OK (R212). -/
def execRefsOk (n : Fin 4) (s : State) : Res := onDev (refsGood n) s

/-- LANE_ENABLE_WRITE (R215). -/
def execLaneEnableWrite (m : Master) (q : Fin 16) (l : Fin 4) (value : Word) (s : State) : Res := onDev (laneEnableWrite m q l value) s

/-- LANE_RESTART (R215). -/
def execLaneRestart (m : Master) (q : Fin 16) (l : Fin 4) (value : Word) (s : State) : Res := onDev (laneRestart m q l value) s

/-- SLN_TEST_MODE_WRITE (R220). -/
def execSlnTestModeWrite (m : Master) (q : Fin 16) (l : Fin 4) (value : Word) (s : State) : Res :=
  onDev (slnTestModeWrite m q l value) s

/-- HOST_PRES_WRITE (R216). -/
def execHostPresWrite (m : Master) (q : Fin 16) (l : Fin 4) (value : Word) (s : State) : Res := onDev (hostPresWrite m q l value) s

/-- DETECT_PROBE (R216). -/
def execDetectProbe (q : Fin 16) (l : Fin 4) (hit : Bool) (s : State) : Res := onDev (detectProbe q l hit) s

/-- AN_COMPLETE (R217). -/
def execAnComplete (q : Fin 16) (l : Fin 4) (tech : BitVec 8) (fec : BitVec 4) (pause : BitVec 2) (s : State) : Res :=
  onDev (anComplete q l tech fec pause) s

/-- AN_TO_EXPIRE (R215). -/
def execAnToExpire (q : Fin 16) (l : Fin 4) (s : State) : Res := onDev (anToExpire q l) s

/-- TRAIN_COMPLETE (R215). -/
def execTrainComplete (q : Fin 16) (l : Fin 4) (amp : BitVec 8) (pre : BitVec 4) (post : BitVec 5) (s : State) : Res :=
  onDev (trainComplete q l amp pre post) s

/-- TRAIN_FAIL (R215). -/
def execTrainFail (q : Fin 16) (l : Fin 4) (reported : Bool) (s : State) : Res := onDev (trainFail q l reported) s

/-- BLOCK_LOCK (R219). -/
def execBlockLock (q : Fin 16) (l : Fin 4) (markers : Bool) (headers : List Bool) (s : State) : Res := onDev (blockLock q l markers headers) s

/-- LINK_TO_EXPIRE (R215). -/
def execLinkToExpire (q : Fin 16) (l : Fin 4) (s : State) : Res := onDev (linkToExpire q l) s

/-- CAP_DONE (R218). -/
def execCapDone (q : Fin 16) (l : Fin 4) (s : State) : Res := onDev (capDone q l) s

/-- LOCK_LOSS (R215). -/
def execLockLoss (q : Fin 16) (l : Fin 4) (what : LockLoss) (s : State) : Res := onDev (lockLoss q l what) s

/-- FAULT_RECEIVED (R218). -/
def execFaultReceived (q : Fin 16) (l : Fin 4) (remote : Bool) (s : State) : Res := onDev (faultReceived q l remote) s

/-- RATE_MATCH (R213). -/
def execRateMatch (q : Fin 16) (l : Fin 4) (drift : Int) (inFrame : Bool) (s : State) : Res := onDev (rateMatch q l drift inFrame) s

/-- FAULT_CLEAR (R218). -/
def execFaultClear (q : Fin 16) (l : Fin 4) (s : State) : Res := onDev (faultClear q l) s

end Sys2Proof.Machine
end

