-- ==== Sys2Proof/Machine/LineCommands.lean ====
section
/-!
DEFINITION. Machine/LineCommands.lean: the commands of the line lanes and their modules (spec/05), one meaning for each row of the table.
-/

namespace Sys2Proof.Machine

/-- MOD_PRESENT (R91). -/
def execModPresent (x : Line) (held : Bool) (s : State) : Res := onDev (modPresent x held) s

/-- MOD_ABSENT (R91). -/
def execModAbsent (x : Line) (s : State) : Res := onDev (modAbsent x) s

/-- MOD_RESET_RELEASE (R91). -/
def execModResetRelease (x : Line) (s : State) : Res := onDev (modResetRelease x) s

/-- MOD_INIT_DONE (R91). -/
def execModInitDone (x : Line) (s : State) : Res := onDev (modInitDone x) s

/-- MOD_CHECK_DONE (R88). -/
def execModCheckDone (x : Line) (bytes : List Byte) (s : State) : Res := onDev (modCheckDone x bytes) s

/-- MOD_BUS_TIMEOUT (R89). -/
def execModBusTimeout (x : Line) (page : Bool) (s : State) : Res := onDev (modBusTimeout x page) s

/-- MOD_RECHECK (R92). -/
def execModRecheck (x : Line) (s : State) : Res := onDev (modRecheck x) s

/-- MOD_CHECK (R91). -/
def execModCheck (m : Master) (x : Line) (value : Word) (s : State) : Res := onDev (modCheck m x value) s

/-- MOD_DECLARE (R91). -/
def execModDeclare (m : Master) (x : Line) (value : Word) (s : State) : Res := onDev (modDeclare m x value) s

/-- MOD_XFER (R93). -/
def execModXfer (m : Master) (x : Line) (value : Word) (s : State) : Res := onDev (modXfer m x value) s

/-- MOD_XFER_DONE (R93). -/
def execModXferDone (x : Line) (err : Bool) (data : Byte) (s : State) : Res := onDev (modXferDone x err data) s

/-- SIGNAL_CHANGE (R85). -/
def execSignalChange (x : Line) (r : Fin 8) (high : Bool) (s : State) : Res := onDev (signalChange x r high) s

/-- CDR_LOCK_CHANGE (R84). -/
def execCdrLockChange (x : Line) (r : Fin 8) (lock : Bool) (s : State) : Res := onDev (cdrLockChange x r lock) s

/-- LL_TEST_MODE_WRITE (R97). -/
def execLlTestModeWrite (m : Master) (x : Line) (value : Word) (s : State) : Res :=
  onDev (llTestModeWrite m x value) s

/-- LOOPBACK_TEST_BURST (R98). -/
def execLoopbackTestBurst (x : Line) (s : State) : Res := onDev (loopbackTestBurst x) s

/-- PRBS_LOCK (R101). -/
def execPrbsLock (r : RxLane) (s : State) : Res := onDev (prbsLock r) s

/-- PRBS_LOSS (R101). -/
def execPrbsLoss (r : RxLane) (errs : Nat) (s : State) : Res := onDev (prbsLoss r errs) s

/-- CHECKER_CLR (R101). -/
def execCheckerClr (m : Master) (r : RxLane) (value : Word) (s : State) : Res := onDev (checkerClr m r value) s

/-- INJ_SINGLE (R102). -/
def execInjSingle (m : Master) (p : PrbsLane) (value : Word) (s : State) : Res := onDev (injSingle m p value) s

/-- INJ_BURST (R102). -/
def execInjBurst (m : Master) (p : PrbsLane) (value : Word) (s : State) : Res := onDev (injBurst m p value) s

end Sys2Proof.Machine
end

