-- ==== Sys2Proof/Machine/MacCommands.lean ====
section
/-!
DEFINITION. Machine/MacCommands.lean: the commands of the server MACs (spec/13), one meaning for each row of the table.
-/

namespace Sys2Proof.Machine

/-- MAC_RX_FRAME (R226). -/
def execMacRxFrame (q : Fin 16) (l : Fin 4) (frame : List Byte) (err : Bool) (dec : LaneDecode) (ps : Nat) (s : State) : Res :=
  onDev (macRxFrame q l frame err dec ps) s

/-- PAUSE_RX (R229). -/
def execPauseRx (q : Fin 16) (l : Fin 4) (quanta : BitVec 16) (ps : Nat) (s : State) : Res := onDev (pauseRx q l quanta ps) s

/-- PFC_RX (R229). -/
def execPfcRx (q : Fin 16) (l : Fin 4) (enable : BitVec 8) (quanta : List Nat) (ps : Nat) (s : State) : Res :=
  onDev (pfcRx q l enable quanta ps) s

/-- PAUSE_EXPIRE (R230). -/
def execPauseExpire (q : Fin 16) (l : Fin 4) (key : Fin 9) (s : State) : Res := onDev (pauseExpire q l key) s

/-- PAUSE_WATCHDOG (R232). -/
def execPauseWatchdog (q : Fin 16) (l : Fin 4) (key : Fin 9) (s : State) : Res := onDev (pauseWatchdog q l key) s

/-- WD_IGNORE_END (R232). -/
def execWdIgnoreEnd (q : Fin 16) (l : Fin 4) (key : Fin 9) (s : State) : Res := onDev (wdIgnoreEnd q l key) s

/-- MAC_TX_FRAME (R227). -/
def execMacTxFrame (q : Fin 16) (l : Fin 4) (ps : Nat) (s : State) : Res := onDev (macTxFrame q l ps) s

/-- FC_SEND (R231). -/
def execFcSend (q : Fin 16) (l : Fin 4) (s : State) : Res := onDev (fcSend q l) s

/-- FC_REFRESH (R231). -/
def execFcRefresh (q : Fin 16) (l : Fin 4) (key : Fin 9) (s : State) : Res := onDev (fcRefresh q l key) s

end Sys2Proof.Machine
end

