-- ==== Sys2Proof/Machine/PacketCommands.lean ====
section
/-!
DEFINITION. Machine/PacketCommands.lean: the commands of the parser, the classifier and the Ashlar tables (spec/14, spec/15), one meaning for each row of the table.
-/

namespace Sys2Proof.Machine

/-- FRAME_PARSE (R237). -/
def execFrameParse (full : Bool) (s : State) : Res := onDev (frameParse full) s

/-- CLASSIFY_LOOKUP (R242). -/
def execClassifyLookup (ecc flowErr : Ecc) (s : State) : Res := onDev (classifyLookup ecc flowErr) s

/-- SECOND_PASS (R245). -/
def execSecondPass (pipe : Fin 9) (ecc flowErr : Ecc) (s : State) : Res := onDev (secondPass pipe ecc flowErr) s

/-- RECIRC_TIMEOUT (R245). -/
def execRecircTimeout (pipe : Fin 9) (s : State) : Res := onDev (recircTimeout pipe) s

/-- RULE_WRITE (R246). -/
def execRuleWrite (m : Master) (value : Word) (s : State) : Res := onDev (ruleWrite m value) s

/-- RULE_READ (R246). -/
def execRuleRead (m : Master) (value : Word) (s : State) : Res := onDev (ruleRead m value) s

/-- RULE_WRITE_DONE (R246). -/
def execRuleWriteDone (s : State) : Res := onDev ruleWriteDone s

/-- PATTERN_WRITE (R248). -/
def execPatternWrite (m : Master) (value : Word) (s : State) : Res := onDev (patternWrite m value) s

/-- PATTERN_READ (R248). -/
def execPatternRead (m : Master) (value : Word) (s : State) : Res := onDev (patternRead m value) s

/-- FLOW_MISS_RESOLVE (R262). -/
def execFlowMissResolve (ecc : Ecc) (slot : Fin 8) (s : State) : Res := onAll (flowMissResolve ecc slot) s

/-- MISS_TIMEOUT (R262). -/
def execMissTimeout (s : State) : Res := onDev missTimeout s

/-- EP_WRITE (R253). -/
def execEpWrite (m : Master) (value : Word) (s : State) : Res := onDev (epWrite m value) s

/-- EP_READ (R253). -/
def execEpRead (m : Master) (value : Word) (s : State) : Res := onDev (epRead m value) s

/-- INSERT (R265). -/
def execFlowInsert (s : State) : Res := onAll flowInsert s

/-- UPDATE (R264). -/
def execFlowUpdate (s : State) : Res := onAll flowUpdate s

/-- DELETE (R264). -/
def execFlowDelete (s : State) : Res := onAll flowDelete s

/-- LOOKUP (R264). -/
def execFlowLookup (s : State) : Res := onAll flowFind s

/-- FLUSH_EP (R266). -/
def execFlushEp (s : State) : Res := onDev flushEp s

/-- CLEAR_ALL (R266). -/
def execClearAll (s : State) : Res := onDev clearAll s

/-- ASH_CMD_BAD_OPCODE (R264). -/
def execAshCmdBadOpcode (s : State) : Res := onDev ashCmdBadOpcode s

/-- WALK_DONE (R266). -/
def execWalkDone (s : State) : Res := onAll walkDone s

/-- LEARN (R263). -/
def execLearn (s : State) : Res := onAll learn s

/-- AGE_VISIT (R267). -/
def execAgeVisit (s : State) : Res := onAll ageVisit s

/-- EP_SCRUB (R269). -/
def execEpScrub (e : Fin 1048576) (ecc : Ecc) (s : State) : Res := onDev (epScrub e ecc) s

/-- FLOW_SCRUB (R269). -/
def execFlowScrub (b : Fin 4194304) (ecc : Ecc) (slot : Fin 4) (s : State) : Res := onAll (flowScrub b ecc slot) s

end Sys2Proof.Machine
end

