-- ==== Sys2Proof/Machine/PowerCommands.lean ====
section
/-!
DEFINITION. Machine/PowerCommands.lean: the commands of the power states (spec/20), one meaning for each row of the table.
-/

namespace Sys2Proof.Machine

/-- PWR_REQ_WRITE (R362). -/
def execPwrReqWrite (m : Master) (u : UnitIx) (value : Word) (s : State) : Res := onDev (pwrReqWrite m u value) s

/-- UNIT_GRANT (R363). -/
def execUnitGrant (empty : Bool) (s : State) : Res := onAll (unitGrant empty) s

/-- GRANT_TIMEOUT (R363). -/
def execGrantTimeout (s : State) : Res := onDev grantTimeout s

/-- DOMAIN_SWITCH_OFF (R365). -/
def execDomainSwitchOff (s : State) : Res := onAll domainSwitchOff s

/-- AVS_ACK (R368). -/
def execAvsAck (s : State) : Res := onDev avsAck s

/-- AVS_TIMEOUT (R368). -/
def execAvsTimeout (s : State) : Res := onDev avsTimeout s

/-- WAKE_SOURCE (R370). -/
def execWakeSource (p : WakePin) (s : State) : Res := onDev (wakeSource p) s

/-- PLL_LOCK (R372). -/
def execPllLock (s : State) : Res := onDev pllLock s

/-- PLL_TIMEOUT (R374). -/
def execPllTimeout (s : State) : Res := onAll pllTimeout s

/-- DOMAIN_SWITCH_ON (R372). -/
def execDomainSwitchOn (tested : List Word) (faulty : List UnitIx) (segs : List (Fin 16)) (s : State) : Res :=
  onAll (domainSwitchOn tested faulty segs) s

/-- WAKE_COMPLETE (R372). -/
def execWakeComplete (s : State) : Res := onDev wakeComplete s

/-- PWR_ALT_CHANGE (R369). -/
def execPwrAltChange (asserted : Bool) (s : State) : Res := onDev (pwrAltChange asserted) s

/-- THERMAL_STOP (R460). -/
def execThermalStop (s : State) : Res := onAll thermalStop s

end Sys2Proof.Machine
end

