-- ==== Sys2Proof/Machine/RangingCommands.lean ====
section
/-!
DEFINITION. Machine/RangingCommands.lean: the commands of registration and ranging (spec/07), one meaning for each row of the table.
-/

namespace Sys2Proof.Machine

/-- ASSIGN_ID (R136). -/
def execAssignId (x : Line) (h : LmmHead) (sn : BitVec 64) (id : BitVec 12) (s : State) : Res := onDev (assignId x h sn id) s

/-- RANGE_RESULT (R141). -/
def execRangeResult (x : Line) (h : LmmHead) (u : Fin 4) (last heValid : Bool) (eqd : BitVec 24) (rtd : Word)
    (applyFrame : BitVec 48) (he : Word) (s : State) : Res :=
  onDev (rangeResult x h u last heValid eqd rtd applyFrame he) s

/-- DEREGISTER (R134). -/
def execDeregister (x : Line) (h : LmmHead) (s : State) : Res := onDev (deregister x h) s

/-- EMERGENCY_STOP (R138). -/
def execEmergencyStop (x : Line) (h : LmmHead) (sn : BitVec 64) (s : State) : Res := onDev (emergencyStop x h sn) s

/-- RESUME (R138). -/
def execResume (x : Line) (h : LmmHead) (sn : BitVec 64) (s : State) : Res := onDev (resume x h sn) s

/-- SLEEP_ACK (R145). -/
def execSleepAck (x : Line) (h : LmmHead) (status : BitVec 8) (lease : BitVec 16) (s : State) : Res :=
  onDev (sleepAck x h status lease) s

/-- RELEASE (R130). -/
def execRelease (x : Line) (h : LmmHead) (master : BitVec 8) (s : State) : Res := onDev (release x h master) s

/-- FREEZE_REPORT (R130). -/
def execFreezeReport (s : State) : Res := onDev freezeReport s

/-- REG_EN_WRITE (R134). -/
def execRegEnWrite (m : Master) (x : Line) (value : Word) (s : State) : Res := onDev (regEnWrite m x value) s

/-- ANNOUNCE_START (R134). -/
def execAnnounceStart (x : Line) (s : State) : Res := onDev (announceStart x) s

/-- ANN_TO_EXPIRE (R134). -/
def execAnnToExpire (x : Line) (s : State) : Res := onDev (annToExpire x) s

/-- RNG_TO_EXPIRE (R134). -/
def execRngToExpire (x : Line) (s : State) : Res := onDev (rngToExpire x) s

/-- RANGING_COMPLETE (R134). -/
def execRangingComplete (x : Line) (s : State) : Res := onDev (rangingComplete x) s

/-- EQD_APPLY (R141). -/
def execEqdApply (x : Line) (s : State) : Res := onDev (eqdApply x) s

/-- HOLD_TO_EXPIRE (R134). -/
def execHoldToExpire (x : Line) (s : State) : Res := onDev (holdToExpire x) s

/-- SLEEP_ACK_TIMEOUT (R145). -/
def execSleepAckTimeout (x : Line) (s : State) : Res := onDev (sleepAckTimeout x) s

/-- LEASE_EXPIRE (R145). -/
def execLeaseExpire (x : Line) (s : State) : Res := onDev (leaseExpire x) s

/-- SLEEP_RESUME (R146). -/
def execSleepResume (x : Line) (s : State) : Res := onDev (sleepResume x) s

end Sys2Proof.Machine
end

