-- ==== Sys2Proof/Machine/RegisterCommands.lean ====
section
/-!
DEFINITION. Machine/RegisterCommands.lean: the register and log commands: writes, reads, and the release of masters (spec/02), one meaning for each row of the table.
-/

namespace Sys2Proof.Machine

/-- REGISTER_WRITE (R20). -/
def execRegisterWrite (m : Master) (ofs : BitVec 26) (size : Nat) (value : BitVec 64) (s : State) : Res :=
  onAll (registerWrite m ofs size value) s

/-- LO_READ_LATCH (R20). -/
def execLoReadLatch (m : Master) (ofs : BitVec 26) (size : Nat) (s : State) : Res := onDev (loReadLatch m ofs size) s

/-- FRZ_RELEASE (R36). -/
def execFrzRelease (m : Master) (value : Word) (s : State) : Res := onAll (frzReleased m value) s

end Sys2Proof.Machine
end

