-- ==== Sys2Proof/Machine/ResetCommands.lean ====
section
/-!
DEFINITION. Machine/ResetCommands.lean: the commands of start-up and reset (spec/24), one meaning for each row of the table.
-/

namespace Sys2Proof.Machine

/-- REF_FIRST_EDGE (R422). -/
def execRefFirstEdge (ref : RefClock) (s : State) : Res := onDev (refFirstEdge ref) s

/-- PORST (R427). -/
def execPorst (s : State) : Res := onAll porst s

/-- VDD_AO_LOSS (R423). -/
def execVddAoLoss (s : State) : Res := onAll vddAoLoss s

/-- RESET_N (R423). -/
def execResetN (s : State) : Res := onAll resetN s

/-- SYSTEM (R423). -/
def execSystemWrite (m : Master) (value : Word) (s : State) : Res := onAll (systemWrite m value) s

/-- CORE (R426). -/
def execCoreWrite (m : Master) (value : Word) (s : State) : Res := onAll (coreWrite m value) s

/-- FUNCTION_RESET (R425). -/
def execFunctionReset (s : State) : Res := onDev functionReset s

/-- WDT_EXPIRE (R426). -/
def execWdtExpire (s : State) : Res := onAll wdtExpire s

/-- KICK (R426). -/
def execKick (m : Master) (value : Word) (s : State) : Res := onDev (kick m value) s

/-- BOOT_DONE (R427). -/
def execBootDone (m : Master) (value : Word) (s : State) : Res := onDev (bootDone m value) s

/-- BOOT_RELEASE_TIMEOUT (R428). -/
def execBootReleaseTimeout (s : State) : Res := onDev bootReleaseTimeout s

/-- HOME_WAIT_EXPIRE (R431). -/
def execHomeWaitExpire (s : State) : Res := onDev homeWaitExpire s

/-- I2C_ABANDON (R441). -/
def execI2cAbandon (s : State) : Res := onDev i2cAbandon s

/-- JTAG_INSTRUCTION (R442). -/
def execJtagInstruction (i : JtagInstr) (low : Bool) (s : State) : Res := onDev (jtagInstruction i low) s

end Sys2Proof.Machine
end

