-- ==== Sys2Proof/Machine/SaddleCommands.lean ====
section
/-!
DEFINITION. Machine/SaddleCommands.lean: the commands of the line protection and of the delivery of anchors (spec/11, spec/17), one meaning for each row of the table.
-/

namespace Sys2Proof.Machine

/-- TIME_ANCHOR (R296). -/
def execTimeAnchor (x : Line) (h : LmmHead) (a : AnchorBody) (s : State) : Res := onDev (timeAnchor x h a) s

/-- HEALTH_REPORT (R200). -/
def execHealthReport (s : State) : Res := onDev healthReports s

/-- SWITCH_END (R205). -/
def execSwitchEnd (s : State) : Res := onDev switchEnd s

/-- WTR_EXPIRE (R207). -/
def execWtrExpire (s : State) : Res := onDev wtrExpire s

end Sys2Proof.Machine
end

