-- ==== Sys2Proof/Machine/TestCommands.lean ====
section
/-!
DEFINITION. Machine/TestCommands.lean: the commands of the self-test (spec/21), one meaning for each row of the table.
-/

namespace Sys2Proof.Machine

/-- HDR_BST_START (R379). -/
def execHdrBstStart (m : Master) (u : UnitIx) (s : State) : Res := onDev (hdrBstStart m u) s

/-- HDR_BST_ABORT (R379). -/
def execHdrBstAbort (m : Master) (u : UnitIx) (s : State) : Res := onDev (hdrBstAbort m u) s

/-- SLICE_START (R384). -/
def execSliceStart (s : State) : Res := onDev sliceStart s

/-- SLICE_PATTERNS_DONE (R382). -/
def execSlicePatternsDone (sig : BitVec 64) (good : Bool) (s : State) : Res := onDev (slicePatternsDone sig good) s

/-- SLICE_BUDGET (R381). -/
def execSliceBudget (s : State) : Res := onDev sliceBudget s

/-- SERVICE_REQUEST (R383). -/
def execServiceRequest (t : Fin 48) (s : State) : Res := onDev (serviceRequest t) s

/-- SLICE_RESTORE_DONE (R381). -/
def execSliceRestoreDone (s : State) : Res := onDev sliceRestoreDone s

/-- OVERDUE (R384). -/
def execOverdue (s : State) : Res := onDev overdue s

/-- BST_SUMMARY (R387). -/
def execBstSummary (s : State) : Res := onDev bstSummary s

end Sys2Proof.Machine
end

