-- ==== Sys2Proof/Machine/TimeCommands.lean ====
section
/-!
DEFINITION. Machine/TimeCommands.lean: the commands of the time engine (spec/03), one meaning for each row of the table.
-/

namespace Sys2Proof.Machine

/-- TICK (R40). -/
def execTick (s : State) : Res := onAll tick s

/-- TIME_CAPTURE (R42). -/
def execTimeCapture (m : Master) (value : Word) (s : State) : Res := onDev (timeCapture m value) s

/-- TDC_EXCHANGE (R46). -/
def execTdcExchange (counts : List Nat) (s : State) : Res := onDev (tdcExchange counts) s

/-- OFFSET_EVAL (R49). -/
def execOffsetEval (x : Line) (s : State) : Res := onDev (offsetEval x) s

/-- DOMAIN_TIMEOUT (R48). -/
def execDomainTimeout (x : Line) (s : State) : Res := onDev (domainTimeout x) s

/-- SERVO_PROP_EXPIRE (R51). -/
def execServoPropExpire (s : State) : Res := onDev servoPropExpire s

/-- SLEW_DONE (R55). -/
def execSlewDone (s : State) : Res := onDev slewDone s

/-- HOLD_AGED (R57). -/
def execHoldAged (s : State) : Res := onDev holdAged s

/-- REF_FAIL (R62). -/
def execRefFail (periods : Nat) (s : State) : Res := onDev (refFail periods) s

/-- REF25B_FAIL (R63). -/
def execRef25bFail (s : State) : Res := onDev ref25bFail s

/-- REF_STOP (R63). -/
def execRefStop (s : State) : Res := onDev refStop s

/-- REF_RETURN (R63). -/
def execRefReturn (ref : RefClock) (s : State) : Res := onDev (refReturn ref) s

/-- COMPARISON_WINDOW_END (R467). -/
def execComparisonWindowEnd (ok25 ok25b : Bool) (ratio : Word) (phase : Nat) (s : State) : Res :=
  onDev (comparisonWindowEnd ok25 ok25b ratio phase) s

end Sys2Proof.Machine
end

