-- ==== Sys2Proof/Machine/TrafficCommands.lean ====
section
/-!
DEFINITION. Machine/TrafficCommands.lean: the commands of the traffic manager (spec/16), one meaning for each row of the table.
-/

namespace Sys2Proof.Machine

/-- FRAME_ADMIT (R276). -/
def execFrameAdmit (s : State) : Res := onDev frameAdmit s

/-- SERVER_DEQUEUE (R281). -/
def execServerDequeue (p : Fin 64) (ecc : Ecc) (s : State) : Res := onDev (serverDequeue p ecc) s

/-- GATE_LIST_START (R290). -/
def execGateListStart (sched : Fin 576) (s : State) : Res := onDev (gateListStart sched) s

/-- GATE_CHANGE (R288). -/
def execGateChange (sched : Fin 576) (s : State) : Res := onDev (gateChange sched) s

/-- GL_WRITE (R287). -/
def execGlWrite (m : Master) (value : Word) (s : State) : Res := onDev (glWrite m value) s

/-- GL_READ (R287). -/
def execGlRead (m : Master) (value : Word) (s : State) : Res := onDev (glRead m value) s

/-- Q_SEL_WRITE (R294). -/
def execQSelWrite (m : Master) (value : Word) (s : State) : Res := onDev (qSelWrite m value) s

/-- PORT_FLUSH (R291). -/
def execPortFlush (p : Fin 64) (s : State) : Res := onDev (portFlush p) s

end Sys2Proof.Machine
end

