-- ==== Sys2Proof/Machine/Dispatch.lean ====
section
/-!
DEFINITION. Machine/Dispatch.lean: one arm for each command, each a direct call of its meaning.
-/

namespace Sys2Proof.Machine

def exec (i : Instr) (s : State) : Host.Outcome State Fault Refusal :=
  match i with
  | .registerWrite m ofs size value => Sys2Proof.Machine.execRegisterWrite m ofs size value s
  | .loReadLatch m ofs size => Sys2Proof.Machine.execLoReadLatch m ofs size s
  | .frzRelease m value => Sys2Proof.Machine.execFrzRelease m value s
  | .pwrReqWrite m u value => Sys2Proof.Machine.execPwrReqWrite m u value s
  | .hdrBstStart m u => Sys2Proof.Machine.execHdrBstStart m u s
  | .hdrBstAbort m u => Sys2Proof.Machine.execHdrBstAbort m u s
  | .tick => Sys2Proof.Machine.execTick s
  | .timeCapture m value => Sys2Proof.Machine.execTimeCapture m value s
  | .tdcExchange counts => Sys2Proof.Machine.execTdcExchange counts s
  | .offsetEval x => Sys2Proof.Machine.execOffsetEval x s
  | .domainTimeout x => Sys2Proof.Machine.execDomainTimeout x s
  | .servoPropExpire => Sys2Proof.Machine.execServoPropExpire s
  | .slewDone => Sys2Proof.Machine.execSlewDone s
  | .holdAged => Sys2Proof.Machine.execHoldAged s
  | .refFail periods => Sys2Proof.Machine.execRefFail periods s
  | .ref25bFail => Sys2Proof.Machine.execRef25bFail s
  | .refStop => Sys2Proof.Machine.execRefStop s
  | .refReturn ref => Sys2Proof.Machine.execRefReturn ref s
  | .refFirstEdge ref => Sys2Proof.Machine.execRefFirstEdge ref s
  | .commitPost m p value => Sys2Proof.Machine.execCommitPost m p value s
  | .commitCancel m p value => Sys2Proof.Machine.execCommitCancel m p value s
  | .commitDue => Sys2Proof.Machine.execCommitDue s
  | .commitFrameTimeout => Sys2Proof.Machine.execCommitFrameTimeout s
  | .modPresent x held => Sys2Proof.Machine.execModPresent x held s
  | .modAbsent x => Sys2Proof.Machine.execModAbsent x s
  | .modResetRelease x => Sys2Proof.Machine.execModResetRelease x s
  | .modInitDone x => Sys2Proof.Machine.execModInitDone x s
  | .modCheckDone x bytes => Sys2Proof.Machine.execModCheckDone x bytes s
  | .modBusTimeout x page => Sys2Proof.Machine.execModBusTimeout x page s
  | .modRecheck x => Sys2Proof.Machine.execModRecheck x s
  | .modCheck m x value => Sys2Proof.Machine.execModCheck m x value s
  | .modDeclare m x value => Sys2Proof.Machine.execModDeclare m x value s
  | .modXfer m x value => Sys2Proof.Machine.execModXfer m x value s
  | .modXferDone x err data => Sys2Proof.Machine.execModXferDone x err data s
  | .signalChange x r high => Sys2Proof.Machine.execSignalChange x r high s
  | .cdrLockChange x r lock => Sys2Proof.Machine.execCdrLockChange x r lock s
  | .llTestModeWrite m x value => Sys2Proof.Machine.execLlTestModeWrite m x value s
  | .loopbackTestBurst x => Sys2Proof.Machine.execLoopbackTestBurst x s
  | .prbsLock r => Sys2Proof.Machine.execPrbsLock r s
  | .prbsLoss r errs => Sys2Proof.Machine.execPrbsLoss r errs s
  | .checkerClr m r value => Sys2Proof.Machine.execCheckerClr m r value s
  | .injSingle m p value => Sys2Proof.Machine.execInjSingle m p value s
  | .injBurst m p value => Sys2Proof.Machine.execInjBurst m p value s
  | .candidateOpen x c pos fsb => Sys2Proof.Machine.execCandidateOpen x c pos fsb s
  | .candidateCheck x c pos fsb skew => Sys2Proof.Machine.execCandidateCheck x c pos fsb skew s
  | .dsfFrame x c fsb bins skew => Sys2Proof.Machine.execDsfFrame x c fsb bins skew s
  | .codewordDecode x c k syms => Sys2Proof.Machine.execCodewordDecode x c k syms s
  | .losDeclare x c => Sys2Proof.Machine.execLosDeclare x c s
  | .losClear x c => Sys2Proof.Machine.execLosClear x c s
  | .dsfModeChange x => Sys2Proof.Machine.execDsfModeChange x s
  | .dsfSecondLatch x => Sys2Proof.Machine.execDsfSecondLatch x s
  | .assignId x h sn id => Sys2Proof.Machine.execAssignId x h sn id s
  | .rangeResult x h u last heValid eqd rtd applyFrame he => Sys2Proof.Machine.execRangeResult x h u last heValid eqd rtd applyFrame he s
  | .deregister x h => Sys2Proof.Machine.execDeregister x h s
  | .emergencyStop x h sn => Sys2Proof.Machine.execEmergencyStop x h sn s
  | .resume x h sn => Sys2Proof.Machine.execResume x h sn s
  | .sleepAck x h status lease => Sys2Proof.Machine.execSleepAck x h status lease s
  | .timeAnchor x h a => Sys2Proof.Machine.execTimeAnchor x h a s
  | .keyWrap x h page slot wrapped => Sys2Proof.Machine.execKeyWrap x h page slot wrapped s
  | .keySwitch x h page slot n => Sys2Proof.Machine.execKeySwitch x h page slot n s
  | .keyClear x h page slot => Sys2Proof.Machine.execKeyClear x h page slot s
  | .ownerLock x h flags => Sys2Proof.Machine.execOwnerLock x h flags s
  | .release x h master => Sys2Proof.Machine.execRelease x h master s
  | .freezeReport => Sys2Proof.Machine.execFreezeReport s
  | .regEnWrite m x value => Sys2Proof.Machine.execRegEnWrite m x value s
  | .announceStart x => Sys2Proof.Machine.execAnnounceStart x s
  | .annToExpire x => Sys2Proof.Machine.execAnnToExpire x s
  | .rngToExpire x => Sys2Proof.Machine.execRngToExpire x s
  | .rangingComplete x => Sys2Proof.Machine.execRangingComplete x s
  | .eqdApply x => Sys2Proof.Machine.execEqdApply x s
  | .holdToExpire x => Sys2Proof.Machine.execHoldToExpire x s
  | .responseBurst x mis => Sys2Proof.Machine.execResponseBurst x mis s
  | .sleepAckTimeout x => Sys2Proof.Machine.execSleepAckTimeout x s
  | .leaseExpire x => Sys2Proof.Machine.execLeaseExpire x s
  | .sleepResume x => Sys2Proof.Machine.execSleepResume x s
  | .grantHorizon x => Sys2Proof.Machine.execGrantHorizon x s
  | .floorReserve x => Sys2Proof.Machine.execFloorReserve x s
  | .stagingStep ecc mis => Sys2Proof.Machine.execStagingStep ecc mis s
  | .burstBenRise x u => Sys2Proof.Machine.execBurstBenRise x u s
  | .unitCutoff x u ecc => Sys2Proof.Machine.execUnitCutoff x u ecc s
  | .burstEnd x u => Sys2Proof.Machine.execBurstEnd x u s
  | .benFall x u => Sys2Proof.Machine.execBenFall x u s
  | .carryExpire => Sys2Proof.Machine.execCarryExpire s
  | .lineUnitRx x mis => Sys2Proof.Machine.execLineUnitRx x mis s
  | .reasmTimeout x => Sys2Proof.Machine.execReasmTimeout x s
  | .slotLoad m k value => Sys2Proof.Machine.execSlotLoad m k value s
  | .slotClear m k value => Sys2Proof.Machine.execSlotClear m k value s
  | .saltWrite m p value => Sys2Proof.Machine.execSaltWrite m p value s
  | .bootKeyWrite m x j value => Sys2Proof.Machine.execBootKeyWrite m x j value s
  | .ctrLimitWrite m hi value => Sys2Proof.Machine.execCtrLimitWrite m hi value s
  | .keyOwnerChange m p value => Sys2Proof.Machine.execKeyOwnerChange m p value s
  | .cipOverrun x => Sys2Proof.Machine.execCipOverrun x s
  | .healthReport => Sys2Proof.Machine.execHealthReport s
  | .switchEnd => Sys2Proof.Machine.execSwitchEnd s
  | .wtrExpire => Sys2Proof.Machine.execWtrExpire s
  | .bmapApertureWrite m k value => Sys2Proof.Machine.execBmapApertureWrite m k value s
  | .refsBad n => Sys2Proof.Machine.execRefsBad n s
  | .refsOk n => Sys2Proof.Machine.execRefsOk n s
  | .laneEnableWrite m q l value => Sys2Proof.Machine.execLaneEnableWrite m q l value s
  | .laneRestart m q l value => Sys2Proof.Machine.execLaneRestart m q l value s
  | .slnTestModeWrite m q l value => Sys2Proof.Machine.execSlnTestModeWrite m q l value s
  | .hostPresWrite m q l value => Sys2Proof.Machine.execHostPresWrite m q l value s
  | .detectProbe q l hit => Sys2Proof.Machine.execDetectProbe q l hit s
  | .anComplete q l tech fec pause => Sys2Proof.Machine.execAnComplete q l tech fec pause s
  | .anToExpire q l => Sys2Proof.Machine.execAnToExpire q l s
  | .trainComplete q l amp pre post => Sys2Proof.Machine.execTrainComplete q l amp pre post s
  | .trainFail q l reported => Sys2Proof.Machine.execTrainFail q l reported s
  | .blockLock q l markers headers => Sys2Proof.Machine.execBlockLock q l markers headers s
  | .linkToExpire q l => Sys2Proof.Machine.execLinkToExpire q l s
  | .capDone q l => Sys2Proof.Machine.execCapDone q l s
  | .lockLoss q l what => Sys2Proof.Machine.execLockLoss q l what s
  | .faultReceived q l remote => Sys2Proof.Machine.execFaultReceived q l remote s
  | .rateMatch q l drift inFrame => Sys2Proof.Machine.execRateMatch q l drift inFrame s
  | .macRxFrame q l frame err dec ps => Sys2Proof.Machine.execMacRxFrame q l frame err dec ps s
  | .pauseRx q l quanta ps => Sys2Proof.Machine.execPauseRx q l quanta ps s
  | .pfcRx q l enable quanta ps => Sys2Proof.Machine.execPfcRx q l enable quanta ps s
  | .pauseExpire q l key => Sys2Proof.Machine.execPauseExpire q l key s
  | .pauseWatchdog q l key => Sys2Proof.Machine.execPauseWatchdog q l key s
  | .wdIgnoreEnd q l key => Sys2Proof.Machine.execWdIgnoreEnd q l key s
  | .macTxFrame q l ps => Sys2Proof.Machine.execMacTxFrame q l ps s
  | .fcSend q l => Sys2Proof.Machine.execFcSend q l s
  | .fcRefresh q l key => Sys2Proof.Machine.execFcRefresh q l key s
  | .frameParse full => Sys2Proof.Machine.execFrameParse full s
  | .classifyLookup ecc flowErr => Sys2Proof.Machine.execClassifyLookup ecc flowErr s
  | .secondPass pipe ecc flowErr => Sys2Proof.Machine.execSecondPass pipe ecc flowErr s
  | .recircTimeout pipe => Sys2Proof.Machine.execRecircTimeout pipe s
  | .ruleWrite m value => Sys2Proof.Machine.execRuleWrite m value s
  | .ruleRead m value => Sys2Proof.Machine.execRuleRead m value s
  | .ruleWriteDone => Sys2Proof.Machine.execRuleWriteDone s
  | .patternWrite m value => Sys2Proof.Machine.execPatternWrite m value s
  | .patternRead m value => Sys2Proof.Machine.execPatternRead m value s
  | .flowMissResolve ecc slot => Sys2Proof.Machine.execFlowMissResolve ecc slot s
  | .missTimeout => Sys2Proof.Machine.execMissTimeout s
  | .epWrite m value => Sys2Proof.Machine.execEpWrite m value s
  | .epRead m value => Sys2Proof.Machine.execEpRead m value s
  | .flowInsert => Sys2Proof.Machine.execFlowInsert s
  | .flowUpdate => Sys2Proof.Machine.execFlowUpdate s
  | .flowDelete => Sys2Proof.Machine.execFlowDelete s
  | .flowLookup => Sys2Proof.Machine.execFlowLookup s
  | .flushEp => Sys2Proof.Machine.execFlushEp s
  | .clearAll => Sys2Proof.Machine.execClearAll s
  | .ashCmdBadOpcode => Sys2Proof.Machine.execAshCmdBadOpcode s
  | .walkDone => Sys2Proof.Machine.execWalkDone s
  | .learn => Sys2Proof.Machine.execLearn s
  | .ageVisit => Sys2Proof.Machine.execAgeVisit s
  | .epScrub e ecc => Sys2Proof.Machine.execEpScrub e ecc s
  | .flowScrub b ecc slot => Sys2Proof.Machine.execFlowScrub b ecc slot s
  | .frameAdmit => Sys2Proof.Machine.execFrameAdmit s
  | .serverDequeue p ecc => Sys2Proof.Machine.execServerDequeue p ecc s
  | .gateListStart sched => Sys2Proof.Machine.execGateListStart sched s
  | .gateChange sched => Sys2Proof.Machine.execGateChange sched s
  | .glWrite m value => Sys2Proof.Machine.execGlWrite m value s
  | .glRead m value => Sys2Proof.Machine.execGlRead m value s
  | .qSelWrite m value => Sys2Proof.Machine.execQSelWrite m value s
  | .portFlush p => Sys2Proof.Machine.execPortFlush p s
  | .syncPlace p => Sys2Proof.Machine.execSyncPlace p s
  | .announceSend p => Sys2Proof.Machine.execAnnounceSend p s
  | .ptpMsgRx => Sys2Proof.Machine.execPtpMsgRx s
  | .prWindowOpen n => Sys2Proof.Machine.execPrWindowOpen n s
  | .prEdge n falling hold bins => Sys2Proof.Machine.execPrEdge n falling hold bins s
  | .prWindowClose n => Sys2Proof.Machine.execPrWindowClose n s
  | .tevEdge e falling hold bins => Sys2Proof.Machine.execTevEdge e falling hold bins s
  | .tevSecHiRead m e => Sys2Proof.Machine.execTevSecHiRead m e s
  | .toutEdge o => Sys2Proof.Machine.execToutEdge o s
  | .timeReqSend k => Sys2Proof.Machine.execTimeReqSend k s
  | .timeReq k sender seq turn => Sys2Proof.Machine.execTimeReq k sender seq turn s
  | .timeResp k sender seq t2s t2 t3s t3 => Sys2Proof.Machine.execTimeResp k sender seq t2s t2 t3s t3 s
  | .nbTimeout k => Sys2Proof.Machine.execNbTimeout k s
  | .doorbell f size value => Sys2Proof.Machine.execDoorbell f size value s
  | .txFrameSubmit r descs data => Sys2Proof.Machine.execTxFrameSubmit r descs data s
  | .rxDeliver r descs => Sys2Proof.Machine.execRxDeliver r descs s
  | .cmdDescriptor r desc body => Sys2Proof.Machine.execCmdDescriptor r desc body s
  | .cqSignal c => Sys2Proof.Machine.execCqSignal c s
  | .cqStall c => Sys2Proof.Machine.execCqStall c s
  | .ringEnable m r value => Sys2Proof.Machine.execRingEnable m r value s
  | .ringDisable m r value => Sys2Proof.Machine.execRingDisable m r value s
  | .hostReadError r what tag => Sys2Proof.Machine.execHostReadError r what tag s
  | .flr f => Sys2Proof.Machine.execFlr f s
  | .dmaEntryStart c desc => Sys2Proof.Machine.execDmaEntryStart c desc s
  | .hopFetch c data desc => Sys2Proof.Machine.execHopFetch c data desc s
  | .dmaProgress c data => Sys2Proof.Machine.execDmaProgress c data s
  | .dmaComplete c data => Sys2Proof.Machine.execDmaComplete c data s
  | .fenceDone c => Sys2Proof.Machine.execFenceDone c s
  | .busError cause space addr => Sys2Proof.Machine.execBusError cause space addr s
  | .dmaBusTimeout space addr => Sys2Proof.Machine.execDmaBusTimeout space addr s
  | .dmaResume m value => Sys2Proof.Machine.execDmaResume m value s
  | .dmaOwnerChange m c value => Sys2Proof.Machine.execDmaOwnerChange m c value s
  | .bdmGo m c value => Sys2Proof.Machine.execBdmGo m c value s
  | .bdmAbort m c value => Sys2Proof.Machine.execBdmAbort m c value s
  | .bdmHop c => Sys2Proof.Machine.execBdmHop c s
  | .bdmBusError c cause space addr => Sys2Proof.Machine.execBdmBusError c cause space addr s
  | .unitGrant empty => Sys2Proof.Machine.execUnitGrant empty s
  | .grantTimeout => Sys2Proof.Machine.execGrantTimeout s
  | .domainSwitchOff => Sys2Proof.Machine.execDomainSwitchOff s
  | .avsAck => Sys2Proof.Machine.execAvsAck s
  | .avsTimeout => Sys2Proof.Machine.execAvsTimeout s
  | .wakeSource p => Sys2Proof.Machine.execWakeSource p s
  | .pllLock => Sys2Proof.Machine.execPllLock s
  | .pllTimeout => Sys2Proof.Machine.execPllTimeout s
  | .domainSwitchOn tested faulty segs => Sys2Proof.Machine.execDomainSwitchOn tested faulty segs s
  | .wakeComplete => Sys2Proof.Machine.execWakeComplete s
  | .pwrAltChange asserted => Sys2Proof.Machine.execPwrAltChange asserted s
  | .thermalStop => Sys2Proof.Machine.execThermalStop s
  | .sliceStart => Sys2Proof.Machine.execSliceStart s
  | .slicePatternsDone sig good => Sys2Proof.Machine.execSlicePatternsDone sig good s
  | .sliceBudget => Sys2Proof.Machine.execSliceBudget s
  | .serviceRequest t => Sys2Proof.Machine.execServiceRequest t s
  | .sliceRestoreDone => Sys2Proof.Machine.execSliceRestoreDone s
  | .overdue => Sys2Proof.Machine.execOverdue s
  | .bstSummary => Sys2Proof.Machine.execBstSummary s
  | .courseLinkChange k up => Sys2Proof.Machine.execCourseLinkChange k up s
  | .coursePduBad k pdu => Sys2Proof.Machine.execCoursePduBad k pdu s
  | .relayStart k sender image len blocks hops store => Sys2Proof.Machine.execRelayStart k sender image len blocks hops store s
  | .relayBlock k sender image block data crc => Sys2Proof.Machine.execRelayBlock k sender image block data crc s
  | .relayEnd k sender image crc => Sys2Proof.Machine.execRelayEnd k sender image crc s
  | .relayAck k sender image next code => Sys2Proof.Machine.execRelayAck k sender image next code s
  | .relayAckTimer => Sys2Proof.Machine.execRelayAckTimer s
  | .relayResend => Sys2Proof.Machine.execRelayResend s
  | .relayStall => Sys2Proof.Machine.execRelayStall s
  | .blockProgrammed ok => Sys2Proof.Machine.execBlockProgrammed ok s
  | .rescueReq k sender target hops write tag ofs value => Sys2Proof.Machine.execRescueReq k sender target hops write tag ofs value s
  | .rescueResp k sender target hops status tag ofs value => Sys2Proof.Machine.execRescueResp k sender target hops status tag ofs value s
  | .origGo m value => Sys2Proof.Machine.execOrigGo m value s
  | .preload m value => Sys2Proof.Machine.execPreload m value s
  | .preloadDone => Sys2Proof.Machine.execPreloadDone s
  | .save m value => Sys2Proof.Machine.execSave m value s
  | .confirm m value => Sys2Proof.Machine.execConfirm m value s
  | .alive m value => Sys2Proof.Machine.execAlive m value s
  | .hostLockWrite m value => Sys2Proof.Machine.execHostLockWrite m value s
  | .actCheckDone => Sys2Proof.Machine.execActCheckDone s
  | .actCoresLoaded => Sys2Proof.Machine.execActCoresLoaded s
  | .noAlive => Sys2Proof.Machine.execNoAlive s
  | .recordCompact => Sys2Proof.Machine.execRecordCompact s
  | .cntSelWrite m c value => Sys2Proof.Machine.execCntSelWrite m c value s
  | .cntClear m c => Sys2Proof.Machine.execCntClear m c s
  | .cntClearAll m => Sys2Proof.Machine.execCntClearAll m s
  | .cntRead m rel => Sys2Proof.Machine.execCntRead m rel s
  | .bwWindowEnd => Sys2Proof.Machine.execBwWindowEnd s
  | .telemetryRecord mw temp failed => Sys2Proof.Machine.execTelemetryRecord mw temp failed s
  | .porst => Sys2Proof.Machine.execPorst s
  | .vddAoLoss => Sys2Proof.Machine.execVddAoLoss s
  | .resetN => Sys2Proof.Machine.execResetN s
  | .systemWrite m value => Sys2Proof.Machine.execSystemWrite m value s
  | .coreWrite m value => Sys2Proof.Machine.execCoreWrite m value s
  | .functionReset => Sys2Proof.Machine.execFunctionReset s
  | .wdtExpire => Sys2Proof.Machine.execWdtExpire s
  | .kick m value => Sys2Proof.Machine.execKick m value s
  | .bootDone m value => Sys2Proof.Machine.execBootDone m value s
  | .bootReleaseTimeout => Sys2Proof.Machine.execBootReleaseTimeout s
  | .homeWaitExpire => Sys2Proof.Machine.execHomeWaitExpire s
  | .i2cAbandon => Sys2Proof.Machine.execI2cAbandon s
  | .jtagInstruction n low => Sys2Proof.Machine.execJtagInstruction n low s
  | .comparisonWindowEnd ok25 ok25b ratio phase => Sys2Proof.Machine.execComparisonWindowEnd ok25 ok25b ratio phase s
  | .faultClear q l => Sys2Proof.Machine.execFaultClear q l s
  | .usb4LinkChange l => Sys2Proof.Machine.execUsb4LinkChange l s
  | .configurationRequest f vfs => Sys2Proof.Machine.execConfigurationRequest f vfs s
  | .msixTableWrite f t value => Sys2Proof.Machine.execMsixTableWrite f t value s
  | .otherCourseFrame k => Sys2Proof.Machine.execOtherCourseFrame k s

end Sys2Proof.Machine
end

