-- ==== Sys2Proof/WellFormed.lean ====
section
/-!
DEFINITION. WellFormed.lean: the operands a command may have. The types of Syntax.lean hold most of it; what is left are master
numbers (R33, R464), sizes of accesses (R20) and the lengths of the byte lists that the spec fixes.
-/

namespace Sys2Proof

open Sys2Proof.Machine

/-- A master that writes or reads registers: a number of R33, or the I2C management target (R464). -/
def isMaster (m : Master) : Bool := decide (m < 0x6C) || m == i2cMaster

/-- The size of a bus access: 1 to 8 bytes (R20). -/
def accessSize (n : Nat) : Bool := decide (1 ≤ n) && decide (n ≤ 8)

/-- Bits of a downstream frame (R104). -/
def frameBits : Nat := 6640000

/-- A tick in ps (R40). -/
def tickPs : Nat := 40000

/-- The operands of a command are ones that the block can be given. -/
def Instr.wf (i : Instr) : Bool :=
  match i with
  | .registerWrite m _ size _ => isMaster m && accessSize size
  | .loReadLatch m _ size => isMaster m && accessSize size
  | .frzRelease m _ => isMaster m
  | .pwrReqWrite m _ _ => isMaster m
  | .hdrBstStart m _ => isMaster m
  | .hdrBstAbort m _ => isMaster m
  | .tick => true
  | .timeCapture m _ => isMaster m
  | .tdcExchange counts => counts.length == 71
  | .offsetEval _ => true
  | .domainTimeout _ => true
  | .servoPropExpire => true
  | .slewDone => true
  | .holdAged => true
  | .refFail _ => true
  | .ref25bFail => true
  | .refStop => true
  | .refReturn _ => true
  | .refFirstEdge _ => true
  | .commitPost m _ _ => isMaster m
  | .commitCancel m _ _ => isMaster m
  | .commitDue => true
  | .commitFrameTimeout => true
  | .modPresent _ _ => true
  | .modAbsent _ => true
  | .modResetRelease _ => true
  | .modInitDone _ => true
  | .modCheckDone _ bytes => decide (bytes.length ≤ 32)
  | .modBusTimeout _ _ => true
  | .modRecheck _ => true
  | .modCheck m _ _ => isMaster m
  | .modDeclare m _ _ => isMaster m
  | .modXfer m _ _ => isMaster m
  | .modXferDone _ _ _ => true
  | .signalChange _ _ _ => true
  | .cdrLockChange _ _ _ => true
  | .llTestModeWrite m _ _ => isMaster m
  | .loopbackTestBurst _ => true
  | .prbsLock _ => true
  | .prbsLoss _ errs => decide (errs ≤ 1024)
  | .checkerClr m _ _ => isMaster m
  | .injSingle m _ _ => isMaster m
  | .injBurst m _ _ => isMaster m
  | .candidateOpen _ _ pos fsb => decide (pos < frameBits) && fsb.length == 400
  | .candidateCheck _ _ pos fsb _ => decide (pos < frameBits) && fsb.length == 400
  | .dsfFrame _ _ fsb bins _ => fsb.length == 400 && decide (bins ≤ 400)
  | .codewordDecode _ _ k syms => decide (k < 1220) && syms.length == 544 && syms.all (fun s => decide (s < 1024))
  | .losDeclare _ _ => true
  | .losClear _ _ => true
  | .dsfModeChange _ => true
  | .dsfSecondLatch _ => true
  | .assignId _ _ _ _ => true
  | .rangeResult _ _ _ _ _ _ _ _ _ => true
  | .deregister _ _ => true
  | .emergencyStop _ _ _ => true
  | .resume _ _ _ => true
  | .sleepAck _ _ _ _ => true
  | .timeAnchor _ _ _ => true
  | .keyWrap _ _ _ _ wrapped => wrapped.length == 40
  | .keySwitch _ _ _ _ _ => true
  | .keyClear _ _ _ _ => true
  | .ownerLock _ _ _ => true
  | .release _ _ _ => true
  | .freezeReport => true
  | .regEnWrite m _ _ => isMaster m
  | .announceStart _ => true
  | .annToExpire _ => true
  | .rngToExpire _ => true
  | .rangingComplete _ => true
  | .eqdApply _ => true
  | .holdToExpire _ => true
  | .responseBurst _ _ => true
  | .sleepAckTimeout _ => true
  | .leaseExpire _ => true
  | .sleepResume _ => true
  | .grantHorizon _ => true
  | .floorReserve _ => true
  | .stagingStep _ _ => true
  | .burstBenRise _ _ => true
  | .unitCutoff _ _ _ => true
  | .burstEnd _ _ => true
  | .benFall _ _ => true
  | .carryExpire => true
  | .lineUnitRx _ _ => true
  | .reasmTimeout _ => true
  | .slotLoad m _ _ => isMaster m
  | .slotClear m _ _ => isMaster m
  | .saltWrite m _ _ => isMaster m
  | .bootKeyWrite m _ _ _ => isMaster m
  | .ctrLimitWrite m _ _ => isMaster m
  | .keyOwnerChange m _ _ => isMaster m
  | .cipOverrun _ => true
  | .healthReport => true
  | .switchEnd => true
  | .wtrExpire => true
  | .bmapApertureWrite m _ _ => isMaster m
  | .refsBad _ => true
  | .refsOk _ => true
  | .laneEnableWrite m _ _ _ => isMaster m
  | .laneRestart m _ _ _ => isMaster m
  | .slnTestModeWrite m _ _ _ => isMaster m
  | .hostPresWrite m _ _ _ => isMaster m
  | .detectProbe _ _ _ => true
  | .anComplete _ _ _ _ _ => true
  | .anToExpire _ _ => true
  | .trainComplete _ _ _ _ _ => true
  | .trainFail _ _ _ => true
  | .blockLock _ _ _ _ => true
  | .linkToExpire _ _ => true
  | .capDone _ _ => true
  | .lockLoss _ _ _ => true
  | .faultReceived _ _ _ => true
  | .rateMatch _ _ _ _ => true
  | .macRxFrame _ _ _ _ _ ps => decide (ps < tickPs)
  | .pauseRx _ _ _ ps => decide (ps < tickPs)
  | .pfcRx _ _ _ quanta ps => quanta.length == 8 && quanta.all (fun n => decide (n < 65536)) && decide (ps < tickPs)
  | .pauseExpire _ _ _ => true
  | .pauseWatchdog _ _ _ => true
  | .wdIgnoreEnd _ _ _ => true
  | .macTxFrame _ _ ps => decide (ps < tickPs)
  | .fcSend _ _ => true
  | .fcRefresh _ _ _ => true
  | .frameParse _ => true
  | .classifyLookup _ _ => true
  | .secondPass _ _ _ => true
  | .recircTimeout _ => true
  | .ruleWrite m _ => isMaster m
  | .ruleRead m _ => isMaster m
  | .ruleWriteDone => true
  | .patternWrite m _ => isMaster m
  | .patternRead m _ => isMaster m
  | .flowMissResolve _ _ => true
  | .missTimeout => true
  | .epWrite m _ => isMaster m
  | .epRead m _ => isMaster m
  | .flowInsert => true
  | .flowUpdate => true
  | .flowDelete => true
  | .flowLookup => true
  | .flushEp => true
  | .clearAll => true
  | .ashCmdBadOpcode => true
  | .walkDone => true
  | .learn => true
  | .ageVisit => true
  | .epScrub _ _ => true
  | .flowScrub _ _ _ => true
  | .frameAdmit => true
  | .serverDequeue _ _ => true
  | .gateListStart _ => true
  | .gateChange _ => true
  | .glWrite m _ => isMaster m
  | .glRead m _ => isMaster m
  | .qSelWrite m _ => isMaster m
  | .portFlush _ => true
  | .syncPlace _ => true
  | .announceSend _ => true
  | .ptpMsgRx => true
  | .prWindowOpen _ => true
  | .prEdge _ _ _ bins => decide (bins ≤ 400)
  | .prWindowClose _ => true
  | .tevEdge _ _ _ bins => decide (bins ≤ 400)
  | .tevSecHiRead m _ => isMaster m
  | .toutEdge _ => true
  | .timeReqSend _ => true
  | .timeReq _ _ _ _ => true
  | .timeResp _ _ _ _ _ _ _ => true
  | .nbTimeout _ => true
  | .doorbell _ size _ => accessSize size
  | .txFrameSubmit _ descs _ => descs.all (fun b => b.length == 32)
  | .rxDeliver _ descs => descs.all (fun b => b.length == 32)
  | .cmdDescriptor _ desc body => desc.length == 32 && body.length == 64
  | .cqSignal _ => true
  | .cqStall _ => true
  | .ringEnable m _ _ => isMaster m
  | .ringDisable m _ _ => isMaster m
  | .hostReadError _ _ _ => true
  | .flr _ => true
  | .dmaEntryStart _ desc => desc.length == 32
  | .hopFetch _ _ desc => desc.length == 32
  | .dmaProgress _ _ => true
  | .dmaComplete _ _ => true
  | .fenceDone _ => true
  | .busError _ _ _ => true
  | .dmaBusTimeout _ _ => true
  | .dmaResume m _ => isMaster m
  | .dmaOwnerChange m _ _ => isMaster m
  | .bdmGo m _ _ => isMaster m
  | .bdmAbort m _ _ => isMaster m
  | .bdmHop _ => true
  | .bdmBusError _ _ _ _ => true
  | .unitGrant _ => true
  | .grantTimeout => true
  | .domainSwitchOff => true
  | .avsAck => true
  | .avsTimeout => true
  | .wakeSource _ => true
  | .pllLock => true
  | .pllTimeout => true
  | .domainSwitchOn _ faulty segs => decide faulty.Nodup && decide segs.Nodup
  | .wakeComplete => true
  | .pwrAltChange _ => true
  | .thermalStop => true
  | .sliceStart => true
  | .slicePatternsDone _ _ => true
  | .sliceBudget => true
  | .serviceRequest _ => true
  | .sliceRestoreDone => true
  | .overdue => true
  | .bstSummary => true
  | .courseLinkChange _ _ => true
  | .coursePduBad _ _ => true
  | .relayStart _ _ _ _ _ _ _ => true
  | .relayBlock _ _ _ _ data _ => data.length == 1024
  | .relayEnd _ _ _ _ => true
  | .relayAck _ _ _ _ _ => true
  | .relayAckTimer => true
  | .relayResend => true
  | .relayStall => true
  | .blockProgrammed _ => true
  | .rescueReq _ _ _ _ _ _ _ _ => true
  | .rescueResp _ _ _ _ _ _ _ _ => true
  | .origGo m _ => isMaster m
  | .preload m _ => isMaster m
  | .preloadDone => true
  | .save m _ => isMaster m
  | .confirm m _ => isMaster m
  | .alive m _ => isMaster m
  | .hostLockWrite m _ => isMaster m
  | .actCheckDone => true
  | .actCoresLoaded => true
  | .noAlive => true
  | .recordCompact => true
  | .cntSelWrite m _ _ => isMaster m
  | .cntClear m _ => isMaster m
  | .cntClearAll m => isMaster m
  | .cntRead m _ => isMaster m
  | .bwWindowEnd => true
  | .telemetryRecord _ _ _ => true
  | .porst => true
  | .vddAoLoss => true
  | .resetN => true
  | .systemWrite m _ => isMaster m
  | .coreWrite m _ => isMaster m
  | .functionReset => true
  | .wdtExpire => true
  | .kick m _ => isMaster m
  | .bootDone m _ => isMaster m
  | .bootReleaseTimeout => true
  | .homeWaitExpire => true
  | .i2cAbandon => true
  | .jtagInstruction _ _ => true
  | .comparisonWindowEnd _ _ _ phase => decide (phase < 40000)
  | .faultClear _ _ => true
  | .usb4LinkChange _ => true
  | .configurationRequest _ _ => true
  | .msixTableWrite _ _ _ => true
  | .otherCourseFrame _ => true

end Sys2Proof
end

