-- ==== Sys2Proof/Safety.lean ====
section
/-!
DEFINITION. Safety.lean: the words in which statements about runs are made: what a good state is, and which commands move data in the
memories behind the block.
-/

namespace Sys2Proof.Machine

/-- A good state: the memories keep their canonical form, and every waiting command is one that the block can be given. -/
def State.good (s : State) : Bool := s.mem.wf && s.pending.all Instr.wf

/-- Every register word reads the same in both but those at the given offsets. -/
def sameRegsBut (ofss : List Nat) (d e : Dev) : Prop := ∀ r : Reg, r.ofs ∉ ofss → rd e r = rd d r

/-- Every byte of the three memories reads the same in both. -/
def sameMem (m n : Mem) : Prop :=
  ∀ a k : Nat, readDram n a k = readDram m a k ∧ readFlash n a k = readFlash m a k ∧ readCore n a k = readCore m a k

/-- The state with another block, its memories and its queue as they are. -/
def State.withDev (s : State) (d : Dev) : State := { s with dev := d }

end Sys2Proof.Machine

namespace Sys2Proof

/-- The commands that may read or write DRAM, flash or a core memory: the movers of data, the firmware's work, the flow table, resets,
and whatever can switch a memory off. -/
def Instr.movesMemory (i : Instr) : Bool :=
  match i with
  | .registerWrite _ _ _ _ => true
  | .loReadLatch _ _ _ => false
  | .frzRelease _ _ => true
  | .pwrReqWrite _ _ _ => false
  | .hdrBstStart _ _ => false
  | .hdrBstAbort _ _ => false
  | .tick => true
  | .timeCapture _ _ => false
  | .tdcExchange _ => false
  | .offsetEval _ => false
  | .domainTimeout _ => false
  | .servoPropExpire => false
  | .slewDone => false
  | .holdAged => false
  | .refFail _ => false
  | .ref25bFail => false
  | .refStop => false
  | .refReturn _ => false
  | .refFirstEdge _ => false
  | .commitPost _ _ _ => false
  | .commitCancel _ _ _ => false
  | .commitDue => false
  | .commitFrameTimeout => false
  | .modPresent _ _ => false
  | .modAbsent _ => false
  | .modResetRelease _ => false
  | .modInitDone _ => false
  | .modCheckDone _ _ => false
  | .modBusTimeout _ _ => false
  | .modRecheck _ => false
  | .modCheck _ _ _ => false
  | .modDeclare _ _ _ => false
  | .modXfer _ _ _ => false
  | .modXferDone _ _ _ => false
  | .signalChange _ _ _ => false
  | .cdrLockChange _ _ _ => false
  | .llTestModeWrite _ _ _ => false
  | .loopbackTestBurst _ => false
  | .prbsLock _ => false
  | .prbsLoss _ _ => false
  | .checkerClr _ _ _ => false
  | .injSingle _ _ _ => false
  | .injBurst _ _ _ => false
  | .candidateOpen _ _ _ _ => false
  | .candidateCheck _ _ _ _ _ => false
  | .dsfFrame _ _ _ _ _ => false
  | .codewordDecode _ _ _ _ => false
  | .losDeclare _ _ => false
  | .losClear _ _ => false
  | .dsfModeChange _ => false
  | .dsfSecondLatch _ => false
  | .assignId _ _ _ _ => false
  | .rangeResult _ _ _ _ _ _ _ _ _ => false
  | .deregister _ _ => false
  | .emergencyStop _ _ _ => false
  | .resume _ _ _ => false
  | .sleepAck _ _ _ _ => false
  | .timeAnchor _ _ _ => false
  | .keyWrap _ _ _ _ _ => false
  | .keySwitch _ _ _ _ _ => false
  | .keyClear _ _ _ _ => false
  | .ownerLock _ _ _ => false
  | .release _ _ _ => false
  | .freezeReport => false
  | .regEnWrite _ _ _ => false
  | .announceStart _ => false
  | .annToExpire _ => false
  | .rngToExpire _ => false
  | .rangingComplete _ => false
  | .eqdApply _ => false
  | .holdToExpire _ => false
  | .responseBurst _ _ => false
  | .sleepAckTimeout _ => false
  | .leaseExpire _ => false
  | .sleepResume _ => false
  | .grantHorizon _ => false
  | .floorReserve _ => false
  | .stagingStep _ _ => false
  | .burstBenRise _ _ => false
  | .unitCutoff _ _ _ => false
  | .burstEnd _ _ => false
  | .benFall _ _ => false
  | .carryExpire => false
  | .lineUnitRx _ _ => false
  | .reasmTimeout _ => false
  | .slotLoad _ _ _ => false
  | .slotClear _ _ _ => false
  | .saltWrite _ _ _ => false
  | .bootKeyWrite _ _ _ _ => false
  | .ctrLimitWrite _ _ _ => false
  | .keyOwnerChange _ _ _ => false
  | .cipOverrun _ => false
  | .healthReport => false
  | .switchEnd => false
  | .wtrExpire => false
  | .bmapApertureWrite _ _ _ => false
  | .refsBad _ => false
  | .refsOk _ => false
  | .laneEnableWrite _ _ _ _ => false
  | .laneRestart _ _ _ _ => false
  | .slnTestModeWrite _ _ _ _ => false
  | .hostPresWrite _ _ _ _ => false
  | .detectProbe _ _ _ => false
  | .anComplete _ _ _ _ _ => false
  | .anToExpire _ _ => false
  | .trainComplete _ _ _ _ _ => false
  | .trainFail _ _ _ => false
  | .blockLock _ _ _ _ => false
  | .linkToExpire _ _ => false
  | .capDone _ _ => false
  | .lockLoss _ _ _ => false
  | .faultReceived _ _ _ => false
  | .rateMatch _ _ _ _ => false
  | .macRxFrame _ _ _ _ _ _ => false
  | .pauseRx _ _ _ _ => false
  | .pfcRx _ _ _ _ _ => false
  | .pauseExpire _ _ _ => false
  | .pauseWatchdog _ _ _ => false
  | .wdIgnoreEnd _ _ _ => false
  | .macTxFrame _ _ _ => false
  | .fcSend _ _ => false
  | .fcRefresh _ _ _ => false
  | .frameParse _ => false
  | .classifyLookup _ _ => false
  | .secondPass _ _ _ => false
  | .recircTimeout _ => false
  | .ruleWrite _ _ => false
  | .ruleRead _ _ => false
  | .ruleWriteDone => false
  | .patternWrite _ _ => false
  | .patternRead _ _ => false
  | .flowMissResolve _ _ => true
  | .missTimeout => false
  | .epWrite _ _ => false
  | .epRead _ _ => false
  | .flowInsert => true
  | .flowUpdate => true
  | .flowDelete => true
  | .flowLookup => true
  | .flushEp => false
  | .clearAll => false
  | .ashCmdBadOpcode => false
  | .walkDone => true
  | .learn => true
  | .ageVisit => true
  | .epScrub _ _ => false
  | .flowScrub _ _ _ => true
  | .frameAdmit => false
  | .serverDequeue _ _ => false
  | .gateListStart _ => false
  | .gateChange _ => false
  | .glWrite _ _ => false
  | .glRead _ _ => false
  | .qSelWrite _ _ => false
  | .portFlush _ => false
  | .syncPlace _ => false
  | .announceSend _ => false
  | .ptpMsgRx => false
  | .prWindowOpen _ => false
  | .prEdge _ _ _ _ => false
  | .prWindowClose _ => false
  | .tevEdge _ _ _ _ => false
  | .tevSecHiRead _ _ => false
  | .toutEdge _ => false
  | .timeReqSend _ => false
  | .timeReq _ _ _ _ => false
  | .timeResp _ _ _ _ _ _ _ => false
  | .nbTimeout _ => false
  | .doorbell _ _ _ => false
  | .txFrameSubmit _ _ _ => false
  | .rxDeliver _ _ => false
  | .cmdDescriptor _ _ _ => false
  | .cqSignal _ => false
  | .cqStall _ => false
  | .ringEnable _ _ _ => false
  | .ringDisable _ _ _ => false
  | .hostReadError _ _ _ => false
  | .flr _ => false
  | .dmaEntryStart _ _ => false
  | .hopFetch _ _ _ => true
  | .dmaProgress _ _ => true
  | .dmaComplete _ _ => true
  | .fenceDone _ => false
  | .busError _ _ _ => false
  | .dmaBusTimeout _ _ => false
  | .dmaResume _ _ => false
  | .dmaOwnerChange _ _ _ => false
  | .bdmGo _ _ _ => false
  | .bdmAbort _ _ _ => false
  | .bdmHop _ => true
  | .bdmBusError _ _ _ _ => false
  | .unitGrant _ => true
  | .grantTimeout => false
  | .domainSwitchOff => true
  | .avsAck => false
  | .avsTimeout => false
  | .wakeSource _ => false
  | .pllLock => false
  | .pllTimeout => true
  | .domainSwitchOn _ _ _ => true
  | .wakeComplete => false
  | .pwrAltChange _ => false
  | .thermalStop => true
  | .sliceStart => false
  | .slicePatternsDone _ _ => false
  | .sliceBudget => false
  | .serviceRequest _ => false
  | .sliceRestoreDone => false
  | .overdue => false
  | .bstSummary => false
  | .courseLinkChange _ _ => false
  | .coursePduBad _ _ => false
  | .relayStart _ _ _ _ _ _ _ => true
  | .relayBlock _ _ _ _ _ _ => true
  | .relayEnd _ _ _ _ => true
  | .relayAck _ _ _ _ _ => true
  | .relayAckTimer => false
  | .relayResend => true
  | .relayStall => false
  | .blockProgrammed _ => true
  | .rescueReq _ _ _ _ _ _ _ _ => true
  | .rescueResp _ _ _ _ _ _ _ _ => false
  | .origGo _ _ => true
  | .preload _ _ => true
  | .preloadDone => true
  | .save _ _ => true
  | .confirm _ _ => true
  | .alive _ _ => true
  | .hostLockWrite _ _ => false
  | .actCheckDone => true
  | .actCoresLoaded => true
  | .noAlive => true
  | .recordCompact => true
  | .cntSelWrite _ _ _ => false
  | .cntClear _ _ => false
  | .cntClearAll _ => false
  | .cntRead _ _ => false
  | .bwWindowEnd => false
  | .telemetryRecord _ _ _ => false
  | .porst => true
  | .vddAoLoss => true
  | .resetN => true
  | .systemWrite _ _ => true
  | .coreWrite _ _ => true
  | .functionReset => false
  | .wdtExpire => true
  | .kick _ _ => false
  | .bootDone _ _ => false
  | .bootReleaseTimeout => false
  | .homeWaitExpire => false
  | .i2cAbandon => false
  | .jtagInstruction _ _ => false
  | .comparisonWindowEnd _ _ _ _ => false
  | .faultClear _ _ => false
  | .usb4LinkChange _ => false
  | .configurationRequest _ _ => false
  | .msixTableWrite _ _ _ => false
  | .otherCourseFrame _ => false

end Sys2Proof
end

