-- ==== Sys2Proof/Certificates/Slice0/Obligations.lean ====
section
/-!
DEFINITION. Certificates/Slice0/Obligations.lean: the statements about the model, for the provers.
-/

open Sys2Proof Sys2Proof.Machine

/-- A step carries out the command at the front of the queue. For every command c and state s, a step of s with c at the front of its queue is exec of c on s with the queue's rest; on an empty queue the block idles (the queue and idling are the model's choice). (04_timed_commits.md R70, 00_scope.md) -/
def Obligations.FrontCommandActs : Prop :=
  (∀ (c : Instr) (rest : List Instr) (s : State), step { s with pending := c :: rest } = exec c { s with pending := rest })
    ∧ ∀ s : State, s.pending = [] → step s = .next s

/-- Every command of the table is carried out in every state and leaves the queue alone. For every command with every operand and every state, exec answers a next state whose queue of waiting commands is the one it was given; no command faults or is refused. (95_what_each_step_holds.md) -/
def Obligations.EveryCommandCompletes : Prop :=
  ∀ (c : Instr) (s : State), ∃ t : State, exec c s = .next t ∧ t.pending = s.pending

/-- Every step keeps the canonical form of the three memories. From every state whose DRAM, flash and core memories are in canonical form, reached or not, a step that answers a next state leaves them in canonical form, whatever command is at the front. (19_dma_engines.md R339, 22_firmware_update_and_course.md R398) -/
def Obligations.MemoryFormIsKept : Prop :=
  ∀ s t : State, s.mem.wf = true → step s = .next t → t.mem.wf = true

/-- The memories are in canonical form at reset. State.reset is a good state: its memories list nothing and no command waits. (19_dma_engines.md R339, 22_firmware_update_and_course.md R398) -/
def Obligations.MemoryFormAtReset : Prop :=
  State.reset.good = true ∧ State.reset.mem.wf = true

/-- At reset every register reads its reset word and device time is stopped. At State.reset every register of every unit reads the word its table gives for reset, shadow and applied alike, no commit is pending, device time is 0 and no reference runs, no event or message waits and no master is frozen. (02_unit_tree_and_registers.md, 24_start_up_and_reset.md R422) -/
def Obligations.ResetLeavesRegisters : Prop :=
  (∀ r : Reg, rd State.reset.dev r = r.rst ∧ rdA State.reset.dev r = r.rst)
    ∧ State.reset.dev.commits = [] ∧ State.reset.dev.clock.units = 0 ∧ State.reset.dev.kst.refsRunning = false
    ∧ State.reset.dev.msixPending = [] ∧ State.reset.dev.dirty = [] ∧ ∀ m : Master, isFrozen State.reset.dev m = false

/-- Only the commands that move data touch the memories. A command that is none of the commands named in Instr.movesMemory leaves every byte of DRAM, flash and the core memories as it was. (19_dma_engines.md R339, 22_firmware_update_and_course.md R398, 15_ashlar_tables.md) -/
def Obligations.MemoryIsLeftAlone : Prop :=
  ∀ (c : Instr) (s t : State), c.movesMemory = false → exec c s = .next t → t.mem = s.mem ∧ sameMem s.mem t.mem

/-- REGISTER_WRITE: a write that is narrow or not aligned is discarded and counted. A write by a master with the right to the target that is no aligned 32-bit or 64-bit access changes nothing but ROOT_BAD_ACCESS, which counts it, provided no stored records wait to be applied. (02_unit_tree_and_registers.md R20) -/
def Obligations.MisalignedWriteCounted : Prop :=
  ∀ (m : Master) (ofs : BitVec 26) (size : Nat) (value : BitVec 64) (s : State),
    admits s.dev m ofs.toNat = true → s.dev.fwu.recordsDue = false → ¬ (ofs.toNat % 4 = 0 ∧ (size = 4 ∨ size = 8)) →
    exec (.registerWrite m ofs size value) s = .next (s.withDev (count s.dev ROOT_BAD_ACCESS))

/-- REGISTER_WRITE: an aligned write to a plain register stores its checked fields. An aligned 32-bit write that is admitted, to a register of the parser or of the upstream burst units beyond the header and not an event or enable word, stores the range-checked word there and does nothing else. (02_unit_tree_and_registers.md R20, R29, 14_parser_and_classifier.md) -/
def Obligations.PlainWriteStores : Prop :=
  ∀ (m : Master) (ofs : BitVec 26) (value : Word) (s : State) (i : UnitIx) (row : RegRow),
    admits s.dev m ofs.toNat = true → s.dev.fwu.recordsDue = false → ofs.toNat % 4 = 0 → unitOf ofs.toNat = some i →
    ((unitAt i).kind = 0x60 ∨ (unitAt i).kind = 0x33) → i.val ≠ 0 → 8 ≤ i.val → i.val ≠ 9 → i.val ≠ 56 →
    0x40 ≤ ofs.toNat - (unitAt i).base → rowAt (unitAt i) (ofs.toNat - (unitAt i).base) = some row →
    evtUnits.any (fun e => e.evt.ofs == ofs.toNat || e.en.ofs == ofs.toNat) = false →
    exec (.registerWrite m ofs 4 (value.setWidth 64)) s
      = .next (s.withDev (storeWord s.dev m (unitAt i) (ofs.toNat - (unitAt i).base) row value))

/-- A field outside its range takes the nearest limit, or its safe code. A checked value lies in the field's range; a value in range is kept; above an unsigned span it takes the upper limit and below it the lower limit; an unused code takes the named safe code; of a set of allowed values it takes one at least as near as any other. (02_unit_tree_and_registers.md R29) -/
def Obligations.ClampTakesNearest : Prop :=
  (∀ w lo hi v : Nat, lo ≤ hi → lo ≤ clampRange (.span lo hi) w v ∧ clampRange (.span lo hi) w v ≤ hi
      ∧ (lo ≤ v → v ≤ hi → clampRange (.span lo hi) w v = v) ∧ (v < lo → clampRange (.span lo hi) w v = lo)
      ∧ (hi < v → clampRange (.span lo hi) w v = hi))
    ∧ (∀ w last safe v : Nat, (v ≤ last → clampRange (.named last safe) w v = v) ∧ (last < v → clampRange (.named last safe) w v = safe))
    ∧ ∀ (w v : Nat) (vs : List Nat), vs ≠ [] → clampRange (.among vs) w v ∈ vs
      ∧ ∀ x ∈ vs, ((clampRange (.among vs) w v : Int) - v).natAbs ≤ ((x : Int) - v).natAbs

/-- LO_READ_LATCH: a read of a LO register answers its word and latches its HI partner. A 32-bit read of KST_FREQ_LO by a master that is no function answers its word on the bus, latches KST_FREQ_HI as it reads now, and changes nothing else. (02_unit_tree_and_registers.md R20, 03_keystone_time_engine.md) -/
def Obligations.LowReadLatchesHigh : Prop :=
  ∀ (m : Master) (s : State), 0x20 ≤ m →
    exec (.loReadLatch m (BitVec.ofNat 26 KST_FREQ_LO.ofs) 4) s
      = .next (s.withDev (emit (latchHi s.dev KST_FREQ_HI.ofs) (.readData m KST_FREQ_LO.ofs (rd s.dev KST_FREQ_LO))))

/-- FRZ_RELEASE: function 0 releases the other masters, the management target function 0. With GO, a writer with the rights of function 0 naming a master from 0x01 to 0x6B and the I2C management target naming 0x00 release that master, and the write changes nothing where the I2C management target names another; where function 0's rights name 0x00 or a number above 0x6B, or GO is 0, nothing changes. Firmware has no stored records to apply, and where core 0 is the one released it has no other work that waits. (02_unit_tree_and_registers.md R36, R464) -/
def Obligations.ReleaseOfMaster : Prop :=
  ∀ (value : Word) (m : Master) (s : State), s.dev.fwu.recordsDue = false →
    (∀ k : Nat, getBits value 7 0 = k → value.getLsbD 31 = true → 1 ≤ k → k ≤ 0x6B → asFunction0 s.dev m = true →
        admits s.dev m ROOT_FRZ_RELEASE.ofs = true →
        (k = 0x64 → s.dev.rngHw.a.waiting = [] ∧ s.dev.rngHw.b.waiting = [] ∧ s.dev.frzReport = false ∧ s.dev.fwu.saveWait = false) →
        exec (.frzRelease m value) s = .next (s.withDev (releaseMaster s.dev k)))
      ∧ (getBits value 7 0 = 0 → value.getLsbD 31 = true → admits s.dev i2cMaster ROOT_FRZ_RELEASE.ofs = true →
        exec (.frzRelease i2cMaster value) s = .next (s.withDev (releaseMaster s.dev 0)))
      ∧ (getBits value 7 0 ≠ 0 → admits s.dev i2cMaster ROOT_FRZ_RELEASE.ofs = true →
        exec (.frzRelease i2cMaster value) s = .next s)
      ∧ ((value.getLsbD 31 = false ∨ getBits value 7 0 = 0 ∨ 0x6B < getBits value 7 0) → asFunction0 s.dev m = true →
        admits s.dev m ROOT_FRZ_RELEASE.ofs = true → exec (.frzRelease m value) s = .next s)

/-- Each freeze is counted, its cause recorded and reported. A violation of master m (not the I2C management target) leaves m frozen with its cause and the offset in its ROOT_FRZ_CAUSE word; the first one increments ROOT_FRZ_COUNT up to its limit and raises FREEZE to function 0, or marks the report to the head end where m is function 0 itself; a further one by a frozen master overwrites the cause, and does nothing else unless m is function 0, of which it marks the report again (R130). (R35) -/
def Obligations.FreezeRecords : Prop :=
  ∀ (d : Dev) (m : Master) (cause ofs : Nat), m ≤ 0x6B → cause < 64 →
    rd (freeze d m cause ofs) (ROOT_FRZ_CAUSE m) = BitVec.ofNat 32 (cause * 0x4000000 + ofs % 0x4000000)
      ∧ isFrozen (freeze d m cause ofs) m = true
      ∧ (isFrozen d m = true → m ≠ 0 →
          freeze d m cause ofs = wrn d (ROOT_FRZ_CAUSE m) (cause * 0x4000000 + ofs % 0x4000000))
      ∧ (m = 0 → (freeze d m cause ofs).frzReport = true)
      ∧ (isFrozen d m = false → rdn (freeze d m cause ofs) ROOT_FRZ_COUNT = min (rdn d ROOT_FRZ_COUNT + 1) 0xFFFFFFFF
          ∧ (m ≠ 0 → regBit (freeze d m cause ofs) (HIF_FNf_EVT 0) evFreeze = true))

/-- PWR_REQ_WRITE, HDR_BST_START and HDR_BST_ABORT act on the unit named. An admitted write of PWR_REQ to a leaf unit takes the checked value and the trim follows; one that an always-on or time-capture unit gets reads 10b whatever is written. START sets PENDING on every target of an eligible leaf unit. ABORT aborts the running slice where its target belongs to the unit, and else changes nothing. (02_unit_tree_and_registers.md R24, R26, 20_power_states.md R362, 21_self_test_and_repair.md R379) -/
def Obligations.HeaderCommands : Prop :=
  ∀ (m : Master) (u : UnitIx) (s : State), 8 ≤ u.val →
    (∀ value : Word, admits s.dev m (HDR_PWR (unitAt u).base).ofs = true →
        exec (.pwrReqWrite m u value) s = .next (s.withDev (startTrim (putPwrReq m s.dev u (getBits value 1 0)))))
      ∧ (∀ v : Nat, (unitAt u).domains.headD 0 < 2 → fld (putPwrReq m s.dev u v) (HDR_PWR_PWR_REQ (unitAt u).base) = 2)
      ∧ (admits s.dev m (HDR_BST (unitAt u).base).ofs = true → (unitAt u).eligible = true →
        ∃ t : State, exec (.hdrBstStart m u) s = .next t ∧ t.mem = s.mem
          ∧ ∀ k ∈ targetsOf u, flag t.dev (BST_TGTt_STATUS_PENDING k) = true)
      ∧ (admits s.dev m (HDR_BST (unitAt u).base).ofs = true →
        (∀ k : Nat, slicing s.dev = some k → k ∈ targetsOf u →
            exec (.hdrBstAbort m u) s = .next (s.withDev (abortSlice s.dev cutHost)))
          ∧ ((∀ k : Nat, slicing s.dev = some k → k ∉ targetsOf u) → exec (.hdrBstAbort m u) s = .next s))

/-- TICK: the applied word is added to device time, and the latches and counts of the tick follow. While a reference runs a tick is carried out: the Saddle's evaluation, unless it has been made in the tick that ends; then device time takes the applied frequency word, which is the base word corrected and slewed, rounded once, and equals the corrected word plus the slewer's step; elapsed time counts one, and the counts of the tick and a walk of the flow table follow. Adding a word of 54 bits to device time adds exactly that many units of 2^-48 ns, modulo 2^48 seconds. While no reference runs nothing changes. (03_keystone_time_engine.md R40, R41, R466) -/
def Obligations.TickAddsFrequencyWord : Prop :=
  (∀ s : State, s.dev.kst.refsRunning = true →
      exec .tick s = .next { s with
        dev := (walkTick (tickCounts (evaluateTick s.dev).clock.sec.toNat (nextTick (evaluateTick s.dev))) s.mem).1
        mem := (walkTick (tickCounts (evaluateTick s.dev).clock.sec.toNat (nextTick (evaluateTick s.dev))) s.mem).2 })
    ∧ (∀ d : Dev, (d.saddle.evaluated = true → evaluateTick d = d)
        ∧ (nextTick d).clock = d.clock.tick (appliedWord d) ∧ (nextTick d).elapsed = d.elapsed + 1
        ∧ rdPair (nextTick d) KST_FREQ_LO KST_FREQ_HI = appliedWord d % 2 ^ 64
        ∧ appliedWord d = Int.toNat (correctedWord d d.kst.c + slewStep d))
    ∧ (∀ (c : Clock) (w : Nat), w < 2 ^ 54 →
        (c.tick w).units = (c.units + w) % (2 ^ 48 * 1000000000 * 2 ^ 48))
    ∧ ∀ s : State, s.dev.kst.refsRunning = false → exec .tick s = .next s

/-- The slewer moves device time by at most its limit and never past its residual. The slewer's step is at most SLEW_LIM times the tick in magnitude, to the next unit of 2^-48 ns, and a tick brings its residual toward 0 without crossing it; with a residual of 0 the slewer adds nothing. (03_keystone_time_engine.md R41, R55) -/
def Obligations.SlewNeverPassesItsLimit : Prop :=
  ∀ d : Dev, (slewStep d).natAbs ≤ (slewLimit d + 999999999) / 1000000000
    ∧ (keystoneTick d).kst.b = d.kst.b - slewStep d
    ∧ ((d.kst.b - slewStep d).natAbs ≤ d.kst.b.natAbs)
    ∧ (0 ≤ d.kst.b → 0 ≤ d.kst.b - slewStep d) ∧ (d.kst.b ≤ 0 → d.kst.b - slewStep d ≤ 0)
    ∧ (d.kst.b = 0 → slewStep d = 0)

/-- TIME_CAPTURE: GO copies device time at the next tick; TDC_EXCHANGE: a count from 256 to 400 becomes the span, any other sets FAULT. An admitted write of GO to KST_CAPTURE marks the capture and changes nothing else; without GO nothing changes. Taking the capture puts device time into the snapshot registers and clears the mark. At the exchange, which comes at a second boundary, each of the 71 TDCs whose count lies from 256 to 400 takes it as span, clears FAULT and exchanges its live line; every other keeps span and live line and sets FAULT. The memories do not change, and nothing does where no boundary waits for the exchange. (03_keystone_time_engine.md R42, R46) -/
def Obligations.CaptureAndCalibration : Prop :=
  (∀ (m : Master) (value : Word) (s : State), admits s.dev m KST_CAPTURE.ofs = true →
      exec (.timeCapture m value) s
        = .next (if value.getLsbD 0 then s.withDev { s.dev with kst := { s.dev.kst with capture := true } } else s))
    ∧ (∀ d : Dev, (takeCapture d).kst.capture = false
      ∧ rdn (takeCapture d) KST_SNAP_SEC_HI = d.clock.sec.toNat / 0x100000000
      ∧ rdn (takeCapture d) KST_SNAP_SEC_LO = d.clock.sec.toNat % 0x100000000
      ∧ rdn (takeCapture d) KST_SNAP_NS = d.clock.ns.val ∧ rdn (takeCapture d) KST_SNAP_FRAC = d.clock.frac16)
    ∧ (∀ (counts : List Nat) (s : State), secMark s.dev secExchange = none → exec (.tdcExchange counts) s = .next s)
    ∧ ∀ (counts : List Nat) (s : State), secMark s.dev secExchange ≠ none → ∃ t : State, exec (.tdcExchange counts) s = .next t ∧ t.mem = s.mem
    ∧ ∀ k : Nat, k < 71 →
      (256 ≤ counts.getD k 0 → counts.getD k 0 ≤ 400 →
        fld t.dev (KST_TDC_CAL_SPAN k) = counts.getD k 0 ∧ flag t.dev (KST_TDC_CAL_FAULT k) = false
          ∧ flag t.dev (KST_TDC_CAL_LIVE k) = !flag s.dev (KST_TDC_CAL_LIVE k))
      ∧ (counts.getD k 0 < 256 ∨ 400 < counts.getD k 0 →
        fld t.dev (KST_TDC_CAL_SPAN k) = fld s.dev (KST_TDC_CAL_SPAN k) ∧ flag t.dev (KST_TDC_CAL_FAULT k) = true
          ∧ flag t.dev (KST_TDC_CAL_LIVE k) = flag s.dev (KST_TDC_CAL_LIVE k))

/-- OFFSET_EVAL in GOOD: near the prediction an offset is accepted, else it is refused. A delivered offset of a GOOD domain is taken: within JUMP_THR of the prediction it is accepted and becomes the reference offset; otherwise it is refused, counted, and the reference offset stays. Where an offset of the other domain waits too and PREF_DOM names that domain, the other offset is evaluated first and then this one (the model's choice of order, log 188). With no offset delivered nothing changes. (03_keystone_time_engine.md R49) -/
def Obligations.OffsetInGood : Prop :=
  (∀ (x : Line) (s : State) (o : Offset), (s.dev.kst.dom.get x).waiting = some o → domState s.dev x = domGood →
      ((s.dev.kst.dom.get x.other).waiting = none ∨ fld s.dev KST_CTL_PREF_DOM = x.ix) →
      ∃ d : Dev, d = startTimer (setDomain s.dev x (fun m => { m with waiting := none, lastAt := some s.dev.elapsed })) (.domain x) ticks384ms
        ∧ (((o.x - predicted s.dev x o.phase).natAbs : Int) ≤ nsUnits (fldA s.dev KST_JUMP_CFG_JUMP_THR) →
            exec (.offsetEval x) s = .next (s.withDev (acceptOffset d x o)))
        ∧ (nsUnits (fldA s.dev KST_JUMP_CFG_JUMP_THR) < ((o.x - predicted s.dev x o.phase).natAbs : Int) →
            exec (.offsetEval x) s = .next (s.withDev (refuseOffset d x o))))
    ∧ (∀ (x : Line) (s t : State), (s.dev.kst.dom.get x).waiting ≠ none → (s.dev.kst.dom.get x.other).waiting ≠ none →
      fld s.dev KST_CTL_PREF_DOM ≠ x.ix → exec (.offsetEval x.other) s = .next t →
      exec (.offsetEval x) s = exec (.offsetEval x) t)
    ∧ ∀ (x : Line) (s : State), (s.dev.kst.dom.get x).waiting = none → exec (.offsetEval x) s = .next s

/-- DOMAIN_TIMEOUT, SERVO_PROP_EXPIRE, SLEW_DONE and HOLD_AGED. Once 384 ms have passed without an offset the domain is lost. Once 128 ms have passed the correction of a tracking servo becomes the integral. With a residual of 0 SWITCHING and SLEWING clear. A holdover whose seconds exceed HOLD_AGE_LIM raises HOLD_AGED once. Before its condition holds each of them changes nothing. (03_keystone_time_engine.md R48, R51, R55, R57) -/
def Obligations.TimeEngineTimers : Prop :=
  ∀ (x : Line) (s : State),
    (timerOver s.dev (.domain x) = true → exec (.domainTimeout x) s = .next (s.withDev (domainLost s.dev x)))
      ∧ (timerOver s.dev (.domain x) = false → exec (.domainTimeout x) s = .next s)
      ∧ (timerOver s.dev .prop = true → servo s.dev = servoTrack →
          ∃ t : State, exec .servoPropExpire s = .next t ∧ t.dev.kst.c = s.dev.kst.i ∧ t.dev.kst.i = s.dev.kst.i ∧ t.dev.regs = s.dev.regs
            ∧ t.mem = s.mem)
      ∧ (timerOver s.dev .prop = false → exec .servoPropExpire s = .next s)
      ∧ (s.dev.kst.b = 0 → ∃ t : State, exec .slewDone s = .next t ∧ flag t.dev KST_STATUS_SWITCHING = false
          ∧ flag t.dev KST_STATUS_SLEWING = false ∧ sameRegsBut [KST_STATUS.ofs] s.dev t.dev ∧ t.mem = s.mem)
      ∧ (s.dev.kst.b ≠ 0 → exec .slewDone s = .next s)
      ∧ (servo s.dev = servoHoldover → s.dev.kst.holdAged = false → fldA s.dev KST_HOLD_AGE_HOLD_AGE_LIM < rdn s.dev KST_HOLD_SEC →
          ∃ t : State, exec .holdAged s = .next t ∧ t.dev.kst.holdAged = true ∧ regBit t.dev KST_ALARM alHoldAged = true)
      ∧ (s.dev.kst.holdAged = true → exec .holdAged s = .next s)

/-- REF_FAIL, REF25B_FAIL, REF_STOP, REF_RETURN and REF_FIRST_EDGE. When REF25 fails while it is selected the device changes to REF25B: REF_SEL 1, HOLD_QUAL DEGRADED, REF_FAIL raised, the servo's state as it was. When REF25B fails instead only REF25B_OK clears and REF_FAIL is raised. When both fail device time stops, the servo is FREE, HOLD_QUAL is STOPPED and REF_STOP is raised. A reference that returns runs again and is the one selected. The first edge after PORST_N in boot phase 0 does the same and starts the boot. (03_keystone_time_engine.md R62, R63, 24_start_up_and_reset.md R422) -/
def Obligations.ReferencesFailAndReturn : Prop :=
  ∀ (s : State) (periods : Nat) (ref : RefClock),
    (s.dev.kst.refsRunning = true → flag s.dev KST_STATUS_REF_SEL = false →
        (∃ t : State, exec (.refFail periods) s = .next t ∧ flag t.dev KST_STATUS_REF_SEL = true ∧ fld t.dev KST_STATUS_HOLD_QUAL = 1
            ∧ servo t.dev = servo s.dev ∧ regBit t.dev KST_ALARM alRefFail = true ∧ t.dev.elapsed = s.dev.elapsed + periods)
          ∧ exec .ref25bFail s = .next (s.withDev (raiseKst (setFlag s.dev KST_REF_STATUS_REF25B_OK false) alRefFail)))
      ∧ (∃ t : State, exec .refStop s = .next t ∧ t.dev.kst.refsRunning = false ∧ servo t.dev = servoFree
          ∧ fld t.dev KST_STATUS_HOLD_QUAL = 2 ∧ regBit t.dev KST_ALARM alRefStop = true ∧ t.dev.clock = s.dev.clock)
      ∧ (s.dev.kst.refsRunning = false →
          exec (.refReturn ref) s = .next (s.withDev (refReturn ref s.dev))
            ∧ (bootPhase s.dev = 0 → exec (.refFirstEdge ref) s = .next (s.withDev (bootVoltage (refReturn ref s.dev)))))
      ∧ (s.dev.kst.refsRunning = true → exec (.refReturn ref) s = .next s)

/-- COMPARISON_WINDOW_END: both references are judged and the measurements held. At the end of a comparison window REF25_OK and REF25B_OK show the verdicts, the ratio and the phase take their registers, and the healthy time of REF25 starts when it becomes OK and returns to 0 when it is not. (03_keystone_time_engine.md R62, R467) -/
def Obligations.ComparisonWindow : Prop :=
  ∀ (ok25 ok25b : Bool) (ratio : Word) (phase : Nat) (s : State), phase < 40000 →
    ∃ t : State, exec (.comparisonWindowEnd ok25 ok25b ratio phase) s = .next t ∧ t.mem = s.mem
      ∧ flag t.dev KST_REF_STATUS_REF25_OK = ok25 ∧ flag t.dev KST_REF_STATUS_REF25B_OK = ok25b
      ∧ rd t.dev KST_REF_RATIO = ratio ∧ rdn t.dev KST_REF_PHASE = phase
      ∧ (ok25 = true → flag s.dev KST_REF_STATUS_REF25_OK = false → t.dev.kst.refGood = some 0)
      ∧ (ok25 = false → t.dev.kst.refGood = none ∧ fld t.dev KST_REF_STATUS_REF25_GOOD_SEC = 0)
      ∧ sameRegsBut [KST_REF_RATIO.ofs, KST_REF_PHASE.ofs, KST_REF_STATUS.ofs] s.dev t.dev

/-- COMMIT_POST: GO assigns an ID, and captures or records why it does not. An admitted write of TCM_POST_CTL with GO posts: the commit takes the next ID that no pending commit holds. Where a check fails nothing is captured, the dirty marks stay and the outcome is recorded under that ID; where all pass one commit is pending more, in the last place, with the words that were dirty in its units, and RESULT shows its ID as pending. Without GO the word is stored and nothing is posted. (04_timed_commits.md R70, R71) -/
def Obligations.PostChecksOrCaptures : Prop :=
  (∀ (m : Master) (p : Fin 36) (value : Word) (s : State) (d : Dev) (o : Nat),
    admits s.dev m (TCM_POST_CTL p).ofs = true → value.getLsbD 31 = true → d = storeAt s.dev m (TCM_POST_CTL p).ofs value →
    postCheck d p (fld d (TCM_POST_CTL_UNITS p)) = .error o →
    exec (.commitPost m p value) s = .next (s.withDev (recordOutcome (wrn { d with nextCommit := (freeId d 72 d.nextCommit + 1) % 65536 }
      (TCM_POST_RESULT p) (freeId d 72 d.nextCommit * 65536)) (freeId d 72 d.nextCommit) p (fld d (TCM_POST_CTL_UNITS p)) o 15
      (flag d (TCM_POST_CTL_NOTIFY p)))))
  ∧ (∀ (m : Master) (p : Fin 36) (value : Word) (s : State) (d : Dev) (due : Due) (late : Bool),
    admits s.dev m (TCM_POST_CTL p).ofs = true → value.getLsbD 31 = true → d = storeAt s.dev m (TCM_POST_CTL p).ofs value →
    postCheck d p (fld d (TCM_POST_CTL_UNITS p)) = .ok (due, late) →
    exec (.commitPost m p value) s = .next (s.withDev (wrn (capture { d with nextCommit := (freeId d 72 d.nextCommit + 1) % 65536 } m p
      (fld d (TCM_POST_CTL_UNITS p)) (freeId d 72 d.nextCommit) due late) (TCM_POST_RESULT p) (freeId d 72 d.nextCommit * 65536))))
  ∧ ∀ (m : Master) (p : Fin 36) (value : Word) (s : State), admits s.dev m (TCM_POST_CTL p).ofs = true →
    ∃ d t, d = storeAt s.dev m (TCM_POST_CTL p).ofs value ∧ exec (.commitPost m p value) s = .next t ∧ t.mem = s.mem
      ∧ (value.getLsbD 31 = false → t.dev = d)
      ∧ (value.getLsbD 31 = true → ∀ o : Nat, postCheck d p (fld d (TCM_POST_CTL_UNITS p)) = .error o →
          t.dev.dirty = d.dirty ∧ t.dev.commits = d.commits)
      ∧ (value.getLsbD 31 = true → ∀ r : Due × Bool, postCheck d p (fld d (TCM_POST_CTL_UNITS p)) = .ok r →
          ∃ c : Commit, t.dev.commits = d.commits ++ [c] ∧ c.poster = p ∧ c.due = r.1 ∧ c.late = r.2
            ∧ c.units = fld d (TCM_POST_CTL_UNITS p) ∧ c.id = freeId d 72 d.nextCommit
            ∧ c.words = (((unitBits c.units).map (dirtyOf (checkBasePair d m c.units))).flatten).map
                (fun o => (o, shadowAt (checkBasePair d m c.units) o))
            ∧ rdn t.dev (TCM_POST_RESULT p) = c.id * 65536)

/-- The ID assigned differs from that of every pending commit. With at most 72 commits pending the ID that a post takes is held by none of them. (04_timed_commits.md R71) -/
def Obligations.NoTwoPendingShareAnId : Prop :=
  ∀ d : Dev, d.commits.length ≤ 72 → ∀ c ∈ d.commits, c.id < 65536 → c.id ≠ freeId d 72 d.nextCommit

/-- COMMIT_CANCEL: the poster or function 0 cancels a pending commit that is not due. A cancel with GO that names a pending commit, not due in this tick, by its poster or by function 0 ends it with outcome CANCELLED and it is pending no longer; where no pending commit has the ID, or it is due, or another master writes, nothing changes. (04_timed_commits.md R76) -/
def Obligations.CancelFreesTheCommit : Prop :=
  ∀ (m : Master) (p : Fin 36) (value : Word) (s : State), admits s.dev m (TCM_POST_CANCEL p).ofs = true → value.getLsbD 31 = true →
    (∀ c : Commit, s.dev.commits.find? (fun c => c.id == getBits value 15 0) = some c → (m = 0 ∨ posterMaster c.poster = m) →
        isDue s.dev c = false →
        exec (.commitCancel m p value) s = .next (s.withDev (finishCommit s.dev c outCancelled 15))
          ∧ ∀ e ∈ (finishCommit s.dev c outCancelled 15).commits, e.id ≠ c.id)
      ∧ (s.dev.commits.find? (fun c => c.id == getBits value 15 0) = none → exec (.commitCancel m p value) s = .next s)
      ∧ (∀ c : Commit, s.dev.commits.find? (fun c => c.id == getBits value 15 0) = some c →
          (isDue s.dev c = true ∨ (m ≠ 0 ∧ posterMaster c.poster ≠ m)) → exec (.commitCancel m p value) s = .next s)

/-- COMMIT_DUE: an unpowered or a refusing unit keeps every unit from applying. Where a commit is due in this tick, the Saddle's evaluation of the tick comes first, and then the commit that is next is settled. If a named unit has no power the outcome is UNPOWERED with the lowest such bit and nothing else is done. If a unit refuses, every refusing unit reports and the outcome is REFUSED with the lowest such bit. Otherwise every named unit applies its words, and the outcome is APPLIED, LATE or STEPPED. In the first two cases no applied word changes by the commit's own words. With no commit due nothing changes. (04_timed_commits.md R74) -/
def Obligations.CommitAppliesWhollyOrNotAtAll : Prop :=
  ∀ s : State,
    (s.dev.commits.any (isDue s.dev) = false → exec .commitDue s = .next s)
      ∧ ∀ (e : Dev) (c : Commit), s.dev.commits.any (isDue s.dev) = true → e = evaluateTick s.dev → nextDue e = some c →
        (∀ b : Nat, (unitBits c.units).find? (fun b => leafPower e (commitUnit b) != 2) = some b →
            exec .commitDue s = .next (s.withDev (finishCommit e c outUnpowered b))
              ∧ (finishCommit e c outUnpowered b).applied = e.applied)
          ∧ ((unitBits c.units).find? (fun b => leafPower e (commitUnit b) != 2) = none →
            (∀ (b : Nat) (l : List Nat), (unitBits c.units).filter (unitRefuses e c) = b :: l →
              exec .commitDue s = .next (s.withDev (finishCommit (forEach (b :: l) (reportRefusal c) e) c outRefused b)))
            ∧ ((unitBits c.units).filter (unitRefuses e c) = [] →
              exec .commitDue s
                = .next (s.withDev (forEach (unitBits c.units) (applyUnit c) (finishCommit e c (appliedOutcome c) 15)))))

/-- Every final outcome writes one log entry and frees the commit. Ending a commit removes it from the pending ones, writes the log entry at index LOG_SEQ mod 64 with its ID, poster, outcome, units and device time, and increments TCM_LOG_SEQ. (04_timed_commits.md R77, R78) -/
def Obligations.OutcomeIsRecorded : Prop :=
  ∀ (d : Dev) (c : Commit) (o b : Nat), o < 16 →
    (finishCommit d c o b).commits = d.commits.filter (fun e => e.id != c.id)
      ∧ sget ⟨0, 0, 0, 0, 0, 0, 0⟩ (finishCommit d c o b).commitLog (rdn d TCM_LOG_SEQ % 64)
        = { id := c.id, poster := posterMaster c.poster, outcome := o, unitBit := b, units := c.units,
            sec := d.clock.sec.toNat % 0x100000000, ns := d.clock.ns.val }
      ∧ rd (finishCommit d c o b) TCM_LOG_SEQ = BitVec.ofNat 32 (rdn d TCM_LOG_SEQ + 1)

/-- COMMIT_FRAME_TIMEOUT: a frame-anchored commit ends with FRAME. The first frame-anchored commit whose frame was passed over, or that has waited 1 s since the later of its post and its line's last D0 FAW stamp, ends with outcome FRAME; with none such nothing changes. (04_timed_commits.md R73) -/
def Obligations.FrameCommitTimesOut : Prop :=
  ∀ s : State,
    (∀ c : Commit, s.dev.commits.find? (frameOver s.dev) = some c →
        exec .commitFrameTimeout s = .next (s.withDev (finishCommit s.dev c outFrame 15)))
      ∧ (s.dev.commits.find? (frameOver s.dev) = none → exec .commitFrameTimeout s = .next s)

/-- MOD_PRESENT, MOD_ABSENT, MOD_RESET_RELEASE, MOD_INIT_DONE and MOD_RECHECK walk a module through its bring-up. An absent module that shows presence is reset; the release comes RST_MS later and the identity read INIT_MS after it, or UNDECLARED where nothing is declared; with the transmit-lane domain off it is UNPOWERED instead. A module that goes absent is ABSENT at once, whatever its state; once RECHECK_S have passed the identity is read again in the same state. PRES shows the pin. (05_line_lanes_and_modules.md R88, R89, R90, R91, R92) -/
def Obligations.ModuleBringUp : Prop :=
  ∀ (x : Line) (s : State),
    (∀ held : Bool, modState s.dev x = modAbsentSt → ∃ d : Dev, exec (.modPresent x held) s = .next (s.withDev d)
        ∧ flag d (LLx_STATUS_PRES x.ix) = true
        ∧ (domainOn s.dev (txDomain x) = false → modState d x = modUnpowered)
        ∧ (domainOn s.dev (txDomain x) = true → held = false → modState d x = modAbsentSt)
        ∧ (domainOn s.dev (txDomain x) = true → held = true → modState d x = modResetting ∧ (d.lineHw.get x).modReset = true
            ∧ timerRuns d (.modReset x) = true))
      ∧ (∃ d : Dev, exec (.modAbsent x) s = .next (s.withDev d)
          ∧ flag d (LLx_STATUS_PRES x.ix) = false ∧ (d.lineHw.get x).checking = false ∧ modState d x = modAbsentSt)
      ∧ (modState s.dev x = modResetting → timerOver s.dev (.modReset x) = true →
          ∃ d : Dev, exec (.modResetRelease x) s = .next (s.withDev d) ∧ modState d x = modInitWait
            ∧ (d.lineHw.get x).modReset = false)
      ∧ (modState s.dev x = modInitWait → timerOver s.dev (.modInit x) = true →
          ∃ d : Dev, exec (.modInitDone x) s = .next (s.withDev d)
            ∧ modState d x = (if declared s.dev x then modChecking else modUndeclared)
            ∧ (declared s.dev x = true → (d.lineHw.get x).checking = true))
      ∧ (modState s.dev x = modReady → timerOver s.dev (.modRecheck x) = true →
          exec (.modRecheck x) s = .next (s.withDev (startCheck s.dev x)) ∧ modState (startCheck s.dev x) x = modReady)

/-- MOD_CHECK_DONE and MOD_BUS_TIMEOUT end an identity check. The identity read ends the check: the module is READY exactly if every masked byte of the range matches, else MISMATCH. A failed transaction is retried up to three times; the failure after the third ends the check in BUS_FAIL. With no check in progress nothing is done. (05_line_lanes_and_modules.md R88, R89, R90) -/
def Obligations.ModuleIdentity : Prop :=
  ∀ (x : Line) (s : State) (bytes : List Byte) (page : Bool),
    ((s.dev.lineHw.get x).checking = true →
        (∃ d : Dev, exec (.modCheckDone x bytes) s = .next (s.withDev d)
          ∧ modState d x = (if idMatches s.dev x bytes then modReady else modMismatch) ∧ (d.lineHw.get x).checking = false)
        ∧ ((s.dev.lineHw.get x).tryRead < 3 → page = false →
          ∃ d : Dev, exec (.modBusTimeout x page) s = .next (s.withDev d) ∧ modState d x = modState s.dev x
            ∧ (d.lineHw.get x).tryRead = (s.dev.lineHw.get x).tryRead + 1)
        ∧ (3 ≤ (s.dev.lineHw.get x).tryRead → page = false →
          ∃ d : Dev, exec (.modBusTimeout x page) s = .next (s.withDev d) ∧ modState d x = modBusFail
            ∧ (d.lineHw.get x).checking = false))
      ∧ ((s.dev.lineHw.get x).checking = false →
        exec (.modCheckDone x bytes) s = .next (s.withDev s.dev)
          ∧ exec (.modBusTimeout x page) s = .next (s.withDev s.dev))

/-- MOD_CHECK, MOD_DECLARE, MOD_XFER and MOD_XFER_DONE. Admitted writes of the identity register store it and then check, or leave checking, as DECLARED and CHECK say. GO with no transfer pending starts a host transfer, which ends at once with ERR in ABSENT and UNPOWERED; a read transfer that ends well delivers its byte with DONE, a failed one sets ERR. (05_line_lanes_and_modules.md R91, R93) -/
def Obligations.ModuleRegisterWrites : Prop :=
  ∀ (m : Master) (x : Line) (value : Word) (s : State),
    (admits s.dev m (LLx_MOD_ID_CFG x.ix).ofs = true →
        exec (.modCheck m x value) s = .next (s.withDev (modIdWritten
            (storeAt s.dev m (LLx_MOD_ID_CFG x.ix).ofs (value ||| 0x40000000)) x (declared s.dev x) true))
          ∧ exec (.modDeclare m x value) s = .next (s.withDev (modIdWritten
            (storeAt s.dev m (LLx_MOD_ID_CFG x.ix).ofs (value &&& 0xBFFFFFFF)) x (declared s.dev x) false)))
      ∧ (admits s.dev m (LLx_MOD_XFER x.ix).ofs = true → value.getLsbD 31 = true → (s.dev.lineHw.get x).xfer = none →
        ∃ d : Dev, exec (.modXfer m x value) s = .next (s.withDev d)
          ∧ ((modState s.dev x = modAbsentSt ∨ modState s.dev x = modUnpowered) →
              flag d (LLx_MOD_XFER_ERR x.ix) = true ∧ flag d (LLx_MOD_XFER_DONE x.ix) = true ∧ (d.lineHw.get x).xfer = none)
          ∧ (modState s.dev x ≠ modAbsentSt → modState s.dev x ≠ modUnpowered → (d.lineHw.get x).xfer.isSome = true))
      ∧ ∀ (q : ModXfer) (data : Byte), (s.dev.lineHw.get x).xfer = some q → (s.dev.lineHw.get x).checking = false →
        (∃ d : Dev, exec (.modXferDone x true data) s = .next (s.withDev d) ∧ flag d (LLx_MOD_XFER_ERR x.ix) = true
            ∧ (d.lineHw.get x).xfer = none)
          ∧ (q.write = false → ∃ d : Dev, exec (.modXferDone x false data) s = .next (s.withDev d)
            ∧ flag d (LLx_MOD_XFER_DONE x.ix) = true ∧ fld d (LLx_MOD_XFER_DATA x.ix) = data.toNat ∧ (d.lineHw.get x).xfer = none)

/-- SIGNAL_CHANGE and CDR_LOCK_CHANGE show in the lane's status, and 0 while the lane has no power. SIGNAL and CDR_LOCK of a powered receive lane take the level given; those of an unpowered lane read 0. Only the lane's status word changes. A lane that near-end loopback has taken from its pins sees neither. (05_line_lanes_and_modules.md R81, R84, R85) -/
def Obligations.LaneIndications : Prop :=
  ∀ (x : Line) (r : Fin 8) (b : Bool) (s : State),
    (looped s.dev x r = true → exec (.signalChange x r b) s = .next s ∧ exec (.cdrLockChange x r b) s = .next s)
    ∧ (looped s.dev x r = false → (∃ d : Dev, exec (.signalChange x r b) s = .next (s.withDev d)
        ∧ flag d (LLx_RXr_STATUS_SIGNAL x.ix r) = (b && domainOn s.dev (rxDomain x r))
        ∧ flag d (LLx_RXr_STATUS_CDR_LOCK x.ix r) = flag s.dev (LLx_RXr_STATUS_CDR_LOCK x.ix r)
        ∧ sameRegsBut [(LLx_RXr_STATUS x.ix r).ofs] s.dev d ∧ d.applied = s.dev.applied)
      ∧ ∃ d : Dev, exec (.cdrLockChange x r b) s = .next (s.withDev d)
        ∧ flag d (LLx_RXr_STATUS_CDR_LOCK x.ix r) = (b && domainOn s.dev (rxDomain x r))
        ∧ flag d (LLx_RXr_STATUS_SIGNAL x.ix r) = flag s.dev (LLx_RXr_STATUS_SIGNAL x.ix r)
        ∧ sameRegsBut [(LLx_RXr_STATUS x.ix r).ofs] s.dev d ∧ d.applied = s.dev.applied)

/-- PRBS_LOCK, PRBS_LOSS, CHECKER_CLR, INJ_SINGLE, INJ_BURST and LOOPBACK_TEST_BURST. A running checker of a lane that receives locks; a locked one counts the errors reported to it, with saturation at 2^48 − 1, and loses lock where its interval then has 64 or more. A write with CLR zeroes both counters. An injection is taken only where none is in progress on the lane. Levels received with the settings they were sent with, GRAY, PRECODE and INV, give the bits sent. In near-end loopback a test burst goes through the four looped lanes, whose CDR_LOCK lasts no longer than the burst; outside it nothing happens. (05_line_lanes_and_modules.md R98, R101, R102, 12_server_lanes.md) -/
def Obligations.PatternCheckers : Prop :=
  (∀ (r : RxLane) (s : State), chkOn s.dev r = true → laneReceives s.dev r = true → inTestBursts s.dev r = false →
      flag s.dev (lockFld r) = false → ∃ t : State, exec (.prbsLock r) s = .next t ∧ t.mem = s.mem ∧ chkLocked t.dev r = true
        ∧ sameRegsBut [(lockFld r).reg.ofs] s.dev t.dev)
    ∧ (∀ (r : RxLane) (errs : Nat) (s : State), chkLocked s.dev r = true → laneReceives s.dev r = true →
      inTestBursts s.dev r = false → errs ≤ 1024 →
      (64 ≤ (chkHw s.dev r).errs + errs →
        exec (.prbsLoss r errs) s = .next (s.withDev (raisePrbsLoss (resetChk (countErrs s.dev r errs) r) r)))
      ∧ ((chkHw s.dev r).errs + errs < 64 → ∃ t : State, exec (.prbsLoss r errs) s = .next t ∧ t.mem = s.mem
        ∧ chkLocked t.dev r = true ∧ (chkHw t.dev r).errs = (chkHw s.dev r).errs + errs
        ∧ rdPair t.dev (errRegs r).1 (errRegs r).2 = min (rdPair s.dev (errRegs r).1 (errRegs r).2 + errs) countTop))
    ∧ (∀ (gray precode inv : Bool) (bits : List Bool), bits.length % 2 = 0 →
      receiveBits gray precode 0 (turnLevels inv (turnLevels inv (sendLevels gray precode bits))) = bits)
    ∧ (∀ (m : Master) (r : RxLane) (value : Word) (s : State), admits s.dev m (chkReg r).ofs = true →
      ∃ t : State, exec (.checkerClr m r value) s = .next t ∧ t.mem = s.mem
        ∧ rdPair t.dev (errRegs r).1 (errRegs r).2 = 0 ∧ rdPair t.dev (bitRegs r).1 (bitRegs r).2 = 0)
    ∧ (∀ (m : Master) (t : TxLane) (value : Word) (s : State), admits s.dev m (genReg t).ofs = true →
      exec (.injSingle m (.gen t) value) s = .next (s.withDev (genWrite m t (value ||| 0x40000000) s.dev))
        ∧ exec (.injBurst m (.gen t) value) s = .next (s.withDev (genWrite m t ((value ||| 0x20000000) &&& 0xBFFFFFFF) s.dev))
        ∧ (sget 0 s.dev.injTx (txKey t) ≠ 0 → sget 0 (genWrite m t value s.dev).injTx (txKey t) = sget 0 s.dev.injTx (txKey t))
        ∧ (sget 0 s.dev.injTx (txKey t) = 0 → value.getLsbD 30 = true → sget 0 (genWrite m t value s.dev).injTx (txKey t) = 1))
    ∧ (∀ (m : Master) (r : RxLane) (value : Word) (s : State), admits s.dev m (chkReg r).ofs = true →
      sget 0 s.dev.injRx (rxKey r) = 0 → value.getLsbD 31 = false →
      exec (.injSingle m (.chk r) value) s = .next (s.withDev (chkWrite m r (value ||| 0x40000000) s.dev))
        ∧ sget 0 (chkWrite m r (value ||| 0x40000000) s.dev).injRx (rxKey r) = 1)
    ∧ ∀ (x : Line) (s : State),
      (fld s.dev (LLx_CTL_TEST_MODE x.ix) ≠ 1 → exec (.loopbackTestBurst x) s = .next s)
        ∧ (fld s.dev (LLx_CTL_TEST_MODE x.ix) = 1 →
          ∃ t : State, exec (.loopbackTestBurst x) s = .next t ∧ t.mem = s.mem
            ∧ t.dev = forEach (List.finRange 4) (loopLane x) s.dev ∧ ∀ k : Fin 4, domainOn s.dev (rxLowDomain x) = true →
              flag t.dev (LLx_RXr_STATUS_CDR_LOCK x.ix k) = false
              ∧ flag t.dev (LLx_RXr_STATUS_SIGNAL x.ix k) = domainOn s.dev (txDomain x))
        ∧ ∀ (r : Fin 8) (levels : List Nat) (word : Nat), chkOn s.dev (.line x r) = true →
          word = rdPair s.dev (LLx_RXr_PAT_LO x.ix r) (LLx_RXr_PAT_HI x.ix r) →
          checkBurst s.dev x r levels = showSeen { s.dev with injRx := sput 0 s.dev.injRx (rxKey (.line x r)) 0 } (.line x r)
            ((invertFirst (sget 0 s.dev.injRx (rxKey (.line x r))) (testBits s.dev x r levels)).foldl
              (checkBit (min (getBits (rd s.dev (chkReg (.line x r))) 2 0) 3) word) (seenBy s.dev (.line x r)))

/-- LL_TEST_MODE_WRITE: the control word is stored, the interlock follows, and a test mode puts the line into Listen. An admitted write of LLx_CTL stores the word with TEST_MODE checked, brings the lanes and the interlock up to date, and puts a line that is not Stopped into Listen where TEST_MODE is then nonzero. (05_line_lanes_and_modules.md R95, R97, R100) -/
def Obligations.TestModeWrite : Prop :=
  ∀ (m : Master) (x : Line) (value : Word) (s : State), admits s.dev m (LLx_CTL x.ix).ofs = true →
    ∃ d : Dev, d = llCtlWritten (storeAt s.dev m (LLx_CTL x.ix).ofs value) m x (testTransmit s.dev x)
      ∧ exec (.llTestModeWrite m x value) s = .next (s.withDev
          (if fld d (LLx_CTL_TEST_MODE x.ix) ≠ 0 ∧ termState d x ≠ stStopped then enterListen d x reportHost else d))

/-- CANDIDATE_OPEN and CANDIDATE_CHECK: a channel hunts, confirms and enters SYNC. In HUNT or CONFIRM without LOS, a boundary with the exact alignment word, a good FSB and the right CHANNEL and GROUP_ID opens a candidate where fewer than 8 are pending, is counted in DSF_HUNT_OVF where 8 are, and any other boundary changes nothing. A candidate that survives a check counts one frame more, or, with CONF_N frames in total, puts the channel into SYNC with no candidate left and LOF clear; the frame is then used and the line's defects follow. One that fails at a boundary that does not qualify is closed. In far-end loopback the bits go out again as well. (06_downstream_framing.md R110, R111) -/
def Obligations.HuntConfirmSync : Prop :=
  ∀ (x : Line) (c : Fin 8) (pos : Nat) (fsb : List Byte) (skew : Int) (s : State) (p : Dev), hunts s.dev x c = true →
    p = passOn x c (bytesBits fsb) s.dev →
    (fawErrors fsb = 0 → fsbGood fsb = true → fsbMatches s.dev x c fsb = true → (∀ k ∈ (chanHw s.dev x c).cands, k.pos ≠ pos) →
        ((chanHw s.dev x c).cands.length < 8 → ∃ d : Dev, exec (.candidateOpen x c pos fsb) s = .next (s.withDev d)
            ∧ chState d x c = chConfirm
            ∧ (chanHw d x c).cands = (chanHw s.dev x c).cands ++ [{ pos := pos, frame := fsbFrame fsb, cnt := 1, seen := s.dev.elapsed }])
          ∧ (8 ≤ (chanHw s.dev x c).cands.length → exec (.candidateOpen x c pos fsb) s = .next (s.withDev (count p (DSF_HUNT_OVF x.ix)))))
      ∧ ((fawErrors fsb ≠ 0 ∨ fsbGood fsb = false ∨ fsbMatches s.dev x c fsb = false) →
        exec (.candidateOpen x c pos fsb) s = .next (s.withDev p))
      ∧ ∀ k : Candidate, (chanHw s.dev x c).cands.find? (fun k => k.pos == pos) = some k →
        (fawErrors fsb ≤ fld s.dev (DSF_CFG_FAW_TOL x.ix) → fsbGood fsb = true → fsbMatches s.dev x c fsb = true →
          fsbFrame fsb = nextFrame k.frame →
            (k.cnt + 1 < fld s.dev (DSF_CFG_CONF_N x.ix) → ∃ d : Dev,
                exec (.candidateCheck x c pos fsb skew) s = .next (s.withDev d) ∧ chState d x c = chState s.dev x c
                ∧ { k with frame := fsbFrame fsb, cnt := k.cnt + 1, seen := s.dev.elapsed } ∈ (chanHw d x c).cands)
            ∧ (fld s.dev (DSF_CFG_CONF_N x.ix) ≤ k.cnt + 1 → ∃ d : Dev, chState d x c = chSync ∧ (chanHw d x c).cands = []
                ∧ chLof d x c = false
                ∧ exec (.candidateCheck x c pos fsb skew) s
                    = .next (s.withDev (lineDefects (takeFrame d x c (fsbFrame fsb) true true false false skew fsb) x))))
          ∧ (fsbGood fsb = false → ∃ d : Dev, exec (.candidateCheck x c pos fsb skew) s = .next (s.withDev (settleRound d x))
              ∧ ∀ e ∈ (chanHw d x c).cands, e.pos ≠ pos)

/-- DSF_FRAME, CODEWORD_DECODE, LOS_DECLARE, LOS_CLEAR and DSF_SECOND_LATCH. In SYNC a channel other than D0 with no new counter counts a FAW with bit errors, an FSB that is not good and an FSB of another channel or group, moves LOSS_RUN, uses the frame and leaves SYNC for HUNT when LOSS_RUN reaches LOSS_M. A codeword, descrambled, counts the symbols that the code corrects and else itself, and outside TIME_ONLY waits for the payload stream. LOS is declared after 10 µs and sends the channel to HUNT, and clears after 250 µs. Once at each second boundary the accumulators are copied, with the second that ended, and restart. A switching-request value is accepted once it has been used SR_PERSIST times running. (06_downstream_framing.md R109, R113, R119, R123, R124) -/
def Obligations.FramesInSync : Prop :=
  (∀ (x : Line) (c : Fin 8) (fsb : List Byte) (bins : Nat) (skew : Int) (s : State), dsfOn s.dev x = true → chState s.dev x c = chSync →
      c.val ≠ 0 → ((fsbGood fsb && fsbMatches s.dev x c fsb) = true → fsbFrame fsb = nextFrame (chanHw s.dev x c).frame) →
      ∃ (d : Dev) (run : Nat), run = (if fld s.dev (DSF_CFG_FAW_TOL x.ix) < fawErrors fsb ∨ (fsbGood fsb = true ∧ fsbMatches s.dev x c fsb = false)
            then fld s.dev (DSF_CHc_STATUS_LOSS_RUN x.ix c) + 1 else 0)
        ∧ (chanHw d x c).fawErr = (chanHw s.dev x c).fawErr + (if fawErrors fsb = 0 then 0 else 1)
        ∧ (chanHw d x c).fsbCrc = (chanHw s.dev x c).fsbCrc + (if fsbGood fsb = true then 0 else 1)
        ∧ fld d (DSF_CHc_STATUS_LOSS_RUN x.ix c) = min run 15
        ∧ (fsbGood fsb = true → fsbMatches s.dev x c fsb = false → rdn d (DSF_CH_MISMATCH x.ix) = min (rdn s.dev (DSF_CH_MISMATCH x.ix) + 1) 0xFFFFFFFF)
        ∧ ∀ d' : Dev, d' = takeFrame d x c (nextFrame (chanHw s.dev x c).frame) (fsbGood fsb)
              (fsbGood fsb && fsbMatches s.dev x c fsb) false false skew fsb →
            exec (.dsfFrame x c fsb bins skew) s = .next (s.withDev (lineDefects
              (if fld d' (DSF_CFG_LOSS_M x.ix) ≤ run ∧ chState d' x c = chSync then leaveSync d' x c chHunt true else d') x)))
    ∧ (∀ (x : Line) (c : Fin 8) (k n : Nat) (syms : List Nat) (s : State), dsfOn s.dev x = true → chState s.dev x c = chSync →
        n = (chanHw s.dev x c).frame →
        ∃ d : Dev, exec (.codewordDecode x c k syms) s = .next (s.withDev d) ∧ d.regs = s.dev.regs
          ∧ (chanHw d x c).fecCorr = (chanHw s.dev x c).fecCorr + (correctedIn c n k syms).getD 0
          ∧ (chanHw d x c).fecUncorr = (chanHw s.dev x c).fecUncorr + (if (correctedIn c n k syms).isNone = true then 1 else 0)
          ∧ (dsfMode s.dev x ≠ 2 → decodedWord c n k syms ∈ (d.dsf.get x).words))
    ∧ (∀ (x : Line) (c : Fin 8) (s : State), dsfOn s.dev x = true → laneChangedAt s.dev x c + 250 ≤ s.dev.elapsed →
        laneUp s.dev x c = false → chLos s.dev x c = false →
        ∃ d : Dev, chLos d x c = true ∧ (chState s.dev x c ≠ chOff → chState d x c = chHunt ∧ chLof d x c = true)
          ∧ exec (.losDeclare x c) s = .next (s.withDev (lineDefects d x)))
    ∧ (∀ (x : Line) (c : Fin 8) (s : State), dsfOn s.dev x = true → laneChangedAt s.dev x c + 6250 ≤ s.dev.elapsed →
        laneUp s.dev x c = true → targetRetired s.dev (46 + x.ix) = false →
        ∃ d : Dev, chLos d x c = false ∧ exec (.losClear x c) s = .next (s.withDev (lineDefects d x)))
    ∧ (∀ (x : Line) (s : State), secMark s.dev (secDsf x) = none → exec (.dsfSecondLatch x) s = .next s)
    ∧ (∀ (x : Line) (s : State) (sec : Nat) (stepped : Bool), dsfOn s.dev x = true →
        secMark s.dev (secDsf x) = some (sec, stepped) → ∃ d : Dev, secMark d (secDsf x) = none
        ∧ rdn d (DSF_SEC_TIME_LO x.ix) = sec % 0x100000000 ∧ flag d (DSF_SEC_INFO_STEPPED x.ix) = stepped
        ∧ (∀ c : Fin 8, rdn d (DSF_CHc_SEC_FEC_CORR x.ix c) = (chanHw s.dev x c).fecCorr % 0x100000000
          ∧ rdn d (DSF_CHc_SEC_GRANT_CRC x.ix c) = (chanHw s.dev x c).grantCrc % 0x100000000
          ∧ (chanHw d x c).fecCorr = 0 ∧ (chanHw d x c).grantCrc = 0)
        ∧ exec (.dsfSecondLatch x) s = .next (s.withDev (lineDefects (raiseDsf d x dsSecond) x)))
    ∧ ∀ (d : Dev) (x : Line) (v : Nat), v < 65536 →
        fld d (DSF_FILT_CFG_SR_PERSIST x.ix) ≤ (if (d.dsf.get x).srRun ≠ 0 ∧ (d.dsf.get x).srValue = v then (d.dsf.get x).srRun + 1 else 1) →
        fld (filterSr d x v) (DSF_SR_ACC_SR1 x.ix) * 256 + fld (filterSr d x v) (DSF_SR_ACC_SR2 x.ix) = v

/-- DSF_MODE_CHANGE restarts bonding without a loss; any other end of bonding is counted. In a powered framer MODE takes the value that the power state and GROUP_WIDTH call for and the channels and the line's defects follow; where MODE changes, bonding restarts and is not counted. An end of bonding that is a loss clears BONDED and is counted where the group was bonded; one that is none clears BONDED and counts nothing. (06_downstream_framing.md R114, R115) -/
def Obligations.ModeRestartsBonding : Prop :=
  (∀ (x : Line) (s : State), dsfOn s.dev x = true →
      (dsfMode s.dev x = modeWanted s.dev x →
          exec (.dsfModeChange x) s = .next (s.withDev (lineDefects (syncChannels s.dev x) x)))
        ∧ (dsfMode s.dev x ≠ modeWanted s.dev x → ∃ d : Dev, dsfMode d x = modeWanted s.dev x ∧ bonded d x = false
            ∧ rd d (DSF_BOND_LOSS x.ix) = rd s.dev (DSF_BOND_LOSS x.ix) ∧ rd d (evDSF x.ix).evt = rd s.dev (evDSF x.ix).evt
            ∧ exec (.dsfModeChange x) s = .next (s.withDev (lineDefects (syncChannels d x) x))))
    ∧ ∀ (d : Dev) (x : Line),
        (bonded (unbond d x true) x = false ∧ bonded (unbond d x false) x = false)
          ∧ rd (unbond d x false) (DSF_BOND_LOSS x.ix) = rd d (DSF_BOND_LOSS x.ix)
          ∧ (bonded d x = true → rdn (unbond d x true) (DSF_BOND_LOSS x.ix) = min (rdn d (DSF_BOND_LOSS x.ix) + 1) 0xFFFFFFFF)

/-- What entering Listen, Stopped and Announce leaves, and the timers, the host write and the condition that cause it. A line that enters Listen has no terminal ID and no ranged channel and loses the role; one that enters Stopped holds the stop latch, has no burst in progress, begins none and loses the role. ANNOUNCE_START takes a ready line from Listen to Announce with ANN_TO running. ANN_TO_EXPIRE and RNG_TO_EXPIRE count the timeout and enter Listen, HOLD_TO_EXPIRE enters Listen, and REG_EN_WRITE with 0 enters Listen from every state but Stopped, after ending the home preference where the line is L-A. (07_registration_and_ranging.md R133, R134, R138) -/
def Obligations.LineLeavesAndReturns : Prop :=
  (∀ (d : Dev) (x : Line) (cause : Nat), termState d x ≠ stListen → ∃ d' : Dev, enterListen d x cause = loseRole d' x
      ∧ termState d' x = stListen ∧ terminalId d' x = 0xFFF ∧ fld d' (RNG_Lx_STATUS_RANGED x.ix) = 0)
    ∧ (∀ (d : Dev) (x : Line), termState d x ≠ stStopped → ∃ d' : Dev, enterStopped d x = loseRole d' x
      ∧ termState d' x = stStopped ∧ flag d' (RNG_Lx_STATUS_STOP_LATCH x.ix) = true
      ∧ (∀ g ∈ (d'.upHw.get x).grants, g.risen = false) ∧ (d'.upHw.get x).leaving = true)
    ∧ ∀ (x : Line) (s : State),
      (termState s.dev x = stListen → lineReady s.dev x = true → ∃ d : Dev, exec (.announceStart x) s = .next (s.withDev d)
          ∧ termState d x = stAnnounce ∧ timerRuns d (.annTo x) = true)
      ∧ (timerOver s.dev (.annTo x) = true → termState s.dev x = stAnnounce → exec (.annToExpire x) s
          = .next (s.withDev (enterListen (raiseRng (count s.dev (RNG_Lx_TIMEOUT x.ix)) x rgTimeout) x reportTimer)))
      ∧ (timerOver s.dev (.rngTo x) = true → termState s.dev x = stRanging → exec (.rngToExpire x) s
          = .next (s.withDev (enterListen (raiseRng (count s.dev (RNG_Lx_TIMEOUT x.ix)) x rgTimeout) x reportTimer)))
      ∧ (timerOver s.dev (.holdTo x) = true → termState s.dev x = stHold →
          exec (.holdToExpire x) s = .next (s.withDev (enterListen s.dev x reportTimer)))
      ∧ ∀ (m : Master) (value : Word), admits s.dev m (RNG_Lx_CTL x.ix).ofs = true → value.getLsbD 0 = false →
          ∀ d : Dev, d = (if x = .a then endHome (storeAt s.dev m (RNG_Lx_CTL x.ix).ofs value) else storeAt s.dev m (RNG_Lx_CTL x.ix).ofs value) →
          exec (.regEnWrite m x value) s = .next (s.withDev (if termState d x = stStopped then d else enterListen d x reportHost))

/-- ASSIGN_ID, DEREGISTER, EMERGENCY_STOP, RESUME, RANGE_RESULT, SLEEP_ACK and RELEASE. A message that is not for the line changes nothing; one that breaks its rules is counted in RNG_Lx_LMM_BAD. While the control cores run and the message is no repetition, ASSIGN_ID with the device's serial number takes a line in Announce to Ranging with its ID, DEREGISTER returns it to Listen, RANGE_RESULT in Ranging, Operate or Standby adds a delay that waits for its frame, SLEEP_ACK with status 0 records the lease, and RELEASE releases function 0. EMERGENCY_STOP stops a line it names whether or not the cores run, and RESUME returns a stopped line to Listen with the latch clear. (07_registration_and_ranging.md R126, R128, R130, R134, R136, R138, R141, R145) -/
def Obligations.MessagesForALine : Prop :=
  ∀ (x : Line) (h : LmmHead) (sn : BitVec 64) (id : BitVec 12) (s : State),
    (forLine s.dev x h = false → exec (.assignId x h sn id) s = .next s ∧ exec (.deregister x h) s = .next s
        ∧ exec (.emergencyStop x h sn) s = .next s ∧ exec (.resume x h sn) s = .next s
        ∧ ∀ (status : BitVec 8) (lease : BitVec 16) (b : BitVec 8),
          exec (.sleepAck x h status lease) s = .next s ∧ exec (.release x h b) s = .next s)
      ∧ (forLine s.dev x h = true → exec (.assignId x h sn 0xFFF) s = .next (s.withDev (count s.dev (RNG_Lx_LMM_BAD x.ix)))
        ∧ ∀ b : BitVec 8, b ≠ 0 → exec (.release x h b) s = .next (s.withDev (count s.dev (RNG_Lx_LMM_BAD x.ix))))
      ∧ (forLine s.dev x h = true → repeated s.dev x h = false →
        (namesDevice s.dev x h sn = true → exec (.emergencyStop x h sn) s = .next (s.withDev (executed (enterStopped s.dev x) x h)))
        ∧ (namesDevice s.dev x h sn = true → termState s.dev x = stStopped → ∃ d : Dev, flag d (RNG_Lx_STATUS_STOP_LATCH x.ix) = false
            ∧ termState d x = stStopped ∧ exec (.resume x h sn) s = .next (s.withDev (executed (enterListen d x reportMessage) x h))))
      ∧ (forLine s.dev x h = true → repeated s.dev x h = false → coresHalted s.dev = false →
        (id ≠ 0xFFF → termState s.dev x = stAnnounce → sn.toNat = serialNumber s.dev → ∃ d : Dev, termState d x = stRanging
            ∧ terminalId d x = id.toNat ∧ timerRuns d (.rngTo x) = true ∧ timerRuns d (.annTo x) = false
            ∧ exec (.assignId x h sn id) s = .next (s.withDev (executed d x h)))
        ∧ (termState s.dev x ≠ stListen → termState s.dev x ≠ stStopped →
            exec (.deregister x h) s = .next (s.withDev (executed (enterListen (executed s.dev x h) x reportMessage) x h)))
        ∧ (h.term ≠ 0xFFF → isFrozen s.dev (mgmtMaster x) = false →
            exec (.release x h 0) s = .next (s.withDev (executed (releaseMaster s.dev 0) x h)))
        ∧ (∀ lease : BitVec 16, lease ≠ 0 → h.term ≠ 0xFFF → (s.dev.rngHw.get x).asked = true → (s.dev.rngHw.get x).acked = none →
            ∃ d : Dev, fld d (RNG_Lx_SLEEP_LEASE x.ix) = lease.toNat ∧ (d.rngHw.get x).acked = some true
              ∧ exec (.sleepAck x h 0 lease) s = .next (s.withDev (executed d x h)))
        ∧ ∀ (u : Fin 4) (last : Bool) (eqd : BitVec 24) (rtd he : Word) (f : BitVec 48), h.term ≠ 0xFFF → f.toNat ≤ h.frame.toNat + 8000 →
            (termState s.dev x = stRanging ∨ termState s.dev x = stOperate ∨ termState s.dev x = stStandby) →
            ∃ (d : Dev) (w : EqdWait), (d.rngHw.get x).eqdWait = (s.dev.rngHw.get x).eqdWait ++ [w] ∧ w.chan = u.val ∧ w.eqd = eqd.toNat
              ∧ w.rtd = rtd.toNat ∧ w.frame = max f.toNat (h.frame.toNat + 1)
              ∧ exec (.rangeResult x h u last false eqd rtd f he) s = .next (s.withDev (executed (rangeLast d x last) x h)))

/-- EQD_APPLY, RANGING_COMPLETE, SLEEP_ACK_TIMEOUT, LEASE_EXPIRE, SLEEP_RESUME, FREEZE_REPORT and the dual-colour length. A delay whose frame has come applies with its round-trip time, marks its channel ranged and queues its acknowledgement, once and again for each repetition received. The earliest that is due comes first. While the cores run, with LAST received and a channel ranged, a line in Ranging goes to Operate and takes the role where no line holds it and the home preference does not hold it back, else to Standby. An acknowledgement that does not come within 32 frames of the line is a refusal; a lease that ends awake enters Listen; a line bonded in time resumes and reports it; a freeze is reported once the cores run. A dual-colour result is never negative and never above 40 km. (07_registration_and_ranging.md R130, R134, R141, R143, R145, R146) -/
def Obligations.RangingAndSleep : Prop :=
  (∀ (x : Line) (s : State) (w : EqdWait), eqdDue s.dev x = some w →
      w.chan < 4 → ∃ d : Dev, fld d (RNG_Lx_EQDu_EQD x.ix w.chan) = w.eqd % 0x1000000 ∧ flag d (RNG_Lx_EQDu_VALID x.ix w.chan) = true
        ∧ rdn d (RNG_Lx_RTDu x.ix w.chan) = w.rtd % 0x100000000 ∧ regBit d (RNG_Lx_STATUS x.ix) (24 + w.chan) = true
        ∧ (d.rngHw.get x).eqdWait = (s.dev.rngHw.get x).eqdWait.erase w
        ∧ exec (.eqdApply x) s = .next (s.withDev (forEach (List.range (w.again + 1)) (fun d _ => queueLmm d x 0x83 w.ack) d)))
    ∧ (∀ (x : Line) (s : State), termState s.dev x = stRanging → (s.dev.rngHw.get x).lastSeen = true → coresHalted s.dev = false →
        fld s.dev (RNG_Lx_STATUS_RANGED x.ix) ≠ 0 → ∃ d : Dev, exec (.rangingComplete x) s = .next (s.withDev (raiseRng d x rgRanged))
          ∧ ((hasActive s.dev = true ∨ (homeRun s.dev = true ∧ x = .b)) → termState d x = stStandby)
          ∧ (hasActive s.dev = false → (homeRun s.dev = false ∨ x = .a) → termState d x = stOperate ∧ isActive d x = true))
    ∧ (∀ (x : Line) (s : State), (s.dev.rngHw.get x).asked = true → (s.dev.rngHw.get x).acked = none →
        (s.dev.rngHw.get x).askedAt + 32 ≤ framesOf s.dev x → exec (.sleepAckTimeout x) s = .next (s.withDev (sleepNak s.dev x))
        ∧ ((sleepNak s.dev x).rngHw.get x).acked = some false)
    ∧ (∀ (x : Line) (s : State), leaseRuns s.dev x = true → leaseLeft s.dev x = 0 →
        (asleep s.dev x = false → exec (.leaseExpire x) s
            = .next (s.withDev (enterListen (setFld s.dev (RNG_Lx_SLEEP_LEFT x.ix) 0) x reportWake)))
          ∧ (asleep s.dev x = true → exec (.leaseExpire x) s = .next (s.withDev (setFld s.dev (RNG_Lx_SLEEP_LEFT x.ix) 0))))
    ∧ (∀ (x : Line) (s : State), timerRuns s.dev (.wakeBond x) = true →
        (bonded s.dev x = true → 0 < leaseLeft s.dev x → timerOver s.dev (.wakeBond x) = false →
            exec (.sleepResume x) s = .next (s.withDev (queueLmm (dropTimer s.dev (.wakeBond x)) x 0x84
              [BitVec.ofNat 8 (termState s.dev x), BitVec.ofNat 8 (termState s.dev x), 5])))
          ∧ (timerOver s.dev (.wakeBond x) = true →
            exec (.sleepResume x) s = .next (s.withDev (enterListen (dropTimer s.dev (.wakeBond x)) x reportWake))))
    ∧ (∀ s : State, s.dev.frzReport = true → coresHalted s.dev = false →
        ∃ t : State, exec .freezeReport s = .next t ∧ t.dev.frzReport = false
          ∧ (announces s.dev .a = true → announces s.dev .b = false → t = s.withDev (queueLmm { s.dev with frzReport := false } .a 0x86
              ([0, BitVec.ofNat 8 (rdn s.dev (ROOT_FRZ_CAUSE 0) / 0x4000000)] ++ beBytes 4 (rdn s.dev (ROOT_FRZ_CAUSE 0) % 0x4000000)))))
    ∧ ∀ (d : Dev) (x : Line) (u rtd frame : Nat) (r : DualColour), dualColour d x u rtd frame = some r → 0 ≤ r.num ∧ 0 < r.den ∧ r.len ≤ 400000

/-- The grants accepted for one channel in one map or two successive ones never overlap. Where the accepted grants of a line do not overlap on a channel within a map and the map before, they do not after an entry of a map was classified and checked, whether it was accepted or rejected; an entry that fails a check is counted in the register that R150 names. (08_upstream_bursts_and_narrows.md R149, R150) -/
def Obligations.AcceptedGrantsNeverOverlap : Prop :=
  (∀ (d : Dev) (x : Line) (n e : Nat),
      (d.upHw.get x).accepted.Pairwise (fun p q => p.chan = q.chan → p.frame ≤ q.frame + 1 → q.frame ≤ p.frame + 1 →
        overlap (grantSpan p) (grantSpan q) = false) →
      ((mapEntry d x n e).upHw.get x).accepted.Pairwise (fun p q => p.chan = q.chan → p.frame ≤ q.frame + 1 → q.frame ≤ p.frame + 1 →
        overlap (grantSpan p) (grantSpan q) = false))
    ∧ ∀ (d : Dev) (x : Line) (n e : Nat) (entry : Option Nat),
      (termState d x ≠ stOperate → (termState d x ≠ stStandby ∨ entry ≠ none) → checkGrant d x n e entry = rejectGrant d x (UPB_BAD_STATE x.ix))
      ∧ (termState d x = stOperate → bitOf (fld d (RNG_Lx_STATUS_RANGED x.ix)) (geChan e) = false →
          checkGrant d x n e entry = rejectGrant d x (RNG_Lx_LMM_BAD x.ix))
      ∧ (termState d x = stOperate → bitOf (fld d (RNG_Lx_STATUS_RANGED x.ix)) (geChan e) = true →
          (geProfile e = 3 → checkGrant d x n e entry = rejectGrant d x (UPB_BAD_PROFILE x.ix))
          ∧ (geProfile e ≠ 3 → geLen e < 5 ∨ 103750 < geStart e + geLen e → checkGrant d x n e entry = rejectGrant d x (UPB_BAD_RANGE x.ix))
          ∧ (geProfile e ≠ 3 → 5 ≤ geLen e → geStart e + geLen e ≤ 103750 → (d.upHw.get x).accepted = [] →
              checkGrant d x n e entry = acceptGrant d x (grantOf d x n e entry)))

/-- GRANT_HORIZON, FLOOR_RESERVE, STAGING_STEP and CARRY_EXPIRE. The line's next grant by its delimiter enters the horizon, and a waiting one is tried again: its floor is reserved where the free granules suffice, and otherwise the wait is counted once. A staging step serves the chosen grant with its allocation's oldest carry-over where that fits and marks the grant complete where it does not, then with the rest of a frame begun; without the Narrows' power or a grant to serve it changes nothing. Carry-over that has waited 32 frames of its line is discarded, and no other. (08_upstream_bursts_and_narrows.md R159, R161, R162, R164) -/
def Obligations.StagingAndHorizon : Prop :=
  (∀ (x : Line) (s : State) (g : Grant),
      (firstGrant ((s.dev.upHw.get x).grants.filter (fun g => !g.horizon && nearHorizon s.dev x g)) = some g →
        exec (.grantHorizon x) s = .next (s.withDev (reserveFloor (replaceGrant s.dev x g { g with horizon := true }) x { g with horizon := true })))
      ∧ (firstGrant ((s.dev.upHw.get x).grants.filter (fun g => g.horizon && !g.reserved)) = some g →
        exec (.floorReserve x) s = .next (s.withDev (reserveFloor s.dev x g)))
      ∧ (∀ d : Dev, g ∈ (d.upHw.get x).grants →
        (floorLack d x g ≤ freeGranules d →
          { g with reserved := true } ∈ ((reserveFloor d x g).upHw.get x).grants)
        ∧ (freeGranules d < floorLack d x g → g.waited = false →
          { g with waited := true } ∈ ((reserveFloor d x g).upHw.get x).grants
            ∧ rdn (reserveFloor d x g) NRW_FLOOR_WAIT = min (rdn d NRW_FLOOR_WAIT + 1) 0xFFFFFFFF)
        ∧ (freeGranules d < floorLack d x g → g.waited = true → reserveFloor d x g = d)))
    ∧ (∀ (ecc : Ecc) (mis : List EngineMiss) (s : State),
      (domainOn s.dev 26 = false ∨ stagingGrant s.dev = none → exec (.stagingStep ecc mis) s = .next s)
      ∧ ∀ (x : Line) (g : Grant) (floor : Bool), domainOn s.dev 26 = true → stagingGrant s.dev = some (x, g, floor) →
        (∀ (c : Carry) (rest : List Carry), carryOf s.dev (carryKey x g.entry) = c :: rest →
          (fitsGrant g (unitBytes c.unit) = true → exec (.stagingStep ecc mis) s = .next (s.withDev
              (syncNrw (stageUnit (setCarry s.dev (carryKey x g.entry) rest) x g c.unit) [carryKey x g.entry])))
          ∧ (fitsGrant g (unitBytes c.unit) = false → exec (.stagingStep ecc mis) s = .next (s.withDev (markComplete s.dev x g))))
        ∧ (∀ (u : LineUnit) (rest : List LineUnit), carryOf s.dev (carryKey x g.entry) = [] → formedOf s.dev (carryKey x g.entry) = u :: rest →
          fitsGrant g (unitBytes u) = true → hasRoom s.dev x g (unitGranules u) floor = true →
          exec (.stagingStep ecc mis) s = .next (s.withDev (stageUnit { setFormed s.dev (carryKey x g.entry) rest with stageSeq := s.dev.stageSeq + 1 }
            x g { u with seq := s.dev.stageSeq }))))
    ∧ ∀ s : State, ∃ t : State, exec .carryExpire s = .next t ∧ t.mem = s.mem
      ∧ ∀ k : Nat, carryOf t.dev k = (carryOf s.dev k).filter 
          (fun c => decide (framesOf s.dev (Line.ofIx (allocLine s.dev k)) < c.until'))

/-- BURST_BEN_RISE, UNIT_CUTOFF, BURST_END, BEN_FALL and RESPONSE_BURST. Where the interlock allows it the channel's next burst raises BEN and is in progress, else it is sent dark and its units become carry-over (log 202). At a cutoff the next staged unit is taken, or filler of its length where it cannot be corrected; with no unit the rest is filled. At the end the burst is sent and counted, and its lane is in the tail unless BEN has risen for the next burst. BEN falls after the tail unless the next burst follows within BEN_MIN_OFF. A response is sent, or sent dark without a change of the line's state. (05_line_lanes_and_modules.md R86, R87, R96, 07_registration_and_ranging.md R139, R140, 08_upstream_bursts_and_narrows.md R155, R158, R163, R165, R166) -/
def Obligations.BurstsOnTheLane : Prop :=
  (∀ (x : Line) (u : Fin 4) (s : State) (g : Grant),
      nextBurst s.dev x u = some g → (s.dev.upHw.get x).leaving = false → withheld s.dev x g = false →
      (burstOk s.dev x u = true → ∃ d : Dev, exec (.burstBenRise x u) s = .next (s.withDev d) ∧ benHigh d x u = true ∧ benPhase d x u = benBurst
          ∧ ∃ g' ∈ (d.upHw.get x).grants, g'.risen = true ∧ g'.frame = g.frame ∧ g'.chan = g.chan ∧ g'.start = g.start)
        ∧ (burstOk s.dev x u = false → exec (.burstBenRise x u) s = .next (s.withDev (darkBurst s.dev x g))
          ∧ ∃ g' ∈ ((darkBurst s.dev x g).upHw.get x).grants, g'.risen = true ∧ g'.dark = true ∧ g'.staged = []))
    ∧ (∀ (x : Line) (u : Fin 4) (s : State) (g : Grant), fillingOn s.dev x u = some g →
      (∀ (a : LineUnit) (rest : List LineUnit), g.staged = a :: rest →
        (∃ d : Dev, exec (.unitCutoff x u .clean) s = .next (s.withDev d)
            ∧ { g with staged := rest, sent := g.sent ++ [{ bytes := unitWire a, filler := false }] } ∈ (d.upHw.get x).grants)
          ∧ ∃ d : Dev, exec (.unitCutoff x u .uncorrectable) s = .next (s.withDev d)
            ∧ rdn d NRW_ECC_UNCORR = min (rdn s.dev NRW_ECC_UNCORR + 1) 0xFFFFFFFF
            ∧ { g with staged := rest, sent := g.sent ++ [{ bytes := fillerWire 4 (unitBytes a / 8), filler := false }] } ∈ (d.upHw.get x).grants)
        ∧ (g.staged = [] → exec (.unitCutoff x u .clean) s = .next (s.withDev (fillRest s.dev x g))))
    ∧ (∀ (x : Line) (u : Fin 4) (s : State) (g : Grant), burstOn s.dev x u = some g → payloadDone g = true →
      g.head.isSome = true → exec (.burstEnd x u) s = .next (s.withDev (endGrant s.dev x g))
        ∧ rdn (endGrant s.dev x g) (UPB_BURSTS x.ix) = min (rdn s.dev (UPB_BURSTS x.ix) + 1) 0xFFFFFFFF
        ∧ (g.dark = false → (∀ h ∈ (s.dev.upHw.get x).grants, h ≠ g → h.risen = true → h.dark = false → h.chan ≠ g.chan) →
          benPhase (endGrant s.dev x g) x g.chan = benTail))
    ∧ (∀ (x : Line) (u : Fin 4) (s : State), benPhase s.dev x u = benTail →
      (shortGap s.dev x u = false →
          exec (.benFall x u) s = .next (s.withDev (setBenPhase (setBen s.dev x u false) x u benIdle)))
        ∧ (shortGap s.dev x u = true → laserOkNow s.dev x u = true → benHigh s.dev x u = true →
          exec (.benFall x u) s = .next (s.withDev (setBenPhase (count s.dev (LLx_BEN_MERGED x.ix)) x u benGap))))
    ∧ ∀ (x : Line) (mis : List EngineMiss) (s : State) (r : Response), (s.dev.rngHw.get x).response = some r →
      (burstOk s.dev x r.chan = true → ∃ t : State, exec (.responseBurst x mis) s = .next t ∧ t.mem = s.mem ∧ benPhase t.dev x r.chan = benTail)
        ∧ (burstOk s.dev x r.chan = false → ∃ d : Dev, exec (.responseBurst x mis) s = .next (s.withDev d) ∧ (d.rngHw.get x).response = none
          ∧ termState d x = termState s.dev x ∧ benPhase d x r.chan = benPhase s.dev x r.chan)

/-- LINE_UNIT_RX, CIP_OVERRUN, REASM_TIMEOUT and BMAP_APERTURE_WRITE. The header at the word where the next one is looked for is read from the payload stream; one that touches an error mark fails. A unit that delineation does not deliver reaches no frame, and nothing is read while the domain is off or the stream has not come so far; one that is delivered is handled. Filler is dropped uncounted; a tag the bitmap in use does not accept, a unit that breaks its rules and one that touches an error mark are counted, and the last unit of a frame ends the dropping of its tag's units. A unit that waits too long for an engine is handled as one that overruns. A frame below 64 bytes or above 9,216 is counted and dropped. Contexts older than the window are discarded, and no others. A write of the aperture never changes which tags are accepted. (09_line_encapsulation.md R173, R174, R175, R177, R178, 10_line_cipher.md R195) -/
def Obligations.UnitsAndFrames : Prop :=
  (∀ (x : Line) (mis : Option EngineMiss) (s : State) (h : EncHw), h = s.dev.encHw.get x →
      ((domainOn s.dev 26 = false ∨ delin s.dev x = delinOff ∨ nextUnit s.dev x = none) →
        exec (.lineUnitRx x mis) s = .next s ∧ exec (.cipOverrun x) s = .next s)
      ∧ (∀ hdr : Nat, readStream s.dev x h.frame h.next 8 = some (hdr, true) → nextUnit s.dev x = some (hdr, false, [], false))
      ∧ ∀ (hdr : Nat) (good marked : Bool) (payload : List Byte) (d : Dev) (b : Bool), domainOn s.dev 26 = true → delin s.dev x ≠ delinOff →
        nextUnit s.dev x = some (hdr, good, payload, marked) → delineate s.dev x hdr good = (d, b) →
        (b = false → exec (.lineUnitRx x mis) s = .next (s.withDev d) ∧ exec (.cipOverrun x) s = .next (s.withDev d) ∧ d.prsIn = s.dev.prsIn)
        ∧ (b = true →
          exec (.lineUnitRx x mis) s = .next (s.withDev (handleUnit d x h.frame hdr payload marked mis false (unitStamp d x h.frame h.next)))
            ∧ exec (.cipOverrun x) s = .next (s.withDev (handleUnit d x h.frame hdr payload marked none true (unitStamp d x h.frame h.next)))))
    ∧ (∀ (d : Dev) (x : Line) (n hdr : Nat) (payload : List Byte) (marked : Bool) (mis : Option EngineMiss) (o : Bool) (st : Option Nat),
      (huTag hdr = 0xFFFFF → handleUnit d x n hdr payload marked mis o st = d)
      ∧ (huTag hdr = 0xFFFFE → handleUnit d x n hdr payload marked mis o st = count d (ENC_Lx_LU_FOREIGN x.ix))
      ∧ (huTag hdr ≠ 0xFFFFF → accepts d x (huTag hdr) = false → handleUnit d x n hdr payload marked mis o st = count d (ENC_Lx_LU_FOREIGN x.ix))
      ∧ (accepts d x (huTag hdr) = true → (huLength hdr = 0 ∨ (huOam hdr = true ∧ huLast hdr = false)) →
          handleUnit d x n hdr payload marked mis o st = endDropping (count d (ENC_Lx_LU_BAD_RULE x.ix)) x (huTag hdr) (endsFrame hdr))
      ∧ (accepts d x (huTag hdr) = true → huLength hdr ≠ 0 → (huOam hdr = false ∨ huLast hdr = true) → marked = true →
          (∀ c ∈ ((handleUnit d x n hdr payload marked mis o st).encHw.get x).ctxs, c.tag ≠ huTag hdr)
            ∧ rdn (handleUnit d x n hdr payload marked mis o st) (ENC_Lx_LU_FEC_DISCARD x.ix)
                = min (rdn d (ENC_Lx_LU_FEC_DISCARD x.ix) + 1) 0xFFFFFFFF)
      ∧ (accepts d x (huTag hdr) = true → huLength hdr ≠ 0 → huOam hdr = false → huLast hdr = true → marked = true →
          huTag hdr ∉ ((handleUnit d x n hdr payload marked mis o st).encHw.get x).dropping))
    ∧ (∀ (d : Dev) (x : Line) (tag : Nat) (bytes : List Byte) (tagged : Bool) (st : Option Nat),
      (bytes.length ≤ 63 → frameComplete d x tag bytes tagged st = count d (ENC_Lx_LU_RUNT x.ix))
      ∧ (9217 ≤ bytes.length → frameComplete d x tag bytes tagged st = count d (ENC_Lx_LU_LONG x.ix))
      ∧ (64 ≤ bytes.length → bytes.length ≤ 9216 → fcsGood bytes = false → frameComplete d x tag bytes tagged st = count d (ENC_Lx_LU_FCS x.ix))
      ∧ (64 ≤ bytes.length → bytes.length ≤ 9216 → fcsGood bytes = true →
          (frameComplete d x tag bytes tagged st).prsIn.length = d.prsIn.length + 1 ∧ (frameComplete d x tag bytes tagged st).regs = d.regs))
    ∧ (∀ (x : Line) (s : State), ∃ t : State, exec (.reasmTimeout x) s = .next t ∧ t.mem = s.mem
      ∧ (t.dev.encHw.get x).ctxs = (s.dev.encHw.get x).ctxs.filter
          (fun c => decide (s.dev.elapsed < c.opened + 25 * fld s.dev ENC_REASM_CFG_REASM_WIN)))
    ∧ ∀ (m : Master) (k : Fin 32768) (value : Word) (s : State), admits s.dev m (ENC_BMAPk k).ofs = true →
      exec (.bmapApertureWrite m k value) s = .next (s.withDev (writeAperture s.dev k value))
        ∧ ∀ (y : Line) (tag : Nat), accepts (writeAperture s.dev k value) y tag = accepts s.dev y tag

/-- SLOT_LOAD, SLOT_CLEAR, SALT_WRITE, BOOT_KEY_WRITE, CTR_LIMIT_WRITE and KEY_OWNER_CHANGE. An admitted LOAD of a slot with all eight words written that is not the TX slot of a ciphering page installs the key with both counters at 0 and EXHAUSTED and DESYNC clear; otherwise it and a refused CLEAR change no slot and are counted. CLEAR empties the slot. SALT is written only while no slot of the page is loaded. The last word of a bootstrap key sets BOOT_SET. A LO write of the limit takes effect with the HI write. A page whose owner changes is cleared. (10_line_cipher.md R186, R187, R188, R192, R465) -/
def Obligations.KeysAndSlots : Prop :=
  (∀ (m : Master) (k : Fin 256) (s : State), admits s.dev m (CIP_SLOT_CTL k).ofs = true →
      ((keySlot s.dev k).written = 0xFF → txOfGcm s.dev k = false → ∃ d : Dev, exec (.slotLoad m k 0) s = .next (s.withDev d)
          ∧ (keySlot d k).key = (keySlot s.dev k).words ∧ slotLoaded d k = true ∧ slotExhausted d k = false ∧ txCtr d k = 0 ∧ rxCtr d k = 0
          ∧ regBit d (CIP_PAGEp_STATUS (k / 4)) (8 + k % 4) = false ∧ (keySlot d k).written = 0)
        ∧ (((keySlot s.dev k).written ≠ 0xFF ∨ txOfGcm s.dev k = true) → exec (.slotLoad m k 0) s = .next (s.withDev (refuseKey s.dev)))
        ∧ (txOfGcm s.dev k = false → ∃ d : Dev, exec (.slotClear m k 0) s = .next (s.withDev d) ∧ slotLoaded d k = false
            ∧ keySlot d k = KeySlot.empty)
        ∧ (txOfGcm s.dev k = true → exec (.slotClear m k 0) s = .next (s.withDev (refuseKey s.dev))))
    ∧ (∀ d : Dev, (refuseKey d).keySlots = d.keySlots ∧ rdn (refuseKey d) CIP_KEY_REFUSED = min (rdn d CIP_KEY_REFUSED + 1) 0xFFFFFFFF)
    ∧ (∀ (m : Master) (p : Fin 64) (value : Word) (s : State), admits s.dev m (CIP_PAGEp_SALT p).ofs = true →
      (pageLoaded s.dev p = true → exec (.saltWrite m p value) s = .next (s.withDev (refuseKey s.dev)))
        ∧ (pageLoaded s.dev p = false → exec (.saltWrite m p value) s = .next (s.withDev (wr s.dev (CIP_PAGEp_SALT p) value))))
    ∧ (∀ (m : Master) (x : Line) (j : Fin 8) (value : Word) (s : State), admits s.dev m (bootReg x j).ofs = true →
      ∃ d : Dev, exec (.bootKeyWrite m x j value) s = .next (s.withDev d)
        ∧ (d.bootKeys.get x).words = putWord (s.dev.bootKeys.get x).words j value
        ∧ ((d.bootKeys.get x).written = 0xFF → bootSet d x = true))
    ∧ (∀ (m : Master) (value : Word) (s : State),
      (admits s.dev m CIP_CTR_LIMIT_LO.ofs = true →
        exec (.ctrLimitWrite m false value) s = .next (s.withDev (wr s.dev CIP_CTR_LIMIT_LO value))
          ∧ ctrLimit (wr s.dev CIP_CTR_LIMIT_LO value) = ctrLimit s.dev)
      ∧ (admits s.dev m CIP_CTR_LIMIT_HI.ofs = true → ∃ d : Dev, exec (.ctrLimitWrite m true value) s = .next (s.withDev d)
        ∧ 0x100000 ≤ ctrLimit d ∧ ctrLimit d < 0x10000000000000000
        ∧ (0x100000 ≤ value.toNat * 0x100000000 + rdn s.dev CIP_CTR_LIMIT_LO →
            ctrLimit d = value.toNat * 0x100000000 + rdn s.dev CIP_CTR_LIMIT_LO)))
    ∧ ∀ (m : Master) (p : Fin 56) (value : Word) (s : State), admits s.dev m (HIF_KPp_OWN p).ofs = true →
      fld (storeAt s.dev m (HIF_KPp_OWN p).ofs value) (HIF_KPp_OWN_OWNER p) ≠ fld s.dev (HIF_KPp_OWN_OWNER p) →
      ∃ d : Dev, exec (.keyOwnerChange m p value) s = .next (s.withDev d)
        ∧ (∀ i : Fin 4, keySlot d (4 * (p.val + 8) + i.val) = KeySlot.empty ∧ slotLoaded d (4 * (p.val + 8) + i.val) = false)
        ∧ rd d (CIP_PAGEp_SALT (p + 8)) = 0

/-- No counter value is used twice under a key, and the key messages KEY_WRAP, KEY_SWITCH, KEY_CLEAR and OWNER_LOCK. A downstream unit that deciphers moves the slot's expected counter past the value that authenticated, which lay in the window and below the limit; one that does not leaves it. An upstream frame that is ciphered moves the transmit counter past one value for each unit, never beyond the limit. A KEY_WRAP for a slot that is not the TX slot loads it where it unwraps and is counted bad where it does not, a KEY_CLEAR empties it, a KEY_SWITCH to a loaded slot posts its commit; naming a page above 7 freezes the management channel; on the standby line with KEY_MIRROR all three are counted bad. OWNER_LOCK takes or clears the line's lock. (10_line_cipher.md R184, R185, R186, R191, R192, R199, R403) -/
def Obligations.CountersOnlyRise : Prop :=
  (∀ (d : Dev) (p slot hdr : Nat) (payload : List Byte) (mis : Option EngineMiss) (o : Bool), ctrLimit d < 0x10000000000000000 → p < 64 → slot < 4 →
      (∀ bs : List Byte, (decipher d p slot hdr payload mis o).2 = some bs →
          rxCtr d (4 * p + slot) < rxCtr (decipher d p slot hdr payload mis o).1 (4 * p + slot)
            ∧ rxCtr (decipher d p slot hdr payload mis o).1 (4 * p + slot) ≤ min (ctrLimit d) (rxCtr d (4 * p + slot) + fld d CIP_CTL_RX_WIN))
        ∧ ((decipher d p slot hdr payload mis o).2 = none →
          rxCtr (decipher d p slot hdr payload mis o).1 (4 * p + slot) = rxCtr d (4 * p + slot)))
    ∧ (∀ (d : Dev) (page tag : Nat) (oam time : Bool) (pieces : List (List Byte)) (us : List LineUnit), ctrLimit d < 0x10000000000000000 →
      page < 64 → pageGcm d page = true → (cipUp d page tag oam time pieces []).2 = some us → ∀ k : Nat,
      k = 4 * page + fldA d (CIP_PAGEp_TXSEL_TX_SLOT page) →
      us.length = pieces.length ∧ txCtr (cipUp d page tag oam time pieces []).1 k = txCtr d k + us.length
        ∧ txCtr (cipUp d page tag oam time pieces []).1 k ≤ ctrLimit d)
    ∧ ∀ (x : Line) (h : LmmHead) (page : BitVec 6) (slot : BitVec 2) (s : State), forLine s.dev x h = true → h.term ≠ 0xFFF →
      (mirrorRejects s.dev x = true → ∀ (w : List Byte) (n : BitVec 48),
        exec (.keyWrap x h page slot w) s = .next (s.withDev (count s.dev (RNG_Lx_LMM_BAD x.ix)))
          ∧ exec (.keySwitch x h page slot n) s = .next (s.withDev (count s.dev (RNG_Lx_LMM_BAD x.ix)))
          ∧ exec (.keyClear x h page slot) s = .next (s.withDev (count s.dev (RNG_Lx_LMM_BAD x.ix))))
      ∧ (mirrorRejects s.dev x = false → isFrozen s.dev (mgmtMaster x) = false → coresHalted s.dev = false → repeated s.dev x h = false →
        (8 ≤ page.toNat → ∀ w : List Byte, exec (.keyWrap x h page slot w) s
            = .next (s.withDev (executed (freeze s.dev (mgmtMaster x) causeLmm page.toNat) x h)))
        ∧ (page.toNat < 8 → flag s.dev SDL_CFG_KEY_MIRROR = false →
          (∀ w : List Byte, isTxSlot s.dev (4 * page.toNat + slot.toNat) = false →
            exec (.keyWrap x h page slot w) s = .next (s.withDev (match unwrapped s.dev x page.toNat w with
              | some key => executed (installKey s.dev (4 * page.toNat + slot.toNat) key) x h
              | none => count s.dev (RNG_Lx_LMM_BAD x.ix))))
          ∧ (isTxSlot s.dev (4 * page.toNat + slot.toNat) = false →
            exec (.keyClear x h page slot) s = .next (s.withDev (executed (emptySlot s.dev (4 * page.toNat + slot.toNat)) x h)))
          ∧ (∀ n : BitVec 48, slotLoaded s.dev (4 * page.toNat + slot.toNat) = true →
            exec (.keySwitch x h page slot n) s = .next (s.withDev (executed (postSwitch s.dev x [page.toNat] slot.toNat n.toNat) x h))))
        ∧ exec (.ownerLock x h 1) s = .next (s.withDev (executed (setHeLock s.dev x true) x h))
        ∧ exec (.ownerLock x h 0) s = .next (s.withDev (executed (setHeLock s.dev x false) x h)))

/-- A switch hands over the role in one tick and never moves device time; HEALTH_REPORT, SWITCH_END and WTR_EXPIRE. A switch to a line gives it the role and Operate, puts the other line, where it held the role and not Hold, into Standby, and leaves device time and Keystone as they were. An evaluation never gives the role to a barred line, and none while SWITCHING is set or once SDL has granted an entry. Once for each second boundary both lines are reported, with the second that ended. The grade of a report is FAILED with SF or a failed verdict, else DEGRADED with SD, late keep-alives, suppression, uncorrectable codewords or a mirror that does not hold, else HEALTHY. At the grid frame of the first new map, and at the latest after 375 µs, SWITCHING clears and both gaps are recorded; when the wait is over the request favours L-A. (03_keystone_time_engine.md R53, 11_line_protection.md R198, R200, R202, R203, R205, R206, R207) -/
def Obligations.SwitchingLines : Prop :=
  (∀ (d : Dev) (f : Line) (cls src : Nat),
      isActive (startSwitch d f cls src) f = true ∧ termState (startSwitch d f cls src) f = stOperate
        ∧ (isActive d f.other = true → termState d f.other ≠ stHold → termState (startSwitch d f cls src) f.other = stStandby)
        ∧ switching (startSwitch d f cls src) = true
        ∧ (startSwitch d f cls src).clock = d.clock ∧ (startSwitch d f cls src).kst = d.kst)
    ∧ (∀ (d : Dev) (f : Line), (barred d f = true ∨ switching d = true ∨ pwrStopped d 3 = true) → isActive d f = false →
      isActive (evaluate d) f = false)
    ∧ (∀ (d : Dev) (x : Line) (sec : Nat), rdn (healthReport d x sec) (SDL_Lx_HEALTH_SEC x.ix) = sec % 0x100000000
      ∧ gradeOf (healthReport d x sec) x
        = if sfCause d x ≠ 0 ∨ groupFailed d x = true then gradeFailed
          else if isSD d x = true ∨ fld d SDL_KA_CFG_KA_TO ≤ framesOf d x - (d.sdlLine.get x).kaTick ∨ (d.sdlLine.get x).suppr = true
            ∨ min (uncorrOf d x) 255 ≠ 0 ∨ mirrorOk d x = false then gradeDegraded else gradeHealthy)
    ∧ ∀ s : State,
      (∀ (sec : Nat) (b : Bool), secMark s.dev secHealth = some (sec, b) →
        exec .healthReport s = .next (s.withDev (reportSecond (clearMark s.dev secHealth) sec)) ∧ secMark (clearMark s.dev secHealth) secHealth = none)
      ∧ (secMark s.dev secHealth = none → exec .healthReport s = .next s)
      ∧ (switching s.dev = true → (newGridBegun s.dev = true ∨ s.dev.saddle.swTick + 9375 ≤ s.dev.elapsed) → ∃ d : Dev,
          exec .switchEnd s = .next (s.withDev d) ∧ switching d = false ∧ d.saddle.evaluated = false
            ∧ fld d SDL_LAST_GAP_UP_US = min ((s.dev.elapsed - s.dev.saddle.swTick) / 25) 0xFFFF
            ∧ fld d SDL_LAST_GAP_DN_US = min (s.dev.saddle.swDown.getD 0) 0xFFFF)
      ∧ ((switching s.dev = false ∨ (newGridBegun s.dev = false ∧ s.dev.elapsed < s.dev.saddle.swTick + 9375)) →
          exec .switchEnd s = .next s)
      ∧ (flag s.dev SDL_STATUS_WTR_RUN = true → fld s.dev SDL_STATUS_WTR_LEFT = 0 → ∃ d : Dev,
          exec .wtrExpire s = .next (s.withDev d) ∧ d.saddle.wtrOver = true ∧ d.regs = s.dev.regs)
      ∧ (flag s.dev SDL_STATUS_WTR_RUN = false → exec .wtrExpire s = .next s)

/-- DETECT_PROBE, AN_COMPLETE, AN_TO_EXPIRE, TRAIN_COMPLETE, TRAIN_FAIL, BLOCK_LOCK, CAP_DONE, LINK_TO_EXPIRE and LOCK_LOSS walk a lane through its bring-up. Of detections 10 ms apart the second in a row finds the receiver, which starts AN, TRAIN or LOCK. Pages with a common ability, CR or KR as MEDIA selects, resolve the highest common speed and its FEC, and pages without one return the lane to DETECT, as do the timeouts, a training failure, a lost lock and 16 invalid headers of 64, each with its count and cause. Training ends in LOCK with its taps, 64 valid headers in CAP with the resolved speed and FEC in use and the CAP_MS count, and CAP_MS in ACTIVE. A lane that enters DETECT shows its cause and no lock, and counts LINK_DOWN where it was ACTIVE; with a reference that is not OK it is in REF_WAIT. (12_server_lanes.md R214, R215, R216, R217, R218, R219) -/
def Obligations.LaneBringUp : Prop :=
  (∀ (d : Dev) (q : Fin 16) (l : Fin 4) (cause : Nat), 0 < cause → cause < 16 → cfgPresSrc (rd d (SLN_LANEl_CFG q l)) = 0 →
      (refsOk d (cfgRefSel (rd d (SLN_LANEl_CFG q l))) = false →
        laneState (enterDetect d (4 * q.val + l.val) cause) (4 * q.val + l.val) = lnRefWait)
      ∧ (refsOk d (cfgRefSel (rd d (SLN_LANEl_CFG q l))) = true →
      laneState (enterDetect d (4 * q.val + l.val) cause) (4 * q.val + l.val) = lnDetect
        ∧ fld (enterDetect d (4 * q.val + l.val) cause) (SLN_LANEl_STATUS_LAST_FAIL q l) = cause
        ∧ flag (enterDetect d (4 * q.val + l.val) cause) (SLN_LANEl_STATUS_BLOCK_LOCK q l) = false
        ∧ (laneState d (4 * q.val + l.val) = lnActive → rdn (enterDetect d (4 * q.val + l.val) cause) (SLN_LANEl_LINK_DOWN q l)
            = min (rdn d (SLN_LANEl_LINK_DOWN q l) + 1) 0xFFFFFFFF)))
    ∧ ∀ (q : Fin 16) (l : Fin 4) (k : Nat) (s : State), k = 4 * q.val + l.val →
      (laneState s.dev k = lnDetect → cfgPresSrc (laneCfg s.dev k) = 0 → (laneHw s.dev k).probeAt ≤ s.dev.elapsed →
          sliceTarget s.dev ≠ some (28 + q.val) →
          ((laneHw s.dev k).hits = 1 → exec (.detectProbe q l true) s = .next (s.withDev (receiverFound
            (setLane s.dev k (fun h => { h with hits := 2, probeAt := s.dev.elapsed + 250000 })) k)))
          ∧ ((laneHw s.dev k).hits = 0 → ∃ d : Dev, exec (.detectProbe q l true) s = .next (s.withDev d) ∧ (laneHw d k).hits = 1
            ∧ (laneHw d k).probeAt = s.dev.elapsed + 250000 ∧ d.regs = s.dev.regs)
          ∧ ∃ d : Dev, exec (.detectProbe q l false) s = .next (s.withDev d) ∧ (laneHw d k).hits = 0 ∧ d.regs = s.dev.regs)
      ∧ (cfgAnEn (rd s.dev (SLN_LANEl_CFG q l)) = true → laneTest s.dev k = 0 →
          laneState (receiverFound s.dev k) k = lnAn ∧ timerRuns (receiverFound s.dev k) (.laneAn k) = true)
      ∧ (laneState s.dev k = lnAn →
          (∀ (fec : BitVec 4) (tech : BitVec 8) (pause : BitVec 2) (c : Nat), c = ownTech s.dev k &&& tech.toNat →
            (c = 0 → exec (.anComplete q l tech fec pause) s
                = .next (s.withDev (enterDetect (count s.dev (SLN_LANEl_AN_FAIL q l)) k 2)))
            ∧ (c ≠ 0 → ∃ (v : Nat) (d : Dev), exec (.anComplete q l tech fec pause) s = .next (s.withDev (enterTrain d k))
                ∧ v < 4 ∧ (bitOf c v || bitOf c (v + 4)) = true ∧ (∀ w : Nat, v < w → w < 4 → (bitOf c w || bitOf c (w + 4)) = false)
                ∧ (laneHw d k).speed = v ∧ (laneHw d k).fec = commonFec v (getBits (laneAdv s.dev k) 7 4) fec.toNat
                ∧ (laneHw d k).pause = commonPause (getBits (laneAdv s.dev k) 9 8) pause.toNat))
          ∧ (timerOver s.dev (.laneAn k) = true → exec (.anToExpire q l) s
              = .next (s.withDev (enterDetect (count s.dev (SLN_LANEl_AN_FAIL q l)) k 1))))
      ∧ (laneState s.dev k = lnTrain →
          (∀ (amp : BitVec 8) (pre : BitVec 4) (post : BitVec 5), ∃ d : Dev, exec (.trainComplete q l amp pre post) s
              = .next (s.withDev (heardOn (enterLock d k) k)) ∧ fld d (SLN_LANEl_TAPS_AMP q l) = amp.toNat
              ∧ fld d (SLN_LANEl_TAPS_PRE q l) = pre.toNat ∧ fld d (SLN_LANEl_TAPS_POST q l) = post.toNat)
          ∧ exec (.trainFail q l true) s = .next (s.withDev (enterDetect (count s.dev (SLN_LANEl_TRAIN_FAIL q l)) k 3)))
      ∧ (laneState s.dev k = lnLock → flag s.dev (SLN_LANEl_STATUS_BLOCK_LOCK q l) = false →
          ∀ b : Bool, (rsMode s.dev k = false ∨ b = true) → ∃ t : State, exec (.blockLock q l b (List.replicate 64 true)) s = .next t
          ∧ laneState t.dev k = lnCap ∧ flag t.dev (SLN_LANEl_STATUS_BLOCK_LOCK q l) = true
          ∧ fld t.dev (SLN_LANEl_STATUS_RES_SPEED q l) = (laneHw s.dev k).speed % 4
          ∧ fld t.dev (SLN_LANEl_STATUS_RES_FEC q l) = (laneHw s.dev k).fec % 4
          ∧ (noFault s.dev k = true → timerRuns t.dev (.laneCap k) = true))
      ∧ (laneState s.dev k = lnCap → timerOver s.dev (.laneCap k) = true → timerOver s.dev (.laneLink k) = false → ∃ t : State, exec (.capDone q l) s = .next t
          ∧ laneState t.dev k = lnActive)
      ∧ ((laneState s.dev k = lnLock ∨ laneState s.dev k = lnCap) → timerOver s.dev (.laneLink k) = true →
          exec (.linkToExpire q l) s = .next (s.withDev (enterDetect s.dev k 4)))
      ∧ (laneState s.dev k = lnActive →
          exec (.lockLoss q l .signal) s = .next (s.withDev (enterDetect (count s.dev (SLN_LANEl_LOCK_LOSS q l)) k 7))
          ∧ exec (.lockLoss q l .clock) s = .next (s.withDev (enterDetect (count s.dev (SLN_LANEl_LOCK_LOSS q l)) k 5))
          ∧ exec (.lockLoss q l .markers) s = .next (s.withDev (enterDetect (count s.dev (SLN_LANEl_LOCK_LOSS q l)) k 5))
          ∧ ∀ (hs : List Bool) (e : Dev), flag s.dev (SLN_LANEl_STATUS_BLOCK_LOCK q l) = true →
            e = setLane s.dev k (fun h => (watchHeaders h hs).1) →
            exec (.lockLoss q l (.headers hs)) s
              = .next (s.withDev (if (watchHeaders (laneHw s.dev k) hs).2 then e else enterDetect (count e (SLN_LANEl_LOCK_LOSS q l)) k 5)))

/-- REFS_BAD, REFS_OK, LANE_ENABLE_WRITE, HOST_PRES_WRITE, LANE_RESTART, SLN_TEST_MODE_WRITE, FAULT_RECEIVED, FAULT_CLEAR and RATE_MATCH. A lane without power, not enabled or of a retired quad is OFF, and any other lane whose reference is not OK is in REF_WAIT. A reference that fails or recovers shows in every quad and every lane follows. A configuration write stores the word and the lane follows it; a restart or a test mode starts a running lane anew. A received fault shows, holds transmission and leaves the lane's state; when it ends transmission follows. The elastic store drops an idle block above its centre, inserts one below it, and in a frame restores its centre at either end, each counted. (12_server_lanes.md R212, R213, R215, R218, R220, R223) -/
def Obligations.LaneConditions : Prop :=
  (∀ (d : Dev) (k : Nat), k < 64 →
      ((lanePowered d k = false ∨ laneEnabled d k = false ∨ quadRetired d (k / 4) = true) → laneState (syncLaneState d k) k = lnOff)
        ∧ (lanePowered d k = true → laneEnabled d k = true → quadRetired d (k / 4) = false → laneState d k ≠ lnOff →
          refsOk d (cfgRefSel (laneCfg d k)) = false → laneState (syncLaneState d k) k = lnRefWait))
    ∧ (∀ (n : Fin 4) (s : State),
      (refsOk s.dev n = true → ∃ d : Dev, exec (.refsBad n) s = .next (s.withDev (forEach (List.range 64) syncLaneState d))
          ∧ ∀ q : Fin 16, regBit d (SLN_REFS_STATUS q) n = false)
      ∧ ∃ d : Dev, exec (.refsOk n) s = .next (s.withDev (forEach (List.range 64) syncLaneState d))
          ∧ ∀ q : Fin 16, regBit d (SLN_REFS_STATUS q) n = true)
    ∧ (∀ (m : Master) (q : Fin 16) (l : Fin 4) (value : Word) (s : State),
      (admits s.dev m (SLN_LANEl_CFG q l).ofs = true → ∀ d : Dev, d = storeAt s.dev m (SLN_LANEl_CFG q l).ofs value →
        exec (.hostPresWrite m q l value) s = exec (.laneEnableWrite m q l value) s
          ∧ exec (.laneEnableWrite m q l value) s = .next (s.withDev (syncLaneState
              (if value.getLsbD 31 = true then sliceService d (28 + q.val) else d)
              (4 * q.val + l.val))))
      ∧ (admits s.dev m (SLN_LANEl_CTL q l).ofs = true → ∃ d : Dev,
          exec (.slnTestModeWrite m q l value) s = .next (s.withDev (if laneState d (4 * q.val + l.val) ≤ lnRefWait then d
            else startLane d (4 * q.val + l.val)))
          ∧ laneTest d (4 * q.val + l.val) = min (getBits value 2 0) 3)
      ∧ exec (.laneRestart m q l value) s = exec (.slnTestModeWrite m q l (value ||| 0x80000000)) s)
    ∧ ∀ (q : Fin 16) (l : Fin 4) (k : Nat) (s : State), k = 4 * q.val + l.val →
      ((laneState s.dev k = lnCap ∨ laneState s.dev k = lnActive) → ∀ b : Bool, ∃ t : State, exec (.faultReceived q l b) s = .next t
          ∧ flag t.dev (SLN_LANEl_STATUS_RF q l) = b ∧ flag t.dev (SLN_LANEl_STATUS_LF q l) = !b ∧ laneState t.dev k = laneState s.dev k
          ∧ flag t.dev (MAC_LANEl_STATUS_TX_HOLD q l) = true)
      ∧ (laneState s.dev k = lnActive → noFault s.dev k = false → ∃ t : State, exec (.faultClear q l) s = .next t
          ∧ noFault t.dev k = true ∧ flag t.dev (MAC_LANEl_STATUS_TX_HOLD q l) = false)
      ∧ ((laneState s.dev k = lnCap ∨ laneState s.dev k = lnActive) → ∀ (v : Int) (n : Nat), n = (((laneHw s.dev k).fill : Int) + v).toNat →
          ((n = 0 ∨ 32 ≤ n) → exec (.rateMatch q l v true) s
            = .next (s.withDev (count (setLane s.dev k (fun h => { h with fill := 16, cut := true })) (SLN_LANEl_RM_OVF q l))))
          ∧ (0 < n → n < 32 → exec (.rateMatch q l v true) s = .next (s.withDev (setLane s.dev k (fun h => { h with fill := n }))))
          ∧ (16 < n → exec (.rateMatch q l v false) s
            = .next (s.withDev (count (setLane s.dev k (fun h => { h with fill := min n 32 - 1 })) (SLN_LANEl_RM_DEL q l))))
          ∧ (n < 16 → exec (.rateMatch q l v false) s
            = .next (s.withDev (count (setLane s.dev k (fun h => { h with fill := n + 1 })) (SLN_LANEl_RM_INS q l))))
          ∧ (n = 16 → exec (.rateMatch q l v false) s = .next (s.withDev (setLane s.dev k (fun h => { h with fill := 16 })))))

/-- MAC_RX_FRAME, MAC_TX_FRAME, PAUSE_RX, PFC_RX, PAUSE_EXPIRE, PAUSE_WATCHDOG, WD_IGNORE_END, FC_SEND and FC_REFRESH. In ACTIVE a frame below 64 bytes, above MAX_LEN or with a bad FCS is counted and dropped, and a good frame that is no control frame goes to the parser as it was received; a frame that ends in error, that an uncorrectable codeword touches or that the elastic store has ended is counted. A frame that neither pause nor a waiting control frame holds leaves the MAC: longer than MAX_LEN it is not sent, and of 64 bytes or more with no PTP header it is sent with a new FCS. PAUSE with quanta holds a port in PAUSE mode until the quanta have passed, quanta 0 releases it; a timer 100 ms nonzero trips the watchdog, and for 10 ms control frames do not load it. A flow-control request is sent where the MAC may send. (13_server_macs.md R226, R227, R229, R230, R231, R232) -/
def Obligations.FramesAtTheMacs : Prop :=
  (∀ (q : Fin 16) (l : Fin 4) (frame : List Byte) (err : Bool) (dec : LaneDecode) (ps : Nat) (k : Nat) (s : State), k = 4 * q.val + l.val →
      laneState s.dev k = lnActive → ∀ d : Dev, d = setLane (decoded s.dev k dec) k (fun h => { h with cut := false }) →
      ((err = true ∨ (laneHw s.dev k).cut = true ∨ ((laneHw s.dev k).fec ≠ 0 ∧ dec.marked ≠ 0)) → exec (.macRxFrame q l frame err dec ps) s
          = .next (s.withDev (setLane (count d (MAC_LANEl_RX_ERR q l)) k (fun h => { h with left' := none }))))
        ∧ ((laneHw s.dev k).cut = false → ((laneHw s.dev k).fec = 0 ∨ dec.marked = 0) →
        (frame.length ≤ 63 → exec (.macRxFrame q l frame false dec ps) s = .next (s.withDev (count d (MAC_LANEl_RX_RUNT q l))))
        ∧ (64 ≤ frame.length → maxLen s.dev k < frame.length →
            exec (.macRxFrame q l frame false dec ps) s = .next (s.withDev (count d (MAC_LANEl_RX_LONG q l))))
        ∧ (64 ≤ frame.length → frame.length ≤ maxLen s.dev k → fcsGood frame = false →
            exec (.macRxFrame q l frame false dec ps) s = .next (s.withDev (count d (MAC_LANEl_RX_FCS q l))))
        ∧ (64 ≤ frame.length → frame.length ≤ maxLen s.dev k → fcsGood frame = true → beNat (slice frame 12 2) ≠ 0x8808 →
            ∃ (t : State) (f : RxFrame), exec (.macRxFrame q l frame false dec ps) s = .next t ∧ t.dev.prsIn = s.dev.prsIn ++ [f]
              ∧ f.bytes = frame ∧ f.src = .lane k)))
    ∧ (∀ (q : Fin 16) (l : Fin 4) (ps : Nat) (k : Nat) (s : State) (f : BufFrame), k = 4 * q.val + l.val → (macHw s.dev k).tx = some f →
      notYet s.dev f = false → startHeld s.dev k ps f = false → ∃ t : State, exec (.macTxFrame q l ps) s = .next t ∧ t.mem = s.mem ∧ (macHw t.dev k).tx = none
        ∧ (passedOver s.dev f = false → maxLen s.dev k < f.bytes.length →
            rdn t.dev (MAC_LANEl_TX_LONG q l) = min (rdn s.dev (MAC_LANEl_TX_LONG q l) + 1) 0xFFFFFFFF)
        ∧ (passedOver s.dev f = false → 64 ≤ f.bytes.length → f.bytes.length ≤ maxLen s.dev k → f.tx = none → f.launch = none →
            f.time.ptp = none → laneTest s.dev k ≠ 1 → t.dev.out = s.dev.out ++ [.frame k (refreshFcs f.bytes)]))
    ∧ (∀ (q : Fin 16) (l : Fin 4) (quanta : BitVec 16) (ps : Nat) (k : Nat) (s : State), k = 4 * q.val + l.val → laneState s.dev k = lnActive →
      (fcMode s.dev k ≠ 1 → exec (.pauseRx q l quanta ps) s = .next (s.withDev (count s.dev (MAC_LANEl_RX_PAUSE q l))))
        ∧ (fcMode s.dev k = 1 → pauseRxOn s.dev k = true → watchdogDue s.dev k 0 = false → ignoring s.dev k 0 = false →
          ∃ t : State, exec (.pauseRx q l quanta ps) s = .next t ∧ (quanta = 0 → paused t.dev k 0 = false)
            ∧ (quanta ≠ 0 → paused t.dev k 0 = true ∧ (pauseTimer t.dev k 0).map (·.stop)
                = some (elapsedPs s.dev + ps + quanta.toNat * quantumPs s.dev k)))
        ∧ (fcMode s.dev k ≠ 2 → ∀ (e : BitVec 8) (qs : List Nat), exec (.pfcRx q l e qs ps) s = .next (s.withDev (count s.dev (MAC_LANEl_RX_PFC q l))))
        ∧ (fcMode s.dev k = 2 → ∀ qs : List Nat, exec (.pfcRx q l 1 qs ps) s
            = .next (s.withDev (loadPause (count s.dev (MAC_LANEl_RX_PFC q l)) k 1 (qs.getD 0 0 % 0x10000) ps))))
    ∧ (∀ (q : Fin 16) (l : Fin 4) (key : Fin 9) (k : Nat) (s : State), k = 4 * q.val + l.val →
      (watchdogDue s.dev k key = true → exec (.pauseWatchdog q l key) s = .next (s.withDev (tripWatchdog s.dev k key))
          ∧ ignoring (tripWatchdog s.dev k key) k key = true ∧ paused (tripWatchdog s.dev k key) k key = false
          ∧ ∀ quanta ps : Nat, watchdogDue (tripWatchdog s.dev k key) k key = false →
            loadPause (tripWatchdog s.dev k key) k key quanta ps = tripWatchdog s.dev k key)
        ∧ (∀ t : PauseTimer, pauseTimer s.dev k key = some t → t.stop ≤ elapsedPs s.dev →
          exec (.pauseExpire q l key) s = .next (s.withDev (stopPause s.dev k key)) ∧ paused (stopPause s.dev k key) k key = false)
        ∧ (∀ (e t : Nat), (macHw s.dev k).ignore = [(e, t)] → e = key.val → t ≤ s.dev.elapsed →
          ∃ d : Dev, exec (.wdIgnoreEnd q l key) s = .next (s.withDev d) ∧ ignoring d k key = false))
    ∧ ∀ (q : Fin 16) (l : Fin 4) (k : Nat) (s : State), k = 4 * q.val + l.val → flowMaySend s.dev k = true →
      (∀ key : Nat, flowDue s.dev k = some key → key < 9 → ∃ d : Dev, exec (.fcSend q l) s = .next (s.withDev d)
          ∧ ((macHw d k).told.contains key = (macHw s.dev k).asked.contains key)
          ∧ (laneTest s.dev k ≠ 1 → d.out = s.dev.out ++ [.frame k (flowFrame s.dev k key (if (macHw s.dev k).asked.contains key = true then fld s.dev (MAC_LANEl_FC_TX_QUANTA q l) else 0))]))
        ∧ ((macHw s.dev k).told.contains 0 = true → (macHw s.dev k).asked.contains 0 = true → fcMode s.dev k = 1 → pauseTxOn s.dev k = true →
          (sget s.dev.elapsed (macHw s.dev k).toldAt 0) * 40000 + fld s.dev (MAC_LANEl_FC_TX_REFRESH q l) * quantumPs s.dev k ≤ elapsedPs s.dev →
          ∃ d : Dev, exec (.fcRefresh q l 0) s = .next (s.withDev d)
            ∧ (laneTest s.dev k ≠ 1 → d.out = s.dev.out ++ [.frame k (flowFrame s.dev k 0 (fld s.dev (MAC_LANEl_FC_TX_QUANTA q l)))]))

/-- FRAME_PARSE, CLASSIFY_LOOKUP, SECOND_PASS, RECIRC_TIMEOUT, RULE_WRITE, RULE_READ, RULE_WRITE_DONE, PATTERN_WRITE and PATTERN_READ. The lowest matching rule of the bank wins with its action; where none matches rule 65,535 drops. A write GO stores the staged rule in the idle bank, never changes what the active bank answers, is in progress until RULE_WRITE_DONE, and is refused while draining; a read GO brings a rule into the staging registers. A swap takes effect whole, with the next epoch. A sound frame whose pipe has room waits for its lookup, one without room is dropped and counted. The first pass takes the oldest waiting frame and the winner of the active bank: a DROP offers nothing, a second pass is queued with the bank's epoch. A second pass takes its record from the queue and adds none, so that no frame passes a third time; a record that waited 20 µs is dropped, and none before. Pattern accesses store and read pattern INDEX. (14_parser_and_classifier.md R235, R242, R243, R245, R246, R247, R248) -/
def Obligations.RulesAndPasses : Prop :=
  (∀ (d : Dev) (bank key : Nat), risingFrom 0 d.pkt.rules = true → bank < 2 →
      (∃ e ∈ d.pkt.rules, e.1 / 65536 = bank ∧ ruleMatches key (e.1 % 65536) e.2 = true ∧ winner d bank key = (e.1 % 65536, e.2.act)
        ∧ ∀ e' ∈ d.pkt.rules, e'.1 / 65536 = bank → ruleMatches key (e'.1 % 65536) e'.2 = true → e.1 % 65536 ≤ e'.1 % 65536)
      ∨ ((∀ e ∈ d.pkt.rules, e.1 / 65536 = bank → ruleMatches key (e.1 % 65536) e.2 = false) ∧ winner d bank key = (65535, emptyAction)
        ∧ actVerdict emptyAction = 1))
    ∧ (∀ (m : Master) (value : Word) (s : State), admits s.dev m CLS_RULE_CTL.ofs = true →
      (ruleBusy s.dev = false → flag s.dev CLS_BANK_STATUS_DRAINING = false → ∃ d : Dev, exec (.ruleWrite m value) s = .next (s.withDev d)
          ∧ (∃ r : Rule, sget Rule.none d.pkt.rules ((1 - activeBank s.dev) * 65536 + getBits value 15 0) = r
              ∧ r.key = readWords s.dev CLS_RULE_KEYj 10 ∧ r.mask = readWords s.dev CLS_RULE_MASKj 10
              ∧ r.act = rdn s.dev CLS_RULE_ACT_HI * 0x100000000 + rdn s.dev CLS_RULE_ACT_LO)
          ∧ (risingFrom 0 s.dev.pkt.rules = true → ∀ key : Nat, winner d (activeBank s.dev) key = winner s.dev (activeBank s.dev) key)
          ∧ ruleBusy d = true ∧ activeBank d = activeBank s.dev)
      ∧ (flag s.dev CLS_BANK_STATUS_DRAINING = true → ∃ d : Dev, exec (.ruleWrite m value) s = .next (s.withDev d) ∧ d.pkt = s.dev.pkt
          ∧ (ruleBusy s.dev = false → flag d CLS_RULE_CTL_REFUSED = true
            ∧ rdn d CLS_WRITE_REFUSED = min (rdn s.dev CLS_WRITE_REFUSED + 1) 0xFFFFFFFF))
      ∧ (ruleBusy s.dev = true → ∃ d : Dev, exec (.ruleWrite m value) s = .next (s.withDev d) ∧ d.pkt = s.dev.pkt)
      ∧ (ruleBusy s.dev = false → ∃ d : Dev, exec (.ruleRead m value) s = .next (s.withDev d) ∧ d.pkt = s.dev.pkt
          ∧ ∀ r : Rule, r = sget { Rule.none with act := if getBits value 15 0 = 65535 then emptyAction else 0 } s.dev.pkt.rules
              (getBits value 29 29 * 65536 + getBits value 15 0) →
            (∀ j : Nat, j < 10 → rdn d (CLS_RULE_KEYj j) = r.key / 2 ^ (32 * j) % 0x100000000
              ∧ rdn d (CLS_RULE_MASKj j) = r.mask / 2 ^ (32 * j) % 0x100000000)
            ∧ rdn d CLS_RULE_ACT_HI = r.act / 0x100000000 % 0x100000000 ∧ rdn d CLS_RULE_ACT_LO = r.act % 0x100000000))
    ∧ (∀ s : State, ∃ d : Dev, exec .ruleWriteDone s = .next (s.withDev d) ∧ ruleBusy d = false ∧ d.pkt = s.dev.pkt)
    ∧ (∀ (d : Dev) (ws : List (Nat × Word)) (w : Word), ws.find? (fun e => e.1 == CLS_BANK_SEL.ofs) = some (CLS_BANK_SEL.ofs, w) →
      boolBit (w.getLsbD 0) ≠ activeBank d → activeBank (clsApply d ws) = boolBit (w.getLsbD 0)
        ∧ epoch (clsApply d ws) = (epoch d + 1) % 65536 ∧ (clsApply d ws).pkt = d.pkt)
    ∧ (∀ s : State, (s.dev.prsIn = [] → ∀ b : Bool, exec (.frameParse b) s = .next s)
      ∧ ∀ (f : RxFrame) (rest : List RxFrame) (p : Nat), s.dev.prsIn = f :: rest → pipeFor s.dev f.src = some p →
        ((parseFrame s.dev f).mal = 0 → ∃ (t : State) (c : ClsFrame), exec (.frameParse false) s = .next t ∧ t.dev.prsIn = rest
          ∧ t.dev.pkt.cls = s.dev.pkt.cls ++ [c] ∧ c.frame = f ∧ c.pipe = p ∧ c.parse = parseFrame s.dev f)
        ∧ ∃ t : State, exec (.frameParse true) s = .next t ∧ t.dev.prsIn = rest ∧ t.dev.pkt.cls = s.dev.pkt.cls
          ∧ rdn t.dev CLS_PIPE_DROP = min (rdn s.dev CLS_PIPE_DROP + 1) 0xFFFFFFFF)
    ∧ (∀ (s : State) (ecc flowErr : Ecc), (s.dev.pkt.cls = [] → exec (.classifyLookup ecc flowErr) s = .next s)
      ∧ ∀ (c : ClsFrame) (rest : List ClsFrame) (act : Nat), s.dev.pkt.cls = c :: rest →
        act = (winner s.dev (activeBank s.dev) c.parse.key1).2 →
        ∃ t : State, exec (.classifyLookup ecc flowErr) s = .next t ∧ t.mem = s.mem ∧ t.dev.pkt.cls = rest
          ∧ (actScan act = false → actVerdict act = 1 → t.dev.pkt.offers = s.dev.pkt.offers ∧ t.dev.pkt.second = s.dev.pkt.second)
          ∧ (actScan act = false → actVerdict act = 4 → (secondOf s.dev c.pipe).length < 32 → t.dev.pkt.offers = s.dev.pkt.offers
            ∧ t.dev.pkt.second = s.dev.pkt.second ++ [{ c with epoch := epoch s.dev, since := s.dev.elapsed, hit := none, skipped := false }]))
    ∧ (∀ (p : Fin 9) (s : State) (ecc flowErr : Ecc), (secondOf s.dev p = [] →
        exec (.secondPass p ecc flowErr) s = .next s ∧ exec (.recircTimeout p) s = .next s)
      ∧ ∀ c : ClsFrame, (secondOf s.dev p).head? = some c →
        (∃ t : State, exec (.secondPass p ecc flowErr) s = .next t ∧ t.dev.pkt.second = s.dev.pkt.second.erase c)
        ∧ (c.since + 500 ≤ s.dev.elapsed → exec (.recircTimeout p) s
            = .next (s.withDev (raiseCls (count (dropSecond s.dev c) CLS_RECIRC_DROP) clRecircDrop)))
        ∧ (s.dev.elapsed < c.since + 500 → exec (.recircTimeout p) s = .next s))
    ∧ ∀ (m : Master) (value : Word) (s : State), admits s.dev m CLS_PAT_CTL.ofs = true →
      (∃ d : Dev, exec (.patternWrite m value) s = .next (s.withDev d)
        ∧ sget Pattern.reset d.pkt.patterns (getBits value 11 0)
          = { cfg := rd s.dev CLS_PAT_CFG, data := readWords s.dev CLS_PAT_DATAj 16, mask := readWords s.dev CLS_PAT_MASKj 16 })
      ∧ ∃ d : Dev, exec (.patternRead m value) s = .next (s.withDev d) ∧ d.pkt = s.dev.pkt
        ∧ ∀ r : Pattern, r = sget Pattern.reset s.dev.pkt.patterns (getBits value 11 0) → rd d CLS_PAT_CFG = r.cfg
          ∧ ∀ j : Nat, j < 16 → rdn d (CLS_PAT_DATAj j) = r.data / 2 ^ (32 * j) % 0x100000000
            ∧ rdn d (CLS_PAT_MASKj j) = r.mask / 2 ^ (32 * j) % 0x100000000

/-- EP_WRITE, EP_READ, EP_SCRUB, FLOW_MISS_RESOLVE, MISS_TIMEOUT and the order in which a frame is resolved. An admitted write GO stores the staged entry, and no other, and is in progress; one that names a server port above 63, or comes while a write is in progress, is refused and counted. A read GO brings the entry into the staging registers. A frame of a bad endpoint word, or whose read finds one, is counted and dropped, one of an invalid entry is too; one without flow tracking or flow power is resolved by its endpoint as that read found it, and one whose key is cached by the flow entry. The oldest miss is bypassed where its read finds an uncorrectable word or it has waited MISS_TO, is resolved as a miss where no entry is found, and else by the entry. The scrubber counts a corrected word, and marks the entry of an uncorrectable one. (15_ashlar_tables.md R253, R255, R256, R262, R263, R269) -/
def Obligations.EndpointsResolve : Prop :=
  (∀ (m : Master) (value : Word) (s : State), admits s.dev m ASH_EP_CTL.ofs = true → ∀ w : Nat, w = readWords s.dev ASH_EP_DATAj 6 →
      (flag s.dev ASH_EP_CTL_BUSY = false → (epDest w ≠ 0 ∨ epPort w ≤ 63) → ∃ d : Dev, exec (.epWrite m value) s = .next (s.withDev d)
          ∧ sget 0 d.endpoints (getBits value 19 0) = w ∧ (∀ e : Nat, e ≠ getBits value 19 0 → sget 0 d.endpoints e = sget 0 s.dev.endpoints e)
          ∧ flag d ASH_EP_CTL_BUSY = true ∧ flag d ASH_EP_CTL_REFUSED = false)
      ∧ ((flag s.dev ASH_EP_CTL_BUSY = true ∨ (epDest w = 0 ∧ 63 < epPort w)) → ∃ d : Dev, exec (.epWrite m value) s = .next (s.withDev d)
          ∧ d.endpoints = s.dev.endpoints ∧ flag d ASH_EP_CTL_REFUSED = true
          ∧ rdn d ASH_CMD_REFUSED = min (rdn s.dev ASH_CMD_REFUSED + 1) 0xFFFFFFFF)
      ∧ ∃ d : Dev, exec (.epRead m value) s = .next (s.withDev d) ∧ d.endpoints = s.dev.endpoints
          ∧ ∀ j : Nat, j < 6 → rdn d (ASH_EP_DATAj j) = epEntry s.dev (getBits value 19 0) / 2 ^ (32 * j) % 0x100000000)
    ∧ (∀ (d : Dev) (f g : AshFrame) (fe : Ecc), g = { f with entry := epEntry d f.endpoint } →
      (d.pkt.epBad.contains f.endpoint = true → resolve .clean fe d f = epEccFound d f.endpoint)
      ∧ resolve .uncorrectable fe d f = epEccFound (setPkt d (fun p => { p with epBad := insSorted f.endpoint p.epBad })) f.endpoint
      ∧ resolve .corrected fe d f = resolve .clean fe (count d ASH_EP_ECC_CORR) f
      ∧ (d.pkt.epBad.contains f.endpoint = false → epValid g.entry = false → resolve .clean fe d f = count d ASH_EP_INVALID)
      ∧ (d.pkt.epBad.contains f.endpoint = false → epValid g.entry = true →
          (epFt g.entry = false ∨ flag d ASH_CFG_FLOW_EN = false ∨ flowPowered d = false) → resolve .clean fe d f = byEndpoint d g)
      ∧ ∀ l : CacheLine, d.pkt.epBad.contains f.endpoint = false → epValid g.entry = true → epFt g.entry = true →
          flag d ASH_CFG_FLOW_EN = true → flowPowered d = true → flowCacheBroken d = false → d.pkt.lookups.1 ≠ d.elapsed / 25 →
          cachedKey d (frameKey f) = some l → ∃ d' : Dev, resolve .clean .clean d f = byFlow d' g l.bytes ∧ d'.regs = d.regs)
    ∧ (∀ (s : State) (slot : Fin 8) (ecc : Ecc), s.dev.pkt.misses = [] → exec .missTimeout s = .next s ∧ exec (.flowMissResolve ecc slot) s = .next s)
    ∧ (∀ (s : State) (k : FlowMiss) (rest : List FlowMiss) (slot : Fin 8), s.dev.pkt.misses = k :: rest →
      ∀ d : Dev, d = setPkt s.dev (fun p => { p with misses := rest }) →
      (k.since + fld s.dev ASH_CFG_MISS_TO * 25 ≤ s.dev.elapsed → exec .missTimeout s = .next (s.withDev (forEach k.frames byBypass d)))
      ∧ (s.dev.elapsed < k.since + fld s.dev ASH_CFG_MISS_TO * 25 → exec .missTimeout s = .next s)
      ∧ (∃ (t : State) (d' : Dev), exec (.flowMissResolve .uncorrectable slot) s = .next t ∧ t.dev = forEach k.frames byBypass d')
      ∧ (findFlow d s.mem k.key = none → exec (.flowMissResolve .clean slot) s = .next (s.withDev (forEach k.frames byMiss d))
          ∧ exec (.flowMissResolve .corrected slot) s = .next (s.withDev (forEach k.frames byMiss (count d ASH_FLOW_ECC_CORR))))
      ∧ ∀ i : Nat, findFlow d s.mem k.key = some i → ∀ ecc : Ecc, ecc ≠ .uncorrectable → ∃ (t : State) (d' : Dev),
          exec (.flowMissResolve ecc slot) s = .next t ∧ t.dev = forEach k.frames (fun d f => byFlow d f (flowEntry s.dev s.mem i)) d')
    ∧ ∀ (e : Fin 1048576) (ecc : Ecc) (s : State), (domainOn s.dev 32 = false → exec (.epScrub e ecc) s = .next s)
      ∧ (domainOn s.dev 32 = true → exec (.epScrub e .clean) s = .next s
        ∧ exec (.epScrub e .corrected) s = .next (s.withDev (count s.dev ASH_EP_ECC_CORR))
        ∧ ∃ d : Dev, exec (.epScrub e .uncorrectable) s = .next (s.withDev (epEccFound d e)) ∧ e.val ∈ d.pkt.epBad)

/-- FLOW_INSERT, FLOW_UPDATE, FLOW_DELETE, FLOW_LOOKUP, FLUSH_EP, CLEAR_ALL, ASH_CMD_BAD_OPCODE, WALK_DONE, LEARN, AGE_VISIT and FLOW_SCRUB. Without power each command completes UNPOWERED. An INSERT of a bad body completes BAD; of a key that is present EXISTS; with a free slot in the first candidate bucket the entry is written there and the key is found there. An UPDATE, DELETE or LOOKUP of an absent key completes NOT_FOUND; a DELETE of a present one clears its slot, a LOOKUP copies it, an UPDATE completes OK. What the ageing walk has found is served after each. The two walks start at the first bucket; a walk that ends has cleared every entry that matches in the buckets left and logs the number deleted; an unlisted opcode completes BAD. A learn waits for host commands and is inserted as a new entry. The ageing walk moves on by one bucket and queues what is aged there. A scrubbed corrected word is counted, and an uncorrectable one clears its entry. (15_ashlar_tables.md R259, R260, R263, R264, R265, R266, R267, R269) -/
def Obligations.FlowTableCommands : Prop :=
  ∀ (s : State) (out : Dev → Mem → State), (∀ (d : Dev) (m : Mem), out d m = { s with dev := (serveAged d m).1, mem := (serveAged d m).2 }) →
    (∀ c : AshCmd, nextCmd s.dev = some c →
      (flowPowered s.dev = false →
        (c.opcode = 1 → exec .flowInsert s = .next (s.withDev (logCmd (popCmd s.dev c) c aoUnpowered 0 0)))
        ∧ (c.opcode = 2 → exec .flowUpdate s = .next (s.withDev (logCmd (popCmd s.dev c) c aoUnpowered 0 0)))
        ∧ (c.opcode = 3 → exec .flowDelete s = .next (s.withDev (logCmd (popCmd s.dev c) c aoUnpowered 0 0)))
        ∧ (c.opcode = 4 → exec .flowLookup s = .next (s.withDev (logCmd (popCmd s.dev c) c aoUnpowered 0 0)))
        ∧ (c.opcode = 5 → exec .flushEp s = .next (s.withDev (logCmd (popCmd s.dev c) c aoUnpowered 0 0)))
        ∧ (c.opcode = 6 → exec .clearAll s = .next (s.withDev (logCmd (popCmd s.dev c) c aoUnpowered 0 0)))
        ∧ ((c.opcode = 0 ∨ 6 < c.opcode) → exec .ashCmdBadOpcode s = .next (s.withDev (logCmd (popCmd s.dev c) c aoUnpowered 0 0))))
      ∧ (flowPowered s.dev = true →
        (c.opcode = 1 →
          (bodyBad c.body = true → exec .flowInsert s = .next (out (logCmd (popCmd s.dev c) c aoBad 0 0) s.mem))
          ∧ (∀ i : Nat, bodyBad c.body = false → findFlow s.dev s.mem (feKey (seenNow s.dev c.body)) = some i →
              exec .flowInsert s = .next (out (logCmd (popCmd s.dev c) c aoExists 0 i) s.mem))
          ∧ (∀ i : Nat, c.body.length = 64 → bodyBad c.body = false → findFlow s.dev s.mem (feKey c.body) = none →
              freeSlot s.dev s.mem (flowHash1 s.dev (feKey c.body)) = some i → ∃ (d : Dev) (m : Mem), exec .flowInsert s = .next (out d m)
                ∧ readDram m (flowAddr s.dev i) 64 = seenNow s.dev c.body ∧ findFlow d m (feKey c.body) = some i))
        ∧ (findFlow s.dev s.mem (feKey c.body) = none →
          (c.opcode = 2 → bodyBad c.body = false → exec .flowUpdate s = .next (out (logCmd (popCmd s.dev c) c aoNotFound 0 0) s.mem))
          ∧ (c.opcode = 3 → exec .flowDelete s = .next (out (logCmd (popCmd s.dev c) c aoNotFound 0 0) s.mem))
          ∧ (c.opcode = 4 → exec .flowLookup s = .next (out (logCmd (popCmd s.dev c) c aoNotFound 0 0) s.mem)))
        ∧ (∀ i : Nat, findFlow s.dev s.mem (feKey c.body) = some i →
          (c.opcode = 3 → ∃ (d : Dev) (m : Mem), exec .flowDelete s = .next (out (logCmd d c aoOk 0 i) m)
              ∧ readDram m (flowAddr s.dev i) 64 = List.replicate 64 0)
          ∧ (c.opcode = 4 → ∃ d : Dev, exec .flowLookup s = .next (out (logCmd d c aoOk 0 i) s.mem)
              ∧ rdn d (ASH_RES_DATAj 0) = leNat (flowEntry s.dev s.mem i) % 0x100000000)
          ∧ (c.opcode = 2 → bodyBad c.body = false → ∃ (d : Dev) (m : Mem), exec .flowUpdate s = .next (out (logCmd d c aoOk 0 i) m)))
        ∧ (c.opcode = 5 → ∃ d : Dev, exec .flushEp s = .next (s.withDev d) ∧ flag d ASH_STATUS_WALK = true
            ∧ d.pkt.walk = some { cmd := c, reached := 0, began := s.dev.elapsed, deleted := 0 })
        ∧ (c.opcode = 6 → ∃ d : Dev, exec .clearAll s = .next (s.withDev d) ∧ flag d ASH_STATUS_WALK = true
            ∧ d.pkt.walk = some { cmd := c, reached := 0, began := s.dev.elapsed, deleted := 0 })
        ∧ ((c.opcode = 0 ∨ 6 < c.opcode) → exec .ashCmdBadOpcode s = .next (s.withDev (logCmd (popCmd s.dev c) c aoBad 0 0)))))
    ∧ (∀ w : FlowWalk, s.dev.pkt.walk = some w → flowPowered s.dev = true → w.reached < 4194304 → ∀ is : List Nat,
      is = (validFlows s.dev s.mem w.reached 4194304).filter
        (fun i => w.cmd.opcode == 6 || feEndpoint (flowEntry s.dev s.mem i) == feEndpoint w.cmd.body) →
      ∃ (d : Dev) (m : Mem), exec .walkDone s = .next (out (logCmd d w.cmd aoOk 0 (w.deleted + is.length)) m) ∧ d.pkt.walk = none
        ∧ ∀ i ∈ is, readDram m (flowAddr s.dev i) 64 = List.replicate 64 0)
    ∧ (∀ w : FlowWalk, s.dev.pkt.walk = some w → (flowPowered s.dev = false ∨ 4194304 ≤ w.reached) →
      ∃ d : Dev, exec .walkDone s = .next (out (logCmd d w.cmd aoOk 0 w.deleted) s.mem) ∧ d.pkt.walk = none)
    ∧ (s.dev.pkt.walk = none → exec .walkDone s = .next s)
    ∧ (∀ (k : List Byte) (n : Nat) (rest : List (List Byte × Nat)), s.dev.pkt.learns = (k, n) :: rest →
      (((nextCmd s.dev).isSome = true ∨ flowPowered s.dev = false) → exec .learn s = .next s)
        ∧ (nextCmd s.dev = none → flowPowered s.dev = true → ∀ (d : Dev) (m : Mem) (o j i : Nat),
          insertFlow (setPkt s.dev (fun p => { p with learns := rest })) s.mem
            (feTouch s.dev (k.take 32 ++ [k.getD 32 0 ||| 8] ++ slice k 33 7 ++ List.replicate 24 0) n) = (d, m, o, j, i) →
          exec .learn s = .next (out (if o = aoOk then count d ASH_LEARN else if o = aoExists then count d ASH_LEARN_DUP else d) m)))
    ∧ ((flag s.dev ASH_CFG_AGE_EN = false ∨ flowPowered s.dev = false) → exec .ageVisit s = .next s)
    ∧ (flag s.dev ASH_CFG_AGE_EN = true → flowPowered s.dev = true → ∃ d : Dev, exec .ageVisit s = .next (out d s.mem)
      ∧ d.pkt.agePos = (s.dev.pkt.agePos + 1) % 4194304
      ∧ d.pkt.aged = s.dev.pkt.aged ++ ((List.range 4).map (fun t => 4 * s.dev.pkt.agePos + t)).filter
          (fun i => isAged s.dev (flowEntry s.dev s.mem i)))
    ∧ ∀ (b : Fin 4194304) (slot : Fin 4) (ecc : Ecc), (flowPowered s.dev = false → exec (.flowScrub b ecc slot) s = .next s)
      ∧ (flowPowered s.dev = true → exec (.flowScrub b .clean slot) s = .next s
        ∧ exec (.flowScrub b .corrected slot) s = .next (s.withDev (count s.dev ASH_FLOW_ECC_CORR))
        ∧ ∃ t : State, exec (.flowScrub b .uncorrectable slot) s = .next t
          ∧ rdn t.dev ASH_FLOW_ECC = min (rdn s.dev ASH_FLOW_ECC + 1) 0xFFFFFFFF
          ∧ (feValid (flowEntry s.dev s.mem (4 * b + slot)) = true →
            readDram t.mem (flowAddr s.dev (4 * b + slot)) 64 = List.replicate 64 0))

/-- FRAME_ADMIT, SERVER_DEQUEUE, GATE_LIST_START, GATE_CHANGE, GL_WRITE, GL_READ, Q_SEL_WRITE and PORT_FLUSH. No frame is admitted above its queue's limit, a yellow one never from a floor, and one only from the headroom of a lossless lane. A frame without a policer is admitted or dropped by these rules; one whose peak bucket is in debt is dropped red. Among weighted queues one that is in credit is chosen before one that is not; where no control frame goes first the chosen frame goes to the MAC unless its cells cannot be read. A list waits for T_s, the first cycle boundary at least 10 µs on, and then runs alone. A write to a copy in use is refused and changes no list. A port out of ACTIVE too long holds no frame. Statistics are latched. (16_traffic_manager.md R274, R276, R281, R284, R287, R288, R290, R291, R293, R294) -/
def Obligations.TrafficManager : Prop :=
  (∀ (d : Dev) (q : Nat) (f : BufFrame) (c n : Nat), admission d q f c = .pool n →
      cellsOf (queueOf d q) + frameCells f ≤ queueMax d q ∧ (c = 1 → n ≠ 0)
        ∧ (n = 1 → frameCells f ≤ fld d TMG_FREE_SHARED_FREE)
        ∧ (n = 2 → ∃ l : Nat, f.src = .lane l ∧ lossless d l f.pri = true))
    ∧ (∀ (s : State) (o : TmOffer) (rest : List TmOffer), s.dev.pkt.offers = o :: rest → pwrStopped s.dev 7 = false → o.queue < 16384 →
      ∀ d : Dev, d = setPkt s.dev (fun p => { p with offers := rest }) →
        (o.policer = none → exec .frameAdmit s = .next (s.withDev (admitOffer d o 0)))
        ∧ ∀ k l : Nat, o.policer = some k → o.frame.src = .lane l →
          ((bucketsNow d k).p < 0 → exec .frameAdmit s = .next (s.withDev (count (putBuckets d k (bucketsNow d k)) TMG_DROP_RED)))
          ∧ (0 ≤ (bucketsNow d k).p → ∃ (d' : Dev) (c : Nat), exec .frameAdmit s = .next (s.withDev (admitOffer d' o c))
              ∧ (c = 0 ↔ 0 ≤ (bucketsNow d k).c) ∧ c ≤ 1))
    ∧ (∀ (d : Dev) (weighted : List Nat) (q : Nat), selectQueue d [] weighted = some q →
      q ∈ weighted ∧ ((∃ r ∈ weighted, committedOpen d r = true) → committedOpen d q = true))
    ∧ (∀ (p : Fin 64) (s : State), (macHw s.dev p).tx = none → txHold s.dev p = false → flowFirst s.dev p = false → domainOn s.dev 33 = true →
      ∀ (d1 : Dev) (q : Nat) (f : BufFrame), serverChoice (dropOversize (((s.dev.queues.filter (fun e => e.1 / 128 == p.val)).map
          (fun e => e.2.length)).foldl (· + ·) 0) s.dev p) p = (d1, some q) → headFrame d1 q = some f →
        (∃ d : Dev, exec (.serverDequeue p .clean) s = .next (s.withDev d) ∧ (macHw d p).tx = some f ∧ queueOf d q = (queueOf d1 q).erase f)
        ∧ ∃ d : Dev, exec (.serverDequeue p .uncorrectable) s = .next (s.withDev d) ∧ queueOf d q = (queueOf d1 q).erase f)
    ∧ (∀ (sched : Fin 576) (s : State),
      (∀ c ts : Nat, (gateRun s.dev sched).waiting = some (c, ts) →
        (ts ≤ now s.dev → ∃ d : Dev, exec (.gateListStart sched) s = .next (s.withDev d) ∧ gateRun d sched = { applied := some (c, ts), waiting := none })
        ∧ (now s.dev < ts → exec (.gateListStart sched) s = .next s))
      ∧ ∃ d : Dev, exec (.gateChange sched) s = .next (s.withDev d) ∧ d.pkt = s.dev.pkt
          ∧ getBits (rd d (statusReg sched)) 15 8 = gatesNow s.dev sched % 256)
    ∧ (∀ (d : Dev) (sched : Nat) (w : Word), w.getLsbD 1 = true →
      let l := gateList d sched (boolBit (w.getLsbD 0))
      l.base < now d → 0 < l.cycle → ∃ k : Nat, (gateRun (selectGates d sched w) sched).waiting = some (boolBit (w.getLsbD 0), l.base + k * l.cycle)
        ∧ now d + 10000 ≤ l.base + k * l.cycle ∧ l.base + (k - 1) * l.cycle < now d + 10000)
    ∧ (∀ (m : Master) (value : Word) (s : State), admits s.dev m TMG_GL_CTL.ofs = true →
      (∀ d : Dev, d = storeAt s.dev m TMG_GL_CTL.ofs ((value ||| 0x80000000) &&& 0xBFFFFFFF) →
        (glRefused d (fld d TMG_GL_CTL_SCHED) (fld d TMG_GL_CTL_COPY) = true →
          exec (.glWrite m value) s = .next (s.withDev (count (setFlag d TMG_GL_CTL_REFUSED true) TMG_GL_REFUSED)))
        ∧ (glRefused d (fld d TMG_GL_CTL_SCHED) (fld d TMG_GL_CTL_COPY) = false → fld d TMG_GL_CTL_INDEX ≠ 256 →
          ∃ d' : Dev, exec (.glWrite m value) s = .next (s.withDev d') ∧ d'.pkt.gates = s.dev.pkt.gates
            ∧ gateEntry (gateList d' (fld d TMG_GL_CTL_SCHED) (fld d TMG_GL_CTL_COPY)) (fld d TMG_GL_CTL_INDEX)
              = (fld d TMG_GL_ENTRY_GATES_GATES, fld d TMG_GL_ENTRY_NS_NS)))
      ∧ ∃ d : Dev, exec (.glRead m value) s = .next (s.withDev d) ∧ d.pkt = s.dev.pkt)
    ∧ (∀ (m : Master) (value : Word) (s : State), admits s.dev m TMG_Q_SEL.ofs = true →
      ∃ d : Dev, exec (.qSelWrite m value) s = .next (s.withDev d) ∧ d.queues = s.dev.queues
        ∧ rdn d (TMG_Q_STATk 0) = cellsOf (queueOf s.dev (getBits value 13 0)) % 0x100000000
        ∧ rdn d (TMG_Q_STATk 1) = (queueOf s.dev (getBits value 13 0)).length % 0x100000000)
    ∧ ∀ (p : Fin 64) (s : State),
      (timerOver s.dev (.portFlush p) = true → laneState s.dev p ≠ lnActive → ∃ d : Dev, exec (.portFlush p) s = .next (s.withDev d)
        ∧ ∀ q : Nat, q / 128 = p.val → queueOf d q = [])
      ∧ (timerOver s.dev (.portFlush p) = false → exec (.portFlush p) s = .next s)

/-- Anchors, PTP messages, pulse return, event inputs, time outputs and neighbour comparison: their commands. An anchor that meets every check sets d_ds from half the round trip; one without its stamp changes no offset. A Sync is queued for its launch instant or skipped, an Announce offered. A Delay_Req is answered, foreign and bad messages counted. The first edge of a window is its error, judged against the limit when the window closes; later ones are counted. Event stamps queue first in, first out. An output is driven at its instant and never while device time stands. A comparison answers half the difference of the two offsets. (17_time_transfer_and_delivery.md R296, R297, R301, R302, R303, R307, R308, R309, R310, R312, 22_firmware_update_and_course.md R391) -/
def Obligations.TimeIsCarried : Prop :=
  (∀ (x : Line) (h : LmmHead) (a : AnchorBody) (s : State), forLine s.dev x h = true → a.ns.toNat < nsPerSec → repeated s.dev x h = false →
      (stampOfFrame s.dev x a.frame.toNat = none →
        exec (.timeAnchor x h a) s = .next (s.withDev (executed (rejectAnchor s.dev (TTD_Lx_NO_STAMP x.ix)) x h)))
      ∧ ∀ st : FawStamp, stampOfFrame s.dev x a.frame.toNat = some st → st.good = true → st.anchor = true → st.stamp.coarse = false →
        (∀ t : Nat, s.dev.kst.stepTick = some t → t < st.tick) → a.frame.toNat + 1 ≤ h.frame.toNat → h.frame.toNat ≤ a.frame.toNat + 16 →
        (s.dev.anchored.get x = true → lastAnchor s.dev x + 1024 ≤ a.frame.toNat) →
        bitOf (fld s.dev (RNG_Lx_STATUS_RANGED x.ix)) (asymCh s.dev x) = true → flag s.dev (RNG_Lx_STATUS_CAL_OK x.ix) = true →
        ∃ d : Dev, exec (.timeAnchor x h a) s = .next (s.withDev d) ∧ lastAnchor d x = a.frame.toNat ∧ d.clock = s.dev.clock
          ∧ d.ttd.dds.get x = roundTrip s.dev x (asymCh s.dev x) a.eqrt.toNat + asymInUse s.dev x (asymCh s.dev x)
            + 320000 * toSigned 16 (fld s.dev (TTD_Lx_CFG_RX_CAL x.ix)))
    ∧ (∀ (p : Fin 64) (s : State),
      (portSpeaks s.dev p = false → exec (.syncPlace p) s = .next s ∧ exec (.announceSend p) s = .next s)
      ∧ (∀ t : Nat, t = nextInstant (logInterval (fldA s.dev (TTD_PORTp_CFG_LOG_SYNC p))) (now s.dev) → portSpeaks s.dev p = true →
          domainOn s.dev (2 + p / 4) = true → t ≤ now s.dev + 20000 → s.dev.ttd.syncs.find? (fun e => e.1 == p.val) = none →
          syncWaits s.dev p = none →
          ((txHold s.dev p || macHolds s.dev p (fldA s.dev (TTD_PORTp_CFG_SYNC_CLASS p))) = false →
            ∃ (d : Dev) (f : BufFrame), exec (.syncPlace p) s = .next (s.withDev d)
              ∧ queueOf d (syncQueue s.dev p) = queueOf s.dev (syncQueue s.dev p) ++ [f] ∧ f.launch = some t)
          ∧ (txHold s.dev p = true → ∃ d : Dev, exec (.syncPlace p) s = .next (s.withDev d) ∧ d.queues = s.dev.queues
              ∧ rdn d (TTD_PORTp_SYNC_SKIP p) = min (rdn s.dev (TTD_PORTp_SYNC_SKIP p) + 1) 0xFFFFFFFF))
      ∧ (∀ i : Nat, i = logInterval (fldA s.dev (TTD_PORTp_CFG_LOG_ANN p)) → portSpeaks s.dev p = true →
          inThisTick s.dev (nextInstant i (now s.dev) - min i nsPerSec) = true → s.dev.ttd.anns = [] →
          ∃ (d : Dev) (o : TmOffer), exec (.announceSend p) s = .next (s.withDev d) ∧ d.pkt.offers = s.dev.pkt.offers ++ [o]
            ∧ o.queue = syncQueue s.dev p ∧ o.frame.launch = none))
    ∧ (∀ (s : State) (p : Fin 64) (ring o : Nat) (c : ClsFrame) (rest : List (Nat × Nat × ClsFrame)),
      s.dev.pkt.ptpIn = (p.val, ring, c) :: rest → c.parse.ptp = some o → ∀ d : Dev, d = setPkt s.dev (fun k => { k with ptpIn := rest }) →
        ∀ ty : Nat, ty = ptpType c.frame.bytes o →
        (byteAt c.frame.bytes (o + 1) % 16 ≠ 2 → exec .ptpMsgRx s = .next (s.withDev (count d (TTD_PORTp_PTP_BAD p))))
        ∧ (byteAt c.frame.bytes (o + 1) % 16 = 2 → byteAt c.frame.bytes (o + 4) = fld s.dev TTD_PTP_CFG_DOMAIN →
            ptpLength ty ≤ beNat (slice c.frame.bytes (o + 2) 2) →
          ((ty = 0 ∨ ty = 8 ∨ ty = 9 ∨ ty = 0xB) → exec .ptpMsgRx s = .next (s.withDev (count d (TTD_PORTp_FOREIGN p))))
          ∧ ((ty = 2 ∨ ty = 3 ∨ ty = 0xA) → exec .ptpMsgRx s = .next (s.withDev (count d (TTD_PORTp_PTP_BAD p))))
          ∧ (ty = 1 → portSpeaks s.dev p = true → ∃ (d' : Dev) (q : TmOffer), exec .ptpMsgRx s = .next (s.withDev d')
              ∧ d'.pkt.offers = s.dev.pkt.offers ++ [q] ∧ q.queue = syncQueue s.dev p
              ∧ rdn d' (TTD_PORTp_DREQ_RX p) = min (rdn s.dev (TTD_PORTp_DREQ_RX p) + 1) 0xFFFFFFFF
              ∧ rdn d' (TTD_PORTp_DRESP_TX p) = min (rdn s.dev (TTD_PORTp_DRESP_TX p) + 1) 0xFFFFFFFF)))
    ∧ (∀ (i : Fin 64) (s : State), flag s.dev (TTD_PRn_CFG_EN i) = true →
      (∀ sec : Nat, prWindow s.dev i = none → sec = (now s.dev + prWin s.dev + 1000) / nsPerSec → now s.dev < sec * nsPerSec + prWin s.dev →
        ∃ d : Dev, exec (.prWindowOpen i) s = .next (s.withDev d) ∧ flag d (KST_TDC_CAL_ARMED i) = true
          ∧ prWindow d i = some { sec := sec, steps := s.dev.kst.steps, err := none })
      ∧ ∀ w : PrWindow, prWindow s.dev i = some w →
        (∀ (falling : Bool) (hold bins : Nat), edgeCounts (flag s.dev (TTD_PRn_CFG_POL i)) falling hold = true → flag s.dev (TTD_PRn_CFG_WAKE i) = false →
          inWindow s.dev w (stampOf s.dev i bins) = true →
          (w.err = none → ∃ d : Dev, exec (.prEdge i falling hold bins) s = .next (s.withDev d)
            ∧ prWindow d i = some { w with err := some (prError s.dev i w.sec (stampOf s.dev i bins)) } ∧ d.regs = s.dev.regs)
          ∧ (w.err.isSome = true → exec (.prEdge i falling hold bins) s = .next (s.withDev (countFld s.dev (TTD_PRn_STATUS_EXTRA i)))))
        ∧ (w.sec * nsPerSec + prWin s.dev ≤ now s.dev → ∃ d : Dev, exec (.prWindowClose i) s = .next (s.withDev d) ∧ prWindow d i = none
            ∧ rdn d (TTD_PRn_SEC i) = w.sec % 0x100000000
            ∧ (w.err = none → fld d (TTD_PRn_STATUS_RESULT i) = 3)
            ∧ ∀ e : Int, w.err = some e → rdn d (TTD_PRn_ERR i) = ofSigned 32 (nearest e 256)
                ∧ (fld d (TTD_PRn_STATUS_RESULT i) = 1 ↔ e.natAbs ≤ fld s.dev TTD_PR_CFG_SERVER_LIM * 65536)))
    ∧ (∀ (e : Fin 4) (s : State),
      (∀ (falling : Bool) (hold bins : Nat), flag s.dev (TTD_TEVe_CFG_EN e) = true → edgeCounts (flag s.dev (TTD_TEVe_CFG_POL e)) falling hold = true →
        flag s.dev (TTD_TEVe_CFG_WAKE e) = false → (tevHw s.dev e).last = none →
        ((tevHw s.dev e).fifo.length < 16 → ∃ d : Dev, exec (.tevEdge e falling hold bins) s = .next (s.withDev d)
          ∧ (tevHw d e).fifo = (tevHw s.dev e).fifo ++ [stampOf s.dev (64 + e) bins])
        ∧ (16 ≤ (tevHw s.dev e).fifo.length →
          exec (.tevEdge e falling hold bins) s = .next (s.withDev (raiseTtd (countFld s.dev (TTD_TEVe_STATUS_LOST e)) tdTevOvf))))
      ∧ ∀ (m : Master) (t : Stamp) (rest : List Stamp), 0x20 ≤ m → (tevHw s.dev e).fifo = t :: rest →
        ∃ d : Dev, exec (.tevSecHiRead m e) s = .next (s.withDev d) ∧ (tevHw d e).fifo = rest ∧ rdn d (TTD_TEVe_SEC_LO e) = t.sec % 0x100000000)
    ∧ (∀ (o : Fin 8) (s : State),
      (s.dev.kst.refsRunning = false → exec (.toutEdge o) s = .next s)
      ∧ ∀ t : Nat, s.dev.kst.refsRunning = true → (toutHw s.dev o).pulse = none → toutInstant s.dev o = some t →
        s.dev.clock.units < t * 0x100000000 + rdPair s.dev KST_FREQ_LO KST_FREQ_HI → s.dev.kst.stepTick = none → (toutHw s.dev o).last = none →
        0 < toutWidth s.dev o → ∃ d : Dev, exec (.toutEdge o) s = .next (s.withDev d) ∧ (toutHw d o).pulse.isSome = true
          ∧ d.out = s.dev.out ++ [.tout o (!toutPol s.dev o) (toutPlace s.dev o t)])
    ∧ ∀ (k : Fin 2) (s : State), nbOn s.dev k = true → isFrozen s.dev (courseMaster k) = false →
      ((nbHw s.dev k).sentAt = none → ∃ d : Dev, exec (.timeReqSend k) s = .next (s.withDev d)
        ∧ (nbHw d k).open' = some ((nbHw s.dev k).seq, courseStamp (now s.dev)))
      ∧ (∀ (sender : BitVec 64) (seq : BitVec 16) (turn : Nat), ∃ (d : Dev) (o : Out), exec (.timeReq k sender seq turn) s = .next (s.withDev d)
          ∧ d.out = s.dev.out ++ [o])
      ∧ ∀ (q t1 at' : Nat), (nbHw s.dev k).open' = some (q, t1) → (nbHw s.dev k).sentAt = some at' →
        (at' + ticksPerSec ≤ s.dev.elapsed → ∃ d : Dev, exec (.nbTimeout k) s = .next (s.withDev d) ∧ (nbHw d k).open' = none
          ∧ flag d (TTD_NBk_STATUS_VALID k) = false)
        ∧ ∀ (sender : BitVec 64) (seq : BitVec 16) (t2s : BitVec 48) (t2 : BitVec 32) (t3s : BitVec 48) (t3 : BitVec 32),
          q = seq.toNat → s.dev.elapsed ≤ at' + ticksPerSec → ∃ d : Dev, exec (.timeResp k sender seq t2s t2 t3s t3) s = .next (s.withDev d)
            ∧ d.kst = s.dev.kst ∧ d.clock = s.dev.clock
            ∧ rdn d (TTD_NBk_OFS k) = ofSigned 32 (nearest (((t2s.toNat * nsPerSec + t2.toNat : Nat) : Int) - t1
              - ((courseStamp (now s.dev) : Int) - ((t3s.toNat * nsPerSec + t3.toNat : Nat) : Int))) 2
              - toSigned 16 (fld s.dev (TTD_NBk_CFG_NB_CAL k)))

/-- Doorbells, frames, completions, commands, rings, FLR, USB4 link, configuration requests and MSI-X: their commands. A CQ ring that can take an entry never overwrites one, and writes it with the phase of its pass. A doorbell of a ring that is not the function's freezes it, frozen or not; another one of a frozen function does nothing; one of a ring that does not run is counted. A sound frame of one descriptor is offered with its FCS, a bad one only counted; a frame is written to a lent buffer that holds it; a command joins the queue. ENABLE runs a ring that passes its checks with zeroed indices, or shows CFG. A failed read puts the ring in ERROR. A Function Level Reset disables the function's rings, releases it and moves no assignment. (18_host_attachment_and_rings.md R315, R317, R320, R322, R323, R324, R326, R327, R328, R332, R334, 24_start_up_and_reset.md R428) -/
def Obligations.RingsAndHost : Prop :=
  (∀ (d : Dev) (c : Nat) (e : List Byte), cqTakes d c 1 = true → fld d (HIF_Rr_CFG_SIZE_LOG c) ≤ 16 → (ringHw d c).host < 0x10000 →
      cqHeld (postCq d c e) c = cqHeld d c + 1 ∧ cqHeld (postCq d c e) c ≤ ringSize d c - 1
        ∧ Out.hostWrite (ringOwner d c) (slotAddr d c (ringHw d c).dev) (withPhase e ((ringHw d c).dev / ringSize d c % 2 == 0)) ∈ (postCq d c e).out)
    ∧ (∀ (f : Fin 32) (value : Word) (s : State), hostReaches s.dev = true → isFrozen s.dev f = true → ∀ r : Nat, r = getBits value 25 16 →
      (∀ size : Nat, size ≠ 4 → exec (.doorbell f size value) s = .next s)
      ∧ (ringOwner s.dev r ≠ f.val → exec (.doorbell f 4 value) s = .next (s.withDev (freeze s.dev f causeRing 0)))
      ∧ (ringOwner s.dev r = f.val → exec (.doorbell f 4 value) s = .next s))
    ∧ (∀ (f : Fin 32) (value : Word) (s : State), hostReaches s.dev = true → isFrozen s.dev f = false → ∀ r : Nat, r = getBits value 25 16 →
      (∀ size : Nat, size ≠ 4 → exec (.doorbell f size value) s = .next (s.withDev (count s.dev HIF_DB_BAD)))
      ∧ (ringOwner s.dev r ≠ f.val → exec (.doorbell f 4 value) s = .next (s.withDev (freeze s.dev f causeRing 0)))
      ∧ (ringOwner s.dev r = f.val → ringRuns s.dev r = false → exec (.doorbell f 4 value) s = .next (s.withDev (doorbellBad s.dev f)))
      ∧ (ringOwner s.dev r = f.val → ringRuns s.dev r = true → ringKind s.dev r ≠ kindCq →
          (getBits value 15 0 + 0x10000 - (ringHw s.dev r).dev % 0x10000) % 0x10000 ≤ ringSize s.dev r - 1 →
          ∃ d : Dev, exec (.doorbell f 4 value) s = .next (s.withDev d) ∧ (ringHw d r).host = getBits value 15 0 ∧ d.regs = s.dev.regs))
    ∧ (∀ (r : Fin 1024) (b data : List Byte) (s : State), mayBegin s.dev r kindTx 1 = true → sdLast b = true →
      (txCheck s.dev r [b] = none → ∃ (d : Dev) (o : TmOffer), exec (.txFrameSubmit r [b] data) s = .next (s.withDev d)
        ∧ d.pkt.offers = s.dev.pkt.offers ++ [o] ∧ o.queue = txQueue s.dev r b ∧ o.frame.bytes.length = sdLen b + 4
        ∧ o.frame.src = .host r)
      ∧ ∀ st : Nat, txCheck s.dev r [b] = some st → ∃ d : Dev, exec (.txFrameSubmit r [b] data) s = .next (s.withDev d) ∧ d.pkt = s.dev.pkt
        ∧ rdn d HIF_DESC_BAD = min (rdn s.dev HIF_DESC_BAD + 1) 0xFFFFFFFF)
    ∧ (∀ (r : Fin 1024) (s : State) (f : BufFrame) (rest : List BufFrame), queueOf s.dev (16384 + r) = f :: rest →
      (∀ descs : List (List Byte), ringTakes s.dev (16384 + r) = false →
        exec (.rxDeliver r descs) s = .next (s.withDev (takeFrom (count s.dev HIF_RX_NO_RING) (16384 + r) f)))
      ∧ ∀ b : List Byte, ringTakes s.dev (16384 + r) = true → mayBegin s.dev r kindRx 1 = true → rxBad b = none → f.bytes.length - 4 ≤ sdLen b →
        ∃ d : Dev, exec (.rxDeliver r [b]) s = .next (s.withDev d) ∧ queueOf d (16384 + r) = rest
          ∧ Out.hostWrite (ringOwner s.dev r) (sdAddr b) (f.bytes.take (f.bytes.length - 4)) ∈ d.out)
    ∧ (∀ (r : Fin 1024) (b body : List Byte) (s : State), mayBegin s.dev r kindCmd 1 = true →
      ((cmdClean b = false ∨ sdAddr b % 64 ≠ 0 ∨ cmdForbidden s.dev r (sdArgWord b % 16) body = true) →
        ∃ d : Dev, exec (.cmdDescriptor r b body) s = .next (s.withDev d) ∧ d.pkt = s.dev.pkt)
      ∧ (cmdClean b = true → sdAddr b % 64 = 0 → cmdForbidden s.dev r (sdArgWord b % 16) body = false → s.dev.pkt.cmds.length < 64 →
        ∃ (d : Dev) (c : AshCmd), exec (.cmdDescriptor r b body) s = .next (s.withDev d) ∧ d.pkt.cmds = s.dev.pkt.cmds ++ [c]
          ∧ c.opcode = sdArgWord b % 16))
    ∧ (∀ (c : Fin 1024) (s : State),
      (∀ t : Nat, (ringHw s.dev c).firstAt = some t → t + fld s.dev (HIF_Rr_COAL_COAL_US c) * ticksPerUs ≤ s.dev.elapsed →
        ∃ d : Dev, exec (.cqSignal c) s = .next (s.withDev d) ∧ (ringHw d c).unsignalled = 0 ∧ (ringHw d c).firstAt = none)
      ∧ (∀ t : Nat, (ringHw s.dev c).fullAt = some t → ringKind s.dev c = kindCq → (ringHw s.dev c).stalled = false → t + ticksPerMs ≤ s.dev.elapsed →
        ∃ d : Dev, exec (.cqStall c) s = .next (s.withDev d) ∧ rdn d HIF_CQ_STALL = min (rdn s.dev HIF_CQ_STALL + 1) 0xFFFFFFFF
          ∧ exec (.cqStall c) (s.withDev d) = .next (s.withDev d))
      ∧ (∀ (m : Master) (value : Word), admits s.dev m (HIF_Rr_CFG c).ofs = true →
        (ringState s.dev c = ringDisabled → ∃ d : Dev, exec (.ringEnable m c value) s = .next (s.withDev d)
          ∧ ((fld d (HIF_Rr_STATUS_STATE c) = ringRunning ∧ ringHw d c = RingHw.reset ∧ enableChecks d c = true)
            ∨ (fld d (HIF_Rr_STATUS_STATE c) = ringDisabled ∧ fld d (HIF_Rr_STATUS_ERR c) = 4 ∧ enableChecks d c = false)))
        ∧ ∃ d : Dev, exec (.ringDisable m c value) s = .next (s.withDev d) ∧ fld d (HIF_Rr_STATUS_STATE c) = ringDisabled
          ∧ ringHw d c = ringHw s.dev c)
      ∧ ∀ (what : Fin 3) (tag : BitVec 64), ringRuns s.dev c = true → isSubmission (ringKind s.dev c) = true → hifWorks s.dev = true →
        ∃ d : Dev, exec (.hostReadError c what tag) s = .next (s.withDev d) ∧ fld d (HIF_Rr_STATUS_STATE c) = ringError
          ∧ fld d (HIF_Rr_STATUS_ERR c) = what.val + 1 ∧ rdn d HIF_RD_ERR = min (rdn s.dev HIF_RD_ERR + 1) 0xFFFFFFFF)
    ∧ (∀ (f : Fin 31) (s : State), hostReaches s.dev = true → ∃ d : Dev, exec (.flr f) s = .next (s.withDev d) ∧ isFrozen d (f.val + 1) = false
      ∧ (∀ r : Nat, r < 1024 → ringOwner d r = ringOwner s.dev r
          ∧ (ringOwner s.dev r = f.val + 1 → fld d (HIF_Rr_STATUS_STATE r) = ringDisabled ∧ ringHw d r = RingHw.reset))
      ∧ ∀ c ∈ d.commits, posterMaster c.poster ≠ f.val + 1)
    ∧ ∀ s : State, domainOn s.dev 47 = true →
      (∃ d : Dev, exec (.usb4LinkChange .gen4) s = .next (s.withDev d) ∧ fld d HIF_LINK_STATUS_GEN = 4 ∧ flag d HIF_LINK_STATUS_TUNNEL_UP = true)
      ∧ (∃ d : Dev, exec (.usb4LinkChange .lost) s = .next (s.withDev d) ∧ flag d HIF_LINK_STATUS_TUNNEL_UP = false ∧ d.host = s.dev.host)
      ∧ (flag s.dev RST_STATUS_RELEASED = false → ∀ (f : Fin 32) (n : Option (Fin 32)),
          exec (.configurationRequest f n) s = .next (s.withDev (emit s.dev (.config f true))))
      ∧ (flag s.dev RST_STATUS_RELEASED = true →
          (∀ n : Fin 32, ∃ d : Dev, exec (.configurationRequest 0 (some n)) s = .next (s.withDev d) ∧ fld d HIF_LINK_STATUS_NUM_VFS = n.val)
          ∧ ∀ (f : Fin 32) (v : Fin 64) (w : Fin 4) (value : Word), ∃ d : Dev, exec (.msixTableWrite f (.word v w) value) s = .next (s.withDev d)
              ∧ msixWord d f v w = msixStored w value ∧ d.regs = s.dev.regs)

/-- Two sides of a main DMA hop overlap just where they name one space and share a byte. For every descriptor that moves at least one byte, its source and destination overlap exactly when they name the same space and some byte lies in both sides, where an INC side covers LEN bytes from its address, a FIXED side 4 bytes from its address whatever LEN is, and a CIRC side its whole buffer whatever LEN is. (R342) -/
def Obligations.SidesOverlap : Prop :=
  ∀ h : Descriptor, 0 < h.len →
    let inSide : Side → Nat → Prop := fun x n => match x.mode with
      | .inc => x.addr ≤ n ∧ n < x.addr + h.len
      | .fixed => x.addr ≤ n ∧ n < x.addr + 4
      | .circ w => n / 2 ^ w = x.addr / 2 ^ w
    (overlaps (mainSrc h) (mainDst h) h.len = true
      ↔ (mainSrc h).space = (mainDst h).space ∧ ∃ n : Nat, inSide (mainSrc h) n ∧ inSide (mainDst h) n)

/-- DMA entries, hops, moved bytes, fences, bus errors, owners and boot channels: their commands. A hop that breaks its fields is counted and posts, one outside the owner's rights freezes the channel, one that passes is taken. A turn of a channel (the model's, log 216) takes bytes of the host whole and in order into the store and from there into DRAM, and no byte beside them changes; a hop that is done is counted, and completes or fetches the hop it links to, which is checked; at the 4,096th linking hop the channel freezes. A fence posts once its read-back returns. A bus error stops every channel and only RESUME by function 0 ends the halt. A change of owner stops and releases the channel. A boot move changes no byte beside its destination; a boot hop copies flash to DRAM, ends its chain, or ends with its RESULT. (19_dma_engines.md R339, R341, R343, R344, R345, R346, R348, R349, R350, R351, R353, R354) -/
def Obligations.DmaEngines : Prop :=
  (∀ (m reader : Master) (f : Nat) (x y : Side) (stop n i : Nat) (host : List Byte) (d d' : Dev) (s s' : Mem) (j : Nat) (how : Moved),
      y.space = .dram → y.mode = .inc → moveBytes m reader f x y stop n i host d s = (d', s', j, how) →
      s'.flash = s.flash ∧ s'.core = s.core ∧ ∀ a : Nat, (a < y.addr + i ∨ y.addr + stop ≤ a) → readDram s' a 1 = readDram s a 1)
    ∧ (∀ (c : Fin 64) (desc : List Byte) (s : State) (r : Nat) (h : Descriptor), chanState s.dev c = 0 → dmaRuns s.dev = true →
      turnRing s.dev c = some r → h = descriptorOf desc →
      (fieldsGood h = false → ∃ d : Dev, exec (.dmaEntryStart c desc) s = .next (s.withDev d) ∧ chanRun d c = none
        ∧ rdn d DMA_BAD_DESC = min (rdn s.dev DMA_BAD_DESC + 1) 0xFFFFFFFF)
      ∧ (fieldsGood h = true → lengthGood h = true → (mainDst h).space ≠ .unit →
        (∀ a : Nat, outsideWindow s.dev (chanOwner s.dev c) (mainSrc h) h.len = some a → ∃ d : Dev,
          exec (.dmaEntryStart c desc) s = .next (s.withDev d) ∧ isFrozen d (chanMaster c) = true ∧ chanRun d c = none)
        ∧ (outsideWindow s.dev (chanOwner s.dev c) (mainSrc h) h.len = none → outsideWindow s.dev (chanOwner s.dev c) (mainDst h) h.len = none →
          overlaps (mainSrc h) (mainDst h) h.len = false → ∃ (d : Dev) (q : ChanRun), exec (.dmaEntryStart c desc) s = .next (s.withDev d)
            ∧ chanRun d c = some q ∧ q.ring = r ∧ q.hop = h ∧ q.moved = 0)))
    ∧ (∀ (c : Fin 64) (s : State) (r : ChanRun) (data : List Byte), moving s.dev c = some r →
      ((mainSrc r.hop).space = .host → (mainDst r.hop).space = .dram → (mainDst r.hop).mode = .inc → domainOn s.dev 47 = true →
        domainOn s.dev 45 = true → domainOn s.dev 46 = true → ∃ (d : Dev) (m : Mem) (rest w : List Byte) (q : ChanRun),
          takeTurn c data s.dev s.mem = (d, m, rest) ∧ moving d c = some q ∧ r.store ++ data = w ++ q.store ++ rest ∧ q.moved = r.moved + w.length
          ∧ readDram m (r.hop.dst + r.moved) w.length = w ∧ m.flash = s.mem.flash ∧ m.core = s.mem.core
          ∧ ∀ a : Nat, (a < r.hop.dst + r.moved ∨ r.hop.dst + r.moved + w.length ≤ a) → readDram m a 1 = readDram s.mem a 1)
      ∧ (∀ stop st : Nat, nextPoint r.hop r.point = some (stop, st) →
        (∀ (d : Dev) (m : Mem), serveUntil c (reached stop) (turnsFor r.hop.len) data s.dev s.mem = (d, m) →
          exec (.dmaProgress c data) s = .next { s with dev := postPoint c stop st d, mem := m })
        ∧ (reached stop r = true → mayPost s.dev r = true → r.hop.fence = true → exec (.dmaProgress c data) s
          = .next (s.withDev (putRun s.dev c { r with point := stop, fenced := some st }))))
      ∧ (nextPoint r.hop r.point = none → exec (.dmaProgress c data) s = .next s
        ∧ (hopDone r = true → finishHop c data s.dev s.mem = (countFld s.dev (DMA_CHc_STATUS_HOPS c), s.mem, some r)))
      ∧ ∀ (d : Dev) (m : Mem) (q : ChanRun) (desc : List Byte), finishHop c data s.dev s.mem = (d, m, some q) →
        (r.hop.link = false → exec (.dmaComplete c data) s = .next { s with
          dev := if q.hop.fence = true then putRun d c { q with fenced := some csOk } else endEntry d c q csOk, mem := m })
        ∧ (r.hop.link = true → 4096 ≤ hopsOf d c →
          exec (.hopFetch c data desc) s = .next { s with dev := freezeChan d c causeHops q.hop.next, mem := m })
        ∧ (r.hop.link = true → hopsOf d c < 4096 → getBits q.hop.ctl 11 10 = 0 →
          exec (.hopFetch c data desc) s = .next { s with dev := takeHop d c q (descriptorOf desc), mem := m }))
    ∧ (∀ (c : Fin 64) (s : State) (r : ChanRun), chanState s.dev c = 1 → chanRun s.dev c = some r → r.fenced = some csOk →
      (mainDst r.hop).space ≠ .unit → exec (.fenceDone c) s = .next (s.withDev (endEntry s.dev c r csOk)))
    ∧ (∀ (c : Fin 64) (s : State) (r : ChanRun) (st : Nat), chanState s.dev c = 1 → chanRun s.dev c = some r → r.fenced = some st → st ≠ csOk →
      (mainDst r.hop).space ≠ .unit → mayPost s.dev r = true →
      exec (.fenceDone c) s = .next (s.withDev (postProgress (putRun s.dev c { r with fenced := none }) c r st)))
    ∧ (∀ (s : State) (space : Fin 3) (addr : BitVec 64), dmaHalted s.dev = false → busyChannels s.dev ≠ 0 → ∀ n : Nat,
      n = min (rdn s.dev DMA_HALTS + 1) 0xFFFFFFFF →
      (∀ cause : BusFault, ∃ d : Dev, exec (.busError cause space addr) s = .next (s.withDev d) ∧ dmaHalted d = true ∧ rdn d DMA_HALTS = n
        ∧ ∀ c : Fin 64, chanState d c = 2 ∨ chanState d c = 3)
      ∧ ∃ d : Dev, exec (.dmaBusTimeout space addr) s = .next (s.withDev d) ∧ dmaHalted d = true
        ∧ rdn d DMA_TIMEOUT = min (rdn s.dev DMA_TIMEOUT + 1) 0xFFFFFFFF)
    ∧ (∀ (m : Master) (value : Word) (s : State),
      (admits s.dev m DMA_CTL.ofs = true → value.getLsbD 0 = true →
        (m = 0 → exec (.dmaResume m value) s = .next (s.withDev (setFlag s.dev DMA_STATUS_HALTED false)))
        ∧ (m ≠ 0 → exec (.dmaResume m value) s = .next s))
      ∧ ∀ c : Fin 64, admits s.dev m (HIF_DMACc_OWN c).ofs = true → ∃ d : Dev, exec (.dmaOwnerChange m c value) s = .next (s.withDev d)
          ∧ chanRun d c = none ∧ isFrozen d (chanMaster c) = false ∧ chanOwner d c = getBits value 4 0)
    ∧ (∀ (m : Master) (c : Fin 4) (value : Word) (s : State), admits s.dev m (BDM_CHc_CTL c).ofs = true →
      (value.getLsbD 30 = false → bootState s.dev c = 0 → ∃ d : Dev, exec (.bdmGo m c value) s = .next (s.withDev d)
        ∧ bootRun d c = some (bootStart s.dev c) ∧ fld d (BDM_CHc_STATUS_RESULT c) = 0)
      ∧ (value.getLsbD 30 = false → bootState s.dev c ≠ 0 → exec (.bdmGo m c value) s = .next s)
      ∧ (bootState s.dev c = 1 → ∃ d : Dev, exec (.bdmAbort m c value) s = .next (s.withDev d) ∧ bootRun d c = none
        ∧ fld d (BDM_CHc_STATUS_RESULT c) = brAborted))
    ∧ ∀ (c : Fin 4) (s : State),
      (bootState s.dev c ≠ 1 → exec (.bdmHop c) s = .next s)
      ∧ (bootState s.dev c = 1 → ∀ (cause : BusFault) (space : Fin 4) (addr : Word),
        exec (.bdmBusError c cause space addr) s = .next (s.withDev (bootBusError s.dev c cause space addr.toNat)))
      ∧ ∀ (b : BootRun) (h : Descriptor), bootState s.dev c = 1 → bootRun s.dev c = some b → b.space = 1 → domainOn s.dev 45 = true →
        domainOn s.dev 46 = true → h = descriptorOf (readDram s.mem b.addr 32) →
        (bootResult h ≠ 0 → exec (.bdmHop c) s = .next (s.withDev (endBoot s.dev c (bootResult h))))
        ∧ (bootResult h = 0 → bootSrc h = { space := .flash, addr := h.src, mode := .inc, width := bootWidth h } →
            bootDst h = { space := .dram, addr := h.dst, mode := .inc, width := bootWidth h } →
          ∃ t : State, exec (.bdmHop c) s = .next t ∧ readDram t.mem h.dst h.len = readFlash s.mem h.src h.len
            ∧ (h.link = false → bootRun t.dev c = none ∧ fld t.dev (BDM_CHc_STATUS_RESULT c) = brOk))

/-- Entry grants, domain switching, AVSBus, wakes, PLLs, alternate power and thermal stop: their commands. A unit that grants hands on to the next, one that refuses or is silent for GRANT_TO aborts the entry, changes no domain and is recorded. Retention keeps DRAM, with the flow cache written back to it, and endpoints; Keep loses the endpoints. An acknowledged entry reaches its target; one not acknowledged after three retries, in a wake, leaves the device asleep. A wake source begins a wake asleep, waits during an entry and does nothing awake. Three failed PLL attempts fail domain 54 and wakes to RUN are then refused. A completed wake clears the target and WAKE_FAIL. Thermal stop drives WAKE_FAIL_N. (20_power_states.md R359, R363, R364, R365, R366, R368, R369, R370, R371, R372, R374, 26_package_and_electrical.md R460) -/
def Obligations.PowerSequences : Prop :=
  (∀ (s : State) (k : Nat) (empty : Bool), s.dev.pwr.phase = .asking k → s.dev.pwr.target < 4 →
      (entryAnswer s.dev k = none → exec (.unitGrant empty) s = .next s)
      ∧ (entryAnswer s.dev k = some true → k < 10 → ∃ t : State, exec (.unitGrant empty) s = .next t ∧ t.dev.pwr.phase = .asking (k + 1))
      ∧ (∀ d : Dev, (entryAnswer s.dev k = some false ∧ exec (.unitGrant empty) s = .next (s.withDev d)
            ∨ entryAnswer s.dev k = none ∧ s.dev.pwr.since + fld s.dev PWR_GRANT_TO_GRANT_TO * ticksPerMs ≤ s.dev.elapsed
              ∧ exec .grantTimeout s = .next (s.withDev d)) →
          d.pwr.phase = .idle ∧ pwrState d = pwrState s.dev ∧ fld d PWR_STATUS_LAST_OUTCOME = outAborted ∧ fld d PWR_REFUSE_STEP = k % 16
            ∧ flag d PWR_REFUSE_TIMEOUT = (entryAnswer s.dev k).isNone ∧ rdn d PWR_ABORTS = min (rdn s.dev PWR_ABORTS + 1) 0xFFFFFFFF
            ∧ ∀ n : Nat, domainOn d n = domainOn s.dev n)
      ∧ (entryAnswer s.dev k = some false → exec (.unitGrant empty) s = .next (s.withDev (abortEntry s.dev k false))))
    ∧ (∀ s : State,
      (∀ (n : Nat) (ds : List Nat), n ∈ [32, 45, 46, 48, 54] → ds ≠ [] → s.dev.pwr.phase = .off (n :: ds) → ∃ t : State,
          exec .domainSwitchOff s = .next t ∧ t.dev.pwr.phase = .off ds ∧ domainOn t.dev n = false
            ∧ domainRetained t.dev n = staysRetained s.dev.pwr.target n
            ∧ (staysRetained s.dev.pwr.target n = true → t.dev.endpoints = s.dev.endpoints
              ∧ t.mem = if n ≠ 32 ∧ flowPowered s.dev = true then (writeBackAll s.dev s.mem).2 else s.mem)
            ∧ (n = 32 → s.dev.pwr.target = pwrKeep → t.dev.endpoints = []))
      ∧ (∀ (n m : Nat) (ds : List Nat), n ∈ [26, 27, 43, 44, 48, 50, 55] → s.dev.pwr.phase = .wakeOn (n :: m :: ds) →
          ∀ (tested : List Word) (faulty : List UnitIx) (segs : List (Fin 16)), ∃ d : Dev,
          exec (.domainSwitchOn tested faulty segs) s = .next (s.withDev d) ∧ d.pwr.phase = .wakeOn (m :: ds) ∧ domainOn d n = true))
    ∧ (∀ s : State,
      (s.dev.pwr.phase = .entryAvs → exec .avsAck s = .next (s.withDev (finishEntryTo s.dev outDone)))
      ∧ (s.dev.pwr.phase = .wakeAvs → ∃ d : Dev, exec .avsAck s = .next (s.withDev d) ∧ d.pwr.phase = .wakePll ∧ domainOn d 54 = true)
      ∧ (s.dev.pwr.phase = .wakeAvs → s.dev.pwr.since + 5000 ≤ s.dev.elapsed →
        (s.dev.pwr.tries < 3 → ∃ d : Dev, exec .avsTimeout s = .next (s.withDev d) ∧ d.pwr.phase = .wakeAvs ∧ d.pwr.tries = s.dev.pwr.tries + 1
          ∧ rdn d PWR_AVS_RETRY = min (rdn s.dev PWR_AVS_RETRY + 1) 0xFFFFFFFF)
        ∧ (3 ≤ s.dev.pwr.tries → ∃ d : Dev, exec .avsTimeout s = .next (s.withDev d) ∧ d.pwr.phase = .idle ∧ pwrState d = pwrState s.dev
          ∧ flag d PWR_STATUS_WAKE_FAIL = true ∧ flag d PWR_STATUS_SAFE = true ∧ fld d PWR_STATUS_LAST_OUTCOME = outWakeFailed
          ∧ rdn d PWR_WAKE_FAILS = min (rdn s.dev PWR_WAKE_FAILS + 1) 0xFFFFFFFF))
      ∧ (s.dev.pwr.phase = .wakePll →
        (∃ (d : Dev) (ds : List Nat), exec .pllLock s = .next (s.withDev d) ∧ d.pwr.phase = .wakeOn ds
          ∧ ∀ n : Nat, n ∈ ds ↔ n ∈ switched ∧ domainOn s.dev n = false ∧ requestedOff s.dev n = false)
        ∧ (2 ≤ s.dev.pwr.tries → s.dev.pwr.since + 5000 ≤ s.dev.elapsed → ∃ t : State, exec .pllTimeout s = .next t ∧ clockFailed t.dev = true
          ∧ domainOn t.dev 54 = false ∧ t.dev.pwr.phase = .idle ∧ pwrState t.dev = pwrState s.dev ∧ flag t.dev PWR_STATUS_WAKE_FAIL = true)))
    ∧ (∀ s : State, regBit s.dev PWR_WAKE_EN wakePin = true → s.dev.pwr.thermal = false →
      (pwrState s.dev = pwrHush → s.dev.pwr.phase = .idle →
        (clockFailed s.dev = false → ∃ d : Dev, exec (.wakeSource .wakeN) s = .next (s.withDev d) ∧ d.pwr.phase = .wakeAvs
          ∧ rdn d PWR_WAKE_SRC = 2 ^ wakePin ∧ flag d PWR_STATUS_TRANS = true)
        ∧ (clockFailed s.dev = true → exec (.wakeSource .wakeN) s = .next (s.withDev (count s.dev PWR_WAKE_REFUSED))))
      ∧ (entering s.dev = true → ∃ d : Dev, exec (.wakeSource .wakeN) s = .next (s.withDev d) ∧ d.pwr.phase = s.dev.pwr.phase
          ∧ bitOf d.pwr.pend wakePin = true ∧ flag d PWR_STATUS_WAKE_PEND = true)
      ∧ (entering s.dev = false → pwrState s.dev < 2 → exec (.wakeSource .wakeN) s = .next s))
    ∧ (∀ s : State, s.dev.pwr.phase = .wakeEnd → ∃ d : Dev, exec .wakeComplete s = .next (s.withDev d) ∧ flag d PWR_STATUS_WAKE_FAIL = false
      ∧ fld d PWR_STATUS_LAST_OUTCOME = outDone ∧ fldA d PWR_CTL_TARGET = 0)
    ∧ ∀ s : State,
      (∀ b : Bool, flag s.dev PWR_STATUS_PWR_ALT = b → exec (.pwrAltChange b) s = .next s)
      ∧ (∀ b : Bool, flag s.dev PWR_STATUS_PWR_ALT = !b → ∃ d : Dev, exec (.pwrAltChange b) s = .next (s.withDev d) ∧ flag d PWR_STATUS_PWR_ALT = b
          ∧ flag d PWR_STATUS_DYING_GASP = (b && flag s.dev PWR_WAKE_CFG_GASP_EN) ∧ d.pwr = s.dev.pwr)
      ∧ ∃ t : State, exec .thermalStop s = .next t ∧ flag t.dev PWR_STATUS_WAKE_FAIL = true

/-- Self-test slices, event counters, bandwidth windows and telemetry records: their commands. A slice runs on an eligible target, suspects before pending ones. A first mismatch retires nothing and marks a suspect; a second retires it. A service request or the budget ends a slice ABORTED. A restore ends it. A target without a round for 24 hours is overdue. An event counter never wraps; writing its selector or clearing it zeroes it and no other. A function without CNT_READ reads 0 and is counted. A window end latches every port in one tick and restarts. Once for each second boundary the test summary is made, and a record of 2,048 bytes, made when the other units have left their copies of the second, goes to its slot and SEQ advances; a write that fails ends telemetry. (21_self_test_and_repair.md R381, R382, R383, R384, R386, R387, 23_counters_and_telemetry.md R411, R414, R415, R416, R418, R419) -/
def Obligations.SlicesAndCounters : Prop :=
  (∀ (d : Dev) (t : Nat), pickTarget d = some t → t < 48 ∧ eligible d t = true
      ∧ ((∃ u : Nat, u < 48 ∧ eligible d u = true ∧ flag d (BST_TGTt_STATUS_SUSPECT u) = true) → flag d (BST_TGTt_STATUS_SUSPECT t) = true)
      ∧ ((∃ u : Nat, u < 48 ∧ eligible d u = true ∧ flag d (BST_TGTt_STATUS_PENDING u) = true) →
          flag d (BST_TGTt_STATUS_SUSPECT t) = true ∨ flag d (BST_TGTt_STATUS_PENDING t) = true))
    ∧ (∀ s : State, (flag s.dev BST_STATUS_RUNNING = true → exec .sliceStart s = .next s)
      ∧ ∀ t : Nat, flag s.dev BST_CFG_EN = true → domainOn s.dev 55 = true → flag s.dev BST_STATUS_RUNNING = false → pwrStopped s.dev 1 = false →
        pickTarget s.dev = some t → gapOver s.dev t = true → ∃ d : Dev, exec .sliceStart s = .next (s.withDev d) ∧ slicing d = some t
          ∧ fld d (BST_TGTt_STATUS_VERDICT t) = vdRunning)
    ∧ (∀ (s : State) (t : Fin 48) (sig : BitVec 64), slicing s.dev = some t.val →
      (∃ d : Dev, exec (.slicePatternsDone sig true) s = .next (s.withDev d) ∧ fld d (BST_TGTt_STATUS_VERDICT t) = vdPass
        ∧ flag d (BST_TGTt_STATUS_SUSPECT t) = false ∧ rdn d BST_FAIL = rdn s.dev BST_FAIL)
      ∧ (flag s.dev (BST_TGTt_STATUS_SUSPECT t) = false → ∃ d : Dev, exec (.slicePatternsDone sig false) s = .next (s.withDev d)
        ∧ flag d (BST_TGTt_STATUS_SUSPECT t) = true ∧ rdn d BST_FAIL = rdn s.dev BST_FAIL ∧ targetRetired d t = targetRetired s.dev t)
      ∧ (flag s.dev (BST_TGTt_STATUS_SUSPECT t) = true → t.val < 18 → ∃ d : Dev, exec (.slicePatternsDone sig false) s = .next (s.withDev d)
        ∧ targetRetired d t = true ∧ engineState d t = 2 ∧ rdn d BST_FAIL = min (rdn s.dev BST_FAIL + 1) 0xFFFFFFFF)
      ∧ (∃ d : Dev, exec (.serviceRequest t) s = .next (s.withDev d) ∧ fld d (BST_TGTt_STATUS_VERDICT t) = vdAborted ∧ slicing d = none
        ∧ fld d BST_LAST_CAUSE = cutService ∧ rdn d BST_SERVICE_ABORT = min (rdn s.dev BST_SERVICE_ABORT + 1) 0xFFFFFFFF
        ∧ rdn d BST_PASS = rdn s.dev BST_PASS)
      ∧ (s.dev.bst.beganAt + 12000 ≤ s.dev.elapsed → ∃ d : Dev, exec .sliceBudget s = .next (s.withDev d) ∧ slicing d = none
        ∧ fld d BST_LAST_CAUSE = cutBudget ∧ rdn d BST_BUDGET = min (rdn s.dev BST_BUDGET + 1) 0xFFFFFFFF)
      ∧ (s.dev.elapsed < s.dev.bst.beganAt + 12000 → exec .sliceBudget s = .next s))
    ∧ (∀ s : State,
      (flag s.dev BST_STATUS_RUNNING = true → fld s.dev BST_STATUS_PHASE = 3 → ∃ d : Dev, exec .sliceRestoreDone s = .next (s.withDev d)
        ∧ flag d BST_STATUS_RUNNING = false ∧ d.bst.endedAt = some s.dev.elapsed)
      ∧ (∃ d : Dev, exec .overdue s = .next (s.withDev d) ∧ ∀ t : Nat, t < 48 → flag d (BST_TGTt_STATUS_OVERDUE t)
          = (flag s.dev (BST_TGTt_STATUS_OVERDUE t) || decide (24 * ticksPerHour ≤ roundAge s.dev t)))
      ∧ (secMark s.dev secSummary = none → exec .bstSummary s = .next s)
      ∧ (secMark s.dev secSummary ≠ none → domainOn s.dev 55 = true → ∃ d : Dev, exec .bstSummary s = .next (s.withDev d)
          ∧ secMark d secSummary = none ∧ d.bst.summary.length = 36 ∧ d.bst.done = 0
          ∧ d.bst.cut = 0 ∧ d.regs = s.dev.regs))
    ∧ (∀ (d : Dev) (c n : Nat), c < 4096 → rdPair (cntAdd d c n) (CNT_VALc_LO c) (CNT_VALc_HI c)
        = min (rdPair d (CNT_VALc_LO c) (CNT_VALc_HI c) + n) 0xFFFFFFFFFFFFFFFF)
    ∧ (∀ (m : Master) (c : Fin 4096) (s : State),
      (∀ value : Word, admits s.dev m (CNT_SELc c).ofs = true → ∃ d : Dev, exec (.cntSelWrite m c value) s = .next (s.withDev d)
        ∧ rdPair d (CNT_VALc_LO c) (CNT_VALc_HI c) = 0 ∧ flag d (CNT_SELc_SAT c) = false ∧ fld d (CNT_SELc_MODE c) = getBits value 31 30)
      ∧ (admits s.dev m CNT_CTL.ofs = true →
        (∃ d : Dev, exec (.cntClear m c) s = .next (s.withDev d) ∧ rdPair d (CNT_VALc_LO c) (CNT_VALc_HI c) = 0 ∧ ∀ k : Nat, k < 4096 → k ≠ c.val →
          rdPair d (CNT_VALc_LO k) (CNT_VALc_HI k) = rdPair s.dev (CNT_VALc_LO k) (CNT_VALc_HI k))
        ∧ ∃ d : Dev, exec (.cntClearAll m) s = .next (s.withDev d) ∧ rdPair d (CNT_VALc_LO c) (CNT_VALc_HI c) = 0))
    ∧ (∀ (m : Master) (rel : Fin 0x100000) (s : State), m < 0x20 → hostReaches s.dev = true → rel.val % 4 = 0 →
      (m ≠ 0 → fld s.dev (HIF_FNf_RIGHTS_CNT_READ m) = 0 →
        exec (.cntRead m rel) s = .next (s.withDev (emit (count s.dev CNT_READ_DENIED) (.readData m (0x1400000 + rel) 0))))
      ∧ (m = 0 → ∃ (d : Dev) (w : Word), exec (.cntRead m rel) s = .next (s.withDev d) ∧ d.regs = s.dev.regs
          ∧ d.out = s.dev.out ++ [.readData m (0x1400000 + rel) w]))
    ∧ (∀ s : State, domainOn s.dev 53 = true → s.dev.host.bwStep = none →
      (s.dev.host.bwEnd ≤ now s.dev → ∃ d : Dev, exec .bwWindowEnd s = .next (s.withDev d) ∧ d.host.bw = []
        ∧ rdn d CNT_BW_END_SEC = s.dev.host.bwEnd / nsPerSec % 0x100000000 ∧ flag d CNT_BW_INFO_STEPPED = false
        ∧ (0 < s.dev.host.bwWin → now d < d.host.bwEnd)
        ∧ ∀ p : Nat, p < 66 → rdPair d (CNT_BWp_RX_LO p) (CNT_BWp_RX_HI p) = sget 0 s.dev.host.bw (2 * p) % 0x10000000000000000)
      ∧ (now s.dev < s.dev.host.bwEnd → exec .bwWindowEnd s = .next s))
    ∧ (∀ (s : State) (mw : BitVec 32) (temp : BitVec 16) (failed : Bool), secMark s.dev secTelemetry = none →
      exec (.telemetryRecord mw temp failed) s = .next s)
    ∧ ∀ (s : State) (e : Dev) (sec : Nat) (stepped : Bool) (mw : BitVec 32) (temp : BitVec 16), secMark s.dev secTelemetry = some (sec, stepped) →
      e = secondCopies s.dev → flag e CNT_CFG_TLM_EN = true → domainOn e 53 = true → domainOn e 47 = true →
      (∃ (d : Dev) (bs : List Byte), exec (.telemetryRecord mw temp false) s = .next (s.withDev d) ∧ bs.length = 2048
        ∧ rdn d CNT_TLM_SEQ = (rdn e CNT_TLM_SEQ + 1) % 0x100000000 ∧ secMark d secTelemetry = none ∧ slice bs 4 6 = leBytes 6 sec
        ∧ Out.hostWrite 0 (fld e CNT_TLM_BASE_LO_ADDR * 4096 + 0x100000000 * rdn e CNT_TLM_BASE_HI
            + 2048 * (rdn e CNT_TLM_SEQ % 2 ^ fld e CNT_TLM_CFG_TLM_LOG)) bs ∈ d.out)
      ∧ ∃ d : Dev, exec (.telemetryRecord mw temp true) s = .next (s.withDev d) ∧ flag d CNT_CFG_TLM_EN = false
        ∧ rdn d CNT_TLM_ERR = min (rdn e CNT_TLM_ERR + 1) 0xFFFFFFFF ∧ rdn d CNT_TLM_SEQ = rdn e CNT_TLM_SEQ

/-- The commands of the Course, the relay, the image store, activation and the configuration records. COURSE_LINK_CHANGE, COURSE_PDU_BAD, OTHER_COURSE_FRAME, RELAY_START, RELAY_BLOCK, RELAY_END, RELAY_ACK, RELAY_ACK_TIMER, RELAY_RESEND, RELAY_STALL, BLOCK_PROGRAMMED, RESCUE_REQ, RESCUE_RESP, ORIG_GO, PRELOAD, PRELOAD_DONE, SAVE, CONFIRM, ALIVE, HOST_LOCK_WRITE, ACT_CHECK_DONE, ACT_CORES_LOADED, NO_ALIVE and RECORD_COMPACT. A bad PDU is counted and freezes nobody. A relay starts with block 0 and goes out where R393 lets it; a block counts once, in order and with a good CRC; RELAY_END seals the store only with the image's CRC; aborts and stalls end the hop and are counted. A block is programmed at its place in the slot. A rescue access freezes the peer while a line is in service and is answered where it is not enabled. Preload copies the sealed image to DRAM. The rollback counter never falls, and rises to the running image's value on function 0's CONFIRM alone. HOST_LOCK follows function 0 alone. An activation ends with its outcome, and the cores run again. (22_firmware_update_and_course.md R389, R390, R393, R394, R395, R400, R401, R402, R403, R405, R406, R408) -/
def Obligations.FirmwareAndCourse : Prop :=
  (∀ (k : Fin 2) (s : State),
      (linkUp s.dev k = false → linkEnabled s.dev k = true → domainOn s.dev 27 = true →
        ∃ d : Dev, exec (.courseLinkChange k true) s = .next (s.withDev d) ∧ linkUp d k = true)
      ∧ (linkUp s.dev k = true → ∃ d : Dev, exec (.courseLinkChange k false) s = .next (s.withDev d) ∧ linkUp d k = false)
      ∧ (linkUp s.dev k = false → exec (.courseLinkChange k false) s = .next s)
      ∧ (∀ pdu : List Byte,
        (isFrozen s.dev (courseMaster k) = false → pduBad pdu = true → ∃ d : Dev, exec (.coursePduBad k pdu) s = .next (s.withDev d)
          ∧ rdn d CRS_PDU_BAD = min (rdn s.dev CRS_PDU_BAD + 1) 0xFFFFFFFF ∧ ∀ m : Master, m < 0x80 → isFrozen d m = isFrozen s.dev m)
        ∧ (isFrozen s.dev (courseMaster k) = true ∨ pduBad pdu = false → exec (.coursePduBad k pdu) s = .next s))
      ∧ exec (.otherCourseFrame k) s = .next (s.withDev (count s.dev CRS_RX_OTHER)))
    ∧ (∀ (k : Fin 2) (sender : BitVec 64) (image len : Word) (blocks : BitVec 16) (hops : BitVec 8) (store : Bool) (s : State),
      isFrozen s.dev (courseMaster k) = false → linkUp s.dev k = true →
      (lenGood len.toNat blocks.toNat = false → ∃ d : Dev, exec (.relayStart k sender image len blocks hops store) s = .next (s.withDev d)
        ∧ d.fwu = s.dev.fwu ∧ rdn d CRS_PDU_BAD = min (rdn s.dev CRS_PDU_BAD + 1) 0xFFFFFFFF)
      ∧ (lenGood len.toNat blocks.toNat = true → s.dev.fwu.relay.isSome = true →
        ∃ d : Dev, exec (.relayStart k sender image len blocks hops store) s = .next (s.withDev d) ∧ d.fwu = s.dev.fwu)
      ∧ (lenGood len.toNat blocks.toNat = true → s.dev.fwu.relay = none →
        ∃ (t : State) (r : Relay), exec (.relayStart k sender image len blocks hops store) s = .next t ∧ t.dev.fwu.relay = some r
          ∧ r.image = image.toNat ∧ r.len = len.toNat ∧ r.blocks = blocks.toNat ∧ r.src = some k.val ∧ r.next = 0
          ∧ r.dst = forwardLink s.dev (1 - k) (hops.toNat - 1) ∧ r.store = (store && flag s.dev CRS_CFG_STORE && !storeBarred s.dev)))
    ∧ (∀ (k : Fin 2) (s : State) (r : Relay), s.dev.fwu.relay = some r → r.src = some k.val → r.ended = none →
      (∀ (sender : BitVec 64) (image : Word) (block : BitVec 16) (data : List Byte) (crc : Word),
        (crc32Fsb (beBytes 2 block.toNat ++ data) = crc.toNat → image.toNat = r.image → block.toNat = r.next → r.next < r.blocks →
          r.next < freedTo r + 256 → ∃ (d : Dev) (q : Relay), exec (.relayBlock k sender image block data crc) s = .next (s.withDev d)
            ∧ d.fwu.relay = some q ∧ q.next = r.next + 1
            ∧ q.crc = crcOver 32 0x04C11DB7 r.crc (bytesBits (data.take (min blockSize (r.len - r.next * blockSize)))))
        ∧ (crc32Fsb (beBytes 2 block.toNat ++ data) ≠ crc.toNat →
          ∃ (d : Dev) (q : Relay), exec (.relayBlock k sender image block data crc) s = .next (s.withDev d) ∧ d.fwu.relay = some q
            ∧ q.next = r.next ∧ q.crc = r.crc ∧ rdn d CRS_BLK_BAD = min (rdn s.dev CRS_BLK_BAD + 1) 0xFFFFFFFF))
      ∧ (r.sinceAck ≠ 0 → r.acceptedAt + ticksPerMs ≤ s.dev.elapsed →
        ∃ d : Dev, exec .relayAckTimer s = .next (s.withDev d) ∧ d.fwu.relay = some { r with sinceAck := 0 })
      ∧ (r.heardAt + 5 * ticksPerSec ≤ s.dev.elapsed → ∃ d : Dev, exec .relayStall s = .next (s.withDev d) ∧ d.fwu.relay = none
        ∧ rdn d CRS_RELAY_ABORT = min (rdn s.dev CRS_RELAY_ABORT + 1) 0xFFFFFFFF)
      ∧ (∀ j : Nat, r.dst = some j → r.advancedAt + ticksPerSec ≤ s.dev.elapsed → r.acked < r.blocks →
        (r.resends < 5 → ∃ (d : Dev) (q : Relay), exec .relayResend s = .next (s.withDev d) ∧ d.fwu.relay = some q
          ∧ q.resends = r.resends + 1 ∧ q.acked = r.acked ∧ q.dst = r.dst)
        ∧ (5 ≤ r.resends → ∃ (d : Dev) (q : Relay), exec .relayResend s = .next (s.withDev d) ∧ d.fwu.relay = some q ∧ q.dst = none
          ∧ q.next = r.next ∧ rdn d CRS_RELAY_ABORT = min (rdn s.dev CRS_RELAY_ABORT + 1) 0xFFFFFFFF))
      ∧ (∀ (sender : BitVec 64) (image : Word) (next : BitVec 16) (code : BitVec 8), image.toNat = r.image →
        (code = 3 → isFrozen s.dev (courseMaster k) = false → ∃ d : Dev, exec (.relayAck k sender image next code) s = .next (s.withDev d)
          ∧ d.fwu.relay = none ∧ rdn d CRS_RELAY_ABORT = min (rdn s.dev CRS_RELAY_ABORT + 1) 0xFFFFFFFF)
        ∧ ∀ j : Fin 2, j ≠ k → r.dst = some j.val → code ≠ 3 → isFrozen s.dev (courseMaster j) = false →
          ∃ (d : Dev) (q : Relay), exec (.relayAck j sender image next code) s = .next (s.withDev d) ∧ d.fwu.relay = some q
            ∧ q.acked = max r.acked (min next.toNat r.sent) ∧ q.dst = r.dst)
      ∧ (r.store = true → r.programmed < r.next →
        (∀ data : List Byte, data = (blockData s.dev s.mem r r.programmed).take (min blockSize (r.len - r.programmed * blockSize)) →
          ∃ (t : State) (q : Relay), exec (.blockProgrammed true) s = .next t ∧ t.dev.fwu.relay = some q ∧ q.programmed = r.programmed + 1
            ∧ q.good = r.good ∧ readFlash t.mem (slotBase (inactiveSlot s.dev) + r.programmed * blockSize) data.length = data)
        ∧ ∃ (t : State) (q : Relay), exec (.blockProgrammed false) s = .next t ∧ t.dev.fwu.relay = some q ∧ q.programmed = r.programmed + 1
            ∧ q.good = false)
      ∧ (∀ (sender : BitVec 64) (image crc : Word), isFrozen s.dev (courseMaster k) = false → r.image = image.toNat → r.next = r.blocks →
        r.programmed = r.blocks → r.store = true →
        (r.good = true → r.crc ^^^ 0xFFFFFFFF = crc.toNat → ∃ (t : State) (q : Seal), exec (.relayEnd k sender image crc) s = .next t
          ∧ sealOf t.mem (inactiveSlot s.dev) = some q ∧ q.image = image.toNat ∧ q.crc = crc.toNat ∧ q.activated = false ∧ q.rejected = false
          ∧ t.mem.dram = s.mem.dram ∧ t.mem.core = s.mem.core ∧ (r.dst = none → t.dev.fwu.relay = none))
        ∧ (r.good = false ∨ r.crc ^^^ 0xFFFFFFFF ≠ crc.toNat → ∃ d : Dev, exec (.relayEnd k sender image crc) s = .next (s.withDev d)
          ∧ rdn d FWU_STORE_FAIL = min (rdn s.dev FWU_STORE_FAIL + 1) 0xFFFFFFFF)))
    ∧ (∀ (k : Fin 2) (sender target : BitVec 64) (hops : BitVec 8) (tag : BitVec 16) (ofs value : Word) (s : State),
      isFrozen s.dev (courseMaster k) = false → linkUp s.dev k = true → forThis s.dev target = true →
      (∀ write : Bool, flag s.dev CRS_CFG_RESCUE_EN = false → ∃ (d : Dev) (b : List Byte),
          exec (.rescueReq k sender target hops write tag ofs value) s = .next (s.withDev d) ∧ d.out = s.dev.out ++ [.course k b]
            ∧ ∀ m : Master, m < 0x80 → isFrozen d m = isFrozen s.dev m)
      ∧ (∀ write : Bool, flag s.dev CRS_CFG_RESCUE_EN = true → (announces s.dev .a = true ∨ announces s.dev .b = true) →
          ∃ d : Dev, exec (.rescueReq k sender target hops write tag ofs value) s = .next (s.withDev d) ∧ isFrozen d (courseMaster k) = true)
      ∧ ∀ status : BitVec 8, exec (.rescueResp k sender target hops status tag ofs value) s = .next (s.withDev (heard s.dev k sender)))
    ∧ (∀ (m : Master) (value : Word) (s : State), admits s.dev m FWU_CTL.ofs = true →
      (value &&& 0xE8000000 = 0 →
        (m ≠ 0 → exec (.origGo m value) s = .next s)
        ∧ (m = 0 → s.dev.fwu.relay = none → 0 < rdn s.dev FWU_ORIG_LEN →
            (forwardLink s.dev (fld s.dev FWU_CFG_ORIG_DIR) (fld s.dev CRS_CFG_HOPS)).isSome = true →
            ∃ (t : State) (r : Relay), exec (.origGo m value) s = .next t ∧ t.dev.fwu.relay = some r ∧ r.src = none
              ∧ r.len = rdn s.dev FWU_ORIG_LEN ∧ r.blocks = ceilDiv r.len blockSize ∧ r.dst = some (fld s.dev FWU_CFG_ORIG_DIR)))
      ∧ (value &&& 0xB8000000 = 0 →
        (s.dev.fwu.preloading = none → flag s.dev FWU_STATUS_ACTIVATING = false → ∃ d : Dev, exec (.preload m value) s = .next (s.withDev d)
          ∧ d.fwu.preloading = some (inactiveSlot s.dev) ∧ flag d FWU_STATUS_PRELOADED = false)
        ∧ (s.dev.fwu.preloading.isSome = true ∨ flag s.dev FWU_STATUS_ACTIVATING = true → exec (.preload m value) s = .next s))
      ∧ (value &&& 0xD8000000 = 0 →
        (coresHalted s.dev = true → ∃ d : Dev, exec (.save m value) s = .next (s.withDev d) ∧ d.fwu.saveWait = true ∧ d.regs = s.dev.regs)
        ∧ ∃ t : State, exec (.save m value) s = .next t ∧ t.mem.dram = s.mem.dram ∧ t.mem.core = s.mem.core)
      ∧ (value &&& 0x78000000 = 0 → ∃ d : Dev, exec (.confirm m value) s = .next (s.withDev d)
        ∧ fld s.dev FWU_STATUS_ROLLBACK ≤ fld d FWU_STATUS_ROLLBACK
        ∧ (m ≠ 0 → d = s.dev)
        ∧ (m = 0 → flag s.dev PWR_STATUS_PWR_ALT = false → flag s.dev FWU_STATUS_RECOVERY = false →
            fld d FWU_STATUS_ROLLBACK = max (fld s.dev FWU_STATUS_ROLLBACK) (imgRollback (runningImage s.dev s.mem))))
      ∧ (value &&& 0xF0000000 = 0 →
        (flag s.dev FWU_STATUS_ACTIVATING = true → s.dev.fwu.actLoaded = true → 0x64 ≤ m → m < 0x68 → ∃ t : State, exec (.alive m value) s = .next t
          ∧ (t.dev, t.mem) = applyDue (actAlive s.dev s.mem))
        ∧ ((flag s.dev FWU_STATUS_ACTIVATING = false ∨ m < 0x64) → s.dev.fwu.recordsDue = false → exec (.alive m value) s = .next s)))
    ∧ (∀ (s : State) (slot : Nat), s.dev.fwu.preloading = some slot →
      (sealOf s.mem slot = none → ∃ d : Dev, exec .preloadDone s = .next (s.withDev d) ∧ d.fwu.preloading = none ∧ d.regs = s.dev.regs)
      ∧ (∀ (q : Seal) (n : Nat), sealOf s.mem slot = some q → n = min q.len maxImage → ∃ t : State, exec .preloadDone s = .next t
        ∧ t.dev.fwu.preloading = none ∧ t.mem.flash = s.mem.flash ∧ readDram t.mem (fwuArea s.dev) n = readFlash s.mem (slotBase slot) n
        ∧ (crc32Fsb (readFlash s.mem (slotBase slot) n) = q.crc → flag t.dev FWU_STATUS_PRELOADED = true ∧ t.dev.fwu.preSlot = slot)
        ∧ (crc32Fsb (readFlash s.mem (slotBase slot) n) ≠ q.crc → t.dev.regs = s.dev.regs)))
    ∧ (∀ (m : Master) (value : Word) (s : State), admits s.dev m FWU_CFG.ofs = true → ∃ d : Dev, exec (.hostLockWrite m value) s = .next (s.withDev d)
      ∧ hostLock d = if m = 0 then value.getLsbD 31 else hostLock s.dev)
    ∧ (∀ s : State, flag s.dev FWU_STATUS_ACTIVATING = true →
      (s.dev.fwu.actLoaded = false → ∃ (t : State) (n : Nat), exec .actCoresLoaded s = .next t
        ∧ n = imgCoreLen (dramImage s.mem (fwuArea s.dev))
        ∧ match imageFault s.dev (dramImage s.mem (fwuArea s.dev)) true with
          | some _ => t = s
          | none => exec .actCheckDone s = .next s ∧ t.dev.fwu.actLoaded = true
              ∧ readCore t.mem 0 n = dramImage s.mem (fwuArea s.dev) 1024 n)
      ∧ (s.dev.rngHw.a.waiting = [] → s.dev.rngHw.b.waiting = [] → s.dev.fwu.saveWait = false → s.dev.frzReport = false →
        s.dev.fwu.coreHeld = none → s.dev.fwu.actSlot < 2 →
        (∀ c : Nat, s.dev.fwu.actLoaded = false → imageFault s.dev (dramImage s.mem (fwuArea s.dev)) true = some c → ∃ t : State,
          exec .actCheckDone s = .next t ∧ t.dev.corePause = false ∧ flag t.dev FWU_STATUS_ACTIVATING = false
            ∧ fld t.dev FWU_STATUS_LAST_ACT = 3 ∧ fld t.dev FWU_STATUS_CHECK = c
            ∧ rdn t.dev FWU_CHECK_FAIL = min (rdn s.dev FWU_CHECK_FAIL + 1) 0xFFFFFFFF)
        ∧ (s.dev.fwu.actFrom + (25 + fld s.dev FWU_CFG_ALIVE_MS) * ticksPerMs ≤ s.dev.elapsed → ∃ t : State, exec .noAlive s = .next t
          ∧ t.dev.corePause = false ∧ flag t.dev FWU_STATUS_ACTIVATING = false ∧ fld t.dev FWU_STATUS_LAST_ACT = 4
          ∧ fld t.dev FWU_STATUS_CHECK = 6))
      ∧ (s.dev.elapsed < s.dev.fwu.actFrom + (25 + fld s.dev FWU_CFG_ALIVE_MS) * ticksPerMs → exec .noAlive s = .next s))
    ∧ ∀ s : State,
      (needsCompact s.mem = false ∨ coresHalted s.dev = true → exec .recordCompact s = .next s)
      ∧ (∀ k : Nat, needsCompact s.mem = true → coresHalted s.dev = false → oldestSector s.mem = some k → ∃ t : State, exec .recordCompact s = .next t
        ∧ t.dev = count s.dev FWU_COMPACT ∧ sectorErased t.mem k = true ∧ t.mem.dram = s.mem.dram ∧ t.mem.core = s.mem.core)

/-- PORST, VDD_AO_LOSS, RESET_N, SYSTEM, CORE, FUNCTION_RESET, WDT_EXPIRE, KICK, BOOT_DONE, BOOT_RELEASE_TIMEOUT, HOME_WAIT_EXPIRE, I2C_ABANDON and JTAG_INSTRUCTION. A COLD reset clears device time, commits, freezes, DRAM and the core memories and keeps flash, the serial number and the rollback counter. A SYSTEM reset keeps device time and flash, discards commits, and is counted; a write of RST_CTL without the confirmation does nothing. A CORE reset loads the cores from the running image, and waits while ACTIVATING. A FUNCTION reset disables every ring, cancels the functions' commits, ends a halt, releases every function and DMA channel and leaves time and lines alone. The watchdog that expires is counted and resets the cores; KICK starts it again. BOOT_DONE in step 7, or the second that has passed, releases the device. The home preference ends when its wait is over. An abandoned transaction changes nothing, and the TAP takes the pins only while RESET_N is low. (24_start_up_and_reset.md R423, R424, R425, R426, R427, R428, R431, R433, 25_guarantees_and_input_policing.md R441, R442) -/
def Obligations.StartUpAndReset : Prop :=
  (∀ (s : State) (c : Instr) (src : Nat), (c = .porst ∧ src = 0 ∨ c = .vddAoLoss ∧ src = 1) → ∃ t : State, exec c s = .next t
      ∧ t.pending = s.pending ∧ t.mem.dram = [] ∧ t.mem.core = [] ∧ t.mem.flash = s.mem.flash ∧ t.dev.clock.units = 0 ∧ t.dev.commits = []
      ∧ fld t.dev RST_CAUSE_KIND = 0 ∧ fld t.dev RST_CAUSE_SOURCE = src ∧ fld t.dev RST_STATUS_PHASE = 0
      ∧ flag t.dev RST_STATUS_RELEASED = false ∧ rdn t.dev RNG_SN_LO = rdn s.dev RNG_SN_LO ∧ rdn t.dev RNG_SN_HI = rdn s.dev RNG_SN_HI
      ∧ fld t.dev FWU_STATUS_ROLLBACK = fld s.dev FWU_STATUS_ROLLBACK ∧ t.dev.fwu.keyDigest = s.dev.fwu.keyDigest
      ∧ (∀ x : Line, termState t.dev x = stListen) ∧ ∀ m : Master, m < 0x80 → isFrozen t.dev m = false)
    ∧ (∀ s : State, (s.dev.pwr.thermal = true ∨ bootPhase s.dev = 0 → exec .resetN s = .next s)
      ∧ ∀ (c : Instr) (src : Nat), (c = .resetN ∧ src = 2
          ∨ ∃ (m : Master) (value : Word), c = .systemWrite m value ∧ getBits value 15 0 = 0xA5C3 ∧ admits s.dev m RST_CTL.ofs = true
              ∧ (m = 0 ∧ src = 3 ∨ m = i2cMaster ∧ src = 4)) →
        s.dev.pwr.thermal = false → bootPhase s.dev ≠ 0 → ∃ t : State, exec c s = .next t ∧ t.pending = s.pending ∧ t.dev.clock = s.dev.clock
          ∧ t.dev.elapsed = s.dev.elapsed ∧ t.dev.ttd.touts = s.dev.ttd.touts ∧ t.dev.commits = [] ∧ t.mem.dram = [] ∧ t.mem.core = []
          ∧ t.mem.flash = s.mem.flash ∧ fld t.dev RST_CAUSE_KIND = 1 ∧ fld t.dev RST_CAUSE_SOURCE = src ∧ bootPhase t.dev = 1
          ∧ flag t.dev RST_STATUS_RELEASED = false ∧ rdn t.dev RST_SYSTEM = min (rdn s.dev RST_SYSTEM + 1) 0xFFFFFFFF
          ∧ (∀ x : Line, flag t.dev (RNG_Lx_STATUS_STOP_LATCH x.ix) = flag s.dev (RNG_Lx_STATUS_STOP_LATCH x.ix))
          ∧ ∀ m : Master, m < 0x80 → isFrozen t.dev m = false)
    ∧ (∀ (m : Master) (value : Word) (s : State), admits s.dev m RST_CTL.ofs = true →
      (getBits value 15 0 ≠ 0xA5C3 → exec (.systemWrite m value) s = .next s ∧ exec (.coreWrite m value) s = .next s)
      ∧ (resetSource m true = none → exec (.systemWrite m value) s = .next s)
      ∧ ∀ src : Nat, getBits value 15 0 = 0xA5C3 → resetSource m false = some src →
        (flag s.dev FWU_STATUS_ACTIVATING = true → ∃ d : Dev, exec (.coreWrite m value) s = .next (s.withDev d) ∧ d.fwu.coreHeld = some src
          ∧ d.regs = s.dev.regs)
        ∧ (flag s.dev FWU_STATUS_ACTIVATING = false → s.dev.corePause = false → domainOn s.dev 49 = true → ∃ (t : State) (n : Nat),
          exec (.coreWrite m value) s = .next t ∧ fld t.dev RST_CAUSE_KIND = 3 ∧ fld t.dev RST_CAUSE_SOURCE = src
            ∧ rdn t.dev RST_CORE = min (rdn s.dev RST_CORE + 1) 0xFFFFFFFF ∧ t.mem.dram = s.mem.dram ∧ t.mem.flash = s.mem.flash
            ∧ n = imgCoreLen (runningImage s.dev s.mem) ∧ readCore t.mem 0 n = runningImage s.dev s.mem 1024 n
            ∧ t.dev.clock = s.dev.clock ∧ ∀ x : Line, termState t.dev x = termState s.dev x))
    ∧ (∀ s : State, (hostReaches s.dev = false → exec .functionReset s = .next s)
      ∧ (hostReaches s.dev = true → ∃ d : Dev, exec .functionReset s = .next (s.withDev d) ∧ d.clock = s.dev.clock ∧ d.host.chans = []
        ∧ flag d DMA_STATUS_HALTED = false ∧ fld d RST_CAUSE_KIND = 2 ∧ fld d RST_CAUSE_SOURCE = 7
        ∧ rdn d RST_FUNCTION = min (rdn s.dev RST_FUNCTION + 1) 0xFFFFFFFF ∧ (∀ m : Master, m < 0x60 → isFrozen d m = false)
        ∧ (∀ r : Nat, r < 1024 → ringOwner d r = 0 ∧ fld d (HIF_Rr_STATUS_STATE r) = ringDisabled ∧ ringHw d r = RingHw.reset)
        ∧ (∀ f : Nat, f < 32 → rd d (HIF_FNf_RIGHTS f) = (HIF_FNf_RIGHTS f).rst)
        ∧ (∀ c ∈ d.commits, 0x20 ≤ posterMaster c.poster) ∧ ∀ x : Line, termState d x = termState s.dev x))
    ∧ (∀ s : State,
      (timerOver s.dev .wdt = true → flag s.dev RST_WDT_EN = true → flag s.dev FWU_STATUS_ACTIVATING = false →
        ∃ t : State, exec .wdtExpire s = .next t ∧ rdn t.dev RST_WDT_EXPIRE = min (rdn s.dev RST_WDT_EXPIRE + 1) 0xFFFFFFFF
          ∧ t.mem.dram = s.mem.dram ∧ t.mem.flash = s.mem.flash
          ∧ (s.dev.corePause = false → domainOn s.dev 49 = true → fld t.dev RST_CAUSE_KIND = 3 ∧ fld t.dev RST_CAUSE_SOURCE = 6
              ∧ rdn t.dev RST_CORE = min (rdn s.dev RST_CORE + 1) 0xFFFFFFFF))
      ∧ (timerOver s.dev .wdt = false ∨ flag s.dev RST_WDT_EN = false ∨ flag s.dev FWU_STATUS_ACTIVATING = true →
          exec .wdtExpire s = .next s)
      ∧ ∀ (m : Master) (value : Word), admits s.dev m RST_WDT.ofs = true → value.getLsbD 31 = true → flag s.dev FWU_STATUS_ACTIVATING = false →
        ∃ d : Dev, exec (.kick m value) s = .next (s.withDev d) ∧ flag d RST_WDT_EN = true
          ∧ (TimerId.wdt, s.dev.elapsed + fld d RST_WDT_WDT_MS * ticksPerMs) ∈ d.timers)
    ∧ (∀ s : State,
      (∀ (m : Master) (value : Word), admits s.dev m RST_FW_DONE.ofs = true →
        (value.getLsbD 31 = true → 0x64 ≤ m → m < 0x68 → bootPhase s.dev = 6 → ∃ d : Dev, exec (.bootDone m value) s = .next (s.withDev d)
          ∧ flag d RST_STATUS_RELEASED = true ∧ bootPhase d = 7
          ∧ rdn d RST_BOOT_MS = (s.dev.elapsed - s.dev.bootFrom) / ticksPerMs % 0x100000000
          ∧ (flag s.dev (RNG_Lx_CTL_REG_EN 0) = true → fld s.dev RST_HOME_CFG_HOME_WAIT ≠ 0 → flag d RST_STATUS_HOME_RUN = true)
          ∧ (flag s.dev (RNG_Lx_CTL_REG_EN 0) = false → flag d RST_STATUS_HOME_RUN = false))
        ∧ (value.getLsbD 31 = false ∨ m < 0x64 ∨ bootPhase s.dev ≠ 6 → exec (.bootDone m value) s = .next s))
      ∧ (timerOver s.dev .bootRelease = true → bootPhase s.dev = 5 ∨ bootPhase s.dev = 6 → ∃ d : Dev,
          exec .bootReleaseTimeout s = .next (s.withDev d) ∧ flag d RST_STATUS_RELEASED = true ∧ bootPhase d = 7
            ∧ flag d RST_STATUS_NO_FW = (fld s.dev RST_STATUS_BOOT_SLOT == 3))
      ∧ (timerOver s.dev .homeWait = true → homeRun s.dev = true → ∃ e : Dev, exec .homeWaitExpire s = .next (s.withDev e)
          ∧ homeRun e = false ∧ regBit e RST_EVT rsHomeEnd = true
          ∧ (hasActive s.dev = false → termState s.dev .b = stStandby → isActive e .b = true ∧ termState e .b = stOperate))
      ∧ (timerOver s.dev .homeWait = false → exec .homeWaitExpire s = .next s))
    ∧ ∀ s : State, exec .i2cAbandon s = .next s
      ∧ ∀ (i : JtagInstr) (low : Bool), ∃ d : Dev, exec (.jtagInstruction i low) s = .next (s.withDev d)
        ∧ d = { s.dev with jtag := d.jtag } ∧ (takesPins d.jtag = true → low = true ∧ d.jtag = i)
        ∧ (takesPins i = true → low = true → d.jtag = i)
end

