-- ==== Sys2Proof/Laws/Sparse.lean ====
section
/-!
SUPPORT. Laws/Sparse.lean: reading after writing a sparse table, and its canonical form.
-/

namespace Sys2Proof.Machine

variable {α : Type}

theorem sget_sdrop_same (d : α) (m : Sparse α) (k : Nat) : sget d (sdrop k m) k = d := by
  induction m with
  | nil => rfl
  | cons e t ih =>
    obtain ⟨a, v⟩ := e
    by_cases h : a = k <;> simp [sdrop, sget, h, ih]

theorem sget_sdrop_other (d : α) (m : Sparse α) {k j : Nat} (h : j ≠ k) : sget d (sdrop k m) j = sget d m j := by
  induction m with
  | nil => rfl
  | cons e t ih =>
    obtain ⟨a, v⟩ := e
    by_cases ha : a = k
    · have : a ≠ j := fun e => h (e ▸ ha)
      simp [sdrop, sget, ha, ih]
      intro e; exact absurd e.symm h
    · simp [sdrop, sget, ha, ih]

theorem sget_sins_same (d : α) (m : Sparse α) (k : Nat) (v : α) (h : ∀ e ∈ m, e.1 ≠ k) : sget d (sins k v m) k = v := by
  induction m with
  | nil => simp [sins, sget]
  | cons e t ih =>
    obtain ⟨a, w⟩ := e
    by_cases ha : a < k
    · have : a ≠ k := Nat.ne_of_lt ha
      simp [sins, sget, ha, this]
      exact ih (fun e he => h e (List.mem_cons_of_mem _ he))
    · simp [sins, sget, ha]

theorem sget_sins_other (d : α) (m : Sparse α) {k j : Nat} (v : α) (h : j ≠ k) : sget d (sins k v m) j = sget d m j := by
  induction m with
  | nil => simp [sins, sget, Ne.symm h]
  | cons e t ih =>
    obtain ⟨a, w⟩ := e
    by_cases ha : a < k
    · simp [sins, sget, ha, ih]
    · simp [sins, sget, ha, Ne.symm h]

theorem sdrop_keys (m : Sparse α) (k : Nat) : ∀ e ∈ sdrop k m, e.1 ≠ k := by
  induction m with
  | nil => simp [sdrop]
  | cons e t ih =>
    obtain ⟨a, v⟩ := e
    by_cases ha : a = k
    · simpa [sdrop, ha] using ih
    · intro e he
      simp [sdrop, ha] at he
      rcases he with rfl | he
      · exact ha
      · exact ih e he

@[simp] theorem sget_sput_same [DecidableEq α] (d : α) (m : Sparse α) (k : Nat) (v : α) : sget d (sput d m k v) k = v := by
  unfold sput
  split
  · rw [sget_sdrop_same]; exact Eq.symm ‹_›
  · exact sget_sins_same d _ k v (sdrop_keys m k)

theorem sget_sput_other [DecidableEq α] (d e : α) (m : Sparse α) {k j : Nat} (v : α) (h : j ≠ k) :
    sget d (sput e m k v) j = sget d m j := by
  unfold sput
  split
  · exact sget_sdrop_other d m h
  · rw [sget_sins_other d _ v h, sget_sdrop_other d m h]

/-! ### The canonical form -/

theorem risingFrom_mono {m : Sparse α} {a b : Nat} (h : a ≤ b) (hm : risingFrom b m = true) : risingFrom a m = true := by
  cases m with
  | nil => rfl
  | cons e t =>
    obtain ⟨k, v⟩ := e
    simp [risingFrom] at *
    exact ⟨Nat.le_trans h hm.1, hm.2⟩

theorem risingFrom_sdrop {m : Sparse α} {n k : Nat} (h : risingFrom n m = true) : risingFrom n (sdrop k m) = true := by
  induction m generalizing n with
  | nil => rfl
  | cons e t ih =>
    obtain ⟨a, v⟩ := e
    simp [risingFrom] at h
    by_cases ha : a = k
    · simp [sdrop, ha]
      exact risingFrom_mono (Nat.le_succ_of_le (ha ▸ h.1)) (ha ▸ ih h.2)
    · simp [sdrop, ha, risingFrom, h.1]
      exact ih h.2

theorem risingFrom_sins {m : Sparse α} {n k : Nat} {v : α} (hk : n ≤ k) (h : risingFrom n m = true) (hn : ∀ e ∈ m, e.1 ≠ k) :
    risingFrom n (sins k v m) = true := by
  induction m generalizing n with
  | nil => simp [sins, risingFrom, hk]
  | cons e t ih =>
    obtain ⟨a, w⟩ := e
    simp [risingFrom] at h
    have hak : a ≠ k := hn (a, w) (by simp)
    by_cases ha : a < k
    · simp [sins, ha, risingFrom, h.1]
      exact ih ha h.2 (fun e he => hn e (List.mem_cons_of_mem _ he))
    · have : k + 1 ≤ a := Nat.lt_of_le_of_ne (Nat.le_of_not_lt ha) (Ne.symm hak)
      simp [sins, ha, risingFrom, hk, this, h.2]

theorem sins_all {m : Sparse α} {k : Nat} {v : α} {p : Nat × α → Bool} (hv : p (k, v) = true) (h : m.all p = true) :
    (sins k v m).all p = true := by
  induction m with
  | nil => simp [sins, hv]
  | cons e t ih =>
    obtain ⟨a, w⟩ := e
    simp at h
    by_cases ha : a < k
    · simp [sins, ha, h.1]
      simpa using ih (by simpa using h.2)
    · simp [sins, ha, hv, h.1]
      simpa using h.2

theorem sdrop_all {m : Sparse α} {k : Nat} {p : Nat × α → Bool} (h : m.all p = true) : (sdrop k m).all p = true := by
  induction m with
  | nil => rfl
  | cons e t ih =>
    obtain ⟨a, w⟩ := e
    simp at h
    by_cases ha : a = k
    · simp [sdrop, ha]; simpa using ih (by simpa using h.2)
    · simp [sdrop, ha, h.1]; simpa using ih (by simpa using h.2)

/-- A write keeps the canonical form. -/
theorem swf_sput [DecidableEq α] {d : α} {m : Sparse α} {k : Nat} {v : α} (h : swf d m = true) : swf d (sput d m k v) = true := by
  simp only [swf, Bool.and_eq_true] at h ⊢
  unfold sput
  split
  · exact ⟨risingFrom_sdrop h.1, sdrop_all h.2⟩
  · next hv =>
    exact ⟨risingFrom_sins (Nat.zero_le k) (risingFrom_sdrop h.1) (sdrop_keys m k), sins_all (by simp [hv]) (sdrop_all h.2)⟩

theorem risingFrom_filter {m : Sparse α} {n : Nat} {p : Nat × α → Bool} (h : risingFrom n m = true) :
    risingFrom n (m.filter p) = true := by
  induction m generalizing n with
  | nil => rfl
  | cons e t ih =>
    obtain ⟨a, w⟩ := e
    simp [risingFrom] at h
    by_cases hp : p (a, w)
    · simp [List.filter, hp, risingFrom, h.1]; exact ih h.2
    · simp [List.filter, hp]
      have := ih (n := a + 1) h.2
      cases hf : t.filter p with
      | nil => rfl
      | cons f u =>
        rw [hf] at this
        simp [risingFrom] at this ⊢
        exact ⟨Nat.le_trans h.1 (Nat.le_trans (Nat.le_succ a) this.1), this.2⟩

/-- Removing entries keeps the canonical form. -/
theorem swf_filter [DecidableEq α] {d : α} {m : Sparse α} {p : Nat × α → Bool} (h : swf d m = true) : swf d (m.filter p) = true := by
  simp only [swf, Bool.and_eq_true] at h ⊢
  refine ⟨risingFrom_filter h.1, ?_⟩
  have := h.2
  simp only [List.all_eq_true] at this ⊢
  intro e he
  exact this e (List.mem_filter.mp he).1

end Sys2Proof.Machine
end

