-- ==== Sys2Proof/Laws/Regs.lean ====
section
/-!
SUPPORT. Laws/Regs.lean: what a read of a register gives after a write of a register, a field or a flag.
-/

namespace Sys2Proof.Machine

/-! ### Bits of a word -/

theorem getBits_putBits_same (w : Word) {hi lo : Nat} (v : Nat) (h : hi < 32) (hl : lo ≤ hi) :
    getBits (putBits w hi lo v) hi lo = v % 2 ^ (hi - lo + 1) := by
  unfold getBits putBits maskBits
  have e : BitVec.extractLsb' lo (hi - lo + 1)
      (w &&& ~~~ ((BitVec.allOnes (hi - lo + 1)).setWidth 32 <<< lo) ||| (BitVec.ofNat (hi - lo + 1) v).setWidth 32 <<< lo)
      = BitVec.ofNat (hi - lo + 1) v := by
    ext i hi'
    have h1 : lo + i < 32 := by omega
    have h2 : ¬ lo + i < lo := by omega
    simp [h1, h2, hi']
  rw [e]; simp

theorem getBits_putBits_other (w : Word) {hi lo a b : Nat} (v : Nat) (h : a < lo ∨ hi < b) (hb : b ≤ a) (hl : lo ≤ hi) :
    getBits (putBits w hi lo v) a b = getBits w a b := by
  unfold getBits putBits maskBits
  congr 1
  ext i hi'
  by_cases h1 : b + i < 32
  · by_cases h2 : b + i < lo
    · simp [h1, h2]
    · have h3 : hi - lo + 1 ≤ b + i - lo := by omega
      simp [h1, h2, BitVec.getLsbD_of_ge _ _ h3]
  · simp [BitVec.getLsbD_of_ge, Nat.le_of_not_lt h1]

/-! ### Registers and fields -/

@[simp] theorem rd_wr_same (d : Dev) (r : Reg) (w : Word) : rd (wr d r w) r = w := by simp [rd, wr]

theorem rd_wr_other (d : Dev) {r q : Reg} (w : Word) (h : q.ofs ≠ r.ofs) : rd (wr d r w) q = rd d q := by
  simp [rd, wr, sget_sput_other _ _ _ _ h]

theorem rd_wrn_same (d : Dev) (r : Reg) (n : Nat) : rd (wrn d r n) r = BitVec.ofNat 32 n := by simp [wrn]

theorem rd_wrn_other (d : Dev) {r q : Reg} (n : Nat) (h : q.ofs ≠ r.ofs) : rd (wrn d r n) q = rd d q := rd_wr_other d _ h

theorem rd_setFld_other (d : Dev) {f : Fld} {q : Reg} (n : Nat) (h : q.ofs ≠ f.reg.ofs) : rd (setFld d f n) q = rd d q :=
  rd_wr_other d _ h

theorem rd_setFlag_other (d : Dev) {f : Fld} {q : Reg} (b : Bool) (h : q.ofs ≠ f.reg.ofs) : rd (setFlag d f b) q = rd d q :=
  rd_wr_other d _ h

theorem rd_setRegBit_other (d : Dev) {r q : Reg} (b : Nat) (v : Bool) (h : q.ofs ≠ r.ofs) : rd (setRegBit d r b v) q = rd d q :=
  rd_wr_other d _ h

theorem rd_count_other (d : Dev) {r q : Reg} (h : q.ofs ≠ r.ofs) : rd (count d r) q = rd d q := rd_wr_other d _ h

theorem rd_setFld_same (d : Dev) (f : Fld) (v : Nat) : rd (setFld d f v) f.reg = putBits (rd d f.reg) f.hi f.lo v := rd_wr_same _ _ _

/-- A field reads as written, cut to its width. -/
theorem fld_setFld_same (d : Dev) {f : Fld} (v : Nat) (h : f.hi < 32) (hl : f.lo ≤ f.hi) :
    fld (setFld d f v) f = v % 2 ^ (f.hi - f.lo + 1) := by
  rw [fld, rd_setFld_same, getBits_putBits_same _ _ h hl]

/-- A field of another register reads as before. -/
theorem fld_setFld_reg (d : Dev) {f g : Fld} (v : Nat) (h : g.reg.ofs ≠ f.reg.ofs) : fld (setFld d f v) g = fld d g := by
  rw [fld, rd_setFld_other _ _ h, fld]

/-- Another field of the same register reads as before. -/
theorem fld_setFld_other (d : Dev) {f g : Fld} (v : Nat) (hr : g.reg = f.reg) (h : g.hi < f.lo ∨ f.hi < g.lo) (hg : g.lo ≤ g.hi)
    (hl : f.lo ≤ f.hi) : fld (setFld d f v) g = fld d g := by
  rw [fld, hr, rd_setFld_same, getBits_putBits_other _ _ h hg hl, fld, hr]

theorem flag_setFlag_same (d : Dev) {f : Fld} (b : Bool) (h : f.hi < 32) (hl : f.lo ≤ f.hi) : flag (setFlag d f b) f = b := by
  have := fld_setFld_same d (f := f) (boolBit b) h hl
  have hp : 2 ≤ 2 ^ (f.hi - f.lo + 1) := by
    rw [Nat.pow_succ]; have := Nat.one_le_two_pow (n := f.hi - f.lo); omega
  have h1 : 1 % 2 ^ (f.hi - f.lo + 1) = 1 := Nat.mod_eq_of_lt hp
  unfold flag setFlag
  rw [this]
  cases b <;> simp [boolBit, h1]

/-! ### Applied words -/

@[simp] theorem rdA_wr (d : Dev) (r q : Reg) (w : Word) : rdA (wr d r w) q = rdA d q := rfl
@[simp] theorem rd_wrA (d : Dev) (r q : Reg) (w : Word) : rd (wrA d r w) q = rd d q := rfl
@[simp] theorem rdA_wrA_same (d : Dev) (r : Reg) (w : Word) : rdA (wrA d r w) r = w := by simp [rdA, wrA]

theorem rdA_wrA_other (d : Dev) {r q : Reg} (w : Word) (h : q.ofs ≠ r.ofs) : rdA (wrA d r w) q = rdA d q := by
  simp [rdA, wrA, sget_sput_other _ _ _ _ h]

end Sys2Proof.Machine
end

