-- ==== Sys2Proof/Laws/Events.lean ====
section
/-!
SUPPORT. Laws/Events.lean: everything that counting, signalling, raising an event, freezing a master and a guarded write can do.
-/

namespace Sys2Proof.Machine

/-- A count takes one more, up to its limit. -/
theorem rdn_count_same (d : Dev) (r : Reg) : rdn (count d r) r = min (rdn d r + 1) 0xFFFFFFFF := by
  have h : min (rdn d r + 1) 0xFFFFFFFF < 2 ^ 32 := by omega
  simp only [count, countBy, rdn, rd_wrn_same, BitVec.toNat_ofNat]
  exact Nat.mod_eq_of_lt h

theorem rdn_count_other (d : Dev) {r q : Reg} (h : q.ofs ≠ r.ofs) : rdn (count d r) q = rdn d q := by
  simp only [rdn, rd_count_other d h]

/-- A message goes out or waits: nothing but the pending bits and the outbox changes. -/
theorem signalVector_spec (d : Dev) (f v : Nat) : ∃ p o, signalVector d f v = { d with msixPending := p, out := o } := by
  unfold signalVector
  split
  · exact ⟨_, d.out, rfl⟩
  · exact ⟨_, _, rfl⟩

theorem forEach_signal_spec (l : List Nat) (f v : Nat → Nat) (d : Dev) :
    ∃ p o, forEach l (fun d k => signalVector d (f k) (v k)) d = { d with msixPending := p, out := o } := by
  induction l generalizing d with
  | nil => exact ⟨d.msixPending, d.out, rfl⟩
  | cons k t ih =>
    obtain ⟨p, o, h⟩ := signalVector_spec d (f k) (v k)
    obtain ⟨p', o', h'⟩ := ih (signalVector d (f k) (v k))
    refine ⟨p', o', ?_⟩
    rw [forEach, List.foldl_cons, ← forEach, h', h]

/-- Held messages go out: nothing but the pending bits and the outbox changes. -/
theorem flushVectors_spec (d : Dev) : ∃ p o, flushVectors d = { d with msixPending := p, out := o } :=
  forEach_signal_spec d.msixPending (· / 64) (· % 64) d

/-- Raising a function's event sets its bit, and may signal it. -/
theorem raiseFn_spec (d : Dev) (f b : Nat) :
    ∃ p o, raiseFn d f b = { setRegBit d (HIF_FNf_EVT f) b true with msixPending := p, out := o } := by
  unfold raiseFn whenD
  simp only
  split
  · exact signalVector_spec _ _ _
  · exact ⟨_, _, rfl⟩

theorem rd_raiseFn_other (d : Dev) (f b : Nat) {q : Reg} (h : q.ofs ≠ (HIF_FNf_EVT f).ofs) : rd (raiseFn d f b) q = rd d q := by
  obtain ⟨p, o, e⟩ := raiseFn_spec d f b
  rw [e]
  exact rd_setRegBit_other d b true h

/-- Raising a function's event touches registers and messages, and nothing else. -/
theorem raiseFn_regs (d : Dev) (f b : Nat) : ∃ r p o, raiseFn d f b = { d with regs := r, msixPending := p, out := o } := by
  obtain ⟨p, o, e⟩ := raiseFn_spec d f b
  exact ⟨_, p, o, e⟩

/-- The register writes of a freeze touch registers alone. -/
theorem freezeRegs_spec (d : Dev) (c q : Reg) (n b : Nat) :
    ∃ r, count (setRegBit (wrn d c n) q b true) ROOT_FRZ_COUNT = { d with regs := r } := ⟨_, rfl⟩

/-- Writing a register changes the registers alone. -/
theorem wrn_regs (d : Dev) (q : Reg) (n : Nat) : ∃ r, wrn d q n = { d with regs := r } := ⟨_, rfl⟩

/-- Raising a unit's event sets its bit; where it is enabled its unit's bit and UNIT of function 0 follow. -/
theorem raiseEvt_spec (d : Dev) (u : EvtUnit) (b : Nat) :
    ∃ r p o, raiseEvt d u b = { d with regs := r, msixPending := p, out := o } := by
  unfold raiseEvt whenD
  simp only
  split
  · obtain ⟨p, o, e⟩ := raiseFn_spec (setRegBit (setRegBit d u.evt b true) HIF_EVT_UNIT u.bit true) 0 evUnit
    rw [e]
    exact ⟨_, p, o, rfl⟩
  · exact ⟨_, d.msixPending, d.out, rfl⟩

/-- Raising a unit's event leaves every register but its event word, the summary and function 0's event word. -/
theorem rd_raiseEvt_other (d : Dev) (u : EvtUnit) (b : Nat) {q : Reg} (h : q.ofs ≠ u.evt.ofs) (h1 : q.ofs ≠ HIF_EVT_UNIT.ofs)
    (h2 : q.ofs ≠ (HIF_FNf_EVT 0).ofs) : rd (raiseEvt d u b) q = rd d q := by
  unfold raiseEvt whenD
  simp only
  split
  · rw [rd_raiseFn_other _ _ _ h2, rd_setRegBit_other _ _ _ h1, rd_setRegBit_other _ _ _ h]
  · exact rd_setRegBit_other _ _ _ h

/-- Freezing a master touches registers, the report of function 0 and the messages, and nothing else. -/
theorem freeze_spec (d : Dev) (m : Master) (cause ofs : Nat) :
    ∃ r p o z, freeze d m cause ofs = { d with regs := r, msixPending := p, out := o, frzReport := z } := by
  unfold freeze
  generalize cause * 0x4000000 + ofs % 0x4000000 = n
  obtain ⟨r, h⟩ := freezeRegs_spec d (ROOT_FRZ_CAUSE m) (ROOT_FRZ_MAP (m / 32)) n (m % 32)
  obtain ⟨r', p, o, e⟩ := raiseFn_regs { d with regs := r } 0 evFreeze
  obtain ⟨r0, h0⟩ := wrn_regs d (ROOT_FRZ_CAUSE m) n
  dsimp only
  rw [h, h0, e]
  split
  · exact ⟨_, d.msixPending, d.out, d.frzReport, rfl⟩
  · split
    · split
      · exact ⟨r0, d.msixPending, d.out, true, rfl⟩
      · exact ⟨r0, d.msixPending, d.out, d.frzReport, rfl⟩
    · split
      · exact ⟨r, d.msixPending, d.out, true, rfl⟩
      · exact ⟨r', p, o, d.frzReport, rfl⟩

/-- A guarded write is carried out, changes nothing, or freezes its master. -/
theorem guarded_cases (d : Dev) (m : Master) (ofs : Nat) (f : Dev → Dev) :
    guarded d m ofs f = d ∨ guarded d m ofs f = f d ∨ ∃ c, guarded d m ofs f = freeze d m c ofs := by
  unfold guarded
  split
  · exact .inl rfl
  · split
    · exact .inr (.inr ⟨_, rfl⟩)
    · split
      · exact .inl rfl
      · exact .inr (.inl rfl)

/-- A write that is admitted is carried out. -/
theorem guarded_admits {d : Dev} {m : Master} {ofs : Nat} (f : Dev → Dev) (h : admits d m ofs = true) : guarded d m ofs f = f d := by
  simp only [admits, Bool.and_eq_true, Bool.not_eq_true', Option.isNone_iff_eq_none] at h
  obtain ⟨⟨h1, h2⟩, h3⟩ := h
  unfold guarded
  rw [if_neg (by simp [h1]), h2]
  simp only
  rw [if_neg (by simp [h3])]

end Sys2Proof.Machine
end

