-- ==== Sys2Proof/Laws/Memory.lean ====
section
/-!
SUPPORT. Laws/Memory.lean: every operation on the memories keeps their canonical form; what a write leaves alone.
-/

namespace Sys2Proof.Machine

theorem swf_writeMem {fill : Byte} {m : List Host.Cell} {a : Nat} {bs : List Byte} (h : swf fill m = true) :
    swf fill (writeMem fill m a bs) = true := by
  induction bs generalizing m a with
  | nil => exact h
  | cons b t ih => exact ih (swf_sput h)

theorem swf_eraseMem {fill : Byte} {m : List Host.Cell} {a b : Nat} (h : swf fill m = true) :
    swf fill (eraseMem m a b) = true := swf_filter h

/-- A byte outside the range written reads as before. -/
theorem sget_writeMem_other {fill : Byte} {m : List Host.Cell} {a k : Nat} {bs : List Byte} (h : k < a ∨ a + bs.length ≤ k) :
    sget fill (writeMem fill m a bs) k = sget fill m k := by
  induction bs generalizing m a with
  | nil => rfl
  | cons b t ih =>
    simp only [List.length_cons] at h
    rw [writeMem, ih (by omega), sget_sput_other _ _ _ _ (by omega)]

/-- Byte i of a write reads as written. -/
theorem sget_writeMem_at {fill : Byte} {m : List Host.Cell} {a i : Nat} {bs : List Byte} (h : i < bs.length) :
    sget fill (writeMem fill m a bs) (a + i) = bs.getD i 0 := by
  induction bs generalizing m a i with
  | nil => simp at h
  | cons b t ih =>
    cases i with
    | zero =>
      rw [writeMem, sget_writeMem_other (by omega)]
      simp
    | succ i =>
      have := ih (m := sput fill m a b) (a := a + 1) (i := i) (by simpa using h)
      simpa [writeMem, Nat.add_assoc, Nat.add_comm 1 i] using this

theorem Mem.wf_writeDram {s : Mem} {a : Nat} {bs : List Byte} (h : s.wf = true) : (writeDram s a bs).wf = true := by
  simp only [Mem.wf, Bool.and_eq_true, writeDram] at *
  exact ⟨⟨swf_writeMem h.1.1, h.1.2⟩, h.2⟩

theorem Mem.wf_writeFlash {s : Mem} {a : Nat} {bs : List Byte} (h : s.wf = true) : (writeFlash s a bs).wf = true := by
  simp only [Mem.wf, Bool.and_eq_true, writeFlash] at *
  exact ⟨⟨h.1.1, swf_writeMem h.1.2⟩, h.2⟩

theorem Mem.wf_writeCore {s : Mem} {a : Nat} {bs : List Byte} (h : s.wf = true) : (writeCore s a bs).wf = true := by
  simp only [Mem.wf, Bool.and_eq_true, writeCore] at *
  exact ⟨h.1, swf_writeMem h.2⟩

theorem Mem.wf_eraseFlash {s : Mem} {a b : Nat} (h : s.wf = true) : (eraseFlash s a b).wf = true := by
  simp only [Mem.wf, Bool.and_eq_true, eraseFlash] at *
  exact ⟨⟨h.1.1, swf_eraseMem h.1.2⟩, h.2⟩

end Sys2Proof.Machine
end

