-- ==== Sys2Proof/Laws/PerInstr.lean ====
section
/-!
SUPPORT. Laws/PerInstr.lean: for every command, that a well-formed one names a master that exists where a master sends it (R33).
-/

namespace Sys2Proof

/-- The master whose access a command is; none where the command is a happening of the block or of its lines and pins. -/
def Instr.writer (i : Instr) : Option Machine.Master :=
  match i with
  | .registerWrite m _ _ _ => some m
  | .loReadLatch m _ _ => some m
  | .frzRelease m _ => some m
  | .pwrReqWrite m _ _ => some m
  | .hdrBstStart m _ => some m
  | .hdrBstAbort m _ => some m
  | .tick => none
  | .timeCapture m _ => some m
  | .tdcExchange _ => none
  | .offsetEval _ => none
  | .domainTimeout _ => none
  | .servoPropExpire => none
  | .slewDone => none
  | .holdAged => none
  | .refFail _ => none
  | .ref25bFail => none
  | .refStop => none
  | .refReturn _ => none
  | .refFirstEdge _ => none
  | .commitPost m _ _ => some m
  | .commitCancel m _ _ => some m
  | .commitDue => none
  | .commitFrameTimeout => none
  | .modPresent _ _ => none
  | .modAbsent _ => none
  | .modResetRelease _ => none
  | .modInitDone _ => none
  | .modCheckDone _ _ => none
  | .modBusTimeout _ _ => none
  | .modRecheck _ => none
  | .modCheck m _ _ => some m
  | .modDeclare m _ _ => some m
  | .modXfer m _ _ => some m
  | .modXferDone _ _ _ => none
  | .signalChange _ _ _ => none
  | .cdrLockChange _ _ _ => none
  | .llTestModeWrite m _ _ => some m
  | .loopbackTestBurst _ => none
  | .prbsLock _ => none
  | .prbsLoss _ _ => none
  | .checkerClr m _ _ => some m
  | .injSingle m _ _ => some m
  | .injBurst m _ _ => some m
  | .candidateOpen _ _ _ _ => none
  | .candidateCheck _ _ _ _ _ => none
  | .dsfFrame _ _ _ _ _ => none
  | .codewordDecode _ _ _ _ => none
  | .losDeclare _ _ => none
  | .losClear _ _ => none
  | .dsfModeChange _ => none
  | .dsfSecondLatch _ => none
  | .assignId _ _ _ _ => none
  | .rangeResult _ _ _ _ _ _ _ _ _ => none
  | .deregister _ _ => none
  | .emergencyStop _ _ _ => none
  | .resume _ _ _ => none
  | .sleepAck _ _ _ _ => none
  | .timeAnchor _ _ _ => none
  | .keyWrap _ _ _ _ _ => none
  | .keySwitch _ _ _ _ _ => none
  | .keyClear _ _ _ _ => none
  | .ownerLock _ _ _ => none
  | .release _ _ _ => none
  | .freezeReport => none
  | .regEnWrite m _ _ => some m
  | .announceStart _ => none
  | .annToExpire _ => none
  | .rngToExpire _ => none
  | .rangingComplete _ => none
  | .eqdApply _ => none
  | .holdToExpire _ => none
  | .responseBurst _ _ => none
  | .sleepAckTimeout _ => none
  | .leaseExpire _ => none
  | .sleepResume _ => none
  | .grantHorizon _ => none
  | .floorReserve _ => none
  | .stagingStep _ _ => none
  | .burstBenRise _ _ => none
  | .unitCutoff _ _ _ => none
  | .burstEnd _ _ => none
  | .benFall _ _ => none
  | .carryExpire => none
  | .lineUnitRx _ _ => none
  | .reasmTimeout _ => none
  | .slotLoad m _ _ => some m
  | .slotClear m _ _ => some m
  | .saltWrite m _ _ => some m
  | .bootKeyWrite m _ _ _ => some m
  | .ctrLimitWrite m _ _ => some m
  | .keyOwnerChange m _ _ => some m
  | .cipOverrun _ => none
  | .healthReport => none
  | .switchEnd => none
  | .wtrExpire => none
  | .bmapApertureWrite m _ _ => some m
  | .refsBad _ => none
  | .refsOk _ => none
  | .laneEnableWrite m _ _ _ => some m
  | .laneRestart m _ _ _ => some m
  | .slnTestModeWrite m _ _ _ => some m
  | .hostPresWrite m _ _ _ => some m
  | .detectProbe _ _ _ => none
  | .anComplete _ _ _ _ _ => none
  | .anToExpire _ _ => none
  | .trainComplete _ _ _ _ _ => none
  | .trainFail _ _ _ => none
  | .blockLock _ _ _ _ => none
  | .linkToExpire _ _ => none
  | .capDone _ _ => none
  | .lockLoss _ _ _ => none
  | .faultReceived _ _ _ => none
  | .rateMatch _ _ _ _ => none
  | .macRxFrame _ _ _ _ _ _ => none
  | .pauseRx _ _ _ _ => none
  | .pfcRx _ _ _ _ _ => none
  | .pauseExpire _ _ _ => none
  | .pauseWatchdog _ _ _ => none
  | .wdIgnoreEnd _ _ _ => none
  | .macTxFrame _ _ _ => none
  | .fcSend _ _ => none
  | .fcRefresh _ _ _ => none
  | .frameParse _ => none
  | .classifyLookup _ _ => none
  | .secondPass _ _ _ => none
  | .recircTimeout _ => none
  | .ruleWrite m _ => some m
  | .ruleRead m _ => some m
  | .ruleWriteDone => none
  | .patternWrite m _ => some m
  | .patternRead m _ => some m
  | .flowMissResolve _ _ => none
  | .missTimeout => none
  | .epWrite m _ => some m
  | .epRead m _ => some m
  | .flowInsert => none
  | .flowUpdate => none
  | .flowDelete => none
  | .flowLookup => none
  | .flushEp => none
  | .clearAll => none
  | .ashCmdBadOpcode => none
  | .walkDone => none
  | .learn => none
  | .ageVisit => none
  | .epScrub _ _ => none
  | .flowScrub _ _ _ => none
  | .frameAdmit => none
  | .serverDequeue _ _ => none
  | .gateListStart _ => none
  | .gateChange _ => none
  | .glWrite m _ => some m
  | .glRead m _ => some m
  | .qSelWrite m _ => some m
  | .portFlush _ => none
  | .syncPlace _ => none
  | .announceSend _ => none
  | .ptpMsgRx => none
  | .prWindowOpen _ => none
  | .prEdge _ _ _ _ => none
  | .prWindowClose _ => none
  | .tevEdge _ _ _ _ => none
  | .tevSecHiRead m _ => some m
  | .toutEdge _ => none
  | .timeReqSend _ => none
  | .timeReq _ _ _ _ => none
  | .timeResp _ _ _ _ _ _ _ => none
  | .nbTimeout _ => none
  | .doorbell _ _ _ => none
  | .txFrameSubmit _ _ _ => none
  | .rxDeliver _ _ => none
  | .cmdDescriptor _ _ _ => none
  | .cqSignal _ => none
  | .cqStall _ => none
  | .ringEnable m _ _ => some m
  | .ringDisable m _ _ => some m
  | .hostReadError _ _ _ => none
  | .flr _ => none
  | .dmaEntryStart _ _ => none
  | .hopFetch _ _ _ => none
  | .dmaProgress _ _ => none
  | .dmaComplete _ _ => none
  | .fenceDone _ => none
  | .busError _ _ _ => none
  | .dmaBusTimeout _ _ => none
  | .dmaResume m _ => some m
  | .dmaOwnerChange m _ _ => some m
  | .bdmGo m _ _ => some m
  | .bdmAbort m _ _ => some m
  | .bdmHop _ => none
  | .bdmBusError _ _ _ _ => none
  | .unitGrant _ => none
  | .grantTimeout => none
  | .domainSwitchOff => none
  | .avsAck => none
  | .avsTimeout => none
  | .wakeSource _ => none
  | .pllLock => none
  | .pllTimeout => none
  | .domainSwitchOn _ _ _ => none
  | .wakeComplete => none
  | .pwrAltChange _ => none
  | .thermalStop => none
  | .sliceStart => none
  | .slicePatternsDone _ _ => none
  | .sliceBudget => none
  | .serviceRequest _ => none
  | .sliceRestoreDone => none
  | .overdue => none
  | .bstSummary => none
  | .courseLinkChange _ _ => none
  | .coursePduBad _ _ => none
  | .relayStart _ _ _ _ _ _ _ => none
  | .relayBlock _ _ _ _ _ _ => none
  | .relayEnd _ _ _ _ => none
  | .relayAck _ _ _ _ _ => none
  | .relayAckTimer => none
  | .relayResend => none
  | .relayStall => none
  | .blockProgrammed _ => none
  | .rescueReq _ _ _ _ _ _ _ _ => none
  | .rescueResp _ _ _ _ _ _ _ _ => none
  | .origGo m _ => some m
  | .preload m _ => some m
  | .preloadDone => none
  | .save m _ => some m
  | .confirm m _ => some m
  | .alive m _ => some m
  | .hostLockWrite m _ => some m
  | .actCheckDone => none
  | .actCoresLoaded => none
  | .noAlive => none
  | .recordCompact => none
  | .cntSelWrite m _ _ => some m
  | .cntClear m _ => some m
  | .cntClearAll m => some m
  | .cntRead m _ => some m
  | .bwWindowEnd => none
  | .telemetryRecord _ _ _ => none
  | .porst => none
  | .vddAoLoss => none
  | .resetN => none
  | .systemWrite m _ => some m
  | .coreWrite m _ => some m
  | .functionReset => none
  | .wdtExpire => none
  | .kick m _ => some m
  | .bootDone m _ => some m
  | .bootReleaseTimeout => none
  | .homeWaitExpire => none
  | .i2cAbandon => none
  | .jtagInstruction _ _ => none
  | .comparisonWindowEnd _ _ _ _ => none
  | .faultClear _ _ => none
  | .usb4LinkChange _ => none
  | .configurationRequest _ _ => none
  | .msixTableWrite _ _ _ => none
  | .otherCourseFrame _ => none

end Sys2Proof

namespace Sys2Proof.Laws.Operands

open Sys2Proof.Machine

/-- A well-formed access is one of a master that the spec numbers, or of the I2C management target. -/
def Statement (i : Instr) : Prop := ∀ m : Master, i.wf = true → i.writer = some m → isMaster m = true

theorem registerWrite (m : Master) (ofs : BitVec 26) (size : Nat) (value : BitVec 64) : Statement (.registerWrite m ofs size value) :=
  fun _ hw he => Option.some.inj he ▸ (Bool.and_eq_true_iff.mp hw).1

theorem loReadLatch (m : Master) (ofs : BitVec 26) (size : Nat) : Statement (.loReadLatch m ofs size) :=
  fun _ hw he => Option.some.inj he ▸ (Bool.and_eq_true_iff.mp hw).1

theorem frzRelease (m : Master) (value : Word) : Statement (.frzRelease m value) :=
  fun _ hw he => Option.some.inj he ▸ hw

theorem pwrReqWrite (m : Master) (u : UnitIx) (value : Word) : Statement (.pwrReqWrite m u value) :=
  fun _ hw he => Option.some.inj he ▸ hw

theorem hdrBstStart (m : Master) (u : UnitIx) : Statement (.hdrBstStart m u) :=
  fun _ hw he => Option.some.inj he ▸ hw

theorem hdrBstAbort (m : Master) (u : UnitIx) : Statement (.hdrBstAbort m u) :=
  fun _ hw he => Option.some.inj he ▸ hw

theorem tick : Statement (.tick) := fun _ _ h => nomatch h

theorem timeCapture (m : Master) (value : Word) : Statement (.timeCapture m value) :=
  fun _ hw he => Option.some.inj he ▸ hw

theorem tdcExchange (counts : List Nat) : Statement (.tdcExchange counts) := fun _ _ h => nomatch h

theorem offsetEval (x : Line) : Statement (.offsetEval x) := fun _ _ h => nomatch h

theorem domainTimeout (x : Line) : Statement (.domainTimeout x) := fun _ _ h => nomatch h

theorem servoPropExpire : Statement (.servoPropExpire) := fun _ _ h => nomatch h

theorem slewDone : Statement (.slewDone) := fun _ _ h => nomatch h

theorem holdAged : Statement (.holdAged) := fun _ _ h => nomatch h

theorem refFail (periods : Nat) : Statement (.refFail periods) := fun _ _ h => nomatch h

theorem ref25bFail : Statement (.ref25bFail) := fun _ _ h => nomatch h

theorem refStop : Statement (.refStop) := fun _ _ h => nomatch h

theorem refReturn (ref : RefClock) : Statement (.refReturn ref) := fun _ _ h => nomatch h

theorem refFirstEdge (ref : RefClock) : Statement (.refFirstEdge ref) := fun _ _ h => nomatch h

theorem commitPost (m : Master) (p : Fin 36) (value : Word) : Statement (.commitPost m p value) :=
  fun _ hw he => Option.some.inj he ▸ hw

theorem commitCancel (m : Master) (p : Fin 36) (value : Word) : Statement (.commitCancel m p value) :=
  fun _ hw he => Option.some.inj he ▸ hw

theorem commitDue : Statement (.commitDue) := fun _ _ h => nomatch h

theorem commitFrameTimeout : Statement (.commitFrameTimeout) := fun _ _ h => nomatch h

theorem modPresent (x : Line) (held : Bool) : Statement (.modPresent x held) := fun _ _ h => nomatch h

theorem modAbsent (x : Line) : Statement (.modAbsent x) := fun _ _ h => nomatch h

theorem modResetRelease (x : Line) : Statement (.modResetRelease x) := fun _ _ h => nomatch h

theorem modInitDone (x : Line) : Statement (.modInitDone x) := fun _ _ h => nomatch h

theorem modCheckDone (x : Line) (bytes : List Byte) : Statement (.modCheckDone x bytes) := fun _ _ h => nomatch h

theorem modBusTimeout (x : Line) (page : Bool) : Statement (.modBusTimeout x page) := fun _ _ h => nomatch h

theorem modRecheck (x : Line) : Statement (.modRecheck x) := fun _ _ h => nomatch h

theorem modCheck (m : Master) (x : Line) (value : Word) : Statement (.modCheck m x value) :=
  fun _ hw he => Option.some.inj he ▸ hw

theorem modDeclare (m : Master) (x : Line) (value : Word) : Statement (.modDeclare m x value) :=
  fun _ hw he => Option.some.inj he ▸ hw

theorem modXfer (m : Master) (x : Line) (value : Word) : Statement (.modXfer m x value) :=
  fun _ hw he => Option.some.inj he ▸ hw

theorem modXferDone (x : Line) (err : Bool) (data : Byte) : Statement (.modXferDone x err data) := fun _ _ h => nomatch h

theorem signalChange (x : Line) (r : Fin 8) (high : Bool) : Statement (.signalChange x r high) := fun _ _ h => nomatch h

theorem cdrLockChange (x : Line) (r : Fin 8) (lock : Bool) : Statement (.cdrLockChange x r lock) := fun _ _ h => nomatch h

theorem llTestModeWrite (m : Master) (x : Line) (value : Word) : Statement (.llTestModeWrite m x value) :=
  fun _ hw he => Option.some.inj he ▸ hw

theorem loopbackTestBurst (x : Line) : Statement (.loopbackTestBurst x) := fun _ _ h => nomatch h

theorem prbsLock (r : RxLane) : Statement (.prbsLock r) := fun _ _ h => nomatch h

theorem prbsLoss (r : RxLane) (errs : Nat) : Statement (.prbsLoss r errs) := fun _ _ h => nomatch h

theorem checkerClr (m : Master) (r : RxLane) (value : Word) : Statement (.checkerClr m r value) :=
  fun _ hw he => Option.some.inj he ▸ hw

theorem injSingle (m : Master) (p : PrbsLane) (value : Word) : Statement (.injSingle m p value) :=
  fun _ hw he => Option.some.inj he ▸ hw

theorem injBurst (m : Master) (p : PrbsLane) (value : Word) : Statement (.injBurst m p value) :=
  fun _ hw he => Option.some.inj he ▸ hw

theorem candidateOpen (x : Line) (c : Fin 8) (pos : Nat) (fsb : List Byte) : Statement (.candidateOpen x c pos fsb) := fun _ _ h => nomatch h

theorem candidateCheck (x : Line) (c : Fin 8) (pos : Nat) (fsb : List Byte) (skew : Int) : Statement (.candidateCheck x c pos fsb skew) := fun _ _ h => nomatch h

theorem dsfFrame (x : Line) (c : Fin 8) (fsb : List Byte) (bins : Nat) (skew : Int) : Statement (.dsfFrame x c fsb bins skew) := fun _ _ h => nomatch h

theorem codewordDecode (x : Line) (c : Fin 8) (k : Nat) (syms : List Nat) : Statement (.codewordDecode x c k syms) := fun _ _ h => nomatch h

theorem losDeclare (x : Line) (c : Fin 8) : Statement (.losDeclare x c) := fun _ _ h => nomatch h

theorem losClear (x : Line) (c : Fin 8) : Statement (.losClear x c) := fun _ _ h => nomatch h

theorem dsfModeChange (x : Line) : Statement (.dsfModeChange x) := fun _ _ h => nomatch h

theorem dsfSecondLatch (x : Line) : Statement (.dsfSecondLatch x) := fun _ _ h => nomatch h

theorem assignId (x : Line) (h : LmmHead) (sn : BitVec 64) (id : BitVec 12) : Statement (.assignId x h sn id) := fun _ _ h => nomatch h

theorem rangeResult (x : Line) (h : LmmHead) (u : Fin 4) (last heValid : Bool) (eqd : BitVec 24) (rtd : Word) (applyFrame : BitVec 48) (he : Word) : Statement (.rangeResult x h u last heValid eqd rtd applyFrame he) := fun _ _ h => nomatch h

theorem deregister (x : Line) (h : LmmHead) : Statement (.deregister x h) := fun _ _ h => nomatch h

theorem emergencyStop (x : Line) (h : LmmHead) (sn : BitVec 64) : Statement (.emergencyStop x h sn) := fun _ _ h => nomatch h

theorem resume (x : Line) (h : LmmHead) (sn : BitVec 64) : Statement (.resume x h sn) := fun _ _ h => nomatch h

theorem sleepAck (x : Line) (h : LmmHead) (status : BitVec 8) (lease : BitVec 16) : Statement (.sleepAck x h status lease) := fun _ _ h => nomatch h

theorem timeAnchor (x : Line) (h : LmmHead) (a : AnchorBody) : Statement (.timeAnchor x h a) := fun _ _ h => nomatch h

theorem keyWrap (x : Line) (h : LmmHead) (page : BitVec 6) (slot : BitVec 2) (wrapped : List Byte) : Statement (.keyWrap x h page slot wrapped) := fun _ _ h => nomatch h

theorem keySwitch (x : Line) (h : LmmHead) (page : BitVec 6) (slot : BitVec 2) (n : BitVec 48) : Statement (.keySwitch x h page slot n) := fun _ _ h => nomatch h

theorem keyClear (x : Line) (h : LmmHead) (page : BitVec 6) (slot : BitVec 2) : Statement (.keyClear x h page slot) := fun _ _ h => nomatch h

theorem ownerLock (x : Line) (h : LmmHead) (flags : BitVec 8) : Statement (.ownerLock x h flags) := fun _ _ h => nomatch h

theorem release (x : Line) (h : LmmHead) (master : BitVec 8) : Statement (.release x h master) := fun _ _ h => nomatch h

theorem freezeReport : Statement (.freezeReport) := fun _ _ h => nomatch h

theorem regEnWrite (m : Master) (x : Line) (value : Word) : Statement (.regEnWrite m x value) :=
  fun _ hw he => Option.some.inj he ▸ hw

theorem announceStart (x : Line) : Statement (.announceStart x) := fun _ _ h => nomatch h

theorem annToExpire (x : Line) : Statement (.annToExpire x) := fun _ _ h => nomatch h

theorem rngToExpire (x : Line) : Statement (.rngToExpire x) := fun _ _ h => nomatch h

theorem rangingComplete (x : Line) : Statement (.rangingComplete x) := fun _ _ h => nomatch h

theorem eqdApply (x : Line) : Statement (.eqdApply x) := fun _ _ h => nomatch h

theorem holdToExpire (x : Line) : Statement (.holdToExpire x) := fun _ _ h => nomatch h

theorem responseBurst (x : Line) (mis : List EngineMiss) : Statement (.responseBurst x mis) := fun _ _ h => nomatch h

theorem sleepAckTimeout (x : Line) : Statement (.sleepAckTimeout x) := fun _ _ h => nomatch h

theorem leaseExpire (x : Line) : Statement (.leaseExpire x) := fun _ _ h => nomatch h

theorem sleepResume (x : Line) : Statement (.sleepResume x) := fun _ _ h => nomatch h

theorem grantHorizon (x : Line) : Statement (.grantHorizon x) := fun _ _ h => nomatch h

theorem floorReserve (x : Line) : Statement (.floorReserve x) := fun _ _ h => nomatch h

theorem stagingStep (ecc : Ecc) (mis : List EngineMiss) : Statement (.stagingStep ecc mis) := fun _ _ h => nomatch h

theorem burstBenRise (x : Line) (u : Fin 4) : Statement (.burstBenRise x u) := fun _ _ h => nomatch h

theorem unitCutoff (x : Line) (u : Fin 4) (ecc : Ecc) : Statement (.unitCutoff x u ecc) := fun _ _ h => nomatch h

theorem burstEnd (x : Line) (u : Fin 4) : Statement (.burstEnd x u) := fun _ _ h => nomatch h

theorem benFall (x : Line) (u : Fin 4) : Statement (.benFall x u) := fun _ _ h => nomatch h

theorem carryExpire : Statement (.carryExpire) := fun _ _ h => nomatch h

theorem lineUnitRx (x : Line) (mis : Option EngineMiss) : Statement (.lineUnitRx x mis) := fun _ _ h => nomatch h

theorem reasmTimeout (x : Line) : Statement (.reasmTimeout x) := fun _ _ h => nomatch h

theorem slotLoad (m : Master) (k : Fin 256) (value : Word) : Statement (.slotLoad m k value) :=
  fun _ hw he => Option.some.inj he ▸ hw

theorem slotClear (m : Master) (k : Fin 256) (value : Word) : Statement (.slotClear m k value) :=
  fun _ hw he => Option.some.inj he ▸ hw

theorem saltWrite (m : Master) (p : Fin 64) (value : Word) : Statement (.saltWrite m p value) :=
  fun _ hw he => Option.some.inj he ▸ hw

theorem bootKeyWrite (m : Master) (x : Line) (j : Fin 8) (value : Word) : Statement (.bootKeyWrite m x j value) :=
  fun _ hw he => Option.some.inj he ▸ hw

theorem ctrLimitWrite (m : Master) (hi : Bool) (value : Word) : Statement (.ctrLimitWrite m hi value) :=
  fun _ hw he => Option.some.inj he ▸ hw

theorem keyOwnerChange (m : Master) (p : Fin 56) (value : Word) : Statement (.keyOwnerChange m p value) :=
  fun _ hw he => Option.some.inj he ▸ hw

theorem cipOverrun (x : Line) : Statement (.cipOverrun x) := fun _ _ h => nomatch h

theorem healthReport : Statement (.healthReport) := fun _ _ h => nomatch h

theorem switchEnd : Statement (.switchEnd) := fun _ _ h => nomatch h

theorem wtrExpire : Statement (.wtrExpire) := fun _ _ h => nomatch h

theorem bmapApertureWrite (m : Master) (k : Fin 32768) (value : Word) : Statement (.bmapApertureWrite m k value) :=
  fun _ hw he => Option.some.inj he ▸ hw

theorem refsBad (n : Fin 4) : Statement (.refsBad n) := fun _ _ h => nomatch h

theorem refsOk (n : Fin 4) : Statement (.refsOk n) := fun _ _ h => nomatch h

theorem laneEnableWrite (m : Master) (q : Fin 16) (l : Fin 4) (value : Word) : Statement (.laneEnableWrite m q l value) :=
  fun _ hw he => Option.some.inj he ▸ hw

theorem laneRestart (m : Master) (q : Fin 16) (l : Fin 4) (value : Word) : Statement (.laneRestart m q l value) :=
  fun _ hw he => Option.some.inj he ▸ hw

theorem slnTestModeWrite (m : Master) (q : Fin 16) (l : Fin 4) (value : Word) : Statement (.slnTestModeWrite m q l value) :=
  fun _ hw he => Option.some.inj he ▸ hw

theorem hostPresWrite (m : Master) (q : Fin 16) (l : Fin 4) (value : Word) : Statement (.hostPresWrite m q l value) :=
  fun _ hw he => Option.some.inj he ▸ hw

theorem detectProbe (q : Fin 16) (l : Fin 4) (hit : Bool) : Statement (.detectProbe q l hit) := fun _ _ h => nomatch h

theorem anComplete (q : Fin 16) (l : Fin 4) (tech : BitVec 8) (fec : BitVec 4) (pause : BitVec 2) : Statement (.anComplete q l tech fec pause) := fun _ _ h => nomatch h

theorem anToExpire (q : Fin 16) (l : Fin 4) : Statement (.anToExpire q l) := fun _ _ h => nomatch h

theorem trainComplete (q : Fin 16) (l : Fin 4) (amp : BitVec 8) (pre : BitVec 4) (post : BitVec 5) : Statement (.trainComplete q l amp pre post) := fun _ _ h => nomatch h

theorem trainFail (q : Fin 16) (l : Fin 4) (reported : Bool) : Statement (.trainFail q l reported) := fun _ _ h => nomatch h

theorem blockLock (q : Fin 16) (l : Fin 4) (markers : Bool) (headers : List Bool) : Statement (.blockLock q l markers headers) := fun _ _ h => nomatch h

theorem linkToExpire (q : Fin 16) (l : Fin 4) : Statement (.linkToExpire q l) := fun _ _ h => nomatch h

theorem capDone (q : Fin 16) (l : Fin 4) : Statement (.capDone q l) := fun _ _ h => nomatch h

theorem lockLoss (q : Fin 16) (l : Fin 4) (what : LockLoss) : Statement (.lockLoss q l what) := fun _ _ h => nomatch h

theorem faultReceived (q : Fin 16) (l : Fin 4) (remote : Bool) : Statement (.faultReceived q l remote) := fun _ _ h => nomatch h

theorem rateMatch (q : Fin 16) (l : Fin 4) (drift : Int) (inFrame : Bool) : Statement (.rateMatch q l drift inFrame) := fun _ _ h => nomatch h

theorem macRxFrame (q : Fin 16) (l : Fin 4) (frame : List Byte) (err : Bool) (dec : LaneDecode) (ps : Nat) : Statement (.macRxFrame q l frame err dec ps) := fun _ _ h => nomatch h

theorem pauseRx (q : Fin 16) (l : Fin 4) (quanta : BitVec 16) (ps : Nat) : Statement (.pauseRx q l quanta ps) := fun _ _ h => nomatch h

theorem pfcRx (q : Fin 16) (l : Fin 4) (enable : BitVec 8) (quanta : List Nat) (ps : Nat) : Statement (.pfcRx q l enable quanta ps) := fun _ _ h => nomatch h

theorem pauseExpire (q : Fin 16) (l : Fin 4) (key : Fin 9) : Statement (.pauseExpire q l key) := fun _ _ h => nomatch h

theorem pauseWatchdog (q : Fin 16) (l : Fin 4) (key : Fin 9) : Statement (.pauseWatchdog q l key) := fun _ _ h => nomatch h

theorem wdIgnoreEnd (q : Fin 16) (l : Fin 4) (key : Fin 9) : Statement (.wdIgnoreEnd q l key) := fun _ _ h => nomatch h

theorem macTxFrame (q : Fin 16) (l : Fin 4) (ps : Nat) : Statement (.macTxFrame q l ps) := fun _ _ h => nomatch h

theorem fcSend (q : Fin 16) (l : Fin 4) : Statement (.fcSend q l) := fun _ _ h => nomatch h

theorem fcRefresh (q : Fin 16) (l : Fin 4) (key : Fin 9) : Statement (.fcRefresh q l key) := fun _ _ h => nomatch h

theorem frameParse (full : Bool) : Statement (.frameParse full) := fun _ _ h => nomatch h

theorem classifyLookup (ecc flowErr : Ecc) : Statement (.classifyLookup ecc flowErr) := fun _ _ h => nomatch h

theorem secondPass (pipe : Fin 9) (ecc flowErr : Ecc) : Statement (.secondPass pipe ecc flowErr) := fun _ _ h => nomatch h

theorem recircTimeout (pipe : Fin 9) : Statement (.recircTimeout pipe) := fun _ _ h => nomatch h

theorem ruleWrite (m : Master) (value : Word) : Statement (.ruleWrite m value) :=
  fun _ hw he => Option.some.inj he ▸ hw

theorem ruleRead (m : Master) (value : Word) : Statement (.ruleRead m value) :=
  fun _ hw he => Option.some.inj he ▸ hw

theorem ruleWriteDone : Statement (.ruleWriteDone) := fun _ _ h => nomatch h

theorem patternWrite (m : Master) (value : Word) : Statement (.patternWrite m value) :=
  fun _ hw he => Option.some.inj he ▸ hw

theorem patternRead (m : Master) (value : Word) : Statement (.patternRead m value) :=
  fun _ hw he => Option.some.inj he ▸ hw

theorem flowMissResolve (ecc : Ecc) (slot : Fin 8) : Statement (.flowMissResolve ecc slot) := fun _ _ h => nomatch h

theorem missTimeout : Statement (.missTimeout) := fun _ _ h => nomatch h

theorem epWrite (m : Master) (value : Word) : Statement (.epWrite m value) :=
  fun _ hw he => Option.some.inj he ▸ hw

theorem epRead (m : Master) (value : Word) : Statement (.epRead m value) :=
  fun _ hw he => Option.some.inj he ▸ hw

theorem flowInsert : Statement (.flowInsert) := fun _ _ h => nomatch h

theorem flowUpdate : Statement (.flowUpdate) := fun _ _ h => nomatch h

theorem flowDelete : Statement (.flowDelete) := fun _ _ h => nomatch h

theorem flowLookup : Statement (.flowLookup) := fun _ _ h => nomatch h

theorem flushEp : Statement (.flushEp) := fun _ _ h => nomatch h

theorem clearAll : Statement (.clearAll) := fun _ _ h => nomatch h

theorem ashCmdBadOpcode : Statement (.ashCmdBadOpcode) := fun _ _ h => nomatch h

theorem walkDone : Statement (.walkDone) := fun _ _ h => nomatch h

theorem learn : Statement (.learn) := fun _ _ h => nomatch h

theorem ageVisit : Statement (.ageVisit) := fun _ _ h => nomatch h

theorem epScrub (e : Fin 1048576) (ecc : Ecc) : Statement (.epScrub e ecc) := fun _ _ h => nomatch h

theorem flowScrub (b : Fin 4194304) (ecc : Ecc) (slot : Fin 4) : Statement (.flowScrub b ecc slot) := fun _ _ h => nomatch h

theorem frameAdmit : Statement (.frameAdmit) := fun _ _ h => nomatch h

theorem serverDequeue (p : Fin 64) (ecc : Ecc) : Statement (.serverDequeue p ecc) := fun _ _ h => nomatch h

theorem gateListStart (sched : Fin 576) : Statement (.gateListStart sched) := fun _ _ h => nomatch h

theorem gateChange (sched : Fin 576) : Statement (.gateChange sched) := fun _ _ h => nomatch h

theorem glWrite (m : Master) (value : Word) : Statement (.glWrite m value) :=
  fun _ hw he => Option.some.inj he ▸ hw

theorem glRead (m : Master) (value : Word) : Statement (.glRead m value) :=
  fun _ hw he => Option.some.inj he ▸ hw

theorem qSelWrite (m : Master) (value : Word) : Statement (.qSelWrite m value) :=
  fun _ hw he => Option.some.inj he ▸ hw

theorem portFlush (p : Fin 64) : Statement (.portFlush p) := fun _ _ h => nomatch h

theorem syncPlace (p : Fin 64) : Statement (.syncPlace p) := fun _ _ h => nomatch h

theorem announceSend (p : Fin 64) : Statement (.announceSend p) := fun _ _ h => nomatch h

theorem ptpMsgRx : Statement (.ptpMsgRx) := fun _ _ h => nomatch h

theorem prWindowOpen (i : Fin 64) : Statement (.prWindowOpen i) := fun _ _ h => nomatch h

theorem prEdge (i : Fin 64) (falling : Bool) (hold bins : Nat) : Statement (.prEdge i falling hold bins) := fun _ _ h => nomatch h

theorem prWindowClose (i : Fin 64) : Statement (.prWindowClose i) := fun _ _ h => nomatch h

theorem tevEdge (e : Fin 4) (falling : Bool) (hold bins : Nat) : Statement (.tevEdge e falling hold bins) := fun _ _ h => nomatch h

theorem tevSecHiRead (m : Master) (e : Fin 4) : Statement (.tevSecHiRead m e) :=
  fun _ hw he => Option.some.inj he ▸ hw

theorem toutEdge (o : Fin 8) : Statement (.toutEdge o) := fun _ _ h => nomatch h

theorem timeReqSend (k : Fin 2) : Statement (.timeReqSend k) := fun _ _ h => nomatch h

theorem timeReq (k : Fin 2) (sender : BitVec 64) (seq : BitVec 16) (turn : Nat) : Statement (.timeReq k sender seq turn) := fun _ _ h => nomatch h

theorem timeResp (k : Fin 2) (sender : BitVec 64) (seq : BitVec 16) (t2s : BitVec 48) (t2 : BitVec 32) (t3s : BitVec 48) (t3 : BitVec 32) : Statement (.timeResp k sender seq t2s t2 t3s t3) := fun _ _ h => nomatch h

theorem nbTimeout (k : Fin 2) : Statement (.nbTimeout k) := fun _ _ h => nomatch h

theorem doorbell (f : Fin 32) (size : Nat) (value : Word) : Statement (.doorbell f size value) := fun _ _ h => nomatch h

theorem txFrameSubmit (r : Fin 1024) (descs : List (List Byte)) (data : List Byte) : Statement (.txFrameSubmit r descs data) := fun _ _ h => nomatch h

theorem rxDeliver (r : Fin 1024) (descs : List (List Byte)) : Statement (.rxDeliver r descs) := fun _ _ h => nomatch h

theorem cmdDescriptor (r : Fin 1024) (desc body : List Byte) : Statement (.cmdDescriptor r desc body) := fun _ _ h => nomatch h

theorem cqSignal (c : Fin 1024) : Statement (.cqSignal c) := fun _ _ h => nomatch h

theorem cqStall (c : Fin 1024) : Statement (.cqStall c) := fun _ _ h => nomatch h

theorem ringEnable (m : Master) (r : Fin 1024) (value : Word) : Statement (.ringEnable m r value) :=
  fun _ hw he => Option.some.inj he ▸ hw

theorem ringDisable (m : Master) (r : Fin 1024) (value : Word) : Statement (.ringDisable m r value) :=
  fun _ hw he => Option.some.inj he ▸ hw

theorem hostReadError (r : Fin 1024) (what : Fin 3) (tag : BitVec 64) : Statement (.hostReadError r what tag) := fun _ _ h => nomatch h

theorem flr (f : Fin 31) : Statement (.flr f) := fun _ _ h => nomatch h

theorem dmaEntryStart (c : Fin 64) (desc : List Byte) : Statement (.dmaEntryStart c desc) := fun _ _ h => nomatch h

theorem hopFetch (c : Fin 64) (data desc : List Byte) : Statement (.hopFetch c data desc) := fun _ _ h => nomatch h

theorem dmaProgress (c : Fin 64) (data : List Byte) : Statement (.dmaProgress c data) := fun _ _ h => nomatch h

theorem dmaComplete (c : Fin 64) (data : List Byte) : Statement (.dmaComplete c data) := fun _ _ h => nomatch h

theorem fenceDone (c : Fin 64) : Statement (.fenceDone c) := fun _ _ h => nomatch h

theorem busError (cause : BusFault) (space : Fin 3) (addr : BitVec 64) : Statement (.busError cause space addr) := fun _ _ h => nomatch h

theorem dmaBusTimeout (space : Fin 3) (addr : BitVec 64) : Statement (.dmaBusTimeout space addr) := fun _ _ h => nomatch h

theorem dmaResume (m : Master) (value : Word) : Statement (.dmaResume m value) :=
  fun _ hw he => Option.some.inj he ▸ hw

theorem dmaOwnerChange (m : Master) (c : Fin 64) (value : Word) : Statement (.dmaOwnerChange m c value) :=
  fun _ hw he => Option.some.inj he ▸ hw

theorem bdmGo (m : Master) (c : Fin 4) (value : Word) : Statement (.bdmGo m c value) :=
  fun _ hw he => Option.some.inj he ▸ hw

theorem bdmAbort (m : Master) (c : Fin 4) (value : Word) : Statement (.bdmAbort m c value) :=
  fun _ hw he => Option.some.inj he ▸ hw

theorem bdmHop (c : Fin 4) : Statement (.bdmHop c) := fun _ _ h => nomatch h

theorem bdmBusError (c : Fin 4) (cause : BusFault) (space : Fin 4) (addr : Word) : Statement (.bdmBusError c cause space addr) := fun _ _ h => nomatch h

theorem unitGrant (empty : Bool) : Statement (.unitGrant empty) := fun _ _ h => nomatch h

theorem grantTimeout : Statement (.grantTimeout) := fun _ _ h => nomatch h

theorem domainSwitchOff : Statement (.domainSwitchOff) := fun _ _ h => nomatch h

theorem avsAck : Statement (.avsAck) := fun _ _ h => nomatch h

theorem avsTimeout : Statement (.avsTimeout) := fun _ _ h => nomatch h

theorem wakeSource (p : WakePin) : Statement (.wakeSource p) := fun _ _ h => nomatch h

theorem pllLock : Statement (.pllLock) := fun _ _ h => nomatch h

theorem pllTimeout : Statement (.pllTimeout) := fun _ _ h => nomatch h

theorem domainSwitchOn (tested : List Word) (faulty : List UnitIx) (segs : List (Fin 16)) : Statement (.domainSwitchOn tested faulty segs) := fun _ _ h => nomatch h

theorem wakeComplete : Statement (.wakeComplete) := fun _ _ h => nomatch h

theorem pwrAltChange (asserted : Bool) : Statement (.pwrAltChange asserted) := fun _ _ h => nomatch h

theorem thermalStop : Statement (.thermalStop) := fun _ _ h => nomatch h

theorem sliceStart : Statement (.sliceStart) := fun _ _ h => nomatch h

theorem slicePatternsDone (sig : BitVec 64) (good : Bool) : Statement (.slicePatternsDone sig good) := fun _ _ h => nomatch h

theorem sliceBudget : Statement (.sliceBudget) := fun _ _ h => nomatch h

theorem serviceRequest (t : Fin 48) : Statement (.serviceRequest t) := fun _ _ h => nomatch h

theorem sliceRestoreDone : Statement (.sliceRestoreDone) := fun _ _ h => nomatch h

theorem overdue : Statement (.overdue) := fun _ _ h => nomatch h

theorem bstSummary : Statement (.bstSummary) := fun _ _ h => nomatch h

theorem courseLinkChange (k : Fin 2) (up : Bool) : Statement (.courseLinkChange k up) := fun _ _ h => nomatch h

theorem coursePduBad (k : Fin 2) (pdu : List Byte) : Statement (.coursePduBad k pdu) := fun _ _ h => nomatch h

theorem relayStart (k : Fin 2) (sender : BitVec 64) (image len : Word) (blocks : BitVec 16) (hops : BitVec 8) (store : Bool) : Statement (.relayStart k sender image len blocks hops store) := fun _ _ h => nomatch h

theorem relayBlock (k : Fin 2) (sender : BitVec 64) (image : Word) (block : BitVec 16) (data : List Byte) (crc : Word) : Statement (.relayBlock k sender image block data crc) := fun _ _ h => nomatch h

theorem relayEnd (k : Fin 2) (sender : BitVec 64) (image crc : Word) : Statement (.relayEnd k sender image crc) := fun _ _ h => nomatch h

theorem relayAck (k : Fin 2) (sender : BitVec 64) (image : Word) (next : BitVec 16) (code : BitVec 8) : Statement (.relayAck k sender image next code) := fun _ _ h => nomatch h

theorem relayAckTimer : Statement (.relayAckTimer) := fun _ _ h => nomatch h

theorem relayResend : Statement (.relayResend) := fun _ _ h => nomatch h

theorem relayStall : Statement (.relayStall) := fun _ _ h => nomatch h

theorem blockProgrammed (ok : Bool) : Statement (.blockProgrammed ok) := fun _ _ h => nomatch h

theorem rescueReq (k : Fin 2) (sender target : BitVec 64) (hops : BitVec 8) (write : Bool) (tag : BitVec 16) (ofs value : Word) : Statement (.rescueReq k sender target hops write tag ofs value) := fun _ _ h => nomatch h

theorem rescueResp (k : Fin 2) (sender target : BitVec 64) (hops : BitVec 8) (status : BitVec 8) (tag : BitVec 16) (ofs value : Word) : Statement (.rescueResp k sender target hops status tag ofs value) := fun _ _ h => nomatch h

theorem origGo (m : Master) (value : Word) : Statement (.origGo m value) :=
  fun _ hw he => Option.some.inj he ▸ hw

theorem preload (m : Master) (value : Word) : Statement (.preload m value) :=
  fun _ hw he => Option.some.inj he ▸ hw

theorem preloadDone : Statement (.preloadDone) := fun _ _ h => nomatch h

theorem save (m : Master) (value : Word) : Statement (.save m value) :=
  fun _ hw he => Option.some.inj he ▸ hw

theorem confirm (m : Master) (value : Word) : Statement (.confirm m value) :=
  fun _ hw he => Option.some.inj he ▸ hw

theorem alive (m : Master) (value : Word) : Statement (.alive m value) :=
  fun _ hw he => Option.some.inj he ▸ hw

theorem hostLockWrite (m : Master) (value : Word) : Statement (.hostLockWrite m value) :=
  fun _ hw he => Option.some.inj he ▸ hw

theorem actCheckDone : Statement (.actCheckDone) := fun _ _ h => nomatch h

theorem actCoresLoaded : Statement (.actCoresLoaded) := fun _ _ h => nomatch h

theorem noAlive : Statement (.noAlive) := fun _ _ h => nomatch h

theorem recordCompact : Statement (.recordCompact) := fun _ _ h => nomatch h

theorem cntSelWrite (m : Master) (c : Fin 4096) (value : Word) : Statement (.cntSelWrite m c value) :=
  fun _ hw he => Option.some.inj he ▸ hw

theorem cntClear (m : Master) (c : Fin 4096) : Statement (.cntClear m c) :=
  fun _ hw he => Option.some.inj he ▸ hw

theorem cntClearAll (m : Master) : Statement (.cntClearAll m) :=
  fun _ hw he => Option.some.inj he ▸ hw

theorem cntRead (m : Master) (rel : Fin 0x100000) : Statement (.cntRead m rel) :=
  fun _ hw he => Option.some.inj he ▸ hw

theorem bwWindowEnd : Statement (.bwWindowEnd) := fun _ _ h => nomatch h

theorem telemetryRecord (mw : BitVec 32) (temp : BitVec 16) (failed : Bool) : Statement (.telemetryRecord mw temp failed) := fun _ _ h => nomatch h

theorem porst : Statement (.porst) := fun _ _ h => nomatch h

theorem vddAoLoss : Statement (.vddAoLoss) := fun _ _ h => nomatch h

theorem resetN : Statement (.resetN) := fun _ _ h => nomatch h

theorem systemWrite (m : Master) (value : Word) : Statement (.systemWrite m value) :=
  fun _ hw he => Option.some.inj he ▸ hw

theorem coreWrite (m : Master) (value : Word) : Statement (.coreWrite m value) :=
  fun _ hw he => Option.some.inj he ▸ hw

theorem functionReset : Statement (.functionReset) := fun _ _ h => nomatch h

theorem wdtExpire : Statement (.wdtExpire) := fun _ _ h => nomatch h

theorem kick (m : Master) (value : Word) : Statement (.kick m value) :=
  fun _ hw he => Option.some.inj he ▸ hw

theorem bootDone (m : Master) (value : Word) : Statement (.bootDone m value) :=
  fun _ hw he => Option.some.inj he ▸ hw

theorem bootReleaseTimeout : Statement (.bootReleaseTimeout) := fun _ _ h => nomatch h

theorem homeWaitExpire : Statement (.homeWaitExpire) := fun _ _ h => nomatch h

theorem i2cAbandon : Statement (.i2cAbandon) := fun _ _ h => nomatch h

theorem jtagInstruction (i : JtagInstr) (low : Bool) : Statement (.jtagInstruction i low) := fun _ _ h => nomatch h

theorem comparisonWindowEnd (ok25 ok25b : Bool) (ratio : Word) (phase : Nat) : Statement (.comparisonWindowEnd ok25 ok25b ratio phase) := fun _ _ h => nomatch h

theorem faultClear (q : Fin 16) (l : Fin 4) : Statement (.faultClear q l) := fun _ _ h => nomatch h

theorem usb4LinkChange (l : Usb4Link) : Statement (.usb4LinkChange l) := fun _ _ h => nomatch h

theorem configurationRequest (f : Fin 32) (vfs : Option (Fin 32)) : Statement (.configurationRequest f vfs) := fun _ _ h => nomatch h

theorem msixTableWrite (f : Fin 32) (t : MsixTarget) (value : Word) : Statement (.msixTableWrite f t value) := fun _ _ h => nomatch h

theorem otherCourseFrame (k : Fin 2) : Statement (.otherCourseFrame k) := fun _ _ h => nomatch h

end Sys2Proof.Laws.Operands
end

