-- ==== Sys2Proof/Laws/State.lean ====
section
/-!
SUPPORT. Laws/State.lean: what each update of the block leaves alone, field by field.
-/

namespace Sys2Proof.Machine

/-! ### wr -/

@[simp] theorem wr_applied (d : Dev) (r : Reg) (w : Word) : (wr d r w).applied = d.applied := rfl
@[simp] theorem wr_dirty (d : Dev) (r : Reg) (w : Word) : (wr d r w).dirty = d.dirty := rfl
@[simp] theorem wr_latched (d : Dev) (r : Reg) (w : Word) : (wr d r w).latched = d.latched := rfl
@[simp] theorem wr_clock (d : Dev) (r : Reg) (w : Word) : (wr d r w).clock = d.clock := rfl
@[simp] theorem wr_elapsed (d : Dev) (r : Reg) (w : Word) : (wr d r w).elapsed = d.elapsed := rfl
@[simp] theorem wr_timers (d : Dev) (r : Reg) (w : Word) : (wr d r w).timers = d.timers := rfl
@[simp] theorem wr_kst (d : Dev) (r : Reg) (w : Word) : (wr d r w).kst = d.kst := rfl
@[simp] theorem wr_commits (d : Dev) (r : Reg) (w : Word) : (wr d r w).commits = d.commits := rfl
@[simp] theorem wr_nextCommit (d : Dev) (r : Reg) (w : Word) : (wr d r w).nextCommit = d.nextCommit := rfl
@[simp] theorem wr_postSeq (d : Dev) (r : Reg) (w : Word) : (wr d r w).postSeq = d.postSeq := rfl
@[simp] theorem wr_commitLog (d : Dev) (r : Reg) (w : Word) : (wr d r w).commitLog = d.commitLog := rfl
@[simp] theorem wr_clampLog (d : Dev) (r : Reg) (w : Word) : (wr d r w).clampLog = d.clampLog := rfl
@[simp] theorem wr_out (d : Dev) (r : Reg) (w : Word) : (wr d r w).out = d.out := rfl
@[simp] theorem wr_msixTable (d : Dev) (r : Reg) (w : Word) : (wr d r w).msixTable = d.msixTable := rfl
@[simp] theorem wr_msixPending (d : Dev) (r : Reg) (w : Word) : (wr d r w).msixPending = d.msixPending := rfl
@[simp] theorem wr_msixFnMask (d : Dev) (r : Reg) (w : Word) : (wr d r w).msixFnMask = d.msixFnMask := rfl
@[simp] theorem wr_freeCount (d : Dev) (r : Reg) (w : Word) : (wr d r w).freeCount = d.freeCount := rfl
@[simp] theorem wr_frzReport (d : Dev) (r : Reg) (w : Word) : (wr d r w).frzReport = d.frzReport := rfl
@[simp] theorem wr_secDue (d : Dev) (r : Reg) (w : Word) : (wr d r w).secDue = d.secDue := rfl
@[simp] theorem wr_fawStamps (d : Dev) (r : Reg) (w : Word) : (wr d r w).fawStamps = d.fawStamps := rfl
@[simp] theorem wr_lineHw (d : Dev) (r : Reg) (w : Word) : (wr d r w).lineHw = d.lineHw := rfl
@[simp] theorem wr_prbsGen (d : Dev) (r : Reg) (w : Word) : (wr d r w).prbsGen = d.prbsGen := rfl
@[simp] theorem wr_prbsChk (d : Dev) (r : Reg) (w : Word) : (wr d r w).prbsChk = d.prbsChk := rfl
@[simp] theorem wr_injTx (d : Dev) (r : Reg) (w : Word) : (wr d r w).injTx = d.injTx := rfl
@[simp] theorem wr_injRx (d : Dev) (r : Reg) (w : Word) : (wr d r w).injRx = d.injRx := rfl
@[simp] theorem wr_bitFrac (d : Dev) (r : Reg) (w : Word) : (wr d r w).bitFrac = d.bitFrac := rfl
@[simp] theorem wr_upHw (d : Dev) (r : Reg) (w : Word) : (wr d r w).upHw = d.upHw := rfl
@[simp] theorem wr_carry (d : Dev) (r : Reg) (w : Word) : (wr d r w).carry = d.carry := rfl
@[simp] theorem wr_formed (d : Dev) (r : Reg) (w : Word) : (wr d r w).formed = d.formed := rfl
@[simp] theorem wr_stageSeq (d : Dev) (r : Reg) (w : Word) : (wr d r w).stageSeq = d.stageSeq := rfl
@[simp] theorem wr_rngHw (d : Dev) (r : Reg) (w : Word) : (wr d r w).rngHw = d.rngHw := rfl
@[simp] theorem wr_corePause (d : Dev) (r : Reg) (w : Word) : (wr d r w).corePause = d.corePause := rfl
@[simp] theorem wr_queues (d : Dev) (r : Reg) (w : Word) : (wr d r w).queues = d.queues := rfl
@[simp] theorem wr_qstate (d : Dev) (r : Reg) (w : Word) : (wr d r w).qstate = d.qstate := rfl
@[simp] theorem wr_sdlLine (d : Dev) (r : Reg) (w : Word) : (wr d r w).sdlLine = d.sdlLine := rfl
@[simp] theorem wr_saddle (d : Dev) (r : Reg) (w : Word) : (wr d r w).saddle = d.saddle := rfl
@[simp] theorem wr_lineFresh (d : Dev) (r : Reg) (w : Word) : (wr d r w).lineFresh = d.lineFresh := rfl
@[simp] theorem wr_lineFirst (d : Dev) (r : Reg) (w : Word) : (wr d r w).lineFirst = d.lineFirst := rfl
@[simp] theorem wr_keySlots (d : Dev) (r : Reg) (w : Word) : (wr d r w).keySlots = d.keySlots := rfl
@[simp] theorem wr_bootKeys (d : Dev) (r : Reg) (w : Word) : (wr d r w).bootKeys = d.bootKeys := rfl
@[simp] theorem wr_encHw (d : Dev) (r : Reg) (w : Word) : (wr d r w).encHw = d.encHw := rfl
@[simp] theorem wr_bitmaps (d : Dev) (r : Reg) (w : Word) : (wr d r w).bitmaps = d.bitmaps := rfl
@[simp] theorem wr_endpoints (d : Dev) (r : Reg) (w : Word) : (wr d r w).endpoints = d.endpoints := rfl
@[simp] theorem wr_prsIn (d : Dev) (r : Reg) (w : Word) : (wr d r w).prsIn = d.prsIn := rfl
@[simp] theorem wr_ctrLimit (d : Dev) (r : Reg) (w : Word) : (wr d r w).ctrLimit = d.ctrLimit := rfl
@[simp] theorem wr_luHdrErr (d : Dev) (r : Reg) (w : Word) : (wr d r w).luHdrErr = d.luHdrErr := rfl
@[simp] theorem wr_anchorSet (d : Dev) (r : Reg) (w : Word) : (wr d r w).anchorSet = d.anchorSet := rfl
@[simp] theorem wr_anchored (d : Dev) (r : Reg) (w : Word) : (wr d r w).anchored = d.anchored := rfl
@[simp] theorem wr_eqrt (d : Dev) (r : Reg) (w : Word) : (wr d r w).eqrt = d.eqrt := rfl
@[simp] theorem wr_fwu (d : Dev) (r : Reg) (w : Word) : (wr d r w).fwu = d.fwu := rfl
@[simp] theorem wr_dsf (d : Dev) (r : Reg) (w : Word) : (wr d r w).dsf = d.dsf := rfl
@[simp] theorem wr_pwr (d : Dev) (r : Reg) (w : Word) : (wr d r w).pwr = d.pwr := rfl
@[simp] theorem wr_lanes (d : Dev) (r : Reg) (w : Word) : (wr d r w).lanes = d.lanes := rfl
@[simp] theorem wr_macs (d : Dev) (r : Reg) (w : Word) : (wr d r w).macs = d.macs := rfl
@[simp] theorem wr_pkt (d : Dev) (r : Reg) (w : Word) : (wr d r w).pkt = d.pkt := rfl
@[simp] theorem wr_ttd (d : Dev) (r : Reg) (w : Word) : (wr d r w).ttd = d.ttd := rfl
@[simp] theorem wr_host (d : Dev) (r : Reg) (w : Word) : (wr d r w).host = d.host := rfl
@[simp] theorem wr_bst (d : Dev) (r : Reg) (w : Word) : (wr d r w).bst = d.bst := rfl
@[simp] theorem wr_bootFrom (d : Dev) (r : Reg) (w : Word) : (wr d r w).bootFrom = d.bootFrom := rfl
@[simp] theorem wr_jtag (d : Dev) (r : Reg) (w : Word) : (wr d r w).jtag = d.jtag := rfl

/-! ### wrn -/

@[simp] theorem wrn_applied (d : Dev) (r : Reg) (n : Nat) : (wrn d r n).applied = d.applied := rfl
@[simp] theorem wrn_dirty (d : Dev) (r : Reg) (n : Nat) : (wrn d r n).dirty = d.dirty := rfl
@[simp] theorem wrn_latched (d : Dev) (r : Reg) (n : Nat) : (wrn d r n).latched = d.latched := rfl
@[simp] theorem wrn_clock (d : Dev) (r : Reg) (n : Nat) : (wrn d r n).clock = d.clock := rfl
@[simp] theorem wrn_elapsed (d : Dev) (r : Reg) (n : Nat) : (wrn d r n).elapsed = d.elapsed := rfl
@[simp] theorem wrn_timers (d : Dev) (r : Reg) (n : Nat) : (wrn d r n).timers = d.timers := rfl
@[simp] theorem wrn_kst (d : Dev) (r : Reg) (n : Nat) : (wrn d r n).kst = d.kst := rfl
@[simp] theorem wrn_commits (d : Dev) (r : Reg) (n : Nat) : (wrn d r n).commits = d.commits := rfl
@[simp] theorem wrn_nextCommit (d : Dev) (r : Reg) (n : Nat) : (wrn d r n).nextCommit = d.nextCommit := rfl
@[simp] theorem wrn_postSeq (d : Dev) (r : Reg) (n : Nat) : (wrn d r n).postSeq = d.postSeq := rfl
@[simp] theorem wrn_commitLog (d : Dev) (r : Reg) (n : Nat) : (wrn d r n).commitLog = d.commitLog := rfl
@[simp] theorem wrn_clampLog (d : Dev) (r : Reg) (n : Nat) : (wrn d r n).clampLog = d.clampLog := rfl
@[simp] theorem wrn_out (d : Dev) (r : Reg) (n : Nat) : (wrn d r n).out = d.out := rfl
@[simp] theorem wrn_msixTable (d : Dev) (r : Reg) (n : Nat) : (wrn d r n).msixTable = d.msixTable := rfl
@[simp] theorem wrn_msixPending (d : Dev) (r : Reg) (n : Nat) : (wrn d r n).msixPending = d.msixPending := rfl
@[simp] theorem wrn_msixFnMask (d : Dev) (r : Reg) (n : Nat) : (wrn d r n).msixFnMask = d.msixFnMask := rfl
@[simp] theorem wrn_freeCount (d : Dev) (r : Reg) (n : Nat) : (wrn d r n).freeCount = d.freeCount := rfl
@[simp] theorem wrn_frzReport (d : Dev) (r : Reg) (n : Nat) : (wrn d r n).frzReport = d.frzReport := rfl
@[simp] theorem wrn_secDue (d : Dev) (r : Reg) (n : Nat) : (wrn d r n).secDue = d.secDue := rfl
@[simp] theorem wrn_fawStamps (d : Dev) (r : Reg) (n : Nat) : (wrn d r n).fawStamps = d.fawStamps := rfl
@[simp] theorem wrn_lineHw (d : Dev) (r : Reg) (n : Nat) : (wrn d r n).lineHw = d.lineHw := rfl
@[simp] theorem wrn_prbsGen (d : Dev) (r : Reg) (n : Nat) : (wrn d r n).prbsGen = d.prbsGen := rfl
@[simp] theorem wrn_prbsChk (d : Dev) (r : Reg) (n : Nat) : (wrn d r n).prbsChk = d.prbsChk := rfl
@[simp] theorem wrn_injTx (d : Dev) (r : Reg) (n : Nat) : (wrn d r n).injTx = d.injTx := rfl
@[simp] theorem wrn_injRx (d : Dev) (r : Reg) (n : Nat) : (wrn d r n).injRx = d.injRx := rfl
@[simp] theorem wrn_bitFrac (d : Dev) (r : Reg) (n : Nat) : (wrn d r n).bitFrac = d.bitFrac := rfl
@[simp] theorem wrn_upHw (d : Dev) (r : Reg) (n : Nat) : (wrn d r n).upHw = d.upHw := rfl
@[simp] theorem wrn_carry (d : Dev) (r : Reg) (n : Nat) : (wrn d r n).carry = d.carry := rfl
@[simp] theorem wrn_formed (d : Dev) (r : Reg) (n : Nat) : (wrn d r n).formed = d.formed := rfl
@[simp] theorem wrn_stageSeq (d : Dev) (r : Reg) (n : Nat) : (wrn d r n).stageSeq = d.stageSeq := rfl
@[simp] theorem wrn_rngHw (d : Dev) (r : Reg) (n : Nat) : (wrn d r n).rngHw = d.rngHw := rfl
@[simp] theorem wrn_corePause (d : Dev) (r : Reg) (n : Nat) : (wrn d r n).corePause = d.corePause := rfl
@[simp] theorem wrn_queues (d : Dev) (r : Reg) (n : Nat) : (wrn d r n).queues = d.queues := rfl
@[simp] theorem wrn_qstate (d : Dev) (r : Reg) (n : Nat) : (wrn d r n).qstate = d.qstate := rfl
@[simp] theorem wrn_sdlLine (d : Dev) (r : Reg) (n : Nat) : (wrn d r n).sdlLine = d.sdlLine := rfl
@[simp] theorem wrn_saddle (d : Dev) (r : Reg) (n : Nat) : (wrn d r n).saddle = d.saddle := rfl
@[simp] theorem wrn_lineFresh (d : Dev) (r : Reg) (n : Nat) : (wrn d r n).lineFresh = d.lineFresh := rfl
@[simp] theorem wrn_lineFirst (d : Dev) (r : Reg) (n : Nat) : (wrn d r n).lineFirst = d.lineFirst := rfl
@[simp] theorem wrn_keySlots (d : Dev) (r : Reg) (n : Nat) : (wrn d r n).keySlots = d.keySlots := rfl
@[simp] theorem wrn_bootKeys (d : Dev) (r : Reg) (n : Nat) : (wrn d r n).bootKeys = d.bootKeys := rfl
@[simp] theorem wrn_encHw (d : Dev) (r : Reg) (n : Nat) : (wrn d r n).encHw = d.encHw := rfl
@[simp] theorem wrn_bitmaps (d : Dev) (r : Reg) (n : Nat) : (wrn d r n).bitmaps = d.bitmaps := rfl
@[simp] theorem wrn_endpoints (d : Dev) (r : Reg) (n : Nat) : (wrn d r n).endpoints = d.endpoints := rfl
@[simp] theorem wrn_prsIn (d : Dev) (r : Reg) (n : Nat) : (wrn d r n).prsIn = d.prsIn := rfl
@[simp] theorem wrn_ctrLimit (d : Dev) (r : Reg) (n : Nat) : (wrn d r n).ctrLimit = d.ctrLimit := rfl
@[simp] theorem wrn_luHdrErr (d : Dev) (r : Reg) (n : Nat) : (wrn d r n).luHdrErr = d.luHdrErr := rfl
@[simp] theorem wrn_anchorSet (d : Dev) (r : Reg) (n : Nat) : (wrn d r n).anchorSet = d.anchorSet := rfl
@[simp] theorem wrn_anchored (d : Dev) (r : Reg) (n : Nat) : (wrn d r n).anchored = d.anchored := rfl
@[simp] theorem wrn_eqrt (d : Dev) (r : Reg) (n : Nat) : (wrn d r n).eqrt = d.eqrt := rfl
@[simp] theorem wrn_fwu (d : Dev) (r : Reg) (n : Nat) : (wrn d r n).fwu = d.fwu := rfl
@[simp] theorem wrn_dsf (d : Dev) (r : Reg) (n : Nat) : (wrn d r n).dsf = d.dsf := rfl
@[simp] theorem wrn_pwr (d : Dev) (r : Reg) (n : Nat) : (wrn d r n).pwr = d.pwr := rfl
@[simp] theorem wrn_lanes (d : Dev) (r : Reg) (n : Nat) : (wrn d r n).lanes = d.lanes := rfl
@[simp] theorem wrn_macs (d : Dev) (r : Reg) (n : Nat) : (wrn d r n).macs = d.macs := rfl
@[simp] theorem wrn_pkt (d : Dev) (r : Reg) (n : Nat) : (wrn d r n).pkt = d.pkt := rfl
@[simp] theorem wrn_ttd (d : Dev) (r : Reg) (n : Nat) : (wrn d r n).ttd = d.ttd := rfl
@[simp] theorem wrn_host (d : Dev) (r : Reg) (n : Nat) : (wrn d r n).host = d.host := rfl
@[simp] theorem wrn_bst (d : Dev) (r : Reg) (n : Nat) : (wrn d r n).bst = d.bst := rfl
@[simp] theorem wrn_bootFrom (d : Dev) (r : Reg) (n : Nat) : (wrn d r n).bootFrom = d.bootFrom := rfl
@[simp] theorem wrn_jtag (d : Dev) (r : Reg) (n : Nat) : (wrn d r n).jtag = d.jtag := rfl

/-! ### setFld -/

@[simp] theorem setFld_applied (d : Dev) (f : Fld) (v : Nat) : (setFld d f v).applied = d.applied := rfl
@[simp] theorem setFld_dirty (d : Dev) (f : Fld) (v : Nat) : (setFld d f v).dirty = d.dirty := rfl
@[simp] theorem setFld_latched (d : Dev) (f : Fld) (v : Nat) : (setFld d f v).latched = d.latched := rfl
@[simp] theorem setFld_clock (d : Dev) (f : Fld) (v : Nat) : (setFld d f v).clock = d.clock := rfl
@[simp] theorem setFld_elapsed (d : Dev) (f : Fld) (v : Nat) : (setFld d f v).elapsed = d.elapsed := rfl
@[simp] theorem setFld_timers (d : Dev) (f : Fld) (v : Nat) : (setFld d f v).timers = d.timers := rfl
@[simp] theorem setFld_kst (d : Dev) (f : Fld) (v : Nat) : (setFld d f v).kst = d.kst := rfl
@[simp] theorem setFld_commits (d : Dev) (f : Fld) (v : Nat) : (setFld d f v).commits = d.commits := rfl
@[simp] theorem setFld_nextCommit (d : Dev) (f : Fld) (v : Nat) : (setFld d f v).nextCommit = d.nextCommit := rfl
@[simp] theorem setFld_postSeq (d : Dev) (f : Fld) (v : Nat) : (setFld d f v).postSeq = d.postSeq := rfl
@[simp] theorem setFld_commitLog (d : Dev) (f : Fld) (v : Nat) : (setFld d f v).commitLog = d.commitLog := rfl
@[simp] theorem setFld_clampLog (d : Dev) (f : Fld) (v : Nat) : (setFld d f v).clampLog = d.clampLog := rfl
@[simp] theorem setFld_out (d : Dev) (f : Fld) (v : Nat) : (setFld d f v).out = d.out := rfl
@[simp] theorem setFld_msixTable (d : Dev) (f : Fld) (v : Nat) : (setFld d f v).msixTable = d.msixTable := rfl
@[simp] theorem setFld_msixPending (d : Dev) (f : Fld) (v : Nat) : (setFld d f v).msixPending = d.msixPending := rfl
@[simp] theorem setFld_msixFnMask (d : Dev) (f : Fld) (v : Nat) : (setFld d f v).msixFnMask = d.msixFnMask := rfl
@[simp] theorem setFld_freeCount (d : Dev) (f : Fld) (v : Nat) : (setFld d f v).freeCount = d.freeCount := rfl
@[simp] theorem setFld_frzReport (d : Dev) (f : Fld) (v : Nat) : (setFld d f v).frzReport = d.frzReport := rfl
@[simp] theorem setFld_secDue (d : Dev) (f : Fld) (v : Nat) : (setFld d f v).secDue = d.secDue := rfl
@[simp] theorem setFld_fawStamps (d : Dev) (f : Fld) (v : Nat) : (setFld d f v).fawStamps = d.fawStamps := rfl
@[simp] theorem setFld_lineHw (d : Dev) (f : Fld) (v : Nat) : (setFld d f v).lineHw = d.lineHw := rfl
@[simp] theorem setFld_prbsGen (d : Dev) (f : Fld) (v : Nat) : (setFld d f v).prbsGen = d.prbsGen := rfl
@[simp] theorem setFld_prbsChk (d : Dev) (f : Fld) (v : Nat) : (setFld d f v).prbsChk = d.prbsChk := rfl
@[simp] theorem setFld_injTx (d : Dev) (f : Fld) (v : Nat) : (setFld d f v).injTx = d.injTx := rfl
@[simp] theorem setFld_injRx (d : Dev) (f : Fld) (v : Nat) : (setFld d f v).injRx = d.injRx := rfl
@[simp] theorem setFld_bitFrac (d : Dev) (f : Fld) (v : Nat) : (setFld d f v).bitFrac = d.bitFrac := rfl
@[simp] theorem setFld_upHw (d : Dev) (f : Fld) (v : Nat) : (setFld d f v).upHw = d.upHw := rfl
@[simp] theorem setFld_carry (d : Dev) (f : Fld) (v : Nat) : (setFld d f v).carry = d.carry := rfl
@[simp] theorem setFld_formed (d : Dev) (f : Fld) (v : Nat) : (setFld d f v).formed = d.formed := rfl
@[simp] theorem setFld_stageSeq (d : Dev) (f : Fld) (v : Nat) : (setFld d f v).stageSeq = d.stageSeq := rfl
@[simp] theorem setFld_rngHw (d : Dev) (f : Fld) (v : Nat) : (setFld d f v).rngHw = d.rngHw := rfl
@[simp] theorem setFld_corePause (d : Dev) (f : Fld) (v : Nat) : (setFld d f v).corePause = d.corePause := rfl
@[simp] theorem setFld_queues (d : Dev) (f : Fld) (v : Nat) : (setFld d f v).queues = d.queues := rfl
@[simp] theorem setFld_qstate (d : Dev) (f : Fld) (v : Nat) : (setFld d f v).qstate = d.qstate := rfl
@[simp] theorem setFld_sdlLine (d : Dev) (f : Fld) (v : Nat) : (setFld d f v).sdlLine = d.sdlLine := rfl
@[simp] theorem setFld_saddle (d : Dev) (f : Fld) (v : Nat) : (setFld d f v).saddle = d.saddle := rfl
@[simp] theorem setFld_lineFresh (d : Dev) (f : Fld) (v : Nat) : (setFld d f v).lineFresh = d.lineFresh := rfl
@[simp] theorem setFld_lineFirst (d : Dev) (f : Fld) (v : Nat) : (setFld d f v).lineFirst = d.lineFirst := rfl
@[simp] theorem setFld_keySlots (d : Dev) (f : Fld) (v : Nat) : (setFld d f v).keySlots = d.keySlots := rfl
@[simp] theorem setFld_bootKeys (d : Dev) (f : Fld) (v : Nat) : (setFld d f v).bootKeys = d.bootKeys := rfl
@[simp] theorem setFld_encHw (d : Dev) (f : Fld) (v : Nat) : (setFld d f v).encHw = d.encHw := rfl
@[simp] theorem setFld_bitmaps (d : Dev) (f : Fld) (v : Nat) : (setFld d f v).bitmaps = d.bitmaps := rfl
@[simp] theorem setFld_endpoints (d : Dev) (f : Fld) (v : Nat) : (setFld d f v).endpoints = d.endpoints := rfl
@[simp] theorem setFld_prsIn (d : Dev) (f : Fld) (v : Nat) : (setFld d f v).prsIn = d.prsIn := rfl
@[simp] theorem setFld_ctrLimit (d : Dev) (f : Fld) (v : Nat) : (setFld d f v).ctrLimit = d.ctrLimit := rfl
@[simp] theorem setFld_luHdrErr (d : Dev) (f : Fld) (v : Nat) : (setFld d f v).luHdrErr = d.luHdrErr := rfl
@[simp] theorem setFld_anchorSet (d : Dev) (f : Fld) (v : Nat) : (setFld d f v).anchorSet = d.anchorSet := rfl
@[simp] theorem setFld_anchored (d : Dev) (f : Fld) (v : Nat) : (setFld d f v).anchored = d.anchored := rfl
@[simp] theorem setFld_eqrt (d : Dev) (f : Fld) (v : Nat) : (setFld d f v).eqrt = d.eqrt := rfl
@[simp] theorem setFld_fwu (d : Dev) (f : Fld) (v : Nat) : (setFld d f v).fwu = d.fwu := rfl
@[simp] theorem setFld_dsf (d : Dev) (f : Fld) (v : Nat) : (setFld d f v).dsf = d.dsf := rfl
@[simp] theorem setFld_pwr (d : Dev) (f : Fld) (v : Nat) : (setFld d f v).pwr = d.pwr := rfl
@[simp] theorem setFld_lanes (d : Dev) (f : Fld) (v : Nat) : (setFld d f v).lanes = d.lanes := rfl
@[simp] theorem setFld_macs (d : Dev) (f : Fld) (v : Nat) : (setFld d f v).macs = d.macs := rfl
@[simp] theorem setFld_pkt (d : Dev) (f : Fld) (v : Nat) : (setFld d f v).pkt = d.pkt := rfl
@[simp] theorem setFld_ttd (d : Dev) (f : Fld) (v : Nat) : (setFld d f v).ttd = d.ttd := rfl
@[simp] theorem setFld_host (d : Dev) (f : Fld) (v : Nat) : (setFld d f v).host = d.host := rfl
@[simp] theorem setFld_bst (d : Dev) (f : Fld) (v : Nat) : (setFld d f v).bst = d.bst := rfl
@[simp] theorem setFld_bootFrom (d : Dev) (f : Fld) (v : Nat) : (setFld d f v).bootFrom = d.bootFrom := rfl
@[simp] theorem setFld_jtag (d : Dev) (f : Fld) (v : Nat) : (setFld d f v).jtag = d.jtag := rfl

/-! ### setFlag -/

@[simp] theorem setFlag_applied (d : Dev) (f : Fld) (b : Bool) : (setFlag d f b).applied = d.applied := rfl
@[simp] theorem setFlag_dirty (d : Dev) (f : Fld) (b : Bool) : (setFlag d f b).dirty = d.dirty := rfl
@[simp] theorem setFlag_latched (d : Dev) (f : Fld) (b : Bool) : (setFlag d f b).latched = d.latched := rfl
@[simp] theorem setFlag_clock (d : Dev) (f : Fld) (b : Bool) : (setFlag d f b).clock = d.clock := rfl
@[simp] theorem setFlag_elapsed (d : Dev) (f : Fld) (b : Bool) : (setFlag d f b).elapsed = d.elapsed := rfl
@[simp] theorem setFlag_timers (d : Dev) (f : Fld) (b : Bool) : (setFlag d f b).timers = d.timers := rfl
@[simp] theorem setFlag_kst (d : Dev) (f : Fld) (b : Bool) : (setFlag d f b).kst = d.kst := rfl
@[simp] theorem setFlag_commits (d : Dev) (f : Fld) (b : Bool) : (setFlag d f b).commits = d.commits := rfl
@[simp] theorem setFlag_nextCommit (d : Dev) (f : Fld) (b : Bool) : (setFlag d f b).nextCommit = d.nextCommit := rfl
@[simp] theorem setFlag_postSeq (d : Dev) (f : Fld) (b : Bool) : (setFlag d f b).postSeq = d.postSeq := rfl
@[simp] theorem setFlag_commitLog (d : Dev) (f : Fld) (b : Bool) : (setFlag d f b).commitLog = d.commitLog := rfl
@[simp] theorem setFlag_clampLog (d : Dev) (f : Fld) (b : Bool) : (setFlag d f b).clampLog = d.clampLog := rfl
@[simp] theorem setFlag_out (d : Dev) (f : Fld) (b : Bool) : (setFlag d f b).out = d.out := rfl
@[simp] theorem setFlag_msixTable (d : Dev) (f : Fld) (b : Bool) : (setFlag d f b).msixTable = d.msixTable := rfl
@[simp] theorem setFlag_msixPending (d : Dev) (f : Fld) (b : Bool) : (setFlag d f b).msixPending = d.msixPending := rfl
@[simp] theorem setFlag_msixFnMask (d : Dev) (f : Fld) (b : Bool) : (setFlag d f b).msixFnMask = d.msixFnMask := rfl
@[simp] theorem setFlag_freeCount (d : Dev) (f : Fld) (b : Bool) : (setFlag d f b).freeCount = d.freeCount := rfl
@[simp] theorem setFlag_frzReport (d : Dev) (f : Fld) (b : Bool) : (setFlag d f b).frzReport = d.frzReport := rfl
@[simp] theorem setFlag_secDue (d : Dev) (f : Fld) (b : Bool) : (setFlag d f b).secDue = d.secDue := rfl
@[simp] theorem setFlag_fawStamps (d : Dev) (f : Fld) (b : Bool) : (setFlag d f b).fawStamps = d.fawStamps := rfl
@[simp] theorem setFlag_lineHw (d : Dev) (f : Fld) (b : Bool) : (setFlag d f b).lineHw = d.lineHw := rfl
@[simp] theorem setFlag_prbsGen (d : Dev) (f : Fld) (b : Bool) : (setFlag d f b).prbsGen = d.prbsGen := rfl
@[simp] theorem setFlag_prbsChk (d : Dev) (f : Fld) (b : Bool) : (setFlag d f b).prbsChk = d.prbsChk := rfl
@[simp] theorem setFlag_injTx (d : Dev) (f : Fld) (b : Bool) : (setFlag d f b).injTx = d.injTx := rfl
@[simp] theorem setFlag_injRx (d : Dev) (f : Fld) (b : Bool) : (setFlag d f b).injRx = d.injRx := rfl
@[simp] theorem setFlag_bitFrac (d : Dev) (f : Fld) (b : Bool) : (setFlag d f b).bitFrac = d.bitFrac := rfl
@[simp] theorem setFlag_upHw (d : Dev) (f : Fld) (b : Bool) : (setFlag d f b).upHw = d.upHw := rfl
@[simp] theorem setFlag_carry (d : Dev) (f : Fld) (b : Bool) : (setFlag d f b).carry = d.carry := rfl
@[simp] theorem setFlag_formed (d : Dev) (f : Fld) (b : Bool) : (setFlag d f b).formed = d.formed := rfl
@[simp] theorem setFlag_stageSeq (d : Dev) (f : Fld) (b : Bool) : (setFlag d f b).stageSeq = d.stageSeq := rfl
@[simp] theorem setFlag_rngHw (d : Dev) (f : Fld) (b : Bool) : (setFlag d f b).rngHw = d.rngHw := rfl
@[simp] theorem setFlag_corePause (d : Dev) (f : Fld) (b : Bool) : (setFlag d f b).corePause = d.corePause := rfl
@[simp] theorem setFlag_queues (d : Dev) (f : Fld) (b : Bool) : (setFlag d f b).queues = d.queues := rfl
@[simp] theorem setFlag_qstate (d : Dev) (f : Fld) (b : Bool) : (setFlag d f b).qstate = d.qstate := rfl
@[simp] theorem setFlag_sdlLine (d : Dev) (f : Fld) (b : Bool) : (setFlag d f b).sdlLine = d.sdlLine := rfl
@[simp] theorem setFlag_saddle (d : Dev) (f : Fld) (b : Bool) : (setFlag d f b).saddle = d.saddle := rfl
@[simp] theorem setFlag_lineFresh (d : Dev) (f : Fld) (b : Bool) : (setFlag d f b).lineFresh = d.lineFresh := rfl
@[simp] theorem setFlag_lineFirst (d : Dev) (f : Fld) (b : Bool) : (setFlag d f b).lineFirst = d.lineFirst := rfl
@[simp] theorem setFlag_keySlots (d : Dev) (f : Fld) (b : Bool) : (setFlag d f b).keySlots = d.keySlots := rfl
@[simp] theorem setFlag_bootKeys (d : Dev) (f : Fld) (b : Bool) : (setFlag d f b).bootKeys = d.bootKeys := rfl
@[simp] theorem setFlag_encHw (d : Dev) (f : Fld) (b : Bool) : (setFlag d f b).encHw = d.encHw := rfl
@[simp] theorem setFlag_bitmaps (d : Dev) (f : Fld) (b : Bool) : (setFlag d f b).bitmaps = d.bitmaps := rfl
@[simp] theorem setFlag_endpoints (d : Dev) (f : Fld) (b : Bool) : (setFlag d f b).endpoints = d.endpoints := rfl
@[simp] theorem setFlag_prsIn (d : Dev) (f : Fld) (b : Bool) : (setFlag d f b).prsIn = d.prsIn := rfl
@[simp] theorem setFlag_ctrLimit (d : Dev) (f : Fld) (b : Bool) : (setFlag d f b).ctrLimit = d.ctrLimit := rfl
@[simp] theorem setFlag_luHdrErr (d : Dev) (f : Fld) (b : Bool) : (setFlag d f b).luHdrErr = d.luHdrErr := rfl
@[simp] theorem setFlag_anchorSet (d : Dev) (f : Fld) (b : Bool) : (setFlag d f b).anchorSet = d.anchorSet := rfl
@[simp] theorem setFlag_anchored (d : Dev) (f : Fld) (b : Bool) : (setFlag d f b).anchored = d.anchored := rfl
@[simp] theorem setFlag_eqrt (d : Dev) (f : Fld) (b : Bool) : (setFlag d f b).eqrt = d.eqrt := rfl
@[simp] theorem setFlag_fwu (d : Dev) (f : Fld) (b : Bool) : (setFlag d f b).fwu = d.fwu := rfl
@[simp] theorem setFlag_dsf (d : Dev) (f : Fld) (b : Bool) : (setFlag d f b).dsf = d.dsf := rfl
@[simp] theorem setFlag_pwr (d : Dev) (f : Fld) (b : Bool) : (setFlag d f b).pwr = d.pwr := rfl
@[simp] theorem setFlag_lanes (d : Dev) (f : Fld) (b : Bool) : (setFlag d f b).lanes = d.lanes := rfl
@[simp] theorem setFlag_macs (d : Dev) (f : Fld) (b : Bool) : (setFlag d f b).macs = d.macs := rfl
@[simp] theorem setFlag_pkt (d : Dev) (f : Fld) (b : Bool) : (setFlag d f b).pkt = d.pkt := rfl
@[simp] theorem setFlag_ttd (d : Dev) (f : Fld) (b : Bool) : (setFlag d f b).ttd = d.ttd := rfl
@[simp] theorem setFlag_host (d : Dev) (f : Fld) (b : Bool) : (setFlag d f b).host = d.host := rfl
@[simp] theorem setFlag_bst (d : Dev) (f : Fld) (b : Bool) : (setFlag d f b).bst = d.bst := rfl
@[simp] theorem setFlag_bootFrom (d : Dev) (f : Fld) (b : Bool) : (setFlag d f b).bootFrom = d.bootFrom := rfl
@[simp] theorem setFlag_jtag (d : Dev) (f : Fld) (b : Bool) : (setFlag d f b).jtag = d.jtag := rfl

/-! ### setRegBit -/

@[simp] theorem setRegBit_applied (d : Dev) (r : Reg) (b : Nat) (v : Bool) : (setRegBit d r b v).applied = d.applied := rfl
@[simp] theorem setRegBit_dirty (d : Dev) (r : Reg) (b : Nat) (v : Bool) : (setRegBit d r b v).dirty = d.dirty := rfl
@[simp] theorem setRegBit_latched (d : Dev) (r : Reg) (b : Nat) (v : Bool) : (setRegBit d r b v).latched = d.latched := rfl
@[simp] theorem setRegBit_clock (d : Dev) (r : Reg) (b : Nat) (v : Bool) : (setRegBit d r b v).clock = d.clock := rfl
@[simp] theorem setRegBit_elapsed (d : Dev) (r : Reg) (b : Nat) (v : Bool) : (setRegBit d r b v).elapsed = d.elapsed := rfl
@[simp] theorem setRegBit_timers (d : Dev) (r : Reg) (b : Nat) (v : Bool) : (setRegBit d r b v).timers = d.timers := rfl
@[simp] theorem setRegBit_kst (d : Dev) (r : Reg) (b : Nat) (v : Bool) : (setRegBit d r b v).kst = d.kst := rfl
@[simp] theorem setRegBit_commits (d : Dev) (r : Reg) (b : Nat) (v : Bool) : (setRegBit d r b v).commits = d.commits := rfl
@[simp] theorem setRegBit_nextCommit (d : Dev) (r : Reg) (b : Nat) (v : Bool) : (setRegBit d r b v).nextCommit = d.nextCommit := rfl
@[simp] theorem setRegBit_postSeq (d : Dev) (r : Reg) (b : Nat) (v : Bool) : (setRegBit d r b v).postSeq = d.postSeq := rfl
@[simp] theorem setRegBit_commitLog (d : Dev) (r : Reg) (b : Nat) (v : Bool) : (setRegBit d r b v).commitLog = d.commitLog := rfl
@[simp] theorem setRegBit_clampLog (d : Dev) (r : Reg) (b : Nat) (v : Bool) : (setRegBit d r b v).clampLog = d.clampLog := rfl
@[simp] theorem setRegBit_out (d : Dev) (r : Reg) (b : Nat) (v : Bool) : (setRegBit d r b v).out = d.out := rfl
@[simp] theorem setRegBit_msixTable (d : Dev) (r : Reg) (b : Nat) (v : Bool) : (setRegBit d r b v).msixTable = d.msixTable := rfl
@[simp] theorem setRegBit_msixPending (d : Dev) (r : Reg) (b : Nat) (v : Bool) : (setRegBit d r b v).msixPending = d.msixPending := rfl
@[simp] theorem setRegBit_msixFnMask (d : Dev) (r : Reg) (b : Nat) (v : Bool) : (setRegBit d r b v).msixFnMask = d.msixFnMask := rfl
@[simp] theorem setRegBit_freeCount (d : Dev) (r : Reg) (b : Nat) (v : Bool) : (setRegBit d r b v).freeCount = d.freeCount := rfl
@[simp] theorem setRegBit_frzReport (d : Dev) (r : Reg) (b : Nat) (v : Bool) : (setRegBit d r b v).frzReport = d.frzReport := rfl
@[simp] theorem setRegBit_secDue (d : Dev) (r : Reg) (b : Nat) (v : Bool) : (setRegBit d r b v).secDue = d.secDue := rfl
@[simp] theorem setRegBit_fawStamps (d : Dev) (r : Reg) (b : Nat) (v : Bool) : (setRegBit d r b v).fawStamps = d.fawStamps := rfl
@[simp] theorem setRegBit_lineHw (d : Dev) (r : Reg) (b : Nat) (v : Bool) : (setRegBit d r b v).lineHw = d.lineHw := rfl
@[simp] theorem setRegBit_prbsGen (d : Dev) (r : Reg) (b : Nat) (v : Bool) : (setRegBit d r b v).prbsGen = d.prbsGen := rfl
@[simp] theorem setRegBit_prbsChk (d : Dev) (r : Reg) (b : Nat) (v : Bool) : (setRegBit d r b v).prbsChk = d.prbsChk := rfl
@[simp] theorem setRegBit_injTx (d : Dev) (r : Reg) (b : Nat) (v : Bool) : (setRegBit d r b v).injTx = d.injTx := rfl
@[simp] theorem setRegBit_injRx (d : Dev) (r : Reg) (b : Nat) (v : Bool) : (setRegBit d r b v).injRx = d.injRx := rfl
@[simp] theorem setRegBit_bitFrac (d : Dev) (r : Reg) (b : Nat) (v : Bool) : (setRegBit d r b v).bitFrac = d.bitFrac := rfl
@[simp] theorem setRegBit_upHw (d : Dev) (r : Reg) (b : Nat) (v : Bool) : (setRegBit d r b v).upHw = d.upHw := rfl
@[simp] theorem setRegBit_carry (d : Dev) (r : Reg) (b : Nat) (v : Bool) : (setRegBit d r b v).carry = d.carry := rfl
@[simp] theorem setRegBit_formed (d : Dev) (r : Reg) (b : Nat) (v : Bool) : (setRegBit d r b v).formed = d.formed := rfl
@[simp] theorem setRegBit_stageSeq (d : Dev) (r : Reg) (b : Nat) (v : Bool) : (setRegBit d r b v).stageSeq = d.stageSeq := rfl
@[simp] theorem setRegBit_rngHw (d : Dev) (r : Reg) (b : Nat) (v : Bool) : (setRegBit d r b v).rngHw = d.rngHw := rfl
@[simp] theorem setRegBit_corePause (d : Dev) (r : Reg) (b : Nat) (v : Bool) : (setRegBit d r b v).corePause = d.corePause := rfl
@[simp] theorem setRegBit_queues (d : Dev) (r : Reg) (b : Nat) (v : Bool) : (setRegBit d r b v).queues = d.queues := rfl
@[simp] theorem setRegBit_qstate (d : Dev) (r : Reg) (b : Nat) (v : Bool) : (setRegBit d r b v).qstate = d.qstate := rfl
@[simp] theorem setRegBit_sdlLine (d : Dev) (r : Reg) (b : Nat) (v : Bool) : (setRegBit d r b v).sdlLine = d.sdlLine := rfl
@[simp] theorem setRegBit_saddle (d : Dev) (r : Reg) (b : Nat) (v : Bool) : (setRegBit d r b v).saddle = d.saddle := rfl
@[simp] theorem setRegBit_lineFresh (d : Dev) (r : Reg) (b : Nat) (v : Bool) : (setRegBit d r b v).lineFresh = d.lineFresh := rfl
@[simp] theorem setRegBit_lineFirst (d : Dev) (r : Reg) (b : Nat) (v : Bool) : (setRegBit d r b v).lineFirst = d.lineFirst := rfl
@[simp] theorem setRegBit_keySlots (d : Dev) (r : Reg) (b : Nat) (v : Bool) : (setRegBit d r b v).keySlots = d.keySlots := rfl
@[simp] theorem setRegBit_bootKeys (d : Dev) (r : Reg) (b : Nat) (v : Bool) : (setRegBit d r b v).bootKeys = d.bootKeys := rfl
@[simp] theorem setRegBit_encHw (d : Dev) (r : Reg) (b : Nat) (v : Bool) : (setRegBit d r b v).encHw = d.encHw := rfl
@[simp] theorem setRegBit_bitmaps (d : Dev) (r : Reg) (b : Nat) (v : Bool) : (setRegBit d r b v).bitmaps = d.bitmaps := rfl
@[simp] theorem setRegBit_endpoints (d : Dev) (r : Reg) (b : Nat) (v : Bool) : (setRegBit d r b v).endpoints = d.endpoints := rfl
@[simp] theorem setRegBit_prsIn (d : Dev) (r : Reg) (b : Nat) (v : Bool) : (setRegBit d r b v).prsIn = d.prsIn := rfl
@[simp] theorem setRegBit_ctrLimit (d : Dev) (r : Reg) (b : Nat) (v : Bool) : (setRegBit d r b v).ctrLimit = d.ctrLimit := rfl
@[simp] theorem setRegBit_luHdrErr (d : Dev) (r : Reg) (b : Nat) (v : Bool) : (setRegBit d r b v).luHdrErr = d.luHdrErr := rfl
@[simp] theorem setRegBit_anchorSet (d : Dev) (r : Reg) (b : Nat) (v : Bool) : (setRegBit d r b v).anchorSet = d.anchorSet := rfl
@[simp] theorem setRegBit_anchored (d : Dev) (r : Reg) (b : Nat) (v : Bool) : (setRegBit d r b v).anchored = d.anchored := rfl
@[simp] theorem setRegBit_eqrt (d : Dev) (r : Reg) (b : Nat) (v : Bool) : (setRegBit d r b v).eqrt = d.eqrt := rfl
@[simp] theorem setRegBit_fwu (d : Dev) (r : Reg) (b : Nat) (v : Bool) : (setRegBit d r b v).fwu = d.fwu := rfl
@[simp] theorem setRegBit_dsf (d : Dev) (r : Reg) (b : Nat) (v : Bool) : (setRegBit d r b v).dsf = d.dsf := rfl
@[simp] theorem setRegBit_pwr (d : Dev) (r : Reg) (b : Nat) (v : Bool) : (setRegBit d r b v).pwr = d.pwr := rfl
@[simp] theorem setRegBit_lanes (d : Dev) (r : Reg) (b : Nat) (v : Bool) : (setRegBit d r b v).lanes = d.lanes := rfl
@[simp] theorem setRegBit_macs (d : Dev) (r : Reg) (b : Nat) (v : Bool) : (setRegBit d r b v).macs = d.macs := rfl
@[simp] theorem setRegBit_pkt (d : Dev) (r : Reg) (b : Nat) (v : Bool) : (setRegBit d r b v).pkt = d.pkt := rfl
@[simp] theorem setRegBit_ttd (d : Dev) (r : Reg) (b : Nat) (v : Bool) : (setRegBit d r b v).ttd = d.ttd := rfl
@[simp] theorem setRegBit_host (d : Dev) (r : Reg) (b : Nat) (v : Bool) : (setRegBit d r b v).host = d.host := rfl
@[simp] theorem setRegBit_bst (d : Dev) (r : Reg) (b : Nat) (v : Bool) : (setRegBit d r b v).bst = d.bst := rfl
@[simp] theorem setRegBit_bootFrom (d : Dev) (r : Reg) (b : Nat) (v : Bool) : (setRegBit d r b v).bootFrom = d.bootFrom := rfl
@[simp] theorem setRegBit_jtag (d : Dev) (r : Reg) (b : Nat) (v : Bool) : (setRegBit d r b v).jtag = d.jtag := rfl

/-! ### count -/

@[simp] theorem count_applied (d : Dev) (r : Reg) : (count d r).applied = d.applied := rfl
@[simp] theorem count_dirty (d : Dev) (r : Reg) : (count d r).dirty = d.dirty := rfl
@[simp] theorem count_latched (d : Dev) (r : Reg) : (count d r).latched = d.latched := rfl
@[simp] theorem count_clock (d : Dev) (r : Reg) : (count d r).clock = d.clock := rfl
@[simp] theorem count_elapsed (d : Dev) (r : Reg) : (count d r).elapsed = d.elapsed := rfl
@[simp] theorem count_timers (d : Dev) (r : Reg) : (count d r).timers = d.timers := rfl
@[simp] theorem count_kst (d : Dev) (r : Reg) : (count d r).kst = d.kst := rfl
@[simp] theorem count_commits (d : Dev) (r : Reg) : (count d r).commits = d.commits := rfl
@[simp] theorem count_nextCommit (d : Dev) (r : Reg) : (count d r).nextCommit = d.nextCommit := rfl
@[simp] theorem count_postSeq (d : Dev) (r : Reg) : (count d r).postSeq = d.postSeq := rfl
@[simp] theorem count_commitLog (d : Dev) (r : Reg) : (count d r).commitLog = d.commitLog := rfl
@[simp] theorem count_clampLog (d : Dev) (r : Reg) : (count d r).clampLog = d.clampLog := rfl
@[simp] theorem count_out (d : Dev) (r : Reg) : (count d r).out = d.out := rfl
@[simp] theorem count_msixTable (d : Dev) (r : Reg) : (count d r).msixTable = d.msixTable := rfl
@[simp] theorem count_msixPending (d : Dev) (r : Reg) : (count d r).msixPending = d.msixPending := rfl
@[simp] theorem count_msixFnMask (d : Dev) (r : Reg) : (count d r).msixFnMask = d.msixFnMask := rfl
@[simp] theorem count_freeCount (d : Dev) (r : Reg) : (count d r).freeCount = d.freeCount := rfl
@[simp] theorem count_frzReport (d : Dev) (r : Reg) : (count d r).frzReport = d.frzReport := rfl
@[simp] theorem count_secDue (d : Dev) (r : Reg) : (count d r).secDue = d.secDue := rfl
@[simp] theorem count_fawStamps (d : Dev) (r : Reg) : (count d r).fawStamps = d.fawStamps := rfl
@[simp] theorem count_lineHw (d : Dev) (r : Reg) : (count d r).lineHw = d.lineHw := rfl
@[simp] theorem count_prbsGen (d : Dev) (r : Reg) : (count d r).prbsGen = d.prbsGen := rfl
@[simp] theorem count_prbsChk (d : Dev) (r : Reg) : (count d r).prbsChk = d.prbsChk := rfl
@[simp] theorem count_injTx (d : Dev) (r : Reg) : (count d r).injTx = d.injTx := rfl
@[simp] theorem count_injRx (d : Dev) (r : Reg) : (count d r).injRx = d.injRx := rfl
@[simp] theorem count_bitFrac (d : Dev) (r : Reg) : (count d r).bitFrac = d.bitFrac := rfl
@[simp] theorem count_upHw (d : Dev) (r : Reg) : (count d r).upHw = d.upHw := rfl
@[simp] theorem count_carry (d : Dev) (r : Reg) : (count d r).carry = d.carry := rfl
@[simp] theorem count_formed (d : Dev) (r : Reg) : (count d r).formed = d.formed := rfl
@[simp] theorem count_stageSeq (d : Dev) (r : Reg) : (count d r).stageSeq = d.stageSeq := rfl
@[simp] theorem count_rngHw (d : Dev) (r : Reg) : (count d r).rngHw = d.rngHw := rfl
@[simp] theorem count_corePause (d : Dev) (r : Reg) : (count d r).corePause = d.corePause := rfl
@[simp] theorem count_queues (d : Dev) (r : Reg) : (count d r).queues = d.queues := rfl
@[simp] theorem count_qstate (d : Dev) (r : Reg) : (count d r).qstate = d.qstate := rfl
@[simp] theorem count_sdlLine (d : Dev) (r : Reg) : (count d r).sdlLine = d.sdlLine := rfl
@[simp] theorem count_saddle (d : Dev) (r : Reg) : (count d r).saddle = d.saddle := rfl
@[simp] theorem count_lineFresh (d : Dev) (r : Reg) : (count d r).lineFresh = d.lineFresh := rfl
@[simp] theorem count_lineFirst (d : Dev) (r : Reg) : (count d r).lineFirst = d.lineFirst := rfl
@[simp] theorem count_keySlots (d : Dev) (r : Reg) : (count d r).keySlots = d.keySlots := rfl
@[simp] theorem count_bootKeys (d : Dev) (r : Reg) : (count d r).bootKeys = d.bootKeys := rfl
@[simp] theorem count_encHw (d : Dev) (r : Reg) : (count d r).encHw = d.encHw := rfl
@[simp] theorem count_bitmaps (d : Dev) (r : Reg) : (count d r).bitmaps = d.bitmaps := rfl
@[simp] theorem count_endpoints (d : Dev) (r : Reg) : (count d r).endpoints = d.endpoints := rfl
@[simp] theorem count_prsIn (d : Dev) (r : Reg) : (count d r).prsIn = d.prsIn := rfl
@[simp] theorem count_ctrLimit (d : Dev) (r : Reg) : (count d r).ctrLimit = d.ctrLimit := rfl
@[simp] theorem count_luHdrErr (d : Dev) (r : Reg) : (count d r).luHdrErr = d.luHdrErr := rfl
@[simp] theorem count_anchorSet (d : Dev) (r : Reg) : (count d r).anchorSet = d.anchorSet := rfl
@[simp] theorem count_anchored (d : Dev) (r : Reg) : (count d r).anchored = d.anchored := rfl
@[simp] theorem count_eqrt (d : Dev) (r : Reg) : (count d r).eqrt = d.eqrt := rfl
@[simp] theorem count_fwu (d : Dev) (r : Reg) : (count d r).fwu = d.fwu := rfl
@[simp] theorem count_dsf (d : Dev) (r : Reg) : (count d r).dsf = d.dsf := rfl
@[simp] theorem count_pwr (d : Dev) (r : Reg) : (count d r).pwr = d.pwr := rfl
@[simp] theorem count_lanes (d : Dev) (r : Reg) : (count d r).lanes = d.lanes := rfl
@[simp] theorem count_macs (d : Dev) (r : Reg) : (count d r).macs = d.macs := rfl
@[simp] theorem count_pkt (d : Dev) (r : Reg) : (count d r).pkt = d.pkt := rfl
@[simp] theorem count_ttd (d : Dev) (r : Reg) : (count d r).ttd = d.ttd := rfl
@[simp] theorem count_host (d : Dev) (r : Reg) : (count d r).host = d.host := rfl
@[simp] theorem count_bst (d : Dev) (r : Reg) : (count d r).bst = d.bst := rfl
@[simp] theorem count_bootFrom (d : Dev) (r : Reg) : (count d r).bootFrom = d.bootFrom := rfl
@[simp] theorem count_jtag (d : Dev) (r : Reg) : (count d r).jtag = d.jtag := rfl

/-! ### countFld -/

@[simp] theorem countFld_applied (d : Dev) (f : Fld) : (countFld d f).applied = d.applied := rfl
@[simp] theorem countFld_dirty (d : Dev) (f : Fld) : (countFld d f).dirty = d.dirty := rfl
@[simp] theorem countFld_latched (d : Dev) (f : Fld) : (countFld d f).latched = d.latched := rfl
@[simp] theorem countFld_clock (d : Dev) (f : Fld) : (countFld d f).clock = d.clock := rfl
@[simp] theorem countFld_elapsed (d : Dev) (f : Fld) : (countFld d f).elapsed = d.elapsed := rfl
@[simp] theorem countFld_timers (d : Dev) (f : Fld) : (countFld d f).timers = d.timers := rfl
@[simp] theorem countFld_kst (d : Dev) (f : Fld) : (countFld d f).kst = d.kst := rfl
@[simp] theorem countFld_commits (d : Dev) (f : Fld) : (countFld d f).commits = d.commits := rfl
@[simp] theorem countFld_nextCommit (d : Dev) (f : Fld) : (countFld d f).nextCommit = d.nextCommit := rfl
@[simp] theorem countFld_postSeq (d : Dev) (f : Fld) : (countFld d f).postSeq = d.postSeq := rfl
@[simp] theorem countFld_commitLog (d : Dev) (f : Fld) : (countFld d f).commitLog = d.commitLog := rfl
@[simp] theorem countFld_clampLog (d : Dev) (f : Fld) : (countFld d f).clampLog = d.clampLog := rfl
@[simp] theorem countFld_out (d : Dev) (f : Fld) : (countFld d f).out = d.out := rfl
@[simp] theorem countFld_msixTable (d : Dev) (f : Fld) : (countFld d f).msixTable = d.msixTable := rfl
@[simp] theorem countFld_msixPending (d : Dev) (f : Fld) : (countFld d f).msixPending = d.msixPending := rfl
@[simp] theorem countFld_msixFnMask (d : Dev) (f : Fld) : (countFld d f).msixFnMask = d.msixFnMask := rfl
@[simp] theorem countFld_freeCount (d : Dev) (f : Fld) : (countFld d f).freeCount = d.freeCount := rfl
@[simp] theorem countFld_frzReport (d : Dev) (f : Fld) : (countFld d f).frzReport = d.frzReport := rfl
@[simp] theorem countFld_secDue (d : Dev) (f : Fld) : (countFld d f).secDue = d.secDue := rfl
@[simp] theorem countFld_fawStamps (d : Dev) (f : Fld) : (countFld d f).fawStamps = d.fawStamps := rfl
@[simp] theorem countFld_lineHw (d : Dev) (f : Fld) : (countFld d f).lineHw = d.lineHw := rfl
@[simp] theorem countFld_prbsGen (d : Dev) (f : Fld) : (countFld d f).prbsGen = d.prbsGen := rfl
@[simp] theorem countFld_prbsChk (d : Dev) (f : Fld) : (countFld d f).prbsChk = d.prbsChk := rfl
@[simp] theorem countFld_injTx (d : Dev) (f : Fld) : (countFld d f).injTx = d.injTx := rfl
@[simp] theorem countFld_injRx (d : Dev) (f : Fld) : (countFld d f).injRx = d.injRx := rfl
@[simp] theorem countFld_bitFrac (d : Dev) (f : Fld) : (countFld d f).bitFrac = d.bitFrac := rfl
@[simp] theorem countFld_upHw (d : Dev) (f : Fld) : (countFld d f).upHw = d.upHw := rfl
@[simp] theorem countFld_carry (d : Dev) (f : Fld) : (countFld d f).carry = d.carry := rfl
@[simp] theorem countFld_formed (d : Dev) (f : Fld) : (countFld d f).formed = d.formed := rfl
@[simp] theorem countFld_stageSeq (d : Dev) (f : Fld) : (countFld d f).stageSeq = d.stageSeq := rfl
@[simp] theorem countFld_rngHw (d : Dev) (f : Fld) : (countFld d f).rngHw = d.rngHw := rfl
@[simp] theorem countFld_corePause (d : Dev) (f : Fld) : (countFld d f).corePause = d.corePause := rfl
@[simp] theorem countFld_queues (d : Dev) (f : Fld) : (countFld d f).queues = d.queues := rfl
@[simp] theorem countFld_qstate (d : Dev) (f : Fld) : (countFld d f).qstate = d.qstate := rfl
@[simp] theorem countFld_sdlLine (d : Dev) (f : Fld) : (countFld d f).sdlLine = d.sdlLine := rfl
@[simp] theorem countFld_saddle (d : Dev) (f : Fld) : (countFld d f).saddle = d.saddle := rfl
@[simp] theorem countFld_lineFresh (d : Dev) (f : Fld) : (countFld d f).lineFresh = d.lineFresh := rfl
@[simp] theorem countFld_lineFirst (d : Dev) (f : Fld) : (countFld d f).lineFirst = d.lineFirst := rfl
@[simp] theorem countFld_keySlots (d : Dev) (f : Fld) : (countFld d f).keySlots = d.keySlots := rfl
@[simp] theorem countFld_bootKeys (d : Dev) (f : Fld) : (countFld d f).bootKeys = d.bootKeys := rfl
@[simp] theorem countFld_encHw (d : Dev) (f : Fld) : (countFld d f).encHw = d.encHw := rfl
@[simp] theorem countFld_bitmaps (d : Dev) (f : Fld) : (countFld d f).bitmaps = d.bitmaps := rfl
@[simp] theorem countFld_endpoints (d : Dev) (f : Fld) : (countFld d f).endpoints = d.endpoints := rfl
@[simp] theorem countFld_prsIn (d : Dev) (f : Fld) : (countFld d f).prsIn = d.prsIn := rfl
@[simp] theorem countFld_ctrLimit (d : Dev) (f : Fld) : (countFld d f).ctrLimit = d.ctrLimit := rfl
@[simp] theorem countFld_luHdrErr (d : Dev) (f : Fld) : (countFld d f).luHdrErr = d.luHdrErr := rfl
@[simp] theorem countFld_anchorSet (d : Dev) (f : Fld) : (countFld d f).anchorSet = d.anchorSet := rfl
@[simp] theorem countFld_anchored (d : Dev) (f : Fld) : (countFld d f).anchored = d.anchored := rfl
@[simp] theorem countFld_eqrt (d : Dev) (f : Fld) : (countFld d f).eqrt = d.eqrt := rfl
@[simp] theorem countFld_fwu (d : Dev) (f : Fld) : (countFld d f).fwu = d.fwu := rfl
@[simp] theorem countFld_dsf (d : Dev) (f : Fld) : (countFld d f).dsf = d.dsf := rfl
@[simp] theorem countFld_pwr (d : Dev) (f : Fld) : (countFld d f).pwr = d.pwr := rfl
@[simp] theorem countFld_lanes (d : Dev) (f : Fld) : (countFld d f).lanes = d.lanes := rfl
@[simp] theorem countFld_macs (d : Dev) (f : Fld) : (countFld d f).macs = d.macs := rfl
@[simp] theorem countFld_pkt (d : Dev) (f : Fld) : (countFld d f).pkt = d.pkt := rfl
@[simp] theorem countFld_ttd (d : Dev) (f : Fld) : (countFld d f).ttd = d.ttd := rfl
@[simp] theorem countFld_host (d : Dev) (f : Fld) : (countFld d f).host = d.host := rfl
@[simp] theorem countFld_bst (d : Dev) (f : Fld) : (countFld d f).bst = d.bst := rfl
@[simp] theorem countFld_bootFrom (d : Dev) (f : Fld) : (countFld d f).bootFrom = d.bootFrom := rfl
@[simp] theorem countFld_jtag (d : Dev) (f : Fld) : (countFld d f).jtag = d.jtag := rfl

/-! ### wrA -/

@[simp] theorem wrA_regs (d : Dev) (r : Reg) (w : Word) : (wrA d r w).regs = d.regs := rfl
@[simp] theorem wrA_dirty (d : Dev) (r : Reg) (w : Word) : (wrA d r w).dirty = d.dirty := rfl
@[simp] theorem wrA_latched (d : Dev) (r : Reg) (w : Word) : (wrA d r w).latched = d.latched := rfl
@[simp] theorem wrA_clock (d : Dev) (r : Reg) (w : Word) : (wrA d r w).clock = d.clock := rfl
@[simp] theorem wrA_elapsed (d : Dev) (r : Reg) (w : Word) : (wrA d r w).elapsed = d.elapsed := rfl
@[simp] theorem wrA_timers (d : Dev) (r : Reg) (w : Word) : (wrA d r w).timers = d.timers := rfl
@[simp] theorem wrA_kst (d : Dev) (r : Reg) (w : Word) : (wrA d r w).kst = d.kst := rfl
@[simp] theorem wrA_commits (d : Dev) (r : Reg) (w : Word) : (wrA d r w).commits = d.commits := rfl
@[simp] theorem wrA_nextCommit (d : Dev) (r : Reg) (w : Word) : (wrA d r w).nextCommit = d.nextCommit := rfl
@[simp] theorem wrA_postSeq (d : Dev) (r : Reg) (w : Word) : (wrA d r w).postSeq = d.postSeq := rfl
@[simp] theorem wrA_commitLog (d : Dev) (r : Reg) (w : Word) : (wrA d r w).commitLog = d.commitLog := rfl
@[simp] theorem wrA_clampLog (d : Dev) (r : Reg) (w : Word) : (wrA d r w).clampLog = d.clampLog := rfl
@[simp] theorem wrA_out (d : Dev) (r : Reg) (w : Word) : (wrA d r w).out = d.out := rfl
@[simp] theorem wrA_msixTable (d : Dev) (r : Reg) (w : Word) : (wrA d r w).msixTable = d.msixTable := rfl
@[simp] theorem wrA_msixPending (d : Dev) (r : Reg) (w : Word) : (wrA d r w).msixPending = d.msixPending := rfl
@[simp] theorem wrA_msixFnMask (d : Dev) (r : Reg) (w : Word) : (wrA d r w).msixFnMask = d.msixFnMask := rfl
@[simp] theorem wrA_freeCount (d : Dev) (r : Reg) (w : Word) : (wrA d r w).freeCount = d.freeCount := rfl
@[simp] theorem wrA_frzReport (d : Dev) (r : Reg) (w : Word) : (wrA d r w).frzReport = d.frzReport := rfl
@[simp] theorem wrA_secDue (d : Dev) (r : Reg) (w : Word) : (wrA d r w).secDue = d.secDue := rfl
@[simp] theorem wrA_fawStamps (d : Dev) (r : Reg) (w : Word) : (wrA d r w).fawStamps = d.fawStamps := rfl
@[simp] theorem wrA_lineHw (d : Dev) (r : Reg) (w : Word) : (wrA d r w).lineHw = d.lineHw := rfl
@[simp] theorem wrA_prbsGen (d : Dev) (r : Reg) (w : Word) : (wrA d r w).prbsGen = d.prbsGen := rfl
@[simp] theorem wrA_prbsChk (d : Dev) (r : Reg) (w : Word) : (wrA d r w).prbsChk = d.prbsChk := rfl
@[simp] theorem wrA_injTx (d : Dev) (r : Reg) (w : Word) : (wrA d r w).injTx = d.injTx := rfl
@[simp] theorem wrA_injRx (d : Dev) (r : Reg) (w : Word) : (wrA d r w).injRx = d.injRx := rfl
@[simp] theorem wrA_bitFrac (d : Dev) (r : Reg) (w : Word) : (wrA d r w).bitFrac = d.bitFrac := rfl
@[simp] theorem wrA_upHw (d : Dev) (r : Reg) (w : Word) : (wrA d r w).upHw = d.upHw := rfl
@[simp] theorem wrA_carry (d : Dev) (r : Reg) (w : Word) : (wrA d r w).carry = d.carry := rfl
@[simp] theorem wrA_formed (d : Dev) (r : Reg) (w : Word) : (wrA d r w).formed = d.formed := rfl
@[simp] theorem wrA_stageSeq (d : Dev) (r : Reg) (w : Word) : (wrA d r w).stageSeq = d.stageSeq := rfl
@[simp] theorem wrA_rngHw (d : Dev) (r : Reg) (w : Word) : (wrA d r w).rngHw = d.rngHw := rfl
@[simp] theorem wrA_corePause (d : Dev) (r : Reg) (w : Word) : (wrA d r w).corePause = d.corePause := rfl
@[simp] theorem wrA_queues (d : Dev) (r : Reg) (w : Word) : (wrA d r w).queues = d.queues := rfl
@[simp] theorem wrA_qstate (d : Dev) (r : Reg) (w : Word) : (wrA d r w).qstate = d.qstate := rfl
@[simp] theorem wrA_sdlLine (d : Dev) (r : Reg) (w : Word) : (wrA d r w).sdlLine = d.sdlLine := rfl
@[simp] theorem wrA_saddle (d : Dev) (r : Reg) (w : Word) : (wrA d r w).saddle = d.saddle := rfl
@[simp] theorem wrA_lineFresh (d : Dev) (r : Reg) (w : Word) : (wrA d r w).lineFresh = d.lineFresh := rfl
@[simp] theorem wrA_lineFirst (d : Dev) (r : Reg) (w : Word) : (wrA d r w).lineFirst = d.lineFirst := rfl
@[simp] theorem wrA_keySlots (d : Dev) (r : Reg) (w : Word) : (wrA d r w).keySlots = d.keySlots := rfl
@[simp] theorem wrA_bootKeys (d : Dev) (r : Reg) (w : Word) : (wrA d r w).bootKeys = d.bootKeys := rfl
@[simp] theorem wrA_encHw (d : Dev) (r : Reg) (w : Word) : (wrA d r w).encHw = d.encHw := rfl
@[simp] theorem wrA_bitmaps (d : Dev) (r : Reg) (w : Word) : (wrA d r w).bitmaps = d.bitmaps := rfl
@[simp] theorem wrA_endpoints (d : Dev) (r : Reg) (w : Word) : (wrA d r w).endpoints = d.endpoints := rfl
@[simp] theorem wrA_prsIn (d : Dev) (r : Reg) (w : Word) : (wrA d r w).prsIn = d.prsIn := rfl
@[simp] theorem wrA_ctrLimit (d : Dev) (r : Reg) (w : Word) : (wrA d r w).ctrLimit = d.ctrLimit := rfl
@[simp] theorem wrA_luHdrErr (d : Dev) (r : Reg) (w : Word) : (wrA d r w).luHdrErr = d.luHdrErr := rfl
@[simp] theorem wrA_anchorSet (d : Dev) (r : Reg) (w : Word) : (wrA d r w).anchorSet = d.anchorSet := rfl
@[simp] theorem wrA_anchored (d : Dev) (r : Reg) (w : Word) : (wrA d r w).anchored = d.anchored := rfl
@[simp] theorem wrA_eqrt (d : Dev) (r : Reg) (w : Word) : (wrA d r w).eqrt = d.eqrt := rfl
@[simp] theorem wrA_fwu (d : Dev) (r : Reg) (w : Word) : (wrA d r w).fwu = d.fwu := rfl
@[simp] theorem wrA_dsf (d : Dev) (r : Reg) (w : Word) : (wrA d r w).dsf = d.dsf := rfl
@[simp] theorem wrA_pwr (d : Dev) (r : Reg) (w : Word) : (wrA d r w).pwr = d.pwr := rfl
@[simp] theorem wrA_lanes (d : Dev) (r : Reg) (w : Word) : (wrA d r w).lanes = d.lanes := rfl
@[simp] theorem wrA_macs (d : Dev) (r : Reg) (w : Word) : (wrA d r w).macs = d.macs := rfl
@[simp] theorem wrA_pkt (d : Dev) (r : Reg) (w : Word) : (wrA d r w).pkt = d.pkt := rfl
@[simp] theorem wrA_ttd (d : Dev) (r : Reg) (w : Word) : (wrA d r w).ttd = d.ttd := rfl
@[simp] theorem wrA_host (d : Dev) (r : Reg) (w : Word) : (wrA d r w).host = d.host := rfl
@[simp] theorem wrA_bst (d : Dev) (r : Reg) (w : Word) : (wrA d r w).bst = d.bst := rfl
@[simp] theorem wrA_bootFrom (d : Dev) (r : Reg) (w : Word) : (wrA d r w).bootFrom = d.bootFrom := rfl
@[simp] theorem wrA_jtag (d : Dev) (r : Reg) (w : Word) : (wrA d r w).jtag = d.jtag := rfl

/-! ### emit -/

@[simp] theorem emit_regs (d : Dev) (o : Out) : (emit d o).regs = d.regs := rfl
@[simp] theorem emit_applied (d : Dev) (o : Out) : (emit d o).applied = d.applied := rfl
@[simp] theorem emit_dirty (d : Dev) (o : Out) : (emit d o).dirty = d.dirty := rfl
@[simp] theorem emit_latched (d : Dev) (o : Out) : (emit d o).latched = d.latched := rfl
@[simp] theorem emit_clock (d : Dev) (o : Out) : (emit d o).clock = d.clock := rfl
@[simp] theorem emit_elapsed (d : Dev) (o : Out) : (emit d o).elapsed = d.elapsed := rfl
@[simp] theorem emit_timers (d : Dev) (o : Out) : (emit d o).timers = d.timers := rfl
@[simp] theorem emit_kst (d : Dev) (o : Out) : (emit d o).kst = d.kst := rfl
@[simp] theorem emit_commits (d : Dev) (o : Out) : (emit d o).commits = d.commits := rfl
@[simp] theorem emit_nextCommit (d : Dev) (o : Out) : (emit d o).nextCommit = d.nextCommit := rfl
@[simp] theorem emit_postSeq (d : Dev) (o : Out) : (emit d o).postSeq = d.postSeq := rfl
@[simp] theorem emit_commitLog (d : Dev) (o : Out) : (emit d o).commitLog = d.commitLog := rfl
@[simp] theorem emit_clampLog (d : Dev) (o : Out) : (emit d o).clampLog = d.clampLog := rfl
@[simp] theorem emit_msixTable (d : Dev) (o : Out) : (emit d o).msixTable = d.msixTable := rfl
@[simp] theorem emit_msixPending (d : Dev) (o : Out) : (emit d o).msixPending = d.msixPending := rfl
@[simp] theorem emit_msixFnMask (d : Dev) (o : Out) : (emit d o).msixFnMask = d.msixFnMask := rfl
@[simp] theorem emit_freeCount (d : Dev) (o : Out) : (emit d o).freeCount = d.freeCount := rfl
@[simp] theorem emit_frzReport (d : Dev) (o : Out) : (emit d o).frzReport = d.frzReport := rfl
@[simp] theorem emit_secDue (d : Dev) (o : Out) : (emit d o).secDue = d.secDue := rfl
@[simp] theorem emit_fawStamps (d : Dev) (o : Out) : (emit d o).fawStamps = d.fawStamps := rfl
@[simp] theorem emit_lineHw (d : Dev) (o : Out) : (emit d o).lineHw = d.lineHw := rfl
@[simp] theorem emit_prbsGen (d : Dev) (o : Out) : (emit d o).prbsGen = d.prbsGen := rfl
@[simp] theorem emit_prbsChk (d : Dev) (o : Out) : (emit d o).prbsChk = d.prbsChk := rfl
@[simp] theorem emit_injTx (d : Dev) (o : Out) : (emit d o).injTx = d.injTx := rfl
@[simp] theorem emit_injRx (d : Dev) (o : Out) : (emit d o).injRx = d.injRx := rfl
@[simp] theorem emit_bitFrac (d : Dev) (o : Out) : (emit d o).bitFrac = d.bitFrac := rfl
@[simp] theorem emit_upHw (d : Dev) (o : Out) : (emit d o).upHw = d.upHw := rfl
@[simp] theorem emit_carry (d : Dev) (o : Out) : (emit d o).carry = d.carry := rfl
@[simp] theorem emit_formed (d : Dev) (o : Out) : (emit d o).formed = d.formed := rfl
@[simp] theorem emit_stageSeq (d : Dev) (o : Out) : (emit d o).stageSeq = d.stageSeq := rfl
@[simp] theorem emit_rngHw (d : Dev) (o : Out) : (emit d o).rngHw = d.rngHw := rfl
@[simp] theorem emit_corePause (d : Dev) (o : Out) : (emit d o).corePause = d.corePause := rfl
@[simp] theorem emit_queues (d : Dev) (o : Out) : (emit d o).queues = d.queues := rfl
@[simp] theorem emit_qstate (d : Dev) (o : Out) : (emit d o).qstate = d.qstate := rfl
@[simp] theorem emit_sdlLine (d : Dev) (o : Out) : (emit d o).sdlLine = d.sdlLine := rfl
@[simp] theorem emit_saddle (d : Dev) (o : Out) : (emit d o).saddle = d.saddle := rfl
@[simp] theorem emit_lineFresh (d : Dev) (o : Out) : (emit d o).lineFresh = d.lineFresh := rfl
@[simp] theorem emit_lineFirst (d : Dev) (o : Out) : (emit d o).lineFirst = d.lineFirst := rfl
@[simp] theorem emit_keySlots (d : Dev) (o : Out) : (emit d o).keySlots = d.keySlots := rfl
@[simp] theorem emit_bootKeys (d : Dev) (o : Out) : (emit d o).bootKeys = d.bootKeys := rfl
@[simp] theorem emit_encHw (d : Dev) (o : Out) : (emit d o).encHw = d.encHw := rfl
@[simp] theorem emit_bitmaps (d : Dev) (o : Out) : (emit d o).bitmaps = d.bitmaps := rfl
@[simp] theorem emit_endpoints (d : Dev) (o : Out) : (emit d o).endpoints = d.endpoints := rfl
@[simp] theorem emit_prsIn (d : Dev) (o : Out) : (emit d o).prsIn = d.prsIn := rfl
@[simp] theorem emit_ctrLimit (d : Dev) (o : Out) : (emit d o).ctrLimit = d.ctrLimit := rfl
@[simp] theorem emit_luHdrErr (d : Dev) (o : Out) : (emit d o).luHdrErr = d.luHdrErr := rfl
@[simp] theorem emit_anchorSet (d : Dev) (o : Out) : (emit d o).anchorSet = d.anchorSet := rfl
@[simp] theorem emit_anchored (d : Dev) (o : Out) : (emit d o).anchored = d.anchored := rfl
@[simp] theorem emit_eqrt (d : Dev) (o : Out) : (emit d o).eqrt = d.eqrt := rfl
@[simp] theorem emit_fwu (d : Dev) (o : Out) : (emit d o).fwu = d.fwu := rfl
@[simp] theorem emit_dsf (d : Dev) (o : Out) : (emit d o).dsf = d.dsf := rfl
@[simp] theorem emit_pwr (d : Dev) (o : Out) : (emit d o).pwr = d.pwr := rfl
@[simp] theorem emit_lanes (d : Dev) (o : Out) : (emit d o).lanes = d.lanes := rfl
@[simp] theorem emit_macs (d : Dev) (o : Out) : (emit d o).macs = d.macs := rfl
@[simp] theorem emit_pkt (d : Dev) (o : Out) : (emit d o).pkt = d.pkt := rfl
@[simp] theorem emit_ttd (d : Dev) (o : Out) : (emit d o).ttd = d.ttd := rfl
@[simp] theorem emit_host (d : Dev) (o : Out) : (emit d o).host = d.host := rfl
@[simp] theorem emit_bst (d : Dev) (o : Out) : (emit d o).bst = d.bst := rfl
@[simp] theorem emit_bootFrom (d : Dev) (o : Out) : (emit d o).bootFrom = d.bootFrom := rfl
@[simp] theorem emit_jtag (d : Dev) (o : Out) : (emit d o).jtag = d.jtag := rfl

/-! ### startTimer -/

@[simp] theorem startTimer_regs (d : Dev) (t : TimerId) (n : Nat) : (startTimer d t n).regs = d.regs := rfl
@[simp] theorem startTimer_applied (d : Dev) (t : TimerId) (n : Nat) : (startTimer d t n).applied = d.applied := rfl
@[simp] theorem startTimer_dirty (d : Dev) (t : TimerId) (n : Nat) : (startTimer d t n).dirty = d.dirty := rfl
@[simp] theorem startTimer_latched (d : Dev) (t : TimerId) (n : Nat) : (startTimer d t n).latched = d.latched := rfl
@[simp] theorem startTimer_clock (d : Dev) (t : TimerId) (n : Nat) : (startTimer d t n).clock = d.clock := rfl
@[simp] theorem startTimer_elapsed (d : Dev) (t : TimerId) (n : Nat) : (startTimer d t n).elapsed = d.elapsed := rfl
@[simp] theorem startTimer_kst (d : Dev) (t : TimerId) (n : Nat) : (startTimer d t n).kst = d.kst := rfl
@[simp] theorem startTimer_commits (d : Dev) (t : TimerId) (n : Nat) : (startTimer d t n).commits = d.commits := rfl
@[simp] theorem startTimer_nextCommit (d : Dev) (t : TimerId) (n : Nat) : (startTimer d t n).nextCommit = d.nextCommit := rfl
@[simp] theorem startTimer_postSeq (d : Dev) (t : TimerId) (n : Nat) : (startTimer d t n).postSeq = d.postSeq := rfl
@[simp] theorem startTimer_commitLog (d : Dev) (t : TimerId) (n : Nat) : (startTimer d t n).commitLog = d.commitLog := rfl
@[simp] theorem startTimer_clampLog (d : Dev) (t : TimerId) (n : Nat) : (startTimer d t n).clampLog = d.clampLog := rfl
@[simp] theorem startTimer_out (d : Dev) (t : TimerId) (n : Nat) : (startTimer d t n).out = d.out := rfl
@[simp] theorem startTimer_msixTable (d : Dev) (t : TimerId) (n : Nat) : (startTimer d t n).msixTable = d.msixTable := rfl
@[simp] theorem startTimer_msixPending (d : Dev) (t : TimerId) (n : Nat) : (startTimer d t n).msixPending = d.msixPending := rfl
@[simp] theorem startTimer_msixFnMask (d : Dev) (t : TimerId) (n : Nat) : (startTimer d t n).msixFnMask = d.msixFnMask := rfl
@[simp] theorem startTimer_freeCount (d : Dev) (t : TimerId) (n : Nat) : (startTimer d t n).freeCount = d.freeCount := rfl
@[simp] theorem startTimer_frzReport (d : Dev) (t : TimerId) (n : Nat) : (startTimer d t n).frzReport = d.frzReport := rfl
@[simp] theorem startTimer_secDue (d : Dev) (t : TimerId) (n : Nat) : (startTimer d t n).secDue = d.secDue := rfl
@[simp] theorem startTimer_fawStamps (d : Dev) (t : TimerId) (n : Nat) : (startTimer d t n).fawStamps = d.fawStamps := rfl
@[simp] theorem startTimer_lineHw (d : Dev) (t : TimerId) (n : Nat) : (startTimer d t n).lineHw = d.lineHw := rfl
@[simp] theorem startTimer_prbsGen (d : Dev) (t : TimerId) (n : Nat) : (startTimer d t n).prbsGen = d.prbsGen := rfl
@[simp] theorem startTimer_prbsChk (d : Dev) (t : TimerId) (n : Nat) : (startTimer d t n).prbsChk = d.prbsChk := rfl
@[simp] theorem startTimer_injTx (d : Dev) (t : TimerId) (n : Nat) : (startTimer d t n).injTx = d.injTx := rfl
@[simp] theorem startTimer_injRx (d : Dev) (t : TimerId) (n : Nat) : (startTimer d t n).injRx = d.injRx := rfl
@[simp] theorem startTimer_bitFrac (d : Dev) (t : TimerId) (n : Nat) : (startTimer d t n).bitFrac = d.bitFrac := rfl
@[simp] theorem startTimer_upHw (d : Dev) (t : TimerId) (n : Nat) : (startTimer d t n).upHw = d.upHw := rfl
@[simp] theorem startTimer_carry (d : Dev) (t : TimerId) (n : Nat) : (startTimer d t n).carry = d.carry := rfl
@[simp] theorem startTimer_formed (d : Dev) (t : TimerId) (n : Nat) : (startTimer d t n).formed = d.formed := rfl
@[simp] theorem startTimer_stageSeq (d : Dev) (t : TimerId) (n : Nat) : (startTimer d t n).stageSeq = d.stageSeq := rfl
@[simp] theorem startTimer_rngHw (d : Dev) (t : TimerId) (n : Nat) : (startTimer d t n).rngHw = d.rngHw := rfl
@[simp] theorem startTimer_corePause (d : Dev) (t : TimerId) (n : Nat) : (startTimer d t n).corePause = d.corePause := rfl
@[simp] theorem startTimer_queues (d : Dev) (t : TimerId) (n : Nat) : (startTimer d t n).queues = d.queues := rfl
@[simp] theorem startTimer_qstate (d : Dev) (t : TimerId) (n : Nat) : (startTimer d t n).qstate = d.qstate := rfl
@[simp] theorem startTimer_sdlLine (d : Dev) (t : TimerId) (n : Nat) : (startTimer d t n).sdlLine = d.sdlLine := rfl
@[simp] theorem startTimer_saddle (d : Dev) (t : TimerId) (n : Nat) : (startTimer d t n).saddle = d.saddle := rfl
@[simp] theorem startTimer_lineFresh (d : Dev) (t : TimerId) (n : Nat) : (startTimer d t n).lineFresh = d.lineFresh := rfl
@[simp] theorem startTimer_lineFirst (d : Dev) (t : TimerId) (n : Nat) : (startTimer d t n).lineFirst = d.lineFirst := rfl
@[simp] theorem startTimer_keySlots (d : Dev) (t : TimerId) (n : Nat) : (startTimer d t n).keySlots = d.keySlots := rfl
@[simp] theorem startTimer_bootKeys (d : Dev) (t : TimerId) (n : Nat) : (startTimer d t n).bootKeys = d.bootKeys := rfl
@[simp] theorem startTimer_encHw (d : Dev) (t : TimerId) (n : Nat) : (startTimer d t n).encHw = d.encHw := rfl
@[simp] theorem startTimer_bitmaps (d : Dev) (t : TimerId) (n : Nat) : (startTimer d t n).bitmaps = d.bitmaps := rfl
@[simp] theorem startTimer_endpoints (d : Dev) (t : TimerId) (n : Nat) : (startTimer d t n).endpoints = d.endpoints := rfl
@[simp] theorem startTimer_prsIn (d : Dev) (t : TimerId) (n : Nat) : (startTimer d t n).prsIn = d.prsIn := rfl
@[simp] theorem startTimer_ctrLimit (d : Dev) (t : TimerId) (n : Nat) : (startTimer d t n).ctrLimit = d.ctrLimit := rfl
@[simp] theorem startTimer_luHdrErr (d : Dev) (t : TimerId) (n : Nat) : (startTimer d t n).luHdrErr = d.luHdrErr := rfl
@[simp] theorem startTimer_anchorSet (d : Dev) (t : TimerId) (n : Nat) : (startTimer d t n).anchorSet = d.anchorSet := rfl
@[simp] theorem startTimer_anchored (d : Dev) (t : TimerId) (n : Nat) : (startTimer d t n).anchored = d.anchored := rfl
@[simp] theorem startTimer_eqrt (d : Dev) (t : TimerId) (n : Nat) : (startTimer d t n).eqrt = d.eqrt := rfl
@[simp] theorem startTimer_fwu (d : Dev) (t : TimerId) (n : Nat) : (startTimer d t n).fwu = d.fwu := rfl
@[simp] theorem startTimer_dsf (d : Dev) (t : TimerId) (n : Nat) : (startTimer d t n).dsf = d.dsf := rfl
@[simp] theorem startTimer_pwr (d : Dev) (t : TimerId) (n : Nat) : (startTimer d t n).pwr = d.pwr := rfl
@[simp] theorem startTimer_lanes (d : Dev) (t : TimerId) (n : Nat) : (startTimer d t n).lanes = d.lanes := rfl
@[simp] theorem startTimer_macs (d : Dev) (t : TimerId) (n : Nat) : (startTimer d t n).macs = d.macs := rfl
@[simp] theorem startTimer_pkt (d : Dev) (t : TimerId) (n : Nat) : (startTimer d t n).pkt = d.pkt := rfl
@[simp] theorem startTimer_ttd (d : Dev) (t : TimerId) (n : Nat) : (startTimer d t n).ttd = d.ttd := rfl
@[simp] theorem startTimer_host (d : Dev) (t : TimerId) (n : Nat) : (startTimer d t n).host = d.host := rfl
@[simp] theorem startTimer_bst (d : Dev) (t : TimerId) (n : Nat) : (startTimer d t n).bst = d.bst := rfl
@[simp] theorem startTimer_bootFrom (d : Dev) (t : TimerId) (n : Nat) : (startTimer d t n).bootFrom = d.bootFrom := rfl
@[simp] theorem startTimer_jtag (d : Dev) (t : TimerId) (n : Nat) : (startTimer d t n).jtag = d.jtag := rfl

/-! ### dropTimer -/

@[simp] theorem dropTimer_regs (d : Dev) (t : TimerId) : (dropTimer d t).regs = d.regs := rfl
@[simp] theorem dropTimer_applied (d : Dev) (t : TimerId) : (dropTimer d t).applied = d.applied := rfl
@[simp] theorem dropTimer_dirty (d : Dev) (t : TimerId) : (dropTimer d t).dirty = d.dirty := rfl
@[simp] theorem dropTimer_latched (d : Dev) (t : TimerId) : (dropTimer d t).latched = d.latched := rfl
@[simp] theorem dropTimer_clock (d : Dev) (t : TimerId) : (dropTimer d t).clock = d.clock := rfl
@[simp] theorem dropTimer_elapsed (d : Dev) (t : TimerId) : (dropTimer d t).elapsed = d.elapsed := rfl
@[simp] theorem dropTimer_kst (d : Dev) (t : TimerId) : (dropTimer d t).kst = d.kst := rfl
@[simp] theorem dropTimer_commits (d : Dev) (t : TimerId) : (dropTimer d t).commits = d.commits := rfl
@[simp] theorem dropTimer_nextCommit (d : Dev) (t : TimerId) : (dropTimer d t).nextCommit = d.nextCommit := rfl
@[simp] theorem dropTimer_postSeq (d : Dev) (t : TimerId) : (dropTimer d t).postSeq = d.postSeq := rfl
@[simp] theorem dropTimer_commitLog (d : Dev) (t : TimerId) : (dropTimer d t).commitLog = d.commitLog := rfl
@[simp] theorem dropTimer_clampLog (d : Dev) (t : TimerId) : (dropTimer d t).clampLog = d.clampLog := rfl
@[simp] theorem dropTimer_out (d : Dev) (t : TimerId) : (dropTimer d t).out = d.out := rfl
@[simp] theorem dropTimer_msixTable (d : Dev) (t : TimerId) : (dropTimer d t).msixTable = d.msixTable := rfl
@[simp] theorem dropTimer_msixPending (d : Dev) (t : TimerId) : (dropTimer d t).msixPending = d.msixPending := rfl
@[simp] theorem dropTimer_msixFnMask (d : Dev) (t : TimerId) : (dropTimer d t).msixFnMask = d.msixFnMask := rfl
@[simp] theorem dropTimer_freeCount (d : Dev) (t : TimerId) : (dropTimer d t).freeCount = d.freeCount := rfl
@[simp] theorem dropTimer_frzReport (d : Dev) (t : TimerId) : (dropTimer d t).frzReport = d.frzReport := rfl
@[simp] theorem dropTimer_secDue (d : Dev) (t : TimerId) : (dropTimer d t).secDue = d.secDue := rfl
@[simp] theorem dropTimer_fawStamps (d : Dev) (t : TimerId) : (dropTimer d t).fawStamps = d.fawStamps := rfl
@[simp] theorem dropTimer_lineHw (d : Dev) (t : TimerId) : (dropTimer d t).lineHw = d.lineHw := rfl
@[simp] theorem dropTimer_prbsGen (d : Dev) (t : TimerId) : (dropTimer d t).prbsGen = d.prbsGen := rfl
@[simp] theorem dropTimer_prbsChk (d : Dev) (t : TimerId) : (dropTimer d t).prbsChk = d.prbsChk := rfl
@[simp] theorem dropTimer_injTx (d : Dev) (t : TimerId) : (dropTimer d t).injTx = d.injTx := rfl
@[simp] theorem dropTimer_injRx (d : Dev) (t : TimerId) : (dropTimer d t).injRx = d.injRx := rfl
@[simp] theorem dropTimer_bitFrac (d : Dev) (t : TimerId) : (dropTimer d t).bitFrac = d.bitFrac := rfl
@[simp] theorem dropTimer_upHw (d : Dev) (t : TimerId) : (dropTimer d t).upHw = d.upHw := rfl
@[simp] theorem dropTimer_carry (d : Dev) (t : TimerId) : (dropTimer d t).carry = d.carry := rfl
@[simp] theorem dropTimer_formed (d : Dev) (t : TimerId) : (dropTimer d t).formed = d.formed := rfl
@[simp] theorem dropTimer_stageSeq (d : Dev) (t : TimerId) : (dropTimer d t).stageSeq = d.stageSeq := rfl
@[simp] theorem dropTimer_rngHw (d : Dev) (t : TimerId) : (dropTimer d t).rngHw = d.rngHw := rfl
@[simp] theorem dropTimer_corePause (d : Dev) (t : TimerId) : (dropTimer d t).corePause = d.corePause := rfl
@[simp] theorem dropTimer_queues (d : Dev) (t : TimerId) : (dropTimer d t).queues = d.queues := rfl
@[simp] theorem dropTimer_qstate (d : Dev) (t : TimerId) : (dropTimer d t).qstate = d.qstate := rfl
@[simp] theorem dropTimer_sdlLine (d : Dev) (t : TimerId) : (dropTimer d t).sdlLine = d.sdlLine := rfl
@[simp] theorem dropTimer_saddle (d : Dev) (t : TimerId) : (dropTimer d t).saddle = d.saddle := rfl
@[simp] theorem dropTimer_lineFresh (d : Dev) (t : TimerId) : (dropTimer d t).lineFresh = d.lineFresh := rfl
@[simp] theorem dropTimer_lineFirst (d : Dev) (t : TimerId) : (dropTimer d t).lineFirst = d.lineFirst := rfl
@[simp] theorem dropTimer_keySlots (d : Dev) (t : TimerId) : (dropTimer d t).keySlots = d.keySlots := rfl
@[simp] theorem dropTimer_bootKeys (d : Dev) (t : TimerId) : (dropTimer d t).bootKeys = d.bootKeys := rfl
@[simp] theorem dropTimer_encHw (d : Dev) (t : TimerId) : (dropTimer d t).encHw = d.encHw := rfl
@[simp] theorem dropTimer_bitmaps (d : Dev) (t : TimerId) : (dropTimer d t).bitmaps = d.bitmaps := rfl
@[simp] theorem dropTimer_endpoints (d : Dev) (t : TimerId) : (dropTimer d t).endpoints = d.endpoints := rfl
@[simp] theorem dropTimer_prsIn (d : Dev) (t : TimerId) : (dropTimer d t).prsIn = d.prsIn := rfl
@[simp] theorem dropTimer_ctrLimit (d : Dev) (t : TimerId) : (dropTimer d t).ctrLimit = d.ctrLimit := rfl
@[simp] theorem dropTimer_luHdrErr (d : Dev) (t : TimerId) : (dropTimer d t).luHdrErr = d.luHdrErr := rfl
@[simp] theorem dropTimer_anchorSet (d : Dev) (t : TimerId) : (dropTimer d t).anchorSet = d.anchorSet := rfl
@[simp] theorem dropTimer_anchored (d : Dev) (t : TimerId) : (dropTimer d t).anchored = d.anchored := rfl
@[simp] theorem dropTimer_eqrt (d : Dev) (t : TimerId) : (dropTimer d t).eqrt = d.eqrt := rfl
@[simp] theorem dropTimer_fwu (d : Dev) (t : TimerId) : (dropTimer d t).fwu = d.fwu := rfl
@[simp] theorem dropTimer_dsf (d : Dev) (t : TimerId) : (dropTimer d t).dsf = d.dsf := rfl
@[simp] theorem dropTimer_pwr (d : Dev) (t : TimerId) : (dropTimer d t).pwr = d.pwr := rfl
@[simp] theorem dropTimer_lanes (d : Dev) (t : TimerId) : (dropTimer d t).lanes = d.lanes := rfl
@[simp] theorem dropTimer_macs (d : Dev) (t : TimerId) : (dropTimer d t).macs = d.macs := rfl
@[simp] theorem dropTimer_pkt (d : Dev) (t : TimerId) : (dropTimer d t).pkt = d.pkt := rfl
@[simp] theorem dropTimer_ttd (d : Dev) (t : TimerId) : (dropTimer d t).ttd = d.ttd := rfl
@[simp] theorem dropTimer_host (d : Dev) (t : TimerId) : (dropTimer d t).host = d.host := rfl
@[simp] theorem dropTimer_bst (d : Dev) (t : TimerId) : (dropTimer d t).bst = d.bst := rfl
@[simp] theorem dropTimer_bootFrom (d : Dev) (t : TimerId) : (dropTimer d t).bootFrom = d.bootFrom := rfl
@[simp] theorem dropTimer_jtag (d : Dev) (t : TimerId) : (dropTimer d t).jtag = d.jtag := rfl

end Sys2Proof.Machine
end

