-- ==== Sys2Proof/Laws/Step.lean ====
section
/-!
SUPPORT. Laws/Step.lean: what a step is.
-/

namespace Sys2Proof.Machine

/-- A step on an empty queue idles. -/
theorem step_nil {s : State} (h : s.pending = []) : step s = .next s := by
  unfold step; rw [h]

/-- A step takes the front command and carries it out on the rest of the queue. -/
theorem step_cons {s : State} {c : Instr} {rest : List Instr} (h : s.pending = c :: rest) : step s = exec c { s with pending := rest } := by
  unfold step; rw [h]

/-- Everything a step can do: it idles on an empty queue, or it answers what the front command answers. -/
theorem step_cases (s : State) : (s.pending = [] ∧ step s = .next s)
    ∨ ∃ c rest, s.pending = c :: rest ∧ step s = exec c { s with pending := rest } := by
  cases h : s.pending with
  | nil => exact .inl ⟨rfl, step_nil h⟩
  | cons c rest => exact .inr ⟨c, rest, rfl, step_cons h⟩

end Sys2Proof.Machine
end

