-- ==== Sys2Proof/Tests/Slice0.lean ====
section
/-!
SUPPORT. Tests/Slice0.lean: ill-formed commands are refused, and for every statement that has hypotheses a small state and operands
that meet them, clause by clause, at the ends of their ranges.
-/

namespace Sys2Proof.Tests

open Sys2Proof Sys2Proof.Machine

set_option Elab.async false

/-! ### Helpers -/

/-- The block after reset with some register words written. -/
def dev (rs : List (Reg × Nat)) : Dev := rs.foldl (fun d p => wrn d p.1 p.2) State.reset.dev

/-- The words of a released device with every domain on. -/
def liveWords : List (Reg × Nat) := [(PWR_DOM_ON_LO, 0xFFFFFFFF), (PWR_DOM_ON_HI, 0xFFFFFFFF), (RST_STATUS, 0x80000007)]

/-- A released device with every domain on, its cores running and a reference present, and some register words written. -/
def live (rs : List (Reg × Nat)) : Dev :=
  { dev (liveWords ++ rs) with corePause := false, elapsed := 1000000000, kst := { Keystone.reset with refsRunning := true } }

/-- The device with some fields set. -/
def withFlds (d : Dev) (fs : List (Fld × Nat)) : Dev := fs.foldl (fun d p => setFld d p.1 p.2) d

/-- The device with timers that run: for each its name and the tick at which it expires. -/
def withTimers (d : Dev) (ts : List (TimerId × Nat)) : Dev := { d with timers := ts ++ d.timers }

/-! ### Ill-formed commands are refused -/

theorem test_wf_master : (Instr.registerWrite 0x6C 0 4 0).wf = false ∧ (Instr.registerWrite i2cMaster 0 4 0).wf = true
    ∧ (Instr.kick 0x6B 0).wf = true := by decide

theorem test_wf_access_size : (Instr.registerWrite 0 0 0 0).wf = false ∧ (Instr.registerWrite 0 0 9 0).wf = false
    ∧ (Instr.doorbell 0 9 0).wf = false ∧ (Instr.loReadLatch 0 0 8).wf = true := by decide

theorem test_wf_lengths : (Instr.tdcExchange [1]).wf = false ∧ (Instr.keyWrap .a ⟨0, 0, 0, 0⟩ 0 0 []).wf = false
    ∧ (Instr.modCheckDone .a (List.replicate 33 0)).wf = false ∧ (Instr.codewordDecode .a 0 0 [0]).wf = false
    ∧ (Instr.relayBlock 0 0 0 0 [] 0).wf = false ∧ (Instr.dmaEntryStart 0 []).wf = false ∧ (Instr.cmdDescriptor 0 [] []).wf = false := by
  decide

theorem test_wf_ranges : (Instr.candidateOpen .a 0 6640000 []).wf = false ∧ (Instr.codewordDecode .a 0 1220 (List.replicate 544 0)).wf = false
    ∧ (Instr.codewordDecode .a 0 0 (List.replicate 544 1024)).wf = false
    ∧ (Instr.prbsLoss (.line .a 0) 1025).wf = false
    ∧ (Instr.prEdge 0 false 0 401).wf = false ∧ (Instr.pauseRx 0 0 1 40000).wf = false ∧ (Instr.pfcRx 0 0 1 [65536] 0).wf = false
    ∧ (Instr.comparisonWindowEnd true true 0 40000).wf = false
    ∧ (Instr.domainSwitchOn [] [1, 1] []).wf = false := by
  decide +kernel

/-! ### Registers (spec/02) -/

theorem test_witness_queue : State.reset.pending = [] := rfl

theorem test_witness_good : State.reset.good = true ∧ State.reset.mem.wf = true := by decide

theorem test_witness_moves : Instr.i2cAbandon.movesMemory = false ∧ exec .i2cAbandon State.reset = .next State.reset := ⟨rfl, rfl⟩

theorem test_witness_MisalignedWriteCounted : admits (live []) 0 0x200040 = true ∧ (live []).fwu.recordsDue = false
    ∧ ¬ (0x200040 % 4 = 0 ∧ (3 = 4 ∨ 3 = 8)) ∧ ¬ (0x200042 % 4 = 0 ∧ (4 = 4 ∨ 4 = 8)) := by decide

theorem test_witness_PlainWriteStores : admits (live []) 0 0xB00040 = true ∧ (live []).fwu.recordsDue = false ∧ unitOf 0xB00040 = some 54
    ∧ (unitAt 54).kind = 0x60 ∧ 0x40 ≤ 0xB00040 - (unitAt 54).base ∧ (rowAt (unitAt 54) (0xB00040 - (unitAt 54).base)).isSome = true
    ∧ evtUnits.any (fun e => e.evt.ofs == 0xB00040 || e.en.ofs == 0xB00040) = false := by decide

theorem test_witness_ClampTakesNearest : clampRange (.span 3 64) 7 2 = 3 ∧ clampRange (.span 3 64) 7 3 = 3 ∧ clampRange (.span 3 64) 7 64 = 64
    ∧ clampRange (.span 3 64) 7 65 = 64 ∧ clampRange (.among [4, 8]) 8 6 = 4 ∧ clampRange (.named 2 0) 2 3 = 0 := by decide

theorem test_witness_ReleaseOfMaster : admits (live []) 0 ROOT_FRZ_RELEASE.ofs = true ∧ admits (live []) i2cMaster ROOT_FRZ_RELEASE.ofs = true
    ∧ getBits 0x80000001 7 0 = 1 ∧ getBits 0x8000006B 7 0 = 0x6B ∧ getBits 0x8000006C 7 0 = 0x6C ∧ getBits 0x80000000 7 0 = 0
    ∧ (0x80000001 : Word).getLsbD 31 = true ∧ (1 : Word).getLsbD 31 = false := by decide

theorem test_witness_FreezeRecords : isFrozen (live []) 0x6B = false ∧ isFrozen (live [(ROOT_FRZ_MAP 3, 0x800)]) 0x6B = true := by decide

theorem test_witness_HeaderCommands : admits (live []) 0 (HDR_PWR (unitAt 54).base).ofs = true
    ∧ admits (live []) 0 (HDR_BST (unitAt 12).base).ofs = true ∧ (unitAt 12).eligible = true ∧ (unitAt 8).domains.headD 0 < 2
    ∧ slicing (withFlds (live []) [(BST_STATUS_RUNNING, 1), (BST_STATUS_PHASE, 2), (BST_STATUS_TARGET, 46)]) = some 46
    ∧ 46 ∈ targetsOf 12 ∧ 46 ∉ targetsOf 15 := by decide

theorem test_witness_LowReadLatchesHigh : 0x20 ≤ (0x20 : Nat) ∧ 0x20 ≤ i2cMaster := by decide

/-! ### The time engine (spec/03) -/

theorem test_witness_TickAddsFrequencyWord : (live []).kst.refsRunning = true ∧ State.reset.dev.kst.refsRunning = false
    ∧ 2 ^ 54 - 1 < 2 ^ 54 := by decide

/-- A device whose servo is left with a residual of the slewer. -/
def slewed (b : Int) : Dev := { live [] with kst := { (live []).kst with b := b } }

theorem test_witness_SlewNeverPassesItsLimit : 0 ≤ (slewed 5).kst.b ∧ (slewed (-5)).kst.b ≤ 0 ∧ (slewed 0).kst.b = 0 := by decide

theorem test_witness_CaptureAndCalibration : admits (live []) 0 KST_CAPTURE.ofs = true ∧ 70 < 71
    ∧ [256, 400, 255, 401].map (fun n => decide (256 ≤ n ∧ n ≤ 400)) = [true, true, false, false] := by decide

/-- A device in which the unit with the given mark has a boundary of second 6 to serve. -/
def marked (k : Nat) : Dev := { live [(DSF_STATUS 0, 0)] with secDue := [(k, ⟨7, true⟩)] }

theorem test_witness_CaptureAndCalibration_exchange : secMark (live []) secExchange = none
    ∧ secMark (marked secExchange) secExchange = some (6, true) := by decide

/-- A GOOD domain of L-A with a delivered offset of x. -/
def offered (x : Int) : Dev :=
  let d := withFlds (live []) [(KST_DOM_x_STATUS_STATE 0, domGood)]
  { d with kst := { d.kst with dom := d.kst.dom.set .a { Domain.reset with waiting := some ⟨x, 0⟩ } } }

theorem test_witness_OffsetInGood : domState (offered 0) .a = domGood ∧ ((offered 0).kst.dom.get .a).waiting = some ⟨0, 0⟩
    ∧ ((0 - predicted (offered 0) .a 0).natAbs : Int) ≤ nsUnits (fldA (offered 0) KST_JUMP_CFG_JUMP_THR)
    ∧ nsUnits (fldA (offered 0) KST_JUMP_CFG_JUMP_THR) < ((2 ^ 90 - predicted (offered (2 ^ 90)) .a 0).natAbs : Int)
    ∧ ((offered 0).kst.dom.get .b).waiting = none ∧ fld (offered 0) KST_CTL_PREF_DOM = 0
    ∧ ((live []).kst.dom.get .a).waiting = none := by decide

theorem test_witness_OffsetInGood_together : ((deliverOffset (offered 0) .b ⟨0, 0⟩).kst.dom.get .a).waiting ≠ none
    ∧ ((deliverOffset (offered 0) .b ⟨0, 0⟩).kst.dom.get .b).waiting ≠ none
    ∧ fld (deliverOffset (offered 0) .b ⟨0, 0⟩) KST_CTL_PREF_DOM ≠ Line.ix .b := by decide

theorem test_witness_TimeEngineTimers : timerOver (withTimers (live []) [(.domain .a, 1000000000), (.prop, 1000000000)]) (.domain .a) = true
    ∧ timerOver (withTimers (live []) [(.domain .a, 1000000001)]) (.domain .a) = false
    ∧ timerOver (withTimers (live []) [(.prop, 1000000000)]) .prop = true ∧ timerOver (live []) .prop = false
    ∧ servo (withFlds (live []) [(KST_STATUS_SERVO_STATE, servoTrack)]) = servoTrack ∧ (slewed 0).kst.b = 0 ∧ (slewed 1).kst.b ≠ 0
    ∧ servo (withFlds (live [(KST_HOLD_SEC, 0xFFFFFFFF)]) [(KST_STATUS_SERVO_STATE, servoHoldover)]) = servoHoldover
    ∧ (live []).kst.holdAged = false
    ∧ fldA (live [(KST_HOLD_SEC, 0xFFFFFFFF)]) KST_HOLD_AGE_HOLD_AGE_LIM < rdn (live [(KST_HOLD_SEC, 0xFFFFFFFF)]) KST_HOLD_SEC := by decide

theorem test_witness_ReferencesFailAndReturn : (live []).kst.refsRunning = true ∧ flag (live []) KST_STATUS_REF_SEL = false
    ∧ State.reset.dev.kst.refsRunning = false ∧ bootPhase State.reset.dev = 0 := by decide

theorem test_witness_ComparisonWindow : 39999 < 40000 ∧ flag (live []) KST_REF_STATUS_REF25_OK = false := by decide

/-! ### Timed commits (spec/04) -/

/-- A commit of function 0 for unit bit 0, due at an instant of device time. -/
def commitAt (ns : Nat) : Commit :=
  { id := 7, poster := 0, units := 1, due := .time ns, notify := false, words := [], seq := 0, postedAt := 0, late := false,
    stepped := false, fallen := false, frameAt := none, dueTick := 0, passed := false }

/-- A device with one pending commit. -/
def committed (c : Commit) : Dev := { live [] with commits := [c] }

theorem test_witness_PostChecksOrCaptures : admits (live []) 0 (TCM_POST_CTL 0).ofs = true
    ∧ (match postCheck (withFlds (live []) [(TCM_POST_CTL_UNITS 0, 1)]) 0 1 with | .ok _ => true | .error _ => false) = true
    ∧ (match postCheck (live []) 0 0 with | .ok _ => true | .error _ => false) = false
    ∧ (let d := storeAt (live []) 0 (TCM_POST_CTL 0).ofs 0x80000001
       (match postCheck d 0 (fld d (TCM_POST_CTL_UNITS 0)) with | .ok _ => true | .error _ => false) = true)
    ∧ (let d := storeAt (live []) 0 (TCM_POST_CTL 0).ofs 0x80000000
       (match postCheck d 0 (fld d (TCM_POST_CTL_UNITS 0)) with | .ok _ => true | .error _ => false) = false) := by decide

theorem test_witness_NoTwoPendingShareAnId : (List.replicate 72 (commitAt 0)).length ≤ 72 ∧ (commitAt 0).id < 65536 := by decide

theorem test_witness_CancelFreesTheCommit : admits (live []) 0 (TCM_POST_CANCEL 0).ofs = true ∧ posterMaster (commitAt 0).poster = 0
    ∧ (committed (commitAt 1000000)).commits.find? (fun c => c.id == getBits 0x80000007 15 0) = some (commitAt 1000000)
    ∧ isDue (committed (commitAt 1000000)) (commitAt 1000000) = false ∧ isDue (committed (commitAt 0)) (commitAt 0) = true
    ∧ (committed (commitAt 0)).commits.find? (fun c => c.id == getBits 0x80000008 15 0) = none := by decide

theorem test_witness_CommitAppliesWhollyOrNotAtAll : (live []).commits.any (isDue (live [])) = false
    ∧ (committed (commitAt 0)).commits.any (isDue (committed (commitAt 0))) = true ∧ nextDue (evaluateTick (committed (commitAt 0))) = some (commitAt 0)
    ∧ (unitBits 1).find? (fun b => leafPower (committed (commitAt 0)) (commitUnit b) != 2) = none
    ∧ (unitBits 1).filter (unitRefuses (committed (commitAt 0)) (commitAt 0)) = []
    ∧ ((unitBits 0xFFFF).find? (fun b => leafPower (live [(PWR_DOM_ON_LO, 3), (PWR_DOM_ON_HI, 0)]) (commitUnit b) != 2)).isSome = true := by
  decide

theorem test_witness_OutcomeIsRecorded : 15 < 16 := by decide

theorem test_witness_FrameCommitTimesOut : (committed { commitAt 0 with due := .frame .a 5, passed := true }).commits.find?
      (frameOver (committed { commitAt 0 with due := .frame .a 5, passed := true })) = some { commitAt 0 with due := .frame .a 5, passed := true }
    ∧ (committed (commitAt 0)).commits.find? (frameOver (committed (commitAt 0))) = none := by decide

/-! ### Line lanes and modules (spec/05) -/

theorem test_witness_ModuleBringUp : modState (withFlds (live []) [(LLx_STATUS_MOD_STATE 0, modAbsentSt)]) .a = modAbsentSt
    ∧ modState (withFlds (live []) [(LLx_STATUS_MOD_STATE 0, modResetting)]) .a = modResetting
    ∧ modState (withFlds (live []) [(LLx_STATUS_MOD_STATE 0, modInitWait)]) .a = modInitWait
    ∧ modState (withFlds (live []) [(LLx_STATUS_MOD_STATE 1, modReady)]) .b = modReady
    ∧ timerOver (withTimers (live []) [(.modReset .a, 1), (.modInit .a, 1), (.modRecheck .b, 1)]) (.modReset .a) = true
    ∧ timerOver (withTimers (live []) [(.modReset .a, 1), (.modInit .a, 1), (.modRecheck .b, 1)]) (.modInit .a) = true
    ∧ timerOver (withTimers (live []) [(.modReset .a, 1), (.modInit .a, 1), (.modRecheck .b, 1)]) (.modRecheck .b) = true := by decide

theorem test_witness_ModuleBringUp_power : domainOn (live []) (txDomain .a) = true ∧ domainOn (live [(PWR_DOM_ON_LO, 3)]) (txDomain .a) = false
    ∧ looped (live []) .a 3 = false ∧ looped (withFlds (live []) [(LLx_CTL_TEST_MODE 0, 1)]) .a 3 = true := by decide

/-- A device whose L-A lane unit has the given hidden state. -/
def lined (h : LineHw) : Dev := { live [] with lineHw := (live []).lineHw.set .a h }

theorem test_witness_ModuleIdentity : ((lined { LineHw.reset with checking := true, tryRead := 2 }).lineHw.get .a).checking = true
    ∧ ((lined { LineHw.reset with checking := true, tryRead := 2 }).lineHw.get .a).tryRead < 3
    ∧ 3 ≤ ((lined { LineHw.reset with checking := true, tryRead := 3 }).lineHw.get .a).tryRead
    ∧ ((live []).lineHw.get .a).checking = false := by decide

theorem test_witness_ModuleRegisterWrites : admits (live []) 0 (LLx_MOD_ID_CFG 0).ofs = true ∧ admits (live []) 0 (LLx_MOD_XFER 1).ofs = true
    ∧ ((live []).lineHw.get .b).xfer = none
    ∧ modState (withFlds (live []) [(LLx_STATUS_MOD_STATE 0, modReady)]) .a ≠ modAbsentSt ∧ modReady ≠ modUnpowered
    ∧ ((lined { LineHw.reset with xfer := some ⟨false, 0, 0, 0⟩ }).lineHw.get .a).xfer = some ⟨false, 0, 0, 0⟩ := by decide

theorem test_witness_PatternCheckers : chkOn (live [(LLx_RXr_CHK 0 7, 8)]) (.line .a 7) = true
    ∧ chkLocked (withFlds (live [(LLx_RXr_CHK 0 7, 8)]) [(LLx_RXr_STATUS_PRBS_LOCK 0 7, 1)]) (.line .a 7) = true
    ∧ admits (live []) 0 (chkReg (.line .a 0)).ofs = true ∧ admits (live []) 0 (genReg (.line .b 3)).ofs = true
    ∧ sget 0 (live []).injTx (txKey (.line .a 0)) = 0 ∧ sget 0 { live [] with injTx := [(txKey (.line .a 0), 5)] }.injTx (txKey (.line .a 0)) ≠ 0
    ∧ sget 0 (live []).injRx (rxKey (.line .a 0)) = 0 ∧ fld (live []) (LLx_CTL_TEST_MODE 0) ≠ 1
    ∧ fld (withFlds (live []) [(LLx_CTL_TEST_MODE 0, 1)]) (LLx_CTL_TEST_MODE 0) = 1 ∧ domainOn (live []) (txDomain .a) = true := by decide

theorem test_witness_PatternCheckers_counts :
    let on := live [(LLx_RXr_CHK 0 7, 8)]
    let d := { withFlds on [(LLx_RXr_STATUS_PRBS_LOCK 0 7, 1)] with prbsChk := [(rxKey (.line .a 7), { ChkHw.reset with errs := 63 })] }
    laneReceives on (.line .a 7) = true ∧ inTestBursts on (.line .a 7) = false ∧ flag on (lockFld (.line .a 7)) = false
      ∧ laneReceives d (.line .a 7) = true ∧ chkLocked d (.line .a 7) = true ∧ 64 ≤ (chkHw d (.line .a 7)).errs + 1
      ∧ (chkHw d (.line .a 7)).errs + 0 < 64 ∧ [true, false].length % 2 = 0 ∧ (0x40000000 : Word).getLsbD 31 = false := by decide

theorem test_witness_TestModeWrite : admits (live []) 0 (LLx_CTL 0).ofs = true ∧ admits (live []) 0 (LLx_CTL 1).ofs = true := by decide

/-! ### Downstream framing (spec/06) -/

/-- A Frame Start Block with the exact alignment word, good check words, the frame number and the channel given, and no grants. -/
def frameStart (frame chan : Nat) : List Byte :=
  let body := beBytes 6 frame ++ [BitVec.ofNat 8 (32 * chan)] ++ List.replicate 57 0
  beBytes 8 fawWord ++ body ++ beBytes 4 (crc32Fsb body) ++ beBytes 4 (crc32Fsb body ^^^ 0xFFFFFFFF)

/-- A device whose L-A channel 1 is in the given state with the given hidden state, and group checking off. -/
def framed (st : Nat) (h : ChanHw) : Dev :=
  setChan (setChState (withFlds (live [(DSF_CH_DEFECT 0, 0)]) [(DSF_CFG_GROUP_CHECK 0, 0)]) .a 1 st) .a 1 (fun _ => h)

theorem test_witness_HuntConfirmSync_boundary : hunts (framed chHunt ChanHw.reset) .a 1 = true ∧ fawErrors (frameStart 9 1) = 0
    ∧ fsbGood (frameStart 9 1) = true ∧ fsbMatches (framed chHunt ChanHw.reset) .a 1 (frameStart 9 1) = true
    ∧ fsbMatches (framed chHunt ChanHw.reset) .a 1 (frameStart 9 2) = false ∧ fsbGood (List.replicate 80 1) = false
    ∧ fawErrors (List.replicate 80 0) ≠ 0 := by decide +kernel

theorem test_witness_HuntConfirmSync_candidates :
    let full := { ChanHw.reset with cands := (List.range 8).map (fun n => ⟨n, 8, 1, 0⟩) }
    let last := { ChanHw.reset with cands := [⟨5, 8, 15, 0⟩] }
    (chanHw (framed chConfirm full) .a 1).cands.length = 8 ∧ (∀ k ∈ (chanHw (framed chConfirm full) .a 1).cands, k.pos ≠ 8)
      ∧ hunts (framed chConfirm full) .a 1 = true
      ∧ (chanHw (framed chConfirm last) .a 1).cands.find? (fun k => k.pos == 5) = some ⟨5, 8, 15, 0⟩
      ∧ fsbFrame (frameStart 9 1) = nextFrame 8
      ∧ fld (framed chConfirm last) (DSF_CFG_CONF_N 0) ≤ 15 + 1
      ∧ 1 + 1 < fld (framed chConfirm full) (DSF_CFG_CONF_N 0) := by decide +kernel

theorem test_witness_FramesInSync : dsfOn (framed chSync ChanHw.reset) .a = true ∧ chState (framed chSync ChanHw.reset) .a 1 = chSync
    ∧ fsbFrame (frameStart 1 1) = nextFrame (chanHw (framed chSync ChanHw.reset) .a 1).frame
    ∧ laneChangedAt (framed chSync ChanHw.reset) .a 1 + 250 ≤ (framed chSync ChanHw.reset).elapsed
    ∧ laneChangedAt (framed chSync ChanHw.reset) .a 1 + 6250 ≤ (framed chSync ChanHw.reset).elapsed
    ∧ laneUp (live [(DSF_CH_DEFECT 0, 0)]) .a 1 = false ∧ chLos (live [(DSF_CH_DEFECT 0, 0)]) .a 1 = false
    ∧ laneUp (withFlds (live []) [(LLx_RXr_STATUS_SIGNAL 0 1, 1), (LLx_RXr_STATUS_CDR_LOCK 0 1, 1)]) .a 1 = true
    ∧ targetRetired (live []) 46 = false ∧ fld (live []) (DSF_FILT_CFG_SR_PERSIST 0) ≤ 15 ∧ 65535 < 65536 := by decide +kernel

theorem test_witness_FramesInSync_second : dsfOn (marked (secDsf .a)) .a = true ∧ secMark (marked (secDsf .a)) (secDsf .a) = some (6, true)
    ∧ secMark (live []) (secDsf .a) = none ∧ (fsbGood (frameStart 1 1) && fsbMatches (framed chSync ChanHw.reset) .a 1 (frameStart 1 1)) = true
    ∧ dsfMode (live []) .a ≠ 2 := by decide +kernel

theorem test_witness_ModeRestartsBonding : dsfMode (withFlds (live []) [(DSF_STATUS_MODE 0, 2)]) .a ≠ modeWanted (withFlds (live []) [(DSF_STATUS_MODE 0, 2)]) .a
    ∧ dsfMode (withFlds (live []) [(DSF_STATUS_MODE 0, modeWanted (live []) .a)]) .a = modeWanted (live []) .a
    ∧ bonded (withFlds (live []) [(DSF_STATUS_BONDED 0, 1)]) .a = true := by decide

/-! ### Registration and ranging (spec/07) -/

/-- A device whose L-A line is in the given terminal state with the terminal ID 5. -/
def lineIn (st : Nat) : Dev := withFlds (live []) [(RNG_Lx_STATUS_STATE 0, st), (RNG_Lx_STATUS_TERMINAL_ID 0, 5), (LLx_STATUS_MOD_STATE 0, modReady),
  (DSF_STATUS_BONDED 0, 1), (DSF_STATUS_LINE_AIS 0, 0), (RNG_Lx_CTL_REG_EN 0, 1), (RNG_Lx_STATUS_RANGED 0, 15)]

theorem test_witness_LineLeavesAndReturns : termState (lineIn stOperate) .a ≠ stListen ∧ termState (lineIn stListen) .a = stListen
    ∧ lineReady (lineIn stListen) .a = true ∧ termState (lineIn stAnnounce) .a = stAnnounce ∧ termState (lineIn stRanging) .a = stRanging
    ∧ termState (lineIn stHold) .a = stHold
    ∧ timerOver (withTimers (lineIn stAnnounce) [(.annTo .a, 9), (.rngTo .a, 9), (.holdTo .a, 9)]) (.annTo .a) = true
    ∧ timerOver (withTimers (lineIn stRanging) [(.annTo .a, 9), (.rngTo .a, 9), (.holdTo .a, 9)]) (.rngTo .a) = true
    ∧ timerOver (withTimers (lineIn stHold) [(.annTo .a, 9), (.rngTo .a, 9), (.holdTo .a, 9)]) (.holdTo .a) = true
    ∧ admits (live []) 0 (RNG_Lx_CTL 0).ofs = true ∧ (0 : Word).getLsbD 0 = false := by decide

/-- The head of a message for terminal 5, and of one for every terminal. -/
def toFive : LmmHead := ⟨1, 100, 5, 3⟩
def toAll : LmmHead := ⟨1, 100, 0xFFF, 3⟩

theorem test_witness_MessagesForALine : forLine (lineIn stOperate) .a toFive = true ∧ forLine (lineIn stOperate) .a ⟨1, 100, 6, 3⟩ = false
    ∧ forLine (lineIn stAnnounce) .a toAll = true ∧ repeated (lineIn stOperate) .a toFive = false ∧ coresHalted (lineIn stOperate) = false
    ∧ namesDevice (lineIn stOperate) .a toFive 0 = true ∧ termState (lineIn stStopped) .a = stStopped
    ∧ serialNumber (lineIn stAnnounce) = (BitVec.ofNat 64 (serialNumber (lineIn stAnnounce))).toNat
    ∧ isFrozen (lineIn stOperate) (mgmtMaster .a) = false ∧ (8100 : BitVec 48).toNat ≤ toFive.frame.toNat + 8000
    ∧ ({ RngHw.reset with asked := true }).acked = none := by decide

/-- A device whose L-A line keeps the given hidden state of RNG. -/
def ranging (st : Nat) (r : RngHw) : Dev := { lineIn st with rngHw := (live []).rngHw.set .a r }

theorem test_witness_RangingAndSleep :
    let w : EqdWait := ⟨3, 0x1234567, 77, 0, [], 1⟩
    eqdDue (ranging stRanging { RngHw.reset with eqdWait := [{ w with frame := 1 }, w] }) .a = some w ∧ w.chan < 4
      ∧ ((ranging stRanging { RngHw.reset with lastSeen := true }).rngHw.get .a).lastSeen = true
      ∧ fld (lineIn stRanging) (RNG_Lx_STATUS_RANGED 0) ≠ 0 ∧ hasActive (lineIn stRanging) = false ∧ homeRun (lineIn stRanging) = false
      ∧ hasActive (withFlds (lineIn stRanging) [(SDL_STATUS_HAS_ACTIVE, 1)]) = true
      ∧ ({ RngHw.reset with asked := true }).asked = true ∧ ({ RngHw.reset with asked := true }).askedAt + 32 ≤ framesOf { lineIn stOperate with dsf := (lineIn stOperate).dsf.set .a { DsfHw.reset with frames := 32 } } .a := by decide

theorem test_witness_RangingAndSleep_lease :
    let d := withFlds (lineIn stOperate) [(RNG_Lx_STATUS_SLEEP 0, 1), (RNG_Lx_SLEEP_LEASE 0, 0)]
    let e := withTimers (withFlds (lineIn stOperate) [(RNG_Lx_SLEEP_LEASE 0, 60)]) [(.wakeBond .a, 2000000000)]
    leaseRuns d .a = true ∧ leaseLeft d .a = 0 ∧ asleep d .a = true ∧ timerRuns e (.wakeBond .a) = true ∧ bonded e .a = true
      ∧ 0 < leaseLeft e .a ∧ timerOver e (.wakeBond .a) = false ∧ asleep e .a = false
      ∧ timerOver (withTimers (lineIn stOperate) [(.wakeBond .a, 1)]) (.wakeBond .a) = true
      ∧ announces (lineIn stOperate) .a = true ∧ announces (lineIn stOperate) .b = false
      ∧ { lineIn stOperate with frzReport := true }.frzReport = true := by decide

/-! ### Upstream bursts and the Narrows (spec/08) -/

/-- A grant for L-A, and a unit of 64 bytes. -/
def grantA : Grant :=
  { frame := 0, chan := 0, start := 100, len := 100, profile := 0, report := false, keepalive := false, alloc := 40, entry := some 3,
    pre := 32, preWord := 0, eqd := 0, floor := 1, horizon := true, reserved := true, waited := false, complete := false, granules := 0, staged := [], sent := [],
    risen := false, dark := false, occ := 0, short := 0, head := none }

def unitA : LineUnit := { hdr := 0x0100000000000000, payload := List.replicate 64 0, tc := false, seq := 0 }

/-- A device in Operate whose L-A line holds the grants given, lasers and transmit lanes enabled. -/
def granted (gs : List Grant) : Dev :=
  let d := withFlds (lineIn stOperate) [(LLx_CTL_TX_EN 0, 15), (LLx_CTL_LASER_OFF 0, 0), (NRW_ALLOCi_FLOOR_FLOOR 3, 1)]
  { d with upHw := d.upHw.set .a { UpHw.reset with grants := gs } }

/-- A map entry for channel 0 with the profile, start and length given. -/
def mapWord (p start len : Nat) : Nat := start * 2 ^ 33 + len * 2 ^ 16 + p * 2 ^ 13

theorem test_witness_AcceptedGrantsNeverOverlap : termState (lineIn stStandby) .a ≠ stOperate ∧ (some 3 : Option Nat) ≠ none
    ∧ termState (lineIn stOperate) .a = stOperate
    ∧ ((live []).upHw.get .a).accepted = [] ∧ bitOf (fld (lineIn stOperate) (RNG_Lx_STATUS_RANGED 0)) (geChan (mapWord 0 0 5)) = true
    ∧ bitOf (fld (withFlds (lineIn stOperate) [(RNG_Lx_STATUS_RANGED 0, 2)]) (RNG_Lx_STATUS_RANGED 0)) (geChan (mapWord 0 0 5)) = false
    ∧ geProfile (mapWord 3 0 5) = 3 ∧ geProfile (mapWord 2 103745 5) ≠ 3 ∧ geStart (mapWord 2 103745 5) + geLen (mapWord 2 103745 5) = 103750
    ∧ geLen (mapWord 2 103745 5) = 5 ∧ geLen (mapWord 0 0 4) < 5 ∧ 103750 < geStart (mapWord 0 103745 6) + geLen (mapWord 0 103745 6) := by
  decide

theorem test_witness_StagingAndHorizon :
    let g := { grantA with horizon := false, reserved := false }
    let d := granted [g]
    firstGrant ((d.upHw.get .a).grants.filter (fun g => !g.horizon && nearHorizon d .a g)) = some g
      ∧ firstGrant (((granted [{ g with horizon := true }]).upHw.get .a).grants.filter (fun g => g.horizon && !g.reserved)) = some { g with horizon := true }
      ∧ floorLack d .a g ≤ freeGranules d ∧ freeGranules d < floorLack d .a { g with floor := 100000 }
      ∧ domainOn d 26 = true ∧ stagingGrant (live []) = none := by decide +kernel

theorem test_witness_StagingAndHorizon_serves :
    let d := { granted [grantA] with formed := [(3, [unitA])] }
    let e := { granted [grantA] with carry := [(3, [⟨unitA, 0⟩])] }
    stagingGrant d = some (.a, grantA, true) ∧ carryOf d (carryKey .a grantA.entry) = [] ∧ formedOf d (carryKey .a grantA.entry) = [unitA]
      ∧ fitsGrant grantA (unitBytes unitA) = true ∧ hasRoom d .a grantA (unitGranules unitA) true = true
      ∧ stagingGrant e = some (.a, grantA, true) ∧ carryOf e (carryKey .a grantA.entry) = [⟨unitA, 0⟩]
      ∧ fitsGrant { grantA with len := 5 } (unitBytes unitA) = false := by decide +kernel

theorem test_witness_BurstsOnTheLane :
    let d := granted [grantA]
    nextBurst d .a 0 = some grantA ∧ (d.upHw.get .a).leaving = false ∧ withheld d .a grantA = false
      ∧ burstOk d .a 0 = true ∧ burstOk (live []) .a 0 = false
      ∧ burstOn (granted [{ grantA with risen := true, staged := [unitA] }]) .a 0 = some { grantA with risen := true, staged := [unitA] }
      ∧ payloadDone { grantA with risen := true, staged := [unitA] } = false
      ∧ payloadDone { grantA with risen := true, sent := [⟨[], true⟩] } = true
      ∧ fillingOn (granted [{ grantA with risen := true, staged := [unitA] }]) .a 0 = some { grantA with risen := true, staged := [unitA] }
      ∧ fillingOn (granted [{ grantA with risen := true }]) .a 0 = some { grantA with risen := true }
      ∧ burstOn (granted [{ grantA with risen := true, sent := [⟨[], true⟩], head := some [] }]) .a 0
        = some { grantA with risen := true, sent := [⟨[], true⟩], head := some [] } := by decide +kernel

theorem test_witness_BurstsOnTheLane_tail :
    let tail := { granted [] with lineHw := (live []).lineHw.set .a { LineHw.reset with benPhase := [(0, benTail)] } }
    let next := { granted [grantA] with lineHw := (live []).lineHw.set .a { LineHw.reset with benPhase := [(0, benTail)] } }
    let near := setBen { next with upHw := next.upHw.set .a { UpHw.reset with grants := [grantA], lastEnd := [(0, (benSpan next .a grantA).1.toNat)] } } .a 0 true
    benPhase tail .a 0 = benTail ∧ shortGap tail .a 0 = false ∧ benPhase near .a 0 = benTail ∧ laserOkNow near .a 0 = true
      ∧ benHigh near .a 0 = true ∧ shortGap near .a 0 = true
      ∧ ({ RngHw.reset with response := some ⟨0, 0, 0, none, 0⟩ }).response.isSome = true := by decide +kernel

/-! ### Line encapsulation and the cipher (spec/09, spec/10) -/

/-- A device whose L-A bitmap in use accepts tag 5. -/
def accepting : Dev :=
  let d := withFlds (live []) [(ENC_Lx_STATUS_DELIN 0, delinSync), (DSF_STATUS_MODE 0, 1)]
  { d with bitmaps := [(bmapKey .a (bmapInUse d .a) 0, 0x20)] }

/-- The header of an accepted unit of 8 bytes with LAST set. -/
def headerFive : Nat := headerWord (headerTop 8 5 0 1 0 0)

theorem test_witness_UnitsAndFrames : domainOn (live []) 26 = true ∧ domainOn (live [(PWR_DOM_ON_LO, 0)]) 26 = false
    ∧ (delineate accepting .a headerFive true).2 = true ∧ (delineate accepting .a 1 false).2 = false
    ∧ huTag (0xFFFFF * 2 ^ 30) = 0xFFFFF ∧ huTag (0xFFFFE * 2 ^ 30) = 0xFFFFE ∧ accepts accepting .a 5 = true ∧ accepts accepting .a 6 = false
    ∧ huTag headerFive = 5 ∧ huLength headerFive = 8 ∧ huOam headerFive = false
    ∧ huLength (headerWord (headerTop 0 5 0 1 0 0)) = 0 ∧ admits (live []) 0 (ENC_BMAPk 32767).ofs = true := by decide +kernel

/-- The same with the first codewords of frame 0 received, the stream's first word as given. -/
def streaming (word : Nat) (mark : Bool) : Dev :=
  setDsf accepting .a (fun h => { h with words := (List.range 4).map (fun c =>
    { chan := c, frame := 0, index := 0, data := if c = 0 then word * 2 ^ 5076 else 0, mark := mark }) })

theorem test_witness_UnitsAndFrames_stream : nextUnit accepting .a = none ∧ delin (live []) .a = delinOff ∧ delin accepting .a ≠ delinOff
    ∧ readStream (streaming 1 true) .a 0 0 8 = some (1, true) ∧ nextUnit (streaming 1 false) .a = some (1, false, [], false)
    ∧ nextUnit (streaming headerFive false) .a = some (headerFive, true, List.replicate 8 0, false)
    ∧ (delineate (streaming headerFive false) .a headerFive true).2 = true ∧ (delineate (streaming 1 false) .a 1 false).2 = false
    ∧ huOam (headerWord (headerTop 8 5 0 0 1 0)) = true ∧ huLast (headerWord (headerTop 8 5 0 0 1 0)) = false
    ∧ huLast headerFive = true := by decide +kernel

theorem test_witness_UnitsAndFrames_lengths : (List.replicate 63 (0 : Byte)).length ≤ 63 ∧ fcsGood (List.replicate 64 0) = false
    ∧ fcsGood (withFcs (List.replicate 60 0)) = true ∧ (withFcs (List.replicate 60 0)).length = 64 ∧ 9217 ≤ 9217 := by decide +kernel

theorem test_witness_KeysAndSlots : admits (live []) 0 (CIP_SLOT_CTL 255).ofs = true
    ∧ (keySlot { live [] with keySlots := [(255, { KeySlot.empty with written := 0xFF })] } 255).written = 0xFF ∧ txOfGcm (live []) 255 = false
    ∧ (keySlot (live []) 255).written ≠ 0xFF
    ∧ txOfGcm { live [] with applied := [((CIP_PAGEp_TXSEL 63).ofs, 4)] } 252 = true
    ∧ admits (live []) 0 (CIP_PAGEp_SALT 63).ofs = true ∧ pageLoaded (live []) 63 = false
    ∧ pageLoaded (withFlds (live []) [(CIP_PAGEp_STATUS_LOADED 63, 8)]) 63 = true ∧ admits (live []) 0 (bootReg .b 7).ofs = true
    ∧ admits (live []) 0 CIP_CTR_LIMIT_LO.ofs = true ∧ admits (live []) 0 CIP_CTR_LIMIT_HI.ofs = true
    ∧ admits (live []) 0 (HIF_KPp_OWN 55).ofs = true
    ∧ fld (storeAt (live []) 0 (HIF_KPp_OWN 55).ofs 3) (HIF_KPp_OWN_OWNER 55) ≠ fld (live []) (HIF_KPp_OWN_OWNER 55) := by decide +kernel

theorem test_witness_CountersOnlyRise : ctrLimit (live []) < 0x10000000000000000 ∧ forLine (lineIn stOperate) .a toFive = true ∧ toFive.term ≠ 0xFFF
    ∧ mirrorRejects (withFlds (lineIn stOperate) [(SDL_CFG_KEY_MIRROR, 1), (SDL_STATUS_HAS_ACTIVE, 1), (SDL_STATUS_ACTIVE, 1)]) .a = true
    ∧ mirrorRejects (lineIn stOperate) .a = false
    ∧ isFrozen (lineIn stOperate) (mgmtMaster .a) = false ∧ coresHalted (lineIn stOperate) = false
    ∧ repeated (lineIn stOperate) .a toFive = false ∧ isTxSlot (lineIn stOperate) (4 * 7 + 3) = false
    ∧ slotLoaded (withFlds (lineIn stOperate) [(CIP_PAGEp_STATUS_LOADED 7, 8)]) (4 * 7 + 3) = true
    ∧ flag (withFlds (lineIn stOperate) [(SDL_CFG_KEY_MIRROR, 0)]) SDL_CFG_KEY_MIRROR = false := by decide +kernel

/-- A device whose slot 1 of page 8 is loaded. -/
def keyed : Dev := withFlds (live []) [(CIP_PAGEp_STATUS_LOADED 8, 2)]

/-- A ciphered unit of one byte that authenticates at the expected counter of slot 1 of page 8. -/
def sealedUnit : List Byte := [0] ++ gcmTagBytes (keySlot keyed 33).key (nonce keyed 8 false (rxCtr keyed 33)) (aadOf 0) [0]

theorem test_witness_CountersOnlyRise_decipher : ∃ bs : List Byte, (decipher keyed 8 1 0 sealedUnit none false).2 = some bs := by
  have hl : sealedUnit.length = 17 := by simp [sealedUnit, gcmTagBytes, natBytes]
  have hs : slotLoaded keyed 33 = true ∧ slotExhausted keyed 33 = false ∧ enginesOk keyed = 16 := by decide +kernel
  have hw : ∃ n, fld keyed CIP_CTL_RX_WIN = n + 1 := ⟨fld keyed CIP_CTL_RX_WIN - 1, by decide +kernel⟩
  have hc : ¬ ctrLimit keyed ≤ rxCtr keyed 33 := by decide +kernel
  obtain ⟨n, hw⟩ := hw
  have hf : findCounter keyed (keySlot keyed 33).key 8 0 (sealedUnit.take 1) (sealedUnit.drop 1) (n + 1) (rxCtr keyed 33) = some (rxCtr keyed 33) := by
    rw [findCounter, if_neg hc]
    exact if_pos (by simp [sealedUnit])
  rw [List.drop_one] at hf
  exact Option.isSome_iff_exists.mp (by simp [decipher, hl, hs.1, hs.2.1, hs.2.2, hw, hf])

theorem test_witness_CountersOnlyRise_up :
    let d := { withFlds (live []) [(CIP_PAGEp_STATUS_LOADED 8, 1)] with applied := [((CIP_PAGEp_TXSEL 8).ofs, 4)] }
    pageGcm d 8 = true ∧ (cipUp d 8 5 false false [[0]] []).2.isSome = true ∧ ctrLimit d < 0x10000000000000000 := by decide +kernel

/-! ### The Saddle (spec/11) -/

theorem test_witness_SwitchingLines :
    let d := withFlds (lineIn stOperate) [(SDL_STATUS_HAS_ACTIVE, 1), (SDL_STATUS_ACTIVE, 0), (RNG_Lx_STATUS_STATE 1, stStandby)]
    let sw := withFlds (live []) [(SDL_STATUS_SWITCHING, 1)]
    isActive d .a = true ∧ isActive d .b = false ∧ termState d .a ≠ stHold ∧ switching sw = true ∧ switching d = false
      ∧ newGridBegun sw = false ∧ sw.elapsed < { sw with saddle := { sw.saddle with swTick := sw.elapsed } }.saddle.swTick + 9375
      ∧ newGridBegun { withFlds sw [(SDL_STATUS_ACTIVE, 0)] with saddle := { sw.saddle with swMap := some 0 }, clock := ⟨9, 0, 0⟩ } = true
      ∧ secMark (marked secHealth) secHealth = some (6, true) ∧ secMark (live []) secHealth = none
      ∧ pwrStopped (setFlag { d with pwr := { PwrHw.reset with phase := .asking 4, target := pwrHush } } PWR_STATUS_TRANS true) 3 = true
      ∧ barred (withFlds d [(SDL_STATUS_HOST_REQ, 2), (SDL_STATUS_HOST_TARGET, 1)]) .b = true ∧ sw.saddle.swTick + 9375 ≤ sw.elapsed
      ∧ flag (withFlds d [(SDL_STATUS_WTR_RUN, 1), (SDL_STATUS_WTR_LEFT, 0)]) SDL_STATUS_WTR_RUN = true
      ∧ fld (withFlds d [(SDL_STATUS_WTR_RUN, 1), (SDL_STATUS_WTR_LEFT, 0)]) SDL_STATUS_WTR_LEFT = 0
      ∧ flag d SDL_STATUS_WTR_RUN = false := by decide +kernel

/-! ### Server lanes and MACs (spec/12, spec/13) -/

/-- A device whose lane 63 (lane 3 of quad 15) is enabled and in the given state. -/
def laneIn (st : Nat) : Dev :=
  withFlds (live []) [(SLN_LANEl_CFG_ENABLE 15 3, 1), (SLN_LANEl_STATUS_STATE 15 3, st), (SLN_LANEl_STATUS_RES_SPEED 15 3, 3),
    (SLN_LANEl_STATUS_LF 15 3, 0), (SLN_LANEl_STATUS_RF 15 3, 0)]

theorem test_witness_LaneBringUp : cfgPresSrc (rd (laneIn lnDetect) (SLN_LANEl_CFG 15 3)) = 0 ∧ laneState (laneIn lnDetect) 63 = lnDetect
    ∧ cfgPresSrc (laneCfg (laneIn lnDetect) 63) = 0
    ∧ (laneHw { laneIn lnDetect with lanes := [(63, { LaneHw.reset with hits := 1 })] } 63).hits = 1
    ∧ cfgAnEn (rd (laneIn lnDetect) (SLN_LANEl_CFG 15 3)) = true ∧ laneTest (laneIn lnDetect) 63 = 0
    ∧ laneState (laneIn lnAn) 63 = lnAn ∧ commonSpeed (getBits (laneAdv (laneIn lnAn) 63) 3 0) 0 = none
    ∧ commonSpeed (getBits (laneAdv (laneIn lnAn) 63) 3 0) 15 = some 3
    ∧ timerOver (withTimers (laneIn lnAn) [(.laneAn 63, 1), (.laneCap 63, 1), (.laneLink 63, 1)]) (.laneAn 63) = true
    ∧ laneState (laneIn lnTrain) 63 = lnTrain ∧ laneState (laneIn lnLock) 63 = lnLock ∧ noFault (laneIn lnLock) 63 = true
    ∧ laneState (withTimers (laneIn lnCap) [(.laneCap 63, 1)]) 63 = lnCap ∧ timerOver (withTimers (laneIn lnCap) [(.laneCap 63, 1)]) (.laneCap 63) = true
    ∧ timerOver (withTimers (laneIn lnLock) [(.laneLink 63, 1)]) (.laneLink 63) = true ∧ laneState (laneIn lnActive) 63 = lnActive := by
  decide +kernel

theorem test_witness_LaneBringUp_inputs : (laneHw (laneIn lnDetect) 63).probeAt ≤ (laneIn lnDetect).elapsed
    ∧ sliceTarget (laneIn lnDetect) ≠ some (28 + (15 : Fin 16).val) ∧ (laneHw (laneIn lnDetect) 63).hits = 0
    ∧ refsOk (live [(SLN_REFS_STATUS 0, 15)]) (cfgRefSel (rd (live []) (SLN_LANEl_CFG 15 3))) = true
    ∧ refsOk (live [(SLN_REFS_STATUS 0, 0)]) (cfgRefSel (rd (live []) (SLN_LANEl_CFG 15 3))) = false
    ∧ ownTech (laneIn lnAn) 63 &&& (0 : BitVec 8).toNat = 0 ∧ ownTech (laneIn lnAn) 63 &&& (0xFF : BitVec 8).toNat ≠ 0
    ∧ flag (laneIn lnLock) (SLN_LANEl_STATUS_BLOCK_LOCK 15 3) = false ∧ rsMode (laneIn lnLock) 63 = false
    ∧ timerOver (withTimers (laneIn lnCap) [(.laneCap 63, 1)]) (.laneLink 63) = false
    ∧ flag (withFlds (laneIn lnActive) [(SLN_LANEl_STATUS_BLOCK_LOCK 15 3, 1)]) (SLN_LANEl_STATUS_BLOCK_LOCK 15 3) = true
    ∧ (laneHw (laneIn lnActive) 63).fill = 16 := by decide +kernel

theorem test_witness_LaneConditions : lanePowered (live [(PWR_DOM_ON_LO, 3)]) 63 = false ∧ laneEnabled (withFlds (live []) [(SLN_LANEl_CFG_ENABLE 15 3, 0)]) 63 = false
    ∧ quadRetired (withFlds (live []) [(BST_TGTt_STATUS_STATE 43, 3)]) 15 = true
    ∧ lanePowered (laneIn lnActive) 63 = true ∧ laneEnabled (laneIn lnActive) 63 = true ∧ quadRetired (laneIn lnActive) 15 = false
    ∧ laneState (laneIn lnActive) 63 ≠ lnOff ∧ refsOk (live [(SLN_REFS_STATUS 0, 0)]) 0 = false ∧ refsOk (live [(SLN_REFS_STATUS 0, 15)]) 3 = true
    ∧ admits (live []) 0 (SLN_LANEl_CFG 15 3).ofs = true ∧ admits (live []) 0 (SLN_LANEl_CTL 15 3).ofs = true
    ∧ laneState (laneIn lnCap) 63 = lnCap ∧ noFault (withFlds (laneIn lnActive) [(SLN_LANEl_STATUS_RF 15 3, 1)]) 63 = false := by decide +kernel

/-- A frame in the transmit path. -/
def bufFrame (bytes : List Byte) : BufFrame :=
  { bytes := bytes, src := .lane 0, pri := 0, pool := 0, tag := 0, page := 0, time := TimeInfo.none, launch := none, tx := none, flags := 0, endpoint := 0 }

/-- A device whose lane 63 is ACTIVE, with the hidden state of its MAC given. -/
def macIn (m : MacHw) : Dev := { laneIn lnActive with macs := [(63, m)] }

theorem test_witness_FramesAtTheMacs_receive : maxLen (laneIn lnActive) 63 < 9217 ∧ fcsGood (List.replicate 64 0) = false
    ∧ fcsGood (withFcs (List.replicate 60 0)) = true ∧ (withFcs (List.replicate 60 0)).length ≤ maxLen (laneIn lnActive) 63
    ∧ beNat (slice (withFcs (List.replicate 60 0)) 12 2) ≠ 0x8808
    ∧ (macHw (macIn { MacHw.reset with tx := some (bufFrame (List.replicate 64 0)) }) 63).tx = some (bufFrame (List.replicate 64 0))
    ∧ notYet (laneIn lnActive) (bufFrame []) = false ∧ passedOver (laneIn lnActive) (bufFrame []) = false
    ∧ (laneHw (laneIn lnActive) 63).cut = false ∧ (laneHw (laneIn lnActive) 63).fec = 0
    ∧ (laneHw { laneIn lnActive with lanes := [(63, { LaneHw.reset with cut := true })] } 63).cut = true
    ∧ (laneHw { laneIn lnActive with lanes := [(63, { LaneHw.reset with fec := 2 })] } 63).fec ≠ 0
    ∧ startHeld (macIn { MacHw.reset with tx := some (bufFrame (List.replicate 64 0)) }) 63 0 (bufFrame (List.replicate 64 0)) = false
    ∧ flowFirst (laneIn lnActive) 63 = false := by decide +kernel

theorem test_witness_FramesAtTheMacs_pause :
    let pause := withFlds (laneIn lnActive) [(⟨MAC_LANEl_CFG 15 3, 17, 16⟩, 1)]
    let pfc := withFlds (laneIn lnActive) [(⟨MAC_LANEl_CFG 15 3, 17, 16⟩, 2)]
    fcMode (withFlds (laneIn lnActive) [(⟨MAC_LANEl_CFG 15 3, 17, 16⟩, 0)]) 63 ≠ 1 ∧ fcMode pause 63 = 1
      ∧ pauseRxOn (withFlds pause [(SLN_LANEl_STATUS_PAUSE_RX 15 3, 1)]) 63 = true ∧ watchdogDue pause 63 0 = false ∧ ignoring pause 63 0 = false
      ∧ fcMode pfc 63 = 2 ∧ fcMode pause 63 ≠ 2 ∧ flowMaySend pause 63 = true := by decide +kernel

theorem test_witness_FramesAtTheMacs_watchdog :
    let d := withFlds (macIn { MacHw.reset with timers := [(0, ⟨2 ^ 60, 0, 0⟩)] }) [(⟨MAC_LANEl_CFG 15 3, 20, 20⟩, 1)]
    let e := withFlds (macIn { MacHw.reset with asked := [0], told := [0], toldAt := [(0, 0)] })
      [(⟨MAC_LANEl_CFG 15 3, 17, 16⟩, 1), (SLN_LANEl_STATUS_PAUSE_TX 15 3, 1)]
    let f := withFlds (macIn { MacHw.reset with asked := [0] }) [(⟨MAC_LANEl_CFG 15 3, 17, 16⟩, 1), (SLN_LANEl_STATUS_PAUSE_TX 15 3, 1)]
    watchdogDue d 63 0 = true ∧ pauseTimer (macIn { MacHw.reset with timers := [(0, ⟨1, 0, 0⟩)] }) 63 0 = some ⟨1, 0, 0⟩ ∧ 1 ≤ elapsedPs d
      ∧ (macHw (macIn { MacHw.reset with ignore := [(0, 1)] }) 63).ignore = [(0, 1)]
      ∧ (macHw e 63).told.contains 0 = true ∧ (macHw e 63).asked.contains 0 = true ∧ fcMode e 63 = 1 ∧ pauseTxOn e 63 = true
      ∧ (sget e.elapsed (macHw e 63).toldAt 0) * 40000 + fld e (MAC_LANEl_FC_TX_REFRESH 15 3) * quantumPs e 63 ≤ elapsedPs e
      ∧ flowMaySend f 63 = true ∧ flowDue f 63 = some 0 := by decide +kernel

/-! ### Parser and classifier (spec/14) -/

/-- A frame from L-A that carries management of the line, and one as the classifier holds it. -/
def rxFrame : RxFrame := { bytes := List.replicate 64 0, src := .line .a, oam := true, tag := 5, tagged := false, stamp := none }
def heldFrame (since : Nat) : ClsFrame :=
  { frame := rxFrame, parse := parseFrame (live []) rxFrame, pipe := 2, epoch := 0, since := since, hit := none, skipped := false }

theorem test_witness_RulesAndPasses :
    let d := { live [] with prsIn := [rxFrame] }
    risingFrom 0 [(5, Rule.none), (65536, Rule.none)] = true ∧ ruleMatches 0x107 5 ⟨7, 0xFF, 0⟩ = true
      ∧ admits (live []) 0 CLS_RULE_CTL.ofs = true ∧ ruleBusy (live []) = false ∧ flag (live []) CLS_BANK_STATUS_DRAINING = false
      ∧ flag (withFlds (live []) [(CLS_BANK_STATUS_DRAINING, 1)]) CLS_BANK_STATUS_DRAINING = true
      ∧ ruleBusy (withFlds (live []) [(CLS_BANK_STATUS_RULE_BUSY, 1)]) = true
      ∧ [(CLS_BANK_SEL.ofs, (1 : Word))].find? (fun e => e.1 == CLS_BANK_SEL.ofs) = some (CLS_BANK_SEL.ofs, 1)
      ∧ boolBit ((1 : Word).getLsbD 0) ≠ activeBank (live []) ∧ (live []).prsIn = [] ∧ (live []).pkt.cls = []
      ∧ (pipeFor d rxFrame.src).isSome = true ∧ (parseFrame d rxFrame).mal = 0
      ∧ admits (live []) 0 CLS_PAT_CTL.ofs = true := by decide +kernel

theorem test_witness_RulesAndPasses_second :
    let d := { live [] with pkt := { PacketHw.reset with second := [heldFrame 0] } }
    ((secondOf d (2 : Fin 9)).head?).isSome = true ∧ (heldFrame 0).since + 500 ≤ d.elapsed := by decide +kernel

theorem test_witness_RulesAndPasses_first :
    let act := (winner (live []) (activeBank (live [])) 0).2
    let d := { live [] with pkt := { PacketHw.reset with rules := [(0, { Rule.none with act := 4 * 2 ^ 61 })] } }
    actScan act = false ∧ actVerdict act = 1 ∧ actVerdict (winner d (activeBank d) 0).2 = 4 ∧ actScan (winner d (activeBank d) 0).2 = false
      ∧ (secondOf d (2 : Fin 9)).length < 32 ∧ (live []).elapsed < (heldFrame (live []).elapsed).since + 500 := by decide +kernel

/-! ### Ashlar (spec/15) -/

/-- An endpoint word that is valid, goes to server port 63 and asks for flow tracking where ft is 1. -/
def epWord (ft : Nat) : Nat := 2 ^ 191 + ft * 2 ^ 190 + 63 * 2 ^ 181

def ashFrame : AshFrame := { frame := rxFrame, parse := (heldFrame 0).parse, second := false, endpoint := 9, entry := 0, qovr := none, op := 0 }

theorem test_witness_EndpointsResolve :
    let ws (n : Nat) := readWords (live [(ASH_EP_DATAj 5, n)]) ASH_EP_DATAj 6
    let d (ft : Nat) := { live [] with endpoints := [(9, epWord ft)] }
    admits (live []) 0 ASH_EP_CTL.ofs = true ∧ flag (live []) ASH_EP_CTL_BUSY = false ∧ flag (withFlds (live []) [(ASH_EP_CTL_BUSY, 1)]) ASH_EP_CTL_BUSY = true
      ∧ (epDest (ws 0) ≠ 0 ∨ epPort (ws 0) ≤ 63) ∧ epDest (ws 0x08000000) = 0 ∧ 63 < epPort (ws 0x08000000)
      ∧ ({ PacketHw.reset with epBad := [9] }).epBad.contains 9 = true ∧ epValid (epEntry (live []) 9) = false
      ∧ epValid (epEntry (d 0) 9) = true ∧ epFt (epEntry (d 0) 9) = false ∧ epFt (epEntry (d 1) 9) = true ∧ flowPowered (d 1) = true
      ∧ domainOn (live []) 32 = true := by decide +kernel

theorem test_witness_EndpointsResolve_misses :
    let e := withFlds { live [] with endpoints := [(9, epWord 1)] } [(ASH_CFG_FLOW_EN, 1)]
    let line : CacheLine := { index := 0, bytes := frameKey ashFrame ++ List.replicate 24 0, dirty := false }
    let miss : FlowMiss := { key := List.replicate 40 0, since := 0, frames := [ashFrame] }
    flag e ASH_CFG_FLOW_EN = true ∧ flowCacheBroken e = false ∧ e.pkt.lookups.1 ≠ e.elapsed / 25
      ∧ (cachedKey { e with pkt := { PacketHw.reset with cache := [(cacheSet e (frameKey ashFrame), [line])] } } (frameKey ashFrame)).isSome = true
      ∧ miss.since + fld e ASH_CFG_MISS_TO * 25 ≤ e.elapsed ∧ e.elapsed < { miss with since := e.elapsed }.since + fld e ASH_CFG_MISS_TO * 25
      ∧ flowPowered e = true ∧ domainOn (live [(PWR_DOM_ON_LO, 3), (PWR_DOM_ON_HI, 0)]) 32 = false ∧ findFlow e State.reset.mem miss.key = none := by decide +kernel

/-- A 64-byte flow entry that is valid and goes to server port 0, and the memories that hold it in its first candidate bucket. -/
def flowBytes : List Byte := List.replicate 32 0 ++ [8] ++ List.replicate 31 0
def flowMem : Mem := writeDram State.reset.mem (flowAddr (live []) (4 * flowHash1 (live []) (feKey flowBytes))) flowBytes

/-- A device with one Ashlar command waiting. -/
def commanded (op : Nat) (body : List Byte) : Dev :=
  { live [] with pkt := { PacketHw.reset with cmds := [⟨op, 1, body, none⟩] } }

theorem test_witness_FlowTableCommands : nextCmd (commanded 1 flowBytes) = some ⟨1, 1, flowBytes, none⟩
    ∧ flowPowered (commanded 1 flowBytes) = true ∧ flowPowered (live [(PWR_DOM_ON_LO, 3)]) = false ∧ bodyBad (List.replicate 64 0) = true
    ∧ bodyBad flowBytes = false ∧ flowBytes.length = 64 ∧ findFlow (live []) State.reset.mem (feKey flowBytes) = none
    ∧ (freeSlot (live []) State.reset.mem (flowHash1 (live []) (feKey flowBytes))).isSome = true
    ∧ (findFlow (live []) flowMem (feKey flowBytes)).isSome = true
    ∧ nextCmd { commanded 5 flowBytes with pkt := { PacketHw.reset with learns := [(flowBytes, 0)] } } = none
    ∧ (let w : FlowWalk := ⟨⟨6, 1, flowBytes, none⟩, 4194303, 0, 0⟩; ({ PacketHw.reset with walk := some w }).walk = some w ∧ w.reached < 4194304
      ∧ 4194304 ≤ { w with reached := 4194304 }.reached)
    ∧ flag (withFlds (live []) [(ASH_CFG_AGE_EN, 1)]) ASH_CFG_AGE_EN = true := by decide +kernel

theorem test_witness_FlowTableCommands_writes :
    let d := { live [] with pkt := { PacketHw.reset with learns := [(feKey flowBytes, 0)] } }
    findFlow (live []) flowMem (feKey flowBytes) = some (4 * flowHash1 (live []) (feKey flowBytes)) ∧ nextCmd d = none ∧ flowPowered d = true
      ∧ nextCmd (commanded 0 flowBytes) = some ⟨0, 1, flowBytes, none⟩ ∧ nextCmd (commanded 7 flowBytes) = some ⟨7, 1, flowBytes, none⟩
      ∧ validFlows (live []) flowMem 0 4194304 = [4 * flowHash1 (live []) (feKey flowBytes)]
      ∧ feValid (flowEntry (live []) flowMem (4 * flowHash1 (live []) (feKey flowBytes))) = true := by decide +kernel

/-! ### The traffic manager (spec/16) -/

theorem test_witness_TrafficManager :
    let f := bufFrame (withFcs (List.replicate 60 0))
    let o : TmOffer := { queue := 16383, frame := f, policer := none, entry := none }
    let list := setPkt (live []) (fun p => { p with lists := [(1151, { GateList.reset with cycle := 7 })] })
    (match admission (live []) 0 f 0 with | .pool _ => true | .dropped _ _ => false) = true ∧ pwrStopped (live []) 7 = false ∧ o.queue < 16384
      ∧ (∃ q, selectQueue { live [] with queues := [(5, [f])] } [] [5] = some q) ∧ 0 ≤ (bucketsNow (live []) 0).p
      ∧ (bucketsNow (setPkt (live []) (fun p => { p with buckets := [(0, ⟨-1, -2 ^ 60, 1000000000⟩)] })) 0).p < 0
      ∧ (0 : Nat) < (gateList list 575 1).cycle ∧ (gateList list 575 1).base = 0 ∧ (3 : Word).getLsbD 1 = true
      ∧ admits (live []) 0 TMG_GL_CTL.ofs = true ∧ glRefused (live []) 575 1 = false
      ∧ glRefused (setPkt (live []) (fun p => { p with gates := [(575, ⟨some (1, 0), none⟩)] })) 575 1 = true
      ∧ admits (live []) 0 TMG_Q_SEL.ofs = true ∧ timerOver (withTimers (live []) [(.portFlush 63, 1)]) (.portFlush 63) = true
      ∧ laneState (live []) 63 ≠ lnActive := by
  refine ⟨by decide +kernel, by decide +kernel, by decide +kernel, ⟨5, by decide +kernel⟩, ?_⟩
  decide +kernel

theorem test_witness_TrafficManager_dequeue :
    let f := bufFrame (withFcs (List.replicate 60 0))
    let d := { laneIn lnActive with queues := [(8064, [f])], macs := [] }
    (macHw d 63).tx = none ∧ txHold d 63 = false ∧ flowFirst d 63 = false ∧ domainOn d 33 = true
      ∧ ∃ d1, serverChoice (dropOversize (((d.queues.filter (fun e => e.1 / 128 == 63)).map (fun e => e.2.length)).foldl (· + ·) 0) d 63) 63 = (d1, some 8064)
        ∧ headFrame d1 8064 = some f := by
  refine ⟨by decide +kernel, by decide +kernel, by decide +kernel, by decide +kernel, _, Prod.ext rfl ?_, ?_⟩ <;> decide +kernel

/-! ### The time ports (spec/17) -/

/-- An anchor of frame 100, and the device that stamped that frame and has ranged and calibrated the line. -/
def anchorBody : AnchorBody :=
  { frame := 100, sec := 0, ns := 999999999, frac := 0, eqrt := 0, flags := 0, gmClass := 0, utc := 0, accuracy := 0, steps := 0, variance := 0, identity := 0 }
def stamped : Dev :=
  let d := withFlds (lineIn stOperate) [(RNG_Lx_STATUS_CAL_OK 0, 1)]
  { d with fawStamps := d.fawStamps.set .a [⟨100, ⟨0, 0, 0, false⟩, 0, 5, 5, true, true, 0⟩] }

theorem test_witness_TimeIsCarried_anchor : forLine stamped .a { toFive with frame := 116 } = true ∧ anchorBody.ns.toNat < nsPerSec
    ∧ repeated stamped .a toFive = false ∧ stampOfFrame (live []) .a 100 = none ∧ (stampOfFrame stamped .a 100).isSome = true
    ∧ stamped.kst.stepTick = none ∧ anchorBody.frame.toNat + 16 = ({ toFive with frame := 116 } : LmmHead).frame.toNat
    ∧ anchorBody.frame.toNat + 1 = ({ toFive with frame := 101 } : LmmHead).frame.toNat
    ∧ stamped.anchored.get .a = false ∧ bitOf (fld stamped (RNG_Lx_STATUS_RANGED 0)) (asymCh stamped .a) = true
    ∧ flag stamped (RNG_Lx_STATUS_CAL_OK 0) = true := by decide +kernel

/-- A device whose port 63 speaks as a PTP port: a clock identity, and a servo out of FREE; lane 63 is ACTIVE. Its time
is the given number of ns of the first second. -/
def speaking (ns : Fin 1000000000) : Dev :=
  let d := withFlds (laneIn lnActive) [(KST_STATUS_SERVO_STATE, servoHoldover)]
  { wrn d TTD_CLOCK_ID_LO 1 with clock := ⟨0, ns, 0⟩ }

theorem test_witness_TimeIsCarried_ports :
    let i := logInterval (fldA (speaking 999999000) (TTD_PORTp_CFG_LOG_SYNC 63))
    portSpeaks (live []) 63 = false ∧ portSpeaks (speaking 999999000) 63 = true ∧ domainOn (speaking 999999000) (2 + 63 / 4) = true
      ∧ nextInstant i (now (speaking 999999000)) ≤ now (speaking 999999000) + 20000
      ∧ (speaking 999999000).ttd.syncs.find? (fun e => e.1 == 63) = none ∧ syncWaits (speaking 999999000) 63 = none
      ∧ (txHold (speaking 999999000) 63 || macHolds (speaking 999999000) 63 (fldA (speaking 999999000) (TTD_PORTp_CFG_SYNC_CLASS 63))) = false
      ∧ txHold (withFlds (speaking 999999000) [(SLN_LANEl_STATUS_RF 15 3, 1)]) 63 = true
      ∧ inThisTick (speaking 0) (nextInstant (logInterval (fldA (speaking 0) (TTD_PORTp_CFG_LOG_ANN 63))) (now (speaking 0))
          - min (logInterval (fldA (speaking 0) (TTD_PORTp_CFG_LOG_ANN 63))) nsPerSec) = true
      ∧ (speaking 0).ttd.anns = [] := by decide +kernel

/-- The first bytes of a PTP message of type t in domain dom. -/
def ptpBytes (t dom : Nat) : List Byte := [BitVec.ofNat 8 t, 2, 0, 64, BitVec.ofNat 8 dom]

theorem test_witness_TimeIsCarried_messages :
    let dom := fld (live []) TTD_PTP_CFG_DOMAIN
    ptpType (ptpBytes 1 dom) 0 = 1 ∧ byteAt (ptpBytes 1 dom) 1 % 16 = 2 ∧ byteAt (ptpBytes 1 dom) 4 = dom
      ∧ ptpLength 1 ≤ beNat (slice (ptpBytes 1 dom) 2 2) ∧ ptpLength 0xB ≤ beNat (slice (ptpBytes 0xB dom) 2 2) ∧ ptpType (ptpBytes 0xB dom) 0 = 0xB
      ∧ ptpType (ptpBytes 0xA dom) 0 = 0xA ∧ byteAt [0, 1] 1 % 16 ≠ 2 := by decide +kernel

theorem test_witness_TimeIsCarried_inputs :
    let d := withFlds (speaking 999999000) [(TTD_PRn_CFG_EN 63, 1), (TTD_PRn_CFG_WAKE 63, 0), (TTD_PRn_CFG_POL 63, 0), (KST_TDC_CAL_ARMED 63, 1)]
    let sec := (now d + prWin d + 1000) / nsPerSec
    let late := { d with clock := ⟨9, 0, 0⟩ }
    prWindow d 63 = none ∧ now d < sec * nsPerSec + prWin d ∧ flag d (TTD_PRn_CFG_EN 63) = true
      ∧ edgeCounts (flag d (TTD_PRn_CFG_POL 63)) false 2000 = true ∧ edgeCounts (flag d (TTD_PRn_CFG_POL 63)) false 1999 = false
      ∧ inWindow d ⟨sec, 0, none⟩ (stampOf d 63 0) = true ∧ sec * nsPerSec + prWin d ≤ now late
      ∧ prWindow { d with ttd := { TtdHw.reset with windows := [(63, ⟨sec, 0, some 5⟩)] } } 63 = some ⟨sec, 0, some 5⟩ := by decide +kernel

theorem test_witness_TimeIsCarried_events :
    let d := withFlds (live []) [(TTD_TEVe_CFG_EN 3, 1), (TTD_TEVe_CFG_POL 3, 0), (TTD_TEVe_CFG_WAKE 3, 0)]
    let st : Stamp := ⟨1, 2, 3, false⟩
    let full := { d with ttd := { TtdHw.reset with tevs := [(3, ⟨List.replicate 16 st, none⟩)] } }
    flag d (TTD_TEVe_CFG_EN 3) = true ∧ edgeCounts (flag d (TTD_TEVe_CFG_POL 3)) false 2000 = true ∧ flag d (TTD_TEVe_CFG_WAKE 3) = false
      ∧ (tevHw d 3).last = none ∧ (tevHw d 3).fifo.length < 16 ∧ 16 ≤ (tevHw full 3).fifo.length ∧ (tevHw full 3).last = none
      ∧ (tevHw full 3).fifo = st :: List.replicate 15 st := by decide +kernel

theorem test_witness_TimeIsCarried_outputs :
    let d := { live [] with applied := [((TTD_TOUTo_CFG 7).ofs, 0x40000000), ((TTD_TOUTo_WIDTH 7).ofs, 100)] }
    State.reset.dev.kst.refsRunning = false ∧ d.kst.refsRunning = true ∧ (toutHw d 7).pulse = none ∧ toutInstant d 7 = some 0
      ∧ d.clock.units < 0 * 0x100000000 + rdPair d KST_FREQ_LO KST_FREQ_HI ∧ d.kst.stepTick = none ∧ (toutHw d 7).last = none
      ∧ 0 < toutWidth d 7 := by decide +kernel

theorem test_witness_TimeIsCarried_neighbours :
    let d := withFlds (live []) [(TTD_NBk_CFG_EN 1, 1), (CRS_LINKk_STATUS_UP 1, 1)]
    let e := { d with ttd := { TtdHw.reset with nbs := [(1, { NbHw.reset with open' := some (7, 0), sentAt := some 0 })] } }
    let f := { d with ttd := { TtdHw.reset with nbs := [(1, { NbHw.reset with open' := some (7, 0), sentAt := some 1000000000 })] } }
    nbOn d 1 = true ∧ isFrozen d (courseMaster 1) = false ∧ (nbHw d 1).sentAt = none ∧ (nbHw e 1).open' = some (7, 0) ∧ (nbHw e 1).sentAt = some 0
      ∧ 0 + ticksPerSec ≤ e.elapsed ∧ f.elapsed ≤ 1000000000 + ticksPerSec ∧ 7 = (7 : BitVec 16).toNat := by decide +kernel

/-! ### Rings and the host (spec/18) -/

/-- A device whose CQ ring 1 and the submission ring 0 of the kind given, both of function 0, run with four entries each; ring 0
has two descriptors waiting. -/
def ringed (kind : Nat) : Dev :=
  let d := withFlds (live []) [(HIF_Rr_OWN_KIND 0, kind), (HIF_Rr_STATUS_STATE 0, ringRunning), (HIF_Rr_CFG_SIZE_LOG 0, 6), (HIF_Rr_CFG_CQ 0, 1),
    (HIF_Rr_OWN_KIND 1, kindCq), (HIF_Rr_STATUS_STATE 1, ringRunning), (HIF_Rr_CFG_SIZE_LOG 1, 6), (HIF_Rr_RANGE_QCOUNT 0, 4)]
  { d with host := { HostHw.reset with rings := [(0, { RingHw.reset with host := 2 })] } }

/-- A descriptor of n bytes at an address, with the flags and the argument given. -/
def submission (n flags arg : Nat) : List Byte := leBytes 8 0x40000 ++ leBytes 2 n ++ leBytes 2 flags ++ leBytes 4 arg ++ List.replicate 16 0

theorem test_witness_RingsAndHost_doorbell : cqTakes (ringed kindTx) 1 1 = true ∧ fld (ringed kindTx) (HIF_Rr_CFG_SIZE_LOG 1) ≤ 16
    ∧ (ringHw (ringed kindTx) 1).host < 0x10000 ∧ hostReaches (live []) = true ∧ isFrozen (live []) 31 = false
    ∧ hostReaches (live [(ROOT_FRZ_MAP 0, 0x80000000)]) = true ∧ isFrozen (live [(ROOT_FRZ_MAP 0, 0x80000000)]) (31 : Fin 32) = true
    ∧ ringOwner (live []) 1023 ≠ (31 : Fin 32).val ∧ ringOwner (live []) 1023 = (0 : Fin 32).val ∧ ringRuns (live []) 1023 = false
    ∧ getBits 0x03FF0000 25 16 = 1023 ∧ ringRuns (ringed kindTx) 0 = true ∧ ringKind (ringed kindTx) 0 ≠ kindCq
    ∧ (getBits 0x0000003F 15 0 + 0x10000 - (ringHw (ringed kindTx) 0).dev % 0x10000) % 0x10000 ≤ ringSize (ringed kindTx) 0 - 1 := by decide +kernel

theorem test_witness_RingsAndHost_entries : mayBegin (ringed kindTx) 0 kindTx 1 = true ∧ sdLast (submission 60 1 0) = true
    ∧ txCheck (ringed kindTx) 0 [submission 60 1 0] = none ∧ (txCheck (ringed kindTx) 0 [submission 13 1 0]).isSome = true
    ∧ mayBegin (ringed kindRx) 0 kindRx 1 = true ∧ ringTakes (ringed kindRx) 16384 = true ∧ ringTakes (live []) 16384 = false
    ∧ rxBad (submission 256 0 0) = none ∧ rxBad (submission 16384 0 0) = none
    ∧ queueOf { ringed kindRx with queues := [(16384, [bufFrame (List.replicate 64 0)])] } 16384 = [bufFrame (List.replicate 64 0)]
    ∧ mayBegin (ringed kindCmd) 0 kindCmd 1 = true ∧ cmdClean (submission 0 1 0) = false ∧ cmdClean (submission 0 0 4) = true
    ∧ sdAddr (submission 0 0 4) % 64 = 0 ∧ cmdForbidden (ringed kindCmd) 0 (sdArgWord (submission 0 0 4) % 16) flowBytes = false := by decide +kernel

theorem test_witness_RingsAndHost_control :
    let d := { ringed kindTx with host := { HostHw.reset with rings := [(1, { RingHw.reset with firstAt := some 0, fullAt := some 0 })] } }
    (ringHw d 1).firstAt = some 0 ∧ 0 + fld d (HIF_Rr_COAL_COAL_US 1) * ticksPerUs ≤ d.elapsed ∧ (ringHw d 1).fullAt = some 0 ∧ ringKind d 1 = kindCq
      ∧ (ringHw d 1).stalled = false ∧ 0 + ticksPerMs ≤ d.elapsed ∧ admits (live []) 0 (HIF_Rr_CFG 1023).ofs = true
      ∧ ringState (live []) 1023 = ringDisabled ∧ ringRuns (ringed kindTx) 0 = true ∧ isSubmission (ringKind (ringed kindTx) 0) = true
      ∧ hifWorks (live []) = true ∧ hostReaches (live []) = true ∧ domainOn (live []) 47 = true ∧ flag State.reset.dev RST_STATUS_RELEASED = false
      ∧ flag (live []) RST_STATUS_RELEASED = true := by decide +kernel

/-! ### The DMA engines (spec/19) -/

/-- A descriptor from its five words. -/
def hopOf (src dst len ctl next : Nat) : List Byte := leBytes 8 src ++ leBytes 8 dst ++ leBytes 4 len ++ leBytes 4 ctl ++ leBytes 8 next

theorem test_witness_SidesOverlap : 0 < (descriptorOf (hopOf 0 0 1 0 0)).len
    ∧ overlaps (mainSrc (descriptorOf (hopOf 0 0 1 0 0))) (mainDst (descriptorOf (hopOf 0 0 1 0 0))) 1 = true := by decide +kernel

/-- A device with channel 63 of the main DMA serving DMA ring 0. -/
def dmaDev (h : HostHw) : Dev := { withFlds (ringed 5) [(HIF_Rr_RANGE_QBASE 0, 63)] with host := h }
def waitingRing : HostHw := { HostHw.reset with rings := [(0, { RingHw.reset with host := 2 })] }

theorem test_witness_DmaEngines_start :
    chanState (dmaDev waitingRing) 63 = 0 ∧ dmaRuns (dmaDev waitingRing) = true ∧ turnRing (dmaDev waitingRing) 63 = some 0
      ∧ fieldsGood (descriptorOf (hopOf 0 0 4 0x1000 0)) = false ∧ fieldsGood (descriptorOf (hopOf 0 0 4 4 0)) = true
      ∧ lengthGood (descriptorOf (hopOf 0 0 4 4 0)) = true ∧ (mainDst (descriptorOf (hopOf 0 0 4 4 0))).space ≠ .unit
      ∧ (outsideWindow (dmaDev waitingRing) 5 (mainDst (descriptorOf (hopOf 0 0 4 4 0))) 4).isSome = true
      ∧ outsideWindow (withFlds (dmaDev waitingRing) [(DMA_FNf_DRAM_SIZE_SIZE 0, 1)]) 0 (mainDst (descriptorOf (hopOf 0 0 4 4 0))) 4 = none
      ∧ overlaps (mainSrc (descriptorOf (hopOf 0 0 4 4 0))) (mainDst (descriptorOf (hopOf 0 0 4 4 0))) 4 = false := by decide +kernel

/-- Channel 63 at a hop from the host to DRAM with the control bits given. -/
def running (ctl : Nat) (f : Option Nat) : Dev :=
  dmaDev { waitingRing with chans := [(63, { ring := 0, index := 0, hop := descriptorOf (hopOf 0 0 4 (4 + ctl) 0), moved := 0, store := [], point := 0, bytes := 0, fenced := f })] }

theorem test_witness_DmaEngines_moves : (moving (running 0 none) 63).isSome = true
    ∧ (mainSrc (descriptorOf (hopOf 0 0 4 4 0))).space = .host ∧ (mainDst (descriptorOf (hopOf 0 0 4 4 0))).space = .dram
    ∧ domainOn (running 0 none) 45 = true ∧ domainOn (running 0 none) 46 = true
    ∧ nextPoint (descriptorOf (hopOf 0 0 4 4 0)) 0 = none ∧ (descriptorOf (hopOf 0 0 4 4 0)).link = false
    ∧ (descriptorOf (hopOf 0 0 4 0x20004 0)).link = true ∧ (descriptorOf (hopOf 0 0 4 0x200004 0)).fence = true
    ∧ hopsOf (withFlds (running 0 none) [(DMA_CHc_STATUS_HOPS 63, 4095)]) 63 = 4095 ∧ hopsOf (running 0 none) 63 < 4095
    ∧ (nextPoint (descriptorOf (hopOf 0 0 0x80 (4 + 0x200 + 0x400 * 0 + 2 ^ 20 + 6 * 2 ^ 27) 0)) 0).isSome = true
    ∧ chanState (running 0 (some csOk)) 63 = 1 ∧ (chanRun (running 0 (some csOk)) 63).any (fun r => r.fenced == some csOk) = true
    ∧ dmaHalted (running 0 none) = false ∧ busyChannels (running 0 none) ≠ 0 := by decide +kernel

/-- Channel 63 with a hop of 128 bytes that posts at its half, which has moved n bytes. -/
def halfway (n : Nat) (fence : Nat) (f : Option Nat) : Dev :=
  let h := descriptorOf (hopOf 0 0 0x80 (4 + 0x200 + 2 ^ 20 + 6 * 2 ^ 27 + fence) 0)
  dmaDev { waitingRing with chans := [(63, { ring := 0, index := 0, hop := h, moved := n, store := [], point := 0, bytes := n, fenced := f })] }

theorem test_witness_DmaEngines_turns : ((moving (halfway 0 0 none) 63).map (fun r => nextPoint r.hop r.point)) = some (some (32, csHalf))
    ∧ ((moving (halfway 32 0x200000 none) 63).map (fun r => reached 32 r && mayPost (halfway 32 0x200000 none) r && r.hop.fence)) = some true
    ∧ ((moving (running 0 none) 63).map (fun r => hopDone { r with moved := 4 })) = some true
    ∧ (finishHop 63 [1, 2, 3, 4] (running 0 none) State.reset.mem).2.2.isSome = true
    ∧ (finishHop 63 [1, 2, 3, 4] (running 0x20000 none) State.reset.mem).2.2.isSome = true
    ∧ 4096 ≤ hopsOf (finishHop 63 [1, 2, 3, 4] (withFlds (running 0x20000 none) [(DMA_CHc_STATUS_HOPS 63, 4095)]) State.reset.mem).1 63
    ∧ (chanRun (halfway 32 0x200000 (some csHalf)) 63).any (fun r => r.fenced == some csHalf && mayPost (halfway 32 0x200000 (some csHalf)) r) = true
    ∧ csHalf ≠ csOk ∧ domainOn (running 0 none) 47 = true := by decide +kernel

theorem test_witness_DmaEngines_boot :
    let d := { live [] with host := { HostHw.reset with boot := [(3, ⟨1, 0⟩)] } }
    let h := descriptorOf (hopOf 0 64 4 4 0)
    admits (live []) 0 DMA_CTL.ofs = true ∧ admits (live []) 0 (HIF_DMACc_OWN 63).ofs = true ∧ admits (live []) 0 (BDM_CHc_CTL 3).ofs = true
      ∧ bootState (live []) 3 = 0 ∧ bootState d 3 = 1 ∧ bootRun d 3 = some ⟨1, 0⟩ ∧ bootResult h = 0
      ∧ bootResult (descriptorOf (hopOf 1 64 4 4 0)) ≠ 0 := by decide +kernel

/-! ### Power (spec/20) and self-test (spec/21) -/

/-- A device in the given phase of a power sequence with the given target. -/
def powering (ph : PwrPhase) (target : Nat) : Dev := { live [] with pwr := { PwrHw.reset with phase := ph, target := target } }

theorem test_witness_PowerSequences_entry : (powering (.asking 2) pwrHush).pwr.phase = .asking 2 ∧ (powering (.asking 2) pwrHush).pwr.target < 4
    ∧ entryAnswer (powering (.asking 2) pwrHush) 2 = some true
    ∧ entryAnswer (withFlds (powering (.asking 2) pwrHush) [(FWU_STATUS_ACTIVATING, 1)]) 2 = some false
    ∧ entryAnswer { powering (.asking 8) pwrHush with queues := [(0, [bufFrame []])], elapsed := 0 } 8 = none
    ∧ (powering (.asking 8) pwrHush).pwr.since + fld (powering (.asking 8) pwrHush) PWR_GRANT_TO_GRANT_TO * ticksPerMs ≤ (powering (.asking 8) pwrHush).elapsed
    ∧ staysRetained pwrHush 32 = true ∧ staysRetained pwrKeep 32 = false
    ∧ (powering (.off [54, 32]) pwrKeep).pwr.phase = .off [54, 32] := by decide +kernel

theorem test_witness_PowerSequences_wake :
    let hush := withFlds (powering .idle 0) [(PWR_STATUS_STATE, pwrHush)]
    regBit (live [(PWR_WAKE_EN, 0xFFFFFFFF)]) PWR_WAKE_EN wakePin = true ∧ pwrState hush = pwrHush ∧ hush.pwr.phase = .idle ∧ hush.pwr.thermal = false
      ∧ clockFailed hush = false ∧ clockFailed (wr hush PWR_DOM_FAIL_HI 0xFFFFFF) = true ∧ entering (powering (.asking 2) pwrHush) = true
      ∧ entering (powering .idle 0) = false ∧ pwrState (powering .idle 0) < 2 ∧ (powering .wakeAvs 0).pwr.since + 5000 ≤ (powering .wakeAvs 0).elapsed
      ∧ (powering .wakeAvs 0).pwr.tries < 3 ∧ (powering .wakePll 0).pwr.phase = .wakePll ∧ (powering (.wakeOn [26, 27]) 0).pwr.phase = .wakeOn [26, 27]
      ∧ flag (live []) PWR_STATUS_PWR_ALT = false := by decide +kernel

theorem test_witness_SlicesAndCounters :
    let d := withFlds (live []) [(BST_CFG_EN, 1), (BST_TGTt_STATUS_SUSPECT 27, 1), (BST_TGTt_STATUS_STATE 27, 1)]
    let s := withFlds (live []) [(BST_STATUS_RUNNING, 1), (BST_STATUS_PHASE, 2), (BST_STATUS_TARGET, 17), (BST_TGTt_STATUS_SUSPECT 17, 1)]
    let r := withFlds (live []) [(BST_STATUS_RUNNING, 1), (BST_STATUS_PHASE, 3)]
    pickTarget d = some 27 ∧ gapOver d 27 = true ∧ domainOn d 55 = true ∧ flag d BST_STATUS_RUNNING = false ∧ pwrStopped d 1 = false
      ∧ slicing s = some 17 ∧ flag s (BST_TGTt_STATUS_SUSPECT 17) = true ∧ flag (live []) (BST_TGTt_STATUS_SUSPECT 17) = false
      ∧ s.bst.beganAt + 12000 ≤ s.elapsed ∧ fld r BST_STATUS_PHASE = 3 ∧ admits (live []) 0 (CNT_SELc 4095).ofs = true
      ∧ admits (live []) 0 CNT_CTL.ofs = true ∧ hostReaches (live []) = true ∧ 0xFFFFC % 4 = 0 ∧ fld (live []) (HIF_FNf_RIGHTS_CNT_READ 31) = 0
      ∧ domainOn (live []) 53 = true ∧ (live []).host.bwStep = none ∧ now (live []) < (live []).host.bwEnd
      ∧ (live []).host.bwEnd ≤ now { live [] with clock := ⟨1, 0, 0⟩ } ∧ flag (withFlds (live []) [(CNT_CFG_TLM_EN, 1)]) CNT_CFG_TLM_EN = true := by
  decide +kernel

theorem test_witness_SlicesAndCounters_second :
    let e := withFlds (marked secTelemetry) [(CNT_CFG_TLM_EN, 1)]
    secMark (live []) secSummary = none ∧ secMark (marked secSummary) secSummary = some (6, true) ∧ domainOn (marked secSummary) 55 = true
      ∧ secMark (live []) secTelemetry = none ∧ secMark e secTelemetry = some (6, true) ∧ flag (secondCopies e) CNT_CFG_TLM_EN = true
      ∧ domainOn (secondCopies e) 53 = true ∧ domainOn (secondCopies e) 47 = true
      ∧ (live []).elapsed < { live [] with bst := { (live []).bst with beganAt := (live []).elapsed } }.bst.beganAt + 12000 := by decide +kernel

/-! ### Firmware, the Course (spec/22) and reset (spec/24) -/

/-- A relay of one block of 1,024 bytes that has come in on link 0 and goes out on link 1. -/
def relayA : Relay :=
  { image := 7, len := 1024, blocks := 1, src := some 0, dst := some 1, hops := 4, store := true, next := 0, acceptedAt := 0, sinceAck := 1,
    crc := 0xFFFFFFFF, programmed := 0, good := true, sent := 0, acked := 0, advancedAt := 0, resends := 0, nakAt := none, heardAt := 0,
    held := [], ended := none }

/-- A device whose Course links are up and enabled, with the firmware state given. -/
def coursed (f : FwuHw) : Dev :=
  { withFlds (live []) [(CRS_LINKk_STATUS_UP 0, 1), (CRS_LINKk_STATUS_UP 1, 1), (CRS_CFG_EN_E, 1), (CRS_CFG_EN_W, 1), (CRS_CFG_RELAY_E, 1),
      (CRS_CFG_RELAY_W, 1)] with fwu := f }
def relaying (r : Relay) : Dev := coursed { FwuHw.reset with relay := some r }

theorem test_witness_FirmwareAndCourse_links : linkUp (live []) 1 = false ∧ linkEnabled (coursed FwuHw.reset) 1 = true
    ∧ domainOn (coursed FwuHw.reset) 27 = true ∧ linkUp (coursed FwuHw.reset) 1 = true ∧ isFrozen (coursed FwuHw.reset) (courseMaster 1) = false
    ∧ pduBad (List.replicate 12 0) = true ∧ lenGood 1024 1 = true ∧ lenGood 1023 1 = false ∧ lenGood 1024 2 = false
    ∧ (coursed FwuHw.reset).fwu.relay = none ∧ forThis (live []) (BitVec.ofNat 64 (serialNumber (live []))) = true
    ∧ flag (withFlds (live []) [(CRS_CFG_RESCUE_EN, 0)]) CRS_CFG_RESCUE_EN = false
    ∧ flag (withFlds (lineIn stOperate) [(CRS_CFG_RESCUE_EN, 1)]) CRS_CFG_RESCUE_EN = true ∧ announces (lineIn stOperate) .a = true := by decide +kernel

theorem test_witness_FirmwareAndCourse_relay : (relaying relayA).fwu.relay = some relayA ∧ relayA.next < relayA.blocks
    ∧ relayA.next < freedTo relayA + 256 ∧ crc32Fsb (beBytes 2 0 ++ [1]) = (BitVec.ofNat 32 (crc32Fsb (beBytes 2 0 ++ [1]))).toNat
    ∧ crc32Fsb (beBytes 2 0 ++ [1]) ≠ 0 ∧ relayA.acceptedAt + ticksPerMs ≤ (relaying relayA).elapsed
    ∧ relayA.heardAt + 5 * ticksPerSec ≤ (relaying relayA).elapsed ∧ relayA.advancedAt + ticksPerSec ≤ (relaying relayA).elapsed
    ∧ relayA.acked < relayA.blocks ∧ relayA.resends < 5 ∧ ({ relayA with next := 1 } : Relay).programmed < ({ relayA with next := 1 } : Relay).next
    ∧ ({ relayA with next := 1, programmed := 1 } : Relay).next = relayA.blocks
    ∧ relayA.crc ^^^ 0xFFFFFFFF = (0 : Word).toNat ∧ isFrozen (relaying relayA) (courseMaster 0) = false := by decide +kernel

/-- Flash whose slot 1 holds a seal of an image of 1,024 bytes, and flash with one byte programmed in each of 250 sectors of the
record region. -/
def sealedMem : Mem := writeFlash State.reset.mem (sealBase 1) (beBytes 4 sealMagic ++ beBytes 4 7 ++ beBytes 4 1024 ++ beBytes 4 0 ++ beBytes 4 1)
def fullRecords : Mem := { State.reset.mem with flash := (List.range 250).map (fun k => (sectorAt k, (0 : Byte))) }

theorem test_witness_FirmwareAndCourse_commands :
    let act := withFlds (coursed { FwuHw.reset with actLoaded := true, preloading := some 1 }) [(FWU_STATUS_ACTIVATING, 1)]
    let orig := wrn (coursed FwuHw.reset) FWU_ORIG_LEN 1024
    admits (live []) 0 FWU_CTL.ofs = true ∧ (0x10000000 : Word) &&& 0xE8000000 = 0 ∧ (0x40000000 : Word) &&& 0xB8000000 = 0
      ∧ (0x20000000 : Word) &&& 0xD8000000 = 0 ∧ (0x80000000 : Word) &&& 0x78000000 = 0 ∧ (0x08000000 : Word) &&& 0xF0000000 = 0
      ∧ 0 < rdn orig FWU_ORIG_LEN ∧ (forwardLink orig (fld orig FWU_CFG_ORIG_DIR) (fld orig CRS_CFG_HOPS)).isSome = true
      ∧ (coursed FwuHw.reset).fwu.preloading = none ∧ flag (live []) FWU_STATUS_ACTIVATING = false ∧ flag act FWU_STATUS_ACTIVATING = true
      ∧ act.fwu.actLoaded = true ∧ flag (live []) FWU_STATUS_RECOVERY = false ∧ admits (live []) 0x64 FWU_CTL.ofs = true
      ∧ (coursed FwuHw.reset).fwu.recordsDue = false ∧ admits (live []) 0 FWU_CFG.ofs = true
      ∧ act.fwu.actFrom + (25 + fld act FWU_CFG_ALIVE_MS) * ticksPerMs ≤ act.elapsed
      ∧ imageFault act (fun _ n => List.replicate n 0) true = some 5 ∧ act.frzReport = false ∧ act.fwu.coreHeld = none ∧ act.fwu.actSlot < 2 := by
  decide +kernel

theorem test_witness_FirmwareAndCourse_flash : coresHalted State.reset.dev = true ∧ coresHalted (live []) = false ∧ (sealOf sealedMem 1).isSome = true ∧ sealOf State.reset.mem 1 = none
    ∧ needsCompact State.reset.mem = false ∧ needsCompact fullRecords = true ∧ (oldestSector fullRecords).isSome = true := by decide +kernel

theorem test_witness_StartUpAndReset_resets : (live []).pwr.thermal = false ∧ bootPhase (live []) ≠ 0 ∧ bootPhase State.reset.dev = 0
    ∧ getBits 0x8000A5C3 15 0 = 0xA5C3 ∧ getBits 0x8000A5C2 15 0 ≠ 0xA5C3 ∧ admits (live []) 0 RST_CTL.ofs = true ∧ admits (live []) i2cMaster RST_CTL.ofs = true
    ∧ resetSource 0x64 true = none ∧ resetSource 0x67 false = some rsrcCore ∧ resetSource i2cMaster false = some rsrcI2c ∧ domainOn (live []) 49 = true
    ∧ (live []).corePause = false ∧ (live []).fwu.coreHeld = none ∧ flag (live []) FWU_STATUS_ACTIVATING = false
    ∧ flag (withFlds (live []) [(FWU_STATUS_ACTIVATING, 1)]) FWU_STATUS_ACTIVATING = true
    ∧ hostReaches State.reset.dev = false ∧ hostReaches (live []) = true := by decide +kernel

theorem test_witness_StartUpAndReset_boot :
    let w := withTimers (withFlds (live []) [(RST_WDT_EN, 1)]) [(.wdt, 1)]
    let b := withTimers (withFlds (live []) [(RST_STATUS_PHASE, 6), (RNG_Lx_CTL_REG_EN 0, 1)]) [(.bootRelease, 1)]
    let h := withTimers (withFlds (live []) [(RST_STATUS_HOME_RUN, 1), (RNG_Lx_STATUS_STATE 1, stStandby)]) [(.homeWait, 1)]
    timerOver w .wdt = true ∧ flag w RST_WDT_EN = true ∧ timerOver (live []) .wdt = false ∧ admits (live []) 0 RST_WDT.ofs = true
      ∧ admits (live []) 0x67 RST_FW_DONE.ofs = true ∧ bootPhase b = 6 ∧ flag b (RNG_Lx_CTL_REG_EN 0) = true
      ∧ flag (withFlds b [(RNG_Lx_CTL_REG_EN 0, 0)]) (RNG_Lx_CTL_REG_EN 0) = false ∧ timerOver b .bootRelease = true
      ∧ timerOver h .homeWait = true ∧ homeRun h = true ∧ hasActive h = false ∧ termState h .b = stStandby ∧ timerOver (live []) .homeWait = false
      ∧ takesPins .extest = true ∧ takesPins .bypass = false := by decide +kernel

theorem test_witness_ReleaseOfMaster_core : (live []).fwu.recordsDue = false ∧ asFunction0 (live []) 0 = true ∧ getBits 0x80000064 7 0 = 0x64
    ∧ (live []).rngHw.a.waiting = [] ∧ (live []).rngHw.b.waiting = [] ∧ (live []).frzReport = false ∧ (live []).fwu.saveWait = false := by decide

/-! ### Values that the spec and the standards it names give -/

/-- The digits 1 to 9 as ASCII bytes, over which CRCs are published. -/
def digits : List Byte := [0x31, 0x32, 0x33, 0x34, 0x35, 0x36, 0x37, 0x38, 0x39]

/-- The published check values of the Ethernet FCS and of CRC-32C, and that of R106's CRC, which is not reflected. -/
theorem test_crc_check_values : fcs32 digits = 0xCBF43926 ∧ crc32cFrom 0xFFFFFFFF digits = 0xE3069283 ∧ crc32Fsb digits = 0xFC891918 := by
  decide +kernel

/-- Test case 14 of the GCM specification that SP 800-38D is drawn from: key, nonce and plaintext are zeros. -/
theorem test_gcm_vector : gcmXor 0 (List.replicate 12 0) (List.replicate 16 0)
      = [0xCE, 0xA7, 0x40, 0x3D, 0x4D, 0x60, 0x6B, 0x6E, 0x07, 0x4E, 0xC5, 0xD3, 0xBA, 0xF3, 0x9D, 0x18]
    ∧ gcmTagBytes 0 (List.replicate 12 0) [] [0xCE, 0xA7, 0x40, 0x3D, 0x4D, 0x60, 0x6B, 0x6E, 0x07, 0x4E, 0xC5, 0xD3, 0xBA, 0xF3, 0x9D, 0x18]
      = [0xD0, 0xD1, 0xC8, 0xA7, 0x99, 0x99, 0x6B, 0xF0, 0x26, 0x5B, 0x98, 0xB5, 0xD4, 0x8A, 0xB9, 0x19] := by decide +kernel

/-- R461: DOMAIN of LLA reads 18. -/
theorem test_domain_of_line_lanes : (unitAt 11).domains.headD 0 = 18 := by decide

/-- R422, R423: at reset both lines are in Listen and the boot is in phase 0. -/
theorem test_reset_lines : termState State.reset.dev .a = stListen ∧ termState State.reset.dev .b = stListen ∧ bootPhase State.reset.dev = 0 := by
  decide

/-- R20: a read of a LO register latches HI; the read of HI that follows answers the latched word. -/
theorem test_latched_read : (latchHi (live []) KST_FREQ_HI.ofs).latched = [(KST_FREQ_HI.ofs, rd (live []) KST_FREQ_HI)] := by decide

/-- A command of function 0 carried out by a step: the first tick of a device whose reference runs moves device time by 40 ns. -/
theorem test_step_tick : (match step { State.reset with dev := live [], pending := [.tick] } with
    | .next t => t.dev.clock.ns.val == 40 && t.pending.isEmpty
    | _ => false) = true := by decide +kernel

end Sys2Proof.Tests
end

section
/-!
PROOFS. What an operation over the block becomes as a command, and what a loop over the block keeps.
-/

namespace Sys2Proof.Machine

/-! ### Commands as operations over the block -/

/-- An operation that leaves the memories alone answers the state with the new block. -/
theorem onAll_eq {f : Dev → Mem → Dev × Mem} {s : State} {d : Dev} (h : f s.dev s.mem = (d, s.mem)) :
    onAll f s = .next (s.withDev d) := by
  rw [onAll, h]; rfl

theorem withDev_self (s : State) : s.withDev s.dev = s := rfl

theorem exec_registerWrite (m : Master) (ofs : BitVec 26) (size : Nat) (value : BitVec 64) (s : State) :
    exec (.registerWrite m ofs size value) s = onAll (registerWrite m ofs size value) s := rfl

theorem exec_frzRelease (m : Master) (value : Word) (s : State) : exec (.frzRelease m value) s = onAll (frzReleased m value) s := rfl

theorem exec_pwrReqWrite (m : Master) (u : UnitIx) (value : Word) (s : State) :
    exec (.pwrReqWrite m u value) s = .next (s.withDev (pwrReqWrite m u value s.dev)) := rfl

theorem exec_hdrBstStart (m : Master) (u : UnitIx) (s : State) :
    exec (.hdrBstStart m u) s = .next (s.withDev (hdrBstStart m u s.dev)) := rfl

theorem exec_hdrBstAbort (m : Master) (u : UnitIx) (s : State) :
    exec (.hdrBstAbort m u) s = .next (s.withDev (hdrBstAbort m u s.dev)) := rfl

/-- Where no stored records are due there is nothing to apply. -/
theorem applyDue_of_not_due {r : Dev × Mem} (h : r.1.fwu.recordsDue = false) : applyDue r = r := by
  simp [applyDue, h]

/-! ### Loops over the block -/

/-- What every turn of a loop keeps, the loop keeps. -/
theorem forEach_keeps {α : Type} {P : Dev → Prop} {f : Dev → α → Dev} (hf : ∀ d a, P d → P (f d a)) (l : List α) {d : Dev}
    (h : P d) : P (forEach l f d) := by
  induction l generalizing d with
  | nil => exact h
  | cons a t ih => exact ih (hf d a h)

/-- What one turn of a loop brings about and every turn keeps holds after the loop. -/
theorem forEach_reaches {α : Type} {P : Dev → Prop} {f : Dev → α → Dev} {a : α} (hf : ∀ d b, P d → P (f d b))
    (ha : ∀ d, P (f d a)) {l : List α} (h : a ∈ l) (d : Dev) : P (forEach l f d) := by
  induction l generalizing d with
  | nil => cases h
  | cons b t ih =>
    rcases List.mem_cons.mp h with rfl | h
    · exact forEach_keeps hf t (ha d)
    · exact ih h (f d b)

/-! ### One bit of a register -/

theorem getLsbD_putBits_one_same (w : Word) {b : Nat} (v : Bool) (h : b < 32) : (putBits w b b (boolBit v)).getLsbD b = v := by
  cases v <;> simp [putBits, maskBits, boolBit, h]

theorem getLsbD_putBits_one_other (w : Word) {b c : Nat} (v : Nat) (h : c ≠ b) :
    (putBits w b b v).getLsbD c = w.getLsbD c := by
  by_cases hw : c < 32
  · by_cases hc : c < b
    · simp [putBits, maskBits, hc, hw]
    · have hv : (BitVec.ofNat (b - b + 1) v).getLsbD (c - b) = false := BitVec.getLsbD_of_ge _ _ (by omega)
      simp [putBits, maskBits, hc, hw, hv]
      omega
  · simp [BitVec.getLsbD_of_ge _ _ (Nat.le_of_not_lt hw)]

theorem regBit_setRegBit_same (d : Dev) (r : Reg) {b : Nat} (v : Bool) (h : b < 32) : regBit (setRegBit d r b v) r b = v := by
  rw [regBit, setRegBit, rd_wr_same, getLsbD_putBits_one_same _ _ h]

theorem regBit_setRegBit_other (d : Dev) (r : Reg) {b c : Nat} (v : Bool) (h : c ≠ b) :
    regBit (setRegBit d r b v) r c = regBit d r c := by
  rw [regBit, setRegBit, rd_wr_same, getLsbD_putBits_one_other _ _ h, regBit]

/-- Marking one master frozen or not leaves the mark of every other. -/
theorem isFrozen_setFrzMap (d : Dev) (m n : Nat) (v : Bool) :
    isFrozen (setRegBit d (ROOT_FRZ_MAP (m / 32)) (m % 32) v) n = if n = m then v else isFrozen d n := by
  unfold isFrozen
  split
  · next h => subst h; exact regBit_setRegBit_same _ _ _ (Nat.mod_lt _ (by decide))
  · next h =>
    by_cases hq : n / 32 = m / 32
    · rw [hq]; exact regBit_setRegBit_other _ _ _ (by omega)
    · simp only [regBit]
      rw [rd_setRegBit_other]
      simp only; omega

end Sys2Proof.Machine
end

section
/-!
PROOFS. Writes through BAR0: what storing a word touches, and how an aligned and a misaligned write act (R20, R29).
-/

namespace Sys2Proof.Machine

/-! ### What storing a word touches -/

theorem raiseFn_touches {d e : Dev} (h : ∃ r c, e = { d with regs := r, clampLog := c }) (f b : Nat) :
    ∃ r c p o, raiseFn e f b = { d with regs := r, clampLog := c, msixPending := p, out := o } := by
  obtain ⟨r, c, rfl⟩ := h
  obtain ⟨r', p, o, e⟩ := raiseFn_regs { d with regs := r, clampLog := c } f b
  exact ⟨r', c, p, o, e⟩

/-- Logging a clamp touches registers, the clamp log and messages, and nothing else. -/
theorem logClamp_touches (d : Dev) (writer : Nat) (u : UnitRow) (rel width lsb written applied : Nat) :
    ∃ r c p o, logClamp d writer u rel width lsb written applied = { d with regs := r, clampLog := c, msixPending := p, out := o } :=
  raiseFn_touches ⟨_, _, rfl⟩ 0 evClamp

/-- Storing one field logs a clamp or leaves the block as it is. -/
theorem storeRwc_touches (writer : Nat) (u : UnitRow) (rel : Nat) (row : RegRow) (value : Word) (acc : Dev × Word) (f : FieldRow) :
    ∃ r c p o, (storeRwc writer u rel row value acc f).1 = { acc.1 with regs := r, clampLog := c, msixPending := p, out := o } := by
  simp only [storeRwc]
  split
  · exact ⟨_, _, _, _, rfl⟩
  · exact logClamp_touches _ _ _ _ _ _ _ _

theorem storeRwcs_touch (writer : Nat) (u : UnitRow) (rel : Nat) (row : RegRow) (value : Word) (fs : List FieldRow) (acc : Dev × Word) :
    ∃ r c p o, (fs.foldl (storeRwc writer u rel row value) acc).1
      = { acc.1 with regs := r, clampLog := c, msixPending := p, out := o } := by
  induction fs generalizing acc with
  | nil => exact ⟨_, _, _, _, rfl⟩
  | cons f fs ih =>
    obtain ⟨r, c, p, o, e⟩ := ih (storeRwc writer u rel row value acc f)
    obtain ⟨r', c', p', o', e'⟩ := storeRwc_touches writer u rel row value acc f
    exact ⟨r, c, p, o, by rw [List.foldl_cons, e, e']⟩

/-- Storing a word touches registers, the dirty marks, the clamp log and messages, and nothing else. -/
theorem storeWord_touches (d : Dev) (writer : Nat) (u : UnitRow) (rel : Nat) (row : RegRow) (value : Word) :
    ∃ r y c p o, storeWord d writer u rel row value
      = { d with regs := r, dirty := y, clampLog := c, msixPending := p, out := o } := by
  unfold storeWord
  obtain ⟨r1, c1, p1, o1, h1⟩ := storeRwcs_touch writer u rel row value (row.fields.filter (fun f => f.acc == .rwc && f.rng != .dep))
    (d, storePlain (rd d (regAt u row rel)) value row.fields)
  obtain ⟨r2, c2, p2, o2, h2⟩ := storeRwcs_touch writer u rel row value (row.fields.filter (fun f => f.acc == .rwc && f.rng == .dep))
    ((row.fields.filter (fun f => f.acc == .rwc && f.rng != .dep)).foldl (storeRwc writer u rel row value)
      (d, storePlain (rd d (regAt u row rel)) value row.fields))
  rw [h1] at h2
  dsimp only
  rw [h2]
  split <;> exact ⟨_, _, _, _, _, rfl⟩

theorem storeWord_fwu (d : Dev) (writer : Nat) (u : UnitRow) (rel : Nat) (row : RegRow) (value : Word) :
    (storeWord d writer u rel row value).fwu = d.fwu := by
  obtain ⟨r, y, c, p, o, e⟩ := storeWord_touches d writer u rel row value
  rw [e]

/-! ### Where a write goes -/

/-- An access that is no aligned word or pair of words is discarded and counted (R20). -/
theorem busWrite_misaligned (m : Master) {ofs size : Nat} (value : BitVec 64) (d : Dev) (s : Mem)
    (h : ¬ (ofs % 4 = 0 ∧ (size = 4 ∨ size = 8))) :
    busWrite m ofs size value d s = (guarded d m ofs (fun d => count d ROOT_BAD_ACCESS), s) := by
  have h4 : ¬ (ofs % 4 = 0 ∧ size = 4) := fun a => h ⟨a.1, .inl a.2⟩
  have h8 : ¬ (ofs % 4 = 0 ∧ size = 8) := fun a => h ⟨a.1, .inr a.2⟩
  rw [busWrite, if_neg h4, if_neg h8]

theorem busWrite_word (m : Master) {ofs : Nat} (value : BitVec 64) (d : Dev) (s : Mem) (h : ofs % 4 = 0) :
    busWrite m ofs 4 value d s = bar0Write m ofs (value.setWidth 32) d s := if_pos ⟨h, rfl⟩

/-- A leaf unit other than TCM and ASH keeps no table in its window. -/
theorem inTable_leaf {u : Nat} (rel : Nat) (h : 8 ≤ u) (h9 : u ≠ 9) (h56 : u ≠ 56) : inTable u rel = false := by
  have h0 : u ≠ 0 := by omega
  have h8 : ¬ u < 8 := by omega
  simp [inTable, h0, h8, h9, h56]

theorem storeAt_row {d : Dev} {writer ofs i : Nat} {row : RegRow} (value : Word) (hu : unitOf ofs = some i)
    (hrow : rowAt (unitAt i) (ofs - (unitAt i).base) = some row) :
    storeAt d writer ofs value = storeWord d writer (unitAt i) (ofs - (unitAt i).base) row value := by
  simp only [storeAt, hu, hrow]

/-- A write to the parser or to an upstream burst unit does nothing but store (14_parser_and_classifier.md). -/
theorem unitWrite_storing (m : Master) {u : UnitRow} (row rel ofs : Nat) (value : Word) (d : Dev)
    (h : u.kind = 0x60 ∨ u.kind = 0x33) : unitWrite m u row rel ofs value d = storeAt d m ofs value := by
  rcases h with h | h <;> simp [unitWrite, controlWriteReg, timeWriteReg, h]

/-- An admitted write beyond the header and the tables of its unit goes to the register there, by the unit's kind; RST_CTL, FWU_CTL and
ROOT_FRZ_RELEASE lie in units of kinds of their own, and an event or enable word brings the summary of events up to date. -/
theorem bar0Write_register {m : Master} {ofs i : Nat} {row : RegRow} (value : Word) (d : Dev) (s : Mem)
    (ha : admits d m ofs = true) (hu : unitOf ofs = some i) (hh : 0x40 ≤ ofs - (unitAt i).base)
    (ht : inTable i (ofs - (unitAt i).base) = false) (hrow : rowAt (unitAt i) (ofs - (unitAt i).base) = some row)
    (hk : (unitAt i).kind ≠ 0x11 ∧ (unitAt i).kind ≠ 0x01 ∧ (unitAt i).kind ≠ 0x73)
    (he : evtUnits.any (fun e => e.evt.ofs == ofs || e.en.ofs == ofs) = false) :
    bar0Write m ofs value d s = (unitWrite m (unitAt i) row.ofs (ofs - (unitAt i).base) ofs value d, s) := by
  obtain ⟨h11, h01, h73⟩ := hk
  simp [bar0Write, ha, hu, Nat.not_lt.mpr hh, ht, hrow, h11, h01, h73, he]

end Sys2Proof.Machine
end

section
/-!
PROOFS. The register writes of spec/02: a misaligned write (R20), a write to a plain register (R20, R29) and the checked value of a
field (R29).
-/

namespace Sys2Proof.Machine

/-- Settles O7: the access is neither of the two that busWrite carries out, so the guarded count is all that is done. -/
theorem misalignedWriteCounted : Obligations.MisalignedWriteCounted := by
  intro m ofs size value s ha hd hmis
  rw [exec_registerWrite]
  refine onAll_eq ?_
  rw [registerWrite, busWrite_misaligned m value _ _ hmis, guarded_admits _ ha]
  exact applyDue_of_not_due hd

/-- Settles O8: the write reaches the register's row, whose unit has no effect of its own, and no records are due after it. -/
theorem plainWriteStores : Obligations.PlainWriteStores := by
  intro m ofs value s i row ha hd hal hu hk _ h8 h9 h56 hh hrow he
  have hkind : (unitAt i).kind ≠ 0x11 ∧ (unitAt i).kind ≠ 0x01 ∧ (unitAt i).kind ≠ 0x73 := by
    rcases hk with hk | hk <;> simp [hk]
  have hval : (value.setWidth 64).setWidth 32 = value := by simp
  rw [exec_registerWrite]
  refine onAll_eq ?_
  rw [registerWrite, busWrite_word m _ _ _ hal, hval,
    bar0Write_register value _ _ ha hu hh (inTable_leaf _ h8 h9 h56) hrow hkind he,
    unitWrite_storing m _ _ _ _ _ hk, storeAt_row value hu hrow]
  exact applyDue_of_not_due ((congrArg _ (storeWord_fwu ..)).trans hd)

/-! ### The checked value of a field (R29) -/

/-- A value clamped to a span lies in it, is kept where it does, and else takes the limit it passed. -/
theorem clampNat_spec {lo hi : Nat} (v : Nat) (h : lo ≤ hi) : lo ≤ clampNat lo hi v ∧ clampNat lo hi v ≤ hi
    ∧ (lo ≤ v → v ≤ hi → clampNat lo hi v = v) ∧ (v < lo → clampNat lo hi v = lo) ∧ (hi < v → clampNat lo hi v = hi) := by
  unfold clampNat
  split
  · omega
  · split <;> omega

/-- The distance that nearestAmong compares. -/
theorem distance_eq_natAbs (v a : Nat) : (if v < a then a - v else v - a) = ((a : Int) - v).natAbs := by
  split <;> omega

theorem nearestAmong_cons (v best a : Nat) (t : List Nat) : nearestAmong v best (a :: t)
    = nearestAmong v (if ((a : Int) - v).natAbs < ((best : Int) - v).natAbs then a else best) t := by
  rw [nearestAmong, distance_eq_natAbs, distance_eq_natAbs]

/-- The choice is the best value so far or one of the list. -/
theorem nearestAmong_mem (v best : Nat) (vs : List Nat) : nearestAmong v best vs ∈ best :: vs := by
  induction vs generalizing best with
  | nil => simp [nearestAmong]
  | cons a t ih =>
    rw [nearestAmong_cons]
    split
    · exact List.mem_cons_of_mem _ (ih a)
    · have := ih best
      simp only [List.mem_cons] at this ⊢
      tauto

/-- No value of the list, nor the best so far, is nearer than the choice. -/
theorem nearestAmong_nearest (v best : Nat) (vs : List Nat) :
    ∀ x ∈ best :: vs, ((nearestAmong v best vs : Int) - v).natAbs ≤ ((x : Int) - v).natAbs := by
  induction vs generalizing best with
  | nil => simp [nearestAmong]
  | cons a t ih =>
    rw [nearestAmong_cons]
    intro x hx
    simp only [List.mem_cons] at hx
    split
    · next h =>
      rcases hx with rfl | rfl | hx
      · exact (ih a a (by simp)).trans h.le
      · exact ih x x (by simp)
      · exact ih a x (by simp [hx])
    · next h =>
      rcases hx with rfl | rfl | hx
      · exact ih x x (by simp)
      · exact (ih best best (by simp)).trans (Nat.le_of_not_lt h)
      · exact ih best x (by simp [hx])

/-- Settles O9: by the cases of a clamped span, by the two sides of the last named code, and by induction over the allowed values. -/
theorem clampTakesNearest : Obligations.ClampTakesNearest := by
  refine ⟨fun _ lo hi v h => clampNat_spec v h, fun _ last safe v => ⟨fun h => if_pos h, fun h => if_neg (Nat.not_le.mpr h)⟩, ?_⟩
  intro w v vs hvs
  obtain ⟨a, t, rfl⟩ := List.exists_cons_of_ne_nil hvs
  have hmem := nearestAmong_mem v a (a :: t)
  have hnear := nearestAmong_nearest v a (a :: t)
  simp only [List.mem_cons, or_self_left] at hmem hnear ⊢
  exact ⟨hmem, hnear⟩

end Sys2Proof.Machine
end

section
/-!
PROOFS. Freezing and releasing masters (R33 to R36, R130).
-/

namespace Sys2Proof.Machine

/-! ### Freezing -/

theorem ne_i2cMaster {m : Nat} (h : m ≤ 0x6B) : m ≠ i2cMaster := Nat.ne_of_lt (Nat.lt_of_le_of_lt h (by decide))

/-- A further violation overwrites the cause; one of function 0 is reported again. -/
theorem freeze_of_frozen {d : Dev} {m : Nat} (cause ofs : Nat) (hm : m ≤ 0x6B) (hf : isFrozen d m = true) :
    freeze d m cause ofs = if m = 0
      then { wrn d (ROOT_FRZ_CAUSE m) (cause * 0x4000000 + ofs % 0x4000000) with frzReport := true }
      else wrn d (ROOT_FRZ_CAUSE m) (cause * 0x4000000 + ofs % 0x4000000) := by
  rw [freeze, if_neg (ne_i2cMaster hm), if_pos hf]

/-- The block after the registers of a first violation were written: the cause word, the mark and the count. -/
def markFrozen (d : Dev) (m word : Nat) : Dev :=
  count (setRegBit (wrn d (ROOT_FRZ_CAUSE m) word) (ROOT_FRZ_MAP (m / 32)) (m % 32) true) ROOT_FRZ_COUNT

/-- A first violation is marked and reported. -/
theorem freeze_of_not_frozen {d : Dev} {m : Nat} (cause ofs : Nat) (hm : m ≤ 0x6B) (hf : isFrozen d m = false) :
    freeze d m cause ofs = if m = 0 then { markFrozen d m (cause * 0x4000000 + ofs % 0x4000000) with frzReport := true }
      else raiseFn (markFrozen d m (cause * 0x4000000 + ofs % 0x4000000)) 0 evFreeze := by
  rw [freeze, if_neg (ne_i2cMaster hm), if_neg (Bool.eq_false_iff.mp hf)]
  simp only [markFrozen]

theorem rd_with_frzReport (d : Dev) (b : Bool) (q : Reg) : rd { d with frzReport := b } q = rd d q := rfl

/-- The registers of the root after a first violation: the report leaves them. -/
theorem rd_freeze_of_not_frozen {d : Dev} {m : Nat} (cause ofs : Nat) (hm : m ≤ 0x6B) (hf : isFrozen d m = false) {q : Reg}
    (hq : q.ofs < 0x100000) : rd (freeze d m cause ofs) q = rd (markFrozen d m (cause * 0x4000000 + ofs % 0x4000000)) q := by
  rw [freeze_of_not_frozen cause ofs hm hf]
  split
  · exact rd_with_frzReport _ _ _
  · exact rd_raiseFn_other _ _ _ (by simp only; omega)

/-- The registers after a further violation are those with the cause written. -/
theorem rd_freeze_of_frozen {d : Dev} {m : Nat} (cause ofs : Nat) (hm : m ≤ 0x6B) (hf : isFrozen d m = true) (q : Reg) :
    rd (freeze d m cause ofs) q = rd (wrn d (ROOT_FRZ_CAUSE m) (cause * 0x4000000 + ofs % 0x4000000)) q := by
  rw [freeze_of_frozen cause ofs hm hf]
  split
  · exact rd_with_frzReport _ _ _
  · rfl

/-- The words that a freeze of master m writes in the root's window lie apart. -/
theorem frzWords_apart {m : Nat} (hm : m ≤ 0x6B) : (ROOT_FRZ_MAP (m / 32)).ofs < ROOT_FRZ_COUNT.ofs
    ∧ ROOT_FRZ_COUNT.ofs < (ROOT_FRZ_CAUSE m).ofs ∧ (ROOT_FRZ_CAUSE m).ofs < 0x100000 := by
  simp only; omega

theorem rd_freeze_cause (d : Dev) {m : Nat} (cause ofs : Nat) (hm : m ≤ 0x6B) :
    rd (freeze d m cause ofs) (ROOT_FRZ_CAUSE m) = BitVec.ofNat 32 (cause * 0x4000000 + ofs % 0x4000000) := by
  obtain ⟨hmap, hcause, htop⟩ := frzWords_apart hm
  cases hf : isFrozen d m with
  | true => rw [rd_freeze_of_frozen cause ofs hm hf, rd_wrn_same]
  | false =>
    rw [rd_freeze_of_not_frozen cause ofs hm hf htop, markFrozen, rd_count_other _ hcause.ne',
      rd_setRegBit_other _ _ _ (hmap.trans hcause).ne', rd_wrn_same]

theorem isFrozen_freeze (d : Dev) {m : Nat} (cause ofs : Nat) (hm : m ≤ 0x6B) : isFrozen (freeze d m cause ofs) m = true := by
  obtain ⟨hmap, hcause, htop⟩ := frzWords_apart hm
  rw [isFrozen, regBit]
  cases hf : isFrozen d m with
  | true =>
    rw [rd_freeze_of_frozen cause ofs hm hf, rd_wrn_other _ _ (hmap.trans hcause).ne]
    exact hf
  | false =>
    rw [rd_freeze_of_not_frozen cause ofs hm hf (hmap.trans (hcause.trans htop)), markFrozen, rd_count_other _ hmap.ne]
    exact regBit_setRegBit_same _ _ _ (Nat.mod_lt _ (by decide))

theorem rdn_freeze_count {d : Dev} {m : Nat} (cause ofs : Nat) (hm : m ≤ 0x6B) (hf : isFrozen d m = false) :
    rdn (freeze d m cause ofs) ROOT_FRZ_COUNT = min (rdn d ROOT_FRZ_COUNT + 1) 0xFFFFFFFF := by
  obtain ⟨hmap, hcause, htop⟩ := frzWords_apart hm
  rw [rdn, rd_freeze_of_not_frozen cause ofs hm hf (hcause.trans htop), ← rdn, markFrozen, rdn_count_same]
  simp only [rdn, rd_setRegBit_other _ _ _ hmap.ne', rd_wrn_other _ _ hcause.ne]

/-- Function 0's own freeze waits to be reported to the head end. -/
theorem frzReport_freeze_function0 (d : Dev) (cause ofs : Nat) : (freeze d 0 cause ofs).frzReport = true := by
  cases hf : isFrozen d 0 with
  | true => rw [freeze_of_frozen cause ofs (by decide) hf, if_pos rfl]
  | false => rw [freeze_of_not_frozen cause ofs (by decide) hf, if_pos rfl]

theorem regBit_raiseFn_same (d : Dev) (f : Nat) {b : Nat} (h : b < 32) : regBit (raiseFn d f b) (HIF_FNf_EVT f) b = true := by
  obtain ⟨p, o, e⟩ := raiseFn_spec d f b
  rw [e]
  exact regBit_setRegBit_same d _ true h

/-- Settles O12: a first violation and a further one each have their lemma, and every clause reads the registers after one of the two. -/
theorem freezeRecords : Obligations.FreezeRecords := by
  intro d m cause ofs hm _
  refine ⟨rd_freeze_cause d cause ofs hm, isFrozen_freeze d cause ofs hm, ?_, ?_, ?_⟩
  · intro hf h0
    rw [freeze_of_frozen cause ofs hm hf, if_neg h0]
  · rintro rfl
    exact frzReport_freeze_function0 d cause ofs
  · intro hf
    refine ⟨rdn_freeze_count cause ofs hm hf, fun h0 => ?_⟩
    rw [freeze_of_not_frozen cause ofs hm hf, if_neg h0]
    exact regBit_raiseFn_same _ 0 (by decide)

/-! ### Releasing -/

theorem flushVectors_regs (d : Dev) : (flushVectors d).regs = d.regs := by
  obtain ⟨p, o, e⟩ := flushVectors_spec d
  rw [e]

theorem isFrozen_congr {d e : Dev} (h : e.regs = d.regs) (n : Master) : isFrozen e n = isFrozen d n := by
  simp only [isFrozen, regBit, rd, h]

/-- The rings of a function that is released: registers above the window of the tree's root change, and nothing else. -/
theorem stopRings_touches (d : Dev) (f : Nat) :
    ∃ r, stopRings d f = { d with regs := r } ∧ ∀ q : Reg, q.ofs < 0x100000 → rd (stopRings d f) q = rd d q := by
  unfold stopRings
  refine forEach_keeps (P := fun e => ∃ r, e = { d with regs := r } ∧ ∀ q : Reg, q.ofs < 0x100000 → rd e q = rd d q) ?_ _
    ⟨d.regs, rfl, fun _ _ => rfl⟩
  rintro e k ⟨r, rfl, hr⟩
  split
  · refine ⟨_, rfl, fun q hq => ?_⟩
    rw [rd_setFld_other _ _ (by simp only; omega), hr q hq]
  · exact ⟨r, rfl, hr⟩

/-- A release of a master that is not frozen changes nothing. -/
theorem releaseMaster_of_not_frozen {d : Dev} {m : Nat} (h : isFrozen d m = false) : releaseMaster d m = d := by
  simp [releaseMaster, h]

/-- A release ends the work of a frozen master (R36), which the root's registers do not show; then its mark clears and held messages go
out. -/
theorem releaseMaster_of_frozen {d : Dev} {m : Nat} (h : isFrozen d m = true) :
    ∃ r t, (∀ q : Reg, q.ofs < 0x100000 → rd { d with regs := r, host := t } q = rd d q)
      ∧ releaseMaster d m = flushVectors (setRegBit { d with regs := r, host := t } (ROOT_FRZ_MAP (m / 32)) (m % 32) false) := by
  unfold releaseMaster
  rw [if_pos h]
  by_cases h1 : m < 0x20
  · obtain ⟨r, e, hr⟩ := stopRings_touches d m
    rw [if_pos h1]
    exact ⟨r, d.host, e ▸ hr, by rw [e]⟩
  rw [if_neg h1]
  by_cases h2 : m < 0x60
  · rw [if_pos h2]
    refine ⟨_, _, ?_, rfl⟩
    exact fun q hq => rd_setFlag_other _ _ (by simp only; omega)
  rw [if_neg h2]
  by_cases h3 : m < 0x64
  · rw [if_pos h3]
    refine ⟨_, _, ?_, rfl⟩
    exact fun q hq => rd_setFld_other _ _ (by simp only; omega)
  · rw [if_neg h3]
    exact ⟨d.regs, d.host, fun _ _ => rfl, rfl⟩

/-- A release touches registers, the host interface and messages, and nothing else. -/
theorem releaseMaster_touches (d : Dev) (m : Nat) :
    ∃ r t p o, releaseMaster d m = { d with regs := r, host := t, msixPending := p, out := o } := by
  cases h : isFrozen d m with
  | false => exact ⟨d.regs, d.host, d.msixPending, d.out, releaseMaster_of_not_frozen h⟩
  | true =>
    obtain ⟨r, t, _, e⟩ := releaseMaster_of_frozen h
    obtain ⟨p, o, e'⟩ := flushVectors_spec (setRegBit { d with regs := r, host := t } (ROOT_FRZ_MAP (m / 32)) (m % 32) false)
    exact ⟨_, t, p, o, e.trans e'⟩

/-- After a release the master runs, and every other master is as it was. -/
theorem isFrozen_releaseMaster (d : Dev) (m : Nat) {n : Nat} (hn : n < 0x100) :
    isFrozen (releaseMaster d m) n = if n = m then false else isFrozen d n := by
  cases h : isFrozen d m with
  | false =>
    rw [releaseMaster_of_not_frozen h]
    split
    · next e => rw [e, h]
    · rfl
  | true =>
    obtain ⟨r, t, hr, e⟩ := releaseMaster_of_frozen h
    rw [e, isFrozen_congr (flushVectors_regs _), isFrozen_setFrzMap]
    split
    · rfl
    · rw [isFrozen, regBit, hr _ (by simp only; omega), isFrozen, regBit]

/-- A release of a master other than core 0 neither halts nor starts the cores. -/
theorem coresHalted_releaseMaster (d : Dev) {m : Nat} (h : m ≠ 0x64) : coresHalted (releaseMaster d m) = coresHalted d := by
  have hp : (releaseMaster d m).corePause = d.corePause := by
    obtain ⟨r, t, p, o, e⟩ := releaseMaster_touches d m
    rw [e]
  rw [coresHalted, hp, isFrozen_releaseMaster d m (by decide), if_neg (Ne.symm h), coresHalted]

/-! ### What follows a release of core 0 -/

/-- No ranging work, report or save waits for firmware. -/
def nothingWaits (d : Dev) : Prop :=
  d.rngHw.a.waiting = [] ∧ d.rngHw.b.waiting = [] ∧ d.frzReport = false ∧ d.fwu.saveWait = false

theorem nothingWaits_releaseMaster {d : Dev} (m : Master) (h : nothingWaits d) : nothingWaits (releaseMaster d m) := by
  obtain ⟨r, t, p, o, e⟩ := releaseMaster_touches d m
  rw [e]
  exact h

theorem setRng_waiting_nil {d : Dev} {x : Line} (h : (d.rngHw.get x).waiting = []) :
    setRng d x (fun r => { r with waiting := [] }) = d := by
  cases x <;> (rw [setRng, ← h]; rfl)

/-- Where nothing waits for firmware, its start changes nothing. -/
theorem coresResume_of_nothingWaits {d : Dev} (s : Mem) (h : nothingWaits d) : coresResume d s = (d, s) := by
  obtain ⟨ha, hb, hr, hs⟩ := h
  unfold coresResume
  split
  · rfl
  · simp only [ha, hb, List.append_nil, forEach, List.foldl_nil]
    rw [setRng_waiting_nil (x := .a) ha, setRng_waiting_nil (x := .b) hb]
    simp [freezeReport, hr, hs]

theorem coreRestart_of_nothingWaits (d : Dev) {d' : Dev} (s : Mem) (h : nothingWaits d') : coreRestart d d' s = (d', s) := by
  unfold coreRestart
  split
  · exact coresResume_of_nothingWaits s h
  · rfl

/-- A write that leaves halted cores halted starts nothing. -/
theorem coreRestart_of_halted {d d' : Dev} (s : Mem) (h : coresHalted d' = coresHalted d) : coreRestart d d' s = (d', s) := by
  unfold coreRestart
  split
  · next hd => rw [coresResume, if_pos (h.trans hd)]
  · rfl

/-- FRZ_RELEASE answers what its write makes of the block, where no core starts with work to do and no stored records are due. -/
theorem exec_frzRelease_of {m : Master} {value : Word} {s : State} {d : Dev} (hw : frzRelease m value s.dev = d)
    (hc : coreRestart s.dev d s.mem = (d, s.mem)) (hd : d.fwu.recordsDue = false) :
    exec (.frzRelease m value) s = .next (s.withDev d) := by
  rw [exec_frzRelease]
  refine onAll_eq ?_
  rw [frzReleased, hw, hc]
  exact applyDue_of_not_due hd

theorem exec_frzRelease_of_release {m k : Master} {value : Word} {s : State} (hw : frzRelease m value s.dev = releaseMaster s.dev k)
    (hk : k = 0x64 → nothingWaits s.dev) (hd : s.dev.fwu.recordsDue = false) :
    exec (.frzRelease m value) s = .next (s.withDev (releaseMaster s.dev k)) := by
  refine exec_frzRelease_of hw ?_ ?_
  · by_cases h : k = 0x64
    · exact coreRestart_of_nothingWaits _ _ (nothingWaits_releaseMaster k (hk h))
    · exact coreRestart_of_halted _ (coresHalted_releaseMaster _ h)
  · obtain ⟨r, t, p, o, e⟩ := releaseMaster_touches s.dev k
    rw [e]
    exact hd

theorem exec_frzRelease_of_ignored {m : Master} {value : Word} {s : State} (hw : frzRelease m value s.dev = s.dev)
    (hd : s.dev.fwu.recordsDue = false) : exec (.frzRelease m value) s = .next s :=
  exec_frzRelease_of hw (coreRestart_of_halted _ rfl) hd

theorem asFunction0_i2cMaster (d : Dev) : asFunction0 d i2cMaster = false := rfl

/-- Settles O11: in each case the write releases the named master or nothing; a release starts the cores only where core 0 is the one
released, and then nothing waits for them. -/
theorem releaseOfMaster : Obligations.ReleaseOfMaster := by
  intro value m s hd
  refine ⟨?_, ?_, ?_, ?_⟩
  · intro k hk hgo h1 h2 hf0 ha hcore
    refine exec_frzRelease_of_release ?_ hcore hd
    have h0 : k ≠ 0 := by omega
    rw [frzRelease, guarded_admits _ ha]
    simp [hk, hgo, hf0, h0, h2]
  · intro hk hgo ha
    refine exec_frzRelease_of_release ?_ (by simp) hd
    rw [frzRelease, guarded_admits _ ha]
    simp [hk, hgo, asFunction0_i2cMaster]
  · intro hk ha
    refine exec_frzRelease_of_ignored ?_ hd
    rw [frzRelease, guarded_admits _ ha]
    simp [hk, asFunction0_i2cMaster]
  · intro hno hf0 ha
    refine exec_frzRelease_of_ignored ?_ hd
    rw [frzRelease, guarded_admits _ ha]
    rcases hno with hgo | hk | hk
    · simp only [hgo, Bool.not_false, if_true]
    · simp [hf0, hk]
    · simp [hf0, Nat.not_le.mpr hk]

end Sys2Proof.Machine
end

section
/-!
PROOFS. The commands of the unit header: PWR_REQ, START and ABORT (R24, R26, R362, R379).
-/

namespace Sys2Proof.Machine

theorem leavesOf_leaf {u : Nat} (h : 8 ≤ u) : leavesOf u = [u] := by
  have h0 : u ≠ 0 := by omega
  simp [leavesOf, h0, Nat.not_lt.mpr h]

/-- A write of PWR_REQ to a leaf unit takes the checked value, and the domains follow. -/
theorem pwrReqWrite_leaf {m : Master} {u : UnitIx} (value : Word) {d : Dev} (h8 : 8 ≤ u.val)
    (ha : admits d m (HDR_PWR (unitAt u).base).ofs = true) :
    pwrReqWrite m u value d = startTrim (putPwrReq m d u (getBits value 1 0)) := by
  rw [pwrReqWrite, guarded_admits _ ha]
  simp only [if_neg (Nat.not_lt.mpr h8)]

/-- PWR_REQ of a leaf unit with an always-on or time-capture part stays 10b. -/
theorem fld_putPwrReq_always_on (m : Master) (d : Dev) {u : Nat} (v : Nat) (h8 : 8 ≤ u) (h : (unitAt u).domains.headD 0 < 2) :
    fld (putPwrReq m d u v) (HDR_PWR_PWR_REQ (unitAt u).base) = 2 := by
  simp only [putPwrReq, if_pos (Or.inr (And.intro h8 h) : u = 0 ∨ 8 ≤ u ∧ (unitAt u).domains.headD 0 < 2)]
  exact fld_setFld_same _ 2 (show 1 < 32 by decide) (Nat.zero_le 1)

/-- START sets PENDING on every target of an eligible leaf unit. -/
theorem hdrBstStart_leaf {m : Master} {u : UnitIx} {d : Dev} (h8 : 8 ≤ u.val) (he : (unitAt u).eligible = true)
    (ha : admits d m (HDR_BST (unitAt u).base).ofs = true) :
    hdrBstStart m u d = forEach (targetsOf u) (fun d t => setFlag d (BST_TGTt_STATUS_PENDING t) true) d := by
  rw [hdrBstStart, guarded_admits _ ha, leavesOf_leaf h8]
  simp [he, forEach]

theorem flag_setFlag_pending_same (d : Dev) (k : Nat) :
    flag (setFlag d (BST_TGTt_STATUS_PENDING k) true) (BST_TGTt_STATUS_PENDING k) = true :=
  flag_setFlag_same d true (show 28 < 32 by decide) (Nat.le_refl 28)

/-- A target that is pending stays so when another is set pending. -/
theorem flag_setFlag_pending_kept {d : Dev} {k : Nat} (t : Nat) (h : flag d (BST_TGTt_STATUS_PENDING k) = true) :
    flag (setFlag d (BST_TGTt_STATUS_PENDING t) true) (BST_TGTt_STATUS_PENDING k) = true := by
  by_cases e : k = t
  · subst e
    exact flag_setFlag_pending_same d k
  · have hr : (BST_TGTt_STATUS k).ofs ≠ (BST_TGTt_STATUS t).ofs := by simp only; omega
    rw [flag, setFlag, fld_setFld_reg _ _ hr]
    exact h

theorem flag_pending_forEach (d : Dev) {l : List Nat} {k : Nat} (h : k ∈ l) :
    flag (forEach l (fun d t => setFlag d (BST_TGTt_STATUS_PENDING t) true) d) (BST_TGTt_STATUS_PENDING k) = true :=
  forEach_reaches (P := fun d => flag d (BST_TGTt_STATUS_PENDING k) = true) (fun _ t hd => flag_setFlag_pending_kept t hd)
    (flag_setFlag_pending_same · k) h d

/-- ABORT of a leaf unit: the slice that is running is aborted where its target belongs to the unit. -/
theorem hdrBstAbort_leaf {m : Master} {u : UnitIx} {d : Dev} (h8 : 8 ≤ u.val)
    (ha : admits d m (HDR_BST (unitAt u).base).ofs = true) :
    hdrBstAbort m u d = if ∃ t ∈ targetsOf u, slicing d = some t then abortSlice d cutHost else d := by
  rw [hdrBstAbort, guarded_admits _ ha, leavesOf_leaf h8]
  cases h : slicing d with
  | none => simp
  | some t => simp

/-- Settles O13: each command is admitted and acts on the one leaf unit that it names. -/
theorem headerCommands : Obligations.HeaderCommands := by
  intro m u s h8
  refine ⟨?_, ?_, ?_, ?_⟩
  · intro value ha
    rw [exec_pwrReqWrite, pwrReqWrite_leaf value h8 ha]
  · intro v hdom
    exact fld_putPwrReq_always_on m s.dev v h8 hdom
  · intro ha he
    refine ⟨_, exec_hdrBstStart m u s, rfl, fun k hk => ?_⟩
    rw [hdrBstStart_leaf h8 he ha]
    exact flag_pending_forEach s.dev hk
  · intro ha
    rw [exec_hdrBstAbort, hdrBstAbort_leaf h8 ha]
    refine ⟨fun k hk hmem => ?_, fun hno => ?_⟩
    · rw [if_pos ⟨k, hmem, hk⟩]
    · rw [if_neg (fun ⟨k, hmem, hk⟩ => hno k hk hmem), withDev_self]

end Sys2Proof.Machine
end

section
/-!
PROOFS. What raising an alarm of Keystone and the arrival of a wake source touch (R65, R370).
-/

namespace Sys2Proof.Machine

/-! ### Fields of registers -/

/-- A field reads as before where its register does. -/
theorem fld_congr (f : Fld) {d e : Dev} (h : rd e f.reg = rd d f.reg) : fld e f = fld d f := by rw [fld, h, fld]

theorem flag_congr (f : Fld) {d e : Dev} (h : rd e f.reg = rd d f.reg) : flag e f = flag d f := by rw [flag, fld_congr f h, flag]

/-- Two fields of one register that share no bit. -/
def apart (g f : Fld) : Prop := g.reg = f.reg ∧ (g.hi < f.lo ∨ f.hi < g.lo) ∧ g.lo ≤ g.hi ∧ f.lo ≤ f.hi

theorem fld_setFld_apart (d : Dev) {f g : Fld} (v : Nat) (h : apart g f) : fld (setFld d f v) g = fld d g := by
  obtain ⟨hr, hb, hg, hl⟩ := h
  exact fld_setFld_other d v hr hb hg hl

theorem flag_setFld_apart (d : Dev) {f g : Fld} (v : Nat) (h : apart g f) : flag (setFld d f v) g = flag d g := by
  rw [flag, fld_setFld_apart d v h, flag]

theorem fld_setFlag_apart (d : Dev) {f g : Fld} (b : Bool) (h : apart g f) : fld (setFlag d f b) g = fld d g :=
  fld_setFld_apart d _ h

theorem flag_setFlag_apart (d : Dev) {f g : Fld} (b : Bool) (h : apart g f) : flag (setFlag d f b) g = flag d g :=
  flag_setFld_apart d _ h

theorem rdn_wrn_same (d : Dev) (r : Reg) (n : Nat) : rdn (wrn d r n) r = n % 2 ^ 32 := by
  rw [rdn, rd_wrn_same, BitVec.toNat_ofNat]

theorem rdn_wrn_other (d : Dev) {r q : Reg} (n : Nat) (h : q.ofs ≠ r.ofs) : rdn (wrn d r n) q = rdn d q := by
  rw [rdn, rd_wrn_other d n h, rdn]

/-! ### Events of a unit -/

/-- Raising a unit's event leaves its bit set. -/
theorem regBit_raiseEvt_same (d : Dev) {u : EvtUnit} {b : Nat} (hb : b < 32) (h1 : u.evt.ofs ≠ HIF_EVT_UNIT.ofs)
    (h2 : u.evt.ofs ≠ (HIF_FNf_EVT 0).ofs) : regBit (raiseEvt d u b) u.evt b = true := by
  unfold raiseEvt whenD
  simp only
  split
  · rw [regBit, rd_raiseFn_other _ _ _ h2, rd_setRegBit_other _ _ _ h1]
    exact regBit_setRegBit_same d u.evt true hb
  · exact regBit_setRegBit_same d u.evt true hb

/-! ### Wakes -/

/-- A wake that begins touches PWR's registers, the outbox and the power sequence, and nothing else. -/
theorem beginWake_spec (d : Dev) (src target : Nat) : ∃ r o p, beginWake d src target = { d with regs := r, out := o, pwr := p }
    ∧ ∀ q : Reg, 0x130000 ≤ q.ofs → rd (beginWake d src target) q = rd d q := by
  unfold beginWake
  simp only
  split
  · exact ⟨_, d.out, d.pwr, rfl, fun q hq => rd_count_other d (by simp only; omega)⟩
  · have hregs : ∀ q : Reg, 0x130000 ≤ q.ofs → rd (setFlag (wrn d PWR_WAKE_SRC src) PWR_STATUS_TRANS true) q = rd d q :=
      fun q hq => by rw [rd_setFlag_other _ _ (by simp only; omega), rd_wrn_other _ _ (by simp only; omega)]
    split
    · exact ⟨_, _, _, rfl, fun q hq => (rd_setFlag_other _ _ (by simp only; omega)).trans (hregs q hq)⟩
    · exact ⟨_, _, _, rfl, fun q hq => (rd_setFlag_other _ _ (by simp only; omega)).trans (hregs q hq)⟩

/-- A wake source that arrives touches PWR's registers, the outbox and the power sequence, and nothing else. -/
theorem wakeArrives_spec (d : Dev) (b target : Nat) : ∃ r o p, wakeArrives d b target = { d with regs := r, out := o, pwr := p }
    ∧ ∀ q : Reg, 0x130000 ≤ q.ofs → rd (wakeArrives d b target) q = rd d q := by
  unfold wakeArrives
  split
  · exact ⟨d.regs, d.out, d.pwr, rfl, fun _ _ => rfl⟩
  split
  · exact ⟨_, d.out, _, rfl, fun q hq => rd_setFlag_other _ _ (by simp only; omega)⟩
  split
  · split
    · exact beginWake_spec _ _ _
    · exact ⟨_, d.out, d.pwr, rfl, fun q hq => rd_setRegBit_other _ _ _ (by simp only; omega)⟩
  · exact ⟨d.regs, d.out, d.pwr, rfl, fun _ _ => rfl⟩

/-! ### Alarms of Keystone -/

/-- An alarm touches registers, messages, the outbox and the power sequence, and nothing else. -/
theorem raiseKst_touches (d : Dev) (b : Nat) :
    ∃ r p o w, raiseKst d b = { d with regs := r, msixPending := p, out := o, pwr := w } := by
  obtain ⟨r, p, o, e⟩ := raiseEvt_spec d evKST b
  obtain ⟨r', o', w', e', _⟩ := wakeArrives_spec (raiseEvt d evKST b) wakeKst 0
  unfold raiseKst
  simp only
  split
  · rw [e', e]
    exact ⟨r', p, o', w', rfl⟩
  · rw [e]
    exact ⟨r, p, o, d.pwr, rfl⟩

@[simp] theorem raiseKst_kst (d : Dev) (b : Nat) : (raiseKst d b).kst = d.kst := by
  obtain ⟨r, p, o, w, e⟩ := raiseKst_touches d b
  rw [e]

@[simp] theorem raiseKst_clock (d : Dev) (b : Nat) : (raiseKst d b).clock = d.clock := by
  obtain ⟨r, p, o, w, e⟩ := raiseKst_touches d b
  rw [e]

@[simp] theorem raiseKst_elapsed (d : Dev) (b : Nat) : (raiseKst d b).elapsed = d.elapsed := by
  obtain ⟨r, p, o, w, e⟩ := raiseKst_touches d b
  rw [e]

/-- An alarm leaves every register between those of PWR and those of HIF but the alarm word. -/
theorem rd_raiseKst_other (d : Dev) (b : Nat) {q : Reg} (h : q.ofs ≠ KST_ALARM.ofs) (hlo : 0x130000 ≤ q.ofs) (hhi : q.ofs < 0xf00000) :
    rd (raiseKst d b) q = rd d q := by
  obtain ⟨_, _, _, _, hw⟩ := wakeArrives_spec (raiseEvt d evKST b) wakeKst 0
  have he : rd (raiseEvt d evKST b) q = rd d q := rd_raiseEvt_other d evKST b h (by simp only; omega) (by simp only; omega)
  unfold raiseKst
  simp only
  split
  · rw [hw q hlo, he]
  · exact he

/-- An alarm that is raised shows. -/
theorem regBit_raiseKst_same (d : Dev) {b : Nat} (hb : b < 32) : regBit (raiseKst d b) KST_ALARM b = true := by
  obtain ⟨_, _, _, _, hw⟩ := wakeArrives_spec (raiseEvt d evKST b) wakeKst 0
  have he : regBit (raiseEvt d evKST b) KST_ALARM b = true := regBit_raiseEvt_same d (u := evKST) hb (by decide) (by decide)
  unfold raiseKst
  simp only
  split
  · rw [regBit, hw _ (by decide)]
    exact he
  · exact he

end Sys2Proof.Machine
end

section
/-!
PROOFS. The tick of device time and the slewer (R40 to R42, R55, R466).
-/

namespace Sys2Proof.Machine

/-! ### The frequency word and the slewer's step (R41, R55) -/

theorem nearest_mono {a b : Int} {den : Nat} (hd : 0 < den) (h : a ≤ b) : nearest a den ≤ nearest b den :=
  Int.ediv_le_ediv (by omega) (by omega)

theorem servoWord_mono (d : Dev) (c : Int) {s t : Int} (h : s ≤ t) : servoWord d c s ≤ servoWord d c t :=
  nearest_mono (by decide) (by omega)

/-- A step of whole units adds just these to the corrected word. -/
theorem servoWord_whole (d : Dev) (c k : Int) : servoWord d c (k * 1000000000) = correctedWord d c + k := by
  unfold servoWord correctedWord nearest
  generalize (baseWord d : Int) * (0x10000000000000000 + c) = a
  push_cast
  omega

/-- The slewer's rate is at most its limit in magnitude, and lies between 0 and the residual. -/
theorem slewRate_bounds (d : Dev) : -(slewLimit d : Int) ≤ slewRate d ∧ slewRate d ≤ slewLimit d
    ∧ (0 ≤ d.kst.b → 0 ≤ slewRate d ∧ slewRate d ≤ d.kst.b * 1000000000)
    ∧ (d.kst.b ≤ 0 → d.kst.b * 1000000000 ≤ slewRate d ∧ slewRate d ≤ 0) := by
  unfold slewRate clampInt
  generalize slewLimit d = l
  split
  · omega
  · split <;> omega

/-- The slewer's step is at most k where its rate is at most k units. -/
theorem slewStep_le {d : Dev} {k : Int} (h : slewRate d ≤ k * 1000000000) : slewStep d ≤ k := by
  have := servoWord_mono d d.kst.c h
  rw [servoWord_whole] at this
  unfold slewStep
  omega

theorem le_slewStep {d : Dev} {k : Int} (h : k * 1000000000 ≤ slewRate d) : k ≤ slewStep d := by
  have := servoWord_mono d d.kst.c h
  rw [servoWord_whole] at this
  unfold slewStep
  omega

/-- The step lies between 0 and the residual. -/
theorem slewStep_between (d : Dev) : (0 ≤ d.kst.b → 0 ≤ slewStep d ∧ slewStep d ≤ d.kst.b)
    ∧ (d.kst.b ≤ 0 → d.kst.b ≤ slewStep d ∧ slewStep d ≤ 0) := by
  obtain ⟨_, _, hpos, hneg⟩ := slewRate_bounds d
  constructor
  · intro h
    obtain ⟨h0, hb⟩ := hpos h
    exact ⟨le_slewStep (by omega), slewStep_le hb⟩
  · intro h
    obtain ⟨hb, h0⟩ := hneg h
    exact ⟨le_slewStep hb, slewStep_le (by omega)⟩

theorem slewStep_natAbs_le (d : Dev) : (slewStep d).natAbs ≤ (slewLimit d + 999999999) / 1000000000 := by
  obtain ⟨hlo, hhi, _, _⟩ := slewRate_bounds d
  have h1 := slewStep_le (d := d) (k := ((slewLimit d + 999999999) / 1000000000 : Nat)) (by omega)
  have h2 := le_slewStep (d := d) (k := -((slewLimit d + 999999999) / 1000000000 : Nat)) (by omega)
  omega

/-- The applied word is the corrected word and the slewer's step. -/
theorem appliedWord_eq (d : Dev) : appliedWord d = Int.toNat (correctedWord d d.kst.c + slewStep d) := by
  rw [slewStep, add_sub_cancel, appliedWord]

/-! ### Keystone's part of a tick (R40, R42) -/

/-- e differs from d in registers from offset n on at most. -/
def onlyRegsFrom (n : Nat) (d e : Dev) : Prop := (∃ r, e = { d with regs := r }) ∧ ∀ q : Reg, q.ofs < n → rd e q = rd d q

theorem onlyRegsFrom_refl (n : Nat) (d : Dev) : onlyRegsFrom n d d := ⟨⟨d.regs, rfl⟩, fun _ _ => rfl⟩

theorem onlyRegsFrom_wr {n : Nat} {d e : Dev} (h : onlyRegsFrom n d e) {r : Reg} (w : Word) (hr : n ≤ r.ofs) :
    onlyRegsFrom n d (wr e r w) := by
  obtain ⟨⟨_, rfl⟩, hq⟩ := h
  exact ⟨⟨_, rfl⟩, fun q hlt => (rd_wr_other _ _ (by omega)).trans (hq q hlt)⟩

/-- The ages that Keystone shows stand in registers from KST_REF_STATUS on. -/
theorem keystoneAges_spec (d : Dev) : onlyRegsFrom KST_REF_STATUS.ofs d (keystoneAges d) := by
  have hage : ∀ (e : Dev) (x : Line), onlyRegsFrom KST_REF_STATUS.ofs d e → onlyRegsFrom KST_REF_STATUS.ofs d
      (match (e.kst.dom.get x).acceptedAt with
        | some t => setFld e (KST_DOM_x_STATUS_AGE_MS x.ix) (min ((e.elapsed - t) / ticksPerMs) 0xFFFF)
        | none => e) := by
    intro e x h
    split
    · exact onlyRegsFrom_wr h _ (by simp only; omega)
    · exact h
  have hhold : ∀ e : Dev, onlyRegsFrom KST_REF_STATUS.ofs d e → onlyRegsFrom KST_REF_STATUS.ofs d
      (match e.kst.holdFrom with
        | some t => wrn e KST_HOLD_SEC (min ((e.elapsed - t) / ticksPerSec) 0xFFFFFFFF)
        | none => e) := by
    intro e h
    split
    · exact onlyRegsFrom_wr h _ (by decide)
    · exact h
  have h := hhold _ (hage _ .b (hage _ .a (onlyRegsFrom_refl _ d)))
  unfold keystoneAges
  simp only
  split
  · exact onlyRegsFrom_wr h _ (by decide)
  · exact h

/-- A capture takes its four registers and clears its mark. -/
theorem takeCapture_spec (d : Dev) : ∃ r, takeCapture d = { d with regs := r, kst := { d.kst with capture := false } } := ⟨_, rfl⟩

/-- What a tick has made of Keystone before a waiting capture is taken. -/
def tickShown (d : Dev) : Dev :=
  keystoneAges (wrPair (reachSecond (advance d) d.clock.sec.toNat) KST_FREQ_LO KST_FREQ_HI (appliedWord d))

theorem keystoneTick_eq (d : Dev) : keystoneTick d = if (tickShown d).kst.capture then takeCapture (tickShown d) else tickShown d := rfl

theorem reachSecond_spec (d : Dev) (s0 : Nat) : ∃ m, reachSecond d s0 = { d with secDue := m } := by
  unfold reachSecond
  split
  · exact ⟨d.secDue, rfl⟩
  · exact ⟨_, rfl⟩

theorem wrPair_regs (d : Dev) (lo hi : Reg) (n : Nat) : ∃ r, wrPair d lo hi n = { d with regs := r } := ⟨_, rfl⟩

/-- A tick advances device time, elapsed time, the slewer's residual, the added phase and REF25's healthy time; the rest of it shows in
registers and second boundaries. -/
theorem tickShown_spec (d : Dev) : ∃ m r, tickShown d = { advance d with secDue := m, regs := r } := by
  obtain ⟨m, hm⟩ := reachSecond_spec (advance d) d.clock.sec.toNat
  obtain ⟨r, hr⟩ := wrPair_regs { advance d with secDue := m } KST_FREQ_LO KST_FREQ_HI (appliedWord d)
  obtain ⟨⟨r', e⟩, _⟩ := keystoneAges_spec { advance d with secDue := m, regs := r }
  exact ⟨m, r', by rw [tickShown, hm, hr, e]⟩

theorem keystoneTick_spec (d : Dev) : ∃ m r c, keystoneTick d
    = { advance d with secDue := m, regs := r, kst := { (advance d).kst with capture := c } } := by
  obtain ⟨m, r, e⟩ := tickShown_spec d
  rw [keystoneTick_eq]
  split
  · obtain ⟨r', e'⟩ := takeCapture_spec (tickShown d)
    exact ⟨m, r', false, by rw [e', e]⟩
  · exact ⟨m, r, (advance d).kst.capture, by rw [e]⟩

/-- KST_FREQ shows the word that was added. -/
theorem rdPair_tickShown (d : Dev) : rdPair (tickShown d) KST_FREQ_LO KST_FREQ_HI = appliedWord d % 2 ^ 64 := by
  obtain ⟨_, hq⟩ := keystoneAges_spec (wrPair (reachSecond (advance d) d.clock.sec.toNat) KST_FREQ_LO KST_FREQ_HI (appliedWord d))
  rw [tickShown, rdPair, rdn, rdn, hq _ (by decide), hq _ (by decide), ← rdn, ← rdn, wrPair, rdn_wrn_same,
    rdn_wrn_other _ _ (by decide), rdn_wrn_same]
  omega

theorem rd_takeCapture_other (d : Dev) {q : Reg} (h : KST_SNAP_FRAC.ofs < q.ofs) : rd (takeCapture d) q = rd d q := by
  show rd (wrn (wrn (wrn (wrn d _ _) _ _) _ _) _ _) q = _
  rw [rd_wrn_other _ _ (by simp only at h ⊢; omega), rd_wrn_other _ _ (by simp only at h ⊢; omega),
    rd_wrn_other _ _ (by simp only at h ⊢; omega), rd_wrn_other _ _ (by simp only at h ⊢; omega)]

theorem rdPair_keystoneTick (d : Dev) : rdPair (keystoneTick d) KST_FREQ_LO KST_FREQ_HI = appliedWord d % 2 ^ 64 := by
  rw [keystoneTick_eq, ← rdPair_tickShown]
  split
  · rw [rdPair, rdn, rdn, rd_takeCapture_other _ (by decide), rd_takeCapture_other _ (by decide)]
    rfl
  · rfl

/-! ### Device time takes a word (R40) -/

/-- A word of 54 bits is added with carry, and the seconds wrap at 48 bits. -/
theorem units_tick (c : Clock) {w : Nat} (hw : w < 2 ^ 54) :
    (c.tick w).units = (c.units + w) % (2 ^ 48 * 1000000000 * 2 ^ 48) := by
  obtain ⟨sec, ⟨ns, hns⟩, frac⟩ := c
  have hs := sec.isLt
  have hf := frac.isLt
  unfold Clock.tick Clock.units Clock.nsTotal
  simp only [BitVec.toNat_ofNat]
  split
  · omega
  · rw [BitVec.toNat_add, show (1 : BitVec 48).toNat = 1 from rfl]
    omega

/-! ### The obligations -/

theorem exec_tick (s : State) : exec .tick s = onAll tick s := rfl

/-- Settles O15: the step lies between 0 and the residual, and within the limit, and the tick takes just the step from the residual. -/
theorem slewNeverPassesItsLimit : Obligations.SlewNeverPassesItsLimit := by
  intro d
  obtain ⟨hpos, hneg⟩ := slewStep_between d
  have hb : (keystoneTick d).kst.b = d.kst.b - slewStep d := by
    obtain ⟨m, r, c, e⟩ := keystoneTick_spec d
    rw [e]
    rfl
  exact ⟨slewStep_natAbs_le d, hb, by omega, by omega, by omega, by omega⟩

/-- Settles O14: a tick is the evaluation that is still to be made and Keystone's tick, which advances by the applied word. -/
theorem tickAddsFrequencyWord : Obligations.TickAddsFrequencyWord := by
  refine ⟨?_, ?_, fun c w hw => units_tick c hw, ?_⟩
  · intro s h
    rw [exec_tick, onAll, tick, if_pos h]
  · intro d
    obtain ⟨m, r, c, e⟩ := keystoneTick_spec d
    refine ⟨fun h => if_pos h, ?_, ?_, rdPair_keystoneTick d, appliedWord_eq d⟩
    · rw [nextTick, e]
      rfl
    · rw [nextTick, e]
      rfl
  · intro s h
    rw [exec_tick]
    exact onAll_eq (if_neg (by simp [h]))

end Sys2Proof.Machine
end

section
/-!
PROOFS. The capture of device time, the exchange of the TDCs, the comparison window and the references (R42, R46, R62, R63, R467).
-/

namespace Sys2Proof.Machine

/-! ### The capture (R42) -/

theorem exec_timeCapture (m : Master) (value : Word) (s : State) :
    exec (.timeCapture m value) s = .next (s.withDev (timeCapture m value s.dev)) := rfl

theorem exec_tdcExchange (counts : List Nat) (s : State) :
    exec (.tdcExchange counts) s = .next (s.withDev (tdcExchange counts s.dev)) := rfl

theorem takeCapture_regs (d : Dev) : (takeCapture d).regs
    = (wrn (wrn (wrn (wrn d KST_SNAP_SEC_HI (d.clock.sec.toNat / 0x100000000)) KST_SNAP_SEC_LO d.clock.sec.toNat)
        KST_SNAP_NS d.clock.ns.val) KST_SNAP_FRAC d.clock.frac16).regs := rfl

theorem rdn_congr {d e : Dev} (h : e.regs = d.regs) (q : Reg) : rdn e q = rdn d q := by rw [rdn, rd, h, rdn, rd]

theorem frac16_lt (c : Clock) : c.frac16 < 2 ^ 16 := by
  have := c.frac48.isLt
  unfold Clock.frac16
  omega

/-- The snapshot shows device time. -/
theorem rdn_takeCapture (d : Dev) : rdn (takeCapture d) KST_SNAP_SEC_HI = d.clock.sec.toNat / 0x100000000
    ∧ rdn (takeCapture d) KST_SNAP_SEC_LO = d.clock.sec.toNat % 0x100000000
    ∧ rdn (takeCapture d) KST_SNAP_NS = d.clock.ns.val ∧ rdn (takeCapture d) KST_SNAP_FRAC = d.clock.frac16 := by
  have hs := d.clock.sec.isLt
  have hn := d.clock.ns.isLt
  have hf := frac16_lt d.clock
  simp only [rdn_congr (takeCapture_regs d)]
  refine ⟨?_, ?_, ?_, ?_⟩
  · rw [rdn_wrn_other _ _ (by decide), rdn_wrn_other _ _ (by decide), rdn_wrn_other _ _ (by decide), rdn_wrn_same]
    omega
  · rw [rdn_wrn_other _ _ (by decide), rdn_wrn_other _ _ (by decide), rdn_wrn_same]
    norm_num
  · rw [rdn_wrn_other _ _ (by decide), rdn_wrn_same]
    omega
  · rw [rdn_wrn_same]
    omega

/-! ### The exchange of the TDCs (R46) -/

/-- In a loop that takes k once, what the other turns keep before and after is what k's turn makes of it. -/
theorem forEach_once {α : Type} {P Q : Dev → Prop} {f : Dev → α → Dev} {k : α} (hP : ∀ d a, a ≠ k → P d → P (f d a))
    (hk : ∀ d, P d → Q (f d k)) (hQ : ∀ d a, a ≠ k → Q d → Q (f d a)) {l : List α} (hl : l.Nodup)
    (hmem : k ∈ l) {d : Dev} (h : P d) : Q (forEach l f d) := by
  induction l generalizing d with
  | nil => cases hmem
  | cons a t ih =>
    obtain ⟨ha, ht⟩ := List.nodup_cons.mp hl
    by_cases hak : a = k
    · subst hak
      have hrest : ∀ (t : List α) (e : Dev), a ∉ t → Q e → Q (forEach t f e) := by
        intro t
        induction t with
        | nil => exact fun _ _ he => he
        | cons b t ih' =>
          intro e hb he
          obtain ⟨hba, hbt⟩ := not_or.mp (fun h => hb (List.mem_cons.mpr h))
          exact ih' _ hbt (hQ e b (Ne.symm hba) he)
      exact hrest t _ ha (hk d h)
    · exact ih ht ((List.mem_cons.mp hmem).resolve_left (Ne.symm hak)) (hP d a hak h)

/-- One TDC judges the count of its spare line. -/
def judgeTdc (counts : List Nat) (d : Dev) (t : Nat) : Dev :=
  let n := counts.getD t 0
  if 256 ≤ n ∧ n ≤ 400 then
    let d := setFld (setFlag d (KST_TDC_CAL_FAULT t) false) (KST_TDC_CAL_SPAN t) n
    setFlag d (KST_TDC_CAL_LIVE t) (!flag d (KST_TDC_CAL_LIVE t))
  else raiseKst (setFlag d (KST_TDC_CAL_FAULT t) true) alTdcCalFail

theorem tdcExchange_of_mark {counts : List Nat} {d : Dev} (h : secMark d secExchange ≠ none) :
    tdcExchange counts d = forEach (List.range 71) (judgeTdc counts) (clearMark d secExchange) := if_neg h

/-- A TDC writes its own calibration register alone. -/
theorem rd_judgeTdc_other (counts : List Nat) (d : Dev) {t k : Nat} (hk : k < 71) (h : t ≠ k) :
    rd (judgeTdc counts d t) (KST_TDC_CAL k) = rd d (KST_TDC_CAL k) := by
  have hr : (KST_TDC_CAL k).ofs ≠ (KST_TDC_CAL t).ofs := by simp only; omega
  unfold judgeTdc
  simp only
  split
  · rw [rd_setFlag_other _ _ hr, rd_setFld_other _ _ hr, rd_setFlag_other _ _ hr]
  · rw [rd_raiseKst_other _ _ (by simp only; omega) (by simp only; omega) (by simp only; omega), rd_setFlag_other _ _ hr]

/-- A count in range becomes the span, clears FAULT and exchanges the live line. -/
theorem judgeTdc_good {counts : List Nat} (d : Dev) {k : Nat} (h : 256 ≤ counts.getD k 0 ∧ counts.getD k 0 ≤ 400) :
    fld (judgeTdc counts d k) (KST_TDC_CAL_SPAN k) = counts.getD k 0 ∧ flag (judgeTdc counts d k) (KST_TDC_CAL_FAULT k) = false
      ∧ flag (judgeTdc counts d k) (KST_TDC_CAL_LIVE k) = !flag d (KST_TDC_CAL_LIVE k) := by
  simp only [judgeTdc, if_pos h]
  refine ⟨?_, ?_, ?_⟩
  · rw [fld_setFlag_apart _ _ (by simp [apart]), fld_setFld_same _ _ (by simp) (by simp)]
    exact Nat.mod_eq_of_lt (by simp only; omega)
  · rw [flag_setFlag_apart _ _ (by simp [apart]), flag_setFld_apart _ _ (by simp [apart]),
      flag_setFlag_same _ _ (by simp) (by simp)]
  · rw [flag_setFlag_same _ _ (by simp) (by simp), flag_setFld_apart _ _ (by simp [apart]),
      flag_setFlag_apart _ _ (by simp [apart])]

/-- Any other count sets FAULT and leaves the span and the live line. -/
theorem judgeTdc_bad {counts : List Nat} (d : Dev) {k : Nat} (hk : k < 71) (h : ¬ (256 ≤ counts.getD k 0 ∧ counts.getD k 0 ≤ 400)) :
    fld (judgeTdc counts d k) (KST_TDC_CAL_SPAN k) = fld d (KST_TDC_CAL_SPAN k) ∧ flag (judgeTdc counts d k) (KST_TDC_CAL_FAULT k) = true
      ∧ flag (judgeTdc counts d k) (KST_TDC_CAL_LIVE k) = flag d (KST_TDC_CAL_LIVE k) := by
  have hrd : rd (judgeTdc counts d k) (KST_TDC_CAL k) = rd (setFlag d (KST_TDC_CAL_FAULT k) true) (KST_TDC_CAL k) := by
    simp only [judgeTdc, if_neg h]
    exact rd_raiseKst_other _ _ (by simp only; omega) (by simp only; omega) (by simp only; omega)
  refine ⟨?_, ?_, ?_⟩
  · rw [fld_congr (KST_TDC_CAL_SPAN k) hrd, fld_setFlag_apart _ _ (by simp [apart])]
  · rw [flag_congr (KST_TDC_CAL_FAULT k) hrd, flag_setFlag_same _ _ (by simp) (by simp)]
  · rw [flag_congr (KST_TDC_CAL_LIVE k) hrd, flag_setFlag_apart _ _ (by simp [apart])]

/-- What a TDC's own judgement makes of its register as it stood, the exchange makes of it. -/
theorem tdcExchange_reaches {counts : List Nat} {d : Dev} {k : Nat} (hk : k < 71) (hm : secMark d secExchange ≠ none) :
    ∃ e, rd e (KST_TDC_CAL k) = rd d (KST_TDC_CAL k)
      ∧ rd (tdcExchange counts d) (KST_TDC_CAL k) = rd (judgeTdc counts e k) (KST_TDC_CAL k) := by
  rw [tdcExchange_of_mark hm]
  exact forEach_once (P := fun e => rd e (KST_TDC_CAL k) = rd d (KST_TDC_CAL k))
    (Q := fun t => ∃ e, rd e (KST_TDC_CAL k) = rd d (KST_TDC_CAL k) ∧ rd t (KST_TDC_CAL k) = rd (judgeTdc counts e k) (KST_TDC_CAL k))
    (fun e a ha he => (rd_judgeTdc_other counts e hk ha).trans he) (fun e he => ⟨e, he, rfl⟩)
    (fun t a ha ⟨e, he, ht⟩ => ⟨e, he, (rd_judgeTdc_other counts t hk ha).trans ht⟩)
    List.nodup_range (List.mem_range.mpr hk) rfl

/-- Settles O16: the capture takes four registers, and at the exchange every TDC judges its own register. -/
theorem captureAndCalibration : Obligations.CaptureAndCalibration := by
  refine ⟨?_, fun d => ⟨rfl, rdn_takeCapture d⟩, ?_, ?_⟩
  · intro m value s ha
    rw [exec_timeCapture, timeCapture, guarded_admits _ ha]
    split <;> rfl
  · intro counts s h
    rw [exec_tdcExchange, tdcExchange, if_pos h, withDev_self]
  · intro counts s h
    refine ⟨_, exec_tdcExchange counts s, rfl, fun k hk => ?_⟩
    obtain ⟨e, he, ht⟩ := tdcExchange_reaches (counts := counts) hk h
    simp only [State.withDev, fld_congr (KST_TDC_CAL_SPAN k) ht, flag_congr (KST_TDC_CAL_FAULT k) ht,
      flag_congr (KST_TDC_CAL_LIVE k) ht, ← fld_congr (KST_TDC_CAL_SPAN k) he, ← flag_congr (KST_TDC_CAL_LIVE k) he]
    exact ⟨fun h1 h2 => judgeTdc_good e ⟨h1, h2⟩, fun h => judgeTdc_bad e hk (by omega)⟩

/-! ### The comparison window (R467) -/

theorem exec_comparisonWindowEnd (ok25 ok25b : Bool) (ratio : Word) (phase : Nat) (s : State) :
    exec (.comparisonWindowEnd ok25 ok25b ratio phase) s = .next (s.withDev (comparisonWindowEnd ok25 ok25b ratio phase s.dev)) := rfl

/-- The registers with the measurements and the verdicts of a window. -/
def windowShown (ok25 ok25b : Bool) (ratio : Word) (phase : Nat) (d : Dev) : Dev :=
  setFlag (setFlag (wrn (wr d KST_REF_RATIO ratio) KST_REF_PHASE (phase % 40000)) KST_REF_STATUS_REF25_OK ok25)
    KST_REF_STATUS_REF25B_OK ok25b

theorem windowShown_spec (ok25 ok25b : Bool) (ratio : Word) {phase : Nat} (h : phase < 40000) (d : Dev) :
    flag (windowShown ok25 ok25b ratio phase d) KST_REF_STATUS_REF25_OK = ok25
      ∧ flag (windowShown ok25 ok25b ratio phase d) KST_REF_STATUS_REF25B_OK = ok25b
      ∧ rd (windowShown ok25 ok25b ratio phase d) KST_REF_RATIO = ratio
      ∧ rdn (windowShown ok25 ok25b ratio phase d) KST_REF_PHASE = phase
      ∧ sameRegsBut [KST_REF_RATIO.ofs, KST_REF_PHASE.ofs, KST_REF_STATUS.ofs] d (windowShown ok25 ok25b ratio phase d) := by
  unfold windowShown
  refine ⟨?_, flag_setFlag_same _ _ (by decide) (by decide), ?_, ?_, fun q hq => ?_⟩
  · rw [flag_setFlag_apart _ _ (by simp [apart]), flag_setFlag_same _ _ (by decide) (by decide)]
  · rw [rd_setFlag_other _ _ (by decide), rd_setFlag_other _ _ (by decide), rd_wrn_other _ _ (by decide), rd_wr_same]
  · rw [rdn, rd_setFlag_other _ _ (by decide), rd_setFlag_other _ _ (by decide), ← rdn, rdn_wrn_same]
    omega
  · simp only [List.mem_cons, List.not_mem_nil, or_false, not_or] at hq
    obtain ⟨hratio, hphase, hstatus⟩ := hq
    rw [rd_setFlag_other _ _ hstatus, rd_setFlag_other _ _ hstatus, rd_wrn_other _ _ hphase, rd_wr_other _ _ hratio]

/-- A window that finds REF25 within its limits shows its verdicts, and REF25's healthy time starts where it was not OK. -/
theorem comparisonWindowEnd_ok (ok25b : Bool) (ratio : Word) (phase : Nat) (d : Dev) : comparisonWindowEnd true ok25b ratio phase d
    = if flag d KST_REF_STATUS_REF25_OK then windowShown true ok25b ratio phase d
      else { windowShown true ok25b ratio phase d with kst := { d.kst with refGood := some 0 } } := by
  have hwas : flag (wrn (wr d KST_REF_RATIO ratio) KST_REF_PHASE (phase % 40000)) KST_REF_STATUS_REF25_OK
      = flag d KST_REF_STATUS_REF25_OK :=
    flag_congr KST_REF_STATUS_REF25_OK ((rd_wrn_other _ _ (by decide)).trans (rd_wr_other _ _ (by decide)))
  simp only [comparisonWindowEnd, hwas, if_true]
  rfl

/-- A window that does not find REF25 within its limits shows its verdicts and returns REF25's healthy time to 0. -/
theorem comparisonWindowEnd_failed (ok25b : Bool) (ratio : Word) (phase : Nat) (d : Dev) : comparisonWindowEnd false ok25b ratio phase d
    = setFld { windowShown false ok25b ratio phase d with kst := { d.kst with refGood := none } } KST_REF_STATUS_REF25_GOOD_SEC 0 := rfl

/-- Settles O20: by the verdict on REF25; its healthy time is a field of the status word apart from the verdicts. -/
theorem comparisonWindow : Obligations.ComparisonWindow := by
  intro ok25 ok25b ratio phase s hphase
  obtain ⟨h25, h25b, hratio, hph, hsame⟩ := windowShown_spec ok25 ok25b ratio hphase s.dev
  refine ⟨_, exec_comparisonWindowEnd ok25 ok25b ratio phase s, rfl, ?_⟩
  simp only [State.withDev]
  cases ok25 with
  | true =>
    rw [comparisonWindowEnd_ok]
    generalize windowShown true ok25b ratio phase s.dev = w at *
    split
    · next hwas => exact ⟨h25, h25b, hratio, hph, by simp [hwas], by simp, hsame⟩
    · exact ⟨h25, h25b, hratio, hph, fun _ _ => rfl, by simp, hsame⟩
  | false =>
    rw [comparisonWindowEnd_failed]
    generalize windowShown false ok25b ratio phase s.dev = w at *
    refine ⟨?_, ?_, ?_, ?_, by simp, fun _ => ⟨rfl, fld_setFld_same _ _ (by decide) (by decide)⟩, fun q hq => ?_⟩
    · rw [flag_setFld_apart _ _ (by simp [apart])]
      exact h25
    · rw [flag_setFld_apart _ _ (by simp [apart])]
      exact h25b
    · rw [rd_setFld_other _ _ (by decide)]
      exact hratio
    · rw [rdn, rd_setFld_other _ _ (by decide)]
      exact hph
    · have hstatus : q.ofs ≠ KST_REF_STATUS.ofs := fun h => hq (by simp [h])
      rw [rd_setFld_other _ _ hstatus]
      exact hsame q hq

/-! ### The references (R62, R63) -/

theorem exec_refFail (periods : Nat) (s : State) : exec (.refFail periods) s = .next (s.withDev (refFail periods s.dev)) := rfl

theorem exec_ref25bFail (s : State) : exec .ref25bFail s = .next (s.withDev (ref25bFail s.dev)) := rfl

theorem exec_refStop (s : State) : exec .refStop s = .next (s.withDev (refStop s.dev)) := rfl

theorem exec_refReturn (ref : RefClock) (s : State) : exec (.refReturn ref) s = .next (s.withDev (refReturn ref s.dev)) := rfl

theorem exec_refFirstEdge (ref : RefClock) (s : State) :
    exec (.refFirstEdge ref) s = .next (s.withDev (refFirstEdge ref s.dev)) := rfl

theorem whenD_cases (c : Bool) (f : Dev → Dev) (d : Dev) : whenD c f d = d ∨ whenD c f d = f d := by
  unfold whenD
  split
  · exact .inr rfl
  · exact .inl rfl

/-- A new correction and integral take Keystone's state and KST_INTEG; a clamp raises an alarm. -/
theorem setServo_cases (d : Dev) (c i : Int) : ∃ c' i' n,
    setServo d c i = wrn { d with kst := { d.kst with c := c', i := i' } } KST_INTEG n
      ∨ setServo d c i = raiseKst (wrn { d with kst := { d.kst with c := c', i := i' } } KST_INTEG n) alFreqClamp :=
  ⟨_, _, _, whenD_cases _ (fun e => raiseKst e alFreqClamp) _⟩

/-- A new correction and integral leave elapsed time and the status word. -/
theorem setServo_spec (d : Dev) (c i : Int) : (setServo d c i).elapsed = d.elapsed
    ∧ rd (setServo d c i) KST_STATUS = rd d KST_STATUS := by
  obtain ⟨c', i', n, e | e⟩ := setServo_cases d c i
  · rw [e]
    exact ⟨rfl, rd_wrn_other _ _ (by decide)⟩
  · rw [e]
    exact ⟨raiseKst_elapsed _ _, (rd_raiseKst_other _ _ (by decide) (by decide) (by decide)).trans (rd_wrn_other _ _ (by decide))⟩

theorem scaleBy_spec (d : Dev) (num den : Nat) : (scaleBy d num den).elapsed = d.elapsed
    ∧ rd (scaleBy d num den) KST_STATUS = rd d KST_STATUS := setServo_spec _ _ _

theorem advanceBy_spec (n : Nat) (d : Dev) : (advanceBy n d).elapsed = d.elapsed + n ∧ (advanceBy n d).regs = d.regs := by
  induction n generalizing d with
  | zero => exact ⟨rfl, rfl⟩
  | succ n ih =>
    obtain ⟨he, hr⟩ := ih (advance d)
    exact ⟨he.trans (by rw [show (advance d).elapsed = d.elapsed + 1 from rfl]; omega), hr⟩

/-- Device time on REF25B before the change shows: scaled, brought up by the periods that went by and by the measured phase. -/
def refCarried (periods : Nat) (d : Dev) : Dev :=
  let e := advanceBy periods (scaleBy d 256000000000 (refRatio d))
  reachSecond { e with clock := e.clock.move (refPhaseUnits d), kst := { e.kst with refGood := none } } d.clock.sec.toNat

theorem refCarried_spec (periods : Nat) (d : Dev) : (refCarried periods d).elapsed = d.elapsed + periods
    ∧ rd (refCarried periods d) KST_STATUS = rd d KST_STATUS := by
  obtain ⟨he, hr⟩ := scaleBy_spec d 256000000000 (refRatio d)
  obtain ⟨he', hr'⟩ := advanceBy_spec periods (scaleBy d 256000000000 (refRatio d))
  unfold refCarried
  simp only
  obtain ⟨m, hm⟩ := reachSecond_spec { advanceBy periods (scaleBy d 256000000000 (refRatio d)) with
    clock := (advanceBy periods (scaleBy d 256000000000 (refRatio d))).clock.move (refPhaseUnits d)
    kst := { (advanceBy periods (scaleBy d 256000000000 (refRatio d))).kst with refGood := none } } d.clock.sec.toNat
  rw [hm]
  refine ⟨?_, ?_⟩
  · simp only [he', he]
  · simp only [rd, hr'] at hr ⊢
    exact hr

theorem refFail_of_ref25 {periods : Nat} {d : Dev} (h : d.kst.refsRunning = true) (hs : flag d KST_STATUS_REF_SEL = false) :
    refFail periods d = raiseKst (setFld (setFlag (setFld (setFlag (refCarried periods d) KST_STATUS_REF_SEL true) KST_STATUS_HOLD_QUAL 1)
      KST_REF_STATUS_REF25_OK false) KST_REF_STATUS_REF25_GOOD_SEC 0) alRefFail := by
  simp only [refFail, h, hs, refCarried, Bool.not_false, Bool.and_true, if_true]

/-- The change to REF25B shows REF_SEL and HOLD_QUAL, and leaves the servo's state. -/
theorem refFail_shows {periods : Nat} {d : Dev} (h : d.kst.refsRunning = true) (hs : flag d KST_STATUS_REF_SEL = false) :
    flag (refFail periods d) KST_STATUS_REF_SEL = true ∧ fld (refFail periods d) KST_STATUS_HOLD_QUAL = 1
      ∧ servo (refFail periods d) = servo d ∧ regBit (refFail periods d) KST_ALARM alRefFail = true
      ∧ (refFail periods d).elapsed = d.elapsed + periods := by
  obtain ⟨he, hst⟩ := refCarried_spec periods d
  rw [refFail_of_ref25 h hs]
  have hrd : rd (raiseKst (setFld (setFlag (setFld (setFlag (refCarried periods d) KST_STATUS_REF_SEL true) KST_STATUS_HOLD_QUAL 1)
      KST_REF_STATUS_REF25_OK false) KST_REF_STATUS_REF25_GOOD_SEC 0) alRefFail) KST_STATUS
      = rd (setFld (setFlag (refCarried periods d) KST_STATUS_REF_SEL true) KST_STATUS_HOLD_QUAL 1) KST_STATUS := by
    rw [rd_raiseKst_other _ _ (by decide) (by decide) (by decide), rd_setFld_other _ _ (by decide), rd_setFlag_other _ _ (by decide)]
  refine ⟨?_, ?_, ?_, regBit_raiseKst_same _ (by decide), ?_⟩
  · rw [flag_congr KST_STATUS_REF_SEL hrd, flag_setFld_apart _ _ (by simp [apart]), flag_setFlag_same _ _ (by decide) (by decide)]
  · rw [fld_congr KST_STATUS_HOLD_QUAL hrd, fld_setFld_same _ _ (by decide) (by decide)]
    decide
  · rw [servo, fld_congr KST_STATUS_SERVO_STATE hrd, fld_setFld_apart _ _ (by simp [apart]), fld_setFlag_apart _ _ (by simp [apart]),
      fld_congr KST_STATUS_SERVO_STATE hst, servo]
  · rw [raiseKst_elapsed]
    exact he

/-- Outputs held idle leave device time. -/
theorem toutsIdle_clock (d : Dev) : (toutsIdle d).clock = d.clock := by
  unfold toutsIdle
  refine forEach_keeps (P := fun e => e.clock = d.clock) ?_ _ rfl
  intro e o he
  split
  · exact he
  · exact he

/-- What a stop leaves of Keystone, its status word shown. -/
def stoppedShown (d : Dev) : Dev :=
  setFld (setFld { toutsIdle d with kst := { (toutsIdle d).kst with
    refsRunning := false, acqDom := none, suspended := false, exitDom := none, forced := false
    iHist := [], refGood := none, holdFrom := none } } KST_STATUS_SERVO_STATE servoFree) KST_STATUS_HOLD_QUAL 2

theorem refStop_eq (d : Dev) : refStop d = raiseKst (dropTimer (setFld (setFlag (setFlag (stoppedShown d) KST_REF_STATUS_REF25_OK false)
    KST_REF_STATUS_REF25B_OK false) KST_REF_STATUS_REF25_GOOD_SEC 0) .prop) alRefStop := rfl

/-- A stop shows FREE and STOPPED and its alarm, and leaves device time where it is. -/
theorem refStop_shows (d : Dev) : (refStop d).kst.refsRunning = false ∧ servo (refStop d) = servoFree
    ∧ fld (refStop d) KST_STATUS_HOLD_QUAL = 2 ∧ regBit (refStop d) KST_ALARM alRefStop = true ∧ (refStop d).clock = d.clock := by
  rw [refStop_eq]
  have hrd : rd (raiseKst (dropTimer (setFld (setFlag (setFlag (stoppedShown d) KST_REF_STATUS_REF25_OK false)
      KST_REF_STATUS_REF25B_OK false) KST_REF_STATUS_REF25_GOOD_SEC 0) .prop) alRefStop) KST_STATUS = rd (stoppedShown d) KST_STATUS := by
    rw [rd_raiseKst_other _ _ (by decide) (by decide) (by decide), rd, dropTimer_regs, ← rd, rd_setFld_other _ _ (by decide),
      rd_setFlag_other _ _ (by decide), rd_setFlag_other _ _ (by decide)]
  refine ⟨?_, ?_, ?_, regBit_raiseKst_same _ (by decide), ?_⟩
  · rw [raiseKst_kst]
    rfl
  · rw [servo, fld_congr KST_STATUS_SERVO_STATE hrd, stoppedShown, fld_setFld_apart _ _ (by simp [apart]),
      fld_setFld_same _ _ (by decide) (by decide)]
    decide
  · rw [fld_congr KST_STATUS_HOLD_QUAL hrd, stoppedShown, fld_setFld_same _ _ (by decide) (by decide)]
    decide
  · simp only [raiseKst_clock, dropTimer_clock, setFld_clock, setFlag_clock, stoppedShown, toutsIdle_clock]

/-- Settles O19: the change to REF25B, the stop and the return each have their lemma; the first edge is a return in boot phase 0. -/
theorem referencesFailAndReturn : Obligations.ReferencesFailAndReturn := by
  intro s periods ref
  refine ⟨fun h hs => ⟨⟨_, exec_refFail periods s, refFail_shows h hs⟩, ?_⟩, ⟨_, exec_refStop s, refStop_shows s.dev⟩,
    fun h => ?_, fun h => ?_⟩
  · rw [exec_ref25bFail, ref25bFail, h, hs]
    rfl
  · refine ⟨exec_refReturn ref s, fun hp => ?_⟩
    rw [exec_refFirstEdge, refFirstEdge, if_pos ⟨hp, by simp [h]⟩]
  · rw [exec_refReturn, refReturn, if_pos h, withDev_self]

end Sys2Proof.Machine
end

section
/-!
PROOFS. Offsets that wait, the domains' timers, the servo's and the slewer's ends, and the age of a holdover (R48 to R51, R55, R57).
-/

namespace Sys2Proof.Machine

/-! ### What the end of a commit leaves of Keystone -/

theorem whenD_kst (c : Bool) {f : Dev → Dev} (h : ∀ e, (f e).kst = e.kst) (d : Dev) : (whenD c f d).kst = d.kst := by
  rcases whenD_cases c f d with e | e
  · rw [e]
  · rw [e, h]

theorem raiseFn_kst (d : Dev) (f b : Nat) : (raiseFn d f b).kst = d.kst := by
  obtain ⟨r, p, o, e⟩ := raiseFn_regs d f b
  rw [e]

theorem raiseEvt_kst (d : Dev) (u : EvtUnit) (b : Nat) : (raiseEvt d u b).kst = d.kst := by
  obtain ⟨r, p, o, e⟩ := raiseEvt_spec d u b
  rw [e]

theorem raisePoster_kst (d : Dev) (p b : Nat) : (raisePoster d p b).kst = d.kst := by
  unfold raisePoster
  split
  · exact raiseFn_kst _ _ _
  · rfl

theorem recordOutcome_kst (d : Dev) (id poster units outcome unitBit : Nat) (notify : Bool) :
    (recordOutcome d id poster units outcome unitBit notify).kst = d.kst := by
  have hcount : ∀ (r : Reg) (e : Dev), (count e r).kst = e.kst := fun _ _ => rfl
  have hset : ∀ e : Dev, (setFld e (TCM_POST_RESULT_OUTCOME poster) outcome).kst = e.kst := fun _ => rfl
  unfold recordOutcome
  simp only
  split
  · rw [whenD_kst _ (fun e => raisePoster_kst e poster evCommitDone), whenD_kst _ hset, whenD_kst _ (hcount _), whenD_kst _ (hcount _),
      whenD_kst _ (hcount _), wrn_kst]
  · rw [raisePoster_kst, whenD_kst _ hset, whenD_kst _ (hcount _), whenD_kst _ (hcount _), whenD_kst _ (hcount _), wrn_kst]

theorem syncPend_kst (d : Dev) : (syncPend d).kst = d.kst := by
  rw [syncPend, wrn_kst, wrn_kst]

theorem finishCommit_kst (d : Dev) (c : Commit) (outcome unitBit : Nat) : (finishCommit d c outcome unitBit).kst = d.kst := by
  rw [finishCommit, recordOutcome_kst, syncPend_kst]

/-! ### Offsets that wait (R47) -/

/-- The offsets that wait for the two domains. -/
def delivered (k : Keystone) (x : Line) : Option Offset := (k.dom.get x).waiting

/-- A change of what Keystone holds for a domain leaves the offset that waits, where it says nothing of it. -/
theorem delivered_setDomain (d : Dev) (x : Line) {f : Domain → Domain} (h : ∀ m, (f m).waiting = m.waiting := by exact fun _ => rfl) :
    delivered (setDomain d x f).kst = delivered d.kst := by
  funext y
  cases x with
  | a =>
    cases y with
    | a => exact h _
    | b => rfl
  | b =>
    cases y with
    | a => rfl
    | b => exact h _

theorem stepCommits_kst (d : Dev) (x : Int) (t0 t1 : Nat) : (stepCommits d x t0 t1).kst = d.kst := by
  unfold stepCommits
  split
  · rfl
  split
  · rfl
  · exact forEach_keeps (P := fun e => e.kst = d.kst) (fun e c he => (finishCommit_kst e c _ _).trans he) _ rfl

theorem toutsPassed_kst (d : Dev) (t0 t1 : Nat) : (toutsPassed d t0 t1).kst = d.kst := by
  unfold toutsPassed
  refine forEach_keeps (P := fun e => e.kst = d.kst) (fun e o he => ?_) _ rfl
  simp only
  split
  · exact (raiseEvt_kst _ _ _).trans he
  · exact he

/-- Device time has been moved by a step, and Keystone's phase and record of steps with it. -/
def stepMoved (d : Dev) (x : Int) : Dev :=
  { d with
    clock := d.clock.move x
    kst := { d.kst with phase := d.kst.phase + x, steps := d.kst.steps + 1, stepTick := some d.elapsed } }

/-- The second boundary that a step has passed over is marked. -/
def stepMarked (s0 : Nat) (d : Dev) : Dev := if s0 < d.clock.sec.toNat then markSecond d s0 true else d

theorem stepMarked_kst (s0 : Nat) (d : Dev) : (stepMarked s0 d).kst = d.kst := by
  unfold stepMarked
  split <;> rfl

/-- After the move a step writes its record, raises STEP, marks a boundary, and handles windows, outputs and commits. -/
theorem stepTime_eq (d : Dev) (x : Int) (cause : Nat) : ∃ sec info ns s0 h t0 t1, stepTime d x cause
    = stepCommits (toutsPassed { stepMarked s0 (raiseKst (wrn (wrn (wrn (stepMoved d x) KST_LAST_STEP_SEC sec) KST_LAST_STEP_INFO info)
        KST_LAST_STEP_NS ns) alStep) with host := h } t0 t1) x t0 t1 :=
  ⟨_, _, _, _, _, _, _, rfl⟩

/-- A step of device time changes Keystone's phase and its record of steps. -/
theorem stepTime_kst (d : Dev) (x : Int) (cause : Nat) : (stepTime d x cause).kst = (stepMoved d x).kst := by
  obtain ⟨sec, info, ns, s0, h, t0, t1, e⟩ := stepTime_eq d x cause
  rw [e, stepCommits_kst, toutsPassed_kst]
  exact (stepMarked_kst _ _).trans (by rw [raiseKst_kst, wrn_kst, wrn_kst, wrn_kst])

theorem delivered_stepTime (d : Dev) (x : Int) (cause : Nat) : delivered (stepTime d x cause).kst = delivered d.kst := by
  rw [stepTime_kst]
  rfl

theorem delivered_seamlessSwitch (d : Dev) (x : Line) (xPred : Int) : delivered (seamlessSwitch d x xPred).kst = delivered d.kst := by
  unfold seamlessSwitch
  simp only [raiseKst_kst]
  rfl

theorem delivered_setServo (d : Dev) (c i : Int) : delivered (setServo d c i).kst = delivered d.kst := by
  obtain ⟨c', i', n, e | e⟩ := setServo_cases d c i
  · rw [e]
    rfl
  · rw [e, raiseKst_kst]
    rfl

/-- A holdover begins: its seconds count from here and no domain is a candidate. -/
def holdBegun (d : Dev) : Dev :=
  { d with kst := { d.kst with
    holdFrom := some d.elapsed, holdAged := false
    dom := ⟨{ d.kst.dom.a with candidate := false, blocked := false }, { d.kst.dom.b with candidate := false, blocked := false }⟩ } }

theorem delivered_holdBegun (d : Dev) : delivered (holdBegun d).kst = delivered d.kst := by
  funext y
  cases y <;> rfl

theorem enterHoldover_eq (d : Dev) : ∃ c i, enterHoldover d
    = raiseKst (setFld (wrn (dropTimer (holdBegun (setServo (holdUtc d) c i)) .prop) KST_HOLD_SEC 0) KST_STATUS_SERVO_STATE servoHoldover)
        alHoldEnter :=
  ⟨_, _, rfl⟩

theorem holdUtc_kst (d : Dev) : (holdUtc d).kst = d.kst := by
  unfold holdUtc
  split <;> rfl

theorem delivered_enterHoldover (d : Dev) : delivered (enterHoldover d).kst = delivered d.kst := by
  obtain ⟨c, i, e⟩ := enterHoldover_eq d
  rw [e, raiseKst_kst, setFld_kst, wrn_kst, dropTimer_kst, delivered_holdBegun, delivered_setServo, holdUtc_kst]

theorem delivered_leaveHoldover (d : Dev) (x : Line) (b : Int) : delivered (leaveHoldover d x b).kst = delivered d.kst := by
  unfold leaveHoldover loadSlewer
  simp only
  rw [raiseKst_kst, setFlag_kst]
  funext y
  cases y <;> rfl

theorem delivered_testCandidate (d : Dev) (x : Line) : delivered (testCandidate d x).kst = delivered d.kst := by
  unfold testCandidate
  split
  · simp only
    split
    · exact delivered_leaveHoldover _ _ _
    split
    · rw [delivered_leaveHoldover, delivered_stepTime]
    split
    · rfl
    · rw [raiseKst_kst, delivered_setDomain]
  · rfl

theorem delivered_nominate (d : Dev) (x : Line) : delivered (nominate d x).kst = delivered d.kst := by
  rw [nominate, delivered_testCandidate, delivered_setDomain]

/-- Keystone has acquired x: device time has stepped by its reference offset, and TRACK begins with i and b at 0. -/
def acquired (d : Dev) (x : Line) : Dev :=
  let e := stepTime (setFld d KST_STATUS_SEL_DOM x.ix) (d.kst.dom.get x).xref causeAcquisition
  loadSlewer (setFld (wrn { e with kst := { e.kst with i := 0, iHist := [], acqDom := none } } KST_INTEG 0)
    KST_STATUS_SERVO_STATE servoTrack) 0

theorem delivered_acquired (d : Dev) (x : Line) : delivered (acquired d x).kst = delivered d.kst := by
  have he := delivered_stepTime (setFld d KST_STATUS_SEL_DOM x.ix) (d.kst.dom.get x).xref causeAcquisition
  rw [setFld_kst] at he
  rw [← he]
  rfl

theorem acquire_cases (d : Dev) (x : Line) : acquire d x = acquired d x ∨ acquire d x = d := ite_eq_or_eq _ _ _

theorem delivered_acquire (d : Dev) (x : Line) : delivered (acquire d x).kst = delivered d.kst := by
  rcases acquire_cases d x with e | e
  · rw [e, delivered_acquired]
  · rw [e]

theorem delivered_domainLeftGood (d : Dev) (x : Line) (p : Int) : delivered (domainLeftGood d x p).kst = delivered d.kst := by
  have hset : delivered (setDomain d x (fun m => { m with candidate := false, blocked := false })).kst = delivered d.kst :=
    delivered_setDomain _ _
  unfold domainLeftGood
  simp only
  split
  · split
    · rw [delivered_seamlessSwitch, hset]
    · rw [delivered_enterHoldover, hset]
  · exact hset

theorem delivered_changeDomain (d : Dev) (x : Line) (st : Nat) (p : Int) : delivered (changeDomain d x st p).kst = delivered d.kst := by
  unfold changeDomain
  simp only
  split
  · rw [delivered_domainLeftGood, setFld_kst]
  · rw [setFld_kst]

theorem delivered_domainGood (d : Dev) (x : Line) (o : Offset) : delivered (domainGood d x o).kst = delivered d.kst := by
  unfold domainGood
  simp only
  split
  · rw [delivered_nominate, setFld_kst, setFld_kst, setFld_kst, wrn_kst, delivered_setDomain]
  · rw [delivered_acquire, setFld_kst, setFld_kst, setFld_kst, wrn_kst, delivered_setDomain]

/-- The servo has taken values, its integral values are listed, and its proportional term holds for 128 ms. -/
def propStarted (d : Dev) (h : List Int) : Dev := startTimer { d with kst := { d.kst with iHist := h } } .prop ticks128ms

theorem delivered_propStarted (d : Dev) (h : List Int) : delivered (propStarted d h).kst = delivered d.kst := rfl

theorem servoUpdate_eq (d : Dev) (x : Int) : ∃ c i h, servoUpdate d x = propStarted (setServo d c i) h := ⟨_, _, _, rfl⟩

theorem delivered_servoUpdate (d : Dev) (x : Int) : delivered (servoUpdate d x).kst = delivered d.kst := by
  obtain ⟨c, i, h, e⟩ := servoUpdate_eq d x
  rw [e, delivered_propStarted, delivered_setServo]

theorem delivered_acceptOffset (d : Dev) (x : Line) (o : Offset) : delivered (acceptOffset d x o).kst = delivered d.kst := by
  unfold acceptOffset
  simp only
  split
  · rw [delivered_servoUpdate, count_kst, setFld_kst, setFld_kst, wrn_kst, delivered_setDomain]
  · rw [delivered_testCandidate, count_kst, setFld_kst, setFld_kst, wrn_kst, delivered_setDomain]

theorem delivered_refuseOffset (d : Dev) (x : Line) (o : Offset) : delivered (refuseOffset d x o).kst = delivered d.kst := by
  unfold refuseOffset
  simp only
  split
  · rw [delivered_changeDomain, delivered_setDomain, raiseKst_kst, setFld_kst, countFld_kst, raiseKst_kst, count_kst]
  · rw [countFld_kst, raiseKst_kst, count_kst]

/-- The run of consistent offsets of a domain has length n, its last offset o. -/
def runShown (d : Dev) (x : Line) (o : Offset) (n : Nat) : Dev :=
  setDomain (setFld d (KST_DOM_x_STATUS_QUAL_CNT x.ix) n) x (fun m => { m with lastX := o.x, lastPhase := o.phase })

/-- An offset in QUALIFY or SUSPECT makes a run, which may make the domain GOOD. -/
theorem qualifyOffset_cases (d : Dev) (x : Line) (o : Offset) :
    ∃ n, qualifyOffset d x o = domainGood (runShown d x o n) x o ∨ qualifyOffset d x o = runShown d x o n :=
  ⟨_, ite_eq_or_eq _ _ _⟩

theorem delivered_qualifyOffset (d : Dev) (x : Line) (o : Offset) : delivered (qualifyOffset d x o).kst = delivered d.kst := by
  have hrun : ∀ n, delivered (runShown d x o n).kst = delivered d.kst := fun n => delivered_setDomain _ x (fun _ => rfl)
  obtain ⟨n, e | e⟩ := qualifyOffset_cases d x o
  · rw [e, delivered_domainGood, hrun]
  · rw [e, hrun]

/-! ### OFFSET_EVAL (R49) -/

theorem exec_offsetEval (x : Line) (s : State) : exec (.offsetEval x) s = .next (s.withDev (offsetEval x s.dev)) := rfl

/-- The offset of x has been taken and its domain's time starts anew. -/
def offsetTaken (d : Dev) (x : Line) : Dev :=
  startTimer (setDomain d x (fun m => { m with waiting := none, lastAt := some d.elapsed })) (.domain x) ticks384ms

theorem delivered_offsetTaken (d : Dev) (x : Line) : delivered (offsetTaken d x).kst x = none := by
  cases x <;> rfl

theorem predicted_offsetTaken (d : Dev) (x : Line) (p : Int) : predicted (offsetTaken d x) x p = predicted d x p := by
  cases x <;> rfl

theorem evalOffset_of_none {d : Dev} {x : Line} (h : (d.kst.dom.get x).waiting = none) : evalOffset x d = d := by
  simp only [evalOffset, h]

/-- An offset of a GOOD domain is accepted within JUMP_THR of the prediction, and else refused. -/
theorem evalOffset_of_good {d : Dev} {x : Line} {o : Offset} (h : (d.kst.dom.get x).waiting = some o) (hg : domState d x = domGood) :
    evalOffset x d = if ((o.x - predicted d x o.phase).natAbs : Int) ≤ nsUnits (fldA d KST_JUMP_CFG_JUMP_THR)
      then acceptOffset (offsetTaken d x) x o else refuseOffset (offsetTaken d x) x o := by
  have hst : domState (offsetTaken d x) x = domGood := hg
  have hthr : fldA (offsetTaken d x) KST_JUMP_CFG_JUMP_THR = fldA d KST_JUMP_CFG_JUMP_THR := rfl
  have hp := predicted_offsetTaken d x o.phase
  simp only [evalOffset, h]
  simp only [offsetTaken] at hst hthr hp ⊢
  simp only [hst, hthr, hp, beq_self_eq_true, if_true]

/-- Once x's offset is evaluated none waits for x. -/
theorem delivered_evalOffset (d : Dev) (x : Line) : delivered (evalOffset x d).kst x = none := by
  have ht := delivered_offsetTaken d x
  rw [offsetTaken] at ht
  cases h : (d.kst.dom.get x).waiting with
  | none => rw [evalOffset_of_none h]; exact h
  | some o =>
    simp only [evalOffset, h]
    split
    · split
      · rw [delivered_acceptOffset]; exact ht
      · rw [delivered_refuseOffset]; exact ht
    split
    · rw [delivered_qualifyOffset]; exact ht
    · rw [delivered_qualifyOffset, setFld_kst, setFld_kst]; exact ht

/-- Where none waits for the other domain, or PREF_DOM names x, x's offset is evaluated alone. -/
theorem offsetEval_of_first {d : Dev} {x : Line} (h : (d.kst.dom.get x.other).waiting = none ∨ fld d KST_CTL_PREF_DOM = x.ix) :
    offsetEval x d = evalOffset x d := by
  by_cases hn : (d.kst.dom.get x).waiting = none
  · rw [offsetEval, if_pos hn, evalOffset_of_none hn]
  · rw [offsetEval, if_neg hn, if_pos h]

theorem offsetEval_of_second {d : Dev} {x : Line} (hx : (d.kst.dom.get x).waiting ≠ none) (ho : (d.kst.dom.get x.other).waiting ≠ none)
    (hp : fld d KST_CTL_PREF_DOM ≠ x.ix) : offsetEval x d = evalOffset x (evalOffset x.other d) := by
  rw [offsetEval, if_neg hx, if_neg (by simp [ho, hp])]

theorem fld_lt (d : Dev) (f : Fld) : fld d f < 2 ^ (f.hi - f.lo + 1) := BitVec.isLt _

/-- PREF_DOM that does not name x names the other domain. -/
theorem prefDom_other {d : Dev} {x : Line} (h : fld d KST_CTL_PREF_DOM ≠ x.ix) : fld d KST_CTL_PREF_DOM = x.other.ix := by
  have hlt : fld d KST_CTL_PREF_DOM < 2 := fld_lt d KST_CTL_PREF_DOM
  cases x with
  | a => simp only [Line.ix, Line.other] at h ⊢; omega
  | b => simp only [Line.ix, Line.other] at h ⊢; omega

/-- Settles O17: an offset that is evaluated alone is judged by its distance; of two that wait the one of PREF_DOM is taken first, and
then none waits for its domain. -/
theorem offsetInGood : Obligations.OffsetInGood := by
  refine ⟨?_, ?_, ?_⟩
  · intro x s o hw hg hfirst
    refine ⟨offsetTaken s.dev x, rfl, fun hnear => ?_, fun hfar => ?_⟩
    · rw [exec_offsetEval, offsetEval_of_first hfirst, evalOffset_of_good hw hg, if_pos hnear]
    · rw [exec_offsetEval, offsetEval_of_first hfirst, evalOffset_of_good hw hg, if_neg (not_le.mpr hfar)]
  · intro x s t hx ho hp ht
    rw [exec_offsetEval, offsetEval_of_first (.inr (prefDom_other hp))] at ht
    cases ht
    rw [exec_offsetEval, offsetEval_of_second hx ho hp, ← offsetEval_of_first (.inl (delivered_evalOffset s.dev x.other))]
    rfl
  · intro x s h
    rw [exec_offsetEval, offsetEval, if_pos h, withDev_self]

/-! ### Timers of the time engine (R48, R51, R55, R57) -/

theorem exec_domainTimeout (x : Line) (s : State) : exec (.domainTimeout x) s = .next (s.withDev (domainTimeout x s.dev)) := rfl

theorem exec_servoPropExpire (s : State) : exec .servoPropExpire s = .next (s.withDev (servoPropExpire s.dev)) := rfl

theorem exec_slewDone (s : State) : exec .slewDone s = .next (s.withDev (slewDone s.dev)) := rfl

theorem exec_holdAged (s : State) : exec .holdAged s = .next (s.withDev (holdAged s.dev)) := rfl

theorem servoPropExpire_of_over {d : Dev} (ht : timerOver d .prop = true) (hs : servo d = servoTrack) :
    servoPropExpire d = dropTimer { d with kst := { d.kst with c := d.kst.i } } .prop := by
  simp [servoPropExpire, ht, hs]

/-- With a residual of 0 SWITCHING and SLEWING clear, and no other register changes. -/
theorem slewDone_shows {d : Dev} (h : d.kst.b = 0) : flag (slewDone d) KST_STATUS_SWITCHING = false
    ∧ flag (slewDone d) KST_STATUS_SLEWING = false ∧ sameRegsBut [KST_STATUS.ofs] d (slewDone d) := by
  rw [slewDone, if_pos h]
  refine ⟨?_, flag_setFlag_same _ _ (by decide) (by decide), fun q hq => ?_⟩
  · rw [flag_setFlag_apart _ _ (by simp [apart]), flag_setFlag_same _ _ (by decide) (by decide)]
  · have hst : q.ofs ≠ KST_STATUS.ofs := by simpa using hq
    rw [rd_setFlag_other _ _ hst, rd_setFlag_other _ _ hst]

theorem holdAged_of_old {d : Dev} (hs : servo d = servoHoldover) (ha : d.kst.holdAged = false)
    (hold : fldA d KST_HOLD_AGE_HOLD_AGE_LIM < rdn d KST_HOLD_SEC) :
    holdAged d = raiseKst { d with kst := { d.kst with holdAged := true } } alHoldAged := by
  simp [holdAged, hs, ha, hold]

/-- Settles O18: each of the four acts where its condition holds and else answers the state it was given. -/
theorem timeEngineTimers : Obligations.TimeEngineTimers := by
  intro x s
  refine ⟨fun h => ?_, fun h => ?_, fun ht hs => ?_, fun h => ?_, fun h => ?_, fun h => ?_, fun hs ha hold => ?_, fun h => ?_⟩
  · rw [exec_domainTimeout, domainTimeout, if_pos h]
  · rw [exec_domainTimeout, domainTimeout, if_neg (Bool.eq_false_iff.mp h), withDev_self]
  · refine ⟨_, exec_servoPropExpire s, ?_⟩
    simp only [State.withDev, servoPropExpire_of_over ht hs, dropTimer_kst, dropTimer_regs, and_self]
  · rw [exec_servoPropExpire, servoPropExpire, if_neg (by simp [h]), withDev_self]
  · obtain ⟨hsw, hsl, hregs⟩ := slewDone_shows h
    exact ⟨_, exec_slewDone s, hsw, hsl, hregs, rfl⟩
  · rw [exec_slewDone, slewDone, if_neg h, withDev_self]
  · refine ⟨_, exec_holdAged s, ?_⟩
    simp only [State.withDev, holdAged_of_old hs ha hold, raiseKst_kst, regBit_raiseKst_same _ (show alHoldAged < 32 by decide),
      and_self]
  · rw [exec_holdAged, holdAged, if_neg (by simp [h]), withDev_self]

end Sys2Proof.Machine
end

section
/-!
PROOFS. What a switch of lines touches: the laser interlock, slices, messages, bindings and what is staged (R198, R199, R205).
-/

namespace Sys2Proof.Machine

/-! ### The words that say how the lines stand -/

/-- The words of the lines: RNG_Lx_STATUS with the terminal state, DSF_SR with the accepted SR value. -/
def isLineWord (o : Nat) : Bool := o == 0x601004 || o == 0x601404 || o == 0x440068 || o == 0x540068

/-- These and SDL_STATUS, which holds the role. -/
def isRoleWord (o : Nat) : Bool := o == 0x64004c || isLineWord o

theorem isRoleWord_status : isRoleWord SDL_STATUS.ofs = true := rfl

theorem isLineWord_state (x : Line) : isLineWord (RNG_Lx_STATUS x.ix).ofs = true := by cases x <;> rfl

theorem isLineWord_sr (x : Line) : isLineWord (DSF_SR x.ix).ofs = true := by cases x <;> rfl

theorem isRoleWord_of_line {o : Nat} (h : isLineWord o = true) : isRoleWord o = true := by simp [isRoleWord, h]

theorem isRoleWord_false {o : Nat} (h : o ≠ 0x64004c ∧ o ≠ 0x601004 ∧ o ≠ 0x601404 ∧ o ≠ 0x440068 ∧ o ≠ 0x540068) :
    isRoleWord o = false := by
  obtain ⟨h0, h1, h2, h3, h4⟩ := h
  simp [isRoleWord, isLineWord, h0, h1, h2, h3, h4]

theorem ne_of_isRoleWord {o p : Nat} (h : isRoleWord o = true) (hp : isRoleWord p = false) : o ≠ p := by
  rintro rfl
  exact Bool.noConfusion (h.symm.trans hp)

/-- Device time, Keystone and the words that say how the lines stand are in e as in d. -/
def keepsRoles (d e : Dev) : Prop := e.clock = d.clock ∧ e.kst = d.kst ∧ ∀ q : Reg, isRoleWord q.ofs = true → rd e q = rd d q

theorem keepsRoles.refl (d : Dev) : keepsRoles d d := ⟨rfl, rfl, fun _ _ => rfl⟩

theorem keepsRoles.trans {d e g : Dev} (h : keepsRoles d e) (h' : keepsRoles e g) : keepsRoles d g := by
  obtain ⟨hc, hk, hr⟩ := h
  obtain ⟨hc', hk', hr'⟩ := h'
  exact ⟨hc'.trans hc, hk'.trans hk, fun q hq => (hr' q hq).trans (hr q hq)⟩

/-- A register that says nothing of how the lines stand is written. -/
theorem keepsRoles.wr {d e : Dev} (h : keepsRoles d e) {r : Reg} (hr : isRoleWord r.ofs = false) (w : Word) :
    keepsRoles d (wr e r w) := by
  obtain ⟨hc, hk, hrd⟩ := h
  exact ⟨hc, hk, fun q hq => (rd_wr_other e w (ne_of_isRoleWord hq hr)).trans (hrd q hq)⟩

theorem keepsRoles.wrn {d e : Dev} (h : keepsRoles d e) {r : Reg} (hr : isRoleWord r.ofs = false) (n : Nat) :
    keepsRoles d (wrn e r n) := h.wr hr _

theorem keepsRoles.setFld {d e : Dev} (h : keepsRoles d e) {f : Fld} (hr : isRoleWord f.reg.ofs = false) (v : Nat) :
    keepsRoles d (setFld e f v) := h.wr hr _

theorem keepsRoles.setFlag {d e : Dev} (h : keepsRoles d e) {f : Fld} (hr : isRoleWord f.reg.ofs = false) (b : Bool) :
    keepsRoles d (setFlag e f b) := h.wr hr _

theorem keepsRoles.setRegBit {d e : Dev} (h : keepsRoles d e) {r : Reg} (hr : isRoleWord r.ofs = false) (b : Nat) (v : Bool) :
    keepsRoles d (setRegBit e r b v) := h.wr hr _

theorem keepsRoles.countBy {d e : Dev} (h : keepsRoles d e) {r : Reg} (hr : isRoleWord r.ofs = false) (n : Nat) :
    keepsRoles d (countBy e r n) := h.wr hr _

theorem keepsRoles.count {d e : Dev} (h : keepsRoles d e) {r : Reg} (hr : isRoleWord r.ofs = false) : keepsRoles d (count e r) := h.wr hr _

theorem keepsRoles.setFldA {d e : Dev} (h : keepsRoles d e) (f : Fld) (v : Nat) : keepsRoles d (setFldA e f v) := h

theorem keepsRoles.setHw {d e : Dev} (h : keepsRoles d e) (x : Line) (f : LineHw → LineHw) : keepsRoles d (setHw e x f) := h

theorem keepsRoles.setUp {d e : Dev} (h : keepsRoles d e) (x : Line) (f : UpHw → UpHw) : keepsRoles d (setUp e x f) := h

theorem keepsRoles.setRng {d e : Dev} (h : keepsRoles d e) (x : Line) (f : RngHw → RngHw) : keepsRoles d (setRng e x f) := h

theorem keepsRoles.setCarry {d e : Dev} (h : keepsRoles d e) (k : Nat) (c : List Carry) : keepsRoles d (setCarry e k c) := h

theorem keepsRoles.setFormed {d e : Dev} (h : keepsRoles d e) (k : Nat) (us : List LineUnit) : keepsRoles d (setFormed e k us) := h

theorem keepsRoles.setSaddle {d e : Dev} (h : keepsRoles d e) (f : Saddle → Saddle) : keepsRoles d (setSaddle e f) := h

theorem keepsRoles.setFree {d e : Dev} (h : keepsRoles d e) (n : Nat) : keepsRoles d { e with freeCount := n } := h

theorem keepsRoles.setBst {d e : Dev} (h : keepsRoles d e) (b : BstHw) : keepsRoles d { e with bst := b } := h

theorem keepsRoles.setFresh {d e : Dev} (h : keepsRoles d e) (p : PerLine Bool) : keepsRoles d { e with lineFresh := p } := h

theorem keepsRoles.raiseEvt {d e : Dev} (h : keepsRoles d e) {u : EvtUnit} (hu : isRoleWord u.evt.ofs = false) (b : Nat) :
    keepsRoles d (raiseEvt e u b) := by
  obtain ⟨r, p, o, eq⟩ := raiseEvt_spec e u b
  refine h.trans ⟨by rw [eq], by rw [eq], fun q hq => ?_⟩
  exact rd_raiseEvt_other e u b (ne_of_isRoleWord hq hu) (ne_of_isRoleWord hq rfl) (ne_of_isRoleWord hq rfl)

/-- A loop keeps what every turn of it keeps. -/
theorem keepsRoles.forEach {α : Type} {d e : Dev} (h : keepsRoles d e) {f : Dev → α → Dev} {l : List α}
    (hf : ∀ g, ∀ a ∈ l, keepsRoles d g → keepsRoles d (f g a)) : keepsRoles d (forEach l f e) := by
  induction l generalizing e with
  | nil => exact h
  | cons a t ih => exact ih (hf e a List.mem_cons_self h) (fun g b hb => hf g b (List.mem_cons_of_mem a hb))

/-! ### The laser interlock (R95) -/

theorem isRoleWord_laneStatus (x : Line) : isRoleWord (LLx_STATUS x.ix).ofs = false := by cases x <;> rfl

theorem keepsRoles.setBen {d e : Dev} (h : keepsRoles d e) (x : Line) (t : Nat) (b : Bool) : keepsRoles d (setBen e x t b) :=
  h.setRegBit (isRoleWord_laneStatus x) _ _

theorem keepsRoles.setBenPhase {d e : Dev} (h : keepsRoles d e) (x : Line) (t p : Nat) : keepsRoles d (setBenPhase e x t p) := h.setHw _ _

theorem keepsRoles.raiseBen {d e : Dev} (h : keepsRoles d e) (x : Line) (t : Nat) : keepsRoles d (raiseBen e x t) := by
  unfold Machine.raiseBen
  split
  · exact h
  · exact (h.setBen x t true).count (isRoleWord_false (by simp only; omega))

theorem keepsRoles.syncLane {d e : Dev} (h : keepsRoles d e) (x : Line) (t : Nat) : keepsRoles d (syncLane e x t) := by
  have hok := h.setRegBit (isRoleWord_laneStatus x) (20 + t) (laserOkNow e x t)
  unfold Machine.syncLane
  simp only
  split
  · split
    · exact hok.raiseBen x t
    · exact hok.setBen x t false
  split
  · exact hok
  split
  · exact hok.setBen x t false
  split
  · exact (hok.setBen x t false).setBenPhase x t benIdle
  split
  · exact hok.setBen x t false
  · exact hok

theorem keepsRoles.syncLaser {d e : Dev} (h : keepsRoles d e) (x : Line) : keepsRoles d (syncLaser e x) :=
  (h.setFld (f := LLx_STATUS_CAUSE x.ix) (isRoleWord_laneStatus x) _).forEach (fun _ t _ hg => hg.syncLane x t)

/-! ### A slice that service ends (R378, R383) -/

theorem isRoleWord_target {t : Nat} (h : t < 48) : isRoleWord (BST_TGTt_STATUS t).ofs = false :=
  isRoleWord_false (by simp only; omega)

theorem isRoleWord_targetUnits : ∀ t < 48, ∀ u ∈ targetUnits t, isRoleWord (HDR_BST (unitAt u).base).ofs = false := by decide

theorem isRoleWord_engine {t : Nat} (h : t < 18) : isRoleWord (engineReg t).ofs = false := by
  unfold engineReg
  split
  · exact isRoleWord_false (by simp only; omega)
  · exact isRoleWord_false (by simp only; omega)

theorem keepsRoles.setVerdict {d e : Dev} (h : keepsRoles d e) {t : Nat} (ht : t < 48) (v : Nat) : keepsRoles d (setVerdict e t v) := by
  have h1 := h.setFld (f := BST_TGTt_STATUS_VERDICT t) (isRoleWord_target ht) v
  have hunits : ∀ g, keepsRoles d g → keepsRoles d (Machine.forEach (targetUnits t) (fun d u =>
      Machine.setFld d (HDR_BST_VERDICT (unitAt u).base)
        (worstVerdict ((targetsOf u).map (fun q => fld d (BST_TGTt_STATUS_VERDICT q))))) g) :=
    fun g hg => hg.forEach (fun _ u hu hg => hg.setFld (f := HDR_BST_VERDICT (unitAt u).base) (isRoleWord_targetUnits t ht u hu) _)
  unfold Machine.setVerdict
  refine hunits _ ?_
  split
  · next hc => exact h1.setFld (f := ⟨engineReg t, 29, 27⟩) (isRoleWord_engine hc) v
  · exact h1

theorem keepsRoles.recordSlice {d e : Dev} (h : keepsRoles d e) (verdict cause : Nat) : keepsRoles d (recordSlice e verdict cause) := by
  unfold Machine.recordSlice
  exact ((((h.setFld rfl _).setFld rfl _).setFlag rfl _).setFld rfl _).setFld rfl _

theorem keepsRoles.abortSlice {d e : Dev} (h : keepsRoles d e) {t : Nat} (hs : slicing e = some t) (ht : t < 48) (cause : Nat) :
    keepsRoles d (abortSlice e cause) := by
  have hsig := ((h.setFree (e.freeCount + 2)).wrn (r := BST_LAST_SIG_LO) rfl (Config.freeValue e.freeCount)).wrn (r := BST_LAST_SIG_HI) rfl
    (Config.freeValue (e.freeCount + 1))
  have hcut := (((hsig.count (r := BST_ABORTED) rfl).recordSlice vdAborted cause).setVerdict ht vdAborted)
  unfold Machine.abortSlice
  simp only [hs]
  refine keepsRoles.setFld ?_ rfl _
  split
  · refine (keepsRoles.count ?_ rfl).raiseEvt rfl _
    split
    · exact (hcut.setBst _).count rfl
    · exact hcut.setBst _
  · split
    · exact (hcut.setBst _).count rfl
    · exact hcut.setBst _

theorem keepsRoles.sliceService {d e : Dev} (h : keepsRoles d e) {t : Nat} (ht : t < 48) : keepsRoles d (sliceService e t) := by
  unfold Machine.sliceService
  split
  · next hs => exact h.abortSlice hs ht _
  · exact h

/-! ### Messages, roles and terminal states (R132, R198) -/

theorem isRoleWord_rngEvt (x : Line) : isRoleWord (evRNG x.ix).evt.ofs = false := by cases x <;> rfl

theorem isRoleWord_lmmDrop (x : Line) : isRoleWord (RNG_Lx_LMM_DROP x.ix).ofs = false := by cases x <;> rfl

theorem keepsRoles.queueLmm {d e : Dev} (h : keepsRoles d e) (x : Line) (type : Nat) (payload : List Byte) :
    keepsRoles d (queueLmm e x type payload) := by
  have h1 : keepsRoles d (makeLmm e x type payload).1 := h.setRng _ _
  unfold Machine.queueLmm pushLmm
  split
  · exact h1.count (isRoleWord_lmmDrop x)
  · exact h1.setRng _ _

theorem keepsRoles.clearHome {d e : Dev} (h : keepsRoles d e) : keepsRoles d (clearHome e) := by
  unfold Machine.clearHome
  split
  · exact (h.setFlag rfl _).raiseEvt rfl _
  · exact h

/-- The line's status word with the new terminal state. -/
def stateShown (d : Dev) (x : Line) (st : Nat) : Dev :=
  setFld (setFld d (RNG_Lx_STATUS_PREV_STATE x.ix) (termState d x)) (RNG_Lx_STATUS_STATE x.ix) st

theorem moveState_of_same {d : Dev} {x : Line} {st : Nat} (cause : Nat) (h : termState d x = st) : moveState d x st cause = d := if_pos h

/-- What follows a new terminal state leaves the words that say how the lines stand. -/
theorem moveState_keeps {d : Dev} {x : Line} {st : Nat} (cause : Nat) (h : termState d x ≠ st) :
    keepsRoles (stateShown d x st) (moveState d x st cause) := by
  have h1 : keepsRoles (stateShown d x st) (syncLaser (raiseRng (stateShown d x st) x rgStateChange) x) :=
    ((keepsRoles.refl _).raiseEvt (isRoleWord_rngEvt x) _).syncLaser x
  have h2 : keepsRoles (stateShown d x st) (if termState d x = stStandby
      then sliceService (syncLaser (raiseRng (stateShown d x st) x rgStateChange) x) (44 + x.ix)
      else syncLaser (raiseRng (stateShown d x st) x rgStateChange) x) := by
    split
    · exact h1.sliceService (by cases x <;> decide)
    · exact h1
  rw [moveState, if_neg h]
  simp only
  split
  · exact h2.queueLmm _ _ _
  · exact h2

theorem line_ofs_ne {x y : Line} (h : y ≠ x) : (RNG_Lx_STATUS y.ix).ofs ≠ (RNG_Lx_STATUS x.ix).ofs := by
  cases x <;> cases y <;> simp [Line.ix] at h ⊢

/-- A new terminal state shows; device time, Keystone, the role and the other line are as they were. -/
theorem moveState_spec (d : Dev) (x : Line) {st : Nat} (cause : Nat) (hst : st < 8) :
    (moveState d x st cause).clock = d.clock ∧ (moveState d x st cause).kst = d.kst ∧ termState (moveState d x st cause) x = st
      ∧ rd (moveState d x st cause) SDL_STATUS = rd d SDL_STATUS
      ∧ ∀ y : Line, y ≠ x → rd (moveState d x st cause) (RNG_Lx_STATUS y.ix) = rd d (RNG_Lx_STATUS y.ix) := by
  by_cases h : termState d x = st
  · rw [moveState_of_same cause h]
    exact ⟨rfl, rfl, h, rfl, fun _ _ => rfl⟩
  · obtain ⟨hc, hk, hr⟩ := moveState_keeps cause h
    refine ⟨hc, hk, ?_, ?_, fun y hy => ?_⟩
    · rw [termState, fld_congr _ (hr (RNG_Lx_STATUS x.ix) (isRoleWord_of_line (isLineWord_state x))), stateShown,
        fld_setFld_same _ _ (by simp) (by simp)]
      exact Nat.mod_eq_of_lt hst
    · rw [hr _ isRoleWord_status, stateShown, rd_setFld_other _ _ (by simp only; omega), rd_setFld_other _ _ (by simp only; omega)]
    · rw [hr _ (isRoleWord_of_line (isLineWord_state y)), stateShown, rd_setFld_other _ _ (line_ofs_ne hy),
        rd_setFld_other _ _ (line_ofs_ne hy)]

/-! ### Bindings and staging (R199, R205) -/

theorem keepsRoles.setBinding {d e : Dev} (h : keepsRoles d e) {f : Fld} (hf : 0xe40000 ≤ f.reg.ofs) (v : Nat) :
    keepsRoles d (Machine.setFld (Machine.setFldA e f v) f v) :=
  (h.setFldA f v).setFld (isRoleWord_false (by omega)) v

theorem keepsRoles.unbind {d e : Dev} (h : keepsRoles d e) (j : Nat) : keepsRoles d (unbind e j) :=
  h.setBinding (f := TMG_LMAPj_VALID j) (by simp) 0

theorem keepsRoles.moveQueue {d e : Dev} (h : keepsRoles d e) (je : Nat × Nat) : keepsRoles d (moveQueue e je) := by
  unfold Machine.moveQueue
  simp only
  split
  · exact ((h.unbind _).count rfl).raiseEvt rfl _
  split
  · exact ((h.unbind _).count rfl).raiseEvt rfl _
  · exact (h.setFldA _ _).setBinding (f := TMG_LMAPj_ENTRY je.1) (by simp) _

theorem keepsRoles.moveBindings {d e : Dev} (h : keepsRoles d e) (old : Line) : keepsRoles d (moveBindings e old) :=
  h.forEach (fun _ je _ hg => hg.moveQueue je)

theorem keepsRoles.syncNrw {d e : Dev} (h : keepsRoles d e) (is : List Nat) : keepsRoles d (syncNrw e is) := by
  unfold Machine.syncNrw
  refine ((h.setFld (f := NRW_OCC_STAGED) rfl _).setFld (f := NRW_OCC_RESERVED) rfl _).forEach (fun g i _ hg => ?_)
  have hi : isRoleWord (NRW_ALLOCi_OCC i).ofs = false := isRoleWord_false (by simp only; omega)
  split
  · exact (hg.setFld (f := NRW_ALLOCi_OCC_CARRY i) hi _).setFld (f := NRW_ALLOCi_OCC_STAGED i) hi _
  · exact hg

theorem keepsRoles.countDiscard {d e : Dev} (h : keepsRoles d e) (n : Nat) : keepsRoles d (countDiscard e n) := by
  unfold Machine.countDiscard
  split
  · exact h
  · exact (h.countBy rfl n).raiseEvt rfl _

theorem keepsRoles.addCarry {d e : Dev} (h : keepsRoles d e) (k : Nat) (cs : List Carry) : keepsRoles d (addCarry e k cs) :=
  (h.setCarry k _).syncNrw _

theorem keepsRoles.toCarry {d e : Dev} (h : keepsRoles d e) (k : Nat) (us : List LineUnit) : keepsRoles d (toCarry e k us) := by
  unfold Machine.toCarry
  split
  · exact h
  · exact (h.addCarry k _).countBy (isRoleWord_false (by simp only; omega)) _

theorem keepsRoles.endGaps {d e : Dev} (h : keepsRoles d e) (x : Line) : keepsRoles d (endGaps e x) := by
  refine h.forEach (fun g u _ hg => ?_)
  split
  · exact (hg.setBen x u false).setBenPhase x u benIdle
  · exact hg

theorem isRoleWord_upStatus (x : Line) : isRoleWord (UPB_STATUS x.ix).ofs = false := by cases x <;> rfl

theorem keepsRoles.syncInFlight {d e : Dev} (h : keepsRoles d e) (x : Line) : keepsRoles d (syncInFlight e x) :=
  h.setFld (f := UPB_STATUS_IN_FLIGHT x.ix) (isRoleWord_upStatus x) _

theorem keepsRoles.setGrants {d e : Dev} (h : keepsRoles d e) (x : Line) (f : List Grant → List Grant) : keepsRoles d (setGrants e x f) :=
  h.setUp _ _

theorem keepsRoles.handOver {d e : Dev} (h : keepsRoles d e) (old : Line) : keepsRoles d (handOver e old) := by
  unfold Machine.handOver
  refine keepsRoles.endGaps (keepsRoles.syncNrw (keepsRoles.forEach (keepsRoles.forEach ?_ (fun g i _ hg => ?_)) (fun g a _ hg => ?_)) _) _
  · exact ((h.countBy rfl _).setGrants old _).syncInFlight old
  · have hclear := ((hg.setFormed i []).setCarry i []).syncNrw [i]
    simp only
    split
    · exact (hclear.addCarry _ _).setFormed _ _
    · exact hclear.countDiscard _
  · split
    · exact hg.toCarry _ _
    · exact hg.countDiscard _

end Sys2Proof.Machine
end

section
/-!
PROOFS. The switch, the evaluation, the health reports and the end of a switch (R198, R200 to R207).
-/

namespace Sys2Proof.Machine

/-! ### The switch (R205) -/

theorem keepsRoles.termState {d e : Dev} (h : keepsRoles d e) (x : Line) : termState e x = termState d x := by
  obtain ⟨_, _, hr⟩ := h
  exact fld_congr _ (hr (RNG_Lx_STATUS x.ix) (isRoleWord_of_line (isLineWord_state x)))

theorem other_ne (x : Line) : x.other ≠ x := by cases x <;> decide

theorem ne_other_iff {x y : Line} : y ≠ x ↔ y = x.other := by
  cases x <;> cases y <;> simp [Line.other]

/-- SWITCHING shows, and the switch counts from this tick. -/
def switchMarked (d : Dev) : Dev :=
  setSaddle (setFlag d SDL_STATUS_SWITCHING true) (fun s => { s with swTick := d.elapsed, swMap := none, swDown := none, wtrOver := false })

/-- The record of the last switch, with its counts and events. -/
def switchRecorded (d : Dev) (f : Line) (cls src : Nat) : Dev :=
  let e := setFld (setFld (setFld (count d SDL_SWITCHES) SDL_LAST_SW_REQ cls) SDL_LAST_SW_SRC src) SDL_LAST_SW_TO_LINE f.ix
  let e := raiseSdl (setFld (wrn e SDL_LAST_SW_SEC e.clock.sec.toNat) SDL_LAST_SW_NS_VALUE e.clock.ns.val) sdSwitch
  if cls == clsWtr then raiseSdl (count e SDL_REVERTS) sdRevert else e

/-- The switch and its record show, and the wait-to-restore period is given up. -/
def switchShown (d : Dev) (f : Line) (cls src : Nat) : Dev :=
  setFld (setFlag (switchRecorded (switchMarked d) f cls src) SDL_STATUS_WTR_RUN false) SDL_STATUS_WTR_LEFT 0

/-- The line that held the role moves to Standby, or will from Hold. -/
def oldStandsBy (had : Bool) (d : Dev) (old : Line) : Dev :=
  if !had then d
  else if termState d old = stHold then setRng d old (fun h => { h with heldState := stStandby })
  else moveState d old stStandby reportProtection

/-- The new line operates: what is bound to the old one and staged for it has come over. -/
def newOperates (d : Dev) (f : Line) : Dev := moveState (handOver (moveBindings d f.other) f.other) f stOperate reportProtection

theorem startSwitch_eq (d : Dev) (f : Line) (cls src : Nat) : ∃ g p, startSwitch d f cls src
    = { setSaddle (takeRole (newOperates (oldStandsBy (isActive d f.other) (switchShown d f cls src) f.other) f) f) g with
        lineFresh := p } :=
  ⟨_, _, rfl⟩

theorem keepsRoles.raiseSdl {d e : Dev} (h : keepsRoles d e) (b : Nat) : keepsRoles d (raiseSdl e b) := h.raiseEvt (u := evSDL) rfl b

theorem keepsRoles.switchRecorded {d e : Dev} (h : keepsRoles d e) (f : Line) (cls src : Nat) :
    keepsRoles d (switchRecorded e f cls src) := by
  have hlast := (((h.count (r := SDL_SWITCHES) rfl).setFld (f := SDL_LAST_SW_REQ) rfl cls).setFld (f := SDL_LAST_SW_SRC) rfl src).setFld
    (f := SDL_LAST_SW_TO_LINE) rfl f.ix
  have hev := ((hlast.wrn (r := SDL_LAST_SW_SEC) rfl e.clock.sec.toNat).setFld (f := SDL_LAST_SW_NS_VALUE) rfl
    e.clock.ns.val).raiseSdl sdSwitch
  unfold Machine.switchRecorded
  simp only
  split
  · exact (hev.count rfl).raiseSdl sdRevert
  · exact hev

theorem state_ne_status (x : Line) : (RNG_Lx_STATUS x.ix).ofs ≠ SDL_STATUS.ofs := by simp only; omega

/-- The record of a switch sets SWITCHING and leaves device time, Keystone and the terminal states. -/
theorem switchShown_spec (d : Dev) (f : Line) (cls src : Nat) : (switchShown d f cls src).clock = d.clock
    ∧ (switchShown d f cls src).kst = d.kst ∧ switching (switchShown d f cls src) = true
    ∧ ∀ x : Line, rd (switchShown d f cls src) (RNG_Lx_STATUS x.ix) = rd d (RNG_Lx_STATUS x.ix) := by
  obtain ⟨hc, hk, hr⟩ := (keepsRoles.refl (switchMarked d)).switchRecorded f cls src
  refine ⟨hc, hk, ?_, fun x => ?_⟩
  · rw [switching, switchShown, flag_setFld_apart _ _ (by simp [apart]), flag_setFlag_apart _ _ (by simp [apart]),
      flag_congr _ (hr SDL_STATUS isRoleWord_status)]
    exact flag_setFlag_same d true (by decide) (by decide)
  · rw [switchShown, rd_setFld_other _ _ (state_ne_status x), rd_setFlag_other _ _ (state_ne_status x),
      hr _ (isRoleWord_of_line (isLineWord_state x))]
    exact rd_setFlag_other d true (state_ne_status x)

/-- The old line's part of a switch: it goes to Standby where it held the role and is not in Hold, and nothing else of the lines changes. -/
theorem oldStandsBy_spec (had : Bool) (d : Dev) (old : Line) : (oldStandsBy had d old).clock = d.clock
    ∧ (oldStandsBy had d old).kst = d.kst
    ∧ rd (oldStandsBy had d old) SDL_STATUS = rd d SDL_STATUS
    ∧ (had = true → termState d old ≠ stHold → termState (oldStandsBy had d old) old = stStandby) := by
  unfold oldStandsBy
  cases had with
  | false => exact ⟨rfl, rfl, rfl, fun h => nomatch h⟩
  | true =>
    obtain ⟨hc, hk, hst, hrole, _⟩ := moveState_spec d old (st := stStandby) reportProtection (by decide)
    by_cases hh : termState d old = stHold
    · simp only [hh, Bool.not_true, Bool.false_eq_true, if_false, if_true]
      exact ⟨rfl, rfl, rfl, fun _ h => absurd rfl h⟩
    · simp only [hh, Bool.not_true, Bool.false_eq_true, if_false]
      exact ⟨hc, hk, hrole, fun _ _ => hst⟩

/-- The new line's part of a switch: it goes to Operate, and nothing else of the lines changes. -/
theorem newOperates_spec (d : Dev) (f : Line) : (newOperates d f).clock = d.clock ∧ (newOperates d f).kst = d.kst
    ∧ rd (newOperates d f) SDL_STATUS = rd d SDL_STATUS ∧ termState (newOperates d f) f = stOperate
    ∧ termState (newOperates d f) f.other = termState d f.other := by
  have hover := ((keepsRoles.refl d).moveBindings f.other).handOver f.other
  have hold := hover.termState f.other
  obtain ⟨hc, hk, hr⟩ := hover
  obtain ⟨hc', hk', hst, hrole, hline⟩ :=
    moveState_spec (handOver (moveBindings d f.other) f.other) f (st := stOperate) reportProtection (by decide)
  exact ⟨hc'.trans hc, hk'.trans hk, hrole.trans (hr _ isRoleWord_status), hst,
    (fld_congr _ (hline f.other (other_ne f))).trans hold⟩

/-- SDL_STATUS names x as the line with the role. -/
def roleShown (d : Dev) (x : Line) : Dev := setFld (setFlag d SDL_STATUS_HAS_ACTIVE true) SDL_STATUS_ACTIVE x.ix

theorem takeRole_keeps (d : Dev) (x : Line) : keepsRoles (roleShown d x) (takeRole d x) := by
  have h := (keepsRoles.refl (roleShown d x)).setSaddle (fun s => { s with away := false, lost := false })
  unfold takeRole
  simp only
  split
  · exact h.clearHome
  · exact h

theorem isActive_roleShown (d : Dev) (x : Line) : isActive (roleShown d x) x = true := by
  have hx : x.ix % 2 = x.ix := by cases x <;> rfl
  have hact : fld (roleShown d x) SDL_STATUS_ACTIVE = x.ix := (fld_setFld_same _ _ (by decide) (by decide)).trans hx
  have hhas : hasActive (roleShown d x) = true := by
    rw [hasActive, roleShown, flag_setFld_apart _ _ (by simp [apart]), flag_setFlag_same _ _ (by decide) (by decide)]
  rw [isActive, hact, hhas, Bool.true_and, beq_self_eq_true]

theorem isActive_congr {d e : Dev} (h : rd e SDL_STATUS = rd d SDL_STATUS) (x : Line) : isActive e x = isActive d x := by
  rw [isActive, hasActive, flag_congr _ h, fld_congr _ h, isActive, hasActive]

/-- The role is taken, and device time, Keystone, SWITCHING and the terminal states are as they were. -/
theorem takeRole_spec (d : Dev) (x : Line) : (takeRole d x).clock = d.clock ∧ (takeRole d x).kst = d.kst
    ∧ isActive (takeRole d x) x = true
    ∧ switching (takeRole d x) = switching d ∧ ∀ y : Line, termState (takeRole d x) y = termState d y := by
  have h := takeRole_keeps d x
  obtain ⟨hc, hk, hr⟩ := h
  refine ⟨hc, hk, ?_, ?_, fun y => ?_⟩
  · rw [isActive_congr (hr SDL_STATUS isRoleWord_status), isActive_roleShown]
  · rw [switching, flag_congr _ (hr SDL_STATUS isRoleWord_status), roleShown, flag_setFld_apart _ _ (by simp [apart]),
      flag_setFlag_apart _ _ (by simp [apart]), switching]
  · have hstate : rd (roleShown d x) (RNG_Lx_STATUS y.ix) = rd d (RNG_Lx_STATUS y.ix) :=
      (rd_setFld_other _ _ (state_ne_status y)).trans (rd_setFlag_other _ _ (state_ne_status y))
    exact ((takeRole_keeps d x).termState y).trans (fld_congr (RNG_Lx_STATUS_STATE y.ix) hstate)

/-- A switch to f gives it the role and Operate, and the line that held it Standby; device time and Keystone are as they were. -/
theorem startSwitch_spec (d : Dev) (f : Line) (cls src : Nat) :
    isActive (startSwitch d f cls src) f = true ∧ termState (startSwitch d f cls src) f = stOperate
      ∧ (isActive d f.other = true → termState d f.other ≠ stHold → termState (startSwitch d f cls src) f.other = stStandby)
      ∧ switching (startSwitch d f cls src) = true
      ∧ (startSwitch d f cls src).clock = d.clock ∧ (startSwitch d f cls src).kst = d.kst := by
  obtain ⟨g, p, e⟩ := startSwitch_eq d f cls src
  obtain ⟨hc1, hk1, hsw, hline⟩ := switchShown_spec d f cls src
  obtain ⟨hc2, hk2, hrole2, hold⟩ := oldStandsBy_spec (isActive d f.other) (switchShown d f cls src) f.other
  obtain ⟨hc3, hk3, hrole3, hnew, hother⟩ := newOperates_spec (oldStandsBy (isActive d f.other) (switchShown d f cls src) f.other) f
  generalize oldStandsBy (isActive d f.other) (switchShown d f cls src) f.other = d2 at *
  generalize newOperates d2 f = d3 at *
  obtain ⟨hc4, hk4, hact, hsw4, hst4⟩ := takeRole_spec d3 f
  obtain ⟨hc5, hk5, hr5⟩ : keepsRoles (takeRole d3 f) (startSwitch d f cls src) := by
    rw [e]
    exact ((keepsRoles.refl _).setSaddle g).setFresh p
  have hstatus := hr5 SDL_STATUS isRoleWord_status
  have hterm : ∀ y : Line, termState (startSwitch d f cls src) y = termState d3 y := fun y =>
    (fld_congr _ (hr5 (RNG_Lx_STATUS y.ix) (isRoleWord_of_line (isLineWord_state y)))).trans (hst4 y)
  refine ⟨(isActive_congr hstatus f).trans hact, (hterm f).trans hnew, fun hhad hh => ?_, ?_, ?_, ?_⟩
  · have hh1 : termState (switchShown d f cls src) f.other ≠ stHold := by rwa [termState, fld_congr _ (hline f.other)]
    rw [hterm, hother, hold hhad hh1]
  · rw [switching, flag_congr _ hstatus, ← switching, hsw4, switching, flag_congr _ hrole3, flag_congr _ hrole2]
    exact hsw
  · rw [hc5, hc4, hc3, hc2, hc1]
  · rw [hk5, hk4, hk3, hk2, hk1]

/-! ### The evaluation (R202, R203) -/

/-- The fields of SDL_STATUS that an evaluation does not bring up to date. -/
def standingFields : List Fld :=
  [SDL_STATUS_SWITCHING, SDL_STATUS_HAS_ACTIVE, SDL_STATUS_ACTIVE, SDL_STATUS_HOST_REQ, SDL_STATUS_HOST_TARGET]

/-- Those that it does. -/
def evaluatedFields : List Fld :=
  [SDL_STATUS_WTR_RUN, SDL_STATUS_WTR_LEFT, SDL_STATUS_LOCK_A, SDL_STATUS_LOCK_B, SDL_STATUS_REQ, SDL_STATUS_REQ_LINE, SDL_STATUS_REQ_SRC]

theorem standing_apart : ∀ g ∈ standingFields, ∀ f ∈ evaluatedFields, apart g f := by
  simp [standingFields, evaluatedFields, apart]

/-- The role, SWITCHING, the host's request and the words of the lines are in e as in d. -/
def keepsStanding (d e : Dev) : Prop :=
  (∀ g ∈ standingFields, fld e g = fld d g) ∧ ∀ q : Reg, isLineWord q.ofs = true → rd e q = rd d q

theorem standing_reg : ∀ g ∈ standingFields, g.reg = SDL_STATUS := by simp [standingFields]

theorem evaluated_reg : ∀ f ∈ evaluatedFields, f.reg = SDL_STATUS := by simp [evaluatedFields]

theorem keepsRoles.standing {d e : Dev} (h : keepsRoles d e) : keepsStanding d e := by
  obtain ⟨_, _, hr⟩ := h
  exact ⟨fun g hg => fld_congr g (hr g.reg (by rw [standing_reg g hg]; rfl)), fun q hq => hr q (isRoleWord_of_line hq)⟩

theorem keepsStanding.refl (d : Dev) : keepsStanding d d := (keepsRoles.refl d).standing

theorem keepsStanding.trans {d e g : Dev} (h : keepsStanding d e) (h' : keepsStanding e g) : keepsStanding d g := by
  obtain ⟨hf, hr⟩ := h
  obtain ⟨hf', hr'⟩ := h'
  exact ⟨fun f hm => (hf' f hm).trans (hf f hm), fun q hq => (hr' q hq).trans (hr q hq)⟩

theorem keepsStanding.setFld {d e : Dev} (h : keepsStanding d e) {f : Fld} (hf : f ∈ evaluatedFields) (v : Nat) :
    keepsStanding d (setFld e f v) := by
  refine h.trans ⟨fun g hg => fld_setFld_apart e v (standing_apart g hg f hf), fun q hq => rd_setFld_other e v ?_⟩
  rw [evaluated_reg f hf]
  rintro hs
  rw [hs] at hq
  exact absurd hq (by decide)

theorem keepsStanding.setFlag {d e : Dev} (h : keepsStanding d e) {f : Fld} (hf : f ∈ evaluatedFields) (b : Bool) :
    keepsStanding d (setFlag e f b) := h.setFld hf _

theorem syncRequests_keeps (d : Dev) : keepsStanding d (syncRequests d) := by
  unfold syncRequests
  exact (((((keepsStanding.refl d).setFlag (by decide) _).setFlag (by decide) _).setFld (by decide) _).setFld (by decide) _).setFld
    (by decide) _

theorem clearWtr_keeps (d : Dev) : keepsStanding d (clearWtr d) := by
  have h := ((keepsStanding.refl d).setFlag (f := SDL_STATUS_WTR_RUN) (by decide) false).setFld (f := SDL_STATUS_WTR_LEFT) (by decide) 0
  exact h.trans ((keepsRoles.refl _).setSaddle _).standing

theorem checkWtr_keeps (d : Dev) : keepsStanding d (checkWtr d) := by
  unfold checkWtr
  simp only
  split
  · split
    · exact clearWtr_keeps d
    · exact keepsStanding.refl d
  split
  · exact (((keepsStanding.refl d).setFlag (by decide) _).setFld (by decide) _).trans ((keepsRoles.refl _).raiseSdl _).standing
  · exact keepsStanding.refl d

theorem isRoleWord_health (x : Line) : isRoleWord (SDL_Lx_HEALTH x.ix).ofs = false := by cases x <;> rfl

theorem keepsRoles.syncDefects {d e : Dev} (h : keepsRoles d e) (x : Line) : keepsRoles d (syncDefects e x) :=
  (h.setFlag (f := SDL_Lx_HEALTH_SF x.ix) (isRoleWord_health x) _).setFlag (f := SDL_Lx_HEALTH_SD x.ix) (isRoleWord_health x) _

theorem keepsRoles.countBlocked {d e : Dev} (h : keepsRoles d e) (r : Request) : keepsRoles d (countBlocked e r) := by
  unfold Machine.countBlocked
  split
  · exact h
  · exact ((h.setSaddle _).count rfl).raiseSdl _

theorem keepsStanding.isActive {d e : Dev} (h : keepsStanding d e) (x : Line) : isActive e x = isActive d x := by
  obtain ⟨hf, _⟩ := h
  rw [Machine.isActive, hasActive, flag, hf SDL_STATUS_HAS_ACTIVE (by decide), hf SDL_STATUS_ACTIVE (by decide), Machine.isActive,
    hasActive, flag]

theorem keepsStanding.switching {d e : Dev} (h : keepsStanding d e) : switching e = switching d := by
  obtain ⟨hf, _⟩ := h
  rw [Machine.switching, flag, hf SDL_STATUS_SWITCHING (by decide), Machine.switching, flag]

/-- A bar depends on the host's request and on the words of its line. -/
theorem keepsStanding.barred {d e : Dev} (h : keepsStanding d e) (x : Line) : barred e x = barred d x := by
  obtain ⟨hf, hr⟩ := h
  have hst := hr _ (isLineWord_state x)
  have hsr := hr _ (isLineWord_sr x)
  have hreq : srRequest e x = srRequest d x := by
    simp only [srRequest, terminalId, termState, fld_congr (DSF_SR_ACC_SR1 x.ix) hsr, fld_congr (DSF_SR_ACC_SR2 x.ix) hsr,
      fld_congr (RNG_Lx_STATUS_TERMINAL_ID x.ix) hst, fld_congr (RNG_Lx_STATUS_STATE x.ix) hst]
    congr
  rw [Machine.barred, hf SDL_STATUS_HOST_REQ (by decide), hf SDL_STATUS_HOST_TARGET (by decide), hreq, Machine.barred]

/-- The highest class in force leaves the lines as they are, switches to a line that may take the role, or counts what is blocked. -/
theorem actOn_cases (d : Dev) : actOn d = d
    ∨ (∃ f cls src, mayTake d cls f = true ∧ actOn d = syncRequests (startSwitch d f cls src))
    ∨ ∃ rs, actOn d = forEach rs countBlocked d := by
  unfold actOn
  simp only
  split
  · split
    · exact .inl rfl
    split
    · next hm => exact .inr (.inl ⟨_, _, _, hm, rfl⟩)
    · exact .inr (.inr ⟨_, rfl⟩)
  · exact .inl rfl

/-- What acts never gives the role to a barred line that lacks it. -/
theorem isActive_actOn {d : Dev} {f : Line} (hb : barred d f = true) (ha : isActive d f = false) : isActive (actOn d) f = false := by
  obtain h | ⟨g, cls, src, hm, h⟩ | ⟨rs, h⟩ := actOn_cases d
  · rw [h, ha]
  · have hg : g = f.other := by
      refine ne_other_iff.mp (fun hgf => ?_)
      subst hgf
      simp [mayTake, hb] at hm
    subst hg
    obtain ⟨hact, _⟩ := startSwitch_spec d f.other cls src
    rw [h, (syncRequests_keeps _).isActive]
    have hix : f.ix ≠ f.other.ix := by cases f <;> decide
    simp only [isActive, Bool.and_eq_true, beq_iff_eq] at hact
    simp [isActive, hact.2, hix.symm]
  · rw [h, ((keepsRoles.refl d).forEach (l := rs) (fun _ r _ hg => hg.countBlocked r)).standing.isActive, ha]

/-- The defects as the tick shows them, and the blocked requests that are still in force. -/
def defectsShown (d : Dev) : Dev := pruneBlocked (syncDefects (syncDefects d .a) .b)

theorem defectsShown_keeps (d : Dev) : keepsRoles d (defectsShown d) :=
  (((keepsRoles.refl d).syncDefects .a).syncDefects .b).setSaddle _

theorem pwrStopped_defectsShown (d : Dev) (step : Nat) : pwrStopped (defectsShown d) step = pwrStopped d step := by
  have hhealth : ∀ (e : Dev) (x : Line), rd (syncDefects e x) PWR_STATUS = rd e PWR_STATUS := fun e x => by
    have hne : PWR_STATUS.ofs ≠ (SDL_Lx_HEALTH x.ix).ofs := by simp only; omega
    rw [syncDefects, rd_setFlag_other _ _ hne, rd_setFlag_other _ _ hne]
  have hstate : pwrState (defectsShown d) = pwrState d :=
    fld_congr PWR_STATUS_STATE ((hhealth (syncDefects d .a) .b).trans (hhealth d .a))
  have hphase : (defectsShown d).pwr.phase = d.pwr.phase := rfl
  unfold pwrStopped sleeping
  rw [hstate, hphase]

theorem evaluate_eq (d : Dev) : evaluate d
    = if switching (defectsShown d) || pwrStopped (defectsShown d) 3 then syncRequests (defectsShown d)
    else actOn (syncRequests (checkWtr (defectsShown d))) := rfl

/-- An evaluation gives the role to no barred line, and to none while SWITCHING is set or SDL has granted an entry. -/
theorem isActive_evaluate {d : Dev} {f : Line} (h : barred d f = true ∨ switching d = true ∨ pwrStopped d 3 = true)
    (ha : isActive d f = false) : isActive (evaluate d) f = false := by
  have hshown := (defectsShown_keeps d).standing
  rw [evaluate_eq, hshown.switching, pwrStopped_defectsShown]
  split
  · rw [(hshown.trans (syncRequests_keeps _)).isActive, ha]
  · next hno =>
    simp only [Bool.or_eq_true, not_or] at hno
    obtain ⟨hsw, hpw⟩ := hno
    have hb : barred d f = true := (h.resolve_right (by simp [hsw, hpw]))
    have hready := (hshown.trans (checkWtr_keeps _)).trans (syncRequests_keeps _)
    exact isActive_actOn ((hready.barred f).trans hb) ((hready.isActive f).trans ha)

/-! ### The reports (R200) -/

/-- The grade that a report gives. -/
def reportGrade (d : Dev) (x : Line) : Nat :=
  if sfCause d x ≠ 0 ∨ groupFailed d x then gradeFailed
  else if isSD d x ∨ decide (fld d SDL_KA_CFG_KA_TO ≤ framesOf d x - (d.sdlLine.get x).kaTick) ∨ (d.sdlLine.get x).suppr
    ∨ min (uncorrOf d x) 255 ≠ 0 ∨ !mirrorOk d x then gradeDegraded else gradeHealthy

theorem reportGrade_lt (d : Dev) (x : Line) : reportGrade d x < 4 := by
  unfold reportGrade
  split
  · decide
  · split <;> decide

/-- What a report shows beside the grade and the defects. -/
def healthShown (d : Dev) (x : Line) (ok late bst suppr : Bool) (sf ka un : Nat) : Dev :=
  let d := setFlag d (SDL_Lx_HEALTH_MIRROR_OK x.ix) ok
  let d := setFlag (setFlag d (SDL_Lx_HEALTH_KA_LATE x.ix) late) (SDL_Lx_HEALTH_BST_FAIL x.ix) bst
  let d := setFld (setFlag d (SDL_Lx_HEALTH_SUPPR x.ix) suppr) (SDL_Lx_HEALTH_SF_CAUSE x.ix) sf
  setFld (setFld d (SDL_Lx_HEALTH_KA_GRANTS x.ix) ka) (SDL_Lx_HEALTH_UNCORR x.ix) un

theorem gradeOf_healthShown (d : Dev) (x : Line) (ok late bst suppr : Bool) (sf ka un : Nat) :
    gradeOf (healthShown d x ok late bst suppr sf ka un) x = gradeOf d x := by
  rw [gradeOf, healthShown, fld_setFld_apart _ _ (by simp [apart]), fld_setFld_apart _ _ (by simp [apart]),
    fld_setFld_apart _ _ (by simp [apart]), fld_setFlag_apart _ _ (by simp [apart]), fld_setFlag_apart _ _ (by simp [apart]),
    fld_setFlag_apart _ _ (by simp [apart]), fld_setFlag_apart _ _ (by simp [apart]), gradeOf]

theorem healthReport_eq (d : Dev) (x : Line) (sec : Nat) : ∃ ok late bst suppr sf ka un g, healthReport d x sec
    = setSdl (wrn (healthShown (setFld (syncDefects d x) (SDL_Lx_HEALTH_GRADE x.ix) (reportGrade d x)) x ok late bst suppr sf ka un)
        (SDL_Lx_HEALTH_SEC x.ix) sec) x g := by
  refine ⟨mirrorOk d x, decide (fld d SDL_KA_CFG_KA_TO ≤ framesOf d x - (d.sdlLine.get x).kaTick), groupFailed d x,
    (d.sdlLine.get x).suppr, sfCause d x, min (d.sdlLine.get x).kaCount 255, min (uncorrOf d x) 255,
    fun h => { h with kaCount := 0, suppr := false }, ?_⟩
  rfl

theorem rdn_setSdl (d : Dev) (x : Line) (g : SdlLine → SdlLine) (q : Reg) : rdn (setSdl d x g) q = rdn d q := rfl

theorem gradeOf_setSdl (d : Dev) (x : Line) (g : SdlLine → SdlLine) : gradeOf (setSdl d x g) x = gradeOf d x := rfl

/-- A report shows the second that ended and its grade. -/
theorem healthReport_shows (d : Dev) (x : Line) (sec : Nat) : rdn (healthReport d x sec) (SDL_Lx_HEALTH_SEC x.ix) = sec % 0x100000000
    ∧ gradeOf (healthReport d x sec) x = reportGrade d x := by
  obtain ⟨ok, late, bst, suppr, sf, ka, un, g, e⟩ := healthReport_eq d x sec
  rw [e]
  refine ⟨(rdn_setSdl _ _ _ _).trans (rdn_wrn_same _ _ _), ?_⟩
  have hsec : (SDL_Lx_HEALTH x.ix).ofs ≠ (SDL_Lx_HEALTH_SEC x.ix).ofs := by simp only; omega
  rw [gradeOf_setSdl, gradeOf, fld_congr _ (rd_wrn_other _ sec hsec), ← gradeOf, gradeOf_healthShown, gradeOf,
    fld_setFld_same _ _ (by simp) (by simp)]
  exact Nat.mod_eq_of_lt (reportGrade_lt d x)

theorem reportGrade_eq (d : Dev) (x : Line) : reportGrade d x
    = if sfCause d x ≠ 0 ∨ groupFailed d x = true then gradeFailed
      else if isSD d x = true ∨ fld d SDL_KA_CFG_KA_TO ≤ framesOf d x - (d.sdlLine.get x).kaTick ∨ (d.sdlLine.get x).suppr = true
        ∨ min (uncorrOf d x) 255 ≠ 0 ∨ mirrorOk d x = false then gradeDegraded else gradeHealthy := by
  simp only [reportGrade, decide_eq_true_eq, Bool.not_eq_true']

theorem exec_healthReport (s : State) : exec .healthReport s = .next (s.withDev (healthReports s.dev)) := rfl

theorem secMark_clearMark (d : Dev) (k : Nat) : secMark (clearMark d k) k = none := by
  simp [secMark, clearMark, SecMark.none]

theorem healthReports_of_some {d : Dev} {sec : Nat} {b : Bool} (h : secMark d secHealth = some (sec, b)) :
    healthReports d = reportSecond (clearMark d secHealth) sec := by
  simp only [healthReports, h]

theorem healthReports_of_none {d : Dev} (h : secMark d secHealth = none) : healthReports d = d := by
  simp only [healthReports, h]

/-! ### The end of a switch and of the wait (R205 to R207) -/

theorem exec_switchEnd (s : State) : exec .switchEnd s = .next (s.withDev (switchEnd s.dev)) := rfl

theorem exec_wtrExpire (s : State) : exec .wtrExpire s = .next (s.withDev (wtrExpire s.dev)) := rfl

/-- The gaps of a switch are recorded. -/
def gapsShown (d : Dev) : Dev :=
  setFld (setFld d SDL_LAST_GAP_UP_US (min ((d.elapsed - d.saddle.swTick) / ticksPerUs) 0xFFFF)) SDL_LAST_GAP_DN_US
    (min (d.saddle.swDown.getD 0) 0xFFFF)

theorem switchEnd_of_over {d : Dev} (hs : switching d = true) (h : newGridBegun d = true ∨ d.saddle.swTick + 9375 ≤ d.elapsed) :
    switchEnd d = setSaddle (setFlag (gapsShown d) SDL_STATUS_SWITCHING false) (fun s => { s with evaluated := false }) := by
  have hcond : (switching d && (newGridBegun d || decide (d.saddle.swTick + gapTicks ≤ d.elapsed))) = true := by
    rw [hs, gapTicks, Bool.true_and, Bool.or_eq_true, decide_eq_true_eq]
    exact h
  rw [switchEnd, if_pos hcond]
  rfl

theorem switchEnd_of_not_over {d : Dev}
    (h : switching d = false ∨ (newGridBegun d = false ∧ d.elapsed < d.saddle.swTick + 9375)) : switchEnd d = d := by
  refine if_neg ?_
  rcases h with h | ⟨hgrid, ht⟩
  · simp [h]
  · simp [hgrid, gapTicks, Nat.not_le.mpr ht]

theorem gapsShown_spec (d : Dev) : fld (gapsShown d) SDL_LAST_GAP_UP_US = min ((d.elapsed - d.saddle.swTick) / 25) 0xFFFF
    ∧ fld (gapsShown d) SDL_LAST_GAP_DN_US = min (d.saddle.swDown.getD 0) 0xFFFF := by
  unfold gapsShown ticksPerUs
  constructor
  · rw [fld_setFld_apart _ _ (by simp [apart]), fld_setFld_same _ _ (by decide) (by decide)]
    exact Nat.mod_eq_of_lt (by simp only; omega)
  · rw [fld_setFld_same _ _ (by decide) (by decide)]
    exact Nat.mod_eq_of_lt (by simp only; omega)

theorem fld_setSaddle (d : Dev) (g : Saddle → Saddle) (f : Fld) : fld (setSaddle d g) f = fld d f := rfl

theorem wtrExpire_of_over {d : Dev} (hr : flag d SDL_STATUS_WTR_RUN = true) (hl : fld d SDL_STATUS_WTR_LEFT = 0) :
    wtrExpire d = setSaddle d (fun s => { s with wtrOver := true }) := by
  simp [wtrExpire, hr, hl]

/-- Settles O45: a switch is its record, the old line's part, the new line's part and the role, and each leaves device time; an
evaluation that gives the role gives it by a switch. -/
theorem switchingLines : Obligations.SwitchingLines := by
  refine ⟨startSwitch_spec, fun d f h ha => isActive_evaluate h ha, fun d x sec => ?_, fun s => ⟨?_, ?_, ?_, ?_, ?_, ?_⟩⟩
  · obtain ⟨hsec, hgrade⟩ := healthReport_shows d x sec
    exact ⟨hsec, hgrade.trans (reportGrade_eq d x)⟩
  · intro sec b h
    rw [exec_healthReport, healthReports_of_some h]
    exact ⟨rfl, secMark_clearMark _ _⟩
  · intro h
    rw [exec_healthReport, healthReports_of_none h, withDev_self]
  · intro hs h
    obtain ⟨hup, hdn⟩ := gapsShown_spec s.dev
    refine ⟨_, exec_switchEnd s, ?_⟩
    rw [switchEnd_of_over hs h]
    refine ⟨?_, rfl, ?_, ?_⟩
    · rw [switching, flag, fld_setSaddle]
      exact flag_setFlag_same _ _ (by decide) (by decide)
    · rw [fld_setSaddle, fld_congr _ (rd_setFlag_other _ _ (by decide))]
      exact hup
    · rw [fld_setSaddle, fld_congr _ (rd_setFlag_other _ _ (by decide))]
      exact hdn
  · intro h
    rw [exec_switchEnd, switchEnd_of_not_over h, withDev_self]
  · intro hr hl
    refine ⟨_, exec_wtrExpire s, ?_⟩
    rw [wtrExpire_of_over hr hl]
    exact ⟨rfl, rfl⟩
  · intro h
    rw [exec_wtrExpire, wtrExpire, if_neg (by simp [h]), withDev_self]

end Sys2Proof.Machine
end

section
/-!
PROOFS. The end of a commit: what recording an outcome touches, and who ends a commit before it is due (R73, R76, R77, R78).
-/

namespace Sys2Proof.Machine

/-! ### The commands of spec/04 as operations over the block -/

theorem exec_commitPost (m : Master) (p : Fin 36) (value : Word) (s : State) :
    exec (.commitPost m p value) s = .next (s.withDev (commitPost m p value s.dev)) := rfl

theorem exec_commitCancel (m : Master) (p : Fin 36) (value : Word) (s : State) :
    exec (.commitCancel m p value) s = .next (s.withDev (commitCancel m p value s.dev)) := rfl

theorem exec_commitDue (s : State) : exec .commitDue s = .next (s.withDev (commitDue s.dev)) := rfl

theorem exec_commitFrameTimeout (s : State) : exec .commitFrameTimeout s = .next (s.withDev (commitFrameTimeout s.dev)) := rfl

/-! ### What is reported of an outcome once it stands in the log (R78) -/

/-- From d to e an outcome is reported: registers but TCM_LOG_SEQ and messages change, and nothing else. -/
def reportsOnly (d e : Dev) : Prop :=
  (∃ r p o, e = { d with regs := r, msixPending := p, out := o }) ∧ rd e TCM_LOG_SEQ = rd d TCM_LOG_SEQ

theorem reportsOnly.refl (d : Dev) : reportsOnly d d := ⟨⟨_, _, _, rfl⟩, rfl⟩

theorem reportsOnly.trans {d e g : Dev} (h : reportsOnly d e) (h' : reportsOnly e g) : reportsOnly d g := by
  obtain ⟨⟨_, _, _, rfl⟩, hd⟩ := h
  obtain ⟨⟨r, p, o, rfl⟩, he⟩ := h'
  exact ⟨⟨r, p, o, rfl⟩, he.trans hd⟩

theorem reportsOnly_wr (d : Dev) {q : Reg} (w : Word) (h : TCM_LOG_SEQ.ofs ≠ q.ofs) : reportsOnly d (wr d q w) :=
  ⟨⟨_, _, _, rfl⟩, rd_wr_other d w h⟩

theorem reportsOnly_whenD (c : Bool) {f : Dev → Dev} (h : ∀ d, reportsOnly d (f d)) (d : Dev) : reportsOnly d (whenD c f d) := by
  rcases whenD_cases c f d with e | e
  · rw [e]; exact .refl d
  · rw [e]; exact h d

theorem reportsOnly_raisePoster (d : Dev) (p b : Nat) : reportsOnly d (raisePoster d p b) := by
  unfold raisePoster
  split
  · exact ⟨raiseFn_regs d p b, rd_raiseFn_other d p b (by simp only; omega)⟩
  · exact ⟨⟨_, _, _, rfl⟩, rfl⟩

/-- The entry of the result log for an outcome of this tick. -/
def outcomeEntry (d : Dev) (id poster units outcome unitBit : Nat) : CommitEntry :=
  { id := id, poster := posterMaster poster, outcome := outcome, unitBit := unitBit, units := units,
    sec := d.clock.sec.toNat % 0x100000000, ns := d.clock.ns.val }

/-- The block with an entry more in its result log. -/
def logged (d : Dev) (e : CommitEntry) : Dev :=
  wrn { d with commitLog := sput ⟨0, 0, 0, 0, 0, 0, 0⟩ d.commitLog (rdn d TCM_LOG_SEQ % 64) e } TCM_LOG_SEQ (rdn d TCM_LOG_SEQ + 1)

/-- Recording an outcome is its log entry and what is reported of it. -/
theorem recordOutcome_spec (d : Dev) (id poster units outcome unitBit : Nat) (notify : Bool) :
    reportsOnly (logged d (outcomeEntry d id poster units outcome unitBit)) (recordOutcome d id poster units outcome unitBit notify) := by
  have hcount : ∀ {q : Reg}, TCM_LOG_SEQ.ofs ≠ q.ofs → ∀ e, reportsOnly e (count e q) := fun h e => reportsOnly_wr e _ h
  have hresult : ∀ e, reportsOnly e (setFld e (TCM_POST_RESULT_OUTCOME poster) outcome) :=
    fun e => reportsOnly_wr e _ (by simp only; omega)
  have hlast : ∀ e, reportsOnly e (if outApplies outcome then whenD notify (fun d => raisePoster d poster evCommitDone) e
      else raisePoster e poster evCommitFail) := by
    intro e
    split
    · exact reportsOnly_whenD _ (fun g => reportsOnly_raisePoster g _ _) e
    · exact reportsOnly_raisePoster e _ _
  unfold recordOutcome
  exact (reportsOnly_whenD _ (hcount (by decide)) _).trans <| (reportsOnly_whenD _ (hcount (by decide)) _).trans <|
    (reportsOnly_whenD _ (hcount (by decide)) _).trans <| (reportsOnly_whenD _ hresult _).trans (hlast _)

theorem recordOutcome_commits (d : Dev) (id poster units outcome unitBit : Nat) (notify : Bool) :
    (recordOutcome d id poster units outcome unitBit notify).commits = d.commits := by
  obtain ⟨⟨r, p, o, e⟩, -⟩ := recordOutcome_spec d id poster units outcome unitBit notify
  rw [e]
  rfl

theorem recordOutcome_dirty (d : Dev) (id poster units outcome unitBit : Nat) (notify : Bool) :
    (recordOutcome d id poster units outcome unitBit notify).dirty = d.dirty := by
  obtain ⟨⟨r, p, o, e⟩, -⟩ := recordOutcome_spec d id poster units outcome unitBit notify
  rw [e]
  rfl

theorem recordOutcome_applied (d : Dev) (id poster units outcome unitBit : Nat) (notify : Bool) :
    (recordOutcome d id poster units outcome unitBit notify).applied = d.applied := by
  obtain ⟨⟨r, p, o, e⟩, -⟩ := recordOutcome_spec d id poster units outcome unitBit notify
  rw [e]
  rfl

/-- The log takes the entry at the sequence count mod 64. -/
theorem recordOutcome_entry (d : Dev) (id poster units outcome unitBit : Nat) (notify : Bool) :
    sget ⟨0, 0, 0, 0, 0, 0, 0⟩ (recordOutcome d id poster units outcome unitBit notify).commitLog (rdn d TCM_LOG_SEQ % 64)
      = outcomeEntry d id poster units outcome unitBit := by
  obtain ⟨⟨r, p, o, e⟩, -⟩ := recordOutcome_spec d id poster units outcome unitBit notify
  rw [e]
  exact sget_sput_same _ _ _ _

theorem recordOutcome_seq (d : Dev) (id poster units outcome unitBit : Nat) (notify : Bool) :
    rd (recordOutcome d id poster units outcome unitBit notify) TCM_LOG_SEQ = BitVec.ofNat 32 (rdn d TCM_LOG_SEQ + 1) :=
  (recordOutcome_spec d id poster units outcome unitBit notify).2.trans (rd_wrn_same _ _ _)

/-! ### The end of a commit -/

theorem rd_syncPend_other (d : Dev) {q : Reg} (h0 : q.ofs ≠ TCM_PEND0.ofs) (h1 : q.ofs ≠ TCM_PEND1.ofs) :
    rd (syncPend d) q = rd d q := by
  rw [syncPend, rd_wrn_other _ _ h1, rd_wrn_other _ _ h0]

theorem syncPend_commits (d : Dev) : (syncPend d).commits = d.commits := by rw [syncPend, wrn_commits, wrn_commits]

/-- The block with the slots of a commit freed in every unit. -/
def slotsFreed (d : Dev) (c : Commit) : Dev := syncPend { d with commits := d.commits.filter (fun e => e.id != c.id) }

theorem finishCommit_eq (d : Dev) (c : Commit) (outcome unitBit : Nat) :
    finishCommit d c outcome unitBit = recordOutcome (slotsFreed d c) c.id c.poster c.units outcome unitBit c.notify := rfl

theorem slotsFreed_commits (d : Dev) (c : Commit) : (slotsFreed d c).commits = d.commits.filter (fun e => e.id != c.id) := by
  rw [slotsFreed, syncPend_commits]

theorem slotsFreed_applied (d : Dev) (c : Commit) : (slotsFreed d c).applied = d.applied := by
  rw [slotsFreed, syncPend, wrn_applied, wrn_applied]

theorem slotsFreed_clock (d : Dev) (c : Commit) : (slotsFreed d c).clock = d.clock := by
  rw [slotsFreed, syncPend, wrn_clock, wrn_clock]

theorem rdn_slotsFreed_seq (d : Dev) (c : Commit) : rdn (slotsFreed d c) TCM_LOG_SEQ = rdn d TCM_LOG_SEQ :=
  congrArg BitVec.toNat (rd_syncPend_other _ (by decide) (by decide))

/-- An ended commit is pending no longer. -/
theorem finishCommit_commits (d : Dev) (c : Commit) (outcome unitBit : Nat) :
    (finishCommit d c outcome unitBit).commits = d.commits.filter (fun e => e.id != c.id) := by
  rw [finishCommit_eq, recordOutcome_commits, slotsFreed_commits]

theorem id_ne_of_mem_finishCommit {d : Dev} {c e : Commit} {outcome unitBit : Nat}
    (h : e ∈ (finishCommit d c outcome unitBit).commits) : e.id ≠ c.id := by
  rw [finishCommit_commits] at h
  simpa using (List.mem_filter.mp h).2

theorem finishCommit_applied (d : Dev) (c : Commit) (outcome unitBit : Nat) : (finishCommit d c outcome unitBit).applied = d.applied := by
  rw [finishCommit_eq, recordOutcome_applied, slotsFreed_applied]

/-- Settles O25: freeing the slots leaves the sequence count and device time, from which the log entry is made. -/
theorem outcomeIsRecorded : Obligations.OutcomeIsRecorded := by
  intro d c o b _
  refine ⟨finishCommit_commits d c o b, ?_, ?_⟩
  · rw [← rdn_slotsFreed_seq d c, finishCommit_eq, recordOutcome_entry, outcomeEntry, slotsFreed_clock]
  · rw [← rdn_slotsFreed_seq d c, finishCommit_eq, recordOutcome_seq]

/-! ### Cancelling and timing out (R73, R76) -/

/-- The pending commit that a write to TCM_POST_CANCEL names. -/
def namedCommit (d : Dev) (value : Word) : Option Commit := d.commits.find? (fun c => c.id == getBits value 15 0)

/-- An admitted cancel with GO that names a commit ends it where its writer may and it is not due. -/
theorem commitCancel_of_some {m : Master} {p : Fin 36} {value : Word} {d : Dev} {c : Commit}
    (ha : admits d m (TCM_POST_CANCEL p).ofs = true) (hgo : value.getLsbD 31 = true) (hc : namedCommit d value = some c) :
    commitCancel m p value d
      = if (m = 0 ∨ posterMaster c.poster = m) ∧ !isDue d c then finishCommit d c outCancelled 15 else d := by
  unfold namedCommit at hc
  rw [commitCancel, guarded_admits _ ha, if_pos hgo, hc]

theorem commitCancel_of_none {m : Master} {p : Fin 36} {value : Word} {d : Dev}
    (ha : admits d m (TCM_POST_CANCEL p).ofs = true) (hgo : value.getLsbD 31 = true) (hc : namedCommit d value = none) :
    commitCancel m p value d = d := by
  unfold namedCommit at hc
  rw [commitCancel, guarded_admits _ ha, if_pos hgo, hc]

/-- Settles O23: by whether the ID names a pending commit, and whether the writer may end it now. -/
theorem cancelFreesTheCommit : Obligations.CancelFreesTheCommit := by
  intro m p value s ha hgo
  refine ⟨fun c hc hm hd => ⟨?_, fun e he => id_ne_of_mem_finishCommit he⟩, fun hc => ?_, fun c hc hno => ?_⟩
  · rw [exec_commitCancel, commitCancel_of_some ha hgo hc, if_pos ⟨hm, by simp [hd]⟩]
  · rw [exec_commitCancel, commitCancel_of_none ha hgo hc, withDev_self]
  · have hnot : ¬ ((m = 0 ∨ posterMaster c.poster = m) ∧ (!isDue s.dev c) = true) := by
      rintro ⟨hm, hd⟩
      rcases hno with hdue | ⟨h0, hp⟩
      · simp [hdue] at hd
      · exact hm.elim h0 hp
    rw [exec_commitCancel, commitCancel_of_some ha hgo hc, if_neg hnot, withDev_self]

/-- Settles O26: the first commit whose wait is over is the one that ends. -/
theorem frameCommitTimesOut : Obligations.FrameCommitTimesOut := by
  intro s
  refine ⟨fun c hc => ?_, fun hc => ?_⟩
  · rw [exec_commitFrameTimeout, commitFrameTimeout, hc]
  · rw [exec_commitFrameTimeout, commitFrameTimeout, hc, withDev_self]

/-! ### The due tick (R74) -/

theorem commitDue_of_none {d : Dev} (h : d.commits.any (isDue d) = false) : commitDue d = d := by
  rw [commitDue, if_neg (by simp [h])]

/-- Where a commit is due, the one that is next after the Saddle's evaluation is settled. -/
theorem commitDue_of_some {d : Dev} {c : Commit} (h : d.commits.any (isDue d) = true) (hc : nextDue (evaluateTick d) = some c) :
    commitDue d = settleCommit (evaluateTick d) c := by
  simp only [commitDue, if_pos h, hc]

theorem settleCommit_of_unpowered {d : Dev} {c : Commit} {b : Nat} (h : unpoweredUnit d c = some b) :
    settleCommit d c = finishCommit d c outUnpowered b := by
  rw [settleCommit, h]

theorem settleCommit_of_refused {d : Dev} {c : Commit} {b : Nat} {l : List Nat} (hp : unpoweredUnit d c = none)
    (h : refusingUnits d c = b :: l) :
    settleCommit d c = finishCommit (forEach (b :: l) (reportRefusal c) d) c outRefused b := by
  rw [settleCommit, hp, h]

theorem settleCommit_of_agreed {d : Dev} {c : Commit} (hp : unpoweredUnit d c = none) (h : refusingUnits d c = []) :
    settleCommit d c = forEach (unitBits c.units) (applyUnit c) (finishCommit d c (appliedOutcome c) 15) := by
  rw [settleCommit, hp, h]

/-- Settles O24: the commit that is next is settled by the first of the three cases that it meets: no power, a refusal, agreement. -/
theorem commitAppliesWhollyOrNotAtAll : Obligations.CommitAppliesWhollyOrNotAtAll := by
  intro s
  refine ⟨fun h => ?_, ?_⟩
  · rw [exec_commitDue, commitDue_of_none h, withDev_self]
  · rintro e c hdue rfl hc
    rw [exec_commitDue, commitDue_of_some hdue hc]
    refine ⟨fun b hb => ⟨?_, finishCommit_applied _ _ _ _⟩, fun hp => ⟨fun b l hl => ?_, fun hl => ?_⟩⟩
    · rw [settleCommit_of_unpowered hb]
    · rw [settleCommit_of_refused hp hl]
    · rw [settleCommit_of_agreed hp hl]

end Sys2Proof.Machine
end

section
/-!
PROOFS. Posting a commit: the ID that it takes, the words that it captures, and its outcome where a check fails (R70, R71); and the
command at the front of the queue.
-/

namespace Sys2Proof.Machine

/-! ### The ID of a commit (R71) -/

theorem freeId_lt (d : Dev) (k n : Nat) : freeId d k n < 65536 := by
  induction k generalizing n with
  | zero => exact Nat.mod_lt _ (by decide)
  | succ k ih =>
    rw [freeId]
    split
    · exact ih _
    · exact Nat.mod_lt _ (by decide)

/-- An ID that is assigned though a commit holds it comes after k IDs that are all held. -/
theorem held_of_freeId_held {d : Dev} {k n : Nat} (h : freeId d k n ∈ d.commits.map (·.id)) :
    ∀ i ≤ k, (n + i) % 65536 ∈ d.commits.map (·.id) := by
  induction k generalizing n with
  | zero =>
    intro i hi
    rwa [Nat.le_zero.mp hi]
  | succ k ih =>
    rw [freeId] at h
    split at h
    next hany =>
      intro i hi
      cases i with
      | zero => simpa using hany
      | succ i => simpa [Nat.add_assoc, Nat.add_comm 1 i] using ih h i (by omega)
    next hany => exact absurd h (by simpa using hany)

/-- Settles O22: 73 IDs in a row are distinct, and 72 commits cannot hold them all. -/
theorem noTwoPendingShareAnId : Obligations.NoTwoPendingShareAnId := by
  intro d hlen c hc _ heq
  have hheld := held_of_freeId_held (heq ▸ List.mem_map_of_mem (f := Commit.id) hc)
  have hsub : (List.range 73).map (fun i => (d.nextCommit + i) % 65536) ⊆ d.commits.map (·.id) := by
    intro x hx
    obtain ⟨i, hi, rfl⟩ := List.mem_map.mp hx
    exact hheld i (Nat.le_of_lt_succ (List.mem_range.mp hi))
  have hnodup : ((List.range 73).map (fun i => (d.nextCommit + i) % 65536)).Nodup := by
    refine List.Nodup.map_on (fun i hi j hj hij => ?_) List.nodup_range
    rw [List.mem_range] at hi hj
    omega
  have hcard := (hnodup.subperm hsub).length_le
  simp only [List.length_map, List.length_range] at hcard
  omega

/-! ### What a capture reads: register words and dirty marks -/

/-- The two blocks hold the same register words and the same dirty marks. -/
def sameWords (d e : Dev) : Prop := e.regs = d.regs ∧ e.dirty = d.dirty

namespace sameWords

theorem ite (c : Prop) [Decidable c] {d e d' e' : Dev} (h : sameWords d e) (h' : sameWords d' e') :
    sameWords (if c then d else d') (if c then e else e') := by
  split
  · exact h
  · exact h'

variable {d e : Dev} (h : sameWords d e)
include h

theorem rd (q : Reg) : rd e q = rd d q := by rw [Machine.rd, h.1, Machine.rd]

theorem rdn (q : Reg) : rdn e q = rdn d q := congrArg BitVec.toNat (h.rd q)

theorem wr (q : Reg) (w : Word) : sameWords (wr d q w) (wr e q w) := ⟨congrArg (fun r => sput q.rst r q.ofs w) h.1, h.2⟩

theorem wrn (q : Reg) (n : Nat) : sameWords (wrn d q n) (wrn e q n) := h.wr q _

theorem setFld (f : Fld) (v : Nat) : sameWords (setFld d f v) (setFld e f v) := by
  rw [Machine.setFld, Machine.setFld, h.rd]
  exact h.wr _ _

theorem countFld (f : Fld) : sameWords (countFld d f) (countFld e f) := by
  rw [Machine.countFld, Machine.countFld, countFldBy, countFldBy, fld_congr f (h.rd _)]
  exact h.setFld _ _

theorem mark (k : Nat) : sameWords { d with dirty := insSorted k d.dirty } { e with dirty := insSorted k e.dirty } :=
  ⟨h.1, congrArg (insSorted k) h.2⟩

/-- Which messages go out does not show in the registers. -/
theorem raiseFn (f b : Nat) : sameWords (raiseFn d f b) (raiseFn e f b) := by
  obtain ⟨_, _, hd⟩ := raiseFn_spec d f b
  obtain ⟨_, _, he⟩ := raiseFn_spec e f b
  rw [hd, he, setRegBit, setRegBit, h.rd]
  exact h.wr _ _

theorem logClamp (writer : Nat) (u : UnitRow) (rel width lsb written applied : Nat) :
    sameWords (logClamp d writer u rel width lsb written applied) (logClamp e writer u rel width lsb written applied) := by
  simp only [Machine.logClamp, h.rdn, forEach, List.foldl_cons, List.foldl_nil]
  refine raiseFn (.setFld (.setFld (.setFld (.countFld (.setFld (.setFld (.wrn ?_ _ _) _ _) _ _) _) _ _) _ _) _ _) 0 evClamp
  exact h

theorem checkPair (writer : Nat) (u : UnitRow) (lo hi : Reg) (hiWidth low high : Nat) :
    sameWords (checkPair d writer u lo hi hiWidth low high) (checkPair e writer u lo hi hiWidth low high) := by
  simp only [Machine.checkPair, h.rdn]
  exact wrn (wrn (ite _ (ite _ h (h.logClamp ..)) (logClamp (ite _ h (h.logClamp ..)) ..)) ..) ..

end sameWords

/-- The register's word is dirty where it changed from d to e. -/
def markChanged (d e : Dev) (r : Reg) : Dev := if rd e r = rd d r then e else { e with dirty := insSorted r.ofs e.dirty }

theorem checkBase_eq (d : Dev) (writer : Nat) : checkBase d writer
    = markChanged d (markChanged d (checkPair d writer (unitAt 8) KST_FREQ_BASE_LO KST_FREQ_BASE_HI 22 0x27FAE147AE147B 0x28051EB851EB85)
        KST_FREQ_BASE_LO) KST_FREQ_BASE_HI := rfl

theorem sameWords.markChanged {d e d' e' : Dev} (h : sameWords d e) (h' : sameWords d' e') (r : Reg) :
    sameWords (markChanged d d' r) (markChanged e e' r) := by
  rw [Machine.markChanged, Machine.markChanged, h.rd, h'.rd]
  exact .ite _ h' (h'.mark _)

theorem sameWords.checkBasePair {d e : Dev} (h : sameWords d e) (writer units : Nat) :
    sameWords (checkBasePair d writer units) (checkBasePair e writer units) := by
  rw [Machine.checkBasePair, Machine.checkBasePair, h.2, checkBase_eq, checkBase_eq]
  exact .ite _ (h.markChanged (h.markChanged (h.checkPair ..) _) _) h

/-- The words that a post captures: those dirty in its units, with their shadows. -/
def capturedWords (d : Dev) (units : Nat) : List (Nat × Word) :=
  (((unitBits units).map (dirtyOf d)).flatten).map (fun o => (o, shadowAt d o))

theorem sameWords.shadowAt {d e : Dev} (h : sameWords d e) (ofs : Nat) : shadowAt e ofs = shadowAt d ofs := by
  simp only [Machine.shadowAt, h.rd]

theorem sameWords.dirtyOf {d e : Dev} (h : sameWords d e) (b : Nat) : dirtyOf e b = dirtyOf d b := by
  rw [Machine.dirtyOf, Machine.dirtyOf, h.2]

theorem sameWords.capturedWords {d e : Dev} (h : sameWords d e) (units : Nat) : capturedWords e units = capturedWords d units := by
  rw [Machine.capturedWords, Machine.capturedWords, funext h.dirtyOf, funext h.shadowAt]

/-! ### What a capture leaves of the pending commits (R71) -/

theorem logClamp_commits (d : Dev) (writer : Nat) (u : UnitRow) (rel width lsb written applied : Nat) :
    (logClamp d writer u rel width lsb written applied).commits = d.commits := by
  obtain ⟨r, c, p, o, e⟩ := logClamp_touches d writer u rel width lsb written applied
  rw [e]

theorem checkPair_commits (d : Dev) (writer : Nat) (u : UnitRow) (lo hi : Reg) (hiWidth low high : Nat) :
    (checkPair d writer u lo hi hiWidth low high).commits = d.commits := by
  simp only [checkPair, wrn_commits, apply_ite Dev.commits, logClamp_commits, ite_self]

theorem markChanged_commits (d e : Dev) (r : Reg) : (markChanged d e r).commits = e.commits := by
  unfold markChanged
  split <;> rfl

theorem checkBasePair_commits (d : Dev) (writer units : Nat) : (checkBasePair d writer units).commits = d.commits := by
  unfold checkBasePair
  split
  · rw [checkBase_eq, markChanged_commits, markChanged_commits, checkPair_commits]
  · rfl

theorem clearCommand_commits (d : Dev) (ofs : Nat) : (clearCommand d ofs).commits = d.commits := by
  simp only [clearCommand, apply_ite Dev.commits, setFld_commits, ite_self]

/-- A capture puts one commit after the pending ones, with the words that were dirty in its units. -/
theorem capture_commits (d : Dev) (writer p units id : Nat) (due : Due) (late : Bool) :
    ∃ c : Commit, (capture d writer p units id due late).commits = d.commits ++ [c] ∧ c.id = id ∧ c.poster = p ∧ c.units = units
      ∧ c.due = due ∧ c.late = late ∧ c.words = capturedWords (checkBasePair d writer units) units := by
  have hcleared : ∀ (l : List Nat) (e : Dev), (forEach l clearCommand e).commits = e.commits := fun l e =>
    forEach_keeps (P := fun g => g.commits = e.commits) (fun g o hg => (clearCommand_commits g o).trans hg) l rfl
  simp only [capture, syncPend_commits, hcleared, checkBasePair_commits]
  exact ⟨_, rfl, rfl, rfl, rfl, rfl, rfl, rfl⟩

/-! ### Posting (R70) -/

/-- The ID that the next post takes. -/
def nextId (d : Dev) : Nat := freeId d 72 d.nextCommit

/-- The block once a post has taken an ID. -/
def idTaken (d : Dev) (id : Nat) : Dev := { d with nextCommit := (id + 1) % 65536 }

theorem idTaken_commits (d : Dev) (id : Nat) : (idTaken d id).commits = d.commits := rfl

theorem idTaken_dirty (d : Dev) (id : Nat) : (idTaken d id).dirty = d.dirty := rfl

theorem idTaken_sameWords (d : Dev) (id : Nat) : sameWords d (idTaken d id) := ⟨rfl, rfl⟩

theorem postCheck_idTaken (d : Dev) (id p units : Nat) : postCheck (idTaken d id) p units = postCheck d p units := rfl

/-- A post takes the next ID and then acts by the verdict of its checks. -/
theorem post_eq (d : Dev) (writer p : Nat) : post d writer p
    = match postCheck (idTaken d (nextId d)) p (fld d (TCM_POST_CTL_UNITS p)) with
      | .error o => recordOutcome (wrn (idTaken d (nextId d)) (TCM_POST_RESULT p) (nextId d * 65536)) (nextId d) p
          (fld d (TCM_POST_CTL_UNITS p)) o 15
          (flag (wrn (idTaken d (nextId d)) (TCM_POST_RESULT p) (nextId d * 65536)) (TCM_POST_CTL_NOTIFY p))
      | .ok (due, late) => wrn (capture (idTaken d (nextId d)) writer p (fld d (TCM_POST_CTL_UNITS p)) (nextId d) due late)
          (TCM_POST_RESULT p) (nextId d * 65536) := rfl

/-- A post that fails a check shows its ID and records the outcome. -/
theorem post_of_error {d : Dev} {p o : Nat} (writer : Nat) (h : postCheck d p (fld d (TCM_POST_CTL_UNITS p)) = .error o) :
    post d writer p = recordOutcome (wrn (idTaken d (nextId d)) (TCM_POST_RESULT p) (nextId d * 65536)) (nextId d) p
      (fld d (TCM_POST_CTL_UNITS p)) o 15 (flag d (TCM_POST_CTL_NOTIFY p)) := by
  have hnotify : ∀ id n, flag (wrn (idTaken d id) (TCM_POST_RESULT p) n) (TCM_POST_CTL_NOTIFY p) = flag d (TCM_POST_CTL_NOTIFY p) :=
    fun id n => flag_congr _ ((rd_wrn_other _ _ (by simp only; omega)).trans ((idTaken_sameWords d id).rd _))
  simp only [post_eq, postCheck_idTaken, h, hnotify]

/-- A post whose checks pass captures its words and shows its ID as pending. -/
theorem post_of_ok {d : Dev} {p : Nat} {r : Due × Bool} (writer : Nat) (h : postCheck d p (fld d (TCM_POST_CTL_UNITS p)) = .ok r) :
    post d writer p = wrn (capture (idTaken d (nextId d)) writer p (fld d (TCM_POST_CTL_UNITS p)) (nextId d) r.1 r.2) (TCM_POST_RESULT p)
      (nextId d * 65536) := by
  simp only [post_eq, postCheck_idTaken, h]

/-- An admitted write of TCM_POST_CTL stores its word, and posts where GO is written 1. -/
theorem exec_commitPost_admits {m : Master} {p : Fin 36} {s : State} (value : Word) (ha : admits s.dev m (TCM_POST_CTL p).ofs = true) :
    exec (.commitPost m p value) s
      = .next (s.withDev (if value.getLsbD 31 then post (storeAt s.dev m (TCM_POST_CTL p).ofs value) m p
          else storeAt s.dev m (TCM_POST_CTL p).ofs value)) := by
  rw [exec_commitPost, commitPost, guarded_admits _ ha]

/-- A post that fails a check leaves the dirty marks and the pending commits. -/
theorem post_error_keeps {d : Dev} {p o : Nat} (writer : Nat) (h : postCheck d p (fld d (TCM_POST_CTL_UNITS p)) = .error o) :
    (post d writer p).dirty = d.dirty ∧ (post d writer p).commits = d.commits := by
  rw [post_of_error writer h, recordOutcome_dirty, recordOutcome_commits, wrn_dirty, wrn_commits]
  exact ⟨idTaken_dirty d _, idTaken_commits d _⟩

/-- A post whose checks pass leaves one commit more, in the last place, and its ID in RESULT. -/
theorem post_ok_captures {d : Dev} {p : Nat} {r : Due × Bool} (writer : Nat)
    (h : postCheck d p (fld d (TCM_POST_CTL_UNITS p)) = .ok r) :
    ∃ c : Commit, (post d writer p).commits = d.commits ++ [c] ∧ c.poster = p ∧ c.due = r.1 ∧ c.late = r.2
      ∧ c.units = fld d (TCM_POST_CTL_UNITS p) ∧ c.id = nextId d
      ∧ c.words = capturedWords (checkBasePair d writer c.units) c.units
      ∧ rdn (post d writer p) (TCM_POST_RESULT p) = c.id * 65536 := by
  obtain ⟨c, hc, hid, hposter, hunits, hdue, hlate, hwords⟩ :=
    capture_commits (idTaken d (nextId d)) writer p (fld d (TCM_POST_CTL_UNITS p)) (nextId d) r.1 r.2
  have hsame := idTaken_sameWords d (nextId d)
  have hlt : nextId d * 65536 < 2 ^ 32 := by
    have : nextId d < 65536 := freeId_lt d 72 d.nextCommit
    omega
  rw [post_of_ok writer h]
  refine ⟨c, ?_, hposter, hdue, hlate, hunits, hid, ?_, ?_⟩
  · rw [wrn_commits, hc, idTaken_commits]
  · rw [hwords, hunits, (hsame.checkBasePair writer _).capturedWords]
  · rw [rdn_wrn_same, hid, Nat.mod_eq_of_lt hlt]

/-- Settles O21: the write stores its word, and with GO the post is the one of its checks' verdict. -/
theorem postChecksOrCaptures : Obligations.PostChecksOrCaptures := by
  refine ⟨?_, ?_, ?_⟩
  · rintro m p value s d o ha hgo rfl hcheck
    rw [exec_commitPost_admits value ha, if_pos hgo, post_of_error m hcheck, idTaken, nextId]
  · rintro m p value s d due late ha hgo rfl hcheck
    rw [exec_commitPost_admits value ha, if_pos hgo, post_of_ok m hcheck, idTaken, nextId]
  · intro m p value s ha
    refine ⟨_, _, rfl, exec_commitPost_admits value ha, rfl, fun hgo => ?_, fun hgo o hcheck => ?_, fun hgo r hcheck => ?_⟩
    · rw [hgo]; rfl
    · rw [if_pos hgo]
      exact post_error_keeps m hcheck
    · rw [if_pos hgo]
      exact post_ok_captures m hcheck

/-! ### A step -/

/-- Settles O1: the queue is empty or has a front command. -/
theorem frontCommandActs : Obligations.FrontCommandActs :=
  ⟨fun _ _ _ => step_cons rfl, fun _ => step_nil⟩

end Sys2Proof.Machine
end

section
/-!
PROOFS. What the laser interlock leaves alone, and a new state of a module (R87, R90, R94, R95).
-/

namespace Sys2Proof.Machine

@[simp] theorem PerLine.get_set_same {α : Type} (p : PerLine α) (x : Line) (v : α) : (p.set x v).get x = v := by cases x <;> rfl

theorem ix_le_one (x : Line) : x.ix ≤ 1 := by cases x <;> decide

theorem setHw_same (d : Dev) (x : Line) (f : LineHw → LineHw) : (setHw d x f).lineHw.get x = f (d.lineHw.get x) :=
  PerLine.get_set_same _ _ _

theorem rd_setHw (d : Dev) (x : Line) (f : LineHw → LineHw) (q : Reg) : rd (setHw d x f) q = rd d q := rfl

theorem flag_setHw (d : Dev) (x : Line) (f : LineHw → LineHw) (g : Fld) : flag (setHw d x f) g = flag d g := rfl

/-! ### What an event of a line lane unit leaves alone (R94) -/

theorem raiseLL_touches (d : Dev) (x : Line) (b : Nat) : ∃ r p o, raiseLL d x b = { d with regs := r, msixPending := p, out := o } :=
  raiseEvt_spec d (evLL x.ix) b

theorem rd_raiseLL_other (d : Dev) (x : Line) (b : Nat) {q : Reg} (h : q.ofs ≠ (LLx_EVT x.ix).ofs) (h1 : q.ofs ≠ HIF_EVT_UNIT.ofs)
    (h2 : q.ofs ≠ (HIF_FNf_EVT 0).ofs) : rd (raiseLL d x b) q = rd d q := rd_raiseEvt_other d (evLL x.ix) b h h1 h2

/-! ### A module under the interlock -/

/-- What the block holds of the module of line x is in e as in d: its state, its pin, its timers, its check and its transfer. -/
def keepsModule (x : Line) (d e : Dev) : Prop :=
  e.timers = d.timers ∧ modState e x = modState d x ∧ flag e (LLx_STATUS_PRES x.ix) = flag d (LLx_STATUS_PRES x.ix)
    ∧ ∃ p, e.lineHw.get x = { d.lineHw.get x with benPhase := p }

theorem keepsModule.refl (x : Line) (d : Dev) : keepsModule x d d := ⟨rfl, rfl, rfl, _, rfl⟩

theorem keepsModule.trans {x : Line} {d e g : Dev} (h : keepsModule x d e) (h' : keepsModule x e g) : keepsModule x d g := by
  obtain ⟨ht, hs, hp, _, hw⟩ := h
  obtain ⟨ht', hs', hp', p, hw'⟩ := h'
  exact ⟨ht'.trans ht, hs'.trans hs, hp'.trans hp, p, by rw [hw', hw]⟩

/-- An update that leaves the line's status word, the timers and what the lanes hold keeps the module. -/
theorem keepsModule.of_rd {x : Line} {d e : Dev} (ht : e.timers = d.timers) (hw : e.lineHw = d.lineHw)
    (hr : rd e (LLx_STATUS x.ix) = rd d (LLx_STATUS x.ix)) : keepsModule x d e :=
  ⟨ht, fld_congr _ hr, flag_congr _ hr, _, by rw [hw]⟩

theorem keepsModule.wr {x : Line} {d e : Dev} (h : keepsModule x d e) {r : Reg} (w : Word) (hr : (LLx_STATUS x.ix).ofs ≠ r.ofs) :
    keepsModule x d (wr e r w) := h.trans (.of_rd rfl rfl (rd_wr_other e w hr))

theorem keepsModule.count {x : Line} {d e : Dev} (h : keepsModule x d e) {r : Reg} (hr : (LLx_STATUS x.ix).ofs ≠ r.ofs) :
    keepsModule x d (count e r) := h.wr _ hr

theorem keepsModule.raiseLL {x : Line} {d e : Dev} (h : keepsModule x d e) (b : Nat) : keepsModule x d (raiseLL e x b) := by
  obtain ⟨r, p, o, eq⟩ := raiseLL_touches e x b
  have hx := ix_le_one x
  exact h.trans (.of_rd (by rw [eq]) (by rw [eq])
    (rd_raiseLL_other e x b (by simp only; omega) (by simp only; omega) (by simp only; omega)))

/-- The upper fields of the line's status word lie apart from the module's. -/
theorem keepsModule.setUpper {x : Line} {d e : Dev} (h : keepsModule x d e) {f : Fld} (hr : f.reg = LLx_STATUS x.ix) (hlo : 8 ≤ f.lo)
    (hl : f.lo ≤ f.hi) (v : Nat) : keepsModule x d (setFld e f v) := by
  have hapart : ∀ g : Fld, g.reg = LLx_STATUS x.ix → g.hi < 8 → g.lo ≤ g.hi → apart g f :=
    fun g hg hb hgl => ⟨hg.trans hr.symm, .inl (by omega), hgl, hl⟩
  exact h.trans ⟨rfl, fld_setFld_apart e v (hapart _ rfl (by simp) (by simp)),
    flag_setFld_apart e v (hapart _ rfl (by simp) (by simp)), _, rfl⟩

theorem keepsModule.setRegBit {x : Line} {d e : Dev} (h : keepsModule x d e) {b : Nat} (hb : 8 ≤ b) (v : Bool) :
    keepsModule x d (setRegBit e (LLx_STATUS x.ix) b v) := h.setUpper (f := ⟨LLx_STATUS x.ix, b, b⟩) rfl hb (Nat.le_refl b) _

theorem keepsModule.setBen {x : Line} {d e : Dev} (h : keepsModule x d e) (t : Nat) (b : Bool) : keepsModule x d (setBen e x t b) :=
  h.setRegBit (by omega) b

theorem keepsModule.setBenPhase {x : Line} {d e : Dev} (h : keepsModule x d e) (t p : Nat) : keepsModule x d (setBenPhase e x t p) :=
  h.trans ⟨rfl, rfl, rfl, _, setHw_same e x _⟩

theorem keepsModule.raiseBen {x : Line} {d e : Dev} (h : keepsModule x d e) (t : Nat) : keepsModule x d (raiseBen e x t) := by
  unfold Machine.raiseBen
  split
  · exact h
  · exact (h.setBen t true).count (by simp only; omega)

theorem keepsModule.syncLane {x : Line} {d e : Dev} (h : keepsModule x d e) (t : Nat) : keepsModule x d (syncLane e x t) := by
  have hok := h.setRegBit (b := 20 + t) (by omega) (laserOkNow e x t)
  unfold Machine.syncLane
  simp only
  split
  · split
    · exact hok.raiseBen t
    · exact hok.setBen t false
  split
  · exact hok
  split
  · exact hok.setBen t false
  split
  · exact (hok.setBen t false).setBenPhase t benIdle
  split
  · exact hok.setBen t false
  · exact hok

theorem keepsModule.syncLaser {x : Line} {d e : Dev} (h : keepsModule x d e) : keepsModule x d (syncLaser e x) :=
  forEach_keeps (fun _ t hg => hg.syncLane t) (List.range 4)
    (h.setUpper (f := LLx_STATUS_CAUSE x.ix) rfl (by simp) (by simp) _)

/-! ### A new state of the module (R90) -/

/-- What follows a new state of the module, its events and the interlock, leaves the module alone. -/
theorem setModState_keeps (d : Dev) (x : Line) (st : Nat) :
    keepsModule x (setFld d (LLx_STATUS_MOD_STATE x.ix) st) (setModState d x st) := by
  have h := keepsModule.refl x (setFld d (LLx_STATUS_MOD_STATE x.ix) st)
  unfold setModState
  simp only
  refine keepsModule.syncLaser ?_
  split
  · exact h
  split
  · exact h.raiseLL llAbsent
  split
  · exact h.raiseLL llReady
  split
  · exact (h.count (by simp only; omega)).raiseLL llMismatch
  split
  · exact h.raiseLL llBusFail
  · exact h

/-- The module takes its new state; its pin, its timers, its check and its transfer stay. -/
theorem setModState_spec (d : Dev) (x : Line) {st : Nat} (hst : st < 16) : modState (setModState d x st) x = st
    ∧ flag (setModState d x st) (LLx_STATUS_PRES x.ix) = flag d (LLx_STATUS_PRES x.ix)
    ∧ (setModState d x st).timers = d.timers
    ∧ ∃ p, (setModState d x st).lineHw.get x = { d.lineHw.get x with benPhase := p } := by
  obtain ⟨ht, hs, hp, hw⟩ := setModState_keeps d x st
  refine ⟨hs.trans ?_, hp.trans (flag_setFld_apart d st (by simp [apart])), ht, hw⟩
  exact (fld_setFld_same d st (by simp) (by simp)).trans (Nat.mod_eq_of_lt hst)

theorem modState_setModState (d : Dev) (x : Line) {st : Nat} (hst : st < 16) : modState (setModState d x st) x = st :=
  (setModState_spec d x hst).1

/-! ### Power of domains -/

/-- Which domains are on stands in registers below those of the lines. -/
theorem domainOn_congr {d e : Dev} (h : ∀ q : Reg, q.ofs < 0x400000 → rd e q = rd d q) (n : Nat) : domainOn e n = domainOn d n := by
  unfold domainOn regBit
  rw [h PWR_DOM_ON_LO (by decide), h PWR_DOM_ON_HI (by decide)]

end Sys2Proof.Machine
end

section
/-!
PROOFS. The modules of the lines: bring-up, identity checks and host transfers (R88 to R93).
-/

namespace Sys2Proof.Machine

/-! ### Commands of a module -/

theorem exec_modPresent (x : Line) (held : Bool) (s : State) :
    exec (.modPresent x held) s = .next (s.withDev (modPresent x held s.dev)) := rfl

theorem exec_modAbsent (x : Line) (s : State) : exec (.modAbsent x) s = .next (s.withDev (modAbsent x s.dev)) := rfl

theorem exec_modResetRelease (x : Line) (s : State) : exec (.modResetRelease x) s = .next (s.withDev (modResetRelease x s.dev)) := rfl

theorem exec_modInitDone (x : Line) (s : State) : exec (.modInitDone x) s = .next (s.withDev (modInitDone x s.dev)) := rfl

theorem exec_modRecheck (x : Line) (s : State) : exec (.modRecheck x) s = .next (s.withDev (modRecheck x s.dev)) := rfl

theorem exec_modCheckDone (x : Line) (bytes : List Byte) (s : State) :
    exec (.modCheckDone x bytes) s = .next (s.withDev (modCheckDone x bytes s.dev)) := rfl

theorem exec_modBusTimeout (x : Line) (page : Bool) (s : State) :
    exec (.modBusTimeout x page) s = .next (s.withDev (modBusTimeout x page s.dev)) := rfl

theorem exec_modCheck (m : Master) (x : Line) (value : Word) (s : State) :
    exec (.modCheck m x value) s = .next (s.withDev (modCheck m x value s.dev)) := rfl

theorem exec_modDeclare (m : Master) (x : Line) (value : Word) (s : State) :
    exec (.modDeclare m x value) s = .next (s.withDev (modDeclare m x value s.dev)) := rfl

theorem exec_modXfer (m : Master) (x : Line) (value : Word) (s : State) :
    exec (.modXfer m x value) s = .next (s.withDev (modXfer m x value s.dev)) := rfl

theorem exec_modXferDone (x : Line) (err : Bool) (data : Byte) (s : State) :
    exec (.modXferDone x err data) s = .next (s.withDev (modXferDone x err data s.dev)) := rfl

/-! ### Checks that start and end (R89) -/

theorem stopCheck_hw (d : Dev) (x : Line) :
    (stopCheck d x).lineHw.get x = { d.lineHw.get x with checking := false, tryPage := 0, tryRead := 0 } := by
  rw [stopCheck, dropTimer_lineHw, setHw_same]

theorem modState_startCheck (d : Dev) (x : Line) : modState (startCheck d x) x = modState d x := rfl

theorem startCheck_checking (d : Dev) (x : Line) : ((startCheck d x).lineHw.get x).checking = true :=
  congrArg LineHw.checking (setHw_same (stopCheck d x) x _)

theorem enterChecking_spec (d : Dev) (x : Line) :
    modState (enterChecking d x) x = modChecking ∧ ((enterChecking d x).lineHw.get x).checking = true :=
  ⟨(modState_startCheck _ x).trans (modState_setModState d x (by decide)), startCheck_checking _ x⟩

/-! ### Bring-up (R91) -/

theorem timerRuns_startTimer (d : Dev) (t : TimerId) (n : Nat) : timerRuns (startTimer d t n) t = true := by
  simp [timerRuns, startTimer]

/-- Bring-up drives the module reset, and its time runs. -/
theorem startBringUp_spec (d : Dev) (x : Line) : modState (startBringUp d x) x = modResetting
    ∧ flag (startBringUp d x) (LLx_STATUS_PRES x.ix) = flag d (LLx_STATUS_PRES x.ix)
    ∧ ((startBringUp d x).lineHw.get x).modReset = true ∧ timerRuns (startBringUp d x) (.modReset x) = true := by
  unfold startBringUp
  simp only
  generalize hd : startTimer (dropTimer (setHw (stopCheck d x) x (fun h => { h with modReset := true })) (.modInit x)) (.modReset x) _ = e
  have hruns : timerRuns e (.modReset x) = true := hd ▸ timerRuns_startTimer _ _ _
  have hreset : (e.lineHw.get x).modReset = true := by
    rw [← hd, startTimer_lineHw, dropTimer_lineHw, setHw_same]
  obtain ⟨hs, hp, ht, p, hw⟩ := setModState_spec e x (st := modResetting) (by decide)
  refine ⟨hs, hp.trans ?_, by rw [hw, hreset], by rw [timerRuns, ht, ← timerRuns, hruns]⟩
  rw [← hd]
  rfl

/-- The pin shows that a module is present. -/
def presenceShown (d : Dev) (x : Line) (held : Bool) : Dev :=
  setFlag (setHw d x (fun h => { h with pinLow := true, heldLow := h.heldLow || held })) (LLx_STATUS_PRES x.ix) true

theorem presenceShown_spec (d : Dev) (x : Line) (held : Bool) : flag (presenceShown d x held) (LLx_STATUS_PRES x.ix) = true
    ∧ modState (presenceShown d x held) x = modState d x
    ∧ ∀ n, domainOn (presenceShown d x held) n = domainOn d n := by
  refine ⟨flag_setFlag_same _ true (by simp) (by simp), fld_setFlag_apart _ true (by simp [apart]), ?_⟩
  exact domainOn_congr (fun q hq => rd_setFlag_other _ true (by simp only; omega))

/-- An absent module that shows presence stays without power, is reset once its pin has been held, or waits for that. -/
theorem modPresent_of_absent {d : Dev} {x : Line} (held : Bool) (h : modState d x = modAbsentSt) : modPresent x held d
    = if domainOn d (txDomain x) = false then setModState (presenceShown d x held) x modUnpowered
      else if held = true then startBringUp (presenceShown d x held) x else presenceShown d x held := by
  obtain ⟨-, hs, hon⟩ := presenceShown_spec d x held
  have hab : (modState (presenceShown d x held) x != modAbsentSt) = false := by rw [hs, h]; rfl
  unfold presenceShown at hab hon
  simp only [modPresent, hab, hon, Bool.false_eq_true, if_false, Bool.not_eq_true']
  rfl

/-- The block before its absent module's state shows: no check, no timer and no transfer of it is left. -/
def absenceShown (d : Dev) (x : Line) : Dev :=
  let e := stopCheck (setFlag (setHw d x (fun h => { h with pinLow := false, heldLow := false })) (LLx_STATUS_PRES x.ix) false) x
  let e := dropTimer (dropTimer e (.modReset x)) (.modInit x)
  if (e.lineHw.get x).xfer.isSome then endXferErr e x else e

theorem modAbsent_eq (x : Line) (d : Dev) : modAbsent x d = setModState (absenceShown d x) x modAbsentSt := rfl

/-- A transfer that ends with ERR shows so, and changes nothing else but its own word. -/
theorem endXferErr_spec (d : Dev) (x : Line) : flag (endXferErr d x) (LLx_MOD_XFER_DONE x.ix) = true
    ∧ flag (endXferErr d x) (LLx_MOD_XFER_ERR x.ix) = true
    ∧ (endXferErr d x).lineHw.get x = { d.lineHw.get x with xfer := none }
    ∧ ∀ q : Reg, q.ofs ≠ (LLx_MOD_XFER x.ix).ofs → rd (endXferErr d x) q = rd d q := by
  unfold endXferErr
  refine ⟨?_, ?_, setHw_same _ x _, fun q hq => ?_⟩
  · rw [flag_setHw, flag_setFlag_apart _ true (by simp [apart]), flag_setFlag_same d true (by simp) (by simp)]
  · rw [flag_setHw, flag_setFlag_same _ true (by simp) (by simp)]
  · rw [rd_setHw, rd_setFlag_other _ true hq, rd_setFlag_other d true hq]

theorem absenceShown_spec (d : Dev) (x : Line) : flag (absenceShown d x) (LLx_STATUS_PRES x.ix) = false
    ∧ ((absenceShown d x).lineHw.get x).checking = false := by
  unfold absenceShown
  simp only
  generalize hd : dropTimer (dropTimer (stopCheck (setFlag (setHw d x _) (LLx_STATUS_PRES x.ix) false) x) (.modReset x)) (.modInit x) = e
  have hpres : flag e (LLx_STATUS_PRES x.ix) = false := hd ▸ flag_setFlag_same _ false (by simp) (by simp)
  have hchk : (e.lineHw.get x).checking = false := by rw [← hd, dropTimer_lineHw, dropTimer_lineHw, stopCheck_hw]
  split
  · obtain ⟨-, -, hw, hr⟩ := endXferErr_spec e x
    exact ⟨(flag_congr _ (hr (LLx_STATUS x.ix) (by simp only; omega))).trans hpres, by rw [hw, hchk]⟩
  · exact ⟨hpres, hchk⟩

theorem modResetRelease_of_over {d : Dev} {x : Line} (hs : modState d x = modResetting) (ht : timerOver d (.modReset x) = true) :
    ∃ e, modResetRelease x d = setModState e x modInitWait ∧ (e.lineHw.get x).modReset = false := by
  refine ⟨_, if_pos (by rw [hs, ht]; rfl), ?_⟩
  rw [startTimer_lineHw, dropTimer_lineHw, setHw_same]

theorem modInitDone_of_over {d : Dev} {x : Line} (hs : modState d x = modInitWait) (ht : timerOver d (.modInit x) = true) :
    modInitDone x d = if declared d x then enterChecking (dropTimer d (.modInit x)) x
      else setModState (dropTimer d (.modInit x)) x modUndeclared := if_pos (by rw [hs, ht]; rfl)

theorem modRecheck_of_ready {d : Dev} {x : Line} (hs : modState d x = modReady) (ht : timerOver d (.modRecheck x) = true) :
    modRecheck x d = startCheck d x := by
  simp [modRecheck, hs, ht]

/-- Settles O27: each command ends with its new state of the module, which leaves the pin, the timers and the reset as they were set. -/
theorem moduleBringUp : Obligations.ModuleBringUp := by
  intro x s
  refine ⟨fun held habs => ?_, ?_, fun hs ht => ?_, fun hs ht => ?_, fun hs ht => ?_⟩
  · refine ⟨_, exec_modPresent x held s, ?_⟩
    obtain ⟨hpres, hst, hon⟩ := presenceShown_spec s.dev x held
    rw [modPresent_of_absent held habs]
    split
    next hoff =>
      obtain ⟨hs, hp, -, -⟩ := setModState_spec (presenceShown s.dev x held) x (st := modUnpowered) (by decide)
      exact ⟨hp.trans hpres, fun _ => hs, by simp [hoff], by simp [hoff]⟩
    next hpow =>
      split
      next hheld =>
        obtain ⟨hs, hp, hr, ht⟩ := startBringUp_spec (presenceShown s.dev x held) x
        exact ⟨hp.trans hpres, fun h => absurd h hpow, by simp [hheld], fun _ _ => ⟨hs, hr, ht⟩⟩
      next hheld => exact ⟨hpres, fun h => absurd h hpow, fun _ _ => hst.trans habs, fun _ h => absurd h hheld⟩
  · obtain ⟨hpres, hchk⟩ := absenceShown_spec s.dev x
    obtain ⟨hs, hp, -, p, hw⟩ := setModState_spec (absenceShown s.dev x) x (st := modAbsentSt) (by decide)
    refine ⟨_, exec_modAbsent x s, ?_⟩
    rw [modAbsent_eq]
    exact ⟨hp.trans hpres, by rw [hw, hchk], hs⟩
  · obtain ⟨e, he, hreset⟩ := modResetRelease_of_over hs ht
    obtain ⟨hs', -, -, p, hw⟩ := setModState_spec e x (st := modInitWait) (by decide)
    refine ⟨_, exec_modResetRelease x s, ?_⟩
    rw [he]
    exact ⟨hs', by rw [hw, hreset]⟩
  · refine ⟨_, exec_modInitDone x s, ?_⟩
    rw [modInitDone_of_over hs ht]
    split
    next hd =>
      obtain ⟨hs', hc⟩ := enterChecking_spec (dropTimer s.dev (.modInit x)) x
      exact ⟨hs', fun _ => hc⟩
    next hd => exact ⟨modState_setModState _ x (by decide), fun h => absurd h hd⟩
  · exact ⟨by rw [exec_modRecheck, modRecheck_of_ready hs ht], (modState_startCheck s.dev x).trans hs⟩

/-! ### The end of a check (R88, R89) -/

theorem armRecheck_lineHw (d : Dev) (x : Line) : (armRecheck d x).lineHw = d.lineHw := rfl

/-- A check that has ended leaves the module in its new state. -/
theorem checkEnded_spec {d : Dev} {x : Line} {st : Nat} (hst : st < 16) (hc : (d.lineHw.get x).checking = false) :
    modState (armRecheck (setModState d x st) x) x = st
      ∧ ((armRecheck (setModState d x st) x).lineHw.get x).checking = false := by
  obtain ⟨hs, -, -, p, hw⟩ := setModState_spec d x hst
  exact ⟨hs, by rw [armRecheck_lineHw, hw, hc]⟩

theorem modCheckDone_of_checking {d : Dev} {x : Line} (bytes : List Byte) (h : (d.lineHw.get x).checking = true) : modCheckDone x bytes d
    = armRecheck (setModState (stopCheck (keepId d x bytes) x) x (if idMatches d x bytes then modReady else modMismatch)) x := if_pos h

theorem modCheckDone_of_idle {d : Dev} {x : Line} (bytes : List Byte) (h : (d.lineHw.get x).checking = false) :
    modCheckDone x bytes d = d := if_neg (by simp [h])

theorem modBusTimeout_of_idle {d : Dev} {x : Line} (page : Bool) (h : (d.lineHw.get x).checking = false) :
    modBusTimeout x page d = d := by
  simp [modBusTimeout, h]

/-- A failed read is tried again, or is the last and ends the check. -/
theorem modBusTimeout_of_read {d : Dev} {x : Line} (h : (d.lineHw.get x).checking = true) : modBusTimeout x false d
    = if (d.lineHw.get x).tryRead + 1 ≤ 3 then setHw d x (fun r => { r with tryRead := (d.lineHw.get x).tryRead + 1 })
      else armRecheck (setModState (count (stopCheck d x) (LLx_MOD_BUS_ERR x.ix)) x modBusFail) x := by
  simp [modBusTimeout, h]

/-- Settles O28: by whether a check runs, by the match, and by the retries that are left. -/
theorem moduleIdentity : Obligations.ModuleIdentity := by
  intro x s bytes page
  refine ⟨fun hc => ⟨?_, fun htry hpage => ?_, fun htry hpage => ?_⟩, fun hc => ⟨?_, ?_⟩⟩
  · refine ⟨_, exec_modCheckDone x bytes s, ?_⟩
    rw [modCheckDone_of_checking bytes hc]
    exact checkEnded_spec (by split <;> decide) (congrArg LineHw.checking (stopCheck_hw _ x))
  · subst hpage
    refine ⟨_, exec_modBusTimeout x false s, ?_⟩
    rw [modBusTimeout_of_read hc, if_pos (by omega)]
    exact ⟨rfl, congrArg LineHw.tryRead (setHw_same s.dev x _)⟩
  · subst hpage
    refine ⟨_, exec_modBusTimeout x false s, ?_⟩
    rw [modBusTimeout_of_read hc, if_neg (by omega)]
    exact checkEnded_spec (by decide) (congrArg LineHw.checking (stopCheck_hw s.dev x))
  · rw [exec_modCheckDone, modCheckDone_of_idle bytes hc]
  · rw [exec_modBusTimeout, modBusTimeout_of_idle page hc]

/-! ### Writes of the module's registers (R91, R93) -/

theorem modIdCfg_admits {m : Master} {x : Line} {d : Dev} (value : Word) (h : admits d m (LLx_MOD_ID_CFG x.ix).ofs = true) :
    modIdCfg m x value d = modIdWritten (storeAt d m (LLx_MOD_ID_CFG x.ix).ofs value) x (declared d x) (value.getLsbD 30) :=
  guarded_admits _ h

/-- LLx_MOD_XFER holds no checked field: a write of it changes its word alone. -/
theorem storeAt_modXfer (d : Dev) (m : Master) (x : Line) (value : Word) :
    ∃ w, storeAt d m (LLx_MOD_XFER x.ix).ofs value = wr d (LLx_MOD_XFER x.ix) w := by
  cases x <;> exact ⟨_, rfl⟩

/-- The block as a transfer begins: the word is stored, with DONE and ERR 0. -/
def xferBegun (d : Dev) (m : Master) (x : Line) (value : Word) : Dev :=
  setFlag (setFlag (storeAt d m (LLx_MOD_XFER x.ix).ofs value) (LLx_MOD_XFER_DONE x.ix) false) (LLx_MOD_XFER_ERR x.ix) false

theorem modState_xferBegun (d : Dev) (m : Master) (x : Line) (value : Word) : modState (xferBegun d m x value) x = modState d x := by
  obtain ⟨w, hw⟩ := storeAt_modXfer d m x value
  have hne : (LLx_STATUS x.ix).ofs ≠ (LLx_MOD_XFER x.ix).ofs := by simp only; omega
  refine fld_congr _ ?_
  rw [xferBegun, rd_setFlag_other _ _ hne, rd_setFlag_other _ _ hne, hw, rd_wr_other _ _ hne]

/-- A GO with no transfer pending begins one, which ends at once where there is no module to reach. -/
theorem modXfer_of_go {m : Master} {x : Line} {value : Word} {d : Dev} (ha : admits d m (LLx_MOD_XFER x.ix).ofs = true)
    (hgo : value.getLsbD 31 = true) (hx : (d.lineHw.get x).xfer = none) : modXfer m x value d
      = if modState d x = modAbsentSt ∨ modState d x = modUnpowered then endXferErr (xferBegun d m x value) x
        else setHw (xferBegun d m x value) x (fun h => { h with xfer := some (xferAsked (xferBegun d m x value) x) }) := by
  obtain ⟨w, hw⟩ := storeAt_modXfer d m x value
  have hnone : ((storeAt d m (LLx_MOD_XFER x.ix).ofs value).lineHw.get x).xfer.isNone = true := by rw [hw, wr_lineHw, hx]; rfl
  have hst := modState_xferBegun d m x value
  unfold xferBegun at hst ⊢
  rw [modXfer, guarded_admits _ ha]
  simp only [hgo, hnone, hst, Bool.and_self, if_true]

theorem modXferDone_of_err {x : Line} {q : ModXfer} {d : Dev} (data : Byte) (hx : (d.lineHw.get x).xfer = some q)
    (hc : (d.lineHw.get x).checking = false) : modXferDone x true data d = endXferErr d x := by
  simp [modXferDone, hx, hc]

/-- A read that ends well shows DONE and its byte. -/
theorem modXferDone_of_read {x : Line} {q : ModXfer} {d : Dev} (data : Byte) (hx : (d.lineHw.get x).xfer = some q)
    (hc : (d.lineHw.get x).checking = false) (hq : q.write = false) : modXferDone x false data d
      = setFld (setHw (setFlag d (LLx_MOD_XFER_DONE x.ix) true) x (fun h => { h with xfer := none })) (LLx_MOD_XFER_DATA x.ix)
          data.toNat := by
  simp [modXferDone, hx, hc, hq]

/-- Settles O29: CHECK is set or cleared in the word that is written; a transfer begins where the module can be reached, and its end
shows in the transfer's own word. -/
theorem moduleRegisterWrites : Obligations.ModuleRegisterWrites := by
  intro m x value s
  refine ⟨fun ha => ⟨?_, ?_⟩, fun ha hgo hx => ⟨_, exec_modXfer m x value s, ?_⟩, fun q data hx hc => ⟨?_, fun hq => ?_⟩⟩
  · have hset : (value ||| 0x40000000).getLsbD 30 = true := by simp
    rw [exec_modCheck, modCheck, modIdCfg_admits _ ha, hset]
  · have hclear : (value &&& 0xBFFFFFFF).getLsbD 30 = false := by simp
    rw [exec_modDeclare, modDeclare, modIdCfg_admits _ ha, hclear]
  · rw [modXfer_of_go ha hgo hx]
    split
    next hno =>
      obtain ⟨hdone, herr, hw, -⟩ := endXferErr_spec (xferBegun s.dev m x value) x
      exact ⟨fun _ => ⟨herr, hdone, by rw [hw]⟩, fun h1 h2 => absurd hno (not_or.mpr ⟨h1, h2⟩)⟩
    next hyes => exact ⟨fun h => absurd h hyes, fun _ _ => by rw [setHw_same]; rfl⟩
  · obtain ⟨-, herr, hw, -⟩ := endXferErr_spec s.dev x
    refine ⟨_, exec_modXferDone x true data s, ?_⟩
    rw [modXferDone_of_err data hx hc]
    exact ⟨herr, by rw [hw]⟩
  · refine ⟨_, exec_modXferDone x false data s, ?_⟩
    rw [modXferDone_of_read data hx hc hq]
    refine ⟨?_, ?_, ?_⟩
    · rw [flag_setFld_apart _ _ (by simp [apart]), flag_setHw, flag_setFlag_same _ _ (by simp) (by simp)]
    · rw [fld_setFld_same _ _ (by simp) (by simp)]
      exact Nat.mod_eq_of_lt data.isLt
    · rw [setFld_lineHw, setHw_same]

end Sys2Proof.Machine
end

section
/-!
PROOFS. The receive lanes of the lines and a write of LLx_CTL (R84, R85, R97).
-/

namespace Sys2Proof.Machine

/-! ### Registers that an update leaves alone -/

theorem sameRegsBut.refl (l : List Nat) (d : Dev) : sameRegsBut l d d := fun _ _ => rfl

theorem sameRegsBut.trans {l : List Nat} {d e g : Dev} (h : sameRegsBut l d e) (h' : sameRegsBut l e g) : sameRegsBut l d g :=
  fun q hq => (h' q hq).trans (h q hq)

theorem sameRegsBut.wr {l : List Nat} {d e : Dev} (h : sameRegsBut l d e) {r : Reg} (hr : r.ofs ∈ l) (w : Word) :
    sameRegsBut l d (wr e r w) := h.trans fun _ hq => rd_wr_other e w fun hqr => hq (hqr ▸ hr)

theorem sameRegsBut.setFlag {l : List Nat} {d e : Dev} (h : sameRegsBut l d e) {f : Fld} (hr : f.reg.ofs ∈ l) (b : Bool) :
    sameRegsBut l d (setFlag e f b) := h.wr hr _

/-- An update that leaves the register words alone. -/
theorem sameRegsBut.of_regs {l : List Nat} {d e g : Dev} (h : sameRegsBut l d e) (hg : g.regs = e.regs) : sameRegsBut l d g :=
  h.trans fun q _ => by rw [rd, hg, ← rd]

/-! ### Indications of a receive lane (R84, R85) -/

theorem exec_signalChange (x : Line) (r : Fin 8) (b : Bool) (s : State) :
    exec (.signalChange x r b) s = .next (s.withDev (signalChange x r b s.dev)) := rfl

theorem exec_cdrLockChange (x : Line) (r : Fin 8) (b : Bool) (s : State) :
    exec (.cdrLockChange x r b) s = .next (s.withDev (cdrLockChange x r b s.dev)) := rfl

/-- Noting the tick of a change touches what the lanes hold, and nothing else. -/
theorem noteLane_touches (was : Bool) (x : Line) (r : Nat) (d : Dev) : ∃ h, noteLane was x r d = { d with lineHw := h } := by
  unfold noteLane
  split
  · exact ⟨d.lineHw, rfl⟩
  · exact ⟨_, rfl⟩

theorem setLaneBit_touches (d : Dev) (x : Line) (r : Nat) (f : Fld) (b : Bool) :
    ∃ h, setLaneBit d x r f b = { setFlag d f b with lineHw := h } := noteLane_touches _ x r _

theorem setLaneBit_regs (d : Dev) (x : Line) (r : Nat) (f : Fld) (b : Bool) : (setLaneBit d x r f b).regs = (setFlag d f b).regs := by
  obtain ⟨h, e⟩ := setLaneBit_touches d x r f b
  rw [e]

theorem rd_setLaneBit (d : Dev) (x : Line) (r : Nat) (f : Fld) (b : Bool) (q : Reg) :
    rd (setLaneBit d x r f b) q = rd (setFlag d f b) q := by
  rw [rd, setLaneBit_regs, ← rd]

theorem setLaneBit_applied (d : Dev) (x : Line) (r : Nat) (f : Fld) (b : Bool) : (setLaneBit d x r f b).applied = d.applied := by
  obtain ⟨h, e⟩ := setLaneBit_touches d x r f b
  rw [e]
  rfl

theorem flag_setLaneBit_same (d : Dev) (x : Line) (r : Nat) {f : Fld} (b : Bool) (h : f.hi < 32) (hl : f.lo ≤ f.hi) :
    flag (setLaneBit d x r f b) f = b :=
  (flag_congr f (rd_setLaneBit d x r f b f.reg)).trans (flag_setFlag_same d b h hl)

theorem flag_setLaneBit_apart (d : Dev) (x : Line) (r : Nat) {f g : Fld} (b : Bool) (h : apart g f) :
    flag (setLaneBit d x r f b) g = flag d g :=
  (flag_congr g (rd_setLaneBit d x r f b g.reg)).trans (flag_setFlag_apart d b h)

theorem sameRegsBut.setLaneBit {l : List Nat} {d e : Dev} (h : sameRegsBut l d e) (x : Line) (r : Nat) {f : Fld} (hr : f.reg.ofs ∈ l)
    (b : Bool) : sameRegsBut l d (setLaneBit e x r f b) :=
  (h.setFlag hr b).of_regs (setLaneBit_regs e x r f b)

/-- Settles O30: an indication is one bit of the lane's status word. -/
theorem laneIndications : Obligations.LaneIndications := by
  intro x r b s
  have hregs : ∀ (f : Fld) (v : Bool), f.reg = LLx_RXr_STATUS x.ix r →
      sameRegsBut [(LLx_RXr_STATUS x.ix r).ofs] s.dev (setLaneBit s.dev x r f v) := fun f v hf =>
    (sameRegsBut.refl _ _).setLaneBit x r (by simp [hf]) v
  refine ⟨fun h => ⟨?_, ?_⟩, fun h => ⟨⟨_, exec_signalChange x r b s, ?_⟩, _, exec_cdrLockChange x r b s, ?_⟩⟩
  · rw [exec_signalChange, signalChange, if_pos h, withDev_self]
  · rw [exec_cdrLockChange, cdrLockChange, if_pos h, withDev_self]
  · rw [signalChange, if_neg (by simp [h])]
    exact ⟨flag_setLaneBit_same _ x r _ (by simp) (by simp), flag_setLaneBit_apart _ x r _ (by simp [apart]), hregs _ _ rfl,
      setLaneBit_applied _ _ _ _ _⟩
  · rw [cdrLockChange, if_neg (by simp [h])]
    exact ⟨flag_setLaneBit_same _ x r _ (by simp) (by simp), flag_setLaneBit_apart _ x r _ (by simp [apart]), hregs _ _ rfl,
      setLaneBit_applied _ _ _ _ _⟩

/-! ### A write of LLx_CTL (R97) -/

theorem exec_llTestModeWrite (m : Master) (x : Line) (value : Word) (s : State) :
    exec (.llTestModeWrite m x value) s = .next (s.withDev (llTestModeWrite m x value s.dev)) := rfl

/-- Settles O32: an admitted write is carried out. -/
theorem testModeWrite : Obligations.TestModeWrite := by
  intro m x value s ha
  exact ⟨_, rfl, by rw [exec_llTestModeWrite, llTestModeWrite, guarded_admits _ ha]⟩

end Sys2Proof.Machine
end

section
/-!
PROOFS. Levels of the line and the bits they carry (R82, R83, R103).
-/

namespace Sys2Proof.Machine

theorem grayLevel_lt (gray : Bool) {p : Nat} (h : p < 4) : grayLevel gray p < 4 := by
  unfold grayLevel
  split
  next hc =>
    simp only [Bool.and_eq_true, decide_eq_true_eq] at hc
    omega
  next => exact h

/-- The Gray map is its own inverse. -/
theorem grayLevel_grayLevel (gray : Bool) {p : Nat} (h : p < 4) : grayLevel gray (grayLevel gray p) = p := by
  cases gray with
  | false => rfl
  | true => interval_cases p <;> rfl

theorem msbBits_pair (a b : Bool) : msbBits 2 (2 * boolBit a + boolBit b) = [a, b] := by cases a <;> cases b <;> rfl

theorem bitPairs_lt (bits : List Bool) : ∀ p ∈ bitPairs bits, p < 4 := by
  induction bits using bitPairs.induct with
  | case1 a b t ih =>
    simp only [bitPairs, List.forall_mem_cons]
    exact ⟨by cases a <;> cases b <;> decide, ih⟩
  | case2 l hl =>
    rw [bitPairs]
    · exact fun _ hp => nomatch hp
    · exact hl

/-- The pairs of an even number of bits give the bits back. -/
theorem flatten_bitPairs {bits : List Bool} (h : bits.length % 2 = 0) : ((bitPairs bits).map (msbBits 2)).flatten = bits := by
  induction bits using bitPairs.induct with
  | case1 a b t ih =>
    have ht : t.length % 2 = 0 := by
      simp only [List.length_cons] at h
      omega
    rw [bitPairs, List.map_cons, List.flatten_cons, msbBits_pair, ih ht]
    rfl
  | case2 l hl =>
    match l, h with
    | [], _ => rfl
    | a :: b :: t, _ => exact absurd rfl (hl a b t)

theorem precode_lt (y : Nat) (xs : List Nat) : ∀ z ∈ precode y xs, z < 4 := by
  induction xs generalizing y with
  | nil => exact fun _ hz => nomatch hz
  | cons x t ih =>
    simp only [precode, List.forall_mem_cons]
    exact ⟨Nat.mod_lt _ (by decide), ih _⟩

/-- Received after the level that the precoder started from, precoded levels give the symbols back. -/
theorem unprecode_precode (y : Nat) {xs : List Nat} (h : ∀ x ∈ xs, x < 4) : unprecode y (precode y xs) = xs := by
  induction xs generalizing y with
  | nil => rfl
  | cons x t ih =>
    obtain ⟨hx, ht⟩ := List.forall_mem_cons.mp h
    have hback : ((x + 4 - y % 4) % 4 + y) % 4 = x := by omega
    rw [precode, unprecode, hback, ih _ ht]

/-- Polarity turned twice is as it was. -/
theorem turnLevels_turnLevels (inv : Bool) {l : List Nat} (h : ∀ z ∈ l, z < 4) : turnLevels inv (turnLevels inv l) = l := by
  unfold turnLevels
  split
  · rw [List.map_map]
    refine (List.map_congr_left fun z hz => ?_).trans (List.map_id l)
    have := h z hz
    simp only [Function.comp_apply, id_eq]
    omega
  · rfl

theorem symbols_lt (gray : Bool) (bits : List Bool) : ∀ z ∈ (bitPairs bits).map (grayLevel gray), z < 4 := by
  intro z hz
  obtain ⟨p, hp, rfl⟩ := List.mem_map.mp hz
  exact grayLevel_lt gray (bitPairs_lt bits p hp)

theorem sendLevels_lt (gray pre : Bool) (bits : List Bool) : ∀ z ∈ sendLevels gray pre bits, z < 4 := by
  cases pre with
  | false => exact symbols_lt gray bits
  | true => exact precode_lt 0 _

/-- Levels received with the settings they were sent with give the bits sent. -/
theorem receiveBits_sendLevels (gray pre : Bool) {bits : List Bool} (h : bits.length % 2 = 0) :
    receiveBits gray pre 0 (sendLevels gray pre bits) = bits := by
  have hsymbols : (if pre then unprecode 0 (sendLevels gray pre bits) else sendLevels gray pre bits)
      = (bitPairs bits).map (grayLevel gray) := by
    cases pre with
    | false => rfl
    | true => exact unprecode_precode 0 (symbols_lt gray bits)
  have hpairs : ((bitPairs bits).map (grayLevel gray)).map (fun z => msbBits 2 (grayLevel gray z)) = (bitPairs bits).map (msbBits 2) := by
    rw [List.map_map]
    exact List.map_congr_left fun p hp => congrArg (msbBits 2) (grayLevel_grayLevel gray (bitPairs_lt bits p hp))
  rw [receiveBits, hsymbols, hpairs, flatten_bitPairs h]

end Sys2Proof.Machine
end

section
/-!
PROOFS. Pattern checkers and generators: lock and loss, counters, injections and the test bursts of near-end loopback (R98, R101, R102).
-/

namespace Sys2Proof.Machine

/-! ### The words of a checker -/

/-- The words that a checker writes are distinct, and its control word is none of them. -/
theorem checkerWords_apart (r : RxLane) : (chkReg r).ofs ≠ (lockFld r).reg.ofs ∧ (chkReg r).ofs < (errRegs r).1.ofs
    ∧ (lockFld r).reg.ofs < (errRegs r).1.ofs ∧ (errRegs r).1.ofs < (errRegs r).2.ofs ∧ (errRegs r).2.ofs < (bitRegs r).1.ofs
    ∧ (bitRegs r).1.ofs < (bitRegs r).2.ofs := by
  cases r <;> simp only [chkReg, lockFld, errRegs, bitRegs] <;> omega

theorem lockFld_bit (r : RxLane) : (lockFld r).hi < 32 ∧ (lockFld r).lo ≤ (lockFld r).hi := by cases r <;> simp [lockFld]

theorem rd_wrPair_other (d : Dev) {lo hi q : Reg} (n : Nat) (h1 : q.ofs ≠ lo.ofs) (h2 : q.ofs ≠ hi.ofs) :
    rd (wrPair d lo hi n) q = rd d q := (rd_wrn_other _ _ h2).trans (rd_wrn_other _ _ h1)

theorem rdPair_congr {d e : Dev} {lo hi : Reg} (h1 : rd e lo = rd d lo) (h2 : rd e hi = rd d hi) : rdPair e lo hi = rdPair d lo hi := by
  rw [rdPair, rdn, rdn, h1, h2, ← rdn, ← rdn, ← rdPair]

theorem rdPair_of_regs {d e : Dev} (h : e.regs = d.regs) (lo hi : Reg) : rdPair e lo hi = rdPair d lo hi := by
  rw [rdPair, rdn_congr h, rdn_congr h, ← rdPair]

theorem rdPair_wrPair_same (d : Dev) {lo hi : Reg} {n : Nat} (h : lo.ofs ≠ hi.ofs) (hn : n < 2 ^ 64) :
    rdPair (wrPair d lo hi n) lo hi = n := by
  rw [rdPair, wrPair, rdn_wrn_same, rdn_wrn_other _ _ h, rdn_wrn_same]
  omega

/-- A count of errors takes n more, up to its limit. -/
theorem rdPair_countErrs (d : Dev) (r : RxLane) (n : Nat) : rdPair (countErrs d r n) (errRegs r).1 (errRegs r).2
    = min (rdPair d (errRegs r).1 (errRegs r).2 + n) countTop := by
  obtain ⟨-, -, -, herr, -, -⟩ := checkerWords_apart r
  exact rdPair_wrPair_same d (by omega) (by unfold countTop; omega)

theorem rd_countErrs_other (d : Dev) (r : RxLane) (n : Nat) {q : Reg} (h1 : q.ofs ≠ (errRegs r).1.ofs) (h2 : q.ofs ≠ (errRegs r).2.ofs) :
    rd (countErrs d r n) q = rd d q := rd_wrPair_other d _ h1 h2

theorem chkLocked_congr {d e : Dev} {r : RxLane} (hc : rd e (chkReg r) = rd d (chkReg r)) (hl : rd e (lockFld r).reg = rd d (lockFld r).reg) :
    chkLocked e r = chkLocked d r := by
  rw [chkLocked, chkOn, regBit, hc, flag_congr _ hl, ← regBit, ← chkOn, ← chkLocked]

/-- PRBS_LOCK shows what is set of it, where the checker runs. -/
theorem chkLocked_setFlag (d : Dev) (r : RxLane) (b : Bool) : chkLocked (setFlag d (lockFld r) b) r = (chkOn d r && b) := by
  obtain ⟨hne, -⟩ := checkerWords_apart r
  obtain ⟨h, hl⟩ := lockFld_bit r
  rw [chkLocked, chkOn, regBit, rd_setFlag_other _ _ hne, flag_setFlag_same _ _ h hl, ← regBit, ← chkOn]

/-! ### Lock and loss (R101) -/

theorem exec_prbsLock (r : RxLane) (s : State) : exec (.prbsLock r) s = .next (s.withDev (prbsLock r s.dev)) := rfl

theorem exec_prbsLoss (r : RxLane) (errs : Nat) (s : State) :
    exec (.prbsLoss r errs) s = .next (s.withDev (prbsLoss r errs s.dev)) := rfl

/-- A running checker of a lane that receives shows its lock, and no other register changes. -/
theorem prbsLock_locks {r : RxLane} {d : Dev} (hon : chkOn d r = true) (hrx : laneReceives d r = true) (htb : inTestBursts d r = false)
    (hlock : flag d (lockFld r) = false) :
    chkLocked (prbsLock r d) r = true ∧ sameRegsBut [(lockFld r).reg.ofs] d (prbsLock r d) := by
  rw [prbsLock, if_pos (by rw [hon, hrx, htb, hlock]; rfl)]
  refine ⟨?_, ?_⟩
  · rw [chkLocked_setFlag, Bool.and_true]
    exact hon
  · exact (sameRegsBut.of_regs (sameRegsBut.refl _ d) rfl).setFlag List.mem_cons_self true

/-- A locked checker counts the errors; it loses lock, or keeps them for the judgement of its interval. -/
theorem prbsLoss_of_locked {r : RxLane} {errs : Nat} {d : Dev} (hlock : chkLocked d r = true) (hrx : laneReceives d r = true)
    (htb : inTestBursts d r = false) (he : errs ≤ 1024) : prbsLoss r errs d
      = if 64 ≤ (chkHw d r).errs + errs then raisePrbsLoss (resetChk (countErrs d r errs) r) r
        else { countErrs d r errs with
          prbsChk := sput ChkHw.reset d.prbsChk (rxKey r) { chkHw d r with errs := (chkHw d r).errs + errs } } := by
  rw [prbsLoss, if_pos (by rw [hlock, hrx, htb, decide_eq_true he]; rfl)]
  rfl

theorem prbsLoss_keeps_lock {r : RxLane} {errs : Nat} {d : Dev} (hlock : chkLocked d r = true) (hrx : laneReceives d r = true)
    (htb : inTestBursts d r = false) (he : errs ≤ 1024) (hfew : (chkHw d r).errs + errs < 64) :
    chkLocked (prbsLoss r errs d) r = true ∧ (chkHw (prbsLoss r errs d) r).errs = (chkHw d r).errs + errs
      ∧ rdPair (prbsLoss r errs d) (errRegs r).1 (errRegs r).2 = min (rdPair d (errRegs r).1 (errRegs r).2 + errs) countTop := by
  obtain ⟨-, hchk, hlk, herr, -, -⟩ := checkerWords_apart r
  rw [prbsLoss_of_locked hlock hrx htb he, if_neg (by omega)]
  refine ⟨?_, congrArg ChkHw.errs (sget_sput_same _ _ _ _), rdPair_countErrs d r errs⟩
  exact (chkLocked_congr (rd_countErrs_other d r errs (by omega) (by omega))
    (rd_countErrs_other d r errs (by omega) (by omega))).trans hlock

/-! ### Writes of the generator and checker registers (R100 to R102) -/

/-- Storing at an offset touches registers, the dirty marks, the clamp log and messages, and nothing else. -/
theorem storeAt_touches (d : Dev) (writer ofs : Nat) (value : Word) :
    ∃ r y c p o, storeAt d writer ofs value = { d with regs := r, dirty := y, clampLog := c, msixPending := p, out := o } := by
  unfold storeAt
  split
  · exact ⟨_, _, _, _, _, rfl⟩
  · simp only
    split
    · exact ⟨_, _, _, _, _, rfl⟩
    · exact storeWord_touches _ _ _ _ _ _

theorem storeAt_injTx (d : Dev) (writer ofs : Nat) (value : Word) : (storeAt d writer ofs value).injTx = d.injTx := by
  obtain ⟨r, y, c, p, o, e⟩ := storeAt_touches d writer ofs value
  rw [e]

theorem storeAt_injRx (d : Dev) (writer ofs : Nat) (value : Word) : (storeAt d writer ofs value).injRx = d.injRx := by
  obtain ⟨r, y, c, p, o, e⟩ := storeAt_touches d writer ofs value
  rw [e]

/-- A single error stands where it is written, whatever else is. -/
theorem injLength_single {value : Word} (word : Word) (h : value.getLsbD 30 = true) : injLength value word = 1 := if_pos h

theorem exec_checkerClr (m : Master) (r : RxLane) (value : Word) (s : State) :
    exec (.checkerClr m r value) s = .next (s.withDev (checkerClr m r value s.dev)) := rfl

theorem exec_injSingle (m : Master) (p : PrbsLane) (value : Word) (s : State) :
    exec (.injSingle m p value) s = .next (s.withDev (injSingle m p value s.dev)) := rfl

theorem exec_injBurst (m : Master) (p : PrbsLane) (value : Word) (s : State) :
    exec (.injBurst m p value) s = .next (s.withDev (injBurst m p value s.dev)) := rfl

/-- The block after a write of a generator register, but for its injection. -/
def generatorStored (d : Dev) (m : Master) (t : TxLane) (value : Word) : Dev :=
  let e := storeAt d m (genReg t).ofs value
  if genOn e t && getBits (rd e (genReg t)) 3 0 == getBits (rd d (genReg t)) 3 0 then e
  else { e with prbsGen := sput 0 e.prbsGen (txKey t) 0 }

theorem generatorStored_injTx (d : Dev) (m : Master) (t : TxLane) (value : Word) : (generatorStored d m t value).injTx = d.injTx := by
  simp only [generatorStored, apply_ite Dev.injTx, storeAt_injTx, ite_self]

/-- An admitted write of a generator register injects where no injection is in progress. -/
theorem genWrite_admits {d : Dev} {m : Master} {t : TxLane} (value : Word) (ha : admits d m (genReg t).ofs = true) :
    genWrite m t value d
      = if injLength value (rd (generatorStored d m t value) (genReg t)) ≠ 0 ∧ sget 0 d.injTx (txKey t) = 0 then
          { generatorStored d m t value with
            injTx := sput 0 d.injTx (txKey t) (injLength value (rd (generatorStored d m t value) (genReg t))) }
        else generatorStored d m t value := by
  rw [← generatorStored_injTx d m t value]
  exact guarded_admits _ ha

theorem genWrite_in_progress {d : Dev} {m : Master} {t : TxLane} (value : Word) (ha : admits d m (genReg t).ofs = true)
    (h : sget 0 d.injTx (txKey t) ≠ 0) : (genWrite m t value d).injTx = d.injTx := by
  rw [genWrite_admits value ha, if_neg fun hc => h hc.2, generatorStored_injTx]

theorem genWrite_injects_single {d : Dev} {m : Master} {t : TxLane} {value : Word} (ha : admits d m (genReg t).ofs = true)
    (h : sget 0 d.injTx (txKey t) = 0) (hv : value.getLsbD 30 = true) : sget 0 (genWrite m t value d).injTx (txKey t) = 1 := by
  rw [genWrite_admits value ha, injLength_single _ hv, if_pos ⟨Nat.one_ne_zero, h⟩]
  exact sget_sput_same 0 d.injTx (txKey t) 1

/-- The checker's counters at 0. -/
def countersCleared (d : Dev) (r : RxLane) : Dev := wrPair (wrPair d (errRegs r).1 (errRegs r).2 0) (bitRegs r).1 (bitRegs r).2 0

/-- The block after a write of a checker register, but for its injection. -/
def checkerStored (d : Dev) (m : Master) (r : RxLane) (value : Word) : Dev :=
  let e := storeAt d m (chkReg r).ofs value
  let e := if value.getLsbD 31 then countersCleared e r else e
  if chkOn e r then e else resetChk e r

theorem countersCleared_injRx (d : Dev) (r : RxLane) : (countersCleared d r).injRx = d.injRx := rfl

theorem resetChk_injRx (d : Dev) (r : RxLane) : (resetChk d r).injRx = d.injRx := rfl

theorem checkerStored_injRx (d : Dev) (m : Master) (r : RxLane) (value : Word) : (checkerStored d m r value).injRx = d.injRx := by
  simp only [checkerStored, apply_ite Dev.injRx, resetChk_injRx, countersCleared_injRx, storeAt_injRx, ite_self]

/-- An admitted write of a checker register injects where no injection is in progress. -/
theorem chkWrite_admits {d : Dev} {m : Master} {r : RxLane} (value : Word) (ha : admits d m (chkReg r).ofs = true) :
    chkWrite m r value d
      = if injLength value (rd (checkerStored d m r value) (chkReg r)) ≠ 0 ∧ sget 0 d.injRx (rxKey r) = 0 then
          { checkerStored d m r value with
            injRx := sput 0 d.injRx (rxKey r) (injLength value (rd (checkerStored d m r value) (chkReg r))) }
        else checkerStored d m r value := by
  rw [← checkerStored_injRx d m r value]
  exact guarded_admits _ ha

theorem chkWrite_regs {d : Dev} {m : Master} {r : RxLane} (value : Word) (ha : admits d m (chkReg r).ofs = true) :
    (chkWrite m r value d).regs = (checkerStored d m r value).regs := by
  simp only [chkWrite_admits value ha, apply_ite Dev.regs, ite_self]

theorem chkWrite_injects_single {d : Dev} {m : Master} {r : RxLane} {value : Word} (ha : admits d m (chkReg r).ofs = true)
    (h : sget 0 d.injRx (rxKey r) = 0) (hv : value.getLsbD 30 = true) : sget 0 (chkWrite m r value d).injRx (rxKey r) = 1 := by
  rw [chkWrite_admits value ha, injLength_single _ hv, if_pos ⟨Nat.one_ne_zero, h⟩]
  exact sget_sput_same 0 d.injRx (rxKey r) 1

theorem countersCleared_spec (d : Dev) (r : RxLane) : rdPair (countersCleared d r) (errRegs r).1 (errRegs r).2 = 0
    ∧ rdPair (countersCleared d r) (bitRegs r).1 (bitRegs r).2 = 0 := by
  obtain ⟨-, -, -, herr, hmid, hbit⟩ := checkerWords_apart r
  refine ⟨?_, rdPair_wrPair_same _ (by omega) (by decide)⟩
  refine (rdPair_congr ?_ ?_).trans (rdPair_wrPair_same d (n := 0) (by omega) (by decide))
  · exact rd_wrPair_other _ _ (by omega) (by omega)
  · exact rd_wrPair_other _ _ (by omega) (by omega)

theorem rd_resetChk_other (d : Dev) (r : RxLane) {q : Reg} (h : q.ofs ≠ (lockFld r).reg.ofs) : rd (resetChk d r) q = rd d q :=
  rd_setFlag_other _ false h

/-- A write with CLR leaves both counters at 0: a checker that starts anew changes its lock alone. -/
theorem checkerStored_clears {value : Word} (d : Dev) (m : Master) (r : RxLane) (hv : value.getLsbD 31 = true) :
    rdPair (checkerStored d m r value) (errRegs r).1 (errRegs r).2 = 0
      ∧ rdPair (checkerStored d m r value) (bitRegs r).1 (bitRegs r).2 = 0 := by
  obtain ⟨-, -, hlock, herr, hmid, hbit⟩ := checkerWords_apart r
  obtain ⟨he, hb⟩ := countersCleared_spec (storeAt d m (chkReg r).ofs value) r
  simp only [checkerStored, hv, if_true]
  split
  · exact ⟨he, hb⟩
  · exact ⟨(rdPair_congr (rd_resetChk_other _ r (by omega)) (rd_resetChk_other _ r (by omega))).trans he,
      (rdPair_congr (rd_resetChk_other _ r (by omega)) (rd_resetChk_other _ r (by omega))).trans hb⟩

theorem checkerClr_clears {d : Dev} {m : Master} {r : RxLane} (value : Word) (ha : admits d m (chkReg r).ofs = true) :
    rdPair (checkerClr m r value d) (errRegs r).1 (errRegs r).2 = 0 ∧ rdPair (checkerClr m r value d) (bitRegs r).1 (bitRegs r).2 = 0 := by
  obtain ⟨he, hb⟩ := checkerStored_clears (value := value ||| 0x80000000) d m r (by simp)
  have hregs := chkWrite_regs (value ||| 0x80000000) ha
  exact ⟨(rdPair_of_regs hregs _ _).trans he, (rdPair_of_regs hregs _ _).trans hb⟩

/-! ### Near-end loopback of a line (R84, R98) -/

theorem exec_loopbackTestBurst (x : Line) (s : State) :
    exec (.loopbackTestBurst x) s = .next (s.withDev (loopbackTestBurst x s.dev)) := rfl

/-- The words that a test burst may change through receive lane r: what the lane shows and counts, and the loss of its lock. -/
def loopWords (x : Line) (r : Nat) : List Nat :=
  [(LLx_RXr_STATUS x.ix r).ofs, (LLx_RXr_ERR_LO x.ix r).ofs, (LLx_RXr_ERR_HI x.ix r).ofs, (LLx_RXr_BITS_LO x.ix r).ofs,
    (LLx_RXr_BITS_HI x.ix r).ofs, (LLx_EVT x.ix).ofs, HIF_EVT_UNIT.ofs, (HIF_FNf_EVT 0).ofs]

theorem sameRegsBut.wrPair {l : List Nat} {d e : Dev} (h : sameRegsBut l d e) {lo hi : Reg} (h1 : lo.ofs ∈ l) (h2 : hi.ofs ∈ l)
    (n : Nat) : sameRegsBut l d (wrPair e lo hi n) := (h.wr h1 _).wr h2 _

theorem sameRegsBut.raiseLL {l : List Nat} {d e : Dev} (h : sameRegsBut l d e) {x : Line} (h0 : (LLx_EVT x.ix).ofs ∈ l)
    (h1 : HIF_EVT_UNIT.ofs ∈ l) (h2 : (HIF_FNf_EVT 0).ofs ∈ l) (b : Nat) : sameRegsBut l d (raiseLL e x b) :=
  h.trans fun _ hq => rd_raiseLL_other e x b (fun e => hq (e ▸ h0)) (fun e => hq (e ▸ h1)) (fun e => hq (e ▸ h2))

/-- What a checker has seen is counted, and where it stands is noted. -/
def checkerNoted (d : Dev) (r : RxLane) (c : ChkSeen) : Dev :=
  let e := countErrs (countBits d r c.bits) r c.errs
  { e with prbsChk := sput ChkHw.reset e.prbsChk (rxKey r) c.hw }

theorem checkerNoted_regs (d : Dev) (r : RxLane) (c : ChkSeen) :
    (checkerNoted d r c).regs = (countErrs (countBits d r c.bits) r c.errs).regs := rfl

theorem showSeen_eq (d : Dev) (r : RxLane) (c : ChkSeen) : showSeen d r c
    = if c.losses = 0 then setFlag (checkerNoted d r c) (lockFld r) c.locked
      else raisePrbsLoss (setFlag (checkerNoted d r c) (lockFld r) c.locked) r := rfl

theorem sameRegsBut.showSeen {x : Line} {r : Fin 8} {d e : Dev} (h : sameRegsBut (loopWords x r) d e) (c : ChkSeen) :
    sameRegsBut (loopWords x r) d (showSeen e (.line x r) c) := by
  have hcounted : sameRegsBut (loopWords x r) d (countErrs (countBits e (.line x r) c.bits) (.line x r) c.errs) :=
    (h.wrPair (by simp [bitRegs, loopWords]) (by simp [bitRegs, loopWords]) _).wrPair (by simp [errRegs, loopWords])
      (by simp [errRegs, loopWords]) _
  have hshown := (hcounted.of_regs (checkerNoted_regs e _ c)).setFlag (f := lockFld (.line x r)) (by simp [lockFld, loopWords]) c.locked
  rw [showSeen_eq]
  split
  · exact hshown
  · exact hshown.raiseLL (by simp [loopWords]) (by simp [loopWords]) (by simp [loopWords]) llPrbsLoss

theorem sameRegsBut.checkBurst {x : Line} {r : Fin 8} {d e : Dev} (h : sameRegsBut (loopWords x r) d e) (levels : List Nat) :
    sameRegsBut (loopWords x r) d (checkBurst e x r levels) := by
  unfold Machine.checkBurst
  simp only
  split
  · refine sameRegsBut.showSeen ?_ _
    exact h.of_regs rfl
  · exact h

/-- What a checker has seen leaves the fields of the lane's status word apart from its lock. -/
theorem flag_showSeen_apart {x : Line} {r : Fin 8} {f : Fld} (h : apart f (lockFld (.line x r))) (d : Dev) (c : ChkSeen) :
    flag (showSeen d (.line x r) c) f = flag d f := by
  have hx := ix_le_one x
  obtain ⟨hreg, hbits⟩ := h
  obtain ⟨-, -, hlock, herr, hmid, hbit⟩ := checkerWords_apart (.line x r)
  have hnoted : flag (checkerNoted d (.line x r) c) f = flag d f := by
    refine flag_congr f ?_
    rw [hreg, rd, checkerNoted_regs, ← rd, rd_countErrs_other _ _ _ (by omega) (by omega)]
    exact rd_wrPair_other _ _ (by omega) (by omega)
  have hshown := (flag_setFlag_apart (checkerNoted d (.line x r) c) c.locked ⟨hreg, hbits⟩).trans hnoted
  rw [showSeen_eq]
  split
  · exact hshown
  · refine (flag_congr f (rd_raiseLL_other _ x llPrbsLoss ?_ ?_ ?_)).trans hshown
    all_goals
      rw [hreg]
      simp only [lockFld]
      omega

theorem flag_checkBurst_apart {x : Line} {r : Fin 8} {f : Fld} (h : apart f (lockFld (.line x r))) (d : Dev) (levels : List Nat) :
    flag (checkBurst d x r levels) f = flag d f := by
  unfold checkBurst
  simp only
  split
  · rw [flag_showSeen_apart h]
    rfl
  · rfl

/-- The receive lane that is looped with transmit lane k. -/
def loopedLane (k : Fin 4) : Fin 8 := ⟨k.val, by omega⟩

/-- A test burst leaves through lane k, where the transmit lanes have power. -/
def loopSent (d : Dev) (x : Line) (k : Fin 4) : Dev × List Nat := if domainOn d (txDomain x) then testBurst d x k else (d, [])

/-- A looped lane with power shows whether a test burst comes, and locks to it. -/
def loopLocked (x : Line) (r : Fin 8) (on : Bool) (d : Dev) : Dev :=
  setLaneBit (setLaneBit d x r (LLx_RXr_STATUS_SIGNAL x.ix r) on) x r (LLx_RXr_STATUS_CDR_LOCK x.ix r) on

/-- Its checker examines the burst. -/
def loopChecked (x : Line) (r : Fin 8) (on : Bool) (levels : List Nat) (d : Dev) : Dev :=
  if on then checkBurst (loopLocked x r on d) x r levels else loopLocked x r on d

/-- Its clock recovery lets go after the burst. -/
def loopReceived (x : Line) (r : Fin 8) (on : Bool) (levels : List Nat) (d : Dev) : Dev :=
  setLaneBit (loopChecked x r on levels d) x r (LLx_RXr_STATUS_CDR_LOCK x.ix r) false

theorem loopLane_eq (x : Line) (d : Dev) (k : Fin 4) : loopLane x d k
    = if domainOn (loopSent d x k).1 (rxDomain x (loopedLane k)) then
        loopReceived x (loopedLane k) (domainOn d (txDomain x)) (loopSent d x k).2 (loopSent d x k).1
      else (loopSent d x k).1 := rfl

/-- A test burst moves its generator and spends the injection, and touches nothing else. -/
theorem testBurst_touches (d : Dev) (x : Line) (k : Fin 4) : ∃ g i, (testBurst d x k).1 = { d with prbsGen := g, injTx := i } := by
  unfold testBurst
  extract_lets t c pre
  clear_value pre t c
  split
  · generalize genBits _ _ _ _ = g
    obtain ⟨bits, st⟩ := g
    exact ⟨sput 0 d.prbsGen (txKey t) st, sput 0 d.injTx (txKey t) 0, rfl⟩
  · exact ⟨d.prbsGen, d.injTx, rfl⟩

theorem loopSent_regs (d : Dev) (x : Line) (k : Fin 4) : (loopSent d x k).1.regs = d.regs := by
  unfold loopSent
  split
  · obtain ⟨g, i, e⟩ := testBurst_touches d x k
    rw [e]
  · rfl

theorem sameRegsBut.loopReceived {x : Line} {r : Fin 8} {d e : Dev} (h : sameRegsBut (loopWords x r) d e) (on : Bool)
    (levels : List Nat) : sameRegsBut (loopWords x r) d (loopReceived x r on levels e) := by
  have hlocked : sameRegsBut (loopWords x r) d (loopLocked x r on e) :=
    (h.setLaneBit x r (by simp [loopWords]) on).setLaneBit x r (by simp [loopWords]) on
  have hchecked : sameRegsBut (loopWords x r) d (loopChecked x r on levels e) := by
    unfold loopChecked
    split
    · exact hlocked.checkBurst levels
    · exact hlocked
  exact hchecked.setLaneBit x r (by simp [loopWords]) false

/-- After the burst SIGNAL shows whether one came, and CDR_LOCK is 0. -/
theorem loopReceived_shows (x : Line) (r : Fin 8) (on : Bool) (levels : List Nat) (d : Dev) :
    flag (loopReceived x r on levels d) (LLx_RXr_STATUS_CDR_LOCK x.ix r) = false
      ∧ flag (loopReceived x r on levels d) (LLx_RXr_STATUS_SIGNAL x.ix r) = on := by
  have hlocked : flag (loopLocked x r on d) (LLx_RXr_STATUS_SIGNAL x.ix r) = on := by
    rw [loopLocked, flag_setLaneBit_apart _ x r on (by simp [apart]), flag_setLaneBit_same d x r on (by simp) (by simp)]
  have hchecked : flag (loopChecked x r on levels d) (LLx_RXr_STATUS_SIGNAL x.ix r) = on := by
    unfold loopChecked
    split
    · rw [flag_checkBurst_apart (by simp [apart, lockFld]), hlocked]
    · exact hlocked
  rw [loopReceived]
  refine ⟨flag_setLaneBit_same _ x r false (by simp) (by simp), ?_⟩
  rw [flag_setLaneBit_apart _ x r false (by simp [apart]), hchecked]

/-- A looped lane changes its own words alone. -/
theorem loopLane_sameRegs (x : Line) (d : Dev) (k : Fin 4) : sameRegsBut (loopWords x (loopedLane k)) d (loopLane x d k) := by
  have hsent := (sameRegsBut.refl (loopWords x (loopedLane k)) d).of_regs (loopSent_regs d x k)
  rw [loopLane_eq]
  split
  · exact hsent.loopReceived _ _
  · exact hsent

theorem domainOn_loopLane (x : Line) (d : Dev) (k : Fin 4) (n : Nat) : domainOn (loopLane x d k) n = domainOn d n := by
  refine domainOn_congr (fun q hq => loopLane_sameRegs x d k q ?_) n
  simp only [loopWords, List.mem_cons, List.not_mem_nil, or_false]
  omega

/-- The status word of one looped lane is not changed by another. -/
theorem rd_loopLane_other (x : Line) (d : Dev) {j k : Fin 4} (h : j ≠ k) :
    rd (loopLane x d j) (LLx_RXr_STATUS x.ix k) = rd d (LLx_RXr_STATUS x.ix k) := by
  refine loopLane_sameRegs x d j _ ?_
  have hx := ix_le_one x
  have hjk : j.val ≠ k.val := fun e => h (Fin.ext e)
  simp only [loopWords, loopedLane, List.mem_cons, List.not_mem_nil, or_false]
  omega

theorem loopLane_shows (x : Line) {d : Dev} {k : Fin 4} (h : domainOn d (rxLowDomain x) = true) :
    flag (loopLane x d k) (LLx_RXr_STATUS_CDR_LOCK x.ix k) = false
      ∧ flag (loopLane x d k) (LLx_RXr_STATUS_SIGNAL x.ix k) = domainOn d (txDomain x) := by
  have hdom : rxDomain x (loopedLane k) = rxLowDomain x := if_pos k.isLt
  have hon : domainOn (loopSent d x k).1 (rxDomain x (loopedLane k)) = true := by
    rw [hdom, ← h]
    exact domainOn_congr (fun q _ => by rw [rd, loopSent_regs, ← rd]) _
  rw [loopLane_eq, if_pos hon]
  exact loopReceived_shows x (loopedLane k) _ _ _

/-- After the test burst every looped lane with power shows its signal and no lock. -/
theorem loopLanes_show (x : Line) {d : Dev} (k : Fin 4) (h : domainOn d (rxLowDomain x) = true) :
    flag (forEach (List.finRange 4) (loopLane x) d) (LLx_RXr_STATUS_CDR_LOCK x.ix k) = false
      ∧ flag (forEach (List.finRange 4) (loopLane x) d) (LLx_RXr_STATUS_SIGNAL x.ix k) = domainOn d (txDomain x) := by
  refine forEach_once (P := fun e => ∀ n, domainOn e n = domainOn d n)
    (Q := fun e => flag e (LLx_RXr_STATUS_CDR_LOCK x.ix k) = false ∧ flag e (LLx_RXr_STATUS_SIGNAL x.ix k) = domainOn d (txDomain x))
    (fun e j _ he n => (domainOn_loopLane x e j n).trans (he n)) (fun e he => ?_) (fun e j hj he => ?_)
    (List.nodup_finRange 4) (List.mem_finRange k) (fun _ => rfl)
  · obtain ⟨hcdr, hsignal⟩ := loopLane_shows x (k := k) ((he _).trans h)
    exact ⟨hcdr, hsignal.trans (he _)⟩
  · obtain ⟨hcdr, hsignal⟩ := he
    have hrd := rd_loopLane_other x e hj
    exact ⟨(flag_congr (LLx_RXr_STATUS_CDR_LOCK x.ix k) hrd).trans hcdr, (flag_congr (LLx_RXr_STATUS_SIGNAL x.ix k) hrd).trans hsignal⟩

theorem loopbackTestBurst_of_near {x : Line} {d : Dev} (h : fld d (LLx_CTL_TEST_MODE x.ix) = 1) :
    loopbackTestBurst x d = forEach (List.finRange 4) (loopLane x) d := if_pos (by rw [h]; rfl)

theorem loopbackTestBurst_of_other {x : Line} {d : Dev} (h : fld d (LLx_CTL_TEST_MODE x.ix) ≠ 1) : loopbackTestBurst x d = d :=
  if_neg (by simpa using h)

/-- Settles O31: by the command; the levels come back through the inverse of each of the lane's maps. -/
theorem patternCheckers : Obligations.PatternCheckers := by
  refine ⟨?_, ?_, ?_, ?_, ?_, ?_, ?_⟩
  · intro r s hon hrx htb hlock
    obtain ⟨hl, hregs⟩ := prbsLock_locks hon hrx htb hlock
    exact ⟨_, exec_prbsLock r s, rfl, hl, hregs⟩
  · intro r errs s hlock hrx htb he
    refine ⟨fun hmany => ?_, fun hfew => ⟨_, exec_prbsLoss r errs s, rfl, prbsLoss_keeps_lock hlock hrx htb he hfew⟩⟩
    rw [exec_prbsLoss, prbsLoss_of_locked hlock hrx htb he, if_pos hmany]
  · intro gray precode inv bits heven
    rw [turnLevels_turnLevels inv (sendLevels_lt gray precode bits), receiveBits_sendLevels gray precode heven]
  · intro m r value s ha
    exact ⟨_, exec_checkerClr m r value s, rfl, checkerClr_clears value ha⟩
  · intro m t value s ha
    exact ⟨exec_injSingle m (.gen t) value s, exec_injBurst m (.gen t) value s,
      fun h => by rw [genWrite_in_progress value ha h], fun h hv => genWrite_injects_single ha h hv⟩
  · intro m r value s ha h _
    exact ⟨exec_injSingle m (.chk r) value s, chkWrite_injects_single ha h (by simp)⟩
  · intro x s
    refine ⟨fun h => ?_, fun h => ⟨_, exec_loopbackTestBurst x s, rfl, loopbackTestBurst_of_near h, fun k hk => ?_⟩, ?_⟩
    · rw [exec_loopbackTestBurst, loopbackTestBurst_of_other h, withDev_self]
    · show flag (loopbackTestBurst x s.dev) _ = _ ∧ flag (loopbackTestBurst x s.dev) _ = _
      rw [loopbackTestBurst_of_near h]
      exact loopLanes_show x k hk
    · rintro r levels word hon rfl
      exact if_pos hon

end Sys2Proof.Machine
end

section
/-!
PROOFS. Bursts on a transmit lane: step 1, the cutoff of units, the end and the fall of BEN (R86, R87, R96, R158, R163 to R166).
-/

namespace Sys2Proof.Machine

/-! ### The grant that a command acts on -/

theorem firstGrant_mem {l : List Grant} {g : Grant} (h : firstGrant l = some g) : g ∈ l := by
  unfold firstGrant at h
  refine List.foldlRecOn (motive := fun acc => ∀ a, acc = some a → a ∈ l) l _ (by simp) (fun acc ih a ha b hb => ?_) g h
  split at hb
  · exact Option.some.inj hb ▸ ha
  · next c =>
    split at hb
    · exact Option.some.inj hb ▸ ha
    · exact ih b hb

theorem nextBurst_spec {d : Dev} {x : Line} {u : Nat} {g : Grant} (h : nextBurst d x u = some g) :
    g ∈ (d.upHw.get x).grants ∧ g.chan = u := by
  obtain ⟨hg, hc⟩ := List.mem_filter.mp (firstGrant_mem h)
  exact ⟨hg, by simp at hc; exact hc.2⟩

theorem fillingOn_mem {d : Dev} {x : Line} {u : Nat} {g : Grant} (h : fillingOn d x u = some g) : g ∈ (d.upHw.get x).grants :=
  (List.mem_filter.mp (firstGrant_mem h)).1

theorem setUp_same (d : Dev) (x : Line) (f : UpHw → UpHw) : (setUp d x f).upHw.get x = f (d.upHw.get x) := PerLine.get_set_same _ _ _

theorem mem_replaceGrant {d : Dev} {x : Line} {g : Grant} (h : g ∈ (d.upHw.get x).grants) (g' : Grant) :
    g' ∈ ((replaceGrant d x g g').upHw.get x).grants := by
  rw [replaceGrant, setGrants, setUp_same]
  exact List.mem_map.mpr ⟨g, h, if_pos rfl⟩

/-! ### What the Narrows touches -/

/-- Not one of the words in which the Narrows shows what is staged (R169). -/
def offNarrows (q : Reg) : Prop := q.ofs ≠ NRW_OCC.ofs ∧ ∀ i < 512, q.ofs ≠ (NRW_ALLOCi_OCC i).ofs

theorem syncNrw_regs (d : Dev) (l : List Nat) : ∃ r, syncNrw d l = { d with regs := r } := by
  unfold syncNrw
  refine forEach_keeps (P := fun e => ∃ r, e = { d with regs := r }) (fun e i he => ?_) l ⟨_, rfl⟩
  obtain ⟨r, rfl⟩ := he
  split
  · exact ⟨_, rfl⟩
  · exact ⟨r, rfl⟩

theorem rd_syncNrw_other (d : Dev) (l : List Nat) {q : Reg} (h : offNarrows q) : rd (syncNrw d l) q = rd d q := by
  obtain ⟨hocc, halloc⟩ := h
  unfold syncNrw
  refine forEach_keeps (P := fun e => rd e q = rd d q) (fun e i he => ?_) l ?_
  · split
    · next hi => exact (rd_setFld_other _ _ (halloc i hi)).trans ((rd_setFld_other _ _ (halloc i hi)).trans he)
    · exact he
  · exact (rd_setFld_other _ _ hocc).trans (rd_setFld_other _ _ hocc)

theorem toCarry_touches (d : Dev) (k : Nat) (us : List LineUnit) : ∃ r c, toCarry d k us = { d with regs := r, carry := c } := by
  unfold toCarry addCarry
  split
  · exact ⟨d.regs, d.carry, rfl⟩
  · simp only
    generalize hc : setCarry d k _ = c
    obtain ⟨r, e⟩ := syncNrw_regs c [k]
    rw [e, ← hc]
    exact ⟨_, _, rfl⟩

theorem rd_toCarry_other (d : Dev) (k : Nat) (us : List LineUnit) {q : Reg} (h : offNarrows q)
    (hc : ∀ l, q.ofs ≠ (TTD_Lx_TC_CARRY l).ofs) : rd (toCarry d k us) q = rd d q := by
  unfold toCarry addCarry
  split
  · rfl
  · exact (rd_wrn_other _ _ (hc _)).trans (rd_syncNrw_other _ _ h)

theorem syncNrw_upHw (d : Dev) (l : List Nat) : (syncNrw d l).upHw = d.upHw := by
  obtain ⟨r, e⟩ := syncNrw_regs d l
  rw [e]

theorem toCarry_upHw (d : Dev) (k : Nat) (us : List LineUnit) : (toCarry d k us).upHw = d.upHw := by
  obtain ⟨r, c, e⟩ := toCarry_touches d k us
  rw [e]

/-! ### Step 1 of a burst (R86, R87, R96) -/

theorem exec_burstBenRise (x : Line) (u : Fin 4) (s : State) :
    exec (.burstBenRise x u) s = .next (s.withDev (burstBenRise x u s.dev)) := rfl

theorem setBenPhase_same (d : Dev) (x : Line) (t p : Nat) : benPhase (setBenPhase d x t p) x t = p := by
  rw [benPhase, setBenPhase, setHw_same]
  exact sget_sput_same _ _ _ _

theorem benHigh_raiseBen (d : Dev) (x : Line) {t : Nat} (ht : t < 4) : benHigh (raiseBen d x t) x t = true := by
  unfold raiseBen
  split
  · next h => exact h
  · rw [benHigh, regBit, rd_count_other _ (by simp only; omega), ← regBit]
    exact regBit_setRegBit_same d _ true (by omega)

theorem startBen_regs (d : Dev) (x : Line) (t : Nat) : ∃ r, startBen d x t = { d with regs := r } := by
  unfold startBen raiseBen
  simp only
  split <;> split
  · exact ⟨_, rfl⟩
  · exact ⟨_, rfl⟩
  · exact ⟨d.regs, rfl⟩
  · exact ⟨_, rfl⟩

theorem litBurst_upHw (d : Dev) (x : Line) (g : Grant) : (litBurst d x g).upHw = (replaceGrant d x g (risenGrant d x g)).upHw := by
  obtain ⟨r, e⟩ := startBen_regs (replaceGrant d x g (risenGrant d x g)) x g.chan
  rw [litBurst, e]
  rfl

theorem benHigh_litBurst (d : Dev) (x : Line) {g : Grant} (h : g.chan < 4) : benHigh (litBurst d x g) x g.chan = true :=
  benHigh_raiseBen _ x h

theorem noteSuppressed_upHw (d : Dev) (x : Line) : (noteSuppressed d x).upHw = d.upHw := by
  obtain ⟨r, p, o, e⟩ := raiseEvt_spec (count d (UPB_SUPPRESSED x.ix)) (evUPB x.ix) upSuppressed
  rw [noteSuppressed, raiseUpb, e]
  rfl

/-- The grant as a dark burst leaves it (R96). -/
def darkGrant (d : Dev) (x : Line) (g : Grant) : Grant :=
  { risenGrant d x g with dark := true, complete := true, staged := [], sent := [{ bytes := fillerWire 64 (payloadWords g), filler := true }] }

theorem darkBurst_upHw (d : Dev) (x : Line) (g : Grant) : (darkBurst d x g).upHw = (replaceGrant d x g (darkGrant d x g)).upHw := by
  unfold darkBurst
  simp only
  generalize hc : syncNrw _ _ = c
  obtain ⟨r, p, o, e⟩ := raiseLL_touches (count (noteSuppressed c x) (LLx_BEN_SUPPRESSED x.ix)) x llSuppressed
  rw [e]
  show (noteSuppressed c x).upHw = _
  rw [noteSuppressed_upHw, ← hc, syncNrw_upHw, toCarry_upHw]
  rfl

theorem mem_litBurst {d : Dev} {x : Line} {g : Grant} (h : g ∈ (d.upHw.get x).grants) :
    risenGrant d x g ∈ ((litBurst d x g).upHw.get x).grants := by
  rw [litBurst_upHw]
  exact mem_replaceGrant h _

theorem mem_darkBurst {d : Dev} {x : Line} {g : Grant} (h : g ∈ (d.upHw.get x).grants) :
    darkGrant d x g ∈ ((darkBurst d x g).upHw.get x).grants := by
  rw [darkBurst_upHw]
  exact mem_replaceGrant h _

/-- Step 1 of a burst that may be sent: BEN is high, and the burst is in progress. -/
theorem litBurst_spec {d : Dev} {x : Line} {u : Fin 4} {g : Grant} (hu : g.chan = u) :
    benHigh (litBurst d x g) x u = true ∧ benPhase (litBurst d x g) x u = benBurst := by
  rw [← hu]
  exact ⟨benHigh_litBurst d x (hu ▸ u.isLt), setBenPhase_same _ _ _ _⟩

theorem burstBenRise_next {d : Dev} {x : Line} {u : Fin 4} {g : Grant} (h : nextBurst d x u = some g)
    (hl : (d.upHw.get x).leaving = false) (hw : withheld d x g = false) :
    burstBenRise x u d = if burstOk d x u then litBurst d x g else darkBurst d x g := by
  simp only [burstBenRise, h, hl, hw, Bool.false_eq_true, if_false]

/-! ### A cutoff (R163, R165) -/

theorem exec_unitCutoff (x : Line) (u : Fin 4) (ecc : Ecc) (s : State) :
    exec (.unitCutoff x u ecc) s = .next (s.withDev (unitCutoff x u ecc s.dev)) := rfl

theorem unitCutoff_clean {d : Dev} {x : Line} {u : Fin 4} {g : Grant} {a : LineUnit} {rest : List LineUnit}
    (h : fillingOn d x u = some g) (hs : g.staged = a :: rest) : unitCutoff x u .clean d
      = syncNrw (bwAdd (replaceGrant d x g { g with staged := rest, sent := g.sent ++ [{ bytes := unitWire a, filler := false }] })
          (129 + 2 * x.ix) (unitBytes a)) g.entry.toList := by
  simp only [unitCutoff, show (Ecc.clean == Ecc.corrected) = false from rfl, show (Ecc.clean == Ecc.uncorrectable) = false from rfl,
    Bool.false_eq_true, if_false, h, hs]

theorem unitCutoff_uncorrectable {d : Dev} {x : Line} {u : Fin 4} {g : Grant} {a : LineUnit} {rest : List LineUnit}
    (h : fillingOn d x u = some g) (hs : g.staged = a :: rest) : unitCutoff x u .uncorrectable d
      = syncNrw (raiseEvt (count (replaceGrant d x g { g with staged := rest, sent := g.sent
          ++ [{ bytes := fillerWire 4 (unitBytes a / 8), filler := false }] }) NRW_ECC_UNCORR) evNRW 1) g.entry.toList := by
  simp only [unitCutoff, show (Ecc.uncorrectable == Ecc.corrected) = false from rfl,
    show (Ecc.uncorrectable == Ecc.uncorrectable) = true from rfl, Bool.false_eq_true, if_false, if_true, h, hs]

theorem unitCutoff_empty {d : Dev} {x : Line} {u : Fin 4} {g : Grant} (h : fillingOn d x u = some g) (hs : g.staged = []) :
    unitCutoff x u .clean d = fillRest d x g := by
  simp only [unitCutoff, show (Ecc.clean == Ecc.corrected) = false from rfl, Bool.false_eq_true, if_false, h, hs]

theorem offNarrows_uncorr : offNarrows NRW_ECC_UNCORR := ⟨by decide, fun i _ => by simp only; omega⟩

theorem uncorrectable_upHw (d : Dev) (l : List Nat) : (syncNrw (raiseEvt (count d NRW_ECC_UNCORR) evNRW 1) l).upHw = d.upHw := by
  obtain ⟨r, p, o, e⟩ := raiseEvt_spec (count d NRW_ECC_UNCORR) evNRW 1
  rw [syncNrw_upHw, e]
  rfl

/-- An uncorrectable unit is counted, and what follows leaves the count. -/
theorem rdn_uncorrectable (d : Dev) (l : List Nat) : rdn (syncNrw (raiseEvt (count d NRW_ECC_UNCORR) evNRW 1) l) NRW_ECC_UNCORR
    = min (rdn d NRW_ECC_UNCORR + 1) 0xFFFFFFFF := by
  rw [rdn, rd_syncNrw_other _ l offNarrows_uncorr, rd_raiseEvt_other _ _ _ (by decide) (by decide) (by decide), ← rdn, rdn_count_same]

/-! ### The end of a burst (R158, R164, R166) -/

theorem exec_burstEnd (x : Line) (u : Fin 4) (s : State) : exec (.burstEnd x u) s = .next (s.withDev (burstEnd x u s.dev)) := rfl

theorem burstEnd_decided {d : Dev} {x : Line} {u : Fin 4} {g : Grant} (h : burstOn d x u = some g) (hp : payloadDone g = true)
    (hh : g.head.isSome = true) : burstEnd x u d = endGrant d x g := by
  have hn : g.head.isNone = false := by simpa using hh
  simp only [burstEnd, h, hp, hn, if_true, Bool.false_eq_true, if_false]

/-- The burst of a grant goes out. -/
def grantSent (d : Dev) (x : Line) (g : Grant) : Dev :=
  sendBurst d x g.chan (!g.dark && benHigh d x g.chan)
    (burstBlocks g.pre g.preWord (g.head.getD []) g.frame g.chan (g.len - 5) (g.sent.map (·.bytes)).flatten)

/-- The burst is sent and counted, and its grant is gone. -/
def grantGone (d : Dev) (x : Line) (g : Grant) : Dev :=
  count (setGrants (grantSent d x g) x (fun l => l.filter (fun e => e ≠ g))) (UPB_BURSTS x.ix)

/-- Its units not sent have become carry-over, and the place of its end is noted. -/
def grantEnded (d : Dev) (x : Line) (g : Grant) : Dev :=
  syncInFlight (syncNrw (setUp (toCarry (grantGone d x g) (carryKey x g.entry) g.staged) x
    (fun h => { h with lastEnd := sput 0 h.lastEnd g.chan (gridPlace g.eqd g.frame ((g.start : Int) + g.len)).toNat })) g.entry.toList) x

theorem endGrant_eq (d : Dev) (x : Line) (g : Grant) : endGrant d x g
    = if g.dark || ((grantEnded d x g).upHw.get x).grants.any (fun h => h.risen && !h.dark && h.chan == g.chan) then grantEnded d x g
      else setBenPhase (grantEnded d x g) x g.chan benTail := rfl

theorem grantEnded_grants (d : Dev) (x : Line) (g : Grant) :
    ((grantEnded d x g).upHw.get x).grants = (d.upHw.get x).grants.filter (fun e => e ≠ g) := by
  rw [grantEnded, syncInFlight, setFld_upHw, syncNrw_upHw, setUp_same, toCarry_upHw, grantGone, count_upHw, setGrants, setUp_same]
  rfl

theorem offNarrows_bursts (x : Line) : offNarrows (UPB_BURSTS x.ix) := by
  have hx := ix_le_one x
  exact ⟨by simp only; omega, fun i _ => by simp only; omega⟩

theorem rdn_grantEnded (d : Dev) (x : Line) (g : Grant) :
    rdn (grantEnded d x g) (UPB_BURSTS x.ix) = min (rdn d (UPB_BURSTS x.ix) + 1) 0xFFFFFFFF := by
  have hcarry : ∀ l, (UPB_BURSTS x.ix).ofs ≠ (TTD_Lx_TC_CARRY l).ofs := fun l => by simp only; omega
  rw [rdn, grantEnded, syncInFlight, rd_setFld_other _ _ (by simp only; omega), rd_syncNrw_other _ _ (offNarrows_bursts x)]
  show (rd (toCarry _ _ _) _).toNat = _
  rw [rd_toCarry_other _ _ _ (offNarrows_bursts x) hcarry, ← rdn]
  exact rdn_count_same _ _

theorem rdn_endGrant (d : Dev) (x : Line) (g : Grant) :
    rdn (endGrant d x g) (UPB_BURSTS x.ix) = min (rdn d (UPB_BURSTS x.ix) + 1) 0xFFFFFFFF := by
  rw [endGrant_eq, ← rdn_grantEnded d x g]
  split
  · rfl
  · rfl

/-- No burst with BEN follows on the channel: the lane is in the tail. -/
theorem benPhase_endGrant {d : Dev} {x : Line} {g : Grant} (hd : g.dark = false)
    (h : ∀ e ∈ (d.upHw.get x).grants, e ≠ g → e.risen = true → e.dark = false → e.chan ≠ g.chan) :
    benPhase (endGrant d x g) x g.chan = benTail := by
  have hnone : ((grantEnded d x g).upHw.get x).grants.any (fun h => h.risen && !h.dark && h.chan == g.chan) = false := by
    rw [grantEnded_grants, List.any_eq_false]
    intro e he hon
    obtain ⟨he, hne⟩ := List.mem_filter.mp he
    simp only [Bool.and_eq_true, Bool.not_eq_true', beq_iff_eq] at hon
    obtain ⟨⟨hr, hdark⟩, hc⟩ := hon
    exact h e he (of_decide_eq_true hne) hr hdark hc
  rw [endGrant_eq, hd, hnone]
  exact setBenPhase_same _ _ _ _

/-! ### The fall of BEN (R86, R87) -/

theorem exec_benFall (x : Line) (u : Fin 4) (s : State) : exec (.benFall x u) s = .next (s.withDev (benFall x u s.dev)) := rfl

theorem benFall_idle {d : Dev} {x : Line} {u : Fin 4} (h : benPhase d x u = benTail) (hgap : shortGap d x u = false) :
    benFall x u d = setBenPhase (setBen d x u false) x u benIdle := by
  rw [benFall, if_pos h, if_neg (by simp [hgap])]

theorem benFall_gap {d : Dev} {x : Line} {u : Fin 4} (h : benPhase d x u = benTail) (hgap : shortGap d x u = true)
    (hok : laserOkNow d x u = true) (hhigh : benHigh d x u = true) :
    benFall x u d = setBenPhase (count d (LLx_BEN_MERGED x.ix)) x u benGap := by
  rw [benFall, if_pos h, if_pos (by simp [hgap, hok, hhigh])]

end Sys2Proof.Machine
end

section
/-!
PROOFS. A response burst, and what the cipher leaves of the lines that hand it a message (R95, R139, R140, R181, R186, R194, R195).
-/

namespace Sys2Proof.Machine

/-! ### What an operation elsewhere leaves of the lines -/

/-- What the lanes and the ranging of both lines hold, and the words that say how the lines stand, are in e as in d. -/
structure keepsLine (d e : Dev) : Prop where
  roles : keepsRoles d e
  lanes : e.lineHw = d.lineHw
  ranging : e.rngHw = d.rngHw

theorem keepsLine.refl (d : Dev) : keepsLine d d := ⟨.refl d, rfl, rfl⟩

theorem keepsLine.trans {d e g : Dev} (h : keepsLine d e) (h' : keepsLine e g) : keepsLine d g :=
  ⟨h.roles.trans h'.roles, h'.lanes.trans h.lanes, h'.ranging.trans h.ranging⟩

theorem keepsLine.wr {d e : Dev} (h : keepsLine d e) {r : Reg} (hr : isRoleWord r.ofs = false) (w : Word) : keepsLine d (wr e r w) :=
  h.trans ⟨(keepsRoles.refl e).wr hr w, rfl, rfl⟩

theorem keepsLine.count {d e : Dev} (h : keepsLine d e) {r : Reg} (hr : isRoleWord r.ofs = false) : keepsLine d (count e r) := h.wr hr _

theorem keepsLine.countBy {d e : Dev} (h : keepsLine d e) {r : Reg} (hr : isRoleWord r.ofs = false) (n : Nat) :
    keepsLine d (countBy e r n) := h.wr hr _

theorem keepsLine.setFld {d e : Dev} (h : keepsLine d e) {f : Fld} (hr : isRoleWord f.reg.ofs = false) (v : Nat) :
    keepsLine d (setFld e f v) := h.wr hr _

theorem keepsLine.setFlag {d e : Dev} (h : keepsLine d e) {f : Fld} (hr : isRoleWord f.reg.ofs = false) (b : Bool) :
    keepsLine d (setFlag e f b) := h.wr hr _

theorem keepsLine.setRegBit {d e : Dev} (h : keepsLine d e) {r : Reg} (hr : isRoleWord r.ofs = false) (b : Nat) (v : Bool) :
    keepsLine d (setRegBit e r b v) := h.wr hr _

theorem keepsLine.raiseEvt {d e : Dev} (h : keepsLine d e) {u : EvtUnit} (hu : isRoleWord u.evt.ofs = false) (b : Nat) :
    keepsLine d (raiseEvt e u b) := by
  obtain ⟨r, p, o, eq⟩ := raiseEvt_spec e u b
  exact h.trans ⟨(keepsRoles.refl e).raiseEvt hu b, by rw [eq], by rw [eq]⟩

/-! ### A slice that service ends (R378, R383) -/

theorem setVerdict_regs (d : Dev) (t v : Nat) : ∃ r, setVerdict d t v = { d with regs := r } := by
  unfold setVerdict
  refine forEach_keeps (P := fun e => ∃ r, e = { d with regs := r }) (fun e u he => ?_) (targetUnits t) ?_
  · obtain ⟨r, rfl⟩ := he
    exact ⟨_, rfl⟩
  · split
    · exact ⟨_, rfl⟩
    · exact ⟨_, rfl⟩

theorem keepsLine.setVerdict {d e : Dev} (h : keepsLine d e) {t : Nat} (ht : t < 48) (v : Nat) : keepsLine d (setVerdict e t v) := by
  obtain ⟨r, eq⟩ := setVerdict_regs e t v
  exact h.trans ⟨(keepsRoles.refl e).setVerdict ht v, by rw [eq], by rw [eq]⟩

theorem sliceService_touches (d : Dev) (t : Nat) : ∃ r n b, sliceService d t = { d with regs := r, freeCount := n, bst := b } := by
  unfold sliceService abortSlice
  split
  · next hs =>
    simp only [hs]
    generalize hc : recordSlice _ vdAborted cutService = c
    obtain ⟨r, e⟩ := setVerdict_regs c t vdAborted
    rw [e, ← hc]
    exact ⟨_, _, _, rfl⟩
  · exact ⟨d.regs, d.freeCount, d.bst, rfl⟩

theorem keepsLine.sliceService {d e : Dev} (h : keepsLine d e) {t : Nat} (ht : t < 48) : keepsLine d (sliceService e t) := by
  obtain ⟨r, n, b, eq⟩ := sliceService_touches e t
  exact h.trans ⟨(keepsRoles.refl e).sliceService ht, by rw [eq], by rw [eq]⟩

/-! ### The cipher (R182, R186, R194, R195) -/

theorem isRoleWord_cip {o : Nat} (h : 0x800000 ≤ o) : isRoleWord o = false := isRoleWord_false (by omega)

theorem keepsLine.exhaust {d e : Dev} (h : keepsLine d e) (k : Nat) : keepsLine d (exhaust e k) := by
  unfold Machine.exhaust
  split
  · exact h
  · exact (h.setRegBit (isRoleWord_cip (by simp only; omega)) _ _).raiseEvt rfl _

theorem keepsLine.checkExhausted {d e : Dev} (h : keepsLine d e) (k : Nat) : keepsLine d (checkExhausted e k) := by
  unfold Machine.checkExhausted
  split
  · exact h.exhaust k
  · exact h

theorem keepsLine.setTxCtr {d e : Dev} (h : keepsLine d e) (k n : Nat) : keepsLine d (setTxCtr e k n) :=
  (h.wr (r := CIP_TX_CTR_LO k) (isRoleWord_cip (by simp only; omega)) _).wr (r := CIP_TX_CTR_HI k) (isRoleWord_cip (by simp only; omega)) _

theorem keepsLine.syncEngines {d e : Dev} (h : keepsLine d e) : keepsLine d (syncEngines e) := by
  have hset := (h.setFld (f := CIP_STATUS_ENGINES_OK) rfl (workingEngines e).length).setFlag (f := CIP_STATUS_CAPACITY_LOW) rfl
    (decide ((workingEngines e).length < 8))
  unfold Machine.syncEngines
  simp only
  split
  · exact hset.raiseEvt rfl _
  · exact hset

/-- The spare of a group, and the flag that shows it in service. -/
def spareOf (n : Nat) : Nat := if inGroupB n then 17 else 16
def spareUsed (n : Nat) : Fld := if inGroupB n then CIP_STATUS_SPARE_B_USED else CIP_STATUS_SPARE_A_USED

theorem spareOf_lt (n : Nat) : spareOf n < 18 := by unfold spareOf; split <;> decide

theorem isRoleWord_spareUsed (n : Nat) : isRoleWord (spareUsed n).reg.ofs = false := by unfold spareUsed; split <;> rfl

/-- The engine is out of service; CIP shows RETIRED once all are. -/
def engineOut (d : Dev) (n : Nat) : Dev :=
  let d := raiseCip (setFld d ⟨engineReg n, 31, 30⟩ 2) cpRetired
  if (List.range 18).all (fun e => engineState d e == 2) then setFlag d (HDR_STATUS_RETIRED (unitAt 21).base) true else d

/-- Its group's spare is asked into service: it serves no more where it is the engine itself, and a slice on it ends. -/
def spareAsked (d : Dev) (n : Nat) : Dev := sliceService (if n = spareOf n then setFlag d (spareUsed n) false else d) (spareOf n)

/-- The spare takes the engine's place where it stands by, else the group runs with one engine fewer. -/
def spareTaken (d : Dev) (n : Nat) : Dev :=
  if engineState d (spareOf n) = 1 ∨ engineState d (spareOf n) = 3 then
    setFlag (setFlag (setFld d ⟨engineReg (spareOf n), 31, 30⟩ 0) (spareUsed n) true) (HDR_STATUS_SPARE_IN_USE (unitAt 21).base) true
  else syncEngines d

theorem retireEngine_eq (d : Dev) (n : Nat) : retireEngine d n
    = if engineState d n = 2 then d
      else if !(engineState d n == 0) then engineOut d n
      else spareTaken (spareAsked (engineOut d n) n) n := rfl

theorem keepsLine.engineOut {d e : Dev} (h : keepsLine d e) {n : Nat} (hn : n < 18) : keepsLine d (engineOut e n) := by
  have hout := (h.setFld (f := ⟨engineReg n, 31, 30⟩) (isRoleWord_engine hn) 2).raiseEvt (u := evCIP) rfl cpRetired
  unfold Machine.engineOut
  simp only
  split
  · exact hout.setFlag rfl true
  · exact hout

theorem keepsLine.spareAsked {d e : Dev} (h : keepsLine d e) (n : Nat) : keepsLine d (spareAsked e n) := by
  refine keepsLine.sliceService ?_ (Nat.lt_trans (spareOf_lt n) (by decide))
  split
  · exact h.setFlag (isRoleWord_spareUsed n) false
  · exact h

theorem keepsLine.spareTaken {d e : Dev} (h : keepsLine d e) (n : Nat) : keepsLine d (spareTaken e n) := by
  unfold Machine.spareTaken
  split
  · exact ((h.setFld (f := ⟨engineReg (spareOf n), 31, 30⟩) (isRoleWord_engine (spareOf_lt n)) 0).setFlag
      (isRoleWord_spareUsed n) true).setFlag rfl true
  · exact h.syncEngines

theorem keepsLine.retireEngine {d e : Dev} (h : keepsLine d e) {n : Nat} (hn : n < 18) : keepsLine d (retireEngine e n) := by
  rw [retireEngine_eq]
  split
  · exact h
  split
  · exact h.engineOut hn
  · exact ((h.engineOut hn).spareAsked n).spareTaken n

theorem keepsLine.faultEngine {d e : Dev} (h : keepsLine d e) {n : Nat} (hn : n < 18) : keepsLine d (faultEngine e n) := by
  have hcount : keepsLine d (countFld e ⟨engineReg n, 7, 0⟩) := h.setFld (isRoleWord_engine hn) _
  unfold Machine.faultEngine
  simp only
  split
  · exact hcount.retireEngine hn
  · exact hcount

theorem keepsLine.engineMismatch {d e : Dev} (h : keepsLine d e) (m : EngineMiss) : keepsLine d (engineMismatch e m) := by
  have hraised := (h.count (r := CIP_MISMATCH) rfl).raiseEvt (u := evCIP) rfl cpMismatch
  have hfirst : keepsLine d (if m.odd = 1 then raiseCip (Machine.count e CIP_MISMATCH) cpMismatch
      else Machine.faultEngine (raiseCip (Machine.count e CIP_MISMATCH) cpMismatch) m.first) := by
    split
    · exact hraised
    · exact hraised.faultEngine m.first.isLt
  unfold Machine.engineMismatch
  simp only
  split
  · exact hraised
  split
  · exact hfirst
  · exact hfirst.faultEngine m.second.isLt

/-- A frame presented to CIP touches CIP, its engines and their slices. -/
theorem keepsLine.cipUp {d e : Dev} (h : keepsLine d e) (page tag : Nat) (oam time : Bool) (pieces : List (List Byte))
    (mis : List EngineMiss) : keepsLine d (cipUp e page tag oam time pieces mis).1 := by
  unfold Machine.cipUp
  simp only
  split
  · exact h.count rfl
  split
  · exact h
  split
  · exact h.count rfl
  split
  · exact h.count rfl
  split
  · exact (h.exhaust _).count rfl
  split
  · exact h.countBy rfl _
  split
  · exact ((h.setTxCtr _ _).checkExhausted _).countBy rfl _
  · exact forEach_keeps (fun _ m hg => hg.engineMismatch m) _ ((h.setTxCtr _ _).checkExhausted _)

end Sys2Proof.Machine
end

section
/-!
PROOFS. The response burst, and the statement of the bursts (R139, R140).
-/

namespace Sys2Proof.Machine

/-! ### Whether bursts may be sent (R95, R386) -/

theorem burstOk_congr {d e : Dev} (h : ∀ q : Reg, q.ofs < 0x600000 ∨ isRoleWord q.ofs = true → rd e q = rd d q) (x : Line) (u : Nat) :
    burstOk e x u = burstOk d x u := by
  have hx := ix_le_one x
  have hctl : rd e (LLx_CTL x.ix) = rd d (LLx_CTL x.ix) := h _ (.inl (by simp only; omega))
  have hlane : rd e (LLx_STATUS x.ix) = rd d (LLx_STATUS x.ix) := h _ (.inl (by simp only; omega))
  have hstate : rd e (RNG_Lx_STATUS x.ix) = rd d (RNG_Lx_STATUS x.ix) := h _ (.inr (isRoleWord_of_line (isLineWord_state x)))
  have htarget : rd e (BST_TGTt_STATUS (44 + x.ix)) = rd d (BST_TGTt_STATUS (44 + x.ix)) := h _ (.inl (by simp only; omega))
  have hmod : modState e x = modState d x := fld_congr _ hlane
  have hterm : termState e x = termState d x := fld_congr _ hstate
  have hfull : fullOrTrim e = fullOrTrim d := by rw [fullOrTrim, fld_congr _ (h PWR_STATUS (.inl (by decide))), fullOrTrim]
  have hdomain : domainOn e (txDomain x) = domainOn d (txDomain x) := domainOn_congr (fun q hq => h q (.inl (by omega))) _
  rw [burstOk, laserOkNow, laserCauses, targetRetired, hmod, hterm, hfull, hdomain, flag_congr _ hstate,
    fld_congr (LLx_CTL_LASER_OFF x.ix) hctl, fld_congr (LLx_CTL_TX_EN x.ix) hctl, fld_congr (LLx_CTL_TEST_MODE x.ix) hctl,
    fld_congr (BST_TGTt_STATUS_STATE (44 + x.ix)) htarget, burstOk, laserOkNow, laserCauses, targetRetired]

/-! ### The stages of a response burst (R139) -/

theorem exec_responseBurst (x : Line) (mis : List EngineMiss) (s : State) :
    exec (.responseBurst x mis) s = .next (s.withDev (responseBurst x mis s.dev)) := rfl

/-- The counter of a response: SN_RESP for an announcement, RNG_RESP for a ranging response. -/
def responseCounter (x : Line) (r : Response) : Reg := if r.delay.isSome then RNG_Lx_SN_RESP x.ix else RNG_Lx_RNG_RESP x.ix

/-- The response waits no more and is counted. -/
def responseTaken (d : Dev) (x : Line) (r : Response) : Dev := count (setRng d x (fun h => { h with response := none })) (responseCounter x r)

/-- The line units of its message, under the line's management page. -/
def responseUnits (d : Dev) (x : Line) (r : Response) (mis : List EngineMiss) : Dev × Option (List LineUnit) :=
  cipUp (responseMessage d x r).1 (mgmtPage (responseMessage d x r).1 x) 0xFFFFE true false [(responseMessage d x r).2] mis

/-- Its burst goes out and is counted, and the place of its end is noted. -/
def responseSent (lit : Bool) (d : Dev) (x : Line) (r : Response) (us : Option (List LineUnit)) : Dev :=
  let d := countBy d (ENC_Lx_LU_TX x.ix) (us.getD []).length
  let data := ((us.getD []).map unitWire).flatten
  let data := data ++ fillerWire 4 (dataCapacity 14 / 64 - data.length / 8)
  let blocks := burstBlocks (preLen d x r.profile) (preWord d x r.profile) (headerNow d x false r.alloc 0 0) r.frame r.chan 14 data
  let d := sendBurst (if lit then startBen d x r.chan else d) x r.chan lit blocks
  setUp (count d (UPB_BURSTS x.ix)) x
    (fun h => { h with lastEnd := sput 0 h.lastEnd r.chan (r.frame * 3320000 + 32 * (r.delay.getD 0 + 19)) })

/-- Its lane is in the tail, or the burst was dark and is counted as suppressed. -/
def responseSettled (lit : Bool) (d : Dev) (x : Line) (u : Nat) : Dev :=
  if lit then setBenPhase d x u benTail else raiseLL (count (noteSuppressed d x) (LLx_BEN_SUPPRESSED x.ix)) x llSuppressed

theorem responseBurst_eq {d : Dev} {x : Line} {r : Response} (h : (d.rngHw.get x).response = some r) (mis : List EngineMiss) :
    responseBurst x mis d = responseSettled (burstOk (responseTaken d x r) x r.chan)
      (responseSent (burstOk (responseTaken d x r) x r.chan) (responseUnits (responseTaken d x r) x r mis).1 x r
        (responseUnits (responseTaken d x r) x r mis).2) x r.chan := by
  unfold responseBurst
  rw [h]
  rfl

theorem responseSettled_lit (d : Dev) (x : Line) (u : Nat) : benPhase (responseSettled true d x u) x u = benTail := setBenPhase_same _ _ _ _

/-! ### What a response burst leaves of its line (R139, R140) -/

theorem responseCounter_apart (x : Line) (r : Response) {q : Reg} (h : q.ofs < 0x600000 ∨ isRoleWord q.ofs = true) :
    q.ofs ≠ (responseCounter x r).ofs := by
  have hword : isRoleWord (responseCounter x r).ofs = false := by unfold responseCounter; cases x <;> split <;> rfl
  have hlow : 0x600000 ≤ (responseCounter x r).ofs := by unfold responseCounter; split <;> (simp only; omega)
  rcases h with h | h
  · omega
  · exact ne_of_isRoleWord h hword

theorem rd_responseTaken (d : Dev) (x : Line) (r : Response) {q : Reg} (h : q.ofs < 0x600000 ∨ isRoleWord q.ofs = true) :
    rd (responseTaken d x r) q = rd d q := rd_count_other _ (responseCounter_apart x r h)

theorem burstOk_responseTaken (d : Dev) (x : Line) (r : Response) (u : Nat) : burstOk (responseTaken d x r) x u = burstOk d x u :=
  burstOk_congr (fun _ => rd_responseTaken d x r) x u

/-- Making the message takes a sequence number of the line, and nothing else. -/
theorem responseMessage_fst (d : Dev) (x : Line) (r : Response) :
    (responseMessage d x r).1 = setRng d x (fun h => { h with seqOut := (h.seqOut + 1) % 65536 }) := by
  unfold responseMessage
  simp only
  split
  · rfl
  · rfl

theorem setRng_same (d : Dev) (x : Line) (f : RngHw → RngHw) : (setRng d x f).rngHw.get x = f (d.rngHw.get x) := PerLine.get_set_same _ _ _

theorem response_responseMessage (d : Dev) (x : Line) (r : Response) :
    ((responseMessage (responseTaken d x r) x r).1.rngHw.get x).response = none := by
  rw [responseMessage_fst, setRng_same, responseTaken, count_rngHw, setRng_same]

theorem termState_responseMessage (d : Dev) (x : Line) (r : Response) :
    termState (responseMessage (responseTaken d x r) x r).1 x = termState d x := by
  rw [responseMessage_fst]
  exact fld_congr _ (rd_responseTaken d x r (.inr (isRoleWord_of_line (isLineWord_state x))))

theorem benPhase_responseMessage (d : Dev) (x : Line) (r : Response) (u : Nat) :
    benPhase (responseMessage (responseTaken d x r) x r).1 x u = benPhase d x u := by
  rw [responseMessage_fst]
  rfl

theorem keepsLine.noteSuppressed {d e : Dev} (h : keepsLine d e) (x : Line) : keepsLine d (noteSuppressed e x) := by
  have hraised : keepsLine d (raiseUpb (Machine.count e (UPB_SUPPRESSED x.ix)) x upSuppressed) :=
    (h.count (by cases x <;> rfl)).raiseEvt (by cases x <;> rfl) _
  exact hraised.trans ⟨.refl _, rfl, rfl⟩

/-- A dark burst goes out without a change of the lanes and of the ranging. -/
theorem responseSent_dark (d : Dev) (x : Line) (r : Response) (us : Option (List LineUnit)) : keepsLine d (responseSent false d x r us) := by
  have hcount : keepsLine d (countBy d (ENC_Lx_LU_TX x.ix) (us.getD []).length) := (keepsLine.refl d).countBy (by cases x <;> rfl) _
  unfold responseSent
  simp only [Bool.false_eq_true, if_false]
  generalize burstBlocks _ _ _ _ _ _ _ = blocks
  have hsent : keepsLine d (sendBurst (countBy d (ENC_Lx_LU_TX x.ix) (us.getD []).length) x r.chan false blocks) :=
    hcount.trans ⟨.refl _, rfl, rfl⟩
  exact (hsent.count (r := UPB_BURSTS x.ix) (by cases x <;> rfl)).trans ⟨.refl _, rfl, rfl⟩

theorem responseSettled_dark (d : Dev) (x : Line) (u : Nat) : keepsLine d (responseSettled false d x u) :=
  (((keepsLine.refl d).noteSuppressed x).count (by cases x <;> rfl)).raiseEvt (by cases x <;> rfl) _

theorem keepsLine.benPhase {d e : Dev} (h : keepsLine d e) (x : Line) (u : Nat) : benPhase e x u = benPhase d x u := by
  rw [Machine.benPhase, h.lanes, ← Machine.benPhase]

/-- A response that may not be sent lit waits no more; the line's terminal state and the lane's phase stay. -/
theorem responseBurst_dark {d : Dev} {x : Line} {r : Response} (h : (d.rngHw.get x).response = some r) (hb : burstOk d x r.chan = false)
    (mis : List EngineMiss) : ((responseBurst x mis d).rngHw.get x).response = none ∧ termState (responseBurst x mis d) x = termState d x
      ∧ benPhase (responseBurst x mis d) x r.chan = benPhase d x r.chan := by
  rw [responseBurst_eq h, burstOk_responseTaken, hb]
  have hunits : keepsLine (responseMessage (responseTaken d x r) x r).1 (responseUnits (responseTaken d x r) x r mis).1 :=
    (keepsLine.refl _).cipUp _ _ _ _ _ mis
  have hkeep := (hunits.trans (responseSent_dark _ x r (responseUnits (responseTaken d x r) x r mis).2)).trans
    (responseSettled_dark _ x r.chan)
  refine ⟨?_, ?_, ?_⟩
  · rw [hkeep.ranging]
    exact response_responseMessage d x r
  · rw [hkeep.roles.termState]
    exact termState_responseMessage d x r
  · rw [hkeep.benPhase]
    exact benPhase_responseMessage d x r r.chan

theorem benPhase_responseBurst {d : Dev} {x : Line} {r : Response} (h : (d.rngHw.get x).response = some r)
    (hb : burstOk d x r.chan = true) (mis : List EngineMiss) : benPhase (responseBurst x mis d) x r.chan = benTail := by
  rw [responseBurst_eq h, burstOk_responseTaken, hb]
  exact responseSettled_lit _ x r.chan

/-! ### The statement -/

/-- Settles O41: each command is one stage of the burst of the grant, or of the response, that it finds. -/
theorem burstsOnTheLane : Obligations.BurstsOnTheLane := by
  refine ⟨fun x u s g hg hl hw => ?_, fun x u s g hg => ⟨fun a rest hs => ⟨?_, ?_⟩, fun hs => ?_⟩, fun x u s g hg hp hh => ⟨?_, ?_, ?_⟩,
    fun x u s ht => ⟨fun hgap => ?_, fun hgap hok hhigh => ?_⟩, fun x mis s r hr => ⟨fun hb => ?_, fun hb => ?_⟩⟩
  · obtain ⟨hmem, hu⟩ := nextBurst_spec hg
    obtain ⟨hhigh, hphase⟩ := litBurst_spec (d := s.dev) (x := x) hu
    rw [exec_burstBenRise, burstBenRise_next hg hl hw]
    refine ⟨fun hb => ?_, fun hb => ?_⟩
    · exact ⟨_, by rw [if_pos hb], hhigh, hphase, _, mem_litBurst hmem, rfl, rfl, rfl, rfl⟩
    · exact ⟨by rw [if_neg (by simp [hb])], _, mem_darkBurst hmem, rfl, rfl, rfl⟩
  · refine ⟨_, exec_unitCutoff x u .clean s, ?_⟩
    rw [unitCutoff_clean hg hs, syncNrw_upHw]
    exact mem_replaceGrant (fillingOn_mem hg) _
  · refine ⟨_, exec_unitCutoff x u .uncorrectable s, ?_, ?_⟩
    · rw [unitCutoff_uncorrectable hg hs]
      exact rdn_uncorrectable _ _
    · rw [unitCutoff_uncorrectable hg hs, uncorrectable_upHw]
      exact mem_replaceGrant (fillingOn_mem hg) _
  · rw [exec_unitCutoff, unitCutoff_empty hg hs]
  · rw [exec_burstEnd, burstEnd_decided hg hp hh]
  · exact rdn_endGrant s.dev x g
  · exact fun hd hall => benPhase_endGrant hd hall
  · rw [exec_benFall, benFall_idle ht hgap]
  · rw [exec_benFall, benFall_gap ht hgap hok hhigh]
  · exact ⟨_, exec_responseBurst x mis s, rfl, benPhase_responseBurst hr hb mis⟩
  · exact ⟨_, exec_responseBurst x mis s, responseBurst_dark hr hb mis⟩

end Sys2Proof.Machine
end

section
/-!
PROOFS. Bonding of a line and MODE: what an event and an end of bonding touch, and how MODE restarts bonding (R114, R115).
-/

namespace Sys2Proof.Machine

/-! ### Words of a framer -/

/-- An event of a framer leaves every register below the host interface but its event word. -/
theorem rd_raiseDsf_other (d : Dev) (x : Line) (b : Nat) {q : Reg} (h : q.ofs ≠ (DSF_EVT x.ix).ofs) (hlow : q.ofs < 0xf00000) :
    rd (raiseDsf d x b) q = rd d q :=
  rd_raiseEvt_other d (evDSF x.ix) b h (by simp only; omega) (by simp only; omega)

theorem raiseDsf_touches (d : Dev) (x : Line) (b : Nat) : ∃ r p o, raiseDsf d x b = { d with regs := r, msixPending := p, out := o } :=
  raiseEvt_spec d (evDSF x.ix) b

@[simp] theorem raiseDsf_dsf (d : Dev) (x : Line) (b : Nat) : (raiseDsf d x b).dsf = d.dsf := by
  obtain ⟨r, p, o, e⟩ := raiseDsf_touches d x b
  rw [e]

@[simp] theorem raiseDsf_secDue (d : Dev) (x : Line) (b : Nat) : (raiseDsf d x b).secDue = d.secDue := by
  obtain ⟨r, p, o, e⟩ := raiseDsf_touches d x b
  rw [e]

@[simp] theorem setDsf_same (d : Dev) (x : Line) (f : DsfHw → DsfHw) : (setDsf d x f).dsf.get x = f (d.dsf.get x) :=
  PerLine.get_set_same _ _ _

@[simp] theorem rd_setDsf (d : Dev) (x : Line) (f : DsfHw → DsfHw) (q : Reg) : rd (setDsf d x f) q = rd d q := rfl

@[simp] theorem fld_setDsf (d : Dev) (x : Line) (f : DsfHw → DsfHw) (g : Fld) : fld (setDsf d x f) g = fld d g := rfl

/-! ### Ends of bonding (R115) -/

/-- BONDED is clear and the run of frames that meet R115 starts again. -/
def unbonded (d : Dev) (x : Line) : Dev := setFlag (setDsf d x (fun h => { h with bondRun := 0 })) (DSF_STATUS_BONDED x.ix) false

theorem bonded_unbonded (d : Dev) (x : Line) : bonded (unbonded d x) x = false := flag_setFlag_same _ _ (by simp) (by simp)

theorem rd_unbonded_other (d : Dev) (x : Line) {q : Reg} (h : q.ofs ≠ (DSF_STATUS x.ix).ofs) : rd (unbonded d x) q = rd d q :=
  rd_setFlag_other _ _ h

/-- An end of bonding that is a loss of it is counted and reported. -/
def bondLost (d : Dev) (x : Line) : Dev := raiseDsf (count (unbonded d x) (DSF_BOND_LOSS x.ix)) x dsBondLoss

theorem unbond_eq (d : Dev) (x : Line) (loss : Bool) :
    unbond d x loss = if bonded d x && loss then bondLost d x else unbonded d x := rfl

theorem unbond_of_no_loss (d : Dev) (x : Line) : unbond d x false = unbonded d x := by
  rw [unbond_eq, Bool.and_false, if_neg Bool.false_ne_true]

theorem unbond_of_loss {d : Dev} {x : Line} (h : bonded d x = true) : unbond d x true = bondLost d x := by
  rw [unbond_eq, h, Bool.and_true, if_pos rfl]

theorem rd_bondLost_other (d : Dev) (x : Line) {q : Reg} (hl : q.ofs ≠ (DSF_BOND_LOSS x.ix).ofs) (he : q.ofs ≠ (DSF_EVT x.ix).ofs)
    (hlow : q.ofs < 0xf00000) : rd (bondLost d x) q = rd (unbonded d x) q := by
  rw [bondLost, rd_raiseDsf_other _ _ _ he hlow, rd_count_other _ hl]

/-- Everything an end of bonding can do: bonding restarts, and a loss of it is counted and reported. -/
theorem unbond_cases (d : Dev) (x : Line) (loss : Bool) : unbond d x loss = bondLost d x ∨ unbond d x loss = unbonded d x :=
  ite_eq_or_eq _ _ _

theorem rd_unbond_other (d : Dev) (x : Line) (loss : Bool) {q : Reg} (hs : q.ofs ≠ (DSF_STATUS x.ix).ofs)
    (hl : q.ofs ≠ (DSF_BOND_LOSS x.ix).ofs) (he : q.ofs ≠ (DSF_EVT x.ix).ofs) (hlow : q.ofs < 0xf00000) :
    rd (unbond d x loss) q = rd d q := by
  rcases unbond_cases d x loss with h | h
  · rw [h, rd_bondLost_other d x hl he hlow, rd_unbonded_other d x hs]
  · rw [h, rd_unbonded_other d x hs]

theorem bonded_unbond (d : Dev) (x : Line) (loss : Bool) : bonded (unbond d x loss) x = false := by
  have hlow := ix_le_one x
  rcases unbond_cases d x loss with h | h
  · rw [h, bonded, flag_congr _ (rd_bondLost_other d x (by simp only; omega) (by simp only; omega) (by simp only; omega)), ← bonded,
      bonded_unbonded]
  · rw [h, bonded_unbonded]

/-- A loss of bonding is counted. -/
theorem rdn_unbond_loss {d : Dev} {x : Line} (h : bonded d x = true) :
    rdn (unbond d x true) (DSF_BOND_LOSS x.ix) = min (rdn d (DSF_BOND_LOSS x.ix) + 1) 0xFFFFFFFF := by
  have hlow := ix_le_one x
  rw [unbond_of_loss h, bondLost, rdn, rd_raiseDsf_other _ _ _ (by simp only; omega) (by simp only; omega), ← rdn, rdn_count_same, rdn,
    rd_unbonded_other d x (by simp only; omega), ← rdn]

/-! ### MODE (R114) -/

theorem exec_dsfModeChange (x : Line) (s : State) : exec (.dsfModeChange x) s = .next (s.withDev (dsfModeChange x s.dev)) := rfl

/-- MODE has taken its value, bonding restarts, and the present round and the deskew stores are empty. -/
def modeTaken (d : Dev) (x : Line) (m : Nat) : Dev :=
  setDsf (unbonded (setFld d (DSF_STATUS_MODE x.ix) m) x) x (fun h => { h with rx := [], words := [] })

theorem dsfModeChange_of_same {x : Line} {d : Dev} (hon : dsfOn d x = true) (h : dsfMode d x = modeWanted d x) :
    dsfModeChange x d = lineDefects (syncChannels d x) x := by
  rw [dsfModeChange, if_pos hon, takeMode, if_pos h]

theorem dsfModeChange_of_other {x : Line} {d : Dev} (hon : dsfOn d x = true) (h : dsfMode d x ≠ modeWanted d x) :
    dsfModeChange x d = lineDefects (syncChannels (modeTaken d x (modeWanted d x)) x) x := by
  rw [dsfModeChange, if_pos hon, takeMode, if_neg h, unbond_of_no_loss]
  rfl

theorem modeWanted_lt (d : Dev) (x : Line) : modeWanted d x < 4 := by
  unfold modeWanted
  split
  · decide
  split
  · decide
  · decide

theorem rd_modeTaken_other (d : Dev) (x : Line) (m : Nat) {q : Reg} (h : q.ofs ≠ (DSF_STATUS x.ix).ofs) :
    rd (modeTaken d x m) q = rd d q := by
  rw [modeTaken, rd_setDsf, rd_unbonded_other _ x h, rd_setFld_other _ _ h]

theorem bonded_modeTaken (d : Dev) (x : Line) (m : Nat) : bonded (modeTaken d x m) x = false := by
  rw [modeTaken, bonded, flag, fld_setDsf, ← flag, ← bonded, bonded_unbonded]

theorem dsfMode_modeTaken (d : Dev) (x : Line) {m : Nat} (hm : m < 4) : dsfMode (modeTaken d x m) x = m := by
  rw [dsfMode, modeTaken, fld_setDsf, unbonded, fld_setFlag_apart _ _ (by simp [apart]), fld_setDsf,
    fld_setFld_same _ _ (by simp) (by simp)]
  exact Nat.mod_eq_of_lt hm

/-- Settles O35: where MODE changes only DSF_STATUS does, and an end of bonding is counted where it is a loss of it. -/
theorem modeRestartsBonding : Obligations.ModeRestartsBonding := by
  refine ⟨fun x s hon => ⟨fun h => ?_, fun h => ?_⟩, fun d x => ⟨⟨?_, ?_⟩, ?_, rdn_unbond_loss⟩⟩
  · rw [exec_dsfModeChange, dsfModeChange_of_same hon h]
  · refine ⟨modeTaken s.dev x (modeWanted s.dev x), dsfMode_modeTaken _ _ (modeWanted_lt _ _), bonded_modeTaken _ _ _, ?_, ?_, ?_⟩
    · exact rd_modeTaken_other _ _ _ (by simp only; omega)
    · exact rd_modeTaken_other _ _ _ (by simp only [evDSF]; omega)
    · rw [exec_dsfModeChange, dsfModeChange_of_other hon h]
  · exact bonded_unbond d x true
  · exact bonded_unbond d x false
  · rw [unbond_of_no_loss]
    exact rd_unbonded_other d x (by simp only; omega)

end Sys2Proof.Machine
end

section
/-!
PROOFS. A channel hunts, confirms and enters SYNC: its state, defects and candidates, and the boundaries it meets (R110, R111).
-/

namespace Sys2Proof.Machine

/-! ### Far-end loopback (R97) -/

/-- Bits that go out again change the outbox alone. -/
theorem passOn_touches (x : Line) (c : Fin 8) (bits : List Bool) (d : Dev) : ∃ o, passOn x c bits d = { d with out := o } := by
  unfold passOn
  split
  · exact ⟨_, rfl⟩
  · exact ⟨_, rfl⟩

@[simp] theorem rd_passOn (x : Line) (c : Fin 8) (bits : List Bool) (d : Dev) (q : Reg) : rd (passOn x c bits d) q = rd d q := by
  obtain ⟨o, e⟩ := passOn_touches x c bits d
  rw [e]
  rfl

@[simp] theorem passOn_regs (x : Line) (c : Fin 8) (bits : List Bool) (d : Dev) : (passOn x c bits d).regs = d.regs := by
  obtain ⟨o, e⟩ := passOn_touches x c bits d
  rw [e]

@[simp] theorem passOn_dsf (x : Line) (c : Fin 8) (bits : List Bool) (d : Dev) : (passOn x c bits d).dsf = d.dsf := by
  obtain ⟨o, e⟩ := passOn_touches x c bits d
  rw [e]

@[simp] theorem passOn_elapsed (x : Line) (c : Fin 8) (bits : List Bool) (d : Dev) : (passOn x c bits d).elapsed = d.elapsed := by
  obtain ⟨o, e⟩ := passOn_touches x c bits d
  rw [e]

@[simp] theorem fld_passOn (x : Line) (c : Fin 8) (bits : List Bool) (d : Dev) (f : Fld) : fld (passOn x c bits d) f = fld d f := by
  rw [fld, rd_passOn, ← fld]

@[simp] theorem chanHw_passOn (x : Line) (c : Fin 8) (bits : List Bool) (d : Dev) (y : Line) (k : Nat) :
    chanHw (passOn x c bits d) y k = chanHw d y k := by
  rw [chanHw, passOn_dsf, ← chanHw]

@[simp] theorem hunts_passOn (x : Line) (c : Fin 8) (bits : List Bool) (d : Dev) (y : Line) (k : Nat) :
    hunts (passOn x c bits d) y k = hunts d y k := by
  obtain ⟨o, e⟩ := passOn_touches x c bits d
  rw [e]
  rfl

@[simp] theorem chState_passOn (x : Line) (c : Fin 8) (bits : List Bool) (d : Dev) (y : Line) (k : Nat) :
    chState (passOn x c bits d) y k = chState d y k := fld_passOn _ _ _ _ _

@[simp] theorem dsfOn_passOn (x : Line) (c : Fin 8) (bits : List Bool) (d : Dev) (y : Line) : dsfOn (passOn x c bits d) y = dsfOn d y := by
  obtain ⟨o, e⟩ := passOn_touches x c bits d
  rw [e]
  rfl

@[simp] theorem fsbMatches_passOn (x : Line) (c : Fin 8) (bits : List Bool) (d : Dev) (y : Line) (k : Nat) (fsb : List Byte) :
    fsbMatches (passOn x c bits d) y k fsb = fsbMatches d y k fsb := by
  obtain ⟨o, e⟩ := passOn_touches x c bits d
  rw [e]
  rfl

/-! ### What a channel holds -/

theorem chanHw_congr {d e : Dev} (h : e.dsf = d.dsf) (x : Line) (c : Nat) : chanHw e x c = chanHw d x c := by rw [chanHw, h, ← chanHw]

@[simp] theorem chanHw_setFld (d : Dev) (f : Fld) (v : Nat) (x : Line) (c : Nat) : chanHw (setFld d f v) x c = chanHw d x c := rfl

@[simp] theorem chanHw_setRegBit (d : Dev) (r : Reg) (b : Nat) (v : Bool) (x : Line) (c : Nat) :
    chanHw (setRegBit d r b v) x c = chanHw d x c := rfl

@[simp] theorem chanHw_count (d : Dev) (r : Reg) (x : Line) (c : Nat) : chanHw (count d r) x c = chanHw d x c := rfl

@[simp] theorem chanHw_setChan_same (d : Dev) (x : Line) (c : Nat) (f : ChanHw → ChanHw) :
    chanHw (setChan d x c f) x c = f (chanHw d x c) := by
  rw [chanHw, setChan, setDsf_same, sget_sput_same, ← chanHw]

theorem chanHw_setChan_other (d : Dev) (x : Line) {c k : Nat} (f : ChanHw → ChanHw) (h : k ≠ c) :
    chanHw (setChan d x c f) x k = chanHw d x k := by
  rw [chanHw, setChan, setDsf_same, sget_sput_other _ _ _ _ h, ← chanHw]

@[simp] theorem rd_setChan (d : Dev) (x : Line) (c : Nat) (f : ChanHw → ChanHw) (q : Reg) : rd (setChan d x c f) q = rd d q := rfl

@[simp] theorem fld_setChan (d : Dev) (x : Line) (c : Nat) (f : ChanHw → ChanHw) (g : Fld) : fld (setChan d x c f) g = fld d g := rfl

@[simp] theorem rdn_setChan (d : Dev) (x : Line) (c : Nat) (f : ChanHw → ChanHw) (q : Reg) : rdn (setChan d x c f) q = rdn d q := rfl

theorem chanHw_setCands (d : Dev) (x : Line) (c : Nat) (cs : List Candidate) :
    chanHw (setCands d x c cs) x c = { chanHw d x c with cands := cs } := by
  rw [setCands, syncCands, chanHw_setFld, chanHw_setFld, chanHw_setChan_same]

/-- The candidates of a channel show in its status word alone. -/
theorem rd_setCands_other (d : Dev) (x : Line) (c : Nat) (cs : List Candidate) {q : Reg} (h : q.ofs ≠ (DSF_CHc_STATUS x.ix c).ofs) :
    rd (setCands d x c cs) q = rd d q := by
  rw [setCands, syncCands, rd_setFld_other _ _ h, rd_setFld_other _ _ h, rd_setChan]

/-! ### States and defects of a channel -/

theorem regBit_congr (r : Reg) (b : Nat) {d e : Dev} (h : rd e r = rd d r) : regBit e r b = regBit d r b := by rw [regBit, h, ← regBit]

theorem chState_congr {x : Line} (c : Nat) {d e : Dev} (h : rd e (DSF_CH_STATE x.ix) = rd d (DSF_CH_STATE x.ix)) :
    chState e x c = chState d x c := fld_congr _ h

@[simp] theorem chanHw_setChState (d : Dev) (x : Line) (c st : Nat) (y : Line) (k : Nat) :
    chanHw (setChState d x c st) y k = chanHw d y k := rfl

theorem rd_setChState_other (d : Dev) (x : Line) (c st : Nat) {q : Reg} (h : q.ofs ≠ (DSF_CH_STATE x.ix).ofs) :
    rd (setChState d x c st) q = rd d q := rd_setFld_other _ _ h

theorem chState_setChState_same (d : Dev) (x : Line) {c st : Nat} (hc : c < 8) (hst : st < 4) : chState (setChState d x c st) x c = st := by
  rw [chState, setChState, fld_setFld_same _ _ (by simp only; omega) (by simp only; omega)]
  have hw : 2 * c + 1 - 2 * c + 1 = 2 := by omega
  rw [hw]
  exact Nat.mod_eq_of_lt hst

/-! ### CANDIDATE_OPEN (R110) -/

theorem exec_candidateOpen (x : Line) (c : Fin 8) (pos : Nat) (fsb : List Byte) (s : State) :
    exec (.candidateOpen x c pos fsb) s = .next (s.withDev (candidateOpen x c pos fsb s.dev)) := rfl

theorem candidateOpen_of_hunts {x : Line} {c : Fin 8} {d : Dev} (pos : Nat) (fsb : List Byte) (h : hunts d x c = true) :
    candidateOpen x c pos fsb d = openCandidate (passOn x c (bytesBits fsb) d) x c pos fsb := by
  rw [candidateOpen, hunts_passOn, if_pos h]

/-- A boundary that does not meet R110 changes nothing. -/
theorem openCandidate_of_mismatch {d : Dev} {x : Line} {c : Nat} (pos : Nat) {fsb : List Byte}
    (h : fawErrors fsb ≠ 0 ∨ fsbGood fsb = false ∨ fsbMatches d x c fsb = false) : openCandidate d x c pos fsb = d := by
  rw [openCandidate, if_neg]
  rcases h with h | h | h
  · simp [h]
  · simp [h]
  · simp [h]

/-- A boundary that meets R110 where no candidate is pending opens one, or is counted where 8 others are. -/
theorem openCandidate_of_match {d : Dev} {x : Line} {c pos : Nat} {fsb : List Byte} (hfaw : fawErrors fsb = 0)
    (hgood : fsbGood fsb = true) (hmatch : fsbMatches d x c fsb = true) (hpos : ∀ k ∈ (chanHw d x c).cands, k.pos ≠ pos) :
    openCandidate d x c pos fsb = if 8 ≤ (chanHw d x c).cands.length then count d (DSF_HUNT_OVF x.ix)
      else huntState (setCands d x c
        ((chanHw d x c).cands ++ [{ pos := pos, frame := fsbFrame fsb, cnt := 1, seen := d.elapsed }])) x c := by
  have hnew : (chanHw d x c).cands.any (fun k => k.pos == pos) = false :=
    List.any_eq_false.mpr (fun k hk => by simpa using hpos k hk)
  rw [openCandidate, if_pos (by rw [hfaw, hgood, hmatch, hnew]; rfl)]

theorem chState_huntState_pending {d : Dev} {x : Line} {c : Nat} (hc : c < 8) (h : (chanHw d x c).cands ≠ []) :
    chState (huntState d x c) x c = chConfirm := by
  rw [huntState, if_neg (by simpa using h)]
  exact chState_setChState_same d x hc (by decide)

@[simp] theorem chanHw_huntState (d : Dev) (x : Line) (c : Nat) : chanHw (huntState d x c) x c = chanHw d x c :=
  chanHw_setChState _ _ _ _ _ _

/-! ### CANDIDATE_CHECK (R111) -/

theorem exec_candidateCheck (x : Line) (c : Fin 8) (pos : Nat) (fsb : List Byte) (skew : Int) (s : State) :
    exec (.candidateCheck x c pos fsb skew) s = .next (s.withDev (candidateCheck x c pos fsb skew s.dev)) := rfl

/-- The candidates after the one at pos has survived a frame. -/
def survived (cs : List Candidate) (pos frame tick : Nat) : List Candidate :=
  cs.map (fun e => if e.pos = pos then { e with frame := frame, cnt := e.cnt + 1, seen := tick } else e)

theorem mem_survived {cs : List Candidate} {pos : Nat} {k : Candidate} (h : cs.find? (fun k => k.pos == pos) = some k) (frame tick : Nat) :
    { k with frame := frame, cnt := k.cnt + 1, seen := tick } ∈ survived cs pos frame tick := by
  have hpos : k.pos = pos := by simpa using List.find?_some h
  exact List.mem_map.mpr ⟨k, List.mem_of_find?_eq_some h, if_pos hpos⟩

/-- The channel has entered SYNC: no candidate is left, LOF is clear and LOSS_RUN starts at 0. -/
def syncEntered (d : Dev) (x : Line) (c : Nat) : Dev :=
  setFld (setRegBit (setChState (setCands d x c []) x c chSync) (DSF_CH_DEFECT x.ix) (8 + c) false) (DSF_CHc_STATUS_LOSS_RUN x.ix c) 0

/-- The candidate at pos is closed. -/
def candidateClosed (d : Dev) (x : Line) (c pos : Nat) : Dev :=
  huntState (setCands d x c ((chanHw d x c).cands.filter (fun e => e.pos != pos))) x c

theorem syncEntered_spec (d : Dev) (x : Line) {c : Nat} (hc : c < 8) :
    chState (syncEntered d x c) x c = chSync ∧ (chanHw (syncEntered d x c) x c).cands = [] ∧ chLof (syncEntered d x c) x c = false := by
  refine ⟨?_, ?_, ?_⟩
  · rw [syncEntered, chState_congr c (rd_setFld_other _ _ (by simp only; omega)),
      chState_congr c (rd_setRegBit_other _ _ _ (by simp only; omega))]
    exact chState_setChState_same _ x hc (by decide)
  · rw [syncEntered, chanHw_setFld, chanHw_setRegBit, chanHw_setChState, chanHw_setCands]
  · rw [syncEntered, chLof, regBit_congr _ _ (rd_setFld_other _ _ (by simp only; omega))]
    exact regBit_setRegBit_same _ _ _ (by omega)

theorem cands_candidateClosed (d : Dev) (x : Line) (c pos : Nat) :
    (chanHw (candidateClosed d x c pos) x c).cands = (chanHw d x c).cands.filter (fun e => e.pos != pos) := by
  rw [candidateClosed, chanHw_huntState, chanHw_setCands]

section
variable {x : Line} {c : Fin 8} {pos : Nat} {fsb : List Byte} {d : Dev} {k : Candidate} (hh : hunts d x c = true)
  (hk : (chanHw d x c).cands.find? (fun k => k.pos == pos) = some k) (skew : Int)
include hh hk

/-- A candidate that survives counts the frame, or puts the channel into SYNC. -/
theorem candidateCheck_of_survivor (hfaw : fawErrors fsb ≤ fld d (DSF_CFG_FAW_TOL x.ix)) (hgood : fsbGood fsb = true)
    (hmatch : fsbMatches d x c fsb = true) (hnext : fsbFrame fsb = nextFrame k.frame) :
    candidateCheck x c pos fsb skew d = if fld d (DSF_CFG_CONF_N x.ix) ≤ k.cnt + 1
      then lineDefects (takeFrame (syncEntered (passOn x c (bytesBits fsb) d) x c) x c (fsbFrame fsb) true true false false skew fsb) x
      else setCands (passOn x c (bytesBits fsb) d) x c (survived (chanHw d x c).cands pos (fsbFrame fsb) d.elapsed) := by
  simp only [candidateCheck, chanHw_passOn, hk, hunts_passOn, hh, fld_passOn, fsbMatches_passOn, passOn_elapsed, hgood, hmatch,
    decide_eq_true hfaw, hnext, beq_self_eq_true, Bool.and_self, Bool.not_true, Bool.false_eq_true, if_false, if_true]
  rfl

/-- A candidate whose FSB is not good is closed, and such a boundary opens no other. -/
theorem candidateCheck_of_bad (hbad : fsbGood fsb = false) :
    candidateCheck x c pos fsb skew d = settleRound (candidateClosed (passOn x c (bytesBits fsb) d) x c pos) x := by
  simp only [candidateCheck, chanHw_passOn, hk, hunts_passOn, hh, hbad, Bool.and_false, Bool.false_and, Bool.not_true,
    Bool.false_eq_true, if_false, openCandidate_of_mismatch pos (.inr (.inl hbad)), candidateClosed]

end

/-- Settles O33: the boundary meets R110 or does not, and the candidate survives, confirms SYNC or is closed. -/
theorem huntConfirmSync : Obligations.HuntConfirmSync := by
  rintro x c pos fsb skew s _ hh rfl
  refine ⟨fun hfaw hgood hmatch hpos => ?_, fun hno => ?_, fun k hk => ⟨fun hfaw hgood hmatch hnext => ?_, fun hbad => ?_⟩⟩
  · rw [exec_candidateOpen, candidateOpen_of_hunts pos fsb hh,
      openCandidate_of_match hfaw hgood (by simpa using hmatch) (by simpa using hpos), chanHw_passOn, passOn_elapsed]
    refine ⟨fun hfew => ⟨_, by rw [if_neg (Nat.not_le.mpr hfew)], ?_, ?_⟩, fun hmany => by rw [if_pos hmany]⟩
    · exact chState_huntState_pending c.isLt (by simp [chanHw_setCands])
    · rw [chanHw_huntState, chanHw_setCands]
  · rw [exec_candidateOpen, candidateOpen_of_hunts pos fsb hh, openCandidate_of_mismatch pos (by simpa using hno)]
  · rw [exec_candidateCheck, candidateCheck_of_survivor hh hk skew hfaw hgood hmatch hnext]
    refine ⟨fun hfew => ⟨_, by rw [if_neg (Nat.not_le.mpr hfew)], ?_, ?_⟩, fun hmany => ?_⟩
    · exact chState_congr _ ((rd_setCands_other _ _ _ _ (by simp only; omega)).trans (rd_passOn _ _ _ _ _))
    · rw [chanHw_setCands]
      exact mem_survived hk _ _
    · obtain ⟨hst, hnone, hlof⟩ := syncEntered_spec (passOn x c (bytesBits fsb) s.dev) x c.isLt
      exact ⟨_, hst, hnone, hlof, by rw [if_pos hmany]⟩
  · refine ⟨_, by rw [exec_candidateCheck, candidateCheck_of_bad hh hk skew hbad], fun e he => ?_⟩
    rw [cands_candidateClosed] at he
    simpa using (List.mem_filter.mp he).2

end Sys2Proof.Machine
end

section
/-!
PROOFS. A channel in SYNC: its frames, its codewords and its loss of signal (R109, R113, R119).
-/

namespace Sys2Proof.Machine

/-! ### The frame of a channel in SYNC (R113) -/

theorem exec_dsfFrame (x : Line) (c : Fin 8) (fsb : List Byte) (bins : Nat) (skew : Int) (s : State) :
    exec (.dsfFrame x c fsb bins skew) s = .next (s.withDev (dsfFrame x c fsb bins skew s.dev)) := rfl

/-- LOSS_RUN after a frame, before its limit: one more where the alignment word has too many errors or the FSB is of another channel
or group. -/
def lossRun (d : Dev) (x : Line) (c : Nat) (fsb : List Byte) : Nat :=
  if fld d (DSF_CFG_FAW_TOL x.ix) < fawErrors fsb ∨ (fsbGood fsb = true ∧ fsbMatches d x c fsb = false)
  then fld d (DSF_CHc_STATUS_LOSS_RUN x.ix c) + 1 else 0

/-- The errors of the frame are in the channel's accumulators of the second. -/
def frameErrors (d : Dev) (x : Line) (c : Nat) (fsb : List Byte) : Dev :=
  setChan d x c (fun h => { h with fawErr := h.fawErr + boolBit (fawErrors fsb != 0), fsbCrc := h.fsbCrc + boolBit (!fsbGood fsb) })

/-- A good FSB of another channel or group is counted besides. -/
def mismatchCounted (d : Dev) (x : Line) (c : Nat) (fsb : List Byte) : Dev :=
  if fsbGood fsb = true ∧ fsbMatches d x c fsb = false then count (frameErrors d x c fsb) (DSF_CH_MISMATCH x.ix) else frameErrors d x c fsb

theorem fld_mismatchCounted (d : Dev) (x : Line) (c : Nat) (fsb : List Byte) :
    fld (mismatchCounted d x c fsb) (DSF_CHc_STATUS_LOSS_RUN x.ix c) = fld d (DSF_CHc_STATUS_LOSS_RUN x.ix c) := by
  unfold mismatchCounted frameErrors
  split
  · rw [fld_congr _ (rd_count_other _ (by simp only; omega)), fld_setChan]
  · rw [fld_setChan]

/-- LOSS_RUN follows. -/
def frameCounted (d : Dev) (x : Line) (c : Nat) (fsb : List Byte) : Dev :=
  setFld (mismatchCounted d x c fsb) (DSF_CHc_STATUS_LOSS_RUN x.ix c) (min (lossRun d x c fsb) 15)

/-- A channel whose LOSS_RUN has reached LOSS_M leaves SYNC. -/
def lossJudged (d : Dev) (x : Line) (c run : Nat) : Dev :=
  if fld d (DSF_CFG_LOSS_M x.ix) ≤ run ∧ chState d x c = chSync then leaveSync d x c chHunt true else d

theorem lossRun_passOn (x : Line) (c : Fin 8) (bits : List Bool) (d : Dev) (fsb : List Byte) :
    lossRun (passOn x c bits d) x c fsb = lossRun d x c fsb := by
  rw [lossRun, fld_passOn, fld_passOn, fsbMatches_passOn, ← lossRun]

/-- Bits that go out again leave a channel in SYNC. -/
theorem inSync_passOn {x : Line} {c : Fin 8} {d : Dev} (bits : List Bool) (hon : dsfOn d x = true) (hs : chState d x c = chSync) :
    (dsfOn (passOn x c bits d) x && chState (passOn x c bits d) x c == chSync) = true := by
  rw [dsfOn_passOn, chState_passOn, hon, hs]
  rfl

/-- A frame of a channel other than D0 that follows on the one before is counted, used and judged. -/
theorem dsfFrame_of_following {x : Line} {c : Fin 8} {fsb : List Byte} {d : Dev} (bins : Nat) (skew : Int) (hon : dsfOn d x = true)
    (hs : chState d x c = chSync) (hc : c.val ≠ 0)
    (hnext : (fsbGood fsb && fsbMatches d x c fsb) = true → fsbFrame fsb = nextFrame (chanHw d x c).frame) :
    dsfFrame x c fsb bins skew d = lineDefects (lossJudged (takeFrame (frameCounted (passOn x c (bytesBits fsb) d) x c fsb) x c
      (nextFrame (chanHw d x c).frame) (fsbGood fsb) (fsbGood fsb && fsbMatches d x c fsb) false false skew fsb) x c
        (lossRun d x c fsb)) x := by
  have hn : (if (fsbGood fsb && fsbMatches d x c fsb) = true then fsbFrame fsb else nextFrame (chanHw d x c).frame)
      = nextFrame (chanHw d x c).frame := by
    split
    · exact hnext ‹_›
    · rfl
  rw [dsfFrame]
  simp only [if_pos (inSync_passOn (bytesBits fsb) hon hs), fsbMatches_passOn, chanHw_passOn, hn, bne_self_eq_false,
    beq_false_of_ne hc, Bool.false_and, Bool.false_eq_true, if_false]
  have hrun := fld_mismatchCounted (passOn x c (bytesBits fsb) d) x c fsb
  simp only [mismatchCounted, frameErrors, fsbMatches_passOn, fld_passOn] at hrun
  simp only [Bool.or_eq_true, Bool.and_eq_true, Bool.not_eq_true', decide_eq_true_eq, fsbMatches_passOn, fld_passOn, hrun,
    lossJudged, frameCounted, mismatchCounted, frameErrors, lossRun]

@[simp] theorem chanHw_mismatchCounted (d : Dev) (x : Line) (c : Nat) (fsb : List Byte) :
    chanHw (mismatchCounted d x c fsb) x c = chanHw (frameErrors d x c fsb) x c := by
  unfold mismatchCounted
  split
  · rw [chanHw_count]
  · rfl

/-- The accumulators take the frame's errors. -/
theorem chanHw_frameCounted (d : Dev) (x : Line) (c : Nat) (fsb : List Byte) :
    (chanHw (frameCounted d x c fsb) x c).fawErr = (chanHw d x c).fawErr + (if fawErrors fsb = 0 then 0 else 1)
      ∧ (chanHw (frameCounted d x c fsb) x c).fsbCrc = (chanHw d x c).fsbCrc + (if fsbGood fsb = true then 0 else 1) := by
  rw [frameCounted, chanHw_setFld, chanHw_mismatchCounted, frameErrors, chanHw_setChan_same]
  refine ⟨?_, ?_⟩
  · by_cases h : fawErrors fsb = 0 <;> simp [h, boolBit]
  · cases fsbGood fsb <;> simp [boolBit]

theorem fld_frameCounted (d : Dev) (x : Line) (c : Nat) (fsb : List Byte) :
    fld (frameCounted d x c fsb) (DSF_CHc_STATUS_LOSS_RUN x.ix c) = min (lossRun d x c fsb) 15 := by
  rw [frameCounted, fld_setFld_same _ _ (by simp) (by simp)]
  exact Nat.mod_eq_of_lt (by simp only; omega)

theorem rdn_frameCounted {d : Dev} {x : Line} {c : Nat} {fsb : List Byte} (hgood : fsbGood fsb = true)
    (hno : fsbMatches d x c fsb = false) :
    rdn (frameCounted d x c fsb) (DSF_CH_MISMATCH x.ix) = min (rdn d (DSF_CH_MISMATCH x.ix) + 1) 0xFFFFFFFF := by
  rw [frameCounted, rdn, rd_setFld_other _ _ (by simp only; omega), ← rdn, mismatchCounted, if_pos ⟨hgood, hno⟩, rdn_count_same, rdn,
    frameErrors, rd_setChan, ← rdn]

/-! ### Codewords (R107 to R109) -/

theorem exec_codewordDecode (x : Line) (c : Fin 8) (k : Nat) (syms : List Nat) (s : State) :
    exec (.codewordDecode x c k syms) s = .next (s.withDev (codewordDecode x c k syms s.dev)) := rfl

/-- A codeword is in the channel's accumulators: the symbols that the code corrects, or one that it does not correct. -/
def codewordCounted (d : Dev) (x : Line) (c : Nat) (corrected : Option Nat) : Dev :=
  setChan d x c (fun h => { h with
    fecCorr := h.fecCorr + corrected.getD 0
    fecUncorr := h.fecUncorr + (if corrected.isNone = true then 1 else 0) })

theorem chanHw_codewordCounted (d : Dev) (x : Line) (c : Nat) (corrected : Option Nat) :
    chanHw (codewordCounted d x c corrected) x c = { chanHw d x c with
      fecCorr := (chanHw d x c).fecCorr + corrected.getD 0
      fecUncorr := (chanHw d x c).fecUncorr + (if corrected.isNone = true then 1 else 0) } :=
  chanHw_setChan_same d x c _

@[simp] theorem chanHw_keepWord (d : Dev) (x : Line) (w : Codeword) (c : Nat) : chanHw (keepWord d x w) x c = chanHw d x c := by
  rw [chanHw, keepWord, setDsf_same, ← chanHw]

theorem mem_keepWord (d : Dev) (x : Line) (w : Codeword) : w ∈ ((keepWord d x w).dsf.get x).words := by
  rw [keepWord, setDsf_same]
  exact List.mem_append_right _ List.mem_cons_self

/-- A codeword of a channel in SYNC counts, and waits for the payload stream where the framer has one. -/
theorem codewordDecode_of_sync {x : Line} {c : Fin 8} {d : Dev} (k : Nat) (syms : List Nat) (hon : dsfOn d x = true)
    (hs : chState d x c = chSync) : codewordDecode x c k syms d
      = if dsfMode d x = 2
        then codewordCounted (passOn x c ((syms.map (msbBits 10)).flatten) d) x c (correctedIn c (chanHw d x c).frame k syms)
        else keepWord (codewordCounted (passOn x c ((syms.map (msbBits 10)).flatten) d) x c
          (correctedIn c (chanHw d x c).frame k syms)) x (decodedWord c (chanHw d x c).frame k syms) := by
  rw [codewordDecode]
  simp only [if_pos (inSync_passOn ((syms.map (msbBits 10)).flatten) hon hs), chanHw_passOn, dsfMode, fld_setChan,
    fld_passOn, codewordCounted]
  cases correctedIn c (chanHw d x c).frame k syms with
  | none => simp
  | some errs => simp

theorem codewordDecode_counts {x : Line} {c : Fin 8} {d : Dev} (k : Nat) (syms : List Nat) (hon : dsfOn d x = true)
    (hs : chState d x c = chSync) : (codewordDecode x c k syms d).regs = d.regs
      ∧ chanHw (codewordDecode x c k syms d) x c = { chanHw d x c with
          fecCorr := (chanHw d x c).fecCorr + (correctedIn c (chanHw d x c).frame k syms).getD 0
          fecUncorr := (chanHw d x c).fecUncorr + (if (correctedIn c (chanHw d x c).frame k syms).isNone = true then 1 else 0) }
      ∧ (dsfMode d x ≠ 2 → decodedWord c (chanHw d x c).frame k syms ∈ ((codewordDecode x c k syms d).dsf.get x).words) := by
  rw [codewordDecode_of_sync k syms hon hs]
  split
  · exact ⟨passOn_regs _ _ _ _, by rw [chanHw_codewordCounted, chanHw_passOn], fun h => absurd ‹_› h⟩
  · exact ⟨passOn_regs _ _ _ _, by rw [chanHw_keepWord, chanHw_codewordCounted, chanHw_passOn], fun _ => mem_keepWord _ _ _⟩

/-! ### Loss of signal (R119) -/

theorem exec_losDeclare (x : Line) (c : Fin 8) (s : State) : exec (.losDeclare x c) s = .next (s.withDev (losDeclare x c s.dev)) := rfl

theorem exec_losClear (x : Line) (c : Fin 8) (s : State) : exec (.losClear x c) s = .next (s.withDev (losClear x c s.dev)) := rfl

/-- The channel is in the state given, with LOF and no candidate. -/
def syncLeft (d : Dev) (x : Line) (c st : Nat) : Dev :=
  setFld (setRegBit (setChState (setCands d x c []) x c st) (DSF_CH_DEFECT x.ix) (8 + c) true) (DSF_CHc_STATUS_LOSS_RUN x.ix c) 0

theorem leaveSync_eq (d : Dev) (x : Line) (c st : Nat) (loss : Bool) :
    leaveSync d x c st loss = if chState d x c = chSync then unbond (syncLeft d x c st) x loss else syncLeft d x c st := rfl

/-- The end of bonding that may follow leaves the states and defects of the channels. -/
theorem rd_leaveSync (d : Dev) (x : Line) (c st : Nat) (loss : Bool) {q : Reg} (h : q = DSF_CH_STATE x.ix ∨ q = DSF_CH_DEFECT x.ix) :
    rd (leaveSync d x c st loss) q = rd (syncLeft d x c st) q := by
  have hlow := ix_le_one x
  rw [leaveSync_eq]
  split
  · rcases h with rfl | rfl
    · exact rd_unbond_other _ x loss (by simp only; omega) (by simp only; omega) (by simp only; omega) (by simp only; omega)
    · exact rd_unbond_other _ x loss (by simp only; omega) (by simp only; omega) (by simp only; omega) (by simp only; omega)
  · rfl

theorem chState_leaveSync (d : Dev) (x : Line) {c st : Nat} (loss : Bool) (hc : c < 8) (hst : st < 4) :
    chState (leaveSync d x c st loss) x c = st := by
  rw [chState_congr c (rd_leaveSync d x c st loss (.inl rfl)), syncLeft, chState_congr c (rd_setFld_other _ _ (by simp only; omega)),
    chState_congr c (rd_setRegBit_other _ _ _ (by simp only; omega))]
  exact chState_setChState_same _ x hc hst

/-- LOF is set and LOS stays as it was. -/
theorem defects_leaveSync (d : Dev) (x : Line) {c : Nat} (st : Nat) (loss : Bool) (hc : c < 8) :
    chLof (leaveSync d x c st loss) x c = true ∧ chLos (leaveSync d x c st loss) x c = chLos d x c := by
  have hrd := (rd_leaveSync d x c st loss (.inr rfl)).trans (rd_setFld_other _ _ (by simp only; omega))
  refine ⟨?_, ?_⟩
  · rw [chLof, regBit_congr _ _ hrd]
    exact regBit_setRegBit_same _ _ _ (by omega)
  · rw [chLos, regBit_congr _ _ hrd, regBit_setRegBit_other _ _ _ (by omega)]
    exact regBit_congr _ _ ((rd_setChState_other _ _ _ _ (by simp only; omega)).trans (rd_setCands_other _ _ _ _ (by simp only; omega)))

/-- LOS is set, and a channel in use hunts. -/
def losDeclared (d : Dev) (x : Line) (c : Nat) : Dev :=
  if chState d x c = chOff then setRegBit d (DSF_CH_DEFECT x.ix) c true
  else leaveSync (setRegBit d (DSF_CH_DEFECT x.ix) c true) x c chHunt true

theorem losDeclare_of_down {x : Line} {c : Fin 8} {d : Dev} (hon : dsfOn d x = true) (ht : laneChangedAt d x c + 250 ≤ d.elapsed)
    (hup : laneUp d x c = false) (hlos : chLos d x c = false) : losDeclare x c d = lineDefects (losDeclared d x c) x := by
  have hst : chState (setRegBit d (DSF_CH_DEFECT x.ix) c true) x c = chState d x c :=
    chState_congr _ (rd_setRegBit_other _ _ _ (by simp only; omega))
  rw [losDeclare, if_pos (by rw [hon, hup, hlos, losTicks, decide_eq_true ht]; rfl)]
  simp only [hst, losDeclared]

theorem losClear_of_up {x : Line} {c : Fin 8} {d : Dev} (hon : dsfOn d x = true) (ht : laneChangedAt d x c + 6250 ≤ d.elapsed)
    (hup : laneUp d x c = true) (hr : targetRetired d (46 + x.ix) = false) :
    losClear x c d = lineDefects (setRegBit d (DSF_CH_DEFECT x.ix) c false) x := by
  rw [losClear, if_pos (by rw [hon, hup, hr, losClearTicks, decide_eq_true ht]; rfl)]

theorem losDeclared_spec (d : Dev) (x : Line) {c : Nat} (hc : c < 8) : chLos (losDeclared d x c) x c = true
    ∧ (chState d x c ≠ chOff → chState (losDeclared d x c) x c = chHunt ∧ chLof (losDeclared d x c) x c = true) := by
  have hset : chLos (setRegBit d (DSF_CH_DEFECT x.ix) c true) x c = true := regBit_setRegBit_same _ _ _ (by omega)
  by_cases h : chState d x c = chOff
  · rw [losDeclared, if_pos h]
    exact ⟨hset, fun hn => absurd h hn⟩
  · rw [losDeclared, if_neg h]
    obtain ⟨hlof, hlos⟩ := defects_leaveSync (setRegBit d (DSF_CH_DEFECT x.ix) c true) x chHunt true hc
    exact ⟨hlos.trans hset, fun _ => ⟨chState_leaveSync _ x true hc (by decide), hlof⟩⟩

end Sys2Proof.Machine
end

section
/-!
PROOFS. The second of a framer and the filter of switching requests (R123, R124).
-/

namespace Sys2Proof.Machine

/-! ### The second (R124) -/

theorem exec_dsfSecondLatch (x : Line) (s : State) : exec (.dsfSecondLatch x) s = .next (s.withDev (dsfSecondLatch x s.dev)) := rfl

theorem dsfSecondLatch_of_none {d : Dev} {x : Line} (h : secMark d (secDsf x) = none) : dsfSecondLatch x d = d := by
  simp only [dsfSecondLatch, h]

theorem dsfSecondLatch_of_some {d : Dev} {x : Line} {sec : Nat} {stepped : Bool} (hon : dsfOn d x = true)
    (h : secMark d (secDsf x) = some (sec, stepped)) : dsfSecondLatch x d = latchSecond (clearMark d (secDsf x)) x sec stepped := by
  simp only [dsfSecondLatch, h, hon, if_true]

/-- The accumulators of a channel are in its words of the second. -/
def countsCopied (x : Line) (d : Dev) (c : Nat) : Dev :=
  wrn (wrn (wrn (wrn (wrn d (DSF_CHc_SEC_FAW_ERR x.ix c) (chanHw d x c).fawErr) (DSF_CHc_SEC_FSB_CRC x.ix c) (chanHw d x c).fsbCrc)
    (DSF_CHc_SEC_FEC_CORR x.ix c) (chanHw d x c).fecCorr) (DSF_CHc_SEC_FEC_UNCORR x.ix c) (chanHw d x c).fecUncorr)
    (DSF_CHc_SEC_GRANT_CRC x.ix c) (chanHw d x c).grantCrc

/-- A channel's accumulators are copied and restart. -/
def countsLatched (x : Line) (d : Dev) (c : Nat) : Dev :=
  setChan (countsCopied x d c) x c (fun h => { h with fawErr := 0, fsbCrc := 0, fecCorr := 0, fecUncorr := 0, grantCrc := 0 })

/-- The line's own count is copied and restarts, and the second that ended shows. -/
def secondShown (d : Dev) (x : Line) (sec : Nat) (stepped : Bool) : Dev :=
  let d := wrn d (DSF_SEC_LU_HDR_ERR x.ix) (d.luHdrErr.get x)
  let d := { d with luHdrErr := d.luHdrErr.set x 0 }
  let d := setFld (wrn d (DSF_SEC_TIME_LO x.ix) sec) (DSF_SEC_TIME_HI_VALUE x.ix) (sec / 0x100000000)
  setFld (setFlag d (DSF_SEC_INFO_STEPPED x.ix) stepped) (DSF_SEC_INFO_MODE x.ix) (dsfMode d x)

/-- SD is evaluated outside TIME_ONLY. -/
def sdJudged (d : Dev) (x : Line) : Dev :=
  if dsfMode d x = 2 then d
  else setDefect d x (DSF_STATUS_SD x.ix)
    (decide (fld d (DSF_SD_CFG_SD_THR x.ix) < sumOf (fun c => rdn d (DSF_CHc_SEC_FEC_UNCORR x.ix c)) (chanSet d x))) dsSd

/-- The counts of every channel are latched. -/
def allLatched (d : Dev) (x : Line) : Dev := forEach (List.range 8) (countsLatched x) d

theorem latchSecond_eq (d : Dev) (x : Line) (sec : Nat) (stepped : Bool) : latchSecond d x sec stepped
    = lineDefects (raiseDsf (sdJudged (secondShown (allLatched d x) x sec stepped) x) x dsSecond) x := rfl

/-- The words of channel c show the accumulators of d, and those of e have restarted. -/
def countsShown (d e : Dev) (x : Line) (c : Nat) : Prop :=
  rdn e (DSF_CHc_SEC_FEC_CORR x.ix c) = (chanHw d x c).fecCorr % 0x100000000
    ∧ rdn e (DSF_CHc_SEC_GRANT_CRC x.ix c) = (chanHw d x c).grantCrc % 0x100000000
    ∧ (chanHw e x c).fecCorr = 0 ∧ (chanHw e x c).grantCrc = 0

theorem countsShown_of_latched {d e : Dev} {x : Line} {c : Nat} (h : chanHw e x c = chanHw d x c) :
    countsShown d (countsLatched x e c) x c := by
  rw [countsShown, countsLatched, chanHw_setChan_same, rdn_setChan, rdn_setChan, countsCopied, ← h]
  refine ⟨?_, rdn_wrn_same _ _ _, rfl, rfl⟩
  rw [rdn_wrn_other _ _ (by simp only; omega), rdn_wrn_other _ _ (by simp only; omega)]
  exact rdn_wrn_same _ _ _

/-- The latch of a channel leaves the accumulators of every other. -/
theorem chanHw_countsLatched_other (d : Dev) (x : Line) {c k : Nat} (h : k ≠ c) : chanHw (countsLatched x d c) x k = chanHw d x k :=
  chanHw_setChan_other _ x _ h

theorem rd_countsLatched_other (d : Dev) (x : Line) (c : Nat) {q : Reg}
    (h : q.ofs ≤ (DSF_CHc_STATUS x.ix c).ofs ∨ (DSF_CHc_STATUS x.ix (c + 1)).ofs ≤ q.ofs) : rd (countsLatched x d c) q = rd d q := by
  simp only at h
  rw [countsLatched, rd_setChan, countsCopied, rd_wrn_other _ _ (by simp only; omega), rd_wrn_other _ _ (by simp only; omega),
    rd_wrn_other _ _ (by simp only; omega), rd_wrn_other _ _ (by simp only; omega), rd_wrn_other _ _ (by simp only; omega)]

/-- What a channel shows stays where its words and its accumulators do. -/
theorem countsShown.of_rd {d e g : Dev} {x : Line} {c : Nat} (h : countsShown d e x c) (hch : chanHw g x c = chanHw e x c)
    (hcorr : rd g (DSF_CHc_SEC_FEC_CORR x.ix c) = rd e (DSF_CHc_SEC_FEC_CORR x.ix c))
    (hcrc : rd g (DSF_CHc_SEC_GRANT_CRC x.ix c) = rd e (DSF_CHc_SEC_GRANT_CRC x.ix c)) : countsShown d g x c := by
  obtain ⟨hc, hg, hzero⟩ := h
  rw [countsShown, hch]
  exact ⟨(congrArg BitVec.toNat hcorr).trans hc, (congrArg BitVec.toNat hcrc).trans hg, hzero⟩

theorem countsShown_allLatched (d : Dev) (x : Line) {c : Nat} (hc : c < 8) : countsShown d (allLatched d x) x c :=
  forEach_once (P := fun e => chanHw e x c = chanHw d x c) (Q := fun e => countsShown d e x c)
    (fun e _ ha he => (chanHw_countsLatched_other e x (Ne.symm ha)).trans he) (fun _ he => countsShown_of_latched he)
    (fun e k hk he => he.of_rd (chanHw_countsLatched_other e x (Ne.symm hk)) (rd_countsLatched_other e x k (by simp only; omega))
      (rd_countsLatched_other e x k (by simp only; omega)))
    List.nodup_range (List.mem_range.mpr hc) rfl

theorem secMark_congr {d e : Dev} (h : e.secDue = d.secDue) (k : Nat) : secMark e k = secMark d k := by
  unfold secMark
  rw [h]

theorem allLatched_secDue (d : Dev) (x : Line) : (allLatched d x).secDue = d.secDue :=
  forEach_keeps (P := fun e => e.secDue = d.secDue) (f := countsLatched x) (fun _ _ he => he) _ rfl

theorem secondShown_secDue (d : Dev) (x : Line) (sec : Nat) (stepped : Bool) : (secondShown d x sec stepped).secDue = d.secDue := rfl

theorem chanHw_secondShown (d : Dev) (x : Line) (sec : Nat) (stepped : Bool) (c : Nat) :
    chanHw (secondShown d x sec stepped) x c = chanHw d x c := rfl

/-- The line's words of the second lie below those of its channels. -/
theorem rd_secondShown_other (d : Dev) (x : Line) (sec : Nat) (stepped : Bool) {q : Reg} (h : (DSF_CHc_STATUS x.ix 0).ofs ≤ q.ofs) :
    rd (secondShown d x sec stepped) q = rd d q := by
  simp only at h
  rw [secondShown, rd_setFld_other _ _ (by simp only; omega), rd_setFlag_other _ _ (by simp only; omega),
    rd_setFld_other _ _ (by simp only; omega), rd_wrn_other _ _ (by simp only; omega)]
  exact rd_wrn_other d _ (by simp only; omega)

theorem secondShown_shows (d : Dev) (x : Line) (sec : Nat) (stepped : Bool) :
    rdn (secondShown d x sec stepped) (DSF_SEC_TIME_LO x.ix) = sec % 0x100000000
      ∧ flag (secondShown d x sec stepped) (DSF_SEC_INFO_STEPPED x.ix) = stepped := by
  refine ⟨?_, ?_⟩
  · rw [secondShown, rdn, rd_setFld_other _ _ (by simp only; omega), rd_setFlag_other _ _ (by simp only; omega),
      rd_setFld_other _ _ (by simp only; omega), ← rdn]
    exact rdn_wrn_same _ _ _
  · rw [secondShown, flag_setFld_apart _ _ (by simp [apart]), flag_setFlag_same _ _ (by simp) (by simp)]

theorem setDefect_cases (d : Dev) (x : Line) (f : Fld) (now : Bool) (b : Nat) :
    setDefect d x f now b = raiseDsf (setFlag d f now) x b ∨ setDefect d x f now b = setFlag d f now := ite_eq_or_eq _ _ _

/-- SD is evaluated in the line's status and event words alone. -/
theorem sdJudged_touches (d : Dev) (x : Line) : (sdJudged d x).dsf = d.dsf ∧ (sdJudged d x).secDue = d.secDue
    ∧ ∀ q : Reg, q.ofs ≠ (DSF_STATUS x.ix).ofs → q.ofs ≠ (DSF_EVT x.ix).ofs → q.ofs < 0xf00000 → rd (sdJudged d x) q = rd d q := by
  unfold sdJudged
  split
  · exact ⟨rfl, rfl, fun _ _ _ _ => rfl⟩
  generalize decide (fld d (DSF_SD_CFG_SD_THR x.ix) < sumOf (fun c => rdn d (DSF_CHc_SEC_FEC_UNCORR x.ix c)) (chanSet d x)) = now
  rcases setDefect_cases d x (DSF_STATUS_SD x.ix) now dsSd with h | h
  · rw [h]
    exact ⟨raiseDsf_dsf _ _ _, raiseDsf_secDue _ _ _,
      fun q hs he hlow => (rd_raiseDsf_other _ _ _ he hlow).trans (rd_setFlag_other _ _ hs)⟩
  · rw [h]
    exact ⟨rfl, rfl, fun q hs _ _ => rd_setFlag_other _ _ hs⟩

/-- The block at the boundary, before SECOND is raised. -/
def boundaryTaken (d : Dev) (x : Line) (sec : Nat) (stepped : Bool) : Dev :=
  sdJudged (secondShown (allLatched (clearMark d (secDsf x)) x) x sec stepped) x

theorem secMark_boundaryTaken (d : Dev) (x : Line) (sec : Nat) (stepped : Bool) :
    secMark (boundaryTaken d x sec stepped) (secDsf x) = none := by
  obtain ⟨-, hdue, -⟩ := sdJudged_touches (secondShown (allLatched (clearMark d (secDsf x)) x) x sec stepped) x
  rw [boundaryTaken, secMark_congr hdue, secMark_congr (secondShown_secDue _ _ _ _), secMark_congr (allLatched_secDue _ _),
    secMark_clearMark]

theorem boundaryTaken_shows (d : Dev) (x : Line) (sec : Nat) (stepped : Bool) :
    rdn (boundaryTaken d x sec stepped) (DSF_SEC_TIME_LO x.ix) = sec % 0x100000000
      ∧ flag (boundaryTaken d x sec stepped) (DSF_SEC_INFO_STEPPED x.ix) = stepped := by
  have hlow := ix_le_one x
  obtain ⟨-, -, hrd⟩ := sdJudged_touches (secondShown (allLatched (clearMark d (secDsf x)) x) x sec stepped) x
  obtain ⟨htime, hstep⟩ := secondShown_shows (allLatched (clearMark d (secDsf x)) x) x sec stepped
  rw [boundaryTaken, rdn, hrd _ (by simp only; omega) (by simp only; omega) (by simp only; omega), ← rdn, htime,
    flag_congr _ (hrd _ (by simp only; omega) (by simp only; omega) (by simp only; omega)), hstep]
  exact ⟨rfl, rfl⟩

theorem countsShown_boundaryTaken (d : Dev) (x : Line) (sec : Nat) (stepped : Bool) {c : Nat} (hc : c < 8) :
    countsShown d (boundaryTaken d x sec stepped) x c := by
  have hlow := ix_le_one x
  obtain ⟨hdsf, -, hrd⟩ := sdJudged_touches (secondShown (allLatched (clearMark d (secDsf x)) x) x sec stepped) x
  have hall : countsShown d (allLatched (clearMark d (secDsf x)) x) x c := countsShown_allLatched (clearMark d (secDsf x)) x hc
  refine hall.of_rd ((chanHw_congr hdsf x c).trans (chanHw_secondShown _ _ _ _ _)) ?_ ?_
  · rw [boundaryTaken, hrd _ (by simp only; omega) (by simp only; omega) (by simp only; omega),
      rd_secondShown_other _ _ _ _ (by simp only; omega)]
  · rw [boundaryTaken, hrd _ (by simp only; omega) (by simp only; omega) (by simp only; omega),
      rd_secondShown_other _ _ _ _ (by simp only; omega)]

/-! ### The switching-request filter (R123) -/

/-- The accepted value. -/
def accSr (d : Dev) (x : Line) : Nat := fld d (DSF_SR_ACC_SR1 x.ix) * 256 + fld d (DSF_SR_ACC_SR2 x.ix)

/-- The run of the value, used once more. -/
def srRunNow (d : Dev) (x : Line) (v : Nat) : Nat :=
  if (d.dsf.get x).srRun ≠ 0 ∧ (d.dsf.get x).srValue = v then (d.dsf.get x).srRun + 1 else 1

/-- The used value and its run are noted. -/
def srNoted (d : Dev) (x : Line) (v : Nat) : Dev :=
  setFld (setFld (setDsf d x (fun h => { h with srRun := min (srRunNow d x v) 7, srValue := v })) (DSF_SR_RAW_SR1 x.ix) (v / 256))
    (DSF_SR_RAW_SR2 x.ix) v

/-- The accepted value shows. -/
def srShown (d : Dev) (x : Line) (v : Nat) : Dev := setFld (setFld d (DSF_SR_ACC_SR1 x.ix) (v / 256)) (DSF_SR_ACC_SR2 x.ix) v

/-- SR_CHANGE is raised, and a value that is no request code is counted on a line that takes part. -/
def srReported (d : Dev) (x : Line) (v : Nat) : Dev :=
  if 5 ≤ v / 4096 ∧ takesPart (raiseDsf d x dsSrChange) x then raiseSdl (count (raiseDsf d x dsSrChange) SDL_SR_BAD) sdSrBad
  else raiseDsf d x dsSrChange

theorem filterSr_eq (d : Dev) (x : Line) (v : Nat) : filterSr d x v
    = if fld (srNoted d x v) (DSF_FILT_CFG_SR_PERSIST x.ix) ≤ srRunNow d x v then
        if accSr (srNoted d x v) x = v then srNoted d x v else srReported (srShown (srNoted d x v) x v) x v
      else srNoted d x v := rfl

theorem fld_srNoted_persist (d : Dev) (x : Line) (v : Nat) :
    fld (srNoted d x v) (DSF_FILT_CFG_SR_PERSIST x.ix) = fld d (DSF_FILT_CFG_SR_PERSIST x.ix) := by
  rw [srNoted, fld_setFld_reg _ _ (by simp only; omega), fld_setFld_reg _ _ (by simp only; omega), fld_setDsf]

/-- A value of two bytes reads as it was shown. -/
theorem accSr_srShown (d : Dev) (x : Line) {v : Nat} (hv : v < 65536) : accSr (srShown d x v) x = v := by
  rw [accSr, srShown, fld_setFld_apart _ _ (by simp [apart]), fld_setFld_same _ _ (by simp) (by simp),
    fld_setFld_same _ _ (by simp) (by simp)]
  simp only
  omega

theorem rd_srReported (d : Dev) (x : Line) (v : Nat) : rd (srReported d x v) (DSF_SR x.ix) = rd d (DSF_SR x.ix) := by
  have hlow := ix_le_one x
  have hraise : rd (raiseDsf d x dsSrChange) (DSF_SR x.ix) = rd d (DSF_SR x.ix) :=
    rd_raiseDsf_other d x dsSrChange (by simp only; omega) (by simp only; omega)
  unfold srReported
  split
  · rw [raiseSdl, rd_raiseEvt_other _ _ _ (by simp only [evSDL]; omega) (by simp only; omega) (by simp only; omega),
      rd_count_other _ (by simp only; omega), hraise]
  · exact hraise

theorem accSr_srReported (d : Dev) (x : Line) (v : Nat) : accSr (srReported d x v) x = accSr d x := by
  rw [accSr, fld_congr (DSF_SR_ACC_SR1 x.ix) (rd_srReported d x v), fld_congr (DSF_SR_ACC_SR2 x.ix) (rd_srReported d x v), ← accSr]

theorem accSr_filterSr {d : Dev} {x : Line} {v : Nat} (hv : v < 65536) (hrun : fld d (DSF_FILT_CFG_SR_PERSIST x.ix) ≤ srRunNow d x v) :
    accSr (filterSr d x v) x = v := by
  rw [filterSr_eq, fld_srNoted_persist, if_pos hrun]
  split
  · assumption
  · rw [accSr_srReported, accSr_srShown _ _ hv]

/-! ### The statement -/

/-- Settles O34: each command is carried out by its equation in SYNC, on a lane or at a boundary, and the filter takes the value. -/
theorem framesInSync : Obligations.FramesInSync := by
  refine ⟨fun x c fsb bins skew s hon hs hc hnext => ?_, fun x c k n syms s hon hs hn => ?_, fun x c s hon ht hup hlos => ?_,
    fun x c s hon ht hup hr => ?_, fun x s h => ?_, fun x s sec stepped hon h => ?_, fun d x v hv hrun => accSr_filterSr hv hrun⟩
  · obtain ⟨hfaw, hcrc⟩ := chanHw_frameCounted (passOn x c (bytesBits fsb) s.dev) x c fsb
    rw [chanHw_passOn] at hfaw hcrc
    refine ⟨frameCounted (passOn x c (bytesBits fsb) s.dev) x c fsb, lossRun s.dev x c fsb, rfl, hfaw, hcrc, ?_, fun hgood hno => ?_, ?_⟩
    · rw [fld_frameCounted, lossRun_passOn]
    · rw [rdn_frameCounted hgood (by rw [fsbMatches_passOn, hno]), rdn, rd_passOn, ← rdn]
    · rintro _ rfl
      rw [exec_dsfFrame, dsfFrame_of_following bins skew hon hs hc hnext, lossJudged]
  · subst hn
    obtain ⟨hregs, hch, hword⟩ := codewordDecode_counts k syms hon hs
    exact ⟨_, exec_codewordDecode x c k syms s, hregs, by rw [hch], by rw [hch], hword⟩
  · obtain ⟨hset, hleft⟩ := losDeclared_spec s.dev x c.isLt
    exact ⟨losDeclared s.dev x c, hset, hleft, by rw [exec_losDeclare, losDeclare_of_down hon ht hup hlos]⟩
  · exact ⟨setRegBit s.dev (DSF_CH_DEFECT x.ix) c false, regBit_setRegBit_same _ _ _ (by omega),
      by rw [exec_losClear, losClear_of_up hon ht hup hr]⟩
  · rw [exec_dsfSecondLatch, dsfSecondLatch_of_none h, withDev_self]
  · obtain ⟨htime, hstep⟩ := boundaryTaken_shows s.dev x sec stepped
    exact ⟨boundaryTaken s.dev x sec stepped, secMark_boundaryTaken _ _ _ _, htime, hstep,
      fun c => countsShown_boundaryTaken _ _ _ _ c.isLt,
      by rw [exec_dsfSecondLatch, dsfSecondLatch_of_some hon h, latchSecond_eq, boundaryTaken]⟩

end Sys2Proof.Machine
end

section
/-!
PROOFS. What a new terminal state, an idle domain and a change of locks leave of the lines and of their bursts (R48, R132, R403).
-/

namespace Sys2Proof.Machine

/-! ### What a change elsewhere leaves of the lines and of their bursts -/

/-- The words that say how the lines stand, and the grants of both lines, are in e as in d. -/
def keepsUplink (d e : Dev) : Prop := (∀ q : Reg, isLineWord q.ofs = true → rd e q = rd d q) ∧ e.upHw = d.upHw

theorem keepsUplink.refl (d : Dev) : keepsUplink d d := ⟨fun _ _ => rfl, rfl⟩

theorem keepsUplink.trans {d e g : Dev} (h : keepsUplink d e) (h' : keepsUplink e g) : keepsUplink d g := by
  obtain ⟨hr, hu⟩ := h
  obtain ⟨hr', hu'⟩ := h'
  exact ⟨fun q hq => (hr' q hq).trans (hr q hq), hu'.trans hu⟩

theorem keepsUplink.of_roles {d e : Dev} (h : keepsRoles d e) (hu : e.upHw = d.upHw) : keepsUplink d e := by
  obtain ⟨_, _, hr⟩ := h
  exact ⟨fun q hq => hr q (isRoleWord_of_line hq), hu⟩

/-- A register that says nothing of how the lines stand is written. -/
theorem keepsUplink.wr {d e : Dev} (h : keepsUplink d e) {r : Reg} (hr : isLineWord r.ofs = false) (w : Word) :
    keepsUplink d (wr e r w) := by
  refine h.trans ⟨fun q hq => rd_wr_other e w fun he => ?_, rfl⟩
  rw [he, hr] at hq
  exact Bool.noConfusion hq

/-- An update that leaves the register words and the grants alone. -/
theorem keepsUplink.of_regs {d e g : Dev} (h : keepsUplink d e) (hr : g.regs = e.regs) (hu : g.upHw = e.upHw) : keepsUplink d g :=
  h.trans ⟨fun q _ => by rw [rd, hr, ← rd], hu⟩

theorem keepsUplink.setFld {d e : Dev} (h : keepsUplink d e) {f : Fld} (hr : isLineWord f.reg.ofs = false) (v : Nat) :
    keepsUplink d (setFld e f v) := h.wr hr _

theorem keepsUplink.setFlag {d e : Dev} (h : keepsUplink d e) {f : Fld} (hr : isLineWord f.reg.ofs = false) (b : Bool) :
    keepsUplink d (setFlag e f b) := h.wr hr _

theorem keepsUplink.raiseEvt {d e : Dev} (h : keepsUplink d e) {u : EvtUnit} (hu : isRoleWord u.evt.ofs = false) (b : Nat) :
    keepsUplink d (raiseEvt e u b) := by
  obtain ⟨r, p, o, eq⟩ := raiseEvt_spec e u b
  exact h.trans (.of_roles ((keepsRoles.refl e).raiseEvt hu b) (by rw [eq]))

theorem keepsUplink.status {d e : Dev} (h : keepsUplink d e) (x : Line) : rd e (RNG_Lx_STATUS x.ix) = rd d (RNG_Lx_STATUS x.ix) := by
  obtain ⟨hr, _⟩ := h
  exact hr _ (isLineWord_state x)

theorem keepsUplink.bursts {d e : Dev} (h : keepsUplink d e) : e.upHw = d.upHw := by
  obtain ⟨_, hu⟩ := h
  exact hu

theorem keepsUplink.termState {d e : Dev} (h : keepsUplink d e) (x : Line) : termState e x = termState d x := fld_congr _ (h.status x)

/-! ### Keystone's domains (R48, R53, R57) -/

theorem isLineWord_window {o : Nat} (h : isLineWord o = true) : 0x130000 ≤ o ∧ o < 0xf00000 := by
  simp only [isLineWord, Bool.or_eq_true, beq_iff_eq] at h
  omega

theorem keepsUplink.raiseKst {d e : Dev} (h : keepsUplink d e) (b : Nat) : keepsUplink d (raiseKst e b) := by
  obtain ⟨r, p, o, w, eq⟩ := raiseKst_touches e b
  refine h.trans ⟨fun q hq => ?_, by rw [eq]⟩
  obtain ⟨hlo, hhi⟩ := isLineWord_window hq
  exact rd_raiseKst_other e b (ne_of_isRoleWord (isRoleWord_of_line hq) rfl) hlo hhi

theorem keepsUplink.setServo {d e : Dev} (h : keepsUplink d e) (c i : Int) : keepsUplink d (setServo e c i) := by
  obtain ⟨c', i', n, eq⟩ := setServo_cases e c i
  have hset : keepsUplink d (wrn { e with kst := { e.kst with c := c', i := i' } } KST_INTEG n) :=
    (h.of_regs (g := { e with kst := { e.kst with c := c', i := i' } }) rfl rfl).wr rfl _
  rcases eq with eq | eq
  · rw [eq]
    exact hset
  · rw [eq]
    exact hset.raiseKst _

theorem keepsUplink.holdUtc {d e : Dev} (h : keepsUplink d e) : keepsUplink d (holdUtc e) := by
  unfold Machine.holdUtc
  split
  · exact h.of_regs rfl rfl
  · exact h

theorem keepsUplink.holdBegun {d e : Dev} (h : keepsUplink d e) : keepsUplink d (dropTimer (holdBegun e) .prop) := h.of_regs rfl rfl

theorem keepsUplink.enterHoldover {d e : Dev} (h : keepsUplink d e) : keepsUplink d (enterHoldover e) := by
  obtain ⟨c, i, eq⟩ := enterHoldover_eq e
  rw [eq]
  exact (((h.holdUtc.setServo c i).holdBegun.wr (r := KST_HOLD_SEC) rfl _).setFld (f := KST_STATUS_SERVO_STATE) rfl _).raiseKst _

theorem keepsUplink.loadSlewer {d e : Dev} (h : keepsUplink d e) (b : Int) : keepsUplink d (loadSlewer e b) :=
  (h.of_regs (g := { e with kst := { e.kst with b := b } }) rfl rfl).setFlag (f := KST_STATUS_SLEWING) rfl _

theorem keepsUplink.seamlessSwitch {d e : Dev} (h : keepsUplink d e) (x : Line) (xPred : Int) :
    keepsUplink d (seamlessSwitch e x xPred) :=
  (((h.loadSlewer _).setFld (f := KST_STATUS_SEL_DOM) rfl _).setFlag (f := KST_STATUS_SWITCHING) rfl _).raiseKst _

theorem keepsUplink.domainLeftGood {d e : Dev} (h : keepsUplink d e) (x : Line) (p : Int) : keepsUplink d (domainLeftGood e x p) := by
  have hset : keepsUplink d (setDomain e x (fun m => { m with candidate := false, blocked := false })) :=
    h.of_regs rfl rfl
  unfold Machine.domainLeftGood
  simp only
  split
  · split
    · exact hset.seamlessSwitch _ _
    · exact hset.enterHoldover
  · exact hset

theorem isLineWord_domain (x : Line) : isLineWord (KST_DOM_x_STATUS x.ix).ofs = false := by cases x <;> rfl

theorem keepsUplink.changeDomain {d e : Dev} (h : keepsUplink d e) (x : Line) (st : Nat) (p : Int) :
    keepsUplink d (changeDomain e x st p) := by
  have hset := h.setFld (f := KST_DOM_x_STATUS_STATE x.ix) (isLineWord_domain x) st
  unfold Machine.changeDomain
  simp only
  split
  · exact hset.domainLeftGood x p
  · exact hset

/-- The counts, the waiting offset and the timer of a domain are cleared. -/
def domainCleared (d : Dev) (x : Line) : Dev :=
  dropTimer (setDomain (setFld (setFld d (KST_DOM_x_STATUS_QUAL_CNT x.ix) 0) (KST_DOM_x_STATUS_REFUSE_RUN x.ix) 0) x
    (fun m => { m with waiting := none })) (.domain x)

theorem domainIdle_eq (d : Dev) (x : Line) : domainIdle d x = if domState (domainCleared d x) x == domIdle then domainCleared d x
    else changeDomain (domainCleared d x) x domIdle (phaseNow (domainCleared d x)) := rfl

/-- A domain that goes idle leaves the lines and their bursts. -/
theorem keepsUplink.domainIdle {d e : Dev} (h : keepsUplink d e) (x : Line) : keepsUplink d (domainIdle e x) := by
  have hcleared : keepsUplink d (domainCleared e x) := ((h.setFld (f := KST_DOM_x_STATUS_QUAL_CNT x.ix) (isLineWord_domain x) 0).setFld
    (f := KST_DOM_x_STATUS_REFUSE_RUN x.ix) (isLineWord_domain x) 0).of_regs rfl rfl
  rw [domainIdle_eq]
  split
  · exact hcleared
  · exact hcleared.changeDomain x _ _

/-! ### The owner lock (R403) -/

theorem keepsUplink.endStore {d e : Dev} (h : keepsUplink d e) : keepsUplink d (endStore e) := by
  unfold Machine.endStore
  split
  · next r _ =>
    simp only
    split
    · refine (keepsUplink.setFlag (f := FWU_STATUS_STORING) h rfl _).setFld ?_ _
      simp only [isLineWord, Bool.or_eq_false_iff, beq_eq_false_iff_ne]
      omega
    · exact h
  · exact h

theorem keepsUplink.setHeLock {d e : Dev} (h : keepsUplink d e) (x : Line) (b : Bool) : keepsUplink d (setHeLock e x b) := by
  have hset := h.wr (r := FWU_STATUS) rfl (putBits (rd e FWU_STATUS) (8 + x.ix) (8 + x.ix) (boolBit b))
  have hraised := hset.raiseEvt (u := evFWU) rfl fwLock
  unfold Machine.setHeLock lockChanged
  simp only
  split
  · exact h
  split
  · exact hraised.endStore
  · exact hraised

/-! ### A new terminal state (R132) -/

theorem syncLane_touches (d : Dev) (x : Line) (t : Nat) : ∃ r l, syncLane d x t = { d with regs := r, lineHw := l } := by
  unfold syncLane raiseBen
  simp only
  repeat' split
  all_goals exact ⟨_, _, rfl⟩

theorem syncLaser_touches (d : Dev) (x : Line) : ∃ r l, syncLaser d x = { d with regs := r, lineHw := l } := by
  refine forEach_keeps (P := fun e => ∃ r l, e = { d with regs := r, lineHw := l }) (fun e t he => ?_) _ ⟨_, d.lineHw, rfl⟩
  obtain ⟨r, l, rfl⟩ := he
  obtain ⟨r', l', eq⟩ := syncLane_touches { d with regs := r, lineHw := l } x t
  exact ⟨r', l', eq⟩

theorem queueLmm_touches (d : Dev) (x : Line) (type : Nat) (payload : List Byte) :
    ∃ r g, queueLmm d x type payload = { d with regs := r, rngHw := g } := by
  unfold queueLmm pushLmm
  split
  · exact ⟨_, _, rfl⟩
  · exact ⟨d.regs, _, rfl⟩

/-- The new state shows, its event is raised and the interlock follows. -/
def stateSettled (d : Dev) (x : Line) (st : Nat) : Dev := syncLaser (raiseRng (stateShown d x st) x rgStateChange) x

theorem stateSettled_touches (d : Dev) (x : Line) (st : Nat) :
    ∃ r p o l, stateSettled d x st = { d with regs := r, msixPending := p, out := o, lineHw := l } := by
  obtain ⟨r, p, o, e⟩ := raiseEvt_spec (stateShown d x st) (evRNG x.ix) rgStateChange
  obtain ⟨r', l, e'⟩ := syncLaser_touches (raiseRng (stateShown d x st) x rgStateChange) x
  refine ⟨r', p, o, l, ?_⟩
  rw [stateSettled, e', raiseRng, e]
  rfl

/-- The framer of a line that has left Standby is wanted for service. -/
def standbyLeft (was : Nat) (d : Dev) (x : Line) : Dev := if was = stStandby then sliceService d (44 + x.ix) else d

theorem standbyLeft_touches (was : Nat) (d : Dev) (x : Line) :
    ∃ r n b, standbyLeft was d x = { d with regs := r, freeCount := n, bst := b } := by
  unfold standbyLeft
  split
  · exact sliceService_touches d _
  · exact ⟨d.regs, d.freeCount, d.bst, rfl⟩

/-- A STATE_REPORT is queued unless a message caused the transition. -/
def stateReported (was st cause : Nat) (d : Dev) (x : Line) : Dev :=
  if cause ≠ reportMessage ∧ isReported st then queueLmm d x 0x84 [BitVec.ofNat 8 st, BitVec.ofNat 8 was, BitVec.ofNat 8 cause] else d

theorem stateReported_touches (was st cause : Nat) (d : Dev) (x : Line) :
    ∃ r g, stateReported was st cause d x = { d with regs := r, rngHw := g } := by
  unfold stateReported
  split
  · exact queueLmm_touches d x _ _
  · exact ⟨d.regs, d.rngHw, rfl⟩

theorem moveState_eq {d : Dev} {x : Line} {st : Nat} (cause : Nat) (h : termState d x ≠ st) : moveState d x st cause
    = stateReported (termState d x) st cause (standbyLeft (termState d x) (stateSettled d x st) x) x := if_neg h

/-- A new terminal state touches registers, messages, the lanes, a slice and RNG, and nothing else. -/
theorem moveState_touches (d : Dev) (x : Line) (st cause : Nat) : ∃ r p o l n b g, moveState d x st cause
    = { d with regs := r, msixPending := p, out := o, lineHw := l, freeCount := n, bst := b, rngHw := g } := by
  by_cases h : termState d x = st
  · rw [moveState_of_same cause h]
    exact ⟨_, _, _, _, _, _, _, rfl⟩
  · obtain ⟨r, p, o, l, e⟩ := stateSettled_touches d x st
    obtain ⟨r', n, b, e'⟩ := standbyLeft_touches (termState d x) (stateSettled d x st) x
    obtain ⟨r'', g, e''⟩ := stateReported_touches (termState d x) st cause (standbyLeft (termState d x) (stateSettled d x st) x) x
    exact ⟨r'', p, o, l, n, b, g, by rw [moveState_eq cause h, e'', e', e]⟩

theorem moveState_upHw (d : Dev) (x : Line) (st cause : Nat) : (moveState d x st cause).upHw = d.upHw := by
  obtain ⟨r, p, o, l, n, b, g, e⟩ := moveState_touches d x st cause
  rw [e]

theorem timerRuns_moveState (d : Dev) (x : Line) (st cause : Nat) (t : TimerId) : timerRuns (moveState d x st cause) t = timerRuns d t := by
  obtain ⟨r, p, o, l, n, b, g, e⟩ := moveState_touches d x st cause
  rw [e]
  rfl

/-- The fields of the line's status word above the two states stay. -/
theorem fld_moveState_upper (d : Dev) (x : Line) (st cause : Nat) {f : Fld} (hf : f.reg = RNG_Lx_STATUS x.ix) (hlo : 7 ≤ f.lo)
    (hl : f.lo ≤ f.hi) : fld (moveState d x st cause) f = fld d f := by
  by_cases h : termState d x = st
  · rw [moveState_of_same cause h]
  · obtain ⟨_, _, hr⟩ := moveState_keeps cause h
    rw [fld_congr f (hr _ (by rw [hf]; exact isRoleWord_of_line (isLineWord_state x))), stateShown,
      fld_setFld_apart _ _ ⟨hf, .inr (by simp only; omega), hl, by simp⟩,
      fld_setFld_apart _ _ ⟨hf, .inr (by simp only; omega), hl, by simp⟩]

theorem flag_moveState_upper (d : Dev) (x : Line) (st cause : Nat) {f : Fld} (hf : f.reg = RNG_Lx_STATUS x.ix) (hlo : 7 ≤ f.lo)
    (hl : f.lo ≤ f.hi) : flag (moveState d x st cause) f = flag d f := by
  rw [flag, fld_moveState_upper d x st cause hf hlo hl, flag]

end Sys2Proof.Machine
end

section
/-!
PROOFS. How a line enters Listen, Stopped and Announce, and what causes it (R133, R134, R138).
-/

namespace Sys2Proof.Machine

/-! ### Entering Listen (R134) -/

/-- The delays of a line's channels are cleared. -/
def delaysCleared (d : Dev) (x : Line) : Dev := forEach (List.range 4) (fun d u => wrn d (RNG_Lx_EQDu x.ix u) 0) d

theorem rd_delaysCleared_status (d : Dev) (x : Line) :
    rd (delaysCleared d x) (RNG_Lx_STATUS x.ix) = rd d (RNG_Lx_STATUS x.ix) :=
  forEach_keeps (P := fun e => rd e (RNG_Lx_STATUS x.ix) = rd d (RNG_Lx_STATUS x.ix))
    (fun e u he => (rd_wrn_other e 0 (by simp only; omega)).trans he) _ rfl

theorem clearId_eq (d : Dev) (x : Line) : clearId d x = setFlag (delaysCleared (setFld (setFld d (RNG_Lx_STATUS_TERMINAL_ID x.ix) 0xFFF)
    (RNG_Lx_STATUS_RANGED x.ix) 0) x) (RNG_Lx_STATUS_SLEEP x.ix) false := rfl

/-- No terminal ID and no ranged channel is left. -/
theorem clearId_cleared (d : Dev) (x : Line) : terminalId (clearId d x) x = 0xFFF
    ∧ fld (clearId d x) (RNG_Lx_STATUS_RANGED x.ix) = 0 := by
  rw [terminalId, clearId_eq]
  constructor
  · rw [fld_setFlag_apart _ _ (by simp [apart]), fld_congr _ (rd_delaysCleared_status _ x), fld_setFld_apart _ _ (by simp [apart]),
      fld_setFld_same _ _ (by simp) (by simp)]
    simp
  · rw [fld_setFlag_apart _ _ (by simp [apart]), fld_congr _ (rd_delaysCleared_status _ x), fld_setFld_same _ _ (by simp) (by simp)]
    rfl

/-- The registration of a line is gone, and what is staged for it waits for the evaluation of the tick. -/
def unregistered (d : Dev) (x : Line) : Dev :=
  { leaves (clearId (dropRegistration d x) x) x with anchored := d.anchored.set x false }

theorem fld_leaves (d : Dev) (x : Line) (p : PerLine Bool) (f : Fld) : fld { leaves d x with anchored := p } f = fld d f := rfl

/-- The line is in Listen, its domain idle and its HE lock clear. -/
def listening (d : Dev) (x : Line) (cause : Nat) : Dev :=
  setHeLock (domainIdle (moveState (unregistered d x) x stListen cause) x) x false

/-- L-A's return from Announce or Ranging ends the home preference. -/
def homeGivenUp (was : Nat) (d : Dev) (x : Line) : Dev := if x = .a ∧ (was = stAnnounce ∨ was = stRanging) then endHome d else d

theorem enterListen_eq {d : Dev} {x : Line} (cause : Nat) (h : termState d x ≠ stListen) :
    enterListen d x cause = loseRole (homeGivenUp (termState d x) (listening d x cause) x) x := if_neg h

theorem listening_spec (d : Dev) (x : Line) (cause : Nat) : termState (listening d x cause) x = stListen
    ∧ terminalId (listening d x cause) x = 0xFFF ∧ fld (listening d x cause) (RNG_Lx_STATUS_RANGED x.ix) = 0 := by
  obtain ⟨hid, hranged⟩ := clearId_cleared (dropRegistration d x) x
  obtain ⟨_, _, hst, _⟩ := moveState_spec (unregistered d x) x (st := stListen) cause (by decide)
  have hkeep : keepsUplink (moveState (unregistered d x) x stListen cause) (listening d x cause) :=
    ((keepsUplink.refl _).domainIdle x).setHeLock x false
  have hword := hkeep.status x
  refine ⟨(hkeep.termState x).trans hst, ?_, ?_⟩
  · rw [terminalId, fld_congr _ hword, fld_moveState_upper _ _ _ _ rfl (by simp) (by simp), unregistered, fld_leaves]
    exact hid
  · rw [fld_congr _ hword, fld_moveState_upper _ _ _ _ rfl (by simp) (by simp), unregistered, fld_leaves, hranged]

/-- The end of the home preference concerns L-B: L-A's status word stays. -/
theorem rd_endHome_statusA (d : Dev) : rd (endHome d) (RNG_Lx_STATUS Line.a.ix) = rd d (RNG_Lx_STATUS Line.a.ix) := by
  obtain ⟨_, _, hclear⟩ := (keepsRoles.refl d).clearHome
  obtain ⟨_, _, htake⟩ := takeRole_keeps (moveState (clearHome d) .b stOperate reportProtection) .b
  obtain ⟨_, _, _, _, hmove⟩ := moveState_spec (clearHome d) .b (st := stOperate) reportProtection (by decide)
  unfold endHome
  simp only
  split
  · split
    · rw [htake _ rfl, roleShown, rd_setFld_other _ _ (by decide), rd_setFlag_other _ _ (by decide), hmove .a (by decide), hclear _ rfl]
    · exact hclear _ rfl
  · rfl

theorem rd_homeGivenUp_status (was : Nat) (d : Dev) (x : Line) :
    rd (homeGivenUp was d x) (RNG_Lx_STATUS x.ix) = rd d (RNG_Lx_STATUS x.ix) := by
  unfold homeGivenUp
  split
  · next h =>
    obtain ⟨rfl, _⟩ := h
    exact rd_endHome_statusA d
  · rfl

theorem enterListen_spec {d : Dev} {x : Line} (cause : Nat) (h : termState d x ≠ stListen) :
    ∃ d' : Dev, enterListen d x cause = loseRole d' x
      ∧ termState d' x = stListen ∧ terminalId d' x = 0xFFF ∧ fld d' (RNG_Lx_STATUS_RANGED x.ix) = 0 := by
  obtain ⟨hst, hid, hranged⟩ := listening_spec d x cause
  have hword := rd_homeGivenUp_status (termState d x) (listening d x cause) x
  exact ⟨_, enterListen_eq cause h, (fld_congr _ hword).trans hst, (fld_congr _ hword).trans hid, (fld_congr _ hword).trans hranged⟩

/-! ### Entering Stopped (R138) -/

theorem keepsRoles.dropAllBen {d e : Dev} (h : keepsRoles d e) (x : Line) : keepsRoles d (dropAllBen e x) :=
  h.forEach (fun _ t _ hg => hg.setBen x t false)

theorem isRoleWord_laneCtl (x : Line) : isRoleWord (LLx_CTL x.ix).ofs = false := by cases x <;> rfl

theorem keepsRoles.endTestMode {d e : Dev} (h : keepsRoles d e) (x : Line) : keepsRoles d (endTestMode e x) := by
  have hlane : ∀ r ∈ List.range 4, isRoleWord (LLx_RXr_STATUS x.ix r).ofs = false ∧ isRoleWord (LLx_TXt_GEN x.ix r).ofs = false := by
    cases x <;> decide
  unfold Machine.endTestMode
  split
  · exact h
  · refine keepsRoles.dropAllBen (keepsRoles.forEach (h.setFld (f := LLx_CTL_TEST_MODE x.ix) (isRoleWord_laneCtl x) 0) ?_) x
    exact fun g r hr hg => (hg.setFlag (f := LLx_RXr_STATUS_BURST_CDR x.ix r) (hlane r hr).1 false).setFlag
      (f := LLx_TXt_GEN_EN x.ix r) (hlane r hr).2 false

theorem keepsRoles.endBursts {d e : Dev} (h : keepsRoles d e) (x : Line) : keepsRoles d (endBursts e x) :=
  ((h.setRng x _).setHw x _).dropAllBen x

theorem keepsRoles.stopBursts {d e : Dev} (h : keepsRoles d e) (x : Line) : keepsRoles d (stopBursts e x) := by
  unfold Machine.stopBursts leaves
  refine keepsRoles.setUp (keepsRoles.endBursts (keepsRoles.syncInFlight (keepsRoles.syncNrw ?_ _) x) x) x _
  exact (h.setGrants x _).forEach (fun _ g _ hg => hg.toCarry (carryKey x g.entry) g.staged)

/-- The bursts of a line that stops have ended, and none begins any more. -/
theorem stopBursts_grants (d : Dev) (x : Line) : (∀ g ∈ ((stopBursts d x).upHw.get x).grants, g.risen = false)
    ∧ ((stopBursts d x).upHw.get x).leaving = true := by
  have hcarry : ∀ (gs : List Grant) (e : Dev), (forEach gs (fun d g => toCarry d (carryKey x g.entry) g.staged) e).upHw = e.upHw :=
    fun gs e => forEach_keeps (P := fun c => c.upHw = e.upHw) (fun c g hc => (toCarry_upHw _ _ _).trans hc) gs rfl
  have hend : ∀ e : Dev, (endBursts e x).upHw = e.upHw := fun _ => rfl
  unfold stopBursts leaves
  simp only
  rw [setUp_same, hend, syncInFlight, setFld_upHw, syncNrw_upHw, hcarry, setGrants, setUp_same]
  refine ⟨fun g hg => ?_, rfl⟩
  simpa using (List.mem_filter.mp hg).2

/-- The stop latch is set; a test mode, sleep and the registration of the line are over. -/
def latched (d : Dev) (x : Line) : Dev :=
  dropRegistration (setFlag (endTestMode (setFlag d (RNG_Lx_STATUS_STOP_LATCH x.ix) true) x) (RNG_Lx_STATUS_SLEEP x.ix) false) x

/-- The line is in Stopped. -/
def stopShown (d : Dev) (x : Line) : Dev :=
  raiseRng (domainIdle (moveState (stopBursts (latched d x) x) x stStopped reportMessage) x) x rgStopped

theorem enterStopped_eq {d : Dev} {x : Line} (h : termState d x ≠ stStopped) : enterStopped d x = loseRole (stopShown d x) x := by
  have hst : termState (setFlag d (RNG_Lx_STATUS_STOP_LATCH x.ix) true) x = termState d x := fld_setFlag_apart d _ (by simp [apart])
  unfold enterStopped
  simp only
  rw [if_neg (by rw [hst]; exact h)]
  rfl

theorem flag_dropRegistration (d : Dev) (x : Line) (f : Fld) : flag (dropRegistration d x) f = flag d f := rfl

theorem flag_stopBursts_latched (d : Dev) (x : Line) : flag (stopBursts (latched d x) x) (RNG_Lx_STATUS_STOP_LATCH x.ix) = true := by
  have hs : isRoleWord (RNG_Lx_STATUS x.ix).ofs = true := isRoleWord_of_line (isLineWord_state x)
  obtain ⟨_, _, htest⟩ := (keepsRoles.refl (setFlag d (RNG_Lx_STATUS_STOP_LATCH x.ix) true)).endTestMode x
  obtain ⟨_, _, hstop⟩ := (keepsRoles.refl (latched d x)).stopBursts x
  rw [flag_congr _ (hstop _ hs), latched, flag_dropRegistration, flag_setFlag_apart _ _ (by simp [apart]), flag_congr _ (htest _ hs),
    flag_setFlag_same _ _ (by simp) (by simp)]

theorem stopShown_spec (d : Dev) (x : Line) : termState (stopShown d x) x = stStopped
    ∧ flag (stopShown d x) (RNG_Lx_STATUS_STOP_LATCH x.ix) = true
    ∧ (∀ g ∈ ((stopShown d x).upHw.get x).grants, g.risen = false) ∧ ((stopShown d x).upHw.get x).leaving = true := by
  obtain ⟨hgrants, hleaving⟩ := stopBursts_grants (latched d x) x
  obtain ⟨_, _, hst, _⟩ := moveState_spec (stopBursts (latched d x) x) x (st := stStopped) reportMessage (by decide)
  have hkeep : keepsUplink (moveState (stopBursts (latched d x) x) x stStopped reportMessage) (stopShown d x) :=
    ((keepsUplink.refl _).domainIdle x).raiseEvt (isRoleWord_rngEvt x) _
  have hup : (stopShown d x).upHw = (stopBursts (latched d x) x).upHw := hkeep.bursts.trans (moveState_upHw _ _ _ _)
  refine ⟨(hkeep.termState x).trans hst, ?_, ?_, ?_⟩
  · rw [flag_congr _ (hkeep.status x), flag_moveState_upper _ _ _ _ rfl (by simp) (by simp), flag_stopBursts_latched]
  · rw [hup]
    exact hgrants
  · rw [hup]
    exact hleaving

/-! ### Conditions and timers (R134) -/

theorem exec_announceStart (x : Line) (s : State) : exec (.announceStart x) s = .next (s.withDev (announceStart x s.dev)) := rfl

theorem exec_annToExpire (x : Line) (s : State) : exec (.annToExpire x) s = .next (s.withDev (annToExpire x s.dev)) := rfl

theorem exec_rngToExpire (x : Line) (s : State) : exec (.rngToExpire x) s = .next (s.withDev (rngToExpire x s.dev)) := rfl

theorem exec_holdToExpire (x : Line) (s : State) : exec (.holdToExpire x) s = .next (s.withDev (holdToExpire x s.dev)) := rfl

/-- A ready line announces itself, with ANN_TO running. -/
theorem announceStart_of_ready {d : Dev} {x : Line} (hst : termState d x = stListen) (hr : lineReady d x = true) :
    termState (announceStart x d) x = stAnnounce ∧ timerRuns (announceStart x d) (.annTo x) = true := by
  rw [announceStart, if_pos (by simp [hst, hr])]
  obtain ⟨_, _, hann, _⟩ := moveState_spec (startTimer d (.annTo x) (fld d (RNG_Lx_TIMERS_ANN_TO x.ix) * ticksPerSec)) x
    (st := stAnnounce) reportDefect (by decide)
  exact ⟨hann, (timerRuns_moveState _ _ _ _ _).trans (timerRuns_startTimer _ _ _)⟩

theorem annToExpire_of_over {d : Dev} {x : Line} (ht : timerOver d (.annTo x) = true) (hst : termState d x = stAnnounce) :
    annToExpire x d = timedOut d x := by simp [annToExpire, ht, hst]

theorem rngToExpire_of_over {d : Dev} {x : Line} (ht : timerOver d (.rngTo x) = true) (hst : termState d x = stRanging) :
    rngToExpire x d = timedOut d x := by simp [rngToExpire, ht, hst]

theorem holdToExpire_of_over {d : Dev} {x : Line} (ht : timerOver d (.holdTo x) = true) (hst : termState d x = stHold) :
    holdToExpire x d = enterListen d x reportTimer := by simp [holdToExpire, ht, hst]

/-! ### A write of RNG_Lx_CTL (R134) -/

theorem exec_regEnWrite (m : Master) (x : Line) (value : Word) (s : State) :
    exec (.regEnWrite m x value) s = .next (s.withDev (regEnWrite m x value s.dev)) := rfl

/-- RNG_Lx_CTL holds REG_EN alone. -/
def rngCtlRow : RegRow := ⟨"RNG_Lx_CTL", 0x1000, [(2, 0x400)], 0x0, false, [⟨"REG_EN", 0, 0, .rw, .all⟩]⟩

theorem unitOf_rngCtl (x : Line) : ∃ i, unitOf (RNG_Lx_CTL x.ix).ofs = some i
    ∧ rowAt (unitAt i) ((RNG_Lx_CTL x.ix).ofs - (unitAt i).base) = some rngCtlRow
    ∧ regAt (unitAt i) rngCtlRow ((RNG_Lx_CTL x.ix).ofs - (unitAt i).base) = RNG_Lx_CTL x.ix := by
  cases x <;> exact ⟨17, by decide, by decide, by decide⟩

theorem storeAt_rngCtl (d : Dev) (m : Master) (x : Line) (value : Word) : storeAt d m (RNG_Lx_CTL x.ix).ofs value
    = setFld d (RNG_Lx_CTL_REG_EN x.ix) (getBits value 0 0) := by
  obtain ⟨i, hu, hrow, hreg⟩ := unitOf_rngCtl x
  rw [storeAt_row value hu hrow, storeWord, hreg]
  rfl

theorem getBits_bit0 (w : Word) : getBits w 0 0 = boolBit (w.getLsbD 0) := by
  rcases Nat.mod_two_eq_zero_or_one w.toNat with h | h <;> simp [getBits, boolBit, BitVec.getLsbD, Nat.testBit, h]

theorem regEn_storeAt {value : Word} (d : Dev) (m : Master) (x : Line) (h : value.getLsbD 0 = false) :
    flag (storeAt d m (RNG_Lx_CTL x.ix).ofs value) (RNG_Lx_CTL_REG_EN x.ix) = false := by
  rw [storeAt_rngCtl, flag, fld_setFld_same _ _ (by simp) (by simp), getBits_bit0, h]
  rfl

theorem regEnWrite_of_off {d : Dev} {m : Master} {x : Line} {value : Word} (ha : admits d m (RNG_Lx_CTL x.ix).ofs = true)
    (h : value.getLsbD 0 = false) {e : Dev}
    (he : e = if x = .a then endHome (storeAt d m (RNG_Lx_CTL x.ix).ofs value) else storeAt d m (RNG_Lx_CTL x.ix).ofs value) :
    regEnWrite m x value d = if termState e x = stStopped then e else enterListen e x reportHost := by
  rw [regEnWrite, guarded_admits _ ha, regEnWritten, if_neg (by simp [regEn_storeAt d m x h]), he]

/-- Settles O36: a line that enters Listen or Stopped is its registration cleared or its bursts stopped, then the role; each command enters
the state that its condition names. -/
theorem lineLeavesAndReturns : Obligations.LineLeavesAndReturns := by
  refine ⟨fun d x cause h => enterListen_spec cause h, fun d x h => ⟨_, enterStopped_eq h, stopShown_spec d x⟩,
    fun x s => ⟨fun hst hr => ?_, fun ht hst => ?_, fun ht hst => ?_, fun ht hst => ?_, fun m value ha h d hd => ?_⟩⟩
  · exact ⟨_, exec_announceStart x s, announceStart_of_ready hst hr⟩
  · rw [exec_annToExpire, annToExpire_of_over ht hst, timedOut]
  · rw [exec_rngToExpire, rngToExpire_of_over ht hst, timedOut]
  · rw [exec_holdToExpire, holdToExpire_of_over ht hst]
  · rw [exec_regEnWrite, regEnWrite_of_off ha h hd]

end Sys2Proof.Machine
end

section
/-!
PROOFS. The messages of the head end for a line (R126, R128, R130, R134, R136, R138, R141, R145).
-/

namespace Sys2Proof.Machine

/-! ### How a message is taken (R126, R128) -/

section Taking

variable {d : Dev} {x : Line} {h : LmmHead} {type : Nat} {bad : Bool} {wait : Option Instr} {again : Dev → Dev} {f : Dev → Option Dev}

/-- A message that is not for the line changes nothing. -/
theorem takeLmm_not_for (hf : forLine d x h = false) : takeLmm d x h type bad wait again f = d := by simp [takeLmm, hf]

/-- A message for the line that breaks its rules is counted. -/
theorem takeLmm_bad (hf : forLine d x h = true) (hb : bad = true) :
    takeLmm d x h type bad wait again f = count d (RNG_Lx_LMM_BAD x.ix) := by simp [takeLmm, badLmm, hf, hb]

/-- A message for the line that keeps its rules, that nothing holds up and that is no repetition is executed. -/
theorem takeLmm_executed {d' : Dev} (hf : forLine d x h = true) (hr : repeated d x h = false) (hb : bad = false)
    (hfrz : type < 9 ∨ isFrozen d (mgmtMaster x) = false) (hw : wait = none ∨ coresHalted d = false) (hd : f d = some d') :
    takeLmm d x h type bad wait again f = executed d' x h := by
  have hgo : (decide (9 ≤ type) && isFrozen d (mgmtMaster x)) = false := by
    rcases hfrz with hfrz | hfrz
    · simp [Nat.not_le.mpr hfrz]
    · simp [hfrz]
  unfold takeLmm
  rw [hf, hb, hgo]
  rcases hw with rfl | hw
  · simp [hd, hr]
  · cases wait <;> simp [hw, hd, hr]

end Taking

theorem notAddressed_of_ne {h : LmmHead} (ht : h.term ≠ 0xFFF) : notAddressed h = false := beq_eq_false_iff_ne.mpr ht

/-- Recording an executed message touches what RNG holds of its line, and nothing else. -/
theorem executed_touches (d : Dev) (x : Line) (h : LmmHead) : ∃ g, executed d x h = { d with rngHw := g } := by
  unfold executed
  split
  · exact ⟨_, rfl⟩
  · exact ⟨d.rngHw, rfl⟩

theorem termState_executed (d : Dev) (x : Line) (h : LmmHead) (y : Line) : termState (executed d x h) y = termState d y := by
  obtain ⟨g, e⟩ := executed_touches d x h
  rw [e]
  rfl

/-! ### The commands -/

theorem exec_assignId (x : Line) (h : LmmHead) (sn : BitVec 64) (id : BitVec 12) (s : State) :
    exec (.assignId x h sn id) s = .next (s.withDev (assignId x h sn id s.dev)) := rfl

theorem exec_deregister (x : Line) (h : LmmHead) (s : State) : exec (.deregister x h) s = .next (s.withDev (deregister x h s.dev)) := rfl

theorem exec_emergencyStop (x : Line) (h : LmmHead) (sn : BitVec 64) (s : State) :
    exec (.emergencyStop x h sn) s = .next (s.withDev (emergencyStop x h sn s.dev)) := rfl

theorem exec_resume (x : Line) (h : LmmHead) (sn : BitVec 64) (s : State) :
    exec (.resume x h sn) s = .next (s.withDev (resume x h sn s.dev)) := rfl

theorem exec_sleepAck (x : Line) (h : LmmHead) (status : BitVec 8) (lease : BitVec 16) (s : State) :
    exec (.sleepAck x h status lease) s = .next (s.withDev (sleepAck x h status lease s.dev)) := rfl

theorem exec_release (x : Line) (h : LmmHead) (b : BitVec 8) (s : State) :
    exec (.release x h b) s = .next (s.withDev (release x h b s.dev)) := rfl

theorem exec_rangeResult (x : Line) (h : LmmHead) (u : Fin 4) (last heValid : Bool) (eqd : BitVec 24) (rtd : Word) (f : BitVec 48)
    (he : Word) (s : State) : exec (.rangeResult x h u last heValid eqd rtd f he) s
      = .next (s.withDev (rangeResult x h u last heValid eqd rtd f he s.dev)) := rfl

/-! ### ASSIGN_ID (R136) -/

/-- The line has its terminal ID: ANN_TO has stopped and RNG_TO runs. -/
def idAssigned (d : Dev) (x : Line) (h : LmmHead) (id : BitVec 12) : Dev :=
  let d := dropTimer (setFld (executed d x h) (RNG_Lx_STATUS_TERMINAL_ID x.ix) id.toNat) (.annTo x)
  startTimer d (.rngTo x) (fld d (RNG_Lx_TIMERS_RNG_TO x.ix) * ticksPerSec)

theorem terminalId_idAssigned (d : Dev) (x : Line) (h : LmmHead) (id : BitVec 12) : terminalId (idAssigned d x h id) x = id.toNat :=
  (fld_setFld_same (executed d x h) (f := RNG_Lx_STATUS_TERMINAL_ID x.ix) _ (by simp) (by simp)).trans (Nat.mod_eq_of_lt id.isLt)

theorem timerRuns_startTimer_other (d : Dev) {t u : TimerId} (n : Nat) (h : u ≠ t) : timerRuns (startTimer d t n) u = timerRuns d u := by
  simp only [timerRuns, startTimer, List.any_cons, beq_false_of_ne h.symm, Bool.false_or, List.any_filter]
  refine congrArg (d.timers.any ·) (funext fun e => ?_)
  by_cases he : e.1 = u
  · simp [he, h]
  · simp [he]

theorem timerRuns_dropTimer_same (d : Dev) (t : TimerId) : timerRuns (dropTimer d t) t = false := by
  simp [timerRuns, dropTimer]

theorem assignId_taken {d : Dev} {x : Line} {h : LmmHead} {sn : BitVec 64} {id : BitVec 12} (hf : forLine d x h = true)
    (hr : repeated d x h = false) (hc : coresHalted d = false) (hid : id ≠ 0xFFF) (hst : termState d x = stAnnounce)
    (hsn : sn.toNat = serialNumber d) : assignId x h sn id d = executed (moveState (idAssigned d x h id) x stRanging reportMessage) x h :=
  takeLmm_executed hf hr (by simpa using hid) (.inl (by decide)) (.inr hc) (if_pos ⟨hst, hsn⟩)

theorem idAssigned_ranging (d : Dev) (x : Line) (h : LmmHead) (id : BitVec 12) :
    termState (moveState (idAssigned d x h id) x stRanging reportMessage) x = stRanging
      ∧ terminalId (moveState (idAssigned d x h id) x stRanging reportMessage) x = id.toNat
      ∧ timerRuns (moveState (idAssigned d x h id) x stRanging reportMessage) (.rngTo x) = true
      ∧ timerRuns (moveState (idAssigned d x h id) x stRanging reportMessage) (.annTo x) = false := by
  obtain ⟨_, _, hst, _⟩ := moveState_spec (idAssigned d x h id) x (st := stRanging) reportMessage (by decide)
  refine ⟨hst, ?_, ?_, ?_⟩
  · rw [terminalId, fld_moveState_upper _ _ _ _ rfl (by simp) (by simp)]
    exact terminalId_idAssigned d x h id
  · rw [timerRuns_moveState]
    exact timerRuns_startTimer _ _ _
  · rw [timerRuns_moveState, idAssigned, timerRuns_startTimer_other _ _ (by simp), timerRuns_dropTimer_same]

/-! ### DEREGISTER, EMERGENCY_STOP and RESUME (R134, R138) -/

theorem deregister_leaves {d : Dev} {x : Line} {h : LmmHead} (hf : forLine d x h = true) (hr : repeated d x h = false)
    (hc : coresHalted d = false) (hl : termState d x ≠ stListen) (hs : termState d x ≠ stStopped) :
    deregister x h d = executed (enterListen (executed d x h) x reportMessage) x h :=
  takeLmm_executed hf hr rfl (.inl (by decide)) (.inr hc) (if_neg (not_or.mpr ⟨hl, hs⟩))

theorem emergencyStop_stops {d : Dev} {x : Line} {h : LmmHead} {sn : BitVec 64} (hf : forLine d x h = true) (hr : repeated d x h = false)
    (hn : namesDevice d x h sn = true) : emergencyStop x h sn d = executed (enterStopped d x) x h :=
  takeLmm_executed hf hr rfl (.inl (by decide)) (.inl rfl) (if_pos hn)

/-- The stop latch of the line that a RESUME names is clear. -/
def latchCleared (d : Dev) (x : Line) (h : LmmHead) : Dev := setFlag (executed d x h) (RNG_Lx_STATUS_STOP_LATCH x.ix) false

theorem resume_leaves {d : Dev} {x : Line} {h : LmmHead} {sn : BitVec 64} (hf : forLine d x h = true) (hr : repeated d x h = false)
    (hn : namesDevice d x h sn = true) (hs : termState d x = stStopped) :
    resume x h sn d = executed (enterListen (latchCleared d x h) x reportMessage) x h :=
  takeLmm_executed hf hr rfl (.inl (by decide)) (.inl rfl) (if_pos ⟨hs, hn⟩)

theorem latchCleared_spec (d : Dev) (x : Line) (h : LmmHead) : flag (latchCleared d x h) (RNG_Lx_STATUS_STOP_LATCH x.ix) = false
    ∧ termState (latchCleared d x h) x = termState d x := by
  refine ⟨flag_setFlag_same _ _ (by simp) (by simp), ?_⟩
  rw [termState, latchCleared, fld_setFlag_apart _ _ (by simp [apart]), ← termState, termState_executed]

/-! ### RELEASE and SLEEP_ACK (R130, R145) -/

theorem release_releases {d : Dev} {x : Line} {h : LmmHead} (hf : forLine d x h = true) (hr : repeated d x h = false)
    (hc : coresHalted d = false) (ht : h.term ≠ 0xFFF) (hm : isFrozen d (mgmtMaster x) = false) :
    release x h 0 d = executed (releaseMaster d 0) x h :=
  takeLmm_executed hf hr (by rw [notAddressed_of_ne ht]; rfl) (.inr hm) (.inr hc) rfl

/-- The lease is recorded, and the line has its acknowledgement. -/
def leaseGranted (d : Dev) (x : Line) (lease : BitVec 16) : Dev :=
  setRng (setFld d (RNG_Lx_SLEEP_LEASE x.ix) lease.toNat) x (fun r => { r with acked := some true })

theorem leaseGranted_spec (d : Dev) (x : Line) (lease : BitVec 16) : fld (leaseGranted d x lease) (RNG_Lx_SLEEP_LEASE x.ix) = lease.toNat
    ∧ ((leaseGranted d x lease).rngHw.get x).acked = some true := by
  refine ⟨?_, congrArg RngHw.acked (setRng_same _ _ _)⟩
  exact (fld_setFld_same d (f := RNG_Lx_SLEEP_LEASE x.ix) _ (by simp) (by simp)).trans (Nat.mod_eq_of_lt lease.isLt)

theorem sleepAck_granted {d : Dev} {x : Line} {h : LmmHead} {lease : BitVec 16} (hf : forLine d x h = true) (hr : repeated d x h = false)
    (hc : coresHalted d = false) (hl : lease ≠ 0) (ht : h.term ≠ 0xFFF) (ha : (d.rngHw.get x).asked = true)
    (hn : (d.rngHw.get x).acked = none) : sleepAck x h 0 lease d = executed (leaseGranted d x lease) x h := by
  refine takeLmm_executed hf hr ?_ (.inl (by decide)) (.inr hc) ?_
  · rw [notAddressed_of_ne ht, beq_eq_false_iff_ne.mpr hl]
    rfl
  · simp [ha, hn, leaseGranted]

/-! ### RANGE_RESULT (R141) -/

/-- The delay that a RANGE_RESULT without the head end's asymmetry leaves waiting. -/
def waitingDelay (h : LmmHead) (u eqd rtd f : Nat) : EqdWait :=
  { chan := u, eqd := eqd, rtd := rtd, frame := max f (h.frame.toNat + 1), ack := rangeAck u 0 eqd 0 0, again := 0 }

theorem rangeRecord_eqdWait (d : Dev) (x : Line) (h : LmmHead) (u eqd rtd f : Nat) (he : Int) :
    ((rangeRecord d x h u false eqd rtd f he).rngHw.get x).eqdWait = (d.rngHw.get x).eqdWait ++ [waitingDelay h u eqd rtd f] :=
  congrArg RngHw.eqdWait (setRng_same _ _ _)

theorem rangeResult_recorded {d : Dev} {x : Line} {h : LmmHead} (u : Fin 4) (last : Bool) (eqd : BitVec 24) (rtd he : Word) {f : BitVec 48}
    (hf : forLine d x h = true) (hr : repeated d x h = false) (ht : h.term ≠ 0xFFF) (hframe : f.toNat ≤ h.frame.toNat + 8000)
    (hst : termState d x = stRanging ∨ termState d x = stOperate ∨ termState d x = stStandby) :
    rangeResult x h u last false eqd rtd f he d
      = executed (rangeLast (rangeRecord d x h u false eqd.toNat rtd.toNat f.toNat he.toInt) x last) x h :=
  takeLmm_executed hf hr (by simpa [notAddressed_of_ne ht] using hframe) (.inl (by decide)) (.inl rfl) (if_pos hst)

/-! ### The statement -/

/-- Settles O37: a message is ignored, counted or executed, and what each executes is said by its lemma. -/
theorem messagesForALine : Obligations.MessagesForALine := by
  intro x h sn id s
  refine ⟨fun hf => ?_, fun hf => ⟨?_, fun b hb => ?_⟩, fun hf hr => ⟨fun hn => ?_, fun hn hs => ?_⟩,
    fun hf hr hc => ⟨fun hid hst hsn => ?_, fun hl hs => ?_, fun ht hm => ?_, fun lease hl ht ha hn => ?_,
      fun u last eqd rtd he f ht hframe hst => ?_⟩⟩
  · have hskip : ∀ type bad wait again f, s.withDev (takeLmm s.dev x h type bad wait again f) = s := fun _ _ _ _ _ => by
      rw [takeLmm_not_for hf, withDev_self]
    rw [exec_assignId, exec_deregister, exec_emergencyStop, exec_resume]
    refine ⟨congrArg _ (hskip ..), congrArg _ (hskip ..), congrArg _ (hskip ..), congrArg _ (hskip ..), fun status lease b => ?_⟩
    rw [exec_sleepAck, exec_release]
    exact ⟨congrArg _ (hskip ..), congrArg _ (hskip ..)⟩
  · rw [exec_assignId, assignId, takeLmm_bad hf (beq_self_eq_true _)]
  · rw [exec_release, release, takeLmm_bad hf (by simpa using .inr hb)]
  · rw [exec_emergencyStop, emergencyStop_stops hf hr hn]
  · obtain ⟨hlatch, hstate⟩ := latchCleared_spec s.dev x h
    exact ⟨_, hlatch, hstate.trans hs, by rw [exec_resume, resume_leaves hf hr hn hs]⟩
  · obtain ⟨hranging, hterm, hrng, hann⟩ := idAssigned_ranging s.dev x h id
    exact ⟨_, hranging, hterm, hrng, hann, by rw [exec_assignId, assignId_taken hf hr hc hid hst hsn]⟩
  · rw [exec_deregister, deregister_leaves hf hr hc hl hs]
  · rw [exec_release, release_releases hf hr hc ht hm]
  · obtain ⟨hlease, hacked⟩ := leaseGranted_spec s.dev x lease
    exact ⟨_, hlease, hacked, by rw [exec_sleepAck, sleepAck_granted hf hr hc hl ht ha hn]⟩
  · exact ⟨_, waitingDelay h u eqd.toNat rtd.toNat f.toNat, rangeRecord_eqdWait _ _ _ _ _ _ _ _, rfl, rfl, rfl, rfl,
      by rw [exec_rangeResult, rangeResult_recorded u last eqd rtd he hf hr ht hframe hst]⟩

end Sys2Proof.Machine
end

section
/-!
PROOFS. Delays that apply, the end of ranging, the sleep exchange and the dual-colour length (R130, R134, R141, R143, R145, R146).
-/

namespace Sys2Proof.Machine

/-! ### The commands -/

theorem exec_eqdApply (x : Line) (s : State) : exec (.eqdApply x) s = .next (s.withDev (eqdApply x s.dev)) := rfl

theorem exec_rangingComplete (x : Line) (s : State) : exec (.rangingComplete x) s = .next (s.withDev (rangingComplete x s.dev)) := rfl

theorem exec_sleepAckTimeout (x : Line) (s : State) : exec (.sleepAckTimeout x) s = .next (s.withDev (sleepAckTimeout x s.dev)) := rfl

theorem exec_leaseExpire (x : Line) (s : State) : exec (.leaseExpire x) s = .next (s.withDev (leaseExpire x s.dev)) := rfl

theorem exec_sleepResume (x : Line) (s : State) : exec (.sleepResume x) s = .next (s.withDev (sleepResume x s.dev)) := rfl

theorem exec_freezeReport (s : State) : exec .freezeReport s = .next (s.withDev (freezeReport s.dev)) := rfl

/-! ### EQD_APPLY (R141) -/

/-- The channel's delay, its round-trip time and its mark, in the registers. -/
def delayShown (d : Dev) (x : Line) (w : EqdWait) : Dev :=
  setRegBit (wrn (setFlag (setFld d (RNG_Lx_EQDu_EQD x.ix w.chan) w.eqd) (RNG_Lx_EQDu_VALID x.ix w.chan) true)
    (RNG_Lx_RTDu x.ix w.chan) w.rtd) (RNG_Lx_STATUS x.ix) (24 + w.chan) true

/-- The delay waits no more: it shows, and its acknowledgement is kept for a repetition. -/
def delayApplied (d : Dev) (x : Line) (w : EqdWait) : Dev :=
  setRng (delayShown (setRng d x (fun r => { r with eqdWait := r.eqdWait.erase w })) x w) x
    (fun r => { r with acks := sput [] r.acks w.chan w.ack })

theorem eqdApply_of_due {d : Dev} {x : Line} {w : EqdWait} (h : eqdDue d x = some w) : eqdApply x d
    = forEach (List.range (w.again + 1)) (fun d _ => queueLmm d x 0x83 w.ack) (delayApplied d x w) := by
  unfold eqdApply
  rw [h]
  rfl

/-- The registers of the line show the delay: its value, its round-trip time and its channel's mark. -/
def showsDelay (d : Dev) (x : Line) (w : EqdWait) : Prop :=
  fld d (RNG_Lx_EQDu_EQD x.ix w.chan) = w.eqd % 0x1000000 ∧ flag d (RNG_Lx_EQDu_VALID x.ix w.chan) = true
    ∧ rdn d (RNG_Lx_RTDu x.ix w.chan) = w.rtd % 0x100000000 ∧ regBit d (RNG_Lx_STATUS x.ix) (24 + w.chan) = true

theorem delayShown_shows (d : Dev) (x : Line) {w : EqdWait} (hw : w.chan < 4) : showsDelay (delayShown d x w) x w := by
  have heqd : rd (delayShown d x w) (RNG_Lx_EQDu x.ix w.chan) = rd (setFlag (setFld d (RNG_Lx_EQDu_EQD x.ix w.chan) w.eqd)
      (RNG_Lx_EQDu_VALID x.ix w.chan) true) (RNG_Lx_EQDu x.ix w.chan) := by
    rw [delayShown, rd_setRegBit_other _ _ _ (by simp only; omega), rd_wrn_other _ _ (by simp only; omega)]
  refine ⟨?_, ?_, ?_, regBit_setRegBit_same _ _ _ (by omega)⟩
  · rw [fld_congr _ heqd, fld_setFlag_apart _ _ (by simp [apart]), fld_setFld_same _ _ (by simp) (by simp)]
    rfl
  · rw [flag_congr _ heqd, flag_setFlag_same _ _ (by simp) (by simp)]
  · rw [delayShown, rdn, rd_setRegBit_other _ _ _ (by simp only; omega), ← rdn, rdn_wrn_same]
    rfl

/-- What RNG holds of a line does not show in the registers. -/
theorem showsDelay.setRng {d : Dev} {x : Line} {w : EqdWait} (h : showsDelay d x w) (f : RngHw → RngHw) :
    showsDelay (setRng d x f) x w := h

theorem delayApplied_shows (d : Dev) (x : Line) {w : EqdWait} (hw : w.chan < 4) : showsDelay (delayApplied d x w) x w :=
  (delayShown_shows _ x hw).setRng _

theorem delayApplied_eqdWait (d : Dev) (x : Line) (w : EqdWait) :
    ((delayApplied d x w).rngHw.get x).eqdWait = (d.rngHw.get x).eqdWait.erase w := by
  have hshown : ∀ e : Dev, (delayShown e x w).rngHw = e.rngHw := fun _ => rfl
  rw [delayApplied, setRng_same, hshown, setRng_same]

/-! ### RANGING_COMPLETE (R134, R198) -/

/-- LAST has been seen to, and RNG_TO has stopped. -/
def lastTaken (d : Dev) (x : Line) : Dev := dropTimer (setRng d x (fun h => { h with lastSeen := false })) (.rngTo x)

theorem hasActive_lastTaken (d : Dev) (x : Line) : hasActive (lastTaken d x) = hasActive d := rfl

theorem homeRun_lastTaken (d : Dev) (x : Line) : homeRun (lastTaken d x) = homeRun d := rfl

/-- The line goes to Standby where a line holds the role or the home preference holds L-B back, else it takes the role. -/
def rangedState (d : Dev) (x : Line) : Dev :=
  if hasActive d || (homeRun d && x == .b) then moveState d x stStandby reportMessage
  else takeRole (moveState d x stOperate reportMessage) x

theorem rangingComplete_of_ranged {d : Dev} {x : Line} (hst : termState d x = stRanging) (hl : (d.rngHw.get x).lastSeen = true)
    (hc : coresHalted d = false) (hr : fld d (RNG_Lx_STATUS_RANGED x.ix) ≠ 0) :
    rangingComplete x d = raiseRng (rangedState (lastTaken d x) x) x rgRanged := by
  rw [rangingComplete, if_pos (by simp [hst, hl, hc, hr])]
  rfl

theorem rangedState_standby {d : Dev} {x : Line} (h : hasActive d = true ∨ (homeRun d = true ∧ x = .b)) :
    termState (rangedState d x) x = stStandby := by
  obtain ⟨_, _, hst, _⟩ := moveState_spec d x (st := stStandby) reportMessage (by decide)
  rw [rangedState, if_pos (by simpa using h), hst]

theorem rangedState_operate {d : Dev} {x : Line} (ha : hasActive d = false) (hh : homeRun d = false ∨ x = .a) :
    termState (rangedState d x) x = stOperate ∧ isActive (rangedState d x) x = true := by
  obtain ⟨_, _, hst, _⟩ := moveState_spec d x (st := stOperate) reportMessage (by decide)
  obtain ⟨_, _, hact, _, hterm⟩ := takeRole_spec (moveState d x stOperate reportMessage) x
  have hfree : ¬ ((hasActive d || (homeRun d && x == .b)) = true) := by
    rcases hh with hh | rfl
    · simp [ha, hh]
    · simp [ha]
  rw [rangedState, if_neg hfree]
  exact ⟨(hterm x).trans hst, hact⟩

/-! ### The sleep exchange (R145, R146) -/

theorem sleepAckTimeout_of_late {d : Dev} {x : Line} (ha : (d.rngHw.get x).asked = true) (hn : (d.rngHw.get x).acked = none)
    (ht : (d.rngHw.get x).askedAt + 32 ≤ framesOf d x) : sleepAckTimeout x d = sleepNak d x := by
  simp [sleepAckTimeout, ha, hn, ht]

theorem raiseRng_rngHw (d : Dev) (x : Line) (b : Nat) : (raiseRng d x b).rngHw = d.rngHw := by
  obtain ⟨r, p, o, e⟩ := raiseEvt_spec d (evRNG x.ix) b
  rw [raiseRng, e]

theorem acked_sleepNak (d : Dev) (x : Line) : ((sleepNak d x).rngHw.get x).acked = some false := by
  rw [sleepNak, raiseRng_rngHw, setRng_same]

theorem leaseExpire_of_over {d : Dev} {x : Line} (hr : leaseRuns d x = true) (hl : leaseLeft d x = 0) : leaseExpire x d
    = if asleep d x then setFld d (RNG_Lx_SLEEP_LEFT x.ix) 0 else enterListen (setFld d (RNG_Lx_SLEEP_LEFT x.ix) 0) x reportWake := by
  have hsleep : asleep (setFld d (RNG_Lx_SLEEP_LEFT x.ix) 0) x = asleep d x := flag_congr _ (rd_setFld_other d 0 (by simp only; omega))
  rw [leaseExpire, if_pos (by simp [hr, hl])]
  simp only
  rw [hsleep]

theorem sleepResume_of_bonded {d : Dev} {x : Line} (hr : timerRuns d (.wakeBond x) = true) (hb : bonded d x = true)
    (hl : 0 < leaseLeft d x) (ht : timerOver d (.wakeBond x) = false) : sleepResume x d
      = queueLmm (dropTimer d (.wakeBond x)) x 0x84 [BitVec.ofNat 8 (termState d x), BitVec.ofNat 8 (termState d x), 5] := by
  rw [sleepResume, if_pos hr, if_pos (by simp [hb, hl, ht])]
  rfl

theorem sleepResume_of_late {d : Dev} {x : Line} (hr : timerRuns d (.wakeBond x) = true) (ht : timerOver d (.wakeBond x) = true) :
    sleepResume x d = enterListen (dropTimer d (.wakeBond x)) x reportWake := by
  rw [sleepResume, if_pos hr, if_neg (by simp [ht]), if_pos (by simp [ht])]

/-! ### FREEZE_REPORT (R130) -/

/-- The report of function 0's freeze: its cause and the offset of the access. -/
def freezePayload (d : Dev) : List Byte :=
  [0, BitVec.ofNat 8 (rdn d (ROOT_FRZ_CAUSE 0) / 0x4000000)] ++ beBytes 4 (rdn d (ROOT_FRZ_CAUSE 0) % 0x4000000)

/-- A line in Operate or Standby queues the report. -/
def reportOn (p : List Byte) (d : Dev) (x : Line) : Dev := if announces d x then queueLmm d x 0x86 p else d

theorem reportOn_of_announces {d : Dev} {x : Line} (p : List Byte) (h : announces d x = true) :
    reportOn p d x = queueLmm d x 0x86 p := if_pos h

theorem reportOn_of_silent {d : Dev} {x : Line} (p : List Byte) (h : announces d x = false) : reportOn p d x = d := if_neg (by simp [h])

/-- No report waits any more. -/
def reportTaken (d : Dev) : Dev := { d with frzReport := false }

theorem announces_reportTaken (d : Dev) (x : Line) : announces (reportTaken d) x = announces d x := rfl

theorem freezeReport_of_waiting {d : Dev} (hf : d.frzReport = true) (hc : coresHalted d = false) :
    freezeReport d = reportOn (freezePayload d) (reportOn (freezePayload d) (reportTaken d) .a) .b := by
  rw [freezeReport, if_pos (by simp [hf, hc])]
  rfl

theorem reportOn_frzReport (p : List Byte) (d : Dev) (x : Line) : (reportOn p d x).frzReport = d.frzReport := by
  unfold reportOn
  split
  · obtain ⟨r, g, e⟩ := queueLmm_touches d x 0x86 p
    rw [e]
  · rfl

theorem frzReport_freezeReport {d : Dev} (hf : d.frzReport = true) (hc : coresHalted d = false) : (freezeReport d).frzReport = false := by
  rw [freezeReport_of_waiting hf hc, reportOn_frzReport, reportOn_frzReport]
  rfl

theorem announces_queueLmm (d : Dev) (x y : Line) (type : Nat) (p : List Byte) : announces (queueLmm d x type p) y = announces d y := by
  rw [announces, ((keepsRoles.refl d).queueLmm x type p).termState y, announces]

/-- Where L-A alone is in Operate or Standby, it alone reports. -/
theorem freezeReport_of_announcesA {d : Dev} (hf : d.frzReport = true) (hc : coresHalted d = false) (ha : announces d .a = true)
    (hb : announces d .b = false) : freezeReport d = queueLmm (reportTaken d) .a 0x86 (freezePayload d) := by
  rw [freezeReport_of_waiting hf hc, reportOn_of_announces _ ((announces_reportTaken d .a).trans ha),
    reportOn_of_silent _ ((announces_queueLmm ..).trans ((announces_reportTaken d .b).trans hb))]

/-! ### The dual-colour result (R143) -/

/-- A result lies in its bounds: it is not negative, and num / den times 2 × 10^8 km is no more than 40 km. -/
theorem dualColour_bounds {d : Dev} {x : Line} {u rtd frame : Nat} {r : DualColour} (h : dualColour d x u rtd frame = some r) :
    0 ≤ r.num ∧ 0 < r.den ∧ r.num * 200000000 ≤ 40 * (r.den : Int) := by
  unfold dualColour at h
  split at h
  · cases h
  · simp only at h
    generalize dispersion d x _ - dispersion d x _ = den at h
    generalize (if den < 0 then _ else _ : Int) = num at h
    split at h
    · cases h
    · next hden =>
      split at h
      · cases h
      · obtain rfl := Option.some.inj h
        simp only
        omega

/-- A quotient rounds to no more than a whole number that it does not pass. -/
theorem nearest_le {num : Int} {den : Nat} {k : Int} (hd : 0 < den) (h : num ≤ k * den) : nearest num den ≤ k := by
  have hlt : 2 * num + (den : Int) < (k + 1) * (2 * den) := by
    rw [add_mul, one_mul, mul_left_comm]
    omega
  exact Int.lt_add_one_iff.mp (Int.ediv_lt_of_lt_mul (by omega) hlt)

theorem len_le {r : DualColour} (hd : 0 < r.den) (h : r.num * 200000000 ≤ 40 * (r.den : Int)) : r.len ≤ 400000 := by
  have := nearest_le (num := r.num * 2000000000000) (k := 400000) hd (by omega)
  rw [DualColour.len]
  omega

/-! ### The statement -/

/-- Settles O38: each command is carried out by its equation, and a dual-colour result keeps the bounds that it is tested for. -/
theorem rangingAndSleep : Obligations.RangingAndSleep := by
  refine ⟨fun x s w hw hc => ?_, fun x s hst hl hc hr => ?_, fun x s ha hn ht => ?_, fun x s hr hl => ⟨fun hs => ?_, fun hs => ?_⟩,
    fun x s hr => ⟨fun hb hl ht => ?_, fun ht => ?_⟩, fun s hf hc => ?_, fun d x u rtd frame r h => ?_⟩
  · obtain ⟨heqd, hvalid, hrtd, hranged⟩ := delayApplied_shows s.dev x hc
    exact ⟨delayApplied s.dev x w, heqd, hvalid, hrtd, hranged, delayApplied_eqdWait s.dev x w,
      by rw [exec_eqdApply, eqdApply_of_due hw]⟩
  · refine ⟨rangedState (lastTaken s.dev x) x, ?_, fun h => rangedState_standby ?_, fun ha hh => rangedState_operate ?_ ?_⟩
    · rw [exec_rangingComplete, rangingComplete_of_ranged hst hl hc hr]
    · rwa [hasActive_lastTaken, homeRun_lastTaken]
    · rwa [hasActive_lastTaken]
    · rwa [homeRun_lastTaken]
  · exact ⟨by rw [exec_sleepAckTimeout, sleepAckTimeout_of_late ha hn ht], acked_sleepNak s.dev x⟩
  · rw [exec_leaseExpire, leaseExpire_of_over hr hl, if_neg (by simp [hs])]
  · rw [exec_leaseExpire, leaseExpire_of_over hr hl, if_pos hs]
  · rw [exec_sleepResume, sleepResume_of_bonded hr hb hl ht]
  · rw [exec_sleepResume, sleepResume_of_late hr ht]
  · refine ⟨_, exec_freezeReport s, frzReport_freezeReport hf hc, fun ha hb => ?_⟩
    rw [freezeReport_of_announcesA hf hc ha hb, freezePayload, reportTaken]
  · obtain ⟨hnum, hden, hlen⟩ := dualColour_bounds h
    exact ⟨hnum, hden, len_le hden hlen⟩

end Sys2Proof.Machine
end

section
/-!
PROOFS. The entries of a map: the checks of a grant, and what an accepted or rejected one leaves accepted (R149, R150).
-/

namespace Sys2Proof.Machine

/-! ### Places that do not overlap (R150) -/

theorem overlap_comm (p q : Int × Int) : overlap p q = overlap q p := Bool.and_comm _ _

/-- Two grants of one channel, of one map or of two successive ones, do not overlap. -/
def clearOf (p q : GrantPlace) : Prop :=
  p.chan = q.chan → p.frame ≤ q.frame + 1 → q.frame ≤ p.frame + 1 → overlap (grantSpan p) (grantSpan q) = false

/-- No two of the places overlap on a channel within a map and the map before. -/
def neverOverlap (l : List GrantPlace) : Prop := l.Pairwise clearOf

/-- The place of a new grant meets that of an accepted one (check 5). -/
def meets (p : GrantPlace) (h : GrantPlace) : Bool :=
  h.chan == p.chan && decide (p.frame ≤ h.frame + 1) && overlap (grantSpan h) (grantSpan p)

theorem clearOf_of_not_meets {p q : GrantPlace} (h : meets p q = false) : clearOf p q := by
  intro hc hf _
  rw [overlap_comm]
  simpa [meets, hc, hf] using h

/-- A place that meets none of those accepted joins them, and those of older maps are forgotten. -/
theorem neverOverlap_cons {p : GrantPlace} {l : List GrantPlace} (keep : GrantPlace → Bool) (h : neverOverlap l)
    (hp : l.any (meets p) = false) : neverOverlap (p :: l.filter keep) := by
  refine List.Pairwise.cons (fun q hq => ?_) (List.Pairwise.filter _ h)
  exact clearOf_of_not_meets (Bool.eq_false_iff.mpr (List.any_eq_false.mp hp q (List.mem_filter.mp hq).1))

/-! ### What a rejected and an accepted grant leave -/

theorem rejectGrant_upHw (d : Dev) (x : Line) (r : Reg) : (rejectGrant d x r).upHw = d.upHw := by
  obtain ⟨w, p, o, e⟩ := raiseEvt_spec (count d r) (evUPB x.ix) upGrantBad
  rw [rejectGrant, raiseUpb, e]
  rfl

theorem endGaps_upHw (d : Dev) (x : Line) : (endGaps d x).upHw = d.upHw := by
  unfold endGaps
  refine forEach_keeps (P := fun e => e.upHw = d.upHw) (fun e u he => ?_) (List.range 4) rfl
  split
  · exact he
  · exact he

theorem accepted_withholdGrant (d : Dev) (x : Line) (g : Grant) :
    ((withholdGrant d x g).upHw.get x).accepted = (d.upHw.get x).accepted := by
  rw [withholdGrant, noteSuppressed_upHw, endGaps_upHw, syncInFlight, setFld_upHw, syncNrw_upHw, toCarry_upHw, setGrants, setUp_same,
    count_upHw]

theorem sliceService_upHw (d : Dev) (t : Nat) : (sliceService d t).upHw = d.upHw := by
  obtain ⟨r, n, b, e⟩ := sliceService_touches d t
  rw [e]

/-- The grant accepted, with its place among those accepted for its map and the map before. -/
def grantJoined (d : Dev) (x : Line) (g : Grant) : Dev :=
  setUp d x (fun h => { h with grants := h.grants ++ [g],
                               accepted := placeOf g :: h.accepted.filter (fun p => decide (g.frame ≤ p.frame + 1)) })

/-- The grant accepted and accounted for: counted, a sign of life, and asking service of UPB where its burst is near (R200, R378). -/
def grantNoted (d : Dev) (x : Line) (g : Grant) : Dev :=
  let d := countFld (count (grantJoined d x g) (UPB_GRANT_ACC x.ix)) (UPB_STATUS_MAP_ACCEPTED x.ix)
  let d := syncInFlight (setSdl d x (fun h => { h with kaTick := framesOf d x, kaCount := h.kaCount + 1 })) x
  if sliceSoon d x g then sliceService d (44 + x.ix) else d

theorem acceptGrant_eq (d : Dev) (x : Line) (g : Grant) : acceptGrant d x g
    = if withheld (grantNoted d x g) x g then withholdGrant (grantNoted d x g) x g else grantNoted d x g := rfl

theorem grantNoted_upHw (d : Dev) (x : Line) (g : Grant) : (grantNoted d x g).upHw = (grantJoined d x g).upHw := by
  unfold grantNoted
  simp only
  split
  · rw [sliceService_upHw]
    rfl
  · rfl

theorem accepted_acceptGrant (d : Dev) (x : Line) (g : Grant) : ((acceptGrant d x g).upHw.get x).accepted
    = placeOf g :: (d.upHw.get x).accepted.filter (fun p => decide (g.frame ≤ p.frame + 1)) := by
  have hj : ((grantNoted d x g).upHw.get x).accepted
      = placeOf g :: (d.upHw.get x).accepted.filter (fun p => decide (g.frame ≤ p.frame + 1)) := by
    rw [grantNoted_upHw, grantJoined, setUp_same]
  rw [acceptGrant_eq]
  split
  · rw [accepted_withholdGrant, hj]
  · exact hj

/-! ### The checks of a grant in their order (R150) -/

section Checks
variable {d : Dev} {x : Line} {e : Nat} {entry : Option Nat} (n : Nat)

theorem checkGrant_bad_state (h : termState d x ≠ stOperate) (hs : termState d x ≠ stStandby ∨ entry ≠ none) :
    checkGrant d x n e entry = rejectGrant d x (UPB_BAD_STATE x.ix) := by
  refine if_pos ?_
  rcases hs with hs | hs
  · simp [h, hs]
  · simp [h, Option.ne_none_iff_isSome.mp hs]

theorem checkGrant_of_operate (h : termState d x = stOperate) : checkGrant d x n e entry
    = if !bitOf (fld d (RNG_Lx_STATUS_RANGED x.ix)) (geChan e) then rejectGrant d x (RNG_Lx_LMM_BAD x.ix)
      else if geProfile e = 3 then rejectGrant d x (UPB_BAD_PROFILE x.ix)
      else if geLen e < 5 ∨ 103750 < geStart e + geLen e then rejectGrant d x (UPB_BAD_RANGE x.ix)
      else if (d.upHw.get x).accepted.any (meets (placeOf (grantOf d x n e entry))) then rejectGrant d x (UPB_BAD_OVERLAP x.ix)
      else acceptGrant d x (grantOf d x n e entry) := by
  refine if_neg ?_
  simp [h]

/-- A grant that is checked is rejected in some register, or it meets none of those accepted and is accepted. -/
theorem checkGrant_cases (d : Dev) (x : Line) (n e : Nat) (entry : Option Nat) :
    (∃ r, checkGrant d x n e entry = rejectGrant d x r)
      ∨ ((d.upHw.get x).accepted.any (meets (placeOf (grantOf d x n e entry))) = false
        ∧ checkGrant d x n e entry = acceptGrant d x (grantOf d x n e entry)) := by
  unfold checkGrant
  simp only
  split_ifs with hst hranged hprof hrange hmeets
  · exact .inl ⟨_, rfl⟩
  · exact .inl ⟨_, rfl⟩
  · exact .inl ⟨_, rfl⟩
  · exact .inl ⟨_, rfl⟩
  · exact .inl ⟨_, rfl⟩
  · exact .inr ⟨Bool.eq_false_iff.mpr hmeets, rfl⟩

end Checks

/-! ### An entry of a map (R149) -/

theorem neverOverlap_checkGrant {d : Dev} {x : Line} (n e : Nat) (entry : Option Nat) (h : neverOverlap (d.upHw.get x).accepted) :
    neverOverlap ((checkGrant d x n e entry).upHw.get x).accepted := by
  rcases checkGrant_cases d x n e entry with ⟨r, hr⟩ | ⟨hm, ha⟩
  · rw [hr, rejectGrant_upHw]
    exact h
  · rw [ha, accepted_acceptGrant]
    exact neverOverlap_cons _ h hm

theorem neverOverlap_mapEntry {d : Dev} {x : Line} (n e : Nat) (h : neverOverlap (d.upHw.get x).accepted) :
    neverOverlap ((mapEntry d x n e).upHw.get x).accepted := by
  unfold mapEntry
  split
  · exact h
  · split
    · exact neverOverlap_checkGrant n e none h
    · split
      · exact neverOverlap_checkGrant n e _ h
      · exact h

/-- Settles O39: check 5 admits only a place that meets none of those accepted, and the other checks reject in their order. -/
theorem acceptedGrantsNeverOverlap : Obligations.AcceptedGrantsNeverOverlap := by
  refine ⟨fun d x n e h => neverOverlap_mapEntry n e h, fun d x n e entry => ⟨checkGrant_bad_state n, fun ho hr => ?_,
    fun ho hr => ⟨fun hp => ?_, fun hp hl => ?_, fun hp hl hs ha => ?_⟩⟩⟩
  · rw [checkGrant_of_operate n ho, if_pos (by simp [hr])]
  · rw [checkGrant_of_operate n ho, if_neg (by simp [hr]), if_pos hp]
  · rw [checkGrant_of_operate n ho, if_neg (by simp [hr]), if_neg hp, if_pos hl]
  · rw [checkGrant_of_operate n ho, if_neg (by simp [hr]), if_neg hp, if_neg (by omega), if_neg (by simp [ha])]

end Sys2Proof.Machine
end

section
/-!
PROOFS. The Narrows: the horizon and its floors, the staging step, and carry-over that expires (R159, R161, R162, R164).
-/

namespace Sys2Proof.Machine

/-! ### The commands -/

theorem exec_grantHorizon (x : Line) (s : State) : exec (.grantHorizon x) s = .next (s.withDev (grantHorizon x s.dev)) := rfl

theorem exec_floorReserve (x : Line) (s : State) : exec (.floorReserve x) s = .next (s.withDev (floorReserve x s.dev)) := rfl

theorem exec_stagingStep (ecc : Ecc) (mis : List EngineMiss) (s : State) :
    exec (.stagingStep ecc mis) s = .next (s.withDev (stagingStep ecc mis s.dev)) := rfl

theorem exec_carryExpire (s : State) : exec .carryExpire s = .next (s.withDev (carryExpire s.dev)) := rfl

/-! ### The horizon and the floor (R161) -/

theorem grantHorizon_of_next {d : Dev} {x : Line} {g : Grant}
    (h : firstGrant ((d.upHw.get x).grants.filter (fun g => !g.horizon && nearHorizon d x g)) = some g) : grantHorizon x d
      = reserveFloor (replaceGrant d x g { g with horizon := true }) x { g with horizon := true } := by
  rw [grantHorizon, h]

theorem floorReserve_of_waiting {d : Dev} {x : Line} {g : Grant}
    (h : firstGrant ((d.upHw.get x).grants.filter (fun g => g.horizon && !g.reserved)) = some g) : floorReserve x d = reserveFloor d x g := by
  rw [floorReserve, h]

section Floor
variable {d : Dev} {x : Line} {g : Grant}

theorem reserveFloor_of_room (h : floorLack d x g ≤ freeGranules d) :
    reserveFloor d x g = syncNrw (replaceGrant d x g { g with reserved := true }) [] := if_pos h

theorem reserveFloor_of_waited (h : freeGranules d < floorLack d x g) (hw : g.waited = true) : reserveFloor d x g = d := by
  rw [reserveFloor, if_neg (Nat.not_le.mpr h), if_pos hw]

theorem reserveFloor_of_new (h : freeGranules d < floorLack d x g) (hw : g.waited = false) :
    reserveFloor d x g = raiseEvt (count (replaceGrant d x g { g with waited := true }) NRW_FLOOR_WAIT) evNRW 0 := by
  rw [reserveFloor, if_neg (Nat.not_le.mpr h), if_neg (by simp [hw])]

theorem mem_reserveFloor_reserved (hg : g ∈ (d.upHw.get x).grants) (h : floorLack d x g ≤ freeGranules d) :
    { g with reserved := true } ∈ ((reserveFloor d x g).upHw.get x).grants := by
  rw [reserveFloor_of_room h, syncNrw_upHw]
  exact mem_replaceGrant hg _

theorem mem_reserveFloor_waited (hg : g ∈ (d.upHw.get x).grants) (h : freeGranules d < floorLack d x g) (hw : g.waited = false) :
    { g with waited := true } ∈ ((reserveFloor d x g).upHw.get x).grants := by
  obtain ⟨r, p, o, e⟩ := raiseEvt_spec (count (replaceGrant d x g { g with waited := true }) NRW_FLOOR_WAIT) evNRW 0
  rw [reserveFloor_of_new h hw, e]
  exact mem_replaceGrant hg _

theorem rdn_reserveFloor_wait (h : freeGranules d < floorLack d x g) (hw : g.waited = false) :
    rdn (reserveFloor d x g) NRW_FLOOR_WAIT = min (rdn d NRW_FLOOR_WAIT + 1) 0xFFFFFFFF := by
  rw [reserveFloor_of_new h hw, rdn, rd_raiseEvt_other _ _ _ (by decide) (by decide) (by decide), ← rdn, rdn_count_same]
  rfl

end Floor

/-! ### The staging step (R159, R162) -/

section Staging
variable {d : Dev} {x : Line} {g : Grant} {floor : Bool} (ecc : Ecc) (mis : List EngineMiss)

theorem stagingStep_idle (h : domainOn d 26 = false ∨ stagingGrant d = none) : stagingStep ecc mis d = d := by
  unfold stagingStep
  rcases h with h | h
  · rw [if_pos (by simp [h])]
  · rw [h]
    exact ite_self d

theorem stagingStep_carry {c : Carry} {rest : List Carry} (hd : domainOn d 26 = true) (hg : stagingGrant d = some (x, g, floor))
    (hc : carryOf d (carryKey x g.entry) = c :: rest) : stagingStep ecc mis d
      = if fitsGrant g (unitBytes c.unit) then
          syncNrw (stageUnit (setCarry d (carryKey x g.entry) rest) x g c.unit) [carryKey x g.entry]
        else markComplete d x g := by
  simp only [stagingStep, hd, hg, hc, Bool.not_true, Bool.false_eq_true, if_false]

theorem stagingStep_formed {u : LineUnit} {rest : List LineUnit} (hd : domainOn d 26 = true) (hg : stagingGrant d = some (x, g, floor))
    (hc : carryOf d (carryKey x g.entry) = []) (hu : formedOf d (carryKey x g.entry) = u :: rest) : stagingStep ecc mis d
      = stageNew d x g floor u (fun d => setFormed d (carryKey x g.entry) rest) := by
  simp only [stagingStep, hd, hg, hc, hu, Bool.not_true, Bool.false_eq_true, if_false]

theorem stageNew_of_room {u : LineUnit} (taken : Dev → Dev) (hf : fitsGrant g (unitBytes u) = true)
    (hr : hasRoom d x g (unitGranules u) floor = true) : stageNew d x g floor u taken
      = stageUnit { taken d with stageSeq := d.stageSeq + 1 } x g { u with seq := d.stageSeq } := by
  rw [stageNew, if_neg (by simp [hf]), if_neg (by simp [hr])]

end Staging

/-! ### Carry-over that expires (R164) -/

/-- Frames so far of the line of an allocation (R7). -/
def allocFrames (d : Dev) (k : Nat) : Nat := framesOf d (Line.ofIx (allocLine d k))

/-- The carry-over of an allocation that has not waited 32 frames of its line. -/
def carryKept (d : Dev) (k : Nat) : List Carry := (carryOf d k).filter (fun c => decide (allocFrames d k < c.until'))

/-- CARRY_EXPIRE for one allocation. -/
def expireTurn (d : Dev) (k : Nat) : Dev :=
  let old := (carryOf d k).filter (fun c => decide (c.until' ≤ allocFrames d k))
  if old.isEmpty then d else countDiscard (syncNrw (setCarry d k (carryKept d k)) [k]) old.length

theorem carryExpire_eq (d : Dev) : carryExpire d = forEach (d.carry.map (·.1)) expireTurn d := rfl

/-- What is shown and counted where carry-over changes leaves the carry-over and the frames as they are. -/
theorem discardShown_touches (d : Dev) (l : List Nat) (n : Nat) :
    ∃ r p o, countDiscard (syncNrw d l) n = { d with regs := r, msixPending := p, out := o } := by
  obtain ⟨r, e⟩ := syncNrw_regs d l
  rw [e]
  unfold countDiscard
  split
  · exact ⟨r, d.msixPending, d.out, rfl⟩
  · obtain ⟨r', p, o, e'⟩ := raiseEvt_spec (countBy { d with regs := r } NRW_CARRY_DISCARD n) evNRW 2
    exact ⟨r', p, o, e'⟩

theorem offNarrows_allocCfg {k : Nat} (h : k < 512) : offNarrows (NRW_ALLOCi_CFG k) :=
  ⟨by simp only; omega, fun i _ => by simp only; omega⟩

theorem rd_allocCfg_discardShown (d : Dev) (l : List Nat) (n : Nat) {k : Nat} (h : k < 512) :
    rd (countDiscard (syncNrw d l) n) (NRW_ALLOCi_CFG k) = rd d (NRW_ALLOCi_CFG k) := by
  have hs := rd_syncNrw_other d l (offNarrows_allocCfg h)
  unfold countDiscard
  split
  · exact hs
  · have hraise := rd_raiseEvt_other (countBy (syncNrw d l) NRW_CARRY_DISCARD n) evNRW 2 (q := NRW_ALLOCi_CFG k)
      (by simp only [evNRW]; omega) (by simp only; omega) (by simp only; omega)
    exact hraise.trans ((rd_wrn_other _ _ (by simp only; omega)).trans hs)

theorem allocLine_discardShown (d : Dev) (l : List Nat) (n k : Nat) : allocLine (countDiscard (syncNrw d l) n) k = allocLine d k := by
  unfold allocLine
  split
  · next h => exact fld_congr _ (rd_allocCfg_discardShown d l n h)
  · rfl

theorem allocFrames_discardShown (d : Dev) (l : List Nat) (n k : Nat) :
    allocFrames (countDiscard (syncNrw d l) n) k = allocFrames d k := by
  obtain ⟨r, p, o, e⟩ := discardShown_touches d l n
  rw [allocFrames, allocLine_discardShown, e]
  rfl

theorem carryOf_discardShown (d : Dev) (l : List Nat) (n k : Nat) : carryOf (countDiscard (syncNrw d l) n) k = carryOf d k := by
  obtain ⟨r, p, o, e⟩ := discardShown_touches d l n
  rw [e]
  rfl

theorem allocFrames_expireTurn (d : Dev) (a k : Nat) : allocFrames (expireTurn d a) k = allocFrames d k := by
  unfold expireTurn
  simp only
  split
  · rfl
  · exact allocFrames_discardShown _ _ _ _

theorem carryOf_expireTurn_same (d : Dev) (k : Nat) : carryOf (expireTurn d k) k = carryKept d k := by
  unfold expireTurn
  simp only
  split
  · next h =>
    refine (List.filter_eq_self.mpr fun c hc => decide_eq_true ?_).symm
    have hnot := List.filter_eq_nil_iff.mp (List.isEmpty_iff.mp h) c hc
    simpa using hnot
  · rw [carryOf_discardShown]
    exact sget_sput_same _ _ _ _

theorem carryOf_expireTurn_other (d : Dev) {a k : Nat} (h : k ≠ a) : carryOf (expireTurn d a) k = carryOf d k := by
  unfold expireTurn
  simp only
  split
  · rfl
  · rw [carryOf_discardShown]
    exact sget_sput_other _ _ _ _ h

theorem carryKept_expireTurn (d : Dev) (a k : Nat) : carryKept (expireTurn d a) k = carryKept d k := by
  rw [carryKept, allocFrames_expireTurn]
  by_cases h : k = a
  · subst h
    rw [carryOf_expireTurn_same, carryKept, List.filter_filter]
    simp only [Bool.and_self]
  · rw [carryOf_expireTurn_other d h, carryKept]

/-- After the turns of a list of allocations each of them has what is kept of its carry-over, and the others have theirs. -/
theorem carryOf_expireTurns (l : List Nat) (d : Dev) (k : Nat) :
    carryOf (forEach l expireTurn d) k = if k ∈ l then carryKept d k else carryOf d k := by
  induction l generalizing d with
  | nil => rfl
  | cons a t ih =>
    refine (ih (expireTurn d a)).trans ?_
    rw [carryKept_expireTurn]
    by_cases h : k = a
    · subst h
      rw [carryOf_expireTurn_same, ite_self, if_pos List.mem_cons_self]
    · rw [carryOf_expireTurn_other d h]
      simp only [List.mem_cons, h, false_or]

theorem sget_of_not_mem {α : Type} (v : α) {m : Sparse α} {k : Nat} (h : k ∉ m.map (·.1)) : sget v m k = v := by
  induction m with
  | nil => rfl
  | cons e t ih =>
    obtain ⟨hk, ht⟩ := not_or.mp (fun hm => h (List.mem_cons.mpr hm))
    rw [sget, if_neg (Ne.symm hk)]
    exact ih ht

theorem carryOf_carryExpire (d : Dev) (k : Nat) : carryOf (carryExpire d) k = carryKept d k := by
  rw [carryExpire_eq, carryOf_expireTurns]
  split
  · rfl
  · next h =>
    have hn : carryOf d k = [] := sget_of_not_mem _ h
    rw [carryKept, hn]
    rfl

/-- Settles O40: the horizon, the floors and the staging step follow their equations, and a turn of CARRY_EXPIRE for each allocation
leaves of its carry-over what has not waited 32 frames. -/
theorem stagingAndHorizon : Obligations.StagingAndHorizon := by
  refine ⟨fun x s g => ⟨fun h => ?_, fun h => ?_, fun d hg => ⟨mem_reserveFloor_reserved hg, fun h hw => ?_, reserveFloor_of_waited⟩⟩,
    fun ecc mis s => ⟨fun h => ?_, fun x g floor hd hg => ⟨fun c rest hc => ⟨fun hf => ?_, fun hf => ?_⟩, fun u rest hc hu hf hr => ?_⟩⟩,
    fun s => ⟨_, exec_carryExpire s, rfl, carryOf_carryExpire s.dev⟩⟩
  · rw [exec_grantHorizon, grantHorizon_of_next h]
  · rw [exec_floorReserve, floorReserve_of_waiting h]
  · exact ⟨mem_reserveFloor_waited hg h hw, rdn_reserveFloor_wait h hw⟩
  · rw [exec_stagingStep, stagingStep_idle ecc mis h, withDev_self]
  · rw [exec_stagingStep, stagingStep_carry ecc mis hd hg hc, if_pos hf]
  · rw [exec_stagingStep, stagingStep_carry ecc mis hd hg hc, if_neg (by simp [hf])]
  · rw [exec_stagingStep, stagingStep_formed ecc mis hd hg hc hu, stageNew_of_room _ hf hr]

end Sys2Proof.Machine
end

section
/-!
PROOFS. Line encapsulation downstream: a unit that is read and handled, a complete frame, contexts that time out and the aperture of the
acceptance bitmaps (R173 to R178, R195).
-/

namespace Sys2Proof.Machine

/-! ### The commands -/

theorem exec_lineUnitRx (x : Line) (mis : Option EngineMiss) (s : State) :
    exec (.lineUnitRx x mis) s = .next (s.withDev (takeUnit s.dev x mis false)) := rfl

theorem exec_cipOverrun (x : Line) (s : State) : exec (.cipOverrun x) s = .next (s.withDev (takeUnit s.dev x none true)) := rfl

theorem exec_reasmTimeout (x : Line) (s : State) : exec (.reasmTimeout x) s = .next (s.withDev (reasmTimeout x s.dev)) := rfl

theorem exec_bmapApertureWrite (m : Master) (k : Fin 32768) (value : Word) (s : State) :
    exec (.bmapApertureWrite m k value) s = .next (s.withDev (bmapApertureWrite m k value s.dev)) := rfl

/-! ### The unit that is read (R173, R174) -/

@[simp] theorem setEnc_same (d : Dev) (x : Line) (f : EncHw → EncHw) : (setEnc d x f).encHw.get x = f (d.encHw.get x) :=
  PerLine.get_set_same _ _ _

theorem nextUnit_of_marked {d : Dev} {x : Line} {hdr : Nat}
    (h : readStream d x (d.encHw.get x).frame (d.encHw.get x).next 8 = some (hdr, true)) : nextUnit d x = some (hdr, false, [], false) := by
  simp [nextUnit, h]

section Taking
variable {d : Dev} {x : Line} (mis : Option EngineMiss) (overrun : Bool)

theorem takeUnit_idle (h : domainOn d 26 = false ∨ delin d x = delinOff ∨ nextUnit d x = none) : takeUnit d x mis overrun = d := by
  unfold takeUnit
  rcases h with h | h | h
  · simp [h]
  · simp [h]
  · rw [h]
    exact ite_self d

theorem takeUnit_of_unit {d' : Dev} {hdr : Nat} {good marked b : Bool} {payload : List Byte} (hd : domainOn d 26 = true)
    (hl : delin d x ≠ delinOff) (hu : nextUnit d x = some (hdr, good, payload, marked)) (he : delineate d x hdr good = (d', b)) :
    takeUnit d x mis overrun
      = if b then handleUnit d' x (d.encHw.get x).frame hdr payload marked mis overrun
          (unitStamp d' x (d.encHw.get x).frame (d.encHw.get x).next)
        else d' := by
  simp [takeUnit, hd, hl, hu, he]

end Taking

theorem raiseEnc_prsIn (d : Dev) (b : Nat) : (raiseEnc d b).prsIn = d.prsIn := by
  obtain ⟨r, p, o, e⟩ := raiseEvt_spec d evENC b
  rw [raiseEnc, e]

theorem raiseEnc_encHw (d : Dev) (b : Nat) : (raiseEnc d b).encHw = d.encHw := by
  obtain ⟨r, p, o, e⟩ := raiseEvt_spec d evENC b
  rw [raiseEnc, e]

theorem delinLost_prsIn (d : Dev) (x : Line) (word : Nat) : (delinLost d x word).prsIn = d.prsIn := raiseEnc_prsIn _ _

/-- Delineation decides where the next header is looked for and passes nothing to the parser. -/
theorem delineate_prsIn (d : Dev) (x : Line) (hdr : Nat) (good : Bool) : (delineate d x hdr good).1.prsIn = d.prsIn := by
  unfold delineate
  simp only
  split_ifs with hoff hpass hheld hsync hpre
  · rfl
  · rfl
  · rfl
  · exact delinLost_prsIn _ _ _
  · rfl
  · rfl

/-! ### The acceptance of a unit (R174, R175) -/

theorem lt_of_accepts {d : Dev} {x : Line} {tag : Nat} (h : accepts d x tag = true) : tag < 0xFFFFE :=
  of_decide_eq_true (Bool.and_eq_true_iff.mp h).1

theorem accepts_of_reserved (d : Dev) (x : Line) {tag : Nat} (h : 0xFFFFE ≤ tag) : accepts d x tag = false :=
  Bool.eq_false_iff.mpr fun ha => absurd (lt_of_accepts ha) (Nat.not_lt.mpr h)

theorem huTag_ne_filler {d : Dev} {x : Line} {hdr : Nat} (h : accepts d x (huTag hdr) = true) : huTag hdr ≠ 0xFFFFF :=
  ne_of_lt ((lt_of_accepts h).trans (by decide))

section Handling
variable {d : Dev} {x : Line} {hdr : Nat} (n : Nat) (payload : List Byte) (marked : Bool) (mis : Option EngineMiss) (overrun : Bool)
  (stamp : Option Nat)

theorem handleUnit_filler (h : huTag hdr = 0xFFFFF) : handleUnit d x n hdr payload marked mis overrun stamp = d := if_pos h

theorem handleUnit_foreign (hf : huTag hdr ≠ 0xFFFFF) (ha : accepts d x (huTag hdr) = false) :
    handleUnit d x n hdr payload marked mis overrun stamp = count d (ENC_Lx_LU_FOREIGN x.ix) := by
  rw [handleUnit, if_neg hf, if_pos (by simp [ha])]

theorem handleUnit_bad_rule (ha : accepts d x (huTag hdr) = true) (hr : huLength hdr = 0 ∨ (huOam hdr = true ∧ huLast hdr = false)) :
    handleUnit d x n hdr payload marked mis overrun stamp
      = endDropping (count d (ENC_Lx_LU_BAD_RULE x.ix)) x (huTag hdr) (endsFrame hdr) := by
  rw [handleUnit, if_neg (huTag_ne_filler ha), if_neg (by simp [ha]), if_pos (by simpa using hr)]

/-- A unit that touches an error mark is counted, discards its tag's context and may end its tag's dropping (R174, R177). -/
def unitDiscarded (d : Dev) (x : Line) (hdr : Nat) : Dev :=
  endDropping (dropContext (count d (ENC_Lx_LU_FEC_DISCARD x.ix)) x (huTag hdr)) x (huTag hdr) (endsFrame hdr)

theorem handleUnit_marked (ha : accepts d x (huTag hdr) = true) (h0 : huLength hdr ≠ 0) (ho : huOam hdr = false ∨ huLast hdr = true) :
    handleUnit d x n hdr payload true mis overrun stamp = unitDiscarded d x hdr := by
  have hr : ¬(huLength hdr = 0 ∨ (huOam hdr ∧ !huLast hdr)) := by
    rcases ho with ho | ho
    · simp [h0, ho]
    · simp [h0, ho]
  rw [handleUnit, if_neg (huTag_ne_filler ha), if_neg (by simp [ha]), if_neg hr, if_pos rfl, unitDiscarded]

end Handling

/-! ### Contexts and tags that are dropped (R177) -/

/-- The contexts that meet a condition are kept, and their number is shown. -/
def keepContexts (d : Dev) (x : Line) (p : Context → Bool) : Dev :=
  syncContexts (setEnc d x (fun h => { h with ctxs := h.ctxs.filter p })) x

theorem ctxs_keepContexts (d : Dev) (x : Line) (p : Context → Bool) :
    ((keepContexts d x p).encHw.get x).ctxs = (d.encHw.get x).ctxs.filter p := by
  rw [keepContexts, syncContexts, setFld_encHw, setEnc_same]

theorem dropContext_eq (d : Dev) (x : Line) (tag : Nat) : dropContext d x tag = keepContexts d x (fun c => c.tag != tag) := rfl

theorem ctxs_endDropping (d : Dev) (x : Line) (tag : Nat) (last : Bool) :
    ((endDropping d x tag last).encHw.get x).ctxs = (d.encHw.get x).ctxs := by
  unfold endDropping
  split
  · rw [setEnc_same]
  · rfl

theorem endDropping_regs (d : Dev) (x : Line) (tag : Nat) (last : Bool) : (endDropping d x tag last).regs = d.regs := by
  unfold endDropping
  split
  · rfl
  · rfl

theorem not_mem_dropping_endDropping (d : Dev) (x : Line) (tag : Nat) : tag ∉ ((endDropping d x tag true).encHw.get x).dropping := by
  rw [endDropping, if_pos rfl, setEnc_same, delNat]
  simp

theorem ctxs_unitDiscarded (d : Dev) (x : Line) (hdr : Nat) : ∀ c ∈ ((unitDiscarded d x hdr).encHw.get x).ctxs, c.tag ≠ huTag hdr := by
  intro c hc
  rw [unitDiscarded, ctxs_endDropping, dropContext_eq, ctxs_keepContexts] at hc
  simpa using (List.mem_filter.mp hc).2

theorem rdn_unitDiscarded (d : Dev) (x : Line) (hdr : Nat) : rdn (unitDiscarded d x hdr) (ENC_Lx_LU_FEC_DISCARD x.ix)
    = min (rdn d (ENC_Lx_LU_FEC_DISCARD x.ix) + 1) 0xFFFFFFFF := by
  have hctx : ∀ e : Dev, rd (dropContext e x (huTag hdr)) (ENC_Lx_LU_FEC_DISCARD x.ix) = rd e (ENC_Lx_LU_FEC_DISCARD x.ix) :=
    fun e => rd_setFld_other _ _ (by simp only; omega)
  rw [unitDiscarded, rdn, rd, endDropping_regs, ← rd, hctx, ← rdn, rdn_count_same]

theorem not_mem_dropping_unitDiscarded {d : Dev} {x : Line} {hdr : Nat} (ho : huOam hdr = false) (hl : huLast hdr = true) :
    huTag hdr ∉ ((unitDiscarded d x hdr).encHw.get x).dropping := by
  have hlast : endsFrame hdr = true := by simp [endsFrame, ho, hl]
  rw [unitDiscarded, hlast]
  exact not_mem_dropping_endDropping _ _ _

theorem timeOutContexts_eq (d : Dev) (x : Line) (p : Context → Bool) : timeOutContexts d x p
    = if ((d.encHw.get x).ctxs.filter p).length = 0 then d
      else raiseEnc (countBy (keepContexts d x (fun c => !p c)) (ENC_Lx_REASM_TIMEOUT x.ix) ((d.encHw.get x).ctxs.filter p).length)
        enReasmTimeout := rfl

theorem ctxs_timeOutContexts (d : Dev) (x : Line) (p : Context → Bool) :
    ((timeOutContexts d x p).encHw.get x).ctxs = (d.encHw.get x).ctxs.filter (fun c => !p c) := by
  rw [timeOutContexts_eq]
  split
  · next h =>
    have hnone := List.filter_eq_nil_iff.mp (List.length_eq_zero_iff.mp h)
    exact (List.filter_eq_self.mpr fun c hc => by simpa using hnone c hc).symm
  · rw [raiseEnc_encHw, countBy, wrn_encHw, ctxs_keepContexts]

/-- What is left in reassembly has not been open for the whole window. -/
theorem ctxs_reasmTimeout (d : Dev) (x : Line) : ((reasmTimeout x d).encHw.get x).ctxs
    = (d.encHw.get x).ctxs.filter (fun c => decide (d.elapsed < c.opened + 25 * fld d ENC_REASM_CFG_REASM_WIN)) := by
  rw [reasmTimeout, ctxs_timeOutContexts]
  refine List.filter_congr fun c _ => ?_
  rw [ticksPerUs, Nat.mul_comm, ← decide_not]
  exact decide_eq_decide.mpr Nat.not_le

/-! ### A complete frame (R178) -/

section Completing
variable {d : Dev} {x : Line} {tag : Nat} {bytes : List Byte} {tagged : Bool} {stamp : Option Nat}

theorem frameComplete_runt (h : bytes.length ≤ 63) : frameComplete d x tag bytes tagged stamp = count d (ENC_Lx_LU_RUNT x.ix) := if_pos h

theorem frameComplete_long (h : 9217 ≤ bytes.length) : frameComplete d x tag bytes tagged stamp = count d (ENC_Lx_LU_LONG x.ix) := by
  rw [frameComplete, if_neg (by omega), if_pos h]

theorem frameComplete_of_length (hmin : 64 ≤ bytes.length) (hmax : bytes.length ≤ 9216) : frameComplete d x tag bytes tagged stamp
    = if fcsGood bytes then
        { d with prsIn := d.prsIn ++ [{ bytes := bytes, src := .line x, oam := false, tag := tag, tagged := tagged, stamp := stamp }] }
      else count d (ENC_Lx_LU_FCS x.ix) := by
  rw [frameComplete, if_neg (by omega), if_neg (by omega)]

end Completing

/-! ### The aperture of the bitmaps (R175, R199) -/

theorem bmapInUse_le_one (d : Dev) (x : Line) : bmapInUse d x ≤ 1 := by
  unfold bmapInUse
  split
  · exact Nat.le_of_lt_succ (BitVec.isLt _)
  · exact Nat.le_of_lt_succ (BitVec.isLt _)

/-- No word of a copy in use has the key of a word of an idle copy. -/
theorem bmapKey_inUse_ne_idle (d : Dev) (x y : Line) {j k : Nat} (hj : j < 32768) (hk : k < 32768) :
    bmapKey y (bmapInUse d y) j ≠ bmapKey x (1 - bmapInUse d x) k := by
  have hx := bmapInUse_le_one d x
  have hy := bmapInUse_le_one d y
  unfold bmapKey
  cases x <;> cases y <;> simp only [Line.ix] <;> omega

theorem accepts_writeIdle (d : Dev) (x y : Line) {k : Nat} (value : Word) (tag : Nat) (hk : k < 32768) :
    accepts (writeIdle d x k value) y tag = accepts d y tag := by
  by_cases ht : tag < 0xFFFFE
  · have hword : sget 0 (writeIdle d x k value).bitmaps (bmapKey y (bmapInUse d y) (tag / 32))
        = sget 0 d.bitmaps (bmapKey y (bmapInUse d y) (tag / 32)) :=
      sget_sput_other _ _ _ _ (bmapKey_inUse_ne_idle d x y (by omega) hk)
    have huse : bmapInUse (writeIdle d x k value) y = bmapInUse d y := rfl
    rw [accepts, accepts, huse, hword]
  · rw [accepts_of_reserved _ _ (Nat.not_lt.mp ht), accepts_of_reserved _ _ (Nat.not_lt.mp ht)]

theorem accepts_writeAperture (d : Dev) {k : Nat} (value : Word) (y : Line) (tag : Nat) (hk : k < 32768) :
    accepts (writeAperture d k value) y tag = accepts d y tag := by
  unfold writeAperture
  split
  · rw [accepts_writeIdle _ _ _ _ _ hk, accepts_writeIdle _ _ _ _ _ hk]
  · exact accepts_writeIdle _ _ _ _ _ hk

/-- Settles O42: a unit is read and handled by cases of its header, a frame by its length, and the aperture writes only idle copies. -/
theorem unitsAndFrames : Obligations.UnitsAndFrames := by
  refine ⟨fun x mis s h hh => ?_, fun d x n hdr payload marked mis o st => ⟨handleUnit_filler n payload marked mis o st, fun ht => ?_,
      handleUnit_foreign n payload marked mis o st, handleUnit_bad_rule n payload marked mis o st, fun ha h0 ho hm => ?_,
      fun ha h0 ho hl hm => ?_⟩,
    fun d x tag bytes tagged st => ⟨frameComplete_runt, frameComplete_long, fun hmin hmax hf => ?_, fun hmin hmax hf => ?_⟩,
    fun x s => ⟨_, exec_reasmTimeout x s, rfl, ctxs_reasmTimeout s.dev x⟩, fun m k value s ha => ⟨?_, fun y tag => ?_⟩⟩
  · subst hh
    refine ⟨fun hidle => ⟨?_, ?_⟩, fun hdr => nextUnit_of_marked, fun hdr good marked payload d b hd hl hu he => ⟨fun hb => ⟨?_, ?_, ?_⟩,
      fun hb => ⟨?_, ?_⟩⟩⟩
    · rw [exec_lineUnitRx, takeUnit_idle _ _ hidle, withDev_self]
    · rw [exec_cipOverrun, takeUnit_idle _ _ hidle, withDev_self]
    · rw [exec_lineUnitRx, takeUnit_of_unit _ _ hd hl hu he, if_neg (by simp [hb])]
    · rw [exec_cipOverrun, takeUnit_of_unit _ _ hd hl hu he, if_neg (by simp [hb])]
    · rw [← delineate_prsIn s.dev x hdr good, he]
    · rw [exec_lineUnitRx, takeUnit_of_unit _ _ hd hl hu he, if_pos hb]
    · rw [exec_cipOverrun, takeUnit_of_unit _ _ hd hl hu he, if_pos hb]
  · exact handleUnit_foreign _ _ _ _ _ _ (by omega) (accepts_of_reserved d x (by omega))
  · rw [hm, handleUnit_marked n payload mis o st ha h0 ho]
    exact ⟨ctxs_unitDiscarded d x hdr, rdn_unitDiscarded d x hdr⟩
  · rw [hm, handleUnit_marked n payload mis o st ha h0 (.inl ho)]
    exact not_mem_dropping_unitDiscarded ho hl
  · rw [frameComplete_of_length hmin hmax, if_neg (by simp [hf])]
  · rw [frameComplete_of_length hmin hmax, if_pos hf]
    exact ⟨List.length_append, rfl⟩
  · rw [exec_bmapApertureWrite, bmapApertureWrite, guarded_admits _ ha]
  · exact accepts_writeAperture s.dev value y tag k.isLt

end Sys2Proof.Machine
end

section
/-!
PROOFS. Key slots, pages, bootstrap keys and the counter limit as they are written (R186, R187, R188, R192, R465).
-/

namespace Sys2Proof.Machine

/-! ### The commands -/

theorem exec_slotLoad (m : Master) (k : Fin 256) (value : Word) (s : State) :
    exec (.slotLoad m k value) s = .next (s.withDev (slotLoad m k value s.dev)) := rfl

theorem exec_slotClear (m : Master) (k : Fin 256) (value : Word) (s : State) :
    exec (.slotClear m k value) s = .next (s.withDev (slotClear m k value s.dev)) := rfl

theorem exec_saltWrite (m : Master) (p : Fin 64) (value : Word) (s : State) :
    exec (.saltWrite m p value) s = .next (s.withDev (saltWrite m p value s.dev)) := rfl

theorem exec_bootKeyWrite (m : Master) (x : Line) (j : Fin 8) (value : Word) (s : State) :
    exec (.bootKeyWrite m x j value) s = .next (s.withDev (bootKeyWrite m x j value s.dev)) := rfl

theorem exec_ctrLimitWrite (m : Master) (hi : Bool) (value : Word) (s : State) :
    exec (.ctrLimitWrite m hi value) s = .next (s.withDev (ctrLimitWrite m hi value s.dev)) := rfl

theorem exec_keyOwnerChange (m : Master) (p : Fin 56) (value : Word) (s : State) :
    exec (.keyOwnerChange m p value) s = .next (s.withDev (keyOwnerChange m p value s.dev)) := rfl

/-! ### What raising an event of CIP leaves (R188) -/

theorem raiseCip_keySlots (d : Dev) (b : Nat) : (raiseCip d b).keySlots = d.keySlots := by
  obtain ⟨r, p, o, e⟩ := raiseEvt_spec d evCIP b
  rw [raiseCip, e]

theorem raiseCip_ctrLimit (d : Dev) (b : Nat) : (raiseCip d b).ctrLimit = d.ctrLimit := by
  obtain ⟨r, p, o, e⟩ := raiseEvt_spec d evCIP b
  rw [raiseCip, e]

/-- A refusal changes no slot and is counted. -/
theorem refuseKey_spec (d : Dev) : (refuseKey d).keySlots = d.keySlots
    ∧ rdn (refuseKey d) CIP_KEY_REFUSED = min (rdn d CIP_KEY_REFUSED + 1) 0xFFFFFFFF := by
  refine ⟨raiseCip_keySlots _ _, ?_⟩
  rw [refuseKey, raiseCip, rdn, rd_raiseEvt_other _ _ _ (by decide) (by decide) (by decide), ← rdn, rdn_count_same]

/-! ### A slot that starts anew (R188) -/

/-- LOADED of a slot takes a value, and its EXHAUSTED and DESYNC clear. -/
def markSlot (d : Dev) (k : Nat) (b : Bool) : Dev :=
  setRegBit (setRegBit (setRegBit d (CIP_PAGEp_STATUS (k / 4)) (k % 4) b) (CIP_PAGEp_STATUS (k / 4)) (4 + k % 4) false)
    (CIP_PAGEp_STATUS (k / 4)) (8 + k % 4) false

/-- A slot starts anew with what it holds, LOADED as given, and both counters at 0. -/
def startSlot (d : Dev) (k : Nat) (s : KeySlot) (b : Bool) : Dev := markSlot (setRxCtr (setTxCtr (setSlot d k s) k 0) k 0) k b

theorem installKey_eq (d : Dev) (k : Nat) (key : BitVec 256) :
    installKey d k key = startSlot d k { KeySlot.empty with key := key } true := rfl

theorem emptySlot_eq (d : Dev) (k : Nat) : emptySlot d k = startSlot d k KeySlot.empty false := rfl

theorem keySlot_startSlot_same (d : Dev) (k : Nat) (s : KeySlot) (b : Bool) : keySlot (startSlot d k s b) k = s :=
  sget_sput_same _ _ _ _

theorem keySlot_startSlot_other (d : Dev) {j k : Nat} (s : KeySlot) (b : Bool) (h : j ≠ k) :
    keySlot (startSlot d k s b) j = keySlot d j := sget_sput_other _ _ _ _ h

theorem rd_markSlot_other (d : Dev) (k : Nat) (b : Bool) {q : Reg} (h : q.ofs ≠ (CIP_PAGEp_STATUS (k / 4)).ofs) :
    rd (markSlot d k b) q = rd d q := by
  rw [markSlot, rd_setRegBit_other _ _ _ h, rd_setRegBit_other _ _ _ h, rd_setRegBit_other _ _ _ h]

/-- Bits of the page's word that are not the slot's read as before. -/
theorem regBit_markSlot_other (d : Dev) {k c : Nat} (b : Bool) (h : c ≠ k % 4 ∧ c ≠ 4 + k % 4 ∧ c ≠ 8 + k % 4) :
    regBit (markSlot d k b) (CIP_PAGEp_STATUS (k / 4)) c = regBit d (CIP_PAGEp_STATUS (k / 4)) c := by
  obtain ⟨hload, hexh, hdes⟩ := h
  rw [markSlot, regBit_setRegBit_other _ _ _ hdes, regBit_setRegBit_other _ _ _ hexh, regBit_setRegBit_other _ _ _ hload]

theorem slotLoaded_markSlot_same (d : Dev) (k : Nat) (b : Bool) : slotLoaded (markSlot d k b) k = b := by
  rw [slotLoaded, markSlot, regBit_setRegBit_other _ _ _ (by omega), regBit_setRegBit_other _ _ _ (by omega),
    regBit_setRegBit_same _ _ _ (by omega)]

theorem slotExhausted_markSlot_same (d : Dev) (k : Nat) (b : Bool) : slotExhausted (markSlot d k b) k = false := by
  rw [slotExhausted, markSlot, regBit_setRegBit_other _ _ _ (by omega), regBit_setRegBit_same _ _ _ (by omega)]

theorem desync_markSlot_same (d : Dev) (k : Nat) (b : Bool) :
    regBit (markSlot d k b) (CIP_PAGEp_STATUS (k / 4)) (8 + k % 4) = false := regBit_setRegBit_same _ _ _ (by omega)

theorem slotLoaded_markSlot_other (d : Dev) {j k : Nat} (b : Bool) (h : j ≠ k) : slotLoaded (markSlot d k b) j = slotLoaded d j := by
  by_cases hp : j / 4 = k / 4
  · rw [slotLoaded, hp, regBit_markSlot_other _ _ (by omega), ← hp, slotLoaded]
  · exact regBit_congr _ _ (rd_markSlot_other d k b (by simp only; omega))

/-- Setting the counters of a slot leaves every page's word. -/
theorem rd_pageStatus_zeroCtrs (d : Dev) (k : Nat) {p : Nat} (h : p < 64) :
    rd (setRxCtr (setTxCtr d k 0) k 0) (CIP_PAGEp_STATUS p) = rd d (CIP_PAGEp_STATUS p) :=
  (rd_wrPair_other _ _ (by simp only; omega) (by simp only; omega)).trans
    (rd_wrPair_other _ _ (by simp only; omega) (by simp only; omega))

theorem slotLoaded_startSlot_other (d : Dev) {j k : Nat} (s : KeySlot) (b : Bool) (h : j ≠ k) (hj : j < 256) :
    slotLoaded (startSlot d k s b) j = slotLoaded d j := by
  rw [startSlot, slotLoaded_markSlot_other _ _ h]
  exact regBit_congr _ _ (rd_pageStatus_zeroCtrs (setSlot d k s) k (by omega))

/-- The marks of a slot stand in no counter. -/
theorem rdPair_markSlot (d : Dev) (k : Nat) (b : Bool) {lo hi : Reg} (hlo : lo.ofs ≠ (CIP_PAGEp_STATUS (k / 4)).ofs)
    (hhi : hi.ofs ≠ (CIP_PAGEp_STATUS (k / 4)).ofs) : rdPair (markSlot d k b) lo hi = rdPair d lo hi :=
  rdPair_congr (rd_markSlot_other d k b hlo) (rd_markSlot_other d k b hhi)

theorem rxCtr_setRxCtr_same (d : Dev) (k : Nat) {n : Nat} (h : n < 2 ^ 64) : rxCtr (setRxCtr d k n) k = n :=
  rdPair_wrPair_same d (by simp only; omega) h

theorem txCtr_setTxCtr_same (d : Dev) (k : Nat) {n : Nat} (h : n < 2 ^ 64) : txCtr (setTxCtr d k n) k = n :=
  rdPair_wrPair_same d (by simp only; omega) h

theorem txCtr_setRxCtr (d : Dev) (k n : Nat) : txCtr (setRxCtr d k n) k = txCtr d k :=
  rdPair_congr (rd_wrPair_other _ _ (by simp only; omega) (by simp only; omega))
    (rd_wrPair_other _ _ (by simp only; omega) (by simp only; omega))

theorem rxCtr_startSlot (d : Dev) (k : Nat) (s : KeySlot) (b : Bool) : rxCtr (startSlot d k s b) k = 0 :=
  (rdPair_markSlot _ k b (by simp only; omega) (by simp only; omega)).trans (rxCtr_setRxCtr_same _ k (by decide))

theorem txCtr_startSlot (d : Dev) (k : Nat) (s : KeySlot) (b : Bool) : txCtr (startSlot d k s b) k = 0 :=
  (rdPair_markSlot _ k b (by simp only; omega) (by simp only; omega)).trans
    ((txCtr_setRxCtr _ k 0).trans (txCtr_setTxCtr_same _ k (by decide)))

/-! ### LOAD and CLEAR (R188) -/

theorem slotLoad_admitted {m : Master} {k : Fin 256} {d : Dev} (ha : admits d m (CIP_SLOT_CTL k).ofs = true) :
    slotLoad m k 0 d = loadSlot d k := by
  rw [slotLoad, slotCtl, guarded_admits _ ha]
  rfl

theorem slotClear_admitted {m : Master} {k : Fin 256} {d : Dev} (ha : admits d m (CIP_SLOT_CTL k).ofs = true) :
    slotClear m k 0 d = clearSlot d k := by
  rw [slotClear, slotCtl, guarded_admits _ ha]
  rfl

theorem loadSlot_of_written {d : Dev} {k : Nat} (hw : (keySlot d k).written = 0xFF) (ht : txOfGcm d k = false) :
    loadSlot d k = installKey d k (keySlot d k).words := if_neg (by simp [hw, ht])

theorem loadSlot_refused {d : Dev} {k : Nat} (h : (keySlot d k).written ≠ 0xFF ∨ txOfGcm d k = true) :
    loadSlot d k = refuseKey d := if_pos h

theorem clearSlot_of_not_tx {d : Dev} {k : Nat} (h : txOfGcm d k = false) : clearSlot d k = emptySlot d k := if_neg (by simp [h])

theorem clearSlot_refused {d : Dev} {k : Nat} (h : txOfGcm d k = true) : clearSlot d k = refuseKey d := if_pos h

/-! ### SALT and the bootstrap keys (R188, R192) -/

theorem saltWrite_admitted {m : Master} {p : Fin 64} {d : Dev} (value : Word) (ha : admits d m (CIP_PAGEp_SALT p).ofs = true) :
    saltWrite m p value d = if pageLoaded d p then refuseKey d else wr d (CIP_PAGEp_SALT p) value := guarded_admits _ ha

/-- A word of a line's bootstrap key is held, and marked as written. -/
def bootWordHeld (d : Dev) (x : Line) (j : Nat) (value : Word) : Dev :=
  { d with bootKeys := d.bootKeys.set x { d.bootKeys.get x with
      words := putWord (d.bootKeys.get x).words j value, written := (d.bootKeys.get x).written ||| (1 <<< j) } }

/-- The field that shows a line's bootstrap key as written. -/
def bootSetFld (x : Line) : Fld := if x = .a then CIP_STATUS_BOOT_SET_A else CIP_STATUS_BOOT_SET_B

theorem bootKeyWrite_admitted {m : Master} {x : Line} {j : Fin 8} {d : Dev} (value : Word) (ha : admits d m (bootReg x j).ofs = true) :
    bootKeyWrite m x j value d = if (d.bootKeys.get x).written ||| (1 <<< j.val) = 0xFF
      then setFlag (bootWordHeld d x j value) (bootSetFld x) true else bootWordHeld d x j value := guarded_admits _ ha

theorem bootKeys_bootWordHeld (d : Dev) (x : Line) (j : Nat) (value : Word) : (bootWordHeld d x j value).bootKeys.get x
    = { d.bootKeys.get x with words := putWord (d.bootKeys.get x).words j value, written := (d.bootKeys.get x).written ||| (1 <<< j) } :=
  PerLine.get_set_same _ _ _

theorem bootSet_setFlag (d : Dev) (x : Line) : bootSet (setFlag d (bootSetFld x) true) x = true := by
  cases x with
  | a => exact flag_setFlag_same d (f := CIP_STATUS_BOOT_SET_A) true (by decide) (by decide)
  | b => exact flag_setFlag_same d (f := CIP_STATUS_BOOT_SET_B) true (by decide) (by decide)

/-- The word is held, and where it was the last of eight BOOT_SET is set. -/
theorem bootKeyWrite_spec {m : Master} {x : Line} {j : Fin 8} {d : Dev} (value : Word) (ha : admits d m (bootReg x j).ofs = true) :
    ((bootKeyWrite m x j value d).bootKeys.get x).words = putWord (d.bootKeys.get x).words j value
      ∧ (((bootKeyWrite m x j value d).bootKeys.get x).written = 0xFF → bootSet (bootKeyWrite m x j value d) x = true) := by
  have hheld := bootKeys_bootWordHeld d x j value
  rw [bootKeyWrite_admitted value ha]
  split
  · rw [setFlag_bootKeys, hheld]
    exact ⟨rfl, fun _ => bootSet_setFlag _ _⟩
  · next hw =>
    rw [hheld]
    exact ⟨rfl, fun h => absurd h hw⟩

/-! ### The counter limit (R186, R465) -/

/-- A pair of full width takes the nearest value of its span. -/
theorem rdPair_checkPair (d : Dev) (writer : Nat) (u : UnitRow) {lo hi : Reg} {low high : Nat} (h : lo.ofs ≠ hi.ofs)
    (hl : low ≤ high) (hh : high < 2 ^ 64) :
    rdPair (checkPair d writer u lo hi 32 low high) lo hi = clampNat low high (rdPair d lo hi) := by
  obtain ⟨-, hle, -, -, -⟩ := clampNat_spec (rdPair d lo hi) hl
  have hval : rdn d lo + 0x100000000 * (rdn d hi % 2 ^ 32) = rdPair d lo hi := by
    rw [rdPair, Nat.mod_eq_of_lt (show rdn d hi < 2 ^ 32 from (rd d hi).isLt)]
  simp only [checkPair, hval]
  exact rdPair_wrPair_same _ h (by omega)

theorem ctrLimit_exhaust (d : Dev) (k : Nat) : ctrLimit (exhaust d k) = ctrLimit d := by
  unfold exhaust
  split
  · rfl
  · exact raiseCip_ctrLimit _ _

theorem ctrLimit_checkExhausted (d : Dev) (k : Nat) : ctrLimit (checkExhausted d k) = ctrLimit d := by
  unfold checkExhausted
  split
  · exact ctrLimit_exhaust d k
  · rfl

theorem ctrLimit_limitWritten (d : Dev) (m : Master) : ctrLimit (limitWritten d m)
    = clampNat 0x100000 0xFFFFFFFFFFFFFFFF (rdPair d CIP_CTR_LIMIT_LO CIP_CTR_LIMIT_HI) := by
  rw [← rdPair_checkPair d m (unitAt 21) (by decide) (by decide) (by decide)]
  exact forEach_keeps (P := fun e => ctrLimit e = _) (fun e k he => (ctrLimit_checkExhausted e k).trans he) (List.range 256) rfl

theorem rdPair_wr_hi (d : Dev) {lo hi : Reg} (value : Word) (h : lo.ofs ≠ hi.ofs) :
    rdPair (wr d hi value) lo hi = value.toNat * 0x100000000 + rdn d lo := by
  rw [rdPair, rdn, rdn, rd_wr_same, rd_wr_other _ _ h, ← rdn]
  omega

theorem ctrLimitWrite_lo {m : Master} {d : Dev} (value : Word) (ha : admits d m CIP_CTR_LIMIT_LO.ofs = true) :
    ctrLimitWrite m false value d = wr d CIP_CTR_LIMIT_LO value := guarded_admits _ ha

theorem ctrLimitWrite_hi {m : Master} {d : Dev} (value : Word) (ha : admits d m CIP_CTR_LIMIT_HI.ofs = true) :
    ctrLimitWrite m true value d = limitWritten (wr d CIP_CTR_LIMIT_HI value) m := guarded_admits _ ha

/-- With the HI word the limit takes the written value, clamped to its span. -/
theorem ctrLimit_ctrLimitWrite_hi {m : Master} {d : Dev} (value : Word) (ha : admits d m CIP_CTR_LIMIT_HI.ofs = true) :
    ctrLimit (ctrLimitWrite m true value d)
      = clampNat 0x100000 0xFFFFFFFFFFFFFFFF (value.toNat * 0x100000000 + rdn d CIP_CTR_LIMIT_LO) := by
  rw [ctrLimitWrite_hi value ha, ctrLimit_limitWritten, rdPair_wr_hi d value (by decide)]

/-! ### A page that changes owner (R187) -/

/-- The slot is EMPTY. -/
def slotEmpty (k : Nat) (d : Dev) : Prop := keySlot d k = KeySlot.empty ∧ slotLoaded d k = false

theorem slotEmpty_emptySlot (d : Dev) {k : Nat} : slotEmpty k (emptySlot d k) :=
  ⟨keySlot_startSlot_same d k KeySlot.empty false, slotLoaded_markSlot_same _ k false⟩

theorem slotEmpty.emptySlot {d : Dev} {k : Nat} (h : slotEmpty k d) (hk : k < 256) (j : Nat) : slotEmpty k (emptySlot d j) := by
  by_cases hj : k = j
  · subst hj
    exact slotEmpty_emptySlot d
  · obtain ⟨hs, hl⟩ := h
    exact ⟨(keySlot_startSlot_other d _ _ hj).trans hs, (slotLoaded_startSlot_other d _ _ hj hk).trans hl⟩

/-- Bits below a field read as before. -/
theorem regBit_setFld_below (d : Dev) {f : Fld} {c : Nat} (v : Nat) (h : c < f.lo) : regBit (setFld d f v) f.reg c = regBit d f.reg c := by
  simp only [regBit, rd_setFld_same, putBits, maskBits]
  by_cases hc : c < 32
  · simp [h, hc]
  · simp [BitVec.getLsbD_of_ge _ _ (Nat.le_of_not_lt hc)]

/-- The page's owner shows above its slots' marks. -/
theorem slotEmpty.setOwner {d : Dev} {p s : Nat} (h : slotEmpty (4 * p + s) d) (hs : s < 4) (v : Nat) :
    slotEmpty (4 * p + s) (setFld d (CIP_PAGEp_STATUS_OWNER p) v) := by
  obtain ⟨hslot, hload⟩ := h
  refine ⟨hslot, ?_⟩
  have hp : (4 * p + s) / 4 = p := by omega
  have hb : (4 * p + s) % 4 < 24 := by omega
  rw [slotLoaded, hp] at hload ⊢
  exact (regBit_setFld_below d (f := CIP_PAGEp_STATUS_OWNER p) v hb).trans hload

/-- A page's SALT says nothing of its slots. -/
theorem slotEmpty.setSalt {d : Dev} {k : Nat} (h : slotEmpty k d) (p n : Nat) : slotEmpty k (wrn d (CIP_PAGEp_SALT p) n) := by
  obtain ⟨hslot, hload⟩ := h
  have hstatus : (CIP_PAGEp_STATUS (k / 4)).ofs ≠ (CIP_PAGEp_SALT p).ofs := by simp only; omega
  exact ⟨hslot, (regBit_congr _ _ (rd_wrn_other d n hstatus)).trans hload⟩

theorem slotEmpty_clearPage (d : Dev) {p s : Nat} (hp : p < 64) (hs : s < 4) : slotEmpty (4 * p + s) (clearPage d p) := by
  have hk : 4 * p + s < 256 := by omega
  exact slotEmpty.setSalt (forEach_reaches (P := slotEmpty (4 * p + s)) (a := s) (fun _ i he => he.emptySlot hk (4 * p + i))
    (fun e => slotEmpty_emptySlot e) (List.mem_range.mpr hs) d) p 0

theorem keyOwnerChange_of_change {m : Master} {p : Fin 56} {value : Word} {d : Dev} (ha : admits d m (HIF_KPp_OWN p).ofs = true)
    (hc : fld (storeAt d m (HIF_KPp_OWN p).ofs value) (HIF_KPp_OWN_OWNER p) ≠ fld d (HIF_KPp_OWN_OWNER p)) :
    keyOwnerChange m p value d = setFld (clearPage (storeAt d m (HIF_KPp_OWN p).ofs value) (p + 8)) (CIP_PAGEp_STATUS_OWNER (p + 8))
      (fld (storeAt d m (HIF_KPp_OWN p).ofs value) (HIF_KPp_OWN_OWNER p)) := by
  rw [keyOwnerChange, guarded_admits _ ha]
  exact if_neg hc

theorem rd_salt_clearPage (d : Dev) (p : Nat) : rd (clearPage d p) (CIP_PAGEp_SALT p) = 0 := rd_wrn_same _ _ _

/-! ### The statement -/

/-- Settles O43: each write is its guarded effect, and what that leaves is said by the lemma of a slot that starts anew, of the
checked pair and of the page that is cleared. -/
theorem keysAndSlots : Obligations.KeysAndSlots := by
  refine ⟨fun m k s ha => ⟨fun hw ht => ⟨_, exec_slotLoad m k 0 s, ?_⟩, fun h => ?_, fun ht => ⟨_, exec_slotClear m k 0 s, ?_⟩,
      fun ht => ?_⟩,
    refuseKey_spec, fun m p value s ha => ⟨fun hl => ?_, fun hl => ?_⟩,
    fun m x j value s ha => ⟨_, exec_bootKeyWrite m x j value s, bootKeyWrite_spec value ha⟩,
    fun m value s => ⟨fun ha => ⟨?_, rfl⟩, fun ha => ⟨_, exec_ctrLimitWrite m true value s, ?_⟩⟩,
    fun m p value s ha hc => ⟨_, exec_keyOwnerChange m p value s, ?_⟩⟩
  · rw [slotLoad_admitted ha, loadSlot_of_written hw ht, installKey_eq]
    have hslot := keySlot_startSlot_same s.dev k { KeySlot.empty with key := (keySlot s.dev k).words } true
    exact ⟨congrArg KeySlot.key hslot, slotLoaded_markSlot_same _ _ _, slotExhausted_markSlot_same _ _ _, txCtr_startSlot _ _ _ _,
      rxCtr_startSlot _ _ _ _, desync_markSlot_same _ _ _, congrArg KeySlot.written hslot⟩
  · rw [exec_slotLoad, slotLoad_admitted ha, loadSlot_refused h]
  · rw [slotClear_admitted ha, clearSlot_of_not_tx ht]
    exact (slotEmpty_emptySlot s.dev).symm
  · rw [exec_slotClear, slotClear_admitted ha, clearSlot_refused ht]
  · rw [exec_saltWrite, saltWrite_admitted value ha, if_pos hl]
  · rw [exec_saltWrite, saltWrite_admitted value ha, if_neg (by simp [hl])]
  · rw [exec_ctrLimitWrite, ctrLimitWrite_lo value ha]
  · have hv : value.toNat * 0x100000000 + rdn s.dev CIP_CTR_LIMIT_LO ≤ 0xFFFFFFFFFFFFFFFF := by
      have hlo : rdn s.dev CIP_CTR_LIMIT_LO < 2 ^ 32 := (rd s.dev CIP_CTR_LIMIT_LO).isLt
      have hhi := value.isLt
      omega
    rw [ctrLimit_ctrLimitWrite_hi value ha]
    obtain ⟨hlow, hhigh, hkept, -, -⟩ := clampNat_spec (lo := 0x100000) (hi := 0xFFFFFFFFFFFFFFFF)
      (value.toNat * 0x100000000 + rdn s.dev CIP_CTR_LIMIT_LO) (by decide)
    exact ⟨hlow, Nat.lt_succ_of_le hhigh, fun h => hkept h hv⟩
  · rw [keyOwnerChange_of_change ha hc]
    refine ⟨fun i => (slotEmpty_clearPage _ (by omega) i.isLt).setOwner i.isLt _, ?_⟩
    rw [rd_setFld_other _ _ (by simp only; omega)]
    exact rd_salt_clearPage _ _

end Sys2Proof.Machine
end

section
/-!
PROOFS. The counters of the key slots: what an engine's mismatch and an exhausted slot leave of them (R185, R186, R194, R195).
-/

namespace Sys2Proof.Machine

/-! ### What leaves the slots' words -/

/-- The words of the key slots' blocks (R197). -/
def isSlotWord (o : Nat) : Bool := decide (0x804000 ≤ o ∧ o < 0x808000)

theorem isSlotWord_false {o : Nat} (h : o < 0x804000 ∨ 0x808000 ≤ o) : isSlotWord o = false := by
  simp only [isSlotWord, decide_eq_false_iff_not]
  omega

theorem ne_of_isSlotWord {o p : Nat} (h : isSlotWord o = true) (hp : isSlotWord p = false) : o ≠ p := by
  rintro rfl
  exact Bool.noConfusion (h.symm.trans hp)

/-- The words of the key slots are in e as in d. -/
def keepsSlots (d e : Dev) : Prop := ∀ q : Reg, isSlotWord q.ofs = true → rd e q = rd d q

theorem keepsSlots.refl (d : Dev) : keepsSlots d d := fun _ _ => rfl

theorem keepsSlots.trans {d e g : Dev} (h : keepsSlots d e) (h' : keepsSlots e g) : keepsSlots d g := fun q hq => (h' q hq).trans (h q hq)

/-- A register outside the slots' blocks is written. -/
theorem keepsSlots.wr {d e : Dev} (h : keepsSlots d e) {r : Reg} (hr : isSlotWord r.ofs = false) (w : Word) : keepsSlots d (wr e r w) :=
  fun q hq => (rd_wr_other e w (ne_of_isSlotWord hq hr)).trans (h q hq)

/-- An update that leaves the register words alone. -/
theorem keepsSlots.of_regs {d e g : Dev} (h : keepsSlots d e) (hr : g.regs = e.regs) : keepsSlots d g :=
  fun q hq => (congrArg (sget q.rst · q.ofs) hr).trans (h q hq)

theorem keepsSlots.countBy {d e : Dev} (h : keepsSlots d e) {r : Reg} (hr : isSlotWord r.ofs = false) (n : Nat) :
    keepsSlots d (countBy e r n) := h.wr hr _

theorem keepsSlots.count {d e : Dev} (h : keepsSlots d e) {r : Reg} (hr : isSlotWord r.ofs = false) : keepsSlots d (count e r) := h.wr hr _

theorem keepsSlots.setFld {d e : Dev} (h : keepsSlots d e) {f : Fld} (hr : isSlotWord f.reg.ofs = false) (v : Nat) :
    keepsSlots d (setFld e f v) := h.wr hr _

theorem keepsSlots.setFlag {d e : Dev} (h : keepsSlots d e) {f : Fld} (hr : isSlotWord f.reg.ofs = false) (b : Bool) :
    keepsSlots d (setFlag e f b) := h.wr hr _

theorem keepsSlots.setRegBit {d e : Dev} (h : keepsSlots d e) {r : Reg} (hr : isSlotWord r.ofs = false) (b : Nat) (v : Bool) :
    keepsSlots d (setRegBit e r b v) := h.wr hr _

theorem keepsSlots.setSlot {d e : Dev} (h : keepsSlots d e) (k : Nat) (s : KeySlot) : keepsSlots d (setSlot e k s) := h

theorem keepsSlots.raiseEvt {d e : Dev} (h : keepsSlots d e) {u : EvtUnit} (hu : isSlotWord u.evt.ofs = false) (b : Nat) :
    keepsSlots d (raiseEvt e u b) :=
  h.trans fun _ hq => rd_raiseEvt_other e u b (ne_of_isSlotWord hq hu) (ne_of_isSlotWord hq rfl) (ne_of_isSlotWord hq rfl)

theorem keepsSlots.raiseCip {d e : Dev} (h : keepsSlots d e) (b : Nat) : keepsSlots d (raiseCip e b) := h.raiseEvt rfl b

theorem keepsSlots.rxCtr {d e : Dev} (h : keepsSlots d e) {k : Nat} (hk : k < 256) : rxCtr e k = rxCtr d k :=
  rdPair_congr (h _ (by simp only [isSlotWord, decide_eq_true_eq]; omega)) (h _ (by simp only [isSlotWord, decide_eq_true_eq]; omega))

theorem keepsSlots.txCtr {d e : Dev} (h : keepsSlots d e) {k : Nat} (hk : k < 256) : txCtr e k = txCtr d k :=
  rdPair_congr (h _ (by simp only [isSlotWord, decide_eq_true_eq]; omega)) (h _ (by simp only [isSlotWord, decide_eq_true_eq]; omega))

/-- What every turn of a loop keeps, for the elements of its list, the loop keeps. -/
theorem forEach_keeps_mem {α : Type} {P : Dev → Prop} {f : Dev → α → Dev} {l : List α} {d : Dev} (hf : ∀ e, ∀ a ∈ l, P e → P (f e a))
    (h : P d) : P (forEach l f d) := by
  induction l generalizing d with
  | nil => exact h
  | cons a t ih => exact ih (fun e b hb => hf e b (List.mem_cons_of_mem a hb)) (hf d a List.mem_cons_self h)

/-! ### A slice that service ends (R378, R383) -/

theorem isSlotWord_target {t : Nat} (h : t < 48) : isSlotWord (BST_TGTt_STATUS t).ofs = false := isSlotWord_false (by simp only; omega)

theorem isSlotWord_targetUnits : ∀ t < 48, ∀ u ∈ targetUnits t, isSlotWord (HDR_BST (unitAt u).base).ofs = false := by decide

theorem isSlotWord_engine {n : Nat} (h : n < 18) : isSlotWord (engineReg n).ofs = false := by
  unfold engineReg
  split
  · exact isSlotWord_false (by simp only; omega)
  · exact isSlotWord_false (by simp only; omega)

theorem keepsSlots.setVerdict {d e : Dev} (h : keepsSlots d e) {t : Nat} (ht : t < 48) (v : Nat) : keepsSlots d (setVerdict e t v) := by
  have htarget := h.setFld (f := BST_TGTt_STATUS_VERDICT t) (isSlotWord_target ht) v
  unfold Machine.setVerdict
  refine forEach_keeps_mem (fun _ u hu hg => hg.setFld (f := HDR_BST_VERDICT (unitAt u).base) (isSlotWord_targetUnits t ht u hu) _) ?_
  split
  · next hc => exact htarget.setFld (f := ⟨engineReg t, 29, 27⟩) (isSlotWord_engine hc) v
  · exact htarget

theorem keepsSlots.recordSlice {d e : Dev} (h : keepsSlots d e) (verdict cause : Nat) : keepsSlots d (recordSlice e verdict cause) := by
  unfold Machine.recordSlice
  exact ((((h.setFld rfl _).setFld rfl _).setFlag rfl _).setFld rfl _).setFld rfl _

theorem keepsSlots.sliceService {d e : Dev} (h : keepsSlots d e) {t : Nat} (ht : t < 48) : keepsSlots d (sliceService e t) := by
  unfold Machine.sliceService
  split
  · next hs =>
    have hsig := ((h.of_regs (g := { e with freeCount := e.freeCount + 2 }) rfl).wr (r := BST_LAST_SIG_LO) rfl
      (BitVec.ofNat 32 (Config.freeValue e.freeCount))).wr (r := BST_LAST_SIG_HI) rfl (BitVec.ofNat 32 (Config.freeValue (e.freeCount + 1)))
    have hcut := ((hsig.count (r := BST_ABORTED) rfl).recordSlice vdAborted cutService).setVerdict ht vdAborted
    unfold abortSlice
    simp only [hs]
    exact ((hcut.of_regs rfl).count (r := BST_SERVICE_ABORT) rfl).setFld (f := BST_STATUS_PHASE) rfl 3
  · exact h

/-! ### The engines (R194, R195) -/

theorem keepsSlots.syncEngines {d e : Dev} (h : keepsSlots d e) : keepsSlots d (syncEngines e) := by
  have hset := (h.setFld (f := CIP_STATUS_ENGINES_OK) rfl (workingEngines e).length).setFlag (f := CIP_STATUS_CAPACITY_LOW) rfl
    (decide ((workingEngines e).length < 8))
  unfold Machine.syncEngines
  simp only
  split
  · exact hset.raiseCip _
  · exact hset

theorem isSlotWord_spareUsed (n : Nat) : isSlotWord (spareUsed n).reg.ofs = false := by
  unfold spareUsed
  split
  · rfl
  · rfl

theorem keepsSlots.engineOut {d e : Dev} (h : keepsSlots d e) {n : Nat} (hn : n < 18) : keepsSlots d (engineOut e n) := by
  have hout := (h.setFld (f := ⟨engineReg n, 31, 30⟩) (isSlotWord_engine hn) 2).raiseCip cpRetired
  unfold Machine.engineOut
  simp only
  split
  · exact hout.setFlag rfl true
  · exact hout

theorem keepsSlots.spareAsked {d e : Dev} (h : keepsSlots d e) (n : Nat) : keepsSlots d (spareAsked e n) := by
  refine keepsSlots.sliceService ?_ (Nat.lt_trans (spareOf_lt n) (by decide))
  split
  · exact h.setFlag (isSlotWord_spareUsed n) false
  · exact h

theorem keepsSlots.spareTaken {d e : Dev} (h : keepsSlots d e) (n : Nat) : keepsSlots d (spareTaken e n) := by
  unfold Machine.spareTaken
  split
  · exact ((h.setFld (f := ⟨engineReg (spareOf n), 31, 30⟩) (isSlotWord_engine (spareOf_lt n)) 0).setFlag
      (isSlotWord_spareUsed n) true).setFlag rfl true
  · exact h.syncEngines

theorem keepsSlots.retireEngine {d e : Dev} (h : keepsSlots d e) {n : Nat} (hn : n < 18) : keepsSlots d (retireEngine e n) := by
  rw [retireEngine_eq]
  split
  · exact h
  split
  · exact h.engineOut hn
  · exact ((h.engineOut hn).spareAsked n).spareTaken n

theorem keepsSlots.faultEngine {d e : Dev} (h : keepsSlots d e) {n : Nat} (hn : n < 18) : keepsSlots d (faultEngine e n) := by
  have hcount : keepsSlots d (countFld e ⟨engineReg n, 7, 0⟩) := h.setFld (isSlotWord_engine hn) _
  unfold Machine.faultEngine
  simp only
  split
  · exact hcount.retireEngine hn
  · exact hcount

/-- A mismatch is counted, raised and attributed outside the slots' blocks. -/
theorem keepsSlots.engineMismatch {d e : Dev} (h : keepsSlots d e) (m : EngineMiss) : keepsSlots d (engineMismatch e m) := by
  have hraised := (h.count (r := CIP_MISMATCH) rfl).raiseCip cpMismatch
  have hfirst : keepsSlots d (if m.odd = 1 then Machine.raiseCip (Machine.count e CIP_MISMATCH) cpMismatch
      else Machine.faultEngine (Machine.raiseCip (Machine.count e CIP_MISMATCH) cpMismatch) m.first) := by
    split
    · exact hraised
    · exact hraised.faultEngine m.first.isLt
  unfold Machine.engineMismatch
  simp only
  split
  · exact hraised
  split
  · exact hfirst
  · exact hfirst.faultEngine m.second.isLt

/-! ### Slots that are exhausted, and units that fail (R185, R186) -/

theorem isSlotWord_pageStatus {k : Nat} (h : k < 256) : isSlotWord (CIP_PAGEp_STATUS (k / 4)).ofs = false :=
  isSlotWord_false (by simp only; omega)

theorem keepsSlots.exhaust {d e : Dev} (h : keepsSlots d e) {k : Nat} (hk : k < 256) : keepsSlots d (exhaust e k) := by
  unfold Machine.exhaust
  split
  · exact h
  · exact (h.setRegBit (isSlotWord_pageStatus hk) _ _).raiseCip _

theorem keepsSlots.checkExhausted {d e : Dev} (h : keepsSlots d e) {k : Nat} (hk : k < 256) : keepsSlots d (checkExhausted e k) := by
  unfold Machine.checkExhausted
  split
  · exact h.exhaust hk
  · exact h

theorem keepsSlots.authFail {d e : Dev} (h : keepsSlots d e) {k : Nat} (hk : k < 256) : keepsSlots d (authFail e k) := by
  have hpage : isSlotWord (CIP_PAGEp_AUTH_FAIL (k / 4)).ofs = false := isSlotWord_false (by simp only; omega)
  have hcounted := ((h.count (r := CIP_AUTH_FAIL) rfl).count hpage).raiseCip cpAuthFail
  unfold Machine.authFail
  simp only
  split
  · exact ((hcounted.setSlot k _).setRegBit (isSlotWord_pageStatus hk) _ _).raiseCip _
  · exact hcounted.setSlot k _

end Sys2Proof.Machine
end

section
/-!
PROOFS. Counter values of received and sent units, and the head end's key messages (R181, R182, R184 to R186, R191, R192, R199, R403).
-/

namespace Sys2Proof.Machine

/-! ### A unit that deciphers (R181, R185) -/

/-- The counter that authenticates is one of the candidates, and below the limit. -/
theorem findCounter_bounds {d : Dev} {key : BitVec 256} {p hdr : Nat} {ct tag : List Byte} {n e c : Nat}
    (h : findCounter d key p hdr ct tag n e = some c) : e ≤ c ∧ c < e + n ∧ c < ctrLimit d := by
  induction n generalizing e with
  | zero => simp [findCounter] at h
  | succ n ih =>
    rw [findCounter] at h
    split at h
    · simp at h
    · next hlim =>
      split at h
      · simp only [Option.some.injEq] at h
        omega
      · obtain ⟨hlow, hwin, hbelow⟩ := ih h
        omega

/-- Slot k has deciphered a unit under counter value c: it expects the next one, skipped values and the unit are counted, its failures
in a row end, and at the limit it is exhausted. -/
def unitDeciphered (d : Dev) (k c : Nat) : Dev :=
  let d' := countBy (setRxCtr d k (c + 1)) CIP_RX_SKIPPED (c - rxCtr d k)
  checkExhausted (count (setSlot d' k { keySlot d' k with fails := 0 }) CIP_UNITS_RX) k

theorem rxCtr_unitDeciphered (d : Dev) {k c : Nat} (hk : k < 256) (hc : c + 1 < 2 ^ 64) : rxCtr (unitDeciphered d k c) k = c + 1 := by
  have hkeeps : keepsSlots (setRxCtr d k (c + 1)) (unitDeciphered d k c) :=
    ((((keepsSlots.refl _).countBy rfl _).setSlot k _).count rfl).checkExhausted hk
  exact (hkeeps.rxCtr hk).trans (rxCtr_setRxCtr_same d k hc)

/-- A unit is dropped, and no slot's counters change, or it deciphers under a counter value that is found. -/
theorem decipher_cases (d : Dev) {p slot : Nat} (hdr : Nat) (payload : List Byte) (mis : Option EngineMiss) (o : Bool)
    (hk : 4 * p + slot < 256) :
    ((decipher d p slot hdr payload mis o).2 = none ∧ keepsSlots d (decipher d p slot hdr payload mis o).1)
      ∨ ∃ key ct tag c bs, findCounter d key p hdr ct tag (fld d CIP_CTL_RX_WIN) (rxCtr d (4 * p + slot)) = some c
        ∧ decipher d p slot hdr payload mis o = (unitDeciphered d (4 * p + slot) c, some bs) := by
  have hd := keepsSlots.refl d
  unfold decipher
  simp only
  split_ifs
  · exact .inl ⟨rfl, hd.count rfl⟩
  · exact .inl ⟨rfl, hd.count rfl⟩
  · exact .inl ⟨rfl, hd.count rfl⟩
  · exact .inl ⟨rfl, hd.count rfl⟩
  · split
    · exact .inl ⟨rfl, hd.authFail hk⟩
    · next c hc =>
      split
      · exact .inl ⟨rfl, hd.engineMismatch _⟩
      · exact .inr ⟨_, _, _, c, _, hc, rfl⟩

/-! ### A frame that is ciphered (R182, R186) -/

theorem length_formUnits (d : Dev) (key : Option (BitVec 256 × Nat × Nat)) (tag : Nat) (oam time : Bool) (c : Nat)
    (pieces : List (List Byte)) : (formUnits d key tag oam time c pieces).length = pieces.length := by
  induction pieces generalizing c with
  | nil => rfl
  | cons b t ih => exact congrArg Nat.succ (ih (c + 1))

/-- Slot k has ciphered n units: its transmit counter has moved past a value for each, they are counted, and at the limit the slot is
exhausted. -/
def unitsCiphered (d : Dev) (k n : Nat) : Dev := countBy (checkExhausted (setTxCtr d k (txCtr d k + n)) k) CIP_UNITS_TX n

theorem txCtr_unitsCiphered (d : Dev) {k n : Nat} (hk : k < 256) (hn : txCtr d k + n < 2 ^ 64) :
    txCtr (unitsCiphered d k n) k = txCtr d k + n := by
  have hkeeps : keepsSlots (setTxCtr d k (txCtr d k + n)) (unitsCiphered d k n) := ((keepsSlots.refl _).checkExhausted hk).countBy rfl _
  exact (hkeeps.txCtr hk).trans (txCtr_setTxCtr_same d k hn)

/-- A frame of a ciphering page that yields units has a counter value below the limit for each. -/
theorem cipUp_some {d : Dev} {page tag : Nat} {oam time : Bool} {pieces : List (List Byte)} {us : List LineUnit}
    (hg : pageGcm d page = true) (h : (cipUp d page tag oam time pieces []).2 = some us) {k : Nat}
    (hk : k = 4 * page + fldA d (CIP_PAGEp_TXSEL_TX_SLOT page)) :
    us.length = pieces.length ∧ txCtr d k + pieces.length ≤ ctrLimit d
      ∧ (cipUp d page tag oam time pieces []).1 = unitsCiphered d k pieces.length := by
  subst hk
  unfold cipUp at h ⊢
  simp only [hg, Bool.not_true, Bool.false_eq_true, if_false, List.take_nil, List.filter_nil, List.isEmpty_nil, if_true] at h ⊢
  split_ifs at h ⊢ with hpage hload hexh hlim heng
  simp only [Option.some.injEq] at h
  exact ⟨h ▸ length_formUnits .., Nat.not_lt.mp hlim, rfl⟩

/-! ### How a key message is taken (R191, R199) -/

theorem exec_keyWrap (x : Line) (h : LmmHead) (page : BitVec 6) (slot : BitVec 2) (w : List Byte) (s : State) :
    exec (.keyWrap x h page slot w) s = .next (s.withDev (keyWrap x h page slot w s.dev)) := rfl

theorem exec_keySwitch (x : Line) (h : LmmHead) (page : BitVec 6) (slot : BitVec 2) (n : BitVec 48) (s : State) :
    exec (.keySwitch x h page slot n) s = .next (s.withDev (keySwitch x h page slot n s.dev)) := rfl

theorem exec_keyClear (x : Line) (h : LmmHead) (page : BitVec 6) (slot : BitVec 2) (s : State) :
    exec (.keyClear x h page slot) s = .next (s.withDev (keyClear x h page slot s.dev)) := rfl

theorem exec_ownerLock (x : Line) (h : LmmHead) (flags : BitVec 8) (s : State) :
    exec (.ownerLock x h flags) s = .next (s.withDev (ownerLock x h flags s.dev)) := rfl

section Taking
variable {d : Dev} {x : Line} {h : LmmHead}

/-- A bad message is no further violation. -/
theorem foreignAgain_bad (page : Nat) : foreignAgain d x h page true = d := if_neg (by simp)

theorem foreignAgain_of_not_frozen (page : Nat) (bad : Bool) (hm : isFrozen d (mgmtMaster x) = false) : foreignAgain d x h page bad = d :=
  if_neg (by simp [hm])

/-- A key message that breaks its rules is counted. -/
theorem takeKey_bad {page type : Nat} {bad : Bool} {wait : Option Instr} {again : Dev → Dev} {f : Dev → Option Dev}
    (hf : forLine d x h = true) (hb : bad = true) :
    takeLmm (foreignAgain d x h page bad) x h type bad wait again f = count d (RNG_Lx_LMM_BAD x.ix) := by
  subst hb
  rw [foreignAgain_bad, takeLmm_bad hf rfl]

/-- A line that takes a key message: it is for the line and no repetition, its channel is not frozen, firmware runs, and no key mirror
rejects it. -/
structure takesKeys (d : Dev) (x : Line) (h : LmmHead) : Prop where
  forLine : forLine d x h = true
  addressed : notAddressed h = false
  mirror : mirrorRejects d x = false
  channel : isFrozen d (mgmtMaster x) = false
  firmware : coresHalted d = false
  once : repeated d x h = false

/-- A key message that a line takes, and that keeps its rules, is executed. -/
theorem takesKeys.executed (hk : takesKeys d x h) {page type : Nat} {bad : Bool} {wait : Option Instr} {again : Dev → Dev}
    {f : Dev → Option Dev} {d' : Dev} (hb : bad = false) (hd : f d = some d') :
    takeLmm (foreignAgain d x h page bad) x h type bad wait again f = Machine.executed d' x h := by
  rw [foreignAgain_of_not_frozen page bad hk.channel]
  exact takeLmm_executed hk.forLine hk.once hb (.inr hk.channel) (.inr hk.firmware) hd

/-- Without KEY_MIRROR a message acts on the page that it names. -/
theorem keyPages_of_no_mirror (page : Nat) (hm : flag d SDL_CFG_KEY_MIRROR = false) : keyPages d x page = [page] := if_neg (by simp [hm])

theorem mirrorSalt_self (d : Dev) (page : Nat) : mirrorSalt d page page = d := if_pos (.inl rfl)

theorem txOfGcm_of_not_tx {k : Nat} (h : isTxSlot d k = false) : txOfGcm d k = false := by simp [txOfGcm, h]

end Taking

/-! ### The messages (R191, R192, R403) -/

section Messages
variable {d : Dev} {x : Line} {h : LmmHead} {page : BitVec 6} {slot : BitVec 2}

theorem keyWrap_mirrored (w : List Byte) (hf : forLine d x h = true) (hm : mirrorRejects d x = true) :
    keyWrap x h page slot w d = count d (RNG_Lx_LMM_BAD x.ix) := by
  unfold keyWrap
  exact takeKey_bad hf (by simp [hm])

theorem keySwitch_mirrored (n : BitVec 48) (hf : forLine d x h = true) (hm : mirrorRejects d x = true) :
    keySwitch x h page slot n d = count d (RNG_Lx_LMM_BAD x.ix) := by
  unfold keySwitch
  exact takeKey_bad hf (by simp [hm])

theorem keyClear_mirrored (hf : forLine d x h = true) (hm : mirrorRejects d x = true) :
    keyClear x h page slot d = count d (RNG_Lx_LMM_BAD x.ix) := by
  unfold keyClear
  exact takeKey_bad hf (by simp [hm])

theorem keyWrap_foreign (w : List Byte) (hk : takesKeys d x h) (hp : 8 ≤ page.toNat) :
    keyWrap x h page slot w d = executed (freeze d (mgmtMaster x) causeLmm page.toNat) x h := by
  unfold keyWrap
  exact hk.executed (by simp [hk.addressed, hk.mirror, Nat.not_lt.mpr hp]) (if_pos hp)

theorem keyWrap_unwrapped {w : List Byte} {key : BitVec 256} (hk : takesKeys d x h) (hp : page.toNat < 8)
    (hm : flag d SDL_CFG_KEY_MIRROR = false) (ht : isTxSlot d (4 * page.toNat + slot.toNat) = false)
    (hu : unwrapped d x page.toNat w = some key) :
    keyWrap x h page slot w d = executed (installKey d (4 * page.toNat + slot.toNat) key) x h := by
  unfold keyWrap
  refine hk.executed (by simp [hk.addressed, hk.mirror, ht, hu]) ?_
  simp [Nat.not_le.mpr hp, hu, keyPages_of_no_mirror _ hm, forEach, mirrorSalt_self, txOfGcm_of_not_tx ht]

theorem keyWrap_not_unwrapped {w : List Byte} (hk : takesKeys d x h) (hp : page.toNat < 8) (hu : unwrapped d x page.toNat w = none) :
    keyWrap x h page slot w d = count d (RNG_Lx_LMM_BAD x.ix) := by
  unfold keyWrap
  exact takeKey_bad hk.forLine (by simp [hp, hk.firmware, hk.once, hu])

theorem keyClear_empties (hk : takesKeys d x h) (hp : page.toNat < 8) (hm : flag d SDL_CFG_KEY_MIRROR = false)
    (ht : isTxSlot d (4 * page.toNat + slot.toNat) = false) :
    keyClear x h page slot d = executed (emptySlot d (4 * page.toNat + slot.toNat)) x h := by
  unfold keyClear
  refine hk.executed (by simp [hk.addressed, hk.mirror, ht]) ?_
  simp [Nat.not_le.mpr hp, keyPages_of_no_mirror _ hm, forEach, clearSlot_of_not_tx (txOfGcm_of_not_tx ht)]

theorem keySwitch_posts (n : BitVec 48) (hk : takesKeys d x h) (hp : page.toNat < 8) (hm : flag d SDL_CFG_KEY_MIRROR = false)
    (hl : slotLoaded d (4 * page.toNat + slot.toNat) = true) :
    keySwitch x h page slot n d = executed (postSwitch d x [page.toNat] slot.toNat n.toNat) x h := by
  unfold keySwitch
  refine hk.executed (by simp [hk.addressed, hk.mirror, hl]) ?_
  simp [Nat.not_le.mpr hp, keyPages_of_no_mirror _ hm]

/-- A lock message without a reserved flag sets the line's lock as its first flag says. -/
theorem ownerLock_sets {flags : BitVec 8} (hk : takesKeys d x h) (hr : flags &&& 0xFE = 0) :
    ownerLock x h flags d = executed (setHeLock d x (flags.getLsbD 0)) x h :=
  takeLmm_executed hk.forLine hk.once (by rw [hk.addressed, hr]; rfl) (.inr hk.channel) (.inr hk.firmware) rfl

end Messages

/-! ### The statement -/

/-- Settles O44: a unit deciphers under a candidate within the window or leaves every counter, a ciphered frame has a value for each of
its units, and each key message is counted or executed by its lemma. -/
theorem countersOnlyRise : Obligations.CountersOnlyRise := by
  refine ⟨fun d p slot hdr payload mis o hlim hp hs => ?_, fun d page tag oam time pieces us hlim hp hg h k hk => ?_,
    fun x h page slot s hf ht => ⟨fun hm w n => ?_, fun hm hfrz hc hr => ?_⟩⟩
  · have hk : 4 * p + slot < 256 := by omega
    rcases decipher_cases d hdr payload mis o hk with ⟨hnone, hkeeps⟩ | ⟨key, ct, tag, c, bs, hc, heq⟩
    · exact ⟨fun bs hbs => by simp [hnone] at hbs, fun _ => hkeeps.rxCtr hk⟩
    · obtain ⟨hlow, hwin, hbelow⟩ := findCounter_bounds hc
      rw [heq, rxCtr_unitDeciphered d hk (by omega)]
      exact ⟨fun _ _ => by omega, fun hnone => by simp at hnone⟩
  · obtain ⟨hlen, hroom, heq⟩ := cipUp_some hg h hk
    have hslot : fldA d (CIP_PAGEp_TXSEL_TX_SLOT page) < 4 := BitVec.isLt _
    rw [heq, txCtr_unitsCiphered d (by omega) (by omega), hlen]
    exact ⟨rfl, rfl, hroom⟩
  · rw [exec_keyWrap, exec_keySwitch, exec_keyClear, keyWrap_mirrored w hf hm, keySwitch_mirrored n hf hm, keyClear_mirrored hf hm]
    exact ⟨rfl, rfl, rfl⟩
  · have hk : takesKeys s.dev x h := ⟨hf, notAddressed_of_ne ht, hm, hfrz, hc, hr⟩
    refine ⟨fun hp w => ?_, fun hp hmir => ⟨fun w htx => ?_, fun htx => ?_, fun n hl => ?_⟩, ?_, ?_⟩
    · rw [exec_keyWrap, keyWrap_foreign w hk hp]
    · rw [exec_keyWrap]
      split
      · next key hu => rw [keyWrap_unwrapped hk hp hmir htx hu]
      · next hu => rw [keyWrap_not_unwrapped hk hp hu]
    · rw [exec_keyClear, keyClear_empties hk hp hmir htx]
    · rw [exec_keySwitch, keySwitch_posts n hk hp hmir hl]
    · rw [exec_ownerLock, ownerLock_sets hk (by decide)]
      rfl
    · rw [exec_ownerLock, ownerLock_sets hk (by decide)]
      rfl

end Sys2Proof.Machine
end

section
/-!
PROOFS. The words of the server lanes: what a slice that service ends, an event, and a MAC that is held leave of them (R214, R223, R228, R302).
-/

namespace Sys2Proof.Machine

/-! ### Words that an update leaves alone -/

/-- The register words at the offsets in w are in e as in d. -/
def keepsWords (w : Nat → Prop) (d e : Dev) : Prop := ∀ q : Reg, w q.ofs → rd e q = rd d q

section Words

variable {w : Nat → Prop} {d e : Dev}

theorem keepsWords.refl (w : Nat → Prop) (d : Dev) : keepsWords w d d := fun _ _ => rfl

theorem keepsWords.trans {g : Dev} (h : keepsWords w d e) (h' : keepsWords w e g) : keepsWords w d g := fun q hq => (h' q hq).trans (h q hq)

/-- Fewer words are kept as well. -/
theorem keepsWords.mono {v : Nat → Prop} (h : keepsWords w d e) (hv : ∀ o, v o → w o) : keepsWords v d e := fun q hq => h q (hv _ hq)

/-- A register outside the words is written. -/
theorem keepsWords.wr (h : keepsWords w d e) {r : Reg} (hr : ¬ w r.ofs) (n : Word) : keepsWords w d (wr e r n) := by
  refine fun q hq => (rd_wr_other e n ?_).trans (h q hq)
  rintro ho
  exact hr (ho ▸ hq)

/-- An update that leaves the register words alone. -/
theorem keepsWords.of_regs {g : Dev} (h : keepsWords w d e) (hr : g.regs = e.regs) : keepsWords w d g :=
  fun q hq => (congrArg (sget q.rst · q.ofs) hr).trans (h q hq)

theorem keepsWords.countBy (h : keepsWords w d e) {r : Reg} (hr : ¬ w r.ofs) (n : Nat) : keepsWords w d (countBy e r n) := h.wr hr _

theorem keepsWords.count (h : keepsWords w d e) {r : Reg} (hr : ¬ w r.ofs) : keepsWords w d (count e r) := h.wr hr _

theorem keepsWords.setFld (h : keepsWords w d e) {f : Fld} (hr : ¬ w f.reg.ofs) (v : Nat) : keepsWords w d (setFld e f v) := h.wr hr _

theorem keepsWords.setFlag (h : keepsWords w d e) {f : Fld} (hr : ¬ w f.reg.ofs) (b : Bool) : keepsWords w d (setFlag e f b) := h.wr hr _

theorem keepsWords.raiseFn (h : keepsWords w d e) {f : Nat} (hf : ¬ w (HIF_FNf_EVT f).ofs) (b : Nat) : keepsWords w d (raiseFn e f b) :=
  h.trans fun _ hq => rd_raiseFn_other e f b fun ho => hf (ho ▸ hq)

theorem keepsWords.raiseEvt (h : keepsWords w d e) {u : EvtUnit} (hu : ¬ w u.evt.ofs) (h1 : ¬ w HIF_EVT_UNIT.ofs)
    (h0 : ¬ w (HIF_FNf_EVT 0).ofs) (b : Nat) : keepsWords w d (raiseEvt e u b) :=
  h.trans fun _ hq => rd_raiseEvt_other e u b (fun ho => hu (ho ▸ hq)) (fun ho => h1 (ho ▸ hq)) fun ho => h0 (ho ▸ hq)

theorem keepsWords.emit (h : keepsWords w d e) (o : Out) : keepsWords w d (emit e o) := h

theorem keepsWords.setRing (h : keepsWords w d e) (r : Nat) (f : RingHw → RingHw) : keepsWords w d (setRing e r f) := h

theorem keepsWords.setMac (h : keepsWords w d e) (k : Nat) (f : MacHw → MacHw) : keepsWords w d (setMac e k f) := h

theorem keepsWords.setLane (h : keepsWords w d e) (k : Nat) (f : LaneHw → LaneHw) : keepsWords w d (setLane e k f) := h

theorem keepsWords.setQueues (h : keepsWords w d e) (qs : Sparse (List BufFrame)) : keepsWords w d { e with queues := qs } := h

theorem keepsWords.startTimer (h : keepsWords w d e) (t : TimerId) (n : Nat) : keepsWords w d (startTimer e t n) := h

theorem keepsWords.dropTimer (h : keepsWords w d e) (t : TimerId) : keepsWords w d (dropTimer e t) := h

theorem keepsWords.rd (h : keepsWords w d e) {q : Reg} (hq : w q.ofs) : rd e q = rd d q := h q hq

theorem keepsWords.rdn (h : keepsWords w d e) {q : Reg} (hq : w q.ofs) : rdn e q = rdn d q := congrArg BitVec.toNat (h q hq)

theorem keepsWords.fld (h : keepsWords w d e) {f : Fld} (hf : w f.reg.ofs) : fld e f = fld d f := fld_congr f (h _ hf)

theorem keepsWords.flag (h : keepsWords w d e) {f : Fld} (hf : w f.reg.ofs) : flag e f = flag d f := flag_congr f (h _ hf)

end Words

/-! ### The words of the lanes -/

/-- The words of the lanes in SLN, and which references are OK (R224). -/
def isSlnWord (o : Nat) : Prop := 0x900000 ≤ o ∧ o < 0xa00000 ∧ (o % 0x10000 = 0x40 ∨ 0x1000 ≤ o % 0x10000)

/-- The words of the lanes in SLN, and the status words of their MACs (R224, R234). -/
def isLaneWord (o : Nat) : Prop := isSlnWord o ∨ (0xa00000 ≤ o ∧ o < 0xb00000 ∧ 0x1000 ≤ o % 0x10000 ∧ o % 0x100 = 0x10)

theorem isLaneWord_window {o : Nat} (h : isLaneWord o) : 0x900000 ≤ o ∧ o < 0xb00000 ∧ 0x40 ≤ o % 0x10000 := by
  unfold isLaneWord isSlnWord at h
  omega

theorem not_isLaneWord_of_window {o : Nat} (h : o < 0x900000 ∨ 0xb00000 ≤ o ∨ o % 0x10000 < 0x40) : ¬ isLaneWord o := by
  intro hw
  have := isLaneWord_window hw
  omega

/-- The window of lane k in SLN. -/
theorem isSlnWord_lane {k a : Nat} (hk : k < 64) (ha : a < 0x100) : isSlnWord (0x901000 + a + 0x10000 * (k / 4) + 0x100 * (k % 4)) := by
  unfold isSlnWord
  omega

theorem isSlnWord_status {k : Nat} (hk : k < 64) : isSlnWord (SLN_LANEl_STATUS (k / 4) (k % 4)).ofs := isSlnWord_lane hk (a := 0x10) (by decide)

theorem isSlnWord_refs {q : Nat} (hq : q < 16) : isSlnWord (SLN_REFS_STATUS q).ofs := by
  simp only [isSlnWord]
  omega

theorem isLaneWord_of_sln {o : Nat} (h : isSlnWord o) : isLaneWord o := .inl h

theorem not_isLaneWord_slnEvt (q : Nat) (hq : q < 16) : ¬ isLaneWord (SLN_EVT q).ofs := by
  simp only [isLaneWord, isSlnWord]
  omega

/-! ### A slice that service ends (R378, R383) -/

theorem not_isLaneWord_target {t : Nat} (h : t < 48) : ¬ isLaneWord (BST_TGTt_STATUS t).ofs :=
  not_isLaneWord_of_window (.inl (by simp only; omega))

theorem window_targetUnits : ∀ t < 48, ∀ u ∈ targetUnits t, (HDR_BST (unitAt u).base).ofs % 0x10000 < 0x40 := by decide

theorem not_isLaneWord_engine {n : Nat} (h : n < 18) : ¬ isLaneWord (engineReg n).ofs := by
  refine not_isLaneWord_of_window (.inl ?_)
  unfold engineReg
  split
  · simp only
    omega
  · simp only
    omega

section Lanes

variable {d e : Dev}

theorem keepsLanes_setVerdict (h : keepsWords isLaneWord d e) {t : Nat} (ht : t < 48) (v : Nat) :
    keepsWords isLaneWord d (setVerdict e t v) := by
  have htarget := h.setFld (f := BST_TGTt_STATUS_VERDICT t) (not_isLaneWord_target ht) v
  unfold setVerdict
  refine forEach_keeps_mem (fun _ u hu hg => hg.setFld (f := HDR_BST_VERDICT (unitAt u).base)
    (not_isLaneWord_of_window (.inr (.inr (window_targetUnits t ht u hu)))) _) ?_
  split
  · next hc => exact htarget.setFld (f := ⟨engineReg t, 29, 27⟩) (not_isLaneWord_engine hc) v
  · exact htarget

/-- The registers of the schedule of self-tests. -/
theorem not_isLaneWord_bst {o : Nat} (h : o < 0x140000) : ¬ isLaneWord o := not_isLaneWord_of_window (.inl (by omega))

theorem keepsLanes_recordSlice (h : keepsWords isLaneWord d e) (verdict cause : Nat) :
    keepsWords isLaneWord d (recordSlice e verdict cause) := by
  have hb {o : Nat} (ho : o < 0x140000) := not_isLaneWord_bst ho
  unfold recordSlice
  exact ((((h.setFld (hb (by decide)) _).setFld (hb (by decide)) _).setFlag (hb (by decide)) _).setFld (hb (by decide)) _).setFld
    (hb (by decide)) _

theorem keepsLanes_sliceService (h : keepsWords isLaneWord d e) {t : Nat} (ht : t < 48) : keepsWords isLaneWord d (sliceService e t) := by
  unfold sliceService
  split
  · next hs =>
    have hb {o : Nat} (ho : o < 0x140000) := not_isLaneWord_bst ho
    have hsig := ((h.of_regs (g := { e with freeCount := e.freeCount + 2 }) rfl).wr (r := BST_LAST_SIG_LO) (hb (by decide))
      (BitVec.ofNat 32 (Config.freeValue e.freeCount))).wr (r := BST_LAST_SIG_HI) (hb (by decide))
      (BitVec.ofNat 32 (Config.freeValue (e.freeCount + 1)))
    have hcut := keepsLanes_setVerdict (keepsLanes_recordSlice (hsig.count (r := BST_ABORTED) (hb (by decide))) vdAborted cutService) ht vdAborted
    unfold abortSlice
    simp only [hs]
    exact ((hcut.of_regs rfl).count (r := BST_SERVICE_ABORT) (hb (by decide))).setFld (f := BST_STATUS_PHASE) (hb (by decide)) 3
  · exact h

theorem keepsLanes_raiseEvt (h : keepsWords isLaneWord d e) {u : EvtUnit} (hu : ¬ isLaneWord u.evt.ofs) (b : Nat) :
    keepsWords isLaneWord d (raiseEvt e u b) :=
  h.raiseEvt hu (not_isLaneWord_of_window (.inr (.inl (by decide)))) (not_isLaneWord_of_window (.inr (.inl (by decide)))) b

theorem keepsLanes_raiseSln (h : keepsWords isLaneWord d e) {k : Nat} (hk : k < 64) (b : Nat) : keepsWords isLaneWord d (raiseSln e k b) :=
  keepsLanes_raiseEvt h (u := evSLN (k / 4)) (not_isLaneWord_slnEvt _ (by omega)) b

/-! ### Completions of a ring (R331, R332) -/

/-- The registers of the host interface. -/
theorem not_isLaneWord_host {o : Nat} (h : 0xf00000 ≤ o) : ¬ isLaneWord o := not_isLaneWord_of_window (.inr (.inl (by omega)))

theorem keepsLanes_signalVector (h : keepsWords isLaneWord d e) (f v : Nat) : keepsWords isLaneWord d (signalVector e f v) := by
  obtain ⟨p, o, heq⟩ := signalVector_spec e f v
  exact h.of_regs (by rw [heq])

theorem keepsLanes_syncFull (h : keepsWords isLaneWord d e) (c : Nat) : keepsWords isLaneWord d (syncFull e c) :=
  (h.setFlag (f := HIF_Rr_STATUS_CQ_FULL c) (not_isLaneWord_host (by simp only; omega)) (cqFull e c)).setRing c _

theorem keepsLanes_showIndex (h : keepsWords isLaneWord d e) (c : Nat) : keepsWords isLaneWord d (showIndex e c) :=
  h.setFld (f := HIF_Rr_STATUS_INDEX c) (not_isLaneWord_host (by simp only; omega)) _

/-- The write of a completion into a CQ ring, before COAL_CNT is looked at. -/
def completionWritten (d : Dev) (c : Nat) (e : List Byte) : Dev :=
  let p := (ringHw d c).dev
  let d := emit d (.hostWrite (ringOwner d c) (slotAddr d c p) (withPhase e (p / ringSize d c % 2 == 0)))
  setRing d c (fun h => { h with dev := (p + 1) % 0x20000, unsignalled := h.unsignalled + 1, firstAt := some (h.firstAt.getD d.elapsed) })

theorem postCq_cases (d : Dev) (c : Nat) (bs : List Byte) : ∃ g, g = syncFull (showIndex (completionWritten d c bs) c) c
    ∧ (postCq d c bs = signalCq g c ∨ postCq d c bs = g) := ⟨_, rfl, ite_eq_or_eq _ _ _⟩

theorem keepsLanes_postCq (h : keepsWords isLaneWord d e) (c : Nat) (bs : List Byte) : keepsWords isLaneWord d (postCq e c bs) := by
  obtain ⟨g, hg, heq⟩ := postCq_cases e c bs
  have hwritten : keepsWords isLaneWord d (completionWritten e c bs) := (h.emit _).setRing c _
  have hkeep : keepsWords isLaneWord d g := hg ▸ keepsLanes_syncFull (keepsLanes_showIndex hwritten c) c
  rcases heq with heq | heq
  · rw [heq]
    exact keepsLanes_signalVector (hkeep.setRing c _) _ _
  · rwa [heq]

theorem keepsLanes_settleFrom (n : Nat) (h : keepsWords isLaneWord d e) (r : Nat) : keepsWords isLaneWord d (settleFrom n e r) := by
  induction n generalizing e with
  | zero => exact h
  | succ n ih =>
    unfold settleFrom
    split
    · split
      · split
        · exact ih (keepsLanes_postCq (h.setRing r _) _ _)
        · exact h
      · exact h
    · exact h

theorem keepsLanes_txResult (h : keepsWords isLaneWord d e) (r index status : Nat) (stamp : Option Nat) :
    keepsWords isLaneWord d (txResult e r index status stamp) := by
  unfold txResult
  split
  · unfold closeEntry settle
    split
    · exact keepsLanes_settleFrom _ (h.setRing r _) r
    · exact h.setRing r _
  · exact h

/-! ### A MAC that is held (R228, R302) -/

/-- The Syncs that wait for their launch leave their queue, and the MAC where it holds one. -/
def syncsLeft (d : Dev) (p : Nat) (inMac : Bool) : Dev :=
  let q := syncQueue d p
  let d := { d with queues := sput [] d.queues q ((sget [] d.queues q).filter (fun f => !f.launch.isSome)) }
  if inMac then setMac d p (fun m => { m with tx := none }) else d

theorem skipSync_cases (d : Dev) (p : Nat) : skipSync d p = d
    ∨ ∃ b n, skipSync d p = raiseEvt (countBy (syncsLeft d p b) (TTD_PORTp_SYNC_SKIP p) n) evTTD 7 :=
  (ite_eq_or_eq _ _ _).imp_right fun h => ⟨_, _, h⟩

theorem keepsLanes_skipSync (h : keepsWords isLaneWord d e) {p : Nat} (hp : p < 64) : keepsWords isLaneWord d (skipSync e p) := by
  rcases skipSync_cases e p with heq | ⟨b, n, heq⟩
  · rwa [heq]
  · rw [heq]
    have hleft : keepsWords isLaneWord d (syncsLeft e p b) := by
      unfold syncsLeft
      cases b
      · exact h.setQueues _
      · exact (h.setQueues _).setMac p (fun m => { m with tx := none })
    exact keepsLanes_raiseEvt (hleft.countBy (not_isLaneWord_of_window (.inl (by simp only; omega))) n)
      (not_isLaneWord_of_window (.inl (by decide))) 7

theorem keepsLanes_cutFrame (h : keepsWords isLaneWord d e) {k : Nat} (hk : k < 64) : keepsWords isLaneWord d (cutFrame e k) := by
  have habort : ¬ isLaneWord (MAC_LANEl_TX_ABORT (k / 4) (k % 4)).ofs := by
    simp only [isLaneWord, isSlnWord]
    omega
  unfold cutFrame
  split
  · simp only
    split
    · exact keepsLanes_txResult ((h.count habort).setMac k _) _ _ _ _
    · exact (h.count habort).setMac k _
  · exact h

end Lanes

/-- Where TX_HOLD is shown, nothing that follows it touches a word of the lanes. -/
theorem syncHold_keeps (d : Dev) {k : Nat} (hk : k < 64) :
    keepsWords isLaneWord (setFlag d (MAC_LANEl_STATUS_TX_HOLD (k / 4) (k % 4)) (txHold d k)) (syncHold d k) := by
  unfold syncHold
  simp only
  split
  · exact keepsLanes_cutFrame (keepsLanes_skipSync (keepsWords.refl _ _) hk) hk
  · exact keepsWords.refl _ _

theorem syncHold_keeps_sln (d : Dev) {k : Nat} (hk : k < 64) : keepsWords isSlnWord d (syncHold d k) := by
  refine ((keepsWords.refl isSlnWord d).setFlag ?_ _).trans ((syncHold_keeps d hk).mono fun _ => .inl)
  simp only [isSlnWord]
  omega

theorem txHold_syncHold (d : Dev) {k : Nat} (hk : k < 64) : flag (syncHold d k) (MAC_LANEl_STATUS_TX_HOLD (k / 4) (k % 4)) = txHold d k := by
  rw [(syncHold_keeps d hk).flag ?_]
  · exact flag_setFlag_same _ _ (by simp) (by simp)
  · simp only [isLaneWord]
    omega

end Sys2Proof.Machine
end

section
/-!
PROOFS. The states of a server lane: what a change of state shows and what it leaves of the lane's words (R214, R215).
-/

namespace Sys2Proof.Machine

/-! ### A change of state (R214) -/

/-- A field of lane k's status word below its two states. -/
def isShown (k : Nat) (f : Fld) : Prop := f.reg = SLN_LANEl_STATUS (k / 4) (k % 4) ∧ f.lo ≤ f.hi ∧ f.hi < 24

/-- The words of SLN that a change of lane k's state leaves alone. -/
def isSteadyWord (k o : Nat) : Prop :=
  isSlnWord o ∧ o ≠ (SLN_LANEl_STATUS (k / 4) (k % 4)).ofs ∧ o ≠ (SLN_LANEl_LINK_DOWN (k / 4) (k % 4)).ofs

/-- The state is written, with what a squelched lane and one that leaves ACTIVE note. -/
def laneStateWritten (d : Dev) (k st : Nat) : Dev :=
  let was := laneState d k
  let d := if st ≤ lnRefWait then dropCheckLock d (laneChecker k) else d
  let d := if was = lnActive then setLane d k (fun h => { h with left' := some d.elapsed }) else d
  let d := setFld (setFld d (SLN_LANEl_STATUS_PREV_STATE (k / 4) (k % 4)) was) (SLN_LANEl_STATUS_STATE (k / 4) (k % 4)) st
  setFld d ⟨SLN_QUAD_STATE (k / 4), 4 * (k % 4) + 3, 4 * (k % 4)⟩ st

/-- A change into or out of ACTIVE is told. -/
def laneStateTold (d : Dev) (k was st : Nat) : Dev :=
  if st = lnActive then dropTimer (raiseSln d k (k % 4)) (.portFlush k)
  else if was = lnActive then
    startTimer (raiseSln (count d (SLN_LANEl_LINK_DOWN (k / 4) (k % 4))) k (4 + k % 4)) (.portFlush k) (fld d TMG_CFG_FLUSH_MS * ticksPerMs)
  else d

section States

variable {d : Dev} {k st : Nat}

theorem setLaneState_of_same (h : laneState d k = st) : setLaneState d k st = d := if_pos h

theorem setLaneState_of_ne (h : laneState d k ≠ st) :
    setLaneState d k st = syncHold (laneStateTold (laneStateWritten d k st) k (laneState d k) st) k := if_neg h

theorem not_isSlnWord_quadState (k : Nat) : ¬ isSlnWord (SLN_QUAD_STATE (k / 4)).ofs := by
  simp only [isSlnWord]
  omega

theorem laneStateTold_keeps (d : Dev) (hk : k < 64) (was st : Nat) :
    keepsWords (fun o => isLaneWord o ∧ o ≠ (SLN_LANEl_LINK_DOWN (k / 4) (k % 4)).ofs) d (laneStateTold d k was st) := by
  have hraise (e : Dev) (b : Nat) := (keepsLanes_raiseSln (keepsWords.refl isLaneWord e) hk b).mono
    (v := fun o => isLaneWord o ∧ o ≠ (SLN_LANEl_LINK_DOWN (k / 4) (k % 4)).ofs) fun _ ho => ho.1
  unfold laneStateTold
  split
  · exact (hraise d _).dropTimer _
  · split
    · exact (((keepsWords.refl _ d).count fun ho => ho.2 rfl).trans (hraise _ _)).startTimer _ _
    · exact keepsWords.refl _ d

theorem rdn_laneStateTold_linkDown (d : Dev) (hk : k < 64) (hst : st ≠ lnActive) :
    rdn (laneStateTold d k lnActive st) (SLN_LANEl_LINK_DOWN (k / 4) (k % 4))
      = min (rdn d (SLN_LANEl_LINK_DOWN (k / 4) (k % 4)) + 1) 0xFFFFFFFF := by
  have hraise := keepsLanes_raiseSln (keepsWords.refl isLaneWord (count d (SLN_LANEl_LINK_DOWN (k / 4) (k % 4)))) hk (4 + k % 4)
  rw [laneStateTold, if_neg hst, if_pos rfl, ← rdn_count_same]
  exact hraise.rdn (isLaneWord_of_sln (isSlnWord_lane hk (a := 0x40) (by decide)))

theorem laneState_laneStateWritten (d : Dev) (hst : st < 16) : laneState (laneStateWritten d k st) k = st := by
  rw [laneState, laneStateWritten, fld_setFld_reg _ _ (by simp only; omega), fld_setFld_same _ _ (by simp) (by simp)]
  exact Nat.mod_eq_of_lt hst

/-- What the lane notes when it leaves ACTIVE touches no register. -/
theorem laneStateWritten_eq (d : Dev) (k : Nat) (hst : lnRefWait < st) : ∃ e, e.regs = d.regs ∧ laneStateWritten d k st
    = setFld (setFld (setFld e (SLN_LANEl_STATUS_PREV_STATE (k / 4) (k % 4)) (laneState d k)) (SLN_LANEl_STATUS_STATE (k / 4) (k % 4)) st)
      ⟨SLN_QUAD_STATE (k / 4), 4 * (k % 4) + 3, 4 * (k % 4)⟩ st := by
  unfold laneStateWritten
  rw [if_neg (by omega)]
  refine ⟨_, ?_, rfl⟩
  split
  · rfl
  · rfl

theorem laneStateWritten_keeps (d : Dev) (hst : lnRefWait < st) :
    keepsWords (isSteadyWord k) d (laneStateWritten d k st) := by
  obtain ⟨e, hregs, heq⟩ := laneStateWritten_eq d k hst
  rw [heq]
  exact ((((keepsWords.refl _ d).of_regs hregs).setFld (fun ho => ho.2.1 rfl) _).setFld (fun ho => ho.2.1 rfl) _).setFld
    (fun ho => not_isSlnWord_quadState k ho.1) _

theorem rdn_laneStateWritten_linkDown (d : Dev) (hst : lnRefWait < st) :
    rdn (laneStateWritten d k st) (SLN_LANEl_LINK_DOWN (k / 4) (k % 4)) = rdn d (SLN_LANEl_LINK_DOWN (k / 4) (k % 4)) := by
  obtain ⟨e, hregs, heq⟩ := laneStateWritten_eq d k hst
  rw [heq, rdn, rd_setFld_other _ _ (by simp only; omega), rd_setFld_other _ _ (by simp only; omega), rd_setFld_other _ _ (by simp only; omega)]
  exact rdn_congr hregs _

theorem fld_laneStateWritten (d : Dev) {f : Fld} (hst : lnRefWait < st) (hf : isShown k f) :
    fld (laneStateWritten d k st) f = fld d f := by
  obtain ⟨e, hregs, heq⟩ := laneStateWritten_eq d k hst
  obtain ⟨hr, hl, hh⟩ := hf
  rw [heq, fld_setFld_reg _ _ (by rw [hr]; simp only; omega), fld_setFld_apart _ _ ⟨hr, .inl (by simp only; omega), hl, by simp⟩,
    fld_setFld_apart _ _ ⟨hr, .inl hh, hl, by simp⟩]
  exact fld_congr f (congrArg (sget f.reg.rst · f.reg.ofs) hregs)

/-- A lane shows the state that it takes. -/
theorem laneState_setLaneState (d : Dev) (hk : k < 64) (hst : st < 16) : laneState (setLaneState d k st) k = st := by
  by_cases h : laneState d k = st
  · rw [setLaneState_of_same h, h]
  · have hword := isSlnWord_status hk
    rw [setLaneState_of_ne h, laneState, (syncHold_keeps_sln _ hk).fld hword,
      (laneStateTold_keeps _ hk _ _).fld ⟨isLaneWord_of_sln hword, by simp only; omega⟩]
    exact laneState_laneStateWritten d hst

/-- A change of state leaves what the lane was told and what it resolved. -/
theorem setLaneState_keeps (d : Dev) (hk : k < 64) (hst : lnRefWait < st) : keepsWords (isSteadyWord k) d (setLaneState d k st) := by
  by_cases h : laneState d k = st
  · rw [setLaneState_of_same h]
    exact keepsWords.refl _ d
  · rw [setLaneState_of_ne h]
    exact ((laneStateWritten_keeps d hst).trans ((laneStateTold_keeps _ hk _ _).mono fun _ ho => ⟨.inl ho.1, ho.2.2⟩)).trans
      ((syncHold_keeps_sln _ hk).mono fun _ ho => ho.1)

theorem fld_setLaneState (d : Dev) {f : Fld} (hk : k < 64) (hst : lnRefWait < st) (hf : isShown k f) :
    fld (setLaneState d k st) f = fld d f := by
  by_cases h : laneState d k = st
  · rw [setLaneState_of_same h]
  · have hword : isSlnWord f.reg.ofs := hf.1 ▸ isSlnWord_status hk
    have hdown : f.reg.ofs ≠ (SLN_LANEl_LINK_DOWN (k / 4) (k % 4)).ofs := by
      rw [hf.1]
      simp only
      omega
    rw [setLaneState_of_ne h, (syncHold_keeps_sln _ hk).fld hword, (laneStateTold_keeps _ hk _ _).fld ⟨isLaneWord_of_sln hword, hdown⟩]
    exact fld_laneStateWritten d hst hf

/-- A lane that leaves ACTIVE counts it. -/
theorem rdn_setLaneState_linkDown (hk : k < 64) (hwas : laneState d k = lnActive) (hst : lnRefWait < st) (hne : st ≠ lnActive) :
    rdn (setLaneState d k st) (SLN_LANEl_LINK_DOWN (k / 4) (k % 4)) = min (rdn d (SLN_LANEl_LINK_DOWN (k / 4) (k % 4)) + 1) 0xFFFFFFFF := by
  have hword : isSlnWord (SLN_LANEl_LINK_DOWN (k / 4) (k % 4)).ofs := isSlnWord_lane hk (a := 0x40) (by decide)
  rw [setLaneState_of_ne (hwas ▸ hne.symm), (syncHold_keeps_sln _ hk).rdn hword, hwas, rdn_laneStateTold_linkDown _ hk hne,
    rdn_laneStateWritten_linkDown d hst]

end States

/-! ### Indications, cause and taps -/

/-- The indications that a lane which starts anew clears. -/
def lockFlds (k : Nat) : List Fld :=
  let (q, l) := (k / 4, k % 4)
  [SLN_LANEl_STATUS_SIGNAL q l, SLN_LANEl_STATUS_CDR_LOCK q l, SLN_LANEl_STATUS_AM_LOCK q l, SLN_LANEl_STATUS_BLOCK_LOCK q l,
    SLN_LANEl_STATUS_HI_BER q l, SLN_LANEl_STATUS_LF q l, SLN_LANEl_STATUS_RF q l]

theorem clearLocks_eq (d : Dev) (k : Nat) :
    clearLocks d k = forEach (lockFlds k) (fun d f => setFlag d f false) (setLane d k (fun h => { h with headers := [] })) := rfl

theorem dropLaneTimers_regs (d : Dev) (k : Nat) : (dropLaneTimers d k).regs = d.regs := rfl

theorem fld_dropLaneTimers (d : Dev) (k : Nat) (f : Fld) : fld (dropLaneTimers d k) f = fld d f := rfl

theorem fld_clearLocks (d : Dev) {k : Nat} {f : Fld} (hf : ∀ g ∈ lockFlds k, apart f g) : fld (clearLocks d k) f = fld d f := by
  rw [clearLocks_eq]
  exact forEach_keeps_mem (P := fun e => fld e f = fld d f) (fun e g hg he => (fld_setFlag_apart e _ (hf g hg)).trans he) rfl

theorem laneState_clearLocks (d : Dev) (k : Nat) : laneState (clearLocks d k) k = laneState d k :=
  fld_clearLocks d (by simp [lockFlds, apart])

theorem blockLock_clearLocks (d : Dev) (k : Nat) : flag (clearLocks d k) (SLN_LANEl_STATUS_BLOCK_LOCK (k / 4) (k % 4)) = false := by
  simp only [clearLocks_eq, lockFlds, forEach, List.foldl]
  rw [flag_setFlag_apart _ _ (by simp [apart]), flag_setFlag_apart _ _ (by simp [apart]), flag_setFlag_apart _ _ (by simp [apart]),
    flag_setFlag_same _ _ (by simp) (by simp)]

theorem clearLocks_keeps (d : Dev) (k : Nat) : keepsWords (fun o => o ≠ (SLN_LANEl_STATUS (k / 4) (k % 4)).ofs) d (clearLocks d k) := by
  have hreg : ∀ g ∈ lockFlds k, g.reg = SLN_LANEl_STATUS (k / 4) (k % 4) := by simp [lockFlds]
  rw [clearLocks_eq]
  exact forEach_keeps_mem (fun e g hg he => keepsWords.setFlag he (by simp [hreg g hg]) false) ((keepsWords.refl _ d).setLane k _)

theorem setLastFail_of_cause (d : Dev) (k : Nat) {cause : Nat} (h : 0 < cause) :
    setLastFail d k cause = setFld d (SLN_LANEl_STATUS_LAST_FAIL (k / 4) (k % 4)) cause := if_neg (by omega)

theorem setLastFail_keeps (d : Dev) (k cause : Nat) :
    keepsWords (fun o => o ≠ (SLN_LANEl_STATUS (k / 4) (k % 4)).ofs) d (setLastFail d k cause) := by
  unfold setLastFail
  split
  · exact keepsWords.refl _ d
  · exact (keepsWords.refl _ d).setFld (fun ho => ho rfl) cause

theorem laneState_setLastFail (d : Dev) (k cause : Nat) : laneState (setLastFail d k cause) k = laneState d k := by
  unfold setLastFail
  split
  · rfl
  · exact fld_setFld_apart _ _ (by simp [apart])

theorem tapsWritten_keeps (d : Dev) (k : Nat) : keepsWords (fun o => o ≠ (SLN_LANEl_TAPS (k / 4) (k % 4)).ofs) d (tapsWritten d k) :=
  ((((keepsWords.refl _ d).setLane k fun h => { h with trained := false }).setFld
    (f := SLN_LANEl_TAPS_AMP (k / 4) (k % 4)) (fun ho => ho rfl) _).setFld
    (f := SLN_LANEl_TAPS_PRE (k / 4) (k % 4)) (fun ho => ho rfl) _).setFld
    (f := SLN_LANEl_TAPS_POST (k / 4) (k % 4)) (fun ho => ho rfl) _

end Sys2Proof.Machine
end

section
/-!
PROOFS. The bring-up of a server lane: DETECT and its way out, the pages, block lock, and what each command of the bring-up does (R215 to R219).
-/

namespace Sys2Proof.Machine

/-! ### Entering REF_WAIT and DETECT (R215) -/

theorem laneState_enterRefWait (d : Dev) {k : Nat} (hk : k < 64) : laneState (enterRefWait d k) k = lnRefWait :=
  laneState_setLaneState _ hk (by decide)

theorem laneCfg_of_detect {d : Dev} {k : Nat} (h : laneState d k ≤ lnDetect) : laneCfg d k = rd d (SLN_LANEl_CFG (k / 4) (k % 4)) := if_pos h

/-- The lane with its cause shown, its timers stopped and its indications cleared. -/
def detectCleared (d : Dev) (k cause : Nat) : Dev := clearLocks (dropLaneTimers (setLastFail d k cause) k) k

/-- The lane as it stands in DETECT, before its reference is looked at. -/
def detectBegun (d : Dev) (k cause : Nat) : Dev :=
  let d := tapsWritten (setLaneState (detectCleared d k cause) k lnDetect) k
  setFlag (setLane d k (fun h => { h with hits := 0, probeAt := d.elapsed + probeTicks })) (SLN_LANEl_STATUS_PRESENT (k / 4) (k % 4)) false

theorem enterDetect_eq (d : Dev) (k cause : Nat) : enterDetect d k cause =
    if !(showRef (detectBegun d k cause) k).2 then enterRefWait (showRef (detectBegun d k cause) k).1 k
    else if foundAtOnce (showRef (detectBegun d k cause) k).1 k then receiverFound (showRef (detectBegun d k cause) k).1 k
    else (showRef (detectBegun d k cause) k).1 := rfl

section Detect

variable {d : Dev} {k cause : Nat}

theorem detectCleared_keeps (d : Dev) (k cause : Nat) :
    keepsWords (fun o => o ≠ (SLN_LANEl_STATUS (k / 4) (k % 4)).ofs) d (detectCleared d k cause) :=
  ((setLastFail_keeps d k cause).of_regs (dropLaneTimers_regs _ k)).trans (clearLocks_keeps _ k)

theorem laneState_detectCleared (d : Dev) (k cause : Nat) : laneState (detectCleared d k cause) k = laneState d k := by
  rw [detectCleared, laneState_clearLocks, laneState, fld_dropLaneTimers, ← laneState, laneState_setLastFail]

theorem lastFail_detectCleared (d : Dev) (k : Nat) (h0 : 0 < cause) (h : cause < 16) :
    fld (detectCleared d k cause) (SLN_LANEl_STATUS_LAST_FAIL (k / 4) (k % 4)) = cause := by
  rw [detectCleared, fld_clearLocks _ (by simp [lockFlds, apart]), fld_dropLaneTimers, setLastFail_of_cause d k h0]
  exact (fld_setFld_same _ _ (by simp) (by simp)).trans (Nat.mod_eq_of_lt h)

/-- The lane's words stay on the way into DETECT, but for its status, its taps and what leaving ACTIVE counts. -/
theorem detectBegun_keeps (d : Dev) (hk : k < 64) (cause : Nat) :
    keepsWords (fun o => isSteadyWord k o ∧ o ≠ (SLN_LANEl_TAPS (k / 4) (k % 4)).ofs) d (detectBegun d k cause) := by
  have hstate : keepsWords (isSteadyWord k) d (setLaneState (detectCleared d k cause) k lnDetect) :=
    ((detectCleared_keeps d k cause).mono fun _ ho => ho.2.1).trans (setLaneState_keeps _ hk (by decide))
  have htaps := (hstate.mono (v := fun o => isSteadyWord k o ∧ o ≠ (SLN_LANEl_TAPS (k / 4) (k % 4)).ofs) fun _ ho => ho.1).trans
    ((tapsWritten_keeps _ k).mono fun _ ho => ho.2)
  exact (htaps.setLane k _).setFlag (f := SLN_LANEl_STATUS_PRESENT (k / 4) (k % 4)) (fun ho => ho.1.2.1 rfl) false

theorem rd_cfg_detectBegun (d : Dev) (hk : k < 64) (cause : Nat) :
    rd (detectBegun d k cause) (SLN_LANEl_CFG (k / 4) (k % 4)) = rd d (SLN_LANEl_CFG (k / 4) (k % 4)) := by
  have hword := isSlnWord_lane hk (a := 0) (by decide)
  exact (detectBegun_keeps d hk cause).rd ⟨⟨hword, by simp only; omega, by simp only; omega⟩, by simp only; omega⟩

theorem refsOk_detectBegun (d : Dev) (hk : k < 64) (cause n : Nat) : refsOk (detectBegun d k cause) n = refsOk d n :=
  regBit_congr _ _ ((detectBegun_keeps d hk cause).rd
    ⟨⟨isSlnWord_refs (by decide), by simp only; omega, by simp only; omega⟩, by simp only; omega⟩)

/-- A field of the status word that is not PRESENT is what the change of state has left of it. -/
theorem fld_detectBegun (d : Dev) (cause : Nat) {f : Fld} (hf : f.reg = SLN_LANEl_STATUS (k / 4) (k % 4))
    (hp : apart f (SLN_LANEl_STATUS_PRESENT (k / 4) (k % 4))) :
    fld (detectBegun d k cause) f = fld (setLaneState (detectCleared d k cause) k lnDetect) f := by
  have htaps : f.reg.ofs ≠ (SLN_LANEl_TAPS (k / 4) (k % 4)).ofs := by
    rw [hf]
    simp only
    omega
  rw [detectBegun, fld_setFlag_apart _ _ hp]
  exact ((tapsWritten_keeps _ k).setLane k _).fld htaps

theorem laneState_detectBegun (d : Dev) (hk : k < 64) (cause : Nat) : laneState (detectBegun d k cause) k = lnDetect := by
  rw [laneState, fld_detectBegun d cause rfl (by simp [apart])]
  exact laneState_setLaneState _ hk (by decide)

theorem lastFail_detectBegun (d : Dev) (hk : k < 64) (h0 : 0 < cause) (h : cause < 16) :
    fld (detectBegun d k cause) (SLN_LANEl_STATUS_LAST_FAIL (k / 4) (k % 4)) = cause := by
  rw [fld_detectBegun d cause rfl (by simp [apart]), fld_setLaneState _ hk (by decide) ⟨rfl, by simp, by simp⟩,
    lastFail_detectCleared d k h0 h]

theorem blockLock_detectBegun (d : Dev) (hk : k < 64) (cause : Nat) :
    flag (detectBegun d k cause) (SLN_LANEl_STATUS_BLOCK_LOCK (k / 4) (k % 4)) = false := by
  rw [flag, fld_detectBegun d cause rfl (by simp [apart]), fld_setLaneState _ hk (by decide) ⟨rfl, by simp, by simp⟩]
  exact blockLock_clearLocks _ k

theorem linkDown_detectBegun (hk : k < 64) (cause : Nat) (h : laneState d k = lnActive) :
    rdn (detectBegun d k cause) (SLN_LANEl_LINK_DOWN (k / 4) (k % 4)) = min (rdn d (SLN_LANEl_LINK_DOWN (k / 4) (k % 4)) + 1) 0xFFFFFFFF := by
  have hwas : laneState (detectCleared d k cause) k = lnActive := (laneState_detectCleared d k cause).trans h
  have htaps : keepsWords (fun o => o ≠ (SLN_LANEl_TAPS (k / 4) (k % 4)).ofs ∧ o ≠ (SLN_LANEl_STATUS (k / 4) (k % 4)).ofs)
      (setLaneState (detectCleared d k cause) k lnDetect) (detectBegun d k cause) :=
    (((tapsWritten_keeps _ k).mono fun _ ho => ho.1).setLane k _).setFlag (f := SLN_LANEl_STATUS_PRESENT (k / 4) (k % 4)) (fun ho => ho.2 rfl) false
  rw [htaps.rdn ⟨by simp only; omega, by simp only; omega⟩, rdn_setLaneState_linkDown hk hwas (by decide) (by decide),
    (detectCleared_keeps d k cause).rdn (by simp only; omega)]

theorem showRef_detectBegun (d : Dev) (hk : k < 64) (cause : Nat) : (showRef (detectBegun d k cause) k).2
    = refsOk d (cfgRefSel (rd d (SLN_LANEl_CFG (k / 4) (k % 4)))) := by
  have hst : laneState (detectBegun d k cause) k ≤ lnDetect := Nat.le_of_eq (laneState_detectBegun d hk cause)
  rw [showRef, refsOk_detectBegun d hk, laneCfg_of_detect hst, rd_cfg_detectBegun d hk]

/-- Without its reference the lane waits for it. -/
theorem enterDetect_of_refs_bad (hk : k < 64) (h : refsOk d (cfgRefSel (rd d (SLN_LANEl_CFG (k / 4) (k % 4)))) = false) :
    laneState (enterDetect d k cause) k = lnRefWait := by
  rw [enterDetect_eq, showRef_detectBegun d hk, h, if_pos (by decide), laneState_enterRefWait _ hk]

/-- A lane whose receiver is to be detected stays in DETECT. -/
theorem enterDetect_of_refs_ok (hk : k < 64) (h : refsOk d (cfgRefSel (rd d (SLN_LANEl_CFG (k / 4) (k % 4)))) = true)
    (hp : cfgPresSrc (rd d (SLN_LANEl_CFG (k / 4) (k % 4))) = 0) :
    ∃ b, enterDetect d k cause = setFlag (detectBegun d k cause) (SLN_LANEl_STATUS_REF_OK (k / 4) (k % 4)) b := by
  have hst : laneState (showRef (detectBegun d k cause) k).1 k = lnDetect :=
    (fld_setFlag_apart _ _ (by simp [apart])).trans (laneState_detectBegun d hk cause)
  have hcfg : laneCfg (showRef (detectBegun d k cause) k).1 k = rd d (SLN_LANEl_CFG (k / 4) (k % 4)) := by
    rw [laneCfg_of_detect (Nat.le_of_eq hst), showRef, rd_setFlag_other _ _ (by simp only; omega), rd_cfg_detectBegun d hk]
  have hfound : foundAtOnce (showRef (detectBegun d k cause) k).1 k = false := by simp [foundAtOnce, hcfg, hp]
  rw [enterDetect_eq, showRef_detectBegun d hk, h, hfound, if_neg (by decide), if_neg (by decide)]
  exact ⟨_, rfl⟩

end Detect

/-! ### A receiver that is found (R215, R216) -/

/-- The lane on its way out of DETECT: its receiver shows, and the words it works with are kept. -/
def receiverKept (d : Dev) (k : Nat) : Dev :=
  keepCfg (setFlag (sliceService d (28 + k / 4)) (SLN_LANEl_STATUS_PRESENT (k / 4) (k % 4)) true) k

theorem laneHw_setLane_same (d : Dev) (k : Nat) (f : LaneHw → LaneHw) : laneHw (setLane d k f) k = f (laneHw d k) := sget_sput_same _ _ _ _

theorem receiverFound_eq (d : Dev) (k : Nat) : receiverFound d k =
    if cfgAnEn (laneHw (receiverKept d k) k).cfg && laneTest (receiverKept d k) k == 0 then
      startTimer (sendPage (setLaneState (receiverKept d k) k lnAn) k) (.laneAn k)
        (fld (receiverKept d k) (SLN_LANEl_TIMERS_AN_TO (k / 4) (k % 4)) * ticksPerMs * 100)
    else enterTrain (resolveTo (receiverKept d k) k (cfgSpeed (laneHw (receiverKept d k) k).cfg)
      (cfgFec (laneHw (receiverKept d k) k).cfg) (false, false)) k := rfl


theorem receiverKept_keeps (d : Dev) {k : Nat} (hk : k < 64) :
    keepsWords (fun o => isLaneWord o ∧ o ≠ (SLN_LANEl_STATUS (k / 4) (k % 4)).ofs) d (receiverKept d k) := by
  have hslice := keepsLanes_sliceService (keepsWords.refl isLaneWord d) (t := 28 + k / 4) (by omega)
  have hkept := hslice.mono (v := fun o => isLaneWord o ∧ o ≠ (SLN_LANEl_STATUS (k / 4) (k % 4)).ofs) fun _ ho => ho.1
  exact (hkept.setFlag (f := SLN_LANEl_STATUS_PRESENT (k / 4) (k % 4)) (fun ho => ho.2 rfl) true).setLane k _

theorem cfg_receiverKept (d : Dev) {k : Nat} (hk : k < 64) :
    (laneHw (receiverKept d k) k).cfg = rd d (SLN_LANEl_CFG (k / 4) (k % 4)) := by
  have hcfg := (receiverKept_keeps d hk).rd (q := SLN_LANEl_CFG (k / 4) (k % 4))
    ⟨isLaneWord_of_sln (isSlnWord_lane hk (a := 0) (by decide)), by simp only; omega⟩
  rw [receiverKept, keepCfg, laneHw_setLane_same]
  exact hcfg

theorem laneTest_receiverKept (d : Dev) {k : Nat} (hk : k < 64) : laneTest (receiverKept d k) k = laneTest d k :=
  (receiverKept_keeps d hk).fld ⟨isLaneWord_of_sln (isSlnWord_lane hk (a := 8) (by decide)), by simp only; omega⟩

/-- A lane that negotiates does so from DETECT on. -/
theorem receiverFound_an {d : Dev} {k : Nat} (hk : k < 64) (ha : cfgAnEn (rd d (SLN_LANEl_CFG (k / 4) (k % 4))) = true)
    (ht : laneTest d k = 0) : ∃ n, receiverFound d k = startTimer (sendPage (setLaneState (receiverKept d k) k lnAn) k) (.laneAn k) n := by
  rw [receiverFound_eq, cfg_receiverKept d hk, laneTest_receiverKept d hk, ha, ht, if_pos (by decide)]
  exact ⟨_, rfl⟩

theorem laneState_startPage (d : Dev) (k n : Nat) (t : TimerId) : laneState (startTimer (sendPage d k) t n) k = laneState d k := rfl

/-! ### The highest common speed (R217) -/

/-- Bit v of a technology, in CR or in KR. -/
def speedBit (c v : Nat) : Bool := bitOf c v || bitOf c (v + 4)

theorem bitOf_eq_testBit (n b : Nat) : bitOf n b = n.testBit b := by
  rw [Nat.testBit_eq_decide_div_mod_eq]
  rfl

theorem bitOf_folded (c : Nat) {v : Nat} (hv : v < 4) : (bitOf (c / 16 ||| c % 16) v && bitOf 15 v) = speedBit c v := by
  have h15 : Nat.testBit 15 v = true := by
    interval_cases v
    · rfl
    · rfl
    · rfl
    · rfl
  rw [speedBit, bitOf_eq_testBit, bitOf_eq_testBit, bitOf_eq_testBit, bitOf_eq_testBit, h15, Nat.testBit_or,
    show c / 16 = c / 2 ^ 4 from rfl, show c % 16 = c % 2 ^ 4 from rfl, Nat.testBit_div_two_pow, Nat.testBit_mod_two_pow]
  simp [hv, Bool.or_comm]

theorem commonSpeed_folded (c : Nat) : commonSpeed (c / 16 ||| c % 16) 15 = [3, 2, 1, 0].find? (speedBit c) := by
  simp only [commonSpeed, List.find?, bitOf_folded c (v := 3) (by decide), bitOf_folded c (v := 2) (by decide),
    bitOf_folded c (v := 1) (by decide), bitOf_folded c (v := 0) (by decide)]

theorem eq_zero_of_no_speed {c : Nat} (hc : c < 2 ^ 8) (h : ∀ v < 4, speedBit c v = false) : c = 0 := by
  refine Nat.eq_of_testBit_eq fun i => ?_
  rw [Nat.zero_testBit]
  by_cases hi : i < 4
  · have := h i hi
    rw [speedBit, bitOf_eq_testBit, Bool.or_eq_false_iff] at this
    exact this.1
  · by_cases h8 : i < 8
    · have := h (i - 4) (by omega)
      rw [speedBit, bitOf_eq_testBit, bitOf_eq_testBit, Bool.or_eq_false_iff, Nat.sub_add_cancel (by omega)] at this
      exact this.2
    · exact Nat.testBit_lt_two_pow (Nat.lt_of_lt_of_le hc (Nat.pow_le_pow_right (by decide) (by omega)))

/-- A common ability gives the highest speed that has one. -/
theorem commonSpeed_spec {c : Nat} (hc : c < 2 ^ 8) (h0 : c ≠ 0) : ∃ v, commonSpeed (c / 16 ||| c % 16) 15 = some v
    ∧ v < 4 ∧ speedBit c v = true ∧ ∀ w, v < w → w < 4 → speedBit c w = false := by
  rw [commonSpeed_folded]
  cases h : [3, 2, 1, 0].find? (speedBit c) with
  | none =>
    refine absurd (eq_zero_of_no_speed hc fun v hv => ?_) h0
    simpa using List.find?_eq_none.mp h v (by simp; omega)
  | some v =>
    obtain ⟨hv, as, bs, hlist, hnot⟩ := List.find?_eq_some_iff_append.mp h
    have hfall : (as ++ v :: bs).Pairwise (· > ·) := hlist ▸ by decide
    have hmem : v ∈ [3, 2, 1, 0] := List.mem_of_find?_eq_some h
    refine ⟨v, rfl, by simp at hmem; omega, hv, fun w hvw hw => ?_⟩
    have hw : w ∈ as ++ v :: bs := hlist ▸ by simp; omega
    rcases List.mem_append.mp hw with has | hrest
    · simpa using hnot w has
    · obtain ⟨-, htail, -⟩ := List.pairwise_append.mp hfall
      rcases List.mem_cons.mp hrest with rfl | hbs
      · omega
      · have := (List.pairwise_cons.mp htail).1 w hbs
        omega

/-! ### Block lock (R219) -/

theorem huntHeaders_valid (h : LaneHw) (n : Nat) :
    min (h.headers.length + n) 64 ≤ (huntHeaders h (List.replicate n true)).headers.length := by
  induction n generalizing h with
  | zero => exact Nat.min_le_left _ _
  | succ n ih =>
    have := ih { h with headers := (true :: h.headers).take 64 }
    rw [List.length_take, List.length_cons] at this
    exact Nat.le_trans (by omega) this

theorem huntHeaders_resolved (h : LaneHw) (hs : List Bool) : (huntHeaders h hs).speed = h.speed ∧ (huntHeaders h hs).fec = h.fec := by
  induction hs generalizing h with
  | nil => exact ⟨rfl, rfl⟩
  | cons b t ih =>
    cases b
    · exact ih { h with headers := [], slip := (h.slip + 1) % 66 }
    · exact ih { h with headers := (true :: h.headers).take 64 }

/-- The indications of reception, up to block lock. -/
def receptionFlds (k : Nat) : List Fld :=
  [SLN_LANEl_STATUS_SIGNAL (k / 4) (k % 4), SLN_LANEl_STATUS_CDR_LOCK (k / 4) (k % 4), SLN_LANEl_STATUS_AM_LOCK (k / 4) (k % 4),
    SLN_LANEl_STATUS_BLOCK_LOCK (k / 4) (k % 4)]

/-- The marker lock of a lane that may take it. -/
def markersSeen (d : Dev) (k : Nat) (markers : Bool) : Dev :=
  if rsMode d k ∧ markers then setFlag d (SLN_LANEl_STATUS_AM_LOCK (k / 4) (k % 4)) true else d

/-- A lane with block lock, before its state follows. -/
def blockLocked (d : Dev) (k : Nat) (markers : Bool) (hs : List Bool) : Dev :=
  setFlag (setLane (setLane (markersSeen (heardOn d k) k markers) k (fun h => huntHeaders h hs)) k (fun h => { h with fill := 16 }))
    (SLN_LANEl_STATUS_BLOCK_LOCK (k / 4) (k % 4)) true

section BlockLock

variable {d : Dev} {k : Nat}

theorem fld_heardOn (d : Dev) (k : Nat) {f : Fld} (hs : apart f (SLN_LANEl_STATUS_SIGNAL (k / 4) (k % 4)))
    (hc : apart f (SLN_LANEl_STATUS_CDR_LOCK (k / 4) (k % 4))) : fld (heardOn d k) f = fld d f := by
  rw [heardOn, fld_setFlag_apart _ _ hc, fld_setFlag_apart _ _ hs]

theorem fld_markersSeen (d : Dev) (k : Nat) (markers : Bool) {f : Fld} (h : apart f (SLN_LANEl_STATUS_AM_LOCK (k / 4) (k % 4))) :
    fld (markersSeen d k markers) f = fld d f := by
  unfold markersSeen
  split
  · exact fld_setFlag_apart _ _ h
  · rfl

theorem laneHw_markersSeen (d : Dev) (k : Nat) (markers : Bool) (j : Nat) : laneHw (markersSeen d k markers) j = laneHw d j := by
  unfold markersSeen
  split
  · rfl
  · rfl

theorem fld_setLane (d : Dev) (k : Nat) (f : LaneHw → LaneHw) (g : Fld) : fld (setLane d k f) g = fld d g := rfl

/-- A field of the status word beside the indications of reception. -/
theorem fld_blockLocked (d : Dev) (k : Nat) (markers : Bool) (hs : List Bool) {f : Fld} (hf : ∀ g ∈ receptionFlds k, apart f g) :
    fld (blockLocked d k markers hs) f = fld d f := by
  simp only [receptionFlds, List.forall_mem_cons] at hf
  obtain ⟨hsignal, hclock, hmarkers, hblock, -⟩ := hf
  rw [blockLocked, fld_setFlag_apart _ _ hblock, fld_setLane, fld_setLane, fld_markersSeen _ k markers hmarkers, fld_heardOn d k hsignal hclock]

theorem laneHw_setFlag (d : Dev) (f : Fld) (b : Bool) (k : Nat) : laneHw (setFlag d f b) k = laneHw d k := rfl

theorem laneHw_blockLocked (d : Dev) (k : Nat) (markers : Bool) (hs : List Bool) : (laneHw (blockLocked d k markers hs) k).speed
    = (laneHw d k).speed ∧ (laneHw (blockLocked d k markers hs) k).fec = (laneHw d k).fec := by
  have hlane : laneHw (blockLocked d k markers hs) k = { huntHeaders (laneHw d k) hs with fill := 16 } := by
    rw [blockLocked, laneHw_setFlag, laneHw_setLane_same, laneHw_setLane_same, laneHw_markersSeen]
    rfl
  rw [hlane]
  exact huntHeaders_resolved (laneHw d k) hs

theorem blockLock_blockLocked (d : Dev) (k : Nat) (markers : Bool) (hs : List Bool) :
    flag (blockLocked d k markers hs) (SLN_LANEl_STATUS_BLOCK_LOCK (k / 4) (k % 4)) = true :=
  flag_setFlag_same _ _ (by simp) (by simp)

theorem fld_applyResolved (d : Dev) (k : Nat) {f : Fld} (hr : f.reg = SLN_LANEl_STATUS (k / 4) (k % 4)) (hl : f.lo ≤ f.hi)
    (h : f.hi < 18 ∨ 24 ≤ f.lo) : fld (applyResolved d k) f = fld d f := by
  rw [applyResolved, fld_setFlag_apart _ _ ⟨hr, by simp only; omega, hl, by simp⟩,
    fld_setFlag_apart _ _ ⟨hr, by simp only; omega, hl, by simp⟩,
    fld_setFld_apart _ _ ⟨hr, by simp only; omega, hl, by simp⟩, fld_setFld_apart _ _ ⟨hr, by simp only; omega, hl, by simp⟩]

theorem resolved_applyResolved (d : Dev) (k : Nat) :
    fld (applyResolved d k) (SLN_LANEl_STATUS_RES_SPEED (k / 4) (k % 4)) = (laneHw d k).speed % 4
      ∧ fld (applyResolved d k) (SLN_LANEl_STATUS_RES_FEC (k / 4) (k % 4)) = (laneHw d k).fec % 4 := by
  refine ⟨?_, ?_⟩
  · rw [applyResolved, fld_setFlag_apart _ _ (by simp [apart]), fld_setFlag_apart _ _ (by simp [apart]), fld_setFld_apart _ _ (by simp [apart]),
      fld_setFld_same _ _ (by simp) (by simp)]
    rfl
  · rw [applyResolved, fld_setFlag_apart _ _ (by simp [apart]), fld_setFlag_apart _ _ (by simp [apart]), fld_setFld_same _ _ (by simp) (by simp)]
    rfl

/-- A locked lane in CAP, with what it has resolved in use. -/
def capEntered (d : Dev) (k : Nat) (markers : Bool) (hs : List Bool) : Dev :=
  setLaneState (applyResolved (blockLocked d k markers hs) k) k lnCap

theorem fld_capEntered (d : Dev) (markers : Bool) (hs : List Bool) (hk : k < 64) {f : Fld}
    (hf : f.reg = SLN_LANEl_STATUS (k / 4) (k % 4)) (hl : f.lo ≤ f.hi) (h : f.hi < 18) :
    fld (capEntered d k markers hs) f = fld (blockLocked d k markers hs) f := by
  rw [capEntered, fld_setLaneState _ hk (by decide) ⟨hf, hl, by omega⟩, fld_applyResolved _ k hf hl (.inl h)]

theorem noFault_capEntered (d : Dev) (markers : Bool) (hs : List Bool) (hk : k < 64) : noFault (capEntered d k markers hs) k = noFault d k := by
  rw [noFault, flag, flag, fld_capEntered d markers hs hk rfl (by simp) (by simp), fld_capEntered d markers hs hk rfl (by simp) (by simp),
    fld_blockLocked _ _ _ _ (by simp [receptionFlds, apart]), fld_blockLocked _ _ _ _ (by simp [receptionFlds, apart]),
    ← flag, ← flag, ← noFault]

theorem capEntered_spec (d : Dev) (markers : Bool) (hs : List Bool) (hk : k < 64) : laneState (capEntered d k markers hs) k = lnCap
    ∧ flag (capEntered d k markers hs) (SLN_LANEl_STATUS_BLOCK_LOCK (k / 4) (k % 4)) = true
    ∧ fld (capEntered d k markers hs) (SLN_LANEl_STATUS_RES_SPEED (k / 4) (k % 4)) = (laneHw d k).speed % 4
    ∧ fld (capEntered d k markers hs) (SLN_LANEl_STATUS_RES_FEC (k / 4) (k % 4)) = (laneHw d k).fec % 4 := by
  obtain ⟨hspeed, hfec⟩ := laneHw_blockLocked d k markers hs
  obtain ⟨hs', hf'⟩ := resolved_applyResolved (blockLocked d k markers hs) k
  refine ⟨laneState_setLaneState _ hk (by decide), ?_, ?_, ?_⟩
  · rw [flag, fld_capEntered d markers hs hk rfl (by simp) (by simp)]
    exact blockLock_blockLocked d k markers hs
  · rw [capEntered, fld_setLaneState _ hk (by decide) ⟨rfl, by simp, by simp⟩, hs', hspeed]
  · rw [capEntered, fld_setLaneState _ hk (by decide) ⟨rfl, by simp, by simp⟩, hf', hfec]

theorem rsMode_markersSeen (d : Dev) (k : Nat) (markers : Bool) : rsMode (markersSeen d k markers) k = rsMode d k := by
  rw [rsMode, laneHw_markersSeen, ← rsMode]

/-- Where an RS mode asks for the markers, they are locked. -/
theorem amLock_markersSeen (d : Dev) (k : Nat) {markers : Bool} (h : rsMode d k = false ∨ markers = true) :
    ¬ (rsMode (markersSeen d k markers) k = true ∧ (!flag (markersSeen d k markers) (SLN_LANEl_STATUS_AM_LOCK (k / 4) (k % 4))) = true) := by
  rintro ⟨hr, hm⟩
  rw [rsMode_markersSeen] at hr
  have hmarkers : markers = true := h.resolve_left (by simp [hr])
  rw [markersSeen, if_pos ⟨hr, hmarkers⟩, flag_setFlag_same _ _ (by simp) (by simp)] at hm
  exact Bool.noConfusion hm

end BlockLock

/-! ### Lanes of quads -/

theorem lane_lt (q : Fin 16) (l : Fin 4) : 4 * q.val + l.val < 64 := by omega

theorem lane_div (q : Fin 16) (l : Fin 4) : (4 * q.val + l.val) / 4 = q.val := by omega

theorem lane_mod (q : Fin 16) (l : Fin 4) : (4 * q.val + l.val) % 4 = l.val := by omega

/-! ### What each command does -/

section Commands

variable {q : Fin 16} {l : Fin 4} {k : Nat} {d : Dev} (hk : k = 4 * q.val + l.val)

/-- A probe has been made, n of those in a row with a detection. -/
def probed (d : Dev) (k n : Nat) : Dev := setLane d k (fun h => { h with hits := n, probeAt := d.elapsed + probeTicks })

include hk

theorem detectProbe_of_due (hit : Bool) (hst : laneState d k = lnDetect) (hp : cfgPresSrc (laneCfg d k) = 0)
    (ht : (laneHw d k).probeAt ≤ d.elapsed) (hs : sliceTarget d ≠ some (28 + q.val)) : detectProbe q l hit d
      = if 2 ≤ (if hit then (laneHw d k).hits + 1 else 0) then receiverFound (probed d k (if hit then (laneHw d k).hits + 1 else 0)) k
        else probed d k (if hit then (laneHw d k).hits + 1 else 0) := by
  subst hk
  exact if_pos ⟨hst, hp, ht, hs⟩

theorem anComplete_none {tech : BitVec 8} (fec : BitVec 4) (pause : BitVec 2) (hst : laneState d k = lnAn) (h : ownTech d k &&& tech.toNat = 0) :
    anComplete q l tech fec pause d = enterDetect (count d (SLN_LANEl_AN_FAIL q l)) k 2 := by
  subst hk
  unfold anComplete
  simp only [hst, h, if_true]
  rfl

theorem anComplete_some {tech : BitVec 8} (fec : BitVec 4) (pause : BitVec 2) {v : Nat} (hst : laneState d k = lnAn)
    (h : commonSpeed ((ownTech d k &&& tech.toNat) / 16 ||| (ownTech d k &&& tech.toNat) % 16) 15 = some v) :
    anComplete q l tech fec pause d = enterTrain (resolveTo (heardOn d k) k v (commonFec v (getBits (laneAdv d k) 7 4) fec.toNat)
      (commonPause (getBits (laneAdv d k) 9 8) pause.toNat)) k := by
  subst hk
  unfold anComplete
  simp only [hst, h, if_true]

theorem anToExpire_of_over (hst : laneState d k = lnAn) (ht : timerOver d (.laneAn k) = true) :
    anToExpire q l d = enterDetect (count d (SLN_LANEl_AN_FAIL q l)) k 1 := by
  subst hk
  exact if_pos ⟨hst, ht⟩

theorem trainComplete_of_train (amp : BitVec 8) (pre : BitVec 4) (post : BitVec 5) (hst : laneState d k = lnTrain) :
    trainComplete q l amp pre post d = heardOn (enterLock (setFld (setFld (setFld d (SLN_LANEl_TAPS_AMP q l) amp.toNat)
      (SLN_LANEl_TAPS_PRE q l) pre.toNat) (SLN_LANEl_TAPS_POST q l) post.toNat) k) k := by
  subst hk
  exact if_pos hst

theorem trainFail_of_reported (hst : laneState d k = lnTrain) :
    trainFail q l true d = enterDetect (count d (SLN_LANEl_TRAIN_FAIL q l)) k 3 := by
  subst hk
  exact if_pos ⟨hst, .inl rfl⟩

/-- 64 valid headers lock, where the markers do not hold them up. -/
theorem blockLock_of_valid {markers : Bool} (hst : laneState d k = lnLock) (hb : flag d (SLN_LANEl_STATUS_BLOCK_LOCK q l) = false)
    (hm : rsMode d k = false ∨ markers = true) : blockLock q l markers (List.replicate 64 true) d
      = if noFault (capEntered d k markers (List.replicate 64 true)) k then startCap (capEntered d k markers (List.replicate 64 true)) k
        else capEntered d k markers (List.replicate 64 true) := by
  have hstate : laneState (blockLocked d k markers (List.replicate 64 true)) k = lnLock :=
    (fld_blockLocked d k markers _ (by simp [receptionFlds, apart])).trans hst
  have hlong : ¬ (laneHw (setLane (markersSeen (heardOn d k) k markers) k
      (fun h => huntHeaders h (List.replicate 64 true))) k).headers.length < 64 := by
    rw [laneHw_setLane_same]
    have := huntHeaders_valid (laneHw (markersSeen (heardOn d k) k markers) k) 64
    omega
  have hready := amLock_markersSeen (heardOn d k) k hm
  have hq : q.val = k / 4 := by omega
  have hl : l.val = k % 4 := by omega
  unfold blockLock
  simp only [← hk]
  rw [if_pos ⟨.inl hst, by rw [hb]; rfl⟩, hq, hl]
  refine (if_neg hready).trans ((if_neg hlong).trans ?_)
  have hcap : (if laneState (blockLocked d k markers (List.replicate 64 true)) k = lnLock
      then setLaneState (applyResolved (blockLocked d k markers (List.replicate 64 true)) k) k lnCap
      else blockLocked d k markers (List.replicate 64 true)) = capEntered d k markers (List.replicate 64 true) := if_pos hstate
  exact congrArg (fun c => if noFault c k then startCap c k else c) hcap

theorem capDone_of_over (hst : laneState d k = lnCap) (hc : timerOver d (.laneCap k) = true) (hl : timerOver d (.laneLink k) = false) :
    capDone q l d = setLaneState (dropTimer (dropTimer d (.laneLink k)) (.laneCap k)) k lnActive := by
  subst hk
  unfold capDone
  rw [if_pos ⟨hst, hc⟩, if_neg (by simp [hl])]

theorem linkToExpire_of_over (hst : laneState d k = lnLock ∨ laneState d k = lnCap) (ht : timerOver d (.laneLink k) = true) :
    linkToExpire q l d = enterDetect d k 4 := by
  subst hk
  exact if_pos ⟨hst, ht⟩

theorem lockLoss_of_active {what : LockLoss} (hst : laneState d k = lnActive) (hw : ∀ hs, what ≠ .headers hs) :
    lockLoss q l what d = enterDetect (count d (SLN_LANEl_LOCK_LOSS q l)) k (if what = .signal then 7 else 5) := by
  subst hk
  cases what with
  | headers hs => exact absurd rfl (hw hs)
  | signal => exact if_pos hst
  | clock => exact if_pos hst
  | markers => exact if_pos hst

theorem lockLoss_headers_of_active (hs : List Bool) (hst : laneState d k = lnActive) (hb : flag d (SLN_LANEl_STATUS_BLOCK_LOCK q l) = true) :
    lockLoss q l (.headers hs) d = if (watchHeaders (laneHw d k) hs).2 then setLane d k (fun h => (watchHeaders h hs).1)
      else enterDetect (count (setLane d k (fun h => (watchHeaders h hs).1)) (SLN_LANEl_LOCK_LOSS q l)) k 5 := by
  subst hk
  unfold lockLoss
  simp only [hb, if_true]
  cases (watchHeaders (laneHw d (4 * q.val + l.val)) hs).2
  · simp only [Bool.not_false, Bool.not_true, Bool.false_eq_true, if_false]
    exact if_pos hst
  · rfl

end Commands

end Sys2Proof.Machine
end

section
/-!
PROOFS. The statement about the bring-up of a server lane (R214 to R219).
-/

namespace Sys2Proof.Machine

/-! ### The commands as operations over the block -/

section Exec

variable (q : Fin 16) (l : Fin 4) (s : State)

theorem exec_detectProbe (hit : Bool) : exec (.detectProbe q l hit) s = .next (s.withDev (detectProbe q l hit s.dev)) := rfl

theorem exec_anComplete (tech : BitVec 8) (fec : BitVec 4) (pause : BitVec 2) :
    exec (.anComplete q l tech fec pause) s = .next (s.withDev (anComplete q l tech fec pause s.dev)) := rfl

theorem exec_anToExpire : exec (.anToExpire q l) s = .next (s.withDev (anToExpire q l s.dev)) := rfl

theorem exec_trainComplete (amp : BitVec 8) (pre : BitVec 4) (post : BitVec 5) :
    exec (.trainComplete q l amp pre post) s = .next (s.withDev (trainComplete q l amp pre post s.dev)) := rfl

theorem exec_trainFail (reported : Bool) : exec (.trainFail q l reported) s = .next (s.withDev (trainFail q l reported s.dev)) := rfl

theorem exec_blockLock (markers : Bool) (hs : List Bool) :
    exec (.blockLock q l markers hs) s = .next (s.withDev (blockLock q l markers hs s.dev)) := rfl

theorem exec_capDone : exec (.capDone q l) s = .next (s.withDev (capDone q l s.dev)) := rfl

theorem exec_linkToExpire : exec (.linkToExpire q l) s = .next (s.withDev (linkToExpire q l s.dev)) := rfl

theorem exec_lockLoss (what : LockLoss) : exec (.lockLoss q l what) s = .next (s.withDev (lockLoss q l what s.dev)) := rfl

end Exec

/-! ### What the lane shows -/

/-- A lane that enters DETECT without its reference waits for it; with it, it shows its cause and no lock, and counts that it left
ACTIVE. -/
theorem enterDetect_spec (d : Dev) {k cause : Nat} (hk : k < 64) (h0 : 0 < cause) (h16 : cause < 16)
    (hp : cfgPresSrc (rd d (SLN_LANEl_CFG (k / 4) (k % 4))) = 0) :
    (refsOk d (cfgRefSel (rd d (SLN_LANEl_CFG (k / 4) (k % 4)))) = false → laneState (enterDetect d k cause) k = lnRefWait)
    ∧ (refsOk d (cfgRefSel (rd d (SLN_LANEl_CFG (k / 4) (k % 4)))) = true → laneState (enterDetect d k cause) k = lnDetect
      ∧ fld (enterDetect d k cause) (SLN_LANEl_STATUS_LAST_FAIL (k / 4) (k % 4)) = cause
      ∧ flag (enterDetect d k cause) (SLN_LANEl_STATUS_BLOCK_LOCK (k / 4) (k % 4)) = false
      ∧ (laneState d k = lnActive → rdn (enterDetect d k cause) (SLN_LANEl_LINK_DOWN (k / 4) (k % 4))
          = min (rdn d (SLN_LANEl_LINK_DOWN (k / 4) (k % 4)) + 1) 0xFFFFFFFF)) := by
  refine ⟨fun hr => enterDetect_of_refs_bad hk hr, fun hr => ?_⟩
  obtain ⟨b, heq⟩ := enterDetect_of_refs_ok (cause := cause) hk hr hp
  rw [heq]
  refine ⟨?_, ?_, ?_, fun hact => ?_⟩
  · rw [laneState, fld_setFlag_apart _ _ (by simp [apart]), ← laneState, laneState_detectBegun d hk]
  · rw [fld_setFlag_apart _ _ (by simp [apart]), lastFail_detectBegun d hk h0 h16]
  · rw [flag_setFlag_apart _ _ (by simp [apart]), blockLock_detectBegun d hk]
  · rw [rdn, rd_setFlag_other _ _ (by simp only; omega), ← rdn, linkDown_detectBegun hk cause hact]

section Commands

variable {q : Fin 16} {l : Fin 4} {k : Nat} {d : Dev} (hk : k = 4 * q.val + l.val)

theorem laneHw_probed (d : Dev) (k n : Nat) : (laneHw (probed d k n) k).hits = n ∧ (laneHw (probed d k n) k).probeAt = d.elapsed + 250000 := by
  rw [probed, laneHw_setLane_same]
  exact ⟨rfl, rfl⟩

/-- The taps that training left. -/
def tapsTrained (d : Dev) (q l amp pre post : Nat) : Dev :=
  setFld (setFld (setFld d (SLN_LANEl_TAPS_AMP q l) amp) (SLN_LANEl_TAPS_PRE q l) pre) (SLN_LANEl_TAPS_POST q l) post

theorem fld_tapsTrained (d : Dev) (q l : Nat) (amp : BitVec 8) (pre : BitVec 4) (post : BitVec 5) :
    fld (tapsTrained d q l amp.toNat pre.toNat post.toNat) (SLN_LANEl_TAPS_AMP q l) = amp.toNat
      ∧ fld (tapsTrained d q l amp.toNat pre.toNat post.toNat) (SLN_LANEl_TAPS_PRE q l) = pre.toNat
      ∧ fld (tapsTrained d q l amp.toNat pre.toNat post.toNat) (SLN_LANEl_TAPS_POST q l) = post.toNat := by
  refine ⟨?_, ?_, ?_⟩
  · rw [tapsTrained, fld_setFld_apart _ _ (by simp [apart]), fld_setFld_apart _ _ (by simp [apart]), fld_setFld_same _ _ (by simp) (by simp)]
    exact Nat.mod_eq_of_lt amp.isLt
  · rw [tapsTrained, fld_setFld_apart _ _ (by simp [apart]), fld_setFld_same _ _ (by simp) (by simp)]
    exact Nat.mod_eq_of_lt pre.isLt
  · rw [tapsTrained, fld_setFld_same _ _ (by simp) (by simp)]
    exact Nat.mod_eq_of_lt post.isLt

include hk

/-- Pages with a common ability give the highest speed of those in common. -/
theorem anComplete_common (tech : BitVec 8) (fec : BitVec 4) (pause : BitVec 2) (hst : laneState d k = lnAn)
    (h : ownTech d k &&& tech.toNat ≠ 0) : ∃ v e, anComplete q l tech fec pause d = enterTrain e k ∧ v < 4
      ∧ speedBit (ownTech d k &&& tech.toNat) v = true ∧ (∀ w, v < w → w < 4 → speedBit (ownTech d k &&& tech.toNat) w = false)
      ∧ (laneHw e k).speed = v ∧ (laneHw e k).fec = commonFec v (getBits (laneAdv d k) 7 4) fec.toNat
      ∧ (laneHw e k).pause = commonPause (getBits (laneAdv d k) 9 8) pause.toNat := by
  obtain ⟨v, hv, hlt, hbit, hhigh⟩ := commonSpeed_spec (Nat.and_lt_two_pow _ tech.isLt) h
  refine ⟨v, _, anComplete_some hk fec pause hst hv, hlt, hbit, hhigh, ?_⟩
  rw [resolveTo, laneHw_setLane_same]
  exact ⟨rfl, rfl, rfl⟩

/-- The lane that block lock brings into CAP. -/
theorem blockLock_spec {markers : Bool} (hst : laneState d k = lnLock) (hb : flag d (SLN_LANEl_STATUS_BLOCK_LOCK q l) = false)
    (hm : rsMode d k = false ∨ markers = true) (e : Dev) (he : e = blockLock q l markers (List.replicate 64 true) d) :
    laneState e k = lnCap ∧ flag e (SLN_LANEl_STATUS_BLOCK_LOCK q l) = true
      ∧ fld e (SLN_LANEl_STATUS_RES_SPEED q l) = (laneHw d k).speed % 4 ∧ fld e (SLN_LANEl_STATUS_RES_FEC q l) = (laneHw d k).fec % 4
      ∧ (noFault d k = true → timerRuns e (.laneCap k) = true) := by
  have hlt : k < 64 := hk ▸ lane_lt q l
  obtain ⟨hcap, hlock, hspeed, hfec⟩ := capEntered_spec d markers (List.replicate 64 true) hlt
  have hq : k / 4 = q.val := by omega
  have hl : k % 4 = l.val := by omega
  rw [hq, hl] at hlock hspeed hfec
  rw [blockLock_of_valid hk hst hb hm, noFault_capEntered d markers _ hlt] at he
  cases hf : noFault d k
  · rw [hf, if_neg (by decide)] at he
    subst he
    exact ⟨hcap, hlock, hspeed, hfec, fun h => Bool.noConfusion h⟩
  · rw [hf, if_pos rfl] at he
    subst he
    exact ⟨hcap, hlock, hspeed, hfec, fun _ => timerRuns_startTimer _ _ _⟩

end Commands

/-- Settles O46: a lane that enters DETECT or CAP shows what `enterDetect_spec` and `blockLock_spec` say, and each command enters the
state that its condition names. -/
theorem laneBringUp : Obligations.LaneBringUp := by
  refine ⟨fun d q l cause h0 h16 hp => ?_, fun q l k s hk => ⟨fun hst hp ht hs => ⟨fun hh => ?_, fun hh => ?_, ?_⟩, fun ha ht => ?_,
    fun hst => ⟨fun fec tech pause c hc => ⟨fun hz => ?_, fun hn => ?_⟩, fun ht => ?_⟩, fun hst => ⟨fun amp pre post => ?_, ?_⟩,
    fun hst hb b hm => ?_, fun hst hc hl => ?_, fun hst ht => ?_, fun hst => ⟨?_, ?_, ?_, fun hs e hb he => ?_⟩⟩⟩
  · have hspec := enterDetect_spec d (lane_lt q l) h0 h16
    rw [lane_div, lane_mod] at hspec
    exact hspec hp
  · rw [exec_detectProbe, detectProbe_of_due hk true hst hp ht hs, if_pos (by simp [hh])]
    simp only [hh]
    rfl
  · obtain ⟨hhits, hat⟩ := laneHw_probed s.dev k 1
    refine ⟨probed s.dev k 1, ?_, hhits, hat, rfl⟩
    rw [exec_detectProbe, detectProbe_of_due hk true hst hp ht hs, if_neg (by simp [hh])]
    simp only [hh]
    rfl
  · obtain ⟨hhits, hat⟩ := laneHw_probed s.dev k 0
    refine ⟨probed s.dev k 0, ?_, hhits, rfl⟩
    rw [exec_detectProbe, detectProbe_of_due hk false hst hp ht hs, if_neg (by simp)]
    rfl
  · have hlt : k < 64 := hk ▸ lane_lt q l
    obtain ⟨n, heq⟩ := receiverFound_an hlt (by rw [hk, lane_div, lane_mod]; exact ha) ht
    rw [heq, laneState_startPage]
    exact ⟨laneState_setLaneState _ hlt (by decide), timerRuns_startTimer _ _ _⟩
  · rw [exec_anComplete, anComplete_none hk fec pause hst (hc ▸ hz)]
  · subst hc
    obtain ⟨v, e, heq, hrest⟩ := anComplete_common hk tech fec pause hst hn
    exact ⟨v, e, by rw [exec_anComplete, heq], hrest⟩
  · rw [exec_anToExpire, anToExpire_of_over hk hst ht]
  · exact ⟨tapsTrained s.dev q l amp.toNat pre.toNat post.toNat, by rw [exec_trainComplete, trainComplete_of_train hk amp pre post hst]; rfl,
      fld_tapsTrained s.dev q l amp pre post⟩
  · rw [exec_trainFail, trainFail_of_reported hk hst]
  · exact ⟨_, exec_blockLock q l s b _, blockLock_spec hk hst hb hm _ rfl⟩
  · refine ⟨_, exec_capDone q l s, ?_⟩
    rw [capDone_of_over hk hst hc hl]
    exact laneState_setLaneState _ (hk ▸ lane_lt q l) (by decide)
  · rw [exec_linkToExpire, linkToExpire_of_over hk hst ht]
  · rw [exec_lockLoss, lockLoss_of_active hk hst (by simp), if_pos rfl]
  · rw [exec_lockLoss, lockLoss_of_active hk hst (by simp), if_neg (by simp)]
  · rw [exec_lockLoss, lockLoss_of_active hk hst (by simp), if_neg (by simp)]
  · rw [exec_lockLoss, lockLoss_headers_of_active hk hs hst hb, he]

end Sys2Proof.Machine
end

section
/-!
PROOFS. The conditions of a server lane: power, references, and writes of its configuration and test mode (R212, R215, R220, R223).
-/

namespace Sys2Proof.Machine

/-! ### Conditions that hold whatever the lane does (R215) -/

/-- The lane with PRESENT and REF_OK as they stand, before its state follows. -/
def conditionsShown (d : Dev) (k : Nat) : Dev := (showRef (showHostPres d k) k).1

section Conditions

variable {d : Dev} {k : Nat}

theorem showHostPres_cases (d : Dev) (k : Nat) : showHostPres d k = setFlag d (SLN_LANEl_STATUS_PRESENT (k / 4) (k % 4)) (hostPresent d k)
    ∨ showHostPres d k = d := ite_eq_or_eq _ _ _

theorem showHostPres_keeps (d : Dev) (k : Nat) : keepsWords (fun o => o ≠ (SLN_LANEl_STATUS (k / 4) (k % 4)).ofs) d (showHostPres d k) := by
  rcases showHostPres_cases d k with h | h
  · rw [h]
    exact (keepsWords.refl _ d).setFlag (fun ho => ho rfl) _
  · rw [h]
    exact keepsWords.refl _ d

theorem conditionsShown_keeps (d : Dev) (k : Nat) :
    keepsWords (fun o => o ≠ (SLN_LANEl_STATUS (k / 4) (k % 4)).ofs) d (conditionsShown d k) :=
  (showHostPres_keeps d k).setFlag (f := SLN_LANEl_STATUS_REF_OK (k / 4) (k % 4)) (fun ho => ho rfl) _

theorem laneState_showHostPres (d : Dev) (k : Nat) : laneState (showHostPres d k) k = laneState d k := by
  rcases showHostPres_cases d k with h | h
  · rw [h]
    exact fld_setFlag_apart _ _ (by simp [apart])
  · rw [h]

theorem laneState_conditionsShown (d : Dev) (k : Nat) : laneState (conditionsShown d k) k = laneState d k := by
  rw [← laneState_showHostPres d k]
  exact fld_setFlag_apart _ _ (by simp [apart])

theorem laneHw_showHostPres (d : Dev) (k : Nat) : laneHw (showHostPres d k) k = laneHw d k := by
  rcases showHostPres_cases d k with h | h
  · rw [h, laneHw_setFlag]
  · rw [h]

theorem laneCfg_showHostPres (d : Dev) (k : Nat) : laneCfg (showHostPres d k) k = laneCfg d k := by
  rw [laneCfg, laneState_showHostPres, laneHw_showHostPres, (showHostPres_keeps d k).rd (by simp only; omega), ← laneCfg]

theorem refsOk_conditionsShown (d : Dev) (k : Nat) : (showRef (showHostPres d k) k).2 = refsOk d (cfgRefSel (laneCfg d k)) := by
  rw [showRef, laneCfg_showHostPres]
  exact regBit_congr _ _ ((showHostPres_keeps d k).rd (by simp only; omega))

theorem lanePowered_conditionsShown (d : Dev) (k : Nat) : lanePowered (conditionsShown d k) k = lanePowered d k := by
  unfold lanePowered domainOn
  split
  · exact regBit_congr _ _ ((conditionsShown_keeps d k).rd (by simp only; omega))
  · exact regBit_congr _ _ ((conditionsShown_keeps d k).rd (by simp only; omega))

theorem laneEnabled_conditionsShown (d : Dev) (k : Nat) : laneEnabled (conditionsShown d k) k = laneEnabled d k :=
  (conditionsShown_keeps d k).flag (by simp only; omega)

theorem quadRetired_conditionsShown (d : Dev) (hk : k < 64) : quadRetired (conditionsShown d k) (k / 4) = quadRetired d (k / 4) := by
  rw [quadRetired, (conditionsShown_keeps d k).fld (by simp only; omega), ← quadRetired]

/-- A lane that cannot work is OFF. -/
theorem laneState_syncLaneState_off (hk : k < 64) (h : (!lanePowered d k || !laneEnabled d k || quadRetired d (k / 4)) = true) :
    laneState (syncLaneState d k) k = lnOff := by
  rw [← lanePowered_conditionsShown, ← laneEnabled_conditionsShown, ← quadRetired_conditionsShown d hk] at h
  have heq : syncLaneState d k = if laneState (conditionsShown d k) k = lnOff then conditionsShown d k
      else setLaneState (clearLocks (dropLaneTimers (setLastFail (conditionsShown d k) k 9) k) k) k lnOff := if_pos h
  rw [heq]
  split
  · assumption
  · exact laneState_setLaneState _ hk (by decide)

/-- A lane that could work but for its reference waits for it. -/
theorem laneState_syncLaneState_refWait (hk : k < 64) (h : (!lanePowered d k || !laneEnabled d k || quadRetired d (k / 4)) = false)
    (hst : laneState d k ≠ lnOff) (hr : refsOk d (cfgRefSel (laneCfg d k)) = false) : laneState (syncLaneState d k) k = lnRefWait := by
  rw [← lanePowered_conditionsShown, ← laneEnabled_conditionsShown, ← quadRetired_conditionsShown d hk] at h
  have hworks : ¬ (!lanePowered (conditionsShown d k) k || !laneEnabled (conditionsShown d k) k
      || quadRetired (conditionsShown d k) (k / 4)) = true := by
    rw [h]
    decide
  have hgate : (laneState (conditionsShown d k) k != lnOff && !(showRef (showHostPres d k) k).2) = true := by
    rw [laneState_conditionsShown, refsOk_conditionsShown, hr]
    simp [hst]
  have heq : syncLaneState d k = if laneState (conditionsShown d k) k = lnRefWait then conditionsShown d k
      else enterRefWait (conditionsShown d k) k := (if_neg hworks).trans (if_pos hgate)
  rw [heq]
  split
  · assumption
  · exact laneState_enterRefWait _ hk

end Conditions

/-! ### References (R212) -/

/-- A quad's reference bit is not in another quad's word, nor among its events. -/
theorem regBit_refs_raiseSln (d : Dev) (q : Fin 16) (j n b : Nat) :
    regBit (raiseEvt d (evSLN j) b) (SLN_REFS_STATUS q) n = regBit d (SLN_REFS_STATUS q) n :=
  regBit_congr _ _ (rd_raiseEvt_other d _ b (by simp only [evSLN]; omega) (by simp only; omega) (by simp only; omega))

theorem regBit_refs_setRegBit {d : Dev} {q : Fin 16} {n : Fin 4} {v : Bool} (j : Nat) (h : regBit d (SLN_REFS_STATUS q) n = v) :
    regBit (setRegBit d (SLN_REFS_STATUS j) n v) (SLN_REFS_STATUS q) n = v := by
  by_cases hj : j = q
  · subst hj
    exact regBit_setRegBit_same _ _ _ (by omega)
  · exact (regBit_congr _ _ (rd_setRegBit_other _ _ _ (by simp only; omega))).trans h

/-- The quads with a reference that has failed. -/
def refsFailed (n : Fin 4) (d : Dev) : Dev :=
  forEach (List.range 16) (fun d q => raiseEvt (setRegBit d (SLN_REFS_STATUS q) n false) (evSLN q) 8) d

/-- The quads with a reference that is OK. -/
def refsRecovered (n : Fin 4) (d : Dev) : Dev := forEach (List.range 16) (fun d q => setRegBit d (SLN_REFS_STATUS q) n true) d

theorem regBit_refsFailed (n : Fin 4) (d : Dev) (q : Fin 16) : regBit (refsFailed n d) (SLN_REFS_STATUS q) n = false := by
  refine forEach_reaches (P := fun e => regBit e (SLN_REFS_STATUS q) n = false) (fun e j h => ?_) (fun e => ?_) (List.mem_range.mpr q.isLt) d
  · rw [regBit_refs_raiseSln]
    exact regBit_refs_setRegBit j h
  · rw [regBit_refs_raiseSln]
    exact regBit_setRegBit_same _ _ _ (by omega)

theorem regBit_refsRecovered (n : Fin 4) (d : Dev) (q : Fin 16) : regBit (refsRecovered n d) (SLN_REFS_STATUS q) n = true :=
  forEach_reaches (P := fun e => regBit e (SLN_REFS_STATUS q) n = true) (fun _ j h => regBit_refs_setRegBit j h)
    (fun _ => regBit_setRegBit_same _ _ _ (by omega)) (List.mem_range.mpr q.isLt) d

theorem refsBad_of_ok {n : Fin 4} {d : Dev} (h : refsOk d n = true) : refsBad n d = forEach (List.range 64) syncLaneState (refsFailed n d) := by
  rw [refsBad, if_pos h, refsFailed]

/-! ### Writes of a lane's configuration and mode (R215, R220) -/

theorem laneEnableWrite_admitted {m : Master} {q : Fin 16} {l : Fin 4} {d : Dev} (value : Word)
    (ha : admits d m (SLN_LANEl_CFG q l).ofs = true) : laneEnableWrite m q l value d
      = syncLaneState (if value.getLsbD 31 = true then sliceService (storeAt d m (SLN_LANEl_CFG q l).ofs value) (28 + q.val)
        else storeAt d m (SLN_LANEl_CFG q l).ofs value) (4 * q.val + l.val) := by
  rw [laneEnableWrite, laneCfgWrite, lane_div, lane_mod, guarded_admits _ ha]

/-- SLN_LANEl_CTL holds TEST_MODE, with RESTART beside it. -/
def slnCtlRow : RegRow :=
  ⟨"SLN_LANEl_CTL", 0x1008, [(4, 0x100)], 0x0, false, [⟨"RESTART", 31, 31, .wo, .all⟩, ⟨"TEST_MODE", 2, 0, .rwc, (.span 0 3)⟩]⟩

theorem unitOf_slnCtl : ∀ (q : Fin 16) (l : Fin 4), unitOf (SLN_LANEl_CTL q l).ofs = some (22 + q.val) := by decide

theorem rowAt_slnCtl : ∀ (q : Fin 16) (l : Fin 4),
    rowAt (unitAt (22 + q.val)) ((SLN_LANEl_CTL q l).ofs - (unitAt (22 + q.val)).base) = some slnCtlRow
    ∧ regAt (unitAt (22 + q.val)) slnCtlRow ((SLN_LANEl_CTL q l).ofs - (unitAt (22 + q.val)).base) = SLN_LANEl_CTL q l := by decide

theorem clampNat_zero (n v : Nat) : clampNat 0 n v = min v n := by
  unfold clampNat
  split
  · omega
  · split
    · omega
    · omega

/-- TEST_MODE is stored up to its largest value. -/
theorem testMode_storeAt (d : Dev) (m : Master) (q : Fin 16) (l : Fin 4) (value : Word) :
    fld (storeAt d m (SLN_LANEl_CTL q l).ofs value) (SLN_LANEl_CTL_TEST_MODE q l) = min (getBits value 2 0) 3 := by
  obtain ⟨hrow, hreg⟩ := rowAt_slnCtl q l
  have hword : ∃ e w, storeAt d m (SLN_LANEl_CTL q l).ofs value = wr e (SLN_LANEl_CTL q l) (putBits w 2 0 (clampNat 0 3 (getBits value 2 0))) := by
    rw [storeAt_row value (unitOf_slnCtl q l) hrow, storeWord, hreg]
    exact ⟨_, _, rfl⟩
  obtain ⟨e, w, heq⟩ := hword
  rw [heq, fld, rd_wr_same, getBits_putBits_same _ _ (by decide) (by decide), clampNat_zero]
  omega

/-- The unit headers that a clamp in a quad's window is shown in. -/
theorem window_slnClamp : ∀ q : Fin 16, (unitAt (22 + q.val)).base % 0x10000 = 0
    ∧ (unitAt (unitAt (22 + q.val)).parent).base < 0x10000 := by decide

theorem keepsLanes_logClamp {d e : Dev} (h : keepsWords isLaneWord d e) (writer : Nat) {u : UnitRow} (hu : u.base % 0x10000 = 0)
    (hp : (unitAt u.parent).base < 0x10000) (rel width lsb written applied : Nat) :
    keepsWords isLaneWord d (logClamp e writer u rel width lsb written applied) := by
  have hhdr {a : Nat} (ha : a < 0x40) {b : Nat} (hb : b % 0x10000 = 0 ∨ b < 0x10000) : ¬ isLaneWord (b + a) :=
    not_isLaneWord_of_window (by omega)
  unfold logClamp
  refine keepsWords.raiseFn ?_ (not_isLaneWord_host (by decide)) _
  refine forEach_keeps_mem (fun _ b hb hg => hg.setFld (f := HDR_CLAMP_LAST_INDEX b) (hhdr (by decide) ?_) _) ?_
  · simp only [List.mem_cons, List.not_mem_nil, or_false] at hb
    rcases hb with rfl | rfl | rfl
    · exact .inl hu
    · exact .inr hp
    · exact .inl rfl
  · refine keepsWords.setFld (f := HDR_CLAMP_COUNT u.base) ?_ (hhdr (by decide) (.inl hu)) _
    refine keepsWords.setFlag (f := HDR_CLAMP_VALID u.base) ?_ (hhdr (by decide) (.inl hu)) _
    refine keepsWords.setFlag (f := HDR_STATUS_CLAMPED u.base) ?_ (hhdr (by decide) (.inl hu)) _
    exact keepsWords.wr (r := ROOT_CLAMP_SEQ) (h.of_regs rfl) (not_isLaneWord_bst (by decide)) _

theorem recheckField_cases (d : Dev) (writer : Nat) (u : UnitRow) (rel row : Nat) (f : Fld) : recheckField d writer u rel row f = d
    ∨ ∃ a v, recheckField d writer u rel row f = setFld (logClamp d writer u rel (f.hi - f.lo) f.lo v a) f a :=
  (ite_eq_or_eq _ _ _).imp_right fun h => ⟨_, _, h⟩

/-- A quad with a write of SLN_LANEl_CTL stored and the generator's EN checked against it. -/
def modeStored (d : Dev) (m : Master) (q : Fin 16) (l : Fin 4) (value : Word) : Dev :=
  recheckField (storeAt d m (SLN_LANEl_CTL q l).ofs value) m (unitAt (22 + q.val)) ((SLN_LANEl_GEN q l).ofs - (unitAt (22 + q.val)).base) 0x1020
    (SLN_LANEl_GEN_EN q l)

theorem testMode_modeStored (d : Dev) (m : Master) (q : Fin 16) (l : Fin 4) (value : Word) :
    fld (modeStored d m q l value) (SLN_LANEl_CTL_TEST_MODE q l) = min (getBits value 2 0) 3 := by
  obtain ⟨hu, hp⟩ := window_slnClamp q
  rw [← testMode_storeAt d m q l value, modeStored]
  rcases recheckField_cases (storeAt d m (SLN_LANEl_CTL q l).ofs value) m (unitAt (22 + q.val)) ((SLN_LANEl_GEN q l).ofs - (unitAt (22 + q.val)).base)
    0x1020 (SLN_LANEl_GEN_EN q l) with h | ⟨a, v, h⟩
  · rw [h]
  · rw [h, fld_setFld_reg _ _ (by simp only; omega)]
    refine (keepsLanes_logClamp (keepsWords.refl _ _) m hu hp _ _ _ _ _).fld (.inl ?_)
    simp only [isSlnWord]
    omega

/-- A quad under a slice is served where RESTART asks for it. -/
def modeServed (d : Dev) (m : Master) (q : Fin 16) (l : Fin 4) (value : Word) : Dev :=
  if value.getLsbD 31 then sliceService (modeStored d m q l value) (28 + q.val) else modeStored d m q l value

theorem laneTest_modeServed (d : Dev) (m : Master) (q : Fin 16) (l : Fin 4) (value : Word) :
    laneTest (modeServed d m q l value) (4 * q.val + l.val) = min (getBits value 2 0) 3 := by
  rw [laneTest, lane_div, lane_mod, ← testMode_modeStored d m q l value, modeServed]
  split
  · refine (keepsLanes_sliceService (keepsWords.refl _ _) (by omega)).fld (.inl ?_)
    simp only [isSlnWord]
    omega
  · rfl

theorem slnTestModeWrite_admitted {m : Master} {q : Fin 16} {l : Fin 4} {d : Dev} (value : Word)
    (ha : admits d m (SLN_LANEl_CTL q l).ofs = true) : slnTestModeWrite m q l value d
      = if laneState (modeServed d m q l value) (4 * q.val + l.val) ≤ lnRefWait then modeServed d m q l value
        else startLane (modeServed d m q l value) (4 * q.val + l.val) := by
  rw [slnTestModeWrite, laneCtlWrite, lane_div, lane_mod, guarded_admits _ ha]
  rfl

end Sys2Proof.Machine
end

section
/-!
PROOFS. Faults of a server lane, its elastic store, and the statement about its conditions (R212, R213, R215, R218, R220, R223).
-/

namespace Sys2Proof.Machine

/-! ### The commands as operations over the block -/

theorem exec_refsBad (n : Fin 4) (s : State) : exec (.refsBad n) s = .next (s.withDev (refsBad n s.dev)) := rfl

theorem exec_refsOk (n : Fin 4) (s : State) : exec (.refsOk n) s = .next (s.withDev (refsGood n s.dev)) := rfl

theorem refsGood_eq (n : Fin 4) (d : Dev) : refsGood n d = forEach (List.range 64) syncLaneState (refsRecovered n d) := rfl

section Exec

variable (m : Master) (q : Fin 16) (l : Fin 4) (value : Word) (s : State)

theorem exec_laneEnableWrite : exec (.laneEnableWrite m q l value) s = .next (s.withDev (laneEnableWrite m q l value s.dev)) := rfl

theorem exec_hostPresWrite : exec (.hostPresWrite m q l value) s = .next (s.withDev (hostPresWrite m q l value s.dev)) := rfl

/-- HOST_PRES is written with the rest of the lane's configuration. -/
theorem hostPresWrite_eq (d : Dev) : hostPresWrite m q l value d = laneEnableWrite m q l value d := rfl

theorem exec_slnTestModeWrite : exec (.slnTestModeWrite m q l value) s = .next (s.withDev (slnTestModeWrite m q l value s.dev)) := rfl

theorem exec_laneRestart : exec (.laneRestart m q l value) s = .next (s.withDev (laneRestart m q l value s.dev)) := rfl

/-- A restart writes RESTART with the rest of the word. -/
theorem laneRestart_eq (d : Dev) : laneRestart m q l value d = slnTestModeWrite m q l (value ||| 0x80000000) d := by
  rw [laneRestart, slnTestModeWrite]

theorem exec_faultReceived (remote : Bool) : exec (.faultReceived q l remote) s = .next (s.withDev (faultReceived q l remote s.dev)) := rfl

theorem exec_faultClear : exec (.faultClear q l) s = .next (s.withDev (faultClear q l s.dev)) := rfl

theorem exec_rateMatch (drift : Int) (inFrame : Bool) :
    exec (.rateMatch q l drift inFrame) s = .next (s.withDev (rateMatch q l drift inFrame s.dev)) := rfl

end Exec

/-! ### Faults (R218) -/

/-- The lane with the faults that it receives shown. -/
def faultShown (d : Dev) (k : Nat) (rf lf : Bool) : Dev :=
  setFlag (setFlag d (SLN_LANEl_STATUS_RF (k / 4) (k % 4)) rf) (SLN_LANEl_STATUS_LF (k / 4) (k % 4)) lf

section Faults

variable {q : Fin 16} {l : Fin 4} {d e : Dev} {k : Nat}

theorem faultShown_spec (d : Dev) (k : Nat) (rf lf : Bool) : flag (faultShown d k rf lf) (SLN_LANEl_STATUS_RF (k / 4) (k % 4)) = rf
    ∧ flag (faultShown d k rf lf) (SLN_LANEl_STATUS_LF (k / 4) (k % 4)) = lf ∧ laneState (faultShown d k rf lf) k = laneState d k := by
  refine ⟨?_, flag_setFlag_same _ _ (by simp) (by simp), ?_⟩
  · rw [faultShown, flag_setFlag_apart _ _ (by simp [apart]), flag_setFlag_same _ _ (by simp) (by simp)]
  · rw [laneState, faultShown, fld_setFlag_apart _ _ (by simp [apart]), fld_setFlag_apart _ _ (by simp [apart]), ← laneState]

/-- A MAC that is held, or let go, follows the lane's status word and leaves it. -/
theorem syncHold_spec (hk : k < 64) {rf lf : Bool}
    (h : rd e (SLN_LANEl_STATUS (k / 4) (k % 4)) = rd (faultShown d k rf lf) (SLN_LANEl_STATUS (k / 4) (k % 4))) :
    flag (syncHold e k) (SLN_LANEl_STATUS_RF (k / 4) (k % 4)) = rf ∧ flag (syncHold e k) (SLN_LANEl_STATUS_LF (k / 4) (k % 4)) = lf
      ∧ laneState (syncHold e k) k = laneState d k
      ∧ flag (syncHold e k) (MAC_LANEl_STATUS_TX_HOLD (k / 4) (k % 4)) = (laneState d k != lnActive || lf || rf) := by
  obtain ⟨hrf, hlf, hst⟩ := faultShown_spec d k rf lf
  have hword := ((syncHold_keeps_sln e hk).rd (isSlnWord_status hk)).trans h
  have hstate : laneState e k = laneState d k := (fld_congr _ h).trans hst
  refine ⟨(flag_congr _ hword).trans hrf, (flag_congr _ hword).trans hlf, (fld_congr _ hword).trans hst, ?_⟩
  rw [txHold_syncHold e hk, txHold, hstate, flag_congr (SLN_LANEl_STATUS_LF (k / 4) (k % 4)) h, hlf,
    flag_congr (SLN_LANEl_STATUS_RF (k / 4) (k % 4)) h, hrf]

theorem faultReceived_of_cap (hk : k = 4 * q.val + l.val) (hst : laneState d k = lnCap ∨ laneState d k = lnActive) (b : Bool) :
    faultReceived q l b d = syncHold (dropTimer (faultShown d k b !b) (.laneCap k)) k := by
  have hgate : lnCap ≤ laneState d k ∧ laneState d k ≤ lnActive := by
    rcases hst with h | h
    · rw [h]
      decide
    · rw [h]
      decide
  subst hk
  rw [faultShown, lane_div, lane_mod, faultReceived]
  exact if_pos hgate

theorem faultClear_of_active (hk : k = 4 * q.val + l.val) (hst : laneState d k = lnActive) (hf : noFault d k = false) :
    faultClear q l d = syncHold (faultShown d k false false) k := by
  obtain ⟨-, -, hkeep⟩ := faultShown_spec d k false false
  have hstate : ¬ (laneState (faultShown d k false false) k = lnCap
      ∧ flag (faultShown d k false false) (SLN_LANEl_STATUS_BLOCK_LOCK q l) = true) := by
    rw [hkeep, hst]
    exact fun h => absurd h.1 (by decide)
  subst hk
  rw [faultShown, lane_div, lane_mod] at hstate ⊢
  unfold faultClear
  simp only [hf, Bool.false_eq_true, if_false]
  rw [if_neg hstate]

theorem rd_dropTimer (d : Dev) (t : TimerId) (r : Reg) : rd (dropTimer d t) r = rd d r := rfl

/-- A fault that is received shows, holds transmission and leaves the lane's state. -/
theorem faultReceived_spec (hk : k = 4 * q.val + l.val) (hst : laneState d k = lnCap ∨ laneState d k = lnActive) (b : Bool) :
    flag (faultReceived q l b d) (SLN_LANEl_STATUS_RF q l) = b ∧ flag (faultReceived q l b d) (SLN_LANEl_STATUS_LF q l) = !b
      ∧ laneState (faultReceived q l b d) k = laneState d k ∧ flag (faultReceived q l b d) (MAC_LANEl_STATUS_TX_HOLD q l) = true := by
  have hspec := syncHold_spec (d := d) (rf := b) (lf := !b) (hk ▸ lane_lt q l) (rd_dropTimer _ (.laneCap k) _)
  rw [← faultReceived_of_cap hk hst b, show k / 4 = q.val by omega, show k % 4 = l.val by omega] at hspec
  obtain ⟨hrf, hlf, hstate, hhold⟩ := hspec
  exact ⟨hrf, hlf, hstate, by rw [hhold, Bool.or_assoc, Bool.not_or_self, Bool.or_true]⟩

/-- Where the fault of an ACTIVE lane ends, it transmits again. -/
theorem faultClear_spec (hk : k = 4 * q.val + l.val) (hst : laneState d k = lnActive) (hf : noFault d k = false) :
    noFault (faultClear q l d) k = true ∧ flag (faultClear q l d) (MAC_LANEl_STATUS_TX_HOLD q l) = false := by
  obtain ⟨hrf, hlf, -, hhold⟩ := syncHold_spec (d := d) (rf := false) (lf := false) (hk ▸ lane_lt q l) rfl
  rw [← faultClear_of_active hk hst hf] at hrf hlf hhold
  refine ⟨by rw [noFault, hlf, hrf]; rfl, ?_⟩
  rw [show k / 4 = q.val by omega, show k % 4 = l.val by omega, hst] at hhold
  exact hhold

end Faults

/-! ### The elastic store (R213) -/

section Store

variable {q : Fin 16} {l : Fin 4} {d : Dev} {k : Nat} {v : Int} {n : Nat} (hk : k = 4 * q.val + l.val)
  (hst : laneState d k = lnCap ∨ laneState d k = lnActive) (hn : n = (((laneHw d k).fill : Int) + v).toNat)

include hk hst hn

theorem rateMatch_in_frame : rateMatch q l v true d
    = if n = 0 ∨ 32 ≤ n then count (setLane d k (fun h => { h with fill := 16, cut := true })) (SLN_LANEl_RM_OVF q l)
      else setLane d k (fun h => { h with fill := n }) := by
  subst hk hn
  exact if_pos hst.symm

theorem rateMatch_idle : rateMatch q l v false d
    = if 16 < n then count (setLane d k (fun h => { h with fill := min n 32 - 1 })) (SLN_LANEl_RM_DEL q l)
      else if n < 16 then count (setLane d k (fun h => { h with fill := n + 1 })) (SLN_LANEl_RM_INS q l)
      else setLane d k (fun h => { h with fill := n }) := by
  subst hk hn
  exact if_pos hst.symm

end Store

/-- Settles O47: a lane follows its conditions by `laneState_syncLaneState_off` and its like, and each command is the operation that its
lemma names. -/
theorem laneConditions : Obligations.LaneConditions := by
  refine ⟨fun d k hk => ⟨fun h => ?_, fun hp he hr hst href => ?_⟩, fun n s => ⟨fun h => ?_, ?_⟩,
    fun m q l value s => ⟨fun ha d hd => ?_, fun ha => ?_, ?_⟩,
    fun q l k s hk => ⟨fun hst b => ?_, fun hst hf => ?_, fun hst v n hn => ?_⟩⟩
  · refine laneState_syncLaneState_off hk ?_
    rcases h with h | h | h
    · simp [h]
    · simp [h]
    · simp [h]
  · exact laneState_syncLaneState_refWait hk (by simp [hp, he, hr]) hst href
  · exact ⟨refsFailed n s.dev, by rw [exec_refsBad, refsBad_of_ok h], regBit_refsFailed n s.dev⟩
  · exact ⟨refsRecovered n s.dev, by rw [exec_refsOk, refsGood_eq], regBit_refsRecovered n s.dev⟩
  · subst hd
    exact ⟨by rw [exec_hostPresWrite, exec_laneEnableWrite, hostPresWrite_eq], by rw [exec_laneEnableWrite, laneEnableWrite_admitted value ha]⟩
  · exact ⟨modeServed s.dev m q l value, by rw [exec_slnTestModeWrite, slnTestModeWrite_admitted value ha],
      laneTest_modeServed s.dev m q l value⟩
  · rw [exec_laneRestart, exec_slnTestModeWrite, laneRestart_eq]
  · exact ⟨_, exec_faultReceived q l s b, faultReceived_spec hk hst b⟩
  · exact ⟨_, exec_faultClear q l s, faultClear_spec hk hst hf⟩
  · refine ⟨fun h => ?_, fun h0 h32 => ?_, fun h => ?_, fun h => ?_, fun h => ?_⟩
    · rw [exec_rateMatch, rateMatch_in_frame hk hst hn, if_pos h]
    · rw [exec_rateMatch, rateMatch_in_frame hk hst hn, if_neg (by omega)]
    · rw [exec_rateMatch, rateMatch_idle hk hst hn, if_pos h]
    · rw [exec_rateMatch, rateMatch_idle hk hst hn, if_neg (by omega), if_pos h]
    · rw [exec_rateMatch, rateMatch_idle hk hst hn, if_neg (by omega), if_neg (by omega), h]

end Sys2Proof.Machine
end

section
/-!
PROOFS. The pause timers of a server MAC and its watchdog: what a count leaves of a MAC, and how a timer is loaded, stopped and tripped
(R229, R230, R232).
-/

namespace Sys2Proof.Machine

/-! ### Tables of timers -/

section Tables

variable {α : Type} {m : Sparse α} {k : Nat}

theorem find?_sdrop (m : Sparse α) (k : Nat) : (sdrop k m).find? (fun e => e.1 == k) = none :=
  List.find?_eq_none.mpr fun e he => by simpa using sdrop_keys m k e he

theorem any_sdrop (m : Sparse α) (k : Nat) : (sdrop k m).any (fun e => e.1 == k) = false :=
  List.any_eq_false.mpr fun e he => by simpa using sdrop_keys m k e he

theorem find?_sins (v : α) (h : ∀ e ∈ m, e.1 ≠ k) : (sins k v m).find? (fun e => e.1 == k) = some (k, v) := by
  induction m with
  | nil => simp [sins]
  | cons e t ih =>
    obtain ⟨a, w⟩ := e
    obtain ⟨ha, ht⟩ := List.forall_mem_cons.mp h
    by_cases hlt : a < k
    · have hskip : (a == k) = false := beq_false_of_ne ha
      simpa [sins, hlt, List.find?_cons, hskip] using ih ht
    · simp [sins, hlt]

theorem any_sins (m : Sparse α) (k : Nat) (v : α) : (sins k v m).any (fun e => e.1 == k) = true := by
  induction m with
  | nil => simp [sins]
  | cons e t ih =>
    obtain ⟨a, w⟩ := e
    by_cases hlt : a < k
    · rw [sins, if_pos hlt, List.any_cons, ih, Bool.or_true]
    · simp [sins, hlt]

end Tables

/-! ### The hidden state of a MAC -/

theorem macHw_setMac_same (d : Dev) (k : Nat) (f : MacHw → MacHw) : macHw (setMac d k f) k = f (macHw d k) := sget_sput_same _ _ _ _

theorem macHw_setFlag (d : Dev) (f : Fld) (b : Bool) (k : Nat) : macHw (setFlag d f b) k = macHw d k := rfl

theorem macHw_count (d : Dev) (r : Reg) (k : Nat) : macHw (count d r) k = macHw d k := rfl

theorem macHw_congr {d e : Dev} (h : e.macs = d.macs) (k : Nat) : macHw e k = macHw d k := by rw [macHw, h, macHw]

theorem raiseEvt_macs (d : Dev) (u : EvtUnit) (b : Nat) : (raiseEvt d u b).macs = d.macs := by
  obtain ⟨r, p, o, heq⟩ := raiseEvt_spec d u b
  rw [heq]

theorem macHw_raiseEvt (d : Dev) (u : EvtUnit) (b k : Nat) : macHw (raiseEvt d u b) k = macHw d k := macHw_congr (raiseEvt_macs d u b) k

theorem raiseEvt_elapsed (d : Dev) (u : EvtUnit) (b : Nat) : (raiseEvt d u b).elapsed = d.elapsed := by
  obtain ⟨r, p, o, heq⟩ := raiseEvt_spec d u b
  rw [heq]

/-! ### Counts leave the settings of the lanes and their MACs -/

/-- The words of the lanes in SLN, and those of their MACs below the counts (R224, R234). -/
def isSettingWord (o : Nat) : Prop := isSlnWord o ∨ (0xa00000 ≤ o ∧ o < 0xb00000 ∧ 0x1000 ≤ o % 0x10000 ∧ o % 0x100 < 0x20)

section Settings

variable {d e : Dev} (q : Fin 16) (l : Fin 4)

/-- The count at offset a of a lane's block of the MAC registers. -/
theorem not_isSettingWord_count {a : Nat} (h : 0x20 ≤ a) (ha : a < 0x100) :
    ¬ isSettingWord (0xa01000 + a + 0x10000 * q.val + 0x100 * l.val) := by
  simp only [isSettingWord, isSlnWord]
  omega

theorem isSettingWord_mac {a : Nat} (h : a < 0x20) :
    isSettingWord (0xa01000 + a + 0x10000 * q.val + 0x100 * l.val) := by
  simp only [isSettingWord, isSlnWord]
  omega

theorem isSettingWord_lane {a : Nat} (ha : a < 0x100) :
    isSettingWord (0x901000 + a + 0x10000 * q.val + 0x100 * l.val) := by
  simp only [isSettingWord, isSlnWord]
  omega

theorem keepsSettings_rxPause (d : Dev) : keepsWords isSettingWord d (count d (MAC_LANEl_RX_PAUSE q l)) :=
  (keepsWords.refl _ d).count (not_isSettingWord_count q l (a := 0x54) (by decide) (by decide))

theorem keepsSettings_rxPfc (d : Dev) : keepsWords isSettingWord d (count d (MAC_LANEl_RX_PFC q l)) :=
  (keepsWords.refl _ d).count (not_isSettingWord_count q l (a := 0x58) (by decide) (by decide))

section Kept

variable (h : keepsWords isSettingWord d e)

include h

theorem keepsSettings_macCfg : macCfg e (4 * q.val + l.val) = macCfg d (4 * q.val + l.val) := by
  rw [macCfg, macCfg, lane_div, lane_mod]
  exact h.rd (isSettingWord_mac q l (a := 0) (by decide))

theorem keepsSettings_fcMode : fcMode e (4 * q.val + l.val) = fcMode d (4 * q.val + l.val) := by
  rw [fcMode, keepsSettings_macCfg q l h, fcMode]

theorem keepsSettings_laneState : laneState e (4 * q.val + l.val) = laneState d (4 * q.val + l.val) := by
  rw [laneState, laneState, lane_div, lane_mod]
  exact h.fld (isSettingWord_lane q l (a := 0x10) (by decide))

theorem keepsSettings_laneTest : laneTest e (4 * q.val + l.val) = laneTest d (4 * q.val + l.val) := by
  rw [laneTest, laneTest, lane_div, lane_mod]
  exact h.fld (isSettingWord_lane q l (a := 8) (by decide))

theorem keepsSettings_quantumPs : quantumPs e (4 * q.val + l.val) = quantumPs d (4 * q.val + l.val) := by
  rw [quantumPs, quantumPs, bytePs, bytePs, lane_div, lane_mod]
  rw [h.fld (f := SLN_LANEl_STATUS_RES_SPEED q l) (isSettingWord_lane q l (a := 0x10) (by decide))]

theorem keepsSettings_pauseRxOn (hl : e.lanes = d.lanes) :
    pauseRxOn e (4 * q.val + l.val) = pauseRxOn d (4 * q.val + l.val) := by
  have hcfg : laneCfg e (4 * q.val + l.val) = laneCfg d (4 * q.val + l.val) := by
    rw [laneCfg, laneCfg, keepsSettings_laneState q l h, laneHw, laneHw, hl, lane_div, lane_mod,
      h.rd (q := SLN_LANEl_CFG q l) (isSettingWord_lane q l (a := 0) (by decide))]
  rw [pauseRxOn, pauseRxOn, hcfg, lane_div, lane_mod]
  rw [h.flag (f := SLN_LANEl_STATUS_PAUSE_RX q l) (isSettingWord_lane q l (a := 0x10) (by decide))]

/-- A control frame that the device sends is made of its port's address. -/
theorem keepsSettings_flowFrame (key quanta : Nat) :
    flowFrame e (4 * q.val + l.val) key quanta = flowFrame d (4 * q.val + l.val) key quanta := by
  simp only [flowFrame, lane_div, lane_mod]
  rw [h.rdn (q := MAC_LANEl_ADDR_LO q l) (isSettingWord_mac q l (a := 4) (by decide)),
    h.fld (f := MAC_LANEl_ADDR_HI_ADDR q l) (isSettingWord_mac q l (a := 8) (by decide))]

end Kept

end Settings

/-! ### Timers (R230, R232) -/

theorem watchdogDue_congr {d e : Dev} {k : Nat} (hcfg : macCfg e k = macCfg d k) (hmac : e.macs = d.macs) (ht : e.elapsed = d.elapsed)
    (key : Nat) : watchdogDue e k key = watchdogDue d k key := by
  have htimer : pauseTimer e k key = pauseTimer d k key := by rw [pauseTimer, macHw_congr hmac, pauseTimer]
  rw [watchdogDue, watchdogDue, wdEn, wdEn, paused, paused, elapsedPs, elapsedPs, hcfg, htimer, ht]

theorem pauseTimer_of_timers {d e : Dev} {k : Nat} (h : (macHw e k).timers = (macHw d k).timers) (key : Nat) :
    pauseTimer e k key = pauseTimer d k key := by rw [pauseTimer, h, pauseTimer]

theorem paused_of_none {d : Dev} {k key : Nat} (h : pauseTimer d k key = none) : paused d k key = false := by rw [paused, h]

theorem pauseTimer_stopPause (d : Dev) (k key : Nat) : pauseTimer (stopPause d k key) k key = none := by
  have hmac : (macHw (stopPause d k key) k).timers = sdrop key (macHw d k).timers := by
    rw [stopPause, macHw_setFlag, macHw_setMac_same]
  rw [pauseTimer, hmac, find?_sdrop, Option.map_none]

theorem paused_stopPause (d : Dev) (k key : Nat) : paused (stopPause d k key) k key = false := paused_of_none (pauseTimer_stopPause d k key)

/-- A trip stops the timer and begins the ignore period. -/
theorem macHw_tripWatchdog (d : Dev) (k key : Nat) : macHw (tripWatchdog d k key) k = { macHw (stopPause d k key) k with
    ignore := sins key (d.elapsed + 10 * ticksPerMs) (sdrop key (macHw (stopPause d k key) k).ignore) } := by
  simp only [tripWatchdog, macHw_raiseEvt, macHw_setFlag, macHw_count, macHw_setMac_same]
  rfl

theorem ignoring_tripWatchdog (d : Dev) (k key : Nat) : ignoring (tripWatchdog d k key) k key = true := by
  rw [ignoring, macHw_tripWatchdog]
  exact any_sins _ _ _

theorem paused_tripWatchdog (d : Dev) (k key : Nat) : paused (tripWatchdog d k key) k key = false :=
  paused_of_none ((pauseTimer_of_timers (by rw [macHw_tripWatchdog]) key).trans (pauseTimer_stopPause d k key))

section Load

variable {d : Dev} {k key : Nat}

theorem loadPause_of_ignoring (hw : watchdogDue d k key = false) (hi : ignoring d k key = true) (quanta ps : Nat) :
    loadPause d k key quanta ps = d := by
  simp [loadPause, hw, hi]

theorem loadPause_zero (hw : watchdogDue d k key = false) (hi : ignoring d k key = false) (ps : Nat) :
    loadPause d k key 0 ps = stopPause d k key := by
  simp [loadPause, hw, hi]

/-- The timer that a control frame with quanta loads: one that is still nonzero stays so without a break. -/
def loadedTimer (d : Dev) (k key quanta ps : Nat) : PauseTimer :=
  let fresh : PauseTimer :=
    { stop := elapsedPs d + ps + quanta * quantumPs d k, since := d.elapsed, held := elapsedPs d + ps + 200000 }
  match pauseTimer d k key with
  | some t => if paused d k key then { fresh with since := t.since, held := min t.held fresh.held } else fresh
  | none => fresh

theorem loadedTimer_stop (d : Dev) (k key quanta ps : Nat) :
    (loadedTimer d k key quanta ps).stop = elapsedPs d + ps + quanta * quantumPs d k := by
  unfold loadedTimer
  split
  · split
    · rfl
    · rfl
  · rfl

/-- The MAC with a timer loaded, and shown nonzero. -/
def timerSet (d : Dev) (k key : Nat) (t : PauseTimer) : Dev :=
  setFlag (setMac d k (fun m => { m with timers := sins key t (sdrop key m.timers) })) (pauseBit k key) true

theorem pauseTimer_timerSet (d : Dev) (k key : Nat) (t : PauseTimer) : pauseTimer (timerSet d k key t) k key = some t := by
  have hmac : (macHw (timerSet d k key t) k).timers = sins key t (sdrop key (macHw d k).timers) := by
    rw [timerSet, macHw_setFlag, macHw_setMac_same]
  rw [pauseTimer, hmac, find?_sins t (sdrop_keys _ _), Option.map_some]

/-- With quanta the timer is set; a Sync that it holds is skipped. -/
theorem loadPause_of_quanta (hw : watchdogDue d k key = false) (hi : ignoring d k key = false) {quanta : Nat} (hq : quanta ≠ 0) (ps : Nat) :
    loadPause d k key quanta ps = skipSync (timerSet d k key (loadedTimer d k key quanta ps)) k
      ∨ loadPause d k key quanta ps = timerSet d k key (loadedTimer d k key quanta ps) := by
  simp only [loadPause, hw, hi, hq, Bool.false_eq_true, if_false]
  exact ite_eq_or_eq _ _ _

end Load

/-! ### A Sync that is skipped (R302) -/

/-- Skipping a Sync takes it from the transmit buffer, and changes nothing else of the MAC. -/
theorem macHw_syncsLeft (d : Dev) (k : Nat) (inMac : Bool) :
    macHw (syncsLeft d k inMac) k = macHw d k ∨ macHw (syncsLeft d k inMac) k = { macHw d k with tx := none } := by
  cases inMac with
  | false => exact .inl rfl
  | true =>
    simp only [syncsLeft, if_true, macHw_setMac_same]
    exact .inr rfl

theorem macHw_skipSync (d : Dev) (k : Nat) : macHw (skipSync d k) k = macHw d k ∨ macHw (skipSync d k) k = { macHw d k with tx := none } := by
  rcases skipSync_cases d k with heq | ⟨b, n, heq⟩
  · exact .inl (by rw [heq])
  · have hmac : macHw (skipSync d k) k = macHw (syncsLeft d k b) k := by
      rw [heq]
      exact macHw_congr (raiseEvt_macs _ _ _) k
    rw [hmac]
    exact macHw_syncsLeft d k b

theorem skipSync_timers (d : Dev) (k : Nat) : (macHw (skipSync d k) k).timers = (macHw d k).timers := by
  rcases macHw_skipSync d k with h | h
  · rw [h]
  · rw [h]

theorem skipSync_elapsed (d : Dev) (k : Nat) : (skipSync d k).elapsed = d.elapsed := by
  rcases skipSync_cases d k with heq | ⟨b, n, heq⟩
  · rw [heq]
  · rw [heq, raiseEvt_elapsed]
    cases b with
    | false => rfl
    | true => rfl

theorem quantumPs_pos (d : Dev) (k : Nat) : 0 < quantumPs d k := by
  simp only [quantumPs, bytePs]
  split_ifs <;> decide

/-- PAUSE with quanta runs the timer until they have passed. -/
theorem loadPause_runs {d : Dev} {k key quanta : Nat} (hw : watchdogDue d k key = false) (hi : ignoring d k key = false) (hq : quanta ≠ 0)
    (ps : Nat) : paused (loadPause d k key quanta ps) k key = true
      ∧ (pauseTimer (loadPause d k key quanta ps) k key).map (·.stop) = some (elapsedPs d + ps + quanta * quantumPs d k) := by
  have hset : pauseTimer (loadPause d k key quanta ps) k key = some (loadedTimer d k key quanta ps)
      ∧ (loadPause d k key quanta ps).elapsed = d.elapsed := by
    rcases loadPause_of_quanta hw hi hq ps with heq | heq
    · rw [heq]
      exact ⟨(pauseTimer_of_timers (skipSync_timers _ k) key).trans (pauseTimer_timerSet d k key _), skipSync_elapsed _ k⟩
    · rw [heq]
      exact ⟨pauseTimer_timerSet d k key _, rfl⟩
  obtain ⟨htimer, helapsed⟩ := hset
  have hpos : 0 < quanta * quantumPs d k := Nat.mul_pos (Nat.pos_of_ne_zero hq) (quantumPs_pos d k)
  rw [paused, htimer, Option.map_some, loadedTimer_stop]
  refine ⟨?_, rfl⟩
  simp only [elapsedPs, helapsed, loadedTimer_stop, decide_eq_true_eq]
  omega

/-! ### The commands -/

section Exec

variable (q : Fin 16) (l : Fin 4) (key : Fin 9) (s : State)

theorem exec_pauseRx (quanta : BitVec 16) (ps : Nat) :
    exec (.pauseRx q l quanta ps) s = .next (s.withDev (pauseRx q l quanta ps s.dev)) := rfl

theorem exec_pfcRx (e : BitVec 8) (qs : List Nat) (ps : Nat) :
    exec (.pfcRx q l e qs ps) s = .next (s.withDev (pfcRx q l e qs ps s.dev)) := rfl

theorem exec_pauseExpire : exec (.pauseExpire q l key) s = .next (s.withDev (pauseExpire q l key s.dev)) := rfl

theorem exec_pauseWatchdog : exec (.pauseWatchdog q l key) s = .next (s.withDev (pauseWatchdog q l key s.dev)) := rfl

theorem exec_wdIgnoreEnd : exec (.wdIgnoreEnd q l key) s = .next (s.withDev (wdIgnoreEnd q l key s.dev)) := rfl

end Exec

/-- The ignore period of a timer has ended. -/
def ignoreEnded (d : Dev) (k key : Nat) : Dev :=
  setFlag (setMac d k (fun m => { m with ignore := sdrop key m.ignore })) (ignoreBit k key) false

theorem ignoring_ignoreEnded (d : Dev) (k key : Nat) : ignoring (ignoreEnded d k key) k key = false := by
  have hmac : (macHw (ignoreEnded d k key) k).ignore = sdrop key (macHw d k).ignore := by
    rw [ignoreEnded, macHw_setFlag, macHw_setMac_same]
  rw [ignoring, hmac, any_sdrop]

section Commands

variable {q : Fin 16} {l : Fin 4} {key : Fin 9} {d : Dev} {k : Nat} (hk : k = 4 * q.val + l.val)

include hk

theorem pauseWatchdog_of_due (h : watchdogDue d k key = true) : pauseWatchdog q l key d = tripWatchdog d k key := by
  subst hk
  exact if_pos h

theorem pauseExpire_of_over {t : PauseTimer} (ht : pauseTimer d k key = some t) (h : t.stop ≤ elapsedPs d) :
    pauseExpire q l key d = stopPause d k key := by
  subst hk
  simp only [pauseExpire, ht]
  exact if_pos h

theorem wdIgnoreEnd_of_over {t : Nat} (h : (macHw d k).ignore = [(key.val, t)]) (ht : t ≤ d.elapsed) :
    wdIgnoreEnd q l key d = ignoreEnded d k key := by
  subst hk
  simp only [wdIgnoreEnd, h, List.find?_cons, beq_self_eq_true]
  exact if_pos ht

variable (hst : laneState d k = lnActive)

include hst

theorem pauseRx_of_active (quanta : BitVec 16) (ps : Nat) : pauseRx q l quanta ps d
    = if fcMode d k = 1 ∧ pauseRxOn d k then loadPause (count d (MAC_LANEl_RX_PAUSE q l)) k 0 quanta.toNat ps
      else count d (MAC_LANEl_RX_PAUSE q l) := by
  subst hk
  have hkeep := keepsSettings_rxPause q l d
  simp only [pauseRx, hst, ne_eq, not_true_eq_false, if_false, keepsSettings_fcMode q l hkeep, keepsSettings_pauseRxOn q l hkeep rfl]

/-- A PAUSE frame that acts is taken with the timer, the watchdog and the quanta as they were. -/
theorem pauseRx_spec (hm : fcMode d k = 1) (hon : pauseRxOn d k = true) (hw : watchdogDue d k 0 = false) (hi : ignoring d k 0 = false)
    (quanta : BitVec 16) (ps : Nat) : (quanta = 0 → paused (pauseRx q l quanta ps d) k 0 = false)
      ∧ (quanta ≠ 0 → paused (pauseRx q l quanta ps d) k 0 = true
        ∧ (pauseTimer (pauseRx q l quanta ps d) k 0).map (·.stop) = some (elapsedPs d + ps + quanta.toNat * quantumPs d k)) := by
  rw [pauseRx_of_active hk hst, if_pos ⟨hm, hon⟩]
  subst hk
  have hkeep := keepsSettings_rxPause q l d
  have hwatch := (watchdogDue_congr (keepsSettings_macCfg q l hkeep) rfl rfl 0).trans hw
  refine ⟨fun h => ?_, fun h => ?_⟩
  · subst h
    exact (congrArg (paused · _ 0) (loadPause_zero hwatch hi ps)).trans (paused_stopPause _ _ 0)
  · rw [← keepsSettings_quantumPs q l hkeep]
    exact loadPause_runs hwatch hi (fun h0 => h (BitVec.eq_of_toNat_eq h0)) ps

theorem pfcRx_of_active (e : BitVec 8) (qs : List Nat) (ps : Nat) : pfcRx q l e qs ps d
    = if fcMode d k = 2 then forEach (List.range 8) (fun d p => if e.getLsbD p then loadPause d k (1 + p) (qs.getD p 0 % 0x10000) ps else d)
          (count d (MAC_LANEl_RX_PFC q l))
      else count d (MAC_LANEl_RX_PFC q l) := by
  subst hk
  have hkeep := keepsSettings_rxPfc q l d
  simp only [pfcRx, hst, ne_eq, not_true_eq_false, if_false, keepsSettings_fcMode q l hkeep]

/-- The enable vector 1 names priority 0 alone. -/
theorem pfcRx_one (hm : fcMode d k = 2) (qs : List Nat) (ps : Nat) :
    pfcRx q l 1 qs ps d = loadPause (count d (MAC_LANEl_RX_PFC q l)) k 1 (qs.getD 0 0 % 0x10000) ps := by
  rw [pfcRx_of_active hk hst, if_pos hm]
  rfl

end Commands

end Sys2Proof.Machine
end

section
/-!
PROOFS. Frames that a server MAC receives: what the lane has decoded, the checks of the length and of the FCS, and the parser (R219, R226).
-/

namespace Sys2Proof.Machine

/-! ### What the receive path has decoded (R219) -/

/-- The codewords of a lane in a mode with FEC are counted. -/
def codewordsCounted (d : Dev) (k : Nat) (w : LaneDecode) : Dev :=
  if (laneHw d k).fec = 0 then d
  else countBy (countBy (countBy d (SLN_LANEl_FEC_CORR_CW (k / 4) (k % 4)) w.corrected) (SLN_LANEl_FEC_SYM (k / 4) (k % 4)) w.symbols)
    (SLN_LANEl_FEC_UNCORR_CW (k / 4) (k % 4)) (w.uncorrectable + w.marked)

theorem codewordsCounted_spec (d : Dev) (k : Nat) (w : LaneDecode) : ∃ r, codewordsCounted d k w = { d with regs := r } := by
  unfold codewordsCounted
  split
  · exact ⟨d.regs, rfl⟩
  · exact ⟨_, rfl⟩

/-- HI_BER is shown as it is declared, and its timer runs from where it rises. -/
def hiBerShown (d : Dev) (k : Nat) (hiBer : Bool) : Dev :=
  let e := setFlag d (SLN_LANEl_STATUS_HI_BER (k / 4) (k % 4)) hiBer
  if hiBer then
    if flag d (SLN_LANEl_STATUS_HI_BER (k / 4) (k % 4)) then e
    else startTimer e (.laneBer k) (fld e (SLN_LANEl_TIMERS_LINK_TO (k / 4) (k % 4)) * ticksPerMs)
  else dropTimer e (.laneBer k)

theorem hiBerShown_spec (d : Dev) (k : Nat) (hiBer : Bool) :
    ∃ t, hiBerShown d k hiBer = { setFlag d (SLN_LANEl_STATUS_HI_BER (k / 4) (k % 4)) hiBer with timers := t } := by
  unfold hiBerShown
  simp only
  split
  · split
    · exact ⟨_, rfl⟩
    · exact ⟨_, rfl⟩
  · exact ⟨_, rfl⟩

theorem decoded_eq_hiBerShown (d : Dev) (k : Nat) (w : LaneDecode) : decoded d k w = hiBerShown (codewordsCounted d k w) k w.hiBer := rfl

theorem decoded_eq (d : Dev) (k : Nat) (w : LaneDecode) : ∃ t, decoded d k w
    = { setFlag (codewordsCounted d k w) (SLN_LANEl_STATUS_HI_BER (k / 4) (k % 4)) w.hiBer with timers := t } := by
  rw [decoded_eq_hiBerShown]
  exact hiBerShown_spec _ k w.hiBer

/-- Decoding touches registers and timers, and nothing else. -/
theorem decoded_spec (d : Dev) (k : Nat) (w : LaneDecode) : ∃ r t, decoded d k w = { d with regs := r, timers := t } := by
  obtain ⟨t, ht⟩ := decoded_eq d k w
  obtain ⟨r, hr⟩ := codewordsCounted_spec d k w
  rw [ht, hr]
  exact ⟨_, t, rfl⟩

theorem codewordsCounted_keeps (d : Dev) {w : Nat → Prop} {k : Nat} (v : LaneDecode) (h : ∀ a, 0x5c ≤ a → a ≤ 0x64 →
    ¬ w (0x901000 + a + 0x10000 * (k / 4) + 0x100 * (k % 4))) : keepsWords w d (codewordsCounted d k v) := by
  unfold codewordsCounted
  split
  · exact keepsWords.refl w d
  · exact (((keepsWords.refl w d).countBy (r := SLN_LANEl_FEC_CORR_CW (k / 4) (k % 4)) (h 0x5c (by decide) (by decide)) _).countBy
      (r := SLN_LANEl_FEC_SYM (k / 4) (k % 4)) (h 0x64 (by decide) (by decide)) _).countBy
      (r := SLN_LANEl_FEC_UNCORR_CW (k / 4) (k % 4)) (h 0x60 (by decide) (by decide)) _

theorem laneState_decoded (d : Dev) (k : Nat) (w : LaneDecode) : laneState (decoded d k w) k = laneState d k := by
  obtain ⟨t, ht⟩ := decoded_eq d k w
  have hcount : laneState (codewordsCounted d k w) k = laneState d k :=
    (codewordsCounted_keeps (w := (· = (SLN_LANEl_STATUS (k / 4) (k % 4)).ofs)) d w (by simp only; omega)).fld rfl
  rw [ht, ← hcount]
  exact fld_setFlag_apart _ _ (by simp [apart])

theorem macCfg_decoded (d : Dev) (k : Nat) (w : LaneDecode) : macCfg (decoded d k w) k = macCfg d k := by
  obtain ⟨t, ht⟩ := decoded_eq d k w
  have hcount : macCfg (codewordsCounted d k w) k = macCfg d k :=
    (codewordsCounted_keeps (w := (· = (MAC_LANEl_CFG (k / 4) (k % 4)).ofs)) d w (by simp only; omega)).rd rfl
  rw [ht, ← hcount]
  exact rd_setFlag_other _ _ (by simp only; omega)

/-! ### A frame as it comes off the lane (R226) -/

/-- The lane has decoded the frame, and what the elastic store had ended has been noted. -/
def frameOff (d : Dev) (k : Nat) (w : LaneDecode) : Dev := setLane (decoded d k w) k (fun h => { h with cut := false })

section Receive

variable {q : Fin 16} {l : Fin 4} {frame : List Byte} {dec : LaneDecode} {ps k : Nat} {d : Dev}

theorem exec_macRxFrame (q : Fin 16) (l : Fin 4) (frame : List Byte) (err : Bool) (dec : LaneDecode) (ps : Nat) (s : State) :
    exec (.macRxFrame q l frame err dec ps) s = .next (s.withDev (macRxFrame q l frame err dec ps s.dev)) := rfl

theorem laneState_frameOff (d : Dev) (k : Nat) (w : LaneDecode) : laneState (frameOff d k w) k = laneState d k := laneState_decoded d k w

theorem maxLen_frameOff (d : Dev) (k : Nat) (w : LaneDecode) : maxLen (frameOff d k w) k = maxLen d k :=
  congrArg (getBits · 13 0) (macCfg_decoded d k w)

theorem prsIn_frameOff (d : Dev) (k : Nat) (w : LaneDecode) : (frameOff d k w).prsIn = d.prsIn := by
  obtain ⟨r, t, h⟩ := decoded_spec d k w
  rw [frameOff, h]
  rfl

/-- In ACTIVE a frame with a mark ends in error, and a whole one is checked. -/
theorem macRxFrame_of_active (hk : k = 4 * q.val + l.val) (hst : laneState d k = lnActive) (err : Bool) :
    macRxFrame q l frame err dec ps d
      = if err || (laneHw d k).cut || ((laneHw d k).fec != 0 && dec.marked != 0) then errorFrame (frameOff d k dec) k
        else receiveFrame q l frame ps (frameOff d k dec) := by
  obtain ⟨r, t, h⟩ := decoded_spec d k dec
  have hhw : laneHw (decoded d k dec) k = laneHw d k := by
    rw [h]
    rfl
  subst hk
  simp only [macRxFrame, hst, true_or, if_true, hhw, frameOff]

theorem errorFrame_of_active (hk : k = 4 * q.val + l.val) (hst : laneState d k = lnActive) :
    errorFrame d k = setLane (count d (MAC_LANEl_RX_ERR q l)) k (fun h => { h with left' := none }) := by
  subst hk
  rw [errorFrame, if_pos (.inl hst), lane_div, lane_mod]

section Checks

variable (hk : k = 4 * q.val + l.val) (hst : laneState d k = lnActive)

include hk hst

theorem receiveFrame_runt (h : frame.length ≤ 63) : receiveFrame q l frame ps d = count d (MAC_LANEl_RX_RUNT q l) := by
  subst hk
  simp only [receiveFrame, hst, ne_eq, not_true_eq_false, if_false, if_pos h]

variable (h64 : 64 ≤ frame.length)

include h64

theorem receiveFrame_long (h : maxLen d k < frame.length) : receiveFrame q l frame ps d = count d (MAC_LANEl_RX_LONG q l) := by
  subst hk
  simp only [receiveFrame, hst, ne_eq, not_true_eq_false, if_false, if_neg (show ¬ frame.length ≤ 63 by omega),
    if_pos (show maxLen d (4 * q.val + l.val) + 1 ≤ frame.length from h)]

variable (hlen : frame.length ≤ maxLen d k)

include hlen

theorem receiveFrame_badFcs (h : fcsGood frame = false) : receiveFrame q l frame ps d = count d (MAC_LANEl_RX_FCS q l) := by
  subst hk
  simp only [receiveFrame, hst, ne_eq, not_true_eq_false, if_false, if_neg (show ¬ frame.length ≤ 63 by omega),
    if_neg (show ¬ maxLen d (4 * q.val + l.val) + 1 ≤ frame.length by omega), h, Bool.not_false, if_true]

/-- A good frame that is no control frame goes to the parser as it was received. -/
theorem receiveFrame_parsed (h : fcsGood frame = true) (htype : beNat (slice frame 12 2) ≠ 0x8808) :
    ∃ f : RxFrame, (receiveFrame q l frame ps d).prsIn = d.prsIn ++ [f] ∧ f.bytes = frame ∧ f.src = .lane k := by
  subst hk
  simp only [receiveFrame, hst, ne_eq, not_true_eq_false, if_false, if_neg (show ¬ frame.length ≤ 63 by omega),
    if_neg (show ¬ maxLen d (4 * q.val + l.val) + 1 ≤ frame.length by omega), h, Bool.not_true, Bool.false_eq_true, htype]
  exact ⟨_, rfl, rfl, rfl⟩

end Checks

end Receive

/-! ### What the MAC holds meanwhile -/

/-- MAC k holds no frame. -/
def txEmpty (d : Dev) (k : Nat) : Prop := (macHw d k).tx = none

section Empty

variable {d e : Dev} {k : Nat}

theorem txEmpty.of_macs (h : txEmpty d k) (he : e.macs = d.macs) : txEmpty e k := (congrArg MacHw.tx (macHw_congr he k)).trans h

theorem txEmpty.count (h : txEmpty d k) (r : Reg) : txEmpty (count d r) k := h

/-- A change of the MAC that leaves its transmit buffer alone. -/
theorem txEmpty.setMac (h : txEmpty d k) {f : MacHw → MacHw} (hf : ∀ m, (f m).tx = m.tx) : txEmpty (setMac d k f) k :=
  ((congrArg MacHw.tx (macHw_setMac_same d k f)).trans (hf _)).trans h

theorem txEmpty_stopPause (h : txEmpty d k) (key : Nat) : txEmpty (stopPause d k key) k :=
  (h.setMac (f := fun m => { m with timers := sdrop key m.timers }) fun _ => rfl).of_macs rfl

theorem txEmpty_tripWatchdog (h : txEmpty d k) (key : Nat) : txEmpty (tripWatchdog d k key) k :=
  (congrArg MacHw.tx (macHw_tripWatchdog d k key)).trans (txEmpty_stopPause h key)

theorem txEmpty_skipSync (h : txEmpty d k) : txEmpty (skipSync d k) k := by
  rcases macHw_skipSync d k with heq | heq
  · exact (congrArg MacHw.tx heq).trans h
  · exact congrArg MacHw.tx heq

theorem txEmpty_timerSet (h : txEmpty d k) (key : Nat) (t : PauseTimer) : txEmpty (timerSet d k key t) k :=
  (h.setMac (f := fun m => { m with timers := sins key t (sdrop key m.timers) }) fun _ => rfl).of_macs rfl

/-- What a control frame does to a timer, once a trip that is due has been made. -/
theorem loadPause_cases (d : Dev) (k key quanta ps : Nat) :
    ∃ e, (e = d ∨ e = tripWatchdog d k key) ∧ (loadPause d k key quanta ps = e ∨ loadPause d k key quanta ps = stopPause e k key
      ∨ ∃ t, loadPause d k key quanta ps = skipSync (timerSet e k key t) k ∨ loadPause d k key quanta ps = timerSet e k key t) := by
  refine ⟨if watchdogDue d k key then tripWatchdog d k key else d, (ite_eq_or_eq _ _ _).symm, ?_⟩
  unfold loadPause
  generalize (if watchdogDue d k key then tripWatchdog d k key else d) = e
  simp only
  split
  · exact .inl rfl
  · split
    · exact .inr (.inl rfl)
    · exact .inr (.inr ⟨loadedTimer e k key quanta ps, ite_eq_or_eq _ _ _⟩)

theorem txEmpty_loadPause (h : txEmpty d k) (key quanta ps : Nat) : txEmpty (loadPause d k key quanta ps) k := by
  obtain ⟨e, he, heq⟩ := loadPause_cases d k key quanta ps
  have hempty : txEmpty e k := by
    rcases he with rfl | rfl
    · exact h
    · exact txEmpty_tripWatchdog h key
  rcases heq with heq | heq | ⟨t, heq | heq⟩
  · rwa [heq]
  · rw [heq]
    exact txEmpty_stopPause hempty key
  · rw [heq]
    exact txEmpty_skipSync (txEmpty_timerSet hempty key t)
  · rw [heq]
    exact txEmpty_timerSet hempty key t

variable {q : Fin 16} {l : Fin 4} (hk : k = 4 * q.val + l.val) (h : txEmpty d k)

include hk h

theorem txEmpty_pauseRx (quanta : BitVec 16) (ps : Nat) : txEmpty (pauseRx q l quanta ps d) k := by
  subst hk
  simp only [pauseRx]
  split
  · exact h
  · split
    · exact txEmpty_loadPause (h.count _) _ _ _
    · exact h.count _

theorem txEmpty_pfcRx (enable : BitVec 8) (qs : List Nat) (ps : Nat) : txEmpty (pfcRx q l enable qs ps d) k := by
  subst hk
  simp only [pfcRx]
  split
  · exact h
  · split
    · refine forEach_keeps (P := (txEmpty · _)) (fun e p he => ?_) _ (h.count _)
      split
      · exact txEmpty_loadPause he _ _ _
      · exact he
    · exact h.count _

theorem txEmpty_controlFrame (frame : List Byte) (ps : Nat) : txEmpty (controlFrame d q l frame ps) k := by
  unfold controlFrame
  simp only
  split
  · exact h.count _
  · split
    · exact txEmpty_pauseRx hk h _ _
    · split
      · exact txEmpty_pfcRx hk h _ _ _
      · exact h.count _

/-- A MAC that holds no frame holds none after it has received one. -/
theorem txEmpty_receiveFrame (frame : List Byte) (ps : Nat) : txEmpty (receiveFrame q l frame ps d) k := by
  unfold receiveFrame
  simp only
  split_ifs
  · exact h
  · exact h.count _
  · exact h.count _
  · exact h.count _
  · exact txEmpty_controlFrame hk h _ _
  · exact h.of_macs rfl

end Empty

end Sys2Proof.Machine
end

section
/-!
PROOFS. Frames that a server MAC sends, its requests for flow control, and the statement about the MACs (R226, R227, R229 to R232).
-/

namespace Sys2Proof.Machine

/-! ### Completions of a ring (R331) leave the MACs -/

/-- The registers below the host interface, and the MACs beside their registers, are in e as in d. -/
structure keepsMacs (d e : Dev) : Prop where
  words : keepsWords (· < 0xf00000) d e
  macs : e.macs = d.macs

section Completions

variable {d e : Dev}

theorem keepsMacs.refl (d : Dev) : keepsMacs d d := ⟨keepsWords.refl _ d, rfl⟩

theorem keepsMacs_showIndex (h : keepsMacs d e) (c : Nat) : keepsMacs d (showIndex e c) :=
  ⟨h.words.setFld (f := HIF_Rr_STATUS_INDEX c) (by simp only; omega) _, h.macs⟩

theorem keepsMacs_syncFull (h : keepsMacs d e) (c : Nat) : keepsMacs d (syncFull e c) :=
  ⟨h.words.setFlag (f := HIF_Rr_STATUS_CQ_FULL c) (by simp only; omega) (cqFull e c), h.macs⟩

theorem keepsMacs.setRing (h : keepsMacs d e) (r : Nat) (f : RingHw → RingHw) : keepsMacs d (setRing e r f) := ⟨h.words, h.macs⟩

theorem keepsMacs_signalVector (h : keepsMacs d e) (f v : Nat) : keepsMacs d (signalVector e f v) := by
  obtain ⟨p, o, heq⟩ := signalVector_spec e f v
  rw [heq]
  exact ⟨h.words, h.macs⟩

theorem keepsMacs_postCq (h : keepsMacs d e) (c : Nat) (bs : List Byte) : keepsMacs d (postCq e c bs) := by
  obtain ⟨g, hg, heq⟩ := postCq_cases e c bs
  have hwritten : keepsMacs d (completionWritten e c bs) := ⟨h.words, h.macs⟩
  have hkeep : keepsMacs d g := hg ▸ keepsMacs_syncFull (keepsMacs_showIndex hwritten c) c
  rcases heq with heq | heq
  · rw [heq]
    exact keepsMacs_signalVector (hkeep.setRing c _) _ _
  · rwa [heq]

theorem keepsMacs_settleFrom (n : Nat) (h : keepsMacs d e) (r : Nat) : keepsMacs d (settleFrom n e r) := by
  induction n generalizing e with
  | zero => exact h
  | succ n ih =>
    unfold settleFrom
    split
    · split
      · split
        · exact ih (keepsMacs_postCq (h.setRing r _) _ _)
        · exact h
      · exact h
    · exact h

theorem keepsMacs_txResult (d : Dev) (r index status : Nat) (stamp : Option Nat) : keepsMacs d (txResult d r index status stamp) := by
  unfold txResult
  split
  · unfold closeEntry settle
    split
    · exact keepsMacs_settleFrom _ ((keepsMacs.refl d).setRing r _) r
    · exact (keepsMacs.refl d).setRing r _
  · exact keepsMacs.refl d

/-- The host's wish for the stamp of a frame ends. -/
def stampWishEnds (d : Dev) (f : BufFrame) (status : Nat) (stamp : Option Nat) : Dev :=
  match f.tx with
  | some (r, i) => txResult d r i status stamp
  | none => d

theorem keepsMacs_stampWishEnds (d : Dev) (f : BufFrame) (status : Nat) (stamp : Option Nat) :
    keepsMacs d (stampWishEnds d f status stamp) := by
  unfold stampWishEnds
  split
  · exact keepsMacs_txResult _ _ _ _ _
  · exact keepsMacs.refl d

theorem stampWishEnds_of_none {f : BufFrame} (h : f.tx = none) (d : Dev) (status : Nat) (stamp : Option Nat) :
    stampWishEnds d f status stamp = d := by rw [stampWishEnds, h]

end Completions

/-! ### A frame leaves the MAC (R227) -/

/-- A frame below 64 bytes is counted, -/
def padCounted (q : Fin 16) (l : Fin 4) (d : Dev) (f : BufFrame) : Dev := if f.bytes.length ≤ 63 then count d (MAC_LANEl_TX_PAD q l) else d

/-- and padded. -/
def framePadded (f : BufFrame) : BufFrame := if f.bytes.length ≤ 63 then { f with bytes := padFrame f.bytes } else f

/-- A Sync is launched, and any other frame corrected. -/
def frameTimed (k ps : Nat) (d : Dev) (f : BufFrame) (out : Option Nat) : Dev × BufFrame :=
  match f.launch with
  | some t => launchSync d k f t (out.getD (instant16 d ps))
  | none => correctOut d k f out

/-- The counts of a frame of n bytes that is sent. -/
def sendCounted (q : Fin 16) (l : Fin 4) (n : Nat) (d : Dev) : Dev :=
  bwAdd (countPairBy (countPairBy d (MAC_LANEl_TX_FRAMES_LO q l) (MAC_LANEl_TX_FRAMES_HI q l) countTop 1)
    (MAC_LANEl_TX_BYTES_LO q l) (MAC_LANEl_TX_BYTES_HI q l) countTop n) (2 * (4 * q.val + l.val) + 1) n

/-- A frame with its bytes final is counted and put on the lane. -/
def frameSent (q : Fin 16) (l : Fin 4) (ps : Nat) (d : Dev) (bs : List Byte) : Dev :=
  putOnLane q l ps bs (sendCounted q l bs.length d)

/-- The MAC takes the frame from its transmit buffer. -/
def frameTaken (d : Dev) (k : Nat) : Dev := setMac d k (fun m => { m with tx := none })

section Transmit

variable {q : Fin 16} {l : Fin 4} {ps k : Nat} {d : Dev} {f : BufFrame}

theorem exec_macTxFrame (q : Fin 16) (l : Fin 4) (ps : Nat) (s : State) :
    exec (.macTxFrame q l ps) s = .next (s.withDev (macTxFrame q l ps s.dev)) := rfl

/-- A frame of a length that may be sent goes out padded, timed and with a new FCS. -/
def frameOut (q : Fin 16) (l : Fin 4) (ps : Nat) (d : Dev) (f : BufFrame) : Dev :=
  let e := padCounted q l d f
  let out := transmitStamp e (4 * q.val + l.val) ps
  let t := frameTimed (4 * q.val + l.val) ps e (framePadded f) out
  stampWishEnds (frameSent q l ps t.1 (refreshFcs t.2.bytes)) t.2 csOk out

/-- The MAC sends a frame that it has taken, unless the instant of its launch has passed or it is too long. -/
def frameLeaves (q : Fin 16) (l : Fin 4) (ps : Nat) (d : Dev) (f : BufFrame) : Dev :=
  if passedOver d f then d
  else if maxLen d (4 * q.val + l.val) + 1 ≤ f.bytes.length then stampWishEnds (count d (MAC_LANEl_TX_LONG q l)) f csFlushed none
  else frameOut q l ps d f

theorem macTxFrame_eq (q : Fin 16) (l : Fin 4) (ps : Nat) (d : Dev) : macTxFrame q l ps d
    = match (macHw d (4 * q.val + l.val)).tx with
      | none => d
      | some f => if notYet d f || startHeld d (4 * q.val + l.val) ps f then d
        else frameLeaves q l ps (frameTaken d (4 * q.val + l.val)) f := rfl

/-- A frame that nothing holds is taken and leaves. -/
theorem macTxFrame_of_start (hk : k = 4 * q.val + l.val) (htx : (macHw d k).tx = some f) (hy : notYet d f = false)
    (hh : startHeld d k ps f = false) : macTxFrame q l ps d = frameLeaves q l ps (frameTaken d k) f := by
  subst hk
  simp only [macTxFrame_eq, htx, hy, hh, Bool.or_self, Bool.false_eq_true, if_false]

theorem txEmpty_frameTaken (d : Dev) (k : Nat) : txEmpty (frameTaken d k) k := congrArg MacHw.tx (macHw_setMac_same d k _)

theorem padCounted_macs (q : Fin 16) (l : Fin 4) (d : Dev) (f : BufFrame) : (padCounted q l d f).macs = d.macs := by
  unfold padCounted
  split
  · rfl
  · rfl

theorem correctOut_macs (d : Dev) (k : Nat) (f : BufFrame) (out : Option Nat) : (correctOut d k f out).1.macs = d.macs := by
  unfold correctOut
  split
  · split
    · rfl
    · split
      · rfl
      · split
        · rfl
        · rfl
      · rfl
      · rfl
  · rfl

theorem launchSync_macs (d : Dev) (k : Nat) (f : BufFrame) (t out : Nat) : (launchSync d k f t out).1.macs = d.macs := by
  unfold launchSync
  split
  · rfl
  · rfl

theorem frameTimed_macs (k ps : Nat) (d : Dev) (f : BufFrame) (out : Option Nat) : (frameTimed k ps d f out).1.macs = d.macs := by
  unfold frameTimed
  split
  · exact launchSync_macs _ _ _ _ _
  · exact correctOut_macs _ _ _ _

theorem txEmpty_putOnLane (hk : k = 4 * q.val + l.val) (h : txEmpty d k) (bs : List Byte) : txEmpty (putOnLane q l ps bs d) k := by
  unfold putOnLane
  simp only
  split
  · exact txEmpty_receiveFrame hk h bs ps
  · exact h.of_macs rfl

theorem txEmpty_frameOut (hk : k = 4 * q.val + l.val) (h : txEmpty d k) : txEmpty (frameOut q l ps d f) k := by
  have htimed (out : Option Nat) : txEmpty (frameTimed (4 * q.val + l.val) ps (padCounted q l d f) (framePadded f) out).1 k :=
    (h.of_macs (padCounted_macs q l d f)).of_macs (frameTimed_macs _ _ _ _ _)
  have hsent (e : Dev) (he : txEmpty e k) (bs : List Byte) : txEmpty (frameSent q l ps e bs) k :=
    txEmpty_putOnLane hk (he.of_macs (e := sendCounted q l bs.length e) rfl) bs
  exact (hsent _ (htimed _) _).of_macs (keepsMacs_stampWishEnds _ _ _ _).macs

/-- However the frame goes, the MAC holds it no longer. -/
theorem txEmpty_frameLeaves (hk : k = 4 * q.val + l.val) (h : txEmpty d k) : txEmpty (frameLeaves q l ps d f) k := by
  unfold frameLeaves
  split
  · exact h
  · split
    · exact (h.count _).of_macs (keepsMacs_stampWishEnds _ _ _ _).macs
    · exact txEmpty_frameOut hk h

theorem rdn_frameLeaves_long (hp : passedOver d f = false) (hlen : maxLen d (4 * q.val + l.val) < f.bytes.length) :
    rdn (frameLeaves q l ps d f) (MAC_LANEl_TX_LONG q l) = min (rdn d (MAC_LANEl_TX_LONG q l) + 1) 0xFFFFFFFF := by
  rw [frameLeaves, hp, if_neg Bool.false_ne_true, if_pos (Nat.succ_le_of_lt hlen),
    (keepsMacs_stampWishEnds _ _ _ _).words.rdn (by simp only; omega), rdn_count_same]

/-! ### Out through the pins (R220, R231) -/

/-- Outside near-end loopback a frame leaves through the pins. -/
theorem out_putOnLane (ht : laneTest d (4 * q.val + l.val) ≠ 1) (bs : List Byte) :
    (putOnLane q l ps bs d).out = d.out ++ [.frame (4 * q.val + l.val) bs] := by
  rw [putOnLane, if_neg ht]
  rfl

theorem laneTest_sendCounted (q : Fin 16) (l : Fin 4) (n : Nat) (d : Dev) :
    laneTest (sendCounted q l n d) (4 * q.val + l.val) = laneTest d (4 * q.val + l.val) := by
  have hw {a : Nat} (h : 0x20 ≤ a ∧ a < 0x100) := not_isSettingWord_count q l h.1 h.2
  have hpair {lo hi : Reg} (hlo : ¬ isSettingWord lo.ofs) (hhi : ¬ isSettingWord hi.ofs) (top m : Nat) (e : Dev) :
      keepsWords isSettingWord e (countPairBy e lo hi top m) := ((keepsWords.refl _ e).wr hlo _).wr hhi _
  have hframes := hpair (lo := MAC_LANEl_TX_FRAMES_LO q l) (hi := MAC_LANEl_TX_FRAMES_HI q l) (hw (a := 0x30) (by decide))
    (hw (a := 0x34) (by decide)) countTop 1 d
  have hbytes := hpair (lo := MAC_LANEl_TX_BYTES_LO q l) (hi := MAC_LANEl_TX_BYTES_HI q l) (hw (a := 0x38) (by decide))
    (hw (a := 0x3c) (by decide)) countTop n (countPairBy d (MAC_LANEl_TX_FRAMES_LO q l) (MAC_LANEl_TX_FRAMES_HI q l) countTop 1)
  exact keepsSettings_laneTest q l ((hframes.trans hbytes).of_regs (g := sendCounted q l n d) rfl)

theorem out_frameSent (ht : laneTest d (4 * q.val + l.val) ≠ 1) (bs : List Byte) :
    (frameSent q l ps d bs).out = d.out ++ [.frame (4 * q.val + l.val) bs] :=
  out_putOnLane ((laneTest_sendCounted q l bs.length d).trans_ne ht) bs

/-- A frame that needs neither padding nor a launch, and has no PTP header, is sent as it is but for its FCS. -/
theorem frameOut_plain (h64 : 64 ≤ f.bytes.length) (hl : f.launch = none) (hptp : f.time.ptp = none) (htx : f.tx = none) :
    frameOut q l ps d f = frameSent q l ps d (refreshFcs f.bytes) := by
  have hcount : padCounted q l d f = d := if_neg (by omega)
  have hpad : framePadded f = f := if_neg (by omega)
  have hcorr : correctable f = none := by rw [correctable, hptp]
  have htimed (out : Option Nat) : frameTimed (4 * q.val + l.val) ps d f out = (d, f) := by
    simp only [frameTimed, hl, correctOut, hcorr]
  simp only [frameOut, hcount, hpad, htimed, stampWishEnds_of_none htx]

theorem out_frameLeaves (hp : passedOver d f = false) (h64 : 64 ≤ f.bytes.length) (hlen : f.bytes.length ≤ maxLen d (4 * q.val + l.val))
    (hwish : f.tx = none) (hl : f.launch = none) (hptp : f.time.ptp = none) (ht : laneTest d (4 * q.val + l.val) ≠ 1) :
    (frameLeaves q l ps d f).out = d.out ++ [.frame (4 * q.val + l.val) (refreshFcs f.bytes)] := by
  rw [frameLeaves, hp, if_neg Bool.false_ne_true, if_neg (by omega), frameOut_plain h64 hl hptp hwish, out_frameSent ht]

end Transmit

/-! ### Flow control that the device sends (R231) -/

section Flow

variable {q : Fin 16} {l : Fin 4} {k : Nat} {d : Dev}

theorem contains_insSorted (n : Nat) (l : List Nat) : (insSorted n l).contains n = true := by
  induction l with
  | nil => simp [insSorted]
  | cons a t ih =>
    unfold insSorted
    split_ifs with hlt heq
    · rw [List.contains_cons, ih, Bool.or_true]
    · simp [heq]
    · simp

theorem contains_delNat (n : Nat) (l : List Nat) : (delNat n l).contains n = false := by
  simp [delNat]

theorem exec_fcSend (q : Fin 16) (l : Fin 4) (s : State) : exec (.fcSend q l) s = .next (s.withDev (fcSend q l s.dev)) := rfl

theorem exec_fcRefresh (q : Fin 16) (l : Fin 4) (key : Fin 9) (s : State) :
    exec (.fcRefresh q l key) s = .next (s.withDev (fcRefresh q l key s.dev)) := rfl

theorem out_sendFlow (hk : k = 4 * q.val + l.val) (ht : laneTest d k ≠ 1) (key quanta : Nat) :
    (sendFlow q l d key quanta).out = d.out ++ [.frame k (flowFrame d k key quanta)] := by
  subst hk
  have hkeep : keepsWords isSettingWord d (count d (if key = 0 then MAC_LANEl_TX_PAUSE q l else MAC_LANEl_TX_PFC q l)) := by
    refine (keepsWords.refl isSettingWord d).count ?_
    split
    · exact not_isSettingWord_count q l (a := 0x68) (by decide) (by decide)
    · exact not_isSettingWord_count q l (a := 0x6c) (by decide) (by decide)
  rw [sendFlow, out_putOnLane ((keepsSettings_laneTest q l hkeep).trans_ne ht), keepsSettings_flowFrame q l hkeep]
  rfl

/-- What the MAC has told its neighbour after a frame of flow control for a key. -/
def flowTold (key at' : Nat) (on : Bool) (m : MacHw) : MacHw :=
  if on then { m with told := insSorted key m.told, toldAt := sins key at' (sdrop key m.toldAt) }
  else { m with told := delNat key m.told, toldAt := sdrop key m.toldAt }

theorem flowTold_told (key at' : Nat) (on : Bool) (m : MacHw) : (flowTold key at' on m).told.contains key = on := by
  unfold flowTold
  cases on with
  | true => exact contains_insSorted key m.told
  | false => exact contains_delNat key m.told

/-- The quanta of the frame that a request makes due. -/
def flowQuanta (d : Dev) (q : Fin 16) (l : Fin 4) (on : Bool) : Nat := if on = true then fld d (MAC_LANEl_FC_TX_QUANTA q l) else 0

section Due

variable (hk : k = 4 * q.val + l.val) (hsend : flowMaySend d k = true)

include hk hsend

theorem fcSend_of_due {key : Nat} (hdue : flowDue d k = some key) : ∃ at', fcSend q l d
    = setMac (sendFlow q l d key (flowQuanta d q l ((macHw d k).asked.contains key))) k (flowTold key at' ((macHw d k).asked.contains key)) := by
  subst hk
  refine ⟨(sendFlow q l d key (flowQuanta d q l ((macHw d (4 * q.val + l.val)).asked.contains key))).elapsed, ?_⟩
  simp only [fcSend, hsend, Bool.not_true, Bool.false_eq_true, if_false, hdue]
  rfl

/-- A request that is due is sent, and the neighbour has then been told what was asked. -/
theorem fcSend_spec {key : Nat} (hdue : flowDue d k = some key) :
    (macHw (fcSend q l d) k).told.contains key = (macHw d k).asked.contains key
      ∧ (laneTest d k ≠ 1 → (fcSend q l d).out
        = d.out ++ [.frame k (flowFrame d k key (flowQuanta d q l ((macHw d k).asked.contains key)))]) := by
  obtain ⟨at', heq⟩ := fcSend_of_due hk hsend hdue
  rw [heq, macHw_setMac_same, flowTold_told]
  exact ⟨rfl, fun ht => out_sendFlow hk ht key _⟩

/-- An assertion for the port that has lasted REFRESH quanta is repeated. -/
theorem fcRefresh_of_due (htold : (macHw d k).told.contains 0 = true) (hasked : (macHw d k).asked.contains 0 = true) (hm : fcMode d k = 1)
    (hon : pauseTxOn d k = true)
    (hdue : sget d.elapsed (macHw d k).toldAt 0 * 40000 + fld d (MAC_LANEl_FC_TX_REFRESH q l) * quantumPs d k ≤ elapsedPs d) :
    ∃ f, fcRefresh q l 0 d = setMac (sendFlow q l d 0 (fld d (MAC_LANEl_FC_TX_QUANTA q l))) k f := by
  subst hk
  refine ⟨_, if_pos ?_⟩
  have hacts : (fcMode d (4 * q.val + l.val) == 1) = true := by rw [hm]; rfl
  have hover := decide_eq_true hdue
  simp only [Fin.val_zero, if_true, hacts, hon, htold, hasked, hsend, Bool.and_true]
  exact hover

end Due

end Flow

/-- Settles O48: a frame received meets one of the checks, a frame taken is too long or sent, and a timer is loaded, stopped or tripped;
what each leaves is said by the lemma of its case. -/
theorem framesAtTheMacs : Obligations.FramesAtTheMacs := by
  refine ⟨fun q l frame err dec ps k s hk hst d hd => ?_, fun q l ps k s f hk htx hy hh => ?_, fun q l quanta ps k s hk hst => ?_,
    fun q l key k s hk => ?_, fun q l k s hk hsend => ?_⟩
  · replace hd : d = frameOff s.dev k dec := hd
    have hact := hd ▸ (laneState_frameOff s.dev k dec).trans hst
    have hmax : maxLen d k = maxLen s.dev k := hd ▸ maxLen_frameOff s.dev k dec
    refine ⟨fun hmark => ?_, fun hcut hfec => ?_⟩
    · rw [exec_macRxFrame, macRxFrame_of_active hk hst, if_pos ?_, ← hd, errorFrame_of_active hk hact]
      simpa [or_assoc] using hmark
    · have hwhole : macRxFrame q l frame false dec ps s.dev = receiveFrame q l frame ps d := by
        rw [macRxFrame_of_active hk hst, if_neg, hd]
        simpa [hcut, or_iff_not_imp_left] using hfec
      simp only [exec_macRxFrame, hwhole, ← hmax]
      refine ⟨fun h => ?_, fun h64 h => ?_, fun h64 hlen h => ?_, fun h64 hlen h htype => ?_⟩
      · rw [receiveFrame_runt hk hact h]
      · rw [receiveFrame_long hk hact h64 h]
      · rw [receiveFrame_badFcs hk hact h64 hlen h]
      · obtain ⟨f, hprs, hbytes, hsrc⟩ := receiveFrame_parsed (ps := ps) hk hact h64 hlen h htype
        exact ⟨_, f, rfl, hprs.trans (by rw [hd, prsIn_frameOff]), hbytes, hsrc⟩
  · have hleaves := macTxFrame_of_start hk htx hy hh
    subst hk
    refine ⟨_, exec_macTxFrame q l ps s, rfl, ?_, fun hp hlen => ?_, fun hp h64 hlen hwish hl hptp ht => ?_⟩
    · exact (congrArg (txEmpty · _) hleaves).mpr (txEmpty_frameLeaves rfl (txEmpty_frameTaken s.dev _))
    · exact (congrArg (rdn · _) hleaves).trans (rdn_frameLeaves_long (d := frameTaken s.dev _) hp hlen)
    · exact (congrArg Dev.out hleaves).trans (out_frameLeaves (d := frameTaken s.dev _) hp h64 hlen hwish hl hptp ht)
  · refine ⟨fun hm => ?_, fun hm hon hw hi => ?_, fun hm e qs => ?_, fun hm qs => ?_⟩
    · rw [exec_pauseRx, pauseRx_of_active hk hst, if_neg fun h => hm h.1]
    · exact ⟨_, exec_pauseRx q l s quanta ps, pauseRx_spec hk hst hm hon hw hi quanta ps⟩
    · rw [exec_pfcRx, pfcRx_of_active hk hst, if_neg hm]
    · rw [exec_pfcRx, pfcRx_one hk hst hm]
  · refine ⟨fun hw => ?_, fun t ht hover => ?_, fun e t hlist he hover => ?_⟩
    · exact ⟨by rw [exec_pauseWatchdog, pauseWatchdog_of_due hk hw], ignoring_tripWatchdog _ k key, paused_tripWatchdog _ k key,
        fun quanta ps h => loadPause_of_ignoring h (ignoring_tripWatchdog _ k key) quanta ps⟩
    · exact ⟨by rw [exec_pauseExpire, pauseExpire_of_over hk ht hover], paused_stopPause _ k key⟩
    · subst he
      exact ⟨_, by rw [exec_wdIgnoreEnd, wdIgnoreEnd_of_over hk hlist hover], ignoring_ignoreEnded _ k key⟩
  · refine ⟨fun key hdue _ => ⟨_, exec_fcSend q l s, fcSend_spec hk hsend hdue⟩, fun htold hasked hm hon hover => ?_⟩
    obtain ⟨f, heq⟩ := fcRefresh_of_due hk hsend htold hasked hm hon hover
    exact ⟨_, exec_fcRefresh q l 0 s, fun ht => (congrArg Dev.out heq).trans (out_sendFlow hk ht 0 _)⟩

end Sys2Proof.Machine
end

section
/-!
PROOFS. Every command completes with a next state and the queue it was given; only the commands that move data touch the memories; and
every operation on the memories keeps their canonical form (R339, R398).
-/

namespace Sys2Proof.Machine

/-! ### What a command may touch -/

/-- A command that moves no data changes the block alone. -/
theorem exec_withDev (c : Instr) (s : State) (h : c.movesMemory = false) : ∃ d : Dev, exec c s = .next (s.withDev d) := by
  cases c with
  | registerWrite | frzRelease | tick | flowMissResolve | flowInsert | flowUpdate | flowDelete | flowLookup | walkDone | learn |
    ageVisit | flowScrub | hopFetch | dmaProgress | dmaComplete | bdmHop | unitGrant | domainSwitchOff | pllTimeout | domainSwitchOn |
    thermalStop | relayStart | relayBlock | relayEnd | relayAck | relayResend | blockProgrammed | rescueReq | origGo | preload |
    preloadDone | save | confirm | alive | actCheckDone | actCoresLoaded | noAlive | recordCompact | porst | vddAoLoss | resetN |
    systemWrite | coreWrite | wdtExpire => cases h
  | _ => exact ⟨_, rfl⟩

/-- Every command answers a next state with the block and the memories that it leaves, and the queue as it was. -/
theorem exec_next (c : Instr) (s : State) : ∃ (d : Dev) (m : Mem), exec c s = .next { s with dev := d, mem := m } := by
  cases c <;> exact ⟨_, _, rfl⟩

/-- Settles O2: a command answers its block and memories beside the queue it was given. -/
theorem everyCommandCompletes : Obligations.EveryCommandCompletes := by
  intro c s
  obtain ⟨d, m, h⟩ := exec_next c s
  exact ⟨_, h, rfl⟩

/-- Settles O6: such a command changes the block alone. -/
theorem memoryIsLeftAlone : Obligations.MemoryIsLeftAlone := by
  intro c s t hc ht
  obtain ⟨d, h⟩ := exec_withDev c s hc
  cases h.symm.trans ht
  exact ⟨rfl, fun _ _ => ⟨rfl, rfl, rfl⟩⟩

/-- Settles O4: an empty list of cells is in canonical form, and an empty queue holds no command. -/
theorem memoryFormAtReset : Obligations.MemoryFormAtReset := ⟨rfl, rfl⟩

/-- Settles O5: at reset no register is listed, and an unlisted register reads its reset word; a word of ROOT_FRZ_MAP that reads 0 holds
no frozen master. -/
theorem resetLeavesRegisters : Obligations.ResetLeavesRegisters := by
  refine ⟨fun r => ⟨rfl, rfl⟩, rfl, rfl, rfl, rfl, rfl, fun m => ?_⟩
  simp [isFrozen, regBit, rd, State.reset, Dev.reset, sget]

end Sys2Proof.Machine
end

section
/-!
PROOFS. Every operation on the memories keeps their canonical form, from the flow table, the relay, firmware, power and resets to the
two DMA engines (R260, R339, R398). Each lemma names the operations that its function is made of.
-/

namespace Sys2Proof.Machine

variable {d : Dev} {s : Mem}

/-! ### The flow table (R259 to R270) -/

theorem wf_putFlow {i : Nat} {e : List Byte} (h : s.wf = true) : (putFlow d s i e).2.wf = true := by
  grind [putFlow, Mem.wf_writeDram]

theorem wf_deleteFlow {i : Nat} (h : s.wf = true) : (deleteFlow d s i).2.wf = true := by
  grind [deleteFlow, wf_putFlow]

theorem wf_makeRoom {i : Nat} (h : s.wf = true) : (makeRoom d s i).2.wf = true := by
  grind [makeRoom, Mem.wf_writeDram]

theorem wf_cacheFlow {i : Nat} {e : List Byte} (h : s.wf = true) : (cacheFlow d s i e).2.wf = true := by
  grind [cacheFlow, wf_makeRoom]

theorem wf_writeBackAll (h : s.wf = true) : (writeBackAll d s).2.wf = true := by
  refine List.foldlRecOn (motive := fun s : Mem => s.wf = true) _ _ h fun s hs l _ => ?_
  grind [Mem.wf_writeDram]

theorem wf_flowEcc {ecc : Ecc} {i : Nat} (h : s.wf = true) : (flowEcc d s ecc i).2.wf = true := by
  cases ecc <;> grind [flowEcc, wf_deleteFlow]

theorem wf_flowMissResolve {ecc : Ecc} {slot : Fin 8} (h : s.wf = true) : (flowMissResolve ecc slot d s).2.wf = true := by
  grind [flowMissResolve, wf_flowEcc, wf_cacheFlow]

theorem wf_flowScrub {b : Fin 4194304} {ecc : Ecc} {slot : Fin 4} (h : s.wf = true) : (flowScrub b ecc slot d s).2.wf = true := by
  grind [flowScrub, wf_flowEcc]

theorem wf_deleteAged {i : Nat} (h : s.wf = true) : (deleteAged d s i).2.wf = true := by
  grind [deleteAged, wf_deleteFlow]

theorem wf_serveAged (h : s.wf = true) : (serveAged d s).2.wf = true := by
  unfold serveAged
  split
  · exact h
  · exact List.foldlRecOn (motive := fun a : Dev × Mem => a.2.wf = true) _ _ h fun a ha i _ => wf_deleteAged ha

theorem wf_ageVisit (h : s.wf = true) : (ageVisit d s).2.wf = true := by
  grind [ageVisit, wf_serveAged]

theorem wf_makeMoves {chain : List Nat} {j : Nat} (h : s.wf = true) : (makeMoves d s chain j).2.1.wf = true := by
  induction chain generalizing d s j with
  | nil => exact h
  | cons i rest ih => grind [makeMoves, wf_putFlow]

theorem wf_insertFlow {e : List Byte} (h : s.wf = true) : (insertFlow d s e).2.1.wf = true := by
  grind [insertFlow, wf_putFlow, wf_makeMoves]

/-- The engine keeps the form where what it does for a command keeps it. -/
theorem wf_serve {opcode : Nat} {f : Dev → Mem → AshCmd → Dev × Mem × Nat × Nat × Nat}
    (hf : ∀ d s c, s.wf = true → (f d s c).2.1.wf = true) (h : s.wf = true) : (serve opcode f d s).2.wf = true := by
  grind [serve, wf_serveAged]

theorem wf_flowInsert (h : s.wf = true) : (flowInsert d s).2.wf = true :=
  wf_serve (fun _ _ _ h => by grind [wf_insertFlow]) h

theorem wf_flowUpdate (h : s.wf = true) : (flowUpdate d s).2.wf = true :=
  wf_serve (fun _ _ _ h => by grind [wf_putFlow]) h

theorem wf_flowDelete (h : s.wf = true) : (flowDelete d s).2.wf = true :=
  wf_serve (fun _ _ _ h => by grind [wf_deleteFlow]) h

theorem wf_flowFind (h : s.wf = true) : (flowFind d s).2.wf = true :=
  wf_serve (fun _ _ _ h => by grind) h

theorem wf_walkTo {n : Nat} (h : s.wf = true) : (walkTo n d s).2.wf = true := by
  have hall (is : List Nat) : (is.foldl (fun (a : Dev × Mem) i => deleteFlow a.1 a.2 i) (d, s)).2.wf = true :=
    List.foldlRecOn (motive := fun a : Dev × Mem => a.2.wf = true) _ _ h fun a ha i _ => wf_deleteFlow ha
  unfold walkTo
  split
  · exact h
  · split
    · exact h
    · exact hall _

theorem wf_walkTick (h : s.wf = true) : (walkTick d s).2.wf = true := by
  grind [walkTick, wf_walkTo]

theorem wf_walkDone (h : s.wf = true) : (walkDone d s).2.wf = true := by
  grind [walkDone, wf_walkTo, wf_serveAged]

theorem wf_learn (h : s.wf = true) : (learn d s).2.wf = true := by
  grind [learn, wf_insertFlow, wf_serveAged]

/-! ### The relay and the image store (R392 to R398) -/

theorem wf_judgeStore {r : Relay} (h : s.wf = true) : (judgeStore d s r).2.wf = true := by
  grind [judgeStore, writeSeal, Mem.wf_writeFlash]

theorem wf_relayGo (h : s.wf = true) : (relayGo d s).2.wf = true := by
  grind [relayGo, wf_judgeStore]

theorem wf_beginRelay {image len blocks hops : Nat} {src dst : Option Nat} {storeBit store : Bool} (h : s.wf = true) :
    (beginRelay d s image len blocks src dst hops storeBit store).2.wf = true := by
  cases store with
  | true => exact wf_relayGo (Mem.wf_eraseFlash h)
  | false => exact wf_relayGo h

theorem wf_relayStart {k : Fin 2} {sender : BitVec 64} {image len : Word} {blocks : BitVec 16} {hops : BitVec 8} {store : Bool}
    (h : s.wf = true) : (relayStart k sender image len blocks hops store d s).2.wf = true := by
  grind [relayStart, wf_beginRelay]

theorem wf_acceptBlock {r : Relay} {k : Nat} {data : List Byte} (h : s.wf = true) : (acceptBlock d s r k data).2.wf = true := by
  grind [acceptBlock, wf_relayGo]

theorem wf_relayBlock {k : Fin 2} {sender : BitVec 64} {image : Word} {block : BitVec 16} {data : List Byte} {crc : Word}
    (h : s.wf = true) : (relayBlock k sender image block data crc d s).2.wf = true := by
  grind [relayBlock, wf_acceptBlock]

theorem wf_relayEnd {k : Fin 2} {sender : BitVec 64} {image crc : Word} (h : s.wf = true) : (relayEnd k sender image crc d s).2.wf = true := by
  grind [relayEnd, wf_relayGo]

theorem wf_dropDownstream {r : Relay} (h : s.wf = true) : (dropDownstream d s r).2.wf = true := by
  grind [dropDownstream, wf_relayGo]

theorem wf_relayAck {k : Fin 2} {sender : BitVec 64} {image : Word} {next : BitVec 16} {code : BitVec 8} (h : s.wf = true) :
    (relayAck k sender image next code d s).2.wf = true := by
  grind [relayAck, wf_dropDownstream, wf_relayGo]

theorem wf_relayResend (h : s.wf = true) : (relayResend d s).2.wf = true := by
  grind [relayResend, wf_dropDownstream, wf_relayGo]

theorem wf_blockProgrammed {ok : Bool} (h : s.wf = true) : (blockProgrammed ok d s).2.wf = true := by
  grind [blockProgrammed, Mem.wf_writeFlash, wf_relayGo]

theorem wf_startOrigin (h : s.wf = true) : (startOrigin d s).2.wf = true := by
  grind [startOrigin, wf_beginRelay]

/-! ### Images, records and the end of a pause of the cores (R398 to R407) -/

theorem wf_loadCores {i : Image} (h : s.wf = true) : (loadCores i s).wf = true := Mem.wf_writeCore h

theorem wf_clearSealByte {slot b v : Nat} (h : s.wf = true) : (clearSealByte s slot b v).wf = true := Mem.wf_writeFlash h

theorem wf_rejectSlot {slot cause : Nat} (h : s.wf = true) : (rejectSlot d s slot cause).2.wf = true := wf_clearSealByte h

theorem wf_preloadDone (h : s.wf = true) : (preloadDone d s).2.wf = true := by
  grind [preloadDone, Mem.wf_writeDram]

theorem wf_actCoresLoaded (h : s.wf = true) : (actCoresLoaded d s).2.wf = true := by
  grind [actCoresLoaded, wf_loadCores]

theorem wf_putRecord {kind inst version : Nat} {body : List Byte} (h : s.wf = true) : (putRecord s kind inst version body).wf = true :=
  Mem.wf_writeFlash h

theorem wf_compactOnce (h : s.wf = true) : (compactOnce d s).2.wf = true := by
  unfold compactOnce
  split
  · exact h
  · exact Mem.wf_eraseFlash (List.foldlRecOn (motive := fun s : Mem => s.wf = true) _ _ h fun s hs r _ => wf_putRecord hs)

theorem wf_recordCompact (h : s.wf = true) : (recordCompact d s).2.wf = true := by
  grind [recordCompact, wf_compactOnce]

theorem wf_saveUnit {u : UnitRow} (h : s.wf = true) : (saveUnit u d s).2.wf = true := by
  grind [saveUnit, appendRecord, wf_compactOnce, wf_putRecord]

theorem wf_saveAll (h : s.wf = true) : (saveAll d s).2.wf = true :=
  List.foldlRecOn (motive := fun a : Dev × Mem => a.2.wf = true) _ _ h fun _ ha _ _ => wf_saveUnit ha

theorem wf_startSave (h : s.wf = true) : (startSave d s).2.wf = true := by
  grind [startSave, wf_saveAll]

theorem wf_coresResume (h : s.wf = true) : (coresResume d s).2.wf = true := by
  grind [coresResume, wf_saveAll]

theorem wf_endPause (h : s.wf = true) : (endPause d s).2.wf = true := by
  grind [endPause, wf_coresResume]

theorem wf_coreRestart {d' : Dev} (h : s.wf = true) : (coreRestart d d' s).2.wf = true := by
  grind [coreRestart, wf_coresResume]

/-! ### Power (R359 to R374, R460) -/

theorem wf_loseDram {i : Nat} (h : s.wf = true) : (loseDram s i).wf = true := by
  simp only [Mem.wf, Bool.and_eq_true] at h ⊢
  exact ⟨⟨swf_filter h.1.1, h.1.2⟩, h.2⟩

theorem wf_loseCore {n : Nat} (h : s.wf = true) : (loseCore s n).wf = true := by
  simp only [Mem.wf, Bool.and_eq_true] at h ⊢
  exact ⟨h.1, swf_eraseMem h.2⟩

theorem wf_domainOff {n : Nat} {ret : Bool} (h : s.wf = true) : (domainOff d s n ret).2.wf = true := by
  grind [domainOff, wf_writeBackAll, wf_loseDram, wf_loseCore]

theorem wf_entryGranted {k : Nat} (h : s.wf = true) : (entryGranted d s k).2.wf = true := by
  grind [entryGranted, wf_writeBackAll]

theorem wf_unitGrant {empty : Bool} (h : s.wf = true) : (unitGrant empty d s).2.wf = true := by
  grind [unitGrant, wf_entryGranted, wf_writeBackAll]

theorem wf_domainSwitchOff (h : s.wf = true) : (domainSwitchOff d s).2.wf = true := by
  grind [domainSwitchOff, wf_domainOff]

theorem wf_pllTimeout (h : s.wf = true) : (pllTimeout d s).2.wf = true := by
  grind [pllTimeout, wf_domainOff]

theorem wf_loadOtherCores {i : Image} (h : s.wf = true) : (loadOtherCores i s).wf = true := Mem.wf_writeCore h

theorem wf_wakeSwitchOn (h : s.wf = true) : (wakeSwitchOn d s).2.wf = true := by
  grind [wakeSwitchOn, wf_endPause, wf_loadOtherCores, wf_loadCores]

theorem wf_thermalStop (h : s.wf = true) : (thermalStop d s).2.wf = true := by
  exact List.foldlRecOn (motive := fun a : Dev × Mem => a.2.wf = true) _ _ h fun a ha n _ => wf_domainOff ha

/-! ### Resets and the end of an activation (R401, R423 to R426) -/

theorem wf_coldMem (h : s.wf = true) : (coldMem s).wf = true := by
  simp only [Mem.wf, Bool.and_eq_true] at h ⊢
  exact ⟨⟨rfl, h.1.2⟩, rfl⟩

theorem wf_systemReset {source : Nat} (h : s.wf = true) : (systemReset source d s).2.wf = true := by
  grind [systemReset, wf_coldMem]

theorem wf_coreReset {source : Nat} (h : s.wf = true) : (coreReset source d s).2.wf = true := by
  grind [coreReset, wf_loadCores]

theorem wf_heldReset (h : s.wf = true) : (heldReset d s).2.wf = true := by
  grind [heldReset, wf_coreReset]

theorem wf_rstCtlWrite {m : Master} {value : Word} (h : s.wf = true) : (rstCtlWrite m value d s).2.wf = true := by
  grind [rstCtlWrite, wf_systemReset, wf_coreReset]

theorem wf_wdtExpire (h : s.wf = true) : (wdtExpire d s).2.wf = true := by
  grind [wdtExpire, wf_coreReset]

theorem wf_endActivation {outcome : Nat} (h : s.wf = true) : (endActivation outcome d s).2.wf = true := by
  grind [endActivation, wf_endPause, wf_heldReset]

theorem wf_actCheckDone (h : s.wf = true) : (actCheckDone d s).2.wf = true := by
  grind [actCheckDone, wf_rejectSlot, wf_endActivation]

theorem wf_actAlive (h : s.wf = true) : (actAlive d s).2.wf = true := by
  grind [actAlive, wf_clearSealByte, wf_endActivation]

theorem wf_noAlive (h : s.wf = true) : (noAlive d s).2.wf = true := by
  grind [noAlive, Mem.wf_writeCore, wf_rejectSlot, wf_endActivation]

theorem wf_fwuCtl {m : Master} {value : Word} (h : s.wf = true) : (fwuCtl m value d s).2.wf = true := by
  grind [fwuCtl, wf_startSave, wf_startOrigin, wf_actAlive]

/-! ### Register writes, the records and the boot (R20, R399, R407, R408) -/

theorem wf_bar0Write {m : Master} {ofs : Nat} {value : Word} (h : s.wf = true) : (bar0Write m ofs value d s).2.wf = true := by
  grind [bar0Write, wf_rstCtlWrite, wf_coreRestart, wf_fwuCtl]

theorem wf_busWrite {m : Master} {ofs size : Nat} {value : BitVec 64} (h : s.wf = true) : (busWrite m ofs size value d s).2.wf = true := by
  grind [busWrite, wf_bar0Write]

theorem wf_rescueReq {k : Fin 2} {sender target : BitVec 64} {hops : BitVec 8} {write : Bool} {tag : BitVec 16} {ofs value : Word}
    (h : s.wf = true) : (rescueReq k sender target hops write tag ofs value d s).2.wf = true := by
  grind [rescueReq, carryOut, wf_busWrite]

theorem wf_writePairs {u : UnitRow} {ps : List (Nat × Word)} (h : s.wf = true) : (writePairs u ps d s).2.wf = true := by
  refine List.foldlRecOn (motive := fun a : Dev × Mem => a.2.wf = true) _ _ h fun a ha p _ => ?_
  grind [wf_bar0Write]

theorem wf_applyRecord {version : Nat} {u : UnitRow} (h : s.wf = true) : (applyRecord version u d s).2.wf = true := by
  grind [applyRecord, wf_writePairs, wf_saveUnit]

theorem wf_applyRecords (h : s.wf = true) : (applyRecords d s).2.wf = true :=
  List.foldlRecOn (motive := fun a : Dev × Mem => a.2.wf = true) _ _ h fun _ ha _ _ => wf_applyRecord ha

theorem wf_applyDue {r : Dev × Mem} (h : r.2.wf = true) : (applyDue r).2.wf = true := by
  grind [applyDue, wf_applyRecords]

theorem wf_trySlots {slots : List Nat} (h : s.wf = true) : (trySlots slots d s).2.1.wf = true := by
  induction slots generalizing d s with
  | nil => exact h
  | cons slot rest ih => grind [trySlots, wf_rejectSlot]

theorem wf_bootImage (h : s.wf = true) : (bootImage d s).2.1.wf = true := by
  grind [bootImage, wf_trySlots]

theorem wf_fullBoot (h : s.wf = true) : (fullBoot d s).2.wf = true := by
  grind [fullBoot, wf_bootImage, wf_loadCores, wf_endPause, wf_applyDue]

theorem wf_domainSwitchOn {tested : List Word} {faulty : List UnitIx} {segs : List (Fin 16)} (h : s.wf = true) :
    (domainSwitchOn tested faulty segs d s).2.wf = true := by
  grind [domainSwitchOn, wf_fullBoot, wf_wakeSwitchOn]

/-! ### The DMA engines (R338 to R355) -/

theorem wf_writeSide {m : Master} {f : Nat} {y : Side} {i : Nat} {bs : List Byte} (h : s.wf = true) :
    (writeSide m f y i bs d s).2.wf = true := by
  have hdram (ps : List (Nat × List Byte)) : (ps.foldl (fun s p => writeDram s p.1 p.2) s).wf = true :=
    List.foldlRecOn (motive := fun s : Mem => s.wf = true) _ _ h fun s hs p _ => Mem.wf_writeDram hs
  have hcore (ps : List (Nat × List Byte)) : (ps.foldl (fun s p => writeCore s p.1 p.2) s).wf = true :=
    List.foldlRecOn (motive := fun s : Mem => s.wf = true) _ _ h fun s hs p _ => Mem.wf_writeCore hs
  unfold writeSide
  dsimp only
  split
  · exact h
  · exact hdram _
  · exact hcore _
  · exact wf_bar0Write h
  · exact h

theorem wf_writeOn {c : Nat} {r : ChanRun} (h : s.wf = true) : (writeOn c r d s).2.wf = true := by
  grind [writeOn, wf_writeSide]

theorem wf_takeTurn {c : Nat} {data : List Byte} (h : s.wf = true) : (takeTurn c data d s).2.1.wf = true := by
  grind [takeTurn, wf_writeOn]

theorem wf_serveUntil {c n : Nat} {done : ChanRun → Bool} {data : List Byte} (h : s.wf = true) :
    (serveUntil c done n data d s).2.wf = true := by
  induction n generalizing data d s with
  | zero => exact h
  | succ n ih => grind [serveUntil, wf_takeTurn]

theorem wf_dmaProgress {c : Fin 64} {data : List Byte} (h : s.wf = true) : (dmaProgress c data d s).2.wf = true := by
  grind [dmaProgress, wf_serveUntil]

theorem wf_finishHop {c : Nat} {data : List Byte} (h : s.wf = true) : (finishHop c data d s).2.1.wf = true := by
  grind [finishHop, wf_serveUntil]

theorem wf_hopFetch {c : Fin 64} {data desc : List Byte} (h : s.wf = true) : (hopFetch c data desc d s).2.wf = true := by
  grind [hopFetch, wf_finishHop]

theorem wf_dmaComplete {c : Fin 64} {data : List Byte} (h : s.wf = true) : (dmaComplete c data d s).2.wf = true := by
  grind [dmaComplete, wf_finishHop]

theorem wf_moveBytes {m reader : Master} {f stop n i : Nat} {x y : Side} {host : List Byte} (h : s.wf = true) :
    (moveBytes m reader f x y stop n i host d s).2.1.wf = true := by
  induction n generalizing i host d s with
  | zero => exact h
  | succ n ih => grind [moveBytes, wf_writeSide]

theorem wf_bdmHop {c : Fin 4} (h : s.wf = true) : (bdmHop c d s).2.wf = true := by
  grind [bdmHop, bootMove, wf_moveBytes]

theorem wf_tick (h : s.wf = true) : (tick d s).2.wf = true := by
  grind [tick, wf_walkTick]

/-! ### Every command -/

/-- A command that moves data keeps the canonical form. -/
theorem exec_keeps_form {c : Instr} {s t : State} (hs : s.mem.wf = true) (ht : exec c s = .next t) : t.mem.wf = true := by
  have moved (f : Dev → Mem → Dev × Mem) (hf : (f s.dev s.mem).2.wf = true) (he : exec c s = onAll f s) : t.mem.wf = true := by
    cases he.symm.trans ht
    exact hf
  cases hmove : c.movesMemory with
  | false =>
    obtain ⟨d, h⟩ := exec_withDev c s hmove
    cases h.symm.trans ht
    exact hs
  | true =>
    cases c with
    | registerWrite m ofs size value => exact moved _ (wf_applyDue (wf_busWrite hs)) rfl
    | frzRelease m value => exact moved _ (wf_applyDue (wf_coreRestart hs)) rfl
    | tick => exact moved _ (wf_tick hs) rfl
    | flowMissResolve ecc slot => exact moved _ (wf_flowMissResolve hs) rfl
    | flowInsert => exact moved _ (wf_flowInsert hs) rfl
    | flowUpdate => exact moved _ (wf_flowUpdate hs) rfl
    | flowDelete => exact moved _ (wf_flowDelete hs) rfl
    | flowLookup => exact moved _ (wf_flowFind hs) rfl
    | walkDone => exact moved _ (wf_walkDone hs) rfl
    | learn => exact moved _ (wf_learn hs) rfl
    | ageVisit => exact moved _ (wf_ageVisit hs) rfl
    | flowScrub b ecc slot => exact moved _ (wf_flowScrub hs) rfl
    | hopFetch c data desc => exact moved _ (wf_hopFetch hs) rfl
    | dmaProgress c data => exact moved _ (wf_dmaProgress hs) rfl
    | dmaComplete c data => exact moved _ (wf_dmaComplete hs) rfl
    | bdmHop c => exact moved _ (wf_bdmHop hs) rfl
    | unitGrant empty => exact moved _ (wf_unitGrant hs) rfl
    | domainSwitchOff => exact moved _ (wf_domainSwitchOff hs) rfl
    | pllTimeout => exact moved _ (wf_pllTimeout hs) rfl
    | domainSwitchOn tested faulty segs => exact moved _ (wf_domainSwitchOn hs) rfl
    | thermalStop => exact moved _ (wf_thermalStop hs) rfl
    | relayStart k sender image len blocks hops store => exact moved _ (wf_relayStart hs) rfl
    | relayBlock k sender image block data crc => exact moved _ (wf_relayBlock hs) rfl
    | relayEnd k sender image crc => exact moved _ (wf_relayEnd hs) rfl
    | relayAck k sender image next code => exact moved _ (wf_relayAck hs) rfl
    | relayResend => exact moved _ (wf_relayResend hs) rfl
    | blockProgrammed ok => exact moved _ (wf_blockProgrammed hs) rfl
    | rescueReq k sender target hops write tag ofs value => exact moved _ (wf_rescueReq hs) rfl
    | origGo m value => exact moved _ (wf_fwuCtl hs) rfl
    | preload m value => exact moved _ (wf_fwuCtl hs) rfl
    | preloadDone => exact moved _ (wf_preloadDone hs) rfl
    | save m value => exact moved _ (wf_fwuCtl hs) rfl
    | confirm m value => exact moved _ (wf_fwuCtl hs) rfl
    | alive m value => exact moved _ (wf_applyDue (wf_fwuCtl hs)) rfl
    | actCheckDone => exact moved _ (wf_actCheckDone hs) rfl
    | actCoresLoaded => exact moved _ (wf_actCoresLoaded hs) rfl
    | noAlive => exact moved _ (wf_noAlive hs) rfl
    | recordCompact => exact moved _ (wf_recordCompact hs) rfl
    | porst => exact moved _ (wf_coldMem hs) rfl
    | vddAoLoss => exact moved _ (wf_coldMem hs) rfl
    | resetN => exact moved _ (wf_systemReset hs) rfl
    | systemWrite m value => exact moved _ (wf_rstCtlWrite hs) rfl
    | coreWrite m value => exact moved _ (wf_rstCtlWrite hs) rfl
    | wdtExpire => exact moved _ (wf_wdtExpire hs) rfl
    | _ => cases hmove

/-- Settles O3: a step idles or carries out the front command, and every command keeps the form. -/
theorem memoryFormIsKept : Obligations.MemoryFormIsKept := by
  intro s t hs ht
  rcases step_cases s with ⟨_, hidle⟩ | ⟨c, rest, _, hexec⟩
  · cases hidle.symm.trans ht
    exact hs
  · exact exec_keeps_form (s := { s with pending := rest }) hs (hexec.symm.trans ht)

end Sys2Proof.Machine
end

section
/-!
PROOFS. The range that a side of a hop covers, and the overlap of two sides (R340, R342).
-/

namespace Sys2Proof.Machine

/-- The address moves on: LEN bytes are covered. -/
theorem covers_inc {x : Side} {len : Nat} (h : x.mode = .inc) : x.covers len = (x.addr, len) := by simp only [Side.covers, h]

/-- The address does not move: one access is covered. -/
theorem covers_fixed {x : Side} {len : Nat} (h : x.mode = .fixed) : x.covers len = (x.addr, x.width) := by simp only [Side.covers, h]

/-- The address goes round a buffer of 2^w bytes: the whole buffer is covered. -/
theorem covers_circ {x : Side} {len w : Nat} (h : x.mode = .circ w) : x.covers len = (x.addr / 2 ^ w * 2 ^ w, 2 ^ w) := by
  simp only [Side.covers, Side.base, h]

/-- Byte n lies in a side of a main DMA hop of len bytes. -/
def Side.holds (x : Side) (len n : Nat) : Prop := (x.covers len).1 ≤ n ∧ n < (x.covers len).1 + (x.covers len).2

/-- The block of 2^w bytes that an address lies in. -/
theorem div_eq_iff_block {a n w : Nat} : n / 2 ^ w = a / 2 ^ w ↔ a / 2 ^ w * 2 ^ w ≤ n ∧ n < a / 2 ^ w * 2 ^ w + 2 ^ w := by
  rw [Nat.div_eq_iff (Nat.two_pow_pos w)]
  have := Nat.two_pow_pos w
  omega

/-- A side covers at least one byte where the hop moves one. -/
theorem covers_pos {x : Side} {len : Nat} (hw : x.width = 4) (h : 0 < len) : 0 < (x.covers len).2 := by
  cases hm : x.mode with
  | inc => rw [covers_inc hm]; exact h
  | fixed => rw [covers_fixed hm, hw]; exact Nat.zero_lt_succ 3
  | circ w => rw [covers_circ hm]; exact Nat.two_pow_pos w

/-- Two sides overlap just where they name one space and hold a byte in common. -/
theorem overlaps_iff {x y : Side} {len : Nat} (hx : 0 < (x.covers len).2) (hy : 0 < (y.covers len).2) :
    overlaps x y len = true ↔ x.space = y.space ∧ ∃ n, x.holds len n ∧ y.holds len n := by
  simp only [overlaps, Bool.and_eq_true, beq_iff_eq, decide_eq_true_eq, and_assoc, Side.holds]
  refine and_congr_right fun _ => ⟨fun ⟨h1, h2⟩ => ⟨max (x.covers len).1 (y.covers len).1, ?_⟩, fun ⟨n, hn⟩ => ?_⟩ <;> omega

/-- Settles O55: by the mode of each side the bytes named are those that it covers, and ranges that are not empty share a byte just where
each begins before the other ends. -/
theorem sidesOverlap : Obligations.SidesOverlap := by
  intro h hlen inSide
  have key : ∀ (x : Side) (n : Nat), x.width = 4 → (inSide x n ↔ x.holds h.len n) := by
    intro x n hw
    cases hm : x.mode with
    | inc => simp only [inSide, Side.holds, hm, covers_inc hm]
    | fixed => simp only [inSide, Side.holds, hm, covers_fixed hm, hw]
    | circ w => simp only [inSide, Side.holds, hm, covers_circ hm]; exact div_eq_iff_block
  simp only [key _ _ (show (mainSrc h).width = 4 from rfl), key _ _ (show (mainDst h).width = 4 from rfl)]
  exact overlaps_iff (covers_pos rfl hlen) (covers_pos rfl hlen)

end Sys2Proof.Machine
end

section
/-!
PROOFS. Words of a list of staging registers, what a self-test slice that ends keeps, and updates that touch registers and messages only.
-/

namespace Sys2Proof.Machine

/-! ### Updates of registers and messages -/

/-- Nothing but register words, messages and the record of the self-test slices differs. -/
def keepsState (d e : Dev) : Prop := ∃ r p o n b, e = { d with regs := r, msixPending := p, out := o, freeCount := n, bst := b }

section State

variable {d e g : Dev}

theorem keepsState.refl (d : Dev) : keepsState d d := ⟨d.regs, d.msixPending, d.out, d.freeCount, d.bst, rfl⟩

theorem keepsState.trans (h : keepsState d e) (h' : keepsState e g) : keepsState d g := by
  obtain ⟨r, p, o, n, b, rfl⟩ := h
  obtain ⟨r', p', o', n', b', rfl⟩ := h'
  exact ⟨r', p', o', n', b', rfl⟩

theorem keepsState.wr (h : keepsState d e) (r : Reg) (w : Word) : keepsState d (wr e r w) :=
  h.trans ⟨_, e.msixPending, e.out, e.freeCount, e.bst, rfl⟩

theorem keepsState.wrn (h : keepsState d e) (r : Reg) (n : Nat) : keepsState d (wrn e r n) := h.wr _ _

theorem keepsState.setFld (h : keepsState d e) (f : Fld) (v : Nat) : keepsState d (setFld e f v) := h.wr _ _

theorem keepsState.setFlag (h : keepsState d e) (f : Fld) (b : Bool) : keepsState d (setFlag e f b) := h.wr _ _

theorem keepsState.count (h : keepsState d e) (r : Reg) : keepsState d (count e r) := h.wr _ _

theorem keepsState.countBy (h : keepsState d e) (r : Reg) (n : Nat) : keepsState d (countBy e r n) := h.wr _ _

theorem keepsState.raiseEvt (h : keepsState d e) (u : EvtUnit) (b : Nat) : keepsState d (raiseEvt e u b) := by
  obtain ⟨r, p, o, eq⟩ := raiseEvt_spec e u b
  exact h.trans ⟨r, p, o, e.freeCount, e.bst, eq⟩

theorem keepsState.sliceService (h : keepsState d e) (t : Nat) : keepsState d (sliceService e t) := by
  obtain ⟨r, n, b, eq⟩ := sliceService_touches e t
  exact h.trans ⟨r, e.msixPending, e.out, n, b, eq⟩

theorem keepsState.pkt (h : keepsState d e) : e.pkt = d.pkt := by
  obtain ⟨r, p, o, n, b, rfl⟩ := h
  rfl

theorem keepsState.endpoints (h : keepsState d e) : e.endpoints = d.endpoints := by
  obtain ⟨r, p, o, n, b, rfl⟩ := h
  rfl

theorem keepsState.elapsed (h : keepsState d e) : e.elapsed = d.elapsed := by
  obtain ⟨r, p, o, n, b, rfl⟩ := h
  rfl

theorem keepsState.prsIn (h : keepsState d e) : e.prsIn = d.prsIn := by
  obtain ⟨r, p, o, n, b, rfl⟩ := h
  rfl

end State

/-! ### Staging registers (R246, R248, R253) -/

theorem readWords_congr {d e : Dev} {r : Nat → Reg} {n : Nat} (h : ∀ j < n, rd e (r j) = rd d (r j)) : readWords e r n = readWords d r n := by
  induction n with
  | zero => rfl
  | succ n ih =>
    have hr : rdn e (r n) = rdn d (r n) := congrArg BitVec.toNat (h n (Nat.lt_succ_self n))
    rw [readWords, readWords, ih fun j hj => h j (Nat.lt_succ_of_lt hj), hr]

theorem keepsState_writeWords {d e : Dev} (h : keepsState d e) (r : Nat → Reg) (n v : Nat) : keepsState d (writeWords e r n v) := by
  induction n with
  | zero => exact h
  | succ n ih => exact ih.wrn _ _

theorem rdn_writeWords_other (d : Dev) {r : Nat → Reg} {n : Nat} (v : Nat) {q : Reg} (h : ∀ j < n, q.ofs ≠ (r j).ofs) :
    rdn (writeWords d r n v) q = rdn d q := by
  induction n with
  | zero => rfl
  | succ n ih => rw [writeWords, rdn_wrn_other _ _ (h n (Nat.lt_succ_self n)), ih fun j hj => h j (Nat.lt_succ_of_lt hj)]

/-- Each word reads as it was written. -/
theorem rdn_writeWords (d : Dev) {r : Nat → Reg} {n j : Nat} (v : Nat) (hj : j < n) (hr : ∀ a b : Nat, a ≠ b → (r a).ofs ≠ (r b).ofs) :
    rdn (writeWords d r n v) (r j) = v / 2 ^ (32 * j) % 0x100000000 := by
  induction n with
  | zero => exact absurd hj (Nat.not_lt_zero j)
  | succ n ih =>
    rw [writeWords]
    rcases Nat.lt_succ_iff_lt_or_eq.mp hj with h | rfl
    · rw [rdn_wrn_other _ _ (hr j n (Nat.ne_of_lt h)), ih h]
    · rw [rdn_wrn_same]
      exact Nat.mod_mod _ _

theorem goBits_below : ∀ i < 30, (0x80000000 : Word).getLsbD i = false ∧ (0xBFFFFFFF : Word).getLsbD i = true
    ∧ (0xC0000000 : Word).getLsbD i = false := by decide

/-- Words that agree in the bits of a field hold it alike. -/
theorem getBits_eq {v w : Word} {hi lo : Nat} (hl : lo ≤ hi) (h : ∀ i, lo ≤ i → i ≤ hi → v.getLsbD i = w.getLsbD i) : getBits v hi lo = getBits w hi lo := by
  unfold getBits
  congr 1
  ext i hi'
  simp only [BitVec.getElem_extractLsb', h (lo + i) (by omega) (by omega)]

/-- GO and OP of a written control word leave the fields below them as they are (R246, R248, R253). -/
theorem getBits_writeGo (value : Word) {hi lo : Nat} (hl : lo ≤ hi) (h : hi < 30) :
    getBits ((value ||| 0x80000000) &&& 0xBFFFFFFF) hi lo = getBits value hi lo := by
  refine getBits_eq hl fun i _ hi' => ?_
  obtain ⟨h1, h2, _⟩ := goBits_below i (by omega)
  rw [BitVec.getLsbD_and, BitVec.getLsbD_or, h1, h2, Bool.or_false, Bool.and_true]

theorem getBits_readGo (value : Word) {hi lo : Nat} (hl : lo ≤ hi) (h : hi < 30) :
    getBits (value ||| 0xC0000000) hi lo = getBits value hi lo := by
  refine getBits_eq hl fun i _ hi' => ?_
  obtain ⟨_, _, h3⟩ := goBits_below i (by omega)
  rw [BitVec.getLsbD_or, h3, Bool.or_false]

theorem go_writeGo (value : Word) : ((value ||| 0x80000000) &&& 0xBFFFFFFF).getLsbD 31 = true ∧ ((value ||| 0x80000000) &&& 0xBFFFFFFF).getLsbD 30 = false := by
  simp

theorem go_readGo (value : Word) : (value ||| 0xC0000000).getLsbD 31 = true ∧ (value ||| 0xC0000000).getLsbD 30 = true := by
  simp

/-! ### A slice that service ends (R378, R383) -/

section Words

variable {w : Nat → Prop} {d e : Dev}

/-- The words of the packet units and above, their headers left out. -/
def isPacketWord (o : Nat) : Prop := 0xb00000 ≤ o ∧ 0x40 ≤ o % 0x10000

theorem not_isPacketWord_low {o : Nat} (h : o < 0xb00000) : ¬ isPacketWord o := fun hp => by
  unfold isPacketWord at hp
  omega

theorem window_targetUnits_all (t : Nat) : ∀ u ∈ targetUnits t, (HDR_BST (unitAt u).base).ofs % 0x10000 < 0x40 := by
  rcases Nat.lt_or_ge t 48 with h | h
  · exact window_targetUnits t h
  · have h15 : targetUnits t = [15] := by
      unfold targetUnits
      iterate 7 rw [if_neg (by omega)]
    rw [h15]
    decide

theorem not_isPacketWord_engine {n : Nat} (h : n < 18) : ¬ isPacketWord (engineReg n).ofs := by
  refine not_isPacketWord_low ?_
  unfold engineReg
  split
  · simp only
    omega
  · simp only
    omega

theorem keepsPacket_setVerdict {t : Nat} (h : keepsWords isPacketWord d e) (ht : (BST_TGTt_STATUS t).ofs < 0xb00000) (v : Nat) :
    keepsWords isPacketWord d (setVerdict e t v) := by
  have htarget := h.setFld (f := BST_TGTt_STATUS_VERDICT t) (not_isPacketWord_low ht) v
  unfold setVerdict
  refine forEach_keeps_mem (fun _ u hu hg => hg.setFld (f := HDR_BST_VERDICT (unitAt u).base) (fun hp => ?_) _) ?_
  · exact absurd hp.2 (Nat.not_le.mpr (window_targetUnits_all t u hu))
  · split
    · next hc => exact htarget.setFld (f := ⟨engineReg t, 29, 27⟩) (not_isPacketWord_engine hc) v
    · exact htarget

theorem keepsPacket_recordSlice (h : keepsWords isPacketWord d e) (verdict cause : Nat) :
    keepsWords isPacketWord d (recordSlice e verdict cause) := by
  have hb {o : Nat} (ho : o < 0xb00000) := not_isPacketWord_low ho
  unfold recordSlice
  exact ((((h.setFld (hb (by decide)) _).setFld (hb (by decide)) _).setFlag (hb (by decide)) _).setFld (hb (by decide)) _).setFld
    (hb (by decide)) _

theorem slicing_lt {t : Nat} (h : slicing d = some t) : t < 64 := by
  unfold slicing at h
  split at h
  · cases h
    exact fld_lt d BST_STATUS_TARGET
  · cases h

theorem keepsPacket_sliceService (h : keepsWords isPacketWord d e) (t : Nat) : keepsWords isPacketWord d (sliceService e t) := by
  unfold sliceService
  split
  · next hs =>
    have hb {o : Nat} (ho : o < 0xb00000) := not_isPacketWord_low ho
    have hsig := ((h.of_regs (g := { e with freeCount := e.freeCount + 2 }) rfl).wr (r := BST_LAST_SIG_LO) (hb (by decide))
      (BitVec.ofNat 32 (Config.freeValue e.freeCount))).wr (r := BST_LAST_SIG_HI) (hb (by decide))
      (BitVec.ofNat 32 (Config.freeValue (e.freeCount + 1)))
    have ht : (BST_TGTt_STATUS t).ofs < 0xb00000 := by
      have := slicing_lt hs
      simp only
      omega
    have hcut := keepsPacket_setVerdict (keepsPacket_recordSlice (hsig.count (r := BST_ABORTED) (hb (by decide))) vdAborted cutService) ht vdAborted
    unfold abortSlice
    simp only [hs]
    exact ((hcut.of_regs rfl).count (r := BST_SERVICE_ABORT) (hb (by decide))).setFld (f := BST_STATUS_PHASE) (hb (by decide)) 3
  · exact h

end Words

end Sys2Proof.Machine
end

section
/-!
PROOFS. The rules, the banks and the patterns of the classifier (R242, R243, R246 to R248).
-/

namespace Sys2Proof.Machine

/-! ### The winning rule (R242) -/

theorem risingFrom_pairwise {α : Type} {m : Sparse α} {n : Nat} (h : risingFrom n m = true) :
    (∀ e ∈ m, n ≤ e.1) ∧ m.Pairwise (fun a b => a.1 < b.1) := by
  induction m generalizing n with
  | nil => simp
  | cons e t ih =>
    obtain ⟨k, v⟩ := e
    simp only [risingFrom, Bool.and_eq_true, decide_eq_true_eq] at h
    obtain ⟨hk, ht⟩ := h
    obtain ⟨hle, hp⟩ := ih ht
    refine ⟨?_, List.pairwise_cons.mpr ⟨hle, hp⟩⟩
    intro e he
    rcases List.mem_cons.mp he with rfl | he
    · exact hk
    · exact Nat.le_of_lt (Nat.lt_of_lt_of_le (Nat.lt_succ_of_le hk) (hle e he))

/-- What find? answers in a list that rises is the least entry of its kind. -/
theorem find?_least {α : Type} {m : Sparse α} {n : Nat} (h : risingFrom n m = true) {p : Nat × α → Bool} {e : Nat × α}
    (he : m.find? p = some e) {e' : Nat × α} (hm : e' ∈ m) (hp : p e' = true) : e.1 ≤ e'.1 := by
  obtain ⟨_, hpair⟩ := risingFrom_pairwise h
  obtain ⟨_, as, bs, rfl, has⟩ := List.find?_eq_some_iff_append.mp he
  rcases List.mem_append.mp hm with ha | hb
  · exact absurd hp (by simpa using has e' ha)
  · rcases List.mem_cons.mp hb with rfl | hb
    · exact le_rfl
    · exact Nat.le_of_lt ((List.pairwise_cons.mp (List.pairwise_append.mp hpair).2.1).1 e' hb)

/-- Entries of other kinds do not matter to find?. -/
theorem find?_sdrop_of_not {α : Type} {m : Sparse α} {k : Nat} {p : Nat × α → Bool} (h : ∀ v, p (k, v) = false) :
    (sdrop k m).find? p = m.find? p := by
  induction m with
  | nil => rfl
  | cons e t ih =>
    obtain ⟨a, v⟩ := e
    by_cases ha : a = k
    · rw [sdrop, if_pos ha, List.find?_cons, ha, h, ih]
    · rw [sdrop, if_neg ha, List.find?_cons, List.find?_cons, ih]

theorem find?_sins_of_not {α : Type} {m : Sparse α} {k : Nat} {v : α} {p : Nat × α → Bool} (h : p (k, v) = false) :
    (sins k v m).find? p = m.find? p := by
  induction m with
  | nil => simp [sins, h]
  | cons e t ih =>
    obtain ⟨a, w⟩ := e
    by_cases ha : a < k
    · rw [sins, if_pos ha, List.find?_cons, List.find?_cons, ih]
    · rw [sins, if_neg ha, List.find?_cons, h]

theorem winner_cases (d : Dev) {bank : Nat} (key : Nat) (h : risingFrom 0 d.pkt.rules = true) :
    (∃ e ∈ d.pkt.rules, e.1 / 65536 = bank ∧ ruleMatches key (e.1 % 65536) e.2 = true ∧ winner d bank key = (e.1 % 65536, e.2.act)
        ∧ ∀ e' ∈ d.pkt.rules, e'.1 / 65536 = bank → ruleMatches key (e'.1 % 65536) e'.2 = true → e.1 % 65536 ≤ e'.1 % 65536)
      ∨ ((∀ e ∈ d.pkt.rules, e.1 / 65536 = bank → ruleMatches key (e.1 % 65536) e.2 = false) ∧ winner d bank key = (65535, emptyAction)) := by
  unfold winner
  cases hf : d.pkt.rules.find? (fun e => e.1 / 65536 == bank && ruleMatches key (e.1 % 65536) e.2) with
  | none =>
    refine .inr ⟨fun e he hb => ?_, rfl⟩
    simpa [hb] using List.find?_eq_none.mp hf e he
  | some e =>
    have hp := List.find?_some hf
    simp only [Bool.and_eq_true, beq_iff_eq] at hp
    refine .inl ⟨e, List.mem_of_find?_eq_some hf, hp.1, hp.2, rfl, fun e' he' hb hm => ?_⟩
    have hle := find?_least h hf he' (by simp [hb, hm])
    have hb := hp.1
    omega


/-! ### Accesses to the rules (R246) -/

theorem getBits_lt (w : Word) (hi lo : Nat) : getBits w hi lo < 2 ^ (hi - lo + 1) := BitVec.isLt _

/-- An event of the classifier changes no register of the classifier but CLS_EVT. -/
theorem rd_raiseCls_other (d : Dev) (b : Nat) {q : Reg} (h : q.ofs ≠ CLS_EVT.ofs ∧ q.ofs < 0xf00000) : rd (raiseCls d b) q = rd d q :=
  rd_raiseEvt_other d evCLS b h.1 (Nat.ne_of_lt (Nat.lt_of_lt_of_le h.2 (by decide))) (Nat.ne_of_lt (Nat.lt_of_lt_of_le h.2 (by decide)))

theorem storeAt_ruleCtl (d : Dev) (m : Master) (value : Word) : ∃ w, storeAt d m CLS_RULE_CTL.ofs value = wr d CLS_RULE_CTL w
    ∧ getBits w 29 29 = getBits value 29 29 ∧ getBits w 15 0 = getBits value 15 0 := by
  refine ⟨putBits (putBits (putBits (rd d CLS_RULE_CTL) 30 30 (getBits value 30 30)) 29 29 (getBits value 29 29)) 15 0 (getBits value 15 0),
    rfl, ?_, ?_⟩
  · rw [getBits_putBits_other _ _ (.inr (by decide)) (by decide) (by decide), getBits_putBits_same _ _ (by decide) (by decide),
      Nat.mod_eq_of_lt (getBits_lt value 29 29)]
  · rw [getBits_putBits_same _ _ (by decide) (by decide), Nat.mod_eq_of_lt (getBits_lt value 15 0)]

/-- What a write to CLS_RULE_CTL leaves as it was for the access that follows. -/
structure ctlStored (d e : Dev) (value : Word) : Prop where
  state : keepsState d e
  words : ∀ q : Reg, q.ofs ≠ CLS_RULE_CTL.ofs → rd e q = rd d q
  bank : fld e CLS_RULE_CTL_BANK = getBits value 29 29
  index : fld e CLS_RULE_CTL_INDEX = getBits value 15 0

theorem ctlStored_storeAt (d : Dev) (m : Master) (value : Word) : ctlStored d (storeAt d m CLS_RULE_CTL.ofs value) value := by
  obtain ⟨w, heq, hb, hi⟩ := storeAt_ruleCtl d m value
  rw [heq]
  refine ⟨(keepsState.refl d).wr _ w, fun q hq => rd_wr_other d w hq, ?_, ?_⟩
  · rw [fld, rd_wr_same, hb]
  · rw [fld, rd_wr_same, hi]

theorem ctlStored_writeGo {d : Dev} {m : Master} (value : Word) (h : admits d m CLS_RULE_CTL.ofs = true) :
    ∃ e v, ruleWrite m value d = ruleWriteGo e ∧ ctlStored d e v ∧ getBits v 15 0 = getBits value 15 0 := by
  obtain ⟨h31, h30⟩ := go_writeGo value
  refine ⟨_, _, ?_, ctlStored_storeAt d m ((value ||| 0x80000000) &&& 0xBFFFFFFF), getBits_writeGo value (by decide) (by decide)⟩
  rw [ruleWrite, ruleCtlWrite, guarded_admits _ h]
  simp only [h31, h30, if_true, Bool.false_eq_true, if_false]

theorem ctlStored_readGo {d : Dev} {m : Master} (value : Word) (h : admits d m CLS_RULE_CTL.ofs = true) :
    ∃ e v, ruleRead m value d = ruleReadGo e ∧ ctlStored d e v ∧ getBits v 15 0 = getBits value 15 0 ∧ getBits v 29 29 = getBits value 29 29 := by
  obtain ⟨h31, h30⟩ := go_readGo value
  refine ⟨_, _, ?_, ctlStored_storeAt d m (value ||| 0xC0000000), getBits_readGo value (by decide) (by decide),
    getBits_readGo value (by decide) (by decide)⟩
  rw [ruleRead, ruleCtlWrite, guarded_admits _ h]
  simp only [h31, h30, if_true]

theorem ctlStored.status {d e : Dev} {value : Word} (h : ctlStored d e value) {f : Fld} (hf : f.reg = CLS_BANK_STATUS) : fld e f = fld d f :=
  fld_congr f (h.words _ (by rw [hf]; decide))

theorem ctlStored.statusFlag {d e : Dev} {value : Word} (h : ctlStored d e value) {f : Fld} (hf : f.reg = CLS_BANK_STATUS) : flag e f = flag d f :=
  flag_congr f (h.words _ (by rw [hf]; decide))

/-- The rule in the staging registers. -/
def stagedRule (d : Dev) : Rule :=
  { key := readWords d CLS_RULE_KEYj 10, mask := readWords d CLS_RULE_MASKj 10,
    act := rdn d CLS_RULE_ACT_HI * 0x100000000 + rdn d CLS_RULE_ACT_LO }

theorem ctlStored.rule {d e : Dev} {value : Word} (h : ctlStored d e value) : stagedRule e = stagedRule d := by
  have hk := readWords_congr (r := CLS_RULE_KEYj) (n := 10) fun j _ => h.words (CLS_RULE_KEYj j) (by simp only; omega)
  have hm := readWords_congr (r := CLS_RULE_MASKj) (n := 10) fun j _ => h.words (CLS_RULE_MASKj j) (by simp only; omega)
  rw [stagedRule, stagedRule, hk, hm, rdn, h.words CLS_RULE_ACT_HI (by decide), rdn, h.words CLS_RULE_ACT_LO (by decide), rdn, rdn]

theorem activeBank_lt (d : Dev) : activeBank d < 2 := fld_lt d CLS_BANK_STATUS_ACTIVE

/-- The position of a rule of the idle bank among the stored rules. -/
def idleIndex (d : Dev) (i : Nat) : Nat := (1 - activeBank d) * 65536 + i

/-- A rule stored in the idle bank never changes what the active bank answers. -/
theorem winner_idle (d : Dev) {i : Nat} (hi : i < 65536) (r : Rule) {e : Dev} (he : e.pkt.rules = sins (idleIndex d i) r (sdrop (idleIndex d i) d.pkt.rules))
    (key : Nat) : winner e (activeBank d) key = winner d (activeBank d) key := by
  have hother : idleIndex d i / 65536 ≠ activeBank d := by
    have := activeBank_lt d
    unfold idleIndex
    omega
  have hnot (v : Rule) : ((idleIndex d i, v).1 / 65536 == activeBank d && ruleMatches key ((idleIndex d i, v).1 % 65536) (idleIndex d i, v).2) = false := by
    simp [hother]
  unfold winner
  rw [he, find?_sins_of_not (hnot r), find?_sdrop_of_not hnot]

/-- A write GO stores the staged rule in the idle bank (R246). -/
theorem ruleWriteGo_stores {d : Dev} (hb : ruleBusy d = false) (hd : flag d CLS_BANK_STATUS_DRAINING = false) :
    (ruleWriteGo d).pkt.rules = sins (idleIndex d (fld d CLS_RULE_CTL_INDEX)) (stagedRule d) (sdrop (idleIndex d (fld d CLS_RULE_CTL_INDEX)) d.pkt.rules)
      ∧ ruleBusy (ruleWriteGo d) = true ∧ activeBank (ruleWriteGo d) = activeBank d := by
  rw [ruleWriteGo, if_neg (by simp [hb]), if_neg (by simp [hd])]
  refine ⟨rfl, flag_setFlag_same _ _ (by decide) (by decide), ?_⟩
  rw [activeBank, fld_setFlag_apart _ _ (by simp [apart])]
  exact fld_congr CLS_BANK_STATUS_ACTIVE (by rw [rd_setFlag_other _ _ (by decide), rd_setFlag_other _ _ (by decide)]; rfl)

/-- A write GO while a drain lasts is refused and counted (R246). -/
theorem ruleWriteGo_refuses {d : Dev} (hb : ruleBusy d = false) (hd : flag d CLS_BANK_STATUS_DRAINING = true) :
    flag (ruleWriteGo d) CLS_RULE_CTL_REFUSED = true ∧ rdn (ruleWriteGo d) CLS_WRITE_REFUSED = min (rdn d CLS_WRITE_REFUSED + 1) 0xFFFFFFFF := by
  rw [ruleWriteGo, if_neg (by simp [hb]), if_pos hd]
  constructor
  · rw [flag_congr CLS_RULE_CTL_REFUSED (rd_raiseCls_other _ _ (by decide)),
      flag_congr CLS_RULE_CTL_REFUSED (rd_count_other _ (by decide)), flag_setFlag_same _ _ (by decide) (by decide)]
  · rw [rdn, rd_raiseCls_other _ _ (by decide), ← rdn, rdn_count_same, rdn,
      rd_setFlag_other _ _ (by decide), ← rdn]

theorem ruleWriteGo_pkt {d : Dev} (h : ruleBusy d = true ∨ flag d CLS_BANK_STATUS_DRAINING = true) : (ruleWriteGo d).pkt = d.pkt := by
  unfold ruleWriteGo
  split
  · rfl
  · next hb =>
    rw [if_pos (h.resolve_left hb)]
    exact ((((keepsState.refl d).setFlag _ _).count _).raiseEvt _ _).pkt

/-- The rule at a position as a read brings it: one that no one wrote is empty, or the default of an empty bank (R246). -/
def ruleRow (d : Dev) (bank i : Nat) : Rule :=
  sget { Rule.none with act := if i = defaultRule then emptyAction else 0 } d.pkt.rules (bank * 65536 + i)

/-- A read GO brings a rule into the staging registers (R246). -/
theorem ruleReadGo_reads {d : Dev} (hb : ruleBusy d = false) :
    (ruleReadGo d).pkt = d.pkt ∧ ∀ r : Rule, r = ruleRow d (fld d CLS_RULE_CTL_BANK) (fld d CLS_RULE_CTL_INDEX) →
      (∀ j : Nat, j < 10 → rdn (ruleReadGo d) (CLS_RULE_KEYj j) = r.key / 2 ^ (32 * j) % 0x100000000
        ∧ rdn (ruleReadGo d) (CLS_RULE_MASKj j) = r.mask / 2 ^ (32 * j) % 0x100000000)
      ∧ rdn (ruleReadGo d) CLS_RULE_ACT_HI = r.act / 0x100000000 % 0x100000000 ∧ rdn (ruleReadGo d) CLS_RULE_ACT_LO = r.act % 0x100000000 := by
  rw [ruleReadGo, if_neg (by simp [hb])]
  refine ⟨((keepsState_writeWords (keepsState_writeWords (keepsState.refl d) _ _ _) _ _ _).wrn _ _ |>.wrn _ _).pkt, ?_⟩
  rintro r rfl
  refine ⟨fun j hj => ⟨?_, ?_⟩, ?_, ?_⟩
  · rw [rdn_wrn_other _ _ (by simp only; omega), rdn_wrn_other _ _ (by simp only; omega),
      rdn_writeWords_other _ _ (fun i _ => by simp only; omega), rdn_writeWords _ _ hj (fun a b _ => by simp only; omega)]
    rfl
  · rw [rdn_wrn_other _ _ (by simp only; omega), rdn_wrn_other _ _ (by simp only; omega),
      rdn_writeWords _ _ hj (fun a b _ => by simp only; omega)]
    rfl
  · rw [rdn_wrn_other _ _ (by decide), rdn_wrn_same]
    rfl
  · rw [rdn_wrn_same]
    rfl

theorem ruleReadGo_pkt (d : Dev) : (ruleReadGo d).pkt = d.pkt := by
  cases hb : ruleBusy d with
  | true => rw [ruleReadGo, if_pos hb]
  | false => exact (ruleReadGo_reads hb).1

/-! ### Bank swap (R247) -/

theorem keepsState.syncDrain {d e : Dev} (h : keepsState d e) : keepsState d (syncDrain e) := by
  unfold Machine.syncDrain
  split
  · exact (h.setFld _ _).setFlag _ _
  · exact h

/-- The drain changes no field of its register but DRAINING and DRAIN_COUNT. -/
theorem fld_syncDrain (d : Dev) {f : Fld} (h1 : apart f CLS_BANK_STATUS_DRAIN_COUNT) (h2 : apart f CLS_BANK_STATUS_DRAINING) :
    fld (syncDrain d) f = fld d f := by
  unfold syncDrain
  split
  · rw [fld_setFlag_apart _ _ h2, fld_setFld_apart _ _ h1]
  · rfl

theorem rd_syncDrain_other (d : Dev) {q : Reg} (h : q.ofs ≠ CLS_BANK_STATUS.ofs) : rd (syncDrain d) q = rd d q := by
  unfold syncDrain
  split
  · rw [rd_setFlag_other _ _ h, rd_setFld_other _ _ h]
  · rfl

/-- A bank selection that names the other bank takes effect whole, with the next epoch (R247). -/
theorem clsApply_swaps {d : Dev} {ws : List (Nat × Word)} {w : Word} (h : ws.find? (fun e => e.1 == CLS_BANK_SEL.ofs) = some (CLS_BANK_SEL.ofs, w))
    (hb : boolBit (w.getLsbD 0) ≠ activeBank d) : activeBank (clsApply d ws) = boolBit (w.getLsbD 0)
      ∧ epoch (clsApply d ws) = (epoch d + 1) % 65536 ∧ (clsApply d ws).pkt = d.pkt := by
  have hlt : boolBit (w.getLsbD 0) < 2 := by cases w.getLsbD 0 <;> decide
  have hswap (f : Fld) (hf : f.reg = CLS_BANK_STATUS) (e : Dev) :
      fld (raiseCls (count e CLS_SWAPS) clSwap) f = fld e f :=
    fld_congr f (by rw [rd_raiseCls_other _ _ (by rw [hf]; decide), rd_count_other _ (by rw [hf]; decide)])
  unfold clsApply
  simp only [h, if_neg hb]
  refine ⟨?_, ?_, (((((((keepsState.refl d).setFld _ _).setFld _ _).setFlag _ _).count _).raiseEvt _ _).syncDrain).pkt⟩
  · rw [activeBank, fld_syncDrain _ (by simp [apart]) (by simp [apart]), hswap _ rfl, fld_setFlag_apart _ _ (by simp [apart]),
      fld_setFld_apart _ _ (by simp [apart]), fld_setFld_same _ _ (by decide) (by decide)]
    exact Nat.mod_eq_of_lt hlt
  · rw [epoch, fld_syncDrain _ (by simp [apart]) (by simp [apart]), hswap _ rfl, fld_setFlag_apart _ _ (by simp [apart]),
      fld_setFld_same _ _ (by decide) (by decide)]
    rfl

/-! ### Patterns (R248) -/

theorem storeAt_patCtl (d : Dev) (m : Master) (value : Word) : ∃ w, storeAt d m CLS_PAT_CTL.ofs value = wr d CLS_PAT_CTL w
    ∧ getBits w 11 0 = getBits value 11 0 :=
  ⟨putBits (putBits (rd d CLS_PAT_CTL) 30 30 (getBits value 30 30)) 11 0 (getBits value 11 0), rfl, by
    rw [getBits_putBits_same _ _ (by decide) (by decide), Nat.mod_eq_of_lt (getBits_lt value 11 0)]⟩

/-- The pattern in the staging registers. -/
def stagedPattern (d : Dev) : Pattern :=
  { cfg := rd d CLS_PAT_CFG, data := readWords d CLS_PAT_DATAj 16, mask := readWords d CLS_PAT_MASKj 16 }

theorem stagedPattern_wr (d : Dev) (w : Word) : stagedPattern (wr d CLS_PAT_CTL w) = stagedPattern d := by
  have hdata := readWords_congr (r := CLS_PAT_DATAj) (n := 16) fun j _ => rd_wr_other d (r := CLS_PAT_CTL) (q := CLS_PAT_DATAj j) w
    (by simp only; omega)
  have hmask := readWords_congr (r := CLS_PAT_MASKj) (n := 16) fun j _ => rd_wr_other d (r := CLS_PAT_CTL) (q := CLS_PAT_MASKj j) w
    (by simp only; omega)
  rw [stagedPattern, stagedPattern, hdata, hmask, rd_wr_other d w (by decide)]

theorem patternWrite_stores {d : Dev} {m : Master} (value : Word) (h : admits d m CLS_PAT_CTL.ofs = true) :
    sget Pattern.reset (patternWrite m value d).pkt.patterns (getBits value 11 0) = stagedPattern d := by
  obtain ⟨h31, h30⟩ := go_writeGo value
  obtain ⟨w, hw, hi⟩ := storeAt_patCtl d m ((value ||| 0x80000000) &&& 0xBFFFFFFF)
  rw [getBits_writeGo value (by decide) (by decide)] at hi
  rw [patternWrite, patCtlWrite, guarded_admits _ h, hw]
  simp only [h31, h30, Bool.not_true, Bool.false_eq_true, if_false, setPkt, wr_pkt]
  rw [fld, rd_wr_same, hi, sget_sput_same, ← stagedPattern_wr d w, stagedPattern]

/-- A read GO brings the pattern INDEX into the staging registers (R248). -/
theorem patternRead_reads {d : Dev} {m : Master} (value : Word) (h : admits d m CLS_PAT_CTL.ofs = true) :
    (patternRead m value d).pkt = d.pkt ∧ ∀ r : Pattern, r = sget Pattern.reset d.pkt.patterns (getBits value 11 0) →
      rd (patternRead m value d) CLS_PAT_CFG = r.cfg
      ∧ ∀ j : Nat, j < 16 → rdn (patternRead m value d) (CLS_PAT_DATAj j) = r.data / 2 ^ (32 * j) % 0x100000000
        ∧ rdn (patternRead m value d) (CLS_PAT_MASKj j) = r.mask / 2 ^ (32 * j) % 0x100000000 := by
  obtain ⟨h31, h30⟩ := go_readGo value
  obtain ⟨w, hw, hi⟩ := storeAt_patCtl d m (value ||| 0xC0000000)
  rw [getBits_readGo value (by decide) (by decide)] at hi
  have hindex : fld (wr d CLS_PAT_CTL w) CLS_PAT_CTL_INDEX = getBits value 11 0 := by rw [fld, rd_wr_same, hi]
  rw [patternRead, patCtlWrite, guarded_admits _ h, hw]
  simp only [h31, h30, Bool.not_true, Bool.false_eq_true, if_false, if_true, hindex, wr_pkt]
  refine ⟨(keepsState_writeWords (keepsState_writeWords ((keepsState.refl _).wr _ _ |>.wr _ _) _ _ _) _ _ _).pkt, ?_⟩
  rintro r rfl
  refine ⟨?_, fun j hj => ⟨?_, ?_⟩⟩
  · refine BitVec.eq_of_toNat_eq ?_
    rw [← rdn, rdn_writeWords_other _ _ (fun i _ => by simp only; omega), rdn_writeWords_other _ _ (fun i _ => by simp only; omega), rdn, rd_wr_same]
  · rw [rdn_writeWords_other _ _ (fun i _ => by simp only; omega), rdn_writeWords _ _ hj (fun a b _ => by simp only; omega)]
  · rw [rdn_writeWords _ _ hj (fun a b _ => by simp only; omega)]

end Sys2Proof.Machine
end

section
/-!
PROOFS. The passes of a frame through the parser and the classifier (R235 to R245).
-/

namespace Sys2Proof.Machine

/-! ### The header walk reads the parser's registers only (R235 to R239) -/

section Parse

variable {d e : Dev} (h : keepsWords isPacketWord d e)
include h

theorem ipv6OptKnown_congr (t : Nat) : ipv6OptKnown e t = ipv6OptKnown d t := by
  rw [ipv6OptKnown, ipv6OptKnown, h.rdn (q := PRS_IPV6_OPT0) (by simp [isPacketWord]), h.rdn (q := PRS_IPV6_OPT1) (by simp [isPacketWord])]

theorem ipv6OptBad_congr (n : Nat) (bs : List Byte) : ipv6OptBad e n bs = ipv6OptBad d n bs := by
  fun_induction ipv6OptBad d n bs with
  | case1 bs => simp [ipv6OptBad]
  | case2 n hn => simp [ipv6OptBad]
  | case3 n r ih => simp [ipv6OptBad, ih]
  | case4 n t r ht ih => rw [ipv6OptBad, if_neg ht, ih, ipv6OptKnown_congr h]

theorem geneveOptBad_congr (n : Nat) (bs : List Byte) : geneveOptBad e n bs = geneveOptBad d n bs := by
  have hopt : ∀ k ∈ List.range 16, isPacketWord (PRS_GENEVE_OPTk k).ofs := fun k hk => by
    have := List.mem_range.mp hk
    simp only [isPacketWord]
    omega
  have hany (c t : Nat) : (List.range 16).any (fun k => flag e (PRS_GENEVE_OPTk_VALID k) && fld e (PRS_GENEVE_OPTk_CLASS k) == c
        && fld e (PRS_GENEVE_OPTk_TYPE k) == t)
      = (List.range 16).any (fun k => flag d (PRS_GENEVE_OPTk_VALID k) && fld d (PRS_GENEVE_OPTk_CLASS k) == c
        && fld d (PRS_GENEVE_OPTk_TYPE k) == t) := by
    rw [Bool.eq_iff_iff, List.any_eq_true, List.any_eq_true]
    refine exists_congr fun k => and_congr_right fun hk => ?_
    rw [h.flag (f := PRS_GENEVE_OPTk_VALID k) (hopt k hk), h.fld (f := PRS_GENEVE_OPTk_CLASS k) (hopt k hk), h.fld (f := PRS_GENEVE_OPTk_TYPE k) (hopt k hk)]
  fun_induction geneveOptBad d n bs with
  | case1 bs => simp [geneveOptBad]
  | case2 n hn => simp [geneveOptBad]
  | case3 n r hr t known ih =>
    rw [geneveOptBad, ih, hany]
    exact hr

theorem optionFault_congr (x : Hdr) (bs : List Byte) (o : Nat) : optionFault e x bs o = optionFault d x bs o := by
  cases x <;> simp only [optionFault, ipv6OptBad_congr h, geneveOptBad_congr h]

theorem malCause_congr (x : Hdr) (bs : List Byte) (fe : Nat) (w : Walk) : malCause e x bs fe w = malCause d x bs fe w := by
  have hcfg : flag e (if w.inner then PRS_CFG_CHK_INNER_IPV4 else PRS_CFG_CHK_IPV4) = flag d (if w.inner then PRS_CFG_CHK_INNER_IPV4 else PRS_CFG_CHK_IPV4) := by
    split
    · exact h.flag (f := PRS_CFG_CHK_INNER_IPV4) (by simp [isPacketWord])
    · exact h.flag (f := PRS_CFG_CHK_IPV4) (by simp [isPacketWord])
  simp only [malCause, hcfg, optionFault_congr h]

theorem takeHdr_congr (x : Hdr) (bs : List Byte) (w : Walk) : takeHdr e x bs w = takeHdr d x bs w := by
  have hv := h.fld (f := PRS_PORTS_VXLAN_PORT) (by simp [isPacketWord])
  have hg := h.fld (f := PRS_PORTS_GENEVE_PORT) (by simp [isPacketWord])
  cases x <;> simp only [takeHdr, hv, hg]

theorem walkFrom_congr (bs : List Byte) (fe n : Nat) (x : Hdr) (w : Walk) : walkFrom e bs fe n x w = walkFrom d bs fe n x w := by
  induction n generalizing x w with
  | zero => rw [walkFrom, walkFrom]
  | succ n ih => cases x <;> simp only [walkFrom, malCause_congr h, takeHdr_congr h, ih]

theorem parseFrame_congr (f : RxFrame) : parseFrame e f = parseFrame d f := by
  unfold parseFrame
  rw [walkFrom_congr h]

end Parse

/-! ### FRAME_PARSE (R235, R237) -/

theorem exec_frameParse (full : Bool) (s : State) : exec (.frameParse full) s = .next (s.withDev (frameParse full s.dev)) := rfl

/-- The turn goes on where a line's frame has taken it (R235). -/
def turnTaken (d : Dev) (src : Source) (p : Nat) : Dev :=
  match src with
  | .line _ => setPkt d (fun k => { k with turn := (p + 1) % 9 })
  | _ => d

theorem turnTaken_pkt (d : Dev) (src : Source) (p : Nat) : ∃ n, turnTaken d src p = setPkt d (fun k => { k with turn := n }) := by
  cases src with
  | line x => exact ⟨_, rfl⟩
  | lane k => exact ⟨d.pkt.turn, rfl⟩
  | host r => exact ⟨d.pkt.turn, rfl⟩
  | own k => exact ⟨d.pkt.turn, rfl⟩

/-- The block as a frame's pipe is found: the frame is taken, the turn goes on, and a self-test of the pipe ends. -/
def parseBegun (d : Dev) (f : RxFrame) (rest : List RxFrame) (p : Nat) : Dev :=
  sliceService (turnTaken { d with prsIn := rest } f.src p) (18 + p)

theorem parseBegun_spec (d : Dev) (f : RxFrame) (rest : List RxFrame) (p : Nat) :
    keepsWords isPacketWord d (parseBegun d f rest p) ∧ (parseBegun d f rest p).prsIn = rest
      ∧ (parseBegun d f rest p).pkt.cls = d.pkt.cls := by
  obtain ⟨n, hturn⟩ := turnTaken_pkt { d with prsIn := rest } f.src p
  have hstate := (keepsState.refl (turnTaken { d with prsIn := rest } f.src p)).sliceService (18 + p)
  rw [parseBegun, hstate.prsIn, hstate.pkt, hturn]
  have hw := (keepsWords.refl isPacketWord d).of_regs (g := setPkt { d with prsIn := rest } (fun k => { k with turn := n })) rfl
  exact ⟨keepsPacket_sliceService hw _, rfl, rfl⟩

/-- A frame with a pipe: it is dropped where the input buffer is full, else parsed. -/
theorem frameParse_cons {d : Dev} {f : RxFrame} {rest : List RxFrame} {p : Nat} (hin : d.prsIn = f :: rest) (hp : pipeFor d f.src = some p) :
    frameParse true d = raiseCls (count (parseBegun d f rest p) CLS_PIPE_DROP) clPipeDrop
      ∧ ((parseFrame (parseBegun d f rest p) f).mal = 0 → frameParse false d
        = toClassifier (count (parseBegun d f rest p) PRS_FRAMES) f (parseFrame (parseBegun d f rest p) f) p) := by
  have hpipe : pipeFor { d with prsIn := rest } f.src = some p := hp
  have hbegun : sliceService (match f.src with
      | .line _ => setPkt { d with prsIn := rest } (fun k => { k with turn := (p + 1) % 9 })
      | _ => { d with prsIn := rest }) (18 + p) = parseBegun d f rest p := rfl
  unfold frameParse
  simp only [hin, hpipe, if_true, Bool.false_eq_true, if_false]
  exact ⟨rfl, fun hmal => if_pos hmal⟩

/-- A sound frame whose pipe has room waits for its lookup (R237). -/
theorem frameParse_waits {d : Dev} {f : RxFrame} {rest : List RxFrame} {p : Nat} (hin : d.prsIn = f :: rest) (hp : pipeFor d f.src = some p)
    (hmal : (parseFrame d f).mal = 0) : (frameParse false d).prsIn = rest ∧ (frameParse false d).pkt.cls
      = d.pkt.cls ++ [{ frame := f, parse := parseFrame d f, pipe := p, epoch := 0, since := 0, hit := none, skipped := false }] := by
  obtain ⟨hw, hrest, hcls⟩ := parseBegun_spec d f rest p
  have hparse := parseFrame_congr hw f
  rw [(frameParse_cons hin hp).2 (by rw [hparse, hmal]), hparse]
  exact ⟨hrest, congrArg (· ++ _) hcls⟩

/-- A frame without room in its pipe is dropped and counted (R235). -/
theorem frameParse_full {d : Dev} {f : RxFrame} {rest : List RxFrame} {p : Nat} (hin : d.prsIn = f :: rest) (hp : pipeFor d f.src = some p) :
    (frameParse true d).prsIn = rest ∧ (frameParse true d).pkt.cls = d.pkt.cls
      ∧ rdn (frameParse true d) CLS_PIPE_DROP = min (rdn d CLS_PIPE_DROP + 1) 0xFFFFFFFF := by
  obtain ⟨hw, hrest, hcls⟩ := parseBegun_spec d f rest p
  have hstate := ((keepsState.refl (parseBegun d f rest p)).count CLS_PIPE_DROP).raiseEvt evCLS clPipeDrop
  rw [(frameParse_cons hin hp).1]
  refine ⟨hstate.prsIn.trans hrest, (congrArg PacketHw.cls hstate.pkt).trans hcls, ?_⟩
  rw [rdn, rd_raiseCls_other _ _ (by decide), ← rdn, rdn_count_same, hw.rdn (q := CLS_PIPE_DROP) (by simp [isPacketWord])]

/-! ### What Ashlar's resolution leaves of the passes (R245, R256) -/

/-- The frames that wait for either pass are the same. -/
def keepsPasses (d e : Dev) : Prop := e.pkt.cls = d.pkt.cls ∧ e.pkt.second = d.pkt.second

theorem keepsState.passes {d e : Dev} (h : keepsState d e) : keepsPasses d e := by
  rw [keepsPasses, h.pkt]
  exact ⟨rfl, rfl⟩

theorem keepsPasses.trans {d e g : Dev} (h : keepsPasses d e) (h' : keepsPasses e g) : keepsPasses d g := ⟨h'.1.trans h.1, h'.2.trans h.2⟩

theorem keepsPasses_count (d : Dev) (r : Reg) : keepsPasses d (count d r) := ((keepsState.refl d).count r).passes

theorem keepsPasses_sendTo (d : Dev) (f : AshFrame) (w : Nat) (x : Destination) : keepsPasses d (sendTo d f w x) := by
  unfold sendTo
  repeat' split
  all_goals exact ⟨rfl, rfl⟩

theorem keepsPasses_byEndpoint (d : Dev) (f : AshFrame) : keepsPasses d (byEndpoint d f) := keepsPasses_sendTo d f _ _

theorem keepsPasses_byFlow (d : Dev) (f : AshFrame) (e : List Byte) : keepsPasses d (byFlow d f e) := by
  refine (keepsPasses_count d ASH_FLOW_HIT).trans ?_
  unfold byFlow
  dsimp only
  split
  · exact keepsPasses_sendTo _ f _ _
  · split
    · exact keepsPasses_sendTo _ f _ _
    · split
      · exact ⟨rfl, rfl⟩
      · exact keepsPasses_sendTo _ f _ _

theorem keepsPasses_cacheEcc (d : Dev) (k : List Byte) (ecc : Ecc) : keepsPasses d (cacheEcc d k ecc) := by
  unfold cacheEcc
  split
  · exact keepsPasses_count d _
  · exact ⟨rfl, rfl⟩
  · exact ⟨rfl, rfl⟩

theorem keepsPasses_admitLookup (d : Dev) : keepsPasses d (admitLookup d).1 := by
  unfold admitLookup
  grind [keepsPasses, setPkt]

theorem keepsPasses_byBypass (d : Dev) (f : AshFrame) : keepsPasses d (byBypass d f) :=
  (keepsPasses_count d _).trans (keepsPasses_byEndpoint _ f)

theorem keepsPasses_flowLookup (ecc : Ecc) (d : Dev) (f : AshFrame) : keepsPasses d (flowLookup ecc d f) := by
  grind [flowLookup, keepsPasses, setPkt, setLines, keepsPasses_admitLookup, keepsPasses_byBypass, keepsPasses_cacheEcc, keepsPasses_byFlow]

theorem keepsPasses_epRead1 (d : Dev) (n : Nat) (ecc : Ecc) : keepsPasses d (epRead1 d n ecc) := by
  cases ecc
  · exact ⟨rfl, rfl⟩
  · exact keepsPasses_count d _
  · exact ⟨rfl, rfl⟩

theorem keepsState_epEccFound (d : Dev) (n : Nat) : keepsState d (epEccFound d n) :=
  ((((keepsState.refl d).count _).setFlag _ _).setFld _ _).raiseEvt _ _

theorem keepsPasses_resolve (ecc flowErr : Ecc) (d : Dev) (f : AshFrame) : keepsPasses d (resolve ecc flowErr d f) := by
  refine (keepsPasses_epRead1 d f.endpoint ecc).trans ?_
  unfold resolve
  dsimp only
  split
  · exact (keepsState_epEccFound _ _).passes
  · split
    · exact keepsPasses_count _ _
    · split
      · exact keepsPasses_byEndpoint _ _
      · exact keepsPasses_flowLookup _ _ _

theorem keepsPasses_offerHost (d : Dev) (r : Nat) (f : BufFrame) : keepsPasses d (offerHost d r f) := ⟨rfl, rfl⟩

theorem keepsPasses_applyVerdict {resolve : Dev → AshFrame → Dev} (h : ∀ d f, keepsPasses d (resolve d f)) (d : Dev) (c : ClsFrame) (second : Bool)
    (act key : Nat) : keepsPasses d (applyVerdict resolve d c second act key) := by
  unfold applyVerdict
  grind [keepsPasses, keepsPasses_offerHost, keepsPasses_count, setPkt]

/-! ### The lookup of a pass (R242, R243) -/

theorem keepsState_cntRule (d : Dev) (c len : Nat) : keepsState d (cntRule d c len) := by
  have hadd (n : Nat) : keepsState d (cntAdd d c n) := by
    have hval := ((keepsState.refl d).wrn (CNT_VALc_LO c) (min (rdPair d (CNT_VALc_LO c) (CNT_VALc_HI c) + n) 0xFFFFFFFFFFFFFFFF)).wrn (CNT_VALc_HI c)
      (min (rdPair d (CNT_VALc_LO c) (CNT_VALc_HI c) + n) 0xFFFFFFFFFFFFFFFF / 0x100000000)
    unfold cntAdd
    dsimp only
    split
    · exact ((hval.setFlag _ _).count _).raiseEvt _ _
    · exact hval
  unfold cntRule
  grind [keepsState.refl]

/-- The event counters are above the words of the packet units. -/
theorem rd_cntRule_other (d : Dev) (c len : Nat) {q : Reg} (h : q.ofs < 0xf00000) : rd (cntRule d c len) q = rd d q := by
  have hcnt (r : Reg) (hr : 0xf00000 ≤ r.ofs) : q.ofs ≠ r.ofs := Nat.ne_of_lt (Nat.lt_of_lt_of_le h hr)
  have hadd (n : Nat) : rd (cntAdd d c n) q = rd d q := by
    have hlo : q.ofs ≠ (CNT_VALc_LO c).ofs := hcnt _ (by simp only; omega)
    have hhi : q.ofs ≠ (CNT_VALc_HI c).ofs := hcnt _ (by simp only; omega)
    have hsel : q.ofs ≠ (CNT_SELc_SAT c).reg.ofs := hcnt _ (by simp only; omega)
    unfold cntAdd
    dsimp only [wrPair]
    split
    · rw [raiseCnt, rd_raiseEvt_other _ evCNT _ (hcnt _ (by decide)) (hcnt _ (by decide)) (hcnt _ (by decide)), rd_count_other _ (hcnt _ (by decide)),
        rd_setFlag_other _ _ hsel, rd_wrn_other _ _ hhi, rd_wrn_other _ _ hlo]
    · rw [rd_wrn_other _ _ hhi, rd_wrn_other _ _ hlo]
  unfold cntRule
  grind

/-- A lookup answers the winner's action, counts, and nothing else (R242, R243). -/
theorem lookup_spec (d : Dev) (bank key len : Nat) : (lookup d bank key len).2 = (winner d bank key).2 ∧ keepsState d (lookup d bank key len).1
    ∧ rd (lookup d bank key len).1 CLS_BANK_STATUS = rd d CLS_BANK_STATUS := by
  unfold lookup
  dsimp only
  have hdefault : keepsState d (if (winner d bank key).1 = defaultRule then count d CLS_DEFAULT_HIT else d)
      ∧ rd (if (winner d bank key).1 = defaultRule then count d CLS_DEFAULT_HIT else d) CLS_BANK_STATUS = rd d CLS_BANK_STATUS := by
    split
    · exact ⟨(keepsState.refl d).count _, rd_count_other d (by decide)⟩
    · exact ⟨keepsState.refl d, rfl⟩
  refine ⟨rfl, ?_⟩
  split
  · next c _ => exact ⟨hdefault.1.trans (keepsState_cntRule _ c len), (rd_cntRule_other _ c len (by decide)).trans hdefault.2⟩
  · exact hdefault

theorem keepsPasses_scanFrame (d : Dev) (bs : List Byte) : keepsPasses d (scanFrame d bs).1 := by
  unfold scanFrame refillScan
  grind [keepsPasses, keepsPasses_count, setPkt]

/-! ### CLASSIFY_LOOKUP (R242 to R245) -/

theorem winner_congr {d e : Dev} (h : e.pkt.rules = d.pkt.rules) (bank key : Nat) : winner e bank key = winner d bank key := by
  rw [winner, winner, h]

/-- The block as the oldest parsed frame is taken: a self-test of its pipe ends (R250). -/
def classifyBegun (d : Dev) (c : ClsFrame) (rest : List ClsFrame) : Dev :=
  sliceService (setPkt d (fun k => { k with cls := rest })) (18 + c.pipe)

theorem classifyBegun_spec (d : Dev) (c : ClsFrame) (rest : List ClsFrame) :
    (classifyBegun d c rest).pkt = { d.pkt with cls := rest } ∧ (classifyBegun d c rest).elapsed = d.elapsed
      ∧ rd (classifyBegun d c rest) CLS_BANK_STATUS = rd d CLS_BANK_STATUS := by
  have h := (keepsState.refl (setPkt d (fun k => { k with cls := rest }))).sliceService (18 + c.pipe)
  have hw := keepsPacket_sliceService ((keepsWords.refl isPacketWord d).of_regs (g := setPkt d (fun k => { k with cls := rest })) rfl) (18 + c.pipe)
  exact ⟨h.pkt, h.elapsed, hw CLS_BANK_STATUS (by simp [isPacketWord])⟩

/-- The block after the first lookup of a frame (R242). -/
def lookedUp (d : Dev) (c : ClsFrame) (rest : List ClsFrame) : Dev :=
  (lookup (classifyBegun d c rest) (activeBank (classifyBegun d c rest)) c.parse.key1 c.frame.bytes.length).1

theorem lookedUp_spec (d : Dev) (c : ClsFrame) (rest : List ClsFrame) :
    (lookedUp d c rest).pkt = { d.pkt with cls := rest } ∧ (lookedUp d c rest).elapsed = d.elapsed ∧ epoch (lookedUp d c rest) = epoch d := by
  obtain ⟨hpkt, hel, hst⟩ := classifyBegun_spec d c rest
  obtain ⟨_, hk, hr⟩ := lookup_spec (classifyBegun d c rest) (activeBank (classifyBegun d c rest)) c.parse.key1 c.frame.bytes.length
  exact ⟨hk.pkt.trans hpkt, hk.elapsed.trans hel, fld_congr CLS_BANK_STATUS_EPOCH (hr.trans hst)⟩

/-- The first pass of the oldest frame goes by the winner of the active bank (R242). -/
theorem classifyWith_cons (resolve : Dev → AshFrame → Dev) {d : Dev} {c : ClsFrame} {rest : List ClsFrame} (hc : d.pkt.cls = c :: rest) {act : Nat}
    (hact : act = (winner d (activeBank d) c.parse.key1).2) :
    classifyWith resolve d
      = (let r := if actScan act then scanFrame (lookedUp d c rest) c.frame.bytes else (lookedUp d c rest, none, false)
        if actVerdict act = 4 then
          if 32 ≤ (secondOf r.1 c.pipe).length then raiseCls (count r.1 CLS_RECIRC_DROP) clRecircDrop
          else count (setPkt r.1 (fun k => { k with second := k.second
            ++ [{ c with epoch := epoch r.1, since := r.1.elapsed, hit := r.2.1, skipped := r.2.2 }] })) CLS_RECIRC
        else applyVerdict resolve r.1 c false act c.parse.key1) := by
  obtain ⟨hpkt, _, hst⟩ := classifyBegun_spec d c rest
  have hbank : activeBank (classifyBegun d c rest) = activeBank d := fld_congr CLS_BANK_STATUS_ACTIVE hst
  have hact' : (lookup (classifyBegun d c rest) (activeBank (classifyBegun d c rest)) c.parse.key1 c.frame.bytes.length).2 = act := by
    rw [(lookup_spec _ _ _ _).1, hact, hbank, winner_congr (d := d) (by rw [hpkt])]
  subst hact'
  unfold classifyWith
  simp only [hc]
  rfl

theorem classifyWith_cls {resolve : Dev → AshFrame → Dev} (hres : ∀ d f, keepsPasses d (resolve d f)) {d : Dev} {c : ClsFrame} {rest : List ClsFrame}
    (hc : d.pkt.cls = c :: rest) : (classifyWith resolve d).pkt.cls = rest := by
  obtain ⟨hpkt, _, _⟩ := lookedUp_spec d c rest
  rw [classifyWith_cons resolve hc rfl]
  generalize hr : (if actScan (winner d (activeBank d) c.parse.key1).2 = true then _ else _) = r
  have hcls : r.1.pkt.cls = rest := by
    rw [← hr]
    split
    · rw [(keepsPasses_scanFrame _ _).1, hpkt]
    · rw [hpkt]
  dsimp only
  split
  · split
    · rw [← hcls]
      exact ((((keepsState.refl r.1).count _).raiseEvt _ _).passes).1
    · exact hcls
  · exact (keepsPasses_applyVerdict hres _ _ _ _ _).1.trans hcls

/-- A frame without a scan that the winner drops, or sends round again (R243, R245). -/
theorem classifyWith_drop (resolve : Dev → AshFrame → Dev) {d : Dev} {c : ClsFrame} {rest : List ClsFrame} (hc : d.pkt.cls = c :: rest) {act : Nat}
    (hact : act = (winner d (activeBank d) c.parse.key1).2) (hs : actScan act = false) (hv : actVerdict act = 1) :
    classifyWith resolve d = lookedUp d c rest := by
  rw [classifyWith_cons resolve hc hact]
  simp only [hs, hv, applyVerdict, Bool.false_eq_true, if_false, if_true]
  rfl

theorem classifyWith_again (resolve : Dev → AshFrame → Dev) {d : Dev} {c : ClsFrame} {rest : List ClsFrame} (hc : d.pkt.cls = c :: rest) {act : Nat}
    (hact : act = (winner d (activeBank d) c.parse.key1).2) (hs : actScan act = false) (hv : actVerdict act = 4)
    (hlen : (secondOf d c.pipe).length < 32) : (classifyWith resolve d).pkt.offers = d.pkt.offers ∧ (classifyWith resolve d).pkt.second
      = d.pkt.second ++ [{ c with epoch := epoch d, since := d.elapsed, hit := none, skipped := false }] := by
  obtain ⟨hpkt, hel, hep⟩ := lookedUp_spec d c rest
  have hsecond : secondOf (lookedUp d c rest) c.pipe = secondOf d c.pipe := by rw [secondOf, secondOf, hpkt]
  rw [classifyWith_cons resolve hc hact]
  simp only [hs, hv, Bool.false_eq_true, if_false, if_true, hsecond, hep, hel, if_neg (Nat.not_le.mpr hlen)]
  have hcount := (((keepsState.refl (setPkt (lookedUp d c rest) (fun k => { k with second := k.second
            ++ [{ c with epoch := epoch d, since := d.elapsed, hit := none, skipped := false }] }))).count CLS_RECIRC)).pkt
  rw [hcount, setPkt, hpkt]
  exact ⟨rfl, rfl⟩

/-! ### SECOND_PASS and RECIRC_TIMEOUT (R245) -/

/-- A second pass takes its record from the queue and adds none (R245). -/
theorem secondPassWith_second {resolve : Dev → AshFrame → Dev} (hres : ∀ d f, keepsPasses d (resolve d f)) {d : Dev} {p : Nat} {c : ClsFrame}
    (hc : (secondOf d p).head? = some c) : (secondPassWith resolve p d).pkt.second = d.pkt.second.erase c := by
  have hdrop : (dropSecond (sliceService d (18 + p)) c).pkt.second = d.pkt.second.erase c := by
    have h := ((keepsState.refl d).sliceService (18 + p)).pkt
    rw [dropSecond, (keepsState.refl _).syncDrain.pkt, setPkt, h]
  obtain ⟨_, hk, _⟩ := lookup_spec (dropSecond (sliceService d (18 + p)) c) (c.epoch % 2) (secondKey c) c.frame.bytes.length
  unfold secondPassWith
  simp only [hc]
  split
  · exact ((keepsPasses_count _ _).2.trans hk.passes.2).trans hdrop
  · exact ((keepsPasses_applyVerdict hres _ _ _ _ _).2.trans hk.passes.2).trans hdrop

theorem secondPassWith_none (resolve : Dev → AshFrame → Dev) {d : Dev} {p : Nat} (h : secondOf d p = []) : secondPassWith resolve p d = d := by
  unfold secondPassWith
  simp only [h, List.head?_nil]

theorem recircTimeout_none {d : Dev} {p : Fin 9} (h : secondOf d p = []) : recircTimeout p d = d := by
  unfold recircTimeout
  simp only [h, List.head?_nil]

theorem recircTimeout_some {d : Dev} {p : Fin 9} {c : ClsFrame} (h : (secondOf d p).head? = some c) : recircTimeout p d
    = if c.since + 500 ≤ d.elapsed then raiseCls (count (dropSecond d c) CLS_RECIRC_DROP) clRecircDrop else d := by
  unfold recircTimeout
  simp only [h]

end Sys2Proof.Machine
end

section
/-!
PROOFS. FRAME_PARSE to PATTERN_READ: the obligation RulesAndPasses (R235 to R248).
-/

namespace Sys2Proof.Machine

theorem exec_classifyLookup (ecc flowErr : Ecc) (s : State) :
    exec (.classifyLookup ecc flowErr) s = .next (s.withDev (classifyWith (resolve ecc flowErr) s.dev)) := rfl

theorem exec_secondPass (p : Fin 9) (ecc flowErr : Ecc) (s : State) :
    exec (.secondPass p ecc flowErr) s = .next (s.withDev (secondPassWith (resolve ecc flowErr) p s.dev)) := rfl

theorem exec_recircTimeout (p : Fin 9) (s : State) : exec (.recircTimeout p) s = .next (s.withDev (recircTimeout p s.dev)) := rfl

theorem exec_ruleWrite (m : Master) (value : Word) (s : State) : exec (.ruleWrite m value) s = .next (s.withDev (ruleWrite m value s.dev)) := rfl

theorem exec_ruleRead (m : Master) (value : Word) (s : State) : exec (.ruleRead m value) s = .next (s.withDev (ruleRead m value s.dev)) := rfl

theorem exec_ruleWriteDone (s : State) : exec .ruleWriteDone s = .next (s.withDev (ruleWriteDone s.dev)) := rfl

theorem exec_patternWrite (m : Master) (value : Word) (s : State) :
    exec (.patternWrite m value) s = .next (s.withDev (patternWrite m value s.dev)) := rfl

theorem exec_patternRead (m : Master) (value : Word) (s : State) :
    exec (.patternRead m value) s = .next (s.withDev (patternRead m value s.dev)) := rfl

theorem frameParse_nil {d : Dev} (full : Bool) (h : d.prsIn = []) : frameParse full d = d := by
  unfold frameParse
  simp only [h]

theorem classifyWith_nil (resolve : Dev → AshFrame → Dev) {d : Dev} (h : d.pkt.cls = []) : classifyWith resolve d = d := by
  unfold classifyWith
  simp only [h]

/-- A write GO with no drain in progress (R246). -/
theorem ruleWrite_stores {d : Dev} {m : Master} (value : Word) (h : admits d m CLS_RULE_CTL.ofs = true) (hb : ruleBusy d = false)
    (hd : flag d CLS_BANK_STATUS_DRAINING = false) : (ruleWrite m value d).pkt.rules
        = sins (idleIndex d (getBits value 15 0)) (stagedRule d) (sdrop (idleIndex d (getBits value 15 0)) d.pkt.rules)
      ∧ ruleBusy (ruleWrite m value d) = true ∧ activeBank (ruleWrite m value d) = activeBank d := by
  obtain ⟨e, v, heq, hst, hv⟩ := ctlStored_writeGo value h
  have hbank : activeBank e = activeBank d := hst.status (f := CLS_BANK_STATUS_ACTIVE) rfl
  obtain ⟨hrules, hbusy, hact⟩ := ruleWriteGo_stores (d := e) ((hst.statusFlag (f := CLS_BANK_STATUS_RULE_BUSY) rfl).trans hb)
    ((hst.statusFlag (f := CLS_BANK_STATUS_DRAINING) rfl).trans hd)
  rw [heq, hrules, hact, hst.rule, hst.index, hv, idleIndex, hbank, hst.state.pkt]
  exact ⟨rfl, hbusy, rfl⟩

theorem ruleWrite_refused {d : Dev} {m : Master} (value : Word) (h : admits d m CLS_RULE_CTL.ofs = true)
    (hd : flag d CLS_BANK_STATUS_DRAINING = true) : (ruleWrite m value d).pkt = d.pkt ∧ (ruleBusy d = false →
      flag (ruleWrite m value d) CLS_RULE_CTL_REFUSED = true
        ∧ rdn (ruleWrite m value d) CLS_WRITE_REFUSED = min (rdn d CLS_WRITE_REFUSED + 1) 0xFFFFFFFF) := by
  obtain ⟨e, v, heq, hst, _⟩ := ctlStored_writeGo value h
  have hdrain := (hst.statusFlag (f := CLS_BANK_STATUS_DRAINING) rfl).trans hd
  rw [heq]
  refine ⟨(ruleWriteGo_pkt (.inr hdrain)).trans hst.state.pkt, fun hb => ?_⟩
  obtain ⟨hrefused, hcount⟩ := ruleWriteGo_refuses (d := e) ((hst.statusFlag (f := CLS_BANK_STATUS_RULE_BUSY) rfl).trans hb) hdrain
  refine ⟨hrefused, hcount.trans ?_⟩
  rw [rdn, hst.words CLS_WRITE_REFUSED (by decide), rdn]

theorem ruleWrite_busy {d : Dev} {m : Master} (value : Word) (h : admits d m CLS_RULE_CTL.ofs = true) (hb : ruleBusy d = true) :
    (ruleWrite m value d).pkt = d.pkt := by
  obtain ⟨e, v, heq, hst, _⟩ := ctlStored_writeGo value h
  rw [heq]
  exact (ruleWriteGo_pkt (.inl ((hst.statusFlag (f := CLS_BANK_STATUS_RULE_BUSY) rfl).trans hb))).trans hst.state.pkt

theorem ruleRead_reads {d : Dev} {m : Master} (value : Word) (h : admits d m CLS_RULE_CTL.ofs = true) (hb : ruleBusy d = false) :
    (ruleRead m value d).pkt = d.pkt ∧ ∀ r : Rule, r = ruleRow d (getBits value 29 29) (getBits value 15 0) →
      (∀ j : Nat, j < 10 → rdn (ruleRead m value d) (CLS_RULE_KEYj j) = r.key / 2 ^ (32 * j) % 0x100000000
        ∧ rdn (ruleRead m value d) (CLS_RULE_MASKj j) = r.mask / 2 ^ (32 * j) % 0x100000000)
      ∧ rdn (ruleRead m value d) CLS_RULE_ACT_HI = r.act / 0x100000000 % 0x100000000
      ∧ rdn (ruleRead m value d) CLS_RULE_ACT_LO = r.act % 0x100000000 := by
  obtain ⟨e, v, heq, hst, hv, hv'⟩ := ctlStored_readGo value h
  obtain ⟨hpkt, hread⟩ := ruleReadGo_reads (d := e) ((hst.statusFlag (f := CLS_BANK_STATUS_RULE_BUSY) rfl).trans hb)
  rw [heq]
  refine ⟨hpkt.trans hst.state.pkt, fun r hr => hread r ?_⟩
  rw [hr, hst.bank, hst.index, hv, hv', ruleRow, ruleRow, hst.state.pkt]

theorem ruleWriteDone_spec (d : Dev) : ruleBusy (ruleWriteDone d) = false ∧ (ruleWriteDone d).pkt = d.pkt :=
  ⟨flag_setFlag_same _ _ (by decide) (by decide), rfl⟩

/-- Settles O49, command by command: rules and banks by where a rule stands among the stored ones, the passes by the block after each lookup. -/
theorem rulesAndPasses : Obligations.RulesAndPasses := by
  unfold Obligations.RulesAndPasses
  refine ⟨?rules, ?access, ?done, ?swap, ?parse, ?first, ?second, ?patterns⟩
  case rules =>
    intro d bank key h _
    rcases winner_cases d (bank := bank) key h with hw | ⟨hnone, hw⟩
    · exact .inl hw
    · exact .inr ⟨hnone, hw, by decide⟩
  case access =>
    intro m value s h
    refine ⟨fun hb hd => ⟨_, exec_ruleWrite m value s, ?_⟩, fun hd => ⟨_, exec_ruleWrite m value s, ruleWrite_refused value h hd⟩,
      fun hb => ⟨_, exec_ruleWrite m value s, ruleWrite_busy value h hb⟩, fun hb => ⟨_, exec_ruleRead m value s, ruleRead_reads value h hb⟩⟩
    obtain ⟨hrules, hbusy, hact⟩ := ruleWrite_stores value h hb hd
    refine ⟨⟨stagedRule s.dev, ?_, rfl, rfl, rfl⟩, fun _ key => winner_idle s.dev (getBits_lt value 15 0) _ hrules key, hbusy, hact⟩
    rw [hrules]
    exact sget_sins_same _ _ _ _ (sdrop_keys _ _)
  case done => exact fun s => ⟨_, exec_ruleWriteDone s, ruleWriteDone_spec s.dev⟩
  case swap => exact fun d ws w h hb => clsApply_swaps h hb
  case parse =>
    refine fun s => ⟨fun h b => ?_, fun f rest p hin hp => ⟨fun hmal => ?_, _, exec_frameParse true s, frameParse_full hin hp⟩⟩
    · rw [exec_frameParse, frameParse_nil b h, withDev_self]
    · obtain ⟨hrest, hcls⟩ := frameParse_waits hin hp hmal
      exact ⟨_, _, exec_frameParse false s, hrest, hcls, rfl, rfl, rfl⟩
  case first =>
    refine fun s ecc flowErr => ⟨fun h => ?_, fun c rest act hc hact => ⟨_, exec_classifyLookup ecc flowErr s, rfl,
      classifyWith_cls (keepsPasses_resolve ecc flowErr) hc, fun hs hv => ?_, fun hs hv hlen => classifyWith_again _ hc hact hs hv hlen⟩⟩
    · rw [exec_classifyLookup, classifyWith_nil _ h, withDev_self]
    · have hpkt := (lookedUp_spec s.dev c rest).1
      rw [State.withDev, classifyWith_drop _ hc hact hs hv, hpkt]
      exact ⟨rfl, rfl⟩
  case second =>
    refine fun p s ecc flowErr => ⟨fun h => ⟨?_, ?_⟩, fun c hc => ⟨⟨_, exec_secondPass p ecc flowErr s,
      secondPassWith_second (keepsPasses_resolve ecc flowErr) hc⟩, fun hle => ?_, fun hlt => ?_⟩⟩
    · rw [exec_secondPass, secondPassWith_none _ h, withDev_self]
    · rw [exec_recircTimeout, recircTimeout_none h, withDev_self]
    · rw [exec_recircTimeout, recircTimeout_some hc, if_pos hle]
    · rw [exec_recircTimeout, recircTimeout_some hc, if_neg (Nat.not_le.mpr hlt), withDev_self]
  case patterns =>
    exact fun m value s h => ⟨⟨_, exec_patternWrite m value s, patternWrite_stores value h⟩, _, exec_patternRead m value s, patternRead_reads value h⟩

end Sys2Proof.Machine
end

section
/-!
PROOFS. The endpoint table and the order in which a frame is resolved: the obligation EndpointsResolve (R253, R255, R256, R262, R269).
-/

namespace Sys2Proof.Machine

theorem exec_epWrite (m : Master) (value : Word) (s : State) : exec (.epWrite m value) s = .next (s.withDev (epWrite m value s.dev)) := rfl

theorem exec_epRead (m : Master) (value : Word) (s : State) : exec (.epRead m value) s = .next (s.withDev (epRead m value s.dev)) := rfl

theorem exec_epScrub (e : Fin 1048576) (ecc : Ecc) (s : State) : exec (.epScrub e ecc) s = .next (s.withDev (epScrub e ecc s.dev)) := rfl

theorem exec_missTimeout (s : State) : exec .missTimeout s = .next (s.withDev (missTimeout s.dev)) := rfl

theorem exec_flowMissResolve (ecc : Ecc) (slot : Fin 8) (s : State) : exec (.flowMissResolve ecc slot) s
    = .next { s with dev := (flowMissResolve ecc slot s.dev s.mem).1, mem := (flowMissResolve ecc slot s.dev s.mem).2 } := rfl

/-! ### What the flow table is read by (R258, R260, R261) -/

/-- The cache, the seeds of the hashes and the region of the flow table are the same. -/
structure sameFlows (d e : Dev) : Prop where
  cache : e.pkt.cache = d.pkt.cache
  seed1 : rd e ASH_HASH_SEED1 = rd d ASH_HASH_SEED1
  seed2 : rd e ASH_HASH_SEED2 = rd d ASH_HASH_SEED2
  base : rd e ASH_FLOW_BASE = rd d ASH_FLOW_BASE

theorem sameFlows.refl (d : Dev) : sameFlows d d := ⟨rfl, rfl, rfl, rfl⟩

section Flows

variable {d e g : Dev} (h : sameFlows d e)
include h

theorem sameFlows.trans (h' : sameFlows e g) : sameFlows d g :=
  ⟨h'.cache.trans h.cache, h'.seed1.trans h.seed1, h'.seed2.trans h.seed2, h'.base.trans h.base⟩

theorem sameFlows.flowHash1 (k : List Byte) : flowHash1 e k = flowHash1 d k := by
  rw [Machine.flowHash1, Machine.flowHash1, rdn, h.seed1, ← rdn]

theorem sameFlows.flowHash2 (k : List Byte) : flowHash2 e k = flowHash2 d k := by
  rw [Machine.flowHash2, Machine.flowHash2, h.flowHash1, rdn, h.seed2, ← rdn]

theorem sameFlows.flowAddr (i : Nat) : flowAddr e i = flowAddr d i := by
  rw [Machine.flowAddr, Machine.flowAddr, fld_congr ASH_FLOW_BASE_REGION h.base]

theorem sameFlows.cachedKey (k : List Byte) : cachedKey e k = cachedKey d k := by
  rw [Machine.cachedKey, Machine.cachedKey, cacheSet, cacheSet, h.flowHash1, h.cache]

theorem sameFlows.flowEntry (m : Mem) (i : Nat) : flowEntry e m i = flowEntry d m i := by
  unfold Machine.flowEntry cacheSet
  simp only [h.flowAddr, h.flowHash1, h.cache]

theorem sameFlows.findFlow (m : Mem) (k : List Byte) : findFlow e m k = findFlow d m k := by
  unfold Machine.findFlow
  simp only [h.flowEntry, h.flowHash1, h.flowHash2]

theorem sameFlows.freeSlot (m : Mem) (b : Nat) : freeSlot e m b = freeSlot d m b := by
  unfold Machine.freeSlot
  simp only [h.flowEntry]

end Flows

/-- A register that is neither a seed nor the region is written. -/
theorem sameFlows_count (d : Dev) {r : Reg} (h : 0xd0004c < r.ofs) (hb : r.ofs ≠ ASH_FLOW_BASE.ofs) : sameFlows d (count d r) :=
  ⟨rfl, rd_count_other d (Nat.ne_of_lt (Nat.lt_trans (by decide) h)), rd_count_other d (Nat.ne_of_lt (Nat.lt_trans (by decide) h)),
    rd_count_other d hb.symm⟩

theorem sameFlows_setPkt (d : Dev) {f : PacketHw → PacketHw} (h : (f d.pkt).cache = d.pkt.cache) : sameFlows d (setPkt d f) :=
  ⟨h, rfl, rfl, rfl⟩

/-! ### Access to the endpoints (R253, R255) -/

theorem storeAt_epCtl (d : Dev) (m : Master) (value : Word) : ∃ w, storeAt d m ASH_EP_CTL.ofs value = wr d ASH_EP_CTL w
    ∧ getBits w 19 0 = getBits value 19 0 ∧ getBits w 28 28 = getBits (rd d ASH_EP_CTL) 28 28 :=
  ⟨putBits (putBits (rd d ASH_EP_CTL) 30 30 (getBits value 30 30)) 19 0 (getBits value 19 0), rfl,
    by rw [getBits_putBits_same _ _ (by decide) (by decide), Nat.mod_eq_of_lt (getBits_lt value 19 0)],
    by rw [getBits_putBits_other _ _ (.inr (by decide)) (by decide) (by decide), getBits_putBits_other _ _ (.inl (by decide)) (by decide) (by decide)]⟩

/-- An access to an endpoint goes by the block with CLS_EP_CTL's operand stored. -/
theorem epWrite_eq {d : Dev} {m : Master} (value : Word) (h : admits d m ASH_EP_CTL.ofs = true) : ∃ w, epWrite m value d = epWriteGo (wr d ASH_EP_CTL w)
    ∧ getBits w 19 0 = getBits value 19 0 ∧ getBits w 28 28 = getBits (rd d ASH_EP_CTL) 28 28 := by
  obtain ⟨h31, h30⟩ := go_writeGo value
  obtain ⟨w, hw, hi, hb⟩ := storeAt_epCtl d m ((value ||| 0x80000000) &&& 0xBFFFFFFF)
  refine ⟨w, ?_, hi.trans (getBits_writeGo value (by decide) (by decide)), hb⟩
  rw [epWrite, epCtlWrite, guarded_admits _ h, hw]
  simp only [h31, h30, if_true, Bool.false_eq_true, if_false]

theorem epRead_eq {d : Dev} {m : Master} (value : Word) (h : admits d m ASH_EP_CTL.ofs = true) :
    ∃ w, epRead m value d = epReadGo (wr d ASH_EP_CTL w) ∧ getBits w 19 0 = getBits value 19 0 := by
  obtain ⟨h31, h30⟩ := go_readGo value
  obtain ⟨w, hw, hi, _⟩ := storeAt_epCtl d m (value ||| 0xC0000000)
  refine ⟨w, ?_, hi.trans (getBits_readGo value (by decide) (by decide))⟩
  rw [epRead, epCtlWrite, guarded_admits _ h, hw]
  simp only [h31, h30, if_true]

theorem readEpData_wr (d : Dev) (w : Word) : readWords (wr d ASH_EP_CTL w) ASH_EP_DATAj 6 = readWords d ASH_EP_DATAj 6 :=
  readWords_congr fun j _ => rd_wr_other d (r := ASH_EP_CTL) (q := ASH_EP_DATAj j) w (by simp only; omega)

/-- What refuses a write GO: one in progress, or a server port above 63 (R255). -/
def epWriteRefused (d : Dev) : Prop :=
  flag d ASH_EP_CTL_BUSY = true ∨ epDest (readWords d ASH_EP_DATAj 6) = 0 ∧ 63 < epPort (readWords d ASH_EP_DATAj 6)

theorem epWriteRefused_wr {d : Dev} {w : Word} (h : getBits w 28 28 = getBits (rd d ASH_EP_CTL) 28 28) :
    epWriteRefused (wr d ASH_EP_CTL w) ↔ epWriteRefused d := by
  have hbusy : flag (wr d ASH_EP_CTL w) ASH_EP_CTL_BUSY = flag d ASH_EP_CTL_BUSY := by rw [flag, fld, rd_wr_same, h, flag, fld]
  rw [epWriteRefused, epWriteRefused, hbusy, readEpData_wr]

/-- The block with the staged entry stored. -/
def epStored (d : Dev) : Dev :=
  setPkt (setFlag (setFlag { d with endpoints := sput 0 d.endpoints (fld d ASH_EP_CTL_INDEX) (readWords d ASH_EP_DATAj 6) } ASH_EP_CTL_REFUSED false)
    ASH_EP_CTL_BUSY true) (fun p => { p with epBad := delNat (fld d ASH_EP_CTL_INDEX) p.epBad })

theorem epWriteGo_stores {d : Dev} (h : ¬ epWriteRefused d) : epWriteGo d = epStored d := if_neg h

theorem epWriteGo_refuses {d : Dev} (h : epWriteRefused d) : epWriteGo d = count (setFlag d ASH_EP_CTL_REFUSED true) ASH_CMD_REFUSED := if_pos h

/-- A write GO that is not refused stores the staged entry and no other (R255). -/
theorem epWrite_stores {d : Dev} {m : Master} (value : Word) (h : admits d m ASH_EP_CTL.ofs = true) (hr : ¬ epWriteRefused d) :
    (epWrite m value d).endpoints = sput 0 d.endpoints (getBits value 19 0) (readWords d ASH_EP_DATAj 6)
      ∧ flag (epWrite m value d) ASH_EP_CTL_BUSY = true ∧ flag (epWrite m value d) ASH_EP_CTL_REFUSED = false := by
  obtain ⟨w, heq, hi, hb⟩ := epWrite_eq value h
  have hindex : fld (wr d ASH_EP_CTL w) ASH_EP_CTL_INDEX = getBits value 19 0 := by rw [fld, rd_wr_same, hi]
  rw [heq, epWriteGo_stores ((epWriteRefused_wr hb).not.mpr hr), ← hindex, ← readEpData_wr d w]
  refine ⟨rfl, flag_setFlag_same _ _ (by decide) (by decide), ?_⟩
  exact (flag_setFlag_apart _ _ (by simp [apart])).trans (flag_setFlag_same _ _ (by decide) (by decide))

theorem epWrite_refuses {d : Dev} {m : Master} (value : Word) (h : admits d m ASH_EP_CTL.ofs = true) (hr : epWriteRefused d) :
    (epWrite m value d).endpoints = d.endpoints ∧ flag (epWrite m value d) ASH_EP_CTL_REFUSED = true
      ∧ rdn (epWrite m value d) ASH_CMD_REFUSED = min (rdn d ASH_CMD_REFUSED + 1) 0xFFFFFFFF := by
  obtain ⟨w, heq, hi, hb⟩ := epWrite_eq value h
  rw [heq, epWriteGo_refuses ((epWriteRefused_wr hb).mpr hr)]
  refine ⟨rfl, ?_, ?_⟩
  · rw [flag_congr ASH_EP_CTL_REFUSED (rd_count_other _ (by decide)), flag_setFlag_same _ _ (by decide) (by decide)]
  · rw [rdn_count_same, rdn, rd_setFlag_other _ _ (by decide), rd_wr_other _ _ (by decide), rdn]

theorem epRead_reads {d : Dev} {m : Master} (value : Word) (h : admits d m ASH_EP_CTL.ofs = true) : (epRead m value d).endpoints = d.endpoints
    ∧ ∀ j : Nat, j < 6 → rdn (epRead m value d) (ASH_EP_DATAj j) = epEntry d (getBits value 19 0) / 2 ^ (32 * j) % 0x100000000 := by
  obtain ⟨w, heq, hi⟩ := epRead_eq value h
  have hindex : fld (wr d ASH_EP_CTL w) ASH_EP_CTL_INDEX = getBits value 19 0 := by rw [fld, rd_wr_same, hi]
  rw [heq, epReadGo, hindex]
  exact ⟨(keepsState_writeWords (keepsState.refl _) _ _ _).endpoints, fun j hj => rdn_writeWords _ _ hj (fun a b _ => by simp only; omega)⟩

/-! ### The order of R256 -/

theorem resolve_bad {d : Dev} {f : AshFrame} (fe : Ecc) (h : d.pkt.epBad.contains f.endpoint = true) : resolve .clean fe d f = epEccFound d f.endpoint :=
  if_pos h

theorem resolve_uncorrectable (fe : Ecc) (d : Dev) (f : AshFrame) : resolve .uncorrectable fe d f
    = epEccFound (setPkt d (fun p => { p with epBad := insSorted f.endpoint p.epBad })) f.endpoint :=
  if_pos (contains_insSorted f.endpoint d.pkt.epBad)

theorem resolve_invalid {d : Dev} {f : AshFrame} (fe : Ecc) (h : d.pkt.epBad.contains f.endpoint = false) (hv : epValid (epEntry d f.endpoint) = false) :
    resolve .clean fe d f = count d ASH_EP_INVALID := by
  unfold resolve epRead1
  simp only [h, hv, Bool.false_eq_true, if_false, Bool.not_false, if_true]

/-- With a sound and valid entry the frame goes by the endpoint or to the flow table (R256). -/
theorem resolve_valid {d : Dev} {f : AshFrame} (fe : Ecc) (h : d.pkt.epBad.contains f.endpoint = false) (hv : epValid (epEntry d f.endpoint) = true) :
    resolve .clean fe d f = if !epFt (epEntry d f.endpoint) || !flag d ASH_CFG_FLOW_EN || !flowPowered d
      then byEndpoint d { f with entry := epEntry d f.endpoint } else flowLookup fe d { f with entry := epEntry d f.endpoint } := by
  unfold resolve epRead1
  simp only [h, hv, Bool.false_eq_true, if_false, Bool.not_true]

/-- The first lookup of a µs is admitted (R262). -/
def lookupAdmitted (d : Dev) : Dev := setPkt d (fun p => { p with lookups := (d.elapsed / 25, 1) })

theorem admitLookup_first {d : Dev} (h : d.pkt.lookups.1 ≠ d.elapsed / 25) : admitLookup d = (lookupAdmitted d, true) := by
  unfold admitLookup ticksPerUs
  simp [h, lookupAdmitted]

/-- A cached line that a frame is resolved by counts it and comes first in its set (R259, R261). -/
def lineUsed (d : Dev) (f : AshFrame) (l : CacheLine) : Dev :=
  setLines d (cacheSet d (frameKey f)) ({ l with bytes := feTouch d l.bytes f.frame.bytes.length, dirty := true }
    :: (sget [] d.pkt.cache (cacheSet d (frameKey f))).erase l)

/-- A key that is cached is found at once, where the rate has room (R261, R262). -/
theorem flowLookup_cached {d : Dev} {f : AshFrame} {l : CacheLine} (hb : flowCacheBroken d = false) (hn : d.pkt.lookups.1 ≠ d.elapsed / 25)
    (hl : cachedKey d (frameKey f) = some l) : flowLookup .clean d f = byFlow (lineUsed (lookupAdmitted d) f l) f l.bytes := by
  have hkey : cachedKey (lookupAdmitted d) (frameKey f) = some l := ((sameFlows_setPkt d rfl).cachedKey _).trans hl
  have hbroken : flowCacheBroken (lookupAdmitted d) = false := hb
  have hclean : cacheEcc (lookupAdmitted d) (frameKey f) .clean = lookupAdmitted d := by
    unfold cacheEcc
    simp only [hkey]
  unfold flowLookup
  simp only [admitLookup_first hn, hbroken, hclean, hkey, Bool.not_true, Bool.or_self, Bool.false_eq_true, if_false]
  rfl

theorem lineUsed_regs (d : Dev) (f : AshFrame) (l : CacheLine) : (lineUsed (lookupAdmitted d) f l).regs = d.regs := rfl

/-- A frame whose key is cached goes by the flow entry (R256). -/
theorem resolve_cached {d : Dev} {f : AshFrame} {l : CacheLine} (hbad : d.pkt.epBad.contains f.endpoint = false)
    (hv : epValid (epEntry d f.endpoint) = true) (hft : epFt (epEntry d f.endpoint) = true) (hen : flag d ASH_CFG_FLOW_EN = true)
    (hp : flowPowered d = true) (hb : flowCacheBroken d = false) (hn : d.pkt.lookups.1 ≠ d.elapsed / 25) (hl : cachedKey d (frameKey f) = some l) :
    resolve .clean .clean d f = byFlow (lineUsed (lookupAdmitted d) { f with entry := epEntry d f.endpoint } l)
      { f with entry := epEntry d f.endpoint } l.bytes := by
  have hgo : (!epFt (epEntry d f.endpoint) || !flag d ASH_CFG_FLOW_EN || !flowPowered d) = false := by simp [hft, hen, hp]
  rw [resolve_valid .clean hbad hv, hgo]
  exact flowLookup_cached (f := { f with entry := epEntry d f.endpoint }) hb hn hl

/-! ### Misses (R262, R263, R269) -/

/-- The block as the oldest miss leaves its queue. -/
def missTaken (d : Dev) (rest : List FlowMiss) : Dev := setPkt d (fun p => { p with misses := rest })

theorem missTimeout_cons {d : Dev} {k : FlowMiss} {rest : List FlowMiss} (h : d.pkt.misses = k :: rest) : missTimeout d
    = if k.since + fld d ASH_CFG_MISS_TO * 25 ≤ d.elapsed then forEach k.frames byBypass (missTaken d rest) else d := by
  unfold missTimeout
  simp only [h]
  rfl

theorem missTimeout_nil {d : Dev} (h : d.pkt.misses = []) : missTimeout d = d := by
  unfold missTimeout
  simp only [h]

theorem flowMissResolve_nil {d : Dev} (ecc : Ecc) (slot : Fin 8) (m : Mem) (h : d.pkt.misses = []) : flowMissResolve ecc slot d m = (d, m) := by
  unfold flowMissResolve
  simp only [h]

/-- The block after the reads of a miss's buckets (R269). -/
def missRead (d : Dev) (m : Mem) (k : FlowMiss) (rest : List FlowMiss) (ecc : Ecc) (slot : Fin 8) : Dev × Mem :=
  flowEcc (missTaken d rest) m ecc
    (4 * (if slot.val < 4 then flowHash1 (missTaken d rest) k.key else flowHash2 (missTaken d rest) k.key) + slot % 4)

theorem flowMissResolve_uncorrectable {d : Dev} {k : FlowMiss} {rest : List FlowMiss} (slot : Fin 8) (m : Mem) (h : d.pkt.misses = k :: rest) :
    (flowMissResolve .uncorrectable slot d m).1 = forEach k.frames byBypass (missRead d m k rest .uncorrectable slot).1 := by
  unfold flowMissResolve
  simp only [h]
  rfl

theorem flowMissResolve_none {d : Dev} {k : FlowMiss} {rest : List FlowMiss} {ecc : Ecc} {slot : Fin 8} {m : Mem} (h : d.pkt.misses = k :: rest)
    (he : ecc ≠ .uncorrectable) {e : Dev} (hr : missRead d m k rest ecc slot = (e, m)) (hf : findFlow e m k.key = none) :
    flowMissResolve ecc slot d m = (forEach k.frames byMiss e, m) := by
  simp only [missRead, missTaken] at hr
  unfold flowMissResolve
  simp only [h, hr, if_neg he, hf]

theorem flowMissResolve_some {d : Dev} {k : FlowMiss} {rest : List FlowMiss} {ecc : Ecc} {slot : Fin 8} {m : Mem} (h : d.pkt.misses = k :: rest)
    (he : ecc ≠ .uncorrectable) {e : Dev} (hr : missRead d m k rest ecc slot = (e, m)) {i : Nat} (hf : findFlow e m k.key = some i) :
    ∃ d', (flowMissResolve ecc slot d m).1 = forEach k.frames (fun d f => byFlow d f (flowEntry e m i)) d' := by
  simp only [missRead, missTaken] at hr
  unfold flowMissResolve
  simp only [h, hr, if_neg he, hf]
  exact ⟨_, rfl⟩

/-- Reads that need no deletion leave the flow table as it is (R269). -/
theorem missRead_sound (d : Dev) (m : Mem) (k : FlowMiss) (rest : List FlowMiss) (slot : Fin 8) :
    missRead d m k rest .clean slot = (missTaken d rest, m) ∧ missRead d m k rest .corrected slot = (count (missTaken d rest) ASH_FLOW_ECC_CORR, m) :=
  ⟨rfl, rfl⟩

theorem sameFlows_missTaken (d : Dev) (rest : List FlowMiss) : sameFlows d (missTaken d rest) := sameFlows_setPkt d rfl

theorem sameFlows_corrected (d : Dev) : sameFlows d (count d ASH_FLOW_ECC_CORR) := sameFlows_count d (by decide) (by decide)

/-- A miss whose reads need no deletion is resolved by what the table holds (R262, R263). -/
theorem missRead_sameFlows (d : Dev) (m : Mem) (k : FlowMiss) (rest : List FlowMiss) {ecc : Ecc} (slot : Fin 8)
    (he : ecc ≠ .uncorrectable) : ∃ e, missRead d m k rest ecc slot = (e, m) ∧ sameFlows (missTaken d rest) e := by
  obtain ⟨hclean, hcorr⟩ := missRead_sound d m k rest slot
  cases ecc with
  | clean => exact ⟨_, hclean, sameFlows.refl _⟩
  | corrected => exact ⟨_, hcorr, sameFlows_corrected _⟩
  | uncorrectable => exact absurd rfl he

theorem flowMissResolve_found {d : Dev} {k : FlowMiss} {rest : List FlowMiss} {ecc : Ecc} (slot : Fin 8) {m : Mem} (h : d.pkt.misses = k :: rest)
    (he : ecc ≠ .uncorrectable) {i : Nat} (hf : findFlow (missTaken d rest) m k.key = some i) :
    ∃ d', (flowMissResolve ecc slot d m).1 = forEach k.frames (fun e f => byFlow e f (flowEntry d m i)) d' := by
  obtain ⟨e, hread, hsame⟩ := missRead_sameFlows d m k rest slot he
  have hentry : flowEntry e m i = flowEntry d m i := ((sameFlows_missTaken d rest).trans hsame).flowEntry m i
  obtain ⟨d', hd⟩ := flowMissResolve_some h he hread ((hsame.findFlow m k.key).trans hf)
  exact ⟨d', hentry ▸ hd⟩

/-! ### The scrubber (R269) -/

/-- What the scrubber's read of a word of a powered table does. -/
def epScrubbed (e : Nat) (d : Dev) : Ecc → Dev
  | .clean => d
  | .corrected => count d ASH_EP_ECC_CORR
  | .uncorrectable => epEccFound (setPkt d (fun p => { p with epBad := insSorted e p.epBad })) e

theorem epScrub_on {d : Dev} {e : Fin 1048576} {ecc : Ecc} (h : domainOn d 32 = true) : epScrub e ecc d = epScrubbed e d ecc := by
  unfold epScrub
  rw [h]
  cases ecc <;> rfl

theorem epScrub_off {d : Dev} {e : Fin 1048576} {ecc : Ecc} (h : domainOn d 32 = false) : epScrub e ecc d = d := by
  unfold epScrub
  rw [h]
  rfl

/-- Settles O50, by the equations of the endpoint accesses, of resolve along the order of R256, and of the oldest miss. -/
theorem endpointsResolve : Obligations.EndpointsResolve := by
  unfold Obligations.EndpointsResolve
  refine ⟨?access, ?order, ?noMiss, ?miss, ?scrub⟩
  case access =>
    rintro m value s h w rfl
    refine ⟨fun hb hp => ⟨_, exec_epWrite m value s, ?_⟩, fun hr => ⟨_, exec_epWrite m value s, epWrite_refuses value h hr⟩,
      _, exec_epRead m value s, epRead_reads value h⟩
    obtain ⟨hstore, hbusy, href⟩ := epWrite_stores value h (fun hr => by
      rcases hr with hr | ⟨h0, h63⟩
      · rw [hb] at hr
        exact Bool.false_ne_true hr
      · exact hp.elim (fun hne => hne h0) (fun hle => Nat.not_lt.mpr hle h63))
    refine ⟨?_, fun e he => ?_, hbusy, href⟩
    · rw [hstore, sget_sput_same]
    · rw [hstore, sget_sput_other _ _ _ _ he]
  case order =>
    rintro d f g fe rfl
    refine ⟨resolve_bad fe, resolve_uncorrectable fe d f, rfl, resolve_invalid fe, fun hbad hv hor => ?_, fun l hbad hv hft hen hp hb hn hl => ?_⟩
    · rw [resolve_valid fe hbad hv, if_pos]
      rcases hor with h | h | h <;> simp [h]
    · exact ⟨_, resolve_cached hbad hv hft hen hp hb hn hl, lineUsed_regs _ _ _⟩
  case noMiss =>
    intro s slot ecc h
    rw [exec_missTimeout, missTimeout_nil h, exec_flowMissResolve, flowMissResolve_nil ecc slot s.mem h]
    exact ⟨rfl, rfl⟩
  case miss =>
    rintro s k rest slot h d rfl
    obtain ⟨hclean, hcorr⟩ := missRead_sound s.dev s.mem k rest slot
    refine ⟨fun hle => ?_, fun hlt => ?_, ⟨_, _, exec_flowMissResolve _ slot s, flowMissResolve_uncorrectable slot s.mem h⟩, fun hf => ⟨?_, ?_⟩,
      fun i hf ecc he => ?_⟩
    · rw [exec_missTimeout, missTimeout_cons h, if_pos hle, missTaken]
    · rw [exec_missTimeout, missTimeout_cons h, if_neg (Nat.not_le.mpr hlt), withDev_self]
    · rw [exec_flowMissResolve, flowMissResolve_none h (by decide) hclean hf, missTaken]
      rfl
    · rw [exec_flowMissResolve, flowMissResolve_none h (by decide) hcorr (((sameFlows_corrected _).findFlow _ _).trans hf), missTaken]
      rfl
    · obtain ⟨d', hd⟩ := flowMissResolve_found slot h he hf
      exact ⟨_, d', exec_flowMissResolve ecc slot s, hd⟩
  case scrub =>
    intro e ecc s
    refine ⟨fun h => ?_, fun h => ⟨?_, ?_, ?_⟩⟩
    · rw [exec_epScrub, epScrub_off h, withDev_self]
    · rw [exec_epScrub, epScrub_on h, epScrubbed, withDev_self]
    · rw [exec_epScrub, epScrub_on h, epScrubbed]
    · refine ⟨setPkt s.dev (fun p => { p with epBad := insSorted e p.epBad }), ?_, List.contains_iff_mem.mp (contains_insSorted e.val s.dev.pkt.epBad)⟩
      rw [exec_epScrub, epScrub_on h, epScrubbed]

end Sys2Proof.Machine
end

section
/-!
PROOFS. What the reads of DRAM return after a write, and what the completions of a ring leave alone.
-/

namespace Sys2Proof.Machine

/-! ### Reads after a write (R339) -/

section Reads

variable {fill : Byte} {m : List Host.Cell} {a b n : Nat} {bs : List Byte}

theorem length_readMem (fill : Byte) (m : List Host.Cell) (a n : Nat) : (readMem fill m a n).length = n := by
  rw [readMem, List.length_map, List.length_range]

/-- A range reads as it was written. -/
theorem readMem_writeMem_same (h : bs.length = n) : readMem fill (writeMem fill m a bs) a n = bs := by
  refine List.ext_getElem (by rw [length_readMem, h]) fun i h1 h2 => ?_
  simp only [readMem, List.getElem_map, List.getElem_range]
  rw [sget_writeMem_at h2, List.getD_eq_getElem _ _ h2]

/-- A range that shares no byte with a write reads as before. -/
theorem readMem_writeMem_apart (h : a + n ≤ b ∨ b + bs.length ≤ a) : readMem fill (writeMem fill m b bs) a n = readMem fill m a n := by
  refine List.map_congr_left fun i hi => sget_writeMem_other ?_
  have := List.mem_range.mp hi
  omega

end Reads

theorem readDram_writeDram_same (s : Mem) (a : Nat) {bs : List Byte} {n : Nat} (h : bs.length = n) : readDram (writeDram s a bs) a n = bs :=
  readMem_writeMem_same h

theorem readDram_writeDram_apart (s : Mem) {a b n : Nat} {bs : List Byte} (h : a + n ≤ b ∨ b + bs.length ≤ a) :
    readDram (writeDram s b bs) a n = readDram s a n :=
  readMem_writeMem_apart h

/-! ### Completions touch the host's side only (R331, R332) -/

/-- Nothing differs but the words of the host interface, messages and the rings. -/
def keepsDevice (d e : Dev) : Prop :=
  (∃ r p o h, e = { d with regs := r, msixPending := p, out := o, host := h }) ∧ keepsWords (· < 0xf00000) d e

section Device

variable {d e g : Dev}

theorem keepsDevice.refl (d : Dev) : keepsDevice d d := ⟨⟨d.regs, d.msixPending, d.out, d.host, rfl⟩, keepsWords.refl _ d⟩

theorem keepsDevice.trans (h : keepsDevice d e) (h' : keepsDevice e g) : keepsDevice d g := by
  obtain ⟨⟨r, p, o, t, rfl⟩, hw⟩ := h
  obtain ⟨⟨r', p', o', t', rfl⟩, hw'⟩ := h'
  exact ⟨⟨r', p', o', t', rfl⟩, hw.trans hw'⟩

theorem keepsDevice.pkt (h : keepsDevice d e) : e.pkt = d.pkt := by
  obtain ⟨⟨r, p, o, t, rfl⟩, _⟩ := h
  rfl

theorem keepsDevice.setHost (h : keepsDevice d e) (f : HostHw → HostHw) : keepsDevice d (setHost e f) :=
  h.trans ⟨⟨e.regs, e.msixPending, e.out, f e.host, rfl⟩, (keepsWords.refl _ e).of_regs rfl⟩

theorem keepsDevice.setRing (h : keepsDevice d e) (r : Nat) (f : RingHw → RingHw) : keepsDevice d (setRing e r f) := h.setHost _

theorem keepsDevice.emit (h : keepsDevice d e) (o : Out) : keepsDevice d (emit e o) :=
  h.trans ⟨⟨e.regs, e.msixPending, e.out ++ [o], e.host, rfl⟩, (keepsWords.refl _ e).of_regs rfl⟩

theorem keepsDevice.wr (h : keepsDevice d e) {r : Reg} (hr : 0xf00000 ≤ r.ofs) (w : Word) : keepsDevice d (wr e r w) :=
  h.trans ⟨⟨_, e.msixPending, e.out, e.host, rfl⟩, (keepsWords.refl (· < 0xf00000) e).wr (Nat.not_lt.mpr hr) w⟩

theorem keepsDevice.setFld (h : keepsDevice d e) {f : Fld} (hf : 0xf00000 ≤ f.reg.ofs) (v : Nat) : keepsDevice d (setFld e f v) := h.wr hf _

theorem keepsDevice.setFlag (h : keepsDevice d e) {f : Fld} (hf : 0xf00000 ≤ f.reg.ofs) (b : Bool) : keepsDevice d (setFlag e f b) := h.wr hf _

theorem keepsDevice.signalVector (h : keepsDevice d e) (f v : Nat) : keepsDevice d (signalVector e f v) := by
  obtain ⟨p, o, heq⟩ := signalVector_spec e f v
  exact h.trans ⟨⟨e.regs, p, o, e.host, heq⟩, (keepsWords.refl _ e).of_regs (by rw [heq])⟩

theorem keepsDevice.signalCq (h : keepsDevice d e) (c : Nat) : keepsDevice d (signalCq e c) := (h.setRing c _).signalVector _ _

theorem keepsDevice.syncFull (h : keepsDevice d e) (c : Nat) : keepsDevice d (syncFull e c) := by
  unfold Machine.syncFull
  exact (h.setFlag (f := HIF_Rr_STATUS_CQ_FULL c) (by simp only; omega) (cqFull e c)).setRing c _

theorem keepsDevice.showIndex (h : keepsDevice d e) (c : Nat) : keepsDevice d (showIndex e c) :=
  h.setFld (f := HIF_Rr_STATUS_INDEX c) (by simp only; omega) _

theorem keepsDevice.postCq (h : keepsDevice d e) (c : Nat) (bs : List Byte) : keepsDevice d (postCq e c bs) := by
  obtain ⟨g, hg, heq⟩ := postCq_cases e c bs
  have hwritten : keepsDevice d (completionWritten e c bs) := by
    unfold completionWritten
    exact (h.emit _).setRing c _
  have hkeep : keepsDevice d g := hg ▸ (hwritten.showIndex c).syncFull c
  rcases heq with heq | heq
  · exact heq ▸ hkeep.signalCq c
  · exact heq ▸ hkeep

theorem keepsDevice.settleFrom (n : Nat) (h : keepsDevice d e) (r : Nat) : keepsDevice d (settleFrom n e r) := by
  induction n generalizing e with
  | zero => exact h
  | succ n ih =>
    unfold Machine.settleFrom
    split
    · split
      · split
        · exact ih ((h.setRing r _).postCq _ _)
        · exact h
      · exact h
    · exact h

theorem keepsDevice.settle (h : keepsDevice d e) (r : Nat) : keepsDevice d (settle e r) := by
  unfold Machine.settle
  split
  · exact h.settleFrom _ r
  · exact h

theorem keepsDevice.closeEntry (h : keepsDevice d e) (r index : Nat) (bs : List Byte) : keepsDevice d (closeEntry e r index bs) :=
  (h.setRing r _).settle r

theorem keepsDevice.openEntry (h : keepsDevice d e) (r index tag : Nat) (stamp : Bool) : keepsDevice d (openEntry e r index tag stamp) :=
  h.setRing r _

theorem keepsDevice.consume (h : keepsDevice d e) (r n : Nat) : keepsDevice d (consume e r n) := (h.setRing r _).showIndex r

end Device

end Sys2Proof.Machine
end

section
/-!
PROOFS. The flow table: what its operations store and what they leave alone (R259 to R261).
-/

namespace Sys2Proof.Machine

/-! ### Words that the flow table is not read by -/

section Same

variable {d e : Dev}

theorem sameFlows.wr (h : sameFlows d e) {r : Reg} (hr : r.ofs < 0xd00044 ∨ 0xd0004c < r.ofs) (w : Word) : sameFlows d (wr e r w) := by
  have hne (o : Nat) (ho : 0xd00044 ≤ o ∧ o ≤ 0xd0004c) : o ≠ r.ofs := by omega
  exact h.trans ⟨rfl, rd_wr_other e w (hne _ (by decide)), rd_wr_other e w (hne _ (by decide)), rd_wr_other e w (hne _ (by decide))⟩

theorem sameFlows.setFld (h : sameFlows d e) {f : Fld} (hr : f.reg.ofs < 0xd00044 ∨ 0xd0004c < f.reg.ofs) (v : Nat) : sameFlows d (setFld e f v) :=
  h.wr hr _

theorem sameFlows.setFlag (h : sameFlows d e) {f : Fld} (hr : f.reg.ofs < 0xd00044 ∨ 0xd0004c < f.reg.ofs) (b : Bool) : sameFlows d (setFlag e f b) :=
  h.wr hr _

theorem sameFlows.wrn (h : sameFlows d e) {r : Reg} (hr : r.ofs < 0xd00044 ∨ 0xd0004c < r.ofs) (n : Nat) : sameFlows d (wrn e r n) := h.wr hr _

theorem sameFlows.count (h : sameFlows d e) {r : Reg} (hr : r.ofs < 0xd00044 ∨ 0xd0004c < r.ofs) : sameFlows d (count e r) := h.wr hr _

theorem sameFlows.setPkt (h : sameFlows d e) {f : PacketHw → PacketHw} (hf : (f e.pkt).cache = e.pkt.cache) : sameFlows d (setPkt e f) :=
  h.trans (sameFlows_setPkt e hf)

theorem sameFlows.raiseAsh (h : sameFlows d e) (b : Nat) : sameFlows d (raiseAsh e b) := by
  refine h.trans ⟨congrArg PacketHw.cache ((keepsState.refl e).raiseEvt evASH b).pkt, ?_, ?_, ?_⟩
  all_goals exact rd_raiseEvt_other e evASH b (by decide) (by decide) (by decide)

theorem keepsDevice.sameFlows (h : keepsDevice d e) : sameFlows d e :=
  ⟨congrArg PacketHw.cache h.pkt, h.2 ASH_HASH_SEED1 (by decide), h.2 ASH_HASH_SEED2 (by decide), h.2 ASH_FLOW_BASE (by decide)⟩

/-- The first word of a command's log entry (R264). -/
def cmdWord (c : AshCmd) (outcome moves : Nat) : Nat := c.tag % 65536 * 65536 + c.opcode % 16 * 4096 + outcome * 256 + moves * 16

/-- The log entry of a command (R264). -/
def cmdEntry (d : Dev) (c : AshCmd) (outcome moves i : Nat) : Dev :=
  wrn (setPkt d (fun p => { p with cmdLog := sput (0, 0) p.cmdLog (rdn d ASH_CMD_SEQ % 64) (cmdWord c outcome moves, min i 0xFFFFFF) }))
    ASH_CMD_SEQ (rdn d ASH_CMD_SEQ + 1)

/-- The log entry and the failure count of a command (R264). -/
def cmdLogged (d : Dev) (c : AshCmd) (outcome moves i : Nat) : Dev :=
  raiseAsh (if outcome = aoOk then cmdEntry d c outcome moves i else count (cmdEntry d c outcome moves i) ASH_CMD_FAIL) ahCmdDone

theorem logCmd_cases (d : Dev) (c : AshCmd) (o n i : Nat) : logCmd d c o n i = cmdLogged d c o n i
    ∨ ∃ r j bs, logCmd d c o n i = closeEntry (cmdLogged d c o n i) r j bs := by
  unfold logCmd
  dsimp only
  split
  · split
    · exact .inr ⟨_, _, _, rfl⟩
    · exact .inl rfl
  · exact .inl rfl

theorem cmdLogged_spec (d : Dev) (c : AshCmd) (o n i : Nat) :
    sameFlows d (cmdLogged d c o n i) ∧ ∃ l, (cmdLogged d c o n i).pkt = { d.pkt with cmdLog := l } := by
  have he : sameFlows d (cmdEntry d c o n i) := by
    unfold cmdEntry
    exact ((sameFlows.refl d).setPkt rfl).wrn (by decide) _
  unfold cmdLogged
  split
  · exact ⟨he.raiseAsh _, _, ((keepsState.refl (cmdEntry d c o n i)).raiseEvt _ _).pkt⟩
  · exact ⟨(he.count (by decide)).raiseAsh _, _, (((keepsState.refl (cmdEntry d c o n i)).count _).raiseEvt _ _).pkt⟩

/-- A command that is logged leaves the flow table and the packet hardware but the log alone (R264). -/
theorem logCmd_spec (d : Dev) (c : AshCmd) (o n i : Nat) :
    sameFlows d (logCmd d c o n i) ∧ ∃ l, (logCmd d c o n i).pkt = { d.pkt with cmdLog := l } := by
  obtain ⟨hsame, l, hpkt⟩ := cmdLogged_spec d c o n i
  rcases logCmd_cases d c o n i with heq | ⟨r, j, bs, heq⟩
  · exact heq ▸ ⟨hsame, l, hpkt⟩
  · have hclose := (keepsDevice.refl (cmdLogged d c o n i)).closeEntry r j bs
    exact heq ▸ ⟨hsame.trans hclose.sameFlows, l, hclose.pkt.trans hpkt⟩

theorem popCmd_spec (d : Dev) (c : AshCmd) : sameFlows d (popCmd d c) ∧ (popCmd d c).pkt = { d.pkt with cmds := d.pkt.cmds.erase c }
    ∧ (popCmd d c).clock = d.clock ∧ (popCmd d c).elapsed = d.elapsed :=
  ⟨((sameFlows.refl d).setPkt rfl).setFld (by decide) _, rfl, rfl, rfl⟩

end Same

/-! ### Entries written (R260, R261) -/

/-- A cached line after entry i was written. -/
def lineWritten (i : Nat) (e : List Byte) (l : CacheLine) : CacheLine := if l.index = i then { l with bytes := e, dirty := false } else l

/-- The cache after entry i was written. -/
def cacheWritten (i : Nat) (e : List Byte) (c : Sparse (List CacheLine)) : Sparse (List CacheLine) :=
  if feValid e then c.map (fun x => (x.1, x.2.map (lineWritten i e)))
  else (c.map (fun x => (x.1, x.2.filter (fun l => l.index != i)))).filter (fun x => !x.2.isEmpty)

theorem putFlow_eq (d : Dev) (m : Mem) (i : Nat) (e : List Byte) :
    putFlow d m i e = (setPkt d (fun p => { p with cache := cacheWritten i e p.cache }), writeDram m (flowAddr d i) e) := by
  unfold putFlow cacheWritten
  cases hv : feValid e with
  | true => rfl
  | false => rfl

theorem flowAddr_congr {d e : Dev} (h : rd e ASH_FLOW_BASE = rd d ASH_FLOW_BASE) (j : Nat) : flowAddr e j = flowAddr d j := by
  rw [flowAddr, flowAddr, fld_congr ASH_FLOW_BASE_REGION h]

theorem putFlow_flowAddr (d : Dev) (m : Mem) (i : Nat) (e : List Byte) (j : Nat) : flowAddr (putFlow d m i e).1 j = flowAddr d j := by
  rw [putFlow_eq]
  rfl

theorem deleteFlow_eq (d : Dev) (m : Mem) (i : Nat) : deleteFlow d m i
    = (wrn (putFlow d m i (List.replicate 64 0)).1 ASH_FLOWS (rdn (putFlow d m i (List.replicate 64 0)).1 ASH_FLOWS - 1),
      (putFlow d m i (List.replicate 64 0)).2) := rfl

/-- A deletion clears the entry's bytes in DRAM and touches no other entry. -/
theorem deleteFlow_spec (d : Dev) (m : Mem) (i : Nat) : (∃ c, (deleteFlow d m i).1.pkt = { d.pkt with cache := c })
    ∧ (∀ j, flowAddr (deleteFlow d m i).1 j = flowAddr d j) ∧ (deleteFlow d m i).2 = writeDram m (flowAddr d i) (List.replicate 64 0)
    ∧ ∀ q : Reg, q.ofs ≠ ASH_FLOWS.ofs → rd (deleteFlow d m i).1 q = rd d q := by
  rw [deleteFlow_eq, putFlow_eq]
  refine ⟨⟨_, rfl⟩, fun j => flowAddr_congr ?_ j, rfl, fun q hq => rd_wrn_other _ _ hq⟩
  rw [rd_wrn_other _ _ (by decide)]
  rfl

theorem readDram_deleteFlow (d : Dev) (m : Mem) (i : Nat) : readDram (deleteFlow d m i).2 (flowAddr d i) 64 = List.replicate 64 0 := by
  rw [(deleteFlow_spec d m i).2.2.1]
  exact readDram_writeDram_same _ _ List.length_replicate

/-- Entries lie apart from each other. -/
theorem flowAddr_apart (d : Dev) {i j n : Nat} (h : i ≠ j) (hn : n = 64) : flowAddr d i + 64 ≤ flowAddr d j ∨ flowAddr d j + n ≤ flowAddr d i := by
  unfold flowAddr
  omega

/-- Entries deleted one after the other. -/
def deleteFlows : List Nat → Dev → Mem → Dev × Mem
  | [], d, m => (d, m)
  | i :: t, d, m => deleteFlows t (deleteFlow d m i).1 (deleteFlow d m i).2

theorem foldl_deleteFlow (is : List Nat) (d : Dev) (m : Mem) : is.foldl (fun (d, s) i => deleteFlow d s i) (d, m) = deleteFlows is d m := by
  induction is generalizing d m with
  | nil => rfl
  | cons a t ih =>
    rw [deleteFlows, ← ih, List.foldl_cons]

/-- Entries deleted one after the other are all cleared. -/
theorem deleteFlows_spec (is : List Nat) (d : Dev) (m : Mem) :
    (∃ c, (deleteFlows is d m).1.pkt = { d.pkt with cache := c })
      ∧ ∀ i, (i ∈ is ∨ readDram m (flowAddr d i) 64 = List.replicate 64 0) →
        readDram (deleteFlows is d m).2 (flowAddr d i) 64 = List.replicate 64 0 := by
  induction is generalizing d m with
  | nil => exact ⟨⟨d.pkt.cache, rfl⟩, fun i h => h.resolve_left (List.not_mem_nil)⟩
  | cons a t ih =>
    obtain ⟨⟨c, hpkt⟩, haddr, hmem, _⟩ := deleteFlow_spec d m a
    obtain ⟨⟨c', hpkt'⟩, hzero⟩ := ih (deleteFlow d m a).1 (deleteFlow d m a).2
    rw [deleteFlows]
    refine ⟨⟨c', hpkt'.trans ?_⟩, fun i h => ?_⟩
    · rw [hpkt]
    · rw [← haddr i]
      refine hzero i ?_
      rw [haddr i]
      by_cases hi : i = a
      · rw [hi]
        exact .inr (readDram_deleteFlow d m a)
      · refine h.imp (fun hm => (List.mem_cons.mp hm).resolve_left hi) fun hz => ?_
        rw [hmem, readDram_writeDram_apart _ (flowAddr_apart d hi List.length_replicate), hz]

/-! ### The entry that an insert places (R260, R265) -/

theorem sget_map_snd {α : Type} (m : Sparse (List α)) (f : List α → List α) (h : f [] = []) (k : Nat) :
    sget [] (m.map (fun x => (x.1, f x.2))) k = f (sget [] m k) := by
  induction m with
  | nil => exact h.symm
  | cons x t ih =>
    obtain ⟨a, v⟩ := x
    simp only [List.map_cons, sget, ih]
    split
    · rfl
    · rfl

theorem find?_lineWritten (i : Nat) (e : List Byte) (ls : List CacheLine) (j : Nat) : (ls.map (lineWritten i e)).find? (fun l => l.index == j)
    = (ls.find? (fun l => l.index == j)).map (lineWritten i e) := by
  have hindex : (fun l : CacheLine => l.index == j) ∘ lineWritten i e = fun l => l.index == j := by
    funext l
    unfold lineWritten
    dsimp only [Function.comp]
    split
    · rfl
    · rfl
  rw [List.find?_map, hindex]

/-- Each entry as the cache and DRAM together hold it after entry i was written with a valid entry: i as written, others as before. -/
theorem flowEntry_putFlow (d : Dev) (m : Mem) (i : Nat) {e : List Byte} (hv : feValid e = true) (hlen : e.length = 64) (j : Nat) :
    flowEntry (putFlow d m i e).1 (putFlow d m i e).2 j = if j = i then e else flowEntry d m j := by
  have hset (k : List Byte) : (sget [] (cacheWritten i e d.pkt.cache) (cacheSet d k)).find? (fun l => l.index == j)
      = ((sget [] d.pkt.cache (cacheSet d k)).find? (fun l => l.index == j)).map (lineWritten i e) := by
    rw [cacheWritten, if_pos hv, sget_map_snd _ _ rfl, find?_lineWritten]
  have hread : readDram (writeDram m (flowAddr d i) e) (flowAddr d j) 64 = if j = i then e else readDram m (flowAddr d j) 64 := by
    split
    · next h => exact h ▸ readDram_writeDram_same _ _ hlen
    · next h => exact readDram_writeDram_apart _ (flowAddr_apart d h hlen)
  have hentry : flowEntry (putFlow d m i e).1 (putFlow d m i e).2 j
      = match (sget [] (cacheWritten i e d.pkt.cache) (cacheSet d (feKey (readDram (writeDram m (flowAddr d i) e) (flowAddr d j) 64)))).find?
          (fun l => l.index == j) with
        | some l => l.bytes
        | none => readDram (writeDram m (flowAddr d i) e) (flowAddr d j) 64 := by
    rw [putFlow_eq]
    rfl
  rw [hentry, hset, hread]
  unfold flowEntry
  by_cases hj : j = i
  · rw [if_pos hj, if_pos hj]
    cases hf : (sget [] d.pkt.cache (cacheSet d (feKey e))).find? (fun l => l.index == j) with
    | none => rfl
    | some l =>
      have hl : l.index = i := by simpa [hj] using List.find?_some hf
      simp [lineWritten, hl]
  · rw [if_neg hj, if_neg hj]
    dsimp only
    cases hf : (sget [] d.pkt.cache (cacheSet d (feKey (readDram m (flowAddr d j) 64)))).find? (fun l => l.index == j) with
    | none => rfl
    | some l =>
      have hl : l.index ≠ i := by
        have hidx : l.index = j := by simpa using List.find?_some hf
        omega
      simp [lineWritten, hl]

/-- The slots of a bucket (R260). -/
def bucketSlots (b : Nat) : List Nat := (List.range 4).map (fun t => 4 * b + t)

theorem findFlow_eq (d : Dev) (m : Mem) (k : List Byte) : findFlow d m k = (bucketSlots (flowHash1 d k) ++ bucketSlots (flowHash2 d k)).find?
    (fun i => feValid (flowEntry d m i) && feKey (flowEntry d m i) == k) := rfl

/-- An entry written into the first free slot of its key's first bucket is found there (R260, R265). -/
theorem findFlow_putFlow {d : Dev} {m : Mem} {i : Nat} {e k : List Byte} (hv : feValid e = true) (hlen : e.length = 64) (hk : feKey e = k)
    (hnone : findFlow d m k = none) (hfree : freeSlot d m (flowHash1 d k) = some i) :
    findFlow (putFlow d m i e).1 (putFlow d m i e).2 k = some i := by
  have hhash : flowHash1 (putFlow d m i e).1 k = flowHash1 d k := by
    rw [putFlow_eq]
    rfl
  rw [findFlow_eq] at hnone
  obtain ⟨hfi, as, bs, hsplit, has⟩ := List.find?_eq_some_iff_append.mp (show (bucketSlots (flowHash1 d k)).find? (fun i => !feValid (flowEntry d m i)) = some i
    from hfree)
  rw [findFlow_eq, hhash, List.find?_append]
  refine Option.or_eq_some_iff.mpr (.inl (List.find?_eq_some_iff_append.mpr ⟨?_, as, bs, hsplit, fun j hj => ?_⟩))
  · rw [flowEntry_putFlow d m i hv hlen, if_pos rfl, hv, hk, beq_self_eq_true, Bool.true_and]
  · have hmem : j ∈ bucketSlots (flowHash1 d k) ++ bucketSlots (flowHash2 d k) := by simp [hsplit, hj]
    have hji : j ≠ i := by
      rintro rfl
      exact absurd hfi (by simpa using has j hj)
    rw [flowEntry_putFlow d m i hv hlen, if_neg hji]
    rw [Bool.eq_false_iff.mpr (List.find?_eq_none.mp hnone j hmem), Bool.not_false]

end Sys2Proof.Machine
end

section
/-!
PROOFS. The command engine of the flow table: the obligation FlowTableCommands (R263 to R267, R269).
-/

namespace Sys2Proof.Machine

/-- The state after an operation on the block and its memories. -/
def State.after (s : State) (r : Dev × Mem) : State := { s with dev := r.1, mem := r.2 }

theorem exec_flowInsert (s : State) : exec .flowInsert s = .next (s.after (flowInsert s.dev s.mem)) := rfl

theorem exec_flowUpdate (s : State) : exec .flowUpdate s = .next (s.after (flowUpdate s.dev s.mem)) := rfl

theorem exec_flowDelete (s : State) : exec .flowDelete s = .next (s.after (flowDelete s.dev s.mem)) := rfl

theorem exec_flowFind (s : State) : exec .flowLookup s = .next (s.after (flowFind s.dev s.mem)) := rfl

theorem exec_flushEp (s : State) : exec .flushEp s = .next (s.withDev (startWalk 5 s.dev)) := rfl

theorem exec_clearAll (s : State) : exec .clearAll s = .next (s.withDev (startWalk 6 s.dev)) := rfl

theorem exec_ashCmdBadOpcode (s : State) : exec .ashCmdBadOpcode s = .next (s.withDev (ashCmdBadOpcode s.dev)) := rfl

theorem exec_walkDone (s : State) : exec .walkDone s = .next (s.after (walkDone s.dev s.mem)) := rfl

theorem exec_learn (s : State) : exec .learn s = .next (s.after (learn s.dev s.mem)) := rfl

theorem exec_ageVisit (s : State) : exec .ageVisit s = .next (s.after (ageVisit s.dev s.mem)) := rfl

theorem exec_flowScrub (b : Fin 4194304) (ecc : Ecc) (slot : Fin 4) (s : State) :
    exec (.flowScrub b ecc slot) s = .next (s.after (flowScrub b ecc slot s.dev s.mem)) := rfl

/-! ### The engine (R264) -/

section Engine

variable {d : Dev} {m : Mem} {c : AshCmd} (hc : nextCmd d = some c)
include hc

theorem serve_unpowered {opcode : Nat} (f : Dev → Mem → AshCmd → Dev × Mem × Nat × Nat × Nat) (ho : c.opcode = opcode) (hp : flowPowered d = false) :
    serve opcode f d m = (logCmd (popCmd d c) c aoUnpowered 0 0, m) := by
  unfold serve
  simp only [hc, ho, hp, ne_eq, not_true_eq_false, if_false, Bool.not_false, if_true]

/-- With power the command is carried out and logged, and what the ageing walk has found is served. -/
theorem serve_powered {opcode : Nat} {f : Dev → Mem → AshCmd → Dev × Mem × Nat × Nat × Nat} (ho : c.opcode = opcode) (hp : flowPowered d = true)
    {d' : Dev} {m' : Mem} {o n i : Nat} (hf : f (popCmd d c) m c = (d', m', o, n, i)) :
    serve opcode f d m = serveAged (logCmd d' c o n i) m' := by
  unfold serve
  simp only [hc, ho, hp, hf, ne_eq, not_true_eq_false, if_false, Bool.not_true, Bool.false_eq_true]

theorem startWalk_unpowered {opcode : Nat} (ho : c.opcode = opcode) (hp : flowPowered d = false) :
    startWalk opcode d = logCmd (popCmd d c) c aoUnpowered 0 0 := by
  unfold startWalk
  simp only [hc, ho, hp, ne_eq, not_true_eq_false, if_false, Bool.not_false, if_true]

theorem startWalk_powered {opcode : Nat} (ho : c.opcode = opcode) (hp : flowPowered d = true) :
    flag (startWalk opcode d) ASH_STATUS_WALK = true ∧ (startWalk opcode d).pkt.walk = some { cmd := c, reached := 0, began := d.elapsed, deleted := 0 } := by
  unfold startWalk
  simp only [hc, ho, hp, ne_eq, not_true_eq_false, if_false, Bool.not_true, Bool.false_eq_true]
  exact ⟨flag_setFlag_same _ _ (by decide) (by decide), rfl⟩

theorem ashCmdBadOpcode_unlisted (ho : c.opcode = 0 ∨ 6 < c.opcode) :
    ashCmdBadOpcode d = logCmd (popCmd d c) c (if flowPowered d then aoBad else aoUnpowered) 0 0 := by
  unfold ashCmdBadOpcode
  simp only [hc]
  rw [if_neg (by omega)]

end Engine

/-! ### Bodies (R259, R264) -/

theorem length_leBytes (n v : Nat) : (leBytes n v).length = n := by
  induction n generalizing v with
  | zero => rfl
  | succ n ih => rw [leBytes, List.length_cons, ih]

theorem length_seenNow (d : Dev) {e : List Byte} (h : e.length = 64) : (seenNow d e).length = 64 := by
  simp [seenNow, length_leBytes, h]

theorem getD_seenNow (d : Dev) {e : List Byte} (h : e.length = 64) {k : Nat} (hk : k < 59) : (seenNow d e).getD k 0 = e.getD k 0 := by
  simp only [seenNow, List.append_assoc, List.getD_eq_getElem?_getD]
  rw [List.getElem?_append_left (by simp [h, hk]), List.getElem?_take, if_pos hk]

theorem take_seenNow (d : Dev) {e : List Byte} (h : e.length = 64) {k : Nat} (hk : k ≤ 59) : (seenNow d e).take k = e.take k := by
  rw [seenNow, List.append_assoc, List.take_append_of_le_length (by simp [h, hk]), List.take_take, min_eq_left hk]

theorem feValid_seenNow (d : Dev) {e : List Byte} (h : e.length = 64) : feValid (seenNow d e) = feValid e := by
  rw [feValid, feValid, byteAt, getD_seenNow d h (by decide), byteAt]

theorem feKey_seenNow (d : Dev) {e : List Byte} (h : e.length = 64) : feKey (seenNow d e) = feKey e := by
  have hslice (x : List Byte) : slice x 33 7 = (x.take 40).drop 33 := by rw [slice, List.drop_take]
  rw [feKey, feKey, getD_seenNow d h (by decide), take_seenNow d h (by decide), hslice, hslice, take_seenNow d h (by decide)]

theorem bodyBad_valid {e : List Byte} (h : bodyBad e = false) : feValid e = true := by
  simp only [bodyBad, Bool.or_eq_false_iff, Bool.not_eq_false'] at h
  exact h.1

/-! ### INSERT, UPDATE, DELETE, LOOKUP (R264) -/

theorem insertFlow_exists {d : Dev} {m : Mem} {e : List Byte} {i : Nat} (h : findFlow d m (feKey e) = some i) :
    insertFlow d m e = (d, m, aoExists, 0, i) := by
  unfold insertFlow
  simp only [h]

/-- A new entry goes to the first free slot of its first bucket (R265). -/
theorem insertFlow_first {d : Dev} {m : Mem} {e : List Byte} {i : Nat} (h : findFlow d m (feKey e) = none)
    (hf : freeSlot d m (flowHash1 d (feKey e)) = some i) : insertFlow d m e
      = (wrn (putFlow d m i e).1 ASH_FLOWS (rdn (putFlow d m i e).1 ASH_FLOWS + 1), (putFlow d m i e).2, aoOk, 0, i) := by
  unfold insertFlow
  simp only [h, hf]

theorem popCmd_sameFlows (d : Dev) (c : AshCmd) : sameFlows d (popCmd d c) := (popCmd_spec d c).1

theorem seenNow_popCmd (d : Dev) (c : AshCmd) (e : List Byte) : seenNow (popCmd d c) e = seenNow d e := rfl

/-- An entry after an UPDATE: bytes 40 to 47 and STATIC as the body has them, seen now (R264). -/
def updatedEntry (d : Dev) (m : Mem) (c : AshCmd) (i : Nat) : List Byte :=
  let e := flowEntry d m i
  let flags := BitVec.ofNat 8 (byteAt e 32 / 8 * 8 + boolBit (feStatic c.body) * 4 + byteAt e 32 % 4)
  seenNow d (e.take 32 ++ [flags] ++ slice e 33 7 ++ slice c.body 40 8 ++ e.drop 48)

section Commands

variable {d : Dev} {m : Mem} {c : AshCmd} (hc : nextCmd d = some c) (hp : flowPowered d = true)
include hc hp

theorem flowInsert_bad (ho : c.opcode = 1) (hb : bodyBad c.body = true) : flowInsert d m = serveAged (logCmd (popCmd d c) c aoBad 0 0) m :=
  serve_powered hc ho hp (if_pos hb)

theorem flowInsert_exists (ho : c.opcode = 1) {i : Nat} (hb : bodyBad c.body = false) (hf : findFlow d m (feKey (seenNow d c.body)) = some i) :
    flowInsert d m = serveAged (logCmd (popCmd d c) c aoExists 0 i) m := by
  refine serve_powered hc ho hp ((if_neg (by simp [hb])).trans (insertFlow_exists ?_))
  rw [seenNow_popCmd, (popCmd_sameFlows d c).findFlow, hf]

/-- A key that is absent, with a free slot in its first bucket: the entry is written there and found there (R265). -/
theorem flowInsert_first (ho : c.opcode = 1) {i : Nat} (hlen : c.body.length = 64) (hb : bodyBad c.body = false)
    (hn : findFlow d m (feKey c.body) = none) (hf : freeSlot d m (flowHash1 d (feKey c.body)) = some i) :
    ∃ e n, flowInsert d m = serveAged e n ∧ readDram n (flowAddr d i) 64 = seenNow d c.body ∧ findFlow e n (feKey c.body) = some i := by
  have hpop := popCmd_sameFlows d c
  have hkey : feKey (seenNow (popCmd d c) c.body) = feKey c.body := feKey_seenNow _ hlen
  have hnone : findFlow (popCmd d c) m (feKey c.body) = none := (hpop.findFlow m _).trans hn
  have hfree : freeSlot (popCmd d c) m (flowHash1 (popCmd d c) (feKey c.body)) = some i := by rw [hpop.flowHash1, hpop.freeSlot, hf]
  have hput := findFlow_putFlow ((feValid_seenNow (popCmd d c) hlen).trans (bodyBad_valid hb)) (length_seenNow (popCmd d c) hlen) hkey hnone hfree
  refine ⟨_, _, serve_powered hc ho hp ((if_neg (by simp [hb])).trans (insertFlow_first (hkey.symm ▸ hnone) (hkey.symm ▸ hfree))), ?_, ?_⟩
  · rw [putFlow_eq, hpop.flowAddr, seenNow_popCmd]
    exact readDram_writeDram_same _ _ (length_seenNow d hlen)
  · rw [((((sameFlows.refl _).wrn (by decide) _)).trans (logCmd_spec _ c aoOk 0 i).1).findFlow, hput]

theorem flowUpdate_absent (ho : c.opcode = 2) (hb : bodyBad c.body = false) (hn : findFlow d m (feKey c.body) = none) :
    flowUpdate d m = serveAged (logCmd (popCmd d c) c aoNotFound 0 0) m := by
  refine serve_powered hc ho hp ?_
  simp only [hb, Bool.false_eq_true, if_false, (popCmd_sameFlows d c).findFlow, hn]

theorem flowUpdate_present (ho : c.opcode = 2) {i : Nat} (hb : bodyBad c.body = false) (hf : findFlow d m (feKey c.body) = some i) :
    ∃ e n, flowUpdate d m = serveAged (logCmd e c aoOk 0 i) n := by
  refine ⟨(putFlow (popCmd d c) m i (updatedEntry (popCmd d c) m c i)).1, (putFlow (popCmd d c) m i (updatedEntry (popCmd d c) m c i)).2,
    serve_powered hc ho hp ?_⟩
  simp only [hb, Bool.false_eq_true, if_false, (popCmd_sameFlows d c).findFlow, hf]
  rfl

theorem flowDelete_absent (ho : c.opcode = 3) (hn : findFlow d m (feKey c.body) = none) :
    flowDelete d m = serveAged (logCmd (popCmd d c) c aoNotFound 0 0) m := by
  refine serve_powered hc ho hp ?_
  simp only [(popCmd_sameFlows d c).findFlow, hn]

/-- A DELETE of a present key clears its slot (R264). -/
theorem flowDelete_present (ho : c.opcode = 3) {i : Nat} (hf : findFlow d m (feKey c.body) = some i) :
    ∃ e n, flowDelete d m = serveAged (logCmd e c aoOk 0 i) n ∧ readDram n (flowAddr d i) 64 = List.replicate 64 0 := by
  refine ⟨(deleteFlow (popCmd d c) m i).1, (deleteFlow (popCmd d c) m i).2, serve_powered hc ho hp ?_, ?_⟩
  · simp only [(popCmd_sameFlows d c).findFlow, hf]
  · rw [← (popCmd_sameFlows d c).flowAddr]
    exact readDram_deleteFlow _ m i

theorem flowFind_absent (ho : c.opcode = 4) (hn : findFlow d m (feKey c.body) = none) :
    flowFind d m = serveAged (logCmd (popCmd d c) c aoNotFound 0 0) m := by
  refine serve_powered hc ho hp ?_
  simp only [(popCmd_sameFlows d c).findFlow, hn]

/-- A LOOKUP of a present key copies its entry (R264). -/
theorem flowFind_present (ho : c.opcode = 4) {i : Nat} (hf : findFlow d m (feKey c.body) = some i) :
    ∃ e, flowFind d m = serveAged (logCmd e c aoOk 0 i) m ∧ rdn e (ASH_RES_DATAj 0) = leNat (flowEntry d m i) % 0x100000000 := by
  refine ⟨writeWords (popCmd d c) ASH_RES_DATAj 16 (leNat (flowEntry (popCmd d c) m i)), serve_powered hc ho hp ?_, ?_⟩
  · simp only [(popCmd_sameFlows d c).findFlow, hf]
  · rw [rdn_writeWords _ _ (by decide) (fun a b _ => by simp only; omega), (popCmd_sameFlows d c).flowEntry]
    simp

end Commands

/-! ### Walks (R266) -/

section Walks

variable {d : Dev} {m : Mem} {w : FlowWalk} (hw : d.pkt.walk = some w)
include hw

/-- The entries of the buckets left that match the walk's command. -/
def walkLeft (d : Dev) (m : Mem) (w : FlowWalk) : List Nat :=
  (validFlows d m w.reached flowBuckets).filter (fun i => w.cmd.opcode == 6 || feEndpoint (flowEntry d m i) == feEndpoint w.cmd.body)

/-- The block as a walk has deleted what is left. -/
def walkSwept (d : Dev) (m : Mem) (w : FlowWalk) : Dev :=
  setPkt (deleteFlows (walkLeft d m w) d m).1
    (fun p => { p with walk := some { w with reached := flowBuckets, deleted := w.deleted + (walkLeft d m w).length } })

theorem walkTo_end (hp : flowPowered d = true) (hr : w.reached < flowBuckets) :
    walkTo flowBuckets d m = (walkSwept d m w, (deleteFlows (walkLeft d m w) d m).2) := by
  have hno : ¬ (flowBuckets ≤ w.reached ∨ (!flowPowered d) = true) := by simp [hp, hr]
  unfold walkTo
  simp only [hw, if_neg hno, foldl_deleteFlow]
  rfl

theorem walkTo_stays (h : flowPowered d = false ∨ flowBuckets ≤ w.reached) : walkTo flowBuckets d m = (d, m) := by
  have hyes : flowBuckets ≤ w.reached ∨ (!flowPowered d) = true := by
    rcases h with h | h
    · simp [h]
    · exact .inl h
  unfold walkTo
  simp only [hw, if_pos hyes]

end Walks

/-- The block as a walk ends, before its log entry. -/
def walkEnded (d : Dev) : Dev := setFlag (setPkt d (fun p => { p with walk := none })) ASH_STATUS_WALK false

theorem walkDone_some {d e : Dev} {m n : Mem} {w : FlowWalk} (h : walkTo flowBuckets d m = (e, n)) (hw : e.pkt.walk = some w) :
    walkDone d m = serveAged (logCmd (walkEnded e) w.cmd aoOk 0 w.deleted) n := by
  unfold walkDone
  simp only [h, hw]
  rfl

theorem walkDone_none {d : Dev} (m : Mem) (h : d.pkt.walk = none) : walkDone d m = (d, m) := by
  have hto : walkTo flowBuckets d m = (d, m) := by
    unfold walkTo
    simp only [h]
  unfold walkDone
  simp only [hto, h]

/-! ### Learns, ageing and scrubbing (R263, R267, R269) -/

theorem learn_waits {d : Dev} (m : Mem) {k : List Byte} {n : Nat} {rest : List (List Byte × Nat)} (h : d.pkt.learns = (k, n) :: rest)
    (hw : (nextCmd d).isSome = true ∨ flowPowered d = false) : learn d m = (d, m) := by
  have hyes : ((nextCmd d).isSome || !flowPowered d) = true := by
    rcases hw with hw | hw <;> simp [hw]
  unfold learn
  simp only [h, hyes, if_true]

/-- The entry that a learn inserts: ACT 00b, STATIC 0, the frame that caused it counted (R263). -/
def learnedEntry (d : Dev) (k : List Byte) (n : Nat) : List Byte :=
  feTouch d (k.take 32 ++ [k.getD 32 0 ||| 8] ++ slice k 33 7 ++ List.replicate 24 0) n

theorem learn_inserts {d e : Dev} {m m' : Mem} {k : List Byte} {n o j i : Nat} {rest : List (List Byte × Nat)} (h : d.pkt.learns = (k, n) :: rest)
    (hn : nextCmd d = none) (hp : flowPowered d = true)
    (hi : insertFlow (setPkt d (fun p => { p with learns := rest })) m (learnedEntry d k n) = (e, m', o, j, i)) :
    learn d m = serveAged (if o = aoOk then count e ASH_LEARN else if o = aoExists then count e ASH_LEARN_DUP else e) m' := by
  have hno : ((nextCmd d).isSome || !flowPowered d) = false := by simp [hn, hp]
  have hentry : learnedEntry (setPkt d (fun p => { p with learns := rest })) k n = learnedEntry d k n := rfl
  rw [← hentry, learnedEntry] at hi
  unfold learn
  simp only [h, hno, Bool.false_eq_true, if_false, hi]

/-- What the ageing walk finds aged in a bucket (R267). -/
def agedIn (d : Dev) (m : Mem) (b : Nat) : List Nat := (bucketSlots b).filter (fun i => isAged d (flowEntry d m i))

/-- The block after the ageing walk's visit of its next bucket. -/
def ageVisited (d : Dev) (m : Mem) : Dev :=
  setPkt d (fun p => { p with agePos := (p.agePos + 1) % 4194304, aged := p.aged ++ agedIn d m d.pkt.agePos })

theorem ageVisit_on {d : Dev} (m : Mem) (ha : flag d ASH_CFG_AGE_EN = true) (hp : flowPowered d = true) : ageVisit d m = serveAged (ageVisited d m) m := by
  unfold ageVisit
  rw [if_pos ⟨ha, hp⟩]
  rfl

theorem ageVisit_off {d : Dev} (m : Mem) (h : flag d ASH_CFG_AGE_EN = false ∨ flowPowered d = false) : ageVisit d m = (d, m) := by
  refine if_neg ?_
  rintro ⟨ha, hp⟩
  rcases h with h | h
  · rw [h] at ha
    exact Bool.false_ne_true ha
  · rw [h] at hp
    exact Bool.false_ne_true hp

/-- The block after an uncorrectable word of the flow table was counted (R269). -/
def eccCounted (d : Dev) : Dev := raiseAsh (count d ASH_FLOW_ECC) ahFlowEcc

theorem eccCounted_spec (d : Dev) : sameFlows d (eccCounted d) ∧ rdn (eccCounted d) ASH_FLOW_ECC = min (rdn d ASH_FLOW_ECC + 1) 0xFFFFFFFF := by
  refine ⟨((sameFlows.refl d).count (by decide)).raiseAsh _, ?_⟩
  rw [rdn, eccCounted, raiseAsh, rd_raiseEvt_other _ evASH _ (by decide) (by decide) (by decide), ← rdn, rdn_count_same]

theorem rd_setPkt (d : Dev) (f : PacketHw → PacketHw) (q : Reg) : rd (setPkt d f) q = rd d q := rfl

theorem agedEntry_spec (d : Dev) (reason ep i : Nat) : sameFlows d (agedEntry d reason ep i)
    ∧ rd (agedEntry d reason ep i) ASH_FLOW_ECC = rd d ASH_FLOW_ECC := by
  unfold agedEntry
  refine ⟨((sameFlows.refl d).setPkt rfl).wrn (by decide) _, ?_⟩
  rw [rd_wrn_other _ _ (by decide), rd_setPkt]

theorem flowEcc_uncorrectable_eq (d : Dev) (m : Mem) (i : Nat) : flowEcc d m .uncorrectable i
    = if feValid (flowEntry d m i) then deleteFlow (agedEntry (eccCounted d) 2 (feEndpoint (flowEntry d m i)) i) m i else (eccCounted d, m) := by
  rw [← (eccCounted_spec d).1.flowEntry]
  rfl

/-- An uncorrectable word is counted, and clears an entry that is valid (R269). -/
theorem flowEcc_uncorrectable (d : Dev) (m : Mem) (i : Nat) :
    rdn (flowEcc d m .uncorrectable i).1 ASH_FLOW_ECC = min (rdn d ASH_FLOW_ECC + 1) 0xFFFFFFFF
      ∧ (feValid (flowEntry d m i) = true → readDram (flowEcc d m .uncorrectable i).2 (flowAddr d i) 64 = List.replicate 64 0) := by
  obtain ⟨hsame, hcount⟩ := eccCounted_spec d
  obtain ⟨haged, hecc⟩ := agedEntry_spec (eccCounted d) 2 (feEndpoint (flowEntry d m i)) i
  rw [flowEcc_uncorrectable_eq]
  cases hv : feValid (flowEntry d m i) with
  | false => exact ⟨hcount, fun h => absurd h Bool.false_ne_true⟩
  | true =>
    simp only [if_true, forall_const]
    obtain ⟨_, _, _, hother⟩ := deleteFlow_spec (agedEntry (eccCounted d) 2 (feEndpoint (flowEntry d m i)) i) m i
    refine ⟨?_, ?_⟩
    · rw [rdn, hother ASH_FLOW_ECC (by decide), hecc, ← rdn, hcount]
    · rw [← (hsame.trans haged).flowAddr]
      exact readDram_deleteFlow _ m i

theorem flowScrub_on {d : Dev} (m : Mem) (b : Fin 4194304) (ecc : Ecc) (slot : Fin 4) (h : flowPowered d = true) :
    flowScrub b ecc slot d m = flowEcc d m ecc (4 * b + slot) := if_pos h

theorem flowScrub_off {d : Dev} (m : Mem) (b : Fin 4194304) (ecc : Ecc) (slot : Fin 4) (h : flowPowered d = false) :
    flowScrub b ecc slot d m = (d, m) := if_neg (by simp [h])

/-- Settles O51, command by command, by what the engine serves and what a deletion leaves in DRAM. -/
theorem flowTableCommands : Obligations.FlowTableCommands := by
  unfold Obligations.FlowTableCommands
  intro s out hout
  have hafter (d : Dev) (m : Mem) : s.after (serveAged d m) = out d m := (hout d m).symm
  refine ⟨?commands, ?walkRuns, ?walkStays, ?walkNone, ?learns, ?ageOff, ?ageOn, ?scrub⟩
  case commands =>
    refine fun c hc => ⟨fun hp => ⟨fun ho => ?_, fun ho => ?_, fun ho => ?_, fun ho => ?_, fun ho => ?_, fun ho => ?_, fun ho => ?_⟩,
      fun hp => ⟨fun ho => ⟨fun hb => ?_, fun i hb hf => ?_, fun i hlen hb hn hf => ?_⟩,
        fun hn => ⟨fun ho hb => ?_, fun ho => ?_, fun ho => ?_⟩,
        fun i hf => ⟨fun ho => ?_, fun ho => ?_, fun ho hb => ?_⟩,
        fun ho => ⟨_, exec_flushEp s, startWalk_powered hc ho hp⟩, fun ho => ⟨_, exec_clearAll s, startWalk_powered hc ho hp⟩, fun ho => ?_⟩⟩
    · rw [exec_flowInsert, flowInsert, serve_unpowered hc _ ho hp]
      rfl
    · rw [exec_flowUpdate, flowUpdate, serve_unpowered hc _ ho hp]
      rfl
    · rw [exec_flowDelete, flowDelete, serve_unpowered hc _ ho hp]
      rfl
    · rw [exec_flowFind, flowFind, serve_unpowered hc _ ho hp]
      rfl
    · rw [exec_flushEp, startWalk_unpowered hc ho hp]
    · rw [exec_clearAll, startWalk_unpowered hc ho hp]
    · rw [exec_ashCmdBadOpcode, ashCmdBadOpcode_unlisted hc ho, if_neg (by simp [hp])]
    · rw [exec_flowInsert, flowInsert_bad hc hp ho hb, hafter]
    · rw [exec_flowInsert, flowInsert_exists hc hp ho hb hf, hafter]
    · obtain ⟨d, m, heq, hread, hfind⟩ := flowInsert_first hc hp ho hlen hb hn hf
      exact ⟨d, m, by rw [exec_flowInsert, heq, hafter], hread, hfind⟩
    · rw [exec_flowUpdate, flowUpdate_absent hc hp ho hb hn, hafter]
    · rw [exec_flowDelete, flowDelete_absent hc hp ho hn, hafter]
    · rw [exec_flowFind, flowFind_absent hc hp ho hn, hafter]
    · obtain ⟨d, m, heq, hread⟩ := flowDelete_present hc hp ho hf
      exact ⟨d, m, by rw [exec_flowDelete, heq, hafter], hread⟩
    · obtain ⟨d, heq, hread⟩ := flowFind_present hc hp ho hf
      exact ⟨d, by rw [exec_flowFind, heq, hafter], hread⟩
    · obtain ⟨d, m, heq⟩ := flowUpdate_present hc hp ho hb hf
      exact ⟨d, m, by rw [exec_flowUpdate, heq, hafter]⟩
    · rw [exec_ashCmdBadOpcode, ashCmdBadOpcode_unlisted hc ho, if_pos hp]
  case walkRuns =>
    rintro w hw hp hr is rfl
    obtain ⟨_, hzero⟩ := deleteFlows_spec (walkLeft s.dev s.mem w) s.dev s.mem
    refine ⟨walkEnded (walkSwept s.dev s.mem w), _, ?_, rfl, fun i hi => hzero i (.inl hi)⟩
    rw [exec_walkDone, walkDone_some (walkTo_end hw hp hr) rfl, hafter]
    rfl
  case walkStays =>
    intro w hw hstay
    refine ⟨walkEnded s.dev, ?_, rfl⟩
    rw [exec_walkDone, walkDone_some (walkTo_stays hw hstay) hw, hafter]
  case walkNone =>
    intro hw
    rw [exec_walkDone, walkDone_none _ hw]
    rfl
  case learns =>
    refine fun k n rest hl => ⟨fun hw => ?_, fun hn hp d m o j i hi => ?_⟩
    · rw [exec_learn, learn_waits _ hl hw]
      rfl
    · rw [exec_learn, learn_inserts hl hn hp hi, hafter]
  case ageOff =>
    intro h
    rw [exec_ageVisit, ageVisit_off _ h]
    rfl
  case ageOn =>
    intro ha hp
    refine ⟨ageVisited s.dev s.mem, ?_, rfl, rfl⟩
    rw [exec_ageVisit, ageVisit_on _ ha hp, hafter]
  case scrub =>
    refine fun b slot ecc => ⟨fun h => ?_, fun h => ⟨?_, ?_, _, exec_flowScrub b _ slot s, ?_⟩⟩
    · rw [exec_flowScrub, flowScrub_off _ b ecc slot h]
      rfl
    · rw [exec_flowScrub, flowScrub_on _ b _ slot h]
      rfl
    · rw [exec_flowScrub, flowScrub_on _ b _ slot h]
      rfl
    · rw [flowScrub_on _ b _ slot h]
      exact flowEcc_uncorrectable s.dev s.mem _

end Sys2Proof.Machine
end

section
/-!
PROOFS. The queues of the packet buffer: what a frame's coming, going and discard leave of them (R276, R281, R289, R291).
-/

namespace Sys2Proof.Machine

theorem keepsState.queues {d e : Dev} (h : keepsState d e) : e.queues = d.queues := by
  obtain ⟨r, p, o, n, b, rfl⟩ := h
  rfl

theorem keepsDevice.queues {d e : Dev} (h : keepsDevice d e) : e.queues = d.queues := by
  obtain ⟨⟨r, p, o, t, rfl⟩, _⟩ := h
  rfl

theorem queueOf_congr {d e : Dev} (h : e.queues = d.queues) (q : Nat) : queueOf e q = queueOf d q := by rw [queueOf, h, queueOf]

theorem queueOf_putQueue_same (d : Dev) (q : Nat) (fs : List BufFrame) : queueOf (putQueue d q fs) q = fs := sget_sput_same _ _ _ _

theorem queueOf_putQueue_other (d : Dev) {q r : Nat} (fs : List BufFrame) (h : r ≠ q) : queueOf (putQueue d q fs) r = queueOf d r :=
  sget_sput_other _ _ _ _ h

/-! ### What a frame's coming or going shows (R275 to R277) -/

theorem keepsState_syncPools (d : Dev) : keepsState d (syncPools d) := by
  unfold syncPools
  dsimp only
  split
  · exact ((((keepsState.refl d).setFld _ _).setFlag _ _).setFld _ _).raiseEvt _ _
  · exact (((keepsState.refl d).setFld _ _).setFlag _ _).setFld _ _

theorem syncFlow_queues (d : Dev) (s : Nat) : (syncFlow d s).queues = d.queues := by
  unfold syncFlow
  dsimp only
  split
  · rfl
  · refine forEach_keeps (P := fun e => e.queues = d.queues) (fun e k he => ?_) _ rfl
    exact he

theorem afterChange_queues (d : Dev) (f : BufFrame) : (afterChange d f).queues = d.queues := by
  have h := (keepsState_syncPools d).queues
  unfold afterChange
  split
  · exact (syncFlow_queues _ _).trans h
  · exact h

theorem txResult_queues (d : Dev) (r i status : Nat) (stamp : Option Nat) : (txResult d r i status stamp).queues = d.queues := by
  unfold txResult
  split
  · exact ((keepsDevice.refl d).closeEntry _ _ _).queues
  · rfl

/-! ### A frame that leaves its queue (R276, R291) -/

theorem takeFrom_queues (d : Dev) (q : Nat) (f : BufFrame) : (takeFrom d q f).queues = (putQueue d q ((queueOf d q).erase f)).queues :=
  afterChange_queues _ f

theorem discardFrame_queues (d : Dev) (q : Nat) (f : BufFrame) (st : Nat) :
    (discardFrame d q f st).queues = (putQueue d q ((queueOf d q).erase f)).queues := by
  unfold discardFrame
  dsimp only
  split
  · rw [txResult_queues, takeFrom_queues]
  · exact takeFrom_queues d q f

theorem queueOf_discardFrame (d : Dev) (q r : Nat) (f : BufFrame) (st : Nat) :
    queueOf (discardFrame d q f st) r = if r = q then (queueOf d r).erase f else queueOf d r := by
  rw [queueOf_congr (discardFrame_queues d q f st)]
  split
  · next h => rw [h, queueOf_putQueue_same]
  · next h => exact queueOf_putQueue_other d _ h

/-- The frames of queue q among some frames with their queues. -/
def ownFrames (fs : List (Nat × BufFrame)) (q : Nat) : List BufFrame := (fs.filter (fun e => e.1 == q)).map (·.2)

theorem ownFrames_cons (e : Nat × BufFrame) (fs : List (Nat × BufFrame)) (q : Nat) :
    ownFrames (e :: fs) q = if e.1 = q then e.2 :: ownFrames fs q else ownFrames fs q := by
  unfold ownFrames
  rw [List.filter_cons]
  by_cases h : e.1 = q <;> simp [h]

/-- Frames discarded one after the other leave each queue without those of them that were its. -/
theorem queueOf_discards (fs : List (Nat × BufFrame)) (st : Nat) (d : Dev) (q : Nat) :
    queueOf (forEach fs (fun d e => discardFrame d e.1 e.2 st) d) q = (queueOf d q).diff (ownFrames fs q) := by
  induction fs generalizing d with
  | nil => exact (List.diff_nil _).symm
  | cons e t ih =>
    have hstep : queueOf (forEach (e :: t) (fun d e => discardFrame d e.1 e.2 st) d) q
        = queueOf (forEach t (fun d e => discardFrame d e.1 e.2 st) (discardFrame d e.1 e.2 st)) q := rfl
    rw [hstep, ih, queueOf_discardFrame, ownFrames_cons]
    by_cases h : e.1 = q
    · rw [if_pos h.symm, if_pos h, List.diff_cons]
    · rw [if_neg (Ne.symm h), if_neg h]

/-- The frames of some queues of the buffer, each with its queue. -/
def heldFrames (m : Sparse (List BufFrame)) (p : Nat → Bool) : List (Nat × BufFrame) :=
  ((m.filter (fun e => p e.1)).map (fun e => e.2.map (fun f => (e.1, f)))).flatten

theorem ownFrames_append (fs gs : List (Nat × BufFrame)) (q : Nat) : ownFrames (fs ++ gs) q = ownFrames fs q ++ ownFrames gs q := by
  rw [ownFrames, List.filter_append, List.map_append, ownFrames, ownFrames]

theorem ownFrames_own (q : Nat) (v : List BufFrame) : ownFrames (v.map (fun f => (q, f))) q = v := by
  induction v with
  | nil => rfl
  | cons f t ih => rw [List.map_cons, ownFrames_cons, if_pos rfl, ih]

/-- Every frame of a queue that is asked for is among those found. -/
theorem sublist_heldFrames (m : Sparse (List BufFrame)) {p : Nat → Bool} {q : Nat} (hp : p q = true) :
    (sget [] m q).Sublist (ownFrames (heldFrames m p) q) := by
  induction m with
  | nil => exact List.nil_sublist _
  | cons e t ih =>
    obtain ⟨a, v⟩ := e
    have hcons : heldFrames ((a, v) :: t) p = (if p a then v.map (fun f => (a, f)) else []) ++ heldFrames t p := by
      unfold heldFrames
      rw [List.filter_cons]
      by_cases h : p a = true <;> simp [h]
    rw [sget, hcons, ownFrames_append]
    split
    · next h =>
      rw [h, if_pos hp, ownFrames_own]
      exact List.sublist_append_left _ _
    · exact ih.trans (List.sublist_append_right _ _)

theorem diff_eq_nil_of_sublist {α : Type} [DecidableEq α] {l m : List α} (h : l.Sublist m) : l.diff m = [] := by
  refine List.eq_nil_iff_forall_not_mem.mpr fun a ha => ?_
  have hpos := List.count_pos_iff.mpr ha
  rw [List.count_diff] at hpos
  have := h.count_le a
  omega

/-- Emptying queues leaves none of them a frame (R291). -/
theorem queueOf_emptyQueues (d : Dev) {p : Nat → Bool} {q : Nat} (hp : p q = true) : queueOf (emptyQueues d p).1 q = [] := by
  have h := queueOf_discards (heldFrames d.queues p) csFlushed d q
  have hsub : (queueOf d q).Sublist (ownFrames (heldFrames d.queues p) q) := sublist_heldFrames d.queues hp
  exact h.trans (diff_eq_nil_of_sublist hsub)

/-! ### A frame that is chosen (R281, R282, R285, R293) -/

theorem chargeShaper_queues (d : Dev) (q n : Nat) : (chargeShaper d q n).queues = d.queues := by
  unfold chargeShaper
  split
  · rfl
  · rfl

theorem readCells_queues (d : Dev) (f : BufFrame) (ecc : Ecc) : (readCells d f ecc).1.queues = d.queues := by
  cases ecc with
  | clean => rfl
  | corrected => rfl
  | uncorrectable =>
    have h : (raiseTmg (count d TMG_ECC_UNCORR) tmEccUncorr).queues = d.queues := (((keepsState.refl d).count _).raiseEvt _ _).queues
    unfold readCells
    dsimp only
    split
    · exact (txResult_queues _ _ _ _ _).trans h
    · exact h

end Sys2Proof.Machine
end

section
/-!
PROOFS. Admission, dequeue, gate lists, statistics and flushes: the obligation TrafficManager (R274 to R294).
-/

namespace Sys2Proof.Machine

theorem exec_frameAdmit (s : State) : exec .frameAdmit s = .next (s.withDev (frameAdmit s.dev)) := rfl

theorem exec_serverDequeue (p : Fin 64) (ecc : Ecc) (s : State) : exec (.serverDequeue p ecc) s = .next (s.withDev (serverDequeue p ecc s.dev)) := rfl

theorem exec_gateListStart (sched : Fin 576) (s : State) : exec (.gateListStart sched) s = .next (s.withDev (gateListStart sched s.dev)) := rfl

theorem exec_gateChange (sched : Fin 576) (s : State) : exec (.gateChange sched) s = .next (s.withDev (syncGates s.dev sched)) := rfl

theorem exec_glWrite (m : Master) (value : Word) (s : State) : exec (.glWrite m value) s = .next (s.withDev (glWrite m value s.dev)) := rfl

theorem exec_glRead (m : Master) (value : Word) (s : State) : exec (.glRead m value) s = .next (s.withDev (glRead m value s.dev)) := rfl

theorem exec_qSelWrite (m : Master) (value : Word) (s : State) : exec (.qSelWrite m value) s = .next (s.withDev (qSelWrite m value s.dev)) := rfl

theorem exec_portFlush (p : Fin 64) (s : State) : exec (.portFlush p) s = .next (s.withDev (portFlush p s.dev)) := rfl

/-! ### Admission (R274, R276) -/

/-- What an admission into a pool has passed (R276). -/
theorem admission_pool {d : Dev} {q : Nat} {f : BufFrame} {c n : Nat} (h : admission d q f c = .pool n) :
    cellsOf (queueOf d q) + frameCells f ≤ queueMax d q ∧ (c = 1 → n ≠ 0) ∧ (n = 1 → frameCells f ≤ fld d TMG_FREE_SHARED_FREE)
      ∧ (n = 2 → ∃ l : Nat, f.src = .lane l ∧ lossless d l f.pri = true) := by
  unfold admission at h
  dsimp only at h
  split at h
  · cases h
  · next hmax =>
    refine ⟨Nat.not_lt.mp hmax, ?_⟩
    split at h
    · next hfloor =>
      cases h
      exact ⟨fun hc => absurd hc hfloor.1, fun h1 => absurd h1 (by decide), fun h2 => absurd h2 (by decide)⟩
    · split at h
      · next hfree =>
        cases h
        exact ⟨fun _ => by decide, fun _ => hfree.1, fun h2 => absurd h2 (by decide)⟩
      · split at h
        · next l hsrc =>
          split at h
          · next hl =>
            split at h
            · cases h
              exact ⟨fun _ => by decide, fun h1 => absurd h1 (by decide), fun _ => ⟨l, hsrc, hl⟩⟩
            · cases h
          · cases h
        · cases h

section Offers

variable {d : Dev} {o : TmOffer} {rest : List TmOffer} (ho : d.pkt.offers = o :: rest) (hp : pwrStopped d 7 = false) (hq : o.queue < 16384)
include ho hp hq

/-- The block as the oldest offered frame is taken. -/
def offerTaken (d : Dev) (rest : List TmOffer) : Dev := setPkt d (fun p => { p with offers := rest })

theorem frameAdmit_unpoliced (hn : o.policer = none) : frameAdmit d = admitOffer (offerTaken d rest) o 0 := by
  have hstop : pwrStopped (offerTaken d rest) 7 = false := hp
  have htakes : ringTakes (offerTaken d rest) o.queue = true := by simp [ringTakes, hq]
  unfold frameAdmit
  simp only [ho, ← offerTaken.eq_def, hstop, htakes, hn, Bool.false_eq_true, if_false, Bool.not_true]
  cases o.frame.src <;> rfl

/-- A frame from a lane is policed by its policer. -/
theorem frameAdmit_policed {k l : Nat} (hk : o.policer = some k) (hl : o.frame.src = .lane l) :
    frameAdmit d = (let r := police (offerTaken d rest) k o.frame.bytes.length
      if r.2 = 2 then count r.1 TMG_DROP_RED else admitOffer r.1 o r.2) := by
  have hstop : pwrStopped (offerTaken d rest) 7 = false := hp
  have htakes : ringTakes (offerTaken d rest) o.queue = true := by simp [ringTakes, hq]
  unfold frameAdmit
  simp only [ho, ← offerTaken.eq_def, hstop, htakes, hk, hl, Bool.false_eq_true, if_false, Bool.not_true]

end Offers

theorem police_red {d : Dev} {k : Nat} (n : Nat) (h : (bucketsNow d k).p < 0) : police d k n = (putBuckets d k (bucketsNow d k), 2) := if_pos h

/-- A frame that is not red is yellow where its committed bucket is in debt, else green (R284). -/
theorem police_not_red {d : Dev} {k : Nat} (n : Nat) (h : 0 ≤ (bucketsNow d k).p) :
    ((police d k n).2 = 0 ↔ 0 ≤ (bucketsNow d k).c) ∧ (police d k n).2 ≤ 1 := by
  unfold police
  dsimp only
  rw [if_neg (not_lt.mpr h)]
  split
  · next hc => exact ⟨⟨fun h0 => absurd h0 Nat.one_ne_zero, fun h0 => absurd hc (not_lt.mpr h0)⟩, le_rfl⟩
  · next hc => exact ⟨⟨fun _ => not_lt.mp hc, fun _ => rfl⟩, Nat.zero_le 1⟩

/-! ### The choice among weighted queues (R281, R285) -/

/-- One queue more is compared with the least tag so far. -/
def leastStep (d : Dev) (a : Option Nat) (q : Nat) : Option Nat :=
  match a with
  | none => some q
  | some b => if tagBefore (qState d q).s (qState d b).s then some q else some b

theorem leastStep_cases (d : Dev) (b q : Nat) : leastStep d (some b) q = some q ∨ leastStep d (some b) q = some b := ite_eq_or_eq _ _ _

/-- From some queue on, the least tag is that queue's or that of a later one. -/
theorem foldl_leastStep (d : Dev) (qs : List Nat) (b : Nat) : ∃ q, qs.foldl (leastStep d) (some b) = some q ∧ (q ∈ qs ∨ q = b) := by
  induction qs generalizing b with
  | nil => exact ⟨b, rfl, .inr rfl⟩
  | cons a t ih =>
    rw [List.foldl_cons]
    rcases leastStep_cases d b a with h | h
    · obtain ⟨q, hq, hm⟩ := ih a
      rw [h]
      exact ⟨q, hq, .inl (hm.elim (List.mem_cons_of_mem a) (fun he => he ▸ List.mem_cons_self))⟩
    · obtain ⟨q, hq, hm⟩ := ih b
      rw [h]
      exact ⟨q, hq, hm.imp_left (List.mem_cons_of_mem a)⟩

/-- Of some queues one has the least tag. -/
theorem leastTag_cons (d : Dev) (a : Nat) (t : List Nat) : ∃ q, leastTag d (a :: t) = some q ∧ q ∈ a :: t := by
  obtain ⟨q, hq, hm⟩ := foldl_leastStep d t a
  exact ⟨q, hq, List.mem_cons.mpr hm.symm⟩

theorem leastTag_mem {d : Dev} {qs : List Nat} {q : Nat} (h : leastTag d qs = some q) : q ∈ qs := by
  cases qs with
  | nil => cases h
  | cons a t =>
    obtain ⟨r, hr, hm⟩ := leastTag_cons d a t
    rw [hr] at h
    cases h
    exact hm

theorem leastTag_none {d : Dev} {qs : List Nat} (h : leastTag d qs = none) : qs = [] := by
  cases qs with
  | nil => rfl
  | cons a t =>
    obtain ⟨r, hr, _⟩ := leastTag_cons d a t
    rw [hr] at h
    cases h

/-- A weighted queue in credit is chosen before one that is not. -/
theorem selectQueue_weighted {d : Dev} {weighted : List Nat} {q : Nat} (h : selectQueue d [] weighted = some q) :
    q ∈ weighted ∧ ((∃ r ∈ weighted, committedOpen d r = true) → committedOpen d q = true) := by
  unfold selectQueue at h
  simp only [List.head?_nil] at h
  split at h
  · next r hr =>
    cases h
    obtain ⟨hmem, hopen⟩ := List.mem_filter.mp (leastTag_mem hr)
    exact ⟨hmem, fun _ => hopen⟩
  · next hn =>
    refine ⟨leastTag_mem h, fun ⟨r, hr, hopen⟩ => ?_⟩
    exact absurd (List.mem_filter.mpr ⟨hr, hopen⟩) (by rw [leastTag_none hn]; exact List.not_mem_nil)

/-! ### SERVER_DEQUEUE (R281, R293) -/

/-- The block as a frame is chosen: it leaves its queue, its shaper and its tag are charged, and it is counted. -/
def frameChosen (d : Dev) (p q : Nat) (f : BufFrame) : Dev :=
  let d := chargeShaper (takeFrom d q f) q f.bytes.length
  let d := if 4 ≤ q % 128 then chooseTags d p q f.bytes.length else d
  setQState d q (fun s => { s with sent := min (s.sent + 1) 0xFFFFFFFF })

theorem setQState_queues (d : Dev) (q : Nat) (f : QState → QState) : (setQState d q f).queues = d.queues := rfl

theorem chooseTags_queues (d : Dev) (sched q n : Nat) : (chooseTags d sched q n).queues = d.queues := rfl

theorem frameChosen_queues (d : Dev) (p q : Nat) (f : BufFrame) :
    (frameChosen d p q f).queues = (putQueue d q ((queueOf d q).erase f)).queues := by
  rw [← takeFrom_queues, ← chargeShaper_queues (takeFrom d q f) q f.bytes.length, frameChosen, setQState_queues]
  split
  · rw [chooseTags_queues]
  · rfl

/-- The frame of the port's chosen queue leaves it and goes to the MAC, unless its cells cannot be read. -/
theorem serverDequeue_chosen {d d1 : Dev} {p : Fin 64} {q : Nat} {f : BufFrame} (htx : (macHw d p).tx = none) (hh : txHold d p = false)
    (hf : flowFirst d p = false) (hd : domainOn d 33 = true)
    (hc : serverChoice (dropOversize (((d.queues.filter (fun e => e.1 / 128 == p.val)).map (fun e => e.2.length)).foldl (· + ·) 0) d p) p = (d1, some q))
    (hhead : headFrame d1 q = some f) (ecc : Ecc) : serverDequeue p ecc d
      = (let r := readCells (frameChosen d1 p q f) f ecc
        if r.2 then setMac r.1 p (fun m => { m with tx := some f, cls := q % 128 }) else r.1) := by
  have hgo : ((macHw d p).tx.isSome || txHold d p || flowFirst d p || !domainOn d 33) = false := by simp [htx, hh, hf, hd]
  unfold serverDequeue
  simp only [hgo, hc, hhead, Bool.false_eq_true, if_false]
  rfl

theorem queueOf_frameRead (d : Dev) (p q : Nat) (f : BufFrame) (ecc : Ecc) :
    queueOf (readCells (frameChosen d p q f) f ecc).1 q = (queueOf d q).erase f := by
  rw [queueOf_congr ((readCells_queues _ f ecc).trans (frameChosen_queues d p q f)), queueOf_putQueue_same]

theorem readCells_clean (d : Dev) (f : BufFrame) : readCells d f .clean = (d, true) := rfl

/-! ### Gate lists (R287 to R290) -/

theorem gateRun_setGateRun (d : Dev) (sched : Nat) (r : GateRun) : gateRun (setGateRun d sched r) sched = r := sget_sput_same _ _ _ _

theorem gateRun_congr {d e : Dev} (h : e.pkt = d.pkt) (sched : Nat) : gateRun e sched = gateRun d sched := by rw [gateRun, h, gateRun]

theorem syncGates_pkt (d : Dev) (sched : Nat) : (syncGates d sched).pkt = d.pkt := rfl

theorem gates_syncGates (d : Dev) (sched : Nat) : getBits (rd (syncGates d sched) (statusReg sched)) 15 8 = gatesNow d sched % 256 := by
  unfold syncGates
  dsimp only
  rw [rd_wr_same, getBits_putBits_same _ _ (by decide) (by decide)]
  rfl

theorem gateListStart_some {sched : Fin 576} {d : Dev} {c ts : Nat} (h : (gateRun d sched).waiting = some (c, ts)) : gateListStart sched d
    = if ts ≤ now d then syncGates (setGateRun d sched { applied := some (c, ts), waiting := none }) sched else d := by
  unfold gateListStart
  simp only [h]

/-- The cycles after which a list whose base has passed begins: T_s is the first boundary at least 10 µs on (R290). -/
def cyclesOn (d : Dev) (l : GateList) : Nat := ceilDiv (now d + 10000 - l.base) l.cycle

theorem ceilDiv_bounds {a b : Nat} (ha : 0 < a) (hb : 0 < b) : a ≤ ceilDiv a b * b ∧ (ceilDiv a b - 1) * b < a := by
  unfold ceilDiv
  have hdiv : (a + b - 1) / b = (a - 1) / b + 1 := by
    rw [show a + b - 1 = a - 1 + b by omega, Nat.add_div_right _ hb]
  have hlow := Nat.div_mul_le_self (a - 1) b
  have hhigh := Nat.lt_div_mul_add (a := a - 1) hb
  rw [hdiv, Nat.add_sub_cancel, Nat.add_mul, Nat.one_mul]
  omega

/-- A list whose base has passed waits for T_s (R290). -/
theorem selectGates_waits {d : Dev} {sched : Nat} {w : Word} (hw : w.getLsbD 1 = true) (hb : (gateList d sched (boolBit (w.getLsbD 0))).base < now d) :
    (gateRun (selectGates d sched w) sched).waiting = some (boolBit (w.getLsbD 0), (gateList d sched (boolBit (w.getLsbD 0))).base
      + cyclesOn d (gateList d sched (boolBit (w.getLsbD 0))) * (gateList d sched (boolBit (w.getLsbD 0))).cycle) := by
  unfold selectGates
  simp only [hw, Bool.not_true, Bool.false_eq_true, if_false, if_neg (Nat.not_le.mpr hb)]
  generalize hr : ({ gateRun d sched with waiting := _ } : GateRun) = r
  have hstate := (((keepsState.refl (setGateRun d sched r)).count TMG_GATE_ADV).setFld TMG_GL_LAST_ADV_SCHED sched).setFld TMG_GL_LAST_ADV_CYCLES
    (ceilDiv (now d + 10000 - (gateList d sched (boolBit (w.getLsbD 0))).base) (gateList d sched (boolBit (w.getLsbD 0))).cycle)
  have hrun := gateRun_congr ((syncGates_pkt _ sched).trans (hstate.raiseEvt evTMG tmGateAdv).pkt) sched
  rw [gateRun_setGateRun] at hrun
  refine (congrArg GateRun.waiting hrun).trans ?_
  rw [← hr]
  rfl

/-! ### Access to the gate lists (R287) -/

theorem storeAt_pkt (d : Dev) (m : Master) (ofs : Nat) (value : Word) : (storeAt d m ofs value).pkt = d.pkt := by
  obtain ⟨r, y, c, p, o, h⟩ := storeAt_touches d m ofs value
  rw [h]

/-- The block with TMG_GL_CTL stored as a write GO stores it. -/
def glStored (d : Dev) (m : Master) (value : Word) : Dev := storeAt d m TMG_GL_CTL.ofs ((value ||| 0x80000000) &&& 0xBFFFFFFF)

/-- The block with a gate list stored (R287). -/
def listStored (d : Dev) (i : Nat) (l : GateList) : Dev :=
  setFlag (setPkt d (fun p => { p with lists := sput GateList.reset p.lists i l })) TMG_GL_CTL_REFUSED false

theorem gateList_listStored (d : Dev) (sched copy : Nat) (l : GateList) : gateList (listStored d (2 * sched + copy) l) sched copy = l :=
  sget_sput_same _ _ _ _

section Gates

variable {d : Dev} {m : Master} {value : Word} (h : admits d m TMG_GL_CTL.ofs = true)
include h

/-- A write to a copy in use is refused (R287). -/
theorem glWrite_refused {e : Dev} (he : e = glStored d m value) (hr : glRefused e (fld e TMG_GL_CTL_SCHED) (fld e TMG_GL_CTL_COPY) = true) :
    glWrite m value d = count (setFlag e TMG_GL_CTL_REFUSED true) TMG_GL_REFUSED := by
  obtain ⟨h31, h30⟩ := go_writeGo value
  subst he
  rw [glStored] at hr
  rw [glWrite, glCtlWrite, guarded_admits _ h]
  simp only [h31, h30, hr, Bool.not_true, Bool.false_eq_true, if_false, if_true]
  rfl

/-- A write to a copy that is not in use stores the staged entry INDEX. -/
theorem glWrite_entry {e : Dev} (he : e = glStored d m value) (hr : glRefused e (fld e TMG_GL_CTL_SCHED) (fld e TMG_GL_CTL_COPY) = false)
    (hi : fld e TMG_GL_CTL_INDEX ≠ 256) : (glWrite m value d).pkt.gates = d.pkt.gates
      ∧ gateEntry (gateList (glWrite m value d) (fld e TMG_GL_CTL_SCHED) (fld e TMG_GL_CTL_COPY)) (fld e TMG_GL_CTL_INDEX)
        = (fld e TMG_GL_ENTRY_GATES_GATES, fld e TMG_GL_ENTRY_NS_NS) := by
  obtain ⟨h31, h30⟩ := go_writeGo value
  have hpkt : e.pkt = d.pkt := he ▸ storeAt_pkt d m _ _
  subst he
  rw [glStored] at hr hi hpkt ⊢
  rw [glWrite, glCtlWrite, guarded_admits _ h]
  simp only [h31, h30, hr, hi, Bool.not_true, Bool.false_eq_true, if_false]
  have hgates := congrArg PacketHw.gates hpkt
  refine ⟨hgates, ?_⟩
  rw [← listStored, gateList_listStored, gateEntry, sget_sput_same]

theorem glRead_pkt : (glRead m value d).pkt = d.pkt := by
  obtain ⟨h31, h30⟩ := go_readGo value
  have hstore := storeAt_pkt d m TMG_GL_CTL.ofs (value ||| 0xC0000000)
  rw [glRead, glCtlWrite, guarded_admits _ h]
  simp only [h31, h30, Bool.not_true, Bool.false_eq_true, if_false, if_true]
  split
  · exact hstore
  · exact hstore

end Gates

/-! ### Statistics and flushes (R291, R294) -/

theorem storeAt_qSel (d : Dev) (m : Master) (value : Word) : ∃ w, storeAt d m TMG_Q_SEL.ofs value = wr d TMG_Q_SEL w
    ∧ getBits w 13 0 = getBits value 13 0 :=
  ⟨putBits (rd d TMG_Q_SEL) 13 0 (getBits value 13 0), rfl,
    by rw [getBits_putBits_same _ _ (by decide) (by decide), Nat.mod_eq_of_lt (getBits_lt value 13 0)]⟩

/-- A write of TMG_Q_SEL latches the figures of the queue it names. -/
theorem qSelWrite_latches {d : Dev} {m : Master} {value : Word} (h : admits d m TMG_Q_SEL.ofs = true) :
    (qSelWrite m value d).queues = d.queues
      ∧ rdn (qSelWrite m value d) (TMG_Q_STATk 0) = cellsOf (queueOf d (getBits value 13 0)) % 0x100000000
      ∧ rdn (qSelWrite m value d) (TMG_Q_STATk 1) = (queueOf d (getBits value 13 0)).length % 0x100000000 := by
  obtain ⟨w, hw, hi⟩ := storeAt_qSel d m value
  have hqueue : fld (wr d TMG_Q_SEL w) TMG_Q_SEL_QUEUE = getBits value 13 0 := by rw [fld, rd_wr_same, hi]
  have hkeep : queueOf (wr d TMG_Q_SEL w) (getBits value 13 0) = queueOf d (getBits value 13 0) := rfl
  rw [qSelWrite, guarded_admits _ h, hw]
  simp only [hqueue, hkeep]
  refine ⟨rfl, ?_, ?_⟩
  · rw [rdn_wrn_other _ _ (by decide), rdn_wrn_other _ _ (by decide), rdn_wrn_other _ _ (by decide), rdn_wrn_same]
    rfl
  · rw [rdn_wrn_other _ _ (by decide), rdn_wrn_other _ _ (by decide), rdn_wrn_same]
    rfl

/-- A port that was out of ACTIVE too long holds no frame (R291). -/
theorem portFlush_empties {d : Dev} {p : Fin 64} (ht : timerOver d (.portFlush p) = true) (hl : laneState d p ≠ lnActive) {q : Nat}
    (hq : q / 128 = p.val) : queueOf (portFlush p d) q = [] := by
  have hempty := queueOf_emptyQueues d (p := fun q => decide (q < 8192) && q / 128 == p.val) (q := q) (by simp; omega)
  unfold portFlush
  rw [if_pos ⟨ht, hl⟩]
  dsimp only
  split
  · exact hempty
  · exact (queueOf_congr (((keepsState.refl _).countBy _ _).raiseEvt _ _).queues q).trans hempty

theorem portFlush_early {d : Dev} {p : Fin 64} (ht : timerOver d (.portFlush p) = false) : portFlush p d = d :=
  if_neg (fun h => Bool.false_ne_true (ht.symm.trans h.1))

/-- Settles O52, command by command: admission by its cases, queues by what erasing leaves of them, gate lists by the runs they set. -/
theorem trafficManager : Obligations.TrafficManager := by
  unfold Obligations.TrafficManager
  refine ⟨fun d q f c n => admission_pool, ?admission, fun d weighted q => selectQueue_weighted, ?dequeue, ?lists, ?select, ?access, ?stats, ?flush⟩
  case admission =>
    intro s o rest ho hp hq d hd
    have htaken : d = offerTaken s.dev rest := hd
    subst htaken
    refine ⟨fun hn => ?_, fun k l hk hl => ⟨fun hred => ?_, fun hok => ?_⟩⟩
    · rw [exec_frameAdmit, frameAdmit_unpoliced ho hp hq hn]
    · rw [exec_frameAdmit, frameAdmit_policed ho hp hq hk hl, police_red _ hred]
      rfl
    · obtain ⟨hgreen, hle⟩ := police_not_red o.frame.bytes.length hok
      refine ⟨(police (offerTaken s.dev rest) k o.frame.bytes.length).1, _, ?_, hgreen, hle⟩
      rw [exec_frameAdmit, frameAdmit_policed ho hp hq hk hl]
      exact congrArg (fun e => Host.Outcome.next (s.withDev e)) (if_neg (by omega))
  case dequeue =>
    intro p s htx hh hf hd d1 q f hc hhead
    have heq := serverDequeue_chosen htx hh hf hd hc hhead
    refine ⟨⟨_, exec_serverDequeue p .clean s, ?_, ?_⟩, _, exec_serverDequeue p .uncorrectable s, ?_⟩
    · rw [heq .clean, readCells_clean]
      exact congrArg MacHw.tx (macHw_setMac_same (frameChosen d1 p q f) p.val (fun m => { m with tx := some f, cls := q % 128 }))
    · rw [heq .clean]
      exact queueOf_frameRead d1 p q f .clean
    · rw [heq .uncorrectable]
      exact queueOf_frameRead d1 p q f .uncorrectable
  case lists =>
    refine fun sched s => ⟨fun c ts hw => ⟨fun hle => ⟨_, exec_gateListStart sched s, ?_⟩, fun hlt => ?_⟩,
      _, exec_gateChange sched s, syncGates_pkt _ _, gates_syncGates _ _⟩
    · rw [gateListStart_some hw, if_pos hle, gateRun_congr (syncGates_pkt _ _), gateRun_setGateRun]
    · rw [exec_gateListStart, gateListStart_some hw, if_neg (Nat.not_le.mpr hlt), withDev_self]
  case select =>
    intro d sched w hw l hb hcycle
    obtain ⟨hge, hlt⟩ := ceilDiv_bounds (a := now d + 10000 - l.base) (b := l.cycle) (by omega) hcycle
    refine ⟨cyclesOn d l, selectGates_waits hw hb, ?_, ?_⟩
    · rw [cyclesOn]
      omega
    · rw [cyclesOn]
      omega
  case access =>
    refine fun m value s h => ⟨fun d hd => ⟨fun hr => ?_, fun hr hi => ⟨_, exec_glWrite m value s, glWrite_entry h hd hr hi⟩⟩,
      _, exec_glRead m value s, glRead_pkt h⟩
    rw [exec_glWrite, glWrite_refused h hd hr]
  case stats => exact fun m value s h => ⟨_, exec_qSelWrite m value s, qSelWrite_latches h⟩
  case flush =>
    refine fun p s => ⟨fun ht hl => ⟨_, exec_portFlush p s, fun q hq => portFlush_empties ht hl hq⟩, fun ht => ?_⟩
    rw [exec_portFlush, portFlush_early ht, withDev_self]

end Sys2Proof.Machine
end

section
/-!
PROOFS. Time anchors and the messages of a port's own clock (R295 to R304).
-/

namespace Sys2Proof.Machine

/-! ### Device time and the TTD unit through updates of registers and messages -/

theorem keepsState.ttd {d e : Dev} (h : keepsState d e) : e.ttd = d.ttd := by
  obtain ⟨r, p, o, n, b, rfl⟩ := h
  rfl

theorem keepsState.kst {d e : Dev} (h : keepsState d e) : e.kst = d.kst := by
  obtain ⟨r, p, o, n, b, rfl⟩ := h
  rfl

theorem keepsState.clock {d e : Dev} (h : keepsState d e) : e.clock = d.clock := by
  obtain ⟨r, p, o, n, b, rfl⟩ := h
  rfl

theorem keepsState.countFld {d e : Dev} (h : keepsState d e) (f : Fld) : keepsState d (countFld e f) := h.setFld _ _

theorem keepsState.raiseTtd {d e : Dev} (h : keepsState d e) (b : Nat) : keepsState d (raiseTtd e b) := h.raiseEvt evTTD b

theorem keepsState.emit {d e : Dev} (h : keepsState d e) (o : Out) : keepsState d (emit e o) :=
  h.trans ⟨e.regs, e.msixPending, _, e.freeCount, e.bst, rfl⟩

/-- An event of TTD leaves every register below the host interface but its event word. -/
theorem rd_raiseTtd_other (d : Dev) (b : Nat) {q : Reg} (h : q.ofs ≠ TTD_EVT.ofs) (hlow : q.ofs < 0xf00000) : rd (raiseTtd d b) q = rd d q :=
  rd_raiseEvt_other d evTTD b h (by simp only; omega) (by simp only; omega)

theorem fld_wrn_other (d : Dev) {r : Reg} {f : Fld} (n : Nat) (h : f.reg.ofs ≠ r.ofs) : fld (wrn d r n) f = fld d f :=
  fld_congr f (rd_wrn_other d n h)

/-! ### TIME_ANCHOR (R295 to R297) -/

theorem exec_timeAnchor (x : Line) (h : LmmHead) (a : AnchorBody) (s : State) :
    exec (.timeAnchor x h a) s = .next (s.withDev (timeAnchor x h a s.dev)) := rfl

section Anchor

variable {d : Dev} {x : Line} {h : LmmHead} {a : AnchorBody}

/-- An anchor of a frame without a stamp is rejected. -/
theorem timeAnchor_without_stamp (hf : forLine d x h = true) (hns : a.ns.toNat < nsPerSec) (hr : repeated d x h = false)
    (hst : stampOfFrame d x a.frame.toNat = none) : timeAnchor x h a d = executed (rejectAnchor d (TTD_Lx_NO_STAMP x.ix)) x h := by
  refine takeLmm_executed hf hr (by simpa using hns) (.inl (by decide)) (.inl rfl) ?_
  rw [hst]

/-- An anchor of a frame with a sound stamp meets the other checks. -/
theorem timeAnchor_with_stamp (hf : forLine d x h = true) (hns : a.ns.toNat < nsPerSec) (hr : repeated d x h = false) {st : FawStamp}
    (hst : stampOfFrame d x a.frame.toNat = some st) (hg : st.good = true) (ha : st.anchor = true) (hc : st.stamp.coarse = false) :
    timeAnchor x h a d = executed (checkAnchor d x h a st) x h := by
  refine takeLmm_executed hf hr (by simpa using hns) (.inl (by decide)) (.inl rfl) ?_
  rw [hst]
  simp [hg, ha, hc]

/-- An anchor that meets every check is accepted. -/
theorem checkAnchor_accepts {st : FawStamp} (hstep : ∀ t, d.kst.stepTick = some t → t < st.tick) (h1 : a.frame.toNat + 1 ≤ h.frame.toNat)
    (h2 : h.frame.toNat ≤ a.frame.toNat + 16) (he : d.anchored.get x = true → lastAnchor d x + 1024 ≤ a.frame.toNat)
    (hrng : bitOf (fld d (RNG_Lx_STATUS_RANGED x.ix)) (asymCh d x) = true) (hcal : flag d (RNG_Lx_STATUS_CAL_OK x.ix) = true) :
    checkAnchor d x h a st = acceptAnchor d x a st := by
  have hearly : ¬ (d.anchored.get x ∧ a.frame.toNat < lastAnchor d x + 1024) := fun hx => absurd (he hx.1) (Nat.not_le.mpr hx.2)
  have hlate : ¬ (h.frame.toNat < a.frame.toNat + 1 ∨ a.frame.toNat + 16 < h.frame.toNat) := by omega
  unfold checkAnchor
  cases ht : d.kst.stepTick with
  | none => simp only [hlate, hearly, hrng, hcal, Bool.false_eq_true, if_false, Bool.not_true, if_true]
  | some t =>
    have hlt : decide (st.tick ≤ t) = false := by simpa using hstep t ht
    simp only [hlt, hlate, hearly, hrng, hcal, Bool.false_eq_true, if_false, Bool.not_true, if_true]

/-- The device with the dataset and the delays of an accepted anchor, before its registers are written. -/
def anchorTaken (d : Dev) (x : Line) (a : AnchorBody) : Dev :=
  { d with
    anchorSet := d.anchorSet.set x { flags := a.flags, gmClass := a.gmClass, utc := a.utc, accuracy := a.accuracy, steps := a.steps,
                                     variance := a.variance, identity := a.identity },
    anchored := d.anchored.set x true, eqrt := d.eqrt.set x a.eqrt.toNat,
    ttd := { d.ttd with dds := d.ttd.dds.set x (downDelay d x a.eqrt.toNat) } }

/-- The registers of an accepted anchor with its delay, its frame, its offset and its dataset (R297). -/
def anchorShown (d : Dev) (x : Line) (a : AnchorBody) (dds x16 : Int) : Dev :=
  let d := wrn (count d (TTD_Lx_ANCHOR_OK x.ix)) (TTD_Lx_DDS x.ix) (ofSigned 32 (nearest dds 320000))
  let d := setFld (wrn d (TTD_Lx_LAST_N_LO x.ix) a.frame.toNat) (TTD_Lx_LAST_N_HI_VALUE x.ix) (a.frame.toNat / 0x100000000)
  let d := wrn d (TTD_Lx_LAST_OFS x.ix) (ofSigned 32 (nearest x16 256))
  setFld (setFld (setFld d (TTD_Lx_DATASET_UTC_OFFSET x.ix) a.utc.toNat) (TTD_Lx_DATASET_GM_CLASS x.ix) a.gmClass.toNat)
    (TTD_Lx_DATASET_FLAGS x.ix) a.flags.toNat

theorem acceptAnchor_eq (d : Dev) (x : Line) (a : AnchorBody) (st : FawStamp) :
    ∃ (x16 : Int) (o : Offset), acceptAnchor d x a st = deliverOffset (anchorShown (anchorTaken d x a) x a (downDelay d x a.eqrt.toNat) x16) x o :=
  ⟨_, _, rfl⟩

theorem anchorShown_keeps (d : Dev) (x : Line) (a : AnchorBody) (dds x16 : Int) : keepsState d (anchorShown d x a dds x16) :=
  ((((((((keepsState.refl d).count _).wrn _ _).wrn _ _).setFld _ _).wrn _ _).setFld _ _).setFld _ _).setFld _ _

/-- The frame of the anchor shown last is the accepted anchor's, whole. -/
theorem lastAnchor_anchorShown (d : Dev) (x : Line) (a : AnchorBody) (dds x16 : Int) :
    lastAnchor (anchorShown d x a dds x16) x = a.frame.toNat := by
  have hlt := a.frame.isLt
  have hlo : rdn (anchorShown d x a dds x16) (TTD_Lx_LAST_N_LO x.ix) = a.frame.toNat % 2 ^ 32 := by
    unfold anchorShown
    rw [rdn, rd_setFld_other _ _ (by simp), rd_setFld_other _ _ (by simp), rd_setFld_other _ _ (by simp), rd_wrn_other _ _ (by simp),
      rd_setFld_other _ _ (by simp), rd_wrn_same, BitVec.toNat_ofNat]
  have hhi : fld (anchorShown d x a dds x16) (TTD_Lx_LAST_N_HI_VALUE x.ix) = a.frame.toNat / 0x100000000 % 2 ^ 16 := by
    unfold anchorShown
    rw [fld_setFld_reg _ _ (by simp), fld_setFld_reg _ _ (by simp), fld_setFld_reg _ _ (by simp), fld_wrn_other _ _ (by simp),
      fld_setFld_same _ _ (by simp) (by simp)]
    rfl
  rw [lastAnchor, hlo, hhi]
  omega

theorem lastAnchor_executed (d : Dev) (x : Line) (h : LmmHead) : lastAnchor (executed d x h) x = lastAnchor d x := by
  obtain ⟨g, e⟩ := executed_touches d x h
  have hr : (executed d x h).regs = d.regs := by rw [e]
  rw [lastAnchor, lastAnchor, rdn_congr hr, fld_congr (TTD_Lx_LAST_N_HI_VALUE x.ix) (congrArg (sget _ · _) hr)]

theorem deliverOffset_touches (d : Dev) (x : Line) (o : Offset) : ∃ k, deliverOffset d x o = { d with kst := k } := ⟨_, rfl⟩

theorem lastAnchor_deliverOffset (d : Dev) (x : Line) (o : Offset) : lastAnchor (deliverOffset d x o) x = lastAnchor d x := by
  obtain ⟨k, e⟩ := deliverOffset_touches d x o
  have hr : (deliverOffset d x o).regs = d.regs := by rw [e]
  rw [lastAnchor, lastAnchor, rdn_congr hr, fld_congr (TTD_Lx_LAST_N_HI_VALUE x.ix) (congrArg (sget _ · _) hr)]

/-- What an accepted anchor leaves once it is recorded: the delay of its line is its own, and device time is as it was. -/
theorem acceptAnchor_executed (d : Dev) (x : Line) (h : LmmHead) (a : AnchorBody) (st : FawStamp) :
    lastAnchor (executed (acceptAnchor d x a st) x h) x = a.frame.toNat ∧ (executed (acceptAnchor d x a st) x h).clock = d.clock
      ∧ (executed (acceptAnchor d x a st) x h).ttd.dds.get x = downDelay d x a.eqrt.toNat := by
  obtain ⟨x16, o, e⟩ := acceptAnchor_eq d x a st
  have hk := anchorShown_keeps (anchorTaken d x a) x a (downDelay d x a.eqrt.toNat) x16
  have hc : (anchorTaken d x a).clock = d.clock := rfl
  have hd : (anchorTaken d x a).ttd.dds.get x = downDelay d x a.eqrt.toNat := PerLine.get_set_same _ _ _
  obtain ⟨k, ek⟩ := deliverOffset_touches (anchorShown (anchorTaken d x a) x a (downDelay d x a.eqrt.toNat) x16) x o
  obtain ⟨g, ex⟩ := executed_touches (acceptAnchor d x a st) x h
  refine ⟨?_, ?_, ?_⟩
  · rw [lastAnchor_executed, e, lastAnchor_deliverOffset, lastAnchor_anchorShown]
  · rw [ex, e, ek]
    dsimp only
    rw [hk.clock, hc]
  · rw [ex, e, ek]
    dsimp only
    rw [hk.ttd, hd]

end Anchor

end Sys2Proof.Machine
end

section
/-!
PROOFS. The messages of a port's own clock: Sync, Announce and Delay_Resp (R301 to R304).
-/

namespace Sys2Proof.Machine

theorem exec_syncPlace (p : Fin 64) (s : State) : exec (.syncPlace p) s = .next (s.withDev (syncPlace p s.dev)) := rfl

theorem exec_announceSend (p : Fin 64) (s : State) : exec (.announceSend p) s = .next (s.withDev (announceSend p s.dev)) := rfl

theorem exec_ptpMsgRx (s : State) : exec .ptpMsgRx s = .next (s.withDev (ptpMsgRx s.dev)) := rfl

/-! ### SYNC_PLACE (R302) -/

theorem syncPlace_of_silent {p : Fin 64} {d : Dev} (h : portSpeaks d p = false) : syncPlace p d = d := by simp [syncPlace, h]

/-- The launch instant of a port is recorded as handled. -/
def syncMarked (d : Dev) (p : Fin 64) (t : Nat) : Dev :=
  setTtd d (fun h => { h with syncs := (p.val, d.kst.steps, t) :: h.syncs.filter (fun e => e.1 != p.val) })

/-- The Sync of a launch instant. -/
def syncFrame (d : Dev) (p : Fin 64) (t : Nat) : BufFrame :=
  ownFrame d p (fld d TTD_PTP_CFG_TRANSPORT) true
    (ptpMessage d p 0 0 0 0 (logByte (fldA d (TTD_PORTp_CFG_LOG_SYNC p))) (ptpTime t)) (some t)

/-- A launch instant at most 20 µs ahead, not yet handled, of a port that speaks. -/
structure syncDue (d : Dev) (p : Fin 64) (t : Nat) : Prop where
  instant : t = nextInstant (logInterval (fldA d (TTD_PORTp_CFG_LOG_SYNC p))) (now d)
  speaks : portSpeaks d p = true
  powered : domainOn d (2 + p / 4) = true
  near : t ≤ now d + 20000
  fresh : d.ttd.syncs.find? (fun e => e.1 == p.val) = none
  free : syncWaits d p = none

/-- The Sync of a port joins the Sync class queue. -/
def syncQueued (d : Dev) (p : Fin 64) (t : Nat) : Dev :=
  afterChange (putQueue (syncMarked d p t) (syncQueue d p) (queueOf d (syncQueue d p) ++ [syncFrame d p t])) (syncFrame d p t)

theorem syncPlace_due {d : Dev} {p : Fin 64} {t : Nat} (h : syncDue d p t) : syncPlace p d
    = if txHold d p || macHolds d p (fldA d (TTD_PORTp_CFG_SYNC_CLASS p)) then
        raiseTtd (count (syncMarked d p t) (TTD_PORTp_SYNC_SKIP p)) tdSyncSkip
      else syncQueued d p t := by
  have hn := Nat.not_lt.mpr h.near
  unfold syncPlace
  rw [← h.instant]
  simp only [h.fresh, h.speaks, h.powered, h.free, hn]
  rfl

theorem syncPlace_queues {d : Dev} {p : Fin 64} {t : Nat} (h : syncDue d p t)
    (hn : (txHold d p || macHolds d p (fldA d (TTD_PORTp_CFG_SYNC_CLASS p))) = false) :
    queueOf (syncPlace p d) (syncQueue d p) = queueOf d (syncQueue d p) ++ [syncFrame d p t] := by
  rw [syncPlace_due h, hn, if_neg (by decide), syncQueued, queueOf_congr (afterChange_queues _ _), queueOf_putQueue_same]

theorem launch_syncFrame (d : Dev) (p : Fin 64) (t : Nat) : (syncFrame d p t).launch = some t := rfl

theorem syncPlace_skips {d : Dev} {p : Fin 64} {t : Nat} (h : syncDue d p t) (hh : txHold d p = true) :
    (syncPlace p d).queues = d.queues
      ∧ rdn (syncPlace p d) (TTD_PORTp_SYNC_SKIP p) = min (rdn d (TTD_PORTp_SYNC_SKIP p) + 1) 0xFFFFFFFF := by
  have hk : keepsState (syncMarked d p t) (syncPlace p d) := by
    rw [syncPlace_due h, hh, Bool.true_or, if_pos rfl]
    exact ((keepsState.refl _).count _).raiseTtd _
  refine ⟨hk.queues, ?_⟩
  rw [syncPlace_due h, hh, Bool.true_or, if_pos rfl, rdn, rd_raiseTtd_other _ _ (by simp only; omega) (by simp only; omega)]
  exact rdn_count_same _ _

/-! ### ANNOUNCE_SEND (R301) -/

theorem announceSend_of_silent {p : Fin 64} {d : Dev} (h : portSpeaks d p = false) : announceSend p d = d := by simp [announceSend, h]

/-- A message of a port's own is offered to its Sync class queue and changes the register words and the sequence numbers alone. -/
theorem sendOwn_offers (d : Dev) (p : Nat) (f : BufFrame) (hf : f.launch = none) :
    ∃ o : TmOffer, (sendOwn d p f).pkt.offers = d.pkt.offers ++ [o] ∧ o.queue = syncQueue d p ∧ o.frame.launch = none :=
  ⟨_, rfl, rfl, hf⟩

/-- The Announce instant of a port is recorded as handled, and the message's sequence number is taken. -/
def announceMarked (d : Dev) (p : Fin 64) : Dev :=
  count (takeSeq (setTtd d (fun h => { h with anns := (p.val, d.elapsed) :: h.anns.filter (fun e => e.1 != p.val) })) p 0xB).1
    (TTD_PORTp_ANN_TX p)

theorem announceMarked_keeps (d : Dev) (p : Fin 64) : (announceMarked d p).pkt = d.pkt ∧ (announceMarked d p).applied = d.applied := ⟨rfl, rfl⟩

theorem syncQueue_congr {d e : Dev} (h : e.applied = d.applied) (p : Nat) : syncQueue e p = syncQueue d p := by
  rw [syncQueue, syncQueue, fldA, rdA, h, fldA, rdA]

theorem announceSend_due {d : Dev} {p : Fin 64} {i : Nat} (hi : i = logInterval (fldA d (TTD_PORTp_CFG_LOG_ANN p)))
    (hp : portSpeaks d p = true) (ht : inThisTick d (nextInstant i (now d) - min i nsPerSec) = true) (ha : d.ttd.anns = []) :
    ∃ f : BufFrame, announceSend p d = sendOwn (announceMarked d p) p f ∧ f.launch = none := by
  have hlast : (if i < nsPerSec then nextInstant i (now d) - i else nextInstant i (now d) - nsPerSec)
      = nextInstant i (now d) - min i nsPerSec := by
    split
    · next hlt => rw [min_eq_left (Nat.le_of_lt hlt)]
    · next hge => rw [min_eq_right (Nat.not_lt.mp hge)]
  unfold announceSend
  dsimp only
  rw [← hi, hlast, ht, hp, ha]
  exact ⟨_, rfl, rfl⟩

/-- An Announce that is due is offered to the Sync class queue. -/
theorem announceSend_offers {d : Dev} {p : Fin 64} {i : Nat} (hi : i = logInterval (fldA d (TTD_PORTp_CFG_LOG_ANN p)))
    (hp : portSpeaks d p = true) (ht : inThisTick d (nextInstant i (now d) - min i nsPerSec) = true) (ha : d.ttd.anns = []) :
    ∃ o : TmOffer, (announceSend p d).pkt.offers = d.pkt.offers ++ [o] ∧ o.queue = syncQueue d p ∧ o.frame.launch = none := by
  obtain ⟨f, e, hf⟩ := announceSend_due hi hp ht ha
  obtain ⟨hpkt, happ⟩ := announceMarked_keeps d p
  obtain ⟨o, ho, hq, hl⟩ := sendOwn_offers (announceMarked d p) p f hf
  exact ⟨o, by rw [e, ho, hpkt], by rw [hq, syncQueue_congr happ], hl⟩

/-! ### PTP_MSG_RX (R303) -/

section Message

variable {d d0 : Dev} {p : Fin 64} {ring o ty : Nat} {c : ClsFrame} {rest : List (Nat × Nat × ClsFrame)}

/-- What the port's own clock does with a message that keeps the rules of R303. -/
def messageTaken (d : Dev) (p : Fin 64) (ring o ty : Nat) (c : ClsFrame) : Dev :=
  if ty = 1 then
    let d := count d (TTD_PORTp_DREQ_RX p)
    if portSpeaks d p then delayResp d p c o else d
  else if ty = 0 ∨ ty = 8 ∨ ty = 9 ∨ ty = 0xB then count d (TTD_PORTp_FOREIGN p)
  else if ty = 0xC ∨ ty = 0xD then offerHost d ring (hostFrame c.frame c.parse 0 0xFFFFF false)
  else count d (TTD_PORTp_PTP_BAD p)

/-- The oldest message leaves the port's queue; one that breaks a rule is counted. -/
theorem ptpMsgRx_eq (hin : d0.pkt.ptpIn = (p.val, ring, c) :: rest) (ho : c.parse.ptp = some o)
    (hd : d = setPkt d0 (fun k => { k with ptpIn := rest })) (hty : ty = ptpType c.frame.bytes o) : ptpMsgRx d0
      = if byteAt c.frame.bytes (o + 1) % 16 ≠ 2 ∨ byteAt c.frame.bytes (o + 4) ≠ fld d TTD_PTP_CFG_DOMAIN
          ∨ beNat (slice c.frame.bytes (o + 2) 2) < ptpLength ty then count d (TTD_PORTp_PTP_BAD p)
        else messageTaken d p ring o ty c := by
  subst hty hd
  unfold ptpMsgRx
  rw [hin]
  simp only [ho]
  rfl

theorem ptpMsgRx_sound (hin : d0.pkt.ptpIn = (p.val, ring, c) :: rest) (ho : c.parse.ptp = some o)
    (hd : d = setPkt d0 (fun k => { k with ptpIn := rest })) (hty : ty = ptpType c.frame.bytes o)
    (hv : byteAt c.frame.bytes (o + 1) % 16 = 2) (hdom : byteAt c.frame.bytes (o + 4) = fld d0 TTD_PTP_CFG_DOMAIN)
    (hlen : ptpLength ty ≤ beNat (slice c.frame.bytes (o + 2) 2)) : ptpMsgRx d0 = messageTaken d p ring o ty c := by
  have hf : fld d TTD_PTP_CFG_DOMAIN = fld d0 TTD_PTP_CFG_DOMAIN := by rw [hd]; rfl
  have hn := Nat.not_lt.mpr hlen
  rw [ptpMsgRx_eq hin ho hd hty, if_neg (by rw [hf, ← hdom]; simp [hv, hn])]

theorem portSpeaks_congr {d e : Dev} (ha : e.applied = d.applied) (hr : ∀ q : Reg, q.ofs < 0x301000 → rd e q = rd d q) (p : Nat) :
    portSpeaks e p = portSpeaks d p := by
  have h1 : fld e KST_STATUS_SERVO_STATE = fld d KST_STATUS_SERVO_STATE := fld_congr _ (hr _ (by decide))
  have h2 : clockId e = clockId d := by rw [clockId, clockId, rdPair, rdPair, rdn, rdn, rdn, rdn, hr _ (by decide), hr _ (by decide)]
  rw [portSpeaks, portSpeaks, portMode, portMode, fldA, fldA, rdA, rdA, ha, servo, servo, h1, h2]

/-- A Delay_Req is counted, and its answer is offered and counted. -/
theorem delayResp_offers (d : Dev) (p : Fin 64) (c : ClsFrame) (o : Nat) :
    ∃ q : TmOffer, (delayResp d p c o).pkt.offers = d.pkt.offers ++ [q] ∧ q.queue = syncQueue d p
      ∧ (delayResp d p c o).regs = (count d (TTD_PORTp_DRESP_TX p)).regs := by
  unfold delayResp
  exact ⟨_, rfl, rfl, rfl⟩

/-- A Delay_Req to a port that speaks. -/
theorem messageTaken_delayReq (hd : d = setPkt d0 (fun k => { k with ptpIn := rest })) (hp : portSpeaks d0 p = true) (hty : ty = 1) :
    ∃ q : TmOffer, (messageTaken d p ring o ty c).pkt.offers = d0.pkt.offers ++ [q] ∧ q.queue = syncQueue d0 p
      ∧ rdn (messageTaken d p ring o ty c) (TTD_PORTp_DREQ_RX p) = min (rdn d0 (TTD_PORTp_DREQ_RX p) + 1) 0xFFFFFFFF
      ∧ rdn (messageTaken d p ring o ty c) (TTD_PORTp_DRESP_TX p) = min (rdn d0 (TTD_PORTp_DRESP_TX p) + 1) 0xFFFFFFFF := by
  have hp' : portSpeaks (count d (TTD_PORTp_DREQ_RX p)) p = true := by
    rw [portSpeaks_congr (d := d0) (by rw [hd]; rfl) (fun q hq => ?_), hp]
    rw [rd_count_other d (by simp only; omega), hd, rd_setPkt]
  have hm : messageTaken d p ring o ty c = delayResp (count d (TTD_PORTp_DREQ_RX p)) p c o := by
    rw [messageTaken, if_pos hty]
    exact if_pos hp'
  obtain ⟨q, hq, hqueue, hregs⟩ := delayResp_offers (count d (TTD_PORTp_DREQ_RX p)) p c o
  have hoffers : (count d (TTD_PORTp_DREQ_RX p)).pkt.offers = d0.pkt.offers := by rw [hd]; rfl
  have happ : (count d (TTD_PORTp_DREQ_RX p)).applied = d0.applied := by rw [hd]; rfl
  have hrd : ∀ r : Reg, rdn d r = rdn d0 r := fun r => by rw [hd, rdn, rd_setPkt, rdn]
  refine ⟨q, by rw [hm, hq, hoffers], by rw [hqueue, syncQueue_congr happ], ?_, ?_⟩
  · rw [hm, rdn_congr hregs, rdn_count_other _ (by simp), rdn_count_same, hrd]
  · rw [hm, rdn_congr hregs, rdn_count_same, rdn_count_other _ (by simp), hrd]

end Message

/-- What PTP_MSG_RX does with each message for a port's own clock. -/
theorem ptpMsgRx_answers (s : State) (p : Fin 64) (ring o : Nat) (c : ClsFrame) (rest : List (Nat × Nat × ClsFrame))
    (hin : s.dev.pkt.ptpIn = (p.val, ring, c) :: rest) (ho : c.parse.ptp = some o) (d : Dev)
    (hd : d = setPkt s.dev (fun k => { k with ptpIn := rest })) (ty : Nat) (hty : ty = ptpType c.frame.bytes o) :
    (byteAt c.frame.bytes (o + 1) % 16 ≠ 2 → exec .ptpMsgRx s = .next (s.withDev (count d (TTD_PORTp_PTP_BAD p))))
    ∧ (byteAt c.frame.bytes (o + 1) % 16 = 2 → byteAt c.frame.bytes (o + 4) = fld s.dev TTD_PTP_CFG_DOMAIN →
        ptpLength ty ≤ beNat (slice c.frame.bytes (o + 2) 2) →
      ((ty = 0 ∨ ty = 8 ∨ ty = 9 ∨ ty = 0xB) → exec .ptpMsgRx s = .next (s.withDev (count d (TTD_PORTp_FOREIGN p))))
      ∧ ((ty = 2 ∨ ty = 3 ∨ ty = 0xA) → exec .ptpMsgRx s = .next (s.withDev (count d (TTD_PORTp_PTP_BAD p))))
      ∧ (ty = 1 → portSpeaks s.dev p = true → ∃ (d' : Dev) (q : TmOffer), exec .ptpMsgRx s = .next (s.withDev d')
          ∧ d'.pkt.offers = s.dev.pkt.offers ++ [q] ∧ q.queue = syncQueue s.dev p
          ∧ rdn d' (TTD_PORTp_DREQ_RX p) = min (rdn s.dev (TTD_PORTp_DREQ_RX p) + 1) 0xFFFFFFFF
          ∧ rdn d' (TTD_PORTp_DRESP_TX p) = min (rdn s.dev (TTD_PORTp_DRESP_TX p) + 1) 0xFFFFFFFF)) := by
  refine ⟨fun hv => ?_, fun hv hdom hlen => ⟨fun ht => ?_, fun ht => ?_, fun ht hp => ?_⟩⟩
  · rw [exec_ptpMsgRx, ptpMsgRx_eq hin ho hd hty, if_pos (.inl hv)]
  · rw [exec_ptpMsgRx, ptpMsgRx_sound hin ho hd hty hv hdom hlen, messageTaken, if_neg (by omega), if_pos ht]
  · rw [exec_ptpMsgRx, ptpMsgRx_sound hin ho hd hty hv hdom hlen, messageTaken, if_neg (by omega), if_neg (by omega), if_neg (by omega)]
  · obtain ⟨q, h⟩ := messageTaken_delayReq (ring := ring) (o := o) (c := c) hd hp ht
    exact ⟨_, q, by rw [exec_ptpMsgRx, ptpMsgRx_sound hin ho hd hty hv hdom hlen], h⟩

end Sys2Proof.Machine
end

section
/-!
PROOFS. Pulse return and event inputs (R307 to R309).
-/

namespace Sys2Proof.Machine

theorem exec_prWindowOpen (i : Fin 64) (s : State) : exec (.prWindowOpen i) s = .next (s.withDev (prWindowOpen i s.dev)) := rfl

theorem exec_prEdge (i : Fin 64) (falling : Bool) (hold bins : Nat) (s : State) :
    exec (.prEdge i falling hold bins) s = .next (s.withDev (prEdge i falling hold bins s.dev)) := rfl

theorem exec_prWindowClose (i : Fin 64) (s : State) : exec (.prWindowClose i) s = .next (s.withDev (prWindowClose i s.dev)) := rfl

theorem exec_tevEdge (e : Fin 4) (falling : Bool) (hold bins : Nat) (s : State) :
    exec (.tevEdge e falling hold bins) s = .next (s.withDev (tevEdge e falling hold bins s.dev)) := rfl

theorem exec_tevSecHiRead (m : Master) (e : Fin 4) (s : State) : exec (.tevSecHiRead m e) s = .next (s.withDev (tevSecHiRead m e s.dev)) := rfl

/-! ### The windows of the pulse inputs (R307, R308) -/

theorem assocGet_assocSet {α : Type} (l : List (Nat × α)) (k : Nat) (v : α) : assocGet (assocSet l k v) k = some v := by
  simp [assocGet, assocSet]

theorem assocGet_without {α : Type} (l : List (Nat × α)) (k : Nat) : assocGet (l.filter (fun e => e.1 != k)) k = none := by
  simp [assocGet, List.find?_filter]

theorem prWindow_setWindows_set (d : Dev) (i : Fin 64) (w : PrWindow) : prWindow (setWindows d (fun l => assocSet l i.val w)) i = some w :=
  assocGet_assocSet _ _ _

theorem prWindow_setWindows_without (d : Dev) (i : Fin 64) : prWindow (setWindows d (fun l => l.filter (fun e => e.1 != i.val))) i = none :=
  assocGet_without _ _

theorem rd_setWindows (d : Dev) (f : List (Nat × PrWindow) → List (Nat × PrWindow)) (q : Reg) : rd (setWindows d f) q = rd d q := rfl

theorem ofSigned_lt (n : Nat) (z : Int) : ofSigned n z < 2 ^ n := by
  have hp : (0 : Int) < ((2 ^ n : Nat) : Int) := by exact_mod_cast Nat.two_pow_pos n
  have h0 := Int.emod_nonneg z (Int.ne_of_gt hp)
  have h1 := Int.emod_lt_of_pos z hp
  rw [ofSigned]
  omega

/-- The window of the next second boundary is opened, and its input armed. -/
theorem prWindowOpen_opens {i : Fin 64} {d : Dev} {sec : Nat} (he : flag d (TTD_PRn_CFG_EN i) = true) (hw : prWindow d i = none)
    (hs : sec = (now d + prWin d + 1000) / nsPerSec) (hn : now d < sec * nsPerSec + prWin d) :
    prWindowOpen i d
      = setWindows (setFlag d (KST_TDC_CAL_ARMED i) true) (fun w => assocSet w i.val { sec := sec, steps := d.kst.steps, err := none }) := by
  have hn' := Nat.not_le.mpr hn
  unfold prWindowOpen
  rw [← hs]
  simp only [he, hw, hn', decide_false, Option.isSome_none, Bool.not_true, Bool.or_false, Bool.false_eq_true, if_false]

/-- An edge within an open window. -/
theorem prEdge_within {i : Fin 64} {falling : Bool} {hold bins : Nat} {d : Dev} {w : PrWindow} (he : flag d (TTD_PRn_CFG_EN i) = true)
    (hw : prWindow d i = some w) (hc : edgeCounts (flag d (TTD_PRn_CFG_POL i)) falling hold = true) (hk : flag d (TTD_PRn_CFG_WAKE i) = false)
    (hin : inWindow d w (stampOf d i bins) = true) : prEdge i falling hold bins d
      = if w.err.isSome then countFld d (TTD_PRn_STATUS_EXTRA i)
        else setWindows d (fun l => assocSet l i.val { w with err := some (prError d i w.sec (stampOf d i bins)) }) := by
  unfold prEdge
  simp [he, hw, hc, hk, hin]

/-- What PR_WINDOW_CLOSE leaves of a report while it judges it: TTD's own state, the words of the input but its status, and RESULT. -/
structure keepsReport (i : Fin 64) (d e : Dev) : Prop where
  ttd : e.ttd = d.ttd
  words : ∀ q : Reg, 0x302000 ≤ q.ofs → q.ofs < 0x303000 → q.ofs ≠ (TTD_PRn_STATUS i).ofs → rd e q = rd d q
  result : fld e (TTD_PRn_STATUS_RESULT i) = fld d (TTD_PRn_STATUS_RESULT i)

theorem keepsReport.refl (i : Fin 64) (d : Dev) : keepsReport i d d := ⟨rfl, fun _ _ _ _ => rfl, rfl⟩

theorem keepsReport.setFld {i : Fin 64} {d e : Dev} (h : keepsReport i d e) {f : Fld} (hf : apart (TTD_PRn_STATUS_RESULT i) f) (v : Nat) :
    keepsReport i d (setFld e f v) := by
  refine ⟨h.ttd, fun q h1 h2 h3 => ?_, (fld_setFld_apart e v hf).trans h.result⟩
  rw [rd_setFld_other _ _ (by rw [← hf.1]; exact h3), h.words q h1 h2 h3]

theorem keepsReport.raiseTtd {i : Fin 64} {d e : Dev} (h : keepsReport i d e) (b : Nat) : keepsReport i d (raiseTtd e b) := by
  refine ⟨((keepsState.refl e).raiseTtd b).ttd.trans h.ttd, fun q h1 h2 h3 => ?_, ?_⟩
  · rw [rd_raiseTtd_other _ _ (by simp only; omega) (by omega), h.words q h1 h2 h3]
  · rw [← h.result]
    exact fld_congr _ (rd_raiseTtd_other _ _ (by simp only; omega) (by simp only; omega))

/-- The alarm of an input and its run of missing edges follow the result; the report stays. -/
theorem prAlarms_keeps (d : Dev) (i : Fin 64) (res : Nat) (stepped : Bool) : keepsReport i d (prAlarms d i res stepped) := by
  have hr := keepsReport.refl i d
  have hm : apart (TTD_PRn_STATUS_RESULT i) (TTD_PRn_STATUS_MISS_RUN i) := by simp [apart]
  have ha : apart (TTD_PRn_STATUS_RESULT i) (TTD_PRn_STATUS_ALARM i) := by simp [apart]
  have hc : keepsReport i d (countFld d (TTD_PRn_STATUS_MISS_RUN i)) := hr.setFld hm _
  unfold prAlarms
  split
  · dsimp only
    split
    · exact hr.setFld hm 0
    · exact (hr.setFld hm 0).setFld ha _
  split
  · split
    · exact hr
    · exact (hr.setFld ha _).raiseTtd _
  split
  · dsimp only
    split
    · exact hc
    split
    · split
      · exact (hc.raiseTtd _).setFld ha _
      · exact hc.setFld ha _
    · split
      · exact hc.raiseTtd _
      · exact hc
  · exact hr

/-- The window of an input is closed and its input is no longer armed. -/
def windowClosed (d : Dev) (i : Fin 64) : Dev :=
  setWindows (setFlag d (KST_TDC_CAL_ARMED i) false) (fun l => l.filter (fun e => e.1 != i.val))

/-- The report of a window that is over (R308). -/
def reportShown (d : Dev) (i : Fin 64) (w : PrWindow) (res : Nat) (stepped : Bool) : Dev :=
  setFlag (setFld (wrn (wrn (prErrWord d w).1 (TTD_PRn_ERR i) (prErrWord d w).2) (TTD_PRn_SEC i) w.sec) (TTD_PRn_STATUS_RESULT i) res)
    (TTD_PRn_STATUS_STEPPED i) stepped

theorem prWindowClose_past {i : Fin 64} {d : Dev} {w : PrWindow} (hw : prWindow d i = some w)
    (hp : w.sec * nsPerSec + prWin d ≤ now d) : prWindowClose i d
      = prAlarms (reportShown (windowClosed d i) i w (prResult (windowClosed d i) i w) (w.steps != d.kst.steps)) i
          (prResult (windowClosed d i) i w) (w.steps != d.kst.steps) := by
  have hpast : decide (w.sec * nsPerSec + prWin d ≤ now d) = true := decide_eq_true hp
  unfold prWindowClose
  rw [hw]
  dsimp only
  rw [hpast, if_neg (by simp)]
  rfl

theorem prErrWord_keeps (d : Dev) (w : PrWindow) : keepsState d (prErrWord d w).1 ∧ (prErrWord d w).1.regs = d.regs := by
  unfold prErrWord
  split
  · exact ⟨.refl d, rfl⟩
  · exact ⟨⟨d.regs, d.msixPending, d.out, _, d.bst, rfl⟩, rfl⟩

theorem reportShown_ttd (d : Dev) (i : Fin 64) (w : PrWindow) (res : Nat) (stepped : Bool) : (reportShown d i w res stepped).ttd = d.ttd :=
  (((((prErrWord_keeps d w).1.wrn _ _).wrn _ _).setFld _ _).setFlag _ _).ttd

theorem rdn_reportShown_sec (d : Dev) (i : Fin 64) (w : PrWindow) (res : Nat) (stepped : Bool) :
    rdn (reportShown d i w res stepped) (TTD_PRn_SEC i) = w.sec % 2 ^ 32 := by
  rw [reportShown, rdn, rd_setFlag_other _ _ (by simp), rd_setFld_other _ _ (by simp), rd_wrn_same, BitVec.toNat_ofNat]

theorem rdn_reportShown_err (d : Dev) (i : Fin 64) (w : PrWindow) (res : Nat) (stepped : Bool) :
    rdn (reportShown d i w res stepped) (TTD_PRn_ERR i) = (prErrWord d w).2 % 2 ^ 32 := by
  rw [reportShown, rdn, rd_setFlag_other _ _ (by simp), rd_setFld_other _ _ (by simp), rd_wrn_other _ _ (by simp), rd_wrn_same,
    BitVec.toNat_ofNat]

theorem fld_reportShown_result (d : Dev) (i : Fin 64) (w : PrWindow) (res : Nat) (stepped : Bool) :
    fld (reportShown d i w res stepped) (TTD_PRn_STATUS_RESULT i) = res % 4 := by
  rw [reportShown, fld_setFlag_apart _ _ (by simp [apart]), fld_setFld_same _ _ (by simp) (by simp)]
  rfl

theorem prResult_windowClosed {d : Dev} {i : Fin 64} (he : flag d (TTD_PRn_CFG_EN i) = true) (w : PrWindow) :
    prResult (windowClosed d i) i w = match w.err with
      | none => 3
      | some e => if (e.natAbs : Int) ≤ ((fld d TTD_PR_CFG_SERVER_LIM * 65536 : Nat) : Int) then 1 else 2 := by
  have hw : ∀ q : Reg, 0x300000 ≤ q.ofs → rd (windowClosed d i) q = rd d q := fun q hq => by
    rw [windowClosed, rd_setWindows, rd_setFlag_other _ _ (by simp only; omega)]
  rw [prResult, flag_congr _ (hw (TTD_PRn_CFG i) (by simp only; omega)), he, fld_congr _ (hw TTD_PR_CFG (by decide))]
  cases w.err <;> rfl

/-- What a window that is over leaves: no window, its second, its error and the result against the limit. -/
theorem prWindowClose_reports {i : Fin 64} {d : Dev} {w : PrWindow} (he : flag d (TTD_PRn_CFG_EN i) = true) (hw : prWindow d i = some w)
    (hp : w.sec * nsPerSec + prWin d ≤ now d) :
    prWindow (prWindowClose i d) i = none ∧ rdn (prWindowClose i d) (TTD_PRn_SEC i) = w.sec % 0x100000000
      ∧ (w.err = none → fld (prWindowClose i d) (TTD_PRn_STATUS_RESULT i) = 3)
      ∧ ∀ e : Int, w.err = some e → rdn (prWindowClose i d) (TTD_PRn_ERR i) = ofSigned 32 (nearest e 256)
          ∧ (fld (prWindowClose i d) (TTD_PRn_STATUS_RESULT i) = 1 ↔ e.natAbs ≤ fld d TTD_PR_CFG_SERVER_LIM * 65536) := by
  have hres := prResult_windowClosed he w
  rw [prWindowClose_past hw hp]
  generalize prResult (windowClosed d i) i w = res at hres ⊢
  generalize (w.steps != d.kst.steps) = stepped
  have hk := prAlarms_keeps (reportShown (windowClosed d i) i w res stepped) i res stepped
  have hfld := hk.result.trans (fld_reportShown_result _ i w res stepped)
  refine ⟨?_, ?_, fun hn => ?_, fun e hsome => ⟨?_, ?_⟩⟩
  · rw [prWindow, hk.ttd, reportShown_ttd]
    exact prWindow_setWindows_without _ i
  · rw [rdn, hk.words _ (by simp only; omega) (by simp only; omega) (by simp)]
    exact rdn_reportShown_sec _ i w res stepped
  · rw [hfld, hres, hn]
    rfl
  · rw [rdn, hk.words _ (by simp only; omega) (by simp only; omega) (by simp)]
    refine (rdn_reportShown_err _ i w res stepped).trans ?_
    rw [prErrWord, hsome]
    exact Nat.mod_eq_of_lt (ofSigned_lt 32 _)
  · rw [hfld, hres, hsome]
    dsimp only
    split
    · next hle => exact ⟨fun _ => by exact_mod_cast hle, fun _ => rfl⟩
    · next hgt => exact ⟨fun h => absurd h (by decide), fun h => absurd (by exact_mod_cast h) hgt⟩

/-! ### The event inputs (R309) -/

theorem tevHw_setTev (d : Dev) (e : Fin 4) (h : TevHw) : tevHw (setTev d e h) e = h := sget_sput_same _ _ _ _

/-- A counted edge on an enabled input that wakes nothing and follows no other within 100 ns. -/
theorem tevEdge_counts {e : Fin 4} {falling : Bool} {hold bins : Nat} {d : Dev} (he : flag d (TTD_TEVe_CFG_EN e) = true)
    (hc : edgeCounts (flag d (TTD_TEVe_CFG_POL e)) falling hold = true) (hk : flag d (TTD_TEVe_CFG_WAKE e) = false)
    (hl : (tevHw d e).last = none) : tevEdge e falling hold bins d
      = if 16 ≤ (tevHw d e).fifo.length then raiseTtd (countFld d (TTD_TEVe_STATUS_LOST e)) tdTevOvf
        else setTev d e { fifo := (tevHw d e).fifo ++ [stampOf d (64 + e) bins], last := some (edgeElapsed d (64 + e) bins) } := by
  unfold tevEdge
  simp [he, hc, hk, hl]

/-- The unit and the row of an event input's stamp register. -/
theorem unitOf_tevSecHi : ∀ e : Fin 4, ∃ i, unitOf (TTD_TEVe_SEC_HI e).ofs = some i ∧ (unitAt i).kind = 0x22
    ∧ ((rowAt (unitAt i) ((TTD_TEVe_SEC_HI e).ofs - (unitAt i).base)).map (·.ofs)).getD 0 = 0x3008
    ∧ ((TTD_TEVe_SEC_HI e).ofs - (unitAt i).base - 0x3000) / 0x20 = e := by
  have h : ∀ e : Fin 4, unitOf (TTD_TEVe_SEC_HI e).ofs = some 10 ∧ (unitAt 10).kind = 0x22
    ∧ ((rowAt (unitAt 10) ((TTD_TEVe_SEC_HI e).ofs - (unitAt 10).base)).map (·.ofs)).getD 0 = 0x3008
    ∧ ((TTD_TEVe_SEC_HI e).ofs - (unitAt 10).base - 0x3000) / 0x20 = e := by decide
  exact fun e => ⟨10, h e⟩

theorem readEffect_tevSecHi (d : Dev) (e : Fin 4) : (readEffect d (TTD_TEVe_SEC_HI e).ofs).1 = tevTake d e := by
  obtain ⟨i, hu, hkind, hrow, hidx⟩ := unitOf_tevSecHi e
  unfold readEffect
  rw [hu]
  dsimp only
  rw [if_pos ⟨hkind, hrow⟩, hidx]

/-- A read of an event input's stamp register by a master other than a function takes the oldest entry and answers. -/
theorem tevSecHiRead_takes {m : Master} (hm : 0x20 ≤ m) (e : Fin 4) (d : Dev) :
    ∃ w : Word, tevSecHiRead m e d = emit (tevTake d e) (.readData m (TTD_TEVe_SEC_HI e).ofs w) := by
  have hden : readDenied d m (TTD_TEVe_SEC_HI e).ofs = false := by simp [readDenied, hm]
  have hone : (List.range (((TTD_TEVe_SEC_HI e).ofs + 4 + 3) / 4 - (TTD_TEVe_SEC_HI e).ofs / 4)).map
      (fun k => 4 * ((TTD_TEVe_SEC_HI e).ofs / 4 + k)) = [(TTD_TEVe_SEC_HI e).ofs] := by
    have h : ∀ e : Fin 4, (List.range (((TTD_TEVe_SEC_HI e).ofs + 4 + 3) / 4 - (TTD_TEVe_SEC_HI e).ofs / 4)).map
      (fun k => 4 * ((TTD_TEVe_SEC_HI e).ofs / 4 + k)) = [(TTD_TEVe_SEC_HI e).ofs] := by decide
    exact h e
  refine ⟨(readEffect d (TTD_TEVe_SEC_HI e).ofs).2 &&& laneMask (TTD_TEVe_SEC_HI e).ofs (TTD_TEVe_SEC_HI e).ofs 4, ?_⟩
  have hlow : (decide (m < 0x20) && !hostReaches d) = false := by simp [hm]
  rw [tevSecHiRead, busRead, hlow, if_neg (by decide)]
  dsimp only
  rw [hone, forEach, List.foldl_cons, List.foldl_nil, readWord, hden, if_neg (by decide), ← readEffect_tevSecHi]

theorem tevTake_oldest {d : Dev} {e : Fin 4} {t : Stamp} {rest : List Stamp} (h : (tevHw d e).fifo = t :: rest) :
    (tevHw (tevTake d e) e).fifo = rest ∧ rdn (tevTake d e) (TTD_TEVe_SEC_LO e) = t.sec % 0x100000000 := by
  unfold tevTake
  rw [h]
  dsimp only
  constructor
  · exact congrArg TevHw.fifo (tevHw_setTev d e _)
  · rw [rdn_wrn_other _ _ (by simp), rdn_wrn_other _ _ (by simp), rdn_wrn_same]
    rfl

end Sys2Proof.Machine
end

section
/-!
PROOFS. Time outputs and neighbour comparison, and the obligation TimeIsCarried (R296 to R312, R391).
-/

namespace Sys2Proof.Machine

theorem exec_toutEdge (o : Fin 8) (s : State) : exec (.toutEdge o) s = .next (s.withDev (toutEdge o s.dev)) := rfl

theorem exec_timeReqSend (k : Fin 2) (s : State) : exec (.timeReqSend k) s = .next (s.withDev (timeReqSend k s.dev)) := rfl

theorem exec_timeReq (k : Fin 2) (sender : BitVec 64) (seq : BitVec 16) (turn : Nat) (s : State) :
    exec (.timeReq k sender seq turn) s = .next (s.withDev (timeReq k sender seq turn s.dev)) := rfl

theorem exec_nbTimeout (k : Fin 2) (s : State) : exec (.nbTimeout k) s = .next (s.withDev (nbTimeout k s.dev)) := rfl

theorem exec_timeResp (k : Fin 2) (sender : BitVec 64) (seq : BitVec 16) (t2s : BitVec 48) (t2 : BitVec 32) (t3s : BitVec 48) (t3 : BitVec 32)
    (s : State) : exec (.timeResp k sender seq t2s t2 t3s t3) s = .next (s.withDev (timeResp k sender seq t2s t2 t3s t3 s.dev)) := rfl

/-! ### TOUT_EDGE (R310) -/

theorem toutEdge_stopped (o : Fin 8) {d : Dev} (h : d.kst.refsRunning = false) : toutEdge o d = d := by simp [toutEdge, h]

/-- The start instant of an idle output lies in the present tick. -/
theorem toutEdge_starts {o : Fin 8} {d : Dev} {t : Nat} (hr : d.kst.refsRunning = true) (hp : (toutHw d o).pulse = none)
    (ht : toutInstant d o = some t) (hu : d.clock.units < t * 0x100000000 + rdPair d KST_FREQ_LO KST_FREQ_HI)
    (hs : d.kst.stepTick = none) (hl : (toutHw d o).last = none) (hw : 0 < toutWidth d o) : toutEdge o d = startPulse d o t := by
  have hw' : (toutWidth d o != 0) = true := by simp [Nat.ne_of_gt hw]
  unfold toutEdge
  rw [hr, if_neg (by decide)]
  dsimp only
  rw [hp]
  dsimp only
  rw [ht, hs, hl, hw']
  dsimp only
  rw [decide_eq_true hu]
  rfl

theorem toutHw_setTout (d : Dev) (o : Fin 8) (h : ToutHw) : toutHw (setTout d o h) o = h := sget_sput_same _ _ _ _

theorem toutHw_driveTout (d : Dev) (o : Fin 8) (level : Bool) (t : Nat) : toutHw (driveTout d o level t) o = toutHw d o := rfl

theorem startPulse_drives (d : Dev) (o : Fin 8) (t : Nat) : (toutHw (startPulse d o t) o).pulse.isSome = true
    ∧ (startPulse d o t).out = d.out ++ [.tout o (!toutPol d o) (toutPlace d o t)] := by
  refine ⟨?_, rfl⟩
  unfold startPulse
  dsimp only
  rw [toutHw_driveTout, toutHw_setTout]
  rfl

/-! ### Neighbour comparison (R312, R391) -/

theorem nbHw_setNb (d : Dev) (k : Fin 2) (h : NbHw) : nbHw (setNb d k h) k = h := sget_sput_same _ _ _ _

theorem nbHw_congr {d e : Dev} (h : e.ttd = d.ttd) (k : Nat) : nbHw e k = nbHw d k := by rw [nbHw, nbHw, h]

theorem sendPdu_up {d : Dev} {k type : Nat} {body : List Byte} (h : linkUp d k = true) : ∃ o, sendPdu d k type body = emit d o :=
  ⟨_, if_pos h⟩

theorem heard_keeps (d : Dev) (k : Nat) (sender : BitVec 64) : keepsState d (heard d k sender) := ((keepsState.refl d).wrn _ _).wrn _ _

theorem rd_heard (d : Dev) (k : Fin 2) (sender : BitVec 64) {q : Reg} (h : q.ofs < 0x1300054 ∨ q.ofs = 0x1300060) :
    rd (heard d k sender) q = rd d q := by
  rw [heard, rd_wrn_other _ _ (by simp only; omega), rd_wrn_other _ _ (by simp only; omega)]

theorem linkUp_heard (d : Dev) (k : Fin 2) (sender : BitVec 64) : linkUp (heard d k sender) k = linkUp d k :=
  flag_congr _ (rd_heard d k sender (by simp only; omega))

theorem nbOn_heard (d : Dev) (k : Fin 2) (sender : BitVec 64) : nbOn (heard d k sender) k = nbOn d k := by
  rw [nbOn, nbOn, linkUp_heard, flag_congr _ (rd_heard d k sender (by simp only; omega))]

theorem linkUp_of_nbOn {d : Dev} {k : Fin 2} (h : nbOn d k = true) : linkUp d k = true := by
  rw [nbOn, Bool.and_eq_true] at h
  exact h.2

/-- The request that opens an exchange is recorded with its stamp. -/
theorem timeReqSend_opens {k : Fin 2} {d : Dev} (hn : nbOn d k = true) (hs : (nbHw d k).sentAt = none) :
    (nbHw (timeReqSend k d) k).open' = some ((nbHw d k).seq, courseStamp (now d)) := by
  have hup : ∀ h, linkUp (setNb d k h) k = true := fun h => linkUp_of_nbOn hn
  unfold timeReqSend
  dsimp only
  rw [hs, hn]
  dsimp only
  rw [Bool.true_and, if_pos rfl]
  obtain ⟨o, e⟩ := sendPdu_up (type := 0x10) (body := beBytes 2 (nbHw d k).seq)
    (hup { nbHw d k with open' := some ((nbHw d k).seq, courseStamp (now d)), sentAt := some d.elapsed, seq := ((nbHw d k).seq + 1) % 0x10000 })
  rw [e]
  exact congrArg NbHw.open' (nbHw_setNb d k _)

/-- A request is answered. -/
theorem timeReq_answers {k : Fin 2} {d : Dev} (hn : nbOn d k = true) (hf : isFrozen d (courseMaster k) = false) (sender : BitVec 64)
    (seq : BitVec 16) (turn : Nat) : ∃ o, (timeReq k sender seq turn d).out = d.out ++ [o] := by
  have hup : linkUp (heard d k sender) k = true := (linkUp_heard d k sender).trans (linkUp_of_nbOn hn)
  obtain ⟨o, e⟩ := sendPdu_up (type := 0x11)
    (body := beBytes 2 seq.toNat ++ ptpTime (courseStamp (now d)) ++ ptpTime (courseStamp (now d + turn))) hup
  refine ⟨o, ?_⟩
  rw [timeReq, hf, if_neg (by decide), e]
  rfl

theorem nbTimeout_over {k : Fin 2} {d : Dev} {q : Nat × Nat} {at' : Nat} (ho : (nbHw d k).open' = some q) (hs : (nbHw d k).sentAt = some at')
    (ht : at' + ticksPerSec ≤ d.elapsed) :
    nbTimeout k d = setFlag (setNb d k { nbHw d k with open' := none }) (TTD_NBk_STATUS_VALID k) false := by
  unfold nbTimeout
  dsimp only
  rw [hs, ho]
  exact if_pos ⟨rfl, ht⟩

/-- The state of an exchange once its offset is known (R312). -/
def thetaCounted (d : Dev) (k : Nat) (theta : Int) : NbHw :=
  let far := decide (fld d TTD_NB_CFG_NB_LIM < theta.natAbs)
  { nbHw d k with open' := none, overRun := if far then (nbHw d k).overRun + 1 else 0, within := if far then 0 else (nbHw d k).within + 1 }

/-- The offset of an exchange is shown, and counted. -/
def thetaShown (d : Dev) (k : Nat) (theta : Int) : Dev :=
  countFld (setFlag (wrn (setNb d k (thetaCounted d k theta)) (TTD_NBk_OFS k) (ofSigned 32 theta)) (TTD_NBk_STATUS_VALID k) true)
    (TTD_NBk_STATUS_COUNT k)

/-- What follows on the offset's limit leaves the offset's register and device time. -/
theorem takeTheta_keeps (d : Dev) (k : Fin 2) (theta : Int) : keepsState (thetaShown d k theta) (takeTheta d k theta)
    ∧ rdn (takeTheta d k theta) (TTD_NBk_OFS k) = rdn (thetaShown d k theta) (TTD_NBk_OFS k) := by
  have e : takeTheta d k theta
      = if (thetaCounted d k theta).overRun = 3 then raiseTtd (setFlag (thetaShown d k theta) (TTD_NBk_STATUS_ALARM k) true) tdNbAlarm
        else if 3 ≤ (thetaCounted d k theta).within then setFlag (thetaShown d k theta) (TTD_NBk_STATUS_ALARM k) false
        else thetaShown d k theta := rfl
  generalize thetaShown d k theta = g at e ⊢
  have hr := keepsState.refl g
  rw [e]
  split
  · refine ⟨(hr.setFlag _ _).raiseTtd _, ?_⟩
    rw [rdn, rd_raiseTtd_other _ _ (by simp only; omega) (by simp only; omega), rd_setFlag_other _ _ (by simp), rdn]
  split
  · exact ⟨hr.setFlag _ _, by rw [rdn, rd_setFlag_other _ _ (by simp), rdn]⟩
  · exact ⟨hr, rfl⟩

theorem rdn_thetaShown (d : Dev) (k : Fin 2) (theta : Int) : rdn (thetaShown d k theta) (TTD_NBk_OFS k) = ofSigned 32 theta := by
  rw [thetaShown, countFld, countFldBy, rdn, rd_setFld_other _ _ (by simp), rd_setFlag_other _ _ (by simp), rd_wrn_same, BitVec.toNat_ofNat]
  exact Nat.mod_eq_of_lt (ofSigned_lt 32 theta)

theorem setNb_touches (d : Dev) (k : Nat) (h : NbHw) : ∃ t, setNb d k h = { d with ttd := t } := ⟨_, rfl⟩

theorem thetaShown_keeps (d : Dev) (k : Fin 2) (theta : Int) : (thetaShown d k theta).kst = d.kst ∧ (thetaShown d k theta).clock = d.clock := by
  have hk : keepsState (setNb d k (thetaCounted d k theta)) (thetaShown d k theta) :=
    (((keepsState.refl _).wrn _ _).setFlag _ _).countFld _
  obtain ⟨t, e⟩ := setNb_touches d k (thetaCounted d k theta)
  exact ⟨by rw [hk.kst, e], by rw [hk.clock, e]⟩

/-- θ of an exchange (R312): half the difference of the two offsets, and the calibration of the neighbour. -/
def thetaOf (d : Dev) (k : Fin 2) (t1 : Nat) (t2s : BitVec 48) (t2 : BitVec 32) (t3s : BitVec 48) (t3 : BitVec 32) : Int :=
  nearest (((t2s.toNat * nsPerSec + t2.toNat : Nat) : Int) - t1
    - ((courseStamp (now d) : Int) - ((t3s.toNat * nsPerSec + t3.toNat : Nat) : Int))) 2 - toSigned 16 (fld d (TTD_NBk_CFG_NB_CAL k))

/-- The answer of the exchange in progress gives its offset. -/
theorem timeResp_answer {k : Fin 2} {d : Dev} {q t1 at' : Nat} {sender : BitVec 64} {seq : BitVec 16} {t2s : BitVec 48} {t2 : BitVec 32}
    {t3s : BitVec 48} {t3 : BitVec 32} (hn : nbOn d k = true) (hf : isFrozen d (courseMaster k) = false)
    (ho : (nbHw d k).open' = some (q, t1)) (hs : (nbHw d k).sentAt = some at') (hq : q = seq.toNat) (ht : d.elapsed ≤ at' + ticksPerSec) :
    timeResp k sender seq t2s t2 t3s t3 d = takeTheta (heard d k sender) k (thetaOf d k t1 t2s t2 t3s t3) := by
  have hk := heard_keeps d k sender
  have hnb := nbHw_congr hk.ttd k
  have hon := (nbOn_heard d k sender).trans hn
  have hnow : now (heard d k sender) = now d := by rw [now, hk.clock, now]
  have hcal : fld (heard d k sender) (TTD_NBk_CFG_NB_CAL k) = fld d (TTD_NBk_CFG_NB_CAL k) :=
    fld_congr _ (rd_heard d k sender (by simp only; omega))
  unfold timeResp
  rw [hf, if_neg (by decide)]
  dsimp only
  rw [hnb, ho, hs, hon, hk.elapsed, hnow, hcal]
  dsimp only
  rw [if_neg (by simp [hq]; exact ht), thetaOf]

theorem timeResp_shows {k : Fin 2} {d : Dev} {q t1 at' : Nat} {sender : BitVec 64} {seq : BitVec 16} {t2s : BitVec 48} {t2 : BitVec 32}
    {t3s : BitVec 48} {t3 : BitVec 32} (hn : nbOn d k = true) (hf : isFrozen d (courseMaster k) = false)
    (ho : (nbHw d k).open' = some (q, t1)) (hs : (nbHw d k).sentAt = some at') (hq : q = seq.toNat) (ht : d.elapsed ≤ at' + ticksPerSec) :
    (timeResp k sender seq t2s t2 t3s t3 d).kst = d.kst ∧ (timeResp k sender seq t2s t2 t3s t3 d).clock = d.clock
      ∧ rdn (timeResp k sender seq t2s t2 t3s t3 d) (TTD_NBk_OFS k) = ofSigned 32 (thetaOf d k t1 t2s t2 t3s t3) := by
  rw [timeResp_answer hn hf ho hs hq ht]
  have hk := heard_keeps d k sender
  obtain ⟨hl, hofs⟩ := takeTheta_keeps (heard d k sender) k (thetaOf d k t1 t2s t2 t3s t3)
  obtain ⟨hkst, hclock⟩ := thetaShown_keeps (heard d k sender) k (thetaOf d k t1 t2s t2 t3s t3)
  exact ⟨by rw [hl.kst, hkst, hk.kst], by rw [hl.clock, hclock, hk.clock], by rw [hofs, rdn_thetaShown]⟩

/-- Settles O53: each command's equation on the case that its clause names, then the rule of what it writes. -/
theorem timeIsCarried : Obligations.TimeIsCarried := by
  refine ⟨fun x h a s hf hns hr => ⟨fun hst => ?_, fun st hst hg ha hc hstep h1 h2 he hrng hcal => ?_⟩,
    fun p s => ⟨fun hp => ⟨?_, ?_⟩, fun t ht hp hd hn hs hw => ⟨fun hh => ?_, fun hh => ?_⟩, fun i hi hp ht ha => ?_⟩,
    fun s p ring o c rest hin ho d hd ty hty => ptpMsgRx_answers s p ring o c rest hin ho d hd ty hty,
    fun i s he => ⟨fun sec hw hs hn => ?_, fun w hw => ⟨fun falling hold bins hc hk hin => ⟨fun hn => ?_, fun hn => ?_⟩, fun hp => ?_⟩⟩,
    fun e s => ⟨fun falling hold bins he hc hk hl => ⟨fun hlt => ?_, fun hge => ?_⟩, fun m t rest hm hfifo => ?_⟩,
    fun o s => ⟨fun hr => ?_, fun t hr hp ht hu hs hl hw => ?_⟩,
    fun k s hn hf => ⟨fun hs => ?_, fun sender seq turn => ?_,
      fun q t1 at' ho hs => ⟨fun ht => ?_, fun sender seq t2s t2 t3s t3 hq ht => ?_⟩⟩⟩
  · rw [exec_timeAnchor, timeAnchor_without_stamp hf hns hr hst]
  · obtain ⟨hlast, hclock, hdds⟩ := acceptAnchor_executed s.dev x h a st
    refine ⟨executed (acceptAnchor s.dev x a st) x h, ?_, hlast, hclock, ?_⟩
    · rw [exec_timeAnchor, timeAnchor_with_stamp hf hns hr hst hg ha hc, checkAnchor_accepts hstep h1 h2 he hrng hcal]
    · rw [hdds, downDelay, Int.mul_comm (320000 : Int)]
  · rw [exec_syncPlace, syncPlace_of_silent hp, withDev_self]
  · rw [exec_announceSend, announceSend_of_silent hp, withDev_self]
  · exact ⟨_, syncFrame s.dev p t, exec_syncPlace p s, syncPlace_queues ⟨ht, hp, hd, hn, hs, hw⟩ hh, launch_syncFrame s.dev p t⟩
  · exact ⟨_, exec_syncPlace p s, syncPlace_skips ⟨ht, hp, hd, hn, hs, hw⟩ hh⟩
  · obtain ⟨o, ho⟩ := announceSend_offers hi hp ht ha
    exact ⟨_, o, exec_announceSend p s, ho⟩
  · refine ⟨_, exec_prWindowOpen i s, ?_⟩
    rw [prWindowOpen_opens he hw hs hn]
    exact ⟨flag_setFlag_same s.dev true (by simp) (by simp), prWindow_setWindows_set _ i _⟩
  · refine ⟨_, exec_prEdge i falling hold bins s, ?_⟩
    rw [prEdge_within he hw hc hk hin, hn]
    exact ⟨prWindow_setWindows_set _ i _, rfl⟩
  · rw [exec_prEdge, prEdge_within he hw hc hk hin, if_pos hn]
  · exact ⟨_, exec_prWindowClose i s, prWindowClose_reports he hw hp⟩
  · refine ⟨_, exec_tevEdge e falling hold bins s, ?_⟩
    rw [tevEdge_counts he hc hk hl, if_neg (Nat.not_le.mpr hlt), tevHw_setTev]
  · rw [exec_tevEdge, tevEdge_counts he hc hk hl, if_pos hge]
  · obtain ⟨w, hw⟩ := tevSecHiRead_takes hm e s.dev
    refine ⟨_, exec_tevSecHiRead m e s, ?_⟩
    rw [hw]
    exact tevTake_oldest hfifo
  · rw [exec_toutEdge, toutEdge_stopped o hr, withDev_self]
  · refine ⟨_, exec_toutEdge o s, ?_⟩
    rw [toutEdge_starts hr hp ht hu hs hl hw]
    exact startPulse_drives s.dev o t
  · exact ⟨_, exec_timeReqSend k s, timeReqSend_opens hn hs⟩
  · obtain ⟨o, ho⟩ := timeReq_answers hn hf sender seq turn
    exact ⟨_, o, exec_timeReq k sender seq turn s, ho⟩
  · refine ⟨_, exec_nbTimeout k s, ?_⟩
    rw [nbTimeout_over ho hs ht]
    exact ⟨congrArg NbHw.open' (nbHw_setNb s.dev k _), flag_setFlag_same _ _ (by simp) (by simp)⟩
  · exact ⟨_, exec_timeResp k sender seq t2s t2 t3s t3 s, timeResp_shows hn hf ho hs hq ht⟩

end Sys2Proof.Machine
end

section
/-!
PROOFS. Rings and completions: what a posted completion writes, and what the work of a ring leaves alone (R322, R331, R332).
-/

namespace Sys2Proof.Machine

/-! ### What the device keeps of a ring -/

theorem ringHw_congr {d e : Dev} (h : e.host = d.host) (r : Nat) : ringHw e r = ringHw d r := by rw [ringHw, ringHw, h]

theorem ringHw_setRing (d : Dev) (r : Nat) (f : RingHw → RingHw) : ringHw (setRing d r f) r = f (ringHw d r) := sget_sput_same _ _ _ _

theorem rd_setRing (d : Dev) (r : Nat) (f : RingHw → RingHw) (q : Reg) : rd (setRing d r f) q = rd d q := rfl

theorem rd_emit (d : Dev) (o : Out) (q : Reg) : rd (emit d o) q = rd d q := rfl

theorem fld_setRing (d : Dev) (r : Nat) (f : RingHw → RingHw) (g : Fld) : fld (setRing d r f) g = fld d g := rfl

/-- A message of a vector joins the outbox or waits. -/
theorem signalVector_out (d : Dev) (f v : Nat) : ∃ l, (signalVector d f v).out = d.out ++ l := by
  unfold signalVector
  split
  · exact ⟨[], (List.append_nil _).symm⟩
  · exact ⟨_, rfl⟩

theorem signalVector_host (d : Dev) (f v : Nat) : (signalVector d f v).host = d.host := by
  obtain ⟨p, o, e⟩ := signalVector_spec d f v
  rw [e]

theorem rd_signalVector (d : Dev) (f v : Nat) (q : Reg) : rd (signalVector d f v) q = rd d q := by
  obtain ⟨p, o, e⟩ := signalVector_spec d f v
  rw [e]
  rfl

/-! ### What posting and settling leave alone -/

/-- Nothing differs but what completions write: the index and CQ_FULL of rings, what the device keeps of rings, messages, and an outbox
that has grown. -/
structure settles (d e : Dev) : Prop where
  device : keepsDevice d e
  words : ∀ q : Reg, (∀ r, q.ofs ≠ (HIF_Rr_STATUS r).ofs) → rd e q = rd d q
  state : ∀ r, fld e (HIF_Rr_STATUS_STATE r) = fld d (HIF_Rr_STATUS_STATE r)
  err : ∀ r, fld e (HIF_Rr_STATUS_ERR r) = fld d (HIF_Rr_STATUS_ERR r)
  outbox : ∃ l, e.out = d.out ++ l

section Settles

variable {d e g : Dev}

theorem settles.refl (d : Dev) : settles d d := ⟨.refl d, fun _ _ => rfl, fun _ => rfl, fun _ => rfl, [], (List.append_nil _).symm⟩

theorem settles.trans (h : settles d e) (h' : settles e g) : settles d g := by
  obtain ⟨l, hl⟩ := h.outbox
  obtain ⟨l', hl'⟩ := h'.outbox
  exact ⟨h.device.trans h'.device, fun q hq => (h'.words q hq).trans (h.words q hq), fun r => (h'.state r).trans (h.state r),
    fun r => (h'.err r).trans (h.err r), l ++ l', by rw [hl', hl, List.append_assoc]⟩

theorem settles.setRing (h : settles d e) (r : Nat) (f : RingHw → RingHw) : settles d (setRing e r f) :=
  h.trans ⟨(keepsDevice.refl e).setRing r f, fun _ _ => rfl, fun _ => rfl, fun _ => rfl, [], (List.append_nil _).symm⟩

theorem settles.emit (h : settles d e) (o : Out) : settles d (emit e o) :=
  h.trans ⟨(keepsDevice.refl e).emit o, fun _ _ => rfl, fun _ => rfl, fun _ => rfl, [o], rfl⟩

/-- A write of a field of a ring's STATUS beside STATE and ERR. -/
theorem settles.setStatus (h : settles d e) {c : Nat} {f : Fld} (hr : f.reg = HIF_Rr_STATUS c) (hs : apart (HIF_Rr_STATUS_STATE c) f)
    (he : apart (HIF_Rr_STATUS_ERR c) f) (v : Nat) : settles d (setFld e f v) := by
  have hofs : f.reg.ofs = (HIF_Rr_STATUS c).ofs := by rw [hr]
  refine h.trans ⟨(keepsDevice.refl e).setFld (by rw [hofs]; simp only; omega) v, fun q hq => rd_setFld_other e v (hofs ▸ hq c),
    fun r => ?_, fun r => ?_, [], (List.append_nil _).symm⟩
  · by_cases hc : r = c
    · rw [hc, fld_setFld_apart e v hs]
    · exact fld_setFld_reg e v (by rw [hofs]; simp only; omega)
  · by_cases hc : r = c
    · rw [hc, fld_setFld_apart e v he]
    · exact fld_setFld_reg e v (by rw [hofs]; simp only; omega)

theorem settles.showIndex (h : settles d e) (c : Nat) : settles d (showIndex e c) :=
  h.setStatus (f := HIF_Rr_STATUS_INDEX c) rfl (by simp [apart]) (by simp [apart]) _

theorem settles.syncFull (h : settles d e) (c : Nat) : settles d (syncFull e c) := by
  unfold Machine.syncFull
  exact (h.setStatus (f := HIF_Rr_STATUS_CQ_FULL c) rfl (by simp [apart]) (by simp [apart]) _).setRing c _

theorem settles.signalVector (h : settles d e) (f v : Nat) : settles d (signalVector e f v) :=
  h.trans ⟨(keepsDevice.refl e).signalVector f v, fun q _ => rd_signalVector e f v q, fun _ => fld_congr _ (rd_signalVector e f v _),
    fun _ => fld_congr _ (rd_signalVector e f v _), signalVector_out e f v⟩

theorem settles.signalCq (h : settles d e) (c : Nat) : settles d (signalCq e c) := (h.setRing c _).signalVector _ _

/-- After the write of a completion, its index and its signal follow. -/
theorem settles.postWritten (h : settles d (completionWritten g c bs)) : settles d (postCq g c bs) := by
  obtain ⟨k, hk, heq⟩ := postCq_cases g c bs
  have hkeep : settles d k := hk ▸ (h.showIndex c).syncFull c
  rcases heq with heq | heq
  · exact heq ▸ hkeep.signalCq c
  · exact heq ▸ hkeep

theorem settles.completionWritten (h : settles d e) (c : Nat) (bs : List Byte) : settles d (completionWritten e c bs) := by
  unfold Machine.completionWritten
  exact (h.emit _).setRing c _

theorem settles.postCq (h : settles d e) (c : Nat) (bs : List Byte) : settles d (postCq e c bs) := (h.completionWritten c bs).postWritten

theorem settles.settleFrom (n : Nat) (h : settles d e) (r : Nat) : settles d (settleFrom n e r) := by
  induction n generalizing e with
  | zero => exact h
  | succ n ih =>
    unfold Machine.settleFrom
    split
    · split
      · split
        · exact ih ((h.setRing r _).postCq _ _)
        · exact h
      · exact h
    · exact h

theorem settles.settle (h : settles d e) (r : Nat) : settles d (settle e r) := by
  unfold Machine.settle
  split
  · exact h.settleFrom _ r
  · exact h

theorem settles.openEntry (h : settles d e) (r index tag : Nat) (stamp : Bool) : settles d (openEntry e r index tag stamp) := h.setRing r _

theorem settles.closeEntry (h : settles d e) (r index : Nat) (bs : List Byte) : settles d (closeEntry e r index bs) := (h.setRing r _).settle r

theorem settles.consume (h : settles d e) (r n : Nat) : settles d (consume e r n) := (h.setRing r _).showIndex r

theorem settles.finishEntry (h : settles d e) (r n tag status word1 word2 : Nat) (stamp : Option Nat) :
    settles d (finishEntry e r n tag status word1 word2 stamp) := by
  unfold Machine.finishEntry
  exact ((h.openEntry r _ _ _).consume r n).closeEntry r _ _

/-- What stood in the outbox stands there still. -/
theorem settles.mem_out (h : settles d e) {o : Out} (ho : o ∈ d.out) : o ∈ e.out := by
  obtain ⟨l, hl⟩ := h.outbox
  rw [hl]
  exact List.mem_append_left l ho

end Settles

/-! ### A completion in its ring (R322) -/

theorem ringHw_showIndex (d : Dev) (r c : Nat) : ringHw (showIndex d r) c = ringHw d c := rfl

theorem ringHw_syncFull (d : Dev) (c : Nat) : (ringHw (syncFull d c) c).dev = (ringHw d c).dev
    ∧ (ringHw (syncFull d c) c).host = (ringHw d c).host := by
  unfold syncFull
  dsimp only
  rw [ringHw_setRing]
  split <;> exact ⟨rfl, rfl⟩

theorem ringHw_signalCq (d : Dev) (c : Nat) : ringHw (signalCq d c) c = { ringHw d c with unsignalled := 0, firstAt := none } := by
  rw [signalCq, ringHw_congr (signalVector_host _ _ _), ringHw_setRing]

/-- The device's place moves on by one, and the host's index stays. -/
theorem ringHw_postCq (d : Dev) (c : Nat) (bs : List Byte) : (ringHw (postCq d c bs) c).dev = ((ringHw d c).dev + 1) % 0x20000
    ∧ (ringHw (postCq d c bs) c).host = (ringHw d c).host := by
  have hw : ringHw (completionWritten d c bs) c = { ringHw d c with
      dev := ((ringHw d c).dev + 1) % 0x20000, unsignalled := (ringHw d c).unsignalled + 1,
      firstAt := some ((ringHw d c).firstAt.getD d.elapsed) } := by
    unfold completionWritten
    exact ringHw_setRing _ _ _
  obtain ⟨k, hk, heq⟩ := postCq_cases d c bs
  obtain ⟨hdev, hhost⟩ := ringHw_syncFull (showIndex (completionWritten d c bs) c) c
  rw [ringHw_showIndex, hw] at hdev hhost
  rw [← hk] at hdev hhost
  rcases heq with heq | heq
  · rw [heq, ringHw_signalCq]
    exact ⟨hdev, hhost⟩
  · rw [heq]
    exact ⟨hdev, hhost⟩

/-- A completion that a CQ ring can take fills one more slot, beside those the host has not consumed, with the phase of its pass. -/
theorem postCq_takes {d : Dev} {c : Nat} {bs : List Byte} (ht : cqTakes d c 1 = true) (hs : fld d (HIF_Rr_CFG_SIZE_LOG c) ≤ 16)
    (hh : (ringHw d c).host < 0x10000) : cqHeld (postCq d c bs) c = cqHeld d c + 1 ∧ cqHeld (postCq d c bs) c ≤ ringSize d c - 1
      ∧ Out.hostWrite (ringOwner d c) (slotAddr d c (ringHw d c).dev) (withPhase bs ((ringHw d c).dev / ringSize d c % 2 == 0))
        ∈ (postCq d c bs).out := by
  have hroom : cqHeld d c + 1 ≤ ringSize d c - 1 := by
    rw [cqTakes, Bool.and_eq_true, decide_eq_true_eq] at ht
    exact ht.2
  have hsize : ringSize d c ≤ 2 ^ 16 := Nat.pow_le_pow_right (by decide) hs
  have hone : cqHeld (postCq d c bs) c = cqHeld d c + 1 := by
    obtain ⟨hdev, hhost⟩ := ringHw_postCq d c bs
    rw [cqHeld] at hroom ⊢
    rw [cqHeld, hdev, hhost]
    omega
  refine ⟨hone, hone ▸ hroom, ?_⟩
  have hmem : Out.hostWrite (ringOwner d c) (slotAddr d c (ringHw d c).dev) (withPhase bs ((ringHw d c).dev / ringSize d c % 2 == 0))
      ∈ (completionWritten d c bs).out := by
    unfold completionWritten
    exact List.mem_append_right _ (List.mem_singleton.mpr rfl)
  exact (settles.refl _).postWritten.mem_out hmem

end Sys2Proof.Machine
end

section
/-!
PROOFS. Doorbells, submissions, deliveries, commands and stalls of the rings (R324 to R334).
-/

namespace Sys2Proof.Machine

theorem exec_doorbell (f : Fin 32) (size : Nat) (value : Word) (s : State) :
    exec (.doorbell f size value) s = .next (s.withDev (doorbell f size value s.dev)) := rfl

theorem exec_txFrameSubmit (r : Fin 1024) (descs : List (List Byte)) (data : List Byte) (s : State) :
    exec (.txFrameSubmit r descs data) s = .next (s.withDev (txFrameSubmit r descs data s.dev)) := rfl

theorem exec_rxDeliver (r : Fin 1024) (descs : List (List Byte)) (s : State) :
    exec (.rxDeliver r descs) s = .next (s.withDev (rxDeliver r descs s.dev)) := rfl

theorem exec_cmdDescriptor (r : Fin 1024) (desc body : List Byte) (s : State) :
    exec (.cmdDescriptor r desc body) s = .next (s.withDev (cmdDescriptor r desc body s.dev)) := rfl

theorem exec_cqSignal (c : Fin 1024) (s : State) : exec (.cqSignal c) s = .next (s.withDev (cqSignal c s.dev)) := rfl

theorem exec_cqStall (c : Fin 1024) (s : State) : exec (.cqStall c) s = .next (s.withDev (cqStall c s.dev)) := rfl

theorem exec_hostReadError (r : Fin 1024) (what : Fin 3) (tag : BitVec 64) (s : State) :
    exec (.hostReadError r what tag) s = .next (s.withDev (hostReadError r what tag s.dev)) := rfl

/-! ### DOORBELL (R324) -/

section Doorbell

variable {f : Fin 32} {value : Word} {d : Dev} {r : Nat}

/-- A doorbell of another width is counted, unless its function is frozen. -/
theorem doorbell_width (h : hostReaches d = true) {size : Nat} (hs : size ≠ 4) :
    doorbell f size value d = if isFrozen d f then d else count d HIF_DB_BAD := by
  unfold doorbell
  rw [h, if_neg (by decide), if_pos hs]

/-- A doorbell of a ring that is not the function's freezes the function. -/
theorem doorbell_foreign (h : hostReaches d = true) (hr : r = getBits value 25 16) (ho : ringOwner d r ≠ f.val) :
    doorbell f 4 value d = freeze d f causeRing 0 := by
  unfold doorbell
  rw [h, if_neg (by decide), if_neg (by decide), ← hr]
  exact if_pos ho

theorem doorbell_own (h : hostReaches d = true) (hr : r = getBits value 25 16) (ho : ringOwner d r = f.val) :
    doorbell f 4 value d = if isFrozen d f then d else doorbellIndex d f r (getBits value 15 0) := by
  unfold doorbell
  rw [h, if_neg (by decide), if_neg (by decide), ← hr]
  exact if_neg (not_not_intro ho)

theorem doorbellIndex_stopped (index : Nat) (h : ringRuns d r = false) : doorbellIndex d f r index = doorbellBad d f := by
  simp [doorbellIndex, h]

/-- An index that a submission ring may take. -/
theorem doorbellIndex_taken {index : Nat} (h : ringRuns d r = true) (hk : ringKind d r ≠ kindCq)
    (hi : (index + 0x10000 - (ringHw d r).dev % 0x10000) % 0x10000 ≤ ringSize d r - 1) :
    doorbellIndex d f r index = setRing d r (fun h => { h with host := index }) := by
  unfold doorbellIndex
  rw [h, if_neg (by decide), if_neg hk, if_pos hi]

end Doorbell

/-! ### TX_FRAME_SUBMIT (R326) -/

section Submit

variable {r : Fin 1024} {b data : List Byte} {d : Dev}

/-- An entry of one descriptor that ends it. -/
theorem txFrameSubmit_one (hm : mayBegin d r kindTx 1 = true) (hl : sdLast b = true) : txFrameSubmit r [b] data d
    = match txCheck d r [b] with
      | some st => raiseOwner (count (finishEntry d r 1 (sdTag b) st (127 * 65536) 0 none) HIF_DESC_BAD) r evDescBad
      | none => txSubmit d r [b] data := by
  unfold txFrameSubmit
  have hw : [b].takeWhile (fun b => !sdLast b) = [] := by simp [hl]
  have hd : [b].dropWhile (fun b => !sdLast b) = [b] := by simp [hl]
  have ht : [b].take 16 = [b] := rfl
  dsimp only
  rw [ht, hw, hd]
  simp only [List.take_one, List.head?_cons, Option.toList_some, List.nil_append, List.any_cons, hl, List.length_singleton, hm,
    Bool.true_or, Bool.not_true, Bool.or_false, Bool.false_eq_true, if_false, if_true]
  rfl

/-- A frame that passes is offered to its queue with its FCS. -/
theorem txSubmit_offers (d : Dev) (r : Fin 1024) (b data : List Byte) : ∃ o : TmOffer,
    (txSubmit d r [b] data).pkt.offers = d.pkt.offers ++ [o] ∧ o.queue = txQueue d r b ∧ o.frame.bytes.length = sdLen b + 4
      ∧ o.frame.src = .host r := by
  refine ⟨_, rfl, rfl, ?_, rfl⟩
  dsimp only
  rw [withFcs, List.length_append, length_leBytes, List.length_take, List.length_append, List.length_replicate]
  simp only [List.foldl_cons, List.foldl_nil, Nat.zero_add]
  omega

/-- A frame that fails a check completes with it, and is counted. -/
theorem submitRejected_counts (d : Dev) (r : Fin 1024) (tag st : Nat) :
    (raiseOwner (count (finishEntry d r 1 tag st (127 * 65536) 0 none) HIF_DESC_BAD) r evDescBad).pkt = d.pkt
      ∧ rdn (raiseOwner (count (finishEntry d r 1 tag st (127 * 65536) 0 none) HIF_DESC_BAD) r evDescBad) HIF_DESC_BAD
        = min (rdn d HIF_DESC_BAD + 1) 0xFFFFFFFF := by
  have hs := (settles.refl d).finishEntry r 1 tag st (127 * 65536) 0 none
  generalize finishEntry d r 1 tag st (127 * 65536) 0 none = e at hs ⊢
  constructor
  · obtain ⟨g, p, o, eq⟩ := raiseFn_regs (count e HIF_DESC_BAD) (ringOwner (count e HIF_DESC_BAD) r) evDescBad
    rw [raiseOwner, eq]
    exact hs.device.pkt
  · rw [raiseOwner, rdn, rd_raiseFn_other _ _ _ (by simp only; omega), ← rdn, rdn_count_same, rdn, hs.words _ (by simp only; omega), rdn]

end Submit

/-! ### RX_DELIVER (R327) -/

section Deliver

variable {r : Fin 1024} {d : Dev} {f : BufFrame} {rest : List BufFrame}

theorem rxDeliver_stopped (hq : queueOf d (16384 + r) = f :: rest) (descs : List (List Byte)) (ht : ringTakes d (16384 + r) = false) :
    rxDeliver r descs d = takeFrom (count d HIF_RX_NO_RING) (16384 + r) f := by
  unfold rxDeliver
  rw [hq]
  simp [ht]

/-- A frame that leaves its queue leaves the words of the ring's assignment as they are. -/
theorem fld_owner_afterChange (d : Dev) (r : Nat) (f : BufFrame) : fld (afterChange d f) (HIF_Rr_OWN_OWNER r) = fld d (HIF_Rr_OWN_OWNER r) := by
  have hpools : fld (syncPools d) (HIF_Rr_OWN_OWNER r) = fld d (HIF_Rr_OWN_OWNER r) := by
    unfold syncPools
    dsimp only
    split
    · rw [raiseTmg, fld_congr (HIF_Rr_OWN_OWNER r) (rd_raiseEvt_other _ evTMG _ (by simp only [evTMG]; omega) (by simp only; omega) (by simp only; omega)),
        fld_setFld_reg _ _ (by simp only; omega), fld_congr _ (rd_setFlag_other _ _ (by simp only; omega)),
        fld_setFld_reg _ _ (by simp only; omega)]
    · rw [fld_setFld_reg _ _ (by simp only; omega), fld_congr _ (rd_setFlag_other _ _ (by simp only; omega)),
        fld_setFld_reg _ _ (by simp only; omega)]
  unfold afterChange
  dsimp only
  split
  · rw [← hpools]
    unfold syncFlow
    dsimp only
    split
    · exact fld_setFld_reg (f := TMG_PORTp_STATUS_FC_ASSERT _) _ _ (by simp only; omega)
    · refine forEach_keeps (P := fun e => fld e (HIF_Rr_OWN_OWNER r) = fld (syncPools d) (HIF_Rr_OWN_OWNER r)) (fun e k he => ?_) _ rfl
      refine Eq.trans (fld_congr _ ?_) he
      exact rd_setRegBit_other e _ _ (by simp only; omega)
  · exact hpools

theorem fld_owner_takeFrom (d : Dev) (r q : Nat) (f : BufFrame) : fld (takeFrom d q f) (HIF_Rr_OWN_OWNER r) = fld d (HIF_Rr_OWN_OWNER r) :=
  fld_owner_afterChange (putQueue d q ((queueOf d q).erase f)) r f

/-- One lent buffer that holds the frame takes its bytes. -/
theorem rxDeliver_one {b : List Byte} (hq : queueOf d (16384 + r) = f :: rest) (ht : ringTakes d (16384 + r) = true)
    (hm : mayBegin d r kindRx 1 = true) (hb : rxBad b = none) (hl : f.bytes.length - 4 ≤ sdLen b) :
    ∃ (tag word1 word2 : Nat) (stamp : Option Nat), rxDeliver r [b] d
      = finishEntry (emit (takeFrom d (16384 + r) f) (.hostWrite (ringOwner d r) (sdAddr b) (f.bytes.take (f.bytes.length - 4)))) r 1 tag csOk
          word1 word2 stamp := by
  have hcq : cqTakes d (ringCq d r) 1 = true := by
    rw [mayBegin, Bool.and_eq_true] at hm
    exact hm.2
  have hlen : (f.bytes.take (f.bytes.length - 4)).length ≤ sdLen b := by rw [List.length_take]; omega
  have hneeds : rxNeeds (f.bytes.take (f.bytes.length - 4)).length [b] = some 1 := by
    unfold rxNeeds
    rw [hb]
    exact (if_neg (by decide)).trans (if_pos hlen)
  have howner : ringOwner (takeFrom d (16384 + r) f) r = ringOwner d r := fld_owner_takeFrom d r _ f
  unfold rxDeliver
  rw [hq]
  dsimp only
  rw [ht, hneeds, if_neg (by decide)]
  dsimp only
  rw [hm, hcq, Bool.true_and, if_pos rfl]
  unfold rxWrite
  rw [List.take_one, List.head?_cons]
  dsimp only [Option.toList]
  rw [hb]
  dsimp only
  rw [howner, List.take_of_length_le hlen]
  exact ⟨_, _, _, _, rfl⟩

theorem rxDeliver_writes {b : List Byte} (hq : queueOf d (16384 + r) = f :: rest) (ht : ringTakes d (16384 + r) = true)
    (hm : mayBegin d r kindRx 1 = true) (hb : rxBad b = none) (hl : f.bytes.length - 4 ≤ sdLen b) :
    queueOf (rxDeliver r [b] d) (16384 + r) = rest
      ∧ Out.hostWrite (ringOwner d r) (sdAddr b) (f.bytes.take (f.bytes.length - 4)) ∈ (rxDeliver r [b] d).out := by
  obtain ⟨tag, word1, word2, stamp, e⟩ := rxDeliver_one hq ht hm hb hl
  have hs := (settles.refl (emit (takeFrom d (16384 + r) f) (.hostWrite (ringOwner d r) (sdAddr b)
    (f.bytes.take (f.bytes.length - 4))))).finishEntry r 1 tag csOk word1 word2 stamp
  rw [← e] at hs
  constructor
  · rw [queueOf_congr hs.device.queues]
    refine (queueOf_congr (takeFrom_queues d _ f) _).trans ?_
    rw [queueOf_putQueue_same, hq, List.erase_cons_head]
  · exact hs.mem_out (List.mem_append_right _ (List.mem_singleton.mpr rfl))

end Deliver

/-! ### CMD_DESCRIPTOR (R328) -/

section Command

variable {r : Fin 1024} {b body : List Byte} {d : Dev}

/-- A descriptor that breaks its fields, or a command outside the function's rights, completes at once. -/
theorem cmdDescriptor_rejects (hm : mayBegin d r kindCmd 1 = true)
    (h : cmdClean b = false ∨ sdAddr b % 64 ≠ 0 ∨ cmdForbidden d r (sdArgWord b % 16) body = true) : (cmdDescriptor r b body d).pkt = d.pkt := by
  have hpkt : ∀ st, (finishEntry d r 1 (sdTag b) st 0 0 none).pkt = d.pkt :=
    fun st => ((settles.refl d).finishEntry r 1 (sdTag b) st 0 0 none).device.pkt
  unfold cmdDescriptor
  rw [hm, if_neg (by decide)]
  dsimp only
  split
  · exact hpkt csBadField
  · next hclean =>
    have hforbidden : cmdForbidden d r (sdArgWord b % 16) body = true := by
      rcases h with h | h | h
      · simp [h] at hclean
      · simp [h] at hclean
      · exact h
    rw [if_pos hforbidden]
    exact hpkt csRights

/-- A command that may be given joins the queue. -/
theorem cmdDescriptor_queues (hm : mayBegin d r kindCmd 1 = true) (hc : cmdClean b = true) (ha : sdAddr b % 64 = 0)
    (hf : cmdForbidden d r (sdArgWord b % 16) body = false) (hn : d.pkt.cmds.length < 64) :
    ∃ c : AshCmd, (cmdDescriptor r b body d).pkt.cmds = d.pkt.cmds ++ [c] ∧ c.opcode = sdArgWord b % 16 := by
  have hpkt : (consume (openEntry d r ((ringHw d r).dev % 0x10000) (sdTag b) false) r 1).pkt = d.pkt :=
    (((settles.refl d).openEntry r _ _ _).consume r 1).device.pkt
  unfold cmdDescriptor
  rw [hm, if_neg (by decide)]
  dsimp only
  rw [hc, ha, hf, if_neg (by decide), if_neg (by decide), if_neg (Nat.not_le.mpr hn), postCmd, hpkt, if_neg (Nat.not_le.mpr hn), syncCmdQueue]
  exact ⟨_, congrArg (fun k : PacketHw => k.cmds ++ [_]) hpkt, rfl⟩

end Command

/-! ### CQ_SIGNAL and CQ_STALL (R332) -/

theorem cqSignal_due {c : Fin 1024} {d : Dev} {t : Nat} (hf : (ringHw d c).firstAt = some t)
    (ht : t + fld d (HIF_Rr_COAL_COAL_US c) * ticksPerUs ≤ d.elapsed) : cqSignal c d = signalCq d c := by
  unfold cqSignal
  rw [hf]
  exact if_pos ht

/-- A ring that has been full for 1 ms is marked as stalled, and counted. -/
def stallRaised (d : Dev) (c : Nat) : Dev :=
  raiseOwner (count (setRing d c (fun h => { h with stalled := true })) HIF_CQ_STALL) c evCqStall

theorem cqStall_due {c : Fin 1024} {d : Dev} {t : Nat} (hf : (ringHw d c).fullAt = some t) (hk : ringKind d c = kindCq)
    (hs : (ringHw d c).stalled = false) (ht : t + ticksPerMs ≤ d.elapsed) : cqStall c d = stallRaised d c := by
  unfold cqStall
  rw [hf]
  exact if_pos ⟨hk, by simp [hs], ht⟩

theorem cqStall_again {c : Fin 1024} {d : Dev} (hs : (ringHw d c).stalled = true) : cqStall c d = d := by
  unfold cqStall
  split
  · exact if_neg (by simp [hs])
  · rfl

theorem ringHw_count (d : Dev) (q : Reg) (c : Nat) : ringHw (count d q) c = ringHw d c := rfl

theorem ringHw_raiseOwner (d : Dev) (r b c : Nat) : ringHw (raiseOwner d r b) c = ringHw d c := by
  obtain ⟨g, p, o, e⟩ := raiseFn_regs d (ringOwner d r) b
  rw [raiseOwner, e]
  rfl

theorem stallRaised_spec (d : Dev) (c : Nat) : (ringHw (stallRaised d c) c).stalled = true
    ∧ rdn (stallRaised d c) HIF_CQ_STALL = min (rdn d HIF_CQ_STALL + 1) 0xFFFFFFFF := by
  constructor
  · rw [stallRaised, ringHw_raiseOwner, ringHw_count, ringHw_setRing]
  · rw [stallRaised, raiseOwner, rdn, rd_raiseFn_other _ _ _ (by simp only; omega), ← rdn, rdn_count_same]
    rfl

/-! ### HOST_READ_ERROR (R334) -/

/-- A ring is put in ERROR for a failed read, which is counted and raised. -/
def readFailed (d : Dev) (r : Nat) (err : Nat) : Dev :=
  raiseOwner (count (setFld (setFld d (HIF_Rr_STATUS_STATE r) ringError) (HIF_Rr_STATUS_ERR r) err) HIF_RD_ERR) r evRingErr

theorem readFailed_spec (d : Dev) (r err : Nat) (he : err < 8) : fld (readFailed d r err) (HIF_Rr_STATUS_STATE r) = ringError
    ∧ fld (readFailed d r err) (HIF_Rr_STATUS_ERR r) = err ∧ rdn (readFailed d r err) HIF_RD_ERR = min (rdn d HIF_RD_ERR + 1) 0xFFFFFFFF := by
  have hword : rd (readFailed d r err) (HIF_Rr_STATUS r)
      = rd (setFld (setFld d (HIF_Rr_STATUS_STATE r) ringError) (HIF_Rr_STATUS_ERR r) err) (HIF_Rr_STATUS r) := by
    rw [readFailed, raiseOwner, rd_raiseFn_other _ _ _ (by simp only; omega), rd_count_other _ (by simp only; omega)]
  refine ⟨?_, ?_, ?_⟩
  · rw [fld_congr (HIF_Rr_STATUS_STATE r) hword, fld_setFld_apart _ _ (by simp [apart]), fld_setFld_same _ _ (by simp) (by simp)]
    rfl
  · rw [fld_congr (HIF_Rr_STATUS_ERR r) hword, fld_setFld_same _ _ (by simp) (by simp)]
    exact Nat.mod_eq_of_lt he
  · rw [readFailed, raiseOwner, rdn, rd_raiseFn_other _ _ _ (by simp only; omega), ← rdn, rdn_count_same, rdn,
      rd_setFld_other _ _ (by simp only; omega), rd_setFld_other _ _ (by simp only; omega), rdn]

/-- What follows the ERROR is the completion of the entry in progress. -/
theorem hostReadError_settles {r : Fin 1024} {d : Dev} (what : Fin 3) (tag : BitVec 64) (hr : ringRuns d r = true)
    (hs : isSubmission (ringKind d r) = true) (hw : hifWorks d = true) : ∃ n, settles { readFailed d r (what.val + 1) with freeCount := n }
      (hostReadError r what tag d) := by
  unfold hostReadError
  rw [if_pos ⟨hr, hs, hw⟩]
  exact ⟨_, (((settles.refl _).openEntry r _ _ false).consume r 1).closeEntry r _ _⟩

end Sys2Proof.Machine
end

section
/-!
PROOFS. Enabling and disabling a ring (R323).
-/

namespace Sys2Proof.Machine

theorem exec_ringEnable (m : Master) (c : Fin 1024) (value : Word) (s : State) :
    exec (.ringEnable m c value) s = .next (s.withDev (ringEnable m c value s.dev)) := rfl

theorem exec_ringDisable (m : Master) (c : Fin 1024) (value : Word) (s : State) :
    exec (.ringDisable m c value) s = .next (s.withDev (ringDisable m c value s.dev)) := rfl

/-! ### The register that ENABLE stands in -/

/-- HIF_Rr_CFG holds ENABLE, SIZE_LOG and CQ. -/
def hifCfgRow : RegRow :=
  ⟨"HIF_Rr_CFG", 0x4014, [(1024, 0x40)], 0x60000, false, [⟨"ENABLE", 31, 31, .rw, .all⟩, ⟨"SIZE_LOG", 20, 16, .rwc, (.span 6 16)⟩, ⟨"CQ", 9, 0, .rw, .all⟩]⟩

theorem rowAt_hifCfg (r : Fin 1024) : rowAt (unitAt 62) (0x4014 + 0x40 * r) = some hifCfgRow := by
  have hr := r.isLt
  have h0 : regRowsHIF0.find? (rowMatches (0x4014 + 0x40 * r)) = none := by
    rw [List.find?_eq_none]
    simp only [regRowsHIF0, List.forall_mem_cons, rowMatches, repeats, Bool.and_eq_true, decide_eq_true_eq, beq_iff_eq]
    simp only [List.not_mem_nil, false_imp_iff, implies_true, and_true]
    omega
  have h1 : regRowsHIF1.find? (rowMatches (0x4014 + 0x40 * r)) = some hifCfgRow := by
    have hn : (regRowsHIF1.take 7).find? (rowMatches (0x4014 + 0x40 * r)) = none := by
      rw [List.find?_eq_none]
      simp only [regRowsHIF1, List.take_succ_cons, List.take_zero, List.forall_mem_cons, rowMatches, repeats, Bool.and_eq_true, decide_eq_true_eq, beq_iff_eq]
      simp only [List.not_mem_nil, false_imp_iff, implies_true, and_true]
      omega
    have hc : rowMatches (0x4014 + 0x40 * r) hifCfgRow = true := by
      simp [rowMatches, hifCfgRow, repeats]
    rw [← List.take_append_drop 7 regRowsHIF1, List.find?_append, hn, Option.none_or]
    exact List.find?_cons_of_pos hc
  have hrows : rowsOfKind (unitAt 62).kind = regRowsHIF0 ++ regRowsHIF1 := rfl
  rw [rowAt, hrows, List.find?_append, h0, h1]
  rfl

/-- No other unit's window reaches into that of the host interface. -/
theorem windows_apart_hif : ∀ u ∈ List.range 62, (unitAt u).base + 4096 * 2 ^ (unitAt u).winLog ≤ 0xf00000 ∨ 0x1000000 ≤ (unitAt u).base := by decide

theorem unitOf_hif {ofs : Nat} (h : 0xf00000 ≤ ofs) (h' : ofs < 0xf20000) : unitOf ofs = some 62 := by
  have hn : (List.range 62).find? (fun u => decide ((unitAt u).base ≤ ofs) && decide (ofs < (unitAt u).base + 4096 * 2 ^ (unitAt u).winLog)) = none := by
    rw [List.find?_eq_none]
    intro u hu
    have := windows_apart_hif u hu
    simp only [Bool.and_eq_true, decide_eq_true_eq]
    omega
  have hs : List.range 68 = List.range 62 ++ [62, 63, 64, 65, 66, 67] := rfl
  rw [unitOf, hs, List.find?_append, hn, Option.none_or]
  refine List.find?_cons_of_pos ?_
  have hb : (unitAt 62).base = 0xf00000 := rfl
  have hw : 4096 * 2 ^ (unitAt 62).winLog = 0x100000 := rfl
  rw [hb, hw]
  simp only [Bool.and_eq_true, decide_eq_true_eq]
  omega

/-- A write of a ring's CFG stores ENABLE as written, after a clamped SIZE_LOG is logged. -/
theorem storeAt_hifCfg (d : Dev) (m : Master) (r : Fin 1024) (value : Word) : ∃ e w, storeAt d m (HIF_Rr_CFG r).ofs value = wr e (HIF_Rr_CFG r) w
    ∧ getBits w 31 31 = getBits value 31 31
    ∧ (e = d ∨ ∃ width lsb v a, e = logClamp d m (unitAt 62) ((HIF_Rr_CFG r).ofs - (unitAt 62).base) width lsb v a) := by
  have hrel : (HIF_Rr_CFG r).ofs - (unitAt 62).base = 0x4014 + 0x40 * r := by
    have hb : (unitAt 62).base = 0xf00000 := rfl
    rw [hb]
    simp only
    omega
  have hreg : regAt (unitAt 62) hifCfgRow (0x4014 + 0x40 * r) = HIF_Rr_CFG r := by
    have hb : (unitAt 62).base = 0xf00000 := rfl
    have hne : ¬ (0x4014 + 0x40 * r.val = 0x1000) := by omega
    have hk : ¬ ((unitAt 62).kind = 0x71 ∧ 0x4014 + 0x40 * r.val = 0x1004) := by omega
    rw [regAt, resetAt, if_neg (fun h => hne h.2), if_neg hk, hb]
    simp only [hifCfgRow, Reg.mk.injEq]
    exact ⟨by omega, rfl⟩
  rw [storeAt_row value (unitOf_hif (by simp only; omega) (by simp only; omega)) (hrel ▸ rowAt_hifCfg r), storeWord, hrel, hreg]
  have hfix : hifCfgRow.fields.filter (fun f => f.acc == .rwc && f.rng != .dep) = [⟨"SIZE_LOG", 20, 16, .rwc, .span 6 16⟩] := rfl
  have hdep : hifCfgRow.fields.filter (fun f => f.acc == .rwc && f.rng == .dep) = [] := rfl
  have hplain : storePlain (rd d (HIF_Rr_CFG r)) value hifCfgRow.fields
      = putBits (putBits (rd d (HIF_Rr_CFG r)) 31 31 (getBits value 31 31)) 9 0 (getBits value 9 0) := rfl
  rw [hfix, hdep, hplain]
  refine ⟨_, _, rfl, ?_, ?_⟩
  · dsimp only [List.foldl_cons, List.foldl_nil, storeRwc]
    rw [getBits_putBits_other _ _ (.inr (by decide)) (by decide) (by decide), getBits_putBits_other _ _ (.inr (by decide)) (by decide) (by decide),
      getBits_putBits_same _ _ (by decide) (by decide), Nat.mod_eq_of_lt (getBits_lt value 31 31)]
  · dsimp only [List.foldl_cons, List.foldl_nil, storeRwc]
    split
    · exact .inl rfl
    · exact .inr ⟨_, _, _, _, rfl⟩
/-! ### What storing the word leaves of the rings -/

/-- The words of the host interface from the assignments of its DMA channels on. -/
def isRingWord (o : Nat) : Prop := 0xf02100 ≤ o ∧ o < 0x1000000

theorem keepsWords.logClampHif {d e : Dev} (h : keepsWords isRingWord d e) (writer rel width lsb v a : Nat) :
    keepsWords isRingWord d (logClamp e writer (unitAt 62) rel width lsb v a) := by
  have hb : (unitAt 62).base = 0xf00000 := rfl
  have hp : (unitAt (unitAt 62).parent).base < 0xf00000 := by decide
  have hlow {o : Nat} (ho : o < 0xf02100) : ¬ isRingWord o := fun hr => absurd hr.1 (Nat.not_le.mpr ho)
  unfold logClamp
  rw [hb]
  refine keepsWords.raiseFn ?_ (hlow (by decide)) _
  refine forEach_keeps_mem (fun _ b hm hg => hg.setFld (f := HDR_CLAMP_LAST_INDEX b) (hlow ?_) _) ?_
  · simp only [List.mem_cons, List.not_mem_nil, or_false] at hm
    simp only
    omega
  · refine keepsWords.setFld (f := HDR_CLAMP_COUNT 0xf00000) ?_ (hlow (by decide)) _
    refine keepsWords.setFlag (f := HDR_CLAMP_VALID 0xf00000) ?_ (hlow (by decide)) _
    refine keepsWords.setFlag (f := HDR_STATUS_CLAMPED 0xf00000) ?_ (hlow (by decide)) _
    exact keepsWords.wr (r := ROOT_CLAMP_SEQ) (h.of_regs rfl) (hlow (by decide)) _

theorem logClamp_host (d : Dev) (writer : Nat) (u : UnitRow) (rel width lsb v a : Nat) : (logClamp d writer u rel width lsb v a).host = d.host := by
  obtain ⟨r, c, p, o, e⟩ := logClamp_touches d writer u rel width lsb v a
  rw [e]

/-- What a stored CFG word leaves: what the device keeps of the rings, the words but CFG and COAL of the ring, and ENABLE as written. -/
structure cfgStored (d e : Dev) (r : Nat) (enable : Bool) : Prop where
  host : e.host = d.host
  words : ∀ q : Reg, isRingWord q.ofs → q.ofs ≠ (HIF_Rr_CFG r).ofs → q.ofs ≠ (HIF_Rr_COAL r).ofs → rd e q = rd d q
  written : flag e (HIF_Rr_CFG_ENABLE r) = enable

theorem isRingWord_cfg (r : Fin 1024) : isRingWord (HIF_Rr_CFG r).ofs := by
  simp only [isRingWord]
  omega

theorem cfgStored_storeAt (d : Dev) (m : Master) (r : Fin 1024) (value : Word) :
    cfgStored d (storeAt d m (HIF_Rr_CFG r).ofs value) r (getBits value 31 31 == 1) := by
  obtain ⟨e, w, heq, hw, he⟩ := storeAt_hifCfg d m r value
  have hkeep : e.host = d.host ∧ keepsWords isRingWord d e := by
    rcases he with rfl | ⟨width, lsb, v, a, rfl⟩
    · exact ⟨rfl, .refl _ _⟩
    · exact ⟨logClamp_host d m _ _ _ _ _ _, (keepsWords.refl _ d).logClampHif m _ _ _ _ _⟩
  obtain ⟨hhost, hwords⟩ := hkeep
  rw [heq]
  refine ⟨hhost, fun q hq hc _ => (rd_wr_other e w hc).trans (hwords q hq), ?_⟩
  rw [flag, fld, rd_wr_same, hw]

theorem cfgStored.recheck {d e : Dev} {r : Fin 1024} {b : Bool} (h : cfgStored d e r b) (m : Master) (rel row : Nat) :
    cfgStored d (recheckField e m (unitAt 62) rel row (HIF_Rr_COAL_COAL_CNT r)) r b := by
  rcases recheckField_cases e m (unitAt 62) rel row (HIF_Rr_COAL_COAL_CNT r) with heq | ⟨a, v, heq⟩
  · rw [heq]
    exact h
  · have hwords := (keepsWords.refl isRingWord e).logClampHif m rel ((HIF_Rr_COAL_COAL_CNT r).hi - (HIF_Rr_COAL_COAL_CNT r).lo)
      (HIF_Rr_COAL_COAL_CNT r).lo v a
    rw [heq]
    refine ⟨(logClamp_host e m _ _ _ _ _ _).trans h.host, fun q hq hc hl => ?_, ?_⟩
    · rw [rd_setFld_other _ _ hl, hwords q hq, h.words q hq hc hl]
    · rw [← h.written]
      refine flag_congr _ ?_
      rw [rd_setFld_other _ _ (by simp only; omega), hwords _ (isRingWord_cfg r)]

/-- The word that a write of CFG stores: SIZE_LOG as held while the ring is not DISABLED. -/
def cfgKept (d : Dev) (r : Nat) (value : Word) : Word :=
  if ringState d r = ringDisabled then value else putBits value 20 16 (fld d (HIF_Rr_CFG_SIZE_LOG r))

theorem enable_cfgKept (d : Dev) (r : Nat) (value : Word) : getBits (cfgKept d r value) 31 31 = getBits value 31 31 := by
  unfold cfgKept
  split
  · rfl
  · exact getBits_putBits_other _ _ (.inr (by decide)) (by decide) (by decide)

/-- An admitted write of CFG is stored, and then its ENABLE acts. -/
theorem ringCfgWrite_admitted {m : Master} {r : Fin 1024} {value : Word} {d : Dev} (ha : admits d m (HIF_Rr_CFG r).ofs = true) :
    ∃ e, cfgStored d e r (getBits value 31 31 == 1) ∧ ringCfgWrite m r value d = enableWritten e r (getBits value 31 31 == 1) := by
  have h := (cfgStored_storeAt d m r (cfgKept d r value)).recheck m ((HIF_Rr_COAL r).ofs - 0xF00000) 0x4018
  rw [enable_cfgKept] at h
  refine ⟨_, h, ?_⟩
  rw [ringCfgWrite, guarded_admits _ ha, ← h.written]
  rfl

/-! ### ENABLE (R323) -/

theorem fld_state_of_disabled {d : Dev} {r : Nat} (h : ringState d r = ringDisabled) : fld d (HIF_Rr_STATUS_STATE r) = 0 := by
  unfold ringState at h
  dsimp only at h
  split at h
  · exact absurd h (by decide)
  · exact h

theorem ringState_of_zero {d : Dev} {r : Nat} (h : fld d (HIF_Rr_STATUS_STATE r) = 0) : ringState d r = ringDisabled := by
  unfold ringState
  rw [h]
  exact if_neg (fun hr => absurd hr.1 (by decide))

/-- The checks read the assignments and the configurations of rings and channels, not their STATUS. -/
theorem enableChecks_congr {d e : Dev} (h : ∀ q : Reg, 0xf02100 ≤ q.ofs → (∀ r, q.ofs ≠ (HIF_Rr_STATUS r).ofs) → rd e q = rd d q) (r : Nat) :
    enableChecks e r = enableChecks d r := by
  have hkind : ∀ k, ringKind e k = ringKind d k := fun k => fld_congr _ (h _ (by simp only; omega) (by simp only; omega))
  have howner : ∀ k, ringOwner e k = ringOwner d k := fun k => fld_congr _ (h _ (by simp only; omega) (by simp only; omega))
  have hcq : ringCq e r = ringCq d r := fld_congr _ (h _ (by simp only; omega) (by simp only; omega))
  have hrange : fld e (HIF_Rr_RANGE_QBASE r) = fld d (HIF_Rr_RANGE_QBASE r) := fld_congr _ (h _ (by simp only; omega) (by simp only; omega))
  have hchan : ∀ k < 64, fld e (HIF_DMACc_OWN_OWNER k) = fld d (HIF_DMACc_OWN_OWNER k) :=
    fun k hk => fld_congr _ (h _ (by simp only; omega) (by simp only; omega))
  rw [enableChecks, enableChecks, hkind, hcq, hkind, howner, howner, hrange, hchan _ (Nat.mod_lt _ (by decide))]

/-- A ring starts with zeroed indices. -/
def ringStarted (d : Dev) (r : Nat) : Dev := setFld (setFld (zeroRing d r) (HIF_Rr_STATUS_STATE r) ringRunning) (HIF_Rr_STATUS_ERR r) 0

/-- A ring that fails its checks shows CFG. -/
def ringRefused (d : Dev) (r : Nat) : Dev := raiseOwner (setFld d (HIF_Rr_STATUS_ERR r) 4) r evRingErr

theorem enableWritten_of_disabled {d : Dev} {r : Nat} (h : ringState d r = ringDisabled) :
    enableWritten d r true = if enableChecks d r then ringStarted d r else ringRefused d r := by
  unfold enableWritten
  rw [h]
  rfl

theorem ringHw_setFld (d : Dev) (f : Fld) (v r : Nat) : ringHw (setFld d f v) r = ringHw d r := rfl

theorem ringHw_setFlag (d : Dev) (f : Fld) (b : Bool) (r : Nat) : ringHw (setFlag d f b) r = ringHw d r := rfl

theorem ringHw_zeroRing (d : Dev) (r : Nat) : ringHw (zeroRing d r) r = RingHw.reset := sget_sdrop_same _ _ _

theorem rd_zeroRing (d : Dev) (r : Nat) {q : Reg} (h : q.ofs ≠ (HIF_Rr_STATUS r).ofs) : rd (zeroRing d r) q = rd d q := by
  unfold zeroRing
  rw [rd_setFlag_other _ _ h, rd_setFld_other _ _ h]
  rfl

theorem ringStarted_spec (d : Dev) (r : Nat) : fld (ringStarted d r) (HIF_Rr_STATUS_STATE r) = ringRunning
    ∧ ringHw (ringStarted d r) r = RingHw.reset ∧ enableChecks (ringStarted d r) r = enableChecks d r := by
  refine ⟨?_, ?_, enableChecks_congr (fun q _ hq => ?_) r⟩
  · rw [ringStarted, fld_setFld_apart _ _ (by simp [apart]), fld_setFld_same _ _ (by simp) (by simp)]
    rfl
  · rw [ringStarted, ringHw_setFld, ringHw_setFld, ringHw_zeroRing]
  · rw [ringStarted, rd_setFld_other _ _ (hq r), rd_setFld_other _ _ (hq r), rd_zeroRing _ _ (hq r)]

theorem ringRefused_spec {d : Dev} {r : Nat} (h : fld d (HIF_Rr_STATUS_STATE r) = 0) : fld (ringRefused d r) (HIF_Rr_STATUS_STATE r) = ringDisabled
    ∧ fld (ringRefused d r) (HIF_Rr_STATUS_ERR r) = 4 ∧ enableChecks (ringRefused d r) r = enableChecks d r := by
  have howner : ringOwner (setFld d (HIF_Rr_STATUS_ERR r) 4) r < 32 := fld_lt _ (HIF_Rr_OWN_OWNER r)
  have hword : ∀ q : Reg, 0xf02100 ≤ q.ofs → rd (ringRefused d r) q = rd (setFld d (HIF_Rr_STATUS_ERR r) 4) q := fun q hq => by
    rw [ringRefused, raiseOwner, rd_raiseFn_other _ _ _ (by simp only; omega)]
  refine ⟨?_, ?_, enableChecks_congr (fun q hl hq => ?_) r⟩
  · rw [fld_congr (HIF_Rr_STATUS_STATE r) (hword _ (by simp only; omega)), fld_setFld_apart _ _ (by simp [apart]), h]
    rfl
  · rw [fld_congr (HIF_Rr_STATUS_ERR r) (hword _ (by simp only; omega)), fld_setFld_same _ _ (by simp) (by simp)]
    rfl
  · rw [hword q hl, rd_setFld_other _ _ (hq r)]

theorem getBits_setBit31 (value : Word) : getBits (value ||| 0x80000000) 31 31 = 1 := by
  have h : (value ||| 0x80000000).extractLsb' 31 1 = 1 := by
    ext i hi
    obtain rfl : i = 0 := by omega
    simp
  rw [getBits, h]
  rfl

theorem getBits_clearBit31 (value : Word) : getBits (value &&& 0x7FFFFFFF) 31 31 = 0 := by
  have h : (value &&& 0x7FFFFFFF).extractLsb' 31 1 = 0 := by
    ext i hi
    obtain rfl : i = 0 := by omega
    simp
  rw [getBits, h]
  rfl

/-- RING_ENABLE of a DISABLED ring runs it with zeroed indices where its checks pass, and shows CFG where they fail. -/
theorem ringEnable_disabled {m : Master} {c : Fin 1024} {value : Word} {d : Dev} (ha : admits d m (HIF_Rr_CFG c).ofs = true)
    (hs : ringState d c = ringDisabled) :
    (fld (ringEnable m c value d) (HIF_Rr_STATUS_STATE c) = ringRunning ∧ ringHw (ringEnable m c value d) c = RingHw.reset
      ∧ enableChecks (ringEnable m c value d) c = true)
    ∨ (fld (ringEnable m c value d) (HIF_Rr_STATUS_STATE c) = ringDisabled ∧ fld (ringEnable m c value d) (HIF_Rr_STATUS_ERR c) = 4
      ∧ enableChecks (ringEnable m c value d) c = false) := by
  obtain ⟨e, hstored, heq⟩ := ringCfgWrite_admitted (value := value ||| 0x80000000) ha
  have hzero : fld e (HIF_Rr_STATUS_STATE c) = 0 :=
    (fld_congr _ (hstored.words _ (by simp only [isRingWord]; omega) (by simp only; omega) (by simp only; omega))).trans (fld_state_of_disabled hs)
  rw [getBits_setBit31, beq_self_eq_true, enableWritten_of_disabled (ringState_of_zero hzero)] at heq
  rw [ringEnable, heq]
  cases hc : enableChecks e c with
  | true =>
    obtain ⟨hrun, hreset, hchecks⟩ := ringStarted_spec e c
    exact .inl ⟨hrun, hreset, hchecks.trans hc⟩
  | false =>
    obtain ⟨hstate, herr, hchecks⟩ := ringRefused_spec hzero
    exact .inr ⟨hstate, herr, hchecks.trans hc⟩

/-- RING_DISABLE disables the ring and leaves its indices. -/
theorem ringDisable_disables {m : Master} {c : Fin 1024} (value : Word) {d : Dev} (ha : admits d m (HIF_Rr_CFG c).ofs = true) :
    fld (ringDisable m c value d) (HIF_Rr_STATUS_STATE c) = ringDisabled ∧ ringHw (ringDisable m c value d) c = ringHw d c := by
  obtain ⟨e, hstored, heq⟩ := ringCfgWrite_admitted (value := value &&& 0x7FFFFFFF) ha
  rw [getBits_clearBit31] at heq
  have hdis : enableWritten e c ((0 : Nat) == 1) = disableRing e c := rfl
  rw [ringDisable, heq, hdis]
  exact ⟨fld_setFld_same e (f := HIF_Rr_STATUS_STATE c) ringDisabled (by simp) (by simp), ringHw_congr hstored.host c⟩

end Sys2Proof.Machine
end

section
/-!
PROOFS. What a Function Level Reset does to the commits, the key pages and the rings of a function (R320).
-/

namespace Sys2Proof.Machine

/-! ### The commits and key pages of a function that is reset (R320) -/

/-- Words that no end of a function's commit and no clearing of a key page writes: all but those of TCM, of CIP and of the functions. -/
def flrKeeps (o : Nat) : Prop := o < 0x240000 ∨ 0x250000 ≤ o ∧ o < 0x800000 ∨ 0x810000 ≤ o ∧ o < 0xf01000 ∨ 0xf02000 ≤ o

/-- Nothing differs but those words, messages, the commits and their log, and the key slots. -/
def flrTouches (d e : Dev) : Prop :=
  (∃ r p o l k c, e = { d with regs := r, msixPending := p, out := o, commitLog := l, keySlots := k, commits := c }) ∧ keepsWords flrKeeps d e

theorem flrTouches.refl (d : Dev) : flrTouches d d :=
  ⟨⟨d.regs, d.msixPending, d.out, d.commitLog, d.keySlots, d.commits, rfl⟩, .refl _ d⟩

theorem flrTouches.trans {d e g : Dev} (h : flrTouches d e) (h' : flrTouches e g) : flrTouches d g := by
  obtain ⟨⟨r, p, o, l, k, c, rfl⟩, hw⟩ := h
  obtain ⟨⟨r', p', o', l', k', c', rfl⟩, hw'⟩ := h'
  exact ⟨⟨r', p', o', l', k', c', rfl⟩, hw.trans hw'⟩

theorem flrTouches.host {d e : Dev} (h : flrTouches d e) : e.host = d.host := by
  obtain ⟨⟨r, p, o, l, k, c, rfl⟩, _⟩ := h
  rfl

theorem flrTouches.clock {d e : Dev} (h : flrTouches d e) : e.clock = d.clock := by
  obtain ⟨⟨r, p, o, l, k, c, rfl⟩, _⟩ := h
  rfl

theorem not_flrKeeps_tcm {o : Nat} (h : 0x240000 ≤ o) (h' : o < 0x250000) : ¬ flrKeeps o := by
  unfold flrKeeps
  omega

theorem not_flrKeeps_cip {o : Nat} (h : 0x800000 ≤ o) (h' : o < 0x810000) : ¬ flrKeeps o := by
  unfold flrKeeps
  omega

theorem not_flrKeeps_fn {f : Nat} (h : f < 32) : ¬ flrKeeps (HIF_FNf_EVT f).ofs := by
  unfold flrKeeps
  simp only
  omega

theorem keepsWords.whenD {w : Nat → Prop} {d e : Dev} (h : keepsWords w d e) (c : Bool) {f : Dev → Dev}
    (hf : ∀ g, keepsWords w d g → keepsWords w d (f g)) : keepsWords w d (whenD c f e) := by
  unfold Machine.whenD
  split
  · exact hf e h
  · exact h

theorem keepsFlr_raisePoster {d e : Dev} (h : keepsWords flrKeeps d e) {p : Nat} (hp : p < 32) (b : Nat) :
    keepsWords flrKeeps d (raisePoster e p b) := by
  unfold raisePoster
  rw [if_pos hp]
  exact h.raiseFn (not_flrKeeps_fn hp) b

theorem keepsFlr_recordOutcome {d e : Dev} (h : keepsWords flrKeeps d e) (id units outcome unitBit : Nat) (notify : Bool) {p : Nat} (hp : p < 32) :
    keepsWords flrKeeps d (recordOutcome e id p units outcome unitBit notify) := by
  have hcount : ∀ {q : Reg}, 0x240000 ≤ q.ofs → q.ofs < 0x250000 → ∀ g, keepsWords flrKeeps d g → keepsWords flrKeeps d (count g q) :=
    fun hl hu _ hg => hg.count (not_flrKeeps_tcm hl hu)
  unfold recordOutcome
  dsimp only
  have hseq : keepsWords flrKeeps d (logged e (outcomeEntry e id p units outcome unitBit)) := by
    unfold logged
    exact keepsWords.wr (h.of_regs rfl) (not_flrKeeps_tcm (by decide) (by decide)) _
  have hcounted := ((hseq.whenD (outApplies outcome) (hcount (q := TCM_CNT_APPLIED) (by decide) (by decide))).whenD (outcome == outLate)
    (hcount (q := TCM_CNT_LATE) (by decide) (by decide))).whenD (!outApplies outcome && outcome != outCancelled)
    (hcount (q := TCM_CNT_REJECTED) (by decide) (by decide))
  have hresult := fun c => hcounted.whenD c (f := fun g => setFld g (TCM_POST_RESULT_OUTCOME p) outcome)
    fun _ hg => hg.setFld (not_flrKeeps_tcm (by simp only; omega) (by simp only; omega)) _
  split
  · exact (hresult _).whenD _ fun _ hg => keepsFlr_raisePoster hg hp _
  · exact keepsFlr_raisePoster (hresult _) hp _

theorem logged_touches (d : Dev) (e : CommitEntry) : ∃ r l, logged d e = { d with regs := r, commitLog := l } := ⟨_, _, rfl⟩

theorem slotsFreed_touches (d : Dev) (c : Commit) :
    ∃ r, slotsFreed d c = { d with regs := r, commits := d.commits.filter (fun e => e.id != c.id) } := by
  unfold slotsFreed syncPend
  generalize hg : ({ d with commits := d.commits.filter (fun e => e.id != c.id) } : Dev) = g
  obtain ⟨r, e⟩ := wrn_regs g TCM_PEND0 ((List.range 8).foldl (fun n b => n + slotsUsed g b * 16 ^ b) 0)
  obtain ⟨r', e'⟩ := wrn_regs { g with regs := r } TCM_PEND1 (slotsUsed g 8)
  exact ⟨r', by rw [e, e', ← hg]⟩

theorem finishCommit_flrTouches (d : Dev) (c : Commit) (outcome unitBit : Nat) (hp : c.poster < 32) :
    flrTouches d (finishCommit d c outcome unitBit) := by
  constructor
  · obtain ⟨⟨r, p, o, e⟩, _⟩ := recordOutcome_spec (slotsFreed d c) c.id c.poster c.units outcome unitBit c.notify
    obtain ⟨r', l, e'⟩ := logged_touches (slotsFreed d c) (outcomeEntry (slotsFreed d c) c.id c.poster c.units outcome unitBit)
    obtain ⟨r'', e''⟩ := slotsFreed_touches d c
    refine ⟨r, p, o, l, d.keySlots, d.commits.filter (fun e => e.id != c.id), ?_⟩
    rw [finishCommit_eq, e, e', e'']
  · have hfreed : keepsWords flrKeeps d (slotsFreed d c) :=
      (((keepsWords.refl flrKeeps d).of_regs (g := { d with commits := d.commits.filter (fun e => e.id != c.id) }) rfl).wr
        (r := TCM_PEND0) (not_flrKeeps_tcm (by decide) (by decide)) _).wr (r := TCM_PEND1) (not_flrKeeps_tcm (by decide) (by decide)) _
    exact keepsFlr_recordOutcome hfreed _ _ _ _ _ hp

theorem emptySlot_flrTouches (d : Dev) {k : Nat} (hk : k < 256) : flrTouches d (emptySlot d k) := by
  refine ⟨⟨_, d.msixPending, d.out, d.commitLog, _, d.commits, rfl⟩, ?_⟩
  have hslot := ((((keepsWords.refl flrKeeps d).of_regs (g := setSlot d k KeySlot.empty) rfl).wr (r := CIP_TX_CTR_LO k)
    (not_flrKeeps_cip (by simp only; omega) (by simp only; omega)) 0).wr (r := CIP_TX_CTR_HI k)
    (not_flrKeeps_cip (by simp only; omega) (by simp only; omega)) 0)
  have hctr := (hslot.wr (r := CIP_RX_CTR_LO k) (not_flrKeeps_cip (by simp only; omega) (by simp only; omega)) 0).wr (r := CIP_RX_CTR_HI k)
    (not_flrKeeps_cip (by simp only; omega) (by simp only; omega)) 0
  have hpage : ¬ flrKeeps (CIP_PAGEp_STATUS (k / 4)).ofs := not_flrKeeps_cip (by simp only; omega) (by simp only; omega)
  exact ((hctr.wr hpage _).wr hpage _).wr hpage _

theorem clearPage_flrTouches (d : Dev) {p : Nat} (hp : p < 64) : flrTouches d (clearPage d p) := by
  have hslots : flrTouches d (forEach (List.range 4) (fun d s => emptySlot d (4 * p + s)) d) :=
    forEach_keeps_mem (fun e s hs he => he.trans (emptySlot_flrTouches e (by have := List.mem_range.mp hs; omega))) (.refl d)
  exact hslots.trans ⟨⟨_, _, _, _, _, _, rfl⟩, (keepsWords.refl flrKeeps _).wr (r := CIP_PAGEp_SALT p)
    (not_flrKeeps_cip (by simp only; omega) (by simp only; omega)) _⟩

theorem flrTouches.commits_of_pages {d : Dev} {l : List Nat} (h : ∀ p ∈ l, p + 8 < 64) :
    (forEach l (fun d p => clearPage d (p + 8)) d).commits = d.commits ∧ flrTouches d (forEach l (fun d p => clearPage d (p + 8)) d) := by
  have hslot : ∀ (e : Dev) (k : Nat), (emptySlot e k).commits = e.commits := fun _ _ => rfl
  have hpage : ∀ (e : Dev) (p : Nat), (clearPage e p).commits = e.commits := fun e p => by
    unfold clearPage
    rw [wrn_commits]
    exact forEach_keeps (P := fun g => g.commits = e.commits) (fun g s hg => (hslot g _).trans hg) _ rfl
  exact ⟨forEach_keeps (P := fun g => g.commits = d.commits) (fun g p hg => (hpage g _).trans hg) _ rfl,
    forEach_keeps_mem (fun e p hp he => he.trans (clearPage_flrTouches e (h p hp))) (.refl d)⟩

/-! ### The rings of a function that is reset (R320) -/

/-- A ring is DISABLED and zeroed. -/
def ringCleared (r : Nat) (d : Dev) : Prop := fld d (HIF_Rr_STATUS_STATE r) = ringDisabled ∧ ringHw d r = RingHw.reset

theorem ringHw_zeroRing_other (d : Dev) {r k : Nat} (h : r ≠ k) : ringHw (zeroRing d k) r = ringHw d r := sget_sdrop_other _ _ h

theorem rd_disableZero (d : Dev) (k : Nat) {q : Reg} (h : q.ofs ≠ (HIF_Rr_STATUS k).ofs) : rd (disableRing (zeroRing d k) k) q = rd d q := by
  rw [disableRing, rd_setFld_other _ _ h, rd_zeroRing _ _ h]

theorem ringCleared_self (d : Dev) (r : Nat) : ringCleared r (disableRing (zeroRing d r) r) := by
  constructor
  · rw [disableRing, fld_setFld_same _ _ (by simp) (by simp)]
    rfl
  · rw [disableRing, ringHw_setFld, ringHw_zeroRing]

theorem ringCleared.disableZero {d : Dev} {r : Nat} (h : ringCleared r d) (k : Nat) : ringCleared r (disableRing (zeroRing d k) k) := by
  by_cases hk : r = k
  · rw [hk]
    exact ringCleared_self d k
  · obtain ⟨hs, hw⟩ := h
    constructor
    · rw [← hs]
      exact fld_congr _ (rd_disableZero d k (by simp only; omega))
    · rw [disableRing, ringHw_setFld, ringHw_zeroRing_other _ hk, hw]

/-- The rings of a list are disabled and zeroed. -/
def ringsCleared (d : Dev) (l : List Nat) : Dev := forEach l (fun d r => disableRing (zeroRing d r) r) d

theorem rd_ringsCleared (d : Dev) (l : List Nat) {q : Reg} (h : ∀ r, q.ofs ≠ (HIF_Rr_STATUS r).ofs) : rd (ringsCleared d l) q = rd d q :=
  forEach_keeps (P := fun e => rd e q = rd d q) (fun e k he => (rd_disableZero e k (h k)).trans he) l rfl

theorem ringCleared_ringsCleared (d : Dev) {l : List Nat} {r : Nat} (h : r ∈ l) : ringCleared r (ringsCleared d l) :=
  forEach_reaches (P := ringCleared r) (fun _ k he => he.disableZero k) (fun e => ringCleared_self e r) h d

theorem disableZero_touches (d : Dev) (k : Nat) : ∃ r t, disableRing (zeroRing d k) k = { d with regs := r, host := t } := ⟨_, _, rfl⟩

theorem ringsCleared_touches (d : Dev) (l : List Nat) : ∃ r t, ringsCleared d l = { d with regs := r, host := t } := by
  refine forEach_keeps (P := fun e => ∃ r t, e = { d with regs := r, host := t }) (fun e k he => ?_) l ⟨d.regs, d.host, rfl⟩
  obtain ⟨r, t, rfl⟩ := he
  exact disableZero_touches _ k

/-! ### The steps of a Function Level Reset (R320) -/

/-- The commits of a function are cancelled. -/
def commitsCancelled (d : Dev) (f : Nat) : Dev :=
  forEach (d.commits.filter (fun c => posterMaster c.poster == f)) (fun d c => finishCommit d c outCancelled 15) d

/-- The key pages of a function are cleared. -/
def pagesCleared (d : Dev) (f : Nat) : Dev :=
  forEach ((List.range 56).filter (fun p => fld d (HIF_KPp_OWN_OWNER p) == f)) (fun d p => clearPage d (p + 8)) d

theorem resetFunction_eq (d : Dev) (f : Nat) : resetFunction d f
    = resetMsix (releaseMaster (pagesCleared (commitsCancelled (ringsCleared d ((List.range 1024).filter (fun r => ringOwner d r == f))) f) f) f) f :=
  rfl

theorem poster_lt_of_function {p f : Nat} (hf : f < 32) (h : posterMaster p = f) : p < 32 := by
  unfold posterMaster at h
  split at h
  · assumption
  · have hn : 0x64 + (p - 32) = f := h
    omega

theorem commitsCancelled_flrTouches (d : Dev) {f : Nat} (hf : f < 32) : flrTouches d (commitsCancelled d f) := by
  refine forEach_keeps_mem (fun e c hc he => he.trans (finishCommit_flrTouches e c _ _ (poster_lt_of_function hf ?_))) (.refl d)
  exact beq_iff_eq.mp (List.mem_filter.mp hc).2

/-- No commit of the function is left, and none is added. -/
theorem commitsCancelled_commits (d : Dev) (f : Nat) {c : Commit} (hc : c ∈ (commitsCancelled d f).commits) :
    c ∈ d.commits ∧ posterMaster c.poster ≠ f := by
  have hkeep : c ∈ d.commits ∧ ∀ b ∈ d.commits.filter (fun b => posterMaster b.poster == f), c.id ≠ b.id := by
    unfold commitsCancelled at hc
    generalize d.commits.filter (fun b => posterMaster b.poster == f) = l at hc ⊢
    induction l generalizing d with
    | nil => exact ⟨hc, fun b hb => absurd hb List.not_mem_nil⟩
    | cons a t ih =>
      obtain ⟨hm, hids⟩ := ih (finishCommit d a outCancelled 15) hc
      have hne := id_ne_of_mem_finishCommit hm
      rw [finishCommit_commits] at hm
      exact ⟨(List.mem_filter.mp hm).1, List.forall_mem_cons.mpr ⟨hne, hids⟩⟩
  obtain ⟨hmem, hids⟩ := hkeep
  refine ⟨hmem, fun hp => hids c (List.mem_filter.mpr ⟨hmem, beq_iff_eq.mpr hp⟩) rfl⟩

theorem pagesCleared_spec (d : Dev) (f : Nat) : (pagesCleared d f).commits = d.commits ∧ flrTouches d (pagesCleared d f) := by
  refine flrTouches.commits_of_pages fun p hp => ?_
  have := List.mem_range.mp (List.mem_filter.mp hp).1
  omega

/-- Before the function is released: its rings are cleared, its commits cancelled and its key pages cleared. -/
def functionCleared (d : Dev) (f : Nat) : Dev :=
  pagesCleared (commitsCancelled (ringsCleared d ((List.range 1024).filter (fun r => ringOwner d r == f))) f) f

theorem functionCleared_flrTouches (d : Dev) {f : Nat} (hf : f < 32) :
    flrTouches (ringsCleared d ((List.range 1024).filter (fun r => ringOwner d r == f))) (functionCleared d f) :=
  (commitsCancelled_flrTouches _ hf).trans (pagesCleared_spec _ f).2

theorem functionCleared_commits (d : Dev) (f : Nat) {c : Commit} (hc : c ∈ (functionCleared d f).commits) :
    c ∈ d.commits ∧ posterMaster c.poster ≠ f := by
  rw [functionCleared, (pagesCleared_spec _ f).1] at hc
  obtain ⟨r, t, e⟩ := ringsCleared_touches d ((List.range 1024).filter (fun r => ringOwner d r == f))
  obtain ⟨hm, hp⟩ := commitsCancelled_commits _ f hc
  rw [e] at hm
  exact ⟨hm, hp⟩

theorem ringCleared_congr {d e : Dev} {r : Nat} (hh : e.host = d.host) (hw : rd e (HIF_Rr_STATUS r) = rd d (HIF_Rr_STATUS r))
    (h : ringCleared r d) : ringCleared r e := by
  obtain ⟨hs, hr⟩ := h
  exact ⟨(fld_congr _ hw).trans hs, (ringHw_congr hh r).trans hr⟩

theorem ringCleared_functionCleared (d : Dev) {f r : Nat} (hf : f < 32) (hr : r < 1024) (ho : ringOwner d r = f) :
    ringCleared r (functionCleared d f) := by
  have h := functionCleared_flrTouches d hf
  refine ringCleared_congr h.host (h.2 _ (by unfold flrKeeps; simp only; omega)) (ringCleared_ringsCleared d ?_)
  exact List.mem_filter.mpr ⟨List.mem_range.mpr hr, beq_iff_eq.mpr ho⟩

theorem rd_functionCleared (d : Dev) {f : Nat} (hf : f < 32) {q : Reg} (hq : flrKeeps q.ofs) (hs : ∀ r, q.ofs ≠ (HIF_Rr_STATUS r).ofs) :
    rd (functionCleared d f) q = rd d q :=
  ((functionCleared_flrTouches d hf).2 q hq).trans (rd_ringsCleared d _ hs)

/-! ### The release of a function (R36) -/

/-- A release of a function that disables its running rings keeps what is disabled, and every other word of the rings. -/
theorem stopRings_spec (d : Dev) (f : Nat) : (∀ q : Reg, (∀ r, q.ofs ≠ (HIF_Rr_STATUS r).ofs) → rd (stopRings d f) q = rd d q)
    ∧ ∀ r, ringCleared r d → ringCleared r (stopRings d f) := by
  unfold stopRings
  constructor
  · intro q hq
    refine forEach_keeps (P := fun e => rd e q = rd d q) (fun e k he => ?_) _ rfl
    split
    · exact (rd_setFld_other e _ (hq k)).trans he
    · exact he
  · intro r hr
    refine forEach_keeps (P := ringCleared r) (fun e k he => ?_) _ hr
    split
    · by_cases hk : r = k
      · rw [hk] at he ⊢
        refine ⟨(fld_setFld_same e _ (by simp) (by simp)).trans rfl, he.2⟩
      · exact ringCleared_congr (d := e) rfl (rd_setFld_other e _ (by simp only; omega)) he
    · exact he

theorem releaseFunction_spec (d : Dev) {f : Nat} (hf : f < 32) :
    (∀ q : Reg, 0x100000 ≤ q.ofs → (∀ r, q.ofs ≠ (HIF_Rr_STATUS r).ofs) → rd (releaseMaster d f) q = rd d q)
      ∧ ∀ r, ringCleared r d → ringCleared r (releaseMaster d f) := by
  obtain ⟨hwords, hcleared⟩ := stopRings_spec d f
  cases hz : isFrozen d f with
  | false =>
    rw [releaseMaster_of_not_frozen hz]
    exact ⟨fun _ _ _ => rfl, fun _ hr => hr⟩
  | true =>
    have e : releaseMaster d f = flushVectors (setRegBit (stopRings d f) (ROOT_FRZ_MAP (f / 32)) (f % 32) false) := by
      unfold releaseMaster
      rw [if_pos hz, if_pos hf]
    have hflush : ∀ (g : Dev) (q : Reg), rd (flushVectors g) q = rd g q := fun g q => by rw [rd, flushVectors_regs, rd]
    have hhost : ∀ (g : Dev) (q : Reg) (b : Nat) (v : Bool), (flushVectors (setRegBit g q b v)).host = g.host := fun g q b v => by
      obtain ⟨p, o, eq⟩ := flushVectors_spec (setRegBit g q b v)
      rw [eq]
      rfl
    have hmap : (ROOT_FRZ_MAP (f / 32)).ofs < 0x100000 := by simp only; omega
    rw [e]
    refine ⟨fun q hl hq => ?_, fun r hr => ringCleared_congr (hhost _ _ _ _) ?_ (hcleared r hr)⟩
    · rw [hflush, rd_setRegBit_other _ _ _ (by omega), hwords q hq]
    · rw [hflush, rd_setRegBit_other _ _ _ (by simp only; omega)]

/-! ### What a Function Level Reset leaves (R320) -/

/-- What is said of a device after the reset of a function. -/
structure functionIsReset (d e : Dev) (f : Nat) : Prop where
  runs : isFrozen e f = false
  commits : ∀ c ∈ e.commits, c ∈ d.commits ∧ posterMaster c.poster ≠ f
  words : ∀ q : Reg, 0x100000 ≤ q.ofs → flrKeeps q.ofs → (∀ r, q.ofs ≠ (HIF_Rr_STATUS r).ofs) → rd e q = rd d q
  cleared : ∀ r < 1024, ringOwner d r = f → ringCleared r e

theorem resetMsix_touches (d : Dev) (f : Nat) : ∃ t p m, resetMsix d f = { d with msixTable := t, msixPending := p, msixFnMask := m } :=
  ⟨_, _, _, rfl⟩

theorem resetFunction_spec (d : Dev) {f : Nat} (hf : f < 32) : functionIsReset d (resetFunction d f) f := by
  have hrel := releaseFunction_spec (functionCleared d f) hf
  obtain ⟨r, t, p, o, erel⟩ := releaseMaster_touches (functionCleared d f) f
  obtain ⟨t', p', m', emsix⟩ := resetMsix_touches (releaseMaster (functionCleared d f) f) f
  have e : resetFunction d f = resetMsix (releaseMaster (functionCleared d f) f) f := resetFunction_eq d f
  have hregs : (resetFunction d f).regs = (releaseMaster (functionCleared d f) f).regs := by rw [e, emsix]
  have hhost : (resetFunction d f).host = (releaseMaster (functionCleared d f) f).host := by rw [e, emsix]
  have hrd : ∀ q : Reg, rd (resetFunction d f) q = rd (releaseMaster (functionCleared d f) f) q := fun q => by rw [rd, hregs, rd]
  refine ⟨?_, fun c hc => ?_, fun q hl hk hq => ?_, fun r hr ho => ?_⟩
  · rw [isFrozen_congr hregs, isFrozen_releaseMaster _ _ (by omega), if_pos rfl]
  · refine functionCleared_commits d f ?_
    have hcommits : (resetFunction d f).commits = (functionCleared d f).commits := by rw [e, emsix, erel]
    exact hcommits ▸ hc
  · rw [hrd, hrel.1 q hl hq, rd_functionCleared d hf hk hq]
  · exact ringCleared_congr hhost (hrd _) (hrel.2 r (ringCleared_functionCleared d hf hr ho))

end Sys2Proof.Machine
end

section
/-!
PROOFS. Function Level Reset, the link, configuration requests and MSI-X, and the obligation RingsAndHost (R315 to R334, R428).
-/

namespace Sys2Proof.Machine

theorem exec_flr (f : Fin 31) (s : State) : exec (.flr f) s = .next (s.withDev (flr f s.dev)) := rfl

theorem exec_usb4LinkChange (l : Usb4Link) (s : State) : exec (.usb4LinkChange l) s = .next (s.withDev (usb4LinkChange l s.dev)) := rfl

theorem exec_configurationRequest (f : Fin 32) (n : Option (Fin 32)) (s : State) :
    exec (.configurationRequest f n) s = .next (s.withDev (configurationRequest f n s.dev)) := rfl

theorem exec_msixTableWrite (f : Fin 32) (t : MsixTarget) (value : Word) (s : State) :
    exec (.msixTableWrite f t value) s = .next (s.withDev (msixTableWrite f t value s.dev)) := rfl

/-- FLR of a function that the host reaches (R320). -/
theorem flr_spec (f : Fin 31) {d : Dev} (h : hostReaches d = true) : isFrozen (flr f d) (f.val + 1) = false
    ∧ (∀ r : Nat, r < 1024 → ringOwner (flr f d) r = ringOwner d r
        ∧ (ringOwner d r = f.val + 1 → fld (flr f d) (HIF_Rr_STATUS_STATE r) = ringDisabled ∧ ringHw (flr f d) r = RingHw.reset))
    ∧ ∀ c ∈ (flr f d).commits, posterMaster c.poster ≠ f.val + 1 := by
  have hs := resetFunction_spec d (f := f.val + 1) (by omega)
  have e : flr f d = resetFunction d (f.val + 1) := by
    unfold flr
    exact if_pos h
  rw [e]
  refine ⟨hs.runs, fun r hr => ⟨?_, hs.cleared r hr⟩, fun c hc => (hs.commits c hc).2⟩
  exact fld_congr _ (hs.words _ (by simp only; omega) (by unfold flrKeeps; simp only; omega) (by simp only; omega))

/-! ### The link and configuration requests (R315, R428) -/

theorem usb4LinkChange_gen4 {d : Dev} (h : domainOn d 47 = true) : fld (usb4LinkChange .gen4 d) HIF_LINK_STATUS_GEN = 4
    ∧ flag (usb4LinkChange .gen4 d) HIF_LINK_STATUS_TUNNEL_UP = true := by
  unfold usb4LinkChange
  rw [h, if_neg (by decide)]
  dsimp only
  refine ⟨?_, flag_setFlag_same _ true (by decide) (by decide)⟩
  rw [fld_setFlag_apart _ _ (by simp [apart]), fld_setFld_same _ _ (by decide) (by decide)]
  rfl

theorem usb4LinkChange_lost {d : Dev} (h : domainOn d 47 = true) : flag (usb4LinkChange .lost d) HIF_LINK_STATUS_TUNNEL_UP = false
    ∧ (usb4LinkChange .lost d).host = d.host := by
  unfold usb4LinkChange
  rw [h, if_neg (by decide)]
  exact ⟨flag_setFlag_same _ false (by decide) (by decide), rfl⟩

theorem configurationRequest_held {d : Dev} (h : domainOn d 47 = true) (hr : flag d RST_STATUS_RELEASED = false) (f : Fin 32)
    (n : Option (Fin 32)) : configurationRequest f n d = emit d (.config f true) := by
  unfold configurationRequest
  rw [h, hr]
  rfl

theorem configurationRequest_enables {d : Dev} (h : domainOn d 47 = true) (hr : flag d RST_STATUS_RELEASED = true) (n : Fin 32) :
    fld (configurationRequest 0 (some n) d) HIF_LINK_STATUS_NUM_VFS = n.val := by
  have e : configurationRequest 0 (some n) d = emit (setFld d HIF_LINK_STATUS_NUM_VFS n) (.config 0 false) := by
    unfold configurationRequest
    rw [h, hr]
    rfl
  rw [e, fld_congr HIF_LINK_STATUS_NUM_VFS (rd_emit _ _ _), fld_setFld_same _ _ (by decide) (by decide)]
  exact Nat.mod_eq_of_lt n.isLt

/-! ### MSIX_TABLE_WRITE (R317) -/

theorem flushVectors_msixTable (d : Dev) : (flushVectors d).msixTable = d.msixTable := by
  obtain ⟨p, o, e⟩ := flushVectors_spec d
  rw [e]

theorem msixTableWrite_stores {d : Dev} (h : hostReaches d = true) (f : Fin 32) (v : Fin 64) (w : Fin 4) (value : Word) :
    msixWord (msixTableWrite f (.word v w) value d) f v w = msixStored w value ∧ (msixTableWrite f (.word v w) value d).regs = d.regs := by
  have hw : ((w : Nat) = 3) = (w = 3) := propext ⟨fun h => Fin.ext h, fun h => by rw [h]; rfl⟩
  unfold msixTableWrite
  rw [h, if_neg (by decide)]
  dsimp only
  refine ⟨?_, flushVectors_regs _⟩
  rw [msixWord, flushVectors_msixTable]
  simp only [hw]
  exact sget_sput_same _ _ _ _

/-- Settles O54: completions by the record of what they touch, each command by its equation on the case that its clause names. -/
theorem ringsAndHost : Obligations.RingsAndHost := by
  refine ⟨fun d c e => postCq_takes, fun f value s h hz r hr => ⟨fun size hs => ?_, fun ho => ?_, fun ho => ?_⟩,
    fun f value s h hz r hr => ⟨fun size hs => ?_, fun ho => ?_, fun ho hn => ?_, fun ho hn hk hi => ?_⟩,
    fun r b data s hm hl => ⟨fun hc => ?_, fun st hc => ?_⟩,
    fun r s f rest hq => ⟨fun descs ht => ?_, fun b ht hm hb hl => ⟨_, exec_rxDeliver r [b] s, rxDeliver_writes hq ht hm hb hl⟩⟩,
    fun r b body s hm => ⟨fun h => ⟨_, exec_cmdDescriptor r b body s, cmdDescriptor_rejects hm h⟩, fun hc ha hf hn => ?_⟩,
    fun c s => ⟨fun t hf ht => ?_, fun t hf hk hst ht => ?_, fun m value ha => ⟨fun hd => ?_, ?_⟩, fun what tag hr hs hw => ?_⟩,
    fun f s h => ⟨_, exec_flr f s, flr_spec f h⟩,
    fun s h => ⟨⟨_, exec_usb4LinkChange .gen4 s, usb4LinkChange_gen4 h⟩, ⟨_, exec_usb4LinkChange .lost s, usb4LinkChange_lost h⟩,
      fun hr f n => ?_, fun hr => ⟨fun n => ⟨_, exec_configurationRequest 0 (some n) s, configurationRequest_enables h hr n⟩,
        fun f v w value => ⟨_, exec_msixTableWrite f (.word v w) value s, msixTableWrite_stores ?_ f v w value⟩⟩⟩⟩
  · rw [exec_doorbell, doorbell_width h hs, hz, if_pos rfl, withDev_self]
  · rw [exec_doorbell, doorbell_foreign h hr ho]
  · rw [exec_doorbell, doorbell_own h hr ho, hz, if_pos rfl, withDev_self]
  · rw [exec_doorbell, doorbell_width h hs, hz, if_neg (by decide)]
  · rw [exec_doorbell, doorbell_foreign h hr ho]
  · rw [exec_doorbell, doorbell_own h hr ho, hz, if_neg (by decide), doorbellIndex_stopped _ hn]
  · refine ⟨_, exec_doorbell f 4 value s, ?_⟩
    rw [doorbell_own h hr ho, hz, if_neg (by decide), doorbellIndex_taken hn hk hi, ringHw_setRing]
    exact ⟨rfl, rfl⟩
  · obtain ⟨o, ho⟩ := txSubmit_offers s.dev r b data
    refine ⟨_, o, exec_txFrameSubmit r [b] data s, ?_⟩
    rw [txFrameSubmit_one hm hl, hc]
    exact ho
  · refine ⟨_, exec_txFrameSubmit r [b] data s, ?_⟩
    rw [txFrameSubmit_one hm hl, hc]
    exact submitRejected_counts s.dev r (sdTag b) st
  · rw [exec_rxDeliver, rxDeliver_stopped hq descs ht]
  · obtain ⟨c, h⟩ := cmdDescriptor_queues hm hc ha hf hn
    exact ⟨_, c, exec_cmdDescriptor r b body s, h⟩
  · refine ⟨_, exec_cqSignal c s, ?_⟩
    rw [cqSignal_due hf ht, ringHw_signalCq]
    exact ⟨rfl, rfl⟩
  · obtain ⟨hmark, hcount⟩ := stallRaised_spec s.dev c
    refine ⟨stallRaised s.dev c, by rw [exec_cqStall, cqStall_due hf hk hst ht], hcount, ?_⟩
    have hdev : (s.withDev (stallRaised s.dev c)).dev = stallRaised s.dev c := rfl
    rw [exec_cqStall, hdev, cqStall_again hmark]
    rfl
  · exact ⟨_, exec_ringEnable m c value s, ringEnable_disabled ha hd⟩
  · exact ⟨_, exec_ringDisable m c value s, ringDisable_disables value ha⟩
  · obtain ⟨n, h⟩ := hostReadError_settles what tag hr hs hw
    obtain ⟨hstate, herr, hcount⟩ := readFailed_spec s.dev c (what.val + 1) (by omega)
    refine ⟨_, exec_hostReadError c what tag s, (h.state c).trans hstate, (h.err c).trans herr, ?_⟩
    exact (congrArg BitVec.toNat (h.words HIF_RD_ERR (by simp only; omega))).trans hcount
  · rw [exec_configurationRequest, configurationRequest_held h hr]
  · rw [hostReaches, hr, h]
    rfl

end Sys2Proof.Machine
end

section
/-!
PROOFS. The bytes that the DMA engines move: reads and writes at a side of a hop, runs of accesses, and a channel's turn (R344, R345,
R348, R353).
-/

namespace Sys2Proof.Machine

/-! ### Ranges of a memory in two parts -/

theorem writeMem_append (fill : Byte) (m : List Host.Cell) (a : Nat) (xs ys : List Byte) :
    writeMem fill (writeMem fill m a xs) (a + xs.length) ys = writeMem fill m a (xs ++ ys) := by
  induction xs generalizing m a with
  | nil => rfl
  | cons x xs ih =>
    rw [List.cons_append, writeMem, writeMem, ← ih]
    congr 1
    rw [List.length_cons]
    omega

theorem readMem_append (fill : Byte) (m : List Host.Cell) (a n k : Nat) :
    readMem fill m a n ++ readMem fill m (a + n) k = readMem fill m a (n + k) := by
  simp only [readMem, List.range_add, List.map_append, List.map_map]
  congr 1
  refine List.map_congr_left fun i _ => ?_
  rw [Function.comp_apply, Nat.add_assoc]

theorem writeDram_append (s : Mem) (a : Nat) (xs ys : List Byte) :
    writeDram (writeDram s a xs) (a + xs.length) ys = writeDram s a (xs ++ ys) := by
  rw [writeDram, writeDram, writeDram]
  exact congrArg (fun m => { s with dram := m }) (writeMem_append _ _ _ _ _)

theorem readFlash_append (s : Mem) (a n k : Nat) : readFlash s a n ++ readFlash s (a + n) k = readFlash s a (n + k) := readMem_append _ _ _ _ _

theorem length_readFlash (s : Mem) (a n : Nat) : (readFlash s a n).length = n := length_readMem _ _ _ _

theorem readFlash_writeDram (s : Mem) (a b n : Nat) (bs : List Byte) : readFlash (writeDram s a bs) b n = readFlash s b n := rfl

/-! ### A side of a hop (R340, R344) -/

section Sides

variable {x y : Side} {i n : Nat}

theorem at'_inc (h : x.mode = .inc) (i : Nat) : x.at' i = x.addr + i := by rw [Side.at', h]

theorem room_pos (x : Side) (i : Nat) : 0 < x.room i := by
  rw [Side.room]
  omega

theorem accessLen_le (x y : Side) (i n : Nat) : accessLen x y i n ≤ n := by
  unfold accessLen
  dsimp only
  split
  · exact Nat.min_le_right 4 n
  · exact Nat.min_le_left _ _

theorem accessLen_pos (x y : Side) (i : Nat) (h : 0 < n) : 0 < accessLen x y i n := by
  have hx := room_pos x i
  have hy := room_pos y i
  unfold accessLen
  dsimp only
  split <;> omega

theorem sum_pieces (x : Side) (i n : Nat) : ((x.pieces i n).map (·.2)).sum = n := by
  unfold Side.pieces
  split
  · exact Nat.add_zero n
  · simp only [List.map_cons, List.map_nil, List.sum_cons, List.sum_nil]
    omega

/-- A write at a side of DRAM whose address moves on is one write of its bytes. -/
theorem writeSide_dram (hs : y.space = .dram) (hm : y.mode = .inc) (m : Master) (f i : Nat) (bs : List Byte) (d : Dev) (s : Mem) :
    writeSide m f y i bs d s = (d, writeDram s (y.addr + i) bs) := by
  rw [writeSide]
  simp only [hs, at'_inc hm, Side.pieces]
  split
  · simp [slice]
  · next h =>
    simp only [List.map_cons, List.map_nil, List.foldl_cons, List.foldl_nil, slice, Nat.sub_self, List.drop_zero, Nat.add_sub_cancel_left]
    have hlen : (bs.take (y.room i)).length = y.room i := List.length_take_of_le (by omega)
    have hrest : (bs.drop (y.room i)).take (bs.length - y.room i) = bs.drop (y.room i) := List.take_of_length_le (by rw [List.length_drop])
    have := writeDram_append s (y.addr + i) (bs.take (y.room i)) (bs.drop (y.room i))
    rw [hlen, List.take_append_drop] at this
    rw [hrest, ← Nat.add_assoc, this]

/-- A read at a side of flash whose address moves on is one read of its bytes. -/
theorem readSide_flash (hs : x.space = .flash) (hm : x.mode = .inc) (reader : Master) (i n : Nat) (host : List Byte) (d : Dev) (s : Mem) :
    readSide reader x i n host d s = (d, readFlash s (x.addr + i) n) := by
  rw [readSide]
  simp only [hs, at'_inc hm, Side.pieces, readSpace]
  split
  · simp
  · simp only [List.map_cons, List.map_nil, List.flatten_cons, List.flatten_nil, List.append_nil, ← Nat.add_assoc]
    rw [readFlash_append]
    congr
    omega

/-- A read of host memory takes the bytes that the host has answered. -/
theorem readSide_host (hs : x.space = .host) (reader : Master) (i : Nat) {host : List Byte} (h : n ≤ host.length) (d : Dev) (s : Mem) :
    readSide reader x i n host d s = (d, host.take n) := by
  rw [readSide]
  simp only [hs, Prod.mk.injEq, true_and]
  refine List.ext_getElem (by simp [h]) fun k h1 h2 => ?_
  have hk : k < host.length := by
    rw [List.length_take] at h2
    omega
  rw [List.getElem_map, List.getElem_range, List.getD_eq_getElem _ _ hk, List.getElem_take]

theorem length_readPieces (s : Mem) (hs : x.space = .dram ∨ x.space = .flash ∨ x.space = .core) (i n : Nat) :
    ((x.pieces i n).map (fun p => readSpace s x.space (x.at' p.1) p.2)).flatten.length = n := by
  have hlen (a k : Nat) : (readSpace s x.space a k).length = k := by
    rcases hs with hs | hs | hs <;> (rw [hs]; exact length_readMem _ _ _ _)
  rw [List.length_flatten, List.map_map]
  refine Eq.trans (congrArg List.sum (List.map_congr_left fun p _ => ?_)) (sum_pieces x i n)
  exact hlen _ _

/-- A read answers as many bytes as it asks for. -/
theorem length_readSide (reader : Master) (x : Side) (i n : Nat) (host : List Byte) (d : Dev) (s : Mem) :
    (readSide reader x i n host d s).2.length = n := by
  unfold readSide
  split
  · rw [List.length_map, List.length_range]
  · exact length_leBytes n _
  · next hh hu =>
    refine length_readPieces s ?_ i n
    cases h : x.space with
    | host => exact absurd h hh
    | unit => exact absurd h hu
    | dram => exact .inl rfl
    | flash => exact .inr (.inl rfl)
    | core => exact .inr (.inr rfl)

end Sides

/-! ### A run of accesses (R353) -/

/-- Nothing differs in the memories but the bytes of DRAM from lo up to hi. -/
def dramWithin (lo hi : Nat) (s s' : Mem) : Prop :=
  s'.flash = s.flash ∧ s'.core = s.core ∧ ∀ a, (a < lo ∨ hi ≤ a) → readDram s' a 1 = readDram s a 1

theorem dramWithin.refl (lo hi : Nat) (s : Mem) : dramWithin lo hi s s := ⟨rfl, rfl, fun _ _ => rfl⟩

theorem dramWithin.trans {lo hi lo' hi' : Nat} {s s' t : Mem} (h : dramWithin lo hi s s') (h' : dramWithin lo' hi' s' t) (hl : lo ≤ lo')
    (hh : hi' ≤ hi) : dramWithin lo hi s t := by
  obtain ⟨hf, hc, hd⟩ := h
  obtain ⟨hf', hc', hd'⟩ := h'
  refine ⟨hf'.trans hf, hc'.trans hc, fun a ha => (hd' a ?_).trans (hd a ha)⟩
  omega

theorem dramWithin_writeDram (s : Mem) {lo hi a : Nat} {bs : List Byte} (hl : lo ≤ a) (hh : a + bs.length ≤ hi ∨ bs = []) :
    dramWithin lo hi s (writeDram s a bs) := by
  refine ⟨rfl, rfl, fun b hb => ?_⟩
  rcases hh with hh | hh
  · exact readDram_writeDram_apart s (by omega)
  · rw [hh]
    rfl

/-- A run of accesses to DRAM changes no byte beside its destination. -/
theorem moveBytes_within {y : Side} (hs : y.space = .dram) (hm : y.mode = .inc) (m reader : Master) (f : Nat) (x : Side) (stop n : Nat)
    (i : Nat) (host : List Byte) (d : Dev) (s : Mem) :
    dramWithin (y.addr + i) (y.addr + stop) s (moveBytes m reader f x y stop n i host d s).2.1 := by
  induction n generalizing i host d s with
  | zero => exact .refl _ _ s
  | succ n ih =>
    rw [moveBytes]
    split
    · exact .refl _ _ s
    split
    · exact .refl _ _ s
    next hi _ =>
    dsimp only
    split
    · exact .refl _ _ s
    · exact .refl _ _ s
    · have hk := accessLen_le x y i (stop - i)
      have hlen := length_readSide reader x i (accessLen x y i (stop - i)) host d s
      rw [writeSide_dram hs hm]
      exact (dramWithin_writeDram s (Nat.le_refl _) (.inl (by omega))).trans (ih _ _ _ _) (by omega) (Nat.le_refl _)

/-- The bytes of a side whose targets have power. -/
theorem unpoweredAt_none {d : Dev} {x : Side} (h : ∀ a, targetPowered d x.space a = true) (i n : Nat) : unpoweredAt d x i n = none := by
  rw [unpoweredAt, List.find?_eq_none.mpr (fun p _ => by rw [h]; decide)]
  rfl

theorem targetPowered_dram {d : Dev} (h45 : domainOn d 45 = true) (h46 : domainOn d 46 = true) (a : Nat) :
    targetPowered d .dram a = true := by
  rw [targetPowered]
  obtain h | h : a / 256 % 2 = 0 ∨ a / 256 % 2 = 1 := by omega
  · rw [h, h45]
  · rw [h, h46]

/-- A run from flash to DRAM, both powered, copies the bytes. -/
theorem moveBytes_copies {x y : Side} {d : Dev} {m : Master} (hx : x.space = .flash) (hxm : x.mode = .inc) (hy : y.space = .dram)
    (hym : y.mode = .inc) (h45 : domainOn d 45 = true) (h46 : domainOn d 46 = true) (hz : isFrozen d m = false) (reader : Master)
    (f stop n i : Nat) (host : List Byte) (s : Mem) (hi : i ≤ stop) (hn : stop - i ≤ n) :
    moveBytes m reader f x y stop n i host d s = (d, writeDram s (y.addr + i) (readFlash s (x.addr + i) (stop - i)), stop, .all) := by
  induction n generalizing i host s with
  | zero =>
    obtain rfl : i = stop := by omega
    rw [Nat.sub_self]
    rfl
  | succ n ih =>
    rw [moveBytes]
    by_cases he : stop ≤ i
    · obtain rfl : i = stop := by omega
      rw [if_pos he, Nat.sub_self]
      rfl
    · have hpos := accessLen_pos x y i (n := stop - i) (by omega)
      have hle := accessLen_le x y i (stop - i)
      rw [if_neg he, hz, if_neg (by decide)]
      dsimp only
      rw [unpoweredAt_none (fun a => by rw [hx]; rfl), unpoweredAt_none (fun a => by rw [hy]; exact targetPowered_dram h45 h46 a)]
      dsimp only
      rw [readSide_flash hx hxm, writeSide_dram hy hym]
      dsimp only
      rw [ih _ _ _ (by omega) (by omega), readFlash_writeDram]
      have hw := writeDram_append s (y.addr + i) (readFlash s (x.addr + i) (accessLen x y i (stop - i)))
        (readFlash s (x.addr + i + accessLen x y i (stop - i)) (stop - (i + accessLen x y i (stop - i))))
      rw [length_readFlash, readFlash_append] at hw
      rw [← Nat.add_assoc, ← Nat.add_assoc, hw]
      congr 4
      omega

/-! ### A turn of a main channel (R348) -/

theorem chanState_busy {d : Dev} {c : Nat} :
    chanState d c = 1 ↔ isFrozen d (chanMaster c) = false ∧ dmaHalted d = false ∧ (chanRun d c).isSome = true := by
  unfold chanState
  cases isFrozen d (chanMaster c) <;> cases dmaHalted d <;> cases chanRun d c <;> simp

theorem moving_some {d : Dev} {c : Nat} {r : ChanRun} :
    moving d c = some r ↔ chanState d c = 1 ∧ dmaRuns d = true ∧ chanRun d c = some r ∧ r.fenced = none := by
  unfold moving
  split
  · next h =>
    simp only [h, true_and]
    cases hr : chanRun d c with
    | none => simp
    | some q =>
      simp only [Option.some.injEq]
      split
      · next hf =>
        simp only [Option.some.injEq]
        exact ⟨fun e => ⟨e, e ▸ Option.isNone_iff_eq_none.mp hf⟩, And.left⟩
      · next hf =>
        refine ⟨fun e => absurd e (by simp), fun ⟨e, hq⟩ => absurd ?_ hf⟩
        rw [e, hq]
        rfl
  · next h =>
    refine ⟨fun e => absurd e (by simp), fun e => absurd ⟨e.1, e.2.1⟩ h⟩

theorem pwrStopped_congr {d e : Dev} (hp : e.pwr = d.pwr) (hw : rd e PWR_STATUS = rd d PWR_STATUS) (n : Nat) :
    pwrStopped e n = pwrStopped d n := by
  unfold pwrStopped sleeping pwrState
  rw [hp, fld_congr PWR_STATUS_STATE hw]

/-- What decides whether a channel's run goes on: the words below the host interface's, the engine's STATUS and the power sequence. -/
theorem moving_of_run {d e : Dev} {c : Nat} {r q : ChanRun} (h : moving d c = some r) (hw : ∀ p : Reg, p.ofs < 0x400000 → rd e p = rd d p)
    (hs : rd e DMA_STATUS = rd d DMA_STATUS) (hp : e.pwr = d.pwr) (hc : c < 64) (hr : chanRun e c = some q)
    (hq : q.fenced = none) : moving e c = some q := by
  obtain ⟨hb, hd, _, _⟩ := moving_some.mp h
  obtain ⟨hz, hh, _⟩ := chanState_busy.mp hb
  have hfrozen : isFrozen e (chanMaster c) = isFrozen d (chanMaster c) := by
    rw [isFrozen, isFrozen, regBit, regBit, hw _ (by simp only [chanMaster]; omega)]
  have hhalt : dmaHalted e = dmaHalted d := flag_congr DMA_STATUS_HALTED hs
  have hruns : dmaRuns e = dmaRuns d := by rw [dmaRuns, dmaRuns, domainOn_congr hw, pwrStopped_congr hp (hw _ (by decide))]
  exact moving_some.mpr ⟨chanState_busy.mpr ⟨hfrozen.trans hz, hhalt.trans hh, by rw [hr]; rfl⟩, hruns.trans hd, hr, hq⟩

theorem chanRun_putRun (d : Dev) (c : Nat) (r : ChanRun) : chanRun (putRun d c r) c = some r := assocGet_assocSet _ _ _

/-- Reads of host memory take bytes off the front of the host's answer, in order, into the store. -/
theorem prefetch_host (f n : Nat) {r : ChanRun} (hs : (mainSrc r.hop).space = .host) (data : List Byte) {d : Dev} (h47 : domainOn d 47 = true)
    (s : Mem) : ∃ (w rest : List Byte), data = w ++ rest
      ∧ prefetch f n r data d s = (d, { run := { r with store := r.store ++ w }, data := rest, fault := none }) := by
  induction n generalizing r data with
  | zero => exact ⟨[], data, rfl, by rw [List.append_nil]; rfl⟩
  | succ n ih =>
    rw [prefetch]
    dsimp only
    split
    · exact ⟨[], data, rfl, by rw [List.append_nil]⟩
    · next hk =>
      have hle : nextRead r data ≤ data.length := by
        unfold nextRead at hk ⊢
        dsimp only at hk ⊢
        grind
      rw [hs, if_neg (by rw [targetPowered, h47]; decide), readSide_host hs _ _ hle]
      obtain ⟨w, rest, hd, he⟩ := ih (r := { r with store := r.store ++ data.take (nextRead r data) }) hs (data.drop (nextRead r data))
      refine ⟨data.take (nextRead r data) ++ w, rest, by rw [List.append_assoc, ← hd, List.take_append_drop], ?_⟩
      dsimp only
      rw [he]
      dsimp only
      rw [List.append_assoc]

/-- The run of a channel that has written k bytes from the front of its store. -/
def runOn (q : ChanRun) (k : Nat) : ChanRun := { q with moved := q.moved + k, store := q.store.drop k, bytes := q.bytes + k }

/-- A write to powered DRAM puts the front of the store there, and the channel goes on behind it. -/
theorem writeOn_dram {d e : Dev} {c n : Nat} {r q : ChanRun} (h : moving d c = some r) (hc : c < 64)
    (he : e = setHost d (fun t => { t with turn := n })) (hs : (mainDst q.hop).space = .dram) (hm : (mainDst q.hop).mode = .inc) (h45 : domainOn d 45 = true)
    (h46 : domainOn d 46 = true) (hq : q.fenced = none) (s : Mem) :
    ∃ (g : Dev) (w : List Byte) (p : ChanRun), writeOn c q e s = (g, writeDram s (q.hop.dst + q.moved) w) ∧ moving g c = some p
      ∧ q.store = w ++ p.store ∧ p.moved = q.moved + w.length := by
  have hregs : e.regs = d.regs := by rw [he]; rfl
  have hpwr : e.pwr = d.pwr := by rw [he]; rfl
  have hgo {g : Dev} {p : ChanRun} (hg : ∀ x : Reg, x.ofs < 0x400000 ∨ x = DMA_STATUS → rd g x = rd e x) (hgp : g.pwr = e.pwr)
      (hp : chanRun g c = some p) (hf : p.fenced = none) : moving g c = some p :=
    moving_of_run h (fun x hx => (hg x (.inl hx)).trans (by rw [rd, hregs, rd])) ((hg _ (.inr rfl)).trans (by rw [rd, hregs, rd]))
      (hgp.trans hpwr) hc hp hf
  unfold writeOn
  dsimp only
  by_cases hk : nextWrite q = 0
  · rw [if_pos hk]
    exact ⟨_, [], q, rfl, hgo (fun _ _ => rfl) rfl (chanRun_putRun _ _ _) hq, rfl, rfl⟩
  · have hle : nextWrite q ≤ q.store.length := by
      unfold nextWrite at hk ⊢
      dsimp only at hk ⊢
      grind
    have h45' : domainOn e 45 = true := (domainOn_congr (fun x _ => by rw [rd, hregs, rd]) 45).trans h45
    have h46' : domainOn e 46 = true := (domainOn_congr (fun x _ => by rw [rd, hregs, rd]) 46).trans h46
    have hlen : (q.store.take (nextWrite q)).length = nextWrite q := List.length_take_of_le hle
    have hz := (chanState_busy.mp (moving_some.mp h).1).1
    rw [if_neg hk, hs, targetPowered_dram h45' h46', if_neg (by decide), writeSide_dram hs hm]
    change ∃ _ _ _, (if isFrozen (putRun e c (runOn q (nextWrite q))) (chanMaster c) = true then _ else _) = _ ∧ _
    rw [show isFrozen (putRun e c (runOn q (nextWrite q))) (chanMaster c) = false from (isFrozen_congr hregs _).trans hz, if_neg (by decide)]
    refine ⟨countBy (putRun e c (runOn q (nextWrite q))) (DMA_CHc_BYTES c) (nextWrite q), q.store.take (nextWrite q), runOn q (nextWrite q),
      rfl, hgo (fun x hx => ?_) rfl (chanRun_putRun e c _) hq, (List.take_append_drop _ _).symm,
      by rw [hlen]; rfl⟩
    refine (rd_wrn_other _ _ ?_).trans rfl
    rcases hx with hx | rfl
    · simp only
      omega
    · simp only
      omega

/-- A turn from the host to DRAM (R344, R348): bytes go whole and in order into the store, and from its front to the destination. -/
theorem takeTurn_hostToDram {d : Dev} {c : Nat} {r : ChanRun} (h : moving d c = some r) (hc : c < 64) (hx : (mainSrc r.hop).space = .host)
    (hy : (mainDst r.hop).space = .dram) (hm : (mainDst r.hop).mode = .inc) (h47 : domainOn d 47 = true) (h45 : domainOn d 45 = true)
    (h46 : domainOn d 46 = true) (data : List Byte) (s : Mem) :
    ∃ (e : Dev) (rest w : List Byte) (q : ChanRun), takeTurn c data d s = (e, writeDram s (r.hop.dst + r.moved) w, rest)
      ∧ moving e c = some q ∧ r.store ++ data = w ++ q.store ++ rest ∧ q.moved = r.moved + w.length := by
  obtain ⟨_, _, _, hf⟩ := moving_some.mp h
  let e := setHost d (fun t => { t with turn := (c + 1) % 64 })
  obtain ⟨v, rest, hd, hpre⟩ := prefetch_host (chanOwner e c) 4096 hx data (d := e) h47 s
  obtain ⟨g, w, p, hg, hmv, hst, hlen⟩ := writeOn_dram (q := { r with store := r.store ++ v }) h hc rfl hy hm h45 h46 hf s
  refine ⟨g, rest, w, p, ?_, hmv, ?_, hlen⟩
  · rw [takeTurn, h]
    dsimp only
    rw [hpre]
    dsimp only
    rw [hg]
  · rw [← hst, List.append_assoc, ← hd]

end Sys2Proof.Machine
end

section
/-!
PROOFS. The entries of a main DMA channel: their completions, their first hop, the end of a channel's work by a freeze, and the halt of
the engine (R338, R341, R349 to R351).
-/

namespace Sys2Proof.Machine

/-! ### Completions leave the channels alone -/

/-- Nothing differs but what completions write, and every channel keeps its entry. -/
structure keepsRuns (d e : Dev) : Prop where
  settles : settles d e
  chans : e.host.chans = d.host.chans

section Runs

variable {d e : Dev}

theorem keepsRuns.refl (d : Dev) : keepsRuns d d := ⟨.refl d, rfl⟩

theorem keepsRuns.setRing (h : keepsRuns d e) (r : Nat) (f : RingHw → RingHw) : keepsRuns d (setRing e r f) := ⟨h.settles.setRing r f, h.chans⟩

theorem keepsRuns.postCq (h : keepsRuns d e) (c : Nat) (bs : List Byte) : keepsRuns d (postCq e c bs) := by
  refine ⟨h.settles.postCq c bs, ?_⟩
  obtain ⟨g, hg, heq⟩ := postCq_cases e c bs
  have hkeep : g.host.chans = d.host.chans := hg ▸ h.chans
  rcases heq with heq | heq
  · rw [heq, signalCq, signalVector_host]
    exact hkeep
  · rw [heq, hkeep]

theorem keepsRuns.settleFrom (n : Nat) (h : keepsRuns d e) (r : Nat) : keepsRuns d (settleFrom n e r) := by
  induction n generalizing e with
  | zero => exact h
  | succ n ih =>
    unfold Machine.settleFrom
    split
    · split
      · split
        · exact ih ((h.setRing r _).postCq _ _)
        · exact h
      · exact h
    · exact h

theorem keepsRuns.settle (h : keepsRuns d e) (r : Nat) : keepsRuns d (settle e r) := by
  unfold Machine.settle
  split
  · exact h.settleFrom _ r
  · exact h

theorem keepsRuns.openEntry (h : keepsRuns d e) (r index tag : Nat) (stamp : Bool) : keepsRuns d (openEntry e r index tag stamp) :=
  h.setRing r _

theorem keepsRuns.closeEntry (h : keepsRuns d e) (r index : Nat) (bs : List Byte) : keepsRuns d (closeEntry e r index bs) :=
  (h.setRing r _).settle r

theorem keepsRuns.consume (h : keepsRuns d e) (r n : Nat) : keepsRuns d (consume e r n) := ⟨h.settles.consume r n, h.chans⟩

theorem keepsRuns.chanRun (h : keepsRuns d e) (c : Nat) : chanRun e c = chanRun d c := by rw [Machine.chanRun, Machine.chanRun, h.chans]

theorem keepsRuns.rd (h : keepsRuns d e) {q : Reg} (hq : ∀ r, q.ofs ≠ (HIF_Rr_STATUS r).ofs) : rd e q = rd d q := h.settles.words q hq

end Runs

theorem rd_putRun (d : Dev) (c : Nat) (r : ChanRun) (q : Reg) : rd (putRun d c r) q = rd d q := rfl

theorem chanRun_endRun (d : Dev) (c : Nat) : chanRun (endRun d c) c = none := assocGet_without _ _

/-! ### The words of the engine -/

/-- The register is below the host interface or one of the engine's own, beside its event register. -/
def dmaWord (q : Reg) : Prop := q.ofs < 0xf00000 ∨ (0xf02100 ≤ q.ofs ∧ q.ofs < 0xf04000)
  ∨ (0x1000000 ≤ q.ofs ∧ q.ofs ≠ DMA_EVT.ofs ∧ q.ofs % 0x40 ≠ 0x1c)

theorem dmaWord.not_status {q : Reg} (h : dmaWord q) (r : Nat) : q.ofs ≠ (HIF_Rr_STATUS r).ofs := by
  simp only [dmaWord] at h ⊢
  omega

theorem dmaWord_own (c : Fin 64) : dmaWord (HIF_DMACc_OWN c) := by
  have := c.isLt
  simp only [dmaWord]
  omega

/-- An entry that ends leaves its channel idle. -/
theorem chanRun_endEntry (d : Dev) (c : Nat) (r : ChanRun) (status : Nat) : chanRun (endEntry d c r status) c = none :=
  (((keepsRuns.refl _).closeEntry _ _ _).chanRun c).trans (chanRun_endRun d c)

theorem rd_endEntry (d : Dev) (c : Nat) (r : ChanRun) (status : Nat) {q : Reg} (hq : dmaWord q) : rd (endEntry d c r status) q = rd d q :=
  ((keepsRuns.refl (endRun d c)).closeEntry _ _ _).rd hq.not_status

theorem chanRun_abandonRun (d : Dev) (c : Nat) : chanRun (abandonRun d c) c = none := by
  unfold abandonRun
  split
  · next h => exact h
  · exact chanRun_endRun _ c

theorem rd_abandonRun (d : Dev) (c : Nat) {q : Reg} (hq : dmaWord q) : rd (abandonRun d c) q = rd d q := by
  unfold abandonRun
  split
  · rfl
  · exact (((keepsRuns.refl d).setRing _ _).settle _).rd hq.not_status

theorem rd_raiseDma (d : Dev) (b : Nat) {q : Reg} (hq : dmaWord q) (h : 0x1000000 ≤ q.ofs) : rd (raiseDma d b) q = rd d q := by
  simp only [dmaWord] at hq
  exact rd_raiseEvt_other d evDMA b (by simp only [evDMA]; omega) (by simp only; omega) (by simp only; omega)

/-! ### A rejected hop, and a violation -/

/-- The hop breaks its fields or its length: it is counted, and its entry ends. -/
theorem rejected_spec (d : Dev) (c : Nat) (r : ChanRun) (status : Nat) :
    chanRun (endEntry (raiseDma (count d DMA_BAD_DESC) dmBadDesc) c r status) c = none
      ∧ rdn (endEntry (raiseDma (count d DMA_BAD_DESC) dmBadDesc) c r status) DMA_BAD_DESC = min (rdn d DMA_BAD_DESC + 1) 0xFFFFFFFF := by
  have hw : dmaWord DMA_BAD_DESC := .inr (.inr (by decide))
  refine ⟨chanRun_endEntry _ _ _ _, ?_⟩
  rw [rdn, rd_endEntry _ _ _ _ hw, rd_raiseDma _ _ hw (by decide)]
  exact rdn_count_same _ _

theorem chanRun_freezeChan (d : Dev) (c cause addr : Nat) : chanRun (freezeChan d c cause addr) c = none := chanRun_abandonRun _ _

/-- The masters of the main channels (R351). -/
theorem chanMaster_bounds (c : Fin 64) : ¬ chanMaster c < 0x20 ∧ chanMaster c < 0x60 ∧ chanMaster c - 0x20 = c :=
  show ¬ 0x20 + c.val < 0x20 ∧ 0x20 + c.val < 0x60 ∧ 0x20 + c.val - 0x20 = c.val by omega

theorem isFrozen_freezeChan (d : Dev) (c : Fin 64) (cause addr : Nat) : isFrozen (freezeChan d c cause addr) (chanMaster c) = true := by
  have hm := (chanMaster_bounds c).2.1
  have hz := isFrozen_freeze d cause addr (Nat.le_trans (Nat.le_of_lt hm) (by decide))
  rw [isFrozen, regBit] at hz ⊢
  rw [freezeChan, rd_abandonRun _ _ (.inl (by simp only [chanMaster]; omega)), hz]

/-! ### The start of an entry (R338) -/

/-- The device as an entry has begun whose first hop is h. -/
def entryBegun (d : Dev) (c r : Nat) (h : Descriptor) : Dev :=
  let i := (ringHw d r).dev % 0x10000
  let d := consume (openEntry d r i (if h.link then 0 else h.next) false) r 1
  let d := setHost d (fun x => { x with served := sput 0 x.served c r })
  setFld (setFld (setFlag d (DMA_CHc_STATUS_RELEASED c) false) (DMA_CHc_STATUS_RING c) r) (DMA_CHc_STATUS_HOPS c) 0

/-- The run that begins with it. -/
def newRun (d : Dev) (r : Nat) (h : Descriptor) : ChanRun :=
  ⟨r, (ringHw d r).dev % 0x10000, h, 0, [], 0, 0, none⟩

theorem dmaEntryStart_eq {c : Fin 64} {d : Dev} {r : Nat} (desc : List Byte) (hs : chanState d c = 0) (hr : dmaRuns d = true)
    (ht : turnRing d c = some r) :
    dmaEntryStart c desc d = takeHop (entryBegun d c r (descriptorOf desc)) c (newRun d r (descriptorOf desc)) (descriptorOf desc) := by
  unfold dmaEntryStart
  rw [if_pos ⟨hs, hr⟩, ht]
  rfl

theorem rd_entryBegun (d : Dev) (c r : Nat) (h : Descriptor) {q : Reg} (hq : q.ofs ≠ (HIF_Rr_STATUS r).ofs)
    (hc : q.ofs ≠ (DMA_CHc_STATUS c).ofs) :
    rd (entryBegun d c r h) q = rd d q := by
  unfold entryBegun
  rw [rd_setFld_other _ _ hc, rd_setFld_other _ _ hc, rd_setFlag_other _ _ hc]
  exact rd_setFld_other _ _ hq

/-! ### The checks of a hop (R341) -/

theorem chanOwner_lt (d : Dev) (c : Nat) : chanOwner d c < 32 := fld_lt d (HIF_DMACc_OWN_OWNER c)

theorem outsideWindow_congr {d e : Dev} {f : Nat} (hb : rd e (DMA_FNf_DRAM_BASE f) = rd d (DMA_FNf_DRAM_BASE f))
    (hs : rd e (DMA_FNf_DRAM_SIZE f) = rd d (DMA_FNf_DRAM_SIZE f)) (x : Side) (len : Nat) :
    outsideWindow e f x len = outsideWindow d f x len := by
  have hw : inDramWindow e f = inDramWindow d f := by
    funext r
    rw [inDramWindow, inDramWindow, fld_congr (DMA_FNf_DRAM_BASE_BASE f) hb, fld_congr (DMA_FNf_DRAM_SIZE_SIZE f) hs]
  rw [outsideWindow, outsideWindow, hw]

/-- The first address outside the owner's window, of the source and then of the destination. -/
theorem rightsBroken_dram {d : Dev} {c : Nat} {h : Descriptor} (hu : (mainDst h).space ≠ .unit) :
    rightsBroken d c h = (outsideWindow d (chanOwner d c) (mainSrc h) h.len).or (outsideWindow d (chanOwner d c) (mainDst h) h.len) := by
  unfold rightsBroken
  dsimp only
  rw [if_neg hu]
  cases outsideWindow d (chanOwner d c) (mainSrc h) h.len with
  | some a => rfl
  | none => cases outsideWindow d (chanOwner d c) (mainDst h) h.len <;> rfl

/-- The run of a channel whose next hop is h. -/
def runWith (r : ChanRun) (h : Descriptor) : ChanRun := { r with hop := h, moved := 0, store := [], point := 0 }

section Hop

variable {d : Dev} {c : Nat} {r : ChanRun} {h : Descriptor}

theorem takeHop_badField (hf : fieldsGood h = false) :
    takeHop d c r h = endEntry (raiseDma (count (putRun d c (runWith r h)) DMA_BAD_DESC) dmBadDesc) c (runWith r h) csBadField := by
  unfold takeHop
  rw [hf]
  rfl

theorem takeHop_outside (hf : fieldsGood h = true) (hl : lengthGood h = true) {a : Nat}
    (ha : rightsBroken (putRun d c (runWith r h)) c h = some a) : takeHop d c r h = freezeChan (putRun d c (runWith r h)) c causeDma a := by
  unfold takeHop
  dsimp only
  rw [hf, hl, if_neg (by decide), if_neg (by decide)]
  change (match rightsBroken (putRun d c (runWith r h)) c h with | some a => _ | none => _) = _
  rw [ha]
  rfl

theorem takeHop_passes (hf : fieldsGood h = true) (hl : lengthGood h = true) (ha : rightsBroken (putRun d c (runWith r h)) c h = none)
    (ho : overlaps (mainSrc h) (mainDst h) h.len = false) : takeHop d c r h = putRun d c (runWith r h) := by
  unfold takeHop
  dsimp only
  rw [hf, hl, if_neg (by decide), if_neg (by decide)]
  change (match rightsBroken (putRun d c (runWith r h)) c h with | some a => _ | none => _) = _
  rw [ha]
  dsimp only
  rw [ho, if_neg (by decide)]
  rfl

end Hop

/-- The rights that the first hop of an entry is checked against are those that stand before it. -/
theorem rightsBroken_entry {d : Dev} {c : Fin 64} {r : Nat} {h : Descriptor} (hr : r < 1024) (q : ChanRun) (hu : (mainDst h).space ≠ .unit) :
    rightsBroken (putRun (entryBegun d c r h) c q) c h
      = (outsideWindow d (chanOwner d c) (mainSrc h) h.len).or (outsideWindow d (chanOwner d c) (mainDst h) h.len) := by
  have hlt := c.isLt
  have hf := chanOwner_lt d c
  have hown := (rd_putRun _ c q _).trans (rd_entryBegun d c r h (q := HIF_DMACc_OWN c) (by simp only; omega) (by simp only; omega))
  have howner : chanOwner (putRun (entryBegun d c r h) c q) c = chanOwner d c := fld_congr (HIF_DMACc_OWN_OWNER c) hown
  have hbase := (rd_putRun _ c q _).trans
    (rd_entryBegun d c r h (q := DMA_FNf_DRAM_BASE (chanOwner d c)) (by simp only; omega) (by simp only; omega))
  have hsize := (rd_putRun _ c q _).trans
    (rd_entryBegun d c r h (q := DMA_FNf_DRAM_SIZE (chanOwner d c)) (by simp only; omega) (by simp only; omega))
  rw [rightsBroken_dram hu, howner, outsideWindow_congr hbase hsize, outsideWindow_congr hbase hsize]

/-! ### The halt of the engine (R349) -/

/-- The device as a halt has ended the entries in progress. -/
def entriesEnded (d : Dev) : Dev :=
  forEach (d.host.chans.filter (fun e => !isFrozen d (chanMaster e.1))) (fun d e => endEntry d e.1 e.2 csBusErr) d

/-- The words of the engine that say why it halted. -/
def haltShown (d : Dev) (cause : BusFault) (space addr : Nat) : Dev :=
  wrPair (setFld (setFld (setFlag d DMA_STATUS_HALTED true) DMA_ERR_CAUSE cause.code) DMA_ERR_SPACE space) DMA_ERR_ADDR_LO DMA_ERR_ADDR_HI addr

theorem busError_eq {d : Dev} (h : dmaHalted d = false) (cause : BusFault) (space addr : Nat) :
    busError d cause space addr = raiseDma (count (count (if cause = .timeout then count (haltShown (entriesEnded d) cause space addr) DMA_TIMEOUT
      else haltShown (entriesEnded d) cause space addr) DMA_BUS_ERR) DMA_HALTS) dmHalt := by
  rw [busError, h]
  rfl

theorem rd_entriesEnded (d : Dev) {q : Reg} (hq : dmaWord q) : rd (entriesEnded d) q = rd d q :=
  forEach_keeps (P := fun e => rd e q = rd d q) (fun e p he => (rd_endEntry e p.1 p.2 csBusErr hq).trans he) _ rfl

theorem rd_haltShown (d : Dev) (cause : BusFault) (space addr : Nat) {q : Reg} (hq : 0x1000054 ≤ q.ofs) :
    rd (haltShown d cause space addr) q = rd d q := by
  unfold haltShown wrPair
  rw [rd_wrn_other _ _ (by simp only; omega), rd_wrn_other _ _ (by simp only; omega), rd_setFld_other _ _ (by simp only; omega),
    rd_setFld_other _ _ (by simp only; omega), rd_setFlag_other _ _ (by simp only; omega)]

theorem dmaHalted_haltShown (d : Dev) (cause : BusFault) (space addr : Nat) : dmaHalted (haltShown d cause space addr) = true := by
  unfold haltShown wrPair
  have hflag := flag_setFlag_same d (f := DMA_STATUS_HALTED) true (by decide) (by decide)
  rw [dmaHalted]
  refine Eq.trans (flag_congr DMA_STATUS_HALTED ?_) hflag
  rw [rd_wrn_other _ _ (by decide), rd_wrn_other _ _ (by decide), rd_setFld_other _ _ (by decide), rd_setFld_other _ _ (by decide)]

/-- A bus error halts the engine and counts; one for which a target did not answer counts as a timeout too. -/
theorem busError_halts {d : Dev} (h : dmaHalted d = false) (cause : BusFault) (space addr : Nat) :
    dmaHalted (busError d cause space addr) = true
      ∧ rdn (busError d cause space addr) DMA_HALTS = min (rdn d DMA_HALTS + 1) 0xFFFFFFFF
      ∧ (cause = .timeout → rdn (busError d cause space addr) DMA_TIMEOUT = min (rdn d DMA_TIMEOUT + 1) 0xFFFFFFFF) := by
  rw [busError_eq h]
  have hraise {e : Dev} {q : Reg} (hq : 0x1000000 ≤ q.ofs ∧ q.ofs ≠ DMA_EVT.ofs ∧ q.ofs % 0x40 ≠ 0x1c) : rd (raiseDma e dmHalt) q = rd e q :=
    rd_raiseDma e dmHalt (.inr (.inr hq)) hq.1
  have hkept {q : Reg} (hq : 0x1000054 ≤ q.ofs) (hw : dmaWord q) : rd (haltShown (entriesEnded d) cause space addr) q = rd d q :=
    (rd_haltShown _ cause space addr hq).trans (rd_entriesEnded d hw)
  refine ⟨?_, ?_, fun ht => ?_⟩
  · rw [dmaHalted]
    refine Eq.trans (flag_congr DMA_STATUS_HALTED ?_) (dmaHalted_haltShown (entriesEnded d) cause space addr)
    rw [hraise (by decide), rd_count_other _ (by decide), rd_count_other _ (by decide)]
    split
    · exact rd_count_other _ (by decide)
    · rfl
  · rw [rdn, hraise (by decide)]
    refine (rdn_count_same _ _).trans ?_
    rw [rdn, rd_count_other _ (by decide), rdn]
    split
    · rw [rd_count_other _ (by decide), hkept (by decide) (.inr (.inr (by decide)))]
    · rw [hkept (by decide) (.inr (.inr (by decide)))]
  · rw [if_pos ht, rdn, hraise (by decide), rd_count_other _ (by decide), rd_count_other _ (by decide)]
    refine (rdn_count_same _ _).trans ?_
    rw [rdn, hkept (by decide) (.inr (.inr (by decide))), rdn]

theorem chanState_of_halted {d : Dev} (h : dmaHalted d = true) (c : Nat) : chanState d c = 2 ∨ chanState d c = 3 := by
  rw [chanState, h]
  split
  · exact .inr rfl
  · exact .inl rfl

/-! ### A change of owner (R351) -/

/-- The row of HIF_DMACc_OWN in the table of the host interface (R337). -/
def dmacOwnRow : RegRow := ⟨"HIF_DMACc_OWN", 0x2100, [(64, 0x4)], 0x0, false, [⟨"OWNER", 4, 0, .rw, .all⟩]⟩

theorem rowAt_dmacOwn (c : Fin 64) : rowAt (unitAt 62) (0x2100 + 0x4 * c) = some dmacOwnRow := by
  have hc := c.isLt
  have hn : (regRowsHIF0.take 9).find? (rowMatches (0x2100 + 0x4 * c)) = none := by
    rw [List.find?_eq_none]
    simp only [regRowsHIF0, List.take_succ_cons, List.take_zero, List.forall_mem_cons, rowMatches, repeats, Bool.and_eq_true,
      decide_eq_true_eq, beq_iff_eq]
    simp only [List.not_mem_nil, false_imp_iff, implies_true, and_true]
    omega
  have hm : rowMatches (0x2100 + 0x4 * c) dmacOwnRow = true := by
    simp [rowMatches, dmacOwnRow, repeats]
  have h0 : regRowsHIF0.find? (rowMatches (0x2100 + 0x4 * c)) = some dmacOwnRow := by
    rw [← List.take_append_drop 9 regRowsHIF0, List.find?_append, hn, Option.none_or]
    exact List.find?_cons_of_pos hm
  have hrows : rowsOfKind (unitAt 62).kind = regRowsHIF0 ++ regRowsHIF1 := rfl
  rw [rowAt, hrows, List.find?_append, h0, Option.some_or]
  rfl

/-- A write of a channel's owner stores the number as written. -/
theorem storeAt_dmacOwn (d : Dev) (m : Master) (c : Fin 64) (value : Word) : storeAt d m (HIF_DMACc_OWN c).ofs value
    = wr d (HIF_DMACc_OWN c) (putBits (rd d (HIF_DMACc_OWN c)) 4 0 (getBits value 4 0)) := by
  have hb : (unitAt 62).base = 0xf00000 := rfl
  have hrel : (HIF_DMACc_OWN c).ofs - (unitAt 62).base = 0x2100 + 0x4 * c := by
    rw [hb]
    simp only
    omega
  have hreg : regAt (unitAt 62) dmacOwnRow (0x2100 + 0x4 * c) = HIF_DMACc_OWN c := by
    have hne : ¬ (0x2100 + 0x4 * c.val = 0x1000) := by omega
    have hk : ¬ ((unitAt 62).kind = 0x71 ∧ 0x2100 + 0x4 * c.val = 0x1004) := by omega
    rw [regAt, resetAt, if_neg (fun h => hne h.2), if_neg hk, hb]
    simp only [dmacOwnRow, Reg.mk.injEq]
    exact ⟨by omega, rfl⟩
  rw [storeAt_row value (unitOf_hif (by simp only; omega) (by simp only; omega)) (hrel ▸ rowAt_dmacOwn c), storeWord, hrel, hreg]
  rfl

/-- The channel is stopped, released and belongs to the owner written. -/
theorem dmaOwnerChange_spec (m : Master) (c : Fin 64) (value : Word) (d : Dev) (h : admits d m (HIF_DMACc_OWN c).ofs = true) :
    chanRun (dmaOwnerChange m c value d) c = none ∧ isFrozen (dmaOwnerChange m c value d) (chanMaster c) = false
      ∧ chanOwner (dmaOwnerChange m c value d) c = getBits value 4 0 := by
  have hlt := c.isLt
  obtain ⟨hlow, hhigh, hm⟩ := chanMaster_bounds c
  have hrun : chanRun (releaseMaster (abandonRun d c) (chanMaster c)) c = none := by
    cases hz : isFrozen (abandonRun d c) (chanMaster c) with
    | false => rw [releaseMaster_of_not_frozen hz, chanRun_abandonRun]
    | true =>
      unfold releaseMaster
      rw [if_pos hz, if_neg hlow, if_pos hhigh]
      dsimp only
      rw [chanRun]
      obtain ⟨p, o, e⟩ := flushVectors_spec (setRegBit (setFlag { abandonRun d c with host := { (abandonRun d c).host with
        chans := (abandonRun d c).host.chans.filter (fun e => e.1 != chanMaster c - 0x20) } }
        (DMA_CHc_STATUS_RELEASED (chanMaster c - 0x20)) true) (ROOT_FRZ_MAP (chanMaster c / 32)) (chanMaster c % 32) false)
      rw [e]
      rw [hm]
      exact assocGet_without _ _
  have hfree : isFrozen (releaseMaster (abandonRun d c) (chanMaster c)) (chanMaster c) = false := by
    rw [isFrozen_releaseMaster _ _ (Nat.lt_trans hhigh (by decide)), if_pos rfl]
  rw [dmaOwnerChange, guarded_admits _ h]
  generalize releaseMaster (abandonRun d c) (chanMaster c) = e at hrun hfree
  dsimp only
  rw [storeAt_dmacOwn]
  have hfld : chanOwner (wr e (HIF_DMACc_OWN c) (putBits (rd e (HIF_DMACc_OWN c)) 4 0 (getBits value 4 0))) c = getBits value 4 0 := by
    rw [chanOwner, fld, rd_wr_same, getBits_putBits_same _ _ (by decide) (by decide)]
    exact Nat.mod_eq_of_lt (getBits_lt value 4 0)
  have hmap : ∀ {g : Dev}, (∀ q : Reg, q.ofs < 0xf00000 → rd g q = rd e q) → isFrozen g (chanMaster c) = false := fun hg => by
    rw [isFrozen, regBit, hg _ (by simp only [chanMaster]; omega)]
    exact hfree
  split
  · exact ⟨hrun, hmap fun q hq => rd_wr_other _ _ (by simp only; omega), hfld⟩
  · refine ⟨hrun, hmap fun q hq => (rd_count_other _ (by simp only; omega)).trans (rd_wr_other _ _ (by simp only; omega)), ?_⟩
    exact (fld_congr (HIF_DMACc_OWN_OWNER c) (rd_count_other _ (by simp only; omega))).trans hfld

end Sys2Proof.Machine
end

section
/-!
PROOFS. The DMA engines' commands (spec/19): entries, moves, completions, halts and owners of the main channels, and the boot channels.
-/

namespace Sys2Proof.Machine

/-! ### The commands -/

theorem exec_dmaEntryStart (c : Fin 64) (desc : List Byte) (s : State) :
    exec (.dmaEntryStart c desc) s = .next (s.withDev (dmaEntryStart c desc s.dev)) := rfl

theorem exec_dmaProgress (c : Fin 64) (data : List Byte) (s : State) :
    exec (.dmaProgress c data) s = .next (s.after (dmaProgress c data s.dev s.mem)) := rfl

theorem exec_dmaComplete (c : Fin 64) (data : List Byte) (s : State) :
    exec (.dmaComplete c data) s = .next (s.after (dmaComplete c data s.dev s.mem)) := rfl

theorem exec_hopFetch (c : Fin 64) (data desc : List Byte) (s : State) :
    exec (.hopFetch c data desc) s = .next (s.after (hopFetch c data desc s.dev s.mem)) := rfl

theorem exec_fenceDone (c : Fin 64) (s : State) : exec (.fenceDone c) s = .next (s.withDev (fenceDone c s.dev)) := rfl

theorem exec_busError (cause : BusFault) (space : Fin 3) (addr : BitVec 64) (s : State) :
    exec (.busError cause space addr) s = .next (s.withDev (busErrorMain cause space addr s.dev)) := rfl

theorem exec_dmaBusTimeout (space : Fin 3) (addr : BitVec 64) (s : State) :
    exec (.dmaBusTimeout space addr) s = .next (s.withDev (busErrorMain .timeout space addr s.dev)) := rfl

theorem exec_dmaResume (m : Master) (value : Word) (s : State) :
    exec (.dmaResume m value) s = .next (s.withDev (dmaResume m value s.dev)) := rfl

theorem exec_dmaOwnerChange (m : Master) (c : Fin 64) (value : Word) (s : State) :
    exec (.dmaOwnerChange m c value) s = .next (s.withDev (dmaOwnerChange m c value s.dev)) := rfl

theorem exec_bdmGo (m : Master) (c : Fin 4) (value : Word) (s : State) :
    exec (.bdmGo m c value) s = .next (s.withDev (bdmCtlWrite m c (value ||| 0x80000000) s.dev)) := rfl

theorem exec_bdmAbort (m : Master) (c : Fin 4) (value : Word) (s : State) :
    exec (.bdmAbort m c value) s = .next (s.withDev (bdmCtlWrite m c (value ||| 0x40000000) s.dev)) := rfl

theorem exec_bdmHop (c : Fin 4) (s : State) : exec (.bdmHop c) s = .next (s.after (bdmHop c s.dev s.mem)) := rfl

theorem exec_bdmBusError (c : Fin 4) (cause : BusFault) (space : Fin 4) (addr : Word) (s : State) :
    exec (.bdmBusError c cause space addr) s = .next (s.withDev (bdmBusError c cause space addr s.dev)) := rfl

/-! ### Entries (R338, R341) -/

theorem turnRing_lt {d : Dev} {c r : Nat} (h : turnRing d c = some r) : r < 1024 := by
  obtain ⟨k, _, rfl⟩ := List.mem_map.mp (List.mem_of_find?_eq_some h)
  exact Nat.mod_lt _ (by decide)

section Entry

variable {c : Fin 64} {d : Dev} {r : Nat} (desc : List Byte) (hs : chanState d c = 0) (hr : dmaRuns d = true) (ht : turnRing d c = some r)

include hs hr ht

/-- A first hop whose fields are wrong is counted, and its entry ends. -/
theorem dmaEntryStart_badField (hf : fieldsGood (descriptorOf desc) = false) : chanRun (dmaEntryStart c desc d) c = none
    ∧ rdn (dmaEntryStart c desc d) DMA_BAD_DESC = min (rdn d DMA_BAD_DESC + 1) 0xFFFFFFFF := by
  have hlt := turnRing_lt ht
  have hc := c.isLt
  rw [dmaEntryStart_eq desc hs hr ht, takeHop_badField hf]
  obtain ⟨hrun, hcount⟩ := rejected_spec (putRun (entryBegun d c r (descriptorOf desc)) c (runWith (newRun d r (descriptorOf desc)) (descriptorOf desc)))
    c (runWith (newRun d r (descriptorOf desc)) (descriptorOf desc)) csBadField
  refine ⟨hrun, hcount.trans ?_⟩
  rw [rdn, rd_putRun, rd_entryBegun _ _ _ _ (by simp only; omega) (by simp only; omega), rdn]

variable (hf : fieldsGood (descriptorOf desc) = true) (hl : lengthGood (descriptorOf desc) = true)
  (hu : (mainDst (descriptorOf desc)).space ≠ .unit)

include hf hl hu

/-- A first hop outside the owner's window freezes the channel. -/
theorem dmaEntryStart_outside {a : Nat} (ha : outsideWindow d (chanOwner d c) (mainSrc (descriptorOf desc)) (descriptorOf desc).len = some a) :
    isFrozen (dmaEntryStart c desc d) (chanMaster c) = true ∧ chanRun (dmaEntryStart c desc d) c = none := by
  rw [dmaEntryStart_eq desc hs hr ht, takeHop_outside hf hl (by rw [rightsBroken_entry (turnRing_lt ht) _ hu, ha, Option.some_or])]
  exact ⟨isFrozen_freezeChan _ _ _ _, chanRun_freezeChan _ _ _ _⟩

/-- A first hop that passes its checks is the hop in progress. -/
theorem dmaEntryStart_passes (hx : outsideWindow d (chanOwner d c) (mainSrc (descriptorOf desc)) (descriptorOf desc).len = none)
    (hy : outsideWindow d (chanOwner d c) (mainDst (descriptorOf desc)) (descriptorOf desc).len = none)
    (ho : overlaps (mainSrc (descriptorOf desc)) (mainDst (descriptorOf desc)) (descriptorOf desc).len = false) :
    chanRun (dmaEntryStart c desc d) c = some (newRun d r (descriptorOf desc)) := by
  rw [dmaEntryStart_eq desc hs hr ht, takeHop_passes hf hl (by rw [rightsBroken_entry (turnRing_lt ht) _ hu, hx, hy]; rfl) ho]
  exact chanRun_putRun _ _ _

end Entry

/-! ### Progress and completion (R345, R346) -/

section Moving

variable {c : Fin 64} {d : Dev} {r : ChanRun} (data : List Byte) (s : Mem)

/-- A channel that has done what is asked of it takes no turn. -/
theorem serveUntil_done (h : moving d c = some r) {done : ChanRun → Bool} (hd : done r = true) (len : Nat) :
    serveUntil c done (turnsFor len) data d s = (d, s) := by
  rw [show turnsFor len = (turnsFor len - 1) + 1 by unfold turnsFor; omega, serveUntil, h]
  dsimp only
  rw [if_pos hd]

theorem dmaProgress_eq (h : moving d c = some r) {stop st : Nat} (hp : nextPoint r.hop r.point = some (stop, st)) :
    dmaProgress c data d s = (postPoint c stop st (serveUntil c (reached stop) (turnsFor r.hop.len) data d s).1,
      (serveUntil c (reached stop) (turnsFor r.hop.len) data d s).2) := by
  rw [dmaProgress, h]
  dsimp only
  rw [hp]

theorem dmaProgress_noPoint (h : moving d c = some r) (hp : nextPoint r.hop r.point = none) : dmaProgress c data d s = (d, s) := by
  rw [dmaProgress, h]
  dsimp only
  rw [hp]

/-- A point that is reached waits for its read-back where the hop asks for one. -/
theorem postPoint_fence (h : moving d c = some r) {stop : Nat} (st : Nat) (hr : reached stop r = true) (hm : mayPost d r = true)
    (hf : r.hop.fence = true) : postPoint c stop st d = putRun d c { r with point := stop, fenced := some st } := by
  rw [postPoint, h]
  dsimp only
  rw [hr, hm, if_pos (by decide), if_pos hf]

theorem finishHop_done (h : moving d c = some r) (hp : nextPoint r.hop r.point = none) (hd : hopDone r = true) :
    finishHop c data d s = (countFld d (DMA_CHc_STATUS_HOPS c), s, some r) := by
  rw [finishHop, h]
  dsimp only
  rw [hp, if_neg (by decide), serveUntil_done data s h hd]
  dsimp only
  rw [h]
  dsimp only
  rw [if_pos hd]

theorem hopLinks_moving (h : moving d c = some r) (link : Bool) : hopLinks d c link = (r.hop.link == link) := by
  obtain ⟨_, _, hrun, _⟩ := moving_some.mp h
  rw [hopLinks, hrun]

variable {e : Dev} {t : Mem} {q : ChanRun}

theorem dmaComplete_eq (h : moving d c = some r) (hl : r.hop.link = false) (hq : finishHop c data d s = (e, t, some q)) :
    dmaComplete c data d s = (if q.hop.fence = true then putRun e c { q with fenced := some csOk } else endEntry e c q csOk, t) := by
  rw [dmaComplete, hopLinks_moving h, hl, if_neg (by decide), hq]

theorem hopFetch_last (h : moving d c = some r) (hl : r.hop.link = true) (hq : finishHop c data d s = (e, t, some q)) (desc : List Byte)
    (hh : 4096 ≤ hopsOf e c) : hopFetch c data desc d s = (freezeChan e c causeHops q.hop.next, t) := by
  rw [hopFetch, hopLinks_moving h, hl, if_neg (by decide), hq]
  dsimp only
  rw [if_pos hh]

theorem hopFetch_host (h : moving d c = some r) (hl : r.hop.link = true) (hq : finishHop c data d s = (e, t, some q)) (desc : List Byte)
    (hh : hopsOf e c < 4096) (hs : getBits q.hop.ctl 11 10 = 0) : hopFetch c data desc d s = (takeHop e c q (descriptorOf desc), t) := by
  rw [hopFetch, hopLinks_moving h, hl, if_neg (by decide), hq]
  dsimp only
  rw [if_neg (Nat.not_le.mpr hh), hs]
  rfl

end Moving

section Fence

variable {c : Fin 64} {d : Dev} {r : ChanRun} (hs : chanState d c = 1) (hr : chanRun d c = some r) (hu : (mainDst r.hop).space ≠ .unit)

include hs hr hu

/-- A read-back beside the unit tree has no effect of its own, and its completion is posted. -/
theorem fenceDone_eq {st : Nat} (hf : r.fenced = some st) : fenceDone c d = if st = csOk then endEntry d c r csOk
    else if mayPost d r = true then postProgress (putRun d c { r with fenced := none }) c r st else d := by
  have hback : readBack d c r = d := if_neg fun h => hu h.1
  rw [fenceDone, if_pos hs, hr]
  dsimp only
  rw [hf]
  dsimp only
  rw [hback]

end Fence

theorem busErrorMain_eq {d : Dev} (h : busyChannels d ≠ 0) (cause : BusFault) (space : Fin 3) (addr : BitVec 64) :
    busErrorMain cause space addr d = busError d cause space addr.toNat := if_neg h

/-! ### Boot channels (R353 to R355) -/

theorem bootRun_dropBoot (d : Dev) (c : Nat) : bootRun (dropBoot d c) c = none := assocGet_without _ _

theorem raiseEvt_boot (d : Dev) (u : EvtUnit) (b c : Nat) : bootRun (raiseEvt d u b) c = bootRun d c := by
  obtain ⟨r, p, o, e⟩ := raiseEvt_spec d u b
  rw [e]
  rfl

theorem rd_raiseBdm (d : Dev) (c : Fin 4) : rd (raiseEvt d evBDM c) (BDM_CHc_STATUS c) = rd d (BDM_CHc_STATUS c) :=
  rd_raiseEvt_other d evBDM _ (by simp only [evBDM]; omega) (by simp only; omega) (by simp only; omega)

/-- A chain that ends leaves its RESULT. -/
theorem endBoot_spec (d : Dev) (c : Fin 4) {result : Nat} (h : result < 16) :
    bootRun (endBoot d c result) c = none ∧ fld (endBoot d c result) (BDM_CHc_STATUS_RESULT c) = result := by
  refine ⟨(raiseEvt_boot _ _ _ _).trans (bootRun_dropBoot d c), ?_⟩
  rw [endBoot, fld_congr (BDM_CHc_STATUS_RESULT c) (rd_raiseBdm _ c), fld_setFld_same _ _ (by simp) (by simp)]
  exact Nat.mod_eq_of_lt h

section BootControl

variable {m : Master} {c : Fin 4} {d : Dev} {value : Word} (ha : admits d m (BDM_CHc_CTL c).ofs = true)

include ha

/-- GO starts a channel that is idle. -/
theorem bdmCtlWrite_go (h31 : value.getLsbD 31 = true) (h30 : value.getLsbD 30 = false) (hs : bootState d c = 0) :
    bdmCtlWrite m c value d
      = putBoot (setFld (setFld d (BDM_CHc_STATUS_RESULT c) 0) (BDM_CHc_STATUS_HOPS c) 0) c (bootStart d c) := by
  rw [bdmCtlWrite, guarded_admits _ ha]
  dsimp only
  rw [h31, h30, hs]
  rfl

/-- GO does nothing in a channel that is not idle. -/
theorem bdmCtlWrite_busy (h30 : value.getLsbD 30 = false) (hs : bootState d c ≠ 0) : bdmCtlWrite m c value d = d := by
  rw [bdmCtlWrite, guarded_admits _ ha]
  dsimp only
  rw [h30, beq_eq_false_iff_ne.mpr hs, Bool.and_false]
  rfl

/-- ABORT stops a busy channel. -/
theorem bdmCtlWrite_abort (h30 : value.getLsbD 30 = true) (hs : bootState d c = 1) : bdmCtlWrite m c value d = endBoot d c brAborted := by
  rw [bdmCtlWrite, guarded_admits _ ha]
  simp [h30, hs]

end BootControl

theorem fld_putBoot (d : Dev) (c : Nat) (b : BootRun) (f : Fld) : fld (putBoot d c b) f = fld d f := rfl

/-- A channel that GO started has its first descriptor ahead and no RESULT. -/
theorem bootStarted_spec (d : Dev) (c : Fin 4) (b : BootRun) :
    bootRun (putBoot (setFld (setFld d (BDM_CHc_STATUS_RESULT c) 0) (BDM_CHc_STATUS_HOPS c) 0) c b) c = some b
      ∧ fld (putBoot (setFld (setFld d (BDM_CHc_STATUS_RESULT c) 0) (BDM_CHc_STATUS_HOPS c) 0) c b) (BDM_CHc_STATUS_RESULT c) = 0 := by
  refine ⟨assocGet_assocSet _ _ _, ?_⟩
  rw [fld_putBoot, fld_setFld_apart _ _ (by simp [apart]), fld_setFld_same _ _ (by simp) (by simp), Nat.zero_mod]

/-! ### Boot hops (R355) -/

section BootHop

variable {c : Fin 4} {d : Dev} {s : Mem} {b : BootRun}

/-- A channel that is not busy takes no hop. -/
theorem bdmHop_idle (h : bootState d c ≠ 1) : bdmHop c d s = (d, s) := by
  rw [bdmHop, if_neg h]

variable (hs : bootState d c = 1) (hb : bootRun d c = some b) (hd : b.space = 1) (h45 : domainOn d 45 = true) (h46 : domainOn d 46 = true)

include hd in
theorem readDescriptor_dram : readDescriptor (bootMaster c) b d s = (d, readDram s b.addr 32) := by
  rw [readDescriptor, hd]
  rfl

variable {h : Descriptor} (hh : h = descriptorOf (readDram s b.addr 32))

include hs hb hd h45 h46 hh

/-- A hop that fails a check ends its chain with the RESULT. -/
theorem bdmHop_rejected (hr : bootResult h ≠ 0) : bdmHop c d s = (endBoot d c (bootResult h), s) := by
  rw [bdmHop, if_pos hs, hb]
  dsimp only
  rw [readDescriptor_dram hd, hd, show bootSpace 1 = .dram from rfl, targetPowered_dram h45 h46, if_neg (by decide)]
  dsimp only
  rw [← hh, if_pos hr]

/-- A hop from flash to DRAM is moved. -/
theorem bdmHop_moves (hr : bootResult h = 0) (hx : (bootSrc h).space = .flash) (hy : (bootDst h).space = .dram) :
    bdmHop c d s = bootMove c h d s := by
  have hover : overlaps (bootSrc h) (bootDst h) h.len = false := by
    rw [overlaps, hx, hy]
    rfl
  rw [bdmHop, if_pos hs, hb]
  dsimp only
  rw [readDescriptor_dram hd, hd, show bootSpace 1 = .dram from rfl, targetPowered_dram h45 h46, if_neg (by decide)]
  dsimp only
  rw [← hh, if_neg (fun h => h hr), hy, if_neg (by decide)]
  dsimp only
  rw [hover, if_neg (by decide)]

end BootHop

/-- The device as a hop of a boot channel has been counted. -/
def bootCounted (d : Dev) (c : Fin 4) (n : Nat) : Dev := countFld (countBy d (BDM_CHc_BYTES c) n) (BDM_CHc_STATUS_HOPS c)

/-- A hop from flash to DRAM copies its bytes; then its chain goes on, ends, or freezes at its last hop. -/
theorem bootMove_copies {c : Fin 4} {h : Descriptor} {d : Dev} (s : Mem)
    (hx : bootSrc h = { space := .flash, addr := h.src, mode := .inc, width := bootWidth h })
    (hy : bootDst h = { space := .dram, addr := h.dst, mode := .inc, width := bootWidth h }) (h45 : domainOn d 45 = true)
    (h46 : domainOn d 46 = true) (hz : isFrozen d (bootMaster c) = false) : ∃ e : Dev,
    bootMove c h d s = (e, writeDram s h.dst (readFlash s h.src h.len)) ∧ (h.link = false → e = endBoot (bootCounted d c h.len) c brOk) := by
  have hc := c.isLt
  have hmove := moveBytes_copies (x := bootSrc h) (y := bootDst h) (by rw [hx]) (by rw [hx]) (by rw [hy]) (by rw [hy]) h45 h46 hz
    (bootMaster c) 0 h.len h.len 0 [] s (Nat.zero_le _) (Nat.sub_le _ _)
  rw [hx, hy, Nat.add_zero, Nat.add_zero, Nat.sub_zero, ← hx, ← hy] at hmove
  have hfree : isFrozen (countBy d (BDM_CHc_BYTES c) h.len) (bootMaster c) = false := by
    rw [isFrozen, regBit, countBy, rd_wrn_other _ _ (by simp only [bootMaster]; omega)]
    exact hz
  rw [bootMove]
  dsimp only
  rw [hmove]
  dsimp only
  rw [hfree, if_neg (by decide)]
  cases h.link with
  | false => exact ⟨_, rfl, fun _ => rfl⟩
  | true =>
    rw [if_neg (by decide)]
    split
    · exact ⟨_, rfl, fun hl => absurd hl (by decide)⟩
    · exact ⟨_, rfl, fun hl => absurd hl (by decide)⟩

theorem bootState_busy {d : Dev} {c : Nat} (h : bootState d c = 1) : isFrozen d (bootMaster c) = false := by
  cases hz : isFrozen d (bootMaster c) with
  | false => rfl
  | true =>
    rw [bootState, hz, if_pos rfl] at h
    exact absurd h (by decide)

/-! ### The obligation, command by command -/

section Settled

variable (s : State)

/-- What DMA_ENTRY_START does of an idle channel. -/
theorem exec_dmaEntryStart_cases (c : Fin 64) (desc : List Byte) (r : Nat) (h : Descriptor) (hs : chanState s.dev c = 0)
    (hr : dmaRuns s.dev = true) (ht : turnRing s.dev c = some r) (hh : h = descriptorOf desc) :
    (fieldsGood h = false → ∃ d : Dev, exec (.dmaEntryStart c desc) s = .next (s.withDev d) ∧ chanRun d c = none
        ∧ rdn d DMA_BAD_DESC = min (rdn s.dev DMA_BAD_DESC + 1) 0xFFFFFFFF)
      ∧ (fieldsGood h = true → lengthGood h = true → (mainDst h).space ≠ .unit →
        (∀ a : Nat, outsideWindow s.dev (chanOwner s.dev c) (mainSrc h) h.len = some a → ∃ d : Dev,
          exec (.dmaEntryStart c desc) s = .next (s.withDev d) ∧ isFrozen d (chanMaster c) = true ∧ chanRun d c = none)
        ∧ (outsideWindow s.dev (chanOwner s.dev c) (mainSrc h) h.len = none →
          outsideWindow s.dev (chanOwner s.dev c) (mainDst h) h.len = none → overlaps (mainSrc h) (mainDst h) h.len = false →
          ∃ (d : Dev) (q : ChanRun), exec (.dmaEntryStart c desc) s = .next (s.withDev d)
            ∧ chanRun d c = some q ∧ q.ring = r ∧ q.hop = h ∧ q.moved = 0)) := by
  subst hh
  refine ⟨fun hf => ⟨_, exec_dmaEntryStart c desc s, dmaEntryStart_badField desc hs hr ht hf⟩, fun hf hl hu => ⟨fun a ha => ?_, fun hx hy ho => ?_⟩⟩
  · exact ⟨_, exec_dmaEntryStart c desc s, dmaEntryStart_outside desc hs hr ht hf hl hu ha⟩
  · exact ⟨_, _, exec_dmaEntryStart c desc s, dmaEntryStart_passes desc hs hr ht hf hl hu hx hy ho, rfl, rfl, rfl⟩

/-- What a bus error does of an engine with a busy channel. -/
theorem exec_busError_halts (space : Fin 3) (addr : BitVec 64) (hh : dmaHalted s.dev = false) (hb : busyChannels s.dev ≠ 0) (n : Nat)
    (hn : n = min (rdn s.dev DMA_HALTS + 1) 0xFFFFFFFF) :
    (∀ cause : BusFault, ∃ d : Dev, exec (.busError cause space addr) s = .next (s.withDev d) ∧ dmaHalted d = true ∧ rdn d DMA_HALTS = n
        ∧ ∀ c : Fin 64, chanState d c = 2 ∨ chanState d c = 3)
      ∧ ∃ d : Dev, exec (.dmaBusTimeout space addr) s = .next (s.withDev d) ∧ dmaHalted d = true
        ∧ rdn d DMA_TIMEOUT = min (rdn s.dev DMA_TIMEOUT + 1) 0xFFFFFFFF := by
  refine ⟨fun cause => ?_, ?_⟩
  · obtain ⟨hhalt, hcount, _⟩ := busError_halts hh cause space addr.toNat
    exact ⟨_, (exec_busError cause space addr s).trans (by rw [busErrorMain_eq hb]), hhalt, hn ▸ hcount, fun c => chanState_of_halted hhalt c⟩
  · obtain ⟨hhalt, _, htimeout⟩ := busError_halts hh .timeout space addr.toNat
    exact ⟨_, (exec_dmaBusTimeout space addr s).trans (by rw [busErrorMain_eq hb]), hhalt, htimeout rfl⟩

/-- What a write of DMA_CTL with RESUME does. -/
theorem exec_dmaResume_cases (m : Master) (value : Word) (ha : admits s.dev m DMA_CTL.ofs = true) (hv : value.getLsbD 0 = true) :
    (m = 0 → exec (.dmaResume m value) s = .next (s.withDev (setFlag s.dev DMA_STATUS_HALTED false)))
      ∧ (m ≠ 0 → exec (.dmaResume m value) s = .next s) := by
  have heq : dmaResume m value s.dev = if (value.getLsbD 0 && m == 0) = true then setFlag s.dev DMA_STATUS_HALTED false else s.dev :=
    guarded_admits _ ha
  rw [hv, Bool.true_and] at heq
  refine ⟨fun hm => ?_, fun hm => ?_⟩
  · rw [exec_dmaResume, heq, hm, if_pos (by decide)]
  · rw [exec_dmaResume, heq, if_neg (by simpa using hm), withDev_self]

/-- What GO and ABORT do of a boot channel. -/
theorem exec_bdmCtl_cases (m : Master) (c : Fin 4) (value : Word) (ha : admits s.dev m (BDM_CHc_CTL c).ofs = true) :
    (value.getLsbD 30 = false → bootState s.dev c = 0 → ∃ d : Dev, exec (.bdmGo m c value) s = .next (s.withDev d)
        ∧ bootRun d c = some (bootStart s.dev c) ∧ fld d (BDM_CHc_STATUS_RESULT c) = 0)
      ∧ (value.getLsbD 30 = false → bootState s.dev c ≠ 0 → exec (.bdmGo m c value) s = .next s)
      ∧ (bootState s.dev c = 1 → ∃ d : Dev, exec (.bdmAbort m c value) s = .next (s.withDev d) ∧ bootRun d c = none
        ∧ fld d (BDM_CHc_STATUS_RESULT c) = brAborted) := by
  have hgo31 : (value ||| 0x80000000).getLsbD 31 = true := by simp
  have hgo30 : (value ||| 0x80000000).getLsbD 30 = value.getLsbD 30 := by simp
  have habort : (value ||| 0x40000000).getLsbD 30 = true := by simp
  refine ⟨fun h30 hs => ?_, fun h30 hs => ?_, fun hs => ?_⟩
  · exact ⟨_, (exec_bdmGo m c value s).trans (by rw [bdmCtlWrite_go ha hgo31 (hgo30.trans h30) hs]), bootStarted_spec s.dev c _⟩
  · rw [exec_bdmGo, bdmCtlWrite_busy ha (hgo30.trans h30) hs, withDev_self]
  · exact ⟨_, (exec_bdmAbort m c value s).trans (by rw [bdmCtlWrite_abort ha habort hs]), endBoot_spec s.dev c (by decide)⟩

/-- What a hop of a boot channel does where its descriptor lies in powered DRAM. -/
theorem exec_bdmHop_cases (c : Fin 4) (b : BootRun) (h : Descriptor) (hs : bootState s.dev c = 1) (hb : bootRun s.dev c = some b)
    (hd : b.space = 1) (h45 : domainOn s.dev 45 = true) (h46 : domainOn s.dev 46 = true) (hh : h = descriptorOf (readDram s.mem b.addr 32)) :
    (bootResult h ≠ 0 → exec (.bdmHop c) s = .next (s.withDev (endBoot s.dev c (bootResult h))))
      ∧ (bootResult h = 0 → bootSrc h = { space := .flash, addr := h.src, mode := .inc, width := bootWidth h } →
          bootDst h = { space := .dram, addr := h.dst, mode := .inc, width := bootWidth h } →
        ∃ t : State, exec (.bdmHop c) s = .next t ∧ readDram t.mem h.dst h.len = readFlash s.mem h.src h.len
          ∧ (h.link = false → bootRun t.dev c = none ∧ fld t.dev (BDM_CHc_STATUS_RESULT c) = brOk)) := by
  refine ⟨fun hr => ?_, fun hr hx hy => ?_⟩
  · rw [exec_bdmHop, bdmHop_rejected hs hb hd h45 h46 hh hr]
    rfl
  · obtain ⟨e, he, hend⟩ := bootMove_copies s.mem hx hy h45 h46 (bootState_busy hs)
    refine ⟨s.after (e, writeDram s.mem h.dst (readFlash s.mem h.src h.len)), ?_, ?_, fun hl => ?_⟩
    · rw [exec_bdmHop, bdmHop_moves hs hb hd h45 h46 hh hr (by rw [hx]) (by rw [hy]), he]
    · exact readDram_writeDram_same s.mem h.dst (length_readFlash _ _ _)
    · rw [State.after, hend hl]
      exact endBoot_spec (bootCounted s.dev c h.len) c (by decide)

/-- What DMA_PROGRESS does of a channel with a hop in progress. -/
theorem exec_dmaProgress_cases (c : Fin 64) (r : ChanRun) (data : List Byte) (h : moving s.dev c = some r) :
    (∀ stop st : Nat, nextPoint r.hop r.point = some (stop, st) →
        (∀ (d : Dev) (m : Mem), serveUntil c (reached stop) (turnsFor r.hop.len) data s.dev s.mem = (d, m) →
          exec (.dmaProgress c data) s = .next { s with dev := postPoint c stop st d, mem := m })
        ∧ (reached stop r = true → mayPost s.dev r = true → r.hop.fence = true → exec (.dmaProgress c data) s
          = .next (s.withDev (putRun s.dev c { r with point := stop, fenced := some st }))))
      ∧ (nextPoint r.hop r.point = none → exec (.dmaProgress c data) s = .next s
        ∧ (hopDone r = true → finishHop c data s.dev s.mem = (countFld s.dev (DMA_CHc_STATUS_HOPS c), s.mem, some r))) := by
  refine ⟨fun stop st hp => ⟨fun d m hd => ?_, fun hr hm hf => ?_⟩, fun hp => ⟨?_, finishHop_done data s.mem h hp⟩⟩
  · rw [exec_dmaProgress, dmaProgress_eq data s.mem h hp, hd]
    rfl
  · rw [exec_dmaProgress, dmaProgress_eq data s.mem h hp, serveUntil_done data s.mem h hr, postPoint_fence h st hr hm hf]
    rfl
  · rw [exec_dmaProgress, dmaProgress_noPoint data s.mem h hp]
    rfl

/-- What DMA_COMPLETE and HOP_FETCH do of a hop that is done. -/
theorem exec_hopDone_cases (c : Fin 64) (r : ChanRun) (data : List Byte) (h : moving s.dev c = some r) (d : Dev) (m : Mem) (q : ChanRun)
    (desc : List Byte) (hq : finishHop c data s.dev s.mem = (d, m, some q)) :
    (r.hop.link = false → exec (.dmaComplete c data) s = .next { s with
        dev := if q.hop.fence = true then putRun d c { q with fenced := some csOk } else endEntry d c q csOk, mem := m })
      ∧ (r.hop.link = true → 4096 ≤ hopsOf d c →
        exec (.hopFetch c data desc) s = .next { s with dev := freezeChan d c causeHops q.hop.next, mem := m })
      ∧ (r.hop.link = true → hopsOf d c < 4096 → getBits q.hop.ctl 11 10 = 0 →
        exec (.hopFetch c data desc) s = .next { s with dev := takeHop d c q (descriptorOf desc), mem := m }) := by
  refine ⟨fun hl => ?_, fun hl hh => ?_, fun hl hh hs => ?_⟩
  · rw [exec_dmaComplete, dmaComplete_eq data s.mem h hl hq]
    rfl
  · rw [exec_hopFetch, hopFetch_last data s.mem h hl hq desc hh]
    rfl
  · rw [exec_hopFetch, hopFetch_host data s.mem h hl hq desc hh hs]
    rfl

end Settled

/-- Settles O56: bytes reach DRAM at the destination alone, an entry's first hop is checked in the order of R341, what is done of a hop in
progress is asked of the channel's turns, and halts, owners and boot channels change what their commands say. -/
theorem dmaEngines : Obligations.DmaEngines := by
  refine ⟨?_, ?_, ?_, ?_, ?_, ?_, ?_, ?_, ?_⟩
  · intro m reader f x y stop n i host d d' s s' j how hs hm he
    have hmem : s' = (moveBytes m reader f x y stop n i host d s).2.1 := by rw [he]
    exact hmem ▸ moveBytes_within hs hm m reader f x stop n i host d s
  · intro c desc s r h hs hr ht hh
    exact exec_dmaEntryStart_cases s c desc r h hs hr ht hh
  · intro c s r data h
    obtain ⟨hprogress, hnone⟩ := exec_dmaProgress_cases s c r data h
    refine ⟨fun hx hy hm h47 h45 h46 => ?_, hprogress, hnone, exec_hopDone_cases s c r data h⟩
    obtain ⟨e, rest, w, q, hturn, hmv, hst, hlen⟩ := takeTurn_hostToDram h c.isLt hx hy hm h47 h45 h46 data s.mem
    refine ⟨e, _, rest, w, q, hturn, hmv, hst, hlen, readDram_writeDram_same _ _ rfl, rfl, rfl, fun a ha => ?_⟩
    exact readDram_writeDram_apart s.mem (by omega)
  · intro c s r hs hr hf hu
    rw [exec_fenceDone, fenceDone_eq hs hr hu hf, if_pos rfl]
  · intro c s r st hs hr hf hst hu hm
    rw [exec_fenceDone, fenceDone_eq hs hr hu hf, if_neg hst, if_pos hm]
  · intro s space addr hh hb n hn
    exact exec_busError_halts s space addr hh hb n hn
  · intro m value s
    refine ⟨exec_dmaResume_cases s m value, fun c ha => ?_⟩
    exact ⟨_, exec_dmaOwnerChange m c value s, dmaOwnerChange_spec m c value s.dev ha⟩
  · intro m c value s ha
    exact exec_bdmCtl_cases s m c value ha
  · intro c s
    refine ⟨fun hs => ?_, fun hs cause space addr => ?_, fun b h hs hb hd h45 h46 hh => exec_bdmHop_cases s c b h hs hb hd h45 h46 hh⟩
    · rw [exec_bdmHop, bdmHop_idle hs]
      rfl
    · rw [exec_bdmBusError, bdmBusError, if_pos hs]

end Sys2Proof.Machine
end

section
/-!
PROOFS. The power sequences (spec/20): the words of PWR, the domains, and the grants and refusals of an entry (R358, R363, R364).
-/

namespace Sys2Proof.Machine

/-! ### The commands -/

theorem exec_unitGrant (empty : Bool) (s : State) : exec (.unitGrant empty) s = .next (s.after (unitGrant empty s.dev s.mem)) := rfl

theorem exec_grantTimeout (s : State) : exec .grantTimeout s = .next (s.withDev (grantTimeout s.dev)) := rfl

theorem exec_domainSwitchOff (s : State) : exec .domainSwitchOff s = .next (s.after (domainSwitchOff s.dev s.mem)) := rfl

theorem exec_domainSwitchOn (tested : List Word) (faulty : List UnitIx) (segs : List (Fin 16)) (s : State) :
    exec (.domainSwitchOn tested faulty segs) s = .next (s.after (domainSwitchOn tested faulty segs s.dev s.mem)) := rfl

theorem exec_avsAck (s : State) : exec .avsAck s = .next (s.withDev (avsAck s.dev)) := rfl

theorem exec_avsTimeout (s : State) : exec .avsTimeout s = .next (s.withDev (avsTimeout s.dev)) := rfl

theorem exec_pllLock (s : State) : exec .pllLock s = .next (s.withDev (pllLock s.dev)) := rfl

theorem exec_pllTimeout (s : State) : exec .pllTimeout s = .next (s.after (pllTimeout s.dev s.mem)) := rfl

theorem exec_wakeN (s : State) : exec (.wakeSource .wakeN) s = .next (s.withDev (wakeArrives s.dev wakePin 0)) := rfl

theorem exec_wakeComplete (s : State) : exec .wakeComplete s = .next (s.withDev (wakeComplete s.dev)) := rfl

theorem exec_pwrAltChange (b : Bool) (s : State) : exec (.pwrAltChange b) s = .next (s.withDev (pwrAltChange b s.dev)) := rfl

theorem exec_thermalStop (s : State) : exec .thermalStop s = .next (s.after (thermalStop s.dev s.mem)) := rfl

theorem withDev_inj {s : State} {d e : Dev} (h : (.next (s.withDev d) : Res) = .next (s.withDev e)) : d = e := by
  injection h with h
  exact congrArg State.dev h

/-! ### PWR's words -/

/-- A field as a part of its register's number. -/
theorem fld_eq_toNat (d : Dev) (f : Fld) : fld d f = rdn d f.reg / 2 ^ f.lo % 2 ^ (f.hi - f.lo + 1) := by
  rw [fld, getBits, BitVec.extractLsb'_toNat, Nat.shiftRight_eq_div_pow, rdn]

/-- PWR's registers beside its event register. -/
def isPwrWord (o : Nat) : Prop := 0x120000 ≤ o ∧ o < 0x130000 ∧ o ≠ 0x1200c0

section Words

variable (d : Dev)

theorem fld_setPwr (f : PwrHw → PwrHw) (g : Fld) : fld (setPwr d f) g = fld d g := rfl

theorem fld_setPhase (p : PwrPhase) (g : Fld) : fld (setPhase d p) g = fld d g := rfl

theorem rd_setPwr (f : PwrHw → PwrHw) (q : Reg) : rd (setPwr d f) q = rd d q := rfl

theorem rd_setPhase (p : PwrPhase) (q : Reg) : rd (setPhase d p) q = rd d q := rfl

theorem phase_setPhase (p : PwrPhase) : (setPhase d p).pwr.phase = p := rfl

theorem rd_raisePwr (b : Nat) {q : Reg} (h : isPwrWord q.ofs) : rd (raisePwr d b) q = rd d q := by
  unfold isPwrWord at h
  exact rd_raiseEvt_other d evPWR b (by simp only [evPWR]; omega) (by simp only; omega) (by simp only; omega)

theorem fld_raisePwr (b : Nat) {g : Fld} (h : isPwrWord g.reg.ofs) : fld (raisePwr d b) g = fld d g := fld_congr g (rd_raisePwr d b h)

theorem pwr_raisePwr (b : Nat) : (raisePwr d b).pwr = d.pwr := by
  obtain ⟨r, p, o, e⟩ := raiseEvt_spec d evPWR b
  rw [raisePwr, e]

theorem fld_count_other {r : Reg} {g : Fld} (h : g.reg.ofs ≠ r.ofs) : fld (count d r) g = fld d g := fld_congr g (rd_count_other d h)

theorem isPwrWord_status : isPwrWord PWR_STATUS.ofs := by
  unfold isPwrWord
  decide

end Words

/-- Nothing of the power sequence differs. -/
structure keepsPwr (d e : Dev) : Prop where
  words : keepsWords isPwrWord d e
  pwr : e.pwr = d.pwr

section Keeps

variable {d e : Dev}

theorem keepsPwr.refl (d : Dev) : keepsPwr d d := ⟨.refl _ d, rfl⟩

theorem keepsPwr.trans {g : Dev} (h : keepsPwr d e) (h' : keepsPwr e g) : keepsPwr d g := ⟨h.words.trans h'.words, h'.pwr.trans h.pwr⟩

theorem keepsPwr.setRng (h : keepsPwr d e) (x : Line) (f : RngHw → RngHw) : keepsPwr d (setRng e x f) :=
  h.trans ⟨(keepsWords.refl _ e).of_regs rfl, rfl⟩

theorem keepsPwr.setFld (h : keepsPwr d e) {f : Fld} (hf : ¬ isPwrWord f.reg.ofs) (v : Nat) : keepsPwr d (setFld e f v) :=
  h.trans ⟨(keepsWords.refl _ e).setFld hf v, rfl⟩

theorem not_isPwrWord_of_ge {o : Nat} (h : 0x130000 ≤ o) : ¬ isPwrWord o := by
  unfold isPwrWord
  omega

theorem keepsPwr.queueLmm (h : keepsPwr d e) (x : Line) (type : Nat) (payload : List Byte) : keepsPwr d (queueLmm e x type payload) := by
  have h1 : keepsPwr d (makeLmm e x type payload).1 := h.setRng x (fun r => { r with seqOut := (r.seqOut + 1) % 65536 })
  unfold Machine.queueLmm pushLmm
  split
  · exact h1.trans ⟨(keepsWords.refl _ _).count (not_isPwrWord_of_ge (by simp only; omega)), rfl⟩
  · exact h1.setRng _ _

theorem keepsPwr.raiseEvt (h : keepsPwr d e) {u : EvtUnit} (hu : ¬ isPwrWord u.evt.ofs) (b : Nat) : keepsPwr d (raiseEvt e u b) := by
  refine h.trans ⟨(keepsWords.refl _ e).raiseEvt hu (not_isPwrWord_of_ge (by decide)) (not_isPwrWord_of_ge (by decide)) b, ?_⟩
  obtain ⟨r, p, o, heq⟩ := raiseEvt_spec e u b
  rw [heq]

theorem keepsPwr.sleepAsk (h : keepsPwr d e) (keep : Bool) : keepsPwr d (sleepAsk e keep) := by
  unfold Machine.sleepAsk
  refine forEach_keeps (fun g x hg => ?_) _ h
  dsimp only
  split
  · exact (hg.queueLmm _ _ _).setRng _ _
  · exact hg.setRng _ _

theorem keepsPwr.reportAwake (h : keepsPwr d e) : keepsPwr d (reportAwake e) := by
  unfold Machine.reportAwake sleepCancel
  refine forEach_keeps (fun g x hg => hg.setRng _ _) _ (forEach_keeps (fun g x hg => ?_) _ h)
  dsimp only
  split
  · exact hg.queueLmm _ _ _
  · exact hg

theorem keepsPwr.endStore (h : keepsPwr d e) : keepsPwr d (endStore e) := by
  have hrelay (r : Option Relay) : keepsPwr d (setRelay e r) := h.trans ⟨(keepsWords.refl _ e).of_regs rfl, rfl⟩
  unfold Machine.endStore
  split
  · dsimp only
    split
    · refine ((hrelay _).setFld (f := FWU_STATUS_STORING) (not_isPwrWord_of_ge (by decide)) (boolBit false)).setFld
        (not_isPwrWord_of_ge ?_) _
      simp only
      omega
    · exact h
  · exact h

theorem keepsPwr.syncEngines (h : keepsPwr d e) : keepsPwr d (syncEngines e) := by
  have hset := (h.setFld (f := CIP_STATUS_ENGINES_OK) (not_isPwrWord_of_ge (by decide)) (workingEngines e).length).setFld
    (f := CIP_STATUS_CAPACITY_LOW) (not_isPwrWord_of_ge (by decide)) (boolBit (decide ((workingEngines e).length < 8)))
  unfold Machine.syncEngines
  dsimp only
  split
  · exact hset.raiseEvt (not_isPwrWord_of_ge (by decide)) _
  · exact hset

theorem keepsPwr.fld (h : keepsPwr d e) {f : Fld} (hf : isPwrWord f.reg.ofs) : fld e f = fld d f := h.words.fld hf

end Keeps

/-! ### Domains (R358) -/

section Domain

variable (d : Dev)

theorem putDomain_on {n : Nat} (hn : n < 64) (on ret : Bool) : domainOn (putDomain d n on ret) n = on ∧ domainRetained (putDomain d n on ret) n = ret := by
  unfold domainOn domainRetained putDomain
  split
  · next h =>
    refine ⟨?_, regBit_setRegBit_same _ _ _ h⟩
    rw [regBit, rd_setRegBit_other _ _ _ (by decide)]
    exact regBit_setRegBit_same _ _ _ h
  · refine ⟨?_, regBit_setRegBit_same _ _ _ (by omega)⟩
    rw [regBit, rd_setRegBit_other _ _ _ (by decide)]
    exact regBit_setRegBit_same _ _ _ (by omega)

/-- A register beside those that show the domains. -/
theorem rd_putDomain (n : Nat) (on ret : Bool) {q : Reg} (h : q.ofs < 0x120050 ∨ 0x12005c < q.ofs) : rd (putDomain d n on ret) q = rd d q := by
  unfold putDomain
  split <;> rw [rd_setRegBit_other _ _ _ (by simp only; omega), rd_setRegBit_other _ _ _ (by simp only; omega)]

theorem putDomain_touches (n : Nat) (on ret : Bool) : ∃ r, putDomain d n on ret = { d with regs := r } := by
  unfold putDomain
  split <;> exact ⟨_, rfl⟩

theorem domainOn_congr_words {d e : Dev} (hlo : rd e PWR_DOM_ON_LO = rd d PWR_DOM_ON_LO) (hhi : rd e PWR_DOM_ON_HI = rd d PWR_DOM_ON_HI) (n : Nat) :
    domainOn e n = domainOn d n := by
  unfold domainOn regBit
  rw [hlo, hhi]

/-- The loss of power of a domain without a consequence of its own. -/
theorem domainLoses_plain {n : Nat} (h : n ∈ [32, 45, 46, 48, 54]) : domainLoses d n = d := by
  simp only [List.mem_cons, List.not_mem_nil, or_false] at h
  rcases h with rfl | rfl | rfl | rfl | rfl <;> rfl

/-- The return of power of a domain without a consequence of its own. -/
theorem switchOn_plain {n : Nat} (h : n ∈ [26, 27, 43, 44, 48, 50, 54, 55]) : switchOn d n = putDomain d n true false := by
  simp only [List.mem_cons, List.not_mem_nil, or_false] at h
  rcases h with rfl | rfl | rfl | rfl | rfl | rfl | rfl | rfl <;> rfl

end Domain

/-! ### Grants and refusals (R363, R364) -/

section Grants

variable {d : Dev} {k : Nat} (empty : Bool) (s : Mem) (hp : d.pwr.phase = .asking k)

include hp

theorem unitGrant_waits (ha : entryAnswer d k = none) : unitGrant empty d s = (d, s) := by
  rw [unitGrant, hp]
  dsimp only
  rw [ha]

theorem unitGrant_granted (ha : entryAnswer d k = some true) (hk : k < 10) :
    unitGrant empty d s = (askStep (entryGranted d s k).1 (k + 1), (entryGranted d s k).2) := by
  rw [unitGrant, hp]
  dsimp only
  rw [ha]
  dsimp only
  rw [if_neg (by omega)]

theorem unitGrant_refused (ha : entryAnswer d k = some false) : unitGrant empty d s = (abortEntry d k false, s) := by
  rw [unitGrant, hp]
  dsimp only
  rw [ha]

theorem grantTimeout_silent (ha : entryAnswer d k = none) (ht : d.pwr.since + fld d PWR_GRANT_TO_GRANT_TO * ticksPerMs ≤ d.elapsed) :
    grantTimeout d = abortEntry d k true := by
  rw [grantTimeout, if_pos ht, hp]
  dsimp only
  rw [ha]
  rfl

end Grants

/-- The unit of the next step is asked. -/
theorem phase_askStep (d : Dev) (k : Nat) : (askStep d k).pwr.phase = .asking k := by
  unfold askStep
  dsimp only
  split
  · rw [((keepsPwr.refl _).sleepAsk _).pwr]
    rfl
  · rfl

/-- The word that a refusal leaves. -/
def refusal (d : Dev) (u step : Nat) (timeout : Bool) : Nat :=
  (unitAt u).kind * 65536 + (unitAt u).inst * 256 + step * 16 + d.pwr.target * 4 + boolBit timeout * 2 + 1

/-- The device as the refusal has been written down. -/
def refusalWritten (d : Dev) (u step : Nat) (timeout : Bool) : Dev :=
  wrn (wrn (wrn d PWR_REFUSE (refusal d u step timeout)) PWR_REFUSE_SEC d.clock.sec.toNat) PWR_REFUSE_NS d.clock.ns.val

/-- The device as the entry has been given up. -/
def entryGivenUp (d : Dev) : Dev :=
  setFlag (setPwr (setFld (setFld (setTrans (setPhase (count d PWR_REFUSALS) .idle) false) PWR_STATUS_LAST_OUTCOME outAborted)
    PWR_STATUS_STEP 0) (fun h => { h with pend := 0 })) PWR_STATUS_WAKE_PEND false

theorem abortEntry_eq (d : Dev) (k : Nat) (timeout : Bool) : abortEntry d k timeout
    = raisePwr (count (entryGivenUp (refusalWritten (reportAwake d) (stepUnit k) k timeout)) PWR_ABORTS) pwEvAbort := rfl

theorem rd_entryGivenUp (d : Dev) {q : Reg} (h : q.ofs ≠ PWR_STATUS.ofs) (h' : q.ofs ≠ PWR_REFUSALS.ofs) : rd (entryGivenUp d) q = rd d q := by
  unfold entryGivenUp setTrans
  rw [rd_setFlag_other _ _ h, rd_setPwr, rd_setFld_other _ _ h, rd_setFld_other _ _ h, rd_setFlag_other _ _ h, rd_setPhase, rd_count_other _ h']

theorem entryGivenUp_status (d : Dev) : fld (entryGivenUp d) PWR_STATUS_STATE = fld d PWR_STATUS_STATE
    ∧ fld (entryGivenUp d) PWR_STATUS_LAST_OUTCOME = outAborted := by
  unfold entryGivenUp setTrans
  constructor
  · rw [fld_setFlag_apart _ _ (by simp [apart]), fld_setPwr, fld_setFld_apart _ _ (by simp [apart]), fld_setFld_apart _ _ (by simp [apart]),
      fld_setFlag_apart _ _ (by simp [apart]), fld_setPhase, fld_count_other _ (by decide)]
  · rw [fld_setFlag_apart _ _ (by simp [apart]), fld_setPwr, fld_setFld_apart _ _ (by simp [apart]), fld_setFld_same _ _ (by decide) (by decide)]
    rfl

theorem rd_refusalWritten (d : Dev) (u step : Nat) (timeout : Bool) {q : Reg} (h : q.ofs < 0x120080 ∨ 0x120088 < q.ofs) :
    rd (refusalWritten d u step timeout) q = rd d q := by
  unfold refusalWritten
  rw [rd_wrn_other _ _ (by simp only; omega), rd_wrn_other _ _ (by simp only; omega), rd_wrn_other _ _ (by simp only; omega)]

/-- Which step it was and whether the unit was silent, in the word of a refusal. -/
theorem refusalWritten_word (d : Dev) (u step : Nat) (timeout : Bool) (ht : d.pwr.target < 4) :
    fld (refusalWritten d u step timeout) PWR_REFUSE_STEP = step % 16 ∧ flag (refusalWritten d u step timeout) PWR_REFUSE_TIMEOUT = timeout := by
  have hword : rdn (refusalWritten d u step timeout) PWR_REFUSE = refusal d u step timeout % 2 ^ 32 := by
    unfold refusalWritten
    rw [rdn_wrn_other _ _ (by decide), rdn_wrn_other _ _ (by decide), rdn_wrn_same]
  have hbit : boolBit timeout < 2 := by cases timeout <;> decide
  rw [flag, fld_eq_toNat, fld_eq_toNat, hword]
  constructor
  · simp only [refusal]
    omega
  · have hv : refusal d u step timeout % 2 ^ 32 / 2 ^ 1 % 2 ^ (1 - 1 + 1) = boolBit timeout := by
      simp only [refusal]
      omega
    rw [hv]
    cases timeout <;> rfl

/-- A step that is refused aborts the entry, is recorded, and changes no domain. -/
theorem abortEntry_spec (d : Dev) (k : Nat) (timeout : Bool) (ht : d.pwr.target < 4) :
    (abortEntry d k timeout).pwr.phase = .idle ∧ pwrState (abortEntry d k timeout) = pwrState d
      ∧ fld (abortEntry d k timeout) PWR_STATUS_LAST_OUTCOME = outAborted ∧ fld (abortEntry d k timeout) PWR_REFUSE_STEP = k % 16
      ∧ flag (abortEntry d k timeout) PWR_REFUSE_TIMEOUT = timeout
      ∧ rdn (abortEntry d k timeout) PWR_ABORTS = min (rdn d PWR_ABORTS + 1) 0xFFFFFFFF
      ∧ ∀ n, domainOn (abortEntry d k timeout) n = domainOn d n := by
  have hkeep : keepsPwr d (reportAwake d) := (keepsPwr.refl d).reportAwake
  have hword := refusalWritten_word (reportAwake d) (stepUnit k) k timeout (by rw [hkeep.pwr]; exact ht)
  have hstatus := entryGivenUp_status (refusalWritten (reportAwake d) (stepUnit k) k timeout)
  have hrd {q : Reg} (h : isPwrWord q.ofs) (ha : q.ofs ≠ PWR_ABORTS.ofs) : rd (abortEntry d k timeout) q
      = rd (entryGivenUp (refusalWritten (reportAwake d) (stepUnit k) k timeout)) q := by
    rw [abortEntry_eq, rd_raisePwr _ _ h, rd_count_other _ ha]
  have hold {q : Reg} (h : isPwrWord q.ofs) (hs : q.ofs ≠ PWR_STATUS.ofs) (hr : q.ofs < 0x120080 ∨ 0x120088 < q.ofs)
      (hc : q.ofs ≠ PWR_REFUSALS.ofs) :
      rd (entryGivenUp (refusalWritten (reportAwake d) (stepUnit k) k timeout)) q = rd d q := by
    rw [rd_entryGivenUp _ hs hc, rd_refusalWritten _ _ _ _ hr, hkeep.words q h]
  have hrefuse : rd (abortEntry d k timeout) PWR_REFUSE = rd (refusalWritten (reportAwake d) (stepUnit k) k timeout) PWR_REFUSE := by
    rw [hrd (by unfold isPwrWord; decide) (by decide), rd_entryGivenUp _ (by decide) (by decide)]
  refine ⟨?_, ?_, ?_, ?_, ?_, ?_, fun n => ?_⟩
  · rw [abortEntry_eq, pwr_raisePwr]
    rfl
  · rw [pwrState, fld_congr PWR_STATUS_STATE (hrd isPwrWord_status (by decide)), hstatus.1,
      fld_congr PWR_STATUS_STATE (rd_refusalWritten _ _ _ _ (by decide)), hkeep.fld isPwrWord_status, pwrState]
  · rw [fld_congr PWR_STATUS_LAST_OUTCOME (hrd isPwrWord_status (by decide)), hstatus.2]
  · rw [fld_congr PWR_REFUSE_STEP hrefuse, hword.1]
  · rw [flag_congr PWR_REFUSE_TIMEOUT hrefuse, hword.2]
  · rw [abortEntry_eq, rdn, rd_raisePwr _ _ (by unfold isPwrWord; decide)]
    refine (rdn_count_same _ _).trans ?_
    rw [rdn, hold (by unfold isPwrWord; decide) (by decide) (by decide) (by decide), rdn]
  · have hon {q : Reg} (h : 0x120050 ≤ q.ofs ∧ q.ofs ≤ 0x120054) : rd (abortEntry d k timeout) q = rd d q := by
      have hw : isPwrWord q.ofs := by
        unfold isPwrWord
        omega
      rw [hrd hw (by simp only; omega), hold hw (by simp only; omega) (by omega) (by simp only; omega)]
    exact domainOn_congr_words (hon (by decide)) (hon (by decide)) n

end Sys2Proof.Machine
end

section
/-!
PROOFS. The power sequences (spec/20): domain switching, the regulator and the PLLs, wakes, alternate power and thermal stop (R365 to R374,
R460).
-/

namespace Sys2Proof.Machine

/-! ### Domains that leave service (R365) -/

section SwitchOff

variable {d : Dev} {n : Nat} {ds : List Nat} (s : Mem)

/-- The device before domain n is switched off: the flow cache has been written back where the DRAM loses power. -/
def writtenBack (d : Dev) (s : Mem) (n : Nat) : Dev × Mem := if (n = 31 ∨ n = 45 ∨ n = 46) ∧ flowPowered d then writeBackAll d s else (d, s)

theorem writtenBack_touches (d : Dev) (s : Mem) (n : Nat) : ∃ p, (writtenBack d s n).1 = { d with pkt := p } := by
  unfold writtenBack
  split <;> exact ⟨_, rfl⟩

/-- A domain without a consequence of its own is switched off. -/
theorem domainOff_plain (d : Dev) (s : Mem) (h : n ∈ [32, 45, 46, 48, 54]) (ret : Bool) : domainOff d s n ret
    = (if n = 32 ∧ !ret then { putDomain (writtenBack d s n).1 n false ret with endpoints := [] } else putDomain (writtenBack d s n).1 n false ret,
      if ret then (writtenBack d s n).2
      else if n = 45 ∨ n = 46 then loseDram (writtenBack d s n).2 (n - 45)
      else if 49 ≤ n ∧ n ≤ 52 then loseCore (writtenBack d s n).2 (n - 49)
      else (writtenBack d s n).2) := by
  unfold domainOff
  change (if n = 32 ∧ !ret then { domainLoses (putDomain (writtenBack d s n).1 n false ret) n with endpoints := [] }
    else domainLoses (putDomain (writtenBack d s n).1 n false ret) n, _) = _
  rw [domainLoses_plain _ h]
  rfl

/-- Where the domain is switched off, only its marks, the flow cache and the endpoints may differ. -/
theorem domainOff_plain_touches (d : Dev) (s : Mem) (h : n ∈ [32, 45, 46, 48, 54]) (ret : Bool) : ∃ p l r,
    (domainOff d s n ret).1 = { d with pkt := p, endpoints := l, regs := r } ∧ (∀ q : Reg, q.ofs < 0x120050 ∨ 0x12005c < q.ofs →
      rd (domainOff d s n ret).1 q = rd d q) ∧ domainOn (domainOff d s n ret).1 n = false ∧ domainRetained (domainOff d s n ret).1 n = ret
      ∧ (ret = true → l = d.endpoints) ∧ (n = 32 → ret = false → l = []) := by
  obtain ⟨p, hp⟩ := writtenBack_touches d s n
  obtain ⟨r, hr⟩ := putDomain_touches (writtenBack d s n).1 n false ret
  have hn : n < 64 := by
    simp only [List.mem_cons, List.not_mem_nil, or_false] at h
    omega
  obtain ⟨hon, hret⟩ := putDomain_on (writtenBack d s n).1 hn false ret
  have hrd : ∀ q : Reg, q.ofs < 0x120050 ∨ 0x12005c < q.ofs → rd (putDomain (writtenBack d s n).1 n false ret) q = rd d q := fun q hq =>
    (rd_putDomain _ n false ret hq).trans (by rw [hp]; rfl)
  rw [domainOff_plain d s h]
  dsimp only
  split
  · next hc =>
    refine ⟨p, [], r, by rw [hr, hp], hrd, hon, hret, fun ht => ?_, fun _ _ => rfl⟩
    rw [ht] at hc
    exact absurd hc.2 (by decide)
  · next hc =>
    refine ⟨p, d.endpoints, r, by rw [hr, hp], hrd, hon, hret, fun _ => rfl, fun h32 hf => ?_⟩
    rw [hf] at hc
    exact absurd ⟨h32, rfl⟩ hc

/-- DRAM that is retained keeps its bytes, with the flow cache written back to it where that has power. -/
theorem domainOff_retained_mem (d : Dev) (s : Mem) {target : Nat} (h : n ∈ [32, 45, 46, 48, 54]) (hr : staysRetained target n = true) :
    (domainOff d s n true).2 = if n ≠ 32 ∧ flowPowered d = true then (writeBackAll d s).2 else s := by
  rw [domainOff_plain d s h, if_pos rfl]
  have hn : n = 32 ∨ n = 45 ∨ n = 46 := by
    simp only [List.mem_cons, List.not_mem_nil, or_false] at h
    rcases h with h | h | h | h | h
    · exact .inl h
    · exact .inr (.inl h)
    · exact .inr (.inr h)
    · subst h
      simp [staysRetained, hushRetained] at hr
    · subst h
      simp [staysRetained, hushRetained] at hr
  unfold writtenBack
  rcases hn with rfl | rfl | rfl
  · rfl
  · by_cases hf : flowPowered d = true <;> simp [hf]
  · by_cases hf : flowPowered d = true <;> simp [hf]

/-- A domain that Hush does not keep on is switched off, or retained, in its turn. -/
theorem domainSwitchOff_next (h : n ∈ [32, 45, 46, 48, 54]) (hds : ds ≠ []) (hp : d.pwr.phase = .off (n :: ds)) :
    domainSwitchOff d s = (setPhase (domainOff d s n (staysRetained d.pwr.target n)).1 (.off ds),
      (domainOff d s n (staysRetained d.pwr.target n)).2) := by
  have hstays : staysOn d.pwr.target n = false := by
    have hc : hushOn.contains n = false := by
      simp only [List.mem_cons, List.not_mem_nil, or_false] at h
      rcases h with rfl | rfl | rfl | rfl | rfl <;> rfl
    rw [staysOn, hc, Bool.and_false]
  have hne : ds.isEmpty = false := by rwa [List.isEmpty_eq_false_iff]
  rw [domainSwitchOff, hp]
  dsimp only
  rw [hstays, hne]
  rfl

end SwitchOff

/-- A domain of a wake without a consequence of its own is switched on in its turn. -/
theorem domainSwitchOn_next {d : Dev} {n m : Nat} {ds : List Nat} (h : n ∈ [26, 27, 43, 44, 48, 50, 55]) (hp : d.pwr.phase = .wakeOn (n :: m :: ds))
    (tested : List Word) (faulty : List UnitIx) (segs : List (Fin 16)) (s : Mem) : domainSwitchOn tested faulty segs d s
      = (setPhase (putDomain (setPwr d (fun h => { h with switched := n :: h.switched })) n true false) (.wakeOn (m :: ds)), s) := by
  have hmem : n ∈ [26, 27, 43, 44, 48, 50, 54, 55] := by
    simp only [List.mem_cons, List.not_mem_nil, or_false] at h ⊢
    omega
  have h52 : n ≠ 52 := by
    simp only [List.mem_cons, List.not_mem_nil, or_false] at h
    omega
  rw [domainSwitchOn, hp]
  dsimp only
  rw [wakeSwitchOn, hp]
  dsimp only
  rw [if_neg h52, switchOn_plain _ hmem]
  rfl

/-! ### The regulator (R368, R374) -/

theorem avsAck_entry {d : Dev} (h : d.pwr.phase = .entryAvs) : avsAck d = finishEntryTo d outDone := by rw [avsAck, h]

theorem avsAck_wake {d : Dev} (h : d.pwr.phase = .wakeAvs) : avsAck d = startPlls d .wakePll := by rw [avsAck, h]

/-- Domain 54 has power while its PLLs are waited for. -/
theorem startPlls_spec (d : Dev) (p : PwrPhase) : (startPlls d p).pwr.phase = p ∧ domainOn (startPlls d p) 54 = true := by
  have hon := putDomain_on (setPwr d (fun h => { h with tries := 0, switched := [54] })) (n := 54) (by decide) true false
  unfold startPlls
  rw [switchOn_plain _ (by decide)]
  exact ⟨phase_setPhase _ _, hon.1⟩

section Timeout

variable {d : Dev} (hp : d.pwr.phase = .wakeAvs) (ht : d.pwr.since + 5000 ≤ d.elapsed)

include hp ht

/-- The request of a wake is repeated. -/
theorem avsTimeout_repeats (h : d.pwr.tries < 3) : avsTimeout d
    = avsRequest (setPwr (count d PWR_AVS_RETRY) (fun h => { h with tries := h.tries + 1, since := d.elapsed })) (avsVoltage d) := by
  rw [avsTimeout, hp, decide_eq_true ht]
  exact if_pos h

/-- After three repeats the wake fails. -/
theorem avsTimeout_fails (h : 3 ≤ d.pwr.tries) : avsTimeout d = wakeFails d := by
  rw [avsTimeout, hp, decide_eq_true ht]
  exact if_neg (Nat.not_lt.mpr h)

end Timeout

theorem rd_avsRequest (d : Dev) (mv : Nat) {q : Reg} (h : q.ofs ≠ PWR_STATUS.ofs) : rd (avsRequest d mv) q = rd d q := by
  unfold avsRequest
  exact rd_setFlag_other _ _ h

theorem fld_avsRequest (d : Dev) (mv : Nat) {g : Fld} (h : apart g PWR_STATUS_SAFE) : fld (avsRequest d mv) g = fld d g := by
  unfold avsRequest
  exact fld_setFlag_apart _ _ h

theorem avsRepeated_spec (d : Dev) (mv : Nat) (hp : d.pwr.phase = .wakeAvs) (e : Dev)
    (he : e = avsRequest (setPwr (count d PWR_AVS_RETRY) (fun h => { h with tries := h.tries + 1, since := d.elapsed })) mv) :
    e.pwr.phase = .wakeAvs ∧ e.pwr.tries = d.pwr.tries + 1 ∧ rdn e PWR_AVS_RETRY = min (rdn d PWR_AVS_RETRY + 1) 0xFFFFFFFF := by
  subst he
  refine ⟨hp, rfl, ?_⟩
  rw [rdn, rd_avsRequest _ _ (by decide), rd_setPwr]
  exact rdn_count_same _ _

/-- The words of the wake that has failed, before its events. -/
def wakeFailed (d : Dev) : Dev :=
  setFlag (setFld (setTrans (setPhase (avsSafe d) .idle) false) PWR_STATUS_LAST_OUTCOME outWakeFailed) PWR_STATUS_WAKE_FAIL true

theorem wakeFails_eq (d : Dev) : wakeFails d = raisePwr (raisePwr (count (wakeFailed d) PWR_WAKE_FAILS) pwEvAvsFail) pwEvWakeFail := rfl

theorem rd_wakeFails (d : Dev) {q : Reg} (h : isPwrWord q.ofs) : rd (wakeFails d) q = rd (count (wakeFailed d) PWR_WAKE_FAILS) q := by
  rw [wakeFails_eq, rd_raisePwr _ _ h, rd_raisePwr _ _ h]

/-- A wake that fails leaves the device asleep, at VOLT_SAFE. -/
theorem wakeFails_spec (d : Dev) : (wakeFails d).pwr.phase = .idle ∧ pwrState (wakeFails d) = pwrState d
    ∧ flag (wakeFails d) PWR_STATUS_WAKE_FAIL = true ∧ flag (wakeFails d) PWR_STATUS_SAFE = true
    ∧ fld (wakeFails d) PWR_STATUS_LAST_OUTCOME = outWakeFailed ∧ rdn (wakeFails d) PWR_WAKE_FAILS = min (rdn d PWR_WAKE_FAILS + 1) 0xFFFFFFFF := by
  have hstatus : rd (wakeFails d) PWR_STATUS = rd (wakeFailed d) PWR_STATUS := by
    rw [rd_wakeFails d isPwrWord_status, rd_count_other _ (by decide)]
  refine ⟨?_, ?_, ?_, ?_, ?_, ?_⟩
  · rw [wakeFails_eq, pwr_raisePwr, pwr_raisePwr]
    rfl
  · rw [pwrState, fld_congr PWR_STATUS_STATE hstatus, wakeFailed, setTrans, avsSafe, fld_setFlag_apart _ _ (by simp [apart]),
      fld_setFld_apart _ _ (by simp [apart]), fld_setFlag_apart _ _ (by simp [apart]), fld_setPhase, fld_setFlag_apart _ _ (by simp [apart])]
    rfl
  · rw [flag_congr PWR_STATUS_WAKE_FAIL hstatus, wakeFailed, flag_setFlag_same _ _ (by decide) (by decide)]
  · rw [flag_congr PWR_STATUS_SAFE hstatus, wakeFailed, setTrans, flag_setFlag_apart _ _ (by simp [apart]), flag_setFld_apart _ _ (by simp [apart]),
      flag_setFlag_apart _ _ (by simp [apart]), flag, fld_setPhase, avsSafe]
    exact flag_setFlag_same _ _ (by decide) (by decide)
  · rw [fld_congr PWR_STATUS_LAST_OUTCOME hstatus, wakeFailed, fld_setFlag_apart _ _ (by simp [apart]), fld_setFld_same _ _ (by decide) (by decide)]
    rfl
  · rw [rdn, rd_wakeFails d (by unfold isPwrWord; decide)]
    refine (rdn_count_same _ _).trans ?_
    rw [rdn, wakeFailed, setTrans, avsSafe, rd_setFlag_other _ _ (by decide), rd_setFld_other _ _ (by decide), rd_setFlag_other _ _ (by decide),
      rd_setPhase, rd_setFlag_other _ _ (by decide), rd_emit, rdn]

/-! ### The PLLs (R372, R374) -/

theorem pllLock_wake {d : Dev} (h : d.pwr.phase = .wakePll) :
    pllLock d = setPhase d (.wakeOn (switched.filter (fun n => !domainOn d n && !requestedOff d n))) := by rw [pllLock, h]

/-- The words that say that domain 54 has failed. -/
def clockGivenUp (d : Dev) : Dev :=
  setFlag (setTrans (setPhase (setFlag (setRegBit d PWR_DOM_FAIL_HI 22 true) (HDR_STATUS_FAULT (unitAt 0).base) true) .idle) false)
    PWR_STATUS_WAKE_FAIL true

/-- The device as the third attempt has been counted. -/
def attemptsOver (d : Dev) : Dev := setPwr (count d PWR_PLL_RETRY) (fun h => { h with tries := h.tries + 1, since := d.elapsed })

theorem pllTimeout_fails {d : Dev} (s : Mem) (hp : d.pwr.phase = .wakePll) (hn : 2 ≤ d.pwr.tries) (ht : d.pwr.since + 5000 ≤ d.elapsed) :
    pllTimeout d s = (avsRequest (setFld (raisePwr (raisePwr (clockGivenUp (domainOff (attemptsOver d) s 54 false).1) pwEvPllFail) pwEvWakeFail)
      PWR_STATUS_LAST_OUTCOME outWakeFailed)
      (fld (raisePwr (raisePwr (clockGivenUp (domainOff (attemptsOver d) s 54 false).1) pwEvPllFail) pwEvWakeFail) PWR_VOLT_VOLT_LOW),
      (domainOff (attemptsOver d) s 54 false).2) := by
  have htries : ¬ (attemptsOver d).pwr.tries < 3 := by
    change ¬ d.pwr.tries + 1 < 3
    omega
  rw [pllTimeout, hp, decide_eq_true ht]
  exact if_neg htries

theorem clockGivenUp_spec (d : Dev) : clockFailed (clockGivenUp d) = true ∧ domainOn (clockGivenUp d) 54 = domainOn d 54
    ∧ (clockGivenUp d).pwr.phase = .idle ∧ pwrState (clockGivenUp d) = pwrState d ∧ flag (clockGivenUp d) PWR_STATUS_WAKE_FAIL = true := by
  have hrd {q : Reg} (h : q.ofs ≠ PWR_STATUS.ofs) (h0 : q.ofs ≠ (HDR_STATUS_FAULT (unitAt 0).base).reg.ofs) :
      rd (clockGivenUp d) q = rd (setRegBit d PWR_DOM_FAIL_HI 22 true) q := by
    unfold clockGivenUp setTrans
    rw [rd_setFlag_other _ _ h, rd_setFlag_other _ _ h, rd_setPhase, rd_setFlag_other _ _ h0]
  refine ⟨?_, ?_, rfl, ?_, ?_⟩
  · rw [clockFailed, regBit, hrd (by decide) (by decide)]
    exact regBit_setRegBit_same _ _ _ (by decide)
  · refine domainOn_congr_words ?_ ?_ 54 <;> rw [hrd (by decide) (by decide), rd_setRegBit_other _ _ _ (by decide)]
  · rw [pwrState, clockGivenUp, setTrans, fld_setFlag_apart _ _ (by simp [apart]), fld_setFlag_apart _ _ (by simp [apart]), fld_setPhase,
      fld_congr PWR_STATUS_STATE (rd_setFlag_other _ _ (by decide)), fld_congr PWR_STATUS_STATE (rd_setRegBit_other _ _ _ (by decide)), pwrState]
  · exact flag_setFlag_same _ _ (by decide) (by decide)

/-- Three failed attempts fail domain 54 and leave the device asleep. -/
theorem pllTimeout_spec {d : Dev} (s : Mem) (hp : d.pwr.phase = .wakePll) (hn : 2 ≤ d.pwr.tries) (ht : d.pwr.since + 5000 ≤ d.elapsed) :
    clockFailed (pllTimeout d s).1 = true ∧ domainOn (pllTimeout d s).1 54 = false ∧ (pllTimeout d s).1.pwr.phase = .idle
      ∧ pwrState (pllTimeout d s).1 = pwrState d ∧ flag (pllTimeout d s).1 PWR_STATUS_WAKE_FAIL = true := by
  obtain ⟨p, l, r, _, hkept, hoff, _⟩ := domainOff_plain_touches (n := 54) (attemptsOver d) s (by decide) false
  have hstate : pwrState (domainOff (attemptsOver d) s 54 false).1 = pwrState d := by
    rw [pwrState, fld_congr PWR_STATUS_STATE (hkept _ (by decide)), attemptsOver, fld_setPwr, fld_count_other _ (by decide), pwrState]
  rw [pllTimeout_fails s hp hn ht]
  generalize (domainOff (attemptsOver d) s 54 false).1 = e at hoff hstate
  obtain ⟨hfail, hdom, hphase, hst, hwake⟩ := clockGivenUp_spec e
  generalize fld (raisePwr (raisePwr (clockGivenUp e) pwEvPllFail) pwEvWakeFail) PWR_VOLT_VOLT_LOW = mv
  have hraised {q : Reg} (h : isPwrWord q.ofs) : rd (raisePwr (raisePwr (clockGivenUp e) pwEvPllFail) pwEvWakeFail) q = rd (clockGivenUp e) q := by
    rw [rd_raisePwr _ _ h, rd_raisePwr _ _ h]
  have hword {q : Reg} (h : isPwrWord q.ofs) (hs : q.ofs ≠ PWR_STATUS.ofs) :
      rd (avsRequest (setFld (raisePwr (raisePwr (clockGivenUp e) pwEvPllFail) pwEvWakeFail) PWR_STATUS_LAST_OUTCOME outWakeFailed) mv) q
        = rd (clockGivenUp e) q := by
    rw [rd_avsRequest _ _ hs, rd_setFld_other _ _ hs, hraised h]
  refine ⟨?_, ?_, ?_, ?_, ?_⟩
  · rw [clockFailed, regBit, hword (by unfold isPwrWord; decide) (by decide)]
    exact hfail
  · rw [domainOn_congr_words (hword (by unfold isPwrWord; decide) (by decide)) (hword (by unfold isPwrWord; decide) (by decide)), hdom, hoff]
  · rw [← hphase, ← pwr_raisePwr (clockGivenUp e) pwEvPllFail, ← pwr_raisePwr (raisePwr (clockGivenUp e) pwEvPllFail) pwEvWakeFail]
    rfl
  · rw [pwrState, fld_avsRequest _ _ (by simp [apart]), fld_setFld_apart _ _ (by simp [apart]),
      fld_congr PWR_STATUS_STATE (hraised isPwrWord_status)]
    exact hst.trans hstate
  · rw [flag, fld_avsRequest _ _ (by simp [apart]), fld_setFld_apart _ _ (by simp [apart]),
      fld_congr PWR_STATUS_WAKE_FAIL (hraised isPwrWord_status)]
    exact hwake

/-! ### Wake sources (R370, R371) -/

section Sources

variable {d : Dev} (hen : regBit d PWR_WAKE_EN wakePin = true) (hth : d.pwr.thermal = false)

include hen hth

/-- Asleep in Hush, with nothing in progress, a wake begins. -/
theorem wakeArrives_hush (hs : pwrState d = pwrHush) (hp : d.pwr.phase = .idle) : wakeArrives d wakePin 0 = beginWake d (2 ^ wakePin) 0 := by
  have hent : entering d = false := by rw [entering, hp]
  have hsleep : sleeping d = true := by
    rw [sleeping, hs]
    rfl
  rw [wakeArrives, hen, hth, if_neg (by decide), hent, if_neg (by decide), if_pos hsleep, if_pos hp]
  rfl

/-- During an entry the source is latched. -/
theorem wakeArrives_entering (he : entering d = true) : wakeArrives d wakePin 0
    = setFlag (setPwr d (fun h => { h with pend := h.pend ||| 2 ^ wakePin, pendTarget := h.pendTarget })) PWR_STATUS_WAKE_PEND true := by
  rw [wakeArrives, hen, hth, if_neg (by decide), if_pos he]
  rfl

/-- Awake a source does nothing. -/
theorem wakeArrives_awake (he : entering d = false) (hs : pwrState d < 2) : wakeArrives d wakePin 0 = d := by
  have hsleep : sleeping d = false := by
    rw [sleeping, decide_eq_false (by omega)]
  rw [wakeArrives, hen, hth, if_neg (by decide), he, if_neg (by decide), hsleep, if_neg (by decide)]

end Sources

theorem bitOf_or_pow (n b : Nat) : bitOf (n ||| 2 ^ b) b = true := by
  rw [bitOf_eq_testBit]
  simp

/-- The device as a wake has latched its sources. -/
def wakeLatched (d : Dev) (sources target : Nat) : Dev :=
  setPwr (setFlag (wrn d PWR_WAKE_SRC sources) PWR_STATUS_TRANS true) (fun h => { h with tries := 0, wakeTarget := target, switched := [] })

theorem beginWake_hush {d : Dev} (hs : pwrState d = pwrHush) (sources target : Nat) (h : target ≠ 0 ∨ clockFailed d = false) :
    beginWake d sources target
      = avsRequest (setPhase (wakeLatched d sources target) .wakeAvs) (fld (wakeLatched d sources target) PWR_VOLT_VOLT_FULL) := by
  have hb : (target == 0 && regBit d PWR_DOM_FAIL_HI 22) = false := by
    rcases h with h | h
    · rw [beq_eq_false_iff_ne.mpr h, Bool.false_and]
    · rw [show regBit d PWR_DOM_FAIL_HI 22 = false from h, Bool.and_false]
  unfold beginWake
  simp only [hs, beq_self_eq_true, Bool.true_and, hb]
  rfl

theorem beginWake_refused {d : Dev} (hs : pwrState d = pwrHush) (sources : Nat) (h : clockFailed d = true) :
    beginWake d sources 0 = count d PWR_WAKE_REFUSED := by
  unfold beginWake
  simp only [hs, beq_self_eq_true, Bool.true_and, show regBit d PWR_DOM_FAIL_HI 22 = true from h, if_true]

/-- A wake that has begun has its sources latched and waits for the regulator. -/
theorem wakeBegun_spec (d : Dev) {sources : Nat} (hs : sources < 2 ^ 32) (target mv : Nat) :
    (avsRequest (setPhase (wakeLatched d sources target) .wakeAvs) mv).pwr.phase = .wakeAvs
      ∧ rdn (avsRequest (setPhase (wakeLatched d sources target) .wakeAvs) mv) PWR_WAKE_SRC = sources
      ∧ flag (avsRequest (setPhase (wakeLatched d sources target) .wakeAvs) mv) PWR_STATUS_TRANS = true := by
  refine ⟨rfl, ?_, ?_⟩
  · rw [rdn, rd_avsRequest _ _ (by decide), rd_setPhase, wakeLatched, rd_setPwr, rd_setFlag_other _ _ (by decide)]
    exact (rdn_wrn_same _ _ _).trans (Nat.mod_eq_of_lt hs)
  · rw [flag, fld_avsRequest _ _ (by simp [apart]), fld_setPhase, wakeLatched, fld_setPwr]
    exact flag_setFlag_same _ _ (by decide) (by decide)

/-! ### The end of a wake (R372) -/

/-- A trim change that starts leaves every field of PWR_STATUS but STATE and TRANS, and PWR_CTL. -/
theorem startTrim_spec (d : Dev) (g : Fld) (h1 : apart g PWR_STATUS_STATE) (h2 : apart g PWR_STATUS_TRANS) :
    fld (startTrim d) g = fld d g ∧ (startTrim d).applied = d.applied := by
  have hw : isPwrWord g.reg.ofs := by
    rw [h1.1]
    exact isPwrWord_status
  have hsync : fld (syncPwrState d) g = fld d g ∧ (syncPwrState d).applied = d.applied := by
    unfold syncPwrState
    dsimp only
    split
    · exact ⟨rfl, rfl⟩
    · obtain ⟨r, p, o, e⟩ := raiseEvt_spec (setFld d PWR_STATUS_STATE (boolBit (switched.any (requestedOff d)))) evPWR pwEvState
      refine ⟨(fld_raisePwr _ _ hw).trans (fld_setFld_apart _ _ h1), ?_⟩
      rw [raisePwr, e]
      rfl
  unfold startTrim
  dsimp only
  split
  · exact hsync
  split
  · exact hsync
  · refine ⟨?_, hsync.2⟩
    rw [fld_setPhase, setTrans, fld_setFlag_apart _ _ h2, fld_setPwr]
    exact hsync.1

theorem applied_syncEngines (d : Dev) : (syncEngines d).applied = d.applied := by
  unfold syncEngines
  dsimp only
  split
  · obtain ⟨r, p, o, e⟩ := raiseEvt_spec (setFlag (setFld d CIP_STATUS_ENGINES_OK (workingEngines d).length) CIP_STATUS_CAPACITY_LOW
      (decide ((workingEngines d).length < 8))) evCIP cpCapacity
    rw [raiseCip, e]
    rfl
  · rfl

/-- The device as a wake's outcome is shown. -/
def wakeShown (d : Dev) : Dev :=
  setFldA (setFlag (setFld d PWR_STATUS_LAST_OUTCOME outDone) PWR_STATUS_WAKE_FAIL false) PWR_CTL_TARGET 0

/-- The device as its units go on. -/
def wakeReported (d : Dev) : Dev := syncEngines (raisePwr (raisePwr (count (emit (wakeShown d) .usbWake) PWR_WAKES) pwEvState) pwEvWake)

theorem wakeComplete_eq {d : Dev} (h : d.pwr.phase = .wakeEnd) : ∃ e, wakeComplete d = startTrim (wakeReported e) := by
  rw [wakeComplete, h]
  exact ⟨_, rfl⟩

theorem wakeReported_spec (d : Dev) : rd (wakeReported d) PWR_STATUS = rd (wakeShown d) PWR_STATUS
    ∧ (wakeReported d).applied = (wakeShown d).applied := by
  constructor
  · rw [wakeReported, (keepsPwr.refl _).syncEngines.words PWR_STATUS isPwrWord_status, rd_raisePwr _ _ isPwrWord_status,
      rd_raisePwr _ _ isPwrWord_status, rd_count_other _ (by decide), rd_emit]
  · rw [wakeReported, applied_syncEngines]
    obtain ⟨r, p, o, e⟩ := raiseEvt_spec (count (emit (wakeShown d) .usbWake) PWR_WAKES) evPWR pwEvState
    obtain ⟨r', p', o', e'⟩ := raiseEvt_spec (raisePwr (count (emit (wakeShown d) .usbWake) PWR_WAKES) pwEvState) evPWR pwEvWake
    rw [raisePwr, e', raisePwr, e]
    rfl

/-- A wake that is complete clears WAKE_FAIL and its target, and shows DONE. -/
theorem wakeComplete_spec {d : Dev} (h : d.pwr.phase = .wakeEnd) : flag (wakeComplete d) PWR_STATUS_WAKE_FAIL = false
    ∧ fld (wakeComplete d) PWR_STATUS_LAST_OUTCOME = outDone ∧ fldA (wakeComplete d) PWR_CTL_TARGET = 0 := by
  obtain ⟨e, he⟩ := wakeComplete_eq h
  obtain ⟨hstatus, happlied⟩ := wakeReported_spec e
  obtain ⟨hfail, hctl⟩ := startTrim_spec (wakeReported e) PWR_STATUS_WAKE_FAIL (by simp [apart]) (by simp [apart])
  obtain ⟨hlast, _⟩ := startTrim_spec (wakeReported e) PWR_STATUS_LAST_OUTCOME (by simp [apart]) (by simp [apart])
  rw [he]
  refine ⟨?_, ?_, ?_⟩
  · rw [flag, hfail, fld_congr PWR_STATUS_WAKE_FAIL hstatus]
    exact flag_setFlag_same (setFld e PWR_STATUS_LAST_OUTCOME outDone) _ (by decide) (by decide)
  · rw [hlast, fld_congr PWR_STATUS_LAST_OUTCOME hstatus]
    refine (fld_setFlag_apart (setFld e PWR_STATUS_LAST_OUTCOME outDone) _ (by simp [apart])).trans ?_
    rw [fld_setFld_same _ _ (by decide) (by decide)]
    rfl
  · rw [fldA, rdA, hctl, happlied, wakeShown, setFldA, wrA]
    rw [sget_sput_same, getBits_putBits_same _ _ (by decide) (by decide)]
    rfl

/-! ### PWR_ALT (R369) -/

/-- The level shows, and DYING_GASP where GASP_EN is set. -/
theorem syncGasp_spec (d : Dev) : flag (syncGasp d) PWR_STATUS_PWR_ALT = flag d PWR_STATUS_PWR_ALT
    ∧ flag (syncGasp d) PWR_STATUS_DYING_GASP = (flag d PWR_STATUS_PWR_ALT && flag d PWR_WAKE_CFG_GASP_EN) ∧ (syncGasp d).pwr = d.pwr := by
  have hset : flag (setFlag d PWR_STATUS_DYING_GASP (flag d PWR_STATUS_PWR_ALT && flag d PWR_WAKE_CFG_GASP_EN)) PWR_STATUS_PWR_ALT
      = flag d PWR_STATUS_PWR_ALT := flag_setFlag_apart _ _ (by simp [apart])
  have hgasp := flag_setFlag_same d (f := PWR_STATUS_DYING_GASP) (flag d PWR_STATUS_PWR_ALT && flag d PWR_WAKE_CFG_GASP_EN) (by decide) (by decide)
  unfold syncGasp
  dsimp only
  split
  · have hrd := rd_raisePwr (setFlag d PWR_STATUS_DYING_GASP (flag d PWR_STATUS_PWR_ALT && flag d PWR_WAKE_CFG_GASP_EN)) pwEvGasp isPwrWord_status
    exact ⟨(flag_congr PWR_STATUS_PWR_ALT hrd).trans hset, (flag_congr PWR_STATUS_DYING_GASP hrd).trans hgasp, pwr_raisePwr _ _⟩
  · exact ⟨hset, hgasp, rfl⟩

/-- A level that PWR_ALT takes shows with DYING_GASP, and the power sequence goes on as it was. -/
theorem pwrAltChange_spec {d : Dev} {b : Bool} (h : flag d PWR_STATUS_PWR_ALT = !b) : flag (pwrAltChange b d) PWR_STATUS_PWR_ALT = b
    ∧ flag (pwrAltChange b d) PWR_STATUS_DYING_GASP = (b && flag d PWR_WAKE_CFG_GASP_EN) ∧ (pwrAltChange b d).pwr = d.pwr := by
  have hne : ¬ flag d PWR_STATUS_PWR_ALT = b := by
    rw [h]
    cases b <;> decide
  have hlevel : flag (raisePwr (setFlag d PWR_STATUS_PWR_ALT b) pwEvAlt) PWR_STATUS_PWR_ALT = b :=
    (flag_congr PWR_STATUS_PWR_ALT (rd_raisePwr _ _ isPwrWord_status)).trans (flag_setFlag_same _ _ (by decide) (by decide))
  have hen : flag (raisePwr (setFlag d PWR_STATUS_PWR_ALT b) pwEvAlt) PWR_WAKE_CFG_GASP_EN = flag d PWR_WAKE_CFG_GASP_EN :=
    flag_congr PWR_WAKE_CFG_GASP_EN ((rd_raisePwr _ _ (by unfold isPwrWord; decide)).trans (rd_setFlag_other _ _ (by decide)))
  obtain ⟨halt, hgasp, hpwr⟩ := syncGasp_spec (raisePwr (setFlag d PWR_STATUS_PWR_ALT b) pwEvAlt)
  rw [hlevel] at halt
  rw [hlevel, hen] at hgasp
  rw [pwr_raisePwr] at hpwr
  unfold pwrAltChange
  rw [if_neg hne]
  dsimp only
  split
  · have hkeep := (keepsPwr.refl (syncGasp (raisePwr (setFlag d PWR_STATUS_PWR_ALT b) pwEvAlt))).endStore
    exact ⟨(hkeep.words.flag isPwrWord_status).trans halt, (hkeep.words.flag isPwrWord_status).trans hgasp, hkeep.pwr.trans hpwr⟩
  · exact ⟨halt, hgasp, hpwr⟩

theorem thermalStop_eq (d : Dev) (s : Mem) : ∃ e, (thermalStop d s).1 = setFlag e PWR_STATUS_WAKE_FAIL true := ⟨_, rfl⟩

/-! ### The obligation, part by part -/

section Settled

variable (s : State)

/-- What UNIT_GRANT and GRANT_TIMEOUT do of an entry that asks the unit of step k. -/
theorem exec_grant_cases (k : Nat) (empty : Bool) (hp : s.dev.pwr.phase = .asking k) (ht : s.dev.pwr.target < 4) :
    (entryAnswer s.dev k = none → exec (.unitGrant empty) s = .next s)
      ∧ (entryAnswer s.dev k = some true → k < 10 → ∃ t : State, exec (.unitGrant empty) s = .next t ∧ t.dev.pwr.phase = .asking (k + 1))
      ∧ (∀ d : Dev, (entryAnswer s.dev k = some false ∧ exec (.unitGrant empty) s = .next (s.withDev d)
            ∨ entryAnswer s.dev k = none ∧ s.dev.pwr.since + fld s.dev PWR_GRANT_TO_GRANT_TO * ticksPerMs ≤ s.dev.elapsed
              ∧ exec .grantTimeout s = .next (s.withDev d)) →
          d.pwr.phase = .idle ∧ pwrState d = pwrState s.dev ∧ fld d PWR_STATUS_LAST_OUTCOME = outAborted ∧ fld d PWR_REFUSE_STEP = k % 16
            ∧ flag d PWR_REFUSE_TIMEOUT = (entryAnswer s.dev k).isNone ∧ rdn d PWR_ABORTS = min (rdn s.dev PWR_ABORTS + 1) 0xFFFFFFFF
            ∧ ∀ n : Nat, domainOn d n = domainOn s.dev n)
      ∧ (entryAnswer s.dev k = some false → exec (.unitGrant empty) s = .next (s.withDev (abortEntry s.dev k false))) := by
  have hrefused (ha : entryAnswer s.dev k = some false) : exec (.unitGrant empty) s = .next (s.withDev (abortEntry s.dev k false)) := by
    rw [exec_unitGrant, unitGrant_refused empty s.mem hp ha]
    rfl
  refine ⟨fun ha => ?_, fun ha hk => ⟨_, exec_unitGrant empty s, ?_⟩, fun d hd => ?_, hrefused⟩
  · rw [exec_unitGrant, unitGrant_waits empty s.mem hp ha]
    rfl
  · rw [unitGrant_granted empty s.mem hp ha hk]
    exact phase_askStep _ _
  · rcases hd with ⟨ha, he⟩ | ⟨ha, hsince, he⟩
    · rw [withDev_inj (he.symm.trans (hrefused ha)), ha]
      exact abortEntry_spec s.dev k false ht
    · rw [exec_grantTimeout, grantTimeout_silent hp ha hsince] at he
      rw [← withDev_inj he, ha]
      exact abortEntry_spec s.dev k true ht

/-- What DOMAIN_SWITCH_OFF does of a domain that Hush does not keep on. -/
theorem exec_domainSwitchOff_next (n : Nat) (ds : List Nat) (hn : n ∈ [32, 45, 46, 48, 54]) (hds : ds ≠ [])
    (hp : s.dev.pwr.phase = .off (n :: ds)) : ∃ t : State, exec .domainSwitchOff s = .next t ∧ t.dev.pwr.phase = .off ds
      ∧ domainOn t.dev n = false ∧ domainRetained t.dev n = staysRetained s.dev.pwr.target n
      ∧ (staysRetained s.dev.pwr.target n = true → t.dev.endpoints = s.dev.endpoints
        ∧ t.mem = if n ≠ 32 ∧ flowPowered s.dev = true then (writeBackAll s.dev s.mem).2 else s.mem)
      ∧ (n = 32 → s.dev.pwr.target = pwrKeep → t.dev.endpoints = []) := by
  obtain ⟨p, l, r, he, _, hoff, hret, hkept, hlost⟩ := domainOff_plain_touches s.dev s.mem hn (staysRetained s.dev.pwr.target n)
  refine ⟨s.after (domainSwitchOff s.dev s.mem), exec_domainSwitchOff s, ?_⟩
  rw [domainSwitchOff_next s.mem hn hds hp, State.after]
  refine ⟨phase_setPhase _ _, hoff, hret, fun hs => ⟨?_, ?_⟩, fun h32 hk => ?_⟩
  · dsimp only [setPhase, setPwr]
    rw [he]
    exact hkept hs
  · dsimp only
    rw [hs, domainOff_retained_mem s.dev s.mem hn hs]
  · have hs : staysRetained s.dev.pwr.target n = false := by
      rw [staysRetained, hk]
      rfl
    dsimp only [setPhase, setPwr]
    rw [he]
    exact hlost h32 hs

/-- What AVS_ACK, AVS_TIMEOUT, PLL_LOCK and PLL_TIMEOUT do of what waits for them. -/
theorem exec_regulator_cases :
    (s.dev.pwr.phase = .entryAvs → exec .avsAck s = .next (s.withDev (finishEntryTo s.dev outDone)))
      ∧ (s.dev.pwr.phase = .wakeAvs → ∃ d : Dev, exec .avsAck s = .next (s.withDev d) ∧ d.pwr.phase = .wakePll ∧ domainOn d 54 = true)
      ∧ (s.dev.pwr.phase = .wakeAvs → s.dev.pwr.since + 5000 ≤ s.dev.elapsed →
        (s.dev.pwr.tries < 3 → ∃ d : Dev, exec .avsTimeout s = .next (s.withDev d) ∧ d.pwr.phase = .wakeAvs ∧ d.pwr.tries = s.dev.pwr.tries + 1
          ∧ rdn d PWR_AVS_RETRY = min (rdn s.dev PWR_AVS_RETRY + 1) 0xFFFFFFFF)
        ∧ (3 ≤ s.dev.pwr.tries → ∃ d : Dev, exec .avsTimeout s = .next (s.withDev d) ∧ d.pwr.phase = .idle ∧ pwrState d = pwrState s.dev
          ∧ flag d PWR_STATUS_WAKE_FAIL = true ∧ flag d PWR_STATUS_SAFE = true ∧ fld d PWR_STATUS_LAST_OUTCOME = outWakeFailed
          ∧ rdn d PWR_WAKE_FAILS = min (rdn s.dev PWR_WAKE_FAILS + 1) 0xFFFFFFFF))
      ∧ (s.dev.pwr.phase = .wakePll →
        (∃ (d : Dev) (ds : List Nat), exec .pllLock s = .next (s.withDev d) ∧ d.pwr.phase = .wakeOn ds
          ∧ ∀ n : Nat, n ∈ ds ↔ n ∈ switched ∧ domainOn s.dev n = false ∧ requestedOff s.dev n = false)
        ∧ (2 ≤ s.dev.pwr.tries → s.dev.pwr.since + 5000 ≤ s.dev.elapsed → ∃ t : State, exec .pllTimeout s = .next t ∧ clockFailed t.dev = true
          ∧ domainOn t.dev 54 = false ∧ t.dev.pwr.phase = .idle ∧ pwrState t.dev = pwrState s.dev ∧ flag t.dev PWR_STATUS_WAKE_FAIL = true)) := by
  refine ⟨fun hp => ?_, fun hp => ?_, fun hp ht => ⟨fun hn => ?_, fun hn => ?_⟩, fun hp => ⟨?_, fun hn ht => ?_⟩⟩
  · rw [exec_avsAck, avsAck_entry hp]
  · exact ⟨_, (exec_avsAck s).trans (by rw [avsAck_wake hp]), startPlls_spec _ _⟩
  · exact ⟨_, (exec_avsTimeout s).trans (by rw [avsTimeout_repeats hp ht hn]), avsRepeated_spec s.dev (avsVoltage s.dev) hp _ rfl⟩
  · exact ⟨_, (exec_avsTimeout s).trans (by rw [avsTimeout_fails hp ht hn]), wakeFails_spec s.dev⟩
  · refine ⟨_, _, (exec_pllLock s).trans (by rw [pllLock_wake hp]), phase_setPhase _ _, fun n => ?_⟩
    rw [List.mem_filter, Bool.and_eq_true, Bool.not_eq_true', Bool.not_eq_true']
  · exact ⟨_, exec_pllTimeout s, pllTimeout_spec s.mem hp hn ht⟩

/-- What WAKE_N does asleep, during an entry and awake. -/
theorem exec_wakeN_cases (hen : regBit s.dev PWR_WAKE_EN wakePin = true) (hth : s.dev.pwr.thermal = false) :
    (pwrState s.dev = pwrHush → s.dev.pwr.phase = .idle →
        (clockFailed s.dev = false → ∃ d : Dev, exec (.wakeSource .wakeN) s = .next (s.withDev d) ∧ d.pwr.phase = .wakeAvs
          ∧ rdn d PWR_WAKE_SRC = 2 ^ wakePin ∧ flag d PWR_STATUS_TRANS = true)
        ∧ (clockFailed s.dev = true → exec (.wakeSource .wakeN) s = .next (s.withDev (count s.dev PWR_WAKE_REFUSED))))
      ∧ (entering s.dev = true → ∃ d : Dev, exec (.wakeSource .wakeN) s = .next (s.withDev d) ∧ d.pwr.phase = s.dev.pwr.phase
          ∧ bitOf d.pwr.pend wakePin = true ∧ flag d PWR_STATUS_WAKE_PEND = true)
      ∧ (entering s.dev = false → pwrState s.dev < 2 → exec (.wakeSource .wakeN) s = .next s) := by
  refine ⟨fun hs hp => ⟨fun hc => ?_, fun hc => ?_⟩, fun he => ?_, fun he hs => ?_⟩
  · have heq := (wakeArrives_hush hen hth hs hp).trans (beginWake_hush hs (2 ^ wakePin) 0 (.inr hc))
    exact ⟨wakeArrives s.dev wakePin 0, exec_wakeN s, heq ▸ wakeBegun_spec s.dev (Nat.pow_lt_pow_right (by decide) (by decide)) 0 _⟩
  · rw [exec_wakeN, wakeArrives_hush hen hth hs hp, beginWake_refused hs _ hc]
  · refine ⟨wakeArrives s.dev wakePin 0, exec_wakeN s, ?_⟩
    rw [wakeArrives_entering hen hth he]
    exact ⟨rfl, bitOf_or_pow _ _, flag_setFlag_same _ _ (by decide) (by decide)⟩
  · rw [exec_wakeN, wakeArrives_awake hen hth he hs, withDev_self]

end Settled

/-- Settles O57: a refused or silent step aborts its entry and is recorded, domains switch in their turn, and the regulator, the PLLs and the
sources of a wake answer as the phase of the sequence asks. -/
theorem powerSequences : Obligations.PowerSequences := by
  refine ⟨fun s k empty hp ht => exec_grant_cases s k empty hp ht, fun s => ⟨fun n ds hn hds hp => ?_, fun n m ds hn hp tested faulty segs => ?_⟩,
    exec_regulator_cases, exec_wakeN_cases, fun s hp => ?_, fun s => ⟨fun b hb => ?_, fun b hb => ?_, ?_⟩⟩
  · exact exec_domainSwitchOff_next s n ds hn hds hp
  · have hlt : n < 64 := by
      simp only [List.mem_cons, List.not_mem_nil, or_false] at hn
      omega
    refine ⟨_, (exec_domainSwitchOn tested faulty segs s).trans (by rw [domainSwitchOn_next hn hp]; rfl), phase_setPhase _ _, ?_⟩
    exact (putDomain_on _ hlt true false).1
  · exact ⟨_, exec_wakeComplete s, wakeComplete_spec hp⟩
  · rw [exec_pwrAltChange, pwrAltChange, if_pos hb, withDev_self]
  · exact ⟨_, exec_pwrAltChange b s, pwrAltChange_spec hb⟩
  · obtain ⟨e, he⟩ := thermalStop_eq s.dev s.mem
    refine ⟨_, exec_thermalStop s, ?_⟩
    rw [State.after, he]
    exact flag_setFlag_same _ _ (by decide) (by decide)

end Sys2Proof.Machine
end

section
/-!
PROOFS. Self-test slices (spec/21): the target picked, the start and the verdict of a slice, what cuts it short, and its restore
(R381 to R384, R386).
-/

namespace Sys2Proof.Machine

/-! ### The target picked (R384) -/

section Pick

variable {d : Dev} {t : Nat}

theorem mem_of_leastRecent (rounds : Nat → Nat) (ts : List Nat) (acc : Option Nat) (h : ts.foldl (fun acc t => match acc with
    | some a => if rounds t < rounds a then some t else acc
    | none => some t) acc = some t) : t ∈ ts ∨ acc = some t := by
  induction ts generalizing acc with
  | nil => exact .inr h
  | cons u us ih =>
    rcases ih _ h with hmem | hacc
    · exact .inl (List.mem_cons_of_mem u hmem)
    · cases acc with
      | none => exact .inl (Option.some.inj hacc ▸ List.mem_cons_self)
      | some a =>
        dsimp only at hacc
        split at hacc
        · exact .inl (Option.some.inj hacc ▸ List.mem_cons_self)
        · exact .inr hacc

theorem mem_eligible {u : Nat} : u ∈ (List.range 48).filter (eligible d) ↔ u < 48 ∧ eligible d u = true := by
  rw [List.mem_filter, List.mem_range]

/-- A suspect is picked before pending targets, and a pending one before the others. -/
theorem pickTarget_spec (h : pickTarget d = some t) : (t < 48 ∧ eligible d t = true)
    ∧ ((∃ u, u < 48 ∧ eligible d u = true ∧ flag d (BST_TGTt_STATUS_SUSPECT u) = true) → flag d (BST_TGTt_STATUS_SUSPECT t) = true)
    ∧ ((∃ u, u < 48 ∧ eligible d u = true ∧ flag d (BST_TGTt_STATUS_PENDING u) = true) →
        flag d (BST_TGTt_STATUS_SUSPECT t) = true ∨ flag d (BST_TGTt_STATUS_PENDING t) = true) := by
  unfold pickTarget at h
  dsimp only at h
  cases hs : ((List.range 48).filter (eligible d)).find? (fun t => flag d (BST_TGTt_STATUS_SUSPECT t)) with
  | some a =>
    rw [hs] at h
    obtain rfl := Option.some.inj h
    have hsuspect : flag d (BST_TGTt_STATUS_SUSPECT a) = true :=
      List.find?_some (p := fun t => flag d (BST_TGTt_STATUS_SUSPECT t)) hs
    exact ⟨mem_eligible.mp (List.mem_of_find?_eq_some hs), fun _ => hsuspect, fun _ => .inl hsuspect⟩
  | none =>
    rw [hs] at h
    have hnone : ∀ u, u < 48 → eligible d u = true → ¬ flag d (BST_TGTt_STATUS_SUSPECT u) = true := fun u hu he =>
      List.find?_eq_none.mp hs u (mem_eligible.mpr ⟨hu, he⟩)
    cases hp : ((List.range 48).filter (eligible d)).find? (fun t => flag d (BST_TGTt_STATUS_PENDING t)) with
    | some a =>
      rw [hp] at h
      obtain rfl := Option.some.inj h
      have hpending : flag d (BST_TGTt_STATUS_PENDING a) = true :=
        List.find?_some (p := fun t => flag d (BST_TGTt_STATUS_PENDING t)) hp
      exact ⟨mem_eligible.mp (List.mem_of_find?_eq_some hp), fun ⟨u, hu, he, hx⟩ => absurd hx (hnone u hu he), fun _ => .inr hpending⟩
    | none =>
      rw [hp] at h
      have hmem : t ∈ (List.range 48).filter (eligible d) := by
        rcases mem_of_leastRecent (fun t => sget 0 d.bst.rounds t) _ none h with hm | hm
        · exact hm
        · exact absurd hm (by simp)
      exact ⟨mem_eligible.mp hmem, fun ⟨u, hu, he, hx⟩ => absurd hx (hnone u hu he),
        fun ⟨u, hu, he, hx⟩ => absurd hx (List.find?_eq_none.mp hp u (mem_eligible.mpr ⟨hu, he⟩))⟩

end Pick

/-! ### Verdicts (R379, R388) -/

theorem engineReg_bounds {t : Nat} (h : t < 18) : 0x800200 ≤ (engineReg t).ofs ∧ (engineReg t).ofs ≤ 0x800244 := by
  unfold engineReg
  split <;> (simp only; omega)

section Verdict

variable (d : Dev) {t v : Nat}

/-- A verdict shows in its target's word, its engine's and the headers of its units. -/
theorem rd_setVerdict {q : Reg} (h : 0x40 ≤ q.ofs % 0x10000) (hq : q.ofs ≠ (BST_TGTt_STATUS t).ofs) (he : q.ofs < 0x800200 ∨ 0x800244 < q.ofs) :
    rd (setVerdict d t v) q = rd d q := by
  unfold setVerdict
  refine forEach_keeps_mem (P := fun e => rd e q = rd d q) (fun e u hu hr => (rd_setFld_other _ _ ?_).trans hr) ?_
  · have := window_targetUnits_all t u hu
    intro heq
    rw [heq] at h
    exact absurd h (Nat.not_le.mpr this)
  · split
    · next hc =>
      have := engineReg_bounds hc
      rw [rd_setFld_other _ _ (by simp only; omega), rd_setFld_other _ _ hq]
    · exact rd_setFld_other _ _ hq

theorem rd_setVerdict_target (h : t < 48) : rd (setVerdict d t v) (BST_TGTt_STATUS t) = putBits (rd d (BST_TGTt_STATUS t)) 26 24 v := by
  have hset : rd (setFld d (BST_TGTt_STATUS_VERDICT t) v) (BST_TGTt_STATUS t) = putBits (rd d (BST_TGTt_STATUS t)) 26 24 v :=
    rd_setFld_same _ _ _
  unfold setVerdict
  refine forEach_keeps_mem (P := fun e => rd e (BST_TGTt_STATUS t) = putBits (rd d (BST_TGTt_STATUS t)) 26 24 v)
    (fun e u hu hr => (rd_setFld_other _ _ ?_).trans hr) ?_
  · have := window_targetUnits t h u hu
    simp only at this ⊢
    omega
  · split
    · next hc =>
      have := engineReg_bounds hc
      exact (rd_setFld_other _ _ (by simp only; omega)).trans hset
    · exact hset

theorem rd_recordSlice (verdict cause : Nat) {q : Reg} (h : q.ofs ≠ BST_LAST.ofs) : rd (recordSlice d verdict cause) q = rd d q := by
  unfold recordSlice
  dsimp only
  rw [rd_setFld_other _ _ h, rd_setFld_other _ _ h, rd_setFlag_other _ _ h, rd_setFld_other _ _ h, rd_setFld_other _ _ h]

theorem fld_recordSlice_cause (verdict : Nat) {cause : Nat} (h : cause < 8) : fld (recordSlice d verdict cause) BST_LAST_CAUSE = cause := by
  unfold recordSlice
  dsimp only
  rw [fld_setFld_apart _ _ (by simp [apart]), fld_setFld_apart _ _ (by simp [apart]), fld_setFlag_apart _ _ (by simp [apart]),
    fld_setFld_same _ _ (by decide) (by decide)]
  exact Nat.mod_eq_of_lt h

end Verdict

/-- The slice of a target, in a word that shows it RUNNING with its patterns. -/
theorem slicing_of_status {d : Dev} (hr : flag d BST_STATUS_RUNNING = true) (hp : fld d BST_STATUS_PHASE = 2) :
    slicing d = some (fld d BST_STATUS_TARGET) := by
  rw [slicing, hr, hp]
  rfl

theorem slicing_none_of_phase {d : Dev} (hp : fld d BST_STATUS_PHASE = 3) : slicing d = none := by
  rw [slicing, hp]
  simp

theorem rd_raiseBst (d : Dev) (b : Nat) {q : Reg} (h : q.ofs < 0xf00000) (hq : q.ofs ≠ BST_EVT.ofs) : rd (raiseBst d b) q = rd d q :=
  rd_raiseEvt_other d evBST b hq (by simp only; omega) (by simp only; omega)

/-! ### The start of a slice (R381) -/

theorem rd_setSubState (d : Dev) (t s : Nat) {q : Reg} (h : q.ofs < 0x800000) : rd (setSubState d t s) q = rd d q := by
  unfold setSubState
  split
  · next hc =>
    have := engineReg_bounds hc
    exact rd_setFld_other _ _ (by simp only; omega)
  split
  · exact rd_setFld_other _ _ (by simp only; omega)
  · rfl

/-- BST's status as the slice of target t begins. -/
def sliceShown (d : Dev) (t : Nat) : Dev :=
  let d := setFlag (setFld (count d BST_SLICES) BST_STATUS_PHASE 2) BST_STATUS_RUNNING true
  setFld (setFld d BST_STATUS_TARGET t) BST_STATUS_SEGMENT (fld d (BST_TGTt_STATUS_NEXT_SEG t))

theorem sliceStart_runs {d : Dev} {t : Nat} (hen : flag d BST_CFG_EN = true) (hon : domainOn d 55 = true)
    (hrun : flag d BST_STATUS_RUNNING = false) (hp : pwrStopped d 1 = false) (ht : pickTarget d = some t) (hg : gapOver d t = true) :
    sliceStart d = setVerdict (setSubState (setBst (sliceShown d t) (fun b => { b with beganAt := (sliceShown d t).elapsed })) t 3) t vdRunning := by
  unfold sliceStart
  simp only [hen, hon, hrun, hp, ht, hg]
  rfl

theorem sliceStart_busy {d : Dev} (hrun : flag d BST_STATUS_RUNNING = true) : sliceStart d = d := by
  unfold sliceStart
  simp [hrun]

theorem sliceShown_status (d : Dev) {t : Nat} (h : t < 48) : flag (sliceShown d t) BST_STATUS_RUNNING = true
    ∧ fld (sliceShown d t) BST_STATUS_PHASE = 2 ∧ fld (sliceShown d t) BST_STATUS_TARGET = t := by
  unfold sliceShown
  dsimp only
  refine ⟨?_, ?_, ?_⟩
  · rw [flag_setFld_apart _ _ (by simp [apart]), flag_setFld_apart _ _ (by simp [apart])]
    exact flag_setFlag_same _ _ (by decide) (by decide)
  · rw [fld_setFld_apart _ _ (by simp [apart]), fld_setFld_apart _ _ (by simp [apart]), fld_setFlag_apart _ _ (by simp [apart]),
      fld_setFld_same _ _ (by decide) (by decide)]
    rfl
  · rw [fld_setFld_apart _ _ (by simp [apart]), fld_setFld_same _ _ (by decide) (by decide)]
    exact Nat.mod_eq_of_lt (Nat.lt_trans h (by decide))

theorem rd_setBst (d : Dev) (f : BstHw → BstHw) (q : Reg) : rd (setBst d f) q = rd d q := rfl

/-- A slice that starts runs on its target. -/
theorem sliceBegun_spec (d : Dev) (f : BstHw → BstHw) {t : Nat} (h : t < 48) :
    slicing (setVerdict (setSubState (setBst (sliceShown d t) f) t 3) t vdRunning) = some t
      ∧ fld (setVerdict (setSubState (setBst (sliceShown d t) f) t 3) t vdRunning) (BST_TGTt_STATUS_VERDICT t) = vdRunning := by
  obtain ⟨hrun, hphase, htarget⟩ := sliceShown_status d h
  have hstatus : rd (setVerdict (setSubState (setBst (sliceShown d t) f) t 3) t vdRunning) BST_STATUS = rd (sliceShown d t) BST_STATUS := by
    rw [rd_setVerdict _ (by decide) (by simp only; omega) (by decide), rd_setSubState _ _ _ (by decide), rd_setBst]
  constructor
  · rw [slicing_of_status ((flag_congr BST_STATUS_RUNNING hstatus).trans hrun) ((fld_congr BST_STATUS_PHASE hstatus).trans hphase),
      fld_congr BST_STATUS_TARGET hstatus, htarget]
  · rw [fld, rd_setVerdict_target _ h]
    exact getBits_putBits_same _ _ (by decide) (by decide)

/-! ### The verdict of a slice (R382) -/

/-- The device as the signature has been judged. -/
def sliceJudged (d : Dev) (t v : Nat) (sig : BitVec 64) : Dev :=
  setFld (setVerdict (recordSlice (wrPair d BST_LAST_SIG_LO BST_LAST_SIG_HI sig.toNat) v 0) t v) BST_STATUS_PHASE 3

/-- The device as a good signature has lifted a suspicion. -/
def signaturePassed (d : Dev) (t : Nat) (sig : BitVec 64) : Dev :=
  if flag d (BST_TGTt_STATUS_SUSPECT t) then
    raiseBst (count (setFlag (sliceJudged d t vdPass sig) (BST_TGTt_STATUS_SUSPECT t) false) BST_TRANSIENT) bsTransient
  else sliceJudged d t vdPass sig

section Judged

variable {d : Dev} {t : Nat} (sig : BitVec 64)

theorem slicePatternsDone_good (h : slicing d = some t) :
    slicePatternsDone sig true d = segmentPassed (signaturePassed d t sig) t := by
  rw [slicePatternsDone, h]
  rfl

theorem slicePatternsDone_first (h : slicing d = some t) (hs : flag d (BST_TGTt_STATUS_SUSPECT t) = false) : slicePatternsDone sig false d
    = setFlag (setBst (sliceJudged d t vdRunning sig) (fun b => { b with done := b.done + 1 })) (BST_TGTt_STATUS_SUSPECT t) true := by
  rw [slicePatternsDone, h]
  dsimp only
  rw [hs]
  rfl

theorem slicePatternsDone_second (h : slicing d = some t) (hs : flag d (BST_TGTt_STATUS_SUSPECT t) = true) : slicePatternsDone sig false d
    = retireTarget (setBst (sliceJudged d t vdFail sig) (fun b => { b with done := b.done + 1 })) t := by
  rw [slicePatternsDone, h]
  dsimp only
  rw [hs]
  rfl

theorem rd_sliceJudged (ht : t < 48) (v : Nat) {q : Reg} (h : 0x130080 ≤ q.ofs ∧ q.ofs < 0x131000) : rd (sliceJudged d t v sig) q = rd d q := by
  unfold sliceJudged wrPair
  rw [rd_setFld_other _ _ (by simp only; omega), rd_setVerdict _ (by omega) (by simp only; omega) (by omega), rd_recordSlice _ _ _ (by simp only; omega),
    rd_wrn_other _ _ (by simp only; omega), rd_wrn_other _ _ (by simp only; omega)]

theorem rd_sliceJudged_target (ht : t < 48) (v : Nat) :
    rd (sliceJudged d t v sig) (BST_TGTt_STATUS t) = putBits (rd d (BST_TGTt_STATUS t)) 26 24 v := by
  unfold sliceJudged wrPair
  rw [rd_setFld_other _ _ (by simp only; omega), rd_setVerdict_target _ ht, rd_recordSlice _ _ _ (by simp only; omega),
    rd_wrn_other _ _ (by simp only; omega), rd_wrn_other _ _ (by simp only; omega)]

/-- The target's fields beside VERDICT are as they were. -/
theorem fld_sliceJudged (ht : t < 48) (v : Nat) {f : Fld} (h : apart f (BST_TGTt_STATUS_VERDICT t)) :
    fld (sliceJudged d t v sig) f = fld d f := by
  obtain ⟨hreg, hbits, hf, _⟩ := h
  simp only at hreg hbits
  rw [fld, fld, hreg, rd_sliceJudged_target sig ht, getBits_putBits_other _ _ (by omega) hf (by decide)]

theorem fld_sliceJudged_verdict (ht : t < 48) {v : Nat} (hv : v < 8) : fld (sliceJudged d t v sig) (BST_TGTt_STATUS_VERDICT t) = v := by
  rw [fld, rd_sliceJudged_target sig ht, getBits_putBits_same _ _ (by decide) (by decide)]
  exact Nat.mod_eq_of_lt hv

end Judged

/-- A segment that has passed moves the target on in its round, and changes nothing else of it. -/
theorem segmentPassed_spec (d : Dev) {t : Nat} :
    (∀ f : Fld, apart f (BST_TGTt_STATUS_NEXT_SEG t) → apart f (BST_TGTt_STATUS_PENDING t) → apart f (BST_TGTt_STATUS_OVERDUE t) →
      fld (segmentPassed d t) f = fld d f)
    ∧ (rd (segmentPassed d t) BST_FAIL = rd d BST_FAIL) := by
  constructor
  · intro f hn hp ho
    have hcount : fld (count d BST_PASS) f = fld d f := fld_congr f (rd_count_other _ (by rw [hn.1]; simp only; omega))
    unfold segmentPassed endRound
    dsimp only
    split
    · rw [fld_setFlag_apart _ _ ho, fld_setFlag_apart _ _ hp, fld_setFld_apart _ _ hn]
      exact hcount
    · rw [fld_setFld_apart _ _ hn]
      exact hcount
  · unfold segmentPassed endRound
    dsimp only
    split
    · rw [rd_setFlag_other _ _ (by simp only; omega), rd_setFlag_other _ _ (by simp only; omega), rd_setFld_other _ _ (by simp only; omega),
        rd_setBst, rd_setBst, rd_count_other _ (by decide)]
    · rw [rd_setFld_other _ _ (by simp only; omega), rd_setBst, rd_count_other _ (by decide)]

theorem signaturePassed_spec (d : Dev) {t : Nat} (sig : BitVec 64) (ht : t < 48) :
    fld (signaturePassed d t sig) (BST_TGTt_STATUS_VERDICT t) = vdPass ∧ flag (signaturePassed d t sig) (BST_TGTt_STATUS_SUSPECT t) = false
      ∧ rd (signaturePassed d t sig) BST_FAIL = rd d BST_FAIL := by
  have hverdict := fld_sliceJudged_verdict (d := d) sig ht (v := vdPass) (by decide)
  have hfail := rd_sliceJudged (d := d) (q := BST_FAIL) sig ht vdPass (by decide)
  unfold signaturePassed
  split
  · have hrd {q : Reg} (hq : q.ofs ≠ BST_TRANSIENT.ofs) (hlo : q.ofs < 0xf00000) (he : q.ofs ≠ BST_EVT.ofs) :
        rd (raiseBst (count (setFlag (sliceJudged d t vdPass sig) (BST_TGTt_STATUS_SUSPECT t) false) BST_TRANSIENT) bsTransient) q
          = rd (setFlag (sliceJudged d t vdPass sig) (BST_TGTt_STATUS_SUSPECT t) false) q :=
      (rd_raiseBst _ _ hlo he).trans (rd_count_other _ hq)
    have htarget := hrd (q := BST_TGTt_STATUS t) (by simp only; omega) (by simp only; omega) (by simp only; omega)
    rw [fld_congr (BST_TGTt_STATUS_VERDICT t) htarget, flag_congr (BST_TGTt_STATUS_SUSPECT t) htarget]
    refine ⟨(fld_setFlag_apart _ _ (by simp [apart])).trans hverdict, flag_setFlag_same _ _ (by simp) (by simp), ?_⟩
    rw [hrd (by decide) (by decide) (by decide), rd_setFlag_other _ _ (by simp only; omega), hfail]
  · next hs =>
    have hsuspect := fld_sliceJudged (d := d) sig ht vdPass (f := BST_TGTt_STATUS_SUSPECT t) (by simp [apart])
    exact ⟨hverdict, (congrArg (· == 1) hsuspect).trans (Bool.eq_false_iff.mpr hs), hfail⟩

/-- A good signature passes its target, and the suspicion is lifted. -/
theorem slicePatternsDone_good_spec {d : Dev} {t : Nat} (sig : BitVec 64) (ht : t < 48) (h : slicing d = some t) :
    fld (slicePatternsDone sig true d) (BST_TGTt_STATUS_VERDICT t) = vdPass
      ∧ flag (slicePatternsDone sig true d) (BST_TGTt_STATUS_SUSPECT t) = false
      ∧ rdn (slicePatternsDone sig true d) BST_FAIL = rdn d BST_FAIL := by
  obtain ⟨hverdict, hsuspect, hfail⟩ := signaturePassed_spec d sig ht
  obtain ⟨hfields, hsegment⟩ := segmentPassed_spec (signaturePassed d t sig) (t := t)
  rw [slicePatternsDone_good sig h]
  refine ⟨(hfields _ (by simp [apart]) (by simp [apart]) (by simp [apart])).trans hverdict, ?_, congrArg BitVec.toNat (hsegment.trans hfail)⟩
  exact (congrArg (· == 1) (hfields _ (by simp [apart]) (by simp [apart]) (by simp [apart]))).trans hsuspect

/-- A first mismatch marks a suspect and retires nothing. -/
theorem slicePatternsDone_first_spec {d : Dev} {t : Nat} (sig : BitVec 64) (ht : t < 48) (h : slicing d = some t)
    (hs : flag d (BST_TGTt_STATUS_SUSPECT t) = false) : flag (slicePatternsDone sig false d) (BST_TGTt_STATUS_SUSPECT t) = true
      ∧ rdn (slicePatternsDone sig false d) BST_FAIL = rdn d BST_FAIL ∧ targetRetired (slicePatternsDone sig false d) t = targetRetired d t := by
  rw [slicePatternsDone_first sig h hs]
  refine ⟨flag_setFlag_same _ _ (by simp) (by simp), ?_, ?_⟩
  · rw [rdn, rd_setFlag_other _ _ (by simp only; omega), rd_setBst, rd_sliceJudged sig ht _ (by decide), rdn]
  · rw [targetRetired, fld_setFlag_apart _ _ (by simp [apart])]
    exact congrArg (· == 3) (fld_sliceJudged (d := d) sig ht vdRunning (by simp [apart]))

theorem retireTarget_engine (d : Dev) {t : Nat} (h : t < 18) :
    retireTarget d t = setFld (raiseBst (count (setFld d (BST_TGTt_STATUS_STATE t) 3) BST_FAIL) bsFail) ⟨engineReg t, 31, 30⟩ 2 := by
  unfold retireTarget setSubState
  dsimp only
  rw [if_pos h, if_pos h]

/-- A second mismatch of an engine retires it. -/
theorem slicePatternsDone_second_spec {d : Dev} {t : Nat} (sig : BitVec 64) (ht : t < 18) (h : slicing d = some t)
    (hs : flag d (BST_TGTt_STATUS_SUSPECT t) = true) : targetRetired (slicePatternsDone sig false d) t = true
      ∧ engineState (slicePatternsDone sig false d) t = 2
      ∧ rdn (slicePatternsDone sig false d) BST_FAIL = min (rdn d BST_FAIL + 1) 0xFFFFFFFF := by
  have heng := engineReg_bounds ht
  rw [slicePatternsDone_second sig h hs, retireTarget_engine _ ht]
  refine ⟨?_, fld_setFld_same _ _ (by simp) (by simp), ?_⟩
  · rw [targetRetired, fld_setFld_reg _ _ (by simp only; omega),
      fld_congr (BST_TGTt_STATUS_STATE t) (rd_raiseBst _ _ (by simp only; omega) (by simp only; omega)),
      fld_congr (BST_TGTt_STATUS_STATE t) (rd_count_other _ (by simp only; omega)), fld_setFld_same _ _ (by simp) (by simp)]
    rfl
  · rw [rdn, rd_setFld_other _ _ (by simp only; omega), rd_raiseBst _ _ (by decide) (by decide)]
    refine (rdn_count_same _ _).trans ?_
    rw [rdn, rd_setFld_other _ _ (by simp only; omega), rd_setBst, rd_sliceJudged sig (Nat.lt_trans ht (by decide)) _ (by decide), rdn]

/-! ### A slice cut short (R383) -/

/-- The device as a slice has been cut short and recorded. -/
def sliceCut (d : Dev) (t cause : Nat) : Dev :=
  let k := d.freeCount
  let d := wrn (wrn { d with freeCount := k + 2 } BST_LAST_SIG_LO (Config.freeValue k)) BST_LAST_SIG_HI (Config.freeValue (k + 1))
  setVerdict (recordSlice (count d BST_ABORTED) vdAborted cause) t vdAborted

section Cut

variable {d : Dev} {t : Nat}

theorem abortSlice_service (h : slicing d = some t) : abortSlice d cutService
    = setFld (count (setBst (sliceCut d t cutService) (fun b => { b with cut := b.cut + 1 })) BST_SERVICE_ABORT) BST_STATUS_PHASE 3 := by
  rw [abortSlice, h]
  rfl

theorem abortSlice_budget (h : slicing d = some t) : abortSlice d cutBudget
    = setFld (raiseBst (count (setBst (sliceCut d t cutBudget) (fun b => { b with cut := b.cut + 1 })) BST_BUDGET) bsBudget) BST_STATUS_PHASE 3 := by
  rw [abortSlice, h]
  rfl

theorem rd_sliceCut (ht : t < 48) (cause : Nat) {q : Reg} (h : 0x130080 ≤ q.ofs ∧ q.ofs < 0x131000) (hq : q.ofs ≠ BST_ABORTED.ofs) :
    rd (sliceCut d t cause) q = rd d q := by
  unfold sliceCut
  dsimp only
  rw [rd_setVerdict _ (by omega) (by simp only; omega) (by omega), rd_recordSlice _ _ _ (by simp only; omega), rd_count_other _ hq,
    rd_wrn_other _ _ (by simp only; omega), rd_wrn_other _ _ (by simp only; omega)]
  rfl

/-- What a slice cut short leaves: its verdict and its cause. -/
theorem sliceCut_record (ht : t < 48) {cause : Nat} (hc : cause < 8) : fld (sliceCut d t cause) (BST_TGTt_STATUS_VERDICT t) = vdAborted
    ∧ fld (sliceCut d t cause) BST_LAST_CAUSE = cause := by
  unfold sliceCut
  dsimp only
  constructor
  · rw [fld, rd_setVerdict_target _ ht]
    exact getBits_putBits_same _ _ (by decide) (by decide)
  · rw [fld_congr BST_LAST_CAUSE (rd_setVerdict _ (by decide) (by simp only; omega) (by decide)), fld_recordSlice_cause _ _ hc]

/-- A service request ends the slice of its target. -/
theorem serviceRequest_spec (t : Fin 48) (h : slicing d = some t.val) : fld (serviceRequest t d) (BST_TGTt_STATUS_VERDICT t) = vdAborted
    ∧ slicing (serviceRequest t d) = none ∧ fld (serviceRequest t d) BST_LAST_CAUSE = cutService
    ∧ rdn (serviceRequest t d) BST_SERVICE_ABORT = min (rdn d BST_SERVICE_ABORT + 1) 0xFFFFFFFF
    ∧ rdn (serviceRequest t d) BST_PASS = rdn d BST_PASS := by
  have ht := t.isLt
  obtain ⟨hverdict, hcause⟩ := sliceCut_record (d := d) ht (cause := cutService) (by decide)
  rw [serviceRequest, sliceService, if_pos h, abortSlice_service h]
  refine ⟨?_, slicing_none_of_phase (fld_setFld_same _ _ (by decide) (by decide)), ?_, ?_, ?_⟩
  · rw [fld_setFld_reg _ _ (by simp only; omega), fld_count_other _ (by simp only; omega)]
    exact hverdict
  · rw [fld_setFld_reg _ _ (by decide), fld_count_other _ (by decide)]
    exact hcause
  · rw [rdn, rd_setFld_other _ _ (by decide)]
    refine (rdn_count_same _ _).trans ?_
    rw [rdn, rd_setBst, rd_sliceCut ht _ (by decide) (by decide), rdn]
  · rw [rdn, rd_setFld_other _ _ (by decide), rd_count_other _ (by decide), rd_setBst, rd_sliceCut ht _ (by decide) (by decide), rdn]

/-- The budget that has run out ends the slice. -/
theorem sliceBudget_spec (ht : t < 48) (h : slicing d = some t) (hb : d.bst.beganAt + 12000 ≤ d.elapsed) : slicing (sliceBudget d) = none
    ∧ fld (sliceBudget d) BST_LAST_CAUSE = cutBudget ∧ rdn (sliceBudget d) BST_BUDGET = min (rdn d BST_BUDGET + 1) 0xFFFFFFFF := by
  obtain ⟨_, hcause⟩ := sliceCut_record (d := d) ht (cause := cutBudget) (by decide)
  rw [sliceBudget, if_pos hb, abortSlice_budget h]
  refine ⟨slicing_none_of_phase (fld_setFld_same _ _ (by decide) (by decide)), ?_, ?_⟩
  · rw [fld_setFld_reg _ _ (by decide), fld_congr BST_LAST_CAUSE (rd_raiseBst _ _ (by decide) (by decide)), fld_count_other _ (by decide)]
    exact hcause
  · rw [rdn, rd_setFld_other _ _ (by decide), rd_raiseBst _ _ (by decide) (by decide)]
    refine (rdn_count_same _ _).trans ?_
    rw [rdn, rd_setBst, rd_sliceCut ht _ (by decide) (by decide), rdn]

end Cut

/-! ### The restore of a target (R381) -/

/-- The device as the slice is over. -/
def sliceOver (d : Dev) : Dev :=
  setFlag (setFld (setBst d (fun b => { b with endedAt := some d.elapsed })) BST_STATUS_PHASE 0) BST_STATUS_RUNNING false

/-- The device keeps BST's status and the schedule. -/
def keepsSlice (d e : Dev) : Prop := rd e BST_STATUS = rd d BST_STATUS ∧ e.bst = d.bst

theorem keepsSlice_setSubState (d : Dev) (t s : Nat) : keepsSlice d (setSubState d t s) := by
  refine ⟨rd_setSubState d t s (by decide), ?_⟩
  unfold setSubState
  split
  · rfl
  split <;> rfl

theorem keepsSlice_resumeProbes (d : Dev) (q : Nat) : keepsSlice d (resumeProbes d q) := by
  unfold resumeProbes
  exact forEach_keeps (P := keepsSlice d) (fun e l (he : keepsSlice d e) => show keepsSlice d (setLane e (4 * q + l) _) from he) _ ⟨rfl, rfl⟩

theorem sliceRestoreDone_keeps {d : Dev} (hr : flag d BST_STATUS_RUNNING = true) (hp : fld d BST_STATUS_PHASE = 3) :
    keepsSlice (sliceOver d) (sliceRestoreDone d) := by
  have hsame : keepsSlice (sliceOver d) (sliceOver d) := ⟨rfl, rfl⟩
  unfold sliceRestoreDone
  rw [hr, hp, if_pos (by decide)]
  dsimp only
  split
  · split
    · exact keepsSlice_setSubState (sliceOver d) _ _
    · exact hsame
  split
  · split
    · exact keepsSlice_setSubState (sliceOver d) _ _
    · exact hsame
  split
  · exact keepsSlice_resumeProbes (sliceOver d) _
  · exact hsame

theorem sliceRestoreDone_spec {d : Dev} (hr : flag d BST_STATUS_RUNNING = true) (hp : fld d BST_STATUS_PHASE = 3) :
    flag (sliceRestoreDone d) BST_STATUS_RUNNING = false ∧ (sliceRestoreDone d).bst.endedAt = some d.elapsed := by
  obtain ⟨hstatus, hbst⟩ := sliceRestoreDone_keeps hr hp
  refine ⟨(flag_congr BST_STATUS_RUNNING hstatus).trans (flag_setFlag_same _ _ (by decide) (by decide)), ?_⟩
  rw [hbst]
  rfl

/-! ### Overdue targets (R384) -/

/-- What OVERDUE does of one target. -/
def overdueMarked (d : Dev) (t : Nat) : Dev :=
  if 24 * ticksPerHour ≤ roundAge d t ∧ !flag d (BST_TGTt_STATUS_OVERDUE t) then raiseBst (setFlag d (BST_TGTt_STATUS_OVERDUE t) true) bsOverdue
  else d

theorem overdue_eq (d : Dev) : overdue d = forEach (List.range 48) overdueMarked d := rfl

theorem overdueMarked_bst (d : Dev) (t : Nat) : (overdueMarked d t).bst = d.bst := by
  unfold overdueMarked
  split
  · obtain ⟨r, p, o, e⟩ := raiseEvt_spec (setFlag d (BST_TGTt_STATUS_OVERDUE t) true) evBST bsOverdue
    rw [raiseBst, e]
    rfl
  · rfl

theorem rd_overdueMarked_other (d : Dev) {t u : Nat} (hu : u < 48) (h : t ≠ u) :
    rd (overdueMarked d t) (BST_TGTt_STATUS u) = rd d (BST_TGTt_STATUS u) := by
  unfold overdueMarked
  split
  · rw [rd_raiseBst _ _ (by simp only; omega) (by simp only; omega), rd_setFlag_other _ _ (by simp only; omega)]
  · rfl

theorem flag_overdueMarked {d : Dev} {t : Nat} (ht : t < 48) : flag (overdueMarked d t) (BST_TGTt_STATUS_OVERDUE t)
    = (flag d (BST_TGTt_STATUS_OVERDUE t) || decide (24 * ticksPerHour ≤ roundAge d t)) := by
  unfold overdueMarked
  by_cases hage : 24 * ticksPerHour ≤ roundAge d t
  · rw [decide_eq_true hage, Bool.or_true]
    cases hf : flag d (BST_TGTt_STATUS_OVERDUE t) with
    | true =>
      rw [if_neg (by simp), hf]
    | false =>
      rw [if_pos ⟨hage, rfl⟩, flag_congr (BST_TGTt_STATUS_OVERDUE t) (rd_raiseBst _ _ (by simp only; omega) (by simp only; omega))]
      exact flag_setFlag_same _ _ (by simp) (by simp)
  · rw [decide_eq_false hage, Bool.or_false, if_neg (fun h => hage h.1)]

/-- A target is marked once it has no round for 24 hours, and stays marked. -/
theorem flag_overdue (d : Dev) {t : Nat} (ht : t < 48) : flag (overdue d) (BST_TGTt_STATUS_OVERDUE t)
    = (flag d (BST_TGTt_STATUS_OVERDUE t) || decide (24 * ticksPerHour ≤ roundAge d t)) := by
  have hage {e : Dev} (he : e.bst = d.bst) : roundAge e t = roundAge d t := by rw [roundAge, he, roundAge]
  rw [overdue_eq]
  exact forEach_once (P := fun e => rd e (BST_TGTt_STATUS t) = rd d (BST_TGTt_STATUS t) ∧ e.bst = d.bst)
    (Q := fun e => flag e (BST_TGTt_STATUS_OVERDUE t) = (flag d (BST_TGTt_STATUS_OVERDUE t) || decide (24 * ticksPerHour ≤ roundAge d t)))
    (fun e u hu he => ⟨(rd_overdueMarked_other e ht hu).trans he.1, (overdueMarked_bst e u).trans he.2⟩)
    (fun e he => by rw [flag_overdueMarked ht, flag_congr (BST_TGTt_STATUS_OVERDUE t) he.1, hage he.2])
    (fun e u hu he => (flag_congr (BST_TGTt_STATUS_OVERDUE t) (rd_overdueMarked_other e ht hu)).trans he)
    List.nodup_range (List.mem_range.mpr ht) ⟨rfl, rfl⟩

/-! ### The summary (R387) -/

theorem bstSummary_done {d : Dev} (h : secMark d secSummary = none) : bstSummary d = d := if_pos h

/-- The summary as the boundary of the second finds it. -/
def summaryBytes (d : Dev) : List Byte :=
  targetBits (fun t => targetState d t == 1) ++ targetBits (fun t => flag d (BST_TGTt_STATUS_OVERDUE t))
    ++ targetBits (targetRetired d) ++ targetBits (fun t => flag d (BST_TGTt_STATUS_SUSPECT t))
    ++ leBytes 4 d.bst.done ++ leBytes 4 d.bst.cut
    ++ leBytes 4 ((List.range 21).foldl (fun n m => n + boolBit (fld d (BST_MEMm_STATUS_STATE m) == 1) * 2 ^ m) 0)

theorem bstSummary_made {d : Dev} (h : secMark d secSummary ≠ none) (hon : domainOn d 55 = true) : bstSummary d
    = setBst (clearMark d secSummary) (fun b => { b with done := 0, cut := 0, summary := summaryBytes (clearMark d secSummary) }) := by
  have hpower : domainOn (clearMark d secSummary) 55 = true := hon
  unfold bstSummary
  rw [if_neg h]
  dsimp only
  rw [hpower, if_neg (by decide)]
  rfl

theorem length_summaryBytes (d : Dev) : (summaryBytes d).length = 36 := by
  unfold summaryBytes targetBits
  simp only [List.length_append, length_leBytes]

end Sys2Proof.Machine
end

section
/-!
PROOFS. Event counters, bandwidth windows and telemetry records (spec/23), and the commands of self-test slices.
-/

namespace Sys2Proof.Machine

/-! ### The commands -/

theorem exec_sliceStart (s : State) : exec .sliceStart s = .next (s.withDev (sliceStart s.dev)) := rfl

theorem exec_slicePatternsDone (sig : BitVec 64) (good : Bool) (s : State) :
    exec (.slicePatternsDone sig good) s = .next (s.withDev (slicePatternsDone sig good s.dev)) := rfl

theorem exec_serviceRequest (t : Fin 48) (s : State) : exec (.serviceRequest t) s = .next (s.withDev (serviceRequest t s.dev)) := rfl

theorem exec_sliceBudget (s : State) : exec .sliceBudget s = .next (s.withDev (sliceBudget s.dev)) := rfl

theorem exec_sliceRestoreDone (s : State) : exec .sliceRestoreDone s = .next (s.withDev (sliceRestoreDone s.dev)) := rfl

theorem exec_overdue (s : State) : exec .overdue s = .next (s.withDev (overdue s.dev)) := rfl

theorem exec_bstSummary (s : State) : exec .bstSummary s = .next (s.withDev (bstSummary s.dev)) := rfl

theorem exec_cntSelWrite (m : Master) (c : Fin 4096) (value : Word) (s : State) :
    exec (.cntSelWrite m c value) s = .next (s.withDev (cntSelWrite m c value s.dev)) := rfl

theorem exec_cntClear (m : Master) (c : Fin 4096) (s : State) : exec (.cntClear m c) s = .next (s.withDev (cntClearOne m c s.dev)) := rfl

theorem exec_cntClearAll (m : Master) (s : State) : exec (.cntClearAll m) s = .next (s.withDev (cntClearAll m s.dev)) := rfl

theorem exec_cntRead (m : Master) (rel : Fin 0x100000) (s : State) : exec (.cntRead m rel) s = .next (s.withDev (cntRead m rel s.dev)) := rfl

theorem exec_bwWindowEnd (s : State) : exec .bwWindowEnd s = .next (s.withDev (bwWindowEnd s.dev)) := rfl

theorem exec_telemetryRecord (mw : BitVec 32) (temp : BitVec 16) (failed : Bool) (s : State) :
    exec (.telemetryRecord mw temp failed) s = .next (s.withDev (telemetryRecord mw temp failed s.dev)) := rfl

/-! ### Event counters (R414) -/

theorem rd_raiseCnt (d : Dev) (b : Nat) {q : Reg} (h : 0x1400000 ≤ q.ofs) (hq : q.ofs ≠ CNT_EVT.ofs) : rd (raiseCnt d b) q = rd d q :=
  rd_raiseEvt_other d evCNT b hq (by simp only; omega) (by simp only; omega)

theorem rdPair_wrPair_other (d : Dev) {lo hi p q : Reg} (n : Nat) (h1 : p.ofs ≠ lo.ofs) (h2 : p.ofs ≠ hi.ofs) (h3 : q.ofs ≠ lo.ofs) (h4 : q.ofs ≠ hi.ofs) :
    rdPair (wrPair d lo hi n) p q = rdPair d p q :=
  rdPair_congr (by rw [wrPair, rd_wrn_other _ _ h2, rd_wrn_other _ _ h1]) (by rw [wrPair, rd_wrn_other _ _ h4, rd_wrn_other _ _ h3])

/-- An event counter stops at its largest value. -/
theorem rdPair_cntAdd (d : Dev) {c : Nat} (n : Nat) (hc : c < 4096) : rdPair (cntAdd d c n) (CNT_VALc_LO c) (CNT_VALc_HI c)
    = min (rdPair d (CNT_VALc_LO c) (CNT_VALc_HI c) + n) 0xFFFFFFFFFFFFFFFF := by
  have hset := rdPair_wrPair_same d (lo := CNT_VALc_LO c) (hi := CNT_VALc_HI c)
    (n := min (rdPair d (CNT_VALc_LO c) (CNT_VALc_HI c) + n) 0xFFFFFFFFFFFFFFFF) (by simp only; omega) (by omega)
  unfold cntAdd
  dsimp only
  split
  · refine (rdPair_congr ?_ ?_).trans hset <;>
      rw [rd_raiseCnt _ _ (by simp only; omega) (by simp only; omega), rd_count_other _ (by simp only; omega), rd_setFlag_other _ _ (by simp only; omega)]
  · exact hset

/-- A cleared counter is 0 and not saturated, and every other one is as it was. -/
theorem cntClear_spec (d : Dev) {c : Nat} (hc : c < 4096) : rdPair (cntClear d c) (CNT_VALc_LO c) (CNT_VALc_HI c) = 0
    ∧ flag (cntClear d c) (CNT_SELc_SAT c) = false ∧ fld (cntClear d c) (CNT_SELc_MODE c) = fld d (CNT_SELc_MODE c)
    ∧ ∀ k, k < 4096 → k ≠ c → rdPair (cntClear d c) (CNT_VALc_LO k) (CNT_VALc_HI k) = rdPair d (CNT_VALc_LO k) (CNT_VALc_HI k) := by
  have hsat (k : Nat) (hk : k < 4096) : rdPair (cntClear d c) (CNT_VALc_LO k) (CNT_VALc_HI k)
      = rdPair (wrPair d (CNT_VALc_LO c) (CNT_VALc_HI c) 0) (CNT_VALc_LO k) (CNT_VALc_HI k) :=
    rdPair_congr (rd_setFlag_other _ _ (by simp only; omega)) (rd_setFlag_other _ _ (by simp only; omega))
  refine ⟨?_, flag_setFlag_same _ _ (by simp) (by simp), ?_, fun k hk hne => ?_⟩
  · rw [hsat c hc, rdPair_wrPair_same _ (by simp only; omega) (by decide)]
  · rw [cntClear, fld_setFlag_apart _ _ (by simp [apart]), wrPair, fld_wrn_other _ _ (by simp only; omega), fld_wrn_other _ _ (by simp only; omega)]
  · rw [hsat k hk, rdPair_wrPair_other _ _ (by simp only; omega) (by simp only; omega) (by simp only; omega) (by simp only; omega)]

/-- No other unit's window reaches into that of the counters. -/
theorem windows_apart_cnt : ∀ u ∈ List.range 67, (unitAt u).base + 4096 * 2 ^ (unitAt u).winLog ≤ 0x1400000 ∨ 0x1500000 ≤ (unitAt u).base := by decide

theorem unitOf_cnt {ofs : Nat} (h : 0x1400000 ≤ ofs) (h' : ofs < 0x1500000) : unitOf ofs = some 67 := by
  have hn : (List.range 67).find? (fun u => decide ((unitAt u).base ≤ ofs) && decide (ofs < (unitAt u).base + 4096 * 2 ^ (unitAt u).winLog)) = none := by
    rw [List.find?_eq_none]
    intro u hu
    have := windows_apart_cnt u hu
    simp only [Bool.and_eq_true, decide_eq_true_eq]
    omega
  have hs : List.range 68 = List.range 67 ++ [67] := rfl
  have hb : (unitAt 67).base = 0x1400000 := rfl
  have hw : 4096 * 2 ^ (unitAt 67).winLog = 0x100000 := rfl
  rw [unitOf, hs, List.find?_append, hn, Option.none_or]
  refine List.find?_cons_of_pos ?_
  rw [hb, hw, Bool.and_eq_true, decide_eq_true_eq, decide_eq_true_eq]
  omega

/-- The row of CNT_SELc in the table of the counters (R420). -/
def cntSelRow : RegRow :=
  ⟨"CNT_SELc", 0x10000, [(4096, 0x8)], 0x0, false, [⟨"MODE", 31, 30, .rw, .all⟩, ⟨"OWNER", 29, 25, .rw, .all⟩, ⟨"OCC_SRC", 24, 23, .rw, .all⟩,
    ⟨"SAT", 22, 22, .ro, .all⟩, ⟨"ARG", 13, 0, .rw, .all⟩]⟩

theorem rowAt_cntSel (c : Fin 4096) : rowAt (unitAt 67) (0x10000 + 0x8 * c) = some cntSelRow := by
  have hc := c.isLt
  have h0 : (regRowsCNT0 ++ regRowsCNT1.take 2).find? (rowMatches (0x10000 + 0x8 * c)) = none := by
    rw [List.find?_eq_none]
    simp only [regRowsCNT0, regRowsCNT1, List.take_succ_cons, List.take_zero, List.cons_append, List.nil_append, List.forall_mem_cons, rowMatches,
      repeats, Bool.and_eq_true, decide_eq_true_eq, beq_iff_eq]
    simp only [List.not_mem_nil, false_imp_iff, implies_true, and_true]
    omega
  have hm : rowMatches (0x10000 + 0x8 * c) cntSelRow = true := by
    simp [rowMatches, cntSelRow, repeats]
  have hrows : rowsOfKind (unitAt 67).kind = (regRowsCNT0 ++ regRowsCNT1.take 2) ++ cntSelRow :: regRowsCNT1.drop 3 := rfl
  rw [rowAt, hrows, List.find?_append, h0, Option.none_or, List.find?_cons_of_pos hm]
  rfl

/-- A write of a selector stores MODE as written. -/
theorem storeAt_cntSel (d : Dev) (m : Master) (c : Fin 4096) (value : Word) : ∃ w, storeAt d m (CNT_SELc c).ofs value = wr d (CNT_SELc c) w
    ∧ getBits w 31 30 = getBits value 31 30 := by
  have hb : (unitAt 67).base = 0x1400000 := rfl
  have hrel : (CNT_SELc c).ofs - (unitAt 67).base = 0x10000 + 0x8 * c := by
    rw [hb]
    simp only
    omega
  have hreg : regAt (unitAt 67) cntSelRow (0x10000 + 0x8 * c) = CNT_SELc c := by
    have hne : ¬ (0x10000 + 0x8 * c.val = 0x1000) := by omega
    have hk : ¬ ((unitAt 67).kind = 0x71 ∧ 0x10000 + 0x8 * c.val = 0x1004) := by omega
    rw [regAt, resetAt, if_neg (fun h => hne h.2), if_neg hk, hb]
    simp only [cntSelRow, Reg.mk.injEq]
    exact ⟨by omega, rfl⟩
  have hplain : storePlain (rd d (CNT_SELc c)) value cntSelRow.fields = putBits (putBits (putBits (putBits (rd d (CNT_SELc c)) 31 30 (getBits value 31 30))
      29 25 (getBits value 29 25)) 24 23 (getBits value 24 23)) 13 0 (getBits value 13 0) := rfl
  rw [storeAt_row value (unitOf_cnt (by simp only; omega) (by simp only; omega)) (hrel ▸ rowAt_cntSel c), storeWord, hrel, hreg, hplain]
  have hfix : cntSelRow.fields.filter (fun f => f.acc == .rwc && f.rng != .dep) = [] := rfl
  have hdep : cntSelRow.fields.filter (fun f => f.acc == .rwc && f.rng == .dep) = [] := rfl
  rw [hfix, hdep]
  refine ⟨_, rfl, ?_⟩
  rw [getBits_putBits_other _ _ (.inr (by decide)) (by decide) (by decide), getBits_putBits_other _ _ (.inr (by decide)) (by decide) (by decide),
    getBits_putBits_other _ _ (.inr (by decide)) (by decide) (by decide), getBits_putBits_same _ _ (by decide) (by decide)]
  exact Nat.mod_eq_of_lt (getBits_lt value 31 30)

/-- A write of a selector zeroes its counter. -/
theorem cntSelWrite_spec (m : Master) (c : Fin 4096) (value : Word) (d : Dev) (ha : admits d m (CNT_SELc c).ofs = true) :
    rdPair (cntSelWrite m c value d) (CNT_VALc_LO c) (CNT_VALc_HI c) = 0 ∧ flag (cntSelWrite m c value d) (CNT_SELc_SAT c) = false
      ∧ fld (cntSelWrite m c value d) (CNT_SELc_MODE c) = getBits value 31 30 := by
  obtain ⟨w, hw, hmode⟩ := storeAt_cntSel d m c value
  obtain ⟨hzero, hsat, hkept, _⟩ := cntClear_spec (storeAt d m (CNT_SELc c).ofs value) c.isLt
  rw [cntSelWrite, guarded_admits _ ha]
  refine ⟨hzero, hsat, hkept.trans ?_⟩
  rw [hw, fld, rd_wr_same, hmode]

theorem cntCtlWrite_clear {m : Master} {d : Dev} {value : Word} (ha : admits d m CNT_CTL.ofs = true) (h31 : bitOf value.toNat 31 = true) :
    cntCtlWrite m value d = if bitOf value.toNat 30 then forEach (List.range 4096) cntClear d else cntClear d (getBits value 11 0) := by
  rw [cntCtlWrite, guarded_admits _ ha, h31, if_neg (by decide)]

/-- CLEAR of one counter. -/
theorem cntClearOne_eq (m : Master) (c : Fin 4096) {d : Dev} (ha : admits d m CNT_CTL.ofs = true) : cntClearOne m c d = cntClear d c := by
  have hc := c.isLt
  have hn : (BitVec.ofNat 32 (0x80000000 + c.val)).toNat = 0x80000000 + c.val := by
    rw [BitVec.toNat_ofNat]
    omega
  have h31 : bitOf (BitVec.ofNat 32 (0x80000000 + c.val)).toNat 31 = true := by
    rw [hn, bitOf, beq_iff_eq]
    omega
  have h30 : bitOf (BitVec.ofNat 32 (0x80000000 + c.val)).toNat 30 = false := by
    rw [hn, bitOf, beq_eq_false_iff_ne]
    omega
  have hindex : getBits (BitVec.ofNat 32 (0x80000000 + c.val)) 11 0 = c := by
    rw [getBits, BitVec.extractLsb'_toNat, hn, Nat.shiftRight_zero]
    omega
  rw [cntClearOne, cntCtlWrite_clear ha h31, h30, hindex]
  rfl

/-- What one element brings about, and every element of the list keeps, holds in the end. -/
theorem forEach_reaches_mem {α : Type} {P : Dev → Prop} {f : Dev → α → Dev} {a : α} {l : List α} (hf : ∀ e, ∀ b ∈ l, P e → P (f e b))
    (ha : ∀ e, P (f e a)) (h : a ∈ l) (d : Dev) : P (forEach l f d) := by
  induction l generalizing d with
  | nil => cases h
  | cons b t ih =>
    have ht : ∀ e, ∀ c ∈ t, P e → P (f e c) := fun e c hc => hf e c (List.mem_cons_of_mem b hc)
    rcases List.mem_cons.mp h with rfl | h
    · exact forEach_keeps_mem (l := t) ht (ha d)
    · exact ih ht h (f d b)

/-- CLEAR of all counters. -/
theorem cntClearAll_spec (m : Master) {c : Nat} (hc : c < 4096) {d : Dev} (ha : admits d m CNT_CTL.ofs = true) :
    rdPair (cntClearAll m d) (CNT_VALc_LO c) (CNT_VALc_HI c) = 0 := by
  rw [cntClearAll, cntCtlWrite_clear ha (by decide), if_pos (by decide)]
  refine forEach_reaches_mem (P := fun e => rdPair e (CNT_VALc_LO c) (CNT_VALc_HI c) = 0) (fun e k hk he => ?_) (fun e => (cntClear_spec e hc).1)
    (List.mem_range.mpr hc) d
  by_cases hne : c = k
  · exact hne ▸ (cntClear_spec e hc).1
  · exact ((cntClear_spec e (List.mem_range.mp hk)).2.2.2 c hc hne).trans he

/-! ### Reads of the counters (R415) -/

section Reads

variable {m : Master} {d : Dev} (rel : Fin 0x100000) (hm : m < 0x20) (hr : hostReaches d = true) (ha : rel.val % 4 = 0)

include hr ha

/-- An aligned read of a word is one read. -/
theorem cntRead_word : cntRead m rel d
    = readWord m d (0x1400000 + rel) (laneMask (0x1400000 + rel) (0x1400000 + rel) 4) := by
  have hfirst : 4 * ((0x1400000 + rel.val) / 4 + 0) = 0x1400000 + rel.val := by omega
  have hcount : (0x1400000 + rel.val + 4 + 3) / 4 - (0x1400000 + rel.val) / 4 = 1 := by omega
  rw [cntRead, busRead, hr]
  dsimp only
  rw [Bool.not_true, Bool.and_false, if_neg (by decide), hcount]
  change readWord m d (4 * ((0x1400000 + rel.val) / 4 + 0)) (laneMask (4 * ((0x1400000 + rel.val) / 4 + 0)) (0x1400000 + rel) 4) = _
  rw [hfirst]

include hm

/-- A function without CNT_READ reads 0 and is counted. -/
theorem cntRead_denied (h0 : m ≠ 0) (hc : fld d (HIF_FNf_RIGHTS_CNT_READ m) = 0) :
    cntRead m rel d = emit (count d CNT_READ_DENIED) (.readData m (0x1400000 + rel) 0) := by
  have hlt := rel.isLt
  have hdenied : readDenied d m (0x1400000 + rel) = true := by
    unfold readDenied
    rw [if_neg]
    · exact if_pos hc
    · rintro (h | h | h | h)
      · exact h0 h
      · exact absurd h (Nat.not_le.mpr hm)
      · omega
      · omega
  rw [cntRead_word rel hr ha, readWord, hdenied, if_pos rfl]

end Reads

/-- A read in the counters' window changes no register and sends nothing. -/
theorem readEffect_cnt (d : Dev) {ofs : Nat} (h : 0x1400000 ≤ ofs) (h' : ofs < 0x1500000) :
    (readEffect d ofs).1.regs = d.regs ∧ (readEffect d ofs).1.out = d.out := by
  unfold readEffect
  rw [unitOf_cnt h h']
  dsimp only
  have hk : (unitAt 67).kind ≠ 0x22 := by decide
  rw [if_neg (fun h => hk h.1)]
  split
  · exact ⟨rfl, rfl⟩
  · split <;> exact ⟨rfl, rfl⟩

theorem cntRead_function0 {d : Dev} (rel : Fin 0x100000) (hr : hostReaches d = true) (ha : rel.val % 4 = 0) :
    ∃ w, (cntRead 0 rel d).regs = d.regs ∧ (cntRead 0 rel d).out = d.out ++ [.readData 0 (0x1400000 + rel) w] := by
  have hlt := rel.isLt
  obtain ⟨hregs, hout⟩ := readEffect_cnt d (ofs := 0x1400000 + rel) (by omega) (by omega)
  have hfree : readDenied d 0 (0x1400000 + rel) = false := if_pos (.inl rfl)
  rw [cntRead_word rel hr ha, readWord, hfree, if_neg (by decide)]
  refine ⟨(readEffect d (0x1400000 + rel)).2 &&& laneMask (0x1400000 + rel) (0x1400000 + rel) 4, hregs, ?_⟩
  rw [← hout]
  rfl

/-! ### Bandwidth windows (R416) -/

/-- One port's accumulators go to its registers. -/
def latchPort (d : Dev) (p : Nat) : Dev :=
  wrPair (wrPair d (CNT_BWp_RX_LO p) (CNT_BWp_RX_HI p) (sget 0 d.host.bw (2 * p))) (CNT_BWp_TX_LO p) (CNT_BWp_TX_HI p)
    (sget 0 d.host.bw (2 * p + 1))

/-- The registers that show a window end. -/
def windowEndShown (d : Dev) (e : Nat) (stepped : Bool) : Dev :=
  setFld (setFlag (wrn (wrn d CNT_BW_END_SEC (e / nsPerSec)) CNT_BW_END_NS (e % nsPerSec)) CNT_BW_INFO_STEPPED stepped) CNT_BW_INFO_BW_WIN d.host.bwWin

/-- The accumulators restart. -/
def windowRestarted (d : Dev) : Dev := { d with host := { d.host with bw := [], bwStep := none, bwEnd := windowEnd d.host.bwWin (now d) } }

theorem rd_windowRestarted (d : Dev) (q : Reg) : rd (windowRestarted d) q = rd d q := rfl

/-- All ports are latched. -/
def portsLatched (d : Dev) : Dev := forEach (List.range 66) latchPort d

theorem latchWindow_eq (d : Dev) (e : Nat) (stepped : Bool) :
    latchWindow d e stepped = raiseCnt (windowRestarted (windowEndShown (portsLatched d) e stepped)) ctBw := rfl

theorem portsLatched_touches (d : Dev) : ∃ r, portsLatched d = { d with regs := r } :=
  forEach_keeps (P := fun e => ∃ r, e = { d with regs := r }) (fun e p he => by
    obtain ⟨r, rfl⟩ := he
    exact ⟨_, rfl⟩) _ ⟨d.regs, rfl⟩

theorem rdPair_latchPort_same (d : Dev) (p : Nat) :
    rdPair (latchPort d p) (CNT_BWp_RX_LO p) (CNT_BWp_RX_HI p) = sget 0 d.host.bw (2 * p) % 2 ^ 64 := by
  rw [latchPort, rdPair_wrPair_other _ _ (by simp only; omega) (by simp only; omega) (by simp only; omega) (by simp only; omega)]
  rw [rdPair, wrPair, rdn_wrn_same, rdn_wrn_other _ _ (by simp only; omega), rdn_wrn_same]
  omega

theorem rdPair_latchPort_other (d : Dev) {p k : Nat} (h : k ≠ p) :
    rdPair (latchPort d k) (CNT_BWp_RX_LO p) (CNT_BWp_RX_HI p) = rdPair d (CNT_BWp_RX_LO p) (CNT_BWp_RX_HI p) := by
  rw [latchPort, rdPair_wrPair_other _ _ (by simp only; omega) (by simp only; omega) (by simp only; omega) (by simp only; omega),
    rdPair_wrPair_other _ _ (by simp only; omega) (by simp only; omega) (by simp only; omega) (by simp only; omega)]

/-- Every port's received bytes are latched. -/
theorem rdPair_portsLatched (d : Dev) {p : Nat} (hp : p < 66) :
    rdPair (portsLatched d) (CNT_BWp_RX_LO p) (CNT_BWp_RX_HI p) = sget 0 d.host.bw (2 * p) % 2 ^ 64 :=
  forEach_once (f := latchPort) (P := fun e => e.host = d.host)
    (Q := fun e => rdPair e (CNT_BWp_RX_LO p) (CNT_BWp_RX_HI p) = sget 0 d.host.bw (2 * p) % 2 ^ 64)
    (fun _ _ _ he => he) (fun e he => by rw [rdPair_latchPort_same, he])
    (fun e k hk he => (rdPair_latchPort_other e hk).trans he) List.nodup_range (List.mem_range.mpr hp) rfl

theorem lt_windowEnd {w : Nat} (t : Nat) (h : 0 < w) : t < windowEnd w t := by
  have hpos : 0 < w * 1000000 := by omega
  have := Nat.lt_div_mul_add hpos (a := t)
  rw [windowEnd, Nat.add_mul, Nat.one_mul]
  exact this

/-- A window end latches every port and restarts the accumulators. -/
theorem latchWindow_spec (d : Dev) (e : Nat) : (latchWindow d e false).host.bw = []
    ∧ rdn (latchWindow d e false) CNT_BW_END_SEC = e / nsPerSec % 0x100000000 ∧ flag (latchWindow d e false) CNT_BW_INFO_STEPPED = false
    ∧ (0 < d.host.bwWin → now (latchWindow d e false) < (latchWindow d e false).host.bwEnd)
    ∧ ∀ p, p < 66 → rdPair (latchWindow d e false) (CNT_BWp_RX_LO p) (CNT_BWp_RX_HI p) = sget 0 d.host.bw (2 * p) % 0x10000000000000000 := by
  obtain ⟨r, hports⟩ := portsLatched_touches d
  obtain ⟨r', p', o', hraise⟩ := raiseEvt_spec (windowRestarted (windowEndShown (portsLatched d) e false)) evCNT ctBw
  have hrd {q : Reg} (h : 0x1400000 ≤ q.ofs) (hq : q.ofs ≠ CNT_EVT.ofs) :
      rd (latchWindow d e false) q = rd (windowEndShown (portsLatched d) e false) q := by
    rw [latchWindow_eq, rd_raiseCnt _ _ h hq, rd_windowRestarted]
  have hhost : (latchWindow d e false).host = (windowRestarted (windowEndShown (portsLatched d) e false)).host := by
    rw [latchWindow_eq, raiseCnt, hraise]
  have hclock : now (latchWindow d e false) = now d := by
    rw [latchWindow_eq, raiseCnt, hraise, hports]
    rfl
  refine ⟨by rw [hhost]; rfl, ?_, ?_, fun hw => ?_, fun p hp => ?_⟩
  · rw [rdn, hrd (by decide) (by decide), windowEndShown, rd_setFld_other _ _ (by decide), rd_setFlag_other _ _ (by decide), rd_wrn_other _ _ (by decide)]
    exact rdn_wrn_same _ _ _
  · rw [flag_congr CNT_BW_INFO_STEPPED (hrd (by decide) (by decide)), windowEndShown, flag_setFld_apart _ _ (by simp [apart])]
    exact flag_setFlag_same _ _ (by decide) (by decide)
  · have hend : (latchWindow d e false).host.bwEnd = windowEnd d.host.bwWin (now d) := by
      rw [hhost, hports]
      rfl
    rw [hclock, hend]
    exact lt_windowEnd _ hw
  · refine (rdPair_congr ?_ ?_).trans (rdPair_portsLatched d hp) <;>
      rw [hrd (by simp only; omega) (by simp only; omega), windowEndShown, rd_setFld_other _ _ (by simp only; omega), rd_setFlag_other _ _ (by simp only; omega),
        rd_wrn_other _ _ (by simp only; omega), rd_wrn_other _ _ (by simp only; omega)]

section Window

variable {d : Dev} (hon : domainOn d 53 = true) (hs : d.host.bwStep = none)

include hon hs

theorem bwWindowEnd_reached (h : d.host.bwEnd ≤ now d) : bwWindowEnd d = latchWindow d d.host.bwEnd false := by
  rw [bwWindowEnd, hon, if_neg (by decide), hs]
  exact if_pos h

theorem bwWindowEnd_ahead (h : now d < d.host.bwEnd) : bwWindowEnd d = d := by
  rw [bwWindowEnd, hon, if_neg (by decide), hs]
  exact if_neg (Nat.not_le.mpr h)

end Window

/-! ### Telemetry records (R418, R419) -/

theorem telemetryRecord_done {d : Dev} (h : secMark d secTelemetry = none) (mw : BitVec 32) (temp : BitVec 16) (failed : Bool) :
    telemetryRecord mw temp failed d = d := by rw [telemetryRecord, h]

theorem telemetryRecord_made {d : Dev} {sec : Nat} {stepped : Bool} (h : secMark d secTelemetry = some (sec, stepped)) (mw : BitVec 32)
    (temp : BitVec 16) (failed : Bool) : telemetryRecord mw temp failed d = recordSecond sec stepped mw temp failed (secondCopies d) := by
  rw [telemetryRecord, h]

theorem telemetryMarks_regs (d : Dev) : (telemetryMarks d).regs = d.regs := rfl

theorem secMark_telemetryMarks (d : Dev) : secMark (telemetryMarks d) secTelemetry = none := secMark_clearMark d secTelemetry

/-- Where the record of a second goes. -/
def recordAddr (d : Dev) : Nat := fld d CNT_TLM_BASE_LO_ADDR * 4096 + 0x100000000 * rdn d CNT_TLM_BASE_HI
  + 2048 * (rdn d CNT_TLM_SEQ % 2 ^ fld d CNT_TLM_CFG_TLM_LOG)

/-- The device as the record has gone out and SEQ has advanced. -/
def recordSent (d : Dev) (bs : List Byte) : Dev := wrn (telemetryMarks (emit d (.hostWrite 0 (recordAddr d) bs))) CNT_TLM_SEQ (rdn d CNT_TLM_SEQ + 1)

section Record

variable {d : Dev} (hen : flag d CNT_CFG_TLM_EN = true) (h53 : domainOn d 53 = true) (h47 : domainOn d 47 = true) (sec : Nat) (stepped : Bool)
  (mw : BitVec 32) (temp : BitVec 16)

include hen h53 h47

theorem recordSecond_sent : recordSecond sec stepped mw temp false d
    = (let e := recordSent d (telemetryBytes d sec stepped mw.toNat temp.toInt)
       if rdn e CNT_TLM_SEQ % fld e CNT_TLM_CFG_EVERY = 0 then signalVector e 0 (fld e CNT_TLM_CFG_VEC) else e) := by
  unfold recordSecond
  rw [hen, h53, h47]
  rfl

theorem recordSecond_failed : recordSecond sec stepped mw temp true d
    = telemetryMarks (raiseCnt (count (setFlag d CNT_CFG_TLM_EN false) CNT_TLM_ERR) ctTlmErr) := by
  unfold recordSecond
  rw [hen, h53, h47]
  rfl

/-- A record goes to its slot, and SEQ advances. -/
theorem recordSecond_sent_spec : rdn (recordSecond sec stepped mw temp false d) CNT_TLM_SEQ = (rdn d CNT_TLM_SEQ + 1) % 0x100000000
    ∧ secMark (recordSecond sec stepped mw temp false d) secTelemetry = none
    ∧ Out.hostWrite 0 (recordAddr d) (telemetryBytes d sec stepped mw.toNat temp.toInt) ∈ (recordSecond sec stepped mw temp false d).out := by
  have hseq (bs : List Byte) : rdn (recordSent d bs) CNT_TLM_SEQ = (rdn d CNT_TLM_SEQ + 1) % 0x100000000 := rdn_wrn_same _ _ _
  have hmark (bs : List Byte) : secMark (recordSent d bs) secTelemetry = none := secMark_telemetryMarks _
  have hout (bs : List Byte) : Out.hostWrite 0 (recordAddr d) bs ∈ (recordSent d bs).out := List.mem_append_right _ (List.mem_singleton.mpr rfl)
  rw [recordSecond_sent hen h53 h47]
  dsimp only
  generalize telemetryBytes d sec stepped mw.toNat temp.toInt = bs
  split
  · obtain ⟨p, o, e⟩ := signalVector_spec (recordSent d bs) 0 (fld (recordSent d bs) CNT_TLM_CFG_VEC)
    obtain ⟨l, hl⟩ := signalVector_out (recordSent d bs) 0 (fld (recordSent d bs) CNT_TLM_CFG_VEC)
    refine ⟨?_, ?_, ?_⟩
    · rw [rdn, rd_signalVector]
      exact hseq bs
    · rw [secMark_congr (d := recordSent d bs) (by rw [e])]
      exact hmark bs
    · rw [hl]
      exact List.mem_append_left _ (hout bs)
  · exact ⟨hseq bs, hmark bs, hout bs⟩

/-- A write that fails ends telemetry. -/
theorem recordSecond_failed_spec : flag (recordSecond sec stepped mw temp true d) CNT_CFG_TLM_EN = false
    ∧ rdn (recordSecond sec stepped mw temp true d) CNT_TLM_ERR = min (rdn d CNT_TLM_ERR + 1) 0xFFFFFFFF
    ∧ rdn (recordSecond sec stepped mw temp true d) CNT_TLM_SEQ = rdn d CNT_TLM_SEQ := by
  rw [recordSecond_failed hen h53 h47]
  have hrd (q : Reg) (h : 0x1400000 ≤ q.ofs) (hq : q.ofs ≠ CNT_EVT.ofs) :
      rd (telemetryMarks (raiseCnt (count (setFlag d CNT_CFG_TLM_EN false) CNT_TLM_ERR) ctTlmErr)) q
        = rd (count (setFlag d CNT_CFG_TLM_EN false) CNT_TLM_ERR) q := by
    rw [rd, telemetryMarks_regs]
    exact rd_raiseCnt _ _ h hq
  refine ⟨?_, ?_, ?_⟩
  · rw [flag_congr CNT_CFG_TLM_EN (hrd _ (by decide) (by decide)), flag_congr CNT_CFG_TLM_EN (rd_count_other _ (by decide))]
    exact flag_setFlag_same _ _ (by decide) (by decide)
  · rw [rdn, hrd _ (by decide) (by decide)]
    refine (rdn_count_same _ _).trans ?_
    rw [rdn, rd_setFlag_other _ _ (by decide), rdn]
  · rw [rdn, hrd _ (by decide) (by decide), rd_count_other _ (by decide), rd_setFlag_other _ _ (by decide), rdn]

end Record

theorem length_lineBlock (d : Dev) (x : Line) : (lineBlock d x).length = 64 := by
  simp only [lineBlock, List.map_cons, List.map_nil, List.flatten_cons, List.flatten_nil, List.length_append, length_leBytes, List.length_replicate,
    List.length_nil]

theorem length_pulses (d : Dev) : ((List.range 64).map (pulseEntry d)).flatten.length = 512 := by
  have hlen : ∀ p, (pulseEntry d p).length = 8 := fun p => by rw [pulseEntry, List.length_append, length_leBytes, length_leBytes]
  rw [List.length_flatten, List.map_map]
  have hmap : (List.range 64).map (List.length ∘ pulseEntry d) = (List.range 64).map (fun _ => 8) := List.map_congr_left fun p _ => hlen p
  rw [hmap]
  rfl

/-- A record is 2,048 bytes long, with the second's number in bytes 4 to 9. -/
theorem telemetryBytes_spec (d : Dev) (sec : Nat) (stepped : Bool) (mw : Nat) (temp : Int) :
    (telemetryBytes d sec stepped mw temp).length = 2048 ∧ slice (telemetryBytes d sec stepped mw temp) 4 6 = leBytes 6 sec := by
  have hsummary : ((d.bst.summary ++ List.replicate 40 (0 : Byte)).take 40).length = 40 := by
    rw [List.length_take, List.length_append, List.length_replicate]
    omega
  constructor
  · simp only [telemetryBytes, List.length_append, length_leBytes, length_lineBlock, length_pulses, hsummary, List.length_replicate,
      List.length_cons, List.length_nil]
  · simp only [telemetryBytes, List.append_assoc, slice]
    rw [List.drop_append_of_le_length (by rw [length_leBytes]), List.drop_of_length_le (by rw [length_leBytes]), List.nil_append,
      List.take_append_of_le_length (by rw [length_leBytes]), List.take_of_length_le (by rw [length_leBytes])]

/-! ### The obligation, part by part -/

section Settled

variable (s : State)

/-- What SLICE_START does. -/
theorem exec_sliceStart_cases : (flag s.dev BST_STATUS_RUNNING = true → exec .sliceStart s = .next s)
    ∧ ∀ t : Nat, flag s.dev BST_CFG_EN = true → domainOn s.dev 55 = true → flag s.dev BST_STATUS_RUNNING = false → pwrStopped s.dev 1 = false →
      pickTarget s.dev = some t → gapOver s.dev t = true → ∃ d : Dev, exec .sliceStart s = .next (s.withDev d) ∧ slicing d = some t
        ∧ fld d (BST_TGTt_STATUS_VERDICT t) = vdRunning := by
  refine ⟨fun hrun => ?_, fun t hen hon hrun hp ht hg => ⟨_, exec_sliceStart s, ?_⟩⟩
  · rw [exec_sliceStart, sliceStart_busy hrun, withDev_self]
  · obtain ⟨⟨hlt, _⟩, _⟩ := pickTarget_spec ht
    rw [sliceStart_runs hen hon hrun hp ht hg]
    exact sliceBegun_spec s.dev _ hlt

/-- What ends the patterns of a slice, or the slice. -/
theorem exec_slice_cases (t : Fin 48) (sig : BitVec 64) (h : slicing s.dev = some t.val) :
    (∃ d : Dev, exec (.slicePatternsDone sig true) s = .next (s.withDev d) ∧ fld d (BST_TGTt_STATUS_VERDICT t) = vdPass
        ∧ flag d (BST_TGTt_STATUS_SUSPECT t) = false ∧ rdn d BST_FAIL = rdn s.dev BST_FAIL)
      ∧ (flag s.dev (BST_TGTt_STATUS_SUSPECT t) = false → ∃ d : Dev, exec (.slicePatternsDone sig false) s = .next (s.withDev d)
        ∧ flag d (BST_TGTt_STATUS_SUSPECT t) = true ∧ rdn d BST_FAIL = rdn s.dev BST_FAIL ∧ targetRetired d t = targetRetired s.dev t)
      ∧ (flag s.dev (BST_TGTt_STATUS_SUSPECT t) = true → t.val < 18 → ∃ d : Dev, exec (.slicePatternsDone sig false) s = .next (s.withDev d)
        ∧ targetRetired d t = true ∧ engineState d t = 2 ∧ rdn d BST_FAIL = min (rdn s.dev BST_FAIL + 1) 0xFFFFFFFF)
      ∧ (∃ d : Dev, exec (.serviceRequest t) s = .next (s.withDev d) ∧ fld d (BST_TGTt_STATUS_VERDICT t) = vdAborted ∧ slicing d = none
        ∧ fld d BST_LAST_CAUSE = cutService ∧ rdn d BST_SERVICE_ABORT = min (rdn s.dev BST_SERVICE_ABORT + 1) 0xFFFFFFFF
        ∧ rdn d BST_PASS = rdn s.dev BST_PASS)
      ∧ (s.dev.bst.beganAt + 12000 ≤ s.dev.elapsed → ∃ d : Dev, exec .sliceBudget s = .next (s.withDev d) ∧ slicing d = none
        ∧ fld d BST_LAST_CAUSE = cutBudget ∧ rdn d BST_BUDGET = min (rdn s.dev BST_BUDGET + 1) 0xFFFFFFFF)
      ∧ (s.dev.elapsed < s.dev.bst.beganAt + 12000 → exec .sliceBudget s = .next s) := by
  refine ⟨?_, fun hs => ?_, fun hs ht => ?_, ?_, fun hb => ?_, fun hb => ?_⟩
  · exact ⟨_, exec_slicePatternsDone sig true s, slicePatternsDone_good_spec sig t.isLt h⟩
  · exact ⟨_, exec_slicePatternsDone sig false s, slicePatternsDone_first_spec sig t.isLt h hs⟩
  · exact ⟨_, exec_slicePatternsDone sig false s, slicePatternsDone_second_spec sig ht h hs⟩
  · exact ⟨_, exec_serviceRequest t s, serviceRequest_spec t h⟩
  · exact ⟨_, exec_sliceBudget s, sliceBudget_spec t.isLt h hb⟩
  · rw [exec_sliceBudget, sliceBudget, if_neg (Nat.not_le.mpr hb), withDev_self]

/-- What BST_SUMMARY does at a second boundary. -/
theorem exec_bstSummary_made (h : secMark s.dev secSummary ≠ none) (hon : domainOn s.dev 55 = true) :
    ∃ d : Dev, exec .bstSummary s = .next (s.withDev d) ∧ secMark d secSummary = none ∧ d.bst.summary.length = 36 ∧ d.bst.done = 0
      ∧ d.bst.cut = 0 ∧ d.regs = s.dev.regs := by
  refine ⟨_, exec_bstSummary s, ?_⟩
  rw [bstSummary_made h hon]
  exact ⟨secMark_clearMark s.dev secSummary, length_summaryBytes _, rfl, rfl, rfl⟩

/-- What TELEMETRY_RECORD does of a second that is due. -/
theorem exec_telemetryRecord_made (e : Dev) (sec : Nat) (stepped : Bool) (mw : BitVec 32) (temp : BitVec 16)
    (h : secMark s.dev secTelemetry = some (sec, stepped)) (he : e = secondCopies s.dev) (hen : flag e CNT_CFG_TLM_EN = true)
    (h53 : domainOn e 53 = true) (h47 : domainOn e 47 = true) :
    (∃ (d : Dev) (bs : List Byte), exec (.telemetryRecord mw temp false) s = .next (s.withDev d) ∧ bs.length = 2048
        ∧ rdn d CNT_TLM_SEQ = (rdn e CNT_TLM_SEQ + 1) % 0x100000000 ∧ secMark d secTelemetry = none ∧ slice bs 4 6 = leBytes 6 sec
        ∧ Out.hostWrite 0 (fld e CNT_TLM_BASE_LO_ADDR * 4096 + 0x100000000 * rdn e CNT_TLM_BASE_HI
            + 2048 * (rdn e CNT_TLM_SEQ % 2 ^ fld e CNT_TLM_CFG_TLM_LOG)) bs ∈ d.out)
      ∧ ∃ d : Dev, exec (.telemetryRecord mw temp true) s = .next (s.withDev d) ∧ flag d CNT_CFG_TLM_EN = false
        ∧ rdn d CNT_TLM_ERR = min (rdn e CNT_TLM_ERR + 1) 0xFFFFFFFF ∧ rdn d CNT_TLM_SEQ = rdn e CNT_TLM_SEQ := by
  have hrecord (failed : Bool) : telemetryRecord mw temp failed s.dev = recordSecond sec stepped mw temp failed e := by
    rw [telemetryRecord_made h, he]
  constructor
  · obtain ⟨hseq, hmark, hout⟩ := recordSecond_sent_spec hen h53 h47 sec stepped mw temp
    obtain ⟨hlen, hsec⟩ := telemetryBytes_spec e sec stepped mw.toNat temp.toInt
    refine ⟨recordSecond sec stepped mw temp false e, _, ?_, hlen, hseq, hmark, hsec, hout⟩
    rw [exec_telemetryRecord, hrecord]
  · refine ⟨recordSecond sec stepped mw temp true e, ?_, recordSecond_failed_spec hen h53 h47 sec stepped mw temp⟩
    rw [exec_telemetryRecord, hrecord]

end Settled

/-- Settles O58: the target of a slice comes from the eligible ones, its word and BST's counters follow the verdict, counters and windows
change their own registers alone, and a record of a second goes out whole. -/
theorem slicesAndCounters : Obligations.SlicesAndCounters := by
  refine ⟨fun d t ht => ?_, exec_sliceStart_cases, exec_slice_cases, fun s => ⟨fun hr hp => ?_, ?_, fun h => ?_, exec_bstSummary_made s⟩,
    fun d c n hc => rdPair_cntAdd d n hc, fun m c s => ⟨fun value ha => ?_, fun ha => ⟨?_, ?_⟩⟩, fun m rel s hm hr ha => ⟨fun h0 hc => ?_, fun h0 => ?_⟩,
    fun s hon hs => ⟨fun h => ?_, fun h => ?_⟩, fun s mw temp failed h => ?_, exec_telemetryRecord_made⟩
  · obtain ⟨⟨hlt, heligible⟩, hsuspect, hpending⟩ := pickTarget_spec ht
    exact ⟨hlt, heligible, hsuspect, hpending⟩
  · exact ⟨_, exec_sliceRestoreDone s, sliceRestoreDone_spec hr hp⟩
  · exact ⟨_, exec_overdue s, fun t ht => flag_overdue s.dev ht⟩
  · rw [exec_bstSummary, bstSummary_done h, withDev_self]
  · exact ⟨_, exec_cntSelWrite m c value s, cntSelWrite_spec m c value s.dev ha⟩
  · obtain ⟨hzero, _, _, hothers⟩ := cntClear_spec s.dev c.isLt
    exact ⟨cntClear s.dev c, by rw [exec_cntClear, cntClearOne_eq m c ha], hzero, hothers⟩
  · exact ⟨_, exec_cntClearAll m s, cntClearAll_spec m c.isLt ha⟩
  · rw [exec_cntRead, cntRead_denied rel hm hr ha h0 hc]
  · subst h0
    obtain ⟨w, hregs, hout⟩ := cntRead_function0 rel hr ha
    exact ⟨_, w, exec_cntRead 0 rel s, hregs, hout⟩
  · exact ⟨latchWindow s.dev s.dev.host.bwEnd false, by rw [exec_bwWindowEnd, bwWindowEnd_reached hon hs h], latchWindow_spec s.dev _⟩
  · rw [exec_bwWindowEnd, bwWindowEnd_ahead hon hs h, withDev_self]
  · rw [exec_telemetryRecord, telemetryRecord_done h, withDev_self]

end Sys2Proof.Machine
end

section
/-!
PROOFS. The Course links and the relay of an image (O59): what a PDU, a link change and a step of the relay leave as it is.
-/

namespace Sys2Proof.Machine

theorem exec_courseLinkChange (k : Fin 2) (up : Bool) (s : State) :
    exec (.courseLinkChange k up) s = .next (s.withDev (courseLinkChange k up s.dev)) := rfl

theorem exec_coursePduBad (k : Fin 2) (pdu : List Byte) (s : State) :
    exec (.coursePduBad k pdu) s = .next (s.withDev (coursePduBad k pdu s.dev)) := rfl

theorem exec_otherCourseFrame (k : Fin 2) (s : State) : exec (.otherCourseFrame k) s = .next (s.withDev (count s.dev CRS_RX_OTHER)) := rfl

theorem exec_relayStart (k : Fin 2) (sender : BitVec 64) (image len : Word) (blocks : BitVec 16) (hops : BitVec 8) (store : Bool) (s : State) :
    exec (.relayStart k sender image len blocks hops store) s = .next (s.after (relayStart k sender image len blocks hops store s.dev s.mem)) := rfl

theorem exec_relayBlock (k : Fin 2) (sender : BitVec 64) (image : Word) (block : BitVec 16) (data : List Byte) (crc : Word) (s : State) :
    exec (.relayBlock k sender image block data crc) s = .next (s.after (relayBlock k sender image block data crc s.dev s.mem)) := rfl

theorem exec_relayEnd (k : Fin 2) (sender : BitVec 64) (image crc : Word) (s : State) :
    exec (.relayEnd k sender image crc) s = .next (s.after (relayEnd k sender image crc s.dev s.mem)) := rfl

theorem exec_relayAck (k : Fin 2) (sender : BitVec 64) (image : Word) (next : BitVec 16) (code : BitVec 8) (s : State) :
    exec (.relayAck k sender image next code) s = .next (s.after (relayAck k sender image next code s.dev s.mem)) := rfl

theorem exec_relayAckTimer (s : State) : exec .relayAckTimer s = .next (s.withDev (relayAckTimer s.dev)) := rfl

theorem exec_relayResend (s : State) : exec .relayResend s = .next (s.after (relayResend s.dev s.mem)) := rfl

theorem exec_relayStall (s : State) : exec .relayStall s = .next (s.withDev (relayStall s.dev)) := rfl

theorem exec_blockProgrammed (ok : Bool) (s : State) :
    exec (.blockProgrammed ok) s = .next (s.after (blockProgrammed ok s.dev s.mem)) := rfl

/-- A step that leaves the memories gives the state with the device alone replaced. -/
theorem after_withDev (s : State) (d : Dev) : s.after (d, s.mem) = s.withDev d := rfl

/-! ### What a PDU and the shown relay leave as they are (R390, R410) -/

/-- A word that is not one of the two links' own. -/
def offLinks (o : Nat) : Prop := o < 0x1300050 ∨ 0x1300070 ≤ o

theorem keepsWords.frozen {w : Nat → Prop} {d e : Dev} (h : keepsWords w d e) {m : Master} (hw : w (ROOT_FRZ_MAP (m / 32)).ofs) :
    isFrozen e m = isFrozen d m := by
  rw [isFrozen, regBit, h.rd hw]
  rfl

theorem frzMap_lt {m : Nat} (hm : m < 0x80) : (ROOT_FRZ_MAP (m / 32)).ofs < 0x1000 := by
  simp only
  omega

theorem courseMaster_lt (k : Fin 2) : courseMaster k < 0x80 := show 0x6A + k.val < 0x80 by omega

section Links

variable (d : Dev)

theorem keepsWords_heard (k : Fin 2) (sender : BitVec 64) : keepsWords offLinks d (heard d k sender) := by
  refine ((keepsWords.refl _ d).wr ?_ _).wr ?_ _ <;> (unfold offLinks; simp only; omega)

theorem isFrozen_heard (k : Fin 2) (sender : BitVec 64) {m : Nat} (hm : m < 0x80) : isFrozen (heard d k sender) m = isFrozen d m :=
  (keepsWords_heard d k sender).frozen (.inl (by simp only; omega))

theorem fwu_heard (k : Nat) (sender : BitVec 64) : (heard d k sender).fwu = d.fwu := rfl

theorem elapsed_heard (k : Nat) (sender : BitVec 64) : (heard d k sender).elapsed = d.elapsed := rfl

theorem sendPdu_out (k type : Nat) (body : List Byte) : ∃ o, sendPdu d k type body = { d with out := o } := by
  unfold sendPdu
  split
  · exact ⟨_, rfl⟩
  · exact ⟨d.out, rfl⟩

/-- What a link's word shows of a relay. -/
def showLink (d : Dev) (k : Nat) (i o : Bool) (n : Nat) : Dev :=
  setFld (setFlag (setFlag d (CRS_LINKk_STATUS_RELAY_IN k) i) (CRS_LINKk_STATUS_RELAY_OUT k) o) (CRS_LINKk_STATUS_NEXT k) n

theorem showRelay_eq : ∃ i i' o o' n n', showRelay d = showLink (showLink d 0 i o n) 1 i' o' n' := by
  unfold showRelay forEach
  simp only [List.foldl_cons, List.foldl_nil]
  exact ⟨_, _, _, _, _, _, rfl⟩

theorem keepsWords_showLink {k : Nat} (hk : k < 2) (i o : Bool) (n : Nat) : keepsWords offLinks d (showLink d k i o n) := by
  refine (((keepsWords.refl _ d).setFlag ?_ _).setFlag ?_ _).setFld ?_ _ <;> (unfold offLinks; simp only; omega)

theorem keepsWords_showRelay : keepsWords offLinks d (showRelay d) := by
  obtain ⟨i, i', o, o', n, n', e⟩ := showRelay_eq d
  rw [e]
  exact (keepsWords_showLink d (by decide) i o n).trans (keepsWords_showLink _ (by decide) i' o' n')

theorem showRelay_regs : ∃ g, showRelay d = { d with regs := g } := by
  obtain ⟨i, i', o, o', n, n', e⟩ := showRelay_eq d
  exact ⟨_, e⟩

end Links

/-! ### The course of a relay (R394) -/

/-- The relay is put down as q, some PDUs have gone out, and the links show it. -/
def relayShown (d : Dev) (o : List Out) (q : Option Relay) : Dev := showRelay (setRelay { d with out := o } q)

/-- The relay as its sender goes on: what was sent and what is held alone differ. -/
def relayMoved (r : Relay) (n : Nat) (h : List (Nat × List Byte)) : Relay := { r with sent := n, held := h }

section Course

variable (d : Dev) (s : Mem)

theorem fwu_relayShown (o : List Out) (q : Option Relay) : (relayShown d o q).fwu = { d.fwu with relay := q } := by
  obtain ⟨g, e⟩ := showRelay_regs (setRelay { d with out := o } q)
  rw [relayShown, e]
  rfl

theorem keepsWords_relayShown (o : List Out) (q : Option Relay) : keepsWords offLinks d (relayShown d o q) :=
  (keepsWords_showRelay (setRelay { d with out := o } q))

theorem pump_spec (n : Nat) (d : Dev) (r : Relay) : ∃ o m, pump s n d r = ({ d with out := o }, { r with sent := m }) := by
  induction n generalizing d r with
  | zero => exact ⟨d.out, r.sent, rfl⟩
  | succ n ih =>
    unfold pump
    split
    · exact ⟨d.out, r.sent, rfl⟩
    · split
      · obtain ⟨o, e⟩ := sendPdu_out d _ tyBlock (relayCrc r.image r.sent (blockData d s r r.sent))
        obtain ⟨o', m, e'⟩ := ih { d with out := o } { r with sent := r.sent + 1 }
        rw [e, e']
        exact ⟨o', m, rfl⟩
      · exact ⟨d.out, r.sent, rfl⟩

/-- The relay has all that its sender gives: the end is known, or the image lies in DRAM. -/
def relayEnded (r : Relay) : Bool := r.ended.isSome || r.src.isNone

/-- The store is judged once its blocks are programmed. -/
def relayJudged (d : Dev) (s : Mem) (r : Relay) : Dev × Mem × Relay :=
  if r.store && relayEnded r && r.programmed == r.blocks then ((judgeStore d s r).1, (judgeStore d s r).2, { r with store := false })
  else (d, s, r)

/-- The relay ends, is forwarded to its end, or goes on. -/
def relayClosed (d : Dev) (s : Mem) (r : Relay) : Dev × Mem :=
  if !r.store && relayEnded r then
    match r.dst with
    | none => (showRelay (setRelay d none), s)
    | some k =>
      if r.acked = r.blocks then
        (showRelay (setRelay (sendPdu d k tyEnd (beBytes 4 r.image ++ beBytes 4 (r.ended.getD (imageCrc d s r)))) none), s)
      else (showRelay (setRelay d (some r)), s)
  else (showRelay (setRelay d (some r)), s)

/-- What a relay does once its blocks are sent and freed. -/
def relaySettled (d : Dev) (s : Mem) (r : Relay) : Dev × Mem :=
  relayClosed (relayJudged d s r).1 (relayJudged d s r).2.1 (relayJudged d s r).2.2

/-- The same in the model's words. -/
def relayRest (d : Dev) (s : Mem) (r : Relay) : Dev × Mem :=
  let ended := r.ended.isSome || r.src.isNone
  let (d, s, r) := if r.store && ended && r.programmed == r.blocks then
      let (d, s) := judgeStore d s r
      (d, s, { r with store := false })
    else (d, s, r)
  if !r.store && ended then
    match r.dst with
    | none => (showRelay (setRelay d none), s)
    | some k =>
      if r.acked = r.blocks then
        let crc := r.ended.getD (imageCrc d s r)
        (showRelay (setRelay (sendPdu d k tyEnd (beBytes 4 r.image ++ beBytes 4 crc)) none), s)
      else (showRelay (setRelay d (some r)), s)
  else (showRelay (setRelay d (some r)), s)

theorem relayRest_eq (r : Relay) : relayRest d s r = relaySettled d s r := by
  unfold relayRest relaySettled relayJudged relayEnded
  by_cases h : (r.store && (r.ended.isSome || r.src.isNone) && r.programmed == r.blocks) = true
  · dsimp only
    rw [if_pos h]
    rfl
  · dsimp only
    rw [if_neg h]
    rfl

variable {d s} {r : Relay}

theorem relayGo_eq (hr : d.fwu.relay = some r) : ∃ o n h, relayGo d s = relaySettled { d with out := o } s (relayMoved r n h) := by
  obtain ⟨o, n, e⟩ := pump_spec s 256 d r
  refine ⟨o, n, r.held.filter (fun e => decide (freedTo { r with sent := n } ≤ e.1)), ?_⟩
  rw [← relayRest_eq]
  unfold relayGo
  rw [hr]
  dsimp only
  rw [e]
  rfl

theorem relayJudged_of_open (h : relayEnded r = false ∨ r.programmed ≠ r.blocks) : relayJudged d s r = (d, s, r) := by
  rw [relayJudged, if_neg]
  obtain h | h := h
  · rw [h, Bool.and_false, Bool.false_and]
    decide
  · rw [beq_false_of_ne h, Bool.and_false]
    decide

theorem relayClosed_of_open (h : relayEnded r = false ∨ ∃ k, r.dst = some k ∧ r.acked ≠ r.blocks) :
    relayClosed d s r = (showRelay (setRelay d (some r)), s) := by
  unfold relayClosed
  obtain h | ⟨k, hk, ha⟩ := h
  · rw [h, Bool.and_false, if_neg (by decide)]
  · rw [hk]
    dsimp only
    rw [if_neg ha, ite_self]

theorem relaySettled_of_open (h : relayEnded r = false ∨ r.programmed ≠ r.blocks ∧ ∃ k, r.dst = some k ∧ r.acked ≠ r.blocks) :
    relaySettled d s r = (showRelay (setRelay d (some r)), s) := by
  rw [relaySettled, relayJudged_of_open (h.imp_right And.left)]
  exact relayClosed_of_open (h.imp_right And.right)

/-- A relay whose end is not known, or that is neither programmed nor acknowledged to its end, goes on as it is. -/
theorem relayGo_of_open (hr : d.fwu.relay = some r)
    (ho : relayEnded r = false ∨ r.programmed ≠ r.blocks ∧ ∃ k, r.dst = some k ∧ r.acked ≠ r.blocks) :
    ∃ o n h, relayGo d s = (relayShown d o (some (relayMoved r n h)), s) := by
  obtain ⟨o, n, h, e⟩ := relayGo_eq (s := s) hr
  exact ⟨o, n, h, e.trans (relaySettled_of_open ho)⟩

theorem relayClosed_spec (d : Dev) (s : Mem) (r : Relay) :
    ∃ o q, relayClosed d s r = (relayShown d o q, s) ∧ (r.store = false → relayEnded r = true → r.dst = none → q = none) := by
  unfold relayClosed
  split
  · split
    · exact ⟨d.out, none, rfl, fun _ _ _ => rfl⟩
    · next k hk =>
      split
      · obtain ⟨o, e⟩ := sendPdu_out d k tyEnd (beBytes 4 r.image ++ beBytes 4 (r.ended.getD (imageCrc d s r)))
        rw [e]
        exact ⟨o, none, rfl, fun _ _ _ => rfl⟩
      · exact ⟨d.out, some r, rfl, fun _ _ h => nomatch hk.symm.trans h⟩
  · next hn => exact ⟨d.out, some r, rfl, fun h1 h2 _ => absurd (by rw [h1, h2]; decide) hn⟩

theorem relaySettled_of_ended (h : (r.store && relayEnded r && r.programmed == r.blocks) = true) :
    relaySettled d s r = relayClosed (judgeStore d s r).1 (judgeStore d s r).2 { r with store := false } := by
  rw [relaySettled, relayJudged, if_pos h]

/-- A relay whose blocks are all programmed and whose end is known has its store judged, and ends where nobody follows. -/
theorem relayGo_of_ended (hr : d.fwu.relay = some r) (hs : r.store = true) (he : relayEnded r = true) (hp : r.programmed = r.blocks) :
    ∃ o n h o' q, relayGo d s = (relayShown (judgeStore { d with out := o } s (relayMoved r n h)).1 o' q,
      (judgeStore { d with out := o } s (relayMoved r n h)).2) ∧ (r.dst = none → q = none) := by
  obtain ⟨o, n, h, e⟩ := relayGo_eq (s := s) hr
  have hj : (r.store && relayEnded r && r.programmed == r.blocks) = true := by rw [hs, he, hp, beq_self_eq_true]; rfl
  obtain ⟨o', q, e', hq⟩ := relayClosed_spec (judgeStore { d with out := o } s (relayMoved r n h)).1
    (judgeStore { d with out := o } s (relayMoved r n h)).2 { relayMoved r n h with store := false }
  refine ⟨o, n, h, o', q, ?_, hq rfl he⟩
  exact e.trans ((relaySettled_of_ended (d := { d with out := o }) (s := s) (r := relayMoved r n h) hj).trans e')

end Course

/-! ### Link changes and PDUs (R389, R390) -/

section Pdu

variable {k : Fin 2} {d : Dev}

/-- A word beside the two links' own and what an event of the Course writes. -/
def offCourse (o : Nat) : Prop := offLinks o ∧ o ≠ CRS_EVT.ofs ∧ o ≠ HIF_EVT_UNIT.ofs ∧ o ≠ (HIF_FNf_EVT 0).ofs

theorem rd_raiseCrs (d : Dev) (b : Nat) {q : Reg} (h : offCourse q.ofs) : rd (raiseCrs d b) q = rd d q :=
  rd_raiseEvt_other d evCRS b h.2.1 h.2.2.1 h.2.2.2

theorem fwu_raiseCrs (d : Dev) (b : Nat) : (raiseCrs d b).fwu = d.fwu := by
  obtain ⟨r, p, o, e⟩ := raiseEvt_spec d evCRS b
  rw [raiseCrs, e]

/-- A link takes its state. -/
def linkSet (d : Dev) (k : Fin 2) (v : Bool) : Dev :=
  raiseCrs (setFlag (setFlag d (CRS_LINKk_STATUS_UP k) v) (CRS_LINKk_STATUS_AN_DONE k) v) crLinkChange

theorem linkUp_linkSet (d : Dev) (k : Fin 2) (v : Bool) : linkUp (linkSet d k v) k = v := by
  have h : ∀ e : Dev, rd (raiseCrs e crLinkChange) (CRS_LINKk_STATUS k) = rd e (CRS_LINKk_STATUS k) := fun e =>
    rd_raiseEvt_other e evCRS crLinkChange (show 0x1300050 + 0x10 * k.val ≠ 0x13000c0 by omega) (by simp only; omega) (by simp only; omega)
  rw [linkUp, linkSet, flag_congr _ (h _), flag_setFlag_apart _ _ (by simp [apart])]
  exact flag_setFlag_same _ _ (by simp) (by simp)

theorem courseLinkChange_up (h : linkUp d k = false) (he : linkEnabled d k = true) (hd : domainOn d 27 = true) :
    courseLinkChange k true d = linkSet d k true := by
  rw [courseLinkChange, he, hd, h]
  rfl

theorem courseLinkChange_down (h : linkUp d k = true) : courseLinkChange k false d = linkSet d k false := by
  rw [courseLinkChange, h]
  rfl

theorem courseLinkChange_stays (h : linkUp d k = false) : courseLinkChange k false d = d := by
  rw [courseLinkChange, h]
  rfl

theorem coursePduBad_counts {pdu : List Byte} (hf : isFrozen d (courseMaster k) = false) (hb : pduBad pdu = true) :
    coursePduBad k pdu d = count (heard d k (BitVec.ofNat 64 (beNat (slice pdu 4 8)))) CRS_PDU_BAD := by
  rw [coursePduBad, hf, hb]
  rfl

theorem coursePduBad_ignored {pdu : List Byte} (h : isFrozen d (courseMaster k) = true ∨ pduBad pdu = false) : coursePduBad k pdu d = d := by
  rw [coursePduBad]
  obtain h | h := h
  · rw [if_pos h]
  · rw [h, if_neg (c := false = true) (by decide), ite_self]

theorem rdn_heard (d : Dev) (k : Fin 2) (sender : BitVec 64) {q : Reg} (h : offLinks q.ofs) : rdn (heard d k sender) q = rdn d q :=
  (keepsWords_heard d k sender).rdn h

theorem count_heard (d : Dev) (k : Fin 2) (sender : BitVec 64) {q : Reg} (h : offLinks q.ofs) :
    rdn (count (heard d k sender) q) q = min (rdn d q + 1) 0xFFFFFFFF := by
  rw [rdn_count_same, rdn_heard d k sender h]

theorem offLinks_pduBad : offLinks CRS_PDU_BAD.ofs := .inr (by decide)

theorem course_links (k : Fin 2) (s : State) :
    (linkUp s.dev k = false → linkEnabled s.dev k = true → domainOn s.dev 27 = true →
        ∃ d : Dev, exec (.courseLinkChange k true) s = .next (s.withDev d) ∧ linkUp d k = true)
      ∧ (linkUp s.dev k = true → ∃ d : Dev, exec (.courseLinkChange k false) s = .next (s.withDev d) ∧ linkUp d k = false)
      ∧ (linkUp s.dev k = false → exec (.courseLinkChange k false) s = .next s) := by
  refine ⟨fun h he hd => ⟨_, exec_courseLinkChange k true s, ?_⟩, fun h => ⟨_, exec_courseLinkChange k false s, ?_⟩, fun h => ?_⟩
  · rw [courseLinkChange_up h he hd, linkUp_linkSet]
  · rw [courseLinkChange_down h, linkUp_linkSet]
  · rw [exec_courseLinkChange, courseLinkChange_stays h, withDev_self]

theorem course_pdus (k : Fin 2) (s : State) (pdu : List Byte) :
    (isFrozen s.dev (courseMaster k) = false → pduBad pdu = true → ∃ d : Dev, exec (.coursePduBad k pdu) s = .next (s.withDev d)
        ∧ rdn d CRS_PDU_BAD = min (rdn s.dev CRS_PDU_BAD + 1) 0xFFFFFFFF ∧ ∀ m : Master, m < 0x80 → isFrozen d m = isFrozen s.dev m)
      ∧ (isFrozen s.dev (courseMaster k) = true ∨ pduBad pdu = false → exec (.coursePduBad k pdu) s = .next s) := by
  refine ⟨fun hf hb => ⟨_, exec_coursePduBad k pdu s, ?_⟩, fun h => ?_⟩
  · rw [coursePduBad_counts hf hb]
    exact ⟨count_heard _ _ _ offLinks_pduBad, fun m hm =>
      (((keepsWords_heard s.dev k _).mono (v := fun o => o < 0x1000) fun o ho => .inl (by omega)).count (by decide)).frozen
        (frzMap_lt hm)⟩
  · rw [exec_coursePduBad, coursePduBad_ignored h, withDev_self]

end Pdu

/-! ### The start of a relay (R392, R393) -/

section Start

variable {k : Fin 2} {image len : Word} {blocks : BitVec 16} {hops : BitVec 8} {store : Bool} {d : Dev} {s : Mem}

theorem relayStart_bad (sender : BitVec 64) (hf : isFrozen d (courseMaster k) = false) (hu : linkUp d k = true)
    (hl : lenGood len.toNat blocks.toNat = false) :
    relayStart k sender image len blocks hops store d s = (sendAck (count (heard d k sender) CRS_PDU_BAD) k image.toNat 0 ackAbort, s) := by
  rw [relayStart, hf, hu, if_neg (by decide), hl]
  rfl

theorem relayStart_busy (sender : BitVec 64) (hf : isFrozen d (courseMaster k) = false) (hu : linkUp d k = true)
    (hl : lenGood len.toNat blocks.toNat = true) (hr : d.fwu.relay.isSome = true) :
    relayStart k sender image len blocks hops store d s = (sendAck (heard d k sender) k image.toNat 0 ackBusy, s) := by
  rw [relayStart, hf, hu, if_neg (by decide), hl]
  dsimp only
  rw [fwu_heard, if_neg (by decide), if_pos hr]

/-- The relay as a device that stores or forwards an image begins it. -/
def relayBegun (d : Dev) (image len blocks : Nat) (src dst : Option Nat) (hops : Nat) (store : Bool) : Relay where
  image := image
  len := len
  blocks := blocks
  src := src
  dst := dst
  hops := hops
  store := store
  next := if src.isNone then blocks else 0
  acceptedAt := d.elapsed
  sinceAck := 0
  crc := 0xFFFFFFFF
  programmed := 0
  good := true
  sent := 0
  acked := 0
  advancedAt := d.elapsed
  resends := 0
  nakAt := none
  heardAt := d.elapsed
  held := []
  ended := none

theorem beginRelay_relay (d : Dev) (s : Mem) (image len blocks : Nat) (src dst : Option Nat) (hops : Nat) (storeBit store : Bool)
    (ho : src.isSome = true ∨ 0 < blocks ∧ dst.isSome = true) :
    ∃ n h, (beginRelay d s image len blocks src dst hops storeBit store).1.fwu.relay
      = some (relayMoved (relayBegun d image len blocks src dst hops store) n h) := by
  obtain ⟨e, t, he⟩ : ∃ e t, beginRelay d s image len blocks src dst hops storeBit store
      = relayGo (setRelay e (some (relayBegun d image len blocks src dst hops store))) t := ⟨_, _, rfl⟩
  obtain ⟨o, n, h, hg⟩ := relayGo_of_open (d := setRelay e (some (relayBegun d image len blocks src dst hops store))) (s := t) rfl (by
    obtain ho | ⟨hb, hd⟩ := ho
    · exact .inl (by rw [relayEnded, relayBegun, Option.isNone_eq_false_iff.mpr ho]; rfl)
    · obtain ⟨j, hj⟩ := Option.isSome_iff_exists.mp hd
      exact .inr ⟨Nat.ne_of_lt hb, j, hj, Nat.ne_of_lt hb⟩)
  rw [he, hg]
  exact ⟨n, h, congrArg FwuHw.relay (fwu_relayShown _ _ _)⟩

theorem forwardLink_heard (d : Dev) (k : Fin 2) (sender : BitVec 64) {j : Nat} (hj : j < 2) (n : Nat) :
    forwardLink (heard d k sender) j n = forwardLink d j n := by
  have hl : linkUp (heard d k sender) j = linkUp d j := flag_congr _ (rd_heard d k sender (by simp only; omega))
  have ho : relayOut (heard d k sender) j = relayOut d j := by
    unfold relayOut
    split <;> exact flag_congr _ (rd_heard d k sender (by simp only; omega))
  rw [forwardLink, forwardLink, hl, ho]

theorem storeBarred_heard (d : Dev) (k : Fin 2) (sender : BitVec 64) : storeBarred (heard d k sender) = storeBarred d := by
  have h {q : Reg} (hq : q.ofs < 0x1300000) : rd (heard d k sender) q = rd d q := rd_heard d k sender (.inl (by omega))
  have hs : rd (heard d k sender) FWU_STATUS = rd d FWU_STATUS := h (by decide)
  rw [storeBarred, ownerLocked, hostLock, heLock, heLock, regBit, regBit, flag_congr FWU_STATUS_ACTIVATING hs, flag_congr FWU_CFG_HOST_LOCK (h (by decide)),
    flag_congr PWR_STATUS_PWR_ALT (h (by decide)), hs]
  rfl

theorem relayStart_begins (sender : BitVec 64) (hf : isFrozen d (courseMaster k) = false) (hu : linkUp d k = true)
    (hl : lenGood len.toNat blocks.toNat = true) (hr : d.fwu.relay = none) : relayStart k sender image len blocks hops store d s =
      beginRelay (heard d k sender) s image.toNat len.toNat blocks.toNat (some k) (forwardLink (heard d k sender) (1 - k) (hops.toNat - 1))
        (hops.toNat - 1) store (store && flag (heard d k sender) CRS_CFG_STORE && !storeBarred (heard d k sender)) := by
  rw [relayStart, hf, hu, if_neg (by decide), hl]
  dsimp only
  rw [fwu_heard, hr, if_neg (by decide), if_neg (by decide)]

end Start

/-- RELAY_START by a peer that is not frozen, on a link that is up. -/
theorem relay_starts (k : Fin 2) (sender : BitVec 64) (image len : Word) (blocks : BitVec 16) (hops : BitVec 8) (store : Bool) (s : State)
    (hf : isFrozen s.dev (courseMaster k) = false) (hu : linkUp s.dev k = true) :
    (lenGood len.toNat blocks.toNat = false → ∃ d : Dev, exec (.relayStart k sender image len blocks hops store) s = .next (s.withDev d)
        ∧ d.fwu = s.dev.fwu ∧ rdn d CRS_PDU_BAD = min (rdn s.dev CRS_PDU_BAD + 1) 0xFFFFFFFF)
      ∧ (lenGood len.toNat blocks.toNat = true → s.dev.fwu.relay.isSome = true →
        ∃ d : Dev, exec (.relayStart k sender image len blocks hops store) s = .next (s.withDev d) ∧ d.fwu = s.dev.fwu)
      ∧ (lenGood len.toNat blocks.toNat = true → s.dev.fwu.relay = none →
        ∃ (t : State) (r : Relay), exec (.relayStart k sender image len blocks hops store) s = .next t ∧ t.dev.fwu.relay = some r
          ∧ r.image = image.toNat ∧ r.len = len.toNat ∧ r.blocks = blocks.toNat ∧ r.src = some k.val ∧ r.next = 0
          ∧ r.dst = forwardLink s.dev (1 - k) (hops.toNat - 1) ∧ r.store = (store && flag s.dev CRS_CFG_STORE && !storeBarred s.dev)) := by
  refine ⟨fun hl => ?_, fun hl hr => ?_, fun hl hr => ?_⟩
  · obtain ⟨o, e⟩ := sendPdu_out (count (heard s.dev k sender) CRS_PDU_BAD) k tyAck (beBytes 4 image.toNat ++ beBytes 2 0 ++ beBytes 1 ackAbort)
    rw [exec_relayStart, relayStart_bad sender hf hu hl, sendAck, e]
    exact ⟨_, rfl, rfl, count_heard _ _ _ offLinks_pduBad⟩
  · obtain ⟨o, e⟩ := sendPdu_out (heard s.dev k sender) k tyAck (beBytes 4 image.toNat ++ beBytes 2 0 ++ beBytes 1 ackBusy)
    rw [exec_relayStart, relayStart_busy sender hf hu hl hr, sendAck, e]
    exact ⟨_, rfl, rfl⟩
  · obtain ⟨n, h, e⟩ := beginRelay_relay (heard s.dev k sender) s.mem image.toNat len.toNat blocks.toNat (some k.val)
      (forwardLink (heard s.dev k sender) (1 - k) (hops.toNat - 1)) (hops.toNat - 1) store
      (store && flag (heard s.dev k sender) CRS_CFG_STORE && !storeBarred (heard s.dev k sender)) (.inl rfl)
    refine ⟨_, _, exec_relayStart .., by rw [relayStart_begins sender hf hu hl hr]; exact e, rfl, rfl, rfl, rfl, rfl, ?_, ?_⟩
    · exact forwardLink_heard _ _ _ (by omega) _
    · show (store && flag (heard s.dev k sender) CRS_CFG_STORE && !storeBarred (heard s.dev k sender)) = _
      rw [storeBarred_heard, flag_congr _ (rd_heard s.dev k sender (by decide))]

end Sys2Proof.Machine
end

section
/-!
PROOFS. The blocks, acknowledgements and the end of a relay, and the seal of a stored image (O59).
-/

namespace Sys2Proof.Machine

/-! ### Big-endian numbers in a seal (R398) -/

theorem beNat_append_one (xs : List Byte) (b : Byte) : beNat (xs ++ [b]) = beNat xs * 256 + b.toNat := by
  rw [beNat, List.foldl_append]
  rfl

theorem beNat_beBytes (n v : Nat) : beNat (beBytes n v) = v % 256 ^ n := by
  induction n generalizing v with
  | zero => exact (Nat.mod_one v).symm
  | succ n ih =>
    rw [beBytes, leBytes, List.reverse_cons, beNat_append_one]
    have h : beNat (leBytes n (v / 256)).reverse = v / 256 % 256 ^ n := ih (v / 256)
    rw [h, Nat.pow_succ, Nat.mul_comm (256 ^ n), Nat.mod_mul, BitVec.toNat_ofNat]
    omega

theorem length_beBytes (n v : Nat) : (beBytes n v).length = n := by
  rw [beBytes, List.length_reverse, length_leBytes]

/-- The bytes of a seal. -/
def sealBytes (image len crc gen : Nat) : List Byte :=
  beBytes 4 sealMagic ++ beBytes 4 image ++ beBytes 4 len ++ beBytes 4 crc ++ beBytes 4 gen ++ [0xFF, 0xFF]

section Seal

variable (image len crc gen : Nat)

theorem length_sealBytes : (sealBytes image len crc gen).length = 22 := by simp [sealBytes, length_beBytes]

theorem slice_sealBytes : slice (sealBytes image len crc gen) 0 4 = beBytes 4 sealMagic ∧ slice (sealBytes image len crc gen) 4 4 = beBytes 4 image
    ∧ slice (sealBytes image len crc gen) 12 4 = beBytes 4 crc := by
  simp [slice, sealBytes, List.drop_append, List.drop_eq_nil_of_le, length_beBytes]

theorem byteAt_sealBytes : byteAt (sealBytes image len crc gen) 20 = 0xFF ∧ byteAt (sealBytes image len crc gen) 21 = 0xFF := by
  simp [byteAt, sealBytes, length_beBytes]

end Seal

/-- A seal that was written is read as it was written, neither activated nor rejected. -/
theorem sealOf_writeSeal (s : Mem) (slot len : Nat) {image crc : Nat} (hi : image < 2 ^ 32) (hc : crc < 2 ^ 32) :
    ∃ q, sealOf (writeSeal s slot image len crc) slot = some q ∧ q.image = image ∧ q.crc = crc ∧ q.activated = false ∧ q.rejected = false := by
  have hread : readFlash (writeSeal s slot image len crc) (sealBase slot) 22 = sealBytes image len crc (nextGen s slot) :=
    readMem_writeMem_same (length_sealBytes _ _ _ _)
  obtain ⟨hm, himg, hcrc⟩ := slice_sealBytes image len crc (nextGen s slot)
  obtain ⟨h20, h21⟩ := byteAt_sealBytes image len crc (nextGen s slot)
  unfold sealOf
  rw [hread]
  dsimp only
  rw [hm, himg, hcrc, h20, h21, beNat_beBytes, if_pos (by decide)]
  refine ⟨_, rfl, ?_, ?_, rfl, rfl⟩
  · exact (beNat_beBytes 4 image).trans (Nat.mod_eq_of_lt hi)
  · exact (beNat_beBytes 4 crc).trans (Nat.mod_eq_of_lt hc)

/-! ### The judgement of a store (R395) -/

section Judge

variable {d : Dev} {s : Mem} {r : Relay}

theorem judgeStore_seals (h : r.good = true ∧ r.ended.getD (imageCrc d s r) = imageCrc d s r) :
    (judgeStore d s r).2 = writeSeal s (inactiveSlot d) r.image r.len (imageCrc d s r) := by
  unfold judgeStore
  dsimp only
  rw [if_pos h]

/-- The device as a store has failed. -/
def storeFailed (d : Dev) : Dev :=
  raiseFwu (count (setFld (setFlag d FWU_STATUS_STORING false) ⟨FWU_SLOTs_INFOk (inactiveSlot d) 0, 31, 29⟩ slUnmarked) FWU_STORE_FAIL) fwStoreFail

theorem judgeStore_fails (h : ¬ (r.good = true ∧ r.ended.getD (imageCrc d s r) = imageCrc d s r)) : judgeStore d s r = (storeFailed d, s) := by
  unfold judgeStore
  dsimp only
  rw [if_neg h]
  rfl

theorem inactiveSlot_lt (d : Dev) : inactiveSlot d < 2 := by
  unfold inactiveSlot
  omega

theorem rdn_storeFailed (d : Dev) : rdn (storeFailed d) FWU_STORE_FAIL = min (rdn d FWU_STORE_FAIL + 1) 0xFFFFFFFF := by
  have hslot := inactiveSlot_lt d
  have hev : ∀ e : Dev, rd (raiseFwu e fwStoreFail) FWU_STORE_FAIL = rd e FWU_STORE_FAIL := fun e =>
    rd_raiseEvt_other e evFWU fwStoreFail (by decide) (by decide) (by decide)
  rw [rdn, storeFailed, hev, ← rdn, rdn_count_same, rdn, rd_setFld_other _ _ (by simp only; omega), rd_setFlag_other _ _ (by decide), ← rdn]

end Judge

/-! ### Blocks (R394) -/

section Blocks

variable {k : Fin 2} {image : Word} {block : BitVec 16} {data : List Byte} {crc : Word} {d : Dev} {s : Mem} {r : Relay}

/-- The relay with a block from upstream taken; c blocks are not acknowledged. -/
def blockTaken (d : Dev) (r : Relay) (data : List Byte) (c : Nat) : Relay :=
  let n := min blockSize (r.len - r.next * blockSize)
  { r with
    held := r.held ++ [(r.next, data)], crc := crcOver 32 0x04C11DB7 r.crc (bytesBits (data.take n)), next := r.next + 1,
    acceptedAt := d.elapsed, heardAt := d.elapsed, sinceAck := c }

theorem relayEnded_of_source {j : Nat} (hs : r.src = some j) (he : r.ended = none) : relayEnded r = false := by
  rw [relayEnded, hs, he]
  rfl

theorem acceptBlock_spec {j : Nat} (hs : r.src = some j) (he : r.ended = none) (k : Nat) :
    ∃ o n h c, acceptBlock d s r k data = (relayShown d o (some (relayMoved (blockTaken d r data c) n h)), s) := by
  have hgo (o : List Out) (c : Nat) : ∃ o' n h, relayGo (setRelay { d with out := o } (some (blockTaken d r data c))) s
      = (relayShown d o' (some (relayMoved (blockTaken d r data c) n h)), s) := relayGo_of_open rfl (.inl (relayEnded_of_source hs he))
  unfold acceptBlock
  dsimp only
  split
  · obtain ⟨o, e⟩ := sendPdu_out d k tyAck (beBytes 4 r.image ++ beBytes 2 (r.next + 1) ++ beBytes 1 ackAck)
    obtain ⟨o', n, h, e'⟩ := hgo o 0
    rw [sendAck, e]
    exact ⟨o', n, h, 0, e'⟩
  · obtain ⟨o', n, h, e'⟩ := hgo d.out (r.sinceAck + 1)
    exact ⟨o', n, h, _, e'⟩

theorem nakBlock_spec (d : Dev) (r : Relay) (k : Nat) :
    ∃ o t, nakBlock d r k = setRelay { d with out := o } (some { r with heardAt := d.elapsed, nakAt := t }) := by
  obtain ⟨due, e0⟩ : ∃ due : Bool, nakBlock d r k
      = if due then sendAck (setRelay d (some { r with heardAt := d.elapsed, nakAt := some d.elapsed })) k r.image r.next ackNak
        else setRelay d (some { r with heardAt := d.elapsed }) := ⟨_, rfl⟩
  rw [e0]
  split
  · obtain ⟨o, e⟩ := sendPdu_out (setRelay d (some { r with heardAt := d.elapsed, nakAt := some d.elapsed })) k tyAck
      (beBytes 4 r.image ++ beBytes 2 r.next ++ beBytes 1 ackNak)
    rw [sendAck, e]
    exact ⟨o, _, rfl⟩
  · exact ⟨d.out, r.nakAt, rfl⟩

theorem relayBlock_taken (sender : BitVec 64) (hr : d.fwu.relay = some r) (hs : r.src = some k.val)
    (hc : crc32Fsb (beBytes 2 block.toNat ++ data) = crc.toNat) (hi : image.toNat = r.image) (hb : block.toNat = r.next) (hn : r.next < r.blocks)
    (hf : r.next < freedTo r + 256) :
    relayBlock k sender image block data crc d s = acceptBlock (heard d k sender) s r k data := by
  unfold relayBlock
  rw [hr]
  dsimp only
  rw [if_neg (by rw [hs]; simp), hc, hi, hb, decide_eq_true hn, decide_eq_true hf, beq_self_eq_true, beq_self_eq_true, beq_self_eq_true]
  rfl

theorem relayBlock_bad (sender : BitVec 64) (hr : d.fwu.relay = some r) (hs : r.src = some k.val)
    (hc : crc32Fsb (beBytes 2 block.toNat ++ data) ≠ crc.toNat) :
    relayBlock k sender image block data crc d s = (nakBlock (count (heard d k sender) CRS_BLK_BAD) r k, s) := by
  unfold relayBlock
  rw [hr]
  dsimp only
  rw [if_neg (by rw [hs]; simp), beq_false_of_ne hc]
  rfl

end Blocks

/-- RELAY_BLOCK of the relay in progress: a good block is taken in its order, a bad one counted. -/
theorem relay_blocks {k : Fin 2} {s : State} {r : Relay} (hr : s.dev.fwu.relay = some r) (hs : r.src = some k.val) (he : r.ended = none)
    (sender : BitVec 64) (image : Word) (block : BitVec 16) (data : List Byte) (crc : Word) :
    (crc32Fsb (beBytes 2 block.toNat ++ data) = crc.toNat → image.toNat = r.image → block.toNat = r.next → r.next < r.blocks →
        r.next < freedTo r + 256 → ∃ (d : Dev) (q : Relay), exec (.relayBlock k sender image block data crc) s = .next (s.withDev d)
          ∧ d.fwu.relay = some q ∧ q.next = r.next + 1
          ∧ q.crc = crcOver 32 0x04C11DB7 r.crc (bytesBits (data.take (min blockSize (r.len - r.next * blockSize)))))
      ∧ (crc32Fsb (beBytes 2 block.toNat ++ data) ≠ crc.toNat →
        ∃ (d : Dev) (q : Relay), exec (.relayBlock k sender image block data crc) s = .next (s.withDev d) ∧ d.fwu.relay = some q
          ∧ q.next = r.next ∧ q.crc = r.crc ∧ rdn d CRS_BLK_BAD = min (rdn s.dev CRS_BLK_BAD + 1) 0xFFFFFFFF) := by
  refine ⟨fun hc hi hb hn hf => ?_, fun hc => ?_⟩
  · obtain ⟨o, n, h, c, e⟩ := acceptBlock_spec (d := heard s.dev k sender) (s := s.mem) (data := data) hs he k
    rw [exec_relayBlock, relayBlock_taken sender hr hs hc hi hb hn hf, e]
    exact ⟨_, _, rfl, congrArg FwuHw.relay (fwu_relayShown _ _ _), rfl, rfl⟩
  · obtain ⟨o, t, e⟩ := nakBlock_spec (count (heard s.dev k sender) CRS_BLK_BAD) r k
    rw [exec_relayBlock, relayBlock_bad sender hr hs hc, e]
    exact ⟨_, _, rfl, rfl, rfl, rfl, count_heard s.dev k sender (.inr (by decide))⟩

/-! ### Timers and the end of a hop (R394) -/

section Timers

variable {d : Dev} {s : Mem} {r : Relay}

theorem relayAckTimer_acks {k : Nat} (hr : d.fwu.relay = some r) (hs : r.src = some k) (hn : r.sinceAck ≠ 0)
    (ht : r.acceptedAt + ticksPerMs ≤ d.elapsed) :
    relayAckTimer d = setRelay (sendAck d k r.image r.next ackAck) (some { r with sinceAck := 0 }) := by
  unfold relayAckTimer
  rw [hr]
  dsimp only
  rw [hs]
  exact if_pos ⟨hn, ht⟩

/-- The count and the event of a hop that aborts. -/
def hopAborted (d : Dev) : Dev := raiseCrs (count d CRS_RELAY_ABORT) crRelayAbort

theorem offCourse_relayAbort : offCourse CRS_RELAY_ABORT.ofs := ⟨.inr (by decide), by decide, by decide, by decide⟩

theorem rdn_hopAborted (d : Dev) : rdn (hopAborted d) CRS_RELAY_ABORT = min (rdn d CRS_RELAY_ABORT + 1) 0xFFFFFFFF := by
  rw [rdn, hopAborted, rd_raiseCrs _ _ offCourse_relayAbort, ← rdn, rdn_count_same]

/-- A word that is not FWU's status nor of its slots. -/
def offStore (o : Nat) : Prop := o < 0x120004c ∨ 0x1200070 ≤ o

theorem not_offStore_slot (d : Dev) : ¬ offStore (FWU_SLOTs_INFOk (inactiveSlot d) 0).ofs := by
  unfold offStore inactiveSlot
  simp only
  omega

theorem not_offStore_status : ¬ offStore FWU_STATUS.ofs := by
  unfold offStore
  decide

/-- A store that ends changes FWU's status and its slots alone. -/
theorem keepsWords_endStore (d : Dev) : keepsWords offStore d (endStore d) := by
  unfold endStore
  split
  · dsimp only
    split
    · exact (((keepsWords.refl _ d).of_regs (g := setRelay d _) rfl).setFlag not_offStore_status _).setFld (not_offStore_slot _) _
    · exact .refl _ d
  · exact .refl _ d

theorem dropUpstream_spec (d : Dev) (r : Relay) : (dropUpstream d r).fwu.relay = none
    ∧ rdn (dropUpstream d r) CRS_RELAY_ABORT = min (rdn d CRS_RELAY_ABORT + 1) 0xFFFFFFFF := by
  obtain ⟨o, e⟩ : ∃ o, dropUpstream d r = relayShown (hopAborted (endStore d)) o none := by
    unfold dropUpstream
    dsimp only
    split
    · next k _ =>
      obtain ⟨o, e⟩ := sendPdu_out (hopAborted (endStore d)) k tyAck (beBytes 4 r.image ++ beBytes 2 r.acked ++ beBytes 1 ackAbort)
      exact ⟨o, congrArg (fun g => showRelay (setRelay g none)) e⟩
    · exact ⟨(hopAborted (endStore d)).out, rfl⟩
  rw [e, (keepsWords_relayShown _ _ _).rdn offCourse_relayAbort.1, rdn_hopAborted, (keepsWords_endStore d).rdn (.inr (by decide)), fwu_relayShown]
  exact ⟨rfl, rfl⟩

theorem dropDownstream_spec {j : Nat} (hs : r.src = some j) (he : r.ended = none) : ∃ o n h,
    dropDownstream d s r = (relayShown (hopAborted d) o (some (relayMoved { r with dst := none } n h)), s) :=
  relayGo_of_open (d := setRelay (hopAborted d) (some { r with dst := none })) rfl (.inl (relayEnded_of_source hs he))

theorem relayStall_drops {k : Nat} (hr : d.fwu.relay = some r) (hs : r.src = some k) (he : r.ended = none)
    (ht : r.heardAt + 5 * ticksPerSec ≤ d.elapsed) : relayStall d = dropUpstream d r := by
  unfold relayStall
  rw [hr]
  dsimp only
  rw [hs, he, decide_eq_true ht]
  rfl

theorem relayResend_drops {j : Nat} (hr : d.fwu.relay = some r) (hd : r.dst = some j) (ht : r.advancedAt + ticksPerSec ≤ d.elapsed)
    (ha : r.acked < r.blocks) (h5 : 5 ≤ r.resends) : relayResend d s = dropDownstream (sendAck d j r.image r.acked ackAbort) s r := by
  unfold relayResend
  rw [hr]
  dsimp only
  rw [hd]
  dsimp only
  rw [if_pos ⟨ht, ha⟩, if_pos h5]

theorem relayResend_resends {j : Nat} (hr : d.fwu.relay = some r) (hd : r.dst = some j) (ht : r.advancedAt + ticksPerSec ≤ d.elapsed)
    (ha : r.acked < r.blocks) (h5 : r.resends < 5) : relayResend d s
      = relayGo (setRelay d (some { r with sent := r.acked, resends := r.resends + 1, advancedAt := d.elapsed })) s := by
  unfold relayResend
  rw [hr]
  dsimp only
  rw [hd]
  dsimp only
  rw [if_pos ⟨ht, ha⟩, if_neg (Nat.not_le.mpr h5)]

end Timers

/-- RELAY_ACK_TIMER, RELAY_STALL and RELAY_RESEND of a relay that is due. -/
theorem relay_times {k : Fin 2} {s : State} {r : Relay} (hr : s.dev.fwu.relay = some r) (hs : r.src = some k.val) (he : r.ended = none) :
    (r.sinceAck ≠ 0 → r.acceptedAt + ticksPerMs ≤ s.dev.elapsed →
        ∃ d : Dev, exec .relayAckTimer s = .next (s.withDev d) ∧ d.fwu.relay = some { r with sinceAck := 0 })
      ∧ (r.heardAt + 5 * ticksPerSec ≤ s.dev.elapsed → ∃ d : Dev, exec .relayStall s = .next (s.withDev d) ∧ d.fwu.relay = none
        ∧ rdn d CRS_RELAY_ABORT = min (rdn s.dev CRS_RELAY_ABORT + 1) 0xFFFFFFFF)
      ∧ (∀ j : Nat, r.dst = some j → r.advancedAt + ticksPerSec ≤ s.dev.elapsed → r.acked < r.blocks →
        (r.resends < 5 → ∃ (d : Dev) (q : Relay), exec .relayResend s = .next (s.withDev d) ∧ d.fwu.relay = some q
          ∧ q.resends = r.resends + 1 ∧ q.acked = r.acked ∧ q.dst = r.dst)
        ∧ (5 ≤ r.resends → ∃ (d : Dev) (q : Relay), exec .relayResend s = .next (s.withDev d) ∧ d.fwu.relay = some q ∧ q.dst = none
          ∧ q.next = r.next ∧ rdn d CRS_RELAY_ABORT = min (rdn s.dev CRS_RELAY_ABORT + 1) 0xFFFFFFFF)) := by
  refine ⟨fun hn ht => ?_, fun ht => ?_, fun j hd ht ha => ⟨fun h5 => ?_, fun h5 => ?_⟩⟩
  · rw [exec_relayAckTimer, relayAckTimer_acks hr hs hn ht]
    exact ⟨_, rfl, rfl⟩
  · rw [exec_relayStall, relayStall_drops hr hs he ht]
    exact ⟨_, rfl, dropUpstream_spec _ _⟩
  · obtain ⟨o, n, h, e⟩ := relayGo_of_open (s := s.mem)
      (d := setRelay s.dev (some { r with sent := r.acked, resends := r.resends + 1, advancedAt := s.dev.elapsed })) rfl
      (.inl (relayEnded_of_source hs he))
    rw [exec_relayResend, relayResend_resends hr hd ht ha h5, e]
    exact ⟨_, _, rfl, congrArg FwuHw.relay (fwu_relayShown _ _ _), rfl, rfl, rfl⟩
  · obtain ⟨o, e⟩ := sendPdu_out s.dev j tyAck (beBytes 4 r.image ++ beBytes 2 r.acked ++ beBytes 1 ackAbort)
    obtain ⟨o', n, h, e'⟩ := dropDownstream_spec (d := { s.dev with out := o }) (s := s.mem) hs he
    rw [exec_relayResend, relayResend_drops hr hd ht ha h5, sendAck, e, e']
    refine ⟨_, _, rfl, congrArg FwuHw.relay (fwu_relayShown _ _ _), rfl, rfl, ?_⟩
    exact ((keepsWords_relayShown _ _ _).rdn offCourse_relayAbort.1).trans (rdn_hopAborted _)

/-! ### Acknowledgements (R394) -/

section Acks

variable {k : Fin 2} {image : Word} {next : BitVec 16} {code : BitVec 8} {d : Dev} {s : Mem} {r : Relay}

theorem relayAck_upstream (sender : BitVec 64) (hr : d.fwu.relay = some r) (hi : image.toNat = r.image) (hs : r.src = some k.val)
    (hf : isFrozen d (courseMaster k) = false) : relayAck k sender image next 3 d s = (dropUpstream (heard d k sender) r, s) := by
  unfold relayAck
  rw [hf, if_neg (by decide)]
  dsimp only
  rw [fwu_heard, hr]
  dsimp only
  rw [if_neg (fun h => h hi.symm), if_pos hs]
  rfl

/-- The relay with an acknowledgement of n blocks taken. -/
def ackTaken (d : Dev) (r : Relay) (n : Nat) : Relay := if r.acked < n then { r with acked := n, advancedAt := d.elapsed, resends := 0 } else r

theorem ackTaken_keeps (d : Dev) (r : Relay) (n : Nat) : (ackTaken d r n).acked = max r.acked n ∧ (ackTaken d r n).src = r.src
    ∧ (ackTaken d r n).dst = r.dst ∧ (ackTaken d r n).ended = r.ended := by
  unfold ackTaken
  split
  · next h => exact ⟨(Nat.max_eq_right (Nat.le_of_lt h)).symm, rfl, rfl, rfl⟩
  · next h => exact ⟨(Nat.max_eq_left (Nat.not_lt.mp h)).symm, rfl, rfl, rfl⟩

theorem relayAck_downstream (sender : BitVec 64) (hr : d.fwu.relay = some r) (hi : image.toNat = r.image) (hs : r.src ≠ some k.val)
    (hd : r.dst = some k.val) (hc : code ≠ 3) (hf : isFrozen d (courseMaster k) = false) : ∃ n,
      relayAck k sender image next code d s
        = relayGo (setRelay (heard d k sender) (some { ackTaken d r (min next.toNat r.sent) with sent := n })) s := by
  have h3 : code.toNat ≠ ackAbort := fun h => hc (BitVec.eq_of_toNat_eq h)
  unfold relayAck
  rw [hf, if_neg (by decide)]
  dsimp only
  rw [fwu_heard, hr]
  dsimp only
  rw [if_neg (fun h => h hi.symm), if_neg hs, if_neg (fun h => h hd), if_neg h3]
  split
  · exact ⟨_, rfl⟩
  · exact ⟨(ackTaken d r (min next.toNat r.sent)).sent, rfl⟩

end Acks

/-- RELAY_ACK of the relay in progress: upstream aborts it, downstream advances it. -/
theorem relay_acks {k : Fin 2} {s : State} {r : Relay} (hr : s.dev.fwu.relay = some r) (hs : r.src = some k.val) (he : r.ended = none)
    (sender : BitVec 64) (image : Word) (next : BitVec 16) (code : BitVec 8) (hi : image.toNat = r.image) :
    (code = 3 → isFrozen s.dev (courseMaster k) = false → ∃ d : Dev, exec (.relayAck k sender image next code) s = .next (s.withDev d)
        ∧ d.fwu.relay = none ∧ rdn d CRS_RELAY_ABORT = min (rdn s.dev CRS_RELAY_ABORT + 1) 0xFFFFFFFF)
      ∧ ∀ j : Fin 2, j ≠ k → r.dst = some j.val → code ≠ 3 → isFrozen s.dev (courseMaster j) = false →
        ∃ (d : Dev) (q : Relay), exec (.relayAck j sender image next code) s = .next (s.withDev d) ∧ d.fwu.relay = some q
          ∧ q.acked = max r.acked (min next.toNat r.sent) ∧ q.dst = r.dst := by
  refine ⟨fun hc hf => ?_, fun j hj hd hc hf => ?_⟩
  · subst hc
    rw [exec_relayAck, relayAck_upstream sender hr hi hs hf]
    obtain ⟨h1, h2⟩ := dropUpstream_spec (heard s.dev k sender) r
    exact ⟨_, rfl, h1, by rw [h2, rdn_heard _ _ _ offCourse_relayAbort.1]⟩
  · have hne : r.src ≠ some j.val := fun h => hj (Fin.ext (Option.some.inj (h.symm.trans hs)))
    obtain ⟨ha, hs', hd', he'⟩ := ackTaken_keeps s.dev r (min next.toNat r.sent)
    obtain ⟨n, e⟩ := relayAck_downstream (s := s.mem) (next := next) sender hr hi hne hd hc hf
    obtain ⟨o, n', h, e'⟩ := relayGo_of_open (s := s.mem)
      (d := setRelay (heard s.dev j sender) (some { ackTaken s.dev r (min next.toNat r.sent) with sent := n })) rfl
      (.inl (relayEnded_of_source (hs'.trans hs) (he'.trans he)))
    rw [exec_relayAck, e, e']
    exact ⟨_, _, rfl, congrArg FwuHw.relay (fwu_relayShown _ _ _), ha, hd'⟩

/-! ### The store (R394, R395) -/

section Store

variable {d : Dev} {s : Mem} {r : Relay}

/-- The bytes of the next block of the image that are stored. -/
def storedBytes (d : Dev) (s : Mem) (r : Relay) : List Byte :=
  (blockData d s r r.programmed).take (min blockSize (r.len - r.programmed * blockSize))

/-- Where the next block is stored. -/
def storedAt (d : Dev) (r : Relay) : Nat := slotBase (inactiveSlot d) + r.programmed * blockSize

theorem blockProgrammed_good (hr : d.fwu.relay = some r) (hst : r.store = true) (hp : r.programmed < r.next) : blockProgrammed true d s
      = relayGo (setRelay d (some { r with programmed := r.programmed + 1, good := r.good && true }))
          (writeFlash s (storedAt d r) (storedBytes d s r)) := by
  unfold blockProgrammed
  rw [hr]
  dsimp only
  rw [if_pos ⟨hst, hp⟩]
  rfl

theorem blockProgrammed_failed (hr : d.fwu.relay = some r) (hst : r.store = true) (hp : r.programmed < r.next) : ∃ e t, blockProgrammed false d s
      = relayGo (setRelay e (some { r with programmed := r.programmed + 1, good := r.good && false })) t := by
  unfold blockProgrammed
  rw [hr]
  dsimp only
  rw [if_pos ⟨hst, hp⟩]
  exact ⟨_, _, rfl⟩

theorem relayEnd_ends {k : Fin 2} {image crc : Word} (sender : BitVec 64) (hr : d.fwu.relay = some r) (hs : r.src = some k.val)
    (hf : isFrozen d (courseMaster k) = false) (hi : r.image = image.toNat) (hn : r.next = r.blocks) : relayEnd k sender image crc d s
      = relayGo (setRelay (heard d k sender) (some { r with ended := some crc.toNat, heardAt := d.elapsed })) s := by
  unfold relayEnd
  rw [hf, if_neg (by decide)]
  dsimp only
  rw [fwu_heard, hr]
  exact if_pos ⟨hs, hi, hn⟩

end Store

/-- BLOCK_PROGRAMMED of a store with a block that waits. -/
theorem relay_programs {s : State} {r : Relay} {k : Nat} (hr : s.dev.fwu.relay = some r) (hs : r.src = some k) (he : r.ended = none)
    (hst : r.store = true) (hp : r.programmed < r.next) :
    (∀ data : List Byte, data = (blockData s.dev s.mem r r.programmed).take (min blockSize (r.len - r.programmed * blockSize)) →
        ∃ (t : State) (q : Relay), exec (.blockProgrammed true) s = .next t ∧ t.dev.fwu.relay = some q ∧ q.programmed = r.programmed + 1
          ∧ q.good = r.good ∧ readFlash t.mem (slotBase (inactiveSlot s.dev) + r.programmed * blockSize) data.length = data)
      ∧ ∃ (t : State) (q : Relay), exec (.blockProgrammed false) s = .next t ∧ t.dev.fwu.relay = some q ∧ q.programmed = r.programmed + 1
          ∧ q.good = false := by
  refine ⟨fun data hdata => ?_, ?_⟩
  · obtain ⟨o, n, h, e⟩ := relayGo_of_open (s := writeFlash s.mem (storedAt s.dev r) (storedBytes s.dev s.mem r))
      (d := setRelay s.dev (some { r with programmed := r.programmed + 1, good := r.good && true })) rfl (.inl (relayEnded_of_source hs he))
    rw [exec_blockProgrammed, blockProgrammed_good hr hst hp, e, hdata]
    exact ⟨_, _, rfl, congrArg FwuHw.relay (fwu_relayShown _ _ _), rfl, Bool.and_true _, readMem_writeMem_same rfl⟩
  · obtain ⟨e, t, h⟩ := blockProgrammed_failed (s := s.mem) hr hst hp
    obtain ⟨o, n, hh, e'⟩ := relayGo_of_open (s := t)
      (d := setRelay e (some { r with programmed := r.programmed + 1, good := r.good && false })) rfl (.inl (relayEnded_of_source hs he))
    rw [exec_blockProgrammed, h, e']
    exact ⟨_, _, rfl, congrArg FwuHw.relay (fwu_relayShown _ _ _), rfl, Bool.and_false _⟩

/-- RELAY_END of a store whose blocks are all programmed. -/
theorem relay_ends {k : Fin 2} {s : State} {r : Relay} (hr : s.dev.fwu.relay = some r) (hs : r.src = some k.val)
    (sender : BitVec 64) (image crc : Word) (hf : isFrozen s.dev (courseMaster k) = false) (hi : r.image = image.toNat) (hn : r.next = r.blocks)
    (hp : r.programmed = r.blocks) (hst : r.store = true) :
    (r.good = true → r.crc ^^^ 0xFFFFFFFF = crc.toNat → ∃ (t : State) (q : Seal), exec (.relayEnd k sender image crc) s = .next t
        ∧ sealOf t.mem (inactiveSlot s.dev) = some q ∧ q.image = image.toNat ∧ q.crc = crc.toNat ∧ q.activated = false ∧ q.rejected = false
        ∧ t.mem.dram = s.mem.dram ∧ t.mem.core = s.mem.core ∧ (r.dst = none → t.dev.fwu.relay = none))
      ∧ (r.good = false ∨ r.crc ^^^ 0xFFFFFFFF ≠ crc.toNat → ∃ d : Dev, exec (.relayEnd k sender image crc) s = .next (s.withDev d)
        ∧ rdn d FWU_STORE_FAIL = min (rdn s.dev FWU_STORE_FAIL + 1) 0xFFFFFFFF) := by
  obtain ⟨o, n, h, o', q, e, hq⟩ := relayGo_of_ended (s := s.mem)
    (d := setRelay (heard s.dev k sender) (some { r with ended := some crc.toNat, heardAt := s.dev.elapsed })) rfl hst rfl hp
  rw [exec_relayEnd, relayEnd_ends sender hr hs hf hi hn, e]
  generalize hd : ({ setRelay (heard s.dev k sender) (some { r with ended := some crc.toNat, heardAt := s.dev.elapsed }) with out := o } : Dev) = d
  have hwords : keepsWords offLinks s.dev d := by
    rw [← hd]
    exact (keepsWords_heard s.dev k sender).of_regs rfl
  have hslot : inactiveSlot d = inactiveSlot s.dev := by
    rw [inactiveSlot, inactiveSlot, runningSlot, runningSlot, hwords.fld (.inl (by decide))]
  have hcrc : imageCrc d s.mem (relayMoved { r with ended := some crc.toNat, heardAt := s.dev.elapsed } n h) = r.crc ^^^ 0xFFFFFFFF := by
    unfold imageCrc
    dsimp only [relayMoved]
    rw [hs]
  refine ⟨fun hg hc => ?_, fun hbad => ?_⟩
  · obtain ⟨p, hp, himg, hpc, hpa, hpr⟩ := sealOf_writeSeal s.mem (inactiveSlot s.dev) r.len image.isLt crc.isLt
    have hj := judgeStore_seals (d := d) (s := s.mem) (r := relayMoved { r with ended := some crc.toNat, heardAt := s.dev.elapsed } n h)
      ⟨hg, by rw [hcrc, hc]; rfl⟩
    rw [hcrc, hc, hslot] at hj
    rw [hj]
    refine ⟨_, p, rfl, ?_, himg, hpc, hpa, hpr, rfl, rfl, fun hdst => ?_⟩
    · rw [← hp, ← hi]
      rfl
    · exact (congrArg FwuHw.relay (fwu_relayShown _ _ _)).trans (hq hdst)
  · have hj := judgeStore_fails (d := d) (s := s.mem) (r := relayMoved { r with ended := some crc.toNat, heardAt := s.dev.elapsed } n h) (by
      rw [hcrc]
      rintro ⟨hg, hc⟩
      exact hbad.elim (fun hb => Bool.false_ne_true (hb.symm.trans hg)) (fun hb => hb hc.symm))
    rw [hj]
    exact ⟨_, rfl, ((keepsWords_relayShown _ _ _).rdn (.inl (by decide))).trans ((rdn_storeFailed d).trans (by rw [hwords.rdn (.inl (by decide))]))⟩

end Sys2Proof.Machine
end

section
/-!
PROOFS. The rescue channel, the commands of FWU_CTL, the preload and the host lock (O59).
-/

namespace Sys2Proof.Machine

theorem exec_rescueReq (k : Fin 2) (sender target : BitVec 64) (hops : BitVec 8) (write : Bool) (tag : BitVec 16) (ofs value : Word) (s : State) :
    exec (.rescueReq k sender target hops write tag ofs value) s
      = .next (s.after (rescueReq k sender target hops write tag ofs value s.dev s.mem)) := rfl

theorem exec_rescueResp (k : Fin 2) (sender target : BitVec 64) (hops : BitVec 8) (status : BitVec 8) (tag : BitVec 16) (ofs value : Word)
    (s : State) : exec (.rescueResp k sender target hops status tag ofs value) s
      = .next (s.withDev (rescueResp k sender target hops status tag ofs value s.dev)) := rfl

theorem exec_origGo (m : Master) (value : Word) (s : State) :
    exec (.origGo m value) s = .next (s.after (fwuCtl m (value ||| 0x10000000) s.dev s.mem)) := rfl

theorem exec_preload (m : Master) (value : Word) (s : State) :
    exec (.preload m value) s = .next (s.after (fwuCtl m (value ||| 0x40000000) s.dev s.mem)) := rfl

theorem exec_save (m : Master) (value : Word) (s : State) :
    exec (.save m value) s = .next (s.after (fwuCtl m (value ||| 0x20000000) s.dev s.mem)) := rfl

theorem exec_confirm (m : Master) (value : Word) (s : State) :
    exec (.confirm m value) s = .next (s.after (fwuCtl m (value ||| 0x80000000) s.dev s.mem)) := rfl

theorem exec_alive (m : Master) (value : Word) (s : State) :
    exec (.alive m value) s = .next (s.after (applyDue (fwuCtl m (value ||| 0x8000000) s.dev s.mem))) := rfl

theorem exec_preloadDone (s : State) : exec .preloadDone s = .next (s.after (preloadDone s.dev s.mem)) := rfl

theorem exec_hostLockWrite (m : Master) (value : Word) (s : State) :
    exec (.hostLockWrite m value) s = .next (s.withDev (hostLockWrite m value s.dev)) := rfl

theorem after_self (s : State) : s.after (s.dev, s.mem) = s := rfl

/-! ### The rescue channel (R408) -/

section Rescue

variable {k : Fin 2} {sender target : BitVec 64} {hops : BitVec 8} {write : Bool} {tag : BitVec 16} {ofs value : Word} {d : Dev} {s : Mem}

theorem forThis_heard (d : Dev) (k : Fin 2) (sender target : BitVec 64) : forThis (heard d k sender) target = forThis d target := by
  have h (q : Reg) (hq : offLinks q.ofs) : rdn (heard d k sender) q = rdn d q := rdn_heard d k sender hq
  rw [forThis, forThis, serialNumber, serialNumber, rdPair, rdPair, h _ (.inl (by decide)), h _ (.inl (by decide))]

theorem announces_heard (d : Dev) (k : Fin 2) (sender : BitVec 64) (x : Line) : announces (heard d k sender) x = announces d x := by
  have h : termState (heard d k sender) x = termState d x := (keepsWords_heard d k sender).fld (.inl (by cases x <;> decide))
  rw [announces, announces, h]

theorem rescueReq_refused (hf : isFrozen d (courseMaster k) = false) (hu : linkUp d k = true) (ht : forThis d target = true)
    (he : flag d CRS_CFG_RESCUE_EN = false) :
    rescueReq k sender target hops write tag ofs value d s = (answerRescue (heard d k sender) k sender 1 tag ofs value, s) := by
  have he' : flag (heard d k sender) CRS_CFG_RESCUE_EN = false := by rw [(keepsWords_heard d k sender).flag (.inl (by decide)), he]
  unfold rescueReq
  dsimp only
  rw [hu, if_neg (by decide), hf, if_neg (by decide), forThis_heard, ht, if_neg (by decide), he', if_pos (by decide)]

theorem rescueReq_frozen (hf : isFrozen d (courseMaster k) = false) (hu : linkUp d k = true) (ht : forThis d target = true)
    (he : flag d CRS_CFG_RESCUE_EN = true) (ha : announces d .a = true ∨ announces d .b = true) :
    rescueReq k sender target hops write tag ofs value d s = (freeze (heard d k sender) (courseMaster k) causeCourse ofs.toNat, s) := by
  have he' : flag (heard d k sender) CRS_CFG_RESCUE_EN = true := by rw [(keepsWords_heard d k sender).flag (.inl (by decide)), he]
  have hb : rescueBreach (heard d k sender) (courseMaster k) target write ofs = true := by
    rw [rescueBreach, forThis_heard, ht, he', announces_heard, announces_heard]
    obtain ha | ha := ha
    · rw [ha]
      rfl
    · rw [ha, Bool.or_true]
      rfl
  unfold rescueReq
  dsimp only
  rw [hu, if_neg (by decide), hf, if_neg (by decide), forThis_heard, ht, if_neg (by decide), he', if_neg (by decide), if_pos hb]

theorem rescueResp_heard (status : BitVec 8) (hf : isFrozen d (courseMaster k) = false) (hu : linkUp d k = true) (ht : forThis d target = true) :
    rescueResp k sender target hops status tag ofs value d = heard d k sender := by
  unfold rescueResp
  rw [hf, hu, if_neg (by decide)]
  dsimp only
  rw [forThis_heard, if_pos ht]

end Rescue

/-- RESCUE_REQ and RESCUE_RESP for this device. -/
theorem rescue_channel (k : Fin 2) (sender target : BitVec 64) (hops : BitVec 8) (tag : BitVec 16) (ofs value : Word) (s : State)
    (hf : isFrozen s.dev (courseMaster k) = false) (hu : linkUp s.dev k = true) (ht : forThis s.dev target = true) :
    (∀ write : Bool, flag s.dev CRS_CFG_RESCUE_EN = false → ∃ (d : Dev) (b : List Byte),
          exec (.rescueReq k sender target hops write tag ofs value) s = .next (s.withDev d) ∧ d.out = s.dev.out ++ [.course k b]
            ∧ ∀ m : Master, m < 0x80 → isFrozen d m = isFrozen s.dev m)
      ∧ (∀ write : Bool, flag s.dev CRS_CFG_RESCUE_EN = true → (announces s.dev .a = true ∨ announces s.dev .b = true) →
          ∃ d : Dev, exec (.rescueReq k sender target hops write tag ofs value) s = .next (s.withDev d) ∧ isFrozen d (courseMaster k) = true)
      ∧ ∀ status : BitVec 8, exec (.rescueResp k sender target hops status tag ofs value) s = .next (s.withDev (heard s.dev k sender)) := by
  refine ⟨fun write he => ?_, fun write he ha => ?_, fun status => ?_⟩
  · rw [exec_rescueReq, rescueReq_refused hf hu ht he, answerRescue, sendPdu, if_pos ((linkUp_heard s.dev k sender).trans hu)]
    exact ⟨_, _, rfl, rfl, fun m hm => isFrozen_heard s.dev k sender hm⟩
  · rw [exec_rescueReq, rescueReq_frozen hf hu ht he ha]
    exact ⟨_, rfl, isFrozen_freeze _ _ _ (show 0x6A + k.val ≤ 0x6B by omega)⟩
  · rw [exec_rescueResp, rescueResp_heard status hf hu ht]

/-! ### Writes of FWU_CTL (R409) -/

theorem getLsbD_of_masked {value mask : Word} (h : value &&& mask = 0) {i : Nat} (hi : mask.getLsbD i = true) : value.getLsbD i = false := by
  have hb : (value &&& mask).getLsbD i = false := by rw [h]; exact BitVec.getLsbD_zero
  rwa [BitVec.getLsbD_and, hi, Bool.and_true] at hb

section Ctl

variable {m : Master} {value : Word} {d : Dev} {s : Mem}

theorem fwuCtl_origin (ha : admits d m FWU_CTL.ofs = true) (h : value &&& 0xE8000000 = 0) :
    fwuCtl m (value ||| 0x10000000) d s = if m = 0 then startOrigin d s else (d, s) := by
  have hb (i : Nat) (hi : (0xE8000000 : Word).getLsbD i = true) : value.getLsbD i = false := getLsbD_of_masked h hi
  unfold fwuCtl
  simp only [BitVec.getLsbD_or, hb 31 (by decide), hb 30 (by decide), hb 29 (by decide), hb 27 (by decide), ha]
  simp

theorem fwuCtl_preload (ha : admits d m FWU_CTL.ofs = true) (h : value &&& 0xB8000000 = 0) :
    fwuCtl m (value ||| 0x40000000) d s = (startPreload d, s) := by
  have hb (i : Nat) (hi : (0xB8000000 : Word).getLsbD i = true) : value.getLsbD i = false := getLsbD_of_masked h hi
  unfold fwuCtl
  simp only [BitVec.getLsbD_or, hb 31 (by decide), hb 29 (by decide), hb 28 (by decide), hb 27 (by decide), ha]
  simp

theorem fwuCtl_save (ha : admits d m FWU_CTL.ofs = true) (h : value &&& 0xD8000000 = 0) :
    fwuCtl m (value ||| 0x20000000) d s = startSave d s := by
  have hb (i : Nat) (hi : (0xD8000000 : Word).getLsbD i = true) : value.getLsbD i = false := getLsbD_of_masked h hi
  unfold fwuCtl
  simp only [BitVec.getLsbD_or, hb 31 (by decide), hb 30 (by decide), hb 28 (by decide), hb 27 (by decide), ha]
  simp

theorem fwuCtl_confirm (ha : admits d m FWU_CTL.ofs = true) (h : value &&& 0x78000000 = 0) :
    fwuCtl m (value ||| 0x80000000) d s = (confirmImage d s m, s) := by
  have hb (i : Nat) (hi : (0x78000000 : Word).getLsbD i = true) : value.getLsbD i = false := getLsbD_of_masked h hi
  unfold fwuCtl
  simp only [BitVec.getLsbD_or, hb 30 (by decide), hb 29 (by decide), hb 28 (by decide), hb 27 (by decide), ha]
  simp

theorem fwuCtl_alive (ha : admits d m FWU_CTL.ofs = true) (h : value &&& 0xF0000000 = 0) : fwuCtl m (value ||| 0x8000000) d s
    = if 0x64 ≤ m ∧ m < 0x68 ∧ flag d FWU_STATUS_ACTIVATING = true ∧ d.fwu.actLoaded = true then actAlive d s else (d, s) := by
  have hb (i : Nat) (hi : (0xF0000000 : Word).getLsbD i = true) : value.getLsbD i = false := getLsbD_of_masked h hi
  unfold fwuCtl
  simp only [BitVec.getLsbD_or, hb 31 (by decide), hb 30 (by decide), hb 29 (by decide), hb 28 (by decide), ha]
  simp [and_assoc]

theorem ceilDiv_pos {n : Nat} (h : 0 < n) : 0 < ceilDiv n blockSize :=
  Nat.div_pos (by have hb : 0 < blockSize := by decide
                  omega) (by decide)

theorem startOrigin_begins (hr : d.fwu.relay = none) (hl : 0 < rdn d FWU_ORIG_LEN)
    (hf : (forwardLink d (fld d FWU_CFG_ORIG_DIR) (fld d CRS_CFG_HOPS)).isSome = true) :
    ∃ r, (startOrigin d s).1.fwu.relay = some r ∧ r.src = none ∧ r.len = rdn d FWU_ORIG_LEN ∧ r.blocks = ceilDiv r.len blockSize
      ∧ r.dst = some (fld d FWU_CFG_ORIG_DIR) := by
  have hdst : forwardLink d (fld d FWU_CFG_ORIG_DIR) (fld d CRS_CFG_HOPS) = some (fld d FWU_CFG_ORIG_DIR) := by
    rw [forwardLink] at hf ⊢
    split at hf
    · next h => rw [if_pos h]
    · exact nomatch hf
  obtain ⟨n, h, e⟩ := beginRelay_relay { d with freeCount := d.freeCount + 1 } s (Config.freeValue d.freeCount % 0x100000000)
    (rdn d FWU_ORIG_LEN) (ceilDiv (rdn d FWU_ORIG_LEN) blockSize) none (forwardLink d (fld d FWU_CFG_ORIG_DIR) (fld d CRS_CFG_HOPS))
    (fld d CRS_CFG_HOPS) true (flag d CRS_CFG_STORE && !storeBarred d) (.inr ⟨ceilDiv_pos hl, hf⟩)
  unfold startOrigin
  dsimp only
  rw [hr, if_neg (by decide)]
  exact ⟨_, e, rfl, rfl, rfl, hdst⟩

theorem startPreload_starts (hp : d.fwu.preloading = none) (ha : flag d FWU_STATUS_ACTIVATING = false) :
    startPreload d = setFlag (setFwu d (fun h => { h with preloading := some (inactiveSlot d) })) FWU_STATUS_PRELOADED false := by
  rw [startPreload, hp, ha]
  rfl

theorem startPreload_waits (h : d.fwu.preloading.isSome = true ∨ flag d FWU_STATUS_ACTIVATING = true) : startPreload d = d :=
  if_pos (Bool.or_eq_true_iff.mpr h)

/-! ### Records and the other memories (R405, R406) -/

/-- A step over the flash leaves the DRAM and the core memories. -/
def flashOnly (s t : Mem) : Prop := t.dram = s.dram ∧ t.core = s.core

theorem flashOnly.trans {s t u : Mem} (h : flashOnly s t) (h' : flashOnly t u) : flashOnly s u := ⟨h'.1.trans h.1, h'.2.trans h.2⟩

theorem flashOnly_foldl {α : Type} {f : Mem → α → Mem} (hf : ∀ s a, flashOnly s (f s a)) (l : List α) (s : Mem) : flashOnly s (l.foldl f s) := by
  induction l generalizing s with
  | nil => exact ⟨rfl, rfl⟩
  | cons a l ih => exact (hf s a).trans (ih _)

/-- The flash with the records in force of sector k copied to the head. -/
def recordsCopied (s : Mem) (k : Nat) : Mem :=
  ((sectorRecords s k).filter (fun r => inForce (allRecords s) r.kind r.inst == some r)).foldl
    (fun s r => putRecord s r.kind r.inst r.version (r.bytes.drop 16)) s

theorem compactOnce_some {k : Nat} (h : oldestSector s = some k) :
    compactOnce d s = (count d FWU_COMPACT, eraseFlash (recordsCopied s k) (sectorAt k) (sectorAt (k + 1))) := by
  unfold compactOnce
  rw [h]
  rfl

theorem flashOnly_putRecord (s : Mem) (kind inst version : Nat) (body : List Byte) : flashOnly s (putRecord s kind inst version body) :=
  ⟨rfl, rfl⟩

theorem flashOnly_recordsCopied (s : Mem) (k : Nat) : flashOnly s (recordsCopied s k) := by
  unfold recordsCopied
  exact flashOnly_foldl (fun t r => flashOnly_putRecord t _ _ _ _) _ s

theorem flashOnly_compactOnce (d : Dev) (s : Mem) : flashOnly s (compactOnce d s).2 := by
  cases h : oldestSector s with
  | none =>
    unfold compactOnce
    rw [h]
    exact ⟨rfl, rfl⟩
  | some k =>
    rw [compactOnce_some h]
    exact (flashOnly_recordsCopied s k).trans ⟨rfl, rfl⟩

theorem flashOnly_saveUnit (u : UnitRow) (d : Dev) (s : Mem) : flashOnly s (saveUnit u d s).2 := by
  unfold saveUnit appendRecord
  dsimp only
  split
  · exact (flashOnly_compactOnce d s).trans ⟨rfl, rfl⟩
  · exact ⟨rfl, rfl⟩

theorem flashOnly_saveUnits (l : List Nat) (r : Dev × Mem) :
    flashOnly r.2 (l.foldl (fun a u => saveUnit (unitAt u) a.1 a.2) r).2 := by
  induction l generalizing r with
  | nil => exact ⟨rfl, rfl⟩
  | cons u l ih => exact (flashOnly_saveUnit _ r.1 r.2).trans (ih _)

theorem startSave_halted (h : coresHalted d = true) : startSave d s = (setFwu d (fun h => { h with saveWait := true }), s) := if_pos h

theorem flashOnly_startSave (d : Dev) (s : Mem) : flashOnly s (startSave d s).2 := by
  unfold startSave saveAll
  split
  · exact ⟨rfl, rfl⟩
  · exact flashOnly_saveUnits _ (d, s)

/-! ### The rollback counter (R402) -/

theorem confirmImage_of_not_host (h : m ≠ 0) : confirmImage d s m = d := if_neg fun hc => h hc.1

theorem imgRollback_lt (i : Image) : imgRollback i < 2 ^ 7 := Nat.lt_of_le_of_lt (Nat.min_le_right _ _) (by decide)

/-- The counter stands, or rises to the image's value on function 0's word. -/
theorem rollback_confirmed (ha : flag d PWR_STATUS_PWR_ALT = false) (hr : flag d FWU_STATUS_RECOVERY = false) :
    fld (confirmImage d s 0) FWU_STATUS_ROLLBACK = max (fld d FWU_STATUS_ROLLBACK) (imgRollback (runningImage d s)) := by
  rw [confirmImage, ha, hr, if_pos (by decide)]
  dsimp only
  split
  · next h =>
    rw [Nat.max_eq_right (Nat.le_of_lt h)]
    exact (fld_setFld_same _ _ (by decide) (by decide)).trans (Nat.mod_eq_of_lt (imgRollback_lt _))
  · next h => exact (Nat.max_eq_left (Nat.not_lt.mp h)).symm

theorem rollback_never_falls (d : Dev) (s : Mem) (m : Master) : fld d FWU_STATUS_ROLLBACK ≤ fld (confirmImage d s m) FWU_STATUS_ROLLBACK := by
  by_cases h : m = 0 ∧ !flag d PWR_STATUS_PWR_ALT ∧ !flag d FWU_STATUS_RECOVERY
  · obtain ⟨rfl, ha, hr⟩ := h
    rw [rollback_confirmed (by simpa using ha) (by simpa using hr)]
    exact Nat.le_max_left _ _
  · rw [confirmImage, if_neg h]

theorem applyDue_not_due (h : d.fwu.recordsDue = false) : applyDue (d, s) = (d, s) := by
  rw [applyDue, h]
  rfl

end Ctl

/-- Admitted writes of FWU_CTL with one of its command bits (R393, R400 to R402, R405). -/
theorem fwu_commands (m : Master) (value : Word) (s : State) (ha : admits s.dev m FWU_CTL.ofs = true) :
    (value &&& 0xE8000000 = 0 →
        (m ≠ 0 → exec (.origGo m value) s = .next s)
        ∧ (m = 0 → s.dev.fwu.relay = none → 0 < rdn s.dev FWU_ORIG_LEN →
            (forwardLink s.dev (fld s.dev FWU_CFG_ORIG_DIR) (fld s.dev CRS_CFG_HOPS)).isSome = true →
            ∃ (t : State) (r : Relay), exec (.origGo m value) s = .next t ∧ t.dev.fwu.relay = some r ∧ r.src = none
              ∧ r.len = rdn s.dev FWU_ORIG_LEN ∧ r.blocks = ceilDiv r.len blockSize ∧ r.dst = some (fld s.dev FWU_CFG_ORIG_DIR)))
      ∧ (value &&& 0xB8000000 = 0 →
        (s.dev.fwu.preloading = none → flag s.dev FWU_STATUS_ACTIVATING = false → ∃ d : Dev, exec (.preload m value) s = .next (s.withDev d)
          ∧ d.fwu.preloading = some (inactiveSlot s.dev) ∧ flag d FWU_STATUS_PRELOADED = false)
        ∧ (s.dev.fwu.preloading.isSome = true ∨ flag s.dev FWU_STATUS_ACTIVATING = true → exec (.preload m value) s = .next s))
      ∧ (value &&& 0xD8000000 = 0 →
        (coresHalted s.dev = true → ∃ d : Dev, exec (.save m value) s = .next (s.withDev d) ∧ d.fwu.saveWait = true ∧ d.regs = s.dev.regs)
        ∧ ∃ t : State, exec (.save m value) s = .next t ∧ t.mem.dram = s.mem.dram ∧ t.mem.core = s.mem.core)
      ∧ (value &&& 0x78000000 = 0 → ∃ d : Dev, exec (.confirm m value) s = .next (s.withDev d)
        ∧ fld s.dev FWU_STATUS_ROLLBACK ≤ fld d FWU_STATUS_ROLLBACK
        ∧ (m ≠ 0 → d = s.dev)
        ∧ (m = 0 → flag s.dev PWR_STATUS_PWR_ALT = false → flag s.dev FWU_STATUS_RECOVERY = false →
            fld d FWU_STATUS_ROLLBACK = max (fld s.dev FWU_STATUS_ROLLBACK) (imgRollback (runningImage s.dev s.mem))))
      ∧ (value &&& 0xF0000000 = 0 →
        (flag s.dev FWU_STATUS_ACTIVATING = true → s.dev.fwu.actLoaded = true → 0x64 ≤ m → m < 0x68 → ∃ t : State, exec (.alive m value) s = .next t
          ∧ (t.dev, t.mem) = applyDue (actAlive s.dev s.mem))
        ∧ ((flag s.dev FWU_STATUS_ACTIVATING = false ∨ m < 0x64) → s.dev.fwu.recordsDue = false → exec (.alive m value) s = .next s)) := by
  refine ⟨fun h => ⟨fun hm => ?_, fun hm hr hl hf => ?_⟩, fun h => ⟨fun hp hc => ?_, fun hw => ?_⟩, fun h => ⟨fun hc => ?_, ?_⟩, fun h => ?_,
    fun h => ⟨fun hc hl h1 h2 => ?_, fun hc hd => ?_⟩⟩
  · rw [exec_origGo, fwuCtl_origin ha h, if_neg hm, after_self]
  · rw [exec_origGo, fwuCtl_origin ha h, if_pos hm]
    obtain ⟨r, hrel⟩ := startOrigin_begins (s := s.mem) hr hl hf
    exact ⟨_, r, rfl, hrel⟩
  · rw [exec_preload, fwuCtl_preload ha h, startPreload_starts hp hc]
    exact ⟨_, rfl, rfl, flag_setFlag_same _ _ (by decide) (by decide)⟩
  · rw [exec_preload, fwuCtl_preload ha h, startPreload_waits hw, after_self]
  · rw [exec_save, fwuCtl_save ha h, startSave_halted hc]
    exact ⟨_, rfl, rfl, rfl⟩
  · rw [exec_save, fwuCtl_save ha h]
    exact ⟨_, rfl, flashOnly_startSave s.dev s.mem⟩
  · rw [exec_confirm, fwuCtl_confirm ha h]
    exact ⟨_, rfl, rollback_never_falls _ _ _, confirmImage_of_not_host, fun hm => hm ▸ rollback_confirmed⟩
  · rw [exec_alive, fwuCtl_alive ha h, if_pos ⟨h1, h2, hc, hl⟩]
    exact ⟨_, rfl, rfl⟩
  · rw [exec_alive, fwuCtl_alive ha h, if_neg, applyDue_not_due hd, after_self]
    rintro ⟨h1, -, hc', -⟩
    obtain hc | hc := hc
    · exact Bool.false_ne_true (hc.symm.trans hc')
    · exact Nat.not_le.mpr hc h1

/-! ### The preload (R400) -/

section Preload

variable {d : Dev} {s : Mem} {slot : Nat}

theorem preloadDone_unsealed (hp : d.fwu.preloading = some slot) (hq : sealOf s slot = none) :
    preloadDone d s = (setFwu d (fun h => { h with preloading := none }), s) := by
  unfold preloadDone
  rw [hp]
  dsimp only
  rw [hq]

/-- The DRAM with the slot's image and the running core section copied. -/
def imageCopied (d : Dev) (s : Mem) (slot n : Nat) : Mem :=
  writeDram (writeDram s (fwuArea d) (readFlash s (slotBase slot) n)) (fwuCoreCopy d) (runningImage d s 1024 (imgCoreLen (runningImage d s)))

theorem preloadDone_sealed {q : Seal} (hp : d.fwu.preloading = some slot) (hq : sealOf s slot = some q) : preloadDone d s
    = (if crc32Fsb (readFlash s (slotBase slot) (min q.len maxImage)) = q.crc then
        setFlag (setFwu d (fun h => { h with preloading := none, preSlot := slot })) FWU_STATUS_PRELOADED true
      else setFwu d (fun h => { h with preloading := none }), imageCopied d s slot (min q.len maxImage)) := by
  unfold preloadDone
  rw [hp]
  dsimp only
  rw [hq]
  dsimp only
  split
  · rfl
  · rfl

theorem readDram_imageCopied (d : Dev) (s : Mem) (slot : Nat) {n : Nat} (hn : n ≤ maxImage) :
    readDram (imageCopied d s slot n) (fwuArea d) n = readFlash s (slotBase slot) n := by
  rw [imageCopied, readDram_writeDram_apart _ (.inl ?_), readDram_writeDram_same _ _ (length_readFlash _ _ _)]
  rw [fwuCoreCopy]
  have hm : maxImage ≤ 0x3000000 := by decide
  omega

end Preload

/-- PRELOAD_DONE of a preload in progress. -/
theorem preload_done (s : State) (slot : Nat) (hp : s.dev.fwu.preloading = some slot) :
    (sealOf s.mem slot = none → ∃ d : Dev, exec .preloadDone s = .next (s.withDev d) ∧ d.fwu.preloading = none ∧ d.regs = s.dev.regs)
      ∧ (∀ (q : Seal) (n : Nat), sealOf s.mem slot = some q → n = min q.len maxImage → ∃ t : State, exec .preloadDone s = .next t
        ∧ t.dev.fwu.preloading = none ∧ t.mem.flash = s.mem.flash ∧ readDram t.mem (fwuArea s.dev) n = readFlash s.mem (slotBase slot) n
        ∧ (crc32Fsb (readFlash s.mem (slotBase slot) n) = q.crc → flag t.dev FWU_STATUS_PRELOADED = true ∧ t.dev.fwu.preSlot = slot)
        ∧ (crc32Fsb (readFlash s.mem (slotBase slot) n) ≠ q.crc → t.dev.regs = s.dev.regs)) := by
  refine ⟨fun hq => ?_, fun q n hq hn => ⟨_, exec_preloadDone s, ?_⟩⟩
  · rw [exec_preloadDone, preloadDone_unsealed hp hq]
    exact ⟨_, rfl, rfl, rfl⟩
  · subst hn
    rw [preloadDone_sealed hp hq]
    refine ⟨?_, rfl, readDram_imageCopied _ _ _ (Nat.min_le_right _ _), fun hc => ?_, fun hc => ?_⟩
    · show FwuHw.preloading (Dev.fwu (ite _ _ _)) = none
      split <;> rfl
    · rw [if_pos hc]
      exact ⟨flag_setFlag_same _ _ (by decide) (by decide), rfl⟩
    · rw [if_neg hc]
      rfl

/-! ### The host lock (R403) -/

section HostLock

variable (d : Dev) (m : Master) (value : Word)

theorem storeAt_fwuCfg : ∃ e a, storeAt d m FWU_CFG.ofs value
    = wr e FWU_CFG (putBits (putBits (putBits (rd d FWU_CFG) 31 31 (getBits value 31 31)) 30 30 (getBits value 30 30)) 4 0 a) := ⟨_, _, rfl⟩

theorem getBits_bit31 (w : Word) : getBits w 31 31 = boolBit (w.getLsbD 31) := by
  simp only [getBits, boolBit, BitVec.getLsbD, Nat.testBit_eq_decide_div_mod_eq, BitVec.extractLsb'_toNat, Nat.shiftRight_eq_div_pow,
    decide_eq_true_eq]
  split <;> omega

theorem hostLock_storeAt : hostLock (storeAt d m FWU_CFG.ofs value) = value.getLsbD 31 := by
  obtain ⟨e, a, h⟩ := storeAt_fwuCfg d m value
  rw [h, hostLock, flag, fld, rd_wr_same, getBits_putBits_other _ _ (.inr (by decide)) (by decide) (by decide),
    getBits_putBits_other _ _ (.inr (by decide)) (by decide) (by decide), getBits_putBits_same _ _ (by decide) (by decide), getBits_bit31]
  cases value.getLsbD 31 <;> rfl

theorem hostLock_lockChanged : hostLock (lockChanged d) = hostLock d := by
  have hev : rd (raiseFwu d fwLock) FWU_CFG = rd d FWU_CFG := rd_raiseEvt_other d evFWU fwLock (by decide) (by decide) (by decide)
  unfold lockChanged
  dsimp only
  split
  · exact flag_congr _ (((keepsWords_endStore _).rd (q := FWU_CFG) (.inl (by decide))).trans hev)
  · exact flag_congr _ hev

/-- The word that a master's write stores: HOST_LOCK is function 0's alone. -/
theorem lockBit_written (was : Bool) :
    (if m = 0 then value else putBits value 31 31 (boolBit was)).getLsbD 31 = if m = 0 then value.getLsbD 31 else was := by
  split
  · rfl
  · have h : getBits (putBits value 31 31 (boolBit was)) 31 31 = boolBit was := by
      rw [getBits_putBits_same _ _ (by decide) (by decide)]
      cases was <;> rfl
    rw [getBits_bit31] at h
    revert h
    cases (putBits value 31 31 (boolBit was)).getLsbD 31 <;> cases was <;> simp [boolBit]

theorem hostLock_hostLockWrite (h : admits d m FWU_CFG.ofs = true) :
    hostLock (hostLockWrite m value d) = if m = 0 then value.getLsbD 31 else hostLock d := by
  unfold hostLockWrite
  rw [guarded_admits _ h]
  dsimp only
  rw [apply_ite hostLock, hostLock_lockChanged, ite_self, hostLock_storeAt, lockBit_written]

end HostLock

end Sys2Proof.Machine
end

section
/-!
PROOFS. The end of an activation and the compaction of the records; O59.
-/

namespace Sys2Proof.Machine

theorem exec_actCoresLoaded (s : State) : exec .actCoresLoaded s = .next (s.after (actCoresLoaded s.dev s.mem)) := rfl

theorem exec_actCheckDone (s : State) : exec .actCheckDone s = .next (s.after (actCheckDone s.dev s.mem)) := rfl

theorem exec_noAlive (s : State) : exec .noAlive s = .next (s.after (noAlive s.dev s.mem)) := rfl

theorem exec_recordCompact (s : State) : exec .recordCompact s = .next (s.after (recordCompact s.dev s.mem)) := rfl

/-! ### The end of an activation (R401) -/

section Activation

variable {d : Dev} {s : Mem}

theorem actCoresLoaded_loads (ha : flag d FWU_STATUS_ACTIVATING = true) (hl : d.fwu.actLoaded = false)
    (hf : imageFault d (dramImage s (fwuArea d)) true = none) :
    actCoresLoaded d s = (setFwu d (fun h => { h with actLoaded := true }), loadCores (dramImage s (fwuArea d)) s) := by
  rw [actCoresLoaded, ha, hl, hf]
  rfl

theorem actCoresLoaded_faulty {c : Nat} (hf : imageFault d (dramImage s (fwuArea d)) true = some c) : actCoresLoaded d s = (d, s) := by
  rw [actCoresLoaded, hf, if_neg]
  simp

theorem actCheckDone_sound (hf : imageFault d (dramImage s (fwuArea d)) true = none) : actCheckDone d s = (d, s) := by
  unfold actCheckDone
  rw [hf]
  exact ite_self _

/-- The image's core section lies at the start of the core memories once it is loaded. -/
theorem readCore_loadCores (b n : Nat) (s : Mem) (hn : n = imgCoreLen (dramImage s b)) :
    readCore (loadCores (dramImage s b) s) 0 n = dramImage s b 1024 n := by
  subst hn
  exact readMem_writeMem_same (length_readMem _ _ _ _)

/-- The device as an activation is over with an outcome. -/
def activationOver (outcome : Nat) (d : Dev) : Dev :=
  { resumeWdt (setFld (setFlag (setFlag d FWU_STATUS_ACTIVATING false) FWU_STATUS_PRELOADED false) FWU_STATUS_LAST_ACT outcome) with
    corePause := false }

theorem endPause_of_nothingWaits (s : Mem) (h : nothingWaits d) : endPause d s = ({ d with corePause := false }, s) := by
  unfold endPause
  cases hp : d.corePause with
  | false =>
    rw [if_pos (by decide), ← hp]
  | true =>
    rw [if_neg (by decide)]
    exact coresResume_of_nothingWaits s h

theorem heldReset_none (s : Mem) (h : d.fwu.coreHeld = none) : heldReset d s = (d, s) := by
  unfold heldReset
  rw [h]

theorem endActivation_over (outcome : Nat) (s : Mem) (h : nothingWaits d) (hc : d.fwu.coreHeld = none) :
    endActivation outcome d s = (activationOver outcome d, s) := by
  unfold endActivation
  dsimp only
  rw [endPause_of_nothingWaits s (by exact h)]
  exact heldReset_none (d := activationOver outcome d) s hc

theorem flag_activationOver (outcome : Nat) (d : Dev) : flag (activationOver outcome d) FWU_STATUS_ACTIVATING = false := by
  rw [activationOver]
  show flag (setFld (setFlag (setFlag d FWU_STATUS_ACTIVATING false) FWU_STATUS_PRELOADED false) FWU_STATUS_LAST_ACT outcome) FWU_STATUS_ACTIVATING = false
  rw [flag_setFld_apart _ _ (by simp [apart]), flag_setFlag_apart _ _ (by simp [apart]), flag_setFlag_same _ _ (by decide) (by decide)]

theorem lastAct_activationOver {outcome : Nat} (h : outcome < 8) (d : Dev) : fld (activationOver outcome d) FWU_STATUS_LAST_ACT = outcome :=
  (fld_setFld_same _ _ (by decide) (by decide)).trans (Nat.mod_eq_of_lt h)

theorem check_activationOver (outcome : Nat) (d : Dev) : fld (activationOver outcome d) FWU_STATUS_CHECK = fld d FWU_STATUS_CHECK := by
  show fld (setFld (setFlag (setFlag d FWU_STATUS_ACTIVATING false) FWU_STATUS_PRELOADED false) FWU_STATUS_LAST_ACT outcome) FWU_STATUS_CHECK = _
  rw [fld_setFld_apart _ _ (by simp [apart]), fld_setFlag_apart _ _ (by simp [apart]), fld_setFlag_apart _ _ (by simp [apart])]

theorem rd_activationOver (outcome : Nat) (d : Dev) {q : Reg} (h : q.ofs ≠ FWU_STATUS.ofs) : rd (activationOver outcome d) q = rd d q := by
  show rd (setFld (setFlag (setFlag d FWU_STATUS_ACTIVATING false) FWU_STATUS_PRELOADED false) FWU_STATUS_LAST_ACT outcome) q = _
  rw [rd_setFld_other _ _ h, rd_setFlag_other _ _ h, rd_setFlag_other _ _ h]

/-! ### The rejected slot (R398, R409) -/

/-- A word that is not one of the slots'. -/
def offSlots (o : Nat) : Prop := o < 0x1200050 ∨ 0x1200070 ≤ o

theorem showSlot_touches (d : Dev) (s : Mem) {slot : Nat} (h : slot < 2) : keepsState d (showSlot d s slot) ∧ keepsWords offSlots d (showSlot d s slot) := by
  have hw (k : Nat) (hk : k < 4) : ¬ offSlots (FWU_SLOTs_INFOk slot k).ofs := by
    unfold offSlots
    simp only
    omega
  unfold showSlot
  split
  · exact ⟨(keepsState.refl d).setFld _ _, (keepsWords.refl _ d).setFld (hw 0 (by decide)) _⟩
  · dsimp only
    exact ⟨((((keepsState.refl d).wrn _ _).wrn _ _).wrn _ _).wrn _ _,
      ((((keepsWords.refl _ d).wr (hw 0 (by decide)) _).wr (hw 1 (by decide)) _).wr (hw 2 (by decide)) _).wr (hw 3 (by decide)) _⟩

theorem keepsState.nothingWaits {e : Dev} (h : keepsState d e) (hw : nothingWaits d) : nothingWaits e := by
  obtain ⟨r, p, o, n, b, rfl⟩ := h
  exact hw

theorem keepsState.fwu {e : Dev} (h : keepsState d e) : e.fwu = d.fwu := by
  obtain ⟨r, p, o, n, b, rfl⟩ := h
  rfl

theorem imageFault_lt {i : Image} {b : Bool} {c : Nat} (h : imageFault d i b = some c) : c < 16 := by
  unfold imageFault at h
  split at h
  · exact Option.some.inj h ▸ by decide
  · split at h
    · exact Option.some.inj h ▸ by decide
    · split at h
      · exact Option.some.inj h ▸ by decide
      · split at h
        · exact Option.some.inj h ▸ by decide
        · split at h
          · exact Option.some.inj h ▸ by decide
          · exact nomatch h

/-- The device whose slot was rejected with cause c, as its seal reads in s. -/
def slotRejected (d : Dev) (s : Mem) (slot c : Nat) : Dev := showSlot (setFld d FWU_STATUS_CHECK c) s slot

theorem slotRejected_state (d : Dev) (s : Mem) {slot : Nat} (hs : slot < 2) (c : Nat) : keepsState d (slotRejected d s slot c) :=
  ((keepsState.refl d).setFld _ _).trans (showSlot_touches (setFld d FWU_STATUS_CHECK c) s hs).1

theorem check_slotRejected (d : Dev) (s : Mem) {slot c : Nat} (hs : slot < 2) (hc : c < 16) : fld (slotRejected d s slot c) FWU_STATUS_CHECK = c := by
  rw [slotRejected, (showSlot_touches _ s hs).2.fld (.inl (by decide))]
  exact (fld_setFld_same _ _ (by decide) (by decide)).trans (Nat.mod_eq_of_lt hc)

theorem rdn_slotRejected (d : Dev) (s : Mem) {slot : Nat} (hs : slot < 2) (c : Nat) {q : Reg} (h : offSlots q.ofs) (h' : q.ofs ≠ FWU_STATUS.ofs) :
    rdn (slotRejected d s slot c) q = rdn d q := by
  rw [slotRejected, (showSlot_touches _ s hs).2.rdn h, rdn, rd_setFld_other _ _ h', ← rdn]

theorem rd_raiseFwu (d : Dev) (b : Nat) {q : Reg} (h : 0x1200000 ≤ q.ofs) (h' : q.ofs ≠ FWU_EVT.ofs) : rd (raiseFwu d b) q = rd d q :=
  rd_raiseEvt_other d evFWU b h' (by simp only; omega) (by simp only; omega)

theorem actCheckDone_rejects {c : Nat} (ha : flag d FWU_STATUS_ACTIVATING = true) (hl : d.fwu.actLoaded = false)
    (hf : imageFault d (dramImage s (fwuArea d)) true = some c) : ∃ m, actCheckDone d s
      = endActivation 3 (raiseFwu (count (slotRejected d m d.fwu.actSlot c) FWU_CHECK_FAIL) fwActFail) m := by
  unfold actCheckDone
  rw [ha, hl, if_pos (by decide), hf]
  exact ⟨_, rfl⟩

theorem noAlive_rejects (ha : flag d FWU_STATUS_ACTIVATING = true)
    (ht : d.fwu.actFrom + (25 + fld d FWU_CFG_ALIVE_MS) * ticksPerMs ≤ d.elapsed) : ∃ m, noAlive d s
      = endActivation 4 (raiseFwu (slotRejected d m d.fwu.actSlot 6) fwActFail) m := by
  unfold noAlive
  rw [ha, decide_eq_true ht, if_pos (by decide)]
  exact ⟨_, rfl⟩

theorem noAlive_waits (ht : d.elapsed < d.fwu.actFrom + (25 + fld d FWU_CFG_ALIVE_MS) * ticksPerMs) : noAlive d s = (d, s) := by
  unfold noAlive
  rw [decide_eq_false (Nat.not_le.mpr ht), Bool.and_false, if_neg (by decide)]

end Activation

/-- The commands of an activation. -/
theorem activation_ends (s : State) (ha : flag s.dev FWU_STATUS_ACTIVATING = true) :
    (s.dev.fwu.actLoaded = false → ∃ (t : State) (n : Nat), exec .actCoresLoaded s = .next t
        ∧ n = imgCoreLen (dramImage s.mem (fwuArea s.dev))
        ∧ match imageFault s.dev (dramImage s.mem (fwuArea s.dev)) true with
          | some _ => t = s
          | none => exec .actCheckDone s = .next s ∧ t.dev.fwu.actLoaded = true
              ∧ readCore t.mem 0 n = dramImage s.mem (fwuArea s.dev) 1024 n)
      ∧ (s.dev.rngHw.a.waiting = [] → s.dev.rngHw.b.waiting = [] → s.dev.fwu.saveWait = false → s.dev.frzReport = false →
        s.dev.fwu.coreHeld = none → s.dev.fwu.actSlot < 2 →
        (∀ c : Nat, s.dev.fwu.actLoaded = false → imageFault s.dev (dramImage s.mem (fwuArea s.dev)) true = some c → ∃ t : State,
          exec .actCheckDone s = .next t ∧ t.dev.corePause = false ∧ flag t.dev FWU_STATUS_ACTIVATING = false
            ∧ fld t.dev FWU_STATUS_LAST_ACT = 3 ∧ fld t.dev FWU_STATUS_CHECK = c
            ∧ rdn t.dev FWU_CHECK_FAIL = min (rdn s.dev FWU_CHECK_FAIL + 1) 0xFFFFFFFF)
        ∧ (s.dev.fwu.actFrom + (25 + fld s.dev FWU_CFG_ALIVE_MS) * ticksPerMs ≤ s.dev.elapsed → ∃ t : State, exec .noAlive s = .next t
          ∧ t.dev.corePause = false ∧ flag t.dev FWU_STATUS_ACTIVATING = false ∧ fld t.dev FWU_STATUS_LAST_ACT = 4
          ∧ fld t.dev FWU_STATUS_CHECK = 6))
      ∧ (s.dev.elapsed < s.dev.fwu.actFrom + (25 + fld s.dev FWU_CFG_ALIVE_MS) * ticksPerMs → exec .noAlive s = .next s) := by
  refine ⟨fun hl => ⟨_, _, exec_actCoresLoaded s, rfl, ?_⟩, fun h1 h2 h3 h4 hc hs => ?_, fun ht => ?_⟩
  · cases hf : imageFault s.dev (dramImage s.mem (fwuArea s.dev)) true with
    | some c =>
      dsimp only
      rw [actCoresLoaded_faulty hf, after_self]
    | none =>
      dsimp only
      rw [exec_actCheckDone, actCheckDone_sound hf, after_self, actCoresLoaded_loads ha hl hf]
      exact ⟨rfl, rfl, readCore_loadCores _ _ _ rfl⟩
  · have hwait : nothingWaits s.dev := ⟨h1, h2, h4, h3⟩
    have hrej (m : Mem) (c : Nat) := slotRejected_state s.dev m hs c
    refine ⟨fun c hl hf => ?_, fun ht => ?_⟩
    · obtain ⟨m, e⟩ := actCheckDone_rejects ha hl hf
      have hst := ((hrej m c).count FWU_CHECK_FAIL).raiseEvt evFWU fwActFail
      rw [exec_actCheckDone, e, raiseFwu, endActivation_over 3 m (hst.nothingWaits hwait) (by rw [hst.fwu, hc])]
      refine ⟨_, rfl, rfl, flag_activationOver _ _, lastAct_activationOver (by decide) _, ?_, ?_⟩
      · refine (check_activationOver _ _).trans ((fld_congr _ (rd_raiseFwu _ _ (by decide) (by decide))).trans ?_)
        rw [fld_count_other _ (by decide), check_slotRejected _ _ hs (imageFault_lt hf)]
      · refine (congrArg BitVec.toNat ((rd_activationOver _ _ (by decide)).trans (rd_raiseFwu _ _ (by decide) (by decide)))).trans ?_
        rw [← rdn, rdn_count_same, rdn_slotRejected _ _ hs _ (.inr (by decide)) (by decide)]
    · obtain ⟨m, e⟩ := noAlive_rejects (s := s.mem) ha ht
      have hst := (hrej m 6).raiseEvt evFWU fwActFail
      rw [exec_noAlive, e, raiseFwu, endActivation_over 4 m (hst.nothingWaits hwait) (by rw [hst.fwu, hc])]
      refine ⟨_, rfl, rfl, flag_activationOver _ _, lastAct_activationOver (by decide) _, ?_⟩
      refine (check_activationOver _ _).trans ((fld_congr _ (rd_raiseFwu _ _ (by decide) (by decide))).trans ?_)
      exact check_slotRejected _ _ hs (by decide)
  · rw [exec_noAlive, noAlive_waits ht, after_self]

/-! ### Compaction (R406) -/

theorem sectorErased_eraseFlash (s : Mem) (k : Nat) : sectorErased (eraseFlash s (sectorAt k) (sectorAt (k + 1))) k = true := by
  have h : ∀ e ∈ eraseMem s.flash (sectorAt k) (sectorAt (k + 1)), ¬ (sectorAt k ≤ e.1 ∧ e.1 < sectorAt (k + 1)) := fun e he => by
    have hk := (List.mem_filter.mp he).2
    simp only [Bool.or_eq_true, decide_eq_true_eq] at hk
    omega
  unfold sectorErased eraseFlash
  rw [Bool.not_eq_true', List.any_eq_false]
  intro e he
  have := h e he
  simpa using this

theorem record_compacts (s : State) :
    (needsCompact s.mem = false ∨ coresHalted s.dev = true → exec .recordCompact s = .next s)
      ∧ (∀ k : Nat, needsCompact s.mem = true → coresHalted s.dev = false → oldestSector s.mem = some k → ∃ t : State, exec .recordCompact s = .next t
        ∧ t.dev = count s.dev FWU_COMPACT ∧ sectorErased t.mem k = true ∧ t.mem.dram = s.mem.dram ∧ t.mem.core = s.mem.core) := by
  refine ⟨fun h => ?_, fun k hn hc ho => ?_⟩
  · have hr : recordCompact s.dev s.mem = (s.dev, s.mem) := by
      rw [recordCompact, if_neg]
      obtain h | h := h <;> simp [h]
    rw [exec_recordCompact, hr, after_self]
  · have hr : recordCompact s.dev s.mem
        = (count s.dev FWU_COMPACT, eraseFlash (recordsCopied s.mem k) (sectorAt k) (sectorAt (k + 1))) := by
      rw [recordCompact, hn, hc, if_pos (by decide), compactOnce_some ho]
    rw [exec_recordCompact, hr]
    exact ⟨_, rfl, rfl, sectorErased_eraseFlash _ _, flashOnly_recordsCopied s.mem k⟩

/-- Settles O59: the commands of the Course and the relay, of the store, of FWU_CTL and of an activation, each by the equation of its
command in the case the clause names. -/
theorem firmwareAndCourse : Obligations.FirmwareAndCourse := by
  unfold Obligations.FirmwareAndCourse
  refine ⟨fun k s => ?_, relay_starts, fun k s r hr hs he => ?_, rescue_channel, fwu_commands, preload_done, fun m value s ha => ?_,
    activation_ends, record_compacts⟩
  · obtain ⟨hup, hdown, hstay⟩ := course_links k s
    exact ⟨hup, hdown, hstay, course_pdus k s, exec_otherCourseFrame k s⟩
  · obtain ⟨hack, hstall, hresend⟩ := relay_times hr hs he
    exact ⟨relay_blocks hr hs he, hack, hstall, hresend, relay_acks hr hs he, relay_programs hr hs he, relay_ends hr hs⟩
  · exact ⟨_, exec_hostLockWrite m value s, hostLock_hostLockWrite s.dev m value ha⟩

end Sys2Proof.Machine
end

section
/-!
PROOFS. COLD and SYSTEM resets (R423, R424; O60).
-/

namespace Sys2Proof.Machine

theorem exec_porst (s : State) : exec .porst s = .next (s.after (coldDev s.dev rsrcPorst, coldMem s.mem)) := rfl

theorem exec_vddAoLoss (s : State) : exec .vddAoLoss s = .next (s.after (coldDev s.dev rsrcVddAo, coldMem s.mem)) := rfl

theorem exec_resetN (s : State) : exec .resetN s = .next (s.after (systemReset rsrcResetN s.dev s.mem)) := rfl

theorem exec_systemWrite (m : Master) (value : Word) (s : State) :
    exec (.systemWrite m value) s = .next (s.after (rstCtlWrite m (value ||| 0x80000000) s.dev s.mem)) := rfl

/-! ### The cause of a reset (R423) -/

section Cause

variable (d : Dev)

theorem rd_recordCause (kind source cut : Nat) {q : Reg} (h : q.ofs ≠ RST_CAUSE.ofs) : rd (recordCause d kind source cut) q = rd d q := by
  rw [recordCause, rd_setFld_other _ _ h, rd_setFld_other _ _ h, rd_setFld_other _ _ h]

theorem cause_recordCause {kind source : Nat} (hk : kind < 4) (hs : source < 16) (cut : Nat) :
    fld (recordCause d kind source cut) RST_CAUSE_KIND = kind ∧ fld (recordCause d kind source cut) RST_CAUSE_SOURCE = source := by
  constructor
  · rw [recordCause, fld_setFld_apart _ _ (by simp [apart]), fld_setFld_apart _ _ (by simp [apart])]
    exact (fld_setFld_same _ _ (by decide) (by decide)).trans (Nat.mod_eq_of_lt hk)
  · rw [recordCause, fld_setFld_apart _ _ (by simp [apart])]
    exact (fld_setFld_same _ _ (by decide) (by decide)).trans (Nat.mod_eq_of_lt hs)

/-- A word that is not a line's lane status. -/
def offPins (o : Nat) : Prop := o < 0x400044 ∨ 0x500044 < o

theorem keepsWords_keepPins (e : Dev) (x : Line) : keepsWords offPins d (keepPins e d x) := by
  have hx : ¬ offPins (LLx_STATUS x.ix).ofs := by
    unfold offPins
    cases x <;> decide
  have hw (h : LineHw → LineHw) : keepsWords offPins d (setHw d x h) := (keepsWords.refl _ d).of_regs rfl
  unfold keepPins
  dsimp only
  split
  · exact ((hw _).setFlag hx _).setFld hx _
  · exact hw _

theorem keepPins_touches (e : Dev) (x : Line) : ∃ r l, keepPins e d x = { d with regs := r, lineHw := l } := by
  unfold keepPins
  dsimp only
  split
  · exact ⟨_, _, rfl⟩
  · exact ⟨d.regs, _, rfl⟩

end Cause

/-! ### COLD (R423, R424) -/

/-- The device before its pins and its cause are noted: the reset values, the fuses and what the block has sent. -/
def coldFused (d : Dev) : Dev :=
  let r := { Dev.reset with out := d.out, freeCount := d.freeCount, fwu := { FwuHw.reset with keyDigest := d.fwu.keyDigest } }
  setFld (wrn (wrn r RNG_SN_LO (rdn d RNG_SN_LO)) RNG_SN_HI (rdn d RNG_SN_HI)) FWU_STATUS_ROLLBACK (fld d FWU_STATUS_ROLLBACK)

section Cold

variable (d : Dev)

theorem coldDev_eq (source : Nat) :
    coldDev d source = countBoot (recordCause (keepPins d (keepPins d (coldFused d) .a) .b) rkCold source (interrupts d)) := rfl

theorem rd_coldFused {q : Reg} (h : q.ofs ≠ RNG_SN_LO.ofs) (h1 : q.ofs ≠ RNG_SN_HI.ofs) (h2 : q.ofs ≠ FWU_STATUS.ofs) :
    rd (coldFused d) q = q.rst := by
  rw [coldFused, rd_setFld_other _ _ h2, rd_wrn_other _ _ h1, rd_wrn_other _ _ h]
  rfl

theorem fuses_coldFused : rdn (coldFused d) RNG_SN_LO = rdn d RNG_SN_LO ∧ rdn (coldFused d) RNG_SN_HI = rdn d RNG_SN_HI
    ∧ fld (coldFused d) FWU_STATUS_ROLLBACK = fld d FWU_STATUS_ROLLBACK := by
  refine ⟨?_, ?_, ?_⟩
  · rw [coldFused, rdn, rd_setFld_other _ _ (by decide), rd_wrn_other _ _ (by decide), ← rdn, rdn_wrn_same]
    exact Nat.mod_eq_of_lt (rd d RNG_SN_LO).isLt
  · rw [coldFused, rdn, rd_setFld_other _ _ (by decide), ← rdn, rdn_wrn_same]
    exact Nat.mod_eq_of_lt (rd d RNG_SN_HI).isLt
  · exact (fld_setFld_same _ _ (by decide) (by decide)).trans (Nat.mod_eq_of_lt (fld_lt d FWU_STATUS_ROLLBACK))

theorem rd_coldDev (source : Nat) {q : Reg} (h : offPins q.ofs) (h' : q.ofs ≠ RST_CAUSE.ofs) : rd (coldDev d source) q = rd (coldFused d) q := by
  have hb (e : Dev) : rd (countBoot e) q = rd e q := rfl
  rw [coldDev_eq, hb, rd_recordCause _ _ _ _ h', (keepsWords_keepPins _ d .b).rd h, (keepsWords_keepPins _ d .a).rd h]

theorem coldDev_parts (source : Nat) : (coldDev d source).clock = Dev.reset.clock ∧ (coldDev d source).commits = []
    ∧ (coldDev d source).fwu.keyDigest = d.fwu.keyDigest := by
  obtain ⟨r, l, e⟩ := keepPins_touches (coldFused d) d .a
  obtain ⟨r', l', e'⟩ := keepPins_touches (keepPins d (coldFused d) .a) d .b
  rw [coldDev_eq, e', e]
  exact ⟨rfl, rfl, rfl⟩

end Cold

theorem isFrozen_of_rst {d : Dev} {m : Master} (h : rd d (ROOT_FRZ_MAP (m / 32)) = 0) : isFrozen d m = false := by
  rw [isFrozen, regBit, h]
  exact BitVec.getLsbD_zero

theorem cold_reset (s : State) (c : Instr) (src : Nat) (hc : c = .porst ∧ src = 0 ∨ c = .vddAoLoss ∧ src = 1) : ∃ t : State, exec c s = .next t
      ∧ t.pending = s.pending ∧ t.mem.dram = [] ∧ t.mem.core = [] ∧ t.mem.flash = s.mem.flash ∧ t.dev.clock.units = 0 ∧ t.dev.commits = []
      ∧ fld t.dev RST_CAUSE_KIND = 0 ∧ fld t.dev RST_CAUSE_SOURCE = src ∧ fld t.dev RST_STATUS_PHASE = 0
      ∧ flag t.dev RST_STATUS_RELEASED = false ∧ rdn t.dev RNG_SN_LO = rdn s.dev RNG_SN_LO ∧ rdn t.dev RNG_SN_HI = rdn s.dev RNG_SN_HI
      ∧ fld t.dev FWU_STATUS_ROLLBACK = fld s.dev FWU_STATUS_ROLLBACK ∧ t.dev.fwu.keyDigest = s.dev.fwu.keyDigest
      ∧ (∀ x : Line, termState t.dev x = stListen) ∧ ∀ m : Master, m < 0x80 → isFrozen t.dev m = false := by
  have he : exec c s = .next (s.after (coldDev s.dev src, coldMem s.mem)) := by
    obtain ⟨rfl, rfl⟩ | ⟨rfl, rfl⟩ := hc
    · exact exec_porst s
    · exact exec_vddAoLoss s
  have hsrc : src < 16 := by omega
  refine ⟨_, he, rfl, rfl, rfl, rfl, ?_⟩
  generalize hd : coldDev s.dev src = d
  obtain ⟨hclock, hcommits, hkey⟩ := coldDev_parts s.dev src
  obtain ⟨hlo, hhi, hroll⟩ := fuses_coldFused s.dev
  obtain ⟨hk, hs⟩ := cause_recordCause (keepPins s.dev (keepPins s.dev (coldFused s.dev) .a) .b) (kind := rkCold) (by decide) hsrc (interrupts s.dev)
  have hrd {q : Reg} (h : offPins q.ofs) (h' : q.ofs ≠ RST_CAUSE.ofs) : rd d q = rd (coldFused s.dev) q := hd ▸ rd_coldDev s.dev src h h'
  have hrst {q : Reg} (h : offPins q.ofs) (h' : q.ofs ≠ RST_CAUSE.ofs) (h1 : q.ofs ≠ RNG_SN_LO.ofs) (h2 : q.ofs ≠ RNG_SN_HI.ofs)
      (h3 : q.ofs ≠ FWU_STATUS.ofs) : rd d q = q.rst := (hrd h h').trans (rd_coldFused s.dev h1 h2 h3)
  rw [hd] at hclock hcommits hkey
  refine ⟨hclock ▸ rfl, hcommits, ?_, ?_, ?_, ?_, ?_, ?_, ?_, hkey, fun x => ?_, fun m hm => ?_⟩
  · rw [← hd]
    exact hk
  · rw [← hd]
    exact hs
  · show getBits (rd d RST_STATUS) 2 0 = 0
    rw [hrst (.inl (by decide)) (by decide) (by decide) (by decide) (by decide)]
    decide
  · show (getBits (rd d RST_STATUS) 31 31 == 1) = false
    rw [hrst (.inl (by decide)) (by decide) (by decide) (by decide) (by decide)]
    decide
  · exact (congrArg BitVec.toNat (hrd (.inr (by decide)) (by decide))).trans hlo
  · exact (congrArg BitVec.toNat (hrd (.inr (by decide)) (by decide))).trans hhi
  · exact (fld_congr _ (hrd (.inr (by decide)) (by decide))).trans hroll
  · show getBits (rd d (RNG_Lx_STATUS x.ix)) 2 0 = stListen
    rw [hrst (.inr (by cases x <;> decide)) (by cases x <;> decide) (by cases x <;> decide) (by cases x <;> decide) (by cases x <;> decide)]
    cases x <;> decide
  · have hm' := frzMap_lt hm
    simp only at hm'
    exact isFrozen_of_rst (d := d) (hrst (.inl (by simp only; omega)) (by simp only; omega) (by simp only; omega) (by simp only; omega)
      (by simp only; omega))

end Sys2Proof.Machine
end

section
/-!
PROOFS. What a SYSTEM reset keeps (R423, R424; O60).
-/

namespace Sys2Proof.Machine

/-! ### A domain that becomes IDLE (R48, R53, R57) -/

/-- A word that is none of PWR's, of KST's and of the functions'. -/
def sysWord (o : Nat) : Prop := o < 0x120000 ∨ 0x240000 ≤ o ∧ o < 0xf00000

/-- Time, the commits, the time outputs and the words beside those are in e as in d. -/
structure keepsSystem (d e : Dev) : Prop where
  clock : e.clock = d.clock
  elapsed : e.elapsed = d.elapsed
  commits : e.commits = d.commits
  touts : e.ttd.touts = d.ttd.touts
  words : keepsWords sysWord d e

theorem not_sysWord_kst {o : Nat} (h : 0x120000 ≤ o) (h' : o < 0x240000) : ¬ sysWord o := by
  unfold sysWord
  omega

theorem not_sysWord_hif {o : Nat} (h : 0xf00000 ≤ o) : ¬ sysWord o := by
  unfold sysWord
  omega

section Keeps

variable {d e : Dev}

theorem keepsSystem.refl (d : Dev) : keepsSystem d d := ⟨rfl, rfl, rfl, rfl, .refl _ d⟩

theorem keepsSystem.trans {g : Dev} (h : keepsSystem d e) (h' : keepsSystem e g) : keepsSystem d g :=
  ⟨h'.clock.trans h.clock, h'.elapsed.trans h.elapsed, h'.commits.trans h.commits, h'.touts.trans h.touts, h.words.trans h'.words⟩

theorem keepsSystem.wr (h : keepsSystem d e) {r : Reg} (hr : ¬ sysWord r.ofs) (w : Word) : keepsSystem d (wr e r w) :=
  h.trans ⟨rfl, rfl, rfl, rfl, (keepsWords.refl _ e).wr hr w⟩

theorem keepsSystem.setFld (h : keepsSystem d e) {f : Fld} (hr : ¬ sysWord f.reg.ofs) (v : Nat) : keepsSystem d (setFld e f v) := h.wr hr _

theorem keepsSystem.setKst (h : keepsSystem d e) (k : Keystone) : keepsSystem d { e with kst := k } :=
  h.trans ⟨rfl, rfl, rfl, rfl, (keepsWords.refl _ e).of_regs rfl⟩

theorem keepsSystem.dropTimer (h : keepsSystem d e) (t : TimerId) : keepsSystem d (dropTimer e t) :=
  h.trans ⟨rfl, rfl, rfl, rfl, (keepsWords.refl _ e).of_regs rfl⟩

theorem keepsSystem.raiseEvt (h : keepsSystem d e) {u : EvtUnit} (hu : ¬ sysWord u.evt.ofs) (b : Nat) : keepsSystem d (raiseEvt e u b) := by
  have hw := (keepsWords.refl sysWord e).raiseEvt hu (not_sysWord_hif (by decide)) (not_sysWord_hif (by decide)) b
  obtain ⟨r, p, o, heq⟩ := raiseEvt_spec e u b
  rw [heq] at hw ⊢
  exact h.trans ⟨rfl, rfl, rfl, rfl, hw⟩

theorem keepsWords_beginWake (d : Dev) (src target : Nat) : keepsWords sysWord d (beginWake d src target) := by
  have hpwr {r : Reg} (h : 0x120000 ≤ r.ofs) (h' : r.ofs < 0x130000) : ¬ sysWord r.ofs := not_sysWord_kst h (by omega)
  have hbegun : keepsWords sysWord d (setFlag (wrn d PWR_WAKE_SRC src) PWR_STATUS_TRANS true) :=
    ((keepsWords.refl _ d).wr (hpwr (by decide) (by decide)) _).setFlag (hpwr (by decide) (by decide)) _
  unfold beginWake
  dsimp only
  split
  · exact (keepsWords.refl _ d).count (hpwr (by decide) (by decide))
  · split
    · exact (hbegun.of_regs rfl).setFlag (f := PWR_STATUS_SAFE) (hpwr (by decide) (by decide)) _
    · exact (hbegun.of_regs rfl).setFlag (f := PWR_STATUS_SAFE) (hpwr (by decide) (by decide)) _

theorem keepsWords_wakeArrives (d : Dev) (b target : Nat) : keepsWords sysWord d (wakeArrives d b target) := by
  unfold wakeArrives
  split
  · exact .refl _ d
  split
  · exact ((keepsWords.refl _ d).of_regs (g := setPwr d _) rfl).setFlag (not_sysWord_kst (by decide) (by decide)) _
  split
  · split
    · exact keepsWords_beginWake _ _ _
    · exact (keepsWords.refl _ d).wr (not_sysWord_kst (by decide) (by decide)) _
  · exact .refl _ d

theorem keepsSystem.wakeArrives (h : keepsSystem d e) (b target : Nat) : keepsSystem d (wakeArrives e b target) := by
  have hw := keepsWords_wakeArrives e b target
  obtain ⟨r, o, p, heq, _⟩ := wakeArrives_spec e b target
  rw [heq] at hw ⊢
  exact h.trans ⟨rfl, rfl, rfl, rfl, hw⟩

theorem keepsSystem.raiseKst (h : keepsSystem d e) (b : Nat) : keepsSystem d (raiseKst e b) := by
  have hr := h.raiseEvt (u := evKST) (not_sysWord_kst (by decide) (by decide)) b
  unfold Machine.raiseKst
  dsimp only
  split
  · exact hr.wakeArrives _ _
  · exact hr

theorem keepsSystem.holdUtc (h : keepsSystem d e) : keepsSystem d (holdUtc e) := by
  unfold Machine.holdUtc
  split
  · exact h.trans ⟨rfl, rfl, rfl, rfl, (keepsWords.refl _ e).of_regs rfl⟩
  · exact h

theorem keepsSystem.setServo (h : keepsSystem d e) (c i : Int) : keepsSystem d (setServo e c i) := by
  unfold Machine.setServo whenD
  dsimp only
  split
  · exact ((h.setKst _).wr (r := KST_INTEG) (not_sysWord_kst (by decide) (by decide)) _).raiseKst _
  · exact (h.setKst _).wr (r := KST_INTEG) (not_sysWord_kst (by decide) (by decide)) _

theorem keepsSystem.enterHoldover (h : keepsSystem d e) : keepsSystem d (enterHoldover e) := by
  unfold Machine.enterHoldover
  dsimp only
  refine keepsSystem.raiseKst (keepsSystem.setFld (keepsSystem.wr ?_ (r := KST_HOLD_SEC) (not_sysWord_kst (by decide) (by decide)) _)
    (f := KST_STATUS_SERVO_STATE) (not_sysWord_kst (by decide) (by decide)) _) _
  exact ((h.holdUtc.setServo _ _).setKst _).dropTimer _

theorem keepsSystem.seamlessSwitch (h : keepsSystem d e) (x : Line) (p : Int) : keepsSystem d (seamlessSwitch e x p) := by
  unfold Machine.seamlessSwitch loadSlewer
  dsimp only
  refine keepsSystem.raiseKst (keepsSystem.setFld (keepsSystem.setFld (keepsSystem.setFld (h.setKst _) (f := KST_STATUS_SLEWING) ?_ _)
    (f := KST_STATUS_SEL_DOM) ?_ _) (f := KST_STATUS_SWITCHING) ?_ _) _
  all_goals exact not_sysWord_kst (by decide) (by decide)

theorem keepsSystem.domainLeftGood (h : keepsSystem d e) (x : Line) (p : Int) : keepsSystem d (domainLeftGood e x p) := by
  have hset : keepsSystem d (setDomain e x (fun m => { m with candidate := false, blocked := false })) := h.setKst _
  unfold Machine.domainLeftGood
  dsimp only
  split
  · split
    · exact hset.seamlessSwitch _ _
    · exact hset.enterHoldover
  · exact hset

theorem not_sysWord_domain (x : Line) : ¬ sysWord (KST_DOM_x_STATUS x.ix).ofs := by cases x <;> exact not_sysWord_kst (by decide) (by decide)

theorem keepsSystem.domainIdle (h : keepsSystem d e) (x : Line) : keepsSystem d (domainIdle e x) := by
  have hcleared : keepsSystem d (domainCleared e x) := (((h.setFld (f := KST_DOM_x_STATUS_QUAL_CNT x.ix) (not_sysWord_domain x) 0).setFld
    (f := KST_DOM_x_STATUS_REFUSE_RUN x.ix) (not_sysWord_domain x) 0).setKst _).dropTimer _
  have hset := hcleared.setFld (f := KST_DOM_x_STATUS_STATE x.ix) (not_sysWord_domain x) domIdle
  rw [domainIdle_eq]
  split
  · exact hcleared
  · unfold changeDomain
    dsimp only
    split
    · exact hset.domainLeftGood x _
    · exact hset

theorem keepsSystem.raiseFn (h : keepsSystem d e) {f : Nat} (hf : ¬ sysWord (HIF_FNf_EVT f).ofs) (b : Nat) : keepsSystem d (raiseFn e f b) := by
  have hw := (keepsWords.refl sysWord e).raiseFn hf b
  obtain ⟨r, p, o, heq⟩ := raiseFn_regs e f b
  rw [heq] at hw ⊢
  exact h.trans ⟨rfl, rfl, rfl, rfl, hw⟩

theorem keepsSystem.syncEvents (h : keepsSystem d e) : keepsSystem d (syncEvents e) := by
  have hset (n : Nat) : keepsSystem d (wrn e HIF_EVT_UNIT n) := h.wr (not_sysWord_hif (by decide)) _
  unfold Machine.syncEvents
  dsimp only
  split
  · exact (hset _).wr (r := HIF_FNf_EVT 0) (not_sysWord_hif (by decide)) _
  · exact (hset _).raiseFn (not_sysWord_hif (by decide)) _

end Keeps

/-! ### SYSTEM (R423, R424) -/

theorem sget_filter {α : Type} (v : α) (m : Sparse α) (p : Nat → Bool) (k : Nat) :
    sget v (m.filter (fun e => p e.1)) k = if p k then sget v m k else v := by
  induction m with
  | nil => exact (ite_self _).symm
  | cons e m ih =>
    obtain ⟨a, w⟩ := e
    rw [List.filter_cons]
    by_cases hk : a = k
    · subst hk
      cases hp : p a with
      | true => simp [sget]
      | false =>
        rw [if_neg (by decide), ih, hp]
        rfl
    · split
      · rw [sget, if_neg hk, ih, sget, if_neg hk]
      · rw [ih, sget, if_neg hk]

/-- What a SYSTEM reset takes over of the device (R424). -/
def systemKept (d : Dev) : Dev := { Dev.reset with
  regs := d.regs.filter (fun e => systemKeeps e.1)
  applied := d.applied.filter (fun e => systemKeeps e.1)
  dirty := d.dirty.filter systemKeeps
  clock := d.clock
  elapsed := d.elapsed
  timers := d.timers.filter (fun e => e.1 == .prop)
  kst := d.kst
  ttd := d.ttd
  bootKeys := d.bootKeys
  freeCount := d.freeCount
  out := d.out
  jtag := d.jtag
  fwu := { FwuHw.reset with keyDigest := d.fwu.keyDigest }
  host := { HostHw.reset with bwEnd := windowEnd 1000 (now d) } }

/-- With the fuses, the boot key sets and the power that stand. -/
def systemFused (d : Dev) : Dev :=
  let r := setFld (wrn (wrn (systemKept d) RNG_SN_LO (rdn d RNG_SN_LO)) RNG_SN_HI (rdn d RNG_SN_HI)) FWU_STATUS_ROLLBACK
    (fld d FWU_STATUS_ROLLBACK)
  setFlag (setFlag (setFlag r CIP_STATUS_BOOT_SET_A (bootSet d .a)) CIP_STATUS_BOOT_SET_B (bootSet d .b)) PWR_STATUS_PWR_ALT
    (flag d PWR_STATUS_PWR_ALT)

/-- With the stop latches and the module pins. -/
def systemLatched (d : Dev) : Dev := keepPins d (keepPins d (keepStop d (keepStop d (systemFused d) .a) .b) .a) .b

/-- With the count and the cause of the reset. -/
def systemNoted (d : Dev) (source : Nat) : Dev := recordCause (count (systemLatched d) RST_SYSTEM) rkSystem source (interrupts d)

section System

variable (d : Dev) (source : Nat)

theorem systemDev_eq : ∃ x : Line, systemDev d source = syncEvents (domainIdle (domainIdle (systemNoted d source) x.other) x) :=
  ⟨selDom (systemNoted d source), rfl⟩

theorem rd_systemKept (q : Reg) : rd (systemKept d) q = if systemKeeps q.ofs then rd d q else q.rst := sget_filter _ _ _ _

/-- A word of the root or of the reset unit, and the lines' status words. -/
def rstWord (o : Nat) : Prop := o < 0x120000 ∨ o = 0x601004 ∨ o = 0x601404

theorem rd_systemFused {q : Reg} (h : rstWord q.ofs) : rd (systemFused d) q = if systemKeeps q.ofs then rd d q else q.rst := by
  unfold rstWord at h
  rw [systemFused, rd_setFlag_other _ _ (by simp only; omega), rd_setFlag_other _ _ (by simp only; omega), rd_setFlag_other _ _ (by simp only; omega),
    rd_setFld_other _ _ (by simp only; omega), rd_wrn_other _ _ (by simp only; omega), rd_wrn_other _ _ (by simp only; omega), rd_systemKept]

/-- A latch that was set is set, any other word but the line's status stands. -/
theorem keepStop_spec (old : Dev) (x : Line) : (∃ r, keepStop old d x = { d with regs := r })
    ∧ (∀ q : Reg, q.ofs ≠ (RNG_Lx_STATUS x.ix).ofs → rd (keepStop old d x) q = rd d q)
    ∧ flag (keepStop old d x) (RNG_Lx_STATUS_STOP_LATCH x.ix)
      = (flag old (RNG_Lx_STATUS_STOP_LATCH x.ix) || flag d (RNG_Lx_STATUS_STOP_LATCH x.ix)) := by
  unfold keepStop
  split
  · next h =>
    dsimp only
    rw [h, Bool.true_or]
    split
    · refine ⟨⟨_, rfl⟩, fun q hq => ?_, ?_⟩
      · rw [rd_setFld_other _ _ hq, rd_setFlag_other _ _ hq]
      · rw [flag_setFld_apart _ _ (by simp [apart])]
        exact flag_setFlag_same _ _ (by simp) (by simp)
    · exact ⟨⟨_, rfl⟩, fun q hq => rd_setFlag_other _ _ hq, flag_setFlag_same _ _ (by simp) (by simp)⟩
  · next h =>
    rw [Bool.not_eq_true] at h
    rw [h, Bool.false_or]
    exact ⟨⟨_, rfl⟩, fun _ _ => rfl, rfl⟩

theorem systemLatched_parts : ∃ r l, systemLatched d = { systemKept d with regs := r, lineHw := l } := by
  obtain ⟨⟨r1, e1⟩, -⟩ := keepStop_spec (systemFused d) d .a
  obtain ⟨⟨r2, e2⟩, -⟩ := keepStop_spec (keepStop d (systemFused d) .a) d .b
  obtain ⟨r3, l3, e3⟩ := keepPins_touches (keepStop d (keepStop d (systemFused d) .a) .b) d .a
  obtain ⟨r4, l4, e4⟩ := keepPins_touches (keepPins d (keepStop d (keepStop d (systemFused d) .a) .b) .a) d .b
  exact ⟨r4, l4, by rw [systemLatched, e4, e3, e2, e1]; rfl⟩

theorem rd_systemLatched {q : Reg} (h : q.ofs < 0x120000) : rd (systemLatched d) q = if systemKeeps q.ofs then rd d q else q.rst := by
  have hpin : offPins q.ofs := .inl (by omega)
  have hne (x : Line) : q.ofs ≠ (RNG_Lx_STATUS x.ix).ofs := by
    have := x.ix
    simp only
    omega
  rw [systemLatched, (keepsWords_keepPins _ d .b).rd hpin, (keepsWords_keepPins _ d .a).rd hpin, (keepStop_spec _ d .b).2.1 _ (hne _),
    (keepStop_spec _ d .a).2.1 _ (hne _), rd_systemFused d (.inl h)]

theorem latch_systemLatched (x : Line) :
    flag (systemLatched d) (RNG_Lx_STATUS_STOP_LATCH x.ix) = flag d (RNG_Lx_STATUS_STOP_LATCH x.ix) := by
  have hpin : offPins (RNG_Lx_STATUS x.ix).ofs := .inr (by cases x <;> decide)
  have hzero (y : Line) : flag (systemFused d) (RNG_Lx_STATUS_STOP_LATCH y.ix) = false := by
    rw [flag, fld, rd_systemFused d (by cases y <;> simp [rstWord, Line.ix]), if_neg (by cases y <;> decide)]
    cases y <;> decide
  rw [systemLatched, (keepsWords_keepPins _ d .b).flag hpin, (keepsWords_keepPins _ d .a).flag hpin]
  cases x with
  | a => rw [flag_congr _ ((keepStop_spec _ d .b).2.1 _ (by decide)), (keepStop_spec _ d .a).2.2, hzero, Bool.or_false]
  | b => rw [(keepStop_spec _ d .b).2.2, flag_congr _ ((keepStop_spec _ d .a).2.1 _ (by decide)), hzero, Bool.or_false]

/-- The device as a SYSTEM reset leaves it to the boot. -/
theorem systemDev_keeps : keepsSystem (systemNoted d source) (systemDev d source) := by
  obtain ⟨x, e⟩ := systemDev_eq d source
  rw [e]
  exact (((keepsSystem.refl _).domainIdle _).domainIdle _).syncEvents

theorem systemNoted_parts : (systemNoted d source).clock = d.clock ∧ (systemNoted d source).elapsed = d.elapsed
    ∧ (systemNoted d source).ttd.touts = d.ttd.touts ∧ (systemNoted d source).commits = [] := by
  obtain ⟨r, l, e⟩ := systemLatched_parts d
  rw [systemNoted, e]
  exact ⟨rfl, rfl, rfl, rfl⟩

/-- The device as the boot has requested its voltage. -/
theorem bootVoltage_spec (d : Dev) : (bootVoltage d).clock = d.clock ∧ (bootVoltage d).elapsed = d.elapsed ∧ (bootVoltage d).commits = d.commits
    ∧ (bootVoltage d).ttd = d.ttd ∧ bootPhase (bootVoltage d) = 1
    ∧ flag (bootVoltage d) RST_STATUS_RELEASED = flag d RST_STATUS_RELEASED
    ∧ ∀ q : Reg, q.ofs < 0x120000 ∨ 0x130000 ≤ q.ofs → q.ofs ≠ RST_STATUS.ofs → rd (bootVoltage d) q = rd d q := by
  have hrd (q : Reg) (h : q.ofs < 0x120000 ∨ 0x130000 ≤ q.ofs) : rd (bootVoltage d) q = rd (setBootPhase (wrn (wrn d PWR_DOM_ON_LO 3) PWR_DOM_ON_HI 0) 1) q :=
    rd_setFlag_other _ _ (by simp only; omega)
  have hdom (q : Reg) (h : q.ofs < 0x120000 ∨ 0x130000 ≤ q.ofs) : rd (wrn (wrn d PWR_DOM_ON_LO 3) PWR_DOM_ON_HI 0) q = rd d q := by
    rw [rd_wrn_other _ _ (by simp only; omega), rd_wrn_other _ _ (by simp only; omega)]
  refine ⟨rfl, rfl, rfl, rfl, ?_, ?_, fun q h h' => ?_⟩
  · rw [bootPhase, fld_congr _ (hrd RST_STATUS (.inl (by decide)))]
    exact fld_setFld_same _ _ (by decide) (by decide)
  · rw [flag_congr _ (hrd RST_STATUS (.inl (by decide))), setBootPhase, flag_setFld_apart _ _ (by simp [apart]),
      flag_congr _ (hdom RST_STATUS (.inl (by decide)))]
  · rw [hrd q h, setBootPhase, rd_setFld_other _ _ h', hdom q h]

theorem systemReset_stays {d : Dev} {source : Nat} {s : Mem} (h : d.pwr.thermal = true ∨ bootPhase d = 0) : systemReset source d s = (d, s) := by
  rw [systemReset, if_pos]
  obtain h | h := h <;> simp [h]

theorem systemReset_resets {d : Dev} {source : Nat} {s : Mem} (h : d.pwr.thermal = false) (h' : bootPhase d ≠ 0) :
    systemReset source d s = (bootVoltage (countBoot (systemDev d source)), coldMem s) := by
  rw [systemReset, if_neg]
  simp [h, h']

/-- What is said of a device after a SYSTEM reset. -/
structure systemIsReset (d e : Dev) (source : Nat) : Prop where
  clock : e.clock = d.clock
  elapsed : e.elapsed = d.elapsed
  touts : e.ttd.touts = d.ttd.touts
  commits : e.commits = []
  kind : fld e RST_CAUSE_KIND = 1
  source : fld e RST_CAUSE_SOURCE = source
  phase : bootPhase e = 1
  released : flag e RST_STATUS_RELEASED = false
  count : rdn e RST_SYSTEM = min (rdn d RST_SYSTEM + 1) 0xFFFFFFFF
  latches : ∀ x : Line, flag e (RNG_Lx_STATUS_STOP_LATCH x.ix) = flag d (RNG_Lx_STATUS_STOP_LATCH x.ix)
  runs : ∀ m : Master, m < 0x80 → isFrozen e m = false

theorem systemReset_spec (d : Dev) {source : Nat} (hs : source < 16) : systemIsReset d (bootVoltage (countBoot (systemDev d source))) source := by
  obtain ⟨nclock, nelapsed, ntouts, ncommits⟩ := systemNoted_parts d source
  obtain ⟨hclock, helapsed, hcommits, htouts, hwords⟩ := systemDev_keeps d source
  obtain ⟨bclock, belapsed, bcommits, bttd, bphase, breleased, bwords⟩ := bootVoltage_spec (countBoot (systemDev d source))
  obtain ⟨hk, hsrc⟩ := cause_recordCause (count (systemLatched d) RST_SYSTEM) (kind := rkSystem) (by decide) hs (interrupts d)
  have hnoted {q : Reg} (h : q.ofs ≠ RST_CAUSE.ofs) (h' : q.ofs ≠ RST_SYSTEM.ofs) : rd (systemNoted d source) q = rd (systemLatched d) q :=
    (rd_recordCause _ _ _ _ h).trans (rd_count_other _ h')
  have hcount (g : Dev) (q : Reg) : rd (countBoot g) q = rd g q := rfl
  have hlow {q : Reg} (h : q.ofs < 0x120000) (h' : q.ofs ≠ RST_STATUS.ofs) :
      rd (bootVoltage (countBoot (systemDev d source))) q = rd (systemNoted d source) q := by
    rw [bwords q (.inl h) h', hcount, hwords.rd (.inl h)]
  constructor
  · rw [bclock]
    exact hclock.trans nclock
  · rw [belapsed]
    exact helapsed.trans nelapsed
  · rw [bttd]
    exact htouts.trans ntouts
  · rw [bcommits]
    exact hcommits.trans ncommits
  · rw [fld_congr _ (hlow (by decide) (by decide))]
    exact hk
  · rw [fld_congr _ (hlow (by decide) (by decide))]
    exact hsrc
  · exact bphase
  · rw [breleased, flag_congr RST_STATUS_RELEASED (hcount _ RST_STATUS), hwords.flag (.inl (by decide)), flag, fld, hnoted (by decide) (by decide),
      rd_systemLatched d (by decide), if_neg (by decide)]
    decide
  · rw [rdn, hlow (by decide) (by decide), systemNoted, rd_recordCause _ _ _ _ (by decide), ← rdn, rdn_count_same, rdn, rd_systemLatched d (by decide),
      if_pos (by decide), ← rdn]
  · intro x
    have hx : 0x600000 ≤ (RNG_Lx_STATUS x.ix).ofs ∧ (RNG_Lx_STATUS x.ix).ofs < 0x700000 := by cases x <;> decide
    obtain ⟨hx1, hx2⟩ := hx
    have hrd : rd (bootVoltage (countBoot (systemDev d source))) (RNG_Lx_STATUS x.ix) = rd (systemLatched d) (RNG_Lx_STATUS x.ix) := by
      rw [bwords _ (.inr (by omega)) (by cases x <;> decide), hcount, hwords.rd (.inr ⟨by omega, by omega⟩),
        hnoted (by cases x <;> decide) (by cases x <;> decide)]
    rw [flag_congr _ hrd, latch_systemLatched]
  · intro m hm
    have hlt : (ROOT_FRZ_MAP (m / 32)).ofs < 0x1000 := frzMap_lt hm
    simp only at hlt
    have hkeep : systemKeeps (ROOT_FRZ_MAP (m / 32)).ofs = false := by
      simp only [systemKeeps, Bool.or_eq_false_iff, Bool.and_eq_false_iff, decide_eq_false_iff_not]
      omega
    refine isFrozen_of_rst ?_
    rw [hlow (by simp only; omega) (by simp only; omega), hnoted (by simp only; omega) (by simp only; omega),
      rd_systemLatched d (by simp only; omega), hkeep]
    rfl

end System

end Sys2Proof.Machine
end

section
/-!
PROOFS. Writes of RST_CTL, the CORE reset and the core watchdog (R423, R426; O60).
-/

namespace Sys2Proof.Machine

theorem exec_coreWrite (m : Master) (value : Word) (s : State) :
    exec (.coreWrite m value) s = .next (s.after (rstCtlWrite m ((value ||| 0x40000000) &&& 0x7FFFFFFF) s.dev s.mem)) := rfl

theorem exec_wdtExpire (s : State) : exec .wdtExpire s = .next (s.after (wdtExpire s.dev s.mem)) := rfl

theorem exec_kick (m : Master) (value : Word) (s : State) : exec (.kick m value) s = .next (s.withDev (wdtWrite m (value ||| 0x40000000) s.dev)) := rfl

/-! ### Writes of RST_CTL (R423) -/

section Ctl

variable {m : Master} {value : Word} {d : Dev} {s : Mem}

theorem confirmBits : ∀ i < 16, (0x80000000 : Word).getLsbD i = false ∧ (0x40000000 : Word).getLsbD i = false
    ∧ (0x7FFFFFFF : Word).getLsbD i = true := by decide

theorem confirmation_system (value : Word) : getBits (value ||| 0x80000000) 15 0 = getBits value 15 0 := by
  refine getBits_eq (by decide) fun i _ hi => ?_
  obtain ⟨h1, _, _⟩ := confirmBits i (by omega)
  rw [BitVec.getLsbD_or, h1, Bool.or_false]

theorem confirmation_core (value : Word) : getBits ((value ||| 0x40000000) &&& 0x7FFFFFFF) 15 0 = getBits value 15 0 := by
  refine getBits_eq (by decide) fun i _ hi => ?_
  obtain ⟨_, h2, h3⟩ := confirmBits i (by omega)
  rw [BitVec.getLsbD_and, BitVec.getLsbD_or, h2, h3, Bool.or_false, Bool.and_true]

theorem rstCtlWrite_unconfirmed (ha : admits d m RST_CTL.ofs = true) (h : getBits value 15 0 ≠ 0xA5C3) : rstCtlWrite m value d s = (d, s) := by
  rw [rstCtlWrite, if_pos (.inl h), guarded_admits _ ha]

theorem rstCtlWrite_system {source : Nat} (ha : admits d m RST_CTL.ofs = true) (h : getBits value 15 0 = 0xA5C3) (hb : value.getLsbD 31 = true)
    (hs : resetSource m true = some source) : rstCtlWrite m value d s = systemReset source d s := by
  unfold rstCtlWrite
  rw [if_neg (by simp [h, ha]), if_pos hb, hs]

theorem rstCtlWrite_refused (ha : admits d m RST_CTL.ofs = true) (hb : value.getLsbD 31 = true) (hs : resetSource m true = none) :
    rstCtlWrite m value d s = (d, s) := by
  by_cases h : getBits value 15 0 = 0xA5C3
  · unfold rstCtlWrite
    rw [if_neg (by simp [h, ha]), if_pos hb, hs]
  · exact rstCtlWrite_unconfirmed ha h

theorem rstCtlWrite_core {source : Nat} (ha : admits d m RST_CTL.ofs = true) (h : getBits value 15 0 = 0xA5C3) (hb : value.getLsbD 31 = false)
    (hc : value.getLsbD 30 = true) (hs : resetSource m false = some source) : rstCtlWrite m value d s = coreReset source d s := by
  unfold rstCtlWrite
  rw [if_neg (by simp [h, ha]), if_neg (by rw [hb]; decide), if_pos hc, hs]

theorem resetSource_lt {b : Bool} {source : Nat} (h : resetSource m b = some source) : source < 16 := by
  unfold resetSource at h
  split at h
  · exact Option.some.inj h ▸ by decide
  · split at h
    · exact Option.some.inj h ▸ by decide
    · split at h
      · exact Option.some.inj h ▸ by decide
      · exact nomatch h

end Ctl

/-- RESET_N, and a confirmed SYSTEM by function 0 or the I2C management target. -/
theorem system_reset (s : State) : (s.dev.pwr.thermal = true ∨ bootPhase s.dev = 0 → exec .resetN s = .next s)
      ∧ ∀ (c : Instr) (src : Nat), (c = .resetN ∧ src = 2
          ∨ ∃ (m : Master) (value : Word), c = .systemWrite m value ∧ getBits value 15 0 = 0xA5C3 ∧ admits s.dev m RST_CTL.ofs = true
              ∧ (m = 0 ∧ src = 3 ∨ m = i2cMaster ∧ src = 4)) →
        s.dev.pwr.thermal = false → bootPhase s.dev ≠ 0 → ∃ t : State, exec c s = .next t ∧ t.pending = s.pending ∧ t.dev.clock = s.dev.clock
          ∧ t.dev.elapsed = s.dev.elapsed ∧ t.dev.ttd.touts = s.dev.ttd.touts ∧ t.dev.commits = [] ∧ t.mem.dram = [] ∧ t.mem.core = []
          ∧ t.mem.flash = s.mem.flash ∧ fld t.dev RST_CAUSE_KIND = 1 ∧ fld t.dev RST_CAUSE_SOURCE = src ∧ bootPhase t.dev = 1
          ∧ flag t.dev RST_STATUS_RELEASED = false ∧ rdn t.dev RST_SYSTEM = min (rdn s.dev RST_SYSTEM + 1) 0xFFFFFFFF
          ∧ (∀ x : Line, flag t.dev (RNG_Lx_STATUS_STOP_LATCH x.ix) = flag s.dev (RNG_Lx_STATUS_STOP_LATCH x.ix))
          ∧ ∀ m : Master, m < 0x80 → isFrozen t.dev m = false := by
  refine ⟨fun h => ?_, fun c src hc ht hp => ?_⟩
  · rw [exec_resetN, systemReset_stays h, after_self]
  · have he : exec c s = .next (s.after (systemReset src s.dev s.mem)) ∧ src < 16 := by
      obtain ⟨rfl, rfl⟩ | ⟨m, value, rfl, hv, ha, hm⟩ := hc
      · exact ⟨exec_resetN s, by decide⟩
      · have hs : resetSource m true = some src := by
          obtain ⟨rfl, rfl⟩ | ⟨rfl, rfl⟩ := hm <;> decide
        rw [exec_systemWrite, rstCtlWrite_system ha ((confirmation_system value).trans hv) (by simp) hs]
        exact ⟨rfl, resetSource_lt hs⟩
    obtain ⟨he, hlt⟩ := he
    obtain ⟨hclock, helapsed, htouts, hcommits, hk, hs, hphase, hrel, hcount, hlatch, hruns⟩ := systemReset_spec s.dev hlt
    rw [systemReset_resets ht hp] at he
    exact ⟨_, he, rfl, hclock, helapsed, htouts, hcommits, rfl, rfl, rfl, hk, hs, hphase, hrel, hcount, hlatch, hruns⟩

/-! ### CORE (R426) -/

/-- The device as a CORE reset has counted and shown itself. -/
def coreBegun (d : Dev) (source : Nat) : Dev :=
  let d := recordCause (count d RST_CORE) rkCore source (boolBit (storeRuns d))
  if flag d RST_STATUS_RELEASED then raiseRst d rsReset else d

/-- A word that a CORE reset leaves beside those of the store that ends. -/
def offReset (o : Nat) : Prop :=
  o ≠ RST_CAUSE.ofs ∧ o ≠ RST_CORE.ofs ∧ o ≠ RST_EVT.ofs ∧ o ≠ HIF_EVT_UNIT.ofs ∧ o ≠ (HIF_FNf_EVT 0).ofs

section Core

variable {d : Dev} {s : Mem}

theorem rd_raiseRst (d : Dev) (b : Nat) {q : Reg} (h : q.ofs ≠ RST_EVT.ofs) (h' : q.ofs ≠ HIF_EVT_UNIT.ofs) (h'' : q.ofs ≠ (HIF_FNf_EVT 0).ofs) :
    rd (raiseRst d b) q = rd d q := rd_raiseEvt_other d evRST b h h' h''

theorem clock_raiseRst (d : Dev) (b : Nat) : (raiseRst d b).clock = d.clock := by
  obtain ⟨r, p, o, e⟩ := raiseEvt_spec d evRST b
  rw [raiseRst, e]

theorem clock_endStore (d : Dev) : (endStore d).clock = d.clock := by
  unfold endStore
  split
  · dsimp only
    split <;> rfl
  · rfl

theorem coreReset_held (source : Nat) (h : flag d FWU_STATUS_ACTIVATING = true) :
    coreReset source d s = (setFwu d (fun h => { h with coreHeld := some source }), s) := if_pos h

theorem coreReset_void (source : Nat) (ha : flag d FWU_STATUS_ACTIVATING = false) (h : d.corePause = true ∨ domainOn d 49 = false) :
    coreReset source d s = (d, s) := by
  rw [coreReset, ha, if_neg (by decide), if_pos]
  obtain h | h := h <;> simp [h]

theorem coreReset_runs (source : Nat) (ha : flag d FWU_STATUS_ACTIVATING = false) (hp : d.corePause = false) (hd : domainOn d 49 = true) :
    coreReset source d s = (endStore (coreBegun d source), loadCores (runningImage (coreBegun d source) s) s) := by
  rw [coreReset, ha, if_neg (by decide), hp, hd, if_neg (by decide)]
  rfl

theorem rd_coreBegun (d : Dev) (source : Nat) {q : Reg} (h : offReset q.ofs) : rd (coreBegun d source) q = rd d q := by
  obtain ⟨h1, h2, h3, h4, h5⟩ := h
  have hn : rd (recordCause (count d RST_CORE) rkCore source (boolBit (storeRuns d))) q = rd d q := by
    rw [rd_recordCause _ _ _ _ h1, rd_count_other _ h2]
  unfold coreBegun
  dsimp only
  split
  · exact (rd_raiseRst _ _ h3 h4 h5).trans hn
  · exact hn

theorem coreBegun_spec (d : Dev) {source : Nat} (hs : source < 16) : fld (coreBegun d source) RST_CAUSE_KIND = 3
    ∧ fld (coreBegun d source) RST_CAUSE_SOURCE = source ∧ rdn (coreBegun d source) RST_CORE = min (rdn d RST_CORE + 1) 0xFFFFFFFF
    ∧ (coreBegun d source).clock = d.clock := by
  obtain ⟨hk, hsrc⟩ := cause_recordCause (count d RST_CORE) (kind := rkCore) (by decide) hs (boolBit (storeRuns d))
  have hcount : rdn (recordCause (count d RST_CORE) rkCore source (boolBit (storeRuns d))) RST_CORE = min (rdn d RST_CORE + 1) 0xFFFFFFFF := by
    rw [rdn, rd_recordCause _ _ _ _ (by decide), ← rdn, rdn_count_same]
  unfold coreBegun
  dsimp only
  split
  · refine ⟨(fld_congr _ (rd_raiseRst _ _ (by decide) (by decide) (by decide))).trans hk,
      (fld_congr _ (rd_raiseRst _ _ (by decide) (by decide) (by decide))).trans hsrc,
      (congrArg BitVec.toNat (rd_raiseRst _ _ (by decide) (by decide) (by decide))).trans hcount, clock_raiseRst _ _⟩
  · exact ⟨hk, hsrc, hcount, rfl⟩

theorem runningImage_congr {d e : Dev} (h : rd e FWU_STATUS = rd d FWU_STATUS) (s : Mem) : runningImage e s = runningImage d s := by
  rw [runningImage, runningImage, runningSlot, runningSlot, flag_congr FWU_STATUS_RECOVERY h, fld_congr FWU_STATUS_RUNNING_SLOT h]

theorem readCore_runningImage (d : Dev) (s : Mem) (n : Nat) (hn : n = imgCoreLen (runningImage d s)) :
    readCore (loadCores (runningImage d s) s) 0 n = runningImage d s 1024 n := by
  subst hn
  exact readMem_writeMem_same (length_readMem _ _ _ _)

/-- What is said of the device and the memories after a CORE reset that runs. -/
structure coreIsReset (d : Dev) (s : Mem) (e : Dev) (t : Mem) (source : Nat) : Prop where
  kind : fld e RST_CAUSE_KIND = 3
  source : fld e RST_CAUSE_SOURCE = source
  count : rdn e RST_CORE = min (rdn d RST_CORE + 1) 0xFFFFFFFF
  dram : t.dram = s.dram
  flash : t.flash = s.flash
  cores : ∀ n, n = imgCoreLen (runningImage d s) → readCore t 0 n = runningImage d s 1024 n
  clock : e.clock = d.clock
  states : ∀ x : Line, termState e x = termState d x

theorem coreReset_spec {source : Nat} (hs : source < 16) (ha : flag d FWU_STATUS_ACTIVATING = false) (hp : d.corePause = false)
    (hd : domainOn d 49 = true) : coreIsReset d s (coreReset source d s).1 (coreReset source d s).2 source := by
  obtain ⟨hk, hsrc, hcount, hclock⟩ := coreBegun_spec d hs
  have hend {q : Reg} (h : offStore q.ofs) : rd (endStore (coreBegun d source)) q = rd (coreBegun d source) q := (keepsWords_endStore _).rd h
  have himg : runningImage (coreBegun d source) s = runningImage d s := runningImage_congr (rd_coreBegun d source (by unfold offReset; decide)) s
  rw [coreReset_runs source ha hp hd, himg]
  refine ⟨(fld_congr _ (hend (.inl (by decide)))).trans hk, (fld_congr _ (hend (.inl (by decide)))).trans hsrc,
    (congrArg BitVec.toNat (hend (.inl (by decide)))).trans hcount, rfl, rfl, fun n hn => readCore_runningImage d s n hn,
    (clock_endStore _).trans hclock, fun x => ?_⟩
  refine (fld_congr _ (hend (.inl ?_))).trans (fld_congr _ (rd_coreBegun d source ?_))
  · cases x <;> decide
  · cases x <;> (unfold offReset; decide)

end Core

/-- Writes of RST_CTL (R423, R426). -/
theorem rst_ctl_writes (m : Master) (value : Word) (s : State) (ha : admits s.dev m RST_CTL.ofs = true) :
      (getBits value 15 0 ≠ 0xA5C3 → exec (.systemWrite m value) s = .next s ∧ exec (.coreWrite m value) s = .next s)
      ∧ (resetSource m true = none → exec (.systemWrite m value) s = .next s)
      ∧ ∀ src : Nat, getBits value 15 0 = 0xA5C3 → resetSource m false = some src →
        (flag s.dev FWU_STATUS_ACTIVATING = true → ∃ d : Dev, exec (.coreWrite m value) s = .next (s.withDev d) ∧ d.fwu.coreHeld = some src
          ∧ d.regs = s.dev.regs)
        ∧ (flag s.dev FWU_STATUS_ACTIVATING = false → s.dev.corePause = false → domainOn s.dev 49 = true → ∃ (t : State) (n : Nat),
          exec (.coreWrite m value) s = .next t ∧ fld t.dev RST_CAUSE_KIND = 3 ∧ fld t.dev RST_CAUSE_SOURCE = src
            ∧ rdn t.dev RST_CORE = min (rdn s.dev RST_CORE + 1) 0xFFFFFFFF ∧ t.mem.dram = s.mem.dram ∧ t.mem.flash = s.mem.flash
            ∧ n = imgCoreLen (runningImage s.dev s.mem) ∧ readCore t.mem 0 n = runningImage s.dev s.mem 1024 n
            ∧ t.dev.clock = s.dev.clock ∧ ∀ x : Line, termState t.dev x = termState s.dev x) := by
  refine ⟨fun h => ⟨?_, ?_⟩, fun h => ?_, fun src hv hs => ?_⟩
  · rw [exec_systemWrite, rstCtlWrite_unconfirmed ha (by rwa [confirmation_system]), after_self]
  · rw [exec_coreWrite, rstCtlWrite_unconfirmed ha (by rwa [confirmation_core]), after_self]
  · rw [exec_systemWrite, rstCtlWrite_refused ha (by simp) h, after_self]
  · have he : exec (.coreWrite m value) s = .next (s.after (coreReset src s.dev s.mem)) := by
      rw [exec_coreWrite, rstCtlWrite_core ha ((confirmation_core value).trans hv) (by simp) (by simp) hs]
    refine ⟨fun hact => ?_, fun hact hp hd => ?_⟩
    · rw [he, coreReset_held src hact]
      exact ⟨_, rfl, rfl, rfl⟩
    · obtain ⟨hk, hsrc, hcount, hdram, hflash, hcores, hclock, hstates⟩ := coreReset_spec (s := s.mem) (resetSource_lt hs) hact hp hd
      exact ⟨_, _, he, hk, hsrc, hcount, hdram, hflash, rfl, hcores _ rfl, hclock, hstates⟩

/-! ### The core watchdog (R426) -/

section Watchdog

variable {d : Dev} {s : Mem}

/-- The device as the watchdog has expired and starts again. -/
def wdtExpired (d : Dev) : Dev := armWdt (raiseRst (count d RST_WDT_EXPIRE) rsWdt)

theorem wdtExpire_resets (ht : timerOver d .wdt = true) (he : flag d RST_WDT_EN = true) (ha : flag d FWU_STATUS_ACTIVATING = false) :
    wdtExpire d s = coreReset rsrcWatchdog (wdtExpired d) s := by
  rw [wdtExpire, ht, he, ha]
  rfl

theorem wdtExpire_stays (h : timerOver d .wdt = false ∨ flag d RST_WDT_EN = false ∨ flag d FWU_STATUS_ACTIVATING = true) :
    wdtExpire d s = (d, s) := by
  rw [wdtExpire, if_neg]
  obtain h | h | h := h <;> simp [h]

theorem rd_wdtExpired (d : Dev) {q : Reg} (h : offReset q.ofs) (h' : q.ofs ≠ RST_WDT_EXPIRE.ofs) : rd (wdtExpired d) q = rd d q :=
  (rd_raiseRst _ _ h.2.2.1 h.2.2.2.1 h.2.2.2.2).trans (rd_count_other d h')

theorem wdtExpired_spec (d : Dev) : rdn (wdtExpired d) RST_WDT_EXPIRE = min (rdn d RST_WDT_EXPIRE + 1) 0xFFFFFFFF
    ∧ rdn (wdtExpired d) RST_CORE = rdn d RST_CORE ∧ (wdtExpired d).corePause = d.corePause
    ∧ flag (wdtExpired d) FWU_STATUS_ACTIVATING = flag d FWU_STATUS_ACTIVATING ∧ domainOn (wdtExpired d) 49 = domainOn d 49 := by
  refine ⟨?_, ?_, ?_, ?_, ?_⟩
  · exact (congrArg BitVec.toNat (rd_raiseRst (count d RST_WDT_EXPIRE) rsWdt (q := RST_WDT_EXPIRE) (by decide) (by decide) (by decide))).trans
      (rdn_count_same d RST_WDT_EXPIRE)
  · exact congrArg BitVec.toNat ((rd_raiseRst (count d RST_WDT_EXPIRE) rsWdt (q := RST_CORE) (by decide) (by decide) (by decide)).trans
      (rd_count_other d (by decide)))
  · obtain ⟨r, p, o, e⟩ := raiseEvt_spec (count d RST_WDT_EXPIRE) evRST rsWdt
    rw [wdtExpired, raiseRst, e]
    rfl
  · exact flag_congr _ (rd_wdtExpired d (by unfold offReset; decide) (by decide))
  · exact domainOn_congr_words (rd_wdtExpired d (by unfold offReset; decide) (by decide)) (rd_wdtExpired d (by unfold offReset; decide) (by decide)) 49

/-- A CORE reset leaves DRAM and flash, and the count of the watchdog. -/
theorem coreReset_leaves (d : Dev) (s : Mem) (source : Nat) (ha : flag d FWU_STATUS_ACTIVATING = false) :
    rdn (coreReset source d s).1 RST_WDT_EXPIRE = rdn d RST_WDT_EXPIRE ∧ (coreReset source d s).2.dram = s.dram
      ∧ (coreReset source d s).2.flash = s.flash := by
  by_cases h : d.corePause = true ∨ domainOn d 49 = false
  · rw [coreReset_void source ha h]
    exact ⟨rfl, rfl, rfl⟩
  · simp only [not_or, Bool.not_eq_true, Bool.not_eq_false] at h
    obtain ⟨hp, hd⟩ := h
    rw [coreReset_runs source ha hp hd]
    exact ⟨congrArg BitVec.toNat (((keepsWords_endStore _).rd (.inl (by decide))).trans (rd_coreBegun d source (by unfold offReset; decide))), rfl, rfl⟩

/-- The row of RST_WDT in the table of the reset unit (R426). -/
def wdtRow : RegRow :=
  ⟨"RST_WDT", 0x50, [], 0x3e8, false, [⟨"EN", 31, 31, .rw, .all⟩, ⟨"KICK", 30, 30, .wo, .all⟩, ⟨"WDT_MS", 13, 0, .rwc, (.span 100 10000)⟩]⟩

/-- A word of a unit behind the host interface. -/
def farWord (o : Nat) : Prop := 0x1000000 ≤ o

theorem keepsWords_logClampRst (d : Dev) (writer rel width lsb v a : Nat) : keepsWords farWord d (logClamp d writer (unitAt 59) rel width lsb v a) := by
  have hb : (unitAt 59).base = 0x110000 := rfl
  have hp : (unitAt (unitAt 59).parent).base < 0x110000 := by decide
  have hlow {o : Nat} (ho : o < 0x1000000) : ¬ farWord o := Nat.not_le.mpr ho
  unfold logClamp
  rw [hb]
  refine keepsWords.raiseFn ?_ (hlow (by decide)) _
  refine forEach_keeps_mem (fun _ b hm hg => hg.setFld (f := HDR_CLAMP_LAST_INDEX b) (hlow ?_) _) ?_
  · simp only [List.mem_cons, List.not_mem_nil, or_false] at hm
    simp only
    omega
  · refine keepsWords.setFld (f := HDR_CLAMP_COUNT 0x110000) ?_ (hlow (by decide)) _
    refine keepsWords.setFlag (f := HDR_CLAMP_VALID 0x110000) ?_ (hlow (by decide)) _
    refine keepsWords.setFlag (f := HDR_STATUS_CLAMPED 0x110000) ?_ (hlow (by decide)) _
    exact keepsWords.wr (r := ROOT_CLAMP_SEQ) ((keepsWords.refl _ d).of_regs rfl) (hlow (by decide)) _

/-- A write of RST_WDT stores EN as written, after a clamped WDT_MS is logged. -/
theorem storeAt_wdt (d : Dev) (m : Master) (value : Word) : ∃ e a, storeAt d m RST_WDT.ofs value
      = wr e RST_WDT (putBits (putBits (rd d RST_WDT) 31 31 (getBits value 31 31)) 13 0 a)
    ∧ keepsWords farWord d e := by
  have hrow : rowAt (unitAt 59) (RST_WDT.ofs - (unitAt 59).base) = some wdtRow := rfl
  have hreg : regAt (unitAt 59) wdtRow (RST_WDT.ofs - (unitAt 59).base) = RST_WDT := rfl
  have hfix : wdtRow.fields.filter (fun f => f.acc == .rwc && f.rng != .dep) = [⟨"WDT_MS", 13, 0, .rwc, .span 100 10000⟩] := rfl
  have hdep : wdtRow.fields.filter (fun f => f.acc == .rwc && f.rng == .dep) = [] := rfl
  have hplain : storePlain (rd d RST_WDT) value wdtRow.fields = putBits (rd d RST_WDT) 31 31 (getBits value 31 31) := rfl
  rw [storeAt_row value (by decide) hrow, storeWord, hreg, hfix, hdep, hplain]
  refine ⟨_, _, rfl, ?_⟩
  dsimp only [List.foldl_cons, List.foldl_nil, storeRwc]
  split
  · exact .refl _ d
  · exact keepsWords_logClampRst _ _ _ _ _ _ _

theorem flag_storeAt_wdt (d : Dev) (m : Master) (value : Word) : flag (storeAt d m RST_WDT.ofs value) RST_WDT_EN = value.getLsbD 31 := by
  obtain ⟨e, a, h, -⟩ := storeAt_wdt d m value
  rw [h, flag, fld, rd_wr_same, getBits_putBits_other _ _ (.inr (by decide)) (by decide) (by decide), getBits_putBits_same _ _ (by decide) (by decide),
    getBits_bit31]
  cases value.getLsbD 31 <;> rfl

theorem storeAt_wdt_keeps (d : Dev) (m : Master) (value : Word) :
    flag (storeAt d m RST_WDT.ofs value) FWU_STATUS_ACTIVATING = flag d FWU_STATUS_ACTIVATING ∧ (storeAt d m RST_WDT.ofs value).elapsed = d.elapsed := by
  obtain ⟨e, a, h, hw⟩ := storeAt_wdt d m value
  obtain ⟨r, y, c, p, o, ht⟩ := storeAt_touches d m RST_WDT.ofs value
  refine ⟨?_, by rw [ht]⟩
  have hfar : farWord FWU_STATUS_ACTIVATING.reg.ofs := by
    unfold farWord
    decide
  rw [h, flag_congr FWU_STATUS_ACTIVATING (rd_wr_other e _ (by decide)), hw.flag hfar]

/-- The watchdog that starts again outside an activation counts from now. -/
theorem armWdt_timers {d : Dev} (h : flag d FWU_STATUS_ACTIVATING = false) :
    (TimerId.wdt, d.elapsed + fld (armWdt d) RST_WDT_WDT_MS * ticksPerMs) ∈ (armWdt d).timers := by
  have hms : fld (armWdt d) RST_WDT_WDT_MS = fld d RST_WDT_WDT_MS := rfl
  rw [hms, armWdt, h]
  exact List.mem_cons_self

theorem wdtWrite_kicks {m : Master} {value : Word} (h : admits d m RST_WDT.ofs = true) (he : value.getLsbD 31 = true) (hk : value.getLsbD 30 = true) :
    wdtWrite m value d = armWdt (storeAt d m RST_WDT.ofs value) := by
  unfold wdtWrite
  rw [guarded_admits _ h]
  dsimp only
  rw [flag_storeAt_wdt, he, hk, Bool.or_true]
  rfl

end Watchdog

/-- WDT_EXPIRE and KICK. -/
theorem core_watchdog (s : State) :
      (timerOver s.dev .wdt = true → flag s.dev RST_WDT_EN = true → flag s.dev FWU_STATUS_ACTIVATING = false →
        ∃ t : State, exec .wdtExpire s = .next t ∧ rdn t.dev RST_WDT_EXPIRE = min (rdn s.dev RST_WDT_EXPIRE + 1) 0xFFFFFFFF
          ∧ t.mem.dram = s.mem.dram ∧ t.mem.flash = s.mem.flash
          ∧ (s.dev.corePause = false → domainOn s.dev 49 = true → fld t.dev RST_CAUSE_KIND = 3 ∧ fld t.dev RST_CAUSE_SOURCE = 6
              ∧ rdn t.dev RST_CORE = min (rdn s.dev RST_CORE + 1) 0xFFFFFFFF))
      ∧ (timerOver s.dev .wdt = false ∨ flag s.dev RST_WDT_EN = false ∨ flag s.dev FWU_STATUS_ACTIVATING = true →
          exec .wdtExpire s = .next s)
      ∧ ∀ (m : Master) (value : Word), admits s.dev m RST_WDT.ofs = true → value.getLsbD 31 = true → flag s.dev FWU_STATUS_ACTIVATING = false →
        ∃ d : Dev, exec (.kick m value) s = .next (s.withDev d) ∧ flag d RST_WDT_EN = true
          ∧ (TimerId.wdt, s.dev.elapsed + fld d RST_WDT_WDT_MS * ticksPerMs) ∈ d.timers := by
  refine ⟨fun ht he ha => ?_, fun h => ?_, fun m value h hv ha => ?_⟩
  · obtain ⟨hwdt, hcore, hpause, hact, hon⟩ := wdtExpired_spec s.dev
    obtain ⟨hkeep, hdram, hflash⟩ := coreReset_leaves (wdtExpired s.dev) s.mem rsrcWatchdog (hact.trans ha)
    rw [exec_wdtExpire, wdtExpire_resets ht he ha]
    refine ⟨_, rfl, hkeep.trans hwdt, hdram, hflash, fun hp hd => ?_⟩
    obtain ⟨hk, hsrc, hcount, -⟩ := coreReset_spec (s := s.mem) (source := rsrcWatchdog) (by decide) (hact.trans ha) (hpause.trans hp) (hon.trans hd)
    exact ⟨hk, hsrc, hcount.trans (by rw [hcore])⟩
  · rw [exec_wdtExpire, wdtExpire_stays h, after_self]
  · rw [exec_kick, wdtWrite_kicks h (by simp [hv]) (by simp)]
    obtain ⟨hact, hel⟩ := storeAt_wdt_keeps s.dev m (value ||| 0x40000000)
    refine ⟨_, rfl, (flag_storeAt_wdt s.dev m (value ||| 0x40000000)).trans (by simp [hv]), ?_⟩
    rw [← hel]
    exact armWdt_timers (hact.trans ha)

end Sys2Proof.Machine
end

section
/-!
PROOFS. The FUNCTION reset (R425; O60).
-/

namespace Sys2Proof.Machine

theorem exec_functionReset (s : State) : exec .functionReset s = .next (s.withDev (functionReset s.dev)) := rfl

/-! ### The reset of every function (R320, R425) -/

section Functions

variable (d : Dev)

theorem clock_resetFunction {f : Nat} (hf : f < 32) : (resetFunction d f).clock = d.clock := by
  obtain ⟨t, p, m, e⟩ := resetMsix_touches (releaseMaster (functionCleared d f) f) f
  obtain ⟨r', t', p', o', e'⟩ := releaseMaster_touches (functionCleared d f) f
  obtain ⟨r'', t'', e''⟩ := ringsCleared_touches d ((List.range 1024).filter (fun r => ringOwner d r == f))
  have hc := (functionCleared_flrTouches d hf).clock
  have heq : resetFunction d f = resetMsix (releaseMaster (functionCleared d f) f) f := resetFunction_eq d f
  rw [heq, e, e', hc, e'']

theorem ringCleared_resetFunction {d : Dev} {r f : Nat} (hf : f < 32) (hr : r < 1024) (h : ringCleared r d) : ringCleared r (resetFunction d f) := by
  obtain ⟨t, p, m, e⟩ := resetMsix_touches (releaseMaster (functionCleared d f) f) f
  have heq : resetFunction d f = resetMsix (releaseMaster (functionCleared d f) f) f := resetFunction_eq d f
  have hrings : ringCleared r (ringsCleared d ((List.range 1024).filter (fun r => ringOwner d r == f))) :=
    forEach_keeps (P := ringCleared r) (fun _ k he => he.disableZero k) _ h
  have hfn : ringCleared r (functionCleared d f) :=
    ringCleared_congr (functionCleared_flrTouches d hf).host ((functionCleared_flrTouches d hf).2 _ (by unfold flrKeeps; simp only; omega)) hrings
  have hrel := (releaseFunction_spec (functionCleared d f) hf).2 r hfn
  rw [heq, e]
  exact hrel

theorem ringOwner_resetFunction {f r : Nat} (hf : f < 32) : ringOwner (resetFunction d f) r = ringOwner d r :=
  fld_congr _ ((resetFunction_spec d hf).words _ (by simp only; omega) (by unfold flrKeeps; simp only; omega) (by simp only; omega))

/-- Every function is reset. -/
def functionsReset (d : Dev) : Dev := forEach (List.range 32) resetFunction d

theorem clock_functionsReset : (functionsReset d).clock = d.clock :=
  forEach_keeps_mem (P := fun e => e.clock = d.clock) (fun e _ hf he => (clock_resetFunction e (List.mem_range.mp hf)).trans he) rfl

theorem rd_functionsReset {q : Reg} (h : 0x100000 ≤ q.ofs) (h' : q.ofs < 0x240000 ∨ 0x600000 ≤ q.ofs ∧ q.ofs < 0x800000) :
    rd (functionsReset d) q = rd d q := by
  refine forEach_keeps_mem (P := fun e => rd e q = rd d q) (fun e f hf he => ?_) rfl
  exact ((resetFunction_spec e (List.mem_range.mp hf)).words q h (by unfold flrKeeps; omega) (by simp only; omega)).trans he

theorem commits_functionsReset {c : Commit} (hc : c ∈ (functionsReset d).commits) : 0x20 ≤ posterMaster c.poster := by
  refine Nat.not_lt.mp fun hlt => ?_
  have hnone : ∀ b ∈ (functionsReset d).commits, posterMaster b.poster ≠ posterMaster c.poster :=
    forEach_reaches_mem (P := fun e => ∀ b ∈ e.commits, posterMaster b.poster ≠ posterMaster c.poster) (a := posterMaster c.poster)
      (fun e _ hf he b hb => he b ((resetFunction_spec e (List.mem_range.mp hf)).commits b hb).1)
      (fun e b hb => ((resetFunction_spec e hlt).commits b hb).2) (List.mem_range.mpr hlt) d
  exact hnone c hc rfl

theorem ringHw_functionsReset {r : Nat} (hr : r < 1024) : ringHw (functionsReset d) r = RingHw.reset := by
  have ho : ringOwner d r < 32 := fld_lt d (HIF_Rr_OWN_OWNER r)
  have howner : ringOwner (functionsReset d) r = ringOwner d r :=
    forEach_keeps_mem (P := fun e => ringOwner e r = ringOwner d r)
      (fun e f hf he => (ringOwner_resetFunction e (List.mem_range.mp hf)).trans he) rfl
  have hcleared : ringOwner (functionsReset d) r = ringOwner d r → ringCleared r (functionsReset d) :=
    forEach_reaches_mem (P := fun e => ringOwner e r = ringOwner d r → ringCleared r e) (a := ringOwner d r)
      (fun e f hf he h => ringCleared_resetFunction (List.mem_range.mp hf) hr
        (he ((ringOwner_resetFunction e (List.mem_range.mp hf)).symm.trans h)))
      (fun e h => (resetFunction_spec e ho).cleared r hr ((ringOwner_resetFunction e ho).symm.trans h)) (List.mem_range.mpr ho) d
  exact (hcleared howner).2

end Functions

/-! ### The release of the functions and the main channels (R36, R351) -/

section Release

variable (d : Dev)

/-- The halt has ended and no channel runs. -/
def haltEnded (d : Dev) : Dev := setFlag { d with host := { d.host with chans := [], turn := 0 } } DMA_STATUS_HALTED false

/-- The functions and the main channels are released. -/
def mastersReleased (d : Dev) : Dev := forEach (List.range 0x60) releaseMaster d

/-- A release leaves the rings and ends channels alone. -/
theorem releaseMaster_host (m : Nat) (h : d.host.chans = []) : (releaseMaster d m).host.chans = [] ∧ (releaseMaster d m).host.rings = d.host.rings := by
  have hflush (g : Dev) (q : Reg) (b : Nat) (v : Bool) : (flushVectors (setRegBit g q b v)).host = g.host := by
    obtain ⟨p, o, e⟩ := flushVectors_spec (setRegBit g q b v)
    rw [e]
    rfl
  unfold releaseMaster
  split
  · dsimp only
    rw [hflush]
    split
    · obtain ⟨r, e, _⟩ := stopRings_touches d m
      rw [e]
      exact ⟨h, rfl⟩
    · split
      · refine ⟨?_, rfl⟩
        show d.host.chans.filter _ = []
        rw [h]
        rfl
      · split
        · exact ⟨h, rfl⟩
        · exact ⟨h, rfl⟩
  · exact ⟨h, rfl⟩

/-- A word of the units between the root and the host interface, and the DMA status. -/
def midWord (o : Nat) : Prop := 0x100000 ≤ o ∧ o < 0xf00000 ∨ o = 0x1000044

theorem rd_releaseMaster {m : Nat} (hm : m < 0x60) {q : Reg} (h : midWord q.ofs) : rd (releaseMaster d m) q = rd d q := by
  unfold midWord at h
  have hflush (g : Dev) : rd (flushVectors (setRegBit g (ROOT_FRZ_MAP (m / 32)) (m % 32) false)) q = rd g q := by
    rw [rd, flushVectors_regs, ← rd, rd_setRegBit_other _ _ _ (by simp only; omega)]
  unfold releaseMaster
  split
  · dsimp only
    rw [hflush]
    split
    · exact (stopRings_spec d m).1 q (by simp only; omega)
    · exact rd_setFlag_other _ _ (by simp only; omega)
  · rfl

theorem mastersReleased_host (h : d.host.chans = []) : (mastersReleased d).host.chans = [] ∧ (mastersReleased d).host.rings = d.host.rings :=
  forEach_keeps (P := fun e => e.host.chans = [] ∧ e.host.rings = d.host.rings) (fun e m he => by
    obtain ⟨hc, hr⟩ := he
    obtain ⟨hc', hr'⟩ := releaseMaster_host e m hc
    exact ⟨hc', hr'.trans hr⟩) _ ⟨h, rfl⟩

theorem rd_mastersReleased {q : Reg} (h : midWord q.ofs) : rd (mastersReleased d) q = rd d q :=
  forEach_keeps_mem (P := fun e => rd e q = rd d q) (fun e _ hm he => (rd_releaseMaster e (List.mem_range.mp hm) h).trans he) rfl

theorem mastersReleased_parts : (mastersReleased d).clock = d.clock ∧ (mastersReleased d).commits = d.commits :=
  forEach_keeps (P := fun e => e.clock = d.clock ∧ e.commits = d.commits) (fun e m he => by
    obtain ⟨r, t, p, o, heq⟩ := releaseMaster_touches e m
    rw [heq]
    exact he) _ ⟨rfl, rfl⟩

theorem isFrozen_mastersReleased {m : Nat} (hm : m < 0x60) : isFrozen (mastersReleased d) m = false :=
  forEach_reaches_mem (P := fun e => isFrozen e m = false) (a := m)
    (fun e b _ he => by rw [isFrozen_releaseMaster e b (by omega), he, ite_self])
    (fun e => by rw [isFrozen_releaseMaster e m (by omega), if_pos rfl]) (List.mem_range.mpr hm) d

end Release

/-! ### The registers of the host attachment (R424) -/

section Host

variable (d : Dev)

theorem rd_clearRange (a b : Nat) (q : Reg) : rd (clearRange d a b) q = if q.ofs < a ∨ b ≤ q.ofs then rd d q else q.rst := by
  have h := sget_filter q.rst d.regs (fun o => decide (o < a) || decide (b ≤ o)) q.ofs
  simp only [Bool.or_eq_true, decide_eq_true_eq] at h
  exact h

/-- The key pages are function 0's. -/
def pagesReturned (d : Dev) : Dev := forEach (List.range 56) (fun d p => setFld d (CIP_PAGEp_STATUS_OWNER (p + 8)) 0) d

/-- The rights take their reset words. -/
def rightsReset (d : Dev) : Dev := forEach (List.range 32) (fun d f => wr d (HIF_FNf_RIGHTS f) (HIF_FNf_RIGHTS f).rst) d

theorem resetHost_eq : resetHost d = rightsReset (clearRange (pagesReturned d) HIF_CFG.ofs 0x1000000) := rfl

theorem rd_pagesReturned {q : Reg} (h : q.ofs < 0x800000 ∨ 0x810000 ≤ q.ofs) : rd (pagesReturned d) q = rd d q :=
  forEach_keeps_mem (P := fun e => rd e q = rd d q) (fun e p hp he =>
    (rd_setFld_other e _ (by have := List.mem_range.mp hp; simp only; omega)).trans he) rfl

theorem rd_rightsReset {q : Reg} (h : ∀ f, f < 32 → q.ofs ≠ (HIF_FNf_RIGHTS f).ofs) : rd (rightsReset d) q = rd d q :=
  forEach_keeps_mem (P := fun e => rd e q = rd d q) (fun e f hf he => (rd_wr_other e _ (h f (List.mem_range.mp hf))).trans he) rfl

theorem rights_rightsReset {f : Nat} (hf : f < 32) : rd (rightsReset d) (HIF_FNf_RIGHTS f) = (HIF_FNf_RIGHTS f).rst :=
  forEach_reaches_mem (P := fun e => rd e (HIF_FNf_RIGHTS f) = (HIF_FNf_RIGHTS f).rst) (a := f) (fun e g _ he => by
    by_cases hg : f = g
    · rw [hg, rd_wr_same]
    · rw [rd_wr_other _ _ (by simp only; omega), he]) (fun e => rd_wr_same _ _ _) (List.mem_range.mpr hf) d

theorem rd_resetHost_other {q : Reg} (h : q.ofs < 0x800000 ∨ 0x1000000 ≤ q.ofs) : rd (resetHost d) q = rd d q := by
  rw [resetHost_eq, rd_rightsReset _ (by simp only; omega), rd_clearRange, if_pos (by simp only; omega), rd_pagesReturned _ (by omega)]

theorem rd_resetHost_cleared {q : Reg} (h : 0xf02000 ≤ q.ofs) (h' : q.ofs < 0x1000000) : rd (resetHost d) q = q.rst := by
  rw [resetHost_eq, rd_rightsReset _ (by simp only; omega), rd_clearRange, if_neg (by simp only; omega)]

theorem resetHost_regs : ∃ r, resetHost d = { d with regs := r } := by
  have hp : ∃ r, pagesReturned d = { d with regs := r } :=
    forEach_keeps (P := fun e => ∃ r, e = { d with regs := r }) (fun e p he => by
      obtain ⟨r, rfl⟩ := he
      exact ⟨_, rfl⟩) _ ⟨d.regs, rfl⟩
  obtain ⟨r, e⟩ := hp
  rw [resetHost_eq, e]
  exact forEach_keeps (P := fun e => ∃ r, e = { d with regs := r }) (fun e p he => by
    obtain ⟨r, rfl⟩ := he
    exact ⟨_, rfl⟩) _ ⟨_, rfl⟩

/-- The reset is counted and shown. -/
def functionNoted (d : Dev) (cut : Nat) : Dev := raiseRst (syncEvents (recordCause (count d RST_FUNCTION) rkFunction rsrcFlr cut)) rsReset

theorem rd_syncEvents_other {q : Reg} (h : q.ofs ≠ HIF_EVT_UNIT.ofs) (h' : q.ofs ≠ (HIF_FNf_EVT 0).ofs) : rd (syncEvents d) q = rd d q := by
  unfold syncEvents
  dsimp only
  split
  · rw [rd_setRegBit_other _ _ _ h', rd_wrn_other _ _ h]
  · rw [rd_raiseFn_other _ _ _ h', rd_wrn_other _ _ h]

theorem syncEvents_touches : ∃ r p o, syncEvents d = { d with regs := r, msixPending := p, out := o } := by
  unfold syncEvents
  dsimp only
  split
  · exact ⟨_, _, _, rfl⟩
  · obtain ⟨r, p, o, e⟩ := raiseFn_regs (wrn d HIF_EVT_UNIT (evtUnits.foldl (fun n u => if rd d u.evt &&& rd d u.en = 0 then n else n ||| 2 ^ u.bit) 0))
      0 evUnit
    rw [e]
    exact ⟨r, p, o, rfl⟩

theorem functionNoted_touches (cut : Nat) : ∃ r p o, functionNoted d cut = { d with regs := r, msixPending := p, out := o } := by
  obtain ⟨r, p, o, e⟩ := syncEvents_touches (recordCause (count d RST_FUNCTION) rkFunction rsrcFlr cut)
  obtain ⟨r', p', o', e'⟩ := raiseEvt_spec (syncEvents (recordCause (count d RST_FUNCTION) rkFunction rsrcFlr cut)) evRST rsReset
  exact ⟨r', p', o', by rw [functionNoted, raiseRst, e', e]; rfl⟩

theorem functionNoted_parts (cut : Nat) : (functionNoted d cut).clock = d.clock ∧ (functionNoted d cut).host = d.host
    ∧ (functionNoted d cut).commits = d.commits := by
  obtain ⟨r, p, o, e⟩ := functionNoted_touches d cut
  rw [e]
  exact ⟨rfl, rfl, rfl⟩

/-- A word that is no event word of the reset unit or of function 0. -/
def offRstEvents (o : Nat) : Prop := o ≠ RST_EVT.ofs ∧ o ≠ HIF_EVT_UNIT.ofs ∧ o ≠ (HIF_FNf_EVT 0).ofs

theorem rd_functionNoted_cause (cut : Nat) {q : Reg} (h : offRstEvents q.ofs) :
    rd (functionNoted d cut) q = rd (recordCause (count d RST_FUNCTION) rkFunction rsrcFlr cut) q := by
  obtain ⟨h1, h2, h3⟩ := h
  exact (rd_raiseRst _ _ h1 h2 h3).trans (rd_syncEvents_other _ h2 h3)

theorem rd_functionNoted (cut : Nat) {q : Reg} (h : offRstEvents q.ofs) (h' : q.ofs ≠ RST_CAUSE.ofs) (h'' : q.ofs ≠ RST_FUNCTION.ofs) :
    rd (functionNoted d cut) q = rd d q := by
  rw [rd_functionNoted_cause _ _ h, rd_recordCause _ _ _ _ h', rd_count_other _ h'']

end Host

/-! ### FUNCTION_RESET (R425) -/

section Reset

variable (d : Dev)

/-- The functions, the channels and the host attachment are reset. -/
def functionsCut (d : Dev) : Dev := resetHost (mastersReleased (haltEnded (functionsReset d)))

theorem functionReset_eq {d : Dev} (h : hostReaches d = true) : ∃ cut, functionReset d = functionNoted (functionsCut d) cut := by
  unfold functionReset
  rw [h, if_neg (by decide)]
  exact ⟨_, rfl⟩

theorem rd_functionsCut {q : Reg} (h : 0x100000 ≤ q.ofs) (h' : q.ofs < 0x120000 ∨ 0x600000 ≤ q.ofs ∧ q.ofs < 0x700000) :
    rd (functionsCut d) q = rd d q := by
  rw [functionsCut, rd_resetHost_other _ (.inl (by omega)), rd_mastersReleased _ (.inl (by omega)), haltEnded,
    rd_setFlag_other _ _ (by simp only; omega)]
  exact rd_functionsReset d h (by omega)

theorem functionsCut_parts : (functionsCut d).clock = d.clock ∧ (functionsCut d).commits = (functionsReset d).commits
    ∧ (functionsCut d).host.chans = [] ∧ (functionsCut d).host.rings = (functionsReset d).host.rings := by
  obtain ⟨r, e⟩ := resetHost_regs (mastersReleased (haltEnded (functionsReset d)))
  obtain ⟨hclock, hcommits⟩ := mastersReleased_parts (haltEnded (functionsReset d))
  obtain ⟨hchans, hrings⟩ := mastersReleased_host (haltEnded (functionsReset d)) rfl
  rw [functionsCut, e]
  exact ⟨hclock.trans (clock_functionsReset d), hcommits, hchans, hrings⟩

theorem halted_functionsCut : flag (functionsCut d) DMA_STATUS_HALTED = false :=
  (flag_congr DMA_STATUS_HALTED ((rd_resetHost_other (mastersReleased (haltEnded (functionsReset d))) (.inr (by decide))).trans
    (rd_mastersReleased _ (.inr rfl)))).trans (flag_setFlag_same _ _ (by decide) (by decide))

theorem isFrozen_functionsCut {m : Master} (hm : m < 0x60) : isFrozen (functionsCut d) m = false := by
  have hword : (ROOT_FRZ_MAP (m / 32)).ofs < 0x1000 := frzMap_lt (Nat.lt_trans hm (by decide))
  have hfrozen := isFrozen_mastersReleased (haltEnded (functionsReset d)) hm
  rw [isFrozen, regBit] at hfrozen ⊢
  rw [functionsCut, rd_resetHost_other _ (.inl (by omega))]
  exact hfrozen

end Reset

theorem function_reset (s : State) : (hostReaches s.dev = false → exec .functionReset s = .next s)
      ∧ (hostReaches s.dev = true → ∃ d : Dev, exec .functionReset s = .next (s.withDev d) ∧ d.clock = s.dev.clock ∧ d.host.chans = []
        ∧ flag d DMA_STATUS_HALTED = false ∧ fld d RST_CAUSE_KIND = 2 ∧ fld d RST_CAUSE_SOURCE = 7
        ∧ rdn d RST_FUNCTION = min (rdn s.dev RST_FUNCTION + 1) 0xFFFFFFFF ∧ (∀ m : Master, m < 0x60 → isFrozen d m = false)
        ∧ (∀ r : Nat, r < 1024 → ringOwner d r = 0 ∧ fld d (HIF_Rr_STATUS_STATE r) = ringDisabled ∧ ringHw d r = RingHw.reset)
        ∧ (∀ f : Nat, f < 32 → rd d (HIF_FNf_RIGHTS f) = (HIF_FNf_RIGHTS f).rst)
        ∧ (∀ c ∈ d.commits, 0x20 ≤ posterMaster c.poster) ∧ ∀ x : Line, termState d x = termState s.dev x) := by
  refine ⟨fun h => ?_, fun h => ?_⟩
  · rw [exec_functionReset, functionReset, h, if_pos (by decide), withDev_self]
  obtain ⟨cut, heq⟩ := functionReset_eq h
  obtain ⟨hclock, hcommits, hchans, hrings⟩ := functionsCut_parts s.dev
  obtain ⟨nclock, nhost, ncommits⟩ := functionNoted_parts (functionsCut s.dev) cut
  obtain ⟨hkind, hsource⟩ := cause_recordCause (d := count (functionsCut s.dev) RST_FUNCTION) (kind := rkFunction) (source := rsrcFlr)
    (by decide) (by decide) cut
  have hrd {q : Reg} (hq : offRstEvents q.ofs) (h1 : q.ofs ≠ RST_CAUSE.ofs) (h2 : q.ofs ≠ RST_FUNCTION.ofs) :
      rd (functionReset s.dev) q = rd (functionsCut s.dev) q := by
    rw [heq, rd_functionNoted _ _ hq h1 h2]
  have hcause : rd (functionReset s.dev) RST_CAUSE = rd (recordCause (count (functionsCut s.dev) RST_FUNCTION) rkFunction rsrcFlr cut) RST_CAUSE := by
    rw [heq, rd_functionNoted_cause _ _ (by unfold offRstEvents; decide)]
  refine ⟨_, exec_functionReset s, ?_, ?_, ?_, ?_, ?_, ?_, fun m hm => ?_, fun r hr => ⟨?_, ?_, ?_⟩, fun f hf => ?_, fun c hc => ?_, fun x => ?_⟩
  · rw [heq, nclock, hclock]
  · rw [heq, nhost, hchans]
  · exact (flag_congr DMA_STATUS_HALTED (hrd (by unfold offRstEvents; decide) (by decide) (by decide))).trans (halted_functionsCut s.dev)
  · exact (fld_congr RST_CAUSE_KIND hcause).trans hkind
  · exact (fld_congr RST_CAUSE_SOURCE hcause).trans hsource
  · rw [heq, rdn, rd_functionNoted_cause _ _ (by unfold offRstEvents; decide), rd_recordCause _ _ _ _ (by decide), ← rdn, rdn_count_same, rdn,
      rd_functionsCut _ (by decide) (by decide), ← rdn]
  · have hword : (ROOT_FRZ_MAP (m / 32)).ofs < 0x1000 := frzMap_lt (Nat.lt_trans hm (by decide))
    have hfrozen := isFrozen_functionsCut s.dev hm
    rw [isFrozen, regBit] at hfrozen ⊢
    have hne {o : Nat} (ho : 0x1000 ≤ o) : (ROOT_FRZ_MAP (m / 32)).ofs ≠ o := by omega
    rw [hrd ⟨hne (by decide), hne (by decide), hne (by decide)⟩ (hne (by decide)) (hne (by decide))]
    exact hfrozen
  · rw [ringOwner, fld, hrd (by unfold offRstEvents; simp only; omega) (by simp only; omega) (by simp only; omega), functionsCut,
      rd_resetHost_cleared _ (by simp only; omega) (by simp only; omega)]
    rfl
  · rw [fld, hrd (by unfold offRstEvents; simp only; omega) (by simp only; omega) (by simp only; omega), functionsCut,
      rd_resetHost_cleared _ (by simp only; omega) (by simp only; omega)]
    exact (by decide : getBits 0x0 31 30 = 0)
  · rw [← ringHw_functionsReset s.dev hr, heq, ringHw, ringHw, nhost, hrings]
  · rw [hrd (by unfold offRstEvents; simp only; omega) (by simp only; omega) (by simp only; omega), functionsCut, resetHost_eq, rights_rightsReset _ hf]
  · rw [heq, ncommits, hcommits] at hc
    exact commits_functionsReset s.dev hc
  · refine fld_congr _ ?_
    rw [hrd (by unfold offRstEvents; cases x <;> decide) (by cases x <;> decide) (by cases x <;> decide),
      rd_functionsCut _ (by cases x <;> decide) (by cases x <;> decide)]

end Sys2Proof.Machine
end

section
/-!
PROOFS. The release of the device, the home preference and the TAP (R427 to R431, R442; O60).
-/

namespace Sys2Proof.Machine

theorem exec_bootDone (m : Master) (value : Word) (s : State) : exec (.bootDone m value) s = .next (s.withDev (bootDone m value s.dev)) := rfl

theorem exec_bootReleaseTimeout (s : State) : exec .bootReleaseTimeout s = .next (s.withDev (bootReleaseTimeout s.dev)) := rfl

theorem exec_homeWaitExpire (s : State) : exec .homeWaitExpire s = .next (s.withDev (homeWaitExpire s.dev)) := rfl

theorem exec_i2cAbandon (s : State) : exec .i2cAbandon s = .next s := rfl

theorem exec_jtagInstruction (i : JtagInstr) (low : Bool) (s : State) :
    exec (.jtagInstruction i low) s = .next (s.withDev (jtagInstruction i low s.dev)) := rfl

/-! ### A new terminal state leaves the reset unit alone -/

/-- A word of the reset unit past its header. -/
def rstUnit (o : Nat) : Prop := 0x110040 ≤ o ∧ o < 0x120000

theorem not_rstUnit {o : Nat} (h : o < 0x110000 ∨ 0x120000 ≤ o) : ¬ rstUnit o := by
  unfold rstUnit
  omega

section Quiet

variable {d e : Dev}

theorem keepsRst_raiseEvt (h : keepsWords rstUnit d e) {u : EvtUnit} (hu : 0x120000 ≤ u.evt.ofs) (b : Nat) : keepsWords rstUnit d (raiseEvt e u b) :=
  h.raiseEvt (not_rstUnit (.inr hu)) (not_rstUnit (by decide)) (not_rstUnit (by decide)) b

theorem not_rstUnit_lane (x : Line) : ¬ rstUnit (LLx_STATUS x.ix).ofs := not_rstUnit (by cases x <;> decide)

theorem keepsRst_syncLane (h : keepsWords rstUnit d e) (x : Line) (t : Nat) : keepsWords rstUnit d (syncLane e x t) := by
  have hok : keepsWords rstUnit d (setRegBit e (LLx_STATUS x.ix) (20 + t) (laserOkNow e x t)) := h.wr (not_rstUnit_lane x) _
  have hben {g : Dev} (hg : keepsWords rstUnit d g) (b : Bool) : keepsWords rstUnit d (setBen g x t b) := hg.wr (not_rstUnit_lane x) _
  unfold syncLane
  dsimp only
  split
  · split
    · unfold raiseBen
      split
      · exact hok
      · exact (hben hok true).count (not_rstUnit (by simp only; omega))
    · exact hben hok false
  split
  · exact hok
  split
  · exact hben hok false
  split
  · exact (hben hok false).of_regs rfl
  split
  · exact hben hok false
  · exact hok

theorem keepsRst_syncLaser (h : keepsWords rstUnit d e) (x : Line) : keepsWords rstUnit d (syncLaser e x) :=
  forEach_keeps (P := keepsWords rstUnit d) (fun _ t hg => keepsRst_syncLane hg x t) _ (h.setFld (f := LLx_STATUS_CAUSE x.ix) (not_rstUnit_lane x) _)

theorem keepsRst_sliceService (h : keepsWords rstUnit d e) (t : Nat) : keepsWords rstUnit d (sliceService e t) := by
  unfold sliceService
  split
  · next hs =>
    have ht := slicing_lt hs
    have hcut : keepsWords rstUnit d (sliceCut e t cutService) := fun q hq => by
      unfold rstUnit at hq
      unfold sliceCut
      dsimp only
      rw [rd_setVerdict _ (by omega) (by simp only; omega) (by omega), rd_recordSlice _ _ _ (by simp only; omega), rd_count_other _ (by simp only; omega),
        rd_wrn_other _ _ (by simp only; omega), rd_wrn_other _ _ (by simp only; omega)]
      exact h q hq
    rw [abortSlice_service hs]
    exact ((hcut.of_regs rfl).count (r := BST_SERVICE_ABORT) (not_rstUnit (by decide))).setFld (f := BST_STATUS_PHASE) (not_rstUnit (by decide)) 3
  · exact h

theorem keepsRst_queueLmm (h : keepsWords rstUnit d e) (x : Line) (type : Nat) (payload : List Byte) :
    keepsWords rstUnit d (queueLmm e x type payload) := by
  have hmade : keepsWords rstUnit d (makeLmm e x type payload).1 := h.of_regs rfl
  unfold queueLmm pushLmm
  split
  · exact hmade.count (not_rstUnit (by cases x <;> decide))
  · exact hmade.of_regs rfl

theorem keepsRst_moveState (d : Dev) (x : Line) (st cause : Nat) : keepsWords rstUnit d (moveState d x st cause) := by
  have hx : ¬ rstUnit (RNG_Lx_STATUS x.ix).ofs := not_rstUnit (by cases x <;> decide)
  by_cases h : termState d x = st
  · rw [moveState_of_same cause h]
    exact .refl _ d
  have hshown : keepsWords rstUnit d (stateShown d x st) :=
    ((keepsWords.refl _ d).setFld (f := RNG_Lx_STATUS_PREV_STATE x.ix) hx _).setFld (f := RNG_Lx_STATUS_STATE x.ix) hx st
  have hsettled : keepsWords rstUnit d (stateSettled d x st) :=
    keepsRst_syncLaser (keepsRst_raiseEvt hshown (u := evRNG x.ix) (by cases x <;> decide) _) x
  have hleft : keepsWords rstUnit d (standbyLeft (termState d x) (stateSettled d x st) x) := by
    unfold standbyLeft
    split
    · exact keepsRst_sliceService hsettled _
    · exact hsettled
  rw [moveState_eq cause h, stateReported]
  split
  · exact keepsRst_queueLmm hleft x _ _
  · exact hleft

end Quiet

/-! ### The end of the home preference (R431) -/

section Home

variable (d : Dev)

theorem clearHome_of_run {d : Dev} (h : homeRun d = true) : clearHome d = raiseRst (setFlag d RST_STATUS_HOME_RUN false) rsHomeEnd := if_pos h

theorem homeRun_clearHome : homeRun (clearHome d) = false := by
  by_cases h : homeRun d = true
  · rw [clearHome_of_run h, homeRun, flag_congr RST_STATUS_HOME_RUN (rd_raiseRst _ _ (by decide) (by decide) (by decide))]
    exact flag_setFlag_same _ _ (by decide) (by decide)
  · rw [clearHome, if_neg h]
    exact Bool.eq_false_iff.mpr h

/-- Beside HOME_RUN the status of the reset unit stays as the home preference ends. -/
theorem fld_clearHome {f : Fld} (hf : apart f RST_STATUS_HOME_RUN) : fld (clearHome d) f = fld d f := by
  have hreg : f.reg = RST_STATUS := hf.1
  unfold clearHome
  split
  · rw [fld_congr f (rd_raiseRst _ _ (by rw [hreg]; decide) (by rw [hreg]; decide) (by rw [hreg]; decide)), fld_setFlag_apart _ _ hf]
  · rfl

theorem rd_clearHome {q : Reg} (h : rstUnit q.ofs) (h' : q.ofs ≠ RST_STATUS.ofs) (h'' : q.ofs ≠ RST_EVT.ofs) : rd (clearHome d) q = rd d q := by
  unfold rstUnit at h
  unfold clearHome
  split
  · rw [rd_raiseRst _ _ h'' (by simp only; omega) (by simp only; omega), rd_setFlag_other _ _ h']
  · rfl

/-- What follows the end of the home preference is L-B's: the reset unit stays. -/
theorem keepsRst_endHome {d : Dev} (h : homeRun d = true) : keepsWords rstUnit (clearHome d) (endHome d) := by
  unfold endHome
  rw [if_pos h]
  dsimp only
  split
  · exact (((keepsRst_moveState (clearHome d) .b stOperate reportProtection).setFlag (f := SDL_STATUS_HAS_ACTIVE) (not_rstUnit (by decide)) true).setFld
      (f := SDL_STATUS_ACTIVE) (not_rstUnit (by decide)) Line.b.ix).of_regs rfl
  · exact .refl _ _

theorem homeRun_endHome : homeRun (endHome d) = false := by
  by_cases h : homeRun d = true
  · exact ((keepsRst_endHome h).flag (f := RST_STATUS_HOME_RUN) (by unfold rstUnit; decide)).trans (homeRun_clearHome d)
  · rw [endHome, if_neg h]
    exact Bool.eq_false_iff.mpr h

theorem fld_endHome {f : Fld} (hf : apart f RST_STATUS_HOME_RUN) : fld (endHome d) f = fld d f := by
  have hreg : f.reg = RST_STATUS := hf.1
  by_cases h : homeRun d = true
  · exact ((keepsRst_endHome h).fld (by rw [hreg]; unfold rstUnit; decide)).trans (fld_clearHome d hf)
  · rw [endHome, if_neg h]

theorem rd_endHome {q : Reg} (h : rstUnit q.ofs) (h' : q.ofs ≠ RST_STATUS.ofs) (h'' : q.ofs ≠ RST_EVT.ofs) : rd (endHome d) q = rd d q := by
  by_cases hr : homeRun d = true
  · exact ((keepsRst_endHome hr).rd h).trans (rd_clearHome d h h' h'')
  · rw [endHome, if_neg hr]

theorem homeEnd_endHome {d : Dev} (h : homeRun d = true) : regBit (endHome d) RST_EVT rsHomeEnd = true := by
  rw [regBit, (keepsRst_endHome h).rd (by unfold rstUnit; decide), clearHome_of_run h]
  exact regBit_raiseEvt_same _ (u := evRST) (by decide) (by decide) (by decide)

/-- With no active line L-B leaves Standby for Operate and takes the role. -/
theorem endHome_lineB {d : Dev} (h : homeRun d = true) (ha : hasActive d = false) (hb : termState d .b = stStandby) :
    isActive (endHome d) .b = true ∧ termState (endHome d) .b = stOperate := by
  have hclear := (keepsRoles.refl d).clearHome
  have hactive : hasActive (clearHome d) = false := (flag_congr SDL_STATUS_HAS_ACTIVE (hclear.2.2 _ isRoleWord_status)).trans ha
  have hstate : termState (clearHome d) .b = stStandby := (hclear.termState .b).trans hb
  have heq : endHome d = takeRole (moveState (clearHome d) .b stOperate reportProtection) .b := by
    unfold endHome
    rw [if_pos h]
    dsimp only
    rw [hactive, hstate, if_pos (by decide)]
  obtain ⟨_, _, hrole, _, hterm⟩ := takeRole_spec (moveState (clearHome d) .b stOperate reportProtection) .b
  obtain ⟨_, _, hmoved, _⟩ := moveState_spec (clearHome d) .b (st := stOperate) reportProtection (by decide)
  rw [heq]
  exact ⟨hrole, (hterm .b).trans hmoved⟩

end Home

/-! ### The release (R427, R431) -/

section Release

variable (d : Dev)

/-- BOOT_MS, PHASE and RELEASED are shown. -/
def releaseShown (d : Dev) : Dev :=
  setFlag (setBootPhase (dropTimer (wrn d RST_BOOT_MS ((d.elapsed - d.bootFrom) / ticksPerMs)) .bootRelease) 7) RST_STATUS_RELEASED true

/-- The home preference starts. -/
def homeBegun (d : Dev) : Dev :=
  if fld d RST_HOME_CFG_HOME_WAIT = 0 then d
  else setFlag (startTimer d .homeWait (fld d RST_HOME_CFG_HOME_WAIT * ticksPerSec)) RST_STATUS_HOME_RUN true

/-- It ends at once where L-A is not registered. -/
def homeSettled (d : Dev) : Dev := if flag d (RNG_Lx_CTL_REG_EN 0) then d else endHome d

/-- The release is signalled where a warm reset preceded it. -/
def releaseSignalled (d : Dev) : Dev := flushVectors (if fld d RST_CAUSE_KIND = rkCold then d else raiseRst d rsReset)

theorem releaseDevice_eq : releaseDevice d = releaseSignalled (homeSettled (homeBegun (releaseShown d))) := rfl

theorem rd_releaseSignalled {q : Reg} (h : rstUnit q.ofs) (h' : q.ofs ≠ RST_EVT.ofs) : rd (releaseSignalled d) q = rd d q := by
  unfold rstUnit at h
  rw [releaseSignalled, rd, flushVectors_regs, ← rd]
  split
  · rfl
  · exact rd_raiseRst _ _ h' (by simp only; omega) (by simp only; omega)

theorem fld_homeBegun {f : Fld} (hf : apart f RST_STATUS_HOME_RUN) : fld (homeBegun d) f = fld d f := by
  unfold homeBegun
  split
  · rfl
  · exact fld_setFlag_apart _ _ hf

theorem rd_homeBegun {q : Reg} (h : q.ofs ≠ RST_STATUS.ofs) : rd (homeBegun d) q = rd d q := by
  unfold homeBegun
  split
  · rfl
  · exact rd_setFlag_other _ _ h

theorem fld_homeSettled {f : Fld} (hf : apart f RST_STATUS_HOME_RUN) : fld (homeSettled d) f = fld d f := by
  unfold homeSettled
  split
  · rfl
  · exact fld_endHome d hf

theorem rd_homeSettled {q : Reg} (h : rstUnit q.ofs) (h' : q.ofs ≠ RST_STATUS.ofs) (h'' : q.ofs ≠ RST_EVT.ofs) : rd (homeSettled d) q = rd d q := by
  unfold homeSettled
  split
  · rfl
  · exact rd_endHome d h h' h''

theorem rd_releaseShown {q : Reg} (h : q.ofs ≠ RST_STATUS.ofs) (h' : q.ofs ≠ RST_BOOT_MS.ofs) : rd (releaseShown d) q = rd d q := by
  rw [releaseShown, rd_setFlag_other _ _ h, setBootPhase, rd_setFld_other _ _ h]
  exact rd_wrn_other d _ h'

/-- Beside HOME_RUN the status shows what the release has shown. -/
theorem fld_releaseDevice {f : Fld} (hf : apart f RST_STATUS_HOME_RUN) : fld (releaseDevice d) f = fld (releaseShown d) f := by
  have hreg : f.reg = RST_STATUS := hf.1
  rw [releaseDevice_eq, fld_congr f (rd_releaseSignalled _ (by rw [hreg]; unfold rstUnit; decide) (by rw [hreg]; decide)), fld_homeSettled _ hf,
    fld_homeBegun _ hf]

theorem flag_releaseDevice {f : Fld} (hf : apart f RST_STATUS_HOME_RUN) : flag (releaseDevice d) f = flag (releaseShown d) f := by
  rw [flag, fld_releaseDevice d hf, flag]

theorem releaseDevice_shows : flag (releaseDevice d) RST_STATUS_RELEASED = true ∧ bootPhase (releaseDevice d) = 7
    ∧ rdn (releaseDevice d) RST_BOOT_MS = (d.elapsed - d.bootFrom) / ticksPerMs % 0x100000000
    ∧ flag (releaseDevice d) RST_STATUS_NO_FW = flag d RST_STATUS_NO_FW := by
  refine ⟨?_, ?_, ?_, ?_⟩
  · rw [flag_releaseDevice d (by simp [apart])]
    exact flag_setFlag_same _ _ (by decide) (by decide)
  · rw [bootPhase, fld_releaseDevice d (by simp [apart]), releaseShown, fld_setFlag_apart _ _ (by simp [apart])]
    exact fld_setFld_same _ _ (by decide) (by decide)
  · rw [releaseDevice_eq, rdn, rd_releaseSignalled _ (by unfold rstUnit; decide) (by decide), rd_homeSettled _ (by unfold rstUnit; decide) (by decide) (by decide),
      rd_homeBegun _ (by decide), releaseShown, rd_setFlag_other _ _ (by decide), setBootPhase, rd_setFld_other _ _ (by decide), ← rdn]
    exact rdn_wrn_same d RST_BOOT_MS _
  · rw [flag_releaseDevice d (by simp [apart]), releaseShown, flag_setFlag_apart _ _ (by simp [apart]), setBootPhase,
      flag_setFld_apart _ _ (by simp [apart])]
    exact flag_congr RST_STATUS_NO_FW (rd_wrn_other d _ (by decide))

theorem registered_homeBegun : flag (homeBegun (releaseShown d)) (RNG_Lx_CTL_REG_EN 0) = flag d (RNG_Lx_CTL_REG_EN 0) :=
  (flag_congr _ (rd_homeBegun _ (by decide))).trans (flag_congr _ (rd_releaseShown d (by decide) (by decide)))

theorem homeRun_releaseDevice : flag (releaseDevice d) RST_STATUS_HOME_RUN = homeRun (homeSettled (homeBegun (releaseShown d))) := by
  rw [releaseDevice_eq]
  exact flag_congr RST_STATUS_HOME_RUN (rd_releaseSignalled _ (by unfold rstUnit; decide) (by decide))

theorem homeRun_released {d : Dev} (hr : flag d (RNG_Lx_CTL_REG_EN 0) = true) (hw : fld d RST_HOME_CFG_HOME_WAIT ≠ 0) :
    flag (releaseDevice d) RST_STATUS_HOME_RUN = true := by
  have hwait : fld (releaseShown d) RST_HOME_CFG_HOME_WAIT ≠ 0 := by
    rw [fld_congr RST_HOME_CFG_HOME_WAIT (rd_releaseShown d (by decide) (by decide))]
    exact hw
  rw [homeRun_releaseDevice, homeSettled, registered_homeBegun, hr, if_pos rfl, homeBegun, if_neg hwait]
  exact flag_setFlag_same _ _ (by decide) (by decide)

theorem homeRun_released_not {d : Dev} (hr : flag d (RNG_Lx_CTL_REG_EN 0) = false) : flag (releaseDevice d) RST_STATUS_HOME_RUN = false := by
  rw [homeRun_releaseDevice, homeSettled, registered_homeBegun, hr, if_neg (by decide)]
  exact homeRun_endHome _

theorem bootDone_releases {d : Dev} {m : Master} {value : Word} (ha : admits d m RST_FW_DONE.ofs = true) (hv : value.getLsbD 31 = true) (hm : 0x64 ≤ m)
    (hm' : m < 0x68) (hp : bootPhase d = 6) : bootDone m value d = releaseDevice d := by
  rw [bootDone, guarded_admits _ ha, hv, hp, decide_eq_true hm, decide_eq_true hm']
  rfl

theorem bootDone_stays {d : Dev} {m : Master} {value : Word} (ha : admits d m RST_FW_DONE.ofs = true)
    (h : value.getLsbD 31 = false ∨ m < 0x64 ∨ bootPhase d ≠ 6) : bootDone m value d = d := by
  rw [bootDone, guarded_admits _ ha, if_neg]
  intro hc
  simp only [Bool.and_eq_true, decide_eq_true_eq, beq_iff_eq] at hc
  obtain ⟨⟨⟨hv, hm⟩, -⟩, hp⟩ := hc
  obtain h | h | h := h
  · rw [h] at hv
    exact Bool.noConfusion hv
  · exact Nat.not_lt.mpr hm h
  · exact h hp

theorem bootReleaseTimeout_releases {d : Dev} (ht : timerOver d .bootRelease = true) (hp : bootPhase d = 5 ∨ bootPhase d = 6) :
    bootReleaseTimeout d = releaseDevice (setFlag d RST_STATUS_NO_FW (fld d RST_STATUS_BOOT_SLOT == 3)) := by
  rw [bootReleaseTimeout, ht, if_pos]
  obtain hp | hp := hp <;> rw [hp] <;> rfl

end Release

theorem release_home (s : State) :
      (∀ (m : Master) (value : Word), admits s.dev m RST_FW_DONE.ofs = true →
        (value.getLsbD 31 = true → 0x64 ≤ m → m < 0x68 → bootPhase s.dev = 6 → ∃ d : Dev, exec (.bootDone m value) s = .next (s.withDev d)
          ∧ flag d RST_STATUS_RELEASED = true ∧ bootPhase d = 7
          ∧ rdn d RST_BOOT_MS = (s.dev.elapsed - s.dev.bootFrom) / ticksPerMs % 0x100000000
          ∧ (flag s.dev (RNG_Lx_CTL_REG_EN 0) = true → fld s.dev RST_HOME_CFG_HOME_WAIT ≠ 0 → flag d RST_STATUS_HOME_RUN = true)
          ∧ (flag s.dev (RNG_Lx_CTL_REG_EN 0) = false → flag d RST_STATUS_HOME_RUN = false))
        ∧ (value.getLsbD 31 = false ∨ m < 0x64 ∨ bootPhase s.dev ≠ 6 → exec (.bootDone m value) s = .next s))
      ∧ (timerOver s.dev .bootRelease = true → bootPhase s.dev = 5 ∨ bootPhase s.dev = 6 → ∃ d : Dev,
          exec .bootReleaseTimeout s = .next (s.withDev d) ∧ flag d RST_STATUS_RELEASED = true ∧ bootPhase d = 7
            ∧ flag d RST_STATUS_NO_FW = (fld s.dev RST_STATUS_BOOT_SLOT == 3))
      ∧ (timerOver s.dev .homeWait = true → homeRun s.dev = true → ∃ e : Dev, exec .homeWaitExpire s = .next (s.withDev e)
          ∧ homeRun e = false ∧ regBit e RST_EVT rsHomeEnd = true
          ∧ (hasActive s.dev = false → termState s.dev .b = stStandby → isActive e .b = true ∧ termState e .b = stOperate))
      ∧ (timerOver s.dev .homeWait = false → exec .homeWaitExpire s = .next s) := by
  refine ⟨fun m value ha => ⟨fun hv hm hm' hp => ?_, fun h => ?_⟩, fun ht hp => ?_, fun ht hr => ?_, fun ht => ?_⟩
  · obtain ⟨hreleased, hphase, hms, -⟩ := releaseDevice_shows s.dev
    rw [exec_bootDone, bootDone_releases ha hv hm hm' hp]
    exact ⟨_, rfl, hreleased, hphase, hms, homeRun_released, homeRun_released_not⟩
  · rw [exec_bootDone, bootDone_stays ha h, withDev_self]
  · obtain ⟨hreleased, hphase, -, hfw⟩ := releaseDevice_shows (setFlag s.dev RST_STATUS_NO_FW (fld s.dev RST_STATUS_BOOT_SLOT == 3))
    rw [exec_bootReleaseTimeout, bootReleaseTimeout_releases ht hp]
    exact ⟨_, rfl, hreleased, hphase, hfw.trans (flag_setFlag_same _ _ (by decide) (by decide))⟩
  · have hrun : homeRun (dropTimer s.dev .homeWait) = true := hr
    rw [exec_homeWaitExpire, homeWaitExpire, if_pos ht]
    exact ⟨_, rfl, homeRun_endHome _, homeEnd_endHome hrun, fun ha hb => endHome_lineB hrun ha hb⟩
  · rw [exec_homeWaitExpire, homeWaitExpire, if_neg (by rw [ht]; decide), withDev_self]

/-! ### The TAP (R442) -/

/-- The instruction that is in force after a load. -/
def loadedInstr (i : JtagInstr) (low : Bool) : JtagInstr := if i == .other || takesPins i && !low then .bypass else i

/-- An instruction that takes the pins is in force only while RESET_N is low. -/
theorem loadedInstr_takesPins : ∀ (i : JtagInstr) (low : Bool), takesPins (loadedInstr i low) = true → low = true ∧ loadedInstr i low = i := by
  intro i
  cases i <;> decide

theorem loadedInstr_low : ∀ i : JtagInstr, takesPins i = true → loadedInstr i true = i := by
  intro i
  cases i <;> decide

theorem bus_and_tap (s : State) : exec .i2cAbandon s = .next s
      ∧ ∀ (i : JtagInstr) (low : Bool), ∃ d : Dev, exec (.jtagInstruction i low) s = .next (s.withDev d)
        ∧ d = { s.dev with jtag := d.jtag } ∧ (takesPins d.jtag = true → low = true ∧ d.jtag = i)
        ∧ (takesPins i = true → low = true → d.jtag = i) := by
  refine ⟨exec_i2cAbandon s, fun i low => ⟨_, exec_jtagInstruction i low s, rfl, loadedInstr_takesPins i low, fun hi hl => ?_⟩⟩
  rw [hl]
  exact loadedInstr_low i hi

/-- Settles O60, by kind of reset: what each puts at its reset value and what it keeps, and which words the release and the end of the
home preference write. -/
theorem startUpAndReset : Obligations.StartUpAndReset := by
  unfold Obligations.StartUpAndReset
  exact ⟨cold_reset, system_reset, rst_ctl_writes, function_reset, core_watchdog, release_home, bus_and_tap⟩

end Sys2Proof.Machine
end
